-- ==== Sys2Proof/Word.lean ====
section
/-! DEFINITION. The words of the M960: registers of 32 bits, pixels and samples of 16 bits, bytes of 8 bits (R5). -/

namespace Sys2Proof

/-- A register word. -/
abbrev Word := BitVec 32

/-- A byte of DRAM, flash or a packet. -/
abbrev Byte := BitVec 8

/-- A 16-bit sample: binary16 in the light domain, unsigned in the drive domain (R11). -/
abbrev Sample := BitVec 16

end Sys2Proof
end

