-- ==== Sys2Proof/Syntax.lean ====
section
/-! DEFINITION. The commands of the M960: one constructor for each row of the table of operations and events. -/

namespace Sys2Proof

/-- An access of one port of a block bank (R363): a 64-bit word by its index, read or written. -/
structure BankAccess where
  word : Nat
  wr : Option (BitVec 64)
  deriving DecidableEq, Repr

/-- A cycle of a block bank: the access on each of its two ports. -/
structure BankCycle where
  a : Option BankAccess
  b : Option BankAccess
  deriving DecidableEq, Repr

/-- The commands, in the order of the table. An operand that names an index is a natural number whose range
WellFormed.lean states; measured or received data are operands. -/
inductive Instr where
  /-- FRAME_BOUNDARY (R94). TIMING starts an output frame. Pending /F settings, the applied set, repeats, DITH frame
count, ZONE cap and end-of-frame records all take effect here. -/
  | frameBoundary
  /-- OUTPUT_LINE_START (R94). TIMING starts an output line, and the pixel path processes a line from the frame slot
through DITH. -/
  | outputLineStart (faults : List Nat)
  /-- RX_BLOCK (R30). An ISL or CAS receiver takes a 130-bit block and checks its sync header. -/
  | rxBlock (lane : Nat) (hdr : Nat) (payload : Nat)
  /-- REFCFG_WRITE (R40). A write of SPREAD or EN to REFCFG is applied, or held pending while a lane is in L0. -/
  | refcfgWrite (port : Nat) (w : Word)
  /-- REFCFG_PENDING_APPLY (R40). A pending SPREAD or EN value is applied once no EDL forward lane is in L0. -/
  | refcfgPendingApply
  /-- DFE_UPDATE (R42). A receiver updates its DFE taps every 256 UI. -/
  | dfeUpdate (lane : Nat) (err : Bool) (dec : Nat)
  /-- ADAPT_WINDOW_END (R43). A 4,096 UI transition window ends, and adaptation may freeze or resume. -/
  | adaptWindowEnd (lane : Nat) (changes : Nat)
  /-- RX_LOCK_LOST (R45). A receiver loses lock and reports it to its protocol layer. -/
  | rxLockLost (lane : Nat)
  /-- EI_DETECT (R46). The idle detector finds the signal below 50 mV for 256 UI. -/
  | eiDetect (lane : Nat)
  /-- EI_CLEAR (R46). The idle detector finds the signal above 100 mV for 256 UI. -/
  | eiClear (lane : Nat)
  /-- ES_START (R49). A write of ES_CTRL.START starts an eye-scan point, or aborts at once outside L0. -/
  | esStart (port : Nat) (lane : Nat) (w : Word)
  /-- ES_DWELL_END (R49). The dwell of an eye-scan point ends, and DONE is set. -/
  | esDwellEnd (lane : Nat) (errs : Nat)
  /-- LSTATE_REQ_WRITE (R53). A write of LSTATE.REQ sets a lane's host limit and pending target. -/
  | lstateReqWrite (port : Nat) (lane : Nat) (w : Word)
  /-- LANE_TRANSITION_DONE (R498). A lane completes an entry or wake, and moves on to any pending target. -/
  | laneTransitionDone (lane : Nat)
  /-- PRBS_WRITE (R55). A write of PRBS enables a generator, checker or loopback, taking the lane out of its link. -/
  | prbsWrite (port : Nat) (lane : Nat) (w : Word)
  /-- PRBS_CHECKER_SYNC (R54). A PRBS checker locks onto the pattern. -/
  | prbsCheckerSync (lane : Nat) (errs : Nat)
  /-- CNT_CLR (R89). A write to a CNT_CLR register clears the named counters. -/
  | cntClr (port : Nat) (page : Nat) (off : Nat) (w : Word)
  /-- PIP (R67). An accepted PIP row starts a source frame, plans its showings, picks a slot and drives lock. -/
  | pip (t : Nat) (copies : List (List Byte))
  /-- SLEEP (R87). An accepted SLEEP row moves the link to S1 or S2. -/
  | sleepRow (copies : List (List Byte))
  /-- WAKE (R87). A WAKE row in S1 starts a fast retrain to the given lanes and rate. -/
  | wakeRow (copies : List (List Byte))
  /-- REGION (R68). A REGION row declares a rectangle of a partial frame, or flushes it. -/
  | regionRow (copies : List (List Byte))
  /-- META (R70). A META row is stored in the eight-entry FIFO. -/
  | metaRow (copies : List (List Byte))
  /-- ALN (R83). An ALN row is used to deskew the lanes during ALIGN. -/
  | alnRow (link : Nat) (blocks : List (List Byte)) (skews : List Nat)
  /-- TS1 (R83). A TS1 training block is received during the RATE phase. -/
  | ts1Block (link : Nat) (blocks : List (List Byte)) (inverted : Nat)
  /-- IDLE (R66). An IDLE control row is accepted and ends a LINE segment boundary. -/
  | idleRow (copies : List (List Byte))
  /-- CONTROL_ROW_IGNORED (R62). A control row is ignored: all copies fail, the copies disagree, or the CTYPE is unknown. -/
  | controlRowIgnored (copies : List (List Byte))
  /-- MISALIGNED_ROW (R63). A row whose lanes carry different sync headers is ignored, and four in a row lose the link. -/
  | misalignedRow
  /-- LINE_PACKET (R73). A LINE segment arrives whole. It is checked, stored for INPUT and STATS, or discarded. -/
  | linePacket (t : Nat) (lanes : List (List Byte)) (bad : Bool)
  /-- TABLE_PACKET (R501). A TABLE packet arrives. It is range-checked, staged and CRC-checked, or refused. -/
  | tablePacket (copies : List (List Byte)) (lanes : List (List Byte)) (bad : Bool)
  /-- TABLE_COMMIT_DONE (R76). A staged TABLE packet's commit ends, and TABLE_ACK is sent. -/
  | tableCommitDone
  /-- LINE_WRITE (R148). The write side writes a delivered line once earlier lines are written. -/
  | lineWrite
  /-- LINE_COPY (R149). The write side copies a line from P no earlier than D_n − t_line. -/
  | lineCopy
  /-- LINE_DEADLINE (R150). D_n passes with the line incomplete, and the line is declared missing. -/
  | lineDeadline
  /-- REG_RD (R79). A REG_RD back-channel frame reads registers and is answered REG_RD_RSP. -/
  | regRd (bytes : List Byte)
  /-- REG_WR (R79). A REG_WR back-channel frame writes registers and is answered REG_WR_ACK. -/
  | regWr (bytes : List Byte)
  /-- WAKE_REQ (R87). A WAKE_REQ frame in S2 starts a fast retrain. -/
  | wakeReq (bytes : List Byte)
  /-- BC_FRAME_DISCARD (R77). A back-channel frame with a bad CRC or LEN is discarded. -/
  | bcFrameDiscard (bytes : List Byte)
  /-- TRAIN_CAPS (R82). A TRAIN CAPS message from the source gives its maxima and formats. -/
  | trainCaps (bytes : List Byte)
  /-- TRAIN_OK (R82). A TRAIN OK from the source closes a phase. -/
  | trainOk (bytes : List Byte)
  /-- PRESET_ACK (R82). The source acknowledges a preset request. -/
  | presetAck (bytes : List Byte)
  /-- TRAIN_READY (R83). The source answers READY and starts scrambled rows. -/
  | trainReady (bytes : List Byte)
  /-- TRAIN_FAIL (R84). A TRAIN FAIL from the source fails the attempt. -/
  | trainFail (bytes : List Byte)
  /-- TRAIN_PHASE_TIMEOUT (R84). A training phase passes its 10 ms, the attempt fails, and it is retried or the link
goes ABSENT. -/
  | trainPhaseTimeout (link : Nat)
  /-- EQ_PRESET_MEASURE (R500). The settling and eye measurement of one EQ preset end. -/
  | eqPresetMeasure (link : Nat) (eyes : List (Nat × Nat))
  /-- LINK_TRAIN_START (R87). The link leaves DOWN or ABSENT and starts a set of training attempts. -/
  | linkTrainStart
  /-- FAST_RETRAIN_DONE (R85). A fast retrain reaches READY. -/
  | fastRetrainDone
  /-- FAST_FAIL (R85). A fast retrain fails to reach READY within 300 µs, and full training runs. -/
  | fastFail
  /-- EVENT (R80). The M960 sends an EVENT frame, at most one per 100 µs. -/
  | bcEvent
  /-- RETRAIN (R87). ISL.CMD.RETRAIN abandons the link or attempt and starts a new set. -/
  | islRetrain (port : Nat) (w : Word)
  /-- HPD_PULSE (R86). CMD.HPD_PULSE drives ISL_HPD low for 2 ms. -/
  | hpdPulse (port : Nat) (w : Word)
  /-- HPD_PULSE_END (R86). The 2 ms HPD pulse ends, and ISL_HPD returns to its level. -/
  | hpdPulseEnd
  /-- META_POP (R89). A write of META_POP removes the head META entry. -/
  | metaPop (port : Nat) (w : Word)
  /-- LATE_PIP (R100). No pip has arrived by the end of the tolerance, and TIMING runs on unlocked. -/
  | latePip
  /-- PIP_TIMEOUT (R100). No pip has arrived within PERIOD_MAX, and TIMING enters self-refresh. -/
  | pipTimeout
  /-- VREF_EDGE (R103). An active VREF_IN edge places a genlocked frame boundary and trims PLL_PIX. -/
  | vrefEdge (t : Nat) (rising : Bool)
  /-- HREF_EDGE (R103). An HREF_IN edge is counted to measure the VREF interval. -/
  | hrefEdge (t : Nat) (rising : Bool)
  /-- GL_LOSS (R104). VREF is missing for 1.5 intervals, or HREF for 100 µs. Genlock falls back. -/
  | glLoss
  /-- BFI_DARK_BAND (R102). A zone row's black-frame dark band starts. -/
  | bfiDarkBand (row : Nat) (delay : Nat)
  /-- ENTER (R106). SREF.CMD.ENTER puts TIMING into self-refresh with reason HOST. -/
  | srefEnter (port : Nat) (w : Word)
  /-- EXIT (R112). SREF.CMD.EXIT arms an exit at the next pip, or is ignored. -/
  | srefExit (port : Nat) (w : Word)
  /-- RELEASE (R499). SREF.CMD.RELEASE withdraws ENTER, and self-refresh continues or exits at the next pip. -/
  | srefRelease (port : Nat) (w : Word)
  /-- SREF_RET_WAKE (R111). TIMING asks D5 to D9 back to ON 40 µs before the next boundary. -/
  | srefRetWake
  /-- LUT_DATA_ACCESS (R121). An access to LUT_DATA reads or writes the load bank entry and advances INDEX. -/
  | lutDataAccess (port : Nat) (wr : Option Word)
  /-- LOAD (R123). LUT_CTRL.LOAD starts a preset fill of the load bank. -/
  | lutLoad (port : Nat) (w : Word)
  /-- LUT_DONE (R124). A preset load ends, with LUT_DONE or LUT_FAILED. -/
  | lutDone
  /-- CAP_STATUS_WRITE (R135). A write of 1 to CAP_STATUS.VALID re-arms the zone capture. -/
  | capStatusWrite (port : Nat) (w : Word)
  /-- STATS_RB_DATA_READ (R136). A read of STATS.RB_DATA returns a record and advances RB_ADDR. -/
  | statsRbDataRead (port : Nat)
  /-- RB_SEL_WRITE (R161). A write of CODEC.RB_SEL starts a one-line readback. -/
  | rbSelWrite (port : Nat) (w : Word)
  /-- RB_READY (R161). A CODEC readback decode finishes. -/
  | rbReady
  /-- CODEC_RB_DATA1_READ (R160). A read of RB_DATA1 returns B and advances RB_X. -/
  | codecRbData1Read (port : Nat)
  /-- ZONE_ROW_SOLVE (R167). ZONE solves a zone row's levels and sends its level packets. -/
  | zoneRowSolve
  /-- PCAP_WRITE (R171). A write of PCAP is stored, or refused as privileged when above PCAP_SAFE. -/
  | pcapWrite (port : Nat) (w : Word)
  /-- CLASS_DATA_ACCESS (R165). An access to CLASS_DATA reads or writes a word of the pending class map. -/
  | classDataAccess (port : Nat) (wr : Option Word)
  /-- AG_DATA_ACCESS (R173). An access to AG_DATA reads or writes a staging gain, or is dropped. -/
  | agDataAccess (port : Nat) (wr : Option Word)
  /-- AG_COMMIT (R173). AG_COMMIT schedules the copy of the staging gains at the next boundary. -/
  | agCommit (port : Nat) (w : Word)
  /-- AGE_GAIN_UPDATE (R173). The control core computes and commits the ageing gains once a minute. -/
  | ageGainUpdate
  /-- LV_DATA_READ (R186). A read of LV_DATA returns a zone record and advances LV_ADDR. -/
  | lvDataRead (port : Nat)
  /-- PSF_DATA_ACCESS (R175). An access to PSF.DATA reads or writes a load-bank sample. -/
  | psfDataAccess (port : Nat) (wr : Option Word)
  /-- CALC (R176). PSF.CALC starts computing PEAK and VREACH for the load bank. -/
  | psfCalc (port : Nat) (w : Word)
  /-- CALC_DONE (R176). The PSF calculation ends, and LOAD_INFO is updated. -/
  | psfCalcDone
  /-- CLIP_DATA_READ (R204). A read of CLIP_DATA returns a zone's clip count and advances CLIP_ADDR. -/
  | clipDataRead (port : Nat)
  /-- CELLLUT_DATA_ACCESS (R206). An access to CELLLUT.DATA reads or writes a load-bank entry. -/
  | celllutDataAccess (port : Nat) (wr : Option Word)
  /-- CHECK_START (R219). PATCH.CHECK.START starts a CRC-32 check of a patch set. -/
  | checkStart (port : Nat) (w : Word)
  /-- CHECK_DONE (R219). The patch-set check ends with a CRC or a fault. -/
  | checkDone
  /-- COARSE_SET_LOAD (R222). The firmware loads the coarse patch set from flash after DRAM training, or reports
COARSE_BAD. -/
  | coarseSetLoad
  /-- DEFECT_DATA_ACCESS (R227). An access to DEFECT.DATA reads or writes a load-bank entry. -/
  | defectDataAccess (port : Nat) (wr : Option Word)
  /-- AUTO_DATA_READ (R235). A read of AUTO_DATA returns an auto entry and advances AUTO_ADDR. -/
  | autoDataRead (port : Nat)
  /-- AUTO_CTL_CLR (R232). AUTO_CTL.CLR schedules the auto list to empty at the next boundary. -/
  | autoCtlClr (port : Nat) (w : Word)
  /-- OD_DATA_ACCESS (R242). An access to OD.DATA reads or writes a load-bank table entry. -/
  | odDataAccess (port : Nat) (wr : Option Word)
  /-- REINIT (R245). OD.CMD.REINIT makes the next frame an initialisation frame. -/
  | odReinit (port : Nat) (w : Word)
  /-- ADC_CONVERSION (R249). The ADC converts the next thermistor every 250 µs, with fault detection. -/
  | adcConversion (code : Nat)
  /-- THERM_REGIONAL_UPDATE (R251). The control core computes the pending thermal field for an ended frame and writes
COMMIT. -/
  | thermRegionalUpdate
  /-- THERM_COMMIT (R252). A write of THERM.COMMIT schedules T_PEND to become active at the next boundary. -/
  | thermCommit (port : Nat) (w : Word)
  /-- REG_DATA_ACCESS (R256). An access to REG_DATA reads or writes a region array element. -/
  | regDataAccess (port : Nat) (wr : Option Word)
  /-- CONV_DATA_ACCESS (R256). An access to CONV_DATA reads or writes a CONV entry. -/
  | convDataAccess (port : Nat) (wr : Option Word)
  /-- DITH_DATA_ACCESS (R260). An access to DITH.DATA reads a ROM or RAM entry, or writes the load bank. -/
  | dithDataAccess (port : Nat) (wr : Option Word)
  /-- SYNC_FRAME (R280). EDL sends SYNC TIMING and SYNC FRAME on each UP port ahead of a frame boundary. -/
  | syncFrame (delay : Nat)
  /-- SYNC_APPLY (R283). EDL sends a SYNC APPLY for a zone row's apply instant, and counts a late level. -/
  | syncApply (row : Nat) (delay : Nat)
  /-- HCMD_GO (R288). HCMD_GO sends a partner command, or refuses it. -/
  | hcmdGo (port : Nat) (w : Word)
  /-- SAFE_LEVEL_WRITE (R288). A write of EDL.SAFE_LEVEL is broadcast on every UP backlight port. -/
  | safeLevelWrite (port : Nat) (w : Word)
  /-- LINK_HOLD_WRITE (R288). A write of EDL.LINK_HOLD is broadcast on every UP backlight port. -/
  | linkHoldWrite (port : Nat) (w : Word)
  /-- POLL (R292). EDL opens a return-bus slot with a POLL chosen by priority. -/
  | edlPoll (bus : Nat)
  /-- STATUS_RESPONSE (R291). A good STATUS response is copied into the partner's table entry. -/
  | statusResponse (bus : Nat) (bytes : List Byte) (code : Nat)
  /-- FAULTS_RESPONSE (R294). A good FAULTS response is recorded and passed to DEFECT. -/
  | faultsResponse (bus : Nat) (bytes : List Byte) (code : Nat)
  /-- ERRCNT_RESPONSE (R291). A good ERRCNT response is recorded and fed to the PRBS turn. -/
  | errcntResponse (bus : Nat) (bytes : List Byte) (code : Nat)
  /-- READBACK_RESPONSE (R288). A READBACK response completes a pending host read. -/
  | readbackResponse (bus : Nat) (bytes : List Byte) (code : Nat)
  /-- CAPS_RESPONSE (R298). A CAPS response completes an ID assignment and fills the partner entry. -/
  | capsResponse (bus : Nat) (bytes : List Byte) (code : Nat)
  /-- NONE_RESPONSE (R291). A NONE response is received. -/
  | noneResponse (bus : Nat) (bytes : List Byte) (code : Nat)
  /-- POLL_MISS (R293). A slot closes without a good response. The partner may become ABSENT or a chain may end. -/
  | pollMiss (bus : Nat) (codeErrs : Nat) (answered : Bool)
  /-- EDL_TRAIN_DONE (R296). 1,100 µs after the patterns start, EDL sends TRAIN DONE and begins enumeration. -/
  | edlTrainDone (edlPort : Nat)
  /-- EDL_TRAIN_TIMEOUT (R300). A port's training attempt passes 2 ms, and the port goes to WAIT. -/
  | edlTrainTimeout (edlPort : Nat)
  /-- EDL_TRAIN_RETRY (R300). At a vertical blanking, a waiting port starts another attempt or becomes FAILED. -/
  | edlTrainRetry (edlPort : Nat)
  /-- PORT_RETRAIN (R300). EDL_PORTn.CMD.RETRAIN starts a new attempt on a FAILED port. -/
  | portRetrain (port : Nat) (edlPort : Nat) (w : Word)
  /-- ENUM (R297). EDL.CMD.ENUM runs the ID walk and retrains every port. -/
  | edlEnum (port : Nat) (w : Word)
  /-- PRBS_BURST (R303). EDL sends a PRBS burst in vertical blanking. -/
  | prbsBurst (edlPort : Nat) (blocks : Nat)
  /-- GROUP_BROADCAST (R381). A write to a group page's CFG_ALL or CMD_ALL is written to each child. -/
  | groupBroadcast (port : Nat) (group : Nat) (cmd : Bool) (w : Word)
  /-- GATE_LINE (R311). GATE starts a gate line and drives its edges. -/
  | gateLine
  /-- ON (R319). PANELPWR.CMD.ON starts, pends or is refused as a power-on sequence. -/
  | panelOn (port : Nat) (w : Word)
  /-- OFF (R322). PANELPWR.CMD.OFF starts the power-off sequence. -/
  | panelOff (port : Nat) (w : Word)
  /-- POWER_ON_STEP (R319). A power-on step's delay ends, and the next step runs. -/
  | powerOnStep
  /-- PG_IN_RISE (R319). PG_IN rises, releasing a step that waits on it and acting as a wake source. -/
  | pgInRise
  /-- PG_FAIL (R320). PG_IN stays low for PG_TIMEOUT, and power-off runs. -/
  | pgFail
  /-- AUTO_ON (R319). PWR_FAIL_N has stayed high 100 ms with AUTO_ON set, and power-on starts. -/
  | autoOn
  /-- POWER_OFF_STEP (R323). A timed step of the power-off sequence ends, and the next one runs. -/
  | powerOffStep
  /-- PFAIL (R322). PWR_FAIL_N low for 1 µs starts the power-off sequence and the NV save. -/
  | pfail
  /-- ALLOC (R333). REQ_GO.ALLOC requests a region. -/
  | regionAlloc (port : Nat) (w : Word)
  /-- FREE (R334). REQ_GO.FREE requests that a region be freed. -/
  | regionFree (port : Nat) (w : Word)
  /-- REGION_REQ_DONE (R333). An allocation or free completes with a RESULT status. -/
  | regionReqDone
  /-- DRAM_BEAT (R338). A channel serves one beat. This includes ECC correction, lazy commit and faults. -/
  | dramBeat (engine : Nat) (handle : Nat) (ofs : Nat) (wr : Option (List Byte)) (ecc : Nat) (word : Nat) (lat : Nat) (waiting : List Nat)
  /-- C0_WINDOW (R339). A 1 µs class-0 admission window opens on each channel. -/
  | c0Window
  /-- DRAM_REFRESH (R338). A refresh falls due, or is forced after four postponements. -/
  | dramRefresh (ch : Nat) (busy : Bool)
  /-- MOP_SWITCH (R330). MEMC switches the memory operating point in vertical blanking after the last state writeback. -/
  | mopSwitch
  /-- SCRUB (R345). Class 1 scrubs committed pages through each period. -/
  | scrubPage (corr : List Nat) (unc : List Nat)
  /-- RETIRED (R347). A retirement copy ends. -/
  | retireDone
  /-- MIGRATION_TIMEOUT (R343). An access has waited 40 µs on a migration, and faults MIGRATING. -/
  | migrationTimeout (engine : Nat) (handle : Nat) (ofs : Nat) (wr : Option (List Byte))
  /-- RESUME (R342). FLT_CMD.RESUME retries a halted engine's faulting beat. -/
  | fltResume (port : Nat) (engine : Nat)
  /-- SKIP (R342). FLT_CMD.SKIP drops the faulting beat and continues. -/
  | fltSkip (port : Nat) (engine : Nat)
  /-- ABORT (R342). FLT_CMD.ABORT ends the halted transfer. -/
  | fltAbort (port : Nat) (engine : Nat)
  /-- RETIRE_CMD (R352). ECC.RETIRE_CMD retires a physical page. -/
  | retireCmd (port : Nat) (w : Word)
  /-- GO (R348). BULK.CTRL.GO starts a window transfer. -/
  | bulkGo (port : Nat) (w : Word)
  /-- DONE (R348). A BULK transfer ends. -/
  | bulkDone
  /-- BULK_WIN_ACCESS (R348). An access to the BULK window, dropped while busy. -/
  | bulkWinAccess (port : Nat) (index : Nat) (wr : Option Word)
  /-- OWN_WRITE (R359). A write of BANKS.OWN[n] starts a handover, replaces a pending one, or is refused. -/
  | ownWrite (port : Nat) (bank : Nat) (w : Word)
  /-- HANDOVER (R359). A bank's in-flight accesses drain, and the new owner becomes active. -/
  | handover (bank : Nat) (cycles : List BankCycle)
  /-- CLEAR_DONE (R361). The zero-fill of a handed-over bank ends, and the new owner proceeds. -/
  | clearDone (bank : Nat)
  /-- WIN_DATA_ACCESS (R368). An access to BANKS.WIN_DATA reaches a bank word as HOST and advances OFFSET. -/
  | winDataAccess (port : Nat) (wr : Option Word)
  /-- APPLY_GO (R382). CHIP.APPLY.GO copies the /F shadows into the applying set and starts the validator. -/
  | applyGo (port : Nat) (w : Word)
  /-- VALIDATION_DONE (R382). The validator finishes and accepts or rejects the applying set. -/
  | validationDone
  /-- REVERT (R382). CHIP.REVERT copies the active values back into the /F shadows. -/
  | chipRevert (port : Nat) (w : Word)
  /-- GUARANTEE_VOID_WRITE (R21). A write of 1 clears GUARANTEE_VOID unless a class-0 perturbation is enabled. -/
  | guaranteeVoidWrite (port : Nat) (w : Word)
  /-- SOFT_RST (R371). A write of SOFT_RST resets a unit's block registers, at once or at the next boundary. -/
  | softRst (port : Nat) (page : Nat) (w : Word)
  /-- LOCK_WRITE (R372). A write of LOCK locks or unlocks a unit's page. -/
  | lockWrite (port : Nat) (page : Nat) (w : Word)
  /-- IRQ_SET (R384). A write of IRQ_SET sets IRQ_RAW bits for test. -/
  | irqSet (port : Nat) (page : Nat) (w : Word)
  /-- IRQ_PEND_WRITE (R384). A write of 1 to IRQ_PEND clears IRQ_RAW bits, and IRQ_N may be released. -/
  | irqPendWrite (port : Nat) (page : Nat) (w : Word)
  /-- ERR_COUNT_READ (R7). A read of an RC register returns its value and clears it. -/
  | errCountRead (port : Nat) (page : Nat)
  /-- READ_64_LOW (R10). A read of the low half of a 64-bit register latches the high half for that port. -/
  | read64Low (port : Nat) (addr : Nat)
  /-- REG_WRITE (R7). A write to a register that has no row of its own, with its lock, gate, power, privilege and
shadow checks. -/
  | regWrite (port : Nat) (addr : Nat) (w : Word)
  /-- WRITE (R376). A quad-SPI WRITE transaction posts data words. -/
  | spiWrite (addr : Nat) (bytes : List Byte)
  /-- QWRITE (R376). A quad-SPI QWRITE transaction posts data words on four lines. -/
  | spiQwrite (addr : Nat) (bytes : List Byte)
  /-- READ (R377). A quad-SPI READ transaction returns words after wait and start bytes. -/
  | spiRead (addr : Nat) (n : Nat)
  /-- QREAD (R377). A quad-SPI QREAD transaction returns words on four lines. -/
  | spiQread (addr : Nat) (n : Nat)
  /-- SPI_STATUS (R377). A quad-SPI STATUS command returns and clears the status byte. -/
  | spiStatus
  /-- SPI_UNKNOWN_COMMAND (R376). An unknown quad-SPI command is ignored up to HSPI_CS_N rising. -/
  | spiUnknownCommand (code : Nat)
  /-- I2C_WRITE (R378). An I2C write transaction writes complete words. -/
  | i2cWrite (addr : Nat) (bytes : List Byte)
  /-- I2C_READ (R378). An I2C read transaction returns words with clock stretching. -/
  | i2cRead (addr : Nat) (n : Nat)
  /-- I2C_TIMEOUT (R378). A word is not ready after 100 µs of stretching, and 0x00 is sent. -/
  | i2cTimeout
  /-- TUNNEL (R477). A TUNNEL block is received and relayed, executed or returned as a reply. -/
  | tunnel (lane : Nat) (block : List Byte)
  /-- TUNNEL_TIMEOUT (R477). No tunnel reply arrives within 2 ms, and the root returns 0. -/
  | tunnelTimeout
  /-- WDOG (R386). The control-core watchdog expires and restarts the core. -/
  | ctlWdog
  /-- CTL_RESTART (R386). CTL.CMD.RESTART restarts the control core. -/
  | ctlRestart (port : Nat) (w : Word)
  /-- RESTARTED (R386). A control-core restart ends, and the core runs again. -/
  | ctlRestarted
  /-- NOP (R387). Mailbox NOP. -/
  | mboxNop
  /-- VERSION (R387). Mailbox VERSION returns the firmware, ROM and slot information. -/
  | mboxVersion
  /-- ECHO (R387). Mailbox ECHO returns its arguments. -/
  | mboxEcho
  /-- HOSTLOAD (R460). Mailbox HOSTLOAD verifies an image in a host bank and restarts into it. -/
  | mboxHostload
  /-- REBOOT (R460). Mailbox REBOOT clears the attempt count and starts a new boot. -/
  | mboxReboot
  /-- ACTIVATE (R461). Mailbox ACTIVATE verifies a slot and restarts into it at the next boundary. -/
  | mboxActivate
  /-- COMMIT (R462). Mailbox COMMIT makes a slot the power-up slot. -/
  | mboxCommit
  /-- PAWN (R460). Mailbox PAWN forces Pawn mode from the next boundary. -/
  | mboxPawn
  /-- SLOT_INFO (R460). Mailbox SLOT_INFO returns a slot's version and check code. -/
  | mboxSlotInfo
  /-- COARSE_STORE (R445). Mailbox COARSE_STORE writes the coarse image into flash. -/
  | mboxCoarseStore
  /-- AGE_LOAD (R445). Mailbox AGE_LOAD replaces the ageing counters and saves them. -/
  | mboxAgeLoad
  /-- RING_FORMAT (R445). Mailbox RING_FORMAT erases the record ring under presence. -/
  | mboxRingFormat
  /-- MBOX_UNKNOWN (R387). A mailbox command with an unknown code is answered UNKNOWN. -/
  | mboxUnknown
  /-- OPEN (R388). SVC_BTN_N low for 50 samples opens or restarts the presence window. -/
  | presenceOpen
  /-- PRESENCE_EXPIRE (R388). The presence window's count ends, and the window closes. -/
  | presenceExpire
  /-- CLOSE (R388). SEC.CMD.CLOSE closes the presence window. -/
  | presenceClose (port : Nat) (w : Word)
  /-- OTP_LOCK_WRITE (R392). A write of 1 to OTP_LOCK under presence blows the lock fuse. -/
  | otpLockWrite (port : Nat) (w : Word)
  /-- XTAL_STABLE (R396). XTAL completes 16,384 consecutive cycles and is declared stable. -/
  | xtalStable
  /-- REFCLK_WINDOW (R396). A 10 µs REFCLK counting window ends, and presence is judged. -/
  | refclkWindow (cycles : Nat)
  /-- PLL_LOCK (R397). A PLL meets its lock conditions, and its consumers move to it. -/
  | pllLock (pll : Nat)
  /-- LOCK_FAIL (R397). A PLL has not locked 1 ms after enable and is restarted. -/
  | lockFail (pll : Nat)
  /-- XTAL_FAIL (R398). XTAL is not stable 20 ms after AON is up. -/
  | xtalFail
  /-- PIX_REF_HOLD (R400). PLL_PIX sees no reference edge for 200 ns and holds its loop. -/
  | pixRefHold
  /-- LOCK_LOSS (R402). A PLL loses lock with its reference present. -/
  | lockLoss (pll : Nat)
  /-- XTAL_LOSS (R403). XTAL shows no edge for two AONOSC cycles, and dependent PLLs hold. -/
  | xtalLoss
  /-- CLK_CFG_WRITE (R405). A write of CLK.CFG requests a divider or source change through the multiplexers. -/
  | clkCfgWrite (port : Nat) (w : Word)
  /-- CLK_SWITCH_DONE (R405). A glitch-free multiplexer completes a switch. -/
  | clkSwitchDone (mux : Nat)
  /-- SW_FORCED (R405). The old clock has not stopped in 64 cycles, and the switch is forced. -/
  | swForced (mux : Nat)
  /-- SW_FAIL (R405). The new clock shows no edge in 1,024 cycles, and the switch fails. -/
  | swFail (mux : Nat)
  /-- SW_FORCED_WRITE (R411). A write of 1 clears a SW_FORCED bit. -/
  | swForcedWrite (port : Nat) (w : Word)
  /-- AON_TRIM_WINDOW (R410). A 4,096-cycle AONOSC window ends, and the trim and timebase increment are updated. -/
  | aonTrimWindow (cycles : Nat)
  /-- CLOCK_GATE_CLOSE (R406). An automatic gate closes after 16 idle cycles. -/
  | clockGateClose (page : Nat)
  /-- DOMAIN_REQ_WRITE (R414). A write of DOMn.REQ requests a state, or replaces the pending target. -/
  | domainReqWrite (port : Nat) (dom : Nat) (w : Word)
  /-- DOMAIN_DRAIN_DONE (R416). A domain's drain completes. It saves, isolates and powers down. -/
  | domainDrainDone (dom : Nat)
  /-- DOMAIN_TRANSITION_DONE (R416). A domain completes an entry or wake, and moves on to any pending target. -/
  | domainTransitionDone (dom : Nat) (bad : Bool)
  /-- ABORTED (R420). A refusing condition arises during a drain, and the entry is aborted. -/
  | domainAborted (dom : Nat)
  /-- PAD_RELEASE (R421). A write of PAD_RELEASE releases the latched pads of an ON domain. -/
  | padRelease (port : Nat) (w : Word)
  /-- OP_CFG_WRITE (R425). A write of OP_CFG raises or lowers MAX, with a supply change. -/
  | opCfgWrite (port : Nat) (w : Word)
  /-- VSER_WRITE (R425). A write of VSER requests a new VDD_SER target. -/
  | vserWrite (port : Nat) (w : Word)
  /-- AVS_POLL (R426). Every 100 µs the controller reads the rail voltage and may take it as acknowledged. -/
  | avsPoll (mv : Nat) (crcErr : Bool)
  /-- AVS_FAIL (R426). An AVSBus request is not acknowledged within 2 ms, or is rejected. -/
  | avsFail (nak : Bool)
  /-- GPIO_WAKE_EDGE (R427). A falling edge of GPIO0 to GPIO3 wakes the marked domains. -/
  | gpioWakeEdge (gpio : Nat)
  /-- ALARM (R427). TIMEBASE reaches ALARM, and wake source 2 fires. -/
  | aonAlarm
  /-- ALARM_WRITE (R427). A write of ALARM re-arms wake source 2. -/
  | alarmWrite (port : Nat) (high : Bool) (w : Word)
  /-- WAKE_CAUSE_WRITE (R431). A write of 1 clears WAKE_CAUSE bits. -/
  | wakeCauseWrite (port : Nat) (w : Word)
  /-- POWER_ON_MIN_TICK (R431). POWER_ON_MIN increases each 60,000,000 µs of TIMEBASE. -/
  | powerOnMinTick
  /-- SUPPLY_MONITOR_TRIP (R486). A supply monitor trips, causing a power-on reset or an internal reset. -/
  | supplyMonitorTrip (aon : Bool)
  /-- POWER_ON_RESET (R429). A power-on reset sets every domain ON and clears the always-on state. -/
  | powerOnReset
  /-- RESET_N_LOW (R429). RESET_N low resets the domains' logic, keeping the save memory and TIMEBASE. -/
  | resetNLow
  /-- RESET_N_RISE (R452). RESET_N rises. The straps are sampled, and the ROM and NV scan start. -/
  | resetNRise (gpio : Nat)
  /-- APPEND (R443). REC_CMD APPEND appends a host record. -/
  | nvAppend (port : Nat) (wpN : Bool) (w : Word)
  /-- NV_READ (R443). REC_CMD READ copies the winning record's payload into the buffer. -/
  | nvRead (port : Nat) (w : Word)
  /-- DELETE (R443). REC_CMD DELETE appends a DELETE record. -/
  | nvDelete (port : Nat) (wpN : Bool) (w : Word)
  /-- RAW_READ (R444). RAW_CMD READ fills the buffer from flash. -/
  | rawRead (port : Nat) (w : Word)
  /-- PROGRAM (R444). RAW_CMD PROGRAM writes buffer bytes within one program page. -/
  | nvProgram (port : Nat) (wpN : Bool) (jmpN : Bool) (w : Word)
  /-- ERASE4K (R444). RAW_CMD ERASE4K erases a sector. -/
  | erase4k (port : Nat) (wpN : Bool) (jmpN : Bool) (w : Word)
  /-- ERASE64K (R444). RAW_CMD ERASE64K erases a block. -/
  | erase64k (port : Nat) (wpN : Bool) (jmpN : Bool) (w : Word)
  /-- FLASH_OP_DONE (R432). A flash program or erase completes, as polled on WIP, and NVC continues its operation. -/
  | flashOpDone (wpN : Bool)
  /-- FLASH_TIMEOUT (R443). WIP is not clear after 5 s, and the operation ends FLASH. -/
  | flashTimeout
  /-- SAVE (R448). SAVE_CMD, or PWR_FAIL_N, starts the power-fail save of the counters. -/
  | nvSave (port : Nat) (wpN : Bool) (w : Word)
  /-- NV_SCAN (R442). NVC scans the ring and the factory area, repairs them, builds the index and sets READY. -/
  | nvScan (wpN : Bool)
  /-- BUF_DATA_ACCESS (R443). An access to BUF_DATA reads or writes the buffer and advances BUF_ADDR. -/
  | bufDataAccess (port : Nat) (wr : Option Word)
  /-- AGE_DATA_READ (R451). A read of AGE_DATA returns a zone's counter and advances AGE_ADDR. -/
  | ageDataRead (port : Nat)
  /-- BOOT_ATTEMPT (R453). The ROM counts an attempt, reads and verifies the image, or enters Pawn mode or host-load. -/
  | bootAttempt (jedec : Nat)
  /-- DRAM_TRAIN_DONE (R453). DRAM training at the three operating points ends, and the firmware is started. -/
  | dramTrainDone (mask : Nat)
  /-- BOOT_OK (R453). The firmware writes BOOT_OK, and the attempt count is cleared. -/
  | bootOk (w : Word)
  /-- BOOT_TIMEOUT (R453). BOOT_OK has not come within 10 s, and the attempt or update fails. -/
  | bootTimeout
  /-- SRAM_TURN (R463). An idle-time March test of one SRAM segment. -/
  | sramTurn (result : Nat)
  /-- DRAM_TURN (R463). An idle-time test of one free DRAM page. -/
  | dramTurn (result : Nat)
  /-- LUT_TURN (R463). A CRC check of one active table in vertical blanking. -/
  | lutTurn (result : Nat)
  /-- PERTURB_WRITE (R465). A privileged write of a PERTURB register enables an injection and may void the guarantee. -/
  | perturbWrite (port : Nat) (off : Nat) (w : Word)
  /-- STOP (R465). PERTURB.STOP clears every injection. -/
  | perturbStop (port : Nat) (w : Word)
  /-- EXTEST (R466). TAP EXTEST instruction. -/
  | extest (pins : List Bool) (dr : List Bool)
  /-- SAMPLE_PRELOAD (R466). TAP SAMPLE/PRELOAD instruction. -/
  | samplePreload (pins : List Bool) (dr : List Bool)
  /-- IDCODE (R466). TAP IDCODE instruction. -/
  | idcode (dr : List Bool)
  /-- CLAMP (R466). TAP CLAMP instruction. -/
  | clamp (dr : List Bool)
  /-- HIGHZ (R466). TAP HIGHZ instruction. -/
  | highz (dr : List Bool)
  /-- EXTEST_PULSE (R466). TAP EXTEST_PULSE instruction under IEEE 1149.6. -/
  | extestPulse (pins : List Bool) (dr : List Bool)
  /-- EXTEST_TRAIN (R466). TAP EXTEST_TRAIN instruction under IEEE 1149.6. -/
  | extestTrain (pins : List Bool) (dr : List Bool)
  /-- RUNBIST (R466). TAP RUNBIST instruction marches the memories and checks the ROM. -/
  | runbist (dr : List Bool)
  /-- BIST_DONE (R466). RUNBIST ends and records its result in TEST.BIST. -/
  | bistDone (fail : Bool) (unit : Nat)
  /-- BYPASS (R466). TAP BYPASS, or a locked private instruction. -/
  | bypass (code : Nat) (dr : List Bool)
  /-- TAP_RESET (R466). TRST_N low holds the TAP in reset. -/
  | tapReset
  /-- FSYNC (R473). A member receives FSYNC, places its frame boundary and forwards the block. -/
  | casFsync (lane : Nat) (block : List Byte)
  /-- SEAM (R475). A SEAM block and payload are received and stored. -/
  | casSeam (lane : Nat) (block : List Byte) (bytes : List Byte)
  /-- POS (R472). A POS block assigns a member's position, or counts POS_ERR. -/
  | casPos (lane : Nat) (block : List Byte)
  /-- CAS_TRAIN_RETRY (R471). An ABSENT CAS lane starts a new set of attempts every 1 s. -/
  | casTrainRetry (lane : Nat)
  /-- LED_STAT_TOGGLE (R482). LED_STAT toggles in its presence or Pawn blink pattern. -/
  | ledStatToggle
  /-- BC_RX_LOCK (R81). BC_RX locks again after a loss while the main link is UP, and in-band access and EVENT
delivery resume. -/
  | bcRxLock (inverted : Bool)
  /-- PWR_FAIL_N_HIGH (R448). PWR_FAIL_N returns high, ageing accrual resumes after the save, CMD.ON is no longer
refused, and the 100 ms AUTO_ON count starts. -/
  | pwrFailNHigh
  /-- SUPPLY_BACK_IN_RANGE (R486). The M960 releases the internal reset 2 ms after every tripped supply is back in
range, and the boot then counts an attempt. -/
  | supplyBackInRange (gpio : Nat)
  /-- BL_PWM_PULSE (R318). A BL_PWM pulse cycle of P_out / PWM_N begins or its high time ends, and the output changes
level. -/
  | blPwmPulse
  /-- FSYNC_OUT_PULSE_END (R473). The 1 µs high pulse on FSYNC_OUT ends, and the pin returns low. -/
  | fsyncOutPulseEnd
  /-- HCMD_DONE (R288). A host partner write becomes DONE once its CMD block has left every target port, and HCMD_DONE
is raised. -/
  | hcmdDone
  deriving DecidableEq, Repr

end Sys2Proof
end

