-- ==== Sys2Proof/Decode.lean ====
section
/-! DEFINITION. The table of operations and events gives no row any bits: no word spells a command. -/

namespace Sys2Proof

/-- The command that a word of `nbits` bits spells: none, since the table gives the rows no bits. -/
def decodeTableWord (_nbits _w : Nat) : Option Instr := none

end Sys2Proof
end

