-- ==== Sys2Proof/Machine/Num.lean ====
section
/-! DEFINITION. The arithmetic of the pixel path: exact fractions, binary16 with one rounding (R4), integers rounded
half up (R4), clamps, and two's-complement fields. -/

namespace Sys2Proof.Machine

/-- An exact fraction; the denominator is positive wherever the model builds one. -/
structure Frac where
  num : Int
  den : Nat
  deriving DecidableEq, Repr

def Frac.ofInt (n : Int) : Frac := ⟨n, 1⟩
def Frac.ofNat (n : Nat) : Frac := ⟨n, 1⟩
def Frac.add (a b : Frac) : Frac :=
  if a.den = b.den then ⟨a.num + b.num, a.den⟩
  else if b.den % a.den = 0 then ⟨a.num * (b.den / a.den : Nat) + b.num, b.den⟩
  else if a.den % b.den = 0 then ⟨a.num + b.num * (a.den / b.den : Nat), a.den⟩
  else ⟨a.num * b.den + b.num * a.den, a.den * b.den⟩
def Frac.sub (a b : Frac) : Frac := Frac.add a ⟨-b.num, b.den⟩
def Frac.mul (a b : Frac) : Frac := ⟨a.num * b.num, a.den * b.den⟩
/-- Division; a zero divisor answers zero (each user states its own case for it). -/
def Frac.div (a b : Frac) : Frac :=
  if b.num = 0 then ⟨0, 1⟩
  else if b.num < 0 then ⟨-(a.num * b.den), a.den * b.num.natAbs⟩
  else ⟨a.num * b.den, a.den * b.num.natAbs⟩
def Frac.le (a b : Frac) : Bool := decide (a.num * b.den ≤ b.num * a.den)
def Frac.lt (a b : Frac) : Bool := decide (a.num * b.den < b.num * a.den)
def Frac.max (a b : Frac) : Frac := if Frac.le a b then b else a
def Frac.min (a b : Frac) : Frac := if Frac.le a b then a else b
def Frac.clamp (x lo hi : Frac) : Frac := Frac.min (Frac.max x lo) hi
def Frac.zero : Frac := ⟨0, 1⟩
def Frac.one : Frac := ⟨1, 1⟩
def Frac.sum (l : List Frac) : Frac := l.foldl Frac.add Frac.zero

/-- Integer results round half up (R4). -/
def Frac.roundInt (a : Frac) : Int := (2 * a.num + a.den) / (2 * (a.den : Int))

/-- n / d of naturals rounded half to even. -/
def divHalfEven (n d : Nat) : Nat :=
  let q := n / d
  let r := n % d
  if 2 * r < d then q else if d < 2 * r then q + 1 else if q % 2 = 0 then q else q + 1

/-- n / d of naturals rounded half up. -/
def divHalfUp (n d : Nat) : Nat := (2 * n + d) / (2 * d)

/-- n / d of an integer rounded half up (R4). -/
def intHalfUp (n : Int) (d : Nat) : Int := (2 * n + d) / (2 * (d : Int))

/-- floor of log2 of n / d for n, d > 0. -/
def log2Ratio (n d : Nat) : Int :=
  let e : Int := (Nat.log2 n : Int) - (Nat.log2 d : Int)
  -- 2^(e-1) < n/d < 2^(e+1)
  if 0 ≤ e then (if n < d * 2 ^ e.toNat then e - 1 else e)
  else (if n * 2 ^ (-e).toNat < d then e - 1 else e)

/-- The magnitude bits of n / d in binary16 with an unbounded fraction above 65,504, rounded half to even:
exponent field and significand as one natural number, and 0x7C00 from overflow on (IEEE 754-2008 binary16). -/
def mag16 (n d : Nat) : Nat :=
  if n = 0 ∨ d = 0 then 0
  else
    let e := log2Ratio n d
    if e < -14 then
      -- subnormal: multiples of 2^-24
      divHalfEven (n * 2 ^ 24) d
    else
      -- significand of 11 bits: n/d * 2^(10-e)
      let sig := if 10 - e ≥ 0 then divHalfEven (n * 2 ^ (10 - e).toNat) d else divHalfEven n (d * 2 ^ (e - 10).toNat)
      let m := ((e + 14).toNat) * 1024 + sig
      if 0x7C00 ≤ m then 0x7C00 else m

/-- A fraction rounded once to binary16, half to even (R4); a negative number carries the sign bit. -/
def round16 (x : Frac) : Sample :=
  if x.num < 0 then BitVec.ofNat 16 (0x8000 + mag16 x.num.natAbs x.den)
  else BitVec.ofNat 16 (mag16 x.num.natAbs x.den)

/-- Whether a binary16 word is a NaN. -/
def isNaN16 (s : Sample) : Bool := 0x7C00 < s.toNat % 0x8000
/-- Whether a binary16 word is an infinity. -/
def isInf16 (s : Sample) : Bool := s.toNat % 0x8000 == 0x7C00

/-- The value of a finite binary16 word. -/
def val16 (s : Sample) : Frac :=
  let n := s.toNat
  let e := n / 1024 % 32
  let f := n % 1024
  let m : Frac := if e = 0 then ⟨f, 2 ^ 24⟩
    else if 25 ≤ e then ⟨((1024 + f) * 2 ^ (e - 25) : Nat), 1⟩
    else ⟨(1024 + f : Nat), 2 ^ (25 - e)⟩
  if n < 0x8000 then m else ⟨-m.num, m.den⟩

/-- The value of an n-bit two's-complement field. -/
def sext (w v : Nat) : Int := if v % 2 ^ w < 2 ^ (w - 1) then (v % 2 ^ w : Nat) else ((v % 2 ^ w : Nat) : Int) - 2 ^ w

/-- An integer as an n-bit two's-complement field. -/
def toField (w : Nat) (x : Int) : Nat := (x % (2 ^ w : Nat)).toNat

/-- An integer clamped to a range. -/
def clampInt (lo hi x : Int) : Int := if x < lo then lo else if hi < x then hi else x
/-- A natural number clamped to a range. -/
def clampNat (lo hi x : Nat) : Nat := if x < lo then lo else if hi < x then hi else x

/-- Bit `i` of a number. -/
def bit (n i : Nat) : Bool := n / 2 ^ i % 2 == 1
/-- Bits `lo` up, `w` of them. -/
def bits (n lo w : Nat) : Nat := n / 2 ^ lo % 2 ^ w
/-- 1 for true. -/
def b2n (b : Bool) : Nat := if b then 1 else 0

/-- The first `n` bytes of a number, least significant first (R5). -/
def leBytes : Nat → Nat → List Byte
  | 0, _ => []
  | n + 1, v => BitVec.ofNat 8 (v % 256) :: leBytes n (v / 256)

/-- The number that bytes spell, least significant first (R5). -/
def leVal : List Byte → Nat
  | [] => 0
  | b :: bs => b.toNat + 256 * leVal bs

/-- Consecutive runs of `n` elements; a short last run is kept. -/
def chunks {α : Type} (n : Nat) (l : List α) : List (List α) :=
  (List.range ((l.length + n - 1) / n)).map (fun i => (l.drop (i * n)).take n)

/-- Addition that sticks at the largest value. -/
def satAdd (mx a b : Nat) : Nat := if mx < a + b then mx else a + b

end Sys2Proof.Machine
end

