-- ==== Sys2Proof/Config.lean ====
section
/-! DEFINITION. What the spec leaves open: free values (constants with no body, so that nothing proved rests on a
number) and what one board or one die fixes. -/

namespace Sys2Proof

/-- A value the spec calls undefined or does not state, one for each use: the step applies it to State.fresh and
advances that counter (log entry 3). -/
opaque Config.freeWord : Nat → BitVec 32

/-- What a byte of DRAM reads as after its contents were lost (R412): generation of the loss, address (log entry 4). -/
opaque Config.lostDram : Nat → Nat → BitVec 8

/-- What an entry of a stage RAM reads as after its contents were lost (R412): generation, index (log entry 4). -/
opaque Config.lostRam : Nat → Nat → BitVec 16

/-- What a word of an SRAM bank that a test left undefined reads as (R367, R466): generation, index (log entry 4). -/
opaque Config.lostSram : Nat → Nat → BitVec 32

/-- The key hash in the OTP of one die (R456): none when the fuses are blank or fail their parity (R454). State holds it,
and no command programs it (log entry 36). -/
opaque Config.otpKeyHash : Option (BitVec 256)

/-- Whether a reader of a table that a load is filling at that instant meets an entry already at its new value (R124):
instant, index (log entry 12). -/
opaque Config.loadRace : Nat → Nat → Bool

/-- The arrangement of DITH's ROM matrix (R260): which of the values not yet placed comes next, at each entry. The spec
gives the arrangement of no entry, and the model assumes none (log entry 17). -/
opaque Config.romOrder : Nat → Nat

end Sys2Proof
end

