-- ==== Sys2Proof/Machine/Cells.lean ====
section
/-! DEFINITION. Sparse arrays: a list of (index, value) pairs, indices strictly rising and no value equal to what an
unlisted index reads as. Registers, DRAM bytes, SRAM words, flash bytes and every table of the M960 are held so. -/

namespace Sys2Proof.Machine

/-- A sparse array. What an unlisted index reads as is a function `d` that every operation is given. -/
abbrev Cells (α : Type) := List (Nat × α)

/-- The value at an index. -/
def Cells.get {α : Type} (d : Nat → α) : Cells α → Nat → α
  | [], k => d k
  | (i, v) :: m, k => if i = k then v else Cells.get d m k

/-- Every entry but those at an index. -/
def Cells.erase {α : Type} (m : Cells α) (k : Nat) : Cells α :=
  m.filter (fun e => e.1 ≠ k)

/-- An entry put at its place in the order. -/
def Cells.insert {α : Type} (k : Nat) (v : α) : Cells α → Cells α
  | [] => [(k, v)]
  | (i, w) :: m => if k < i then (k, v) :: (i, w) :: m else (i, w) :: Cells.insert k v m

/-- Writing a value; writing what an unlisted index reads as removes the entry. -/
def Cells.set {α : Type} [DecidableEq α] (d : Nat → α) (m : Cells α) (k : Nat) (v : α) : Cells α :=
  if v = d k then Cells.erase m k else Cells.insert k v (Cells.erase m k)

/-- The canonical form: indices strictly rising, no entry equal to what an unlisted index reads as. -/
def Cells.wf {α : Type} [DecidableEq α] (d : Nat → α) : Cells α → Bool
  | [] => true
  | [(i, v)] => v ≠ d i
  | (i, v) :: (j, w) :: m => decide (v ≠ d i) && decide (i < j) && Cells.wf d ((j, w) :: m)

/-- Writing a list of values at rising indices from `k`. -/
def Cells.setRun {α : Type} [DecidableEq α] (d : Nat → α) (m : Cells α) (k : Nat) : List α → Cells α
  | [] => m
  | v :: vs => Cells.setRun d (Cells.set d m k v) (k + 1) vs

/-- Reading `n` values from index `k`. -/
def Cells.getRun {α : Type} (d : Nat → α) (m : Cells α) (k n : Nat) : List α :=
  (List.range n).map (fun i => Cells.get d m (k + i))

/-- The entries of a run of values: those that differ from what an unlisted index reads as. -/
def Cells.runFrom {α : Type} [DecidableEq α] (d : Nat → α) (k : Nat) : List α → Cells α
  | [] => []
  | v :: vs => if v = d k then Cells.runFrom d (k + 1) vs else (k, v) :: Cells.runFrom d (k + 1) vs

/-- A run of values put at rising indices from `k` in one pass. -/
def Cells.putRun {α : Type} [DecidableEq α] (d : Nat → α) (m : Cells α) (k : Nat) (vs : List α) : Cells α :=
  m.filter (fun e => e.1 < k) ++ (Cells.runFrom d k vs ++ m.filter (fun e => k + vs.length ≤ e.1))

/-- Whether the indices rise strictly. -/
def Cells.rising {α : Type} : Cells α → Bool
  | [] => true
  | [_] => true
  | a :: b :: m => decide (a.1 < b.1) && Cells.rising (b :: m)

/-- The values at `n` indices from `k`, of an array whose indices rise and begin no lower. -/
def Cells.walk {α : Type} (d : Nat → α) : Nat → Cells α → Nat → List α
  | 0, _, _ => []
  | n + 1, [], k => d k :: Cells.walk d n [] (k + 1)
  | n + 1, (i, v) :: m, k =>
    if i = k then v :: Cells.walk d n m (k + 1) else d k :: Cells.walk d n ((i, v) :: m) (k + 1)

/-- Reading `n` values from index `k` in one pass, where the indices rise. -/
def Cells.window {α : Type} (d : Nat → α) (m : Cells α) (k n : Nat) : List α :=
  if Cells.rising m then Cells.walk d n (m.dropWhile (fun e => e.1 < k)) k else Cells.getRun d m k n

/-- Every index of a range brought back to what an unlisted index reads as. -/
def Cells.clearRange {α : Type} (m : Cells α) (lo n : Nat) : Cells α :=
  m.filter (fun e => !(lo ≤ e.1 && e.1 < lo + n))

end Sys2Proof.Machine
end

