-- ==== Sys2Proof/Machine/State.lean ====
section
/-! DEFINITION. The state of the M960 as plain data: every register, table, memory, buffer, counter, mode and pin the
spec gives it, and the queue of waiting commands. -/

namespace Sys2Proof.Machine

/-- Why a step faults: no command of this block ends in a fault. -/
inductive Fault where
  deriving DecidableEq, Repr

/-- Why a step is refused. -/
inductive Refusal where
  /-- Raised by the dispatch for a command that has no meaning yet: safe, nothing is claimed of it. -/
  | notModelled (mnemonic : String)
  /-- Raised by BYPASS with the code of a private TAP instruction while TEST.UNLOCK is 1: R466 calls these codes private
  and says nothing of what they do. Safe: the machine stops. -/
  | privateInstruction
  deriving DecidableEq, Repr

/-- Where something that leaves the M960 goes. -/
inductive OutKind where
  | hostData | spiByte | edl | bc | bcLine | cas | prbs | tdo | avs | flash | gate | pin
  deriving DecidableEq, Repr

/-- One item that leaves the M960: where to, which port or lane, and its words. -/
structure Output where
  kind : OutKind
  dst : Nat
  data : List Nat
  deriving DecidableEq, Repr

/-- What a lane direction holds beside its PHY registers (R30 to R56): the state its protocol layer asks for and
whether a test holds it up, the transition under way and the pending target (codes 0 L0, 1 LS, 2 LOFF), the block
errors of the last blocks (newest first), the scrambler and whether its seed is due, whether the link's blocks are
scrambled, the running disparity (true when positive), the adaptation run and the taps at the window's start, the
peaking in use, the last block received (sync header, payload), and whether the receiver was locked when it left L0 for
LS, so that it wakes locked (R51). -/
structure Lane where
  proto : Nat
  test : Bool
  trans : Option Nat
  pend : Option Nat
  window : List Bool
  lfsr : Nat
  needSeed : Bool
  scrambled : Bool
  rd : Bool
  goodRun : Nat
  taps0 : Word
  taps1 : Word
  ctle : Nat
  rxHdr : Nat
  rxData : Nat
  held : Bool
  deriving DecidableEq, Repr

/-- A lane after reset: its protocol layer asks for LOFF (R59), its disparity is negative (R32). -/
def Lane.atReset : Lane :=
  ⟨2, false, none, none, [], 0, true, false, false, 0, 0, 0, 0, 0, 0, false⟩

/-- The lanes, and the REFCFG values held pending (R40). -/
structure PhyState where
  lanes : Cells Lane
  spreadPend : Option Nat
  enPend : Option Nat
  deriving DecidableEq, Repr

def PhyState.atReset : PhyState := ⟨[], none, none⟩

/-- A region of DRAM (R332, R337): its handle, its pages, its first map entry, its kind and who asked for it. -/
structure Region where
  handle : Nat
  pages : Nat
  base : Nat
  cls0 : Bool
  byCtl : Bool
  deriving DecidableEq, Repr

/-- A region request waiting to be served (R333): the port, what it asks, and the port's REQ at the GO. -/
structure RegionReq where
  port : Nat
  isFree : Bool
  pages : Nat
  cls0 : Bool
  commit : Bool
  handle : Nat
  deriving DecidableEq, Repr

/-- A page being retired (R347): the old and the new physical page, its map entry, the bytes copied so far, and
whether the copy has ended and waits for an output line start. -/
structure PageCopy where
  oldPage : Nat
  newPage : Nat
  mapIdx : Nat
  copied : Nat
  ended : Bool
  deriving DecidableEq, Repr

/-- An engine halted at a beat (R341, R342): the beat's handle and offset, the bytes of a write not done, and whether the
engine has been resumed and waits for DRAM. -/
structure HaltedBeat where
  engine : Nat
  handle : Nat
  ofs : Nat
  wr : Option (List Byte)
  resumed : Bool
  deriving DecidableEq, Repr

/-- BULK's transfer as GO found it (R348): the region and the offset in it, the bytes, the direction, and how many bytes
have been moved. -/
structure BulkJob where
  handle : Nat
  ofs : Nat
  len : Nat
  dir : Bool
  pos : Nat
  deriving DecidableEq, Repr

def BulkJob.atReset : BulkJob := ⟨0, 0, 0, false, 0⟩

/-- MEMC, REGION, ECC and BULK beside their registers (R328 to R353): the regions and the requests for them; the pages
being retired, the poisoned words (physical address / 8) and the halted engines; per channel the class-0 beats admitted
in its window, the refreshes postponed, the instant until which a forced one holds it, the beats each class may still
have in its round (key channel * 8 + class), the engine + 1 whose transfer of class 1 to 4 it served last, and the engine
+ 1 that class 0 has pre-empted; the largest class-0 latency in ns (C0_MAXLAT); BULK's transfer; the generations of the
DRAM, of single pages of it, and of the SRAM banks; the banks whose handover clears them; whether a switch of the
operating point is due; the map entries committed and not yet written (R332); the windows' port B transfers that
collided (bank, word), newest first (R363). -/
structure MemState where
  regions : List Region
  queue : List RegionReq
  copies : List PageCopy
  poison : List Nat
  halted : List HaltedBeat
  admitted : Cells Nat
  postponed : Cells Nat
  refreshTo : Cells Nat
  credit : Cells Nat
  lastEng : Cells Nat
  preempted : Cells Nat
  maxLat : Nat
  bulk : BulkJob
  dramGen : Nat
  pageGens : Cells Nat
  bankGens : Cells Nat
  clears : List Nat
  mopDue : Bool
  blank : List Nat
  collided : List (Nat × Nat)
  deriving DecidableEq, Repr

def MemState.atReset : MemState :=
  ⟨[], [], [], [], [], [], [], [], [], [], [], 0, BulkJob.atReset, 0, [], [], [], false, [], []⟩

/-- What is left of the counted injections (R504): ISL payloads, EDL packets, back-channel frames, ECC reads. -/
structure PerturbState where
  isl : Nat
  edl : Nat
  bc : Nat
  ecc : Nat
  deriving DecidableEq, Repr

def PerturbState.atReset : PerturbState := ⟨0, 0, 0, 0⟩

/-- CLK beside its registers (R394 to R411): the run of good REFCLK windows, per multiplexer (0 HCLK, 1 control core,
2 SSREF, 3 TXPLL) the switch under way and the request waiting behind it, the dividers in use, the counting windows
since the last trim change, the fraction of TIMEBASE, and whether PLL_PIX has lost lock with its reference present. -/
structure ClkState where
  refRun : Nat
  muxTo : Cells (Option Nat)
  muxPend : Cells (Option Nat)
  cdivNow : Nat
  ssrefPend : Option Nat
  txrefPend : Option Nat
  windows : List Nat
  tbFrac : Nat
  xtalLost : Bool
  pixLost : Bool
  deriving DecidableEq, Repr

def ClkState.atReset : ClkState := ⟨0, [], [], 2, none, none, [], 0, false, false⟩

/-- A power domain's transition under way (R416): its target, its phase (0 drain, 1 entry after the drain, 2
wake), and whether the target pending behind it is an internal requester's (R415, R418). -/
structure DomTrans where
  dom : Nat
  target : Nat
  phase : Nat
  inner : Bool
  deriving DecidableEq, Repr

/-- A domain's slot in the save memory (R416, R417): the saved bits of its words, shadow and active, and the CRC-32. -/
structure SaveSlot where
  dom : Nat
  words : List (Nat × Word)
  active : List (Nat × Word)
  crc : Nat
  deriving DecidableEq, Repr

/-- An AVSBus exchange (R426): the rail (0 VDD_CORE, 1 VDD_SER), the target in mV, the value MAX_ACTIVE takes when it
is acknowledged, when it began, the frames resent, and whether an injected delay puts its acknowledgement off for good. -/
structure AvsReq where
  rail : Nat
  mv : Nat
  newMax : Option Nat
  since : Nat
  resends : Nat
  held : Bool
  deriving DecidableEq, Repr

/-- PWR and AON beside their registers (R412 to R431): per domain and state the microseconds spent, and the TIMEBASE of
the last change; the alarm armed; the POWER_ON_MIN boundary counted; the levels the latched pads hold. -/
structure PwrState where
  trans : List DomTrans
  slots : List SaveSlot
  spent : Cells Nat
  since : Cells Nat
  avs : Option AvsReq
  avsWait : List AvsReq
  alarmArmed : Bool
  minutesAt : Nat
  padHold : Cells Nat
  deriving DecidableEq, Repr

def PwrState.atReset : PwrState := ⟨[], [], [], [], none, [], false, 0, []⟩

/-- The applying set (R382): a copy of the /F shadows and of the pending class map (R165), and whether the validator
has accepted it. -/
structure ApplySet where
  words : Cells Word
  classes : Cells Word
  accepted : Bool
  deriving DecidableEq, Repr

/-- CHIP beside its registers: the applying set. -/
structure ChipState where
  applying : Option ApplySet
  deriving DecidableEq, Repr

def ChipState.atReset : ChipState := ⟨none⟩

/-! The pixel path. -/

/-- A pixel of the light domain: three binary16 samples (R11, R126). -/
structure Pix where
  r : Sample
  g : Sample
  b : Sample
  deriving DecidableEq, Repr

/-- A stage RAM of 16-bit entries: the generation of its contents (0 the reset contents, else a loss) and the entries
written since. -/
structure Tab where
  gen : Nat
  cells : Cells Sample
  deriving DecidableEq, Repr

def Tab.atReset : Tab := ⟨0, []⟩

/-- An EOTF bank (R118, R121, R123): the curve it was last filled with (0 linear, 1 PQ, 2 HLG, 3 BT.1886, 4 contents
lost), that curve's parameters or the generation of the loss, and the entries written since. -/
structure EotfBank where
  curve : Nat
  param : Nat
  cells : Cells Sample
  deriving DecidableEq, Repr

/-- A preset load under way (R124): the bank, PRESET, PEAK_NITS and BLACK of the LOAD write, and whether the control core
has restarted since. -/
structure EotfLoad where
  bank : Nat
  preset : Nat
  peak : Nat
  black : Nat
  restarted : Bool
  deriving DecidableEq, Repr

/-- INPUT beside its registers: the two banks, a load under way, and whether the source frame being received has
clipped a pixel or met a NaN (R133). -/
structure InputState where
  bank0 : EotfBank
  bank1 : EotfBank
  load : Option EotfLoad
  clampSeen : Bool
  nanSeen : Bool
  deriving DecidableEq, Repr

def InputState.atReset : InputState := ⟨⟨0, 0, []⟩, ⟨0, 0, []⟩, none, false, false⟩

/-- A rectangle of a partial frame (R68), clipped to the frame. -/
structure Rect where
  x : Nat
  y : Nat
  w : Nat
  h : Nat
  deriving DecidableEq, Repr

/-- A zone's record (R131): need and y_max. -/
structure ZoneRec where
  need : Sample
  ymax : Sample
  deriving DecidableEq, Repr

/-- What an open zone has gathered (R128): its pixel count, its maximum and its 16 bins. -/
structure ZoneAcc where
  n : Nat
  ymax : Sample
  hist : List Nat
  deriving DecidableEq, Repr

def ZoneAcc.empty : ZoneAcc := ⟨0, 0, List.replicate 16 0⟩

/-- STATS beside its registers (R128 to R136): whether a frame is being gathered, its FRAME_NO, its rectangles when it
is a partial frame, the boundaries in use (columns and rows of zones), the rows closed, the open zones, the filling
and the complete record set, and the boundaries under which the complete set was gathered. -/
structure StatsState where
  isOpen : Bool
  frame : Nat
  rects : Option (List Rect)
  colb : List Nat
  rowb : List Nat
  closed : Nat
  acc : Cells ZoneAcc
  fill : Cells (Option ZoneRec)
  done : Cells (Option ZoneRec)
  doneColb : List Nat
  doneRowb : List Nat
  deriving DecidableEq, Repr

def StatsState.atReset : StatsState := ⟨false, 0, none, [], [], 0, [], [], [], [], []⟩

/-- A delivered line waiting to be written: its number and its segments (first column, pixels). -/
structure LineIn where
  line : Nat
  segs : List (Nat × List Pix)
  deriving DecidableEq, Repr

/-- The source frame being received (R148 to R153): its FRAME_NO, the instant of its pip and the line period then, its
first boundary F and whether its pip came in lock, its rectangles when it is a partial frame, whether it is one of
R152, the REGION rows accepted, whether its first LINE packet has come, FLUSH and completion (R69), the slot written
(none under R152 and before any slot configuration), the line whose segments arrive, the last line whose LAST has
come, the delivered lines waiting, the lines declared missing (1 to be copied, 2 a hole), how many were allowed a
copy, the next line to write, and of the line before it: whether it was written, its pixels and the columns that came
from the source; the data bytes written, and the smallest margin and whether a line was missed or one delivered (R98).
-/
structure SrcFrame where
  no : Nat
  tPip : Nat
  tLine : Nat
  first : Nat
  inLock : Bool
  rects : Option (List Rect)
  off : Bool
  declared : Nat
  opened : Bool
  flushed : Bool
  complete : Bool
  slot : Option Nat
  cur : Option LineIn
  lastLine : Option Nat
  waiting : List LineIn
  missing : Cells Nat
  subs : Nat
  holes : Nat
  next : Nat
  prevWritten : Bool
  prevPix : List Pix
  prevSpans : List (Nat × Nat)
  bytes : Nat
  margin : Option Nat
  missed : Bool
  deriving DecidableEq, Repr

/-- What is known of a slot's lines: how many were passed by the write side, and which of those were not written (1 a
hole, 2 a line left to R24). -/
structure SlotInfo where
  filled : Nat
  exc : Cells Nat
  deriving DecidableEq, Repr

/-- A decoded line: its slot, its number, its pixels (R157, R161). -/
structure KeptLine where
  slot : Nat
  line : Nat
  pix : List Pix
  deriving DecidableEq, Repr

/-- CODEC beside its registers (R148 to R161): the slots, the pip of the frame each holds, the frames settled since
the last boundary, the source frame, the handles and the size in force (none before a slot configuration took effect),
the slot that was P before P, a discarded slot still shown, whether this output frame is the one of R156, and whether
P is its black frame, no source frame having settled since; the line last decoded by the read side, and the readback:
slot, line, and the buffer. -/
structure StoreState where
  slots : Cells SlotInfo
  pips : Cells Nat
  settles : Nat
  src : Option SrcFrame
  layout : Option (Nat × Nat × Nat × Nat × Nat)
  prevP : Option Nat
  freeLater : Option Nat
  black : Bool
  blackP : Bool
  kept : Option KeptLine
  rbSlot : Nat
  rbLine : Nat
  rbPix : List Pix
  deriving DecidableEq, Repr

def StoreState.atReset : StoreState := ⟨[], [], 0, none, none, none, none, false, false, none, 3, 0, []⟩

/-- A zone's figures of an output frame (R169): p of step 3, d of step 4, the light level and the drive level. -/
structure ZoneLevel where
  p : Sample
  d4 : Sample
  lam : Sample
  delta : Sample
  deriving DecidableEq, Repr

/-- ZONE beside its registers (R162 to R186): the staging and active gains, the pending and active class maps, the
history of the previous output frame if there is one, whether ZONE took part in the boundary of this one, the zones
solved in it and how many rows, the instant of the geometry change whose hold lasts, whether the last frame was capped,
and the mean drive of each thermal region. -/
structure ZoneState where
  stage : Tab
  gains : Tab
  classPend : Cells Word
  classAct : Cells Word
  hasHist : Bool
  hist : Cells ZoneLevel
  awake : Bool
  cur : Cells ZoneLevel
  solved : Nat
  holdFrom : Nat
  capped : Bool
  power : List Sample
  deriving DecidableEq, Repr

def ZoneState.atReset : ZoneState := ⟨Tab.atReset, Tab.atReset, [], [], false, [], false, [], 0, 0, false, List.replicate 144 0⟩

/-- PSF's two banks (R175): entry class * 3249 + index; and the bank whose figures CALC asked for (R176). -/
structure PsfState where
  bank0 : Tab
  bank1 : Tab
  calcBank : Nat
  deriving DecidableEq, Repr

def PsfState.atReset : PsfState := ⟨Tab.atReset, Tab.atReset, 1⟩

/-- FIELD in this output frame (R177 to R180): the grid rows computed (row + 2, so that two rows above the grid have a
key), the lines processed, and whether a stale row was met. -/
structure FieldState where
  rows : Cells (List Sample)
  next : Nat
  stale : Bool
  deriving DecidableEq, Repr

def FieldState.atReset : FieldState := ⟨[], 0, false⟩

/-- A cascade edge (0 east, 1 south, 2 west, 3 north; R469 to R476): the training phase of its lane (the codes of
ISL.LINK_STATE), its retries and when the phase or the ABSENT state began; the next preset of EQ, and the best height
and its preset so far; whether the member uses its seams, whether an FSYNC came since the lane returned, and the instant
it left UP. -/
structure CasEdge where
  phase : Nat
  retries : Nat
  since : Nat
  preset : Nat
  height : Nat
  best : Nat
  inUse : Bool
  synced : Bool
  lostAt : Nat
  deriving DecidableEq, Repr

def CasEdge.atReset : CasEdge := ⟨0, 0, 0, 0, 0, 0, false, false, 0⟩

/-- A tunnel access under way (R477): the port that waits (or the edge that asked), and what it asked. -/
structure TunnelReq where
  tag : Nat
  port : Nat
  addr : Nat
  wr : Option Word
  since : Nat
  deriving DecidableEq, Repr

/-- CAS beside its registers (R469 to R478): the edges; the neighbours' zones (key edge * 2^20 + row * 2^10 + column,
as the sender numbers them, but to the east and west the column by its distance from the edge; class above λ) and when
each row of them came (key edge * 2^10 + row); the columns and corner blocks received (key edge * 2^14 + line + 32),
and the rows held in the seam region (edge * 2^5 + row); whether a member has met a POS that contradicts its position;
LINE_PERIOD and LATENCY_LINES of the last FSYNC and its arrival; the tunnel accesses under way and the next tag;
whether the FSYNC_OUT pulse is high. -/
structure CasState where
  edges : Cells CasEdge
  zones : Cells Word
  zoneAt : Cells Nat
  cols : Cells (List Pix)
  rows : List Nat
  conflict : Bool
  syncWas : Option (Nat × Nat)
  syncAt : Nat
  tunnels : List TunnelReq
  tag : Nat
  pulse : Bool
  deriving DecidableEq, Repr

def CasState.atReset : CasState := ⟨[], [], [], [], [], false, none, 0, [], 0, false⟩

/-- A source frame that TIMING shows (R99): its FRAME_NO, the instant of its pip, P_src, k, and the boundary of its
first showing. -/
structure SrcPlan where
  no : Nat
  pip : Nat
  period : Nat
  k : Nat
  f : Nat
  bfi : Word
  deriving DecidableEq, Repr

/-- TIMING and GENLOCK beside their registers (R93 to R112): whether an output frame runs, its boundary F, its planned
period and the planned next boundary, boundary and period of the frame before, the next output line; the FRAME_NO and
the pip of the source frame on show, and how many output frames have shown it; whether the frame on show is a first
showing in lock, and whether it is dark (R102); the source frame planned and the one announced by the last pip and not
yet shown; the phase error that is left beyond the planned boundary, and whether this output frame is slewed; the
intervals between the last pips, newest first, the last pip and its PERIOD; whether its successor was counted late;
the reference in use (0 pips, 1 house sync, 2 none, 3 FSYNC); the last VREF edge and the interval before it, the HREF
edges since it, the last HREF edge, the last active HREF edge and the instant from which the running VREF interval is
measured, the good intervals in a row, and whether VREF was lost; of FSYNC the last F and the interval before it; and
the BFI word in force (R101). -/
structure TimState where
  running : Bool
  f : Nat
  period : Nat
  next : Nat
  lastF : Nat
  lastP : Nat
  line : Nat
  srcNo : Nat
  srcPip : Nat
  shows : Nat
  first : Bool
  dark : Bool
  cur : SrcPlan
  showing : Nat
  plan : Option SrcPlan
  err : Int
  slewed : Bool
  gaps : List Nat
  lastPip : Option Nat
  lastPeriod : Nat
  late : Bool
  ref : Nat
  vref : Option Nat
  vrefGap : Nat
  hrefs : Nat
  href : Option Nat
  hrefAt : Option Nat
  vrefFrom : Nat
  vrefGood : Nat
  vrefLost : Bool
  sync : Option Nat
  syncGap : Nat
  bfi : Word
  deriving DecidableEq, Repr

def TimState.atReset : TimState :=
  { running := false, f := 0, period := 0, next := 0, lastF := 0, lastP := 0, line := 0, srcNo := 0
    srcPip := 0, shows := 0, first := false
    dark := false, cur := ⟨0, 0, 0, 1, 0, 0⟩, showing := 0, plan := none, err := 0, slewed := false, gaps := []
    lastPip := none, lastPeriod := 0, late := false, ref := 0, vref := none, vrefGap := 0, hrefs := 0, href := none
    hrefAt := none, vrefFrom := 0, vrefGood := 0, vrefLost := false, sync := none, syncGap := 0, bfi := 0 }

/-- SREF beside its registers (R106 to R112, R499): whether the host's ENTER stands, whether its EXIT waits for a pip,
and whether a RELEASE has left no reason standing; the codes of the events of this self-refresh, newest first; whether a
pip has come since the last PIP_TIMEOUT; the period held at entry, k then, the trim in ppb, the interval of the last
keepalive pip; whether the domains have been asked for RET in this frame; and the pip that ended the last self-refresh. -/
structure SrefState where
  host : Bool
  exiting : Bool
  released : Bool
  events : List Nat
  pipSince : Bool
  base : Nat
  k : Nat
  trim : Int
  gap : Option Nat
  ret : Bool
  left : Nat
  deriving DecidableEq, Repr

def SrefState.atReset : SrefState := ⟨false, false, false, [], false, 0, 1, 0, none, false, 0⟩

/-- SPLIT and CELLLUT beside their registers (R203 to R210): the filling and the complete set of clip counts, whether
the frame has crushed a pixel, the probe in use (x, y), and CELLLUT's banks (entry
table * 1025 + index). -/
structure SplitState where
  fill : Cells Nat
  done : Cells Nat
  crushed : Bool
  probeX : Nat
  probeY : Nat
  lut0 : Tab
  lut1 : Tab
  deriving DecidableEq, Repr

def SplitState.atReset : SplitState := ⟨[], [], false, 0, 0, Tab.atReset, Tab.atReset⟩

/-- A line on its way through the pixel path in this output frame, lines keyed by y + 32 so that hem and seam lines have
a key: the light decoded, the lines that R24 makes black, B with 32 columns on either side, the mono target and the
blurred line of SPLIT, and how many lines were read. -/
structure PathState where
  light : Cells (List Pix)
  black : List Nat
  field : Cells (List Sample)
  target : Cells (List Sample)
  hor : Cells (List Sample)
  readNext : Nat
  deriving DecidableEq, Repr

def PathState.atReset : PathState := ⟨[], [], [], [], [], 0⟩

/-- A word fetched from a patch set or a state byte: its value, and whether its beat faulted (1) or came late (2). -/
structure Fetched where
  val : Nat
  bad : Nat
  deriving DecidableEq, Repr

/-- A line leaving PATCH: the codes of its planes, and the columns whose DEF flag is set, colour and mono. -/
structure PatchLine where
  r : List Nat
  g : List Nat
  b : List Nat
  m : List Nat
  defC : List Nat
  defM : List Nat
  deriving DecidableEq, Repr

/-- PATCH beside its registers (R211 to R225): the words held (key line, or coarse line), the tile words held (key tile
row), the next line to fetch, the lines that left PATCH, the handle and bytes of a check under way, the probe of this
frame, and whether the set being applied is the firmware's, of a coarse image (R222). -/
structure PatchState where
  words : Cells (List Fetched × List Fetched)
  tiles : Cells (List Fetched)
  next : Nat
  out : Cells PatchLine
  check : Option (Nat × Nat)
  probeX : Nat
  probeY : Nat
  coarseDue : Bool
  deriving DecidableEq, Repr

def PatchState.atReset : PatchState := ⟨[], [], 0, [], none, 0, 0, false⟩

/-- DEFECT beside its registers (R226 to R232): the auto list, how many of its entries are in effect, whether it is to
be emptied, the figures of this frame (handled, skipped, orphaned), whether a clamp was met, and the probe. -/
structure DefectState where
  auto : List Nat
  live : Nat
  clr : Bool
  applied : Nat
  skipped : Nat
  orphans : Nat
  clipped : Bool
  probeX : Nat
  probeY : Nat
  deriving DecidableEq, Repr

def DefectState.atReset : DefectState := ⟨[], 0, false, 0, 0, 0, false, 0, 0⟩

/-- OD beside its registers (R236 to R246): the states held (key line), the next line to fetch, whether the next frame
with OD enabled is an initialisation frame, whether this one is, dbin of this frame, and the probe. -/
structure OdState where
  lines : Cells (List Fetched × List Fetched)
  next : Nat
  needInit : Bool
  init : Bool
  dbin : Nat
  probeX : Nat
  probeY : Nat
  probeCh : Nat
  deriving DecidableEq, Repr

def OdState.atReset : OdState := ⟨[], 0, true, false, 0, 0, 0, 0⟩

/-- A thermistor (R249, R250): its in-range conversions, newest first, at most 16; whether it has had 16 since reset;
the run of conversions out of range, the run in range since it faulted, and whether it has faulted. -/
structure Sensor where
  codes : List Nat
  full : Bool
  badRun : Nat
  goodRun : Nat
  fault : Bool
  deriving DecidableEq, Repr

def Sensor.atReset : Sensor := ⟨[], false, 0, 0, false⟩

/-- THERM beside its registers (R248 to R254): the active and the pending field, OFS, HEAT and CONV (each as stored
words), the sensors and which converts next, the TIMEBASE at the end of the last frame the control core processed,
that at the end of the last output frame and its period until the core has processed it, whether a frame was skipped,
whether a COMMIT was written in this frame, and whether the frame before was held. -/
structure ThermState where
  act : Cells Word
  pend : Cells Word
  ofs : Cells Word
  heat : Cells Word
  conv : Cells Word
  sens : Cells Sensor
  turn : Nat
  lastEnd : Option Nat
  ended : Option (Nat × Nat)
  behind : Bool
  committed : Bool
  holding : Bool
  deriving DecidableEq, Repr

def ThermState.atReset : ThermState := ⟨[], [], [], [], [], [], 0, none, none, false, false, false⟩

/-- DITH beside its registers: the probe of this frame, the lines compared by the shadow lane in it, and whether one
differed. -/
structure DithState where
  probeX : Nat
  probeY : Nat
  probeCh : Nat
  compared : Nat
  differs : Bool
  deriving DecidableEq, Repr

def DithState.atReset : DithState := ⟨0, 0, 0, 0, false⟩

/-- Something a port is to send (R295): its place in the order of priority (1 SYNC, 3 line packet, 4 level packet, 5
POLL, 6 a CMD of its own, 7 a CMD of the host, 8 a PRBS burst, 9 IDLE) and its order there, the ticks it is held
(R465), the instant that a SYNC block names, and its blocks: sync header and payload, of a SYNC block the body without
DELAY. -/
structure EdlItem where
  place : Nat
  key : Nat
  hold : Nat
  names : Option Nat
  blocks : List (Nat × Nat)
  deriving DecidableEq, Repr

/-- A port of EDL (R269, R295 to R301): the KIND in force; the IDs its last walk gave it; the IDs answered in this
attempt; the ID offered (0x7FE while parking) and how often its CAPS poll missed; when the attempt began, and when its
patterns did; the instant until which it is sending; what waits to be sent, in the order it came, and the packet in
progress; and FRAME_NO + 1 of its last burst. -/
structure EdlPort where
  kind : Nat
  held : Option (List Nat)
  got : List Nat
  offer : Option Nat
  misses : Nat
  since : Nat
  pattern : Option Nat
  free : Nat
  queue : List EdlItem
  prog : Option EdlItem
  burst : Nat
  deriving DecidableEq, Repr

def EdlPort.atReset : EdlPort := ⟨0, none, [], none, 0, 0, none, 0, [], none, 0⟩

/-- An open slot of a return bus (R292): the port and the partner polled, REQ and TAG. -/
structure EdlSlot where
  port : Nat
  pid : Nat
  req : Nat
  tag : Nat
  deriving DecidableEq, Repr

/-- A host command under way (R288): the partner, whether it reads, its TAG and the polls made. -/
structure HostCmd where
  pid : Nat
  rd : Bool
  tag : Nat
  polls : Nat
  deriving DecidableEq, Repr

/-- EDL beside its registers (R269 to R310): the ports; the slots; the next TAG; per partner the instant of its last
STATUS and ERRCNT poll, counted from 1 (0 none yet); those whose last STATUS showed FAULT_NEW; per bus the partner
polled last; the host's command; whether a walk runs and whether one has run; and the pointer to the lowest unused ID.
-/
structure EdlState where
  ports : Cells EdlPort
  slots : Cells (Option EdlSlot)
  tag : Nat
  statusAt : Cells Nat
  errAt : Cells Nat
  faultNew : List Nat
  lastPid : Cells Nat
  host : Option HostCmd
  walking : Bool
  walked : Bool
  ptr : Nat
  deriving DecidableEq, Repr

def EdlState.atReset : EdlState := ⟨[], [], 0, [], [], [], [], none, false, false, 0⟩

/-- A gate frame (R311, R313): the boundary F of its output frame, its FRAME_NO, t_line, DRIVE_OFS, VACTIVE and
HTOTAL, n and INV of its polarity, and the GT_MODE and EDGE words it runs on. -/
structure GateFrame where
  f : Nat
  no : Nat
  tLine : Nat
  ofs : Nat
  vact : Nat
  htotal : Nat
  n : Nat
  inv : Nat
  words : List Word
  deriving DecidableEq, Repr

/-- GATE and PANELPWR beside their registers (R311 to R325): what GATE drives (0 SAFE, 1 its waveforms, 2 AGON); the
gate frame that runs, the one to follow, the gate line that runs and its start; whether GATE_RUN, EDL_RUN and BL_RUN are
reached, and whether BL_RUN waits for a boundary; whether a step waits for PG_IN; the stage of a power-off (0 none,
1 DISCHARGE and WAIT, 2 GATES_ON, 3 SUPPLY_OFF); the levels of PWR_FAIL_N and PG_IN; whether the last power-off was
started by PWR_FAIL_N; the BL_PWM cycle that comes or runs, whether its pulse is high, and the level BL_PWM was last driven
to; and when the timed step under way ends. -/
structure PanelState where
  drive : Nat
  cur : Option GateFrame
  next : Option GateFrame
  line : Nat
  lineAt : Nat
  gateRun : Bool
  edlRun : Bool
  blWant : Bool
  blRun : Bool
  waitPg : Bool
  off : Nat
  pfailN : Bool
  pgIn : Bool
  byPfail : Bool
  pwmCycle : Nat
  pwmHigh : Bool
  pwmPin : Bool
  due : Nat
  deriving DecidableEq, Repr

def PanelState.atReset : PanelState :=
  ⟨0, none, none, 0, 0, false, false, false, false, false, 0, true, false, false, 0, false, false, 0⟩

/-- The source frame as the link follows it (R67 to R73): its FRAME_NO, whether its pip had REGION set, the rectangles
accepted and the line after the lowest line of them, whether its first LINE packet has come, the last line whose LAST has
come, the line whose segments arrive with the column after its last segment, and whether the frame is complete (R69). -/
structure LinkFrame where
  no : Nat
  part : Bool
  declared : Nat
  low : Nat
  opened : Bool
  last : Option Nat
  cur : Option (Nat × Nat)
  done : Bool
  deriving DecidableEq, Repr

/-- A TABLE packet staged in one of the two buffers (R76). -/
structure StagedTable where
  tag : Nat
  handle : Nat
  ofs : Nat
  data : List Byte
  deriving DecidableEq, Repr

/-- ISL and its back-channel beside their registers (R60 to R92, R497 to R501): the frame of the last pip, if one has
been accepted since the link came UP; whether data rows are skipped until the next control row; the misaligned rows in
a row; the META blocks (FRAME_NO and the eleven bytes), oldest first; the staged TABLE packets, oldest first; when the
training phase, or the fast retrain, began; in EQ the presets still to measure, the presets asked for and not
acknowledged (lane mask and preset), the best height of each lane, and whether the chosen presets are settling; the
fast retrain under way (0 none, 1 a wake, 2 lane 0's rate change on entering S1) and the LANES and RATE codes it goes
to; whether WAKE is to be raised; the lanes and rate last used in UP; the limits of LANES and RATE of the running
attempt (R89), whether it waits for BC_RX (R81), and how far READY is (0 not sent, 1 sent, 2 answered); the level of
ISL_HPD and the end of a pulse; whether BC_RX went idle since ABSENT; the bits of IRQ_SUMMARY that rose and are not
yet sent in an EVENT, and when the last one was sent; and the register read in progress that waits for replies from
other members: its TAG, and per word its value, if it is there, and its tunnel's TAG. -/
structure IslState where
  frame : Option LinkFrame
  skipping : Bool
  misrun : Nat
  metas : List (Nat × List Byte)
  staged : List StagedTable
  since : Nat
  presets : List Nat
  asked : List (Nat × Nat)
  heights : Cells Nat
  settling : Bool
  fast : Nat
  fastLanes : Nat
  fastRate : Nat
  wakeDue : Bool
  upLanes : Nat
  upRate : Nat
  capLanes : Nat
  capRate : Nat
  hold : Bool
  ready : Nat
  hpd : Bool
  pulse : Option Nat
  idleSeen : Bool
  rises : Nat
  eventAt : Option Nat
  req : Option (Nat × List (Option Word × Nat))
  deriving DecidableEq, Repr

def IslState.atReset : IslState :=
  { frame := none, skipping := false, misrun := 0, metas := [], staged := [], since := 0, presets := [], asked := []
    heights := [], settling := false, fast := 0, fastLanes := 0, fastRate := 0, wakeDue := false, upLanes := 0
    upRate := 0, capLanes := 0, capRate := 0, hold := false, ready := 0, hpd := false, pulse := none, idleSeen := false, rises := 0, eventAt := none, req := none }

/-- An entry of the event log (R447): TIMEBASE, the bit of IRQ_SUMMARY, the unit's page, its IRQ_RAW. -/
structure LogEntry where
  tb : Nat
  bit : Nat
  page : Nat
  raw : Word
  deriving DecidableEq, Repr

/-- A valid record of the flash as NVC indexes it (R436, R440): its sector and offset, the sector's ERA and SSEQ, TYPE,
ID, LEN, FLAGS, SEQ and the stored CRC-32. -/
structure NvRec where
  sector : Nat
  off : Nat
  era : Nat
  sseq : Nat
  typ : Nat
  id : Nat
  len : Nat
  flags : Nat
  seq : Nat
  crc : Nat
  deriving DecidableEq, Repr

/-- A record to be appended: TYPE, ID, FLAGS, its own SEQ when it is a copy or renumbered, and its payload. -/
structure NvNew where
  typ : Nat
  id : Nat
  flags : Nat
  seq : Option Nat
  data : List Byte
  deriving DecidableEq, Repr

/-- A step of an NVC operation (R441 to R448): bytes programmed within a page, a 4 KiB sector or a 64 KiB block
erased, a record appended, a fresh sector opened, a record indexed, a sector opened and one erased, space reclaimed,
the ring renumbered (whether its new era has yet to be opened, and how many records are already copied), a page taken
from a region, and the ends of operations: a record command, a raw command, a save (and whether it ended well), and a
mailbox service with its status. -/
inductive NvStep where
  | program (addr : Nat) (bytes : List Byte)
  | erase (addr : Nat) (big : Bool)
  | append (r : NvNew)
  | openNext
  | opened (sector : Nat)
  | index (r : NvRec)
  | gone (sector : Nat)
  | reclaim
  | renumber (fresh : Bool) (done : Nat)
  | region (addr handle ofs left : Nat)
  | recEnd (code : Nat)
  | rawEnd (code : Nat)
  | saveEnd (cause : Nat)
  | ringClear
  | mboxEnd (status : Nat)
  deriving DecidableEq, Repr

/-- NV beside its registers (R432 to R451): the flash; the 4 KiB buffer; H * 2^32 + Q of every zone; the event log; the
indexed records of the ring and of the factory area; head, its next offset, tail, the sectors in use, SSEQ and ERA; the
next SEQ; the steps still to do, the first under way, and whether a save runs; the PRESENCE records made; the time any
zone was lit in ns, the saves completed and those for PWR_FAIL_N; and the levels of NV_WP_N and CAL_JMP_N. -/
structure NvState where
  flash : Cells Byte
  buf : Cells Byte
  ages : Cells Nat
  satZones : List Nat
  log : List LogEntry
  recs : List NvRec
  factory : List NvRec
  head : Nat
  headOff : Nat
  tail : Nat
  inUse : Nat
  sseq : Nat
  era : Nat
  nextSeq : Nat
  todo : List NvStep
  saving : Bool
  presence : Nat
  litNs : Nat
  saves : Nat
  pfSaves : Nat
  wpN : Bool
  jmpN : Bool
  deriving DecidableEq, Repr

def NvState.atReset : NvState :=
  { flash := [], buf := [], ages := [], satZones := [], log := [], recs := [], factory := [], head := 255
    headOff := 4096, tail := 0, inUse := 0, sseq := 0, era := 0, nextSeq := 1, todo := [], saving := false
    presence := 0, litNs := 0, saves := 0, pfSaves := 0, wpN := true, jmpN := true }

/-- Where the ROM and the firmware stand (R453 to R462): 0 in reset or starting, 1 an image checked and DRAM training,
2 the firmware initialising, 3 the firmware running, 4 Pawn mode, 5 Pawn's picture while HOSTLOAD is awaited; the slot
last started; of the image in B32, if there is one, the bytes of its body, their CRC-32 and its VERSION; when the
firmware was started; whether Pawn mode waits for the next frame boundary; the tried image in its region (handle, bytes)
that waits for the boundary, and whether the image running is a tried one whose BOOT_OK is due; the lines received while
the Pawn picture is shown (R459), whether RESET_N is low, and whether step 2 of R453 has been passed; LED_STAT: whether it
is low, the row of R482 in force (0 window, 1 Pawn, 2 firmware, 3 otherwise) and when its square wave last changed; 
the key hash in the OTP, none when its fuses are blank or fail their parity (R454, R456); the service whose region
request stands in port 3's copy (0 none, 1 ACTIVATE, 2 the coarse set), the region that one is being stored into
(service, handle, bytes), and the beats whose reads by the core were skipped (handle, offset; R342). -/
structure BootState where
  phase : Nat
  slot : Nat
  img : Option (Nat × Nat × Nat)
  since : Nat
  pawnDue : Bool
  image : Option (Nat × Nat)
  trial : Bool
  lines : Cells (List Pix)
  resetLow : Bool
  clocked : Bool
  ledLow : Bool
  ledRow : Nat
  ledAt : Nat
  keyHash : Option (BitVec 256)
  ask : Nat
  copyTo : Option (Nat × Nat × Nat)
  skipped : List (Nat × Nat)
  deriving DecidableEq, Repr

def BootState.atReset : BootState :=
  ⟨0, 0, none, 0, false, none, false, [], false, false, false, 3, 0, Config.otpKeyHash, 0, none, []⟩

/-- TEST beside its registers (R463, R464): per kind the runs, fails and aborts (key 3 * kind + which); the turns of
each kind made in this output frame; the bank and the segment of the next SRAM turn, the page the next DRAM turn looks
from, and the table of the next LUT turn; the bank each table had at its reference; and
whether a fail has been recorded since CNT_CLR. -/
structure TestState where
  counts : Cells Nat
  made : Cells Nat
  bank : Nat
  segment : Nat
  page : Nat
  table : Nat
  refs : Cells (Option Nat)
  failed : Bool
  deriving DecidableEq, Repr

def TestState.atReset : TestState := ⟨[], [], 0, 0, 0, 0, [], false⟩

/-- The TAP (R466): the instruction, and the boundary register's update cells, cell 0 first. -/
structure TapState where
  ir : Nat
  cells : List Bool
  deriving DecidableEq, Repr

def TapState.atReset : TapState := ⟨2, []⟩

/-- SEC beside its registers: the instant the presence window opened and the one it closes at (R388). -/
structure SecState where
  window : Option (Nat × Nat)
  deriving DecidableEq, Repr

def SecState.atReset : SecState := ⟨none⟩

/-- The host ports: per port the high half latched by the last read of a low half (R10), with that half's address; and the
DISCARD and TREE_MISS bits of the SPI STATUS byte (R377). -/
structure HostState where
  latch : Cells (Option (Nat × Word))
  discard : Bool
  treeMiss : Bool
  deriving DecidableEq, Repr

def HostState.atReset : HostState := ⟨[], false, false⟩

/-- The state: the instant in 1/256 ns; the register words, shadow and active; DRAM and SRAM; the free values drawn; what
has left the M960, newest first; the units; the pixel-path pages whose SOFT_RST waits for the boundary (R371); and the
queue. -/
structure State where
  now : Nat
  regs : Cells Word
  act : Cells Word
  dram : Cells Byte
  sram : Cells Word
  fresh : Nat
  out : List Output
  phy : PhyState
  mem : MemState
  inj : PerturbState
  clk : ClkState
  pwr : PwrState
  chip : ChipState
  inp : InputState
  sta : StatsState
  sto : StoreState
  zon : ZoneState
  psf : PsfState
  fie : FieldState
  cas : CasState
  isl : IslState
  nv : NvState
  tim : TimState
  srf : SrefState
  spl : SplitState
  path : PathState
  pat : PatchState
  dfc : DefectState
  od : OdState
  thm : ThermState
  dit : DithState
  edl : EdlState
  pan : PanelState
  boot : BootState
  test : TestState
  tap : TapState
  sec : SecState
  host : HostState
  soft : List Nat
  pending : List Instr
  deriving DecidableEq, Repr

/-- The machine right after reset. -/
def State.reset : State :=
  { now := 0, regs := [], act := [], dram := [], sram := [], fresh := 0, out := [],
    phy := PhyState.atReset, mem := MemState.atReset, inj := PerturbState.atReset,
    clk := ClkState.atReset, pwr := PwrState.atReset, chip := ChipState.atReset, inp := InputState.atReset,
    sta := StatsState.atReset, sto := StoreState.atReset,
    zon := ZoneState.atReset, psf := PsfState.atReset, fie := FieldState.atReset,
    cas := CasState.atReset, isl := IslState.atReset, nv := NvState.atReset, tim := TimState.atReset, srf := SrefState.atReset, spl := SplitState.atReset,
    path := PathState.atReset, pat := PatchState.atReset, dfc := DefectState.atReset, od := OdState.atReset,
    thm := ThermState.atReset, dit := DithState.atReset, edl := EdlState.atReset, pan := PanelState.atReset,
    boot := BootState.atReset, test := TestState.atReset, tap := TapState.atReset, sec := SecState.atReset,
    host := HostState.atReset, soft := [], pending := [] }

end Sys2Proof.Machine
end

