-- ==== Sys2Proof/Machine/Operands.lean ====
section
/-! DEFINITION. How the operands of host accesses are laid out: words on the wire of quad-SPI and I2C (R376, R378), words
of the back-channel (R78), and the member that HOSTIF.TREE_SEL selects (R380). -/

namespace Sys2Proof.Machine

/-- What a command answers. -/
abbrev Result := Host.Outcome State Fault Refusal

/-- Four bytes, most significant first, as a word (R376, R378). -/
def wordMsb (l : List Byte) : Word := BitVec.ofNat 32 (l.foldl (fun a b => a * 256 + b.toNat) 0)

/-- The bytes of a word, most significant first. -/
def msbBytes (w : Word) : List Nat := [w.toNat / 2 ^ 24, w.toNat / 2 ^ 16 % 256, w.toNat / 2 ^ 8 % 256, w.toNat % 256]

/-- The complete words that bytes spell, most significant byte first. -/
def wordsMsb (l : List Byte) : List Word := ((chunks 4 l).filter (·.length == 4)).map wordMsb

/-- The complete words that bytes spell, least significant byte first (R78). -/
def wordsLsb (l : List Byte) : List Word :=
  ((chunks 4 l).filter (·.length == 4)).map (fun b => BitVec.ofNat 32 (leVal b))

/-- DEPTH of a TREE_SEL word as it acts: 5 to 7 act as 4 (R391). -/
def treeDepth (w : Word) : Nat := min 4 (w.toNat % 8)

/-- The index of a level in a TREE_SEL word: L1 to L4 for levels 0 to 3. -/
def treeIndex (w : Word) (l : Nat) : Nat := w.toNat / 2 ^ (8 + 4 * l) % 16

/-- Whether a selected path passes a broadcast level (R380). -/
def treeBroadcast (w : Word) : Bool := (List.range (treeDepth w)).any (fun l => treeIndex w l == 15)

/-- The members (row, column) that an index selects in a level of some rows and columns (R380). -/
def levelTargets (rows cols index : Nat) : List (Nat × Nat) :=
  if index = 15 then
    ((List.range rows).flatMap (fun r => (List.range cols).map (fun c => (r, c)))).filter (fun x => x != (0, 0))
  else
    let r := (index + 1) / 4
    let c := (index + 1) % 4
    if r < rows && c < cols then [(r, c)] else []

/-- The members that a TREE_SEL word selects, as steps east and south of the root: `size l` gives the rows and columns of
level l, of which there are `levels`, level 0 the outermost (log entry 32). None when the path is closed, names an
absent member, or is deeper than the grid. -/
def treeTargets (size : Nat → Nat × Nat) (levels : Nat) (w : Word) : Option (List (Nat × Nat)) :=
  if treeDepth w = 0 ∨ levels < treeDepth w then none
  else
    let inner := fun l => (List.range levels).foldl
      (fun (a : Nat × Nat) j => if l < j then (a.1 * (size j).1, a.2 * (size j).2) else a) (1, 1)
    let l := (List.range (treeDepth w)).foldl (fun (acc : List (Nat × Nat)) l =>
      acc.flatMap (fun x => (levelTargets (size l).1 (size l).2 (treeIndex w l)).map
        (fun t => (x.1 + t.2 * (inner l).2, x.2 + t.1 * (inner l).1)))) [(0, 0)]
    if l.isEmpty then none else some l

end Sys2Proof.Machine
end

