-- ==== Sys2Proof/Machine/Crypto.lean ====
section
/-! DEFINITION. SHA-256 (FIPS 180-4) and ECDSA over P-256 (FIPS 186-4), which R456 names for the check of an image. -/

namespace Sys2Proof.Machine

/-- The whole part of the k-th root of n, found bit by bit below 2^b. -/
def rootBits (k n : Nat) : Nat → Nat → Nat
  | 0, r => r
  | b + 1, r => rootBits k n b (if (r + 2 ^ b) ^ k ≤ n then r + 2 ^ b else r)

/-- The primes below 312, of which there are 64: no divisor from 2 to 17 but itself. -/
def smallPrimes : List Nat :=
  (List.range 312).filter (fun n => decide (1 < n) && (List.range 18).all (fun d => decide (d < 2) || n == d || n % d != 0))

/-- The first 32 bits of the fraction of a prime's k-th root, which FIPS 180-4 makes its constants of. -/
def rootFraction (k n : Nat) : Nat := rootBits k (n * 2 ^ (32 * k)) 37 0 % 2 ^ 32

/-- The constants of the rounds, of the cube roots; the first hash value, of the first eight square roots. -/
def shaK : List Nat := smallPrimes.map (rootFraction 3)
def shaInit : List Nat := (smallPrimes.take 8).map (rootFraction 2)

def rotr (n k : Nat) : Nat := n / 2 ^ k + n % 2 ^ k * 2 ^ (32 - k)

/-- The message schedule, newest word first, extended word by word. -/
def shaExtend : Nat → List Nat → List Nat
  | 0, l => l
  | n + 1, l =>
    let w15 := l.getD 14 0
    let w2 := l.getD 1 0
    let s0 := rotr w15 7 ^^^ rotr w15 18 ^^^ (w15 / 8)
    let s1 := rotr w2 17 ^^^ rotr w2 19 ^^^ (w2 / 1024)
    shaExtend n ((l.getD 15 0 + s0 + l.getD 6 0 + s1) % 2 ^ 32 :: l)

def shaRound (st : List Nat) (k w : Nat) : List Nat :=
  match st with
  | [a, b, c, d, e, f, g, h] =>
    let s1 := rotr e 6 ^^^ rotr e 11 ^^^ rotr e 25
    let ch := (e &&& f) ^^^ ((2 ^ 32 - 1 - e) &&& g)
    let t1 := h + s1 + ch + k + w
    let s0 := rotr a 2 ^^^ rotr a 13 ^^^ rotr a 22
    let maj := (a &&& b) ^^^ (a &&& c) ^^^ (b &&& c)
    [(t1 + s0 + maj) % 2 ^ 32, a, b, c, (d + t1) % 2 ^ 32, e, f, g]
  | _ => st

/-- A big-endian number. -/
def beVal (l : List Byte) : Nat := l.foldl (fun a b => a * 256 + b.toNat) 0

def shaBlock (st : List Nat) (blk : List Byte) : List Nat :=
  let w := (shaExtend 48 ((chunks 4 blk).map beVal).reverse).reverse
  let r := (shaK.zip w).foldl (fun st kw => shaRound st kw.1 kw.2) st
  (st.zip r).map (fun x => (x.1 + x.2) % 2 ^ 32)

/-- SHA-256 as a number of 256 bits. -/
def sha256 (l : List Byte) : Nat :=
  let pad := l ++ [0x80] ++ List.replicate ((119 - l.length % 64) % 64) 0 ++ (leBytes 8 (8 * l.length)).reverse
  ((chunks 64 pad).foldl shaBlock shaInit).foldl (fun a w => a * 2 ^ 32 + w) 0

def p256p : Nat := 0xffffffff00000001000000000000000000000000ffffffffffffffffffffffff
def p256n : Nat := 0xffffffff00000000ffffffffffffffffbce6faada7179e84f3b9cac2fc632551
def p256b : Nat := 0x5ac635d8aa3a93e7b3ebbd55769886bc651d06b0cc53b0f63bce3c3e27d2604b
def p256gx : Nat := 0x6b17d1f2e12c4247f8bce6e563a440f277037d812deb33a0f4a13945d898c296
def p256gy : Nat := 0x4fe342e2fe1a7f9b8ee7eb4a7c0f9e162bce33576b315ececbb6406837bf51f5

/-- A power modulo m, by the bits of the exponent from the lowest. -/
def powMod (m : Nat) : Nat → Nat → Nat → Nat → Nat
  | 0, _, _, acc => acc
  | n + 1, b, e, acc => powMod m n (b * b % m) (e / 2) (if e % 2 = 1 then acc * b % m else acc)

/-- The inverse modulo a prime. -/
def invMod (m a : Nat) : Nat := powMod m 257 (a % m) (m - 2) 1

/-- Addition of points of P-256; none is the point at infinity. -/
def ecAdd (u v : Option (Nat × Nat)) : Option (Nat × Nat) :=
  match u, v with
  | none, w => w
  | w, none => w
  | some (x1, y1), some (x2, y2) =>
    let p := p256p
    if x1 = x2 ∧ (y1 + y2) % p = 0 then none
    else
      let l :=
        if x1 = x2 then (3 * x1 * x1 + (p - 3)) % p * invMod p (2 * y1) % p
        else (y2 + p - y1) % p * invMod p (x2 + p - x1) % p
      let x3 := (l * l + 2 * p - x1 - x2) % p
      some (x3, (l * ((x1 + p - x3) % p) + p - y1) % p)

/-- A multiple of a point, by the bits of the factor from the lowest. -/
def ecMul : Nat → Nat → Option (Nat × Nat) → Option (Nat × Nat) → Option (Nat × Nat)
  | 0, _, _, acc => acc
  | n + 1, k, q, acc => ecMul n (k / 2) (ecAdd q q) (if k % 2 = 1 then ecAdd acc q else acc)

/-- ECDSA verification of a digest under a public key. -/
def ecdsaOk (digest x y r s : Nat) : Bool :=
  let p := p256p
  let onCurve := x < p && y < p && y * y % p == (x * x * x + (p - 3) * x + p256b) % p
  if !onCurve || r = 0 || p256n ≤ r || s = 0 || p256n ≤ s then false
  else
    let w := invMod p256n s
    match ecAdd (ecMul 256 (digest * w % p256n) (some (p256gx, p256gy)) none) (ecMul 256 (r * w % p256n) (some (x, y)) none) with
    | some (vx, _) => vx % p256n == r
    | none => false

end Sys2Proof.Machine
end

