-- ==== Sys2Proof/Machine/RegMap.lean ====
section
/-! DEFINITION. The register map: the page of every unit (R374), the address of every register, the place of every
named field, and for each register its reset value, which bits a host write stores, clears or acts on, and its
suffixes /F, /P and /S (R7, R8). One row per register of the register tables of spec/ (chapters 02 to 21). -/

namespace Sys2Proof.Machine

/-- The kinds of unit of R374, and the two shared blocks: the PHY block (R57) and the common header (R370). -/
inductive Unit where
  | CHIP
  | AON
  | CLK
  | PWR
  | HOSTIF
  | SEC
  | NV
  | TEST
  | PERTURB
  | CTL
  | ISL
  | ISL_LANE
  | ISL_BC
  | TIMING
  | GENLOCK
  | SREF
  | INPUT
  | STATS
  | CODEC
  | ZONE
  | PSF
  | FIELD
  | SPLIT
  | CELLLUT
  | PATCH
  | DEFECT
  | OD
  | THERM
  | DITH
  | EDL
  | EDL_GRP
  | EDL_PORT
  | RETBUS
  | PARTNER
  | GATE
  | PANELPWR
  | MEMC
  | REGION
  | SCHED
  | ECC
  | BULK
  | BANKS
  | CAS
  deriving DecidableEq, Repr

/-- The first page of each unit (R374). -/
def Unit.page : Unit → Nat
  | .CHIP => 0x000
  | .AON => 0x001
  | .CLK => 0x002
  | .PWR => 0x003
  | .HOSTIF => 0x004
  | .SEC => 0x005
  | .NV => 0x006
  | .TEST => 0x007
  | .PERTURB => 0x008
  | .CTL => 0x009
  | .ISL => 0x010
  | .ISL_LANE => 0x011
  | .ISL_BC => 0x021
  | .TIMING => 0x030
  | .GENLOCK => 0x031
  | .SREF => 0x032
  | .INPUT => 0x040
  | .STATS => 0x041
  | .CODEC => 0x042
  | .ZONE => 0x050
  | .PSF => 0x051
  | .FIELD => 0x052
  | .SPLIT => 0x053
  | .CELLLUT => 0x054
  | .PATCH => 0x060
  | .DEFECT => 0x061
  | .OD => 0x062
  | .THERM => 0x063
  | .DITH => 0x064
  | .EDL => 0x070
  | .EDL_GRP => 0x071
  | .EDL_PORT => 0x0A0
  | .RETBUS => 0x0E0
  | .PARTNER => 0x0F0
  | .GATE => 0x100
  | .PANELPWR => 0x101
  | .MEMC => 0x110
  | .REGION => 0x111
  | .SCHED => 0x112
  | .ECC => 0x113
  | .BULK => 0x114
  | .BANKS => 0x118
  | .CAS => 0x120

/-- How many pages (or instances) each unit has (R374). -/
def Unit.count : Unit → Nat
  | .ISL_LANE => 16
  | .EDL_GRP => 16
  | .EDL_PORT => 64
  | .RETBUS => 16
  | .PARTNER => 4
  | _ => 1

/-- Every kind of unit, in page order. -/
def Unit.all : List Unit :=
  [.CHIP, .AON, .CLK, .PWR, .HOSTIF, .SEC, .NV, .TEST,
   .PERTURB, .CTL, .ISL, .ISL_LANE, .ISL_BC, .TIMING, .GENLOCK, .SREF,
   .INPUT, .STATS, .CODEC, .ZONE, .PSF, .FIELD, .SPLIT, .CELLLUT,
   .PATCH, .DEFECT, .OD, .THERM, .DITH, .EDL, .EDL_GRP, .EDL_PORT,
   .RETBUS, .PARTNER, .GATE, .PANELPWR, .MEMC, .REGION, .SCHED, .ECC,
   .BULK, .BANKS, .CAS]

/-- The unit that occupies a page, if any (R374). -/
def unitOfPage (p : Nat) : Option Unit :=
  Unit.all.find? (fun u => u.page ≤ p && p < u.page + u.count)

/-- IRQ_RAW bits a unit names (R384 and the interrupt table of each chapter); bit 31 is CHILDREN. -/
def Unit.irqMask : Unit → Nat
  | .ISL => 0x7FF
  | .TIMING => 0xFF
  | .GENLOCK => 0x7
  | .SREF => 0xF
  | .INPUT => 0x1F
  | .STATS => 0x7
  | .CODEC => 0x7F
  | .ZONE => 0xF
  | .PSF => 0x3
  | .FIELD => 0x7
  | .SPLIT => 0xF
  | .CELLLUT => 0x3
  | .PATCH => 0x3F
  | .DEFECT => 0xF
  | .OD => 0xF
  | .THERM => 0xF
  | .DITH => 0x7
  | .EDL => 0xF
  | .EDL_GRP => 0xF
  | .EDL_PORT => 0x1F
  | .RETBUS => 0x7
  | .GATE => 0x1
  | .PANELPWR => 0x3F
  | .MEMC => 0x1F
  | .REGION => 0x7
  | .SCHED => 0x1
  | .ECC => 0x1F
  | .BULK => 0x7
  | .BANKS => 0x1F
  | .CHIP => 0xF
  | .HOSTIF => 0x7
  | .SEC => 0xF
  | .CTL => 0xF
  | .CLK => 0x3F
  | .PWR => 0x3F
  | .AON => 0x3
  | .NV => 0xFF
  | .TEST => 0x3
  | .PERTURB => 0x3
  | .CAS => 0x1F
  | _ => 0

/-- The place of a field: its register, its lowest bit and its width. -/
structure Fld where
  addr : Nat
  lo : Nat
  w : Nat
  deriving DecidableEq, Repr

/-- One register of a page: its offset, how many elements the array has and their stride, the reset value, the bits a
host write stores (rw), clears by a 1 (w1c) or acts on (act), and its suffixes /F, /P, /S (R7, R8). -/
structure RegRow where
  off : Nat
  cnt : Nat
  stride : Nat
  reset : Nat
  rw : Nat
  w1c : Nat
  act : Nat
  f : Bool
  p : Bool
  s : Bool
  deriving DecidableEq, Repr

/-- An array element's suffixes: plain, /S, /F/S, /F, /P, /P/S. -/
def RegRow.mk' (off cnt stride reset rw w1c act flags : Nat) : RegRow :=
  ⟨off, cnt, stride, reset, rw, w1c, act, flags % 2 == 1, flags / 2 % 2 == 1, flags / 4 % 2 == 1⟩

/-- The registers of each unit beyond the common header (the register table of its chapter). -/
def Unit.rows : Unit → List RegRow
  | .CHIP =>
    [
    .mk' 0x040 1 4 0x96000B0 0x0 0x0 0x0 0,
    .mk' 0x044 1 4 0x4428040 0x0 0x0 0x0 0,
    .mk' 0x048 1 4 0x0 0x0 0x0 0x1 0,
    .mk' 0x04C 1 4 0x0 0x0 0x0 0x1 0,
    .mk' 0x050 1 4 0x0 0x0 0x0 0x0 0,
    .mk' 0x054 1 4 0x0 0x0 0x0 0x0 0,
    .mk' 0x058 1 4 0x18 0x0 0x0 0x0 0,
    .mk' 0x05C 1 4 0x0 0x0 0x1 0x0 0,
    .mk' 0x060 1 4 0x0 0x0 0x0 0x0 0,
    .mk' 0x064 1 4 0x7FFFF 0x7FFFF 0x0 0x0 4,
    .mk' 0x068 1 4 0x0 0x0 0x0 0x0 0,
    .mk' 0x06C 1 4 0x0 0x0 0x0 0x0 0,
    .mk' 0x070 1 4 0x0 0x0 0x0 0x0 0,
    .mk' 0x074 1 4 0x0 0x0 0x0 0x3 0 ]
  | .AON =>
    [
    .mk' 0x040 1 4 0x0 0x0 0x0 0x0 0,
    .mk' 0x044 1 4 0x0 0x0 0x0 0x0 0,
    .mk' 0x048 1 4 0x0 0x0 0x0 0x0 0,
    .mk' 0x04C 1 4 0x0 0x0 0x0 0x0 0,
    .mk' 0x050 1 4 0xFFFFFFFF 0xFFFFFFFF 0x0 0x0 0,
    .mk' 0x054 1 4 0xFFFFFFFF 0xFFFFFFFF 0x0 0x0 0,
    .mk' 0x058 1 4 0x0 0x0 0xF0F 0x0 0,
    .mk' 0x05C 1 4 0x0 0x0 0x0 0x0 0 ]
  | .CLK =>
    [
    .mk' 0x040 1 4 0x20 0x3F1 0x0 0x0 4,
    .mk' 0x044 1 4 0x0 0x0 0x0 0x0 0,
    .mk' 0x048 1 4 0x112 0x0 0x0 0x0 0,
    .mk' 0x04C 1 4 0x0 0x0 0xF 0x0 0,
    .mk' 0x050 1 4 0x40 0x0 0x0 0x0 0,
    .mk' 0x054 1 4 0x40000000 0x0 0x0 0x0 0,
    .mk' 0x060 1 4 0x0 0x0 0x0 0x0 0,
    .mk' 0x064 1 4 0x0 0x0 0x0 0x0 0,
    .mk' 0x068 1 4 0x0 0x0 0x0 0x0 0,
    .mk' 0x06C 1 4 0x0 0x0 0x0 0x0 0,
    .mk' 0x070 1 4 0x0 0x0 0x0 0x0 0,
    .mk' 0x074 1 4 0x0 0x0 0x0 0x0 0,
    .mk' 0x078 1 4 0x0 0x0 0x0 0x3F 0 ]
  | .PWR =>
    [
    .mk' 0x040 1 4 0x3 0xF3 0x0 0x0 0,
    .mk' 0x044 1 4 0x3 0x0 0x0 0x0 0,
    .mk' 0x048 1 4 0x10 0xFF 0x0 0x0 0,
    .mk' 0x04C 1 4 0x384 0x3FF 0x0 0x0 0,
    .mk' 0x050 1 4 0x0 0x0 0x0 0x0 0,
    .mk' 0x054 1 4 0x0 0x0 0x0 0x7 0,
    .mk' 0x058 1 4 0x0 0x0 0x0 0x0 0,
    .mk' 0x05C 1 4 0x0 0x0 0x0 0x0 0,
    .mk' 0x060 1 4 0x0 0x0 0x0 0x0 0,
    .mk' 0x064 1 4 0x0 0x0 0x0 0x0 0,
    .mk' 0x068 1 4 0x0 0x0 0x0 0x0 0,
    .mk' 0x06C 1 4 0x0 0x0 0x0 0x0 0,
    .mk' 0x070 1 4 0x0 0x0 0x0 0x0 0,
    .mk' 0x074 1 4 0x0 0x0 0x0 0x3F 0,
    .mk' 0x080 1 4 0x0 0xF0F 0x0 0x0 0,
    .mk' 0x084 2 4 0x0 0xFFFFFFFF 0x0 0x0 0,
    .mk' 0x08C 1 4 0x0 0x7FFFFFFF 0x0 0x0 0,
    .mk' 0x090 1 4 0x0 0x7F 0x0 0x0 0,
    .mk' 0x094 1 4 0x0 0x0 0x0 0x0 0,
    .mk' 0x098 1 4 0x0 0x0 0x0 0x0 0,
    .mk' 0x09C 1 4 0x0 0x0 0x0 0x0 0,
    .mk' 0x100 95 16 0x1 0x3 0x0 0x0 0,
    .mk' 0x104 95 16 0x1 0x0 0x0 0x0 0,
    .mk' 0x108 95 16 0x0 0x0 0x0 0x0 0,
    .mk' 0x10C 95 16 0x0 0x0 0x0 0x0 0 ]
  | .HOSTIF =>
    [
    .mk' 0x040 1 4 0x0 0xFFFF07 0x0 0x0 0,
    .mk' 0x044 1 4 0x1 0x1 0x0 0x0 4,
    .mk' 0x048 1 4 0x0 0x0 0x0 0x0 0,
    .mk' 0x04C 1 4 0x0 0x0 0x0 0x0 0,
    .mk' 0x050 1 4 0x0 0x0 0x0 0x0 0,
    .mk' 0x054 1 4 0x0 0x0 0x0 0x0 0,
    .mk' 0x058 1 4 0x0 0x0 0x0 0x0 0,
    .mk' 0x05C 1 4 0x0 0x0 0x0 0xF 0 ]
  | .SEC =>
    [
    .mk' 0x040 1 4 0x78 0x3FF 0x0 0x0 6,
    .mk' 0x044 1 4 0x0 0x0 0x0 0x0 0,
    .mk' 0x048 1 4 0x0 0x0 0x0 0x1 0,
    .mk' 0x04C 1 4 0x0 0x0 0x0 0x0 0,
    .mk' 0x050 1 4 0x0 0x0 0x0 0x0 0,
    .mk' 0x054 1 4 0x0 0x0 0x0 0x1 2,
    .mk' 0x058 1 4 0x0 0x0 0x0 0x0 0,
    .mk' 0x05C 1 4 0x0 0x0 0x0 0x3 0 ]
  | .NV =>
    [
    .mk' 0x040 1 4 0xC 0xFF 0x0 0x0 4,
    .mk' 0x044 1 4 0x1900001 0xFFFF000F 0x0 0x0 4,
    .mk' 0x048 1 4 0x0 0x0 0x0 0x3 0,
    .mk' 0x04C 1 4 0x0 0x1FFFFFF 0x0 0x0 0,
    .mk' 0x050 1 4 0x0 0x1FFF 0x0 0x0 0,
    .mk' 0x054 1 4 0x0 0x0 0x0 0x0 0,
    .mk' 0x058 1 4 0x0 0x0 0x0 0x0 0,
    .mk' 0x05C 1 4 0x0 0x1FFFFFF 0x0 0x0 0,
    .mk' 0x060 1 4 0x0 0x1FFF 0x0 0x0 0,
    .mk' 0x064 1 4 0x0 0x0 0x0 0x7 0,
    .mk' 0x068 1 4 0x0 0x0 0x0 0x0 0,
    .mk' 0x06C 1 4 0x0 0x0 0x0 0x1 0,
    .mk' 0x070 1 4 0x0 0x0 0x0 0x0 0,
    .mk' 0x074 1 4 0x0 0x0 0x0 0x0 0,
    .mk' 0x078 1 4 0x1 0x0 0x0 0x0 0,
    .mk' 0x07C 1 4 0x0 0x0 0x0 0x0 0,
    .mk' 0x080 1 4 0x0 0x0 0x0 0x0 0,
    .mk' 0x084 1 4 0x0 0x3FFF 0x0 0x0 0,
    .mk' 0x088 1 4 0x0 0x0 0x0 0x0 0,
    .mk' 0x08C 1 4 0x0 0xFFC 0x0 0x0 0,
    .mk' 0x090 1 4 0x0 0xFFFFFFFF 0x0 0x0 0,
    .mk' 0x0A0 1 4 0x0 0x0 0x0 0x0 0,
    .mk' 0x0A4 1 4 0x0 0x0 0x0 0x0 0,
    .mk' 0x0A8 1 4 0x0 0x0 0x0 0x0 0 ]
    ++
    [
    .mk' 0x0AC 1 4 0x0 0x0 0x0 0x0 0,
    .mk' 0x0B0 1 4 0x0 0x0 0x0 0x0 0,
    .mk' 0x0B4 1 4 0x0 0x0 0x0 0x0 0,
    .mk' 0x0B8 1 4 0x0 0x0 0x0 0x0 0,
    .mk' 0x0BC 1 4 0x0 0x0 0x0 0x7F 0 ]
  | .TEST =>
    [
    .mk' 0x040 1 4 0x104101F 0xFFFFFF1F 0x0 0x0 4,
    .mk' 0x044 1 4 0x0 0x1 0x0 0x0 2,
    .mk' 0x048 1 4 0x0 0x7 0x0 0x0 0,
    .mk' 0x04C 1 4 0x0 0x0 0x0 0x0 0,
    .mk' 0x050 1 4 0x0 0x0 0x0 0x0 0,
    .mk' 0x054 1 4 0x0 0x0 0x0 0x0 0,
    .mk' 0x058 1 4 0x0 0x0 0x0 0x0 0,
    .mk' 0x05C 1 4 0x0 0x0 0x0 0x0 0,
    .mk' 0x060 1 4 0x0 0x0 0x0 0x0 0,
    .mk' 0x064 1 4 0x0 0x0 0x0 0x3F 0,
    .mk' 0x068 1 4 0x0 0x0 0x0 0x1 0,
    .mk' 0x06C 1 4 0x0 0x0 0x0 0x0 0 ]
  | .PERTURB =>
    [
    .mk' 0x040 1 4 0x0 0xFFFFFFFF 0x0 0x0 2,
    .mk' 0x044 1 4 0x0 0xFFFFFFFF 0x0 0x0 2,
    .mk' 0x048 1 4 0x0 0xFFFF 0x0 0x0 2,
    .mk' 0x04C 1 4 0x0 0x1FF3F 0x0 0x0 2,
    .mk' 0x050 1 4 0x0 0xFFFF 0x0 0x0 2,
    .mk' 0x054 1 4 0x0 0x1FF3F1F 0x0 0x0 2,
    .mk' 0x058 1 4 0x0 0xFFFF0007 0x0 0x0 2,
    .mk' 0x05C 1 4 0x0 0xFFFF0073 0x0 0x0 2,
    .mk' 0x060 1 4 0x0 0x1073F 0x0 0x0 2,
    .mk' 0x064 1 4 0x0 0xFFFF 0x0 0x0 2,
    .mk' 0x068 1 4 0x0 0xF 0x0 0x0 2,
    .mk' 0x06C 1 4 0x0 0x0 0x0 0x1 0,
    .mk' 0x070 1 4 0x0 0x0 0x0 0x0 0,
    .mk' 0x074 1 4 0x0 0x0 0x0 0x0 0 ]
  | .CTL =>
    [
    .mk' 0x040 1 4 0x103E8 0x103FF 0x0 0x0 6,
    .mk' 0x044 1 4 0x0 0x0 0x0 0x1 0,
    .mk' 0x048 1 4 0x0 0x0 0x0 0x0 0,
    .mk' 0x04C 1 4 0x0 0x0 0x0 0x0 0,
    .mk' 0x060 1 4 0x0 0xFFFF 0x0 0x0 0,
    .mk' 0x064 8 4 0x0 0xFFFFFFFF 0x0 0x0 0,
    .mk' 0x084 1 4 0x0 0x0 0x0 0x0 0,
    .mk' 0x088 1 4 0x0 0x0 0x0 0x0 0,
    .mk' 0x08C 1 4 0x0 0x0 0x0 0x3 0 ]
  | .ISL =>
    [
    .mk' 0x040 1 4 0x1740 0x3771 0x0 0x0 4,
    .mk' 0x044 1 4 0x0 0x0 0x0 0x3 0,
    .mk' 0x048 1 4 0x0 0x0 0x0 0x0 0,
    .mk' 0x04C 1 4 0x0 0x0 0x0 0x0 0,
    .mk' 0x050 1 4 0x1FF 0x1FF 0x0 0x0 4,
    .mk' 0x054 1 4 0x0 0x0 0x0 0x0 0,
    .mk' 0x058 1 4 0x0 0x0 0x0 0x0 0,
    .mk' 0x05C 1 4 0x0 0x0 0x0 0x0 0,
    .mk' 0x060 1 4 0x0 0x0 0x0 0x0 0,
    .mk' 0x064 1 4 0x0 0x0 0x0 0x0 0,
    .mk' 0x068 1 4 0x0 0x0 0x0 0x0 0,
    .mk' 0x06C 1 4 0x0 0x0 0x0 0x0 0,
    .mk' 0x070 1 4 0x0 0x0 0x0 0x0 0,
    .mk' 0x074 1 4 0x0 0x0 0x0 0x0 0,
    .mk' 0x078 1 4 0x0 0x0 0x0 0x0 0,
    .mk' 0x07C 1 4 0x0 0x0 0x0 0x0 0,
    .mk' 0x080 1 4 0x0 0x0 0x0 0x0 0,
    .mk' 0x084 1 4 0x0 0x0 0x0 0x0 0,
    .mk' 0x088 1 4 0x0 0x0 0x0 0x0 0,
    .mk' 0x08C 1 4 0x0 0x0 0x0 0x0 0,
    .mk' 0x090 1 4 0x0 0x0 0x0 0x0 0,
    .mk' 0x094 1 4 0x0 0x0 0x0 0x1FFF 0,
    .mk' 0x098 1 4 0x0 0x0 0x0 0x0 0,
    .mk' 0x09C 1 4 0x0 0x0 0x0 0x0 0 ]
    ++
    [
    .mk' 0x0A0 1 4 0x0 0x0 0x0 0x0 0,
    .mk' 0x0A4 1 4 0x0 0x0 0x0 0x0 0,
    .mk' 0x0A8 1 4 0x0 0x0 0x0 0x0 0,
    .mk' 0x0AC 1 4 0x0 0x0 0x0 0xFFFFFFFF 0 ]
  | .ISL_LANE =>
    [
    .mk' 0x040 1 4 0x0 0x0 0x0 0x0 0,
    .mk' 0x044 1 4 0x0 0x0 0x0 0x0 0,
    .mk' 0x048 1 4 0x0 0x0 0x0 0x1 0 ]
  | .ISL_BC =>
    [
    .mk' 0x040 1 4 0x0 0x0 0x0 0x0 0,
    .mk' 0x044 1 4 0x0 0x7FFFF 0x0 0x0 4,
    .mk' 0x048 1 4 0x0 0x0 0x0 0x0 0,
    .mk' 0x04C 1 4 0x0 0x0 0x0 0x0 0,
    .mk' 0x050 1 4 0x0 0x0 0x0 0x0 0,
    .mk' 0x054 1 4 0x0 0x0 0x0 0x0 0,
    .mk' 0x058 1 4 0x0 0x0 0x0 0x0 0,
    .mk' 0x05C 1 4 0x0 0x0 0x0 0x0 0,
    .mk' 0x060 1 4 0x0 0x0 0x0 0x3F 0 ]
  | .TIMING =>
    [
    .mk' 0x040 1 4 0x100 0x173 0x0 0x0 5,
    .mk' 0x044 1 4 0x3B2F8 0xFFFFFFFF 0x0 0x0 5,
    .mk' 0x048 1 4 0x1EF01E00 0x1FFF1FFF 0x0 0x0 5,
    .mk' 0x04C 1 4 0x2810E0 0x1FFF1FFF 0x0 0x0 5,
    .mk' 0x050 1 4 0x3F940AB 0xFFFFFFFF 0x0 0x0 5,
    .mk' 0x054 1 4 0x2FAF0800 0xFFFFFFFF 0x0 0x0 5,
    .mk' 0x058 1 4 0xFE502AB 0xFFFFFFFF 0x0 0x0 5,
    .mk' 0x05C 1 4 0x0 0x3F03 0x0 0x0 5,
    .mk' 0x060 1 4 0x0 0x0 0x0 0x0 0,
    .mk' 0x064 1 4 0x0 0x0 0x0 0x0 0,
    .mk' 0x068 1 4 0x0 0x0 0x0 0x0 0,
    .mk' 0x06C 1 4 0x0 0x0 0x0 0x0 0,
    .mk' 0x070 1 4 0x0 0x0 0x0 0x0 0,
    .mk' 0x074 1 4 0x0 0x0 0x0 0x0 0,
    .mk' 0x078 1 4 0x1 0x0 0x0 0x0 0,
    .mk' 0x080 1 4 0x0 0x0 0x0 0x0 0,
    .mk' 0x084 1 4 0x0 0x0 0x0 0x0 0,
    .mk' 0x088 1 4 0x0 0x0 0x0 0x0 0,
    .mk' 0x08C 1 4 0x0 0x0 0x0 0x0 0,
    .mk' 0x090 1 4 0x0 0x0 0x0 0x0 0,
    .mk' 0x094 1 4 0x0 0x0 0x0 0x0 0,
    .mk' 0x098 1 4 0x0 0x0 0x0 0x0 0,
    .mk' 0x09C 1 4 0x0 0x0 0x0 0x7F 0 ]
  | .GENLOCK =>
    [
    .mk' 0x040 1 4 0x4 0x7 0x0 0x0 5,
    .mk' 0x044 1 4 0x0 0xFFFFFFFF 0x0 0x0 5,
    .mk' 0x048 1 4 0x0 0x0 0x0 0x0 0,
    .mk' 0x04C 1 4 0x0 0x0 0x0 0x0 0,
    .mk' 0x050 1 4 0x0 0x0 0x0 0x0 0,
    .mk' 0x054 1 4 0x0 0x0 0x0 0x0 0,
    .mk' 0x058 1 4 0x0 0x0 0x0 0x1 0 ]
  | .SREF =>
    [
    .mk' 0x040 1 4 0xA1 0xF7 0x0 0x0 4,
    .mk' 0x044 1 4 0x0 0x0 0x0 0x7 0,
    .mk' 0x048 1 4 0xFE502AB 0xFFFFFFFF 0x0 0x0 4,
    .mk' 0x04C 1 4 0x0 0x0 0x0 0x0 0,
    .mk' 0x050 1 4 0x0 0x0 0x0 0x0 0,
    .mk' 0x054 1 4 0x0 0x0 0x0 0x0 0,
    .mk' 0x058 1 4 0x0 0x0 0x0 0x0 0,
    .mk' 0x05C 1 4 0x0 0x0 0x0 0x0 0,
    .mk' 0x060 1 4 0x0 0x0 0x0 0x0 0,
    .mk' 0x064 1 4 0x0 0x0 0x0 0x0 0,
    .mk' 0x068 1 4 0x0 0x0 0x0 0x0 0,
    .mk' 0x06C 1 4 0x0 0x0 0x0 0x0 0,
    .mk' 0x070 1 4 0x0 0x0 0x0 0x0 0,
    .mk' 0x074 1 4 0x0 0x0 0x0 0x0 0,
    .mk' 0x078 1 4 0x0 0x0 0x0 0x3F 0 ]
  | .INPUT =>
    [
    .mk' 0x040 1 4 0x3 0x7 0x0 0x0 5,
    .mk' 0x044 1 4 0x0 0x1 0x0 0x0 5,
    .mk' 0x048 1 4 0x0 0x7 0x0 0x100 0,
    .mk' 0x04C 1 4 0x0 0x31FFF 0x0 0x0 0,
    .mk' 0x050 1 4 0x0 0xFFFF 0x0 0x0 0,
    .mk' 0x054 1 4 0x0 0x0 0x0 0x0 0,
    .mk' 0x058 1 4 0x3E8 0xFFFFFFFF 0x0 0x0 4,
    .mk' 0x060 1 4 0x3C00 0xFFFFFFFF 0x0 0x0 5,
    .mk' 0x064 1 4 0x0 0xFFFFFFFF 0x0 0x0 5,
    .mk' 0x068 1 4 0x3C000000 0xFFFFFFFF 0x0 0x0 5,
    .mk' 0x06C 1 4 0x0 0xFFFFFFFF 0x0 0x0 5,
    .mk' 0x070 1 4 0x0 0xFFFFFFFF 0x0 0x0 5,
    .mk' 0x074 1 4 0x3C00 0xFFFFFFFF 0x0 0x0 5,
    .mk' 0x078 1 4 0x3C00 0xFFFF 0x0 0x0 5,
    .mk' 0x07C 1 4 0x0 0x3 0x0 0x0 5,
    .mk' 0x090 1 4 0x0 0x0 0x0 0x0 0,
    .mk' 0x094 1 4 0x0 0x0 0x0 0x0 0,
    .mk' 0x098 1 4 0x0 0x0 0x0 0x0 0,
    .mk' 0x09C 1 4 0x0 0x0 0x0 0x0 0,
    .mk' 0x0A0 1 4 0x0 0x0 0x0 0xF 0 ]
  | .STATS =>
    [
    .mk' 0x040 1 4 0x380000FA 0xFFFF00FF 0x0 0x0 5,
    .mk' 0x044 1 4 0x0 0x13FFF 0x0 0x0 4,
    .mk' 0x048 1 4 0x0 0x0 0x1 0x0 0,
    .mk' 0x04C 1 4 0x0 0x0 0x0 0x0 0,
    .mk' 0x050 16 4 0x0 0x0 0x0 0x0 0,
    .mk' 0x090 1 4 0x0 0x0 0x0 0x0 0,
    .mk' 0x094 1 4 0x0 0x3FFF 0x0 0x0 0,
    .mk' 0x098 1 4 0x0 0x0 0x0 0x0 0,
    .mk' 0x09C 1 4 0x0 0x0 0x0 0x0 0,
    .mk' 0x0A0 1 4 0x0 0x0 0x0 0x0 0,
    .mk' 0x0A4 1 4 0x0 0x0 0x0 0x1 0 ]
  | .CODEC =>
    [
    .mk' 0x040 1 4 0x2 0x3 0x0 0x0 5,
    .mk' 0x044 1 4 0x0 0x13F 0x0 0x0 5,
    .mk' 0x048 1 4 0x0 0x13F 0x0 0x0 5,
    .mk' 0x04C 1 4 0x0 0x13F 0x0 0x0 5,
    .mk' 0x050 1 4 0x0 0x0 0x0 0x0 0,
    .mk' 0x054 1 4 0x0 0x0 0x0 0x0 0,
    .mk' 0x058 1 4 0x0 0x0 0x0 0x0 0,
    .mk' 0x05C 1 4 0x0 0x0 0x0 0x0 0,
    .mk' 0x060 1 4 0x0 0x0 0x0 0x0 0,
    .mk' 0x064 1 4 0x0 0x0 0x0 0x0 0,
    .mk' 0x068 1 4 0x0 0x0 0x0 0x0 0,
    .mk' 0x06C 1 4 0x0 0x0 0x0 0x0 0,
    .mk' 0x080 1 4 0x0 0x0 0x0 0x0 0,
    .mk' 0x084 1 4 0x0 0x0 0x0 0x0 0,
    .mk' 0x088 1 4 0x0 0x0 0x0 0x0 0,
    .mk' 0x08C 1 4 0x0 0x0 0x0 0x0 0,
    .mk' 0x090 1 4 0x0 0x0 0x0 0x0 0,
    .mk' 0x094 1 4 0x0 0x0 0x0 0x0 0,
    .mk' 0x098 1 4 0x0 0x0 0x0 0x0 0,
    .mk' 0x09C 1 4 0x0 0x0 0x0 0x0 0,
    .mk' 0x0A0 1 4 0x0 0x0 0x0 0x0 0,
    .mk' 0x0A4 1 4 0x0 0x0 0x0 0x0 0,
    .mk' 0x0A8 1 4 0x0 0x0 0x0 0x0 0,
    .mk' 0x0AC 1 4 0x0 0x0 0x0 0x0 0 ]
    ++
    [
    .mk' 0x0B0 1 4 0x0 0x0 0x0 0x0 0,
    .mk' 0x0B4 1 4 0x0 0x0 0x0 0x1FFF 0,
    .mk' 0x0C0 1 4 0x0 0x1FFF0003 0x0 0x0 0,
    .mk' 0x0C4 1 4 0x0 0x1FFF 0x0 0x0 0,
    .mk' 0x0C8 1 4 0x0 0x0 0x0 0x0 0,
    .mk' 0x0CC 1 4 0x0 0x0 0x0 0x0 0,
    .mk' 0x0D0 1 4 0x0 0x0 0x0 0x0 0 ]
  | .ZONE =>
    [
    .mk' 0x040 1 4 0x0 0xFFFF 0x0 0x0 5,
    .mk' 0x044 1 4 0x0 0xF 0x0 0x0 5,
    .mk' 0x048 1 4 0x2000 0xFFFF 0x0 0x0 5,
    .mk' 0x04C 1 4 0x7C007C00 0xFFFFFFFF 0x0 0x0 5,
    .mk' 0x050 1 4 0x3A00 0xFFFF 0x0 0x0 5,
    .mk' 0x054 1 4 0x3A00 0xFFFF 0x0 0x0 6,
    .mk' 0x058 1 4 0x8 0xFFF 0x0 0x0 5,
    .mk' 0x05C 1 4 0x3E000000 0xFFFF0001 0x0 0x0 4,
    .mk' 0x060 1 4 0x0 0xFFFF 0x0 0x0 4,
    .mk' 0x064 1 4 0x0 0x3FFF 0x0 0x0 0,
    .mk' 0x068 1 4 0x0 0xFFFF 0x0 0x0 0,
    .mk' 0x06C 1 4 0x0 0x0 0x0 0x1 0,
    .mk' 0x070 1 4 0x0 0x7FF 0x0 0x0 0,
    .mk' 0x074 1 4 0x0 0x77777777 0x0 0x0 0,
    .mk' 0x078 1 4 0x0 0x3FFF 0x0 0x0 0,
    .mk' 0x07C 1 4 0x0 0x0 0x0 0x0 0,
    .mk' 0x080 1 4 0x0 0x0 0x0 0x0 0,
    .mk' 0x084 1 4 0x3C00 0x0 0x0 0x0 0,
    .mk' 0x090 1 4 0x0 0x0 0x0 0x0 0,
    .mk' 0x094 1 4 0x0 0x0 0x0 0x0 0,
    .mk' 0x098 1 4 0x0 0x0 0x0 0x0 0,
    .mk' 0x09C 1 4 0x0 0x0 0x0 0x0 0,
    .mk' 0x0A0 1 4 0x0 0x0 0x0 0x0 0,
    .mk' 0x0A4 1 4 0x0 0x0 0x0 0x1F 0 ]
    ++
    [
    .mk' 0x200 129 4 0x0 0x1FFF 0x0 0x0 5,
    .mk' 0x600 129 4 0x0 0x1FFF 0x0 0x0 5 ]
  | .PSF =>
    [
    .mk' 0x040 1 4 0x0 0x1 0x0 0x0 5,
    .mk' 0x044 1 4 0x0 0x70FFF 0x0 0x0 0,
    .mk' 0x048 1 4 0x0 0xFFFF 0x0 0x0 0,
    .mk' 0x04C 1 4 0x0 0x0 0x0 0x1 0,
    .mk' 0x050 1 4 0x0 0x0 0x0 0x0 0,
    .mk' 0x054 1 4 0x0 0x0 0x0 0x1 0,
    .mk' 0x060 8 4 0x33C00 0x0 0x0 0x0 0,
    .mk' 0x080 8 4 0x33C00 0x0 0x0 0x0 0 ]
  | .FIELD =>
    [
    .mk' 0x040 1 4 0x0 0x3F01 0x0 0x0 5,
    .mk' 0x044 1 4 0x0 0x0 0x0 0x0 0,
    .mk' 0x048 1 4 0x0 0x1FFF1FFF 0x0 0x0 0,
    .mk' 0x04C 1 4 0x0 0x0 0x0 0x0 0,
    .mk' 0x050 1 4 0x0 0x0 0x0 0x0 0,
    .mk' 0x054 1 4 0x0 0x0 0x0 0x0 0,
    .mk' 0x058 1 4 0x0 0x0 0x0 0x0 0,
    .mk' 0x05C 1 4 0x0 0x0 0x0 0x0 0,
    .mk' 0x060 1 4 0x0 0x0 0x0 0x3 0 ]
  | .SPLIT =>
    [
    .mk' 0x040 1 4 0x2000 0x7F03 0x0 0x0 5,
    .mk' 0x044 1 4 0x0 0xF0F 0x0 0x0 5,
    .mk' 0x048 1 4 0x101 0x1F1F 0x0 0x0 5,
    .mk' 0x04C 1 4 0x3C003C00 0xFFFFFFFF 0x0 0x0 5,
    .mk' 0x050 1 4 0x3C00 0xFFFF 0x0 0x0 5,
    .mk' 0x054 1 4 0x0 0xFFFFFFFF 0x0 0x0 5,
    .mk' 0x058 1 4 0x0 0x1FFF1FFF 0x0 0x0 0,
    .mk' 0x05C 1 4 0x0 0x0 0x0 0x0 0,
    .mk' 0x060 1 4 0x0 0x0 0x0 0x0 0,
    .mk' 0x064 1 4 0x0 0x0 0x0 0x0 0,
    .mk' 0x068 1 4 0x0 0x0 0x0 0x0 0,
    .mk' 0x06C 1 4 0x0 0x0 0x0 0x0 0,
    .mk' 0x070 1 4 0x0 0x0 0x0 0x0 0,
    .mk' 0x074 1 4 0x0 0x3FFF 0x0 0x0 0,
    .mk' 0x078 1 4 0x0 0x0 0x0 0x0 0,
    .mk' 0x07C 1 4 0x0 0x0 0x0 0x0 0,
    .mk' 0x090 1 4 0x0 0x0 0x0 0x0 0,
    .mk' 0x094 1 4 0x0 0x0 0x0 0x0 0,
    .mk' 0x098 1 4 0x0 0x0 0x0 0x3 0,
    .mk' 0x100 15 4 0x0 0xFFFFFFFF 0x0 0x0 5,
    .mk' 0x13C 1 4 0x0 0xFFFF 0x0 0x0 5,
    .mk' 0x140 15 4 0x0 0xFFFFFFFF 0x0 0x0 5,
    .mk' 0x17C 1 4 0x0 0xFFFF 0x0 0x0 5,
    .mk' 0x180 12 4 0x0 0xFFFFFFFF 0x0 0x0 5,
    .mk' 0x1B0 1 4 0x0 0xFFFF 0x0 0x0 5 ]
  | .CELLLUT =>
    [
    .mk' 0x040 1 4 0x0 0x1 0x0 0x0 5,
    .mk' 0x044 1 4 0x0 0x707FF 0x0 0x0 0,
    .mk' 0x048 1 4 0x0 0xFFFF 0x0 0x0 0,
    .mk' 0x04C 1 4 0x0 0x0 0x0 0x0 0,
    .mk' 0x050 1 4 0x0 0x0 0x0 0x1 0,
    .mk' 0x054 1 4 0x0 0x0 0x0 0x0 0,
    .mk' 0x058 1 4 0x0 0x0 0x0 0x0 0,
    .mk' 0x05C 1 4 0x0 0x0 0x0 0x0 0 ]
  | .PATCH =>
    [
    .mk' 0x040 1 4 0x0 0x31 0x0 0x0 5,
    .mk' 0x044 1 4 0x0 0x13F 0x0 0x0 5,
    .mk' 0x048 1 4 0x0 0x13F 0x0 0x0 5,
    .mk' 0x04C 1 4 0x8 0x1F 0x0 0x0 5,
    .mk' 0x050 1 4 0x0 0x0 0x0 0x0 0,
    .mk' 0x054 1 4 0x0 0x0 0x0 0x0 0,
    .mk' 0x058 1 4 0x0 0x0 0x0 0x0 0,
    .mk' 0x05C 1 4 0x0 0x0 0x0 0x0 0,
    .mk' 0x060 1 4 0x40001000 0xFFFFFFFF 0x0 0x0 5,
    .mk' 0x064 1 4 0xC000 0xFFFF 0x0 0x0 5,
    .mk' 0x068 1 4 0x40001000 0xFFFFFFFF 0x0 0x0 5,
    .mk' 0x06C 1 4 0xC000 0xFFFF 0x0 0x0 5,
    .mk' 0x070 1 4 0x40001000 0xFFFFFFFF 0x0 0x0 5,
    .mk' 0x074 1 4 0xC000 0xFFFF 0x0 0x0 5,
    .mk' 0x078 1 4 0x40001000 0xFFFFFFFF 0x0 0x0 5,
    .mk' 0x07C 1 4 0xC000 0xFFFF 0x0 0x0 5,
    .mk' 0x080 1 4 0x0 0x10 0x0 0x1 0,
    .mk' 0x084 1 4 0x0 0x0 0x0 0x0 0,
    .mk' 0x088 1 4 0x0 0x0 0x0 0x0 0,
    .mk' 0x090 1 4 0x0 0x0 0x0 0x0 0,
    .mk' 0x094 1 4 0x0 0x0 0x0 0x0 0,
    .mk' 0x098 1 4 0x0 0x0 0x0 0x0 0,
    .mk' 0x09C 1 4 0x0 0x0 0x0 0x7 0,
    .mk' 0x0A0 1 4 0x0 0x1FFF1FFF 0x0 0x0 0 ]
    ++
    [
    .mk' 0x0A8 1 4 0x0 0x0 0x0 0x0 0,
    .mk' 0x0AC 1 4 0x0 0x0 0x0 0x0 0,
    .mk' 0x0B0 1 4 0x0 0x0 0x0 0x0 0,
    .mk' 0x0B4 1 4 0x0 0x0 0x0 0x0 0,
    .mk' 0x0B8 1 4 0x0 0x0 0x0 0x0 0,
    .mk' 0x0BC 1 4 0x0 0x0 0x0 0x0 0 ]
  | .DEFECT =>
    [
    .mk' 0x040 1 4 0x0 0x7 0x0 0x0 5,
    .mk' 0x044 1 4 0x0 0x1FFF 0x0 0x0 5,
    .mk' 0x048 1 4 0x0 0xFFFFFFFF 0x0 0x0 5,
    .mk' 0x04C 1 4 0x10000000 0xFFFFFFFF 0x0 0x0 5,
    .mk' 0x050 1 4 0x0 0xFFFFFFFF 0x0 0x0 5,
    .mk' 0x054 1 4 0x10000000 0xFFFFFFFF 0x0 0x0 5,
    .mk' 0x058 1 4 0x0 0xFFF 0x0 0x0 0,
    .mk' 0x05C 1 4 0x0 0xFFFFFFFF 0x0 0x0 0,
    .mk' 0x060 1 4 0x0 0x0 0x0 0x0 0,
    .mk' 0x064 1 4 0x0 0x1F 0x0 0x0 0,
    .mk' 0x068 1 4 0x0 0x0 0x0 0x0 0,
    .mk' 0x06C 1 4 0x0 0x0 0x0 0x1 0,
    .mk' 0x070 1 4 0x0 0x1FFF1FFF 0x0 0x0 0,
    .mk' 0x074 1 4 0x0 0x0 0x0 0x0 0,
    .mk' 0x078 1 4 0x0 0x0 0x0 0x0 0,
    .mk' 0x07C 1 4 0x0 0x0 0x0 0x0 0,
    .mk' 0x090 1 4 0x0 0x0 0x0 0x0 0,
    .mk' 0x094 1 4 0x0 0x0 0x0 0x0 0,
    .mk' 0x098 1 4 0x0 0x0 0x0 0x0 0,
    .mk' 0x0A0 1 4 0x0 0x0 0x0 0x0 0,
    .mk' 0x0A4 1 4 0x0 0x0 0x0 0x0 0,
    .mk' 0x0A8 1 4 0x0 0x0 0x0 0x0 0,
    .mk' 0x0AC 1 4 0x0 0x0 0x0 0x7 0 ]
  | .OD =>
    [
    .mk' 0x040 1 4 0x0 0x1 0x0 0x0 5,
    .mk' 0x044 1 4 0x0 0x13F 0x0 0x0 5,
    .mk' 0x048 1 4 0x100 0xFFFF 0x0 0x0 5,
    .mk' 0x04C 1 4 0x17700BB8 0xFFFFFFFF 0x0 0x0 5,
    .mk' 0x050 1 4 0x2EE0 0xFFFF 0x0 0x0 5,
    .mk' 0x054 1 4 0xA00000 0xFFFFFFFF 0x0 0x0 5,
    .mk' 0x058 1 4 0x1E00140 0xFFFFFFFF 0x0 0x0 5,
    .mk' 0x05C 1 4 0x3200280 0xFFFFFFFF 0x0 0x0 5,
    .mk' 0x060 1 4 0x46003C0 0xFFFFFFFF 0x0 0x0 5,
    .mk' 0x064 1 4 0x0 0x173FFF 0x0 0x0 0,
    .mk' 0x068 1 4 0x0 0xFFFF 0x0 0x0 0,
    .mk' 0x06C 1 4 0x0 0x0 0x0 0x0 0,
    .mk' 0x070 1 4 0x0 0x0 0x0 0x1 0,
    .mk' 0x074 1 4 0x0 0xFFFF1FFF 0x0 0x0 0,
    .mk' 0x078 1 4 0x0 0x0 0x0 0x0 0,
    .mk' 0x07C 1 4 0x0 0x0 0x0 0x0 0,
    .mk' 0x080 1 4 0x0 0x0 0x0 0x0 0,
    .mk' 0x084 1 4 0x0 0x0 0x0 0x0 0,
    .mk' 0x090 1 4 0x0 0x0 0x0 0x0 0,
    .mk' 0x094 1 4 0x0 0x0 0x0 0x0 0,
    .mk' 0x098 1 4 0x0 0x0 0x0 0x0 0,
    .mk' 0x09C 1 4 0x0 0x0 0x0 0x0 0,
    .mk' 0x0A0 1 4 0x0 0x0 0x0 0xF 0 ]
  | .THERM =>
    [
    .mk' 0x040 1 4 0xF0 0xF1 0x0 0x0 4,
    .mk' 0x044 1 4 0x0 0xFFFF 0x0 0x0 4,
    .mk' 0x048 1 4 0xEA60 0xFFFFF 0x0 0x0 4,
    .mk' 0x04C 1 4 0x190 0xFFFF 0x0 0x0 4,
    .mk' 0x050 1 4 0xFC00040 0xFFF0FFF 0x0 0x0 4,
    .mk' 0x054 1 4 0x0 0x0 0x0 0x0 0,
    .mk' 0x058 1 4 0x0 0x0 0x0 0x0 0,
    .mk' 0x05C 1 4 0x0 0x0 0x0 0x0 0,
    .mk' 0x060 1 4 0x0 0x0 0x0 0x0 0,
    .mk' 0x064 1 4 0x0 0x3F 0x0 0x0 0,
    .mk' 0x068 1 4 0x0 0xFFFF 0x0 0x0 4,
    .mk' 0x06C 1 4 0x0 0x7FF 0x0 0x0 0,
    .mk' 0x070 1 4 0x0 0xFFFFFFFF 0x0 0x0 0,
    .mk' 0x074 1 4 0x0 0x0 0x0 0x1 0,
    .mk' 0x078 1 4 0x0 0x0 0x0 0x0 0,
    .mk' 0x090 1 4 0x0 0x0 0x0 0x0 0,
    .mk' 0x094 1 4 0x0 0x0 0x0 0x0 0,
    .mk' 0x098 1 4 0x0 0x0 0x0 0x0 0,
    .mk' 0x09C 1 4 0x0 0x0 0x0 0x7 0 ]
  | .DITH =>
    [
    .mk' 0x040 1 4 0x302A 0x3337F 0x0 0x0 5,
    .mk' 0x044 1 4 0x0 0x0 0x0 0x0 4,
    .mk' 0x048 1 4 0x0 0x10FFF 0x0 0x0 0,
    .mk' 0x04C 1 4 0x0 0xFFF 0x0 0x0 0,
    .mk' 0x050 1 4 0x0 0x0 0x0 0x0 0,
    .mk' 0x054 1 4 0x0 0x0 0x0 0x7 0,
    .mk' 0x058 1 4 0x0 0xFFFF1FFF 0x0 0x0 0,
    .mk' 0x05C 1 4 0x0 0x0 0x0 0x0 0,
    .mk' 0x060 1 4 0x0 0x0 0x0 0x0 0,
    .mk' 0x064 1 4 0x0 0x0 0x0 0x0 0,
    .mk' 0x080 1 4 0x1B5D0000 0xFFFFFFFF 0x0 0x0 5,
    .mk' 0x084 1 4 0x31D726BA 0xFFFFFFFF 0x0 0x0 5,
    .mk' 0x088 1 4 0x58514D34 0xFFFFFFFF 0x0 0x0 5,
    .mk' 0x08C 1 4 0x7ECB63AE 0xFFFFFFFF 0x0 0x0 5,
    .mk' 0x090 1 4 0x95458A28 0xFFFFFFFF 0x0 0x0 5,
    .mk' 0x094 1 4 0xBBFFA0A2 0xFFFFFFFF 0x0 0x0 5,
    .mk' 0x098 1 4 0xD279C71C 0xFFFFFFFF 0x0 0x0 5,
    .mk' 0x09C 1 4 0xF8F3ED96 0xFFFFFFFF 0x0 0x0 5,
    .mk' 0x0A0 1 4 0x100 0xFF01 0x0 0x0 4,
    .mk' 0x0A4 1 4 0x0 0x0 0x0 0x0 0,
    .mk' 0x0A8 1 4 0x0 0x0 0x0 0x0 0,
    .mk' 0x0AC 1 4 0x0 0x0 0x0 0x0 0,
    .mk' 0x0B0 1 4 0x0 0x0 0x0 0x0 0,
    .mk' 0x0B4 1 4 0x0 0x0 0x0 0x0 0 ]
    ++
    [
    .mk' 0x0B8 1 4 0x0 0x0 0x0 0x0 0 ]
  | .EDL =>
    [
    .mk' 0x400 1 4 0xF 0x7F 0x0 0x0 4,
    .mk' 0x040 1 4 0x4106 0xF1FF 0x0 0x0 5,
    .mk' 0x044 1 4 0x0 0x0 0x0 0x1 0,
    .mk' 0x048 1 4 0x0 0x0 0x0 0x0 0,
    .mk' 0x04C 1 4 0x2000 0xFFFF 0x0 0x0 4,
    .mk' 0x050 1 4 0x64 0xFFFF 0x0 0x0 4,
    .mk' 0x054 1 4 0xA000A 0xFF00FF 0x0 0x0 4,
    .mk' 0x058 1 4 0x1000F00 0xFFF0FF1 0x0 0x0 4,
    .mk' 0x05C 1 4 0x0 0xFFF0FFF 0x0 0x0 0,
    .mk' 0x060 1 4 0x0 0xFFFF 0x0 0x0 0,
    .mk' 0x064 1 4 0x0 0x0 0x0 0x1 0,
    .mk' 0x068 1 4 0x0 0x0 0x0 0x0 0,
    .mk' 0x06C 1 4 0x0 0x0 0x0 0x0 0,
    .mk' 0x070 1 4 0x0 0x3FF 0x0 0x0 0,
    .mk' 0x074 1 4 0x0 0x0 0x0 0x0 0,
    .mk' 0x078 1 4 0x0 0x8FFFFFFF 0x0 0x0 0,
    .mk' 0x07C 2 4 0x0 0x0 0x0 0x0 0,
    .mk' 0x090 1 4 0x0 0x0 0x0 0x0 0,
    .mk' 0x094 1 4 0x0 0x0 0x0 0x0 0,
    .mk' 0x098 1 4 0x0 0x0 0x0 0x3 0 ]
  | .EDL_GRP =>
    [
    .mk' 0x040 1 4 0x0 0x0 0x0 0xFFFFFFFF 0,
    .mk' 0x044 1 4 0x0 0x0 0x0 0xFFFFFFFF 0,
    .mk' 0x048 1 4 0x0 0x0 0x0 0x0 0 ]
  | .EDL_PORT =>
    [
    .mk' 0x040 1 4 0x0 0x7F7FF3 0x0 0x0 5,
    .mk' 0x044 1 4 0x0 0x0 0x0 0x1 0,
    .mk' 0x048 1 4 0x0 0x0 0x0 0x0 0,
    .mk' 0x04C 1 4 0x0 0x0 0x0 0x0 0,
    .mk' 0x050 1 4 0x0 0x0 0x0 0x0 0,
    .mk' 0x054 1 4 0x0 0x0 0x0 0x0 0,
    .mk' 0x058 1 4 0x0 0x0 0x0 0x0 0,
    .mk' 0x05C 1 4 0x0 0x0 0x0 0x0 0,
    .mk' 0x060 1 4 0x0 0x0 0x0 0x0 0,
    .mk' 0x064 1 4 0x0 0x0 0x0 0xF 0 ]
  | .RETBUS =>
    [
    .mk' 0x040 1 4 0x1 0x1 0x0 0x0 4,
    .mk' 0x044 1 4 0x0 0x0 0x0 0x0 0,
    .mk' 0x048 1 4 0x0 0x0 0x0 0x0 0,
    .mk' 0x04C 1 4 0x0 0x0 0x0 0x0 0,
    .mk' 0x050 1 4 0x0 0x0 0x0 0x0 0,
    .mk' 0x054 1 4 0x0 0x0 0x0 0x0 0,
    .mk' 0x058 1 4 0x0 0x0 0x0 0x0 0,
    .mk' 0x05C 1 4 0x0 0x0 0x0 0x1F 0 ]
  | .PARTNER => []
  | .GATE =>
    [
    .mk' 0x040 1 4 0x0 0xFFFFFFFF 0x0 0x0 4,
    .mk' 0x044 1 4 0xFFFF0001 0xFFFF01FF 0x0 0x0 5,
    .mk' 0x048 1 4 0x0 0x0 0x0 0x0 0,
    .mk' 0x04C 1 4 0x0 0x0 0x0 0x0 0,
    .mk' 0x080 16 4 0xFF0000 0xFF0033 0x0 0x0 5,
    .mk' 0x100 64 4 0x0 0x9FFF9FFF 0x0 0x0 5 ]
  | .PANELPWR =>
    [
    .mk' 0x040 1 4 0x0 0xF1 0x0 0x0 4,
    .mk' 0x044 1 4 0x0 0x0 0x0 0x3 0,
    .mk' 0x048 1 4 0x0 0x0 0x0 0x0 0,
    .mk' 0x04C 1 4 0xA0202 0xFFFF0FFF 0x0 0x0 4,
    .mk' 0x050 1 4 0x64 0xFFFF 0x0 0x0 4,
    .mk' 0x060 8 4 0x0 0xFFFF1F0F 0x0 0x0 4,
    .mk' 0x080 1 4 0x0 0x0 0x0 0x0 0,
    .mk' 0x084 1 4 0x0 0x0 0x0 0x0 0,
    .mk' 0x088 1 4 0x0 0x0 0x0 0x0 0,
    .mk' 0x08C 1 4 0x0 0x0 0x0 0x0 0,
    .mk' 0x090 1 4 0x0 0x0 0x0 0xF 0 ]
  | .MEMC =>
    [
    .mk' 0x040 1 4 0x2 0x3 0x0 0x0 5,
    .mk' 0x044 1 4 0x0 0x0 0x0 0x0 0,
    .mk' 0x048 1 4 0x0 0x0 0x0 0x0 0,
    .mk' 0x04C 1 4 0x0 0x0 0x0 0x0 0,
    .mk' 0x050 1 4 0x0 0x0 0x0 0x0 0,
    .mk' 0x054 1 4 0x0 0x0 0x0 0x0 0,
    .mk' 0x058 1 4 0x0 0x0 0x0 0x0 0,
    .mk' 0x05C 1 4 0x0 0x0 0x0 0x0 0,
    .mk' 0x060 1 4 0x0 0x0 0x0 0x0 0,
    .mk' 0x064 1 4 0x0 0x0 0x0 0x0 0,
    .mk' 0x068 1 4 0x0 0x0 0x0 0x0 0,
    .mk' 0x06C 1 4 0x0 0x0 0x0 0x1F 0,
    .mk' 0x100 16 16 0x0 0x0 0x0 0x0 0,
    .mk' 0x104 16 16 0x0 0x0 0x0 0x0 0,
    .mk' 0x108 16 16 0x0 0x0 0x0 0x0 0,
    .mk' 0x10C 16 16 0x0 0x0 0x0 0x7 0 ]
  | .REGION =>
    [
    .mk' 0x040 1 4 0x0 0x3FFFF 0x0 0x0 0,
    .mk' 0x044 1 4 0x0 0x3F 0x0 0x0 0,
    .mk' 0x048 1 4 0x0 0x0 0x0 0x3 0,
    .mk' 0x04C 1 4 0x0 0x0 0x0 0x0 0,
    .mk' 0x050 1 4 0x8000 0x0 0x0 0x0 0,
    .mk' 0x054 1 4 0x40 0xFFFF 0x0 0x0 4,
    .mk' 0x058 1 4 0x10000 0x0 0x0 0x0 0,
    .mk' 0x05C 1 4 0x0 0x0 0x0 0x0 0,
    .mk' 0x060 1 4 0x0 0x3F 0x0 0x0 0,
    .mk' 0x064 1 4 0x0 0x0 0x0 0x0 0,
    .mk' 0x068 1 4 0x0 0x0 0x0 0x0 0,
    .mk' 0x06C 1 4 0x0 0x0 0x0 0x0 0,
    .mk' 0x070 1 4 0x0 0x0 0x0 0x0 0,
    .mk' 0x074 1 4 0x0 0x0 0x0 0x1 0 ]
  | .SCHED =>
    [
    .mk' 0x040 1 4 0x1020408 0xFFFFFFFF 0x0 0x0 4,
    .mk' 0x050 5 4 0x0 0x0 0x0 0x0 0,
    .mk' 0x064 1 4 0x0 0x0 0x0 0x0 0,
    .mk' 0x068 1 4 0x0 0x0 0x0 0x3F 0 ]
  | .ECC =>
    [
    .mk' 0x040 1 4 0x1801 0xFF01 0x0 0x0 4,
    .mk' 0x044 1 4 0x0 0x0 0x0 0x0 0,
    .mk' 0x048 1 4 0x0 0x0 0x0 0x0 0,
    .mk' 0x04C 1 4 0x0 0x0 0x0 0x0 0,
    .mk' 0x050 1 4 0x0 0x0 0x0 0x0 0,
    .mk' 0x054 1 4 0x0 0x0 0x0 0x0 0,
    .mk' 0x058 1 4 0x0 0x0 0x0 0x0 0,
    .mk' 0x05C 1 4 0x0 0x0 0x0 0x0 0,
    .mk' 0x060 1 4 0x0 0x7FFF 0x0 0x0 0,
    .mk' 0x064 1 4 0x0 0x0 0x0 0x0 0,
    .mk' 0x068 1 4 0x0 0x0 0x0 0x80007FFF 0,
    .mk' 0x06C 1 4 0x0 0x0 0x0 0x1F 0 ]
  | .BULK =>
    [
    .mk' 0x040 1 4 0x0 0x3F 0x0 0x0 0,
    .mk' 0x044 1 4 0x0 0xFFFFFFF8 0x0 0x0 0,
    .mk' 0x048 1 4 0x0 0xFFF0006 0x0 0x1 0,
    .mk' 0x04C 1 4 0x0 0x0 0x0 0x0 0,
    .mk' 0x050 1 4 0x0 0x0 0x0 0x0 0,
    .mk' 0x054 1 4 0x0 0x0 0x0 0x0 0,
    .mk' 0x058 1 4 0x0 0x0 0x0 0x1 0,
    .mk' 0x800 512 4 0x0 0xFFFFFFFF 0x0 0x0 0 ]
  | .BANKS =>
    [
    .mk' 0x040 1 4 0x0 0x0 0x0 0x0 0,
    .mk' 0x044 1 4 0x0 0x0 0x0 0x0 0,
    .mk' 0x048 1 4 0x0 0x0 0x0 0x0 0,
    .mk' 0x04C 1 4 0x0 0x0 0x0 0x0 0,
    .mk' 0x050 1 4 0x0 0x0 0x0 0x0 0,
    .mk' 0x054 1 4 0x0 0x0 0x0 0x1F 0,
    .mk' 0x058 1 4 0x0 0x0 0x0 0x0 0,
    .mk' 0x060 1 4 0x0 0x3F07FFFC 0x0 0x0 0,
    .mk' 0x064 1 4 0x0 0xFFFFFFFF 0x0 0x0 0,
    .mk' 0x100 48 4 0x0 0x207 0x0 0x0 4 ]
  | .CAS =>
    [
    .mk' 0x040 1 4 0x7F0 0x7F1 0x0 0x0 4,
    .mk' 0x044 1 4 0x1 0xFFFF0007 0x0 0x0 5,
    .mk' 0x048 1 4 0x0 0x0 0x0 0x0 0,
    .mk' 0x04C 1 4 0x0 0x3FFF 0x0 0x0 5,
    .mk' 0x050 1 4 0x0 0x13F 0x0 0x0 5,
    .mk' 0x054 1 4 0x0 0x0 0x0 0x0 0,
    .mk' 0x060 1 4 0x0 0x0 0x0 0x0 0,
    .mk' 0x064 1 4 0x0 0x0 0x0 0x0 0,
    .mk' 0x068 1 4 0x0 0x0 0x0 0x0 0,
    .mk' 0x06C 1 4 0x0 0x0 0x0 0x0 0,
    .mk' 0x070 1 4 0x0 0x0 0x0 0x0 0,
    .mk' 0x074 1 4 0x0 0x0 0x0 0x1F 0 ]

/-- The PHY block of a lane, at offsets from its base (R57). -/
def phyRows : List RegRow :=
  [
    .mk' 0x000 1 4 0x20 0x3 0x0 0x0 4,
    .mk' 0x004 1 4 0x700 0x700 0x0 0x0 4,
    .mk' 0x008 1 4 0x310 0x31F 0x0 0x0 4,
    .mk' 0x00C 1 4 0x0 0x0 0x0 0x0 0,
    .mk' 0x010 1 4 0x0 0x3F3F3FFF 0x0 0x0 4,
    .mk' 0x014 1 4 0x0 0x3F3F3F3F 0x0 0x0 4,
    .mk' 0x018 1 4 0x0 0x0 0x0 0x0 0,
    .mk' 0x01C 1 4 0x0 0x0 0x0 0x0 0,
    .mk' 0x020 1 4 0x10040000 0x1F071F0F 0x0 0x0 4,
    .mk' 0x024 1 4 0x0 0x7FFFFF 0x0 0x0 4,
    .mk' 0x028 1 4 0x0 0x0 0x0 0x0 0,
    .mk' 0x030 1 4 0x0 0x1FFF3F00 0x0 0x1 0,
    .mk' 0x034 1 4 0x0 0x0 0x0 0x0 0,
    .mk' 0x038 1 4 0x0 0x0 0x0 0x0 0,
    .mk' 0x040 1 4 0x0 0x0 0x0 0x0 0,
    .mk' 0x044 1 4 0x0 0x0 0x0 0x0 0,
    .mk' 0x048 1 4 0x0 0x3F 0x0 0x0 0,
    .mk' 0x04C 1 4 0x0 0x0 0x0 0x0 0,
    .mk' 0x050 1 4 0x0 0x0 0x0 0x0 0,
    .mk' 0x054 1 4 0x0 0x0 0x0 0x3F 0 ]

/-! Addresses and fields, by the names the tables of spec/ give them. -/

/-- HDR.UNIT_ID, R370. -/
def Reg.HDR_UNIT_ID (p : Nat) : Nat := p * 0x1000 + 0x0
def Reg.HDR_UNIT_ID_KIND (p : Nat) : Fld := ⟨Reg.HDR_UNIT_ID p, 0, 16⟩
def Reg.HDR_UNIT_ID_INSTANCE (p : Nat) : Fld := ⟨Reg.HDR_UNIT_ID p, 16, 8⟩
def Reg.HDR_UNIT_ID_VERSION (p : Nat) : Fld := ⟨Reg.HDR_UNIT_ID p, 24, 8⟩
/-- HDR.UNIT_TREE, R370. -/
def Reg.HDR_UNIT_TREE (p : Nat) : Nat := p * 0x1000 + 0x4
def Reg.HDR_UNIT_TREE_COUNT (p : Nat) : Fld := ⟨Reg.HDR_UNIT_TREE p, 0, 8⟩
def Reg.HDR_UNIT_TREE_CHILD (p : Nat) : Fld := ⟨Reg.HDR_UNIT_TREE p, 12, 12⟩
def Reg.HDR_UNIT_TREE_NEXT (p : Nat) : Fld := ⟨Reg.HDR_UNIT_TREE p, 24, 8⟩
/-- HDR.CTRL, R370. -/
def Reg.HDR_CTRL (p : Nat) : Nat := p * 0x1000 + 0x8
def Reg.HDR_CTRL_EN (p : Nat) : Fld := ⟨Reg.HDR_CTRL p, 0, 1⟩
def Reg.HDR_CTRL_GATE_MODE (p : Nat) : Fld := ⟨Reg.HDR_CTRL p, 1, 1⟩
def Reg.HDR_CTRL_CLK_EN (p : Nat) : Fld := ⟨Reg.HDR_CTRL p, 2, 1⟩
def Reg.HDR_CTRL_SOFT_RST (p : Nat) : Fld := ⟨Reg.HDR_CTRL p, 3, 1⟩
/-- HDR.STATUS, R370. -/
def Reg.HDR_STATUS (p : Nat) : Nat := p * 0x1000 + 0xC
def Reg.HDR_STATUS_SAT (p : Nat) : Fld := ⟨Reg.HDR_STATUS p, 31, 1⟩
/-- HDR.IRQ_RAW, R370. -/
def Reg.HDR_IRQ_RAW (p : Nat) : Nat := p * 0x1000 + 0x10
/-- HDR.IRQ_EN, R370. -/
def Reg.HDR_IRQ_EN (p : Nat) : Nat := p * 0x1000 + 0x14
/-- HDR.IRQ_PEND, R370. -/
def Reg.HDR_IRQ_PEND (p : Nat) : Nat := p * 0x1000 + 0x18
/-- HDR.IRQ_SET, R370. -/
def Reg.HDR_IRQ_SET (p : Nat) : Nat := p * 0x1000 + 0x1C
/-- HDR.ERR_CODE, R370. -/
def Reg.HDR_ERR_CODE (p : Nat) : Nat := p * 0x1000 + 0x20
/-- HDR.ERR_COUNT, R370. -/
def Reg.HDR_ERR_COUNT (p : Nat) : Nat := p * 0x1000 + 0x24
/-- HDR.PWR_STATE, R370. -/
def Reg.HDR_PWR_STATE (p : Nat) : Nat := p * 0x1000 + 0x28
/-- HDR.LOCK, R370. -/
def Reg.HDR_LOCK (p : Nat) : Nat := p * 0x1000 + 0x2C
/-- PHY.LSTATE, R57. -/
def Reg.PHY_LSTATE (b : Nat) : Nat := b + 0x0
def Reg.PHY_LSTATE_REQ (b : Nat) : Fld := ⟨Reg.PHY_LSTATE b, 0, 2⟩
def Reg.PHY_LSTATE_CUR (b : Nat) : Fld := ⟨Reg.PHY_LSTATE b, 4, 2⟩
def Reg.PHY_LSTATE_DOMAIN (b : Nat) : Fld := ⟨Reg.PHY_LSTATE b, 8, 2⟩
def Reg.PHY_LSTATE_BUSY (b : Nat) : Fld := ⟨Reg.PHY_LSTATE b, 12, 1⟩
/-- PHY.RATE, R57. -/
def Reg.PHY_RATE (b : Nat) : Nat := b + 0x4
def Reg.PHY_RATE_CUR (b : Nat) : Fld := ⟨Reg.PHY_RATE b, 0, 3⟩
def Reg.PHY_RATE_MAX (b : Nat) : Fld := ⟨Reg.PHY_RATE b, 8, 3⟩
/-- PHY.RXEQ, R57. -/
def Reg.PHY_RXEQ (b : Nat) : Nat := b + 0x8
def Reg.PHY_RXEQ_CTLE (b : Nat) : Fld := ⟨Reg.PHY_RXEQ b, 0, 4⟩
def Reg.PHY_RXEQ_CTLE_AUTO (b : Nat) : Fld := ⟨Reg.PHY_RXEQ b, 4, 1⟩
def Reg.PHY_RXEQ_DFE_EN (b : Nat) : Fld := ⟨Reg.PHY_RXEQ b, 8, 1⟩
def Reg.PHY_RXEQ_ADAPT_EN (b : Nat) : Fld := ⟨Reg.PHY_RXEQ b, 9, 1⟩
/-- PHY.RXSTAT, R57. -/
def Reg.PHY_RXSTAT (b : Nat) : Nat := b + 0xC
def Reg.PHY_RXSTAT_LOCK (b : Nat) : Fld := ⟨Reg.PHY_RXSTAT b, 0, 1⟩
def Reg.PHY_RXSTAT_EI (b : Nat) : Fld := ⟨Reg.PHY_RXSTAT b, 1, 1⟩
def Reg.PHY_RXSTAT_FROZEN (b : Nat) : Fld := ⟨Reg.PHY_RXSTAT b, 2, 1⟩
def Reg.PHY_RXSTAT_INVERTED (b : Nat) : Fld := ⟨Reg.PHY_RXSTAT b, 3, 1⟩
def Reg.PHY_RXSTAT_BLKERR (b : Nat) : Fld := ⟨Reg.PHY_RXSTAT b, 16, 16⟩
/-- PHY.DFE_TAPS0, R57. -/
def Reg.PHY_DFE_TAPS0 (b : Nat) : Nat := b + 0x10
def Reg.PHY_DFE_TAPS0_TAP1 (b : Nat) : Fld := ⟨Reg.PHY_DFE_TAPS0 b, 0, 8⟩
def Reg.PHY_DFE_TAPS0_TAP2 (b : Nat) : Fld := ⟨Reg.PHY_DFE_TAPS0 b, 8, 6⟩
def Reg.PHY_DFE_TAPS0_TAP3 (b : Nat) : Fld := ⟨Reg.PHY_DFE_TAPS0 b, 16, 6⟩
def Reg.PHY_DFE_TAPS0_TAP4 (b : Nat) : Fld := ⟨Reg.PHY_DFE_TAPS0 b, 24, 6⟩
/-- PHY.DFE_TAPS1, R57. -/
def Reg.PHY_DFE_TAPS1 (b : Nat) : Nat := b + 0x14
def Reg.PHY_DFE_TAPS1_TAP5 (b : Nat) : Fld := ⟨Reg.PHY_DFE_TAPS1 b, 0, 6⟩
def Reg.PHY_DFE_TAPS1_TAP6 (b : Nat) : Fld := ⟨Reg.PHY_DFE_TAPS1 b, 8, 6⟩
def Reg.PHY_DFE_TAPS1_TAP7 (b : Nat) : Fld := ⟨Reg.PHY_DFE_TAPS1 b, 16, 6⟩
def Reg.PHY_DFE_TAPS1_TAP8 (b : Nat) : Fld := ⟨Reg.PHY_DFE_TAPS1 b, 24, 6⟩
/-- PHY.FREEZE_CNT, R57. -/
def Reg.PHY_FREEZE_CNT (b : Nat) : Nat := b + 0x18
def Reg.PHY_FREEZE_CNT_FREEZE (b : Nat) : Fld := ⟨Reg.PHY_FREEZE_CNT b, 0, 16⟩
def Reg.PHY_FREEZE_CNT_RESUME (b : Nat) : Fld := ⟨Reg.PHY_FREEZE_CNT b, 16, 16⟩
/-- PHY.LOCKLOSS_CNT, R57. -/
def Reg.PHY_LOCKLOSS_CNT (b : Nat) : Nat := b + 0x1C
/-- PHY.TXEQ, R57. -/
def Reg.PHY_TXEQ (b : Nat) : Nat := b + 0x20
def Reg.PHY_TXEQ_PRE (b : Nat) : Fld := ⟨Reg.PHY_TXEQ b, 0, 4⟩
def Reg.PHY_TXEQ_POST (b : Nat) : Fld := ⟨Reg.PHY_TXEQ b, 8, 5⟩
def Reg.PHY_TXEQ_SWING (b : Nat) : Fld := ⟨Reg.PHY_TXEQ b, 16, 3⟩
def Reg.PHY_TXEQ_PRESET (b : Nat) : Fld := ⟨Reg.PHY_TXEQ b, 24, 4⟩
def Reg.PHY_TXEQ_USE_PRESET (b : Nat) : Fld := ⟨Reg.PHY_TXEQ b, 28, 1⟩
/-- PHY.SEED, R57. -/
def Reg.PHY_SEED (b : Nat) : Nat := b + 0x24
/-- PHY.TRANS_CNT, R57. -/
def Reg.PHY_TRANS_CNT (b : Nat) : Nat := b + 0x28
def Reg.PHY_TRANS_CNT_SUPERSEDED (b : Nat) : Fld := ⟨Reg.PHY_TRANS_CNT b, 0, 16⟩
/-- PHY.ES_CTRL, R57. -/
def Reg.PHY_ES_CTRL (b : Nat) : Nat := b + 0x30
def Reg.PHY_ES_CTRL_START (b : Nat) : Fld := ⟨Reg.PHY_ES_CTRL b, 0, 1⟩
def Reg.PHY_ES_CTRL_PHASE (b : Nat) : Fld := ⟨Reg.PHY_ES_CTRL b, 8, 6⟩
def Reg.PHY_ES_CTRL_VOLT (b : Nat) : Fld := ⟨Reg.PHY_ES_CTRL b, 16, 8⟩
def Reg.PHY_ES_CTRL_DWELL (b : Nat) : Fld := ⟨Reg.PHY_ES_CTRL b, 24, 5⟩
/-- PHY.ES_STATUS, R57. -/
def Reg.PHY_ES_STATUS (b : Nat) : Nat := b + 0x34
def Reg.PHY_ES_STATUS_BUSY (b : Nat) : Fld := ⟨Reg.PHY_ES_STATUS b, 0, 1⟩
def Reg.PHY_ES_STATUS_DONE (b : Nat) : Fld := ⟨Reg.PHY_ES_STATUS b, 1, 1⟩
def Reg.PHY_ES_STATUS_ABORTED (b : Nat) : Fld := ⟨Reg.PHY_ES_STATUS b, 2, 1⟩
def Reg.PHY_ES_STATUS_SAT (b : Nat) : Fld := ⟨Reg.PHY_ES_STATUS b, 3, 1⟩
/-- PHY.ES_ERRS, R57. -/
def Reg.PHY_ES_ERRS (b : Nat) : Nat := b + 0x38
/-- PHY.ES_UI, R57. -/
def Reg.PHY_ES_UI (b : Nat) : Nat := b + 0x40
def Reg.PHY_ES_UI_HI (b : Nat) : Nat := b + 0x40 + 4
/-- PHY.PRBS, R57. -/
def Reg.PHY_PRBS (b : Nat) : Nat := b + 0x48
def Reg.PHY_PRBS_GEN_EN (b : Nat) : Fld := ⟨Reg.PHY_PRBS b, 0, 1⟩
def Reg.PHY_PRBS_CHK_EN (b : Nat) : Fld := ⟨Reg.PHY_PRBS b, 1, 1⟩
def Reg.PHY_PRBS_PATTERN (b : Nat) : Fld := ⟨Reg.PHY_PRBS b, 2, 1⟩
def Reg.PHY_PRBS_INVERT (b : Nat) : Fld := ⟨Reg.PHY_PRBS b, 3, 1⟩
def Reg.PHY_PRBS_LOOP (b : Nat) : Fld := ⟨Reg.PHY_PRBS b, 4, 2⟩
/-- PHY.PRBS_STAT, R57. -/
def Reg.PHY_PRBS_STAT (b : Nat) : Nat := b + 0x4C
def Reg.PHY_PRBS_STAT_SYNC (b : Nat) : Fld := ⟨Reg.PHY_PRBS_STAT b, 0, 1⟩
def Reg.PHY_PRBS_STAT_SAT (b : Nat) : Fld := ⟨Reg.PHY_PRBS_STAT b, 1, 1⟩
/-- PHY.PRBS_ERRS, R57. -/
def Reg.PHY_PRBS_ERRS (b : Nat) : Nat := b + 0x50
/-- PHY.CNT_CLR, R57. -/
def Reg.PHY_CNT_CLR (b : Nat) : Nat := b + 0x54
/-- CHIP.DEVICE_ID, R390. -/
def Reg.CHIP_DEVICE_ID : Nat := 0x40
/-- CHIP.FEATURES, R390. -/
def Reg.CHIP_FEATURES : Nat := 0x44
def Reg.CHIP_FEATURES_PORTS : Fld := ⟨Reg.CHIP_FEATURES, 0, 8⟩
def Reg.CHIP_FEATURES_ZONE_DIM : Fld := ⟨Reg.CHIP_FEATURES, 8, 8⟩
def Reg.CHIP_FEATURES_CELLS : Fld := ⟨Reg.CHIP_FEATURES, 16, 2⟩
def Reg.CHIP_FEATURES_DRAM : Fld := ⟨Reg.CHIP_FEATURES, 20, 4⟩
def Reg.CHIP_FEATURES_CAS_LANES : Fld := ⟨Reg.CHIP_FEATURES, 24, 4⟩
/-- CHIP.APPLY, R390. -/
def Reg.CHIP_APPLY : Nat := 0x48
def Reg.CHIP_APPLY_GO : Fld := ⟨Reg.CHIP_APPLY, 0, 1⟩
def Reg.CHIP_APPLY_VALIDATING : Fld := ⟨Reg.CHIP_APPLY, 8, 1⟩
def Reg.CHIP_APPLY_WAITING : Fld := ⟨Reg.CHIP_APPLY, 9, 1⟩
/-- CHIP.REVERT, R390. -/
def Reg.CHIP_REVERT : Nat := 0x4C
/-- CHIP.CONFIG_REJECT, R390. -/
def Reg.CHIP_CONFIG_REJECT : Nat := 0x50
def Reg.CHIP_CONFIG_REJECT_REASON : Fld := ⟨Reg.CHIP_CONFIG_REJECT, 0, 8⟩
def Reg.CHIP_CONFIG_REJECT_PAGE : Fld := ⟨Reg.CHIP_CONFIG_REJECT, 8, 12⟩
def Reg.CHIP_CONFIG_REJECT_INDEX : Fld := ⟨Reg.CHIP_CONFIG_REJECT, 20, 12⟩
/-- CHIP.APPLIED_FRAME, R390. -/
def Reg.CHIP_APPLIED_FRAME : Nat := 0x54
/-- CHIP.LATENCY_LINES, R390. -/
def Reg.CHIP_LATENCY_LINES : Nat := 0x58
/-- CHIP.GUARANTEE_VOID, R390. -/
def Reg.CHIP_GUARANTEE_VOID : Nat := 0x5C
/-- CHIP.IRQ_SUMMARY, R390. -/
def Reg.CHIP_IRQ_SUMMARY : Nat := 0x60
/-- CHIP.IRQ_SUM_EN, R390. -/
def Reg.CHIP_IRQ_SUM_EN : Nat := 0x64
/-- CHIP.BOOT_REASON, R390. -/
def Reg.CHIP_BOOT_REASON : Nat := 0x68
/-- CHIP.APPLY_CNT, R390. -/
def Reg.CHIP_APPLY_CNT : Nat := 0x6C
/-- CHIP.REJECT_CNT, R390. -/
def Reg.CHIP_REJECT_CNT : Nat := 0x70
/-- CHIP.CNT_CLR, R390. -/
def Reg.CHIP_CNT_CLR : Nat := 0x74
/-- AON.TIMEBASE, R431. -/
def Reg.AON_TIMEBASE : Nat := 0x1040
def Reg.AON_TIMEBASE_HI : Nat := 0x1040 + 4
/-- AON.POWER_ON_MIN, R431. -/
def Reg.AON_POWER_ON_MIN : Nat := 0x1048
/-- AON.BOOT_TRIES, R431. -/
def Reg.AON_BOOT_TRIES : Nat := 0x104C
/-- AON.ALARM, R431. -/
def Reg.AON_ALARM : Nat := 0x1050
def Reg.AON_ALARM_HI : Nat := 0x1050 + 4
/-- AON.WAKE_CAUSE, R431. -/
def Reg.AON_WAKE_CAUSE : Nat := 0x1058
def Reg.AON_WAKE_CAUSE_LOW : Fld := ⟨Reg.AON_WAKE_CAUSE, 0, 4⟩
def Reg.AON_WAKE_CAUSE_GPIO : Fld := ⟨Reg.AON_WAKE_CAUSE, 8, 4⟩
/-- AON.SAVE_USED, R431. -/
def Reg.AON_SAVE_USED : Nat := 0x105C
/-- CLK.CFG, R411. -/
def Reg.CLK_CFG : Nat := 0x2040
def Reg.CLK_CFG_HDIV : Fld := ⟨Reg.CLK_CFG, 0, 1⟩
def Reg.CLK_CFG_CDIV : Fld := ⟨Reg.CLK_CFG, 4, 4⟩
def Reg.CLK_CFG_SSREF_SRC : Fld := ⟨Reg.CLK_CFG, 8, 1⟩
def Reg.CLK_CFG_TXREF_SRC : Fld := ⟨Reg.CLK_CFG, 9, 1⟩
/-- CLK.PIX_FREQ, R411. -/
def Reg.CLK_PIX_FREQ : Nat := 0x2044
/-- CLK.MUX, R411. -/
def Reg.CLK_MUX : Nat := 0x2048
def Reg.CLK_MUX_HCLK : Fld := ⟨Reg.CLK_MUX, 0, 2⟩
def Reg.CLK_MUX_CTLCLK : Fld := ⟨Reg.CLK_MUX, 4, 1⟩
def Reg.CLK_MUX_PIX_REF : Fld := ⟨Reg.CLK_MUX, 8, 2⟩
def Reg.CLK_MUX_SSREF : Fld := ⟨Reg.CLK_MUX, 12, 1⟩
def Reg.CLK_MUX_TXPLL : Fld := ⟨Reg.CLK_MUX, 13, 1⟩
def Reg.CLK_MUX_SRC_PENDING : Fld := ⟨Reg.CLK_MUX, 16, 1⟩
/-- CLK.SW_FORCED, R411. -/
def Reg.CLK_SW_FORCED : Nat := 0x204C
def Reg.CLK_SW_FORCED_HCLK : Fld := ⟨Reg.CLK_SW_FORCED, 0, 1⟩
def Reg.CLK_SW_FORCED_CTLCLK : Fld := ⟨Reg.CLK_SW_FORCED, 1, 1⟩
def Reg.CLK_SW_FORCED_SSREF : Fld := ⟨Reg.CLK_SW_FORCED, 2, 1⟩
def Reg.CLK_SW_FORCED_TXPLL : Fld := ⟨Reg.CLK_SW_FORCED, 3, 1⟩
/-- CLK.AON_TRIM, R411. -/
def Reg.CLK_AON_TRIM : Nat := 0x2050
def Reg.CLK_AON_TRIM_CODE : Fld := ⟨Reg.CLK_AON_TRIM, 0, 7⟩
def Reg.CLK_AON_TRIM_HELD : Fld := ⟨Reg.CLK_AON_TRIM, 8, 1⟩
/-- CLK.TB_INC, R411. -/
def Reg.CLK_TB_INC : Nat := 0x2054
/-- CLK.SW_FORCED_CNT, R411. -/
def Reg.CLK_SW_FORCED_CNT : Nat := 0x2060
/-- CLK.SW_FAIL, R411. -/
def Reg.CLK_SW_FAIL : Nat := 0x2064
/-- CLK.SUPERSEDED, R411. -/
def Reg.CLK_SUPERSEDED : Nat := 0x2068
/-- CLK.XTAL_LOSS, R411. -/
def Reg.CLK_XTAL_LOSS : Nat := 0x206C
/-- CLK.LOCK_FAIL, R411. -/
def Reg.CLK_LOCK_FAIL : Nat := 0x2070
/-- CLK.LOCK_LOSS, R411. -/
def Reg.CLK_LOCK_LOSS : Nat := 0x2074
/-- CLK.CNT_CLR, R411. -/
def Reg.CLK_CNT_CLR : Nat := 0x2078
def Reg.CLK_STATUS_XTAL_OK : Fld := ⟨0x200C, 0, 1⟩
def Reg.CLK_STATUS_REFCLK_OK : Fld := ⟨0x200C, 1, 1⟩
def Reg.CLK_STATUS_XTAL_FAIL : Fld := ⟨0x200C, 2, 1⟩
def Reg.CLK_STATUS_SYS_LOCK : Fld := ⟨0x200C, 8, 1⟩
def Reg.CLK_STATUS_PIX_LOCK : Fld := ⟨0x200C, 9, 1⟩
def Reg.CLK_STATUS_MEM_LOCK : Fld := ⟨0x200C, 10, 1⟩
def Reg.CLK_STATUS_EDL_LOCK : Fld := ⟨0x200C, 11, 1⟩
def Reg.CLK_STATUS_SSREF_LOCK : Fld := ⟨0x200C, 12, 1⟩
def Reg.CLK_STATUS_TX_LOCK : Fld := ⟨0x200C, 13, 1⟩
/-- PWR.OP_CFG, R430. -/
def Reg.PWR_OP_CFG : Nat := 0x3040
def Reg.PWR_OP_CFG_MAX : Fld := ⟨Reg.PWR_OP_CFG, 0, 2⟩
def Reg.PWR_OP_CFG_MARGIN : Fld := ⟨Reg.PWR_OP_CFG, 4, 4⟩
/-- PWR.OP_STATUS, R430. -/
def Reg.PWR_OP_STATUS : Nat := 0x3044
def Reg.PWR_OP_STATUS_MAX_ACTIVE : Fld := ⟨Reg.PWR_OP_STATUS, 0, 2⟩
def Reg.PWR_OP_STATUS_PIX_OP : Fld := ⟨Reg.PWR_OP_STATUS, 4, 2⟩
def Reg.PWR_OP_STATUS_MEM_OP : Fld := ⟨Reg.PWR_OP_STATUS, 8, 2⟩
def Reg.PWR_OP_STATUS_SEQ_BUSY : Fld := ⟨Reg.PWR_OP_STATUS, 12, 1⟩
/-- PWR.AVS_CFG, R430. -/
def Reg.PWR_AVS_CFG : Nat := 0x3048
def Reg.PWR_AVS_CFG_CORE_SEL : Fld := ⟨Reg.PWR_AVS_CFG, 0, 4⟩
def Reg.PWR_AVS_CFG_SER_SEL : Fld := ⟨Reg.PWR_AVS_CFG, 4, 4⟩
/-- PWR.VSER, R430. -/
def Reg.PWR_VSER : Nat := 0x304C
def Reg.PWR_VSER_TARGET : Fld := ⟨Reg.PWR_VSER, 0, 10⟩
/-- PWR.VSTATUS, R430. -/
def Reg.PWR_VSTATUS : Nat := 0x3050
def Reg.PWR_VSTATUS_VDD_CORE : Fld := ⟨Reg.PWR_VSTATUS, 0, 10⟩
def Reg.PWR_VSTATUS_VDD_SER : Fld := ⟨Reg.PWR_VSTATUS, 16, 10⟩
def Reg.PWR_VSTATUS_AVS_BUSY : Fld := ⟨Reg.PWR_VSTATUS, 31, 1⟩
/-- PWR.PAD_RELEASE, R430. -/
def Reg.PWR_PAD_RELEASE : Nat := 0x3054
def Reg.PWR_PAD_RELEASE_D44 : Fld := ⟨Reg.PWR_PAD_RELEASE, 0, 1⟩
def Reg.PWR_PAD_RELEASE_D45 : Fld := ⟨Reg.PWR_PAD_RELEASE, 1, 1⟩
def Reg.PWR_PAD_RELEASE_D46 : Fld := ⟨Reg.PWR_PAD_RELEASE, 2, 1⟩
/-- PWR.PAD_LATCHED, R430. -/
def Reg.PWR_PAD_LATCHED : Nat := 0x3058
/-- PWR.ACCESS_MISS_ADDR, R430. -/
def Reg.PWR_ACCESS_MISS_ADDR : Nat := 0x305C
def Reg.PWR_ACCESS_MISS_ADDR_ADDR : Fld := ⟨Reg.PWR_ACCESS_MISS_ADDR, 0, 24⟩
def Reg.PWR_ACCESS_MISS_ADDR_PORT : Fld := ⟨Reg.PWR_ACCESS_MISS_ADDR, 24, 2⟩
def Reg.PWR_ACCESS_MISS_ADDR_WR : Fld := ⟨Reg.PWR_ACCESS_MISS_ADDR, 28, 1⟩
/-- PWR.ACCESS_MISS, R430. -/
def Reg.PWR_ACCESS_MISS : Nat := 0x3060
/-- PWR.AVS_REQS, R430. -/
def Reg.PWR_AVS_REQS : Nat := 0x3064
/-- PWR.AVS_TIMEOUT, R430. -/
def Reg.PWR_AVS_TIMEOUT : Nat := 0x3068
/-- PWR.AVS_NAK, R430. -/
def Reg.PWR_AVS_NAK : Nat := 0x306C
/-- PWR.SAVE_ERR, R430. -/
def Reg.PWR_SAVE_ERR : Nat := 0x3070
/-- PWR.CNT_CLR, R430. -/
def Reg.PWR_CNT_CLR : Nat := 0x3074
/-- PWR.WAKE_SRC, R430. -/
def Reg.PWR_WAKE_SRC : Nat := 0x3080
def Reg.PWR_WAKE_SRC_LOW : Fld := ⟨Reg.PWR_WAKE_SRC, 0, 4⟩
def Reg.PWR_WAKE_SRC_GPIO : Fld := ⟨Reg.PWR_WAKE_SRC, 8, 4⟩
/-- PWR.WAKE_DOMS, R430. -/
def Reg.PWR_WAKE_DOMS (i : Nat) : Nat := 0x3084 + 4 * i
/-- PWR.TIME_SEL, R430. -/
def Reg.PWR_TIME_SEL : Nat := 0x3090
/-- PWR.TIME_ON, R430. -/
def Reg.PWR_TIME_ON : Nat := 0x3094
/-- PWR.TIME_RET, R430. -/
def Reg.PWR_TIME_RET : Nat := 0x3098
/-- PWR.TIME_OFF, R430. -/
def Reg.PWR_TIME_OFF : Nat := 0x309C
/-- PWR.DOM_REQ, R430. -/
def Reg.PWR_DOM_REQ (i : Nat) : Nat := 0x3100 + 16 * i
def Reg.PWR_DOM_REQ_TARGET (i : Nat) : Fld := ⟨Reg.PWR_DOM_REQ i, 0, 2⟩
/-- PWR.DOM_STATE, R430. -/
def Reg.PWR_DOM_STATE (i : Nat) : Nat := 0x3104 + 16 * i
def Reg.PWR_DOM_STATE_CUR (i : Nat) : Fld := ⟨Reg.PWR_DOM_STATE i, 0, 2⟩
def Reg.PWR_DOM_STATE_PENDING (i : Nat) : Fld := ⟨Reg.PWR_DOM_STATE i, 2, 2⟩
def Reg.PWR_DOM_STATE_BUSY (i : Nat) : Fld := ⟨Reg.PWR_DOM_STATE i, 4, 1⟩
def Reg.PWR_DOM_STATE_LATCHED (i : Nat) : Fld := ⟨Reg.PWR_DOM_STATE i, 5, 1⟩
def Reg.PWR_DOM_STATE_REASON (i : Nat) : Fld := ⟨Reg.PWR_DOM_STATE i, 12, 4⟩
def Reg.PWR_DOM_STATE_REFUSER (i : Nat) : Fld := ⟨Reg.PWR_DOM_STATE i, 16, 12⟩
/-- PWR.DOM_CNT0, R430. -/
def Reg.PWR_DOM_CNT0 (i : Nat) : Nat := 0x3108 + 16 * i
def Reg.PWR_DOM_CNT0_ENTRIES (i : Nat) : Fld := ⟨Reg.PWR_DOM_CNT0 i, 0, 16⟩
def Reg.PWR_DOM_CNT0_SUPERSEDED (i : Nat) : Fld := ⟨Reg.PWR_DOM_CNT0 i, 16, 16⟩
/-- PWR.DOM_CNT1, R430. -/
def Reg.PWR_DOM_CNT1 (i : Nat) : Nat := 0x310C + 16 * i
def Reg.PWR_DOM_CNT1_REFUSED (i : Nat) : Fld := ⟨Reg.PWR_DOM_CNT1 i, 0, 16⟩
def Reg.PWR_DOM_CNT1_ABORTED (i : Nat) : Fld := ⟨Reg.PWR_DOM_CNT1 i, 16, 16⟩
/-- HOSTIF.TREE_SEL, R391. -/
def Reg.HOSTIF_TREE_SEL : Nat := 0x4040
def Reg.HOSTIF_TREE_SEL_DEPTH : Fld := ⟨Reg.HOSTIF_TREE_SEL, 0, 3⟩
def Reg.HOSTIF_TREE_SEL_L1 : Fld := ⟨Reg.HOSTIF_TREE_SEL, 8, 4⟩
def Reg.HOSTIF_TREE_SEL_L2 : Fld := ⟨Reg.HOSTIF_TREE_SEL, 12, 4⟩
def Reg.HOSTIF_TREE_SEL_L3 : Fld := ⟨Reg.HOSTIF_TREE_SEL, 16, 4⟩
def Reg.HOSTIF_TREE_SEL_L4 : Fld := ⟨Reg.HOSTIF_TREE_SEL, 20, 4⟩
/-- HOSTIF.IRQ_CFG, R391. -/
def Reg.HOSTIF_IRQ_CFG : Nat := 0x4044
def Reg.HOSTIF_IRQ_CFG_EN : Fld := ⟨Reg.HOSTIF_IRQ_CFG, 0, 1⟩
/-- HOSTIF.STRAPS, R391. -/
def Reg.HOSTIF_STRAPS : Nat := 0x4048
def Reg.HOSTIF_STRAPS_I2C_ADDR : Fld := ⟨Reg.HOSTIF_STRAPS, 0, 2⟩
def Reg.HOSTIF_STRAPS_CAS_ROLE : Fld := ⟨Reg.HOSTIF_STRAPS, 2, 1⟩
def Reg.HOSTIF_STRAPS_BOOT_SRC : Fld := ⟨Reg.HOSTIF_STRAPS, 3, 1⟩
/-- HOSTIF.SPI_PARTIAL, R391. -/
def Reg.HOSTIF_SPI_PARTIAL : Nat := 0x404C
/-- HOSTIF.I2C_PARTIAL, R391. -/
def Reg.HOSTIF_I2C_PARTIAL : Nat := 0x4050
/-- HOSTIF.I2C_TIMEOUT, R391. -/
def Reg.HOSTIF_I2C_TIMEOUT : Nat := 0x4054
/-- HOSTIF.TREE_MISS, R391. -/
def Reg.HOSTIF_TREE_MISS : Nat := 0x4058
/-- HOSTIF.CNT_CLR, R391. -/
def Reg.HOSTIF_CNT_CLR : Nat := 0x405C
/-- SEC.WINDOW, R392. -/
def Reg.SEC_WINDOW : Nat := 0x5040
/-- SEC.STATE, R392. -/
def Reg.SEC_STATE : Nat := 0x5044
def Reg.SEC_STATE_OPEN : Fld := ⟨Reg.SEC_STATE, 0, 1⟩
def Reg.SEC_STATE_BUTTON : Fld := ⟨Reg.SEC_STATE, 1, 1⟩
def Reg.SEC_STATE_JUMPER : Fld := ⟨Reg.SEC_STATE, 2, 1⟩
def Reg.SEC_STATE_REMAIN : Fld := ⟨Reg.SEC_STATE, 16, 10⟩
/-- SEC.CMD, R392. -/
def Reg.SEC_CMD : Nat := 0x5048
def Reg.SEC_CMD_CLOSE : Fld := ⟨Reg.SEC_CMD, 0, 1⟩
/-- SEC.REFUSED, R392. -/
def Reg.SEC_REFUSED : Nat := 0x504C
/-- SEC.LAST_REFUSED, R392. -/
def Reg.SEC_LAST_REFUSED : Nat := 0x5050
def Reg.SEC_LAST_REFUSED_ADDR : Fld := ⟨Reg.SEC_LAST_REFUSED, 0, 24⟩
def Reg.SEC_LAST_REFUSED_PORT : Fld := ⟨Reg.SEC_LAST_REFUSED, 24, 2⟩
def Reg.SEC_LAST_REFUSED_FACTORY : Fld := ⟨Reg.SEC_LAST_REFUSED, 28, 1⟩
/-- SEC.OTP_LOCK, R392. -/
def Reg.SEC_OTP_LOCK : Nat := 0x5054
def Reg.SEC_OTP_LOCK_LOCK : Fld := ⟨Reg.SEC_OTP_LOCK, 0, 1⟩
/-- SEC.OPENINGS, R392. -/
def Reg.SEC_OPENINGS : Nat := 0x5058
/-- SEC.CNT_CLR, R392. -/
def Reg.SEC_CNT_CLR : Nat := 0x505C
/-- NV.CFG, R451. -/
def Reg.NV_CFG : Nat := 0x6040
def Reg.NV_CFG_FREE_MIN : Fld := ⟨Reg.NV_CFG, 0, 8⟩
/-- NV.FLASH_CFG, R451. -/
def Reg.NV_FLASH_CFG : Nat := 0x6044
def Reg.NV_FLASH_CFG_DIV : Fld := ⟨Reg.NV_FLASH_CFG, 0, 4⟩
def Reg.NV_FLASH_CFG_FLASH_TPP : Fld := ⟨Reg.NV_FLASH_CFG, 16, 16⟩
/-- NV.REC_CMD, R451. -/
def Reg.NV_REC_CMD : Nat := 0x6048
def Reg.NV_REC_CMD_OP : Fld := ⟨Reg.NV_REC_CMD, 0, 2⟩
/-- NV.REC_KEY, R451. -/
def Reg.NV_REC_KEY : Nat := 0x604C
def Reg.NV_REC_KEY_ID : Fld := ⟨Reg.NV_REC_KEY, 0, 16⟩
def Reg.NV_REC_KEY_TYPE : Fld := ⟨Reg.NV_REC_KEY, 16, 8⟩
def Reg.NV_REC_KEY_FACTORY : Fld := ⟨Reg.NV_REC_KEY, 24, 1⟩
/-- NV.REC_LEN, R451. -/
def Reg.NV_REC_LEN : Nat := 0x6050
def Reg.NV_REC_LEN_LEN : Fld := ⟨Reg.NV_REC_LEN, 0, 13⟩
/-- NV.REC_STATUS, R451. -/
def Reg.NV_REC_STATUS : Nat := 0x6054
def Reg.NV_REC_STATUS_BUSY : Fld := ⟨Reg.NV_REC_STATUS, 0, 1⟩
def Reg.NV_REC_STATUS_DONE : Fld := ⟨Reg.NV_REC_STATUS, 1, 1⟩
def Reg.NV_REC_STATUS_CODE : Fld := ⟨Reg.NV_REC_STATUS, 4, 4⟩
/-- NV.REC_SEQ, R451. -/
def Reg.NV_REC_SEQ : Nat := 0x6058
/-- NV.RAW_ADDR, R451. -/
def Reg.NV_RAW_ADDR : Nat := 0x605C
/-- NV.RAW_LEN, R451. -/
def Reg.NV_RAW_LEN : Nat := 0x6060
/-- NV.RAW_CMD, R451. -/
def Reg.NV_RAW_CMD : Nat := 0x6064
def Reg.NV_RAW_CMD_OP : Fld := ⟨Reg.NV_RAW_CMD, 0, 3⟩
/-- NV.RAW_STATUS, R451. -/
def Reg.NV_RAW_STATUS : Nat := 0x6068
def Reg.NV_RAW_STATUS_BUSY : Fld := ⟨Reg.NV_RAW_STATUS, 0, 1⟩
def Reg.NV_RAW_STATUS_DONE : Fld := ⟨Reg.NV_RAW_STATUS, 1, 1⟩
def Reg.NV_RAW_STATUS_CODE : Fld := ⟨Reg.NV_RAW_STATUS, 4, 4⟩
def Reg.NV_RAW_STATUS_TAKEN : Fld := ⟨Reg.NV_RAW_STATUS, 16, 13⟩
/-- NV.SAVE_CMD, R451. -/
def Reg.NV_SAVE_CMD : Nat := 0x606C
def Reg.NV_SAVE_CMD_SAVE : Fld := ⟨Reg.NV_SAVE_CMD, 0, 1⟩
/-- NV.SAVE_PAGES, R451. -/
def Reg.NV_SAVE_PAGES : Nat := 0x6070
/-- NV.SAVE_US, R451. -/
def Reg.NV_SAVE_US : Nat := 0x6074
/-- NV.NEXT_SEQ, R451. -/
def Reg.NV_NEXT_SEQ : Nat := 0x6078
/-- NV.RING, R451. -/
def Reg.NV_RING : Nat := 0x607C
def Reg.NV_RING_HEAD : Fld := ⟨Reg.NV_RING, 0, 8⟩
def Reg.NV_RING_TAIL : Fld := ⟨Reg.NV_RING, 8, 8⟩
def Reg.NV_RING_FREE : Fld := ⟨Reg.NV_RING, 16, 9⟩
/-- NV.ERA, R451. -/
def Reg.NV_ERA : Nat := 0x6080
/-- NV.AGE_ADDR, R451. -/
def Reg.NV_AGE_ADDR : Nat := 0x6084
/-- NV.AGE_DATA, R451. -/
def Reg.NV_AGE_DATA : Nat := 0x6088
def Reg.NV_AGE_DATA_H : Fld := ⟨Reg.NV_AGE_DATA, 0, 16⟩
def Reg.NV_AGE_DATA_Q31 : Fld := ⟨Reg.NV_AGE_DATA, 16, 16⟩
/-- NV.BUF_ADDR, R451. -/
def Reg.NV_BUF_ADDR : Nat := 0x608C
/-- NV.BUF_DATA, R451. -/
def Reg.NV_BUF_DATA : Nat := 0x6090
/-- NV.SEQ_TIE, R451. -/
def Reg.NV_SEQ_TIE : Nat := 0x60A0
/-- NV.WP_REFUSED, R451. -/
def Reg.NV_WP_REFUSED : Nat := 0x60A4
/-- NV.INVALID, R451. -/
def Reg.NV_INVALID : Nat := 0x60A8
/-- NV.REPAIRS, R451. -/
def Reg.NV_REPAIRS : Nat := 0x60AC
/-- NV.SAVES, R451. -/
def Reg.NV_SAVES : Nat := 0x60B0
/-- NV.SAVE_FAILS, R451. -/
def Reg.NV_SAVE_FAILS : Nat := 0x60B4
/-- NV.AGE_SAT_ZONES, R451. -/
def Reg.NV_AGE_SAT_ZONES : Nat := 0x60B8
/-- NV.CNT_CLR, R451. -/
def Reg.NV_CNT_CLR : Nat := 0x60BC
def Reg.NV_STATUS_READY : Fld := ⟨0x600C, 0, 1⟩
def Reg.NV_STATUS_BUSY : Fld := ⟨0x600C, 1, 1⟩
def Reg.NV_STATUS_SAVING : Fld := ⟨0x600C, 2, 1⟩
def Reg.NV_STATUS_SAVE_DONE : Fld := ⟨0x600C, 3, 1⟩
def Reg.NV_STATUS_SAVE_FAIL : Fld := ⟨0x600C, 4, 1⟩
def Reg.NV_STATUS_AGE_LOST : Fld := ⟨0x600C, 5, 1⟩
def Reg.NV_STATUS_FULL : Fld := ⟨0x600C, 6, 1⟩
def Reg.NV_STATUS_COMPACTING : Fld := ⟨0x600C, 7, 1⟩
def Reg.NV_STATUS_WP : Fld := ⟨0x600C, 8, 1⟩
def Reg.NV_STATUS_AGE_SAT : Fld := ⟨0x600C, 9, 1⟩
def Reg.NV_STATUS_RENUMBER : Fld := ⟨0x600C, 10, 1⟩
/-- TEST.CFG, R467. -/
def Reg.TEST_CFG : Nat := 0x7040
def Reg.TEST_CFG_KIND_EN : Fld := ⟨Reg.TEST_CFG, 0, 5⟩
def Reg.TEST_CFG_SRAM_TURNS : Fld := ⟨Reg.TEST_CFG, 8, 8⟩
def Reg.TEST_CFG_DRAM_TURNS : Fld := ⟨Reg.TEST_CFG, 16, 8⟩
def Reg.TEST_CFG_LUT_TURNS : Fld := ⟨Reg.TEST_CFG, 24, 8⟩
/-- TEST.UNLOCK, R467. -/
def Reg.TEST_UNLOCK : Nat := 0x7044
def Reg.TEST_UNLOCK_UNLOCK : Fld := ⟨Reg.TEST_UNLOCK, 0, 1⟩
/-- TEST.KIND_SEL, R467. -/
def Reg.TEST_KIND_SEL : Nat := 0x7048
/-- TEST.RUNS, R467. -/
def Reg.TEST_RUNS : Nat := 0x704C
/-- TEST.FAILS, R467. -/
def Reg.TEST_FAILS : Nat := 0x7050
/-- TEST.ABORTS, R467. -/
def Reg.TEST_ABORTS : Nat := 0x7054
/-- TEST.LAST_FAIL0, R467. -/
def Reg.TEST_LAST_FAIL0 : Nat := 0x7058
def Reg.TEST_LAST_FAIL0_KIND : Fld := ⟨Reg.TEST_LAST_FAIL0, 0, 3⟩
def Reg.TEST_LAST_FAIL0_UNIT : Fld := ⟨Reg.TEST_LAST_FAIL0, 8, 8⟩
def Reg.TEST_LAST_FAIL0_DETAIL : Fld := ⟨Reg.TEST_LAST_FAIL0, 16, 16⟩
/-- TEST.LAST_FAIL1, R467. -/
def Reg.TEST_LAST_FAIL1 : Nat := 0x705C
/-- TEST.SWEEPS, R467. -/
def Reg.TEST_SWEEPS : Nat := 0x7060
def Reg.TEST_SWEEPS_SRAM : Fld := ⟨Reg.TEST_SWEEPS, 0, 16⟩
def Reg.TEST_SWEEPS_FREE_PAGE : Fld := ⟨Reg.TEST_SWEEPS, 16, 16⟩
/-- TEST.CNT_CLR, R467. -/
def Reg.TEST_CNT_CLR : Nat := 0x7064
/-- TEST.BOOT_OK, R467. -/
def Reg.TEST_BOOT_OK : Nat := 0x7068
/-- TEST.BIST, R467. -/
def Reg.TEST_BIST : Nat := 0x706C
def Reg.TEST_BIST_DONE : Fld := ⟨Reg.TEST_BIST, 0, 1⟩
def Reg.TEST_BIST_FAIL : Fld := ⟨Reg.TEST_BIST, 1, 1⟩
def Reg.TEST_BIST_UNIT : Fld := ⟨Reg.TEST_BIST, 8, 8⟩
/-- PERTURB.DRAM_LAT0, R468. -/
def Reg.PERTURB_DRAM_LAT0 : Nat := 0x8040
def Reg.PERTURB_DRAM_LAT0_C0 : Fld := ⟨Reg.PERTURB_DRAM_LAT0, 0, 16⟩
def Reg.PERTURB_DRAM_LAT0_C1 : Fld := ⟨Reg.PERTURB_DRAM_LAT0, 16, 16⟩
/-- PERTURB.DRAM_LAT1, R468. -/
def Reg.PERTURB_DRAM_LAT1 : Nat := 0x8044
def Reg.PERTURB_DRAM_LAT1_C2 : Fld := ⟨Reg.PERTURB_DRAM_LAT1, 0, 16⟩
def Reg.PERTURB_DRAM_LAT1_C3 : Fld := ⟨Reg.PERTURB_DRAM_LAT1, 16, 16⟩
/-- PERTURB.DRAM_LAT2, R468. -/
def Reg.PERTURB_DRAM_LAT2 : Nat := 0x8048
def Reg.PERTURB_DRAM_LAT2_C4 : Fld := ⟨Reg.PERTURB_DRAM_LAT2, 0, 16⟩
/-- PERTURB.EDL_BP, R468. -/
def Reg.PERTURB_EDL_BP : Nat := 0x804C
def Reg.PERTURB_EDL_BP_PORT : Fld := ⟨Reg.PERTURB_EDL_BP, 0, 6⟩
def Reg.PERTURB_EDL_BP_BLOCKS : Fld := ⟨Reg.PERTURB_EDL_BP, 8, 8⟩
def Reg.PERTURB_EDL_BP_EN : Fld := ⟨Reg.PERTURB_EDL_BP, 16, 1⟩
/-- PERTURB.CODEC_STRETCH, R468. -/
def Reg.PERTURB_CODEC_STRETCH : Nat := 0x8050
/-- PERTURB.EYE, R468. -/
def Reg.PERTURB_EYE : Nat := 0x8054
def Reg.PERTURB_EYE_LANE : Fld := ⟨Reg.PERTURB_EYE, 0, 5⟩
def Reg.PERTURB_EYE_PHASE : Fld := ⟨Reg.PERTURB_EYE, 8, 6⟩
def Reg.PERTURB_EYE_VOLT : Fld := ⟨Reg.PERTURB_EYE, 16, 8⟩
def Reg.PERTURB_EYE_EN : Fld := ⟨Reg.PERTURB_EYE, 24, 1⟩
/-- PERTURB.CRC_INJ, R468. -/
def Reg.PERTURB_CRC_INJ : Nat := 0x8058
def Reg.PERTURB_CRC_INJ_ISL : Fld := ⟨Reg.PERTURB_CRC_INJ, 0, 1⟩
def Reg.PERTURB_CRC_INJ_EDL : Fld := ⟨Reg.PERTURB_CRC_INJ, 1, 1⟩
def Reg.PERTURB_CRC_INJ_BC : Fld := ⟨Reg.PERTURB_CRC_INJ, 2, 1⟩
def Reg.PERTURB_CRC_INJ_COUNT : Fld := ⟨Reg.PERTURB_CRC_INJ, 16, 16⟩
/-- PERTURB.ECC_INJ, R468. -/
def Reg.PERTURB_ECC_INJ : Nat := 0x805C
def Reg.PERTURB_ECC_INJ_SINGLE : Fld := ⟨Reg.PERTURB_ECC_INJ, 0, 1⟩
def Reg.PERTURB_ECC_INJ_DOUBLE : Fld := ⟨Reg.PERTURB_ECC_INJ, 1, 1⟩
def Reg.PERTURB_ECC_INJ_CLASS : Fld := ⟨Reg.PERTURB_ECC_INJ, 4, 3⟩
def Reg.PERTURB_ECC_INJ_COUNT : Fld := ⟨Reg.PERTURB_ECC_INJ, 16, 16⟩
/-- PERTURB.PAGER, R468. -/
def Reg.PERTURB_PAGER : Nat := 0x8060
def Reg.PERTURB_PAGER_HANDLE : Fld := ⟨Reg.PERTURB_PAGER, 0, 6⟩
def Reg.PERTURB_PAGER_KIND : Fld := ⟨Reg.PERTURB_PAGER, 8, 3⟩
def Reg.PERTURB_PAGER_EN : Fld := ⟨Reg.PERTURB_PAGER, 16, 1⟩
/-- PERTURB.AVS_DELAY, R468. -/
def Reg.PERTURB_AVS_DELAY : Nat := 0x8064
/-- PERTURB.CLKSW, R468. -/
def Reg.PERTURB_CLKSW : Nat := 0x8068
/-- PERTURB.STOP, R468. -/
def Reg.PERTURB_STOP : Nat := 0x806C
/-- PERTURB.ACTIVE, R468. -/
def Reg.PERTURB_ACTIVE : Nat := 0x8070
/-- PERTURB.INJECTED, R468. -/
def Reg.PERTURB_INJECTED : Nat := 0x8074
/-- CTL.WDOG, R393. -/
def Reg.CTL_WDOG : Nat := 0x9040
def Reg.CTL_WDOG_PERIOD : Fld := ⟨Reg.CTL_WDOG, 0, 10⟩
def Reg.CTL_WDOG_EN : Fld := ⟨Reg.CTL_WDOG, 16, 1⟩
/-- CTL.CMD, R393. -/
def Reg.CTL_CMD : Nat := 0x9044
def Reg.CTL_CMD_RESTART : Fld := ⟨Reg.CTL_CMD, 0, 1⟩
/-- CTL.STATE, R393. -/
def Reg.CTL_STATE : Nat := 0x9048
def Reg.CTL_STATE_STATE : Fld := ⟨Reg.CTL_STATE, 0, 2⟩
def Reg.CTL_STATE_CAUSE : Fld := ⟨Reg.CTL_STATE, 4, 2⟩
/-- CTL.RESTARTS, R393. -/
def Reg.CTL_RESTARTS : Nat := 0x904C
/-- CTL.MBOX_CMD, R393. -/
def Reg.CTL_MBOX_CMD : Nat := 0x9060
def Reg.CTL_MBOX_CMD_CODE : Fld := ⟨Reg.CTL_MBOX_CMD, 0, 8⟩
def Reg.CTL_MBOX_CMD_TAG : Fld := ⟨Reg.CTL_MBOX_CMD, 8, 8⟩
/-- CTL.ARG, R393. -/
def Reg.CTL_ARG (i : Nat) : Nat := 0x9064 + 4 * i
/-- CTL.RSP, R393. -/
def Reg.CTL_RSP : Nat := 0x9084
def Reg.CTL_RSP_STATUS : Fld := ⟨Reg.CTL_RSP, 0, 8⟩
def Reg.CTL_RSP_TAG : Fld := ⟨Reg.CTL_RSP, 8, 8⟩
def Reg.CTL_RSP_DONE : Fld := ⟨Reg.CTL_RSP, 16, 1⟩
def Reg.CTL_RSP_BUSY : Fld := ⟨Reg.CTL_RSP, 17, 1⟩
def Reg.CTL_RSP_OWNER : Fld := ⟨Reg.CTL_RSP, 18, 2⟩
/-- CTL.MBOX_REFUSED, R393. -/
def Reg.CTL_MBOX_REFUSED : Nat := 0x9088
/-- CTL.CNT_CLR, R393. -/
def Reg.CTL_CNT_CLR : Nat := 0x908C
/-- ISL.CFG, R89. -/
def Reg.ISL_CFG : Nat := 0x10040
def Reg.ISL_CFG_EN : Fld := ⟨Reg.ISL_CFG, 0, 1⟩
def Reg.ISL_CFG_LANES : Fld := ⟨Reg.ISL_CFG, 4, 3⟩
def Reg.ISL_CFG_RATE_MAX : Fld := ⟨Reg.ISL_CFG, 8, 3⟩
def Reg.ISL_CFG_INBAND_EN : Fld := ⟨Reg.ISL_CFG, 12, 1⟩
def Reg.ISL_CFG_HPD_LOW : Fld := ⟨Reg.ISL_CFG, 13, 1⟩
/-- ISL.CMD, R89. -/
def Reg.ISL_CMD : Nat := 0x10044
def Reg.ISL_CMD_RETRAIN : Fld := ⟨Reg.ISL_CMD, 0, 1⟩
def Reg.ISL_CMD_HPD_PULSE : Fld := ⟨Reg.ISL_CMD, 1, 1⟩
/-- ISL.LINK_STATE, R89. -/
def Reg.ISL_LINK_STATE : Nat := 0x10048
def Reg.ISL_LINK_STATE_STATE : Fld := ⟨Reg.ISL_LINK_STATE, 0, 4⟩
def Reg.ISL_LINK_STATE_LANES : Fld := ⟨Reg.ISL_LINK_STATE, 4, 3⟩
def Reg.ISL_LINK_STATE_RATE : Fld := ⟨Reg.ISL_LINK_STATE, 8, 3⟩
def Reg.ISL_LINK_STATE_RETRY : Fld := ⟨Reg.ISL_LINK_STATE, 12, 2⟩
/-- ISL.TRAIN_FAIL, R89. -/
def Reg.ISL_TRAIN_FAIL : Nat := 0x1004C
def Reg.ISL_TRAIN_FAIL_PHASE : Fld := ⟨Reg.ISL_TRAIN_FAIL, 0, 4⟩
def Reg.ISL_TRAIN_FAIL_REASON : Fld := ⟨Reg.ISL_TRAIN_FAIL, 8, 8⟩
def Reg.ISL_TRAIN_FAIL_FAILED : Fld := ⟨Reg.ISL_TRAIN_FAIL, 16, 16⟩
/-- ISL.EQ_CFG, R89. -/
def Reg.ISL_EQ_CFG : Nat := 0x10050
def Reg.ISL_EQ_CFG_PRESET_MASK : Fld := ⟨Reg.ISL_EQ_CFG, 0, 8⟩
def Reg.ISL_EQ_CFG_FAST_WAKE : Fld := ⟨Reg.ISL_EQ_CFG, 8, 1⟩
/-- ISL.PIP_FRAME, R89. -/
def Reg.ISL_PIP_FRAME : Nat := 0x10054
/-- ISL.PIP_PERIOD, R89. -/
def Reg.ISL_PIP_PERIOD : Nat := 0x10058
/-- ISL.PIP_FLAGS, R89. -/
def Reg.ISL_PIP_FLAGS : Nat := 0x1005C
/-- ISL.CRC_LINE, R89. -/
def Reg.ISL_CRC_LINE : Nat := 0x10060
/-- ISL.HDR_ERR, R89. -/
def Reg.ISL_HDR_ERR : Nat := 0x10064
/-- ISL.CTL_ERR, R89. -/
def Reg.ISL_CTL_ERR : Nat := 0x10068
/-- ISL.SEQ_ERR, R89. -/
def Reg.ISL_SEQ_ERR : Nat := 0x1006C
/-- ISL.MISSING, R89. -/
def Reg.ISL_MISSING : Nat := 0x10070
/-- ISL.FMT_ERR, R89. -/
def Reg.ISL_FMT_ERR : Nat := 0x10074
/-- ISL.ALIGN_ERR, R89. -/
def Reg.ISL_ALIGN_ERR : Nat := 0x10078
/-- ISL.TABLE_OK, R89. -/
def Reg.ISL_TABLE_OK : Nat := 0x1007C
/-- ISL.TABLE_NAK, R89. -/
def Reg.ISL_TABLE_NAK : Nat := 0x10080
/-- ISL.LINE_IN_SLEEP, R89. -/
def Reg.ISL_LINE_IN_SLEEP : Nat := 0x10084
/-- ISL.SLEEP_MIDFRAME, R89. -/
def Reg.ISL_SLEEP_MIDFRAME : Nat := 0x10088
/-- ISL.FAST_FAIL, R89. -/
def Reg.ISL_FAST_FAIL : Nat := 0x1008C
/-- ISL.ABSENT_CNT, R89. -/
def Reg.ISL_ABSENT_CNT : Nat := 0x10090
/-- ISL.CNT_CLR, R89. -/
def Reg.ISL_CNT_CLR : Nat := 0x10094
/-- ISL.META_STAT, R89. -/
def Reg.ISL_META_STAT : Nat := 0x10098
def Reg.ISL_META_STAT_OVF : Fld := ⟨Reg.ISL_META_STAT, 16, 16⟩
/-- ISL.META_FRAME, R89. -/
def Reg.ISL_META_FRAME : Nat := 0x1009C
/-- ISL.META_ENT0, R89. -/
def Reg.ISL_META_ENT0 : Nat := 0x100A0
/-- ISL.META_ENT1, R89. -/
def Reg.ISL_META_ENT1 : Nat := 0x100A4
/-- ISL.META_ENT2, R89. -/
def Reg.ISL_META_ENT2 : Nat := 0x100A8
/-- ISL.META_POP, R89. -/
def Reg.ISL_META_POP : Nat := 0x100AC
/-- ISL_LANE.LSTAT, R91. -/
def Reg.ISL_LANE_LSTAT (n : Nat) : Nat := (0x11 + n) * 0x1000 + 0x40
def Reg.ISL_LANE_LSTAT_SKEW (n : Nat) : Fld := ⟨Reg.ISL_LANE_LSTAT n, 0, 9⟩
def Reg.ISL_LANE_LSTAT_PRESET (n : Nat) : Fld := ⟨Reg.ISL_LANE_LSTAT n, 16, 3⟩
/-- ISL_LANE.CTL_CRC_CNT, R91. -/
def Reg.ISL_LANE_CTL_CRC_CNT (n : Nat) : Nat := (0x11 + n) * 0x1000 + 0x44
/-- ISL_LANE.CNT_CLR, R91. -/
def Reg.ISL_LANE_CNT_CLR (n : Nat) : Nat := (0x11 + n) * 0x1000 + 0x48
/-- ISL_BC.BC_STAT, R92. -/
def Reg.ISL_BC_BC_STAT : Nat := 0x21040
def Reg.ISL_BC_BC_STAT_RX_UP : Fld := ⟨Reg.ISL_BC_BC_STAT, 0, 1⟩
def Reg.ISL_BC_BC_STAT_TX_UP : Fld := ⟨Reg.ISL_BC_BC_STAT, 1, 1⟩
def Reg.ISL_BC_BC_STAT_REQ_PENDING : Fld := ⟨Reg.ISL_BC_BC_STAT, 2, 1⟩
/-- ISL_BC.EVENT_EN, R92. -/
def Reg.ISL_BC_EVENT_EN : Nat := 0x21044
/-- ISL_BC.RX_FRAMES, R92. -/
def Reg.ISL_BC_RX_FRAMES : Nat := 0x21048
/-- ISL_BC.RX_CRC_ERR, R92. -/
def Reg.ISL_BC_RX_CRC_ERR : Nat := 0x2104C
/-- ISL_BC.BUSY_CNT, R92. -/
def Reg.ISL_BC_BUSY_CNT : Nat := 0x21050
/-- ISL_BC.DENIED_CNT, R92. -/
def Reg.ISL_BC_DENIED_CNT : Nat := 0x21054
/-- ISL_BC.EVENTS_SENT, R92. -/
def Reg.ISL_BC_EVENTS_SENT : Nat := 0x21058
/-- ISL_BC.BC_LOSS, R92. -/
def Reg.ISL_BC_BC_LOSS : Nat := 0x2105C
/-- ISL_BC.CNT_CLR, R92. -/
def Reg.ISL_BC_CNT_CLR : Nat := 0x21060
/-- TIMING.CFG, R114. -/
def Reg.TIMING_CFG : Nat := 0x30040
def Reg.TIMING_CFG_SRC_SEL : Fld := ⟨Reg.TIMING_CFG, 0, 2⟩
def Reg.TIMING_CFG_REPEAT : Fld := ⟨Reg.TIMING_CFG, 4, 3⟩
def Reg.TIMING_CFG_VRR_EN : Fld := ⟨Reg.TIMING_CFG, 8, 1⟩
/-- TIMING.LINE_PERIOD, R114. -/
def Reg.TIMING_LINE_PERIOD : Nat := 0x30044
/-- TIMING.HTIMING, R114. -/
def Reg.TIMING_HTIMING : Nat := 0x30048
def Reg.TIMING_HTIMING_HACTIVE : Fld := ⟨Reg.TIMING_HTIMING, 0, 13⟩
def Reg.TIMING_HTIMING_HTOTAL : Fld := ⟨Reg.TIMING_HTIMING, 16, 13⟩
/-- TIMING.VTIMING, R114. -/
def Reg.TIMING_VTIMING : Nat := 0x3004C
def Reg.TIMING_VTIMING_VACTIVE : Fld := ⟨Reg.TIMING_VTIMING, 0, 13⟩
def Reg.TIMING_VTIMING_VBLANK_MIN : Fld := ⟨Reg.TIMING_VTIMING, 16, 13⟩
/-- TIMING.PERIOD_MIN, R114. -/
def Reg.TIMING_PERIOD_MIN : Nat := 0x30050
/-- TIMING.PERIOD_MAX, R114. -/
def Reg.TIMING_PERIOD_MAX : Nat := 0x30054
/-- TIMING.FREE_PERIOD, R114. -/
def Reg.TIMING_FREE_PERIOD : Nat := 0x30058
/-- TIMING.BFI, R114. -/
def Reg.TIMING_BFI : Nat := 0x3005C
def Reg.TIMING_BFI_MODE : Fld := ⟨Reg.TIMING_BFI, 0, 2⟩
def Reg.TIMING_BFI_DUTY : Fld := ⟨Reg.TIMING_BFI, 8, 6⟩
/-- TIMING.FRAME_NO, R114. -/
def Reg.TIMING_FRAME_NO : Nat := 0x30060
/-- TIMING.SHOWN_SRC, R114. -/
def Reg.TIMING_SHOWN_SRC : Nat := 0x30064
/-- TIMING.PERIOD_CUR, R114. -/
def Reg.TIMING_PERIOD_CUR : Nat := 0x30068
/-- TIMING.PHASE_ERR, R114. -/
def Reg.TIMING_PHASE_ERR : Nat := 0x3006C
/-- TIMING.LAT_BOUND_NS, R114. -/
def Reg.TIMING_LAT_BOUND_NS : Nat := 0x30070
/-- TIMING.MARGIN_MIN, R114. -/
def Reg.TIMING_MARGIN_MIN : Nat := 0x30074
/-- TIMING.K_CUR, R114. -/
def Reg.TIMING_K_CUR : Nat := 0x30078
def Reg.TIMING_K_CUR_K : Fld := ⟨Reg.TIMING_K_CUR, 0, 8⟩
def Reg.TIMING_K_CUR_SHOWING : Fld := ⟨Reg.TIMING_K_CUR, 8, 8⟩
/-- TIMING.EARLY_LINES, R114. -/
def Reg.TIMING_EARLY_LINES : Nat := 0x30080
/-- TIMING.SHORT_CNT, R114. -/
def Reg.TIMING_SHORT_CNT : Nat := 0x30084
/-- TIMING.LATE_PIP, R114. -/
def Reg.TIMING_LATE_PIP : Nat := 0x30088
/-- TIMING.HOLD_INSERT, R114. -/
def Reg.TIMING_HOLD_INSERT : Nat := 0x3008C
/-- TIMING.REPEAT_CUT, R114. -/
def Reg.TIMING_REPEAT_CUT : Nat := 0x30090
/-- TIMING.VRR_ERR, R114. -/
def Reg.TIMING_VRR_ERR : Nat := 0x30094
/-- TIMING.LOCK_LOSS, R114. -/
def Reg.TIMING_LOCK_LOSS : Nat := 0x30098
/-- TIMING.CNT_CLR, R114. -/
def Reg.TIMING_CNT_CLR : Nat := 0x3009C
def Reg.TIMING_STATUS_LOCK : Fld := ⟨0x3000C, 0, 1⟩
def Reg.TIMING_STATUS_MODE : Fld := ⟨0x3000C, 1, 3⟩
/-- GENLOCK.CFG, R115. -/
def Reg.GENLOCK_CFG : Nat := 0x31040
def Reg.GENLOCK_CFG_VEDGE : Fld := ⟨Reg.GENLOCK_CFG, 0, 1⟩
def Reg.GENLOCK_CFG_HEDGE : Fld := ⟨Reg.GENLOCK_CFG, 1, 1⟩
def Reg.GENLOCK_CFG_HQUAL : Fld := ⟨Reg.GENLOCK_CFG, 2, 1⟩
/-- GENLOCK.OFFSET, R115. -/
def Reg.GENLOCK_OFFSET : Nat := 0x31044
/-- GENLOCK.VREF_PERIOD, R115. -/
def Reg.GENLOCK_VREF_PERIOD : Nat := 0x31048
/-- GENLOCK.HREF_COUNT, R115. -/
def Reg.GENLOCK_HREF_COUNT : Nat := 0x3104C
/-- GENLOCK.PIP_PHASE, R115. -/
def Reg.GENLOCK_PIP_PHASE : Nat := 0x31050
/-- GENLOCK.LOSS_CNT, R115. -/
def Reg.GENLOCK_LOSS_CNT : Nat := 0x31054
/-- GENLOCK.CNT_CLR, R115. -/
def Reg.GENLOCK_CNT_CLR : Nat := 0x31058
def Reg.GENLOCK_STATUS_VREF_OK : Fld := ⟨0x3100C, 0, 1⟩
def Reg.GENLOCK_STATUS_HREF_OK : Fld := ⟨0x3100C, 1, 1⟩
/-- SREF.CFG, R116. -/
def Reg.SREF_CFG : Nat := 0x32040
def Reg.SREF_CFG_AUTO_EXIT : Fld := ⟨Reg.SREF_CFG, 0, 1⟩
def Reg.SREF_CFG_HOLD_SEL : Fld := ⟨Reg.SREF_CFG, 1, 1⟩
def Reg.SREF_CFG_RET_BETWEEN : Fld := ⟨Reg.SREF_CFG, 2, 1⟩
def Reg.SREF_CFG_SLEW : Fld := ⟨Reg.SREF_CFG, 4, 4⟩
/-- SREF.CMD, R116. -/
def Reg.SREF_CMD : Nat := 0x32044
def Reg.SREF_CMD_ENTER : Fld := ⟨Reg.SREF_CMD, 0, 1⟩
def Reg.SREF_CMD_EXIT : Fld := ⟨Reg.SREF_CMD, 1, 1⟩
def Reg.SREF_CMD_RELEASE : Fld := ⟨Reg.SREF_CMD, 2, 1⟩
/-- SREF.HOLD_PERIOD, R116. -/
def Reg.SREF_HOLD_PERIOD : Nat := 0x32048
/-- SREF.STATE, R116. -/
def Reg.SREF_STATE : Nat := 0x3204C
def Reg.SREF_STATE_STATE : Fld := ⟨Reg.SREF_STATE, 0, 3⟩
def Reg.SREF_STATE_REASON : Fld := ⟨Reg.SREF_STATE, 8, 4⟩
/-- SREF.SLOT, R116. -/
def Reg.SREF_SLOT : Nat := 0x32050
/-- SREF.SLOT_FRAME, R116. -/
def Reg.SREF_SLOT_FRAME : Nat := 0x32054
/-- SREF.HOLD_MEAS, R116. -/
def Reg.SREF_HOLD_MEAS : Nat := 0x32058
/-- SREF.TRIM_PPB, R116. -/
def Reg.SREF_TRIM_PPB : Nat := 0x3205C
/-- SREF.ENTRIES, R116. -/
def Reg.SREF_ENTRIES : Nat := 0x32060
/-- SREF.DISCARDED_FRAMES, R116. -/
def Reg.SREF_DISCARDED_FRAMES : Nat := 0x32064
/-- SREF.DISCARDED_LINES, R116. -/
def Reg.SREF_DISCARDED_LINES : Nat := 0x32068
/-- SREF.SLEW_FRAMES, R116. -/
def Reg.SREF_SLEW_FRAMES : Nat := 0x3206C
/-- SREF.RET_MISS, R116. -/
def Reg.SREF_RET_MISS : Nat := 0x32070
/-- SREF.EXIT_IGNORED, R116. -/
def Reg.SREF_EXIT_IGNORED : Nat := 0x32074
/-- SREF.CNT_CLR, R116. -/
def Reg.SREF_CNT_CLR : Nat := 0x32078
/-- INPUT.FMT, R133. -/
def Reg.INPUT_FMT : Nat := 0x40040
def Reg.INPUT_FMT_FORMAT : Fld := ⟨Reg.INPUT_FMT, 0, 3⟩
/-- INPUT.EOTF_CFG, R133. -/
def Reg.INPUT_EOTF_CFG : Nat := 0x40044
def Reg.INPUT_EOTF_CFG_BANK : Fld := ⟨Reg.INPUT_EOTF_CFG, 0, 1⟩
/-- INPUT.LUT_CTRL, R133. -/
def Reg.INPUT_LUT_CTRL : Nat := 0x40048
def Reg.INPUT_LUT_CTRL_PRESET : Fld := ⟨Reg.INPUT_LUT_CTRL, 0, 3⟩
def Reg.INPUT_LUT_CTRL_LOAD : Fld := ⟨Reg.INPUT_LUT_CTRL, 8, 1⟩
/-- INPUT.LUT_ADDR, R133. -/
def Reg.INPUT_LUT_ADDR : Nat := 0x4004C
def Reg.INPUT_LUT_ADDR_INDEX : Fld := ⟨Reg.INPUT_LUT_ADDR, 0, 13⟩
def Reg.INPUT_LUT_ADDR_CH : Fld := ⟨Reg.INPUT_LUT_ADDR, 16, 2⟩
/-- INPUT.LUT_DATA, R133. -/
def Reg.INPUT_LUT_DATA : Nat := 0x40050
/-- INPUT.LUT_STATUS, R133. -/
def Reg.INPUT_LUT_STATUS : Nat := 0x40054
def Reg.INPUT_LUT_STATUS_BUSY : Fld := ⟨Reg.INPUT_LUT_STATUS, 0, 1⟩
def Reg.INPUT_LUT_STATUS_FAILED : Fld := ⟨Reg.INPUT_LUT_STATUS, 1, 1⟩
def Reg.INPUT_LUT_STATUS_SWITCH_PENDING : Fld := ⟨Reg.INPUT_LUT_STATUS, 2, 1⟩
/-- INPUT.PRESET_PARAM, R133. -/
def Reg.INPUT_PRESET_PARAM : Nat := 0x40058
def Reg.INPUT_PRESET_PARAM_PEAK_NITS : Fld := ⟨Reg.INPUT_PRESET_PARAM, 0, 16⟩
def Reg.INPUT_PRESET_PARAM_BLACK : Fld := ⟨Reg.INPUT_PRESET_PARAM, 16, 16⟩
/-- INPUT.MAT0, R133. -/
def Reg.INPUT_MAT0 : Nat := 0x40060
def Reg.INPUT_MAT0_m_rr : Fld := ⟨Reg.INPUT_MAT0, 0, 16⟩
def Reg.INPUT_MAT0_m_rg : Fld := ⟨Reg.INPUT_MAT0, 16, 16⟩
/-- INPUT.MAT1, R133. -/
def Reg.INPUT_MAT1 : Nat := 0x40064
def Reg.INPUT_MAT1_m_rb : Fld := ⟨Reg.INPUT_MAT1, 0, 16⟩
def Reg.INPUT_MAT1_o_r : Fld := ⟨Reg.INPUT_MAT1, 16, 16⟩
/-- INPUT.MAT2, R133. -/
def Reg.INPUT_MAT2 : Nat := 0x40068
def Reg.INPUT_MAT2_m_gr : Fld := ⟨Reg.INPUT_MAT2, 0, 16⟩
def Reg.INPUT_MAT2_m_gg : Fld := ⟨Reg.INPUT_MAT2, 16, 16⟩
/-- INPUT.MAT3, R133. -/
def Reg.INPUT_MAT3 : Nat := 0x4006C
def Reg.INPUT_MAT3_m_gb : Fld := ⟨Reg.INPUT_MAT3, 0, 16⟩
def Reg.INPUT_MAT3_o_g : Fld := ⟨Reg.INPUT_MAT3, 16, 16⟩
/-- INPUT.MAT4, R133. -/
def Reg.INPUT_MAT4 : Nat := 0x40070
def Reg.INPUT_MAT4_m_br : Fld := ⟨Reg.INPUT_MAT4, 0, 16⟩
def Reg.INPUT_MAT4_m_bg : Fld := ⟨Reg.INPUT_MAT4, 16, 16⟩
/-- INPUT.MAT5, R133. -/
def Reg.INPUT_MAT5 : Nat := 0x40074
def Reg.INPUT_MAT5_m_bb : Fld := ⟨Reg.INPUT_MAT5, 0, 16⟩
def Reg.INPUT_MAT5_o_b : Fld := ⟨Reg.INPUT_MAT5, 16, 16⟩
/-- INPUT.HEADROOM, R133. -/
def Reg.INPUT_HEADROOM : Nat := 0x40078
/-- INPUT.HEM, R133. -/
def Reg.INPUT_HEM : Nat := 0x4007C
def Reg.INPUT_HEM_MODE : Fld := ⟨Reg.INPUT_HEM, 0, 2⟩
/-- INPUT.CLAMP_NEG, R133. -/
def Reg.INPUT_CLAMP_NEG : Nat := 0x40090
/-- INPUT.CLAMP_HI, R133. -/
def Reg.INPUT_CLAMP_HI : Nat := 0x40094
/-- INPUT.NAN_CNT, R133. -/
def Reg.INPUT_NAN_CNT : Nat := 0x40098
/-- INPUT.LUT_BUSY_CNT, R133. -/
def Reg.INPUT_LUT_BUSY_CNT : Nat := 0x4009C
/-- INPUT.CNT_CLR, R133. -/
def Reg.INPUT_CNT_CLR : Nat := 0x400A0
/-- STATS.CFG, R134. -/
def Reg.STATS_CFG : Nat := 0x41040
def Reg.STATS_CFG_PCT : Fld := ⟨Reg.STATS_CFG, 0, 8⟩
def Reg.STATS_CFG_FRAC : Fld := ⟨Reg.STATS_CFG, 16, 16⟩
/-- STATS.CAPTURE, R134. -/
def Reg.STATS_CAPTURE : Nat := 0x41044
def Reg.STATS_CAPTURE_ZONE : Fld := ⟨Reg.STATS_CAPTURE, 0, 14⟩
def Reg.STATS_CAPTURE_EN : Fld := ⟨Reg.STATS_CAPTURE, 16, 1⟩
/-- STATS.CAP_STATUS, R134. -/
def Reg.STATS_CAP_STATUS : Nat := 0x41048
def Reg.STATS_CAP_STATUS_VALID : Fld := ⟨Reg.STATS_CAP_STATUS, 0, 1⟩
/-- STATS.CAP_FRAME, R134. -/
def Reg.STATS_CAP_FRAME : Nat := 0x4104C
/-- STATS.CAP_HIST, R134. -/
def Reg.STATS_CAP_HIST (i : Nat) : Nat := 0x41050 + 4 * i
/-- STATS.CAP_REC, R134. -/
def Reg.STATS_CAP_REC : Nat := 0x41090
def Reg.STATS_CAP_REC_y_max : Fld := ⟨Reg.STATS_CAP_REC, 16, 16⟩
/-- STATS.RB_ADDR, R134. -/
def Reg.STATS_RB_ADDR : Nat := 0x41094
/-- STATS.RB_DATA, R134. -/
def Reg.STATS_RB_DATA : Nat := 0x41098
def Reg.STATS_RB_DATA_y_max : Fld := ⟨Reg.STATS_RB_DATA, 16, 16⟩
/-- STATS.RB_FRAME, R134. -/
def Reg.STATS_RB_FRAME : Nat := 0x4109C
/-- STATS.STALE_ZONES, R134. -/
def Reg.STATS_STALE_ZONES : Nat := 0x410A0
/-- STATS.CNT_CLR, R134. -/
def Reg.STATS_CNT_CLR : Nat := 0x410A4
/-- CODEC.CFG, R160. -/
def Reg.CODEC_CFG : Nat := 0x42040
def Reg.CODEC_CFG_PARTIAL_EN : Fld := ⟨Reg.CODEC_CFG, 0, 1⟩
def Reg.CODEC_CFG_MATCH_EN : Fld := ⟨Reg.CODEC_CFG, 1, 1⟩
/-- CODEC.SLOT0, R160. -/
def Reg.CODEC_SLOT0 : Nat := 0x42044
def Reg.CODEC_SLOT0_HANDLE : Fld := ⟨Reg.CODEC_SLOT0, 0, 6⟩
def Reg.CODEC_SLOT0_EN : Fld := ⟨Reg.CODEC_SLOT0, 8, 1⟩
/-- CODEC.SLOT1, R160. -/
def Reg.CODEC_SLOT1 : Nat := 0x42048
def Reg.CODEC_SLOT1_HANDLE : Fld := ⟨Reg.CODEC_SLOT1, 0, 6⟩
def Reg.CODEC_SLOT1_EN : Fld := ⟨Reg.CODEC_SLOT1, 8, 1⟩
/-- CODEC.SLOT2, R160. -/
def Reg.CODEC_SLOT2 : Nat := 0x4204C
def Reg.CODEC_SLOT2_HANDLE : Fld := ⟨Reg.CODEC_SLOT2, 0, 6⟩
def Reg.CODEC_SLOT2_EN : Fld := ⟨Reg.CODEC_SLOT2, 8, 1⟩
/-- CODEC.GEOM, R160. -/
def Reg.CODEC_GEOM : Nat := 0x42050
def Reg.CODEC_GEOM_B : Fld := ⟨Reg.CODEC_GEOM, 0, 8⟩
def Reg.CODEC_GEOM_LP : Fld := ⟨Reg.CODEC_GEOM, 8, 8⟩
def Reg.CODEC_GEOM_IP : Fld := ⟨Reg.CODEC_GEOM, 16, 4⟩
/-- CODEC.SLOT_BYTES, R160. -/
def Reg.CODEC_SLOT_BYTES : Nat := 0x42054
/-- CODEC.RING, R160. -/
def Reg.CODEC_RING : Nat := 0x42058
def Reg.CODEC_RING_WRITE : Fld := ⟨Reg.CODEC_RING, 0, 2⟩
def Reg.CODEC_RING_NEWEST : Fld := ⟨Reg.CODEC_RING, 4, 2⟩
def Reg.CODEC_RING_SHOWN : Fld := ⟨Reg.CODEC_RING, 8, 2⟩
def Reg.CODEC_RING_WRITING : Fld := ⟨Reg.CODEC_RING, 12, 1⟩
def Reg.CODEC_RING_NEWEST_VALID : Fld := ⟨Reg.CODEC_RING, 13, 1⟩
/-- CODEC.SLOT_STATE, R160. -/
def Reg.CODEC_SLOT_STATE : Nat := 0x4205C
def Reg.CODEC_SLOT_STATE_FS0 : Fld := ⟨Reg.CODEC_SLOT_STATE, 0, 2⟩
def Reg.CODEC_SLOT_STATE_FS1 : Fld := ⟨Reg.CODEC_SLOT_STATE, 4, 2⟩
def Reg.CODEC_SLOT_STATE_FS2 : Fld := ⟨Reg.CODEC_SLOT_STATE, 8, 2⟩
/-- CODEC.SLOT_FRAME0, R160. -/
def Reg.CODEC_SLOT_FRAME0 : Nat := 0x42060
/-- CODEC.SLOT_FRAME1, R160. -/
def Reg.CODEC_SLOT_FRAME1 : Nat := 0x42064
/-- CODEC.SLOT_FRAME2, R160. -/
def Reg.CODEC_SLOT_FRAME2 : Nat := 0x42068
/-- CODEC.LAST_BYTES, R160. -/
def Reg.CODEC_LAST_BYTES : Nat := 0x4206C
/-- CODEC.BLK_COPY, R160. -/
def Reg.CODEC_BLK_COPY : Nat := 0x42080
/-- CODEC.BLK_FLAT, R160. -/
def Reg.CODEC_BLK_FLAT : Nat := 0x42084
/-- CODEC.BLK_PRED, R160. -/
def Reg.CODEC_BLK_PRED : Nat := 0x42088
/-- CODEC.BLK_RAW, R160. -/
def Reg.CODEC_BLK_RAW : Nat := 0x4208C
/-- CODEC.RAW_FALLBACK, R160. -/
def Reg.CODEC_RAW_FALLBACK : Nat := 0x42090
/-- CODEC.RECODE, R160. -/
def Reg.CODEC_RECODE : Nat := 0x42094
/-- CODEC.SUB_LINES, R160. -/
def Reg.CODEC_SUB_LINES : Nat := 0x42098
/-- CODEC.HOLE_LINES, R160. -/
def Reg.CODEC_HOLE_LINES : Nat := 0x4209C
/-- CODEC.ABANDONED, R160. -/
def Reg.CODEC_ABANDONED : Nat := 0x420A0
/-- CODEC.INCOMPLETE, R160. -/
def Reg.CODEC_INCOMPLETE : Nat := 0x420A4
/-- CODEC.REGION_OFF, R160. -/
def Reg.CODEC_REGION_OFF : Nat := 0x420A8
/-- CODEC.ARRIVAL_DROP, R160. -/
def Reg.CODEC_ARRIVAL_DROP : Nat := 0x420AC
/-- CODEC.DEC_ERR, R160. -/
def Reg.CODEC_DEC_ERR : Nat := 0x420B0
/-- CODEC.CNT_CLR, R160. -/
def Reg.CODEC_CNT_CLR : Nat := 0x420B4
/-- CODEC.RB_SEL, R160. -/
def Reg.CODEC_RB_SEL : Nat := 0x420C0
def Reg.CODEC_RB_SEL_SLOT : Fld := ⟨Reg.CODEC_RB_SEL, 0, 2⟩
def Reg.CODEC_RB_SEL_LINE : Fld := ⟨Reg.CODEC_RB_SEL, 16, 13⟩
/-- CODEC.RB_X, R160. -/
def Reg.CODEC_RB_X : Nat := 0x420C4
/-- CODEC.RB_STATUS, R160. -/
def Reg.CODEC_RB_STATUS : Nat := 0x420C8
def Reg.CODEC_RB_STATUS_BUSY : Fld := ⟨Reg.CODEC_RB_STATUS, 0, 1⟩
def Reg.CODEC_RB_STATUS_READY : Fld := ⟨Reg.CODEC_RB_STATUS, 1, 1⟩
def Reg.CODEC_RB_STATUS_STALE : Fld := ⟨Reg.CODEC_RB_STATUS, 2, 1⟩
def Reg.CODEC_RB_STATUS_ERR : Fld := ⟨Reg.CODEC_RB_STATUS, 3, 1⟩
/-- CODEC.RB_DATA0, R160. -/
def Reg.CODEC_RB_DATA0 : Nat := 0x420CC
def Reg.CODEC_RB_DATA0_R : Fld := ⟨Reg.CODEC_RB_DATA0, 0, 16⟩
def Reg.CODEC_RB_DATA0_G : Fld := ⟨Reg.CODEC_RB_DATA0, 16, 16⟩
/-- CODEC.RB_DATA1, R160. -/
def Reg.CODEC_RB_DATA1 : Nat := 0x420D0
def Reg.CODEC_RB_DATA1_B : Fld := ⟨Reg.CODEC_RB_DATA1, 0, 16⟩
/-- ZONE.GRID, R186. -/
def Reg.ZONE_GRID : Nat := 0x50040
def Reg.ZONE_GRID_COLS : Fld := ⟨Reg.ZONE_GRID, 0, 8⟩
def Reg.ZONE_GRID_ROWS : Fld := ⟨Reg.ZONE_GRID, 8, 8⟩
/-- ZONE.LOOKAHEAD_ZROWS, R186. -/
def Reg.ZONE_LOOKAHEAD_ZROWS : Nat := 0x50044
/-- ZONE.L_MIN, R186. -/
def Reg.ZONE_L_MIN : Nat := 0x50048
/-- ZONE.RATE, R186. -/
def Reg.ZONE_RATE : Nat := 0x5004C
def Reg.ZONE_RATE_RISE : Fld := ⟨Reg.ZONE_RATE, 0, 16⟩
def Reg.ZONE_RATE_FALL : Fld := ⟨Reg.ZONE_RATE, 16, 16⟩
/-- ZONE.PCAP, R186. -/
def Reg.ZONE_PCAP : Nat := 0x50050
/-- ZONE.PCAP_SAFE, R186. -/
def Reg.ZONE_PCAP_SAFE : Nat := 0x50054
/-- ZONE.SCAN, R186. -/
def Reg.ZONE_SCAN : Nat := 0x50058
def Reg.ZONE_SCAN_SETTLE_LINES : Fld := ⟨Reg.ZONE_SCAN, 0, 12⟩
/-- ZONE.AGE_CFG, R186. -/
def Reg.ZONE_AGE_CFG : Nat := 0x5005C
def Reg.ZONE_AGE_CFG_SRC : Fld := ⟨Reg.ZONE_AGE_CFG, 0, 1⟩
def Reg.ZONE_AGE_CFG_G_MAX : Fld := ⟨Reg.ZONE_AGE_CFG, 16, 16⟩
/-- ZONE.AGE_K, R186. -/
def Reg.ZONE_AGE_K : Nat := 0x50060
/-- ZONE.AG_ADDR, R186. -/
def Reg.ZONE_AG_ADDR : Nat := 0x50064
/-- ZONE.AG_DATA, R186. -/
def Reg.ZONE_AG_DATA : Nat := 0x50068
/-- ZONE.AG_COMMIT, R186. -/
def Reg.ZONE_AG_COMMIT : Nat := 0x5006C
def Reg.ZONE_AG_COMMIT_COMMIT : Fld := ⟨Reg.ZONE_AG_COMMIT, 0, 1⟩
/-- ZONE.CLASS_ADDR, R186. -/
def Reg.ZONE_CLASS_ADDR : Nat := 0x50070
/-- ZONE.CLASS_DATA, R186. -/
def Reg.ZONE_CLASS_DATA : Nat := 0x50074
def Reg.ZONE_CLASS_DATA_C0 : Fld := ⟨Reg.ZONE_CLASS_DATA, 0, 3⟩
def Reg.ZONE_CLASS_DATA_C1 : Fld := ⟨Reg.ZONE_CLASS_DATA, 4, 3⟩
def Reg.ZONE_CLASS_DATA_C2 : Fld := ⟨Reg.ZONE_CLASS_DATA, 8, 3⟩
def Reg.ZONE_CLASS_DATA_C3 : Fld := ⟨Reg.ZONE_CLASS_DATA, 12, 3⟩
def Reg.ZONE_CLASS_DATA_C4 : Fld := ⟨Reg.ZONE_CLASS_DATA, 16, 3⟩
def Reg.ZONE_CLASS_DATA_C5 : Fld := ⟨Reg.ZONE_CLASS_DATA, 20, 3⟩
def Reg.ZONE_CLASS_DATA_C6 : Fld := ⟨Reg.ZONE_CLASS_DATA, 24, 3⟩
def Reg.ZONE_CLASS_DATA_C7 : Fld := ⟨Reg.ZONE_CLASS_DATA, 28, 3⟩
/-- ZONE.LV_ADDR, R186. -/
def Reg.ZONE_LV_ADDR : Nat := 0x50078
/-- ZONE.LV_DATA, R186. -/
def Reg.ZONE_LV_DATA : Nat := 0x5007C
def Reg.ZONE_LV_DATA_LAMBDA : Fld := ⟨Reg.ZONE_LV_DATA, 0, 16⟩
def Reg.ZONE_LV_DATA_DELTA : Fld := ⟨Reg.ZONE_LV_DATA, 16, 16⟩
/-- ZONE.LV_FRAME, R186. -/
def Reg.ZONE_LV_FRAME : Nat := 0x50080
/-- ZONE.CAP_STATE, R186. -/
def Reg.ZONE_CAP_STATE : Nat := 0x50084
def Reg.ZONE_CAP_STATE_C : Fld := ⟨Reg.ZONE_CAP_STATE, 0, 16⟩
def Reg.ZONE_CAP_STATE_P_prev : Fld := ⟨Reg.ZONE_CAP_STATE, 16, 16⟩
/-- ZONE.CAP_FRAMES, R186. -/
def Reg.ZONE_CAP_FRAMES : Nat := 0x50090
/-- ZONE.RATE_LIM, R186. -/
def Reg.ZONE_RATE_LIM : Nat := 0x50094
/-- ZONE.CLAMP_HI, R186. -/
def Reg.ZONE_CLAMP_HI : Nat := 0x50098
/-- ZONE.AG_DROP, R186. -/
def Reg.ZONE_AG_DROP : Nat := 0x5009C
/-- ZONE.GEOM_FRAMES, R186. -/
def Reg.ZONE_GEOM_FRAMES : Nat := 0x500A0
/-- ZONE.CNT_CLR, R186. -/
def Reg.ZONE_CNT_CLR : Nat := 0x500A4
/-- ZONE.COLB, R186. -/
def Reg.ZONE_COLB (i : Nat) : Nat := 0x50200 + 4 * i
/-- ZONE.ROWB, R186. -/
def Reg.ZONE_ROWB (i : Nat) : Nat := 0x50600 + 4 * i
def Reg.ZONE_STATUS_GLOBAL : Fld := ⟨0x5000C, 0, 1⟩
def Reg.ZONE_STATUS_AG_PENDING : Fld := ⟨0x5000C, 1, 1⟩
def Reg.ZONE_STATUS_EXACT : Fld := ⟨0x5000C, 2, 1⟩
def Reg.ZONE_STATUS_GEOM_HOLD : Fld := ⟨0x5000C, 3, 1⟩
/-- PSF.CFG, R187. -/
def Reg.PSF_CFG : Nat := 0x51040
def Reg.PSF_CFG_BANK : Fld := ⟨Reg.PSF_CFG, 0, 1⟩
/-- PSF.ADDR, R187. -/
def Reg.PSF_ADDR : Nat := 0x51044
def Reg.PSF_ADDR_INDEX : Fld := ⟨Reg.PSF_ADDR, 0, 12⟩
def Reg.PSF_ADDR_CLASS : Fld := ⟨Reg.PSF_ADDR, 16, 3⟩
/-- PSF.DATA, R187. -/
def Reg.PSF_DATA : Nat := 0x51048
/-- PSF.CALC, R187. -/
def Reg.PSF_CALC : Nat := 0x5104C
/-- PSF.BUSY_CNT, R187. -/
def Reg.PSF_BUSY_CNT : Nat := 0x51050
/-- PSF.CNT_CLR, R187. -/
def Reg.PSF_CNT_CLR : Nat := 0x51054
/-- PSF.ACT_INFO, R187. -/
def Reg.PSF_ACT_INFO (i : Nat) : Nat := 0x51060 + 4 * i
def Reg.PSF_ACT_INFO_PEAK (i : Nat) : Fld := ⟨Reg.PSF_ACT_INFO i, 0, 16⟩
def Reg.PSF_ACT_INFO_VREACH (i : Nat) : Fld := ⟨Reg.PSF_ACT_INFO i, 16, 4⟩
def Reg.PSF_ACT_INFO_CENTRE_ZERO (i : Nat) : Fld := ⟨Reg.PSF_ACT_INFO i, 24, 1⟩
/-- PSF.LOAD_INFO, R187. -/
def Reg.PSF_LOAD_INFO (i : Nat) : Nat := 0x51080 + 4 * i
def Reg.PSF_LOAD_INFO_PEAK (i : Nat) : Fld := ⟨Reg.PSF_LOAD_INFO i, 0, 16⟩
def Reg.PSF_LOAD_INFO_VREACH (i : Nat) : Fld := ⟨Reg.PSF_LOAD_INFO i, 16, 4⟩
def Reg.PSF_LOAD_INFO_CENTRE_ZERO (i : Nat) : Fld := ⟨Reg.PSF_LOAD_INFO i, 24, 1⟩
def Reg.PSF_STATUS_SWITCH_PENDING : Fld := ⟨0x5100C, 0, 1⟩
def Reg.PSF_STATUS_CALC_BUSY : Fld := ⟨0x5100C, 1, 1⟩
/-- FIELD.CFG, R188. -/
def Reg.FIELD_CFG : Nat := 0x52040
def Reg.FIELD_CFG_SPILL_EN : Fld := ⟨Reg.FIELD_CFG, 0, 1⟩
def Reg.FIELD_CFG_SPILL_HANDLE : Fld := ⟨Reg.FIELD_CFG, 8, 6⟩
/-- FIELD.GRID_DIM, R188. -/
def Reg.FIELD_GRID_DIM : Nat := 0x52044
def Reg.FIELD_GRID_DIM_GX : Fld := ⟨Reg.FIELD_GRID_DIM, 0, 10⟩
def Reg.FIELD_GRID_DIM_GY : Fld := ⟨Reg.FIELD_GRID_DIM, 16, 10⟩
/-- FIELD.PROBE, R188. -/
def Reg.FIELD_PROBE : Nat := 0x52048
def Reg.FIELD_PROBE_X : Fld := ⟨Reg.FIELD_PROBE, 0, 13⟩
def Reg.FIELD_PROBE_Y : Fld := ⟨Reg.FIELD_PROBE, 16, 13⟩
/-- FIELD.PROBE_B, R188. -/
def Reg.FIELD_PROBE_B : Nat := 0x5204C
/-- FIELD.PROBE_FRAME, R188. -/
def Reg.FIELD_PROBE_FRAME : Nat := 0x52050
/-- FIELD.SPILL_FRAME, R188. -/
def Reg.FIELD_SPILL_FRAME : Nat := 0x52054
/-- FIELD.STALE_ROWS, R188. -/
def Reg.FIELD_STALE_ROWS : Nat := 0x52058
/-- FIELD.CLAMP_CNT, R188. -/
def Reg.FIELD_CLAMP_CNT : Nat := 0x5205C
/-- FIELD.CNT_CLR, R188. -/
def Reg.FIELD_CNT_CLR : Nat := 0x52060
def Reg.FIELD_STATUS_SPILL_BUSY : Fld := ⟨0x5200C, 0, 1⟩
/-- SPLIT.CFG, R208. -/
def Reg.SPLIT_CFG : Nat := 0x53040
def Reg.SPLIT_CFG_DUAL : Fld := ⟨Reg.SPLIT_CFG, 0, 1⟩
def Reg.SPLIT_CFG_MONO_HALF : Fld := ⟨Reg.SPLIT_CFG, 1, 1⟩
def Reg.SPLIT_CFG_S : Fld := ⟨Reg.SPLIT_CFG, 8, 7⟩
/-- SPLIT.DIL, R208. -/
def Reg.SPLIT_DIL : Nat := 0x53044
def Reg.SPLIT_DIL_RX : Fld := ⟨Reg.SPLIT_DIL, 0, 4⟩
def Reg.SPLIT_DIL_RY : Fld := ⟨Reg.SPLIT_DIL, 8, 4⟩
/-- SPLIT.BLUR, R208. -/
def Reg.SPLIT_BLUR : Nat := 0x53048
def Reg.SPLIT_BLUR_NTAP_H : Fld := ⟨Reg.SPLIT_BLUR, 0, 5⟩
def Reg.SPLIT_BLUR_NTAP_V : Fld := ⟨Reg.SPLIT_BLUR, 8, 5⟩
/-- SPLIT.KC0, R208. -/
def Reg.SPLIT_KC0 : Nat := 0x5304C
def Reg.SPLIT_KC0_k_R : Fld := ⟨Reg.SPLIT_KC0, 0, 16⟩
def Reg.SPLIT_KC0_k_G : Fld := ⟨Reg.SPLIT_KC0, 16, 16⟩
/-- SPLIT.KC1, R208. -/
def Reg.SPLIT_KC1 : Nat := 0x53050
def Reg.SPLIT_KC1_k_B : Fld := ⟨Reg.SPLIT_KC1, 0, 16⟩
/-- SPLIT.FLOOR, R208. -/
def Reg.SPLIT_FLOOR : Nat := 0x53054
def Reg.SPLIT_FLOOR_FLOOR_C : Fld := ⟨Reg.SPLIT_FLOOR, 0, 16⟩
def Reg.SPLIT_FLOOR_FLOOR_M : Fld := ⟨Reg.SPLIT_FLOOR, 16, 16⟩
/-- SPLIT.PROBE, R208. -/
def Reg.SPLIT_PROBE : Nat := 0x53058
def Reg.SPLIT_PROBE_X : Fld := ⟨Reg.SPLIT_PROBE, 0, 13⟩
def Reg.SPLIT_PROBE_Y : Fld := ⟨Reg.SPLIT_PROBE, 16, 13⟩
/-- SPLIT.PROBE_T, R208. -/
def Reg.SPLIT_PROBE_T : Nat := 0x5305C
def Reg.SPLIT_PROBE_T_y_req : Fld := ⟨Reg.SPLIT_PROBE_T, 0, 16⟩
def Reg.SPLIT_PROBE_T_B : Fld := ⟨Reg.SPLIT_PROBE_T, 16, 16⟩
/-- SPLIT.PROBE_M, R208. -/
def Reg.SPLIT_PROBE_M : Nat := 0x53060
def Reg.SPLIT_PROBE_M_M : Fld := ⟨Reg.SPLIT_PROBE_M, 16, 16⟩
/-- SPLIT.PROBE_ME, R208. -/
def Reg.SPLIT_PROBE_ME : Nat := 0x53064
def Reg.SPLIT_PROBE_ME_M_eff : Fld := ⟨Reg.SPLIT_PROBE_ME, 0, 16⟩
/-- SPLIT.PROBE_C0, R208. -/
def Reg.SPLIT_PROBE_C0 : Nat := 0x53068
def Reg.SPLIT_PROBE_C0_C_R : Fld := ⟨Reg.SPLIT_PROBE_C0, 0, 16⟩
def Reg.SPLIT_PROBE_C0_C_G : Fld := ⟨Reg.SPLIT_PROBE_C0, 16, 16⟩
/-- SPLIT.PROBE_C1, R208. -/
def Reg.SPLIT_PROBE_C1 : Nat := 0x5306C
def Reg.SPLIT_PROBE_C1_C_B : Fld := ⟨Reg.SPLIT_PROBE_C1, 0, 16⟩
/-- SPLIT.PROBE_FRAME, R208. -/
def Reg.SPLIT_PROBE_FRAME : Nat := 0x53070
/-- SPLIT.CLIP_ADDR, R208. -/
def Reg.SPLIT_CLIP_ADDR : Nat := 0x53074
/-- SPLIT.CLIP_DATA, R208. -/
def Reg.SPLIT_CLIP_DATA : Nat := 0x53078
/-- SPLIT.CLIP_FRAME, R208. -/
def Reg.SPLIT_CLIP_FRAME : Nat := 0x5307C
/-- SPLIT.CLIP_TOTAL, R208. -/
def Reg.SPLIT_CLIP_TOTAL : Nat := 0x53090
/-- SPLIT.CRUSH_TOTAL, R208. -/
def Reg.SPLIT_CRUSH_TOTAL : Nat := 0x53094
/-- SPLIT.CNT_CLR, R208. -/
def Reg.SPLIT_CNT_CLR : Nat := 0x53098
/-- SPLIT.HTAP, R208. -/
def Reg.SPLIT_HTAP (i : Nat) : Nat := 0x53100 + 4 * i
def Reg.SPLIT_HTAP_LO (i : Nat) : Fld := ⟨Reg.SPLIT_HTAP i, 0, 16⟩
def Reg.SPLIT_HTAP_HI (i : Nat) : Fld := ⟨Reg.SPLIT_HTAP i, 16, 16⟩
/-- SPLIT.VTAP, R208. -/
def Reg.SPLIT_VTAP (i : Nat) : Nat := 0x53140 + 4 * i
def Reg.SPLIT_VTAP_LO (i : Nat) : Fld := ⟨Reg.SPLIT_VTAP i, 0, 16⟩
def Reg.SPLIT_VTAP_HI (i : Nat) : Fld := ⟨Reg.SPLIT_VTAP i, 16, 16⟩
/-- SPLIT.PAR, R208. -/
def Reg.SPLIT_PAR (i : Nat) : Nat := 0x53180 + 4 * i
def Reg.SPLIT_PAR_LO (i : Nat) : Fld := ⟨Reg.SPLIT_PAR i, 0, 16⟩
def Reg.SPLIT_PAR_HI (i : Nat) : Fld := ⟨Reg.SPLIT_PAR i, 16, 16⟩
def Reg.SPLIT_STATUS_VREACH : Fld := ⟨0x5300C, 0, 5⟩
def Reg.SPLIT_STATUS_DUAL_ACTIVE : Fld := ⟨0x5300C, 8, 1⟩
/-- CELLLUT.CFG, R210. -/
def Reg.CELLLUT_CFG : Nat := 0x54040
def Reg.CELLLUT_CFG_BANK : Fld := ⟨Reg.CELLLUT_CFG, 0, 1⟩
/-- CELLLUT.ADDR, R210. -/
def Reg.CELLLUT_ADDR : Nat := 0x54044
def Reg.CELLLUT_ADDR_INDEX : Fld := ⟨Reg.CELLLUT_ADDR, 0, 11⟩
def Reg.CELLLUT_ADDR_TABLE : Fld := ⟨Reg.CELLLUT_ADDR, 16, 3⟩
/-- CELLLUT.DATA, R210. -/
def Reg.CELLLUT_DATA : Nat := 0x54048
/-- CELLLUT.BUSY_CNT, R210. -/
def Reg.CELLLUT_BUSY_CNT : Nat := 0x5404C
/-- CELLLUT.CNT_CLR, R210. -/
def Reg.CELLLUT_CNT_CLR : Nat := 0x54050
/-- CELLLUT.PROBE_D0, R210. -/
def Reg.CELLLUT_PROBE_D0 : Nat := 0x54054
def Reg.CELLLUT_PROBE_D0_R : Fld := ⟨Reg.CELLLUT_PROBE_D0, 0, 16⟩
def Reg.CELLLUT_PROBE_D0_G : Fld := ⟨Reg.CELLLUT_PROBE_D0, 16, 16⟩
/-- CELLLUT.PROBE_D1, R210. -/
def Reg.CELLLUT_PROBE_D1 : Nat := 0x54058
def Reg.CELLLUT_PROBE_D1_B : Fld := ⟨Reg.CELLLUT_PROBE_D1, 0, 16⟩
/-- CELLLUT.PROBE_FRAME, R210. -/
def Reg.CELLLUT_PROBE_FRAME : Nat := 0x5405C
def Reg.CELLLUT_STATUS_SWITCH_PENDING : Fld := ⟨0x5400C, 0, 1⟩
/-- PATCH.CFG, R234. -/
def Reg.PATCH_CFG : Nat := 0x60040
def Reg.PATCH_CFG_LIVE : Fld := ⟨Reg.PATCH_CFG, 0, 1⟩
def Reg.PATCH_CFG_COARSE0 : Fld := ⟨Reg.PATCH_CFG, 4, 1⟩
def Reg.PATCH_CFG_COARSE1 : Fld := ⟨Reg.PATCH_CFG, 5, 1⟩
/-- PATCH.SET0, R234. -/
def Reg.PATCH_SET0 : Nat := 0x60044
def Reg.PATCH_SET0_HANDLE : Fld := ⟨Reg.PATCH_SET0, 0, 6⟩
def Reg.PATCH_SET0_EN : Fld := ⟨Reg.PATCH_SET0, 8, 1⟩
/-- PATCH.SET1, R234. -/
def Reg.PATCH_SET1 : Nat := 0x60048
def Reg.PATCH_SET1_HANDLE : Fld := ⟨Reg.PATCH_SET1, 0, 6⟩
def Reg.PATCH_SET1_EN : Fld := ⟨Reg.PATCH_SET1, 8, 1⟩
/-- PATCH.PREFETCH, R234. -/
def Reg.PATCH_PREFETCH : Nat := 0x6004C
def Reg.PATCH_PREFETCH_PF_LINES : Fld := ⟨Reg.PATCH_PREFETCH, 0, 5⟩
/-- PATCH.SET_BYTES, R234. -/
def Reg.PATCH_SET_BYTES : Nat := 0x60050
/-- PATCH.COARSE_BYTES, R234. -/
def Reg.PATCH_COARSE_BYTES : Nat := 0x60054
/-- PATCH.MONO_OFF, R234. -/
def Reg.PATCH_MONO_OFF : Nat := 0x60058
/-- PATCH.TILE_OFF, R234. -/
def Reg.PATCH_TILE_OFF : Nat := 0x6005C
/-- PATCH.KR_LO, R234. -/
def Reg.PATCH_KR_LO : Nat := 0x60060
def Reg.PATCH_KR_LO_K1 : Fld := ⟨Reg.PATCH_KR_LO, 0, 16⟩
def Reg.PATCH_KR_LO_K2 : Fld := ⟨Reg.PATCH_KR_LO, 16, 16⟩
/-- PATCH.KR_HI, R234. -/
def Reg.PATCH_KR_HI : Nat := 0x60064
def Reg.PATCH_KR_HI_K3 : Fld := ⟨Reg.PATCH_KR_HI, 0, 16⟩
/-- PATCH.KG_LO, R234. -/
def Reg.PATCH_KG_LO : Nat := 0x60068
def Reg.PATCH_KG_LO_K1 : Fld := ⟨Reg.PATCH_KG_LO, 0, 16⟩
def Reg.PATCH_KG_LO_K2 : Fld := ⟨Reg.PATCH_KG_LO, 16, 16⟩
/-- PATCH.KG_HI, R234. -/
def Reg.PATCH_KG_HI : Nat := 0x6006C
def Reg.PATCH_KG_HI_K3 : Fld := ⟨Reg.PATCH_KG_HI, 0, 16⟩
/-- PATCH.KB_LO, R234. -/
def Reg.PATCH_KB_LO : Nat := 0x60070
def Reg.PATCH_KB_LO_K1 : Fld := ⟨Reg.PATCH_KB_LO, 0, 16⟩
def Reg.PATCH_KB_LO_K2 : Fld := ⟨Reg.PATCH_KB_LO, 16, 16⟩
/-- PATCH.KB_HI, R234. -/
def Reg.PATCH_KB_HI : Nat := 0x60074
def Reg.PATCH_KB_HI_K3 : Fld := ⟨Reg.PATCH_KB_HI, 0, 16⟩
/-- PATCH.KM_LO, R234. -/
def Reg.PATCH_KM_LO : Nat := 0x60078
def Reg.PATCH_KM_LO_K1 : Fld := ⟨Reg.PATCH_KM_LO, 0, 16⟩
def Reg.PATCH_KM_LO_K2 : Fld := ⟨Reg.PATCH_KM_LO, 16, 16⟩
/-- PATCH.KM_HI, R234. -/
def Reg.PATCH_KM_HI : Nat := 0x6007C
def Reg.PATCH_KM_HI_K3 : Fld := ⟨Reg.PATCH_KM_HI, 0, 16⟩
/-- PATCH.CHECK, R234. -/
def Reg.PATCH_CHECK : Nat := 0x60080
def Reg.PATCH_CHECK_START : Fld := ⟨Reg.PATCH_CHECK, 0, 1⟩
def Reg.PATCH_CHECK_SET : Fld := ⟨Reg.PATCH_CHECK, 4, 1⟩
/-- PATCH.CHECK_STATUS, R234. -/
def Reg.PATCH_CHECK_STATUS : Nat := 0x60084
def Reg.PATCH_CHECK_STATUS_BUSY : Fld := ⟨Reg.PATCH_CHECK_STATUS, 0, 1⟩
def Reg.PATCH_CHECK_STATUS_DONE : Fld := ⟨Reg.PATCH_CHECK_STATUS, 1, 1⟩
def Reg.PATCH_CHECK_STATUS_FAULT : Fld := ⟨Reg.PATCH_CHECK_STATUS, 2, 1⟩
/-- PATCH.CHECK_CRC, R234. -/
def Reg.PATCH_CHECK_CRC : Nat := 0x60088
/-- PATCH.FETCH_FAULT, R234. -/
def Reg.PATCH_FETCH_FAULT : Nat := 0x60090
/-- PATCH.LATE_FETCH, R234. -/
def Reg.PATCH_LATE_FETCH : Nat := 0x60094
/-- PATCH.SWAPS, R234. -/
def Reg.PATCH_SWAPS : Nat := 0x60098
/-- PATCH.CNT_CLR, R234. -/
def Reg.PATCH_CNT_CLR : Nat := 0x6009C
/-- PATCH.PROBE, R234. -/
def Reg.PATCH_PROBE : Nat := 0x600A0
def Reg.PATCH_PROBE_X : Fld := ⟨Reg.PATCH_PROBE, 0, 13⟩
def Reg.PATCH_PROBE_Y : Fld := ⟨Reg.PATCH_PROBE, 16, 13⟩
/-- PATCH.PROBE_WORD, R234. -/
def Reg.PATCH_PROBE_WORD : Nat := 0x600A8
def Reg.PATCH_PROBE_WORD_HI : Nat := 0x600A8 + 4
/-- PATCH.PROBE_TILE, R234. -/
def Reg.PATCH_PROBE_TILE : Nat := 0x600B0
/-- PATCH.PROBE_OUT0, R234. -/
def Reg.PATCH_PROBE_OUT0 : Nat := 0x600B4
def Reg.PATCH_PROBE_OUT0_R : Fld := ⟨Reg.PATCH_PROBE_OUT0, 0, 16⟩
def Reg.PATCH_PROBE_OUT0_G : Fld := ⟨Reg.PATCH_PROBE_OUT0, 16, 16⟩
/-- PATCH.PROBE_OUT1, R234. -/
def Reg.PATCH_PROBE_OUT1 : Nat := 0x600B8
def Reg.PATCH_PROBE_OUT1_B : Fld := ⟨Reg.PATCH_PROBE_OUT1, 0, 16⟩
/-- PATCH.PROBE_FRAME, R234. -/
def Reg.PATCH_PROBE_FRAME : Nat := 0x600BC
def Reg.PATCH_STATUS_LIVE_ACTIVE : Fld := ⟨0x6000C, 0, 1⟩
def Reg.PATCH_STATUS_COARSE_ACTIVE : Fld := ⟨0x6000C, 1, 1⟩
def Reg.PATCH_STATUS_COARSE_LOADED : Fld := ⟨0x6000C, 2, 1⟩
def Reg.PATCH_STATUS_COARSE_BAD : Fld := ⟨0x6000C, 3, 1⟩
def Reg.PATCH_STATUS_COARSE_WHY : Fld := ⟨0x6000C, 4, 4⟩
/-- DEFECT.CFG, R235. -/
def Reg.DEFECT_CFG : Nat := 0x61040
def Reg.DEFECT_CFG_BANK : Fld := ⟨Reg.DEFECT_CFG, 0, 1⟩
def Reg.DEFECT_CFG_AUTO_COL : Fld := ⟨Reg.DEFECT_CFG, 1, 1⟩
def Reg.DEFECT_CFG_APPLY_ALL : Fld := ⟨Reg.DEFECT_CFG, 2, 1⟩
/-- DEFECT.COUNT, R235. -/
def Reg.DEFECT_COUNT : Nat := 0x61044
/-- DEFECT.WEIGHT_C0, R235. -/
def Reg.DEFECT_WEIGHT_C0 : Nat := 0x61048
def Reg.DEFECT_WEIGHT_C0_w_side : Fld := ⟨Reg.DEFECT_WEIGHT_C0, 0, 16⟩
def Reg.DEFECT_WEIGHT_C0_w_vert : Fld := ⟨Reg.DEFECT_WEIGHT_C0, 16, 16⟩
/-- DEFECT.WEIGHT_C1, R235. -/
def Reg.DEFECT_WEIGHT_C1 : Nat := 0x6104C
def Reg.DEFECT_WEIGHT_C1_w_diag : Fld := ⟨Reg.DEFECT_WEIGHT_C1, 0, 16⟩
def Reg.DEFECT_WEIGHT_C1_WEAK_GAIN : Fld := ⟨Reg.DEFECT_WEIGHT_C1, 16, 16⟩
/-- DEFECT.WEIGHT_M0, R235. -/
def Reg.DEFECT_WEIGHT_M0 : Nat := 0x61050
def Reg.DEFECT_WEIGHT_M0_w_side : Fld := ⟨Reg.DEFECT_WEIGHT_M0, 0, 16⟩
def Reg.DEFECT_WEIGHT_M0_w_vert : Fld := ⟨Reg.DEFECT_WEIGHT_M0, 16, 16⟩
/-- DEFECT.WEIGHT_M1, R235. -/
def Reg.DEFECT_WEIGHT_M1 : Nat := 0x61054
def Reg.DEFECT_WEIGHT_M1_w_diag : Fld := ⟨Reg.DEFECT_WEIGHT_M1, 0, 16⟩
def Reg.DEFECT_WEIGHT_M1_WEAK_GAIN : Fld := ⟨Reg.DEFECT_WEIGHT_M1, 16, 16⟩
/-- DEFECT.ADDR, R235. -/
def Reg.DEFECT_ADDR : Nat := 0x61058
def Reg.DEFECT_ADDR_INDEX : Fld := ⟨Reg.DEFECT_ADDR, 0, 12⟩
/-- DEFECT.DATA, R235. -/
def Reg.DEFECT_DATA : Nat := 0x6105C
/-- DEFECT.AUTO_STAT, R235. -/
def Reg.DEFECT_AUTO_STAT : Nat := 0x61060
/-- DEFECT.AUTO_ADDR, R235. -/
def Reg.DEFECT_AUTO_ADDR : Nat := 0x61064
/-- DEFECT.AUTO_DATA, R235. -/
def Reg.DEFECT_AUTO_DATA : Nat := 0x61068
/-- DEFECT.AUTO_CTL, R235. -/
def Reg.DEFECT_AUTO_CTL : Nat := 0x6106C
def Reg.DEFECT_AUTO_CTL_CLR : Fld := ⟨Reg.DEFECT_AUTO_CTL, 0, 1⟩
/-- DEFECT.PROBE, R235. -/
def Reg.DEFECT_PROBE : Nat := 0x61070
def Reg.DEFECT_PROBE_X : Fld := ⟨Reg.DEFECT_PROBE, 0, 13⟩
def Reg.DEFECT_PROBE_Y : Fld := ⟨Reg.DEFECT_PROBE, 16, 13⟩
/-- DEFECT.PROBE_OUT0, R235. -/
def Reg.DEFECT_PROBE_OUT0 : Nat := 0x61074
def Reg.DEFECT_PROBE_OUT0_R : Fld := ⟨Reg.DEFECT_PROBE_OUT0, 0, 16⟩
def Reg.DEFECT_PROBE_OUT0_G : Fld := ⟨Reg.DEFECT_PROBE_OUT0, 16, 16⟩
/-- DEFECT.PROBE_OUT1, R235. -/
def Reg.DEFECT_PROBE_OUT1 : Nat := 0x61078
def Reg.DEFECT_PROBE_OUT1_B : Fld := ⟨Reg.DEFECT_PROBE_OUT1, 0, 16⟩
/-- DEFECT.PROBE_FRAME, R235. -/
def Reg.DEFECT_PROBE_FRAME : Nat := 0x6107C
/-- DEFECT.APPLIED, R235. -/
def Reg.DEFECT_APPLIED : Nat := 0x61090
/-- DEFECT.FLAG_SKIP, R235. -/
def Reg.DEFECT_FLAG_SKIP : Nat := 0x61094
/-- DEFECT.ORPHAN_FLAG, R235. -/
def Reg.DEFECT_ORPHAN_FLAG : Nat := 0x61098
/-- DEFECT.NBR_CLIP, R235. -/
def Reg.DEFECT_NBR_CLIP : Nat := 0x610A0
/-- DEFECT.AUTO_FULL, R235. -/
def Reg.DEFECT_AUTO_FULL : Nat := 0x610A4
/-- DEFECT.BUSY_CNT, R235. -/
def Reg.DEFECT_BUSY_CNT : Nat := 0x610A8
/-- DEFECT.CNT_CLR, R235. -/
def Reg.DEFECT_CNT_CLR : Nat := 0x610AC
def Reg.DEFECT_STATUS_SWITCH_PENDING : Fld := ⟨0x6100C, 0, 1⟩
def Reg.DEFECT_STATUS_AUTO_FULL : Fld := ⟨0x6100C, 1, 1⟩
/-- OD.CFG, R255. -/
def Reg.OD_CFG : Nat := 0x62040
def Reg.OD_CFG_BANK : Fld := ⟨Reg.OD_CFG, 0, 1⟩
/-- OD.STATE, R255. -/
def Reg.OD_STATE : Nat := 0x62044
def Reg.OD_STATE_HANDLE : Fld := ⟨Reg.OD_STATE, 0, 6⟩
def Reg.OD_STATE_EN : Fld := ⟨Reg.OD_STATE, 8, 1⟩
/-- OD.DEADBAND, R255. -/
def Reg.OD_DEADBAND : Nat := 0x62048
/-- OD.DBIN0, R255. -/
def Reg.OD_DBIN0 : Nat := 0x6204C
def Reg.OD_DBIN0_DB1 : Fld := ⟨Reg.OD_DBIN0, 0, 16⟩
def Reg.OD_DBIN0_DB2 : Fld := ⟨Reg.OD_DBIN0, 16, 16⟩
/-- OD.DBIN1, R255. -/
def Reg.OD_DBIN1 : Nat := 0x62050
def Reg.OD_DBIN1_DB3 : Fld := ⟨Reg.OD_DBIN1, 0, 16⟩
/-- OD.TBIN0, R255. -/
def Reg.OD_TBIN0 : Nat := 0x62054
def Reg.OD_TBIN0_TB0 : Fld := ⟨Reg.OD_TBIN0, 0, 16⟩
def Reg.OD_TBIN0_TB1 : Fld := ⟨Reg.OD_TBIN0, 16, 16⟩
/-- OD.TBIN1, R255. -/
def Reg.OD_TBIN1 : Nat := 0x62058
def Reg.OD_TBIN1_TB2 : Fld := ⟨Reg.OD_TBIN1, 0, 16⟩
def Reg.OD_TBIN1_TB3 : Fld := ⟨Reg.OD_TBIN1, 16, 16⟩
/-- OD.TBIN2, R255. -/
def Reg.OD_TBIN2 : Nat := 0x6205C
def Reg.OD_TBIN2_TB4 : Fld := ⟨Reg.OD_TBIN2, 0, 16⟩
def Reg.OD_TBIN2_TB5 : Fld := ⟨Reg.OD_TBIN2, 16, 16⟩
/-- OD.TBIN3, R255. -/
def Reg.OD_TBIN3 : Nat := 0x62060
def Reg.OD_TBIN3_TB6 : Fld := ⟨Reg.OD_TBIN3, 0, 16⟩
def Reg.OD_TBIN3_TB7 : Fld := ⟨Reg.OD_TBIN3, 16, 16⟩
/-- OD.ADDR, R255. -/
def Reg.OD_ADDR : Nat := 0x62064
def Reg.OD_ADDR_INDEX : Fld := ⟨Reg.OD_ADDR, 0, 14⟩
def Reg.OD_ADDR_CH : Fld := ⟨Reg.OD_ADDR, 16, 3⟩
def Reg.OD_ADDR_LUT : Fld := ⟨Reg.OD_ADDR, 20, 1⟩
/-- OD.DATA, R255. -/
def Reg.OD_DATA : Nat := 0x62068
/-- OD.STATE_BYTES, R255. -/
def Reg.OD_STATE_BYTES : Nat := 0x6206C
/-- OD.CMD, R255. -/
def Reg.OD_CMD : Nat := 0x62070
def Reg.OD_CMD_REINIT : Fld := ⟨Reg.OD_CMD, 0, 1⟩
/-- OD.PROBE, R255. -/
def Reg.OD_PROBE : Nat := 0x62074
def Reg.OD_PROBE_CH : Fld := ⟨Reg.OD_PROBE, 29, 3⟩
def Reg.OD_PROBE_X : Fld := ⟨Reg.OD_PROBE, 0, 13⟩
def Reg.OD_PROBE_Y : Fld := ⟨Reg.OD_PROBE, 16, 13⟩
/-- OD.PROBE_IN, R255. -/
def Reg.OD_PROBE_IN : Nat := 0x62078
def Reg.OD_PROBE_IN_S16 : Fld := ⟨Reg.OD_PROBE_IN, 0, 16⟩
def Reg.OD_PROBE_IN_T : Fld := ⟨Reg.OD_PROBE_IN, 16, 16⟩
/-- OD.PROBE_OUT, R255. -/
def Reg.OD_PROBE_OUT : Nat := 0x6207C
def Reg.OD_PROBE_OUT_DRIVE : Fld := ⟨Reg.OD_PROBE_OUT, 0, 16⟩
def Reg.OD_PROBE_OUT_S16N : Fld := ⟨Reg.OD_PROBE_OUT, 16, 16⟩
/-- OD.PROBE_SEL, R255. -/
def Reg.OD_PROBE_SEL : Nat := 0x62080
def Reg.OD_PROBE_SEL_T : Fld := ⟨Reg.OD_PROBE_SEL, 0, 16⟩
def Reg.OD_PROBE_SEL_J : Fld := ⟨Reg.OD_PROBE_SEL, 16, 3⟩
def Reg.OD_PROBE_SEL_W : Fld := ⟨Reg.OD_PROBE_SEL, 20, 8⟩
def Reg.OD_PROBE_SEL_DBIN : Fld := ⟨Reg.OD_PROBE_SEL, 28, 2⟩
def Reg.OD_PROBE_SEL_DEADBAND : Fld := ⟨Reg.OD_PROBE_SEL, 30, 1⟩
def Reg.OD_PROBE_SEL_INIT : Fld := ⟨Reg.OD_PROBE_SEL, 31, 1⟩
/-- OD.PROBE_FRAME, R255. -/
def Reg.OD_PROBE_FRAME : Nat := 0x62084
/-- OD.STATE_FAULT, R255. -/
def Reg.OD_STATE_FAULT : Nat := 0x62090
/-- OD.LATE_FETCH, R255. -/
def Reg.OD_LATE_FETCH : Nat := 0x62094
/-- OD.INIT_FRAMES, R255. -/
def Reg.OD_INIT_FRAMES : Nat := 0x62098
/-- OD.BUSY_CNT, R255. -/
def Reg.OD_BUSY_CNT : Nat := 0x6209C
/-- OD.CNT_CLR, R255. -/
def Reg.OD_CNT_CLR : Nat := 0x620A0
def Reg.OD_STATUS_SWITCH_PENDING : Fld := ⟨0x6200C, 0, 1⟩
def Reg.OD_STATUS_INIT : Fld := ⟨0x6200C, 1, 1⟩
/-- THERM.CFG, R256. -/
def Reg.THERM_CFG : Nat := 0x63040
def Reg.THERM_CFG_SRC : Fld := ⟨Reg.THERM_CFG, 0, 1⟩
def Reg.THERM_CFG_SENS_EN : Fld := ⟨Reg.THERM_CFG, 4, 4⟩
/-- THERM.MODEL, R256. -/
def Reg.THERM_MODEL : Nat := 0x63044
def Reg.THERM_MODEL_G : Fld := ⟨Reg.THERM_MODEL, 0, 16⟩
/-- THERM.TAU, R256. -/
def Reg.THERM_TAU : Nat := 0x63048
/-- THERM.T_DEFAULT, R256. -/
def Reg.THERM_T_DEFAULT : Nat := 0x6304C
/-- THERM.ADC_LIM, R256. -/
def Reg.THERM_ADC_LIM : Nat := 0x63050
def Reg.THERM_ADC_LIM_LO : Fld := ⟨Reg.THERM_ADC_LIM, 0, 12⟩
def Reg.THERM_ADC_LIM_HI : Fld := ⟨Reg.THERM_ADC_LIM, 16, 12⟩
/-- THERM.SENS0, R256. -/
def Reg.THERM_SENS0 : Nat := 0x63054
def Reg.THERM_SENS0_TEMP : Fld := ⟨Reg.THERM_SENS0, 0, 16⟩
def Reg.THERM_SENS0_CODE : Fld := ⟨Reg.THERM_SENS0, 16, 12⟩
def Reg.THERM_SENS0_FAULT : Fld := ⟨Reg.THERM_SENS0, 31, 1⟩
/-- THERM.SENS1, R256. -/
def Reg.THERM_SENS1 : Nat := 0x63058
def Reg.THERM_SENS1_TEMP : Fld := ⟨Reg.THERM_SENS1, 0, 16⟩
def Reg.THERM_SENS1_CODE : Fld := ⟨Reg.THERM_SENS1, 16, 12⟩
def Reg.THERM_SENS1_FAULT : Fld := ⟨Reg.THERM_SENS1, 31, 1⟩
/-- THERM.SENS2, R256. -/
def Reg.THERM_SENS2 : Nat := 0x6305C
def Reg.THERM_SENS2_TEMP : Fld := ⟨Reg.THERM_SENS2, 0, 16⟩
def Reg.THERM_SENS2_CODE : Fld := ⟨Reg.THERM_SENS2, 16, 12⟩
def Reg.THERM_SENS2_FAULT : Fld := ⟨Reg.THERM_SENS2, 31, 1⟩
/-- THERM.SENS3, R256. -/
def Reg.THERM_SENS3 : Nat := 0x63060
def Reg.THERM_SENS3_TEMP : Fld := ⟨Reg.THERM_SENS3, 0, 16⟩
def Reg.THERM_SENS3_CODE : Fld := ⟨Reg.THERM_SENS3, 16, 12⟩
def Reg.THERM_SENS3_FAULT : Fld := ⟨Reg.THERM_SENS3, 31, 1⟩
/-- THERM.CONV_ADDR, R256. -/
def Reg.THERM_CONV_ADDR : Nat := 0x63064
/-- THERM.CONV_DATA, R256. -/
def Reg.THERM_CONV_DATA : Nat := 0x63068
/-- THERM.REG_ADDR, R256. -/
def Reg.THERM_REG_ADDR : Nat := 0x6306C
def Reg.THERM_REG_ADDR_INDEX : Fld := ⟨Reg.THERM_REG_ADDR, 0, 8⟩
def Reg.THERM_REG_ADDR_SEL : Fld := ⟨Reg.THERM_REG_ADDR, 8, 3⟩
/-- THERM.REG_DATA, R256. -/
def Reg.THERM_REG_DATA : Nat := 0x63070
/-- THERM.COMMIT, R256. -/
def Reg.THERM_COMMIT : Nat := 0x63074
def Reg.THERM_COMMIT_COMMIT : Fld := ⟨Reg.THERM_COMMIT, 0, 1⟩
/-- THERM.UPDATE_FRAME, R256. -/
def Reg.THERM_UPDATE_FRAME : Nat := 0x63078
/-- THERM.SENS_FAULT, R256. -/
def Reg.THERM_SENS_FAULT : Nat := 0x63090
/-- THERM.HOLD_FRAMES, R256. -/
def Reg.THERM_HOLD_FRAMES : Nat := 0x63094
/-- THERM.PEND_DROP, R256. -/
def Reg.THERM_PEND_DROP : Nat := 0x63098
/-- THERM.CNT_CLR, R256. -/
def Reg.THERM_CNT_CLR : Nat := 0x6309C
def Reg.THERM_STATUS_COMMIT_PENDING : Fld := ⟨0x6300C, 0, 1⟩
def Reg.THERM_STATUS_SENS_FAULT : Fld := ⟨0x6300C, 4, 4⟩
def Reg.THERM_STATUS_ALL_FAULT : Fld := ⟨0x6300C, 8, 1⟩
/-- DITH.CFG, R268. -/
def Reg.DITH_CFG : Nat := 0x64040
def Reg.DITH_CFG_DEPTH_C : Fld := ⟨Reg.DITH_CFG, 0, 2⟩
def Reg.DITH_CFG_DEPTH_M : Fld := ⟨Reg.DITH_CFG, 2, 2⟩
def Reg.DITH_CFG_PLOG : Fld := ⟨Reg.DITH_CFG, 4, 3⟩
def Reg.DITH_CFG_INV : Fld := ⟨Reg.DITH_CFG, 8, 2⟩
def Reg.DITH_CFG_BALANCE : Fld := ⟨Reg.DITH_CFG, 12, 1⟩
def Reg.DITH_CFG_DECOR : Fld := ⟨Reg.DITH_CFG, 13, 1⟩
def Reg.DITH_CFG_MSRC : Fld := ⟨Reg.DITH_CFG, 16, 1⟩
def Reg.DITH_CFG_BANK : Fld := ⟨Reg.DITH_CFG, 17, 1⟩
/-- DITH.PHASE, R268. -/
def Reg.DITH_PHASE : Nat := 0x64044
def Reg.DITH_PHASE_N : Fld := ⟨Reg.DITH_PHASE, 0, 5⟩
def Reg.DITH_PHASE_POL : Fld := ⟨Reg.DITH_PHASE, 16, 1⟩
/-- DITH.ADDR, R268. -/
def Reg.DITH_ADDR : Nat := 0x64048
def Reg.DITH_ADDR_INDEX : Fld := ⟨Reg.DITH_ADDR, 0, 12⟩
def Reg.DITH_ADDR_ROM : Fld := ⟨Reg.DITH_ADDR, 16, 1⟩
/-- DITH.DATA, R268. -/
def Reg.DITH_DATA : Nat := 0x6404C
/-- DITH.BUSY_CNT, R268. -/
def Reg.DITH_BUSY_CNT : Nat := 0x64050
/-- DITH.CNT_CLR, R268. -/
def Reg.DITH_CNT_CLR : Nat := 0x64054
/-- DITH.PROBE, R268. -/
def Reg.DITH_PROBE : Nat := 0x64058
def Reg.DITH_PROBE_CH : Fld := ⟨Reg.DITH_PROBE, 29, 3⟩
def Reg.DITH_PROBE_X : Fld := ⟨Reg.DITH_PROBE, 0, 13⟩
def Reg.DITH_PROBE_Y : Fld := ⟨Reg.DITH_PROBE, 16, 13⟩
/-- DITH.PROBE_IN, R268. -/
def Reg.DITH_PROBE_IN : Nat := 0x6405C
def Reg.DITH_PROBE_IN_D : Fld := ⟨Reg.DITH_PROBE_IN, 0, 16⟩
def Reg.DITH_PROBE_IN_TAU : Fld := ⟨Reg.DITH_PROBE_IN, 16, 12⟩
/-- DITH.PROBE_OUT, R268. -/
def Reg.DITH_PROBE_OUT : Nat := 0x64060
def Reg.DITH_PROBE_OUT_OUT : Fld := ⟨Reg.DITH_PROBE_OUT, 0, 12⟩
def Reg.DITH_PROBE_OUT_POL : Fld := ⟨Reg.DITH_PROBE_OUT, 12, 1⟩
def Reg.DITH_PROBE_OUT_ENTRY : Fld := ⟨Reg.DITH_PROBE_OUT, 16, 4⟩
def Reg.DITH_PROBE_OUT_TS : Fld := ⟨Reg.DITH_PROBE_OUT, 20, 8⟩
/-- DITH.PROBE_FRAME, R268. -/
def Reg.DITH_PROBE_FRAME : Nat := 0x64064
/-- DITH.ROLL0, R268. -/
def Reg.DITH_ROLL0 : Nat := 0x64080
def Reg.DITH_ROLL0_E0 : Fld := ⟨Reg.DITH_ROLL0, 0, 16⟩
def Reg.DITH_ROLL0_E1 : Fld := ⟨Reg.DITH_ROLL0, 16, 16⟩
/-- DITH.ROLL1, R268. -/
def Reg.DITH_ROLL1 : Nat := 0x64084
def Reg.DITH_ROLL1_E0 : Fld := ⟨Reg.DITH_ROLL1, 0, 16⟩
def Reg.DITH_ROLL1_E1 : Fld := ⟨Reg.DITH_ROLL1, 16, 16⟩
/-- DITH.ROLL2, R268. -/
def Reg.DITH_ROLL2 : Nat := 0x64088
def Reg.DITH_ROLL2_E0 : Fld := ⟨Reg.DITH_ROLL2, 0, 16⟩
def Reg.DITH_ROLL2_E1 : Fld := ⟨Reg.DITH_ROLL2, 16, 16⟩
/-- DITH.ROLL3, R268. -/
def Reg.DITH_ROLL3 : Nat := 0x6408C
def Reg.DITH_ROLL3_E0 : Fld := ⟨Reg.DITH_ROLL3, 0, 16⟩
def Reg.DITH_ROLL3_E1 : Fld := ⟨Reg.DITH_ROLL3, 16, 16⟩
/-- DITH.ROLL4, R268. -/
def Reg.DITH_ROLL4 : Nat := 0x64090
def Reg.DITH_ROLL4_E0 : Fld := ⟨Reg.DITH_ROLL4, 0, 16⟩
def Reg.DITH_ROLL4_E1 : Fld := ⟨Reg.DITH_ROLL4, 16, 16⟩
/-- DITH.ROLL5, R268. -/
def Reg.DITH_ROLL5 : Nat := 0x64094
def Reg.DITH_ROLL5_E0 : Fld := ⟨Reg.DITH_ROLL5, 0, 16⟩
def Reg.DITH_ROLL5_E1 : Fld := ⟨Reg.DITH_ROLL5, 16, 16⟩
/-- DITH.ROLL6, R268. -/
def Reg.DITH_ROLL6 : Nat := 0x64098
def Reg.DITH_ROLL6_E0 : Fld := ⟨Reg.DITH_ROLL6, 0, 16⟩
def Reg.DITH_ROLL6_E1 : Fld := ⟨Reg.DITH_ROLL6, 16, 16⟩
/-- DITH.ROLL7, R268. -/
def Reg.DITH_ROLL7 : Nat := 0x6409C
def Reg.DITH_ROLL7_E0 : Fld := ⟨Reg.DITH_ROLL7, 0, 16⟩
def Reg.DITH_ROLL7_E1 : Fld := ⟨Reg.DITH_ROLL7, 16, 16⟩
/-- DITH.SHADOW_CFG, R268. -/
def Reg.DITH_SHADOW_CFG : Nat := 0x640A0
def Reg.DITH_SHADOW_CFG_STRIDE : Fld := ⟨Reg.DITH_SHADOW_CFG, 8, 8⟩
def Reg.DITH_SHADOW_CFG_EN : Fld := ⟨Reg.DITH_SHADOW_CFG, 0, 1⟩
/-- DITH.SHADOW_COL, R268. -/
def Reg.DITH_SHADOW_COL : Nat := 0x640A4
/-- DITH.SHADOW_ERR, R268. -/
def Reg.DITH_SHADOW_ERR : Nat := 0x640A8
/-- DITH.SHADOW_FIRST0, R268. -/
def Reg.DITH_SHADOW_FIRST0 : Nat := 0x640AC
def Reg.DITH_SHADOW_FIRST0_X : Fld := ⟨Reg.DITH_SHADOW_FIRST0, 0, 13⟩
def Reg.DITH_SHADOW_FIRST0_Y : Fld := ⟨Reg.DITH_SHADOW_FIRST0, 16, 13⟩
/-- DITH.SHADOW_FIRST1, R268. -/
def Reg.DITH_SHADOW_FIRST1 : Nat := 0x640B0
def Reg.DITH_SHADOW_FIRST1_STAGE : Fld := ⟨Reg.DITH_SHADOW_FIRST1, 0, 3⟩
def Reg.DITH_SHADOW_FIRST1_PLANE : Fld := ⟨Reg.DITH_SHADOW_FIRST1, 4, 2⟩
def Reg.DITH_SHADOW_FIRST1_VALID : Fld := ⟨Reg.DITH_SHADOW_FIRST1, 8, 1⟩
/-- DITH.SHADOW_FRAME, R268. -/
def Reg.DITH_SHADOW_FRAME : Nat := 0x640B4
/-- DITH.SHADOW_LINES, R268. -/
def Reg.DITH_SHADOW_LINES : Nat := 0x640B8
def Reg.DITH_STATUS_SWITCH_PENDING : Fld := ⟨0x6400C, 0, 1⟩
def Reg.DITH_STATUS_RAM_ACTIVE : Fld := ⟨0x6400C, 1, 1⟩
/-- EDL.REFCFG, R58. -/
def Reg.EDL_REFCFG : Nat := 0x70400
def Reg.EDL_REFCFG_EN : Fld := ⟨Reg.EDL_REFCFG, 0, 4⟩
def Reg.EDL_REFCFG_SPREAD : Fld := ⟨Reg.EDL_REFCFG, 4, 3⟩
def Reg.EDL_REFCFG_PENDING : Fld := ⟨Reg.EDL_REFCFG, 8, 1⟩
/-- EDL.CFG, R306. -/
def Reg.EDL_CFG : Nat := 0x70040
def Reg.EDL_CFG_DRIVE_OFS : Fld := ⟨Reg.EDL_CFG, 0, 8⟩
def Reg.EDL_CFG_AUTO_RETRAIN : Fld := ⟨Reg.EDL_CFG, 8, 1⟩
def Reg.EDL_CFG_MISS_LIMIT : Fld := ⟨Reg.EDL_CFG, 12, 4⟩
/-- EDL.CMD, R306. -/
def Reg.EDL_CMD : Nat := 0x70044
def Reg.EDL_CMD_ENUM : Fld := ⟨Reg.EDL_CMD, 0, 1⟩
/-- EDL.ENUM_STATUS, R306. -/
def Reg.EDL_ENUM_STATUS : Nat := 0x70048
def Reg.EDL_ENUM_STATUS_ASSIGNED : Fld := ⟨Reg.EDL_ENUM_STATUS, 0, 11⟩
def Reg.EDL_ENUM_STATUS_OVERFLOW : Fld := ⟨Reg.EDL_ENUM_STATUS, 12, 1⟩
def Reg.EDL_ENUM_STATUS_BUSY : Fld := ⟨Reg.EDL_ENUM_STATUS, 13, 1⟩
def Reg.EDL_ENUM_STATUS_UNADDR : Fld := ⟨Reg.EDL_ENUM_STATUS, 16, 16⟩
/-- EDL.SAFE_LEVEL, R306. -/
def Reg.EDL_SAFE_LEVEL : Nat := 0x7004C
/-- EDL.LINK_HOLD, R306. -/
def Reg.EDL_LINK_HOLD : Nat := 0x70050
/-- EDL.POLL_CFG, R306. -/
def Reg.EDL_POLL_CFG : Nat := 0x70054
def Reg.EDL_POLL_CFG_POLL_PERIOD : Fld := ⟨Reg.EDL_POLL_CFG, 0, 8⟩
def Reg.EDL_POLL_CFG_ERR_PERIOD : Fld := ⟨Reg.EDL_POLL_CFG, 16, 8⟩
/-- EDL.PRBS_CFG, R306. -/
def Reg.EDL_PRBS_CFG : Nat := 0x70058
def Reg.EDL_PRBS_CFG_EVERY : Fld := ⟨Reg.EDL_PRBS_CFG, 4, 8⟩
def Reg.EDL_PRBS_CFG_BLOCKS : Fld := ⟨Reg.EDL_PRBS_CFG, 16, 12⟩
def Reg.EDL_PRBS_CFG_EN : Fld := ⟨Reg.EDL_PRBS_CFG, 0, 1⟩
/-- EDL.HCMD0, R306. -/
def Reg.EDL_HCMD0 : Nat := 0x7005C
def Reg.EDL_HCMD0_PID : Fld := ⟨Reg.EDL_HCMD0, 0, 11⟩
def Reg.EDL_HCMD0_RD : Fld := ⟨Reg.EDL_HCMD0, 11, 1⟩
def Reg.EDL_HCMD0_ADDR : Fld := ⟨Reg.EDL_HCMD0, 16, 12⟩
/-- EDL.HCMD1, R306. -/
def Reg.EDL_HCMD1 : Nat := 0x70060
def Reg.EDL_HCMD1_DATA : Fld := ⟨Reg.EDL_HCMD1, 0, 16⟩
/-- EDL.HCMD_GO, R306. -/
def Reg.EDL_HCMD_GO : Nat := 0x70064
def Reg.EDL_HCMD_GO_GO : Fld := ⟨Reg.EDL_HCMD_GO, 0, 1⟩
/-- EDL.HCMD_STATUS, R306. -/
def Reg.EDL_HCMD_STATUS : Nat := 0x70068
def Reg.EDL_HCMD_STATUS_BUSY : Fld := ⟨Reg.EDL_HCMD_STATUS, 0, 1⟩
def Reg.EDL_HCMD_STATUS_DONE : Fld := ⟨Reg.EDL_HCMD_STATUS, 1, 1⟩
def Reg.EDL_HCMD_STATUS_NOANS : Fld := ⟨Reg.EDL_HCMD_STATUS, 2, 1⟩
def Reg.EDL_HCMD_STATUS_REFUSED : Fld := ⟨Reg.EDL_HCMD_STATUS, 3, 1⟩
/-- EDL.HCMD_RD, R306. -/
def Reg.EDL_HCMD_RD : Nat := 0x7006C
/-- EDL.PT_SEL, R306. -/
def Reg.EDL_PT_SEL : Nat := 0x70070
/-- EDL.PT_WORD, R306. -/
def Reg.EDL_PT_WORD (i : Nat) : Nat := 0x70074 + 4 * i
/-- EDL.HCMD_DROP, R306. -/
def Reg.EDL_HCMD_DROP : Nat := 0x70090
/-- EDL.ENUM_RUNS, R306. -/
def Reg.EDL_ENUM_RUNS : Nat := 0x70094
/-- EDL.CNT_CLR, R306. -/
def Reg.EDL_CNT_CLR : Nat := 0x70098
/-- EDL_GRP.CFG_ALL, R308. -/
def Reg.EDL_GRP_CFG_ALL (n : Nat) : Nat := (0x71 + n) * 0x1000 + 0x40
/-- EDL_GRP.CMD_ALL, R308. -/
def Reg.EDL_GRP_CMD_ALL (n : Nat) : Nat := (0x71 + n) * 0x1000 + 0x44
/-- EDL_GRP.SUMMARY, R308. -/
def Reg.EDL_GRP_SUMMARY (n : Nat) : Nat := (0x71 + n) * 0x1000 + 0x48
def Reg.EDL_GRP_SUMMARY_UP (n : Nat) : Fld := ⟨Reg.EDL_GRP_SUMMARY n, 0, 4⟩
def Reg.EDL_GRP_SUMMARY_FAILED (n : Nat) : Fld := ⟨Reg.EDL_GRP_SUMMARY n, 4, 4⟩
def Reg.EDL_GRP_SUMMARY_WAIT (n : Nat) : Fld := ⟨Reg.EDL_GRP_SUMMARY n, 8, 4⟩
/-- EDL_PORT.CFG, R309. -/
def Reg.EDL_PORT_CFG (n : Nat) : Nat := (0xA0 + n) * 0x1000 + 0x40
def Reg.EDL_PORT_CFG_KIND (n : Nat) : Fld := ⟨Reg.EDL_PORT_CFG n, 0, 2⟩
def Reg.EDL_PORT_CFG_PID (n : Nat) : Fld := ⟨Reg.EDL_PORT_CFG n, 4, 11⟩
def Reg.EDL_PORT_CFG_EXPECT (n : Nat) : Fld := ⟨Reg.EDL_PORT_CFG n, 16, 7⟩
/-- EDL_PORT.CMD, R309. -/
def Reg.EDL_PORT_CMD (n : Nat) : Nat := (0xA0 + n) * 0x1000 + 0x44
def Reg.EDL_PORT_CMD_RETRAIN (n : Nat) : Fld := ⟨Reg.EDL_PORT_CMD n, 0, 1⟩
/-- EDL_PORT.STATE, R309. -/
def Reg.EDL_PORT_STATE (n : Nat) : Nat := (0xA0 + n) * 0x1000 + 0x48
def Reg.EDL_PORT_STATE_STATE (n : Nat) : Fld := ⟨Reg.EDL_PORT_STATE n, 0, 3⟩
def Reg.EDL_PORT_STATE_ATTEMPT (n : Nat) : Fld := ⟨Reg.EDL_PORT_STATE n, 4, 4⟩
def Reg.EDL_PORT_STATE_FOUND (n : Nat) : Fld := ⟨Reg.EDL_PORT_STATE n, 8, 7⟩
def Reg.EDL_PORT_STATE_FIRST_PID (n : Nat) : Fld := ⟨Reg.EDL_PORT_STATE n, 16, 11⟩
/-- EDL_PORT.PAYLOAD, R309. -/
def Reg.EDL_PORT_PAYLOAD (n : Nat) : Nat := (0xA0 + n) * 0x1000 + 0x4C
def Reg.EDL_PORT_PAYLOAD_Mbit (n : Nat) : Fld := ⟨Reg.EDL_PORT_PAYLOAD n, 0, 24⟩
/-- EDL_PORT.DROP_LINES, R309. -/
def Reg.EDL_PORT_DROP_LINES (n : Nat) : Nat := (0xA0 + n) * 0x1000 + 0x50
/-- EDL_PORT.TRAIN_FAILS, R309. -/
def Reg.EDL_PORT_TRAIN_FAILS (n : Nat) : Nat := (0xA0 + n) * 0x1000 + 0x54
/-- EDL_PORT.UNADDR, R309. -/
def Reg.EDL_PORT_UNADDR (n : Nat) : Nat := (0xA0 + n) * 0x1000 + 0x58
/-- EDL_PORT.BURSTS, R309. -/
def Reg.EDL_PORT_BURSTS (n : Nat) : Nat := (0xA0 + n) * 0x1000 + 0x5C
/-- EDL_PORT.LATE_LEVEL, R309. -/
def Reg.EDL_PORT_LATE_LEVEL (n : Nat) : Nat := (0xA0 + n) * 0x1000 + 0x60
/-- EDL_PORT.CNT_CLR, R309. -/
def Reg.EDL_PORT_CNT_CLR (n : Nat) : Nat := (0xA0 + n) * 0x1000 + 0x64
/-- RETBUS.CFG, R310. -/
def Reg.RETBUS_CFG (n : Nat) : Nat := (0xE0 + n) * 0x1000 + 0x40
def Reg.RETBUS_CFG_EN (n : Nat) : Fld := ⟨Reg.RETBUS_CFG n, 0, 1⟩
/-- RETBUS.SLOTS, R310. -/
def Reg.RETBUS_SLOTS (n : Nat) : Nat := (0xE0 + n) * 0x1000 + 0x44
/-- RETBUS.ANSWERS, R310. -/
def Reg.RETBUS_ANSWERS (n : Nat) : Nat := (0xE0 + n) * 0x1000 + 0x48
/-- RETBUS.MISSES, R310. -/
def Reg.RETBUS_MISSES (n : Nat) : Nat := (0xE0 + n) * 0x1000 + 0x4C
/-- RETBUS.CRC_ERR, R310. -/
def Reg.RETBUS_CRC_ERR (n : Nat) : Nat := (0xE0 + n) * 0x1000 + 0x50
/-- RETBUS.CODE_ERR, R310. -/
def Reg.RETBUS_CODE_ERR (n : Nat) : Nat := (0xE0 + n) * 0x1000 + 0x54
/-- RETBUS.LAST, R310. -/
def Reg.RETBUS_LAST (n : Nat) : Nat := (0xE0 + n) * 0x1000 + 0x58
def Reg.RETBUS_LAST_PID (n : Nat) : Fld := ⟨Reg.RETBUS_LAST n, 0, 11⟩
def Reg.RETBUS_LAST_TYPE (n : Nat) : Fld := ⟨Reg.RETBUS_LAST n, 16, 8⟩
/-- RETBUS.CNT_CLR, R310. -/
def Reg.RETBUS_CNT_CLR (n : Nat) : Nat := (0xE0 + n) * 0x1000 + 0x5C
/-- GATE.LEVELS, R326. -/
def Reg.GATE_LEVELS : Nat := 0x100040
def Reg.GATE_LEVELS_SAFE : Fld := ⟨Reg.GATE_LEVELS, 0, 16⟩
def Reg.GATE_LEVELS_AGON : Fld := ⟨Reg.GATE_LEVELS, 16, 16⟩
/-- GATE.BL_CFG, R326. -/
def Reg.GATE_BL_CFG : Nat := 0x100044
def Reg.GATE_BL_CFG_PWM_N : Fld := ⟨Reg.GATE_BL_CFG, 0, 8⟩
def Reg.GATE_BL_CFG_INV : Fld := ⟨Reg.GATE_BL_CFG, 8, 1⟩
def Reg.GATE_BL_CFG_FIXED_DUTY : Fld := ⟨Reg.GATE_BL_CFG, 16, 16⟩
/-- GATE.BL_DUTY, R326. -/
def Reg.GATE_BL_DUTY : Nat := 0x100048
/-- GATE.OUT, R326. -/
def Reg.GATE_OUT : Nat := 0x10004C
def Reg.GATE_OUT_GT : Fld := ⟨Reg.GATE_OUT, 0, 16⟩
def Reg.GATE_OUT_BL_EN : Fld := ⟨Reg.GATE_OUT, 16, 1⟩
def Reg.GATE_OUT_BL_PWM : Fld := ⟨Reg.GATE_OUT, 17, 1⟩
/-- GATE.GT_MODE, R326. -/
def Reg.GATE_GT_MODE (i : Nat) : Nat := 0x100080 + 4 * i
def Reg.GATE_GT_MODE_MODE (i : Nat) : Fld := ⟨Reg.GATE_GT_MODE i, 0, 2⟩
def Reg.GATE_GT_MODE_POL_XOR (i : Nat) : Fld := ⟨Reg.GATE_GT_MODE i, 4, 1⟩
def Reg.GATE_GT_MODE_IDLE (i : Nat) : Fld := ⟨Reg.GATE_GT_MODE i, 5, 1⟩
def Reg.GATE_GT_MODE_FMASK (i : Nat) : Fld := ⟨Reg.GATE_GT_MODE i, 16, 8⟩
/-- GATE.EDGE, R326. -/
def Reg.GATE_EDGE (i : Nat) : Nat := 0x100100 + 4 * i
def Reg.GATE_EDGE_POS0 (i : Nat) : Fld := ⟨Reg.GATE_EDGE i, 0, 12⟩
def Reg.GATE_EDGE_LEVEL0 (i : Nat) : Fld := ⟨Reg.GATE_EDGE i, 12, 1⟩
def Reg.GATE_EDGE_EN0 (i : Nat) : Fld := ⟨Reg.GATE_EDGE i, 15, 1⟩
def Reg.GATE_EDGE_POS1 (i : Nat) : Fld := ⟨Reg.GATE_EDGE i, 16, 12⟩
def Reg.GATE_EDGE_LEVEL1 (i : Nat) : Fld := ⟨Reg.GATE_EDGE i, 28, 1⟩
def Reg.GATE_EDGE_EN1 (i : Nat) : Fld := ⟨Reg.GATE_EDGE i, 31, 1⟩
def Reg.GATE_STATUS_SAFE : Fld := ⟨0x10000C, 0, 1⟩
def Reg.GATE_STATUS_AGON : Fld := ⟨0x10000C, 1, 1⟩
/-- PANELPWR.CFG, R327. -/
def Reg.PANELPWR_CFG : Nat := 0x101040
def Reg.PANELPWR_CFG_AUTO_ON : Fld := ⟨Reg.PANELPWR_CFG, 0, 1⟩
def Reg.PANELPWR_CFG_PE_OWN : Fld := ⟨Reg.PANELPWR_CFG, 4, 4⟩
/-- PANELPWR.CMD, R327. -/
def Reg.PANELPWR_CMD : Nat := 0x101044
def Reg.PANELPWR_CMD_ON : Fld := ⟨Reg.PANELPWR_CMD, 0, 1⟩
def Reg.PANELPWR_CMD_OFF : Fld := ⟨Reg.PANELPWR_CMD, 1, 1⟩
/-- PANELPWR.STATE, R327. -/
def Reg.PANELPWR_STATE : Nat := 0x101048
def Reg.PANELPWR_STATE_STATE : Fld := ⟨Reg.PANELPWR_STATE, 0, 3⟩
def Reg.PANELPWR_STATE_STEP : Fld := ⟨Reg.PANELPWR_STATE, 4, 3⟩
def Reg.PANELPWR_STATE_PE : Fld := ⟨Reg.PANELPWR_STATE, 8, 4⟩
def Reg.PANELPWR_STATE_PENDING : Fld := ⟨Reg.PANELPWR_STATE, 12, 2⟩
/-- PANELPWR.OFF_CFG, R327. -/
def Reg.PANELPWR_OFF_CFG : Nat := 0x10104C
def Reg.PANELPWR_OFF_CFG_AG_FRAMES : Fld := ⟨Reg.PANELPWR_OFF_CFG, 8, 4⟩
def Reg.PANELPWR_OFF_CFG_DIS_LINES : Fld := ⟨Reg.PANELPWR_OFF_CFG, 0, 8⟩
def Reg.PANELPWR_OFF_CFG_OFF_DELAY : Fld := ⟨Reg.PANELPWR_OFF_CFG, 16, 16⟩
/-- PANELPWR.PG_TIMEOUT, R327. -/
def Reg.PANELPWR_PG_TIMEOUT : Nat := 0x101050
/-- PANELPWR.ON_STEP, R327. -/
def Reg.PANELPWR_ON_STEP (i : Nat) : Nat := 0x101060 + 4 * i
def Reg.PANELPWR_ON_STEP_PE_SET (i : Nat) : Fld := ⟨Reg.PANELPWR_ON_STEP i, 0, 4⟩
def Reg.PANELPWR_ON_STEP_GATE_RUN (i : Nat) : Fld := ⟨Reg.PANELPWR_ON_STEP i, 8, 1⟩
def Reg.PANELPWR_ON_STEP_EDL_RUN (i : Nat) : Fld := ⟨Reg.PANELPWR_ON_STEP i, 9, 1⟩
def Reg.PANELPWR_ON_STEP_BL_RUN (i : Nat) : Fld := ⟨Reg.PANELPWR_ON_STEP i, 10, 1⟩
def Reg.PANELPWR_ON_STEP_LAST (i : Nat) : Fld := ⟨Reg.PANELPWR_ON_STEP i, 11, 1⟩
def Reg.PANELPWR_ON_STEP_WAIT_PG (i : Nat) : Fld := ⟨Reg.PANELPWR_ON_STEP i, 12, 1⟩
def Reg.PANELPWR_ON_STEP_DELAY (i : Nat) : Fld := ⟨Reg.PANELPWR_ON_STEP i, 16, 16⟩
/-- PANELPWR.PFAIL_CNT, R327. -/
def Reg.PANELPWR_PFAIL_CNT : Nat := 0x101080
/-- PANELPWR.ON_REFUSED, R327. -/
def Reg.PANELPWR_ON_REFUSED : Nat := 0x101084
/-- PANELPWR.PG_FAIL, R327. -/
def Reg.PANELPWR_PG_FAIL : Nat := 0x101088
/-- PANELPWR.ABORTS, R327. -/
def Reg.PANELPWR_ABORTS : Nat := 0x10108C
/-- PANELPWR.CNT_CLR, R327. -/
def Reg.PANELPWR_CNT_CLR : Nat := 0x101090
/-- MEMC.CFG, R349. -/
def Reg.MEMC_CFG : Nat := 0x110040
def Reg.MEMC_CFG_MOP : Fld := ⟨Reg.MEMC_CFG, 0, 2⟩
/-- MEMC.DEMAND, R349. -/
def Reg.MEMC_DEMAND : Nat := 0x110044
def Reg.MEMC_DEMAND_D : Fld := ⟨Reg.MEMC_DEMAND, 0, 24⟩
/-- MEMC.LIMIT, R349. -/
def Reg.MEMC_LIMIT : Nat := 0x110048
/-- MEMC.ACTIVE_PCT, R349. -/
def Reg.MEMC_ACTIVE_PCT : Nat := 0x11004C
/-- MEMC.C0_MAXLAT, R349. -/
def Reg.MEMC_C0_MAXLAT : Nat := 0x110050
/-- MEMC.C0_OVER, R349. -/
def Reg.MEMC_C0_OVER : Nat := 0x110054
/-- MEMC.C0_HELD, R349. -/
def Reg.MEMC_C0_HELD : Nat := 0x110058
/-- MEMC.C0_FAULTS, R349. -/
def Reg.MEMC_C0_FAULTS : Nat := 0x11005C
/-- MEMC.C0_LAST, R349. -/
def Reg.MEMC_C0_LAST : Nat := 0x110060
def Reg.MEMC_C0_LAST_ENGINE : Fld := ⟨Reg.MEMC_C0_LAST, 0, 4⟩
def Reg.MEMC_C0_LAST_HANDLE : Fld := ⟨Reg.MEMC_C0_LAST, 8, 6⟩
def Reg.MEMC_C0_LAST_KIND : Fld := ⟨Reg.MEMC_C0_LAST, 16, 3⟩
/-- MEMC.C0_LAST_OFS, R349. -/
def Reg.MEMC_C0_LAST_OFS : Nat := 0x110064
/-- MEMC.MOP_SWITCHES, R349. -/
def Reg.MEMC_MOP_SWITCHES : Nat := 0x110068
/-- MEMC.CNT_CLR, R349. -/
def Reg.MEMC_CNT_CLR : Nat := 0x11006C
/-- MEMC.FLT_INFO, R349. -/
def Reg.MEMC_FLT_INFO (i : Nat) : Nat := 0x110100 + 16 * i
def Reg.MEMC_FLT_INFO_HALTED (i : Nat) : Fld := ⟨Reg.MEMC_FLT_INFO i, 0, 1⟩
def Reg.MEMC_FLT_INFO_KIND (i : Nat) : Fld := ⟨Reg.MEMC_FLT_INFO i, 1, 3⟩
def Reg.MEMC_FLT_INFO_CLASS (i : Nat) : Fld := ⟨Reg.MEMC_FLT_INFO i, 4, 3⟩
def Reg.MEMC_FLT_INFO_HANDLE (i : Nat) : Fld := ⟨Reg.MEMC_FLT_INFO i, 8, 6⟩
def Reg.MEMC_FLT_INFO_FAULT_CNT (i : Nat) : Fld := ⟨Reg.MEMC_FLT_INFO i, 16, 16⟩
/-- MEMC.FLT_OFS, R349. -/
def Reg.MEMC_FLT_OFS (i : Nat) : Nat := 0x110104 + 16 * i
/-- MEMC.FLT_DONE, R349. -/
def Reg.MEMC_FLT_DONE (i : Nat) : Nat := 0x110108 + 16 * i
/-- MEMC.FLT_CMD, R349. -/
def Reg.MEMC_FLT_CMD (i : Nat) : Nat := 0x11010C + 16 * i
def Reg.MEMC_FLT_CMD_RESUME (i : Nat) : Fld := ⟨Reg.MEMC_FLT_CMD i, 0, 1⟩
def Reg.MEMC_FLT_CMD_SKIP (i : Nat) : Fld := ⟨Reg.MEMC_FLT_CMD i, 1, 1⟩
def Reg.MEMC_FLT_CMD_ABORT (i : Nat) : Fld := ⟨Reg.MEMC_FLT_CMD i, 2, 1⟩
def Reg.MEMC_STATUS_MOP_ACTIVE : Fld := ⟨0x11000C, 0, 2⟩
def Reg.MEMC_STATUS_SWITCHING : Fld := ⟨0x11000C, 4, 1⟩
def Reg.MEMC_STATUS_TRAINED : Fld := ⟨0x11000C, 8, 3⟩
/-- REGION.REQ, R350. -/
def Reg.REGION_REQ : Nat := 0x111040
def Reg.REGION_REQ_PAGES : Fld := ⟨Reg.REGION_REQ, 0, 16⟩
def Reg.REGION_REQ_CLASS0 : Fld := ⟨Reg.REGION_REQ, 16, 1⟩
def Reg.REGION_REQ_COMMIT : Fld := ⟨Reg.REGION_REQ, 17, 1⟩
/-- REGION.REQ_HANDLE, R350. -/
def Reg.REGION_REQ_HANDLE : Nat := 0x111044
/-- REGION.REQ_GO, R350. -/
def Reg.REGION_REQ_GO : Nat := 0x111048
def Reg.REGION_REQ_GO_ALLOC : Fld := ⟨Reg.REGION_REQ_GO, 0, 1⟩
def Reg.REGION_REQ_GO_FREE : Fld := ⟨Reg.REGION_REQ_GO, 1, 1⟩
/-- REGION.RESULT, R350. -/
def Reg.REGION_RESULT : Nat := 0x11104C
def Reg.REGION_RESULT_BUSY : Fld := ⟨Reg.REGION_RESULT, 0, 1⟩
def Reg.REGION_RESULT_DONE : Fld := ⟨Reg.REGION_RESULT, 1, 1⟩
def Reg.REGION_RESULT_STATUS : Fld := ⟨Reg.REGION_RESULT, 4, 4⟩
def Reg.REGION_RESULT_HANDLE : Fld := ⟨Reg.REGION_RESULT, 8, 6⟩
/-- REGION.FREE_PAGES, R350. -/
def Reg.REGION_FREE_PAGES : Nat := 0x111050
/-- REGION.RESERVE, R350. -/
def Reg.REGION_RESERVE : Nat := 0x111054
/-- REGION.MAP_FREE, R350. -/
def Reg.REGION_MAP_FREE : Nat := 0x111058
/-- REGION.HANDLES, R350. -/
def Reg.REGION_HANDLES : Nat := 0x11105C
/-- REGION.SEL, R350. -/
def Reg.REGION_SEL : Nat := 0x111060
/-- REGION.INFO0, R350. -/
def Reg.REGION_INFO0 : Nat := 0x111064
def Reg.REGION_INFO0_PAGES : Fld := ⟨Reg.REGION_INFO0, 0, 16⟩
def Reg.REGION_INFO0_VALID : Fld := ⟨Reg.REGION_INFO0, 16, 1⟩
def Reg.REGION_INFO0_CLASS0 : Fld := ⟨Reg.REGION_INFO0, 17, 1⟩
def Reg.REGION_INFO0_BY_CTL : Fld := ⟨Reg.REGION_INFO0, 18, 1⟩
/-- REGION.INFO1, R350. -/
def Reg.REGION_INFO1 : Nat := 0x111068
/-- REGION.INFO2, R350. -/
def Reg.REGION_INFO2 : Nat := 0x11106C
def Reg.REGION_INFO2_BASE : Fld := ⟨Reg.REGION_INFO2, 0, 16⟩
/-- REGION.REQ_DROP, R350. -/
def Reg.REGION_REQ_DROP : Nat := 0x111070
/-- REGION.CNT_CLR, R350. -/
def Reg.REGION_CNT_CLR : Nat := 0x111074
/-- SCHED.WEIGHT, R351. -/
def Reg.SCHED_WEIGHT : Nat := 0x112040
def Reg.SCHED_WEIGHT_C1 : Fld := ⟨Reg.SCHED_WEIGHT, 0, 8⟩
def Reg.SCHED_WEIGHT_C2 : Fld := ⟨Reg.SCHED_WEIGHT, 8, 8⟩
def Reg.SCHED_WEIGHT_C3 : Fld := ⟨Reg.SCHED_WEIGHT, 16, 8⟩
def Reg.SCHED_WEIGHT_C4 : Fld := ⟨Reg.SCHED_WEIGHT, 24, 8⟩
/-- SCHED.BEATS_C, R351. -/
def Reg.SCHED_BEATS_C (i : Nat) : Nat := 0x112050 + 4 * i
/-- SCHED.PREEMPT, R351. -/
def Reg.SCHED_PREEMPT : Nat := 0x112064
/-- SCHED.CNT_CLR, R351. -/
def Reg.SCHED_CNT_CLR : Nat := 0x112068
/-- ECC.SCRUB, R352. -/
def Reg.ECC_SCRUB : Nat := 0x113040
def Reg.ECC_SCRUB_EN : Fld := ⟨Reg.ECC_SCRUB, 0, 1⟩
def Reg.ECC_SCRUB_PERIOD : Fld := ⟨Reg.ECC_SCRUB, 8, 8⟩
/-- ECC.CORR, R352. -/
def Reg.ECC_CORR : Nat := 0x113044
/-- ECC.UNCORR, R352. -/
def Reg.ECC_UNCORR : Nat := 0x113048
/-- ECC.RETIRED, R352. -/
def Reg.ECC_RETIRED : Nat := 0x11304C
/-- ECC.RETIRE_FAIL, R352. -/
def Reg.ECC_RETIRE_FAIL : Nat := 0x113050
/-- ECC.SCRUB_PASSES, R352. -/
def Reg.ECC_SCRUB_PASSES : Nat := 0x113054
/-- ECC.LAST_ERR, R352. -/
def Reg.ECC_LAST_ERR : Nat := 0x113058
def Reg.ECC_LAST_ERR_PAGE : Fld := ⟨Reg.ECC_LAST_ERR, 0, 15⟩
def Reg.ECC_LAST_ERR_CHANNEL : Fld := ⟨Reg.ECC_LAST_ERR, 16, 5⟩
def Reg.ECC_LAST_ERR_UNCORR : Fld := ⟨Reg.ECC_LAST_ERR, 24, 1⟩
/-- ECC.LAST_ERR_OFS, R352. -/
def Reg.ECC_LAST_ERR_OFS : Nat := 0x11305C
/-- ECC.ET_ADDR, R352. -/
def Reg.ECC_ET_ADDR : Nat := 0x113060
/-- ECC.ET_DATA, R352. -/
def Reg.ECC_ET_DATA : Nat := 0x113064
/-- ECC.RETIRE_CMD, R352. -/
def Reg.ECC_RETIRE_CMD : Nat := 0x113068
def Reg.ECC_RETIRE_CMD_GO : Fld := ⟨Reg.ECC_RETIRE_CMD, 31, 1⟩
/-- ECC.CNT_CLR, R352. -/
def Reg.ECC_CNT_CLR : Nat := 0x11306C
/-- BULK.TARGET, R353. -/
def Reg.BULK_TARGET : Nat := 0x114040
def Reg.BULK_TARGET_HANDLE : Fld := ⟨Reg.BULK_TARGET, 0, 6⟩
/-- BULK.OFFSET, R353. -/
def Reg.BULK_OFFSET : Nat := 0x114044
/-- BULK.CTRL, R353. -/
def Reg.BULK_CTRL : Nat := 0x114048
def Reg.BULK_CTRL_GO : Fld := ⟨Reg.BULK_CTRL, 0, 1⟩
def Reg.BULK_CTRL_DIR : Fld := ⟨Reg.BULK_CTRL, 1, 1⟩
def Reg.BULK_CTRL_AUTO_INC : Fld := ⟨Reg.BULK_CTRL, 2, 1⟩
def Reg.BULK_CTRL_LEN : Fld := ⟨Reg.BULK_CTRL, 16, 12⟩
/-- BULK.BSTAT, R353. -/
def Reg.BULK_BSTAT : Nat := 0x11404C
def Reg.BULK_BSTAT_BUSY : Fld := ⟨Reg.BULK_BSTAT, 0, 1⟩
def Reg.BULK_BSTAT_DONE : Fld := ⟨Reg.BULK_BSTAT, 1, 1⟩
def Reg.BULK_BSTAT_FAULT : Fld := ⟨Reg.BULK_BSTAT, 2, 1⟩
def Reg.BULK_BSTAT_HALTED : Fld := ⟨Reg.BULK_BSTAT, 3, 1⟩
/-- BULK.DONE_BYTES, R353. -/
def Reg.BULK_DONE_BYTES : Nat := 0x114050
/-- BULK.WIN_DROP, R353. -/
def Reg.BULK_WIN_DROP : Nat := 0x114054
/-- BULK.CNT_CLR, R353. -/
def Reg.BULK_CNT_CLR : Nat := 0x114058
/-- BULK.WIN, R353. -/
def Reg.BULK_WIN (i : Nat) : Nat := 0x114800 + 4 * i
/-- BANKS.NONOWNER_RD, R368. -/
def Reg.BANKS_NONOWNER_RD : Nat := 0x118040
/-- BANKS.NONOWNER_WR, R368. -/
def Reg.BANKS_NONOWNER_WR : Nat := 0x118044
/-- BANKS.COLLIDE, R368. -/
def Reg.BANKS_COLLIDE : Nat := 0x118048
/-- BANKS.OWN_REFUSED, R368. -/
def Reg.BANKS_OWN_REFUSED : Nat := 0x11804C
/-- BANKS.TEST_ABORT, R368. -/
def Reg.BANKS_TEST_ABORT : Nat := 0x118050
/-- BANKS.CNT_CLR, R368. -/
def Reg.BANKS_CNT_CLR : Nat := 0x118054
/-- BANKS.LAST_NONOWNER, R368. -/
def Reg.BANKS_LAST_NONOWNER : Nat := 0x118058
def Reg.BANKS_LAST_NONOWNER_BANK : Fld := ⟨Reg.BANKS_LAST_NONOWNER, 0, 6⟩
def Reg.BANKS_LAST_NONOWNER_OWNER : Fld := ⟨Reg.BANKS_LAST_NONOWNER, 8, 3⟩
def Reg.BANKS_LAST_NONOWNER_WR : Fld := ⟨Reg.BANKS_LAST_NONOWNER, 12, 1⟩
/-- BANKS.WIN_ADDR, R368. -/
def Reg.BANKS_WIN_ADDR : Nat := 0x118060
def Reg.BANKS_WIN_ADDR_OFFSET : Fld := ⟨Reg.BANKS_WIN_ADDR, 2, 17⟩
def Reg.BANKS_WIN_ADDR_BANK : Fld := ⟨Reg.BANKS_WIN_ADDR, 24, 6⟩
/-- BANKS.WIN_DATA, R368. -/
def Reg.BANKS_WIN_DATA : Nat := 0x118064
/-- BANKS.OWN, R368. -/
def Reg.BANKS_OWN (i : Nat) : Nat := 0x118100 + 4 * i
def Reg.BANKS_OWN_OWNER (i : Nat) : Fld := ⟨Reg.BANKS_OWN i, 0, 3⟩
def Reg.BANKS_OWN_ACTIVE (i : Nat) : Fld := ⟨Reg.BANKS_OWN i, 4, 3⟩
def Reg.BANKS_OWN_PENDING (i : Nat) : Fld := ⟨Reg.BANKS_OWN i, 8, 1⟩
def Reg.BANKS_OWN_CLEAR (i : Nat) : Fld := ⟨Reg.BANKS_OWN i, 9, 1⟩
def Reg.BANKS_OWN_CLEAR_BUSY (i : Nat) : Fld := ⟨Reg.BANKS_OWN i, 10, 1⟩
/-- CAS.CFG, R478. -/
def Reg.CAS_CFG : Nat := 0x120040
def Reg.CAS_CFG_EN : Fld := ⟨Reg.CAS_CFG, 0, 1⟩
def Reg.CAS_CFG_LANE_EN : Fld := ⟨Reg.CAS_CFG, 4, 4⟩
def Reg.CAS_CFG_RATE_MAX : Fld := ⟨Reg.CAS_CFG, 8, 3⟩
/-- CAS.GEOM, R478. -/
def Reg.CAS_GEOM : Nat := 0x120044
def Reg.CAS_GEOM_DEPTH : Fld := ⟨Reg.CAS_GEOM, 0, 3⟩
def Reg.CAS_GEOM_ROWS_0 : Fld := ⟨Reg.CAS_GEOM, 16, 2⟩
def Reg.CAS_GEOM_COLS_0 : Fld := ⟨Reg.CAS_GEOM, 18, 2⟩
def Reg.CAS_GEOM_ROWS_1 : Fld := ⟨Reg.CAS_GEOM, 20, 2⟩
def Reg.CAS_GEOM_COLS_1 : Fld := ⟨Reg.CAS_GEOM, 22, 2⟩
def Reg.CAS_GEOM_ROWS_2 : Fld := ⟨Reg.CAS_GEOM, 24, 2⟩
def Reg.CAS_GEOM_COLS_2 : Fld := ⟨Reg.CAS_GEOM, 26, 2⟩
def Reg.CAS_GEOM_ROWS_3 : Fld := ⟨Reg.CAS_GEOM, 28, 2⟩
def Reg.CAS_GEOM_COLS_3 : Fld := ⟨Reg.CAS_GEOM, 30, 2⟩
/-- CAS.POS, R478. -/
def Reg.CAS_POS : Nat := 0x120048
def Reg.CAS_POS_X : Fld := ⟨Reg.CAS_POS, 0, 8⟩
def Reg.CAS_POS_Y : Fld := ⟨Reg.CAS_POS, 8, 8⟩
def Reg.CAS_POS_VALID : Fld := ⟨Reg.CAS_POS, 24, 1⟩
def Reg.CAS_POS_ROOT : Fld := ⟨Reg.CAS_POS, 25, 1⟩
/-- CAS.ROW_OFS, R478. -/
def Reg.CAS_ROW_OFS : Nat := 0x12004C
/-- CAS.SEAM, R478. -/
def Reg.CAS_SEAM : Nat := 0x120050
def Reg.CAS_SEAM_HANDLE : Fld := ⟨Reg.CAS_SEAM, 0, 6⟩
def Reg.CAS_SEAM_EN : Fld := ⟨Reg.CAS_SEAM, 8, 1⟩
/-- CAS.LANE_STATE, R478. -/
def Reg.CAS_LANE_STATE : Nat := 0x120054
def Reg.CAS_LANE_STATE_L0 : Fld := ⟨Reg.CAS_LANE_STATE, 0, 3⟩
def Reg.CAS_LANE_STATE_L1 : Fld := ⟨Reg.CAS_LANE_STATE, 4, 3⟩
def Reg.CAS_LANE_STATE_L2 : Fld := ⟨Reg.CAS_LANE_STATE, 8, 3⟩
def Reg.CAS_LANE_STATE_L3 : Fld := ⟨Reg.CAS_LANE_STATE, 12, 3⟩
/-- CAS.SEAM_LOST_CNT, R478. -/
def Reg.CAS_SEAM_LOST_CNT : Nat := 0x120060
/-- CAS.SYNC_LOSS, R478. -/
def Reg.CAS_SYNC_LOSS : Nat := 0x120064
/-- CAS.POS_ERR, R478. -/
def Reg.CAS_POS_ERR : Nat := 0x120068
/-- CAS.TUNNEL_TIMEOUT, R478. -/
def Reg.CAS_TUNNEL_TIMEOUT : Nat := 0x12006C
/-- CAS.SEAM_CRC, R478. -/
def Reg.CAS_SEAM_CRC : Nat := 0x120070
/-- CAS.CNT_CLR, R478. -/
def Reg.CAS_CNT_CLR : Nat := 0x120074
def Reg.CAS_STATUS_MISMATCH : Fld := ⟨0x12000C, 0, 1⟩
def Reg.CAS_STATUS_SYNC_OK : Fld := ⟨0x12000C, 1, 1⟩


/-- The bases of the PHY blocks of a page (R57's table). -/
def phyBases (u : Unit) : List Nat :=
  match u with
  | .ISL_LANE | .EDL_PORT | .RETBUS => [0x400]
  | .ISL_BC => [0x400, 0x500]
  | .CAS => [0x400, 0x500, 0x600, 0x700, 0x800, 0x900, 0xA00, 0xB00]
  | _ => []

/-- Whether a register row holds the offset, and the element of its array. -/
def RegRow.has (r : RegRow) (off : Nat) : Bool :=
  r.off ≤ off && off < r.off + r.cnt * r.stride && (off - r.off) % r.stride == 0

/-- The header registers of R370 that the host may store into, by offset. -/
def hdrRows : List RegRow :=
  [ .mk' 0x000 1 4 0 0 0 0 0, .mk' 0x004 1 4 0 0 0 0 0, .mk' 0x008 1 4 0x6 0x7 0 0x8 4, .mk' 0x00C 1 4 0 0 0 0 0,
    .mk' 0x010 1 4 0 0 0 0 4, .mk' 0x014 1 4 0 0xFFFFFFFF 0 0 4, .mk' 0x018 1 4 0 0 0xFFFFFFFF 0 0,
    .mk' 0x01C 1 4 0 0 0 0xFFFFFFFF 0, .mk' 0x020 1 4 0 0 0 0 0, .mk' 0x024 1 4 0 0 0 0 0, .mk' 0x028 1 4 0 0 0 0 0,
    .mk' 0x02C 1 4 0 0 0 0xFFFFFFFF 0 ]

/-- Whether an offset lies in a PHY block of the unit, and the offset within the block. -/
def phyOffset (u : Unit) (off : Nat) : Option Nat :=
  match (phyBases u).find? (fun b => b ≤ off && off < b + 0x100) with
  | some b => some (off - b)
  | none => none

/-- The row of the register at an offset of a unit's page: the header on every page, the PHY blocks, the unit's own
registers (on the unit's first page, or on each page of an instanced unit). -/
def rowAt (u : Unit) (off : Nat) : Option RegRow :=
  match hdrRows.find? (·.has off) with
  | some r => some r
  | none =>
    match phyOffset u off with
    | some o => phyRows.find? (·.has o)
    | none => u.rows.find? (·.has off)

/-- The row of the register at a byte address. -/
def rowOf (a : Nat) : Option RegRow :=
  match unitOfPage (a / 0x1000) with
  | some u => rowAt u (a % 0x1000)
  | none => none

/-- The scrambler seed of lane k of ISL and of the cascade (R34). -/
def seedOf (k : Nat) : Nat := 0x0FF000 ^^^ ((k + 1) * 0x000921)

/-- OWNER and ACTIVE of bank n after reset (R357). -/
def bankResetOwner (n : Nat) : Nat :=
  if n < 32 then 0
  else if n = 32 then 1
  else if n = 33 then 2
  else if n = 34 then 1
  else if n < 42 then 0
  else if n < 44 then 3
  else 4

/-- The reset values the tables give by a rule instead of a number: the seeds (R34), the first tap of the SPLIT
filters (R205 table), the bank owners (R357), KIND of a partner entry (R307, kept above the address space), and the
STATUS words whose fields do not all reset to 0. -/
def resetSpecial (a : Nat) : Option Nat :=
  let p := a / 0x1000
  let o := a % 0x1000
  if 0x5000000 ≤ a then (if a % 16 = 0 then some 0x3000 else none)
  else if o = 0x00C then
    (if p = 0x100 then some 1 else if p = 0x050 then some 5 else none)
  else if 0x11 ≤ p && p < 0x21 && o == 0x424 then some (seedOf (p - 0x11))
  else if p = 0x120 && (o % 0x100 == 0x24) && 0x400 ≤ o && o < 0xC00 then some (seedOf ((o / 0x100) % 4))
  else if p = 0x053 && (o == 0x100 || o == 0x140 || o == 0x198) then some 0x8000
  else if p = 0x118 && 0x100 ≤ o && o < 0x1C0 then
    some (bankResetOwner ((o - 0x100) / 4) * 17)
  else none

/-- The value every register word holds after reset: the tables' value (R370, R57 and each chapter's table). -/
def resetWord (a : Nat) : Word :=
  match resetSpecial a with
  | some v => BitVec.ofNat 32 v
  | none =>
    match rowOf a with
    | some r => BitVec.ofNat 32 r.reset
    | none => 0

end Sys2Proof.Machine
end

