-- ==== Sys2Proof/Machine/Ops.lean ====
section
/-! DEFINITION. The named operations every meaning is written with: reading and writing registers and fields, raising
interrupts, counting, recording errors, moving time, and sending something out of the M960. -/

namespace Sys2Proof.Machine

/-! Fields of a word. -/

/-- The value of a field of a word. -/
def Fld.get (x : Fld) (w : Word) : Nat := w.toNat / 2 ^ x.lo % 2 ^ x.w

/-- A word with one field replaced; the value is cut to the field's width. -/
def Fld.put (x : Fld) (w : Word) (n : Nat) : Word :=
  BitVec.ofNat 32 (w.toNat / 2 ^ (x.lo + x.w) * 2 ^ (x.lo + x.w) + n % 2 ^ x.w * 2 ^ x.lo + w.toNat % 2 ^ x.lo)

/-! Registers. -/

/-- The stored word of a register: what the host reads of a plain register, and the shadow of a /F one (R8). -/
def State.rd (s : State) (a : Nat) : Word := Cells.get resetWord s.regs a

/-- The stored word replaced. -/
def State.wr (s : State) (a : Nat) (w : Word) : State := { s with regs := Cells.set resetWord s.regs a w }

/-- The active word of a /F register (R8, R9). -/
def State.rdA (s : State) (a : Nat) : Word := Cells.get resetWord s.act a

/-- A field of the stored word. -/
def State.fld (s : State) (x : Fld) : Nat := x.get (s.rd x.addr)

/-- A field of the active word. -/
def State.fldA (s : State) (x : Fld) : Nat := x.get (s.rdA x.addr)

/-- Whether a one-bit field of the stored word is set. -/
def State.flag (s : State) (x : Fld) : Bool := s.fld x != 0

/-- Whether a one-bit field of the active word is set. -/
def State.flagA (s : State) (x : Fld) : Bool := s.fldA x != 0

/-- A field of the stored word replaced. -/
def State.put (s : State) (x : Fld) (n : Nat) : State := s.wr x.addr (x.put (s.rd x.addr) n)

/-- A whole stored word replaced by a number (cut to 32 bits). -/
def State.wrN (s : State) (a : Nat) (n : Nat) : State := s.wr a (BitVec.ofNat 32 n)

/-- The field that is a whole register. -/
def wholeFld (a : Nat) : Fld := ⟨a, 0, 32⟩

/-- The key of a register that exists once per host port (R333, R379): port 0 has the register's own address. -/
def perPort (port a : Nat) : Nat := port * 0x1000000 + a

/-! The page header (R370, R371). -/

/-- The page whose header a page shows: PARTNER's four pages share one (R374). -/
def hdrPage (p : Nat) : Nat := if 0xF0 ≤ p && p < 0xF4 then 0xF0 else p

/-- Whether the clock gate of a page is closed under manual gating (R406, R407). -/
def State.gateClosed (s : State) (p : Nat) : Bool :=
  s.fld (Reg.HDR_CTRL_GATE_MODE (hdrPage p)) == 0 && s.fld (Reg.HDR_CTRL_CLK_EN (hdrPage p)) == 0

/-! The unit tree (the table before R15, R374) and the interrupts gathered along it (R384, R385). -/

/-- The first pages of the children of a page, in order. -/
def childrenOf (p : Nat) : List Nat :=
  match p with
  | 0x000 => [0x001, 0x002, 0x003, 0x004, 0x005, 0x006, 0x007, 0x008, 0x009, 0x010, 0x030, 0x040, 0x050, 0x060, 0x070,
      0x100, 0x110, 0x118, 0x120]
  | 0x010 => (List.range 17).map (0x011 + ·)
  | 0x030 => [0x031, 0x032]
  | 0x040 => [0x041, 0x042]
  | 0x050 => [0x051, 0x052, 0x053, 0x054]
  | 0x060 => [0x061, 0x062, 0x063, 0x064]
  | 0x070 => (List.range 16).map (0x071 + ·) ++ (List.range 16).map (0x0E0 + ·) ++ [0x0F0]
  | 0x100 => [0x101]
  | 0x110 => [0x111, 0x112, 0x113, 0x114]
  | _ => if 0x071 ≤ p && p < 0x081 then (List.range 4).map (0x0A0 + 4 * (p - 0x071) + ·) else []

/-- The child of CHIP whose branch holds a page. -/
def branchOf (p : Nat) : Nat :=
  if p < 0x010 then p else if p < 0x030 then 0x010 else if p < 0x040 then 0x030 else if p < 0x050 then 0x040
  else if p < 0x060 then 0x050 else if p < 0x070 then 0x060 else if p < 0x100 then 0x070 else if p < 0x110 then 0x100
  else if p < 0x118 then 0x110 else p

/-- IRQ_RAW of a page as it reads: bit 31 gathers the children; a group page has one bit for each child (R308). The
depth bounds the descent. -/
def State.irqRaw (s : State) : Nat → Nat → Word
  | 0, p => s.rd (Reg.HDR_IRQ_RAW (hdrPage p))
  | d + 1, p =>
    let own := s.rd (Reg.HDR_IRQ_RAW (hdrPage p))
    let kids := childrenOf p
    let on := kids.map (fun c => s.irqRaw d c &&& s.rd (Reg.HDR_IRQ_EN (hdrPage c)) != 0)
    if kids.isEmpty then own
    else if 0x071 ≤ p && p < 0x081 then
      BitVec.ofNat 32 ((List.range 4).foldl (fun a i => a + (if on.getD i false then 2 ^ i else 0)) 0)
    else own ||| (if on.any id then 0x80000000#32 else 0)

/-- IRQ_PEND of a page. -/
def State.irqPend (s : State) (p : Nat) : Word := s.irqRaw 3 p &&& s.rd (Reg.HDR_IRQ_EN (hdrPage p))

/-- CHIP.IRQ_SUMMARY (R385). -/
def State.irqSummary (s : State) : Nat :=
  ((childrenOf 0).zipIdx).foldl (fun a e => a + (if s.irqPend e.1 != 0 then 2 ^ e.2 else 0)) 0

/-- An entry of the event log (R447): TIMEBASE, the bit of IRQ_SUMMARY, the unit's page and its IRQ_RAW; the newest 64
are kept. A bit that rises is also due in an EVENT frame when EVENT_EN has it (R80). -/
def State.noteRise (s : State) (was : Bool) (p : Nat) : State :=
  let c := branchOf p
  if p = 0 || was || s.irqPend c == 0 then s
  else
    let i := ((childrenOf 0).findIdx? (· == c)).getD 0
    let e : LogEntry := ⟨(s.rd Reg.AON_TIMEBASE).toNat + 2 ^ 32 * (s.rd Reg.AON_TIMEBASE_HI).toNat, i, p, s.rd (Reg.HDR_IRQ_RAW (hdrPage p))⟩
    let l := s.nv.log ++ [e]
    { s with
      nv := { s.nv with log := l.drop (l.length - 64) }
      isl := { s.isl with rises := if (s.rd Reg.ISL_BC_EVENT_EN).toNat / 2 ^ i % 2 = 1 then s.isl.rises ||| 2 ^ i else s.isl.rises } }

/-- An event of a unit: its IRQ_RAW bit is set whatever IRQ_EN holds (R384); an event of a unit whose manual gate is
closed is lost (R407). -/
def State.raise (s : State) (p b : Nat) : State :=
  if s.gateClosed p then s
  else
    let h := hdrPage p
    let t := s.put ⟨Reg.HDR_IRQ_RAW h, b, 1⟩ 1
    if s.fld ⟨Reg.HDR_IRQ_EN h, b, 1⟩ = 0 || s.fld ⟨Reg.HDR_IRQ_RAW h, b, 1⟩ = 1 then t
    else t.noteRise (s.irqPend (branchOf p) != 0) p

/-- The event is raised when a condition holds. -/
def State.raiseIf (s : State) (c : Bool) (p b : Nat) : State := if c then s.raise p b else s

/-- The bit of a unit's SAT interrupt, in the interrupt list of each chapter. -/
def Unit.satBit : Unit → Option Nat
  | .TIMING => some 6 | .GENLOCK => some 2 | .SREF => some 3 | .INPUT => some 4 | .STATS => some 2 | .CODEC => some 5
  | .ZONE => some 3 | .PSF => some 1 | .FIELD => some 2 | .SPLIT => some 3 | .CELLLUT => some 1 | .PATCH => some 5
  | .DEFECT => some 3 | .OD => some 3 | .THERM => some 3 | .DITH => some 2 | .EDL => some 3 | .EDL_PORT => some 4
  | .RETBUS => some 2 | .PANELPWR => some 5 | .MEMC => some 4 | .REGION => some 2 | .SCHED => some 0 | .ECC => some 4
  | .BULK => some 2 | .BANKS => some 4 | .CHIP => some 3 | .HOSTIF => some 2 | .SEC => some 3 | .CTL => some 3
  | .CLK => some 5 | .PWR => some 5 | .NV => some 7 | .TEST => some 1 | .PERTURB => some 1 | .CAS => some 4
  | .ISL => some 8
  | _ => none

/-- A field that counts, raised to a value: it sticks at all ones, and the unit's SAT is raised when it reaches them
(R89). -/
def State.bumpBy (s : State) (x : Fld) (n : Nat) : State :=
  let old := s.fld x
  let new := satAdd (2 ^ x.w - 1) old n
  let t := s.put x new
  if new = 2 ^ x.w - 1 ∧ old ≠ new then
    match unitOfPage (x.addr / 0x1000) with
    | some u => match u.satBit with
      | some b => t.raise (x.addr / 0x1000) b
      | none => t
    | none => t
  else t

/-- A 32-bit counter register counts one (R89). -/
def State.bump (s : State) (a : Nat) : State := s.bumpBy (wholeFld a) 1

/-- A counter counts one when a condition holds. -/
def State.bumpIf (s : State) (c : Bool) (a : Nat) : State := if c then s.bump a else s

/-- A counter of the PHY block: it saturates at all ones (R57) and raises no SAT. -/
def State.bumpPhy (s : State) (x : Fld) (n : Nat) : State := s.put x (satAdd (2 ^ x.w - 1) (s.fld x) n)

/-- A unit records an error: ERR_CODE takes its code and ERR_COUNT counts, saturating (R373). -/
def State.err (s : State) (p code : Nat) : State :=
  let h := hdrPage p
  (s.wrN (Reg.HDR_ERR_CODE h) code).put (wholeFld (Reg.HDR_ERR_COUNT h))
    (satAdd 0xFFFFFFFF (s.rd (Reg.HDR_ERR_COUNT h)).toNat 1)

/-- Whether the Pawn picture is shown: Pawn mode, or HOSTLOAD awaited (R459, R460). -/
def State.pawn (s : State) : Bool := s.boot.phase == 4 || s.boot.phase == 5

/-! Leaving the M960, and free values. -/

/-- Something leaves the M960. -/
def State.emit (s : State) (k : OutKind) (dst : Nat) (data : List Nat) : State :=
  { s with out := ⟨k, dst, data⟩ :: s.out }

/-- The next free value (log entry 3). -/
def State.free (s : State) : Word := Config.freeWord s.fresh

/-- The free value has been used. -/
def State.used (s : State) : State := { s with fresh := s.fresh + 1 }

/-- A fold over a list of indices. -/
def State.each {α : Type} (s : State) (l : List α) (f : α → State → State) : State := l.foldl (fun t a => f a t) s

/-- A step taken when a condition holds. -/
def State.when (s : State) (c : Bool) (f : State → State) : State := if c then f s else s

/-- Whether this device is a group member (R470). -/
def State.groupMember (s : State) : Bool := s.flag Reg.CAS_CFG_EN

/-- The length of an output line in ticks. -/
def State.linePeriod (s : State) : Nat := (s.rdA Reg.TIMING_LINE_PERIOD).toNat

end Sys2Proof.Machine
end

