-- ==== Sys2Proof/Machine/Perturb.lean ====
section
/-! DEFINITION. Fault injection (R465, R468, R504) and what it fires at each use. -/

namespace Sys2Proof.Machine

/-- The descriptor of an allocated handle. -/
def State.region (s : State) (h : Nat) : Option Region := s.mem.regions.find? (fun r => r.handle == h)

/-- Whether a handle names a class-0 region (R332). -/
def State.isCls0 (s : State) (h : Nat) : Bool :=
  match s.region h with
  | some r => r.cls0
  | none => false

/-- PERTURB.ACTIVE: one bit per register in offset order, and bit 31 while a C0 injection is enabled (R465, R468). -/
def State.c0Injected (s : State) : Bool :=
  s.fld Reg.PERTURB_DRAM_LAT0_C0 != 0
  || s.flag Reg.PERTURB_EDL_BP_EN
  || s.fld ⟨Reg.PERTURB_CODEC_STRETCH, 0, 16⟩ != 0
  || ((s.flag Reg.PERTURB_ECC_INJ_SINGLE || s.flag Reg.PERTURB_ECC_INJ_DOUBLE) && s.fld Reg.PERTURB_ECC_INJ_CLASS == 0)
  || (s.flag Reg.PERTURB_PAGER_EN && s.isCls0 (s.fld Reg.PERTURB_PAGER_HANDLE))

def State.perturbActive (s : State) : Nat :=
  let on : List Bool :=
    [ s.rd Reg.PERTURB_DRAM_LAT0 != 0, s.rd Reg.PERTURB_DRAM_LAT1 != 0, s.fld ⟨Reg.PERTURB_DRAM_LAT2, 0, 16⟩ != 0,
      s.flag Reg.PERTURB_EDL_BP_EN, s.fld ⟨Reg.PERTURB_CODEC_STRETCH, 0, 16⟩ != 0, s.flag Reg.PERTURB_EYE_EN,
      s.fld ⟨Reg.PERTURB_CRC_INJ, 0, 3⟩ != 0, s.fld ⟨Reg.PERTURB_ECC_INJ, 0, 2⟩ != 0, s.flag Reg.PERTURB_PAGER_EN,
      s.fld ⟨Reg.PERTURB_AVS_DELAY, 0, 16⟩ != 0, s.fld ⟨Reg.PERTURB_CLKSW, 0, 4⟩ != 0 ]
  (List.range 11).foldl (fun a i => a + (if on.getD i false then 2 ^ i else 0)) 0 + (if s.c0Injected then 2 ^ 31 else 0)

/-- CHIP.GUARANTEE_VOID is set, and VOID raised as it rises (R21). -/
def State.voidGuarantee (s : State) : State :=
  if s.flag ⟨Reg.CHIP_GUARANTEE_VOID, 0, 1⟩ then s
  else (s.put ⟨Reg.CHIP_GUARANTEE_VOID, 0, 1⟩ 1).raise 0 2

/-- A write of a PERTURB register that has passed its privilege check (R465, R504). A count of 0 fires nothing and
leaves nothing enabled. -/
def State.perturbStore (s : State) (a : Nat) (w : Word) : State :=
  let before := s.c0Injected
  let t :=
    if a = Reg.PERTURB_CRC_INJ then
      let n := Reg.PERTURB_CRC_INJ_COUNT.get w
      let s := s.wr a (if n = 0 then w &&& 0xFFFF0000 else w)
      let i := s.inj
      { s with inj := { i with
          isl := if bit w.toNat 0 then n else 0
          edl := if bit w.toNat 1 then n else 0
          bc := if bit w.toNat 2 then n else 0 } }
    else if a = Reg.PERTURB_ECC_INJ then
      let n := Reg.PERTURB_ECC_INJ_COUNT.get w
      let s := s.wr a (if n = 0 then w &&& 0xFFFFFFFC else w)
      { s with inj := { s.inj with ecc := n } }
    else s.wr a w
  if t.c0Injected && !before then (t.raise 8 0).voidGuarantee
  else if t.c0Injected then t.voidGuarantee
  else t

/-- The registers of the injections. -/
def perturbRegs : List Nat :=
  [Reg.PERTURB_DRAM_LAT0, Reg.PERTURB_DRAM_LAT1, Reg.PERTURB_DRAM_LAT2, Reg.PERTURB_EDL_BP, Reg.PERTURB_CODEC_STRETCH,
   Reg.PERTURB_EYE, Reg.PERTURB_CRC_INJ, Reg.PERTURB_ECC_INJ, Reg.PERTURB_PAGER, Reg.PERTURB_AVS_DELAY,
   Reg.PERTURB_CLKSW]

/-- STOP clears every injection (R465). -/
def State.perturbStop (s : State) : State :=
  { s.each perturbRegs (fun a s => s.wr a 0) with inj := PerturbState.atReset }

/-- An injection fires. -/
def State.injected (s : State) : State := s.bump Reg.PERTURB_INJECTED

/-- The injected latency of a DRAM class, in ns. -/
def latFld (cls : Nat) : Fld := ⟨Reg.PERTURB_DRAM_LAT0 + 4 * (cls / 2), 16 * (cls % 2), 16⟩

/-- Requests of a class that its injected latency delays. -/
def State.injLat (s : State) (cls n : Nat) : State :=
  if s.fld (latFld cls) = 0 then s else s.bumpBy (wholeFld Reg.PERTURB_INJECTED) n

/-- A block whose encoding CODEC_STRETCH stalls. -/
def State.injStretch (s : State) : State :=
  if s.fld ⟨Reg.PERTURB_CODEC_STRETCH, 0, 16⟩ = 0 then s else s.injected

/-- A CRC injection on the ISL (0), EDL (1) or the back-channel (2): its own count falls, and its bit clears when the
count runs out (R504). -/
def State.injCrc (s : State) (t : Nat) : Bool × State :=
  if s.flag ⟨Reg.PERTURB_CRC_INJ, t, 1⟩ then
    let n := (if t = 0 then s.inj.isl else if t = 1 then s.inj.edl else s.inj.bc) - 1
    let s := { s with inj := if t = 0 then { s.inj with isl := n } else if t = 1 then { s.inj with edl := n }
                               else { s.inj with bc := n } }
    let s := if n = 0 then s.put ⟨Reg.PERTURB_CRC_INJ, t, 1⟩ 0 else s
    (true, s.injected)
  else (false, s)

/-- An ECC injection on a read of a class: 1 single-bit, 2 double-bit, 0 none (R504). -/
def State.injEcc (s : State) (cls : Nat) : Nat × State :=
  let one := s.flag Reg.PERTURB_ECC_INJ_SINGLE
  let two := s.flag Reg.PERTURB_ECC_INJ_DOUBLE
  if (one || two) && s.fld Reg.PERTURB_ECC_INJ_CLASS == cls then
    let n := s.inj.ecc - 1
    let s := { s with inj := { s.inj with ecc := n } }
    let s := if n = 0 then s.put ⟨Reg.PERTURB_ECC_INJ, 0, 2⟩ 0 else s
    (if two then 2 else 1, s.injected)
  else (0, s)

/-- The fault kind forced on the next access to a handle, 0 for none (R465); it has fired once. -/
def State.injPager (s : State) (h : Nat) : Nat × State :=
  let k := s.fld Reg.PERTURB_PAGER_KIND
  if s.flag Reg.PERTURB_PAGER_EN && s.fld Reg.PERTURB_PAGER_HANDLE == h && 1 ≤ k && k ≤ 4 then
    (k, (s.put Reg.PERTURB_PAGER_EN 0).injected)
  else (0, s)

/-- Whether the next switch of a multiplexer is handled as one whose old clock has stopped (R465). -/
def State.injClksw (s : State) (m : Nat) : Bool × State :=
  if s.flag ⟨Reg.PERTURB_CLKSW, m, 1⟩ then (true, (s.put ⟨Reg.PERTURB_CLKSW, m, 1⟩ 0).injected)
  else (false, s)

end Sys2Proof.Machine
end

