-- ==== Sys2Proof/Machine/Crc.lean ====
section
/-! DEFINITION. The CRCs of R64, and the 8b/10b code of the back-channel (R32, IEEE 802.3 Clause 36). -/

namespace Sys2Proof.Machine

/-- One byte of an unreflected CRC of `w` bits, most significant bit first. -/
def crcByte (w poly : Nat) (c : Nat) (b : Byte) : Nat :=
  (List.range 8).foldl (fun c i =>
    let top := bit c (w - 1) != b.toNat.testBit (7 - i)
    let sh := c * 2 % 2 ^ w
    if top then sh ^^^ poly else sh) c

/-- CRC-8 of R64. -/
def crc8 (l : List Byte) : Nat := l.foldl (crcByte 8 0x07) 0
/-- CRC-16/CCITT of R64. -/
def crc16 (l : List Byte) : Nat := l.foldl (crcByte 16 0x1021) 0xFFFF

/-- One byte of the reflected CRC-32. -/
def crc32Byte (c : Nat) (b : Byte) : Nat :=
  (List.range 8).foldl (fun c _ => if c % 2 = 1 then c / 2 ^^^ 0xEDB88320 else c / 2) (c ^^^ b.toNat)

/-- CRC-32 of R64 (IEEE 802.3). -/
def crc32 (l : List Byte) : Nat := l.foldl crc32Byte 0xFFFFFFFF ^^^ 0xFFFFFFFF

/-- The two bytes of a CRC-16 as stored: high byte first. -/
def crc16Bytes (l : List Byte) : List Byte := [BitVec.ofNat 8 (crc16 l / 256), BitVec.ofNat 8 (crc16 l % 256)]

/-- The 5b/6b code groups abcdei for running disparity negative, bit a most significant (IEEE 802.3 Table 36-1). -/
def code6 : List Nat :=
  [0b100111, 0b011101, 0b101101, 0b110001, 0b110101, 0b101001, 0b011001, 0b111000,
   0b111001, 0b100101, 0b010101, 0b110100, 0b001101, 0b101100, 0b011100, 0b010111] ++
  [0b011011, 0b100011, 0b010011, 0b110010, 0b001011, 0b101010, 0b011010, 0b111010,
   0b110011, 0b100110, 0b010110, 0b110110, 0b001110, 0b101110, 0b011110, 0b101011]

/-- The 3b/4b code groups fghj for running disparity negative. -/
def code4 : List Nat := [0b1011, 0b1001, 0b0101, 0b1100, 0b1101, 0b1010, 0b0110, 0b1110]

/-- How many ones a number of at most 10 bits has. -/
def ones (n : Nat) : Nat := ((List.range 10).map (fun i => n / 2 ^ i % 2)).sum

/-- A data byte as its 10-bit code group (bit a most significant) and the running disparity after it; `rd` is true
when the disparity is positive. -/
def enc8b10b (rd : Bool) (b : Byte) : Nat × Bool :=
  let x := b.toNat % 32
  let y := b.toNat / 32
  let g6 := code6.getD x 0
  let bal6 := ones g6 == 3
  let s6 := if rd && (!bal6 || x == 7) then 63 - g6 else g6
  let rd1 := if bal6 then rd else !rd
  let alt := y == 7 && ((!rd1 && (x == 17 || x == 18 || x == 20)) || (rd1 && (x == 11 || x == 13 || x == 14)))
  let g4 := if alt then 0b0111 else code4.getD y 0
  let bal4 := ones g4 == 2
  let s4 := if rd1 && (!bal4 || y == 3) then 15 - g4 else g4
  (s6 * 16 + s4, if bal4 then rd1 else !rd1)

/-- The comma K28.5 and the disparity after it. -/
def encK285 (rd : Bool) : Nat × Bool := (if rd then 0b1100000101 else 0b0011111010, !rd)

/-- A list of bytes as code groups. -/
def encBytes : Bool → List Byte → List Nat × Bool
  | rd, [] => ([], rd)
  | rd, b :: bs =>
    let (g, rd1) := enc8b10b rd b
    let (gs, rd2) := encBytes rd1 bs
    (g :: gs, rd2)

end Sys2Proof.Machine
end

