-- ==== Sys2Proof/Machine/Wire.lean ====
section
/-! DEFINITION. Bytes as they come over the links: striped data rows (R61), control blocks and their copies (R62, R65,
R66, R471), frames of the back-channel (R77) and responses of a return bus (R290). -/

namespace Sys2Proof.Machine

/-- A byte of a list, as a number; 0 beyond its end. -/
def byteAt (l : List Byte) (i : Nat) : Nat := (l.getD i 0).toNat

/-- A little-endian field of `n` bytes. -/
def leField (l : List Byte) (i n : Nat) : Nat := leVal ((l.drop i).take n)

/-- The byte stream of data rows (R61), from the payload bytes of the active lanes' blocks, lane after lane: byte i is byte
floor(i / N) of lane i mod N. -/
def destripe (lanes : List (List Byte)) : List Byte :=
  (List.range (lanes.headD []).length).flatMap (fun k => lanes.map (fun l => l.getD k 0))

/-- Whether a control block passes its CRC-16 (R65). -/
def blockGood (b : List Byte) : Bool := b.length == 16 && b.drop 14 == crc16Bytes (b.take 14)

/-- What the copies of a control row have in common: byte 0 and bytes 2 to 13 (R62). -/
def blockBody (b : List Byte) : Byte × List Byte := (b.headD 0, (b.drop 2).take 12)

/-- The copy of a control row that comes on a lane. -/
def copyOn (copies : List (List Byte)) (k : Nat) : List Byte := copies.getD k []

/-- A control row of `n` lanes (R62): its CTYPE and body, when a copy passes its CRC-16 and all that pass agree. -/
def rowAccepted (n : Nat) (copies : List (List Byte)) : Option (Nat × List Byte) :=
  let good := ((List.range n).map (copyOn copies)).filter blockGood
  match good with
  | [] => none
  | b :: rest =>
    if rest.all (fun c => blockBody c == blockBody b) then some ((blockBody b).1.toNat, (blockBody b).2) else none

/-- A control block (R65): CTYPE, the lane, the twelve bytes of the body, the CRC-16. -/
def ctlBlock (ctype lane : Nat) (body : List Byte) : List Byte :=
  let l := [BitVec.ofNat 8 ctype, BitVec.ofNat 8 lane] ++ (body ++ List.replicate 12 0).take 12
  l ++ crc16Bytes l

/-- The CTYPE values of the source link (R66) and of the cascade (R471). -/
def rowIDLE : Nat := 0x1E
def rowPIP : Nat := 0x2D
def rowSLEEP : Nat := 0x33
def rowWAKE : Nat := 0x4B
def rowREGION : Nat := 0x55
def rowTABLE : Nat := 0x66
def rowTS1 : Nat := 0x78
def rowALN : Nat := 0x87
def rowMETA : Nat := 0x99
def rowFSYNC : Nat := 0xA5
def rowSEAM : Nat := 0xB4
def rowTUNNEL : Nat := 0xC3
def rowPOS : Nat := 0xD2

/-- A frame of the back-channel without its comma (R77): its TYPE, TAG and payload when LEN is at most 256 and the CRC-16
passes. -/
def bcFrame (l : List Byte) : Option (Nat × Nat × List Byte) :=
  let n := leField l 2 2 % 512
  if n ≤ 256 && l.length == n + 6 && l.drop (n + 4) == crc16Bytes (l.take (n + 4)) then
    some (byteAt l 0, byteAt l 1, (l.drop 4).take n)
  else none

/-- The bytes of a frame of the back-channel (R77). -/
def bcBytes (type tag : Nat) (payload : List Byte) : List Byte :=
  let l : List Byte := [BitVec.ofNat 8 type, BitVec.ofNat 8 tag] ++ leBytes 2 (payload.length % 512) ++ payload
  l ++ crc16Bytes l

/-- A response of a return bus without its commas (R290): PID, TYPE and payload when LEN is at most 64 and the CRC-16
passes. -/
def busFrame (l : List Byte) : Option (Nat × Nat × List Byte) :=
  let n := byteAt l 4
  if n ≤ 64 && l.length == n + 7 && l.drop (n + 5) == crc16Bytes (l.take (n + 5)) then
    some (leField l 0 2 % 2048, byteAt l 2, (l.drop 5).take n)
  else none

/-- The bytes of a response (R290). -/
def busBytes (pid type tag : Nat) (payload : List Byte) : List Byte :=
  let l : List Byte := leBytes 2 pid ++ [BitVec.ofNat 8 type, BitVec.ofNat 8 tag, BitVec.ofNat 8 payload.length] ++ payload
  l ++ crc16Bytes l

end Sys2Proof.Machine
end

