-- ==== Sys2Proof/Machine/Lanes.lean ====
section
/-! DEFINITION. The serial lanes under every link (R26 to R59, R498): the PHY block of each lane direction, lane
states, scramblers, adaptation, eye scan and the spread reference. -/

namespace Sys2Proof.Machine

/-! Lane numbers: 0 to 15 ISL RX, 16 to 79 EDL TX, 80 to 95 return-bus RX, 96 BC_RX, 97 BC_TX, 98 to 101 CAS TX,
102 to 105 CAS RX (R26). -/

def laneIsl (k : Nat) : Nat := k
def laneEdl (p : Nat) : Nat := 16 + p
def laneRet (g : Nat) : Nat := 80 + g
def laneBcRx : Nat := 96
def laneBcTx : Nat := 97
def laneCasTx (k : Nat) : Nat := 98 + k
def laneCasRx (k : Nat) : Nat := 102 + k
def laneCount : Nat := 106

/-- The base of a lane's PHY block (the table before R57). -/
def phyBase (l : Nat) : Nat :=
  if l < 16 then (0x11 + l) * 0x1000 + 0x400
  else if l < 80 then (0xA0 + (l - 16)) * 0x1000 + 0x400
  else if l < 96 then (0xE0 + (l - 80)) * 0x1000 + 0x400
  else if l = 96 then 0x21400
  else if l = 97 then 0x21500
  else if l < 102 then 0x120400 + 0x100 * (l - 98)
  else 0x120800 + 0x100 * (l - 102)

/-- The lane whose PHY block holds a register address, if one does. -/
def laneOfAddr (a : Nat) : Option Nat :=
  (List.range laneCount).find? (fun l => phyBase l ≤ a && a < phyBase l + 0x100)

/-- Lane kinds. -/
def laneIsRx (l : Nat) : Bool := l < 16 || (80 ≤ l && l < 97) || (102 ≤ l && l < 106)
/-- Lanes with a PRBS checker: every receiver, and the internal one at the end of an EDL lane's near-end path (R54, R56). -/
def laneHasChecker (l : Nat) : Bool := laneIsRx l || (16 ≤ l && l < 80)
/-- ISL RX and CAS: 128b/130b with the additive scrambler (R33). -/
def laneIsBlock (l : Nat) : Bool := l < 16 || (98 ≤ l && l < 106)
/-- Return-bus receivers. -/
def laneIsRet (l : Nat) : Bool := 80 ≤ l && l < 96
/-- Receivers with an 8-tap DFE: ISL and CAS RX (R42). -/
def laneHasDfe (l : Nat) : Bool := l < 16 || (102 ≤ l && l < 106)
/-- Transmitters with an equaliser: EDL and CAS TX (R47). -/
def laneHasTxeq (l : Nat) : Bool := (16 ≤ l && l < 80) || (98 ≤ l && l < 102)
/-- Lanes whose RATE register holds a code: the return buses and the back-channel read 0 (R29). -/
def laneHasRate (l : Nat) : Bool := l < 80 || 98 ≤ l

/-- Whether a register of the PHY block applies to the lane kind; one that does not is inert (R57). -/
def phyApplies (l off : Nat) : Bool :=
  match off with
  | 0x04 => laneHasRate l
  | 0x08 | 0x0C | 0x1C | 0x30 | 0x34 | 0x38 | 0x40 | 0x44 => laneIsRx l
  | 0x10 | 0x14 | 0x18 => laneHasDfe l
  | 0x20 => laneHasTxeq l
  | 0x24 => laneIsBlock l
  | 0x4C | 0x50 => laneHasChecker l
  | _ => true

/-- The domain a lane lies in (R412). -/
def laneDomain (l : Nat) : Nat :=
  if l < 16 then 2
  else if l < 80 then 12 + (l - 16) / 4
  else if l < 96 then 28 + (l - 80)
  else if l = 96 then 4
  else if l = 97 then 3
  else 44

def State.lane (s : State) (l : Nat) : Lane := Cells.get (fun _ => Lane.atReset) s.phy.lanes l
def State.setLane (s : State) (l : Nat) (x : Lane) : State :=
  { s with phy := { s.phy with lanes := Cells.set (fun _ => Lane.atReset) s.phy.lanes l x } }
def State.mapLane (s : State) (l : Nat) (f : Lane → Lane) : State := s.setLane l (f (s.lane l))

/-- The state a lane is in: 0 L0, 1 LS, 2 LOFF (R51). -/
def State.laneCur (s : State) (l : Nat) : Nat := s.fld (Reg.PHY_LSTATE_CUR (phyBase l))
def State.laneInL0 (s : State) (l : Nat) : Bool := s.laneCur l == 0

/-- The host's limit; 0b11 is treated as LOFF (R57). -/
def State.laneHostReq (s : State) (l : Nat) : Nat := min 2 (s.fld (Reg.PHY_LSTATE_REQ (phyBase l)))

/-- The state a lane moves to: the deepest of the host's limit, the protocol's request and what the domain implies
(R52, R53); a test stands in the place of its protocol while the host's limit is L0 (R59). -/
def State.laneTarget (s : State) (l : Nat) : Nat :=
  max (max (s.laneHostReq l) (if (s.lane l).test && s.laneHostReq l == 0 then 0 else (s.lane l).proto))
    (min 2 (s.fld (Reg.PHY_LSTATE_DOMAIN (phyBase l))))

/-- A transition starts: BUSY is 1 throughout it (R498). -/
def State.laneStart (s : State) (l t : Nat) : State :=
  (s.mapLane l (fun x => { x with trans := some t })).put (Reg.PHY_LSTATE_BUSY (phyBase l)) 1

/-- What a lane moves to may have changed: a transition starts, or a target other than the one the lane is bound for
waits for the transition under way, the latest replacing and counting an earlier one (R53). -/
def State.laneAim (s : State) (l : Nat) : State :=
  let t := s.laneTarget l
  match (s.lane l).trans with
  | none => if t = s.laneCur l then s else s.laneStart l t
  | some u =>
    if t = (s.lane l).pend.getD u then s
    else
      let s := if (s.lane l).pend.isSome then s.bumpPhy (Reg.PHY_TRANS_CNT_SUPERSEDED (phyBase l)) 1 else s
      s.mapLane l (fun x => { x with pend := some t })

/-- A protocol layer asks for a state (R52). -/
def State.laneProto (s : State) (l t : Nat) : State :=
  (s.mapLane l (fun x => { x with proto := t })).laneAim l

/-- Bits of the dwell of a point: 2^(DWELL + 10) UI, DWELL 31 acting as 30 (R49, R57; log entry 66). -/
def State.esDwell (s : State) (l : Nat) : Nat := 2 ^ (min 30 (s.fld (Reg.PHY_ES_CTRL_DWELL (phyBase l))) + 10)

/-- A scan's counts are put down; ES_ERRS at all ones sets SAT (R49, R50). -/
def State.esCounts (s : State) (l ui errs : Nat) : State :=
  let b := phyBase l
  let s := ((s.wrN (Reg.PHY_ES_ERRS b) errs).wrN (Reg.PHY_ES_UI b) (ui % 2 ^ 32)).wrN (Reg.PHY_ES_UI_HI b) (ui / 2 ^ 32)
  let s := (s.put (Reg.PHY_ES_STATUS_BUSY b) 0).put (Reg.PHY_ES_STATUS_DONE b) 1
  if errs = 0xFFFFFFFF then s.put (Reg.PHY_ES_STATUS_SAT b) 1 else s

/-- The eye scan of a lane that leaves L0 stops with its partial counts (R50): how far it came is a free value short of
its dwell, with no more mismatches than compared UI (log entry 3). -/
def State.esAbort (s : State) (l : Nat) : State :=
  if s.flag (Reg.PHY_ES_STATUS_BUSY (phyBase l)) then
    let ui := (s.free.toNat + 2 ^ 32 * s.used.free.toNat) % s.esDwell l
    let errs := min 0xFFFFFFFF (s.used.used.free.toNat % (ui + 1))
    (s.used.used.used.esCounts l ui errs).put (Reg.PHY_ES_STATUS_ABORTED (phyBase l)) 1
  else s

/-- What a lane loses and keeps on reaching a state. Leaving L0 aborts a scan (R50), and a receiver shows no lock outside
L0 (log entry 64). LOFF loses the taps (R44), and leaving it starts the disparity negative and the EDL scrambler at zero
(R32, R36). A receiver that was locked when it entered LS wakes locked and frozen (R44, R51); one that comes from LOFF, at
once or through LS, is retrained and adapts (log entry 21). A lane in L0 loads its seed at its first block (R34). A
return-bus receiver locks by itself on its way to L0 (R51). -/
def State.laneReached (s : State) (l t : Nat) : State :=
  let b := phyBase l
  let old := s.laneCur l
  let warm := old == 1 && (s.lane l).held
  let s := if old = 0 ∧ t ≠ 0 then s.esAbort l else s
  let held := t == 1 && (if old = 0 then s.flag (Reg.PHY_RXSTAT_LOCK b) else (s.lane l).held)
  let s := s.mapLane l (fun x => { x with held := held })
  let s := if t ≠ 0 ∧ laneIsRx l then (s.put (Reg.PHY_RXSTAT_LOCK b) 0).put (Reg.PHY_PRBS_STAT_SYNC b) 0 else s
  let s := if t = 2 ∧ laneHasDfe l then
      ((s.wr (Reg.PHY_DFE_TAPS0 b) (s.free &&& 0x3F3F3FFF)).used.wr (Reg.PHY_DFE_TAPS1 b) (s.used.free &&& 0x3F3F3F3F)).used
    else s
  let s := if old = 2 ∧ t ≠ 2 then s.mapLane l (fun x => { x with lfsr := 0, rd := false }) else s
  let s := if t = 0 then
      let s := s.mapLane l (fun x => { x with
        needSeed := true, goodRun := 0, window := []
        taps0 := s.rd (Reg.PHY_DFE_TAPS0 b), taps1 := s.rd (Reg.PHY_DFE_TAPS1 b) })
      let s := if laneIsRx l ∧ (warm || laneIsRet l) then s.put (Reg.PHY_RXSTAT_LOCK b) 1 else s
      if laneHasDfe l then s.put (Reg.PHY_RXSTAT_FROZEN b) (b2n warm) else s
    else s
  s.put (Reg.PHY_LSTATE_CUR b) t

/-- A transition completes, and the lane moves on to the latest target written (R53). A lane with no transition under
way completes nothing. -/
def State.laneDone (s : State) (l : Nat) : State :=
  match (s.lane l).trans with
  | none => s
  | some t =>
    let p := (s.lane l).pend
    let s := s.laneReached l t
    let s := (s.mapLane l (fun x => { x with trans := none, pend := none })).put (Reg.PHY_LSTATE_BUSY (phyBase l)) 0
    match p with
    | some u => if u = t then s else s.laneStart l u
    | none => s

/-- A receiver loses lock (R45). -/
def State.laneLostLock (s : State) (l : Nat) : State :=
  let b := phyBase l
  (s.put (Reg.PHY_RXSTAT_LOCK b) 0).bumpPhy (wholeFld (Reg.PHY_LOCKLOSS_CNT b)) 1

/-- A receiver locks. -/
def State.laneLocked (s : State) (l : Nat) (inverted : Bool) : State :=
  let b := phyBase l
  let s := s.put (Reg.PHY_RXSTAT_LOCK b) 1
  if l < 16 ∨ l = 96 ∨ 102 ≤ l then s.put (Reg.PHY_RXSTAT_INVERTED b) (b2n inverted) else s

/-! PRBS and loopback (R54, R56). -/

/-- The lane at the other side of a near-end or far-end path (R56): CAS TX k and RX k, BC_TX and BC_RX; an ISL receiver
and an EDL transmitter have a test path of their own. -/
def laneMate (l : Nat) : Nat :=
  if 98 ≤ l ∧ l < 102 then l + 4 else if 102 ≤ l then l - 4 else if l = 96 then 97 else if l = 97 then 96 else l

/-- Whether a loopback (1 near-end, 2 far-end) is on at a lane, written at it or at its mate (R56). -/
def State.looped (s : State) (l mode : Nat) : Bool :=
  s.fld (Reg.PHY_PRBS_LOOP (phyBase l)) == mode || s.fld (Reg.PHY_PRBS_LOOP (phyBase (laneMate l))) == mode

/-- Whether a lane carries its link's traffic: it is in L0, no test has taken it out of its link (R55), and its balls are
not idle under near-end loopback (R51, R56). -/
def State.laneCarries (s : State) (l : Nat) : Bool :=
  s.laneInL0 l && !(s.lane l).test && !s.looped l 1 && !s.looped l 2

/-- One bit of a pattern: the exclusive or of the bits `a` and `c` places back. -/
def prbsRun (a c w : Nat) : Nat → Nat → List Bool
  | 0, _ => []
  | n + 1, d =>
    let o := bit d (a - 1) != bit d (c - 1)
    o :: prbsRun a c w n ((2 * d + b2n o) % 2 ^ w)

/-- The pattern that a generator sends and a checker awaits (R54): PRBS7 (x^7 + x^6 + 1) or PRBS31 (x^31 + x^28 + 1) from
a register contents, perhaps inverted. -/
def prbsBits (long inv : Bool) (seed n : Nat) : List Bool :=
  (if long then prbsRun 31 28 31 n seed else prbsRun 7 6 7 n seed).map (fun b => b != inv)

/-- A generator that runs fills its lane with the pattern, uncoded: the first 128 UI of it leave; the contents it starts
from are not stated, but not all zeros (log entry 3). -/
def State.prbsFill (s : State) (l : Nat) : State :=
  let b := phyBase l
  if !laneIsRx l && s.laneInL0 l && s.flag (Reg.PHY_PRBS_GEN_EN b) && !s.looped l 1 then
    let long := s.flag (Reg.PHY_PRBS_PATTERN b)
    let seed := 1 + s.free.toNat % (if long then 2 ^ 31 - 1 else 127)
    s.used.emit .prbs l ((prbsBits long (s.flag (Reg.PHY_PRBS_INVERT b)) seed 128).map b2n)
  else s

/-! The additive scrambler of ISL and CAS lanes (R33, R34); bit j − 1 of the state is d[j]. -/

/-- The scrambler's state just after a seed load (R34). -/
def seedState (seed : Nat) : Nat := seed % 2 ^ 23

/-- One payload bit: the output bit and the next state. -/
def lfsrStep (d : Nat) : Bool × Nat :=
  let b := bit d 22 != (bit d 20 != (bit d 15 != (bit d 7 != (bit d 4 != bit d 1))))
  (b, (d * 2 + b2n b) % 2 ^ 23)

/-- A payload of `n` bits in wire order, scrambled or descrambled, and the next state. -/
def lfsrRun : Nat → Nat → Nat → Nat × Nat
  | 0, d, _ => (0, d)
  | n + 1, d, v =>
    let (b, d1) := lfsrStep d
    let (rest, d2) := lfsrRun n d1 (v / 2)
    (b2n (b != (v % 2 == 1)) + 2 * rest, d2)

/-! The self-synchronous scrambler of the EDL forward lanes (R36); bit j − 1 of the state is the output j bits ago. -/

/-- A payload of `n` bits in wire order scrambled, and the next state. -/
def selfSyncRun : Nat → Nat → Nat → Nat × Nat
  | 0, d, _ => (0, d)
  | n + 1, d, v =>
    let o := (v % 2 == 1) != (bit d 38 != bit d 57)
    let (rest, d2) := selfSyncRun n ((d * 2 + b2n o) % 2 ^ 58) (v / 2)
    (b2n o + 2 * rest, d2)

/-- A 64b/66b block leaves an EDL lane that carries traffic: sync header, then the scrambled payload (R31, R36). -/
def State.edlSend (s : State) (port hdr payload : Nat) : State :=
  let l := laneEdl port
  let (w, d) := selfSyncRun 64 (s.lane l).lfsr payload
  if !s.laneCarries l then s else
  (s.mapLane l (fun x => { x with lfsr := d })).emit .edl port [hdr, payload, w]

/-- A 128b/130b block leaves a CAS lane that carries traffic; a training block goes unscrambled (R33, R34). -/
def State.casSend (s : State) (k hdr payload : Nat) : State :=
  let l := laneCasTx k
  let x := s.lane l
  if !s.laneCarries l then s
  else if x.scrambled then
    let d0 := if x.needSeed then seedState (s.fld ⟨Reg.PHY_SEED (phyBase l), 0, 23⟩) else x.lfsr
    let (w, d) := lfsrRun 128 d0 payload
    (s.setLane l { x with lfsr := d, needSeed := false }).emit .cas k [hdr, payload, w]
  else s.emit .cas k [hdr, payload, payload]

/-- Code groups leave BC_TX: K28.5 and some bytes (R32, R77). -/
def State.bcGroups (s : State) (l : List Byte) : State :=
  let x := s.lane laneBcTx
  let (k, rd0) := encK285 x.rd
  let (gs, rd1) := encBytes rd0 l
  (s.setLane laneBcTx { x with rd := rd1 }).emit .bcLine 0 (k :: gs)

/-- BC_TX has no frame to send: the idle pair K28.5 D16.2, which it repeats until the next frame (R77). The pair leaves the
disparity as it was, so that one stands for all. -/
def State.bcIdle (s : State) : State := if s.laneCarries laneBcTx then s.bcGroups [0x50#8] else s

/-- A back-channel frame leaves: K28.5, the frame's bytes and its CRC-16 (R77), as bytes and as code groups (R32), and the
idle pair follows. -/
def State.bcSend (s : State) (type tag : Nat) (payload : List Byte) : State :=
  let good := bcBytes type tag payload
  let (hurt, s) := s.injCrc 2
  let n := payload.length + 4
  let frame := if hurt then good.take n ++ (good.drop n).map (fun b => ~~~b) else good
  if !s.laneCarries laneBcTx then s
  else ((s.bcGroups frame).bcIdle).emit .bc 0 (frame.map (·.toNat))

/-! Equalisation (R41). -/

/-- RXEQ.CTLE counts while CTLE_AUTO is 0: the peaking in use follows it at once (R41). -/
def State.ctleFollow (s : State) (l : Nat) : State :=
  let b := phyBase l
  if s.flag (Reg.PHY_RXEQ_CTLE_AUTO b) then s else s.mapLane l (fun x => { x with ctle := s.fld (Reg.PHY_RXEQ_CTLE b) })

/-- The EQ phase of training: with CTLE_AUTO the receiver chooses its peaking, a free value, and holds it (R41). -/
def State.ctleChoose (s : State) (l : Nat) : State :=
  if s.flag (Reg.PHY_RXEQ_CTLE_AUTO (phyBase l)) then (s.mapLane l (fun x => { x with ctle := s.free.toNat % 16 })).used
  else s

/-! Blocks, adaptation and eye scan. -/

/-- Whether a control block of the link carries a pip (CTYPE 0x2D, R66), or an FSYNC on a CAS lane (R473's block). -/
def blockIsPip (hdr data : Nat) : Bool := hdr == 2 && data % 256 == 0x2D

/-- Bits recovered on a lane with far-end loopback leave on its mate, uncoded anew (R56): CAS RX k on CAS TX k. -/
def State.casEcho (s : State) (l hdr payload : Nat) : State :=
  if 102 ≤ l && s.looped l 2 && s.laneInL0 (laneMate l) then s.emit .cas (l - 102) [hdr, payload, payload] else s

/-- A 130-bit block is taken: its sync header is checked (R30), its payload descrambled (R33, R34), and it is passed on
(marked invalid by its header). True when block lock is dropped. -/
def State.takeBlock (s : State) (l hdr payload : Nat) : State × Bool :=
  let b := phyBase l
  let bad := hdr != 1 && hdr != 2
  let x := s.lane l
  let win := (bad :: x.window).take 64
  let s := if bad then s.bumpPhy (Reg.PHY_RXSTAT_BLKERR b) 1 else s
  let d0 := if x.needSeed then seedState (s.fld ⟨Reg.PHY_SEED b, 0, 23⟩) else x.lfsr
  let (data, d1) := if x.scrambled then lfsrRun 128 d0 payload else (payload, x.lfsr)
  let drop := bad && 16 ≤ (win.filter id).length
  let s := s.setLane l { x with
    window := if drop then [] else win
    lfsr := d1
    needSeed := if x.scrambled then blockIsPip hdr data else x.needSeed
    rxHdr := hdr
    rxData := data }
  (s, drop)

/-- One DFE update by sign-sign LMS (R42): each tap moves one step up when the signs of the error and of its past
decision agree, else one step down, within its range. -/
def dfeStep (w v : Nat) (up : Bool) : Nat :=
  let lim : Int := 2 ^ (w - 1) - 1
  toField w (clampInt (-lim) lim (sext w v + (if up then 1 else -1)))

/-- Taps 1 to 4 (bytes of DFE_TAPS0) and 5 to 8 (DFE_TAPS1) after an update. -/
def dfeTaps (base : Nat) (n : Nat) (w : Word) (err : Bool) (dec : Nat) : Word :=
  (List.range 4).foldl (fun w i =>
    let wd := if base + i = 0 then 8 else 6
    let x : Fld := ⟨0, 8 * i, wd⟩
    x.put w (dfeStep wd (x.get w) (err == bit dec (n + i)))) w

def State.dfeUpdate (s : State) (l : Nat) (err : Bool) (dec : Nat) : State :=
  let b := phyBase l
  if laneHasDfe l && s.laneInL0 l && s.flag (Reg.PHY_RXEQ_ADAPT_EN b) && !s.flag (Reg.PHY_RXSTAT_FROZEN b) then
    (s.wr (Reg.PHY_DFE_TAPS0 b) (dfeTaps 0 0 (s.rd (Reg.PHY_DFE_TAPS0 b)) err dec)).wr (Reg.PHY_DFE_TAPS1 b)
      (dfeTaps 4 4 (s.rd (Reg.PHY_DFE_TAPS1 b)) err dec)
  else s

/-- A window of 4,096 UI in L0 ends with a number of bit transitions (R43). -/
def State.adaptWindow (s : State) (l trans : Nat) : State :=
  let b := phyBase l
  if laneHasDfe l && s.laneInL0 l then
    let x := s.lane l
    let frozen := s.flag (Reg.PHY_RXSTAT_FROZEN b)
    let s :=
      if trans < 256 then
        let s := s.mapLane l (fun x => { x with goodRun := 0 })
        if frozen then s
        else
          -- taps that do not adapt are the host's, and stay (R42)
          let s := if s.flag (Reg.PHY_RXEQ_ADAPT_EN b) then
              (s.wr (Reg.PHY_DFE_TAPS0 b) x.taps0).wr (Reg.PHY_DFE_TAPS1 b) x.taps1 else s
          (s.put (Reg.PHY_RXSTAT_FROZEN b) 1).bumpPhy (Reg.PHY_FREEZE_CNT_FREEZE b) 1
      else if frozen then
        if x.goodRun + 1 < 16 then s.mapLane l (fun x => { x with goodRun := x.goodRun + 1 })
        else
          ((s.mapLane l (fun x => { x with goodRun := 0 })).put (Reg.PHY_RXSTAT_FROZEN b) 0).bumpPhy
            (Reg.PHY_FREEZE_CNT_RESUME b) 1
      else s
    s.mapLane l (fun x => { x with taps0 := s.rd (Reg.PHY_DFE_TAPS0 b), taps1 := s.rd (Reg.PHY_DFE_TAPS1 b) })
  else s

/-- ES_CTRL.START is written (R49, R50). -/
def State.esStart (s : State) (l : Nat) : State :=
  let b := phyBase l
  if s.flag (Reg.PHY_ES_STATUS_BUSY b) then s
  else
    let s := ((s.wr (Reg.PHY_ES_ERRS b) 0).wr (Reg.PHY_ES_UI b) 0).wr (Reg.PHY_ES_UI_HI b) 0
    if s.laneInL0 l then s.wr (Reg.PHY_ES_STATUS b) 1
    else s.wr (Reg.PHY_ES_STATUS b) 6

/-- The dwell of a point ends: the mismatches and the compared UI are counted and DONE is set (R49); ES_ERRS saturates
and sets SAT (R50). -/
def State.esEnd (s : State) (l errs : Nat) : State :=
  if s.flag (Reg.PHY_ES_STATUS_BUSY (phyBase l)) then s.esCounts l (s.esDwell l) (min 0xFFFFFFFF errs) else s

/-- Whether a pattern reaches a lane's checker: from the balls of a receiver, or under near-end loopback from the
generator of its own test path, where that runs and sends the same pattern (R54, R56). -/
def State.prbsFed (s : State) (l : Nat) : Bool :=
  let b := phyBase l
  let g := phyBase (laneMate l)
  laneHasChecker l && s.laneInL0 l &&
    (if s.looped l 1 then
      !laneIsRet l && s.flag (Reg.PHY_PRBS_GEN_EN g) && s.fld (Reg.PHY_PRBS_PATTERN g) == s.fld (Reg.PHY_PRBS_PATTERN b)
        && s.fld (Reg.PHY_PRBS_INVERT g) == s.fld (Reg.PHY_PRBS_INVERT b)
    else laneIsRx l)

/-- A checker locks onto the pattern, and mismatched bits after that count (R54). -/
def State.prbsSync (s : State) (l errs : Nat) : State :=
  let b := phyBase l
  if s.prbsFed l && s.flag (Reg.PHY_PRBS_CHK_EN b) then
    let s := s.put (Reg.PHY_PRBS_STAT_SYNC b) 1
    let e := satAdd 0xFFFFFFFF (s.rd (Reg.PHY_PRBS_ERRS b)).toNat errs
    let s := s.wrN (Reg.PHY_PRBS_ERRS b) e
    if e = 0xFFFFFFFF then s.put (Reg.PHY_PRBS_STAT_SAT b) 1 else s
  else s

/-- A PHY block's CNT_CLR (R57). -/
def State.phyCntClr (s : State) (l m : Nat) : State :=
  let b := phyBase l
  let s := if bit m 0 then s.wr (Reg.PHY_FREEZE_CNT b) 0 else s
  let s := if bit m 1 then s.wr (Reg.PHY_LOCKLOSS_CNT b) 0 else s
  let s := if bit m 2 then s.wr (Reg.PHY_TRANS_CNT b) 0 else s
  let s := if bit m 3 then s.put (Reg.PHY_RXSTAT_BLKERR b) 0 else s
  let s := if bit m 4 then
      (((s.wr (Reg.PHY_ES_ERRS b) 0).wr (Reg.PHY_ES_UI b) 0).wr (Reg.PHY_ES_UI_HI b) 0).wr (Reg.PHY_ES_STATUS b) 0
    else s
  if bit m 5 then (s.wr (Reg.PHY_PRBS_ERRS b) 0).put (Reg.PHY_PRBS_STAT_SAT b) 0 else s

/-- The pre- and post-cursor units of a preset (R48). -/
def presetUnits (p : Nat) : Nat × Nat :=
  [(0, 0), (0, 6), (0, 12), (0, 20), (4, 0), (4, 12), (8, 16), (12, 24)].getD (min p 7) (0, 0)

/-- The units a transmitter sends with: pre, post and main (R47, R48). The main tap is kept at 28 or more by reducing
post first, then pre. -/
def State.txUnits (s : State) (l : Nat) : Nat × Nat × Nat :=
  let b := phyBase l
  let (pre, post) := if s.flag (Reg.PHY_TXEQ_USE_PRESET b) then presetUnits (s.fld (Reg.PHY_TXEQ_PRESET b))
    else (min 12 (s.fld (Reg.PHY_TXEQ_PRE b)), min 24 (s.fld (Reg.PHY_TXEQ_POST b)))
  let post' := min post (36 - pre)
  let pre' := min pre (36 - post')
  (pre', post', 64 - pre' - post')

/-- A request for a preset is applied by writing PRESET (R48). -/
def State.presetAsked (s : State) (l p : Nat) : State := s.put (Reg.PHY_TXEQ_PRESET (phyBase l)) (p % 8)

/-- The swing of a transmitter in mV (R47): the back-channel sends at a fixed 600 mV. -/
def State.txSwing (s : State) (l : Nat) : Nat :=
  if laneHasTxeq l then 400 + 100 * min 6 (s.fld (Reg.PHY_TXEQ_SWING (phyBase l))) else 600

/-! The spread reference (R39, R40, R58). -/

/-- Whether any EDL forward lane is in L0. -/
def State.anyEdlL0 (s : State) : Bool := (List.range 64).any (fun p => s.laneInL0 (laneEdl p))

/-- Whether EDL_REFr serves a port with a lane in L0: ports 16r to 16r + 15 (R38). -/
def State.refInUse (s : State) (r : Nat) : Bool := (List.range 16).any (fun i => s.laneInL0 (laneEdl (16 * r + i)))

/-- PENDING reads 1 while a value is held. -/
def State.refPendFlag (s : State) : State :=
  s.put Reg.EDL_REFCFG_PENDING (b2n (s.phy.spreadPend.isSome || s.phy.enPend.isSome))

/-- The enables after a write, an output whose ports have a lane in L0 keeping its own (R40). -/
def State.refEnNow (s : State) (en : Nat) : Nat :=
  (List.range 4).foldl (fun acc r =>
    let src := if s.refInUse r then s.fld Reg.EDL_REFCFG_EN else en
    acc + (if bit src r then 2 ^ r else 0)) 0

/-- A write of SPREAD and EN (R40): a new SPREAD is held while any EDL forward lane is in L0, an output's EN while its
ports have one; the latest write replaces a held value. -/
def State.refcfgWrite (s : State) (w : Word) : State :=
  let spread := Reg.EDL_REFCFG_SPREAD.get w
  let en := Reg.EDL_REFCFG_EN.get w
  let now := s.refEnNow en
  let s := s.put Reg.EDL_REFCFG_EN now
  let s := { s with phy := { s.phy with enPend := if now = en then none else some en } }
  let s :=
    if s.anyEdlL0 && spread != s.fld Reg.EDL_REFCFG_SPREAD then
      { s with phy := { s.phy with spreadPend := some spread } }
    else
      let s := s.put Reg.EDL_REFCFG_SPREAD spread
      { s with phy := { s.phy with spreadPend := none } }
  s.refPendFlag

/-- Held values are applied at the first instant at which nothing holds them (R40). -/
def State.refcfgApply (s : State) : State :=
  let s := match s.phy.spreadPend with
    | some v => if s.anyEdlL0 then s
      else { s.put Reg.EDL_REFCFG_SPREAD v with phy := { s.phy with spreadPend := none } }
    | none => s
  let s := match s.phy.enPend with
    | some en =>
      let now := s.refEnNow en
      let s := s.put Reg.EDL_REFCFG_EN now
      { s with phy := { s.phy with enPend := if now = en then none else some en } }
    | none => s
  s.refPendFlag

end Sys2Proof.Machine
end

