-- ==== Sys2Proof/Machine/Clock.lean ====
section
/-! DEFINITION. Time, clocks and their multiplexers (R394 to R411). -/

namespace Sys2Proof.Machine

/-! Time: an instant is a number of ticks of 1/256 ns; AONOSC ticks every 0.25 µs of it. -/

def ticksPerNs : Nat := 256
def ticksPerUs : Nat := 256000
/-- Ticks of one AONOSC cycle at 4 MHz (R394). -/
def aonTick : Nat := 64000

/-- TIMEBASE advances by INC, in µs with 32 fractional bits, on each AONOSC tick (R410). -/
def State.tbAdd (s : State) (n : Nat) : State :=
  let sum := s.clk.tbFrac + n * (s.rd Reg.CLK_TB_INC).toNat
  let us := (s.rd Reg.AON_TIMEBASE).toNat + 2 ^ 32 * (s.rd Reg.AON_TIMEBASE_HI).toNat + sum / 2 ^ 32
  { ((s.wrN Reg.AON_TIMEBASE (us % 2 ^ 32)).wrN Reg.AON_TIMEBASE_HI (us / 2 ^ 32)) with
    clk := { s.clk with tbFrac := sum % 2 ^ 32 } }

/-- Time moves to an instant, never back; the AONOSC ticks passed reach TIMEBASE. -/
def State.advance (s : State) (t : Nat) : State :=
  if t ≤ s.now then s
  else
    let n := t / aonTick - s.now / aonTick
    let s' := if n = 0 then s else s.tbAdd n
    { s' with now := t }

/-! Multiplexers (R405). -/

def State.muxTo (s : State) (m : Nat) : Option Nat := Cells.get (fun _ => none) s.clk.muxTo m
def State.muxPend (s : State) (m : Nat) : Option Nat := Cells.get (fun _ => none) s.clk.muxPend m
def State.setMuxTo (s : State) (m : Nat) (v : Option Nat) : State :=
  { s with clk := { s.clk with muxTo := Cells.set (fun _ => none) s.clk.muxTo m v } }
def State.setMuxPend (s : State) (m : Nat) (v : Option Nat) : State :=
  { s with clk := { s.clk with muxPend := Cells.set (fun _ => none) s.clk.muxPend m v } }

/-- The source a multiplexer shows: its field of CLK.MUX. A source code of the control core carries the divider above
bit 4: only its low bit is the source. -/
def muxFld (m : Nat) : Fld :=
  match m with
  | 0 => Reg.CLK_MUX_HCLK
  | 1 => Reg.CLK_MUX_CTLCLK
  | 2 => Reg.CLK_MUX_SSREF
  | _ => Reg.CLK_MUX_TXPLL

/-- Whether a source of SSREF or TXPLL is one R396 has found absent: 0 XTAL, 1 REFCLK. -/
def State.srcAbsent (s : State) (m src : Nat) : Bool :=
  (m == 2 || m == 3) && (if src = 1 then !s.flag Reg.CLK_STATUS_REFCLK_OK else !s.flag Reg.CLK_STATUS_XTAL_OK)

/-- A switch fails, and the multiplexer stays on its old clock (R405). -/
def State.muxFail (s : State) : State := (s.bump Reg.CLK_SW_FAIL).raise 2 4

/-- A source is requested of a multiplexer (R405). -/
def State.muxRequest (s : State) (m src : Nat) : State :=
  if s.srcAbsent m src then s.muxFail
  else
    match s.muxTo m with
    | none => s.setMuxTo m (some src)
    | some _ => (s.bumpIf (s.muxPend m).isSome Reg.CLK_SUPERSEDED).setMuxPend m (some src)

/-- A multiplexer's switch ends, and it moves to the latest source requested during it. -/
def State.muxNext (s : State) (m : Nat) : State :=
  let p := s.muxPend m
  (s.setMuxTo m p).setMuxPend m none

/-- The new clock runs: MUX shows it. -/
def State.muxTake (s : State) (m src : Nat) : State :=
  let s := s.put (muxFld m) (if m = 1 then src % 2 else src)
  if m = 1 ∧ src % 2 = 0 then { s with clk := { s.clk with cdivNow := src / 16 } } else s

/-- A forced switch: the old clock has not stopped (R405). -/
def State.muxForce (s : State) (m : Nat) : State :=
  match s.muxTo m with
  | none => s
  | some src =>
    (((s.put ⟨Reg.CLK_SW_FORCED, m, 1⟩ 1).bump Reg.CLK_SW_FORCED_CNT).raise 2 3).muxTake m src |>.muxNext m

/-- A normal switch completes; an injection makes it a forced one (R465). -/
def State.muxDone (s : State) (m : Nat) : State :=
  match s.muxTo m with
  | none => s
  | some src =>
    let (forced, s) := s.injClksw m
    if forced then s.muxForce m else (s.muxTake m src).muxNext m

/-- The new clock shows no edge: the switch fails (R405). -/
def State.muxFailed (s : State) (m : Nat) : State :=
  match s.muxTo m with
  | none => s
  | some _ => s.muxFail.muxNext m

/-- CDIV as it acts: 0 and 1 act as 2. -/
def State.cdiv (s : State) : Nat := max 2 (s.fld Reg.CLK_CFG_CDIV)
/-- The source codes of HCLK and of the control core while PLL_SYS is in use. -/
def State.hclkPll (s : State) : Nat := s.fld Reg.CLK_CFG_HDIV
def State.ctlPll (s : State) : Nat := 16 * s.cdiv

/-- Whether a lane that SSREF (2) or TXPLL (3) serves is in L0. -/
def State.srcServing (s : State) (m : Nat) : Bool :=
  if m = 2 then s.anyEdlL0 else s.laneInL0 laneBcTx || (List.range 4).any (fun k => s.laneInL0 (laneCasTx k))

/-- The held change of SSREF (2) or TXPLL (3). -/
def State.setSrcPend (s : State) (m : Nat) (v : Option Nat) : State :=
  if m = 2 then { s with clk := { s.clk with ssrefPend := v } } else { s with clk := { s.clk with txrefPend := v } }

/-- A change of SSREF_SRC or TXREF_SRC, held while a lane it serves is in L0 (R405). -/
def State.srcRequest (s : State) (m src : Nat) : State :=
  let same := decide (src = s.fld (muxFld m)) && (s.muxTo m).isNone
  let s :=
    if same then s.setSrcPend m none
    else if s.srcServing m then s.setSrcPend m (some src)
    else (s.setSrcPend m none).muxRequest m src
  s.put Reg.CLK_MUX_SRC_PENDING (b2n (s.clk.ssrefPend.isSome || s.clk.txrefPend.isSome))

/-- Held source changes are requested once no lane they serve is in L0 (R405). -/
def State.srcApply (s : State) : State :=
  let s := match s.clk.ssrefPend with
    | some v => s.srcRequest 2 v
    | none => s
  match s.clk.txrefPend with
  | some v => s.srcRequest 3 v
  | none => s

/-- A write of CLK.CFG (R395, R405). -/
def State.clkCfgWrite (s : State) (w : Word) : State :=
  let old := s.rd Reg.CLK_CFG
  let s := s.wr Reg.CLK_CFG (w &&& 0x3F1)
  let s := if Reg.CLK_CFG_HDIV.get w ≠ Reg.CLK_CFG_HDIV.get old ∧ s.flag Reg.CLK_STATUS_SYS_LOCK then
      s.muxRequest 0 s.hclkPll else s
  let s := if max 2 (Reg.CLK_CFG_CDIV.get w) ≠ max 2 (Reg.CLK_CFG_CDIV.get old) ∧ s.flag Reg.CLK_STATUS_SYS_LOCK then
      s.muxRequest 1 s.ctlPll else s
  let s := if Reg.CLK_CFG_SSREF_SRC.get w ≠ Reg.CLK_CFG_SSREF_SRC.get old then
      s.srcRequest 2 (Reg.CLK_CFG_SSREF_SRC.get w) else s
  if Reg.CLK_CFG_TXREF_SRC.get w ≠ Reg.CLK_CFG_TXREF_SRC.get old then
    s.srcRequest 3 (Reg.CLK_CFG_TXREF_SRC.get w) else s

/-! Sources and PLLs: 0 PLL_SYS, 1 PLL_PIX, 2 PLL_MEM, 3 PLL_EDL, 4 SSREF, 5 TXPLL. -/

def pllLockFld (p : Nat) : Fld := ⟨Reg.HDR_STATUS 2, 8 + p, 1⟩

/-- A PLL locks, and its consumers move to it (R397, R404). -/
def State.pllLocked (s : State) (p : Nat) : State :=
  let s := s.put (pllLockFld p) 1
  if p = 0 then (s.muxRequest 0 s.hclkPll).muxRequest 1 s.ctlPll
  else if p = 1 then { s with clk := { s.clk with pixLost := false } }
  else s

/-- A PLL loses lock with its reference present (R402, R404): counted and raised, except PLL_MEM during a switch of the
memory operating point. -/
def State.pllLost (s : State) (p : Nat) : State :=
  if !s.flag (pllLockFld p) then s else
  let s := s.put (pllLockFld p) 0
  let s := if p = 2 ∧ s.flag Reg.MEMC_STATUS_SWITCHING then s else (s.bump Reg.CLK_LOCK_LOSS).raise 2 2
  if p = 0 then (s.muxRequest 0 2).muxRequest 1 1
  else if p = 1 then { s with clk := { s.clk with pixLost := true } }
  else s

/-- PLL_PIX in kHz for a line period and a total width: HTOTAL / (8 × t_line) (R93). -/
def pixKHz (htotal lp : Nat) : Nat := divHalfUp (htotal * 32000000) lp

/-- PLL_PIX in kHz: of the active configuration (R93); under house sync trimmed so that the measured VREF interval holds
the whole number of cycles that LINE_PERIOD implies for it (R103). -/
def State.pixFreq (s : State) : Nat :=
  let htotal := s.fldA Reg.TIMING_HTIMING_HTOTAL
  let lp := max 1 (s.rdA Reg.TIMING_LINE_PERIOD).toNat
  if s.tim.ref = 1 ∧ s.flag Reg.GENLOCK_STATUS_VREF_OK ∧ 0 < s.tim.vrefGap then
    divHalfUp (divHalfUp (s.tim.vrefGap * htotal) (8 * lp) * 256000000) s.tim.vrefGap
  else pixKHz htotal lp

/-- HCLK in kHz (R395, R398). -/
def State.hclkKHz (s : State) : Nat :=
  match s.fld Reg.CLK_MUX_HCLK with
  | 0 => 300000
  | 1 => 150000
  | _ => 4000

/-- The register clock of a page in kHz, when it runs and is not HCLK's or AON's (R409). -/
def State.regClock (s : State) (u : Unit) : Option Nat :=
  match u with
  | .INPUT | .STATS | .CODEC | .ZONE | .PSF | .FIELD | .SPLIT | .CELLLUT | .PATCH | .DEFECT | .OD | .THERM | .DITH
  | .TIMING | .GENLOCK | .SREF | .GATE | .PANELPWR =>
    if s.flag Reg.CLK_STATUS_PIX_LOCK then some s.pixFreq else none
  | .MEMC | .REGION | .SCHED | .ECC =>
    if s.flag Reg.CLK_STATUS_MEM_LOCK then some (200000 + 100000 * min 2 (s.fld Reg.MEMC_STATUS_MOP_ACTIVE)) else none
  | .CTL => some (if s.fld Reg.CLK_MUX_CTLCLK = 1 then 4000 else 1200000 / s.clk.cdivNow)
  | _ => none

/-- Whether the unit's register clock lies outside HCLK / 2 to 8 × HCLK (R409). -/
def State.regClockBad (s : State) (u : Unit) : Bool :=
  match s.regClock u with
  | some f => 2 * f < s.hclkKHz || 8 * s.hclkKHz < f
  | none => false

/-- XTAL is stable (R396, R403): held PLLs relock, and XTAL_BACK is raised after a loss. -/
def State.xtalStable (s : State) : State :=
  let s := s.put Reg.CLK_STATUS_XTAL_OK 1
  let s := s.put Reg.CLK_AON_TRIM_HELD 0
  let s := if s.fld Reg.CLK_MUX_PIX_REF = 2 ∧ s.clk.xtalLost then s.put Reg.CLK_MUX_PIX_REF 1 else s
  if s.clk.xtalLost then { (s.raise 2 1) with clk := { s.clk with xtalLost := false } } else s

/-- XTAL is lost while it was stable (R403); PLL_PIX on XTAL holds (R400). -/
def State.xtalLoss (s : State) : State :=
  if s.flag Reg.CLK_STATUS_XTAL_OK then
    let s := ((s.bump Reg.CLK_XTAL_LOSS).put Reg.CLK_STATUS_XTAL_OK 0).raise 2 0
    let s := s.put Reg.CLK_AON_TRIM_HELD 1
    let s := if s.fld Reg.CLK_MUX_PIX_REF = 1 then s.put Reg.CLK_MUX_PIX_REF 2 else s
    { s with clk := { s.clk with xtalLost := true, windows := [] } }
  else s

/-- A 10 µs window, timed on XTAL, counts REFCLK cycles (R396): four windows of 1,000 ± 1 in a row declare it, one
failing withdraws it. -/
def State.refWindow (s : State) (n : Nat) : State :=
  if !s.flag Reg.CLK_STATUS_XTAL_OK then s
  else if 999 ≤ n ∧ n ≤ 1001 then
    let r := min 4 (s.clk.refRun + 1)
    let s := { s with clk := { s.clk with refRun := r } }
    if r = 4 then s.put Reg.CLK_STATUS_REFCLK_OK 1 else s
  else { (s.put Reg.CLK_STATUS_REFCLK_OK 0) with clk := { s.clk with refRun := 0 } }

/-- INC from the windows counted since the last change: round(N × 2^32 / 1,638,400) over 16 windows (R410). -/
def incOf (ws : List Nat) : Nat := divHalfUp (ws.sum * 16 * 2 ^ 32) (ws.length * 1638400)

/-- A window of 4,096 AONOSC cycles ends with n XTAL cycles (R410): the code steps toward 4 MHz when the error exceeds
half a step of 0.25 % (25,600 cycles are nominal, 32 is half a step), and INC follows. -/
def State.trimWindow (s : State) (n : Nat) : State :=
  if s.flag Reg.CLK_STATUS_XTAL_OK then
    let code := s.fld Reg.CLK_AON_TRIM_CODE
    let code' := if 25632 < n then min 127 (code + 1) else if n < 25568 then code - 1 else code
    let s := s.put Reg.CLK_AON_TRIM_CODE code'
    if code' = code then
      let ws := (n :: s.clk.windows).take 16
      let s := { s with clk := { s.clk with windows := ws } }
      s.wrN Reg.CLK_TB_INC (incOf ws)
    else { s with clk := { s.clk with windows := [] } }
  else s

/-- The reference of PLL_PIX (R399): lane 0's clock while SRC_SEL selects PIP, the link is UP and SREF is off; else
XTAL. -/
def State.pixRefUpdate (s : State) : State :=
  if s.fldA Reg.TIMING_CFG_SRC_SEL = 0 ∧ s.fld Reg.ISL_LINK_STATE_STATE = 6 ∧ s.fld Reg.SREF_STATE_STATE = 0 then
    s.put Reg.CLK_MUX_PIX_REF 0
  else if s.flag Reg.CLK_STATUS_XTAL_OK || !s.clk.xtalLost then s.put Reg.CLK_MUX_PIX_REF 1
  else s.put Reg.CLK_MUX_PIX_REF 2

end Sys2Proof.Machine
end

