-- ==== Sys2Proof/Machine/Mem.lean ====
section
/-! DEFINITION. The memories: SRAM banks (R354 to R368) as words, the page map in B33 (R337), regions and handles
(R331 to R336), the beats of DRAM with their ECC (R338 to R347), and the named reads and writes of a region. -/

namespace Sys2Proof.Machine

/-! Power states of the domains (R412), coded as DOMn.STATE.CUR codes them. -/

def domStON : Nat := 1
def domStRET : Nat := 2
def domStOFF : Nat := 3

/-- Whether a domain is fully ON: in that state, with no transition under way (R422). -/
def State.domOn (s : State) (n : Nat) : Bool :=
  s.fld (Reg.PWR_DOM_STATE_CUR n) == domStON && s.fld (Reg.PWR_DOM_STATE_BUSY n) == 0

/-- An access to something whose domain is not ON (R422): counted; the first since the counter was cleared raises. -/
def State.accessMiss (s : State) (port addr : Nat) (wr : Bool) : State :=
  let first := s.fld (wholeFld Reg.PWR_ACCESS_MISS) == 0
  let s := ((s.put Reg.PWR_ACCESS_MISS_ADDR_ADDR addr).put Reg.PWR_ACCESS_MISS_ADDR_PORT port).put
    Reg.PWR_ACCESS_MISS_ADDR_WR (b2n wr)
  (s.bump Reg.PWR_ACCESS_MISS).raiseIf first 3 2

/-- A block bank in RET or OFF is reached by nobody (R365). -/
def State.bankOn (s : State) (n : Nat) : Bool := s.domOn (47 + n)

/-! SRAM banks: bank n's 32-bit word w has the index n * 2^17 + w (R354). -/

/-- The entry along the second axis of an OD table, at entry index i: K_kx (R239, R242). -/
def odKnot (i : Nat) : Nat := if i % 17 = 16 then 65535 else 4096 * (i % 17)

/-- What an unwritten SRAM word reads as, by what its bank went through: since reset the OD tables of B35 hold K_kx
(R242), every other word 0 (log entry 5); a bank that was cleared or lost its contents in OFF reads 0 (R361, R365); one
that a test left undefined (R367, R466) holds what Config says (log entry 4). -/
def sramDefault (gens : Cells Nat) (k : Nat) : Word :=
  let w := k % 131072
  let e := (w % 65536) * 2
  match Cells.get (fun _ => 0) gens (k / 131072) with
  | 0 =>
    if k / 131072 = 35 ∧ e < 73984 then BitVec.ofNat 32 (odKnot (e % 9248) + 65536 * odKnot (e % 9248 + 1))
    else 0
  | 1 => 0
  | g => Config.lostSram g k

def sramKey (bank word : Nat) : Nat := bank * 131072 + word

def State.sramRd (s : State) (bank word : Nat) : Word := Cells.get (sramDefault s.mem.bankGens) s.sram (sramKey bank word)
def State.sramWr (s : State) (bank word : Nat) (v : Word) : State :=
  { s with sram := Cells.set (sramDefault s.mem.bankGens) s.sram (sramKey bank word) v }

/-- Consecutive words of a bank written in one pass. -/
def State.sramPut (s : State) (bank word : Nat) (l : List Word) : State :=
  { s with sram := Cells.putRun (sramDefault s.mem.bankGens) s.sram (sramKey bank word) l }

/-- A 16-bit entry at a 2-byte offset of a bank. -/
def State.sram16 (s : State) (bank e : Nat) : Nat := (s.sramRd bank (e / 2)).toNat / 65536 ^ (e % 2) % 65536

/-- A bank's contents are gone: its words read as its generation says. -/
def State.sramGen (s : State) (bank g : Nat) : State :=
  { s with
    sram := Cells.clearRange s.sram (sramKey bank 0) 131072
    mem := { s.mem with bankGens := Cells.set (fun _ => 0) s.mem.bankGens bank g } }
/-- Every word of a bank becomes zero (R361, R365). -/
def State.sramZero (s : State) (bank : Nat) : State := s.sramGen bank 1
/-- A test leaves a bank undefined. -/
def State.sramLost (s : State) (bank : Nat) : State := (s.sramGen bank (s.fresh + 2)).used

/-! Owners (R356). -/
def ownPix : Nat := 0
def ownCtl : Nat := 1
def ownAlloc : Nat := 2
def ownCas : Nat := 3
def ownHost : Nat := 4
def ownTest : Nat := 5

/-- The owner in force of a bank. -/
def State.bankOwner (s : State) (n : Nat) : Nat := s.fld (Reg.BANKS_OWN_ACTIVE n)

/-- Whether a bank serves an owner: it is ON, and the owner's without a handover under way (R358, R359, R365). -/
def State.bankFor (s : State) (n owner : Nat) : Bool :=
  s.bankOn n && s.bankOwner n == owner && !s.flag (Reg.BANKS_OWN_PENDING n)

/-- A 16-bit entry as a stage of the pixel path reads it: 0 while its bank does not serve PIX. -/
def State.pixSram16 (s : State) (bank e : Nat) : Nat := if s.bankFor bank ownPix then s.sram16 bank e else 0

/-- A non-owner reaches a block bank (R358): counted, recorded, raised. -/
def State.nonOwner (s : State) (bank req : Nat) (wr : Bool) : State :=
  let s := s.bump (if wr then Reg.BANKS_NONOWNER_WR else Reg.BANKS_NONOWNER_RD)
  let s := ((s.put Reg.BANKS_LAST_NONOWNER_BANK bank).put Reg.BANKS_LAST_NONOWNER_OWNER req).put Reg.BANKS_LAST_NONOWNER_WR
    (b2n wr)
  s.raise 0x118 0

/-- An owner's access to a bank that does not serve it: a miss while the bank is not ON (R365), else a non-owner's (R358).
-/
def State.bankMiss (s : State) (n owner : Nat) (wr : Bool) : State :=
  if !s.bankOn n then s.accessMiss 0 Reg.BANKS_WIN_DATA wr else s.nonOwner n owner wr

/-- The misses of an owner's reads of some banks, one for each bank that does not serve it (log entry 88). -/
def State.bankReads (s : State) (owner : Nat) (banks : List Nat) : State :=
  s.each (banks.filter (fun n => !s.bankFor n owner)) (fun n s => s.bankMiss n owner false)

/-! The DRAM (R328). -/

/-- What an unwritten byte of DRAM reads as: by the generation of its page, where a test left the page undefined (R463),
else by that of the whole DRAM (log entries 4, 5). -/
def dramDefault (gen : Nat) (pages : Cells Nat) (a : Nat) : Byte :=
  match Cells.get (fun _ => 0) pages (a / 65536) with
  | 0 => if gen = 0 then 0 else Config.lostDram gen a
  | g => Config.lostDram g a

def State.dramInit (s : State) : Nat → Byte := dramDefault s.mem.dramGen s.mem.pageGens

/-- A byte at a physical address. -/
def State.dramByte (s : State) (pa : Nat) : Byte := Cells.get s.dramInit s.dram pa
def State.dramRead (s : State) (pa n : Nat) : List Byte := Cells.window s.dramInit s.dram pa n
def State.dramWrite (s : State) (pa : Nat) (l : List Byte) : State :=
  { s with dram := Cells.putRun s.dramInit s.dram pa l }

/-- A page is left undefined by a test (R463). -/
def State.pageLost (s : State) (p : Nat) : State :=
  { s.used with
    dram := Cells.clearRange s.dram (p * 65536) 65536
    mem := { s.mem with pageGens := Cells.set (fun _ => 0) s.mem.pageGens p (s.fresh + 1) } }

/-- The channel of a physical address (R328). -/
def channelOf (pa : Nat) : Nat := pa / 256 % 32

/-! The page map in B33 (R337). -/

/-- Whether the allocator reaches its map: B33 is ALLOC's (R337) and ON (R365). -/
def State.mapUp (s : State) : Bool := s.bankOwner 33 == ownAlloc && s.bankOn 33

/-- A word of B33 as the allocator reads it; zeros while the bank is not ON (R365). -/
def State.mapRd (s : State) (w : Nat) : Nat := if s.bankOn 33 then (s.sramRd 33 w).toNat else 0
def State.mapEntry (s : State) (i : Nat) : Nat := s.mapRd i
def State.physEntry (s : State) (p : Nat) : Nat := s.mapRd (0x10000 + p)
def State.errEntry (s : State) (p : Nat) : Nat := s.mapRd (0x18000 + p)
def mapWord (page : Nat) (committed migrating : Bool) : Word :=
  BitVec.ofNat 32 (page % 32768 + (if committed then 0x8000 else 0) + (if migrating then 0x10000 else 0))
def State.setMap (s : State) (i page : Nat) (committed migrating : Bool) : State :=
  s.sramWr 33 i (mapWord page committed migrating)
/-- The owner's map index and the state of a physical page: 0 FREE, 1 USED, 2 RETIRED. -/
def physWord (idx st : Nat) : Word := BitVec.ofNat 32 (idx % 65536 + st % 4 * 65536)
def State.setPhys (s : State) (p idx st : Nat) : State := s.sramWr 33 (0x10000 + p) (physWord idx st)
def State.setErr (s : State) (p v : Nat) : State := s.sramWr 33 (0x18000 + p) (BitVec.ofNat 32 v)
def State.pageState (s : State) (p : Nat) : Nat := bits (s.physEntry p) 16 2
def State.pageFree (s : State) (p : Nat) : Bool := s.pageState p == 0
def mapCommitted (e : Nat) : Bool := bit e 15
def mapMigrating (e : Nat) : Bool := bit e 16

/-- The number of free physical pages, the reserve included. -/
def State.freePages (s : State) : Nat := s.fld ⟨Reg.REGION_FREE_PAGES, 0, 16⟩
def State.reserve (s : State) : Nat := s.fld ⟨Reg.REGION_RESERVE, 0, 16⟩

/-- The lowest-numbered free page from `p` on (R336). -/
def State.findFree (s : State) : Nat → Nat → Option Nat
  | 0, _ => none
  | n + 1, p => if s.pageFree p then some p else s.findFree n (p + 1)

def State.lowestFree (s : State) : Option Nat := s.findFree 32768 0

/-- A physical page is given to a map entry. -/
def State.commitTo (s : State) (p idx : Nat) : State :=
  ((s.setPhys p idx 1).setMap idx p true false).put ⟨Reg.REGION_FREE_PAGES, 0, 16⟩ (s.freePages - 1)

/-- The pages that consecutive map entries from `idx` on are given, lowest-numbered free pages first (R332, R336), from
the words of the pages from `p` on; and those words as they become, as far as the last page given. -/
def commitPages : List Word → Nat → Nat → Nat → List Word × List Nat
  | [], _, _, _ => ([], [])
  | w :: l, p, idx, todo =>
    if todo = 0 then ([], [])
    else if bits w.toNat 16 2 = 0 then
      let r := commitPages l (p + 1) (idx + 1) (todo - 1)
      (physWord idx 1 :: r.1, p :: r.2)
    else
      let r := commitPages l (p + 1) idx todo
      (w :: r.1, r.2)

/-- Pages given to `n` map entries from `b` on; of a general region they are blank until written (R332). -/
def State.commitRun (s : State) (b n : Nat) : State :=
  let r := commitPages (Cells.window (sramDefault s.mem.bankGens) s.sram (sramKey 33 0x10000) 32768) 0 b n
  let s := (s.sramPut 33 0x10000 r.1).sramPut 33 b (r.2.map (fun p => mapWord p true false))
  s.put ⟨Reg.REGION_FREE_PAGES, 0, 16⟩ (s.freePages - r.2.length)

/-- A page goes back to the pool. -/
def State.uncommit (s : State) (idx : Nat) : State :=
  let e := s.mapEntry idx
  let s := s.setMap idx 0 false false
  let s : State := { s with mem := { s.mem with blank := s.mem.blank.filter (· ≠ idx) } }
  if mapCommitted e then
    (s.setPhys (e % 32768) 0 0).put ⟨Reg.REGION_FREE_PAGES, 0, 16⟩ (s.freePages + 1)
  else s

/-! Regions. -/

/-- The first map entries of a run that no region uses (R337): 0, or the end of a region. -/
def mapGaps (rs : List Region) : List Nat := 0 :: rs.map (fun r => r.base + r.pages)

/-- How many map entries from `b` on no region uses. -/
def mapRoom (rs : List Region) (b : Nat) : Nat :=
  if rs.any (fun r => r.base ≤ b && b < r.base + r.pages) then 0
  else rs.foldl (fun m r => if b ≤ r.base then min m (r.base - b) else m) (65536 - b)

/-- First fit: the lowest start of a free run as long as the region (R337). -/
def mapFit (rs : List Region) (n : Nat) : Option Nat :=
  (mapGaps rs).foldl (fun best b =>
    if n ≤ mapRoom rs b then (match best with | some c => some (min b c) | none => some b) else best) none

/-- The counts the REGION page reports (R350). -/
def State.regionReport (s : State) : State :=
  let rs := s.mem.regions
  let room := (mapGaps rs).foldl (fun m b => max m (mapRoom rs b)) 0
  (s.put ⟨Reg.REGION_MAP_FREE, 0, 17⟩ room).put ⟨Reg.REGION_HANDLES, 0, 7⟩ rs.length

/-- The physical address of a byte of a region, when its page is committed (R337) and has been written if it had to be
(R332). -/
def State.xlate (s : State) (h ofs : Nat) : Option Nat :=
  match s.region h with
  | none => none
  | some r =>
    if ofs < r.pages * 65536 then
      let e := s.mapEntry (r.base + ofs / 65536)
      if mapCommitted e && !s.mem.blank.contains (r.base + ofs / 65536) then some (e % 32768 * 65536 + ofs % 65536) else none
    else none

/-- Whether an offset lies in an allocated region. -/
def State.inRegion (s : State) (h ofs : Nat) : Bool :=
  match s.region h with
  | none => false
  | some r => ofs < r.pages * 65536

/-- Whether a 64-bit word at a physical address is poisoned (R347, R341). -/
def State.poisoned (s : State) (pa : Nat) : Bool := s.mem.poison.contains (pa / 8)

/-- A byte of a region; a page never written reads zeros (R332). -/
def State.regionByte (s : State) (h ofs : Nat) : Byte :=
  match s.xlate h ofs with
  | some pa => s.dramByte pa
  | none => 0

/-- Bytes of a region. -/
def State.regionRead (s : State) (h ofs n : Nat) : List Byte := (List.range n).map (fun i => s.regionByte h (ofs + i))

/-- The fault kind a read of some bytes meets, 0 for none: UNMAPPED 1, ECC_UNCORR 3 (R341). -/
def State.readFault (s : State) (h ofs n : Nat) : Nat :=
  if n = 0 then 0
  else if !(s.inRegion h ofs && s.inRegion h (ofs + n - 1)) then 1
  else if s.mem.poison.any (fun w =>
      (List.range (n / 65536 + 2)).any (fun k =>
        let o := (ofs / 65536 + k) * 65536
        match s.xlate h o with
        | some pa => pa ≤ w * 8 && w * 8 < pa + 65536 &&
            (let at8 := o + (w * 8 - pa); ofs / 8 * 8 ≤ at8 && at8 < ofs + n)
        | none => false)) then 3
  else 0

/-- The page of an offset, committed lazily at its first write (R332, R336): none when no page is available under
R335. -/
def State.ensurePage (s : State) (h ofs : Nat) : Option State :=
  match s.region h with
  | none => none
  | some r =>
    if ofs < r.pages * 65536 then
      let idx := r.base + ofs / 65536
      if mapCommitted (s.mapEntry idx) then
        some { s with mem := { s.mem with blank := s.mem.blank.filter (· ≠ idx) } }
      else if s.reserve < s.freePages ∧ s.mapUp then
        match s.lowestFree with
        | some p => some (s.commitTo p idx)
        | none => none
      else none
    else none

/-- A write of bytes of one page run: the mirrored page of a running copy takes the granules already copied (R347), and
a written word is no longer poisoned. -/
def State.physWrite (s : State) (pa : Nat) (l : List Byte) : State :=
  let s := s.dramWrite pa l
  let s := match s.mem.copies.find? (fun c => c.oldPage == pa / 65536) with
    | some c => if pa % 65536 < c.copied ∨ c.ended then s.dramWrite (c.newPage * 65536 + pa % 65536) l else s
    | none => s
  { s with mem := { s.mem with poison := s.mem.poison.filter (fun w => !(pa ≤ w * 8 && w * 8 + 8 ≤ pa + l.length)) } }

/-- A write into a region, page by page; the kind of the fault that ends it, 0 for none, and the bytes written. -/
def State.regionWrite (s : State) (h : Nat) : Nat → Nat → List Byte → State × Nat × Nat
  | 0, _, _ => (s, 0, 0)
  | fuel + 1, ofs, l =>
    match l with
    | [] => (s, 0, 0)
    | _ =>
      if !s.inRegion h ofs then (s, 1, 0)
      else
        match s.ensurePage h ofs with
        | none => (s, 2, 0)
        | some t =>
          match t.xlate h ofs with
          | none => (s, 1, 0)
          | some pa =>
            let n := min l.length (65536 - ofs % 65536)
            let (u, k, d) := (t.physWrite pa (l.take n)).regionWrite h fuel (ofs + n) (l.drop n)
            (u, k, n + d)

/-- The state after a write into a region. -/
def State.regionPut (s : State) (h ofs : Nat) (l : List Byte) : State :=
  (s.regionWrite h (l.length / 65536 + 2) ofs l).1

/-! Engines and faults (R338 to R343). -/

/-- The class of an engine (the table of traffic classes). -/
def engineClass (e : Nat) : Nat :=
  if e ≤ 5 then 0 else if e ≤ 7 then 1 else if e ≤ 11 then 2 else if e ≤ 13 then 3 else 4

/-- A fault of a beat: the engine's record, its count, and what class 0 records besides (R341). -/
def State.memFault (s : State) (e kind h ofs done : Nat) : State :=
  let s := ((s.put (Reg.MEMC_FLT_INFO_KIND e) kind).put (Reg.MEMC_FLT_INFO_CLASS e) (engineClass e)).put
    (Reg.MEMC_FLT_INFO_HANDLE e) h
  let s := (s.wrN (Reg.MEMC_FLT_OFS e) ofs).wrN (Reg.MEMC_FLT_DONE e) done
  let s := s.bumpBy (Reg.MEMC_FLT_INFO_FAULT_CNT e) 1
  if engineClass e = 0 then
    let s := s.bump Reg.MEMC_C0_FAULTS
    let s := ((s.put Reg.MEMC_C0_LAST_ENGINE e).put Reg.MEMC_C0_LAST_HANDLE h).put Reg.MEMC_C0_LAST_KIND kind
    (s.wrN Reg.MEMC_C0_LAST_OFS ofs).raise 0x110 0
  else s

/-- An engine of class 2 or 3 that halts stops at its beat (R341). -/
def State.memHalt (s : State) (e h ofs : Nat) (wr : Option (List Byte)) : State :=
  let s := s.put (Reg.MEMC_FLT_INFO_HALTED e) 1
  let s := if e = 9 then s.put Reg.BULK_BSTAT_HALTED 1 else s
  let s := { s with mem := { s.mem with halted := ⟨e, h, ofs, wr, false⟩ :: s.mem.halted.filter (fun x => x.engine ≠ e) } }
  s.raise 0x110 1

/-- Whether an engine halts on a fault (R341). -/
def engineHalts (e : Nat) : Bool := e == 9 || e == 12 || e == 13

/-! ECC and retirement (R344 to R347). -/

/-- The whole microseconds of TIMEBASE. -/
def State.timebase (s : State) : Nat := (s.rd Reg.AON_TIMEBASE).toNat + 2 ^ 32 * (s.rd Reg.AON_TIMEBASE_HI).toNat

/-- LAST_ERR and LAST_ERR_OFS take an error (R352). -/
def State.lastErr (s : State) (pa : Nat) (uncorr : Bool) : State :=
  (((s.put Reg.ECC_LAST_ERR_PAGE (pa / 65536)).put Reg.ECC_LAST_ERR_CHANNEL (channelOf pa)).put Reg.ECC_LAST_ERR_UNCORR
    (b2n uncorr)).wrN Reg.ECC_LAST_ERR_OFS (pa % 65536 / 8 * 8)

/-- A page's retirement starts (R346, R347): a free page, the reserve included, takes the copy; none free counts
RETIRE_FAIL and clears the page's count. -/
def State.retireStart (s : State) (p : Nat) : State :=
  if s.mem.copies.any (fun c => c.oldPage == p) then s
  else
    match s.lowestFree with
    | none =>
      ((s.setErr p (s.errEntry p / 8 * 8)).bump Reg.ECC_RETIRE_FAIL).raise 0x113 3
    | some q =>
      let idx := s.physEntry p % 65536
      let s := (s.setPhys q idx 1).put ⟨Reg.REGION_FREE_PAGES, 0, 16⟩ (s.freePages - 1)
      let s := s.setMap idx p true true
      { s with mem := { s.mem with copies := s.mem.copies ++ [⟨p, q, idx, 0, false⟩] } }

/-- An error counted on a page (R346); the 29-bit stamp is TIMEBASE >> 20, and 24 hours are 86,400,000,000 µs. -/
def State.countPageError (s : State) (p : Nat) : State :=
  let e := s.errEntry p
  let cnt := e % 8
  let first := e / 8
  let now := s.timebase / 2 ^ 20 % 2 ^ 29
  if cnt = 0 ∨ 86400000000 < (now + 2 ^ 29 - first) % 2 ^ 29 * 2 ^ 20 then s.setErr p (1 + now * 8)
  else
    let s := s.setErr p (min 7 (cnt + 1) + first * 8)
    if cnt + 1 = 4 then s.retireStart p else s

/-- Beats served for a class (R351). -/
def State.beats (s : State) (cls n : Nat) : State := s.bumpBy (wholeFld (Reg.SCHED_BEATS_C cls)) n

/-- A single-bit error found by a read: corrected, written back as class-1 traffic, counted (R344). -/
def State.eccCorrect (s : State) (pa : Nat) : State :=
  ((((s.beats 1 1).bump Reg.ECC_CORR).raise 0x113 0).lastErr pa false).countPageError (pa / 65536)

/-- An uncorrectable word found by a read (R344): counted and recorded. -/
def State.eccUncorr (s : State) (pa : Nat) : State :=
  ((s.bump Reg.ECC_UNCORR).raise 0x113 1).lastErr pa true

/-- A free page leaves the pool for good (R352). -/
def State.retireFreePage (s : State) (p : Nat) : State :=
  ((s.setPhys p 0 2).put ⟨Reg.REGION_FREE_PAGES, 0, 16⟩ (s.freePages - 1)).bump Reg.ECC_RETIRED |>.raise 0x113 2

/-! Whole reads and writes of an engine, beat by beat in its records (R338, R341, R344). -/

/-- The first beat of a run of bytes whose read faults: its offset. -/
def State.faultBeat (s : State) (h ofs n : Nat) : Nat :=
  match (List.range (n / 64 + 2)).find? (fun i => s.readFault h ((ofs / 64 + i) * 64) 64 != 0) with
  | some i => (ofs / 64 + i) * 64
  | none => ofs / 64 * 64

/-- Beats that class 0 may be admitted with on a channel in a window of 1 µs (R329, R339): 75 % of 100, 150 or 200. -/
def State.c0Budget (s : State) : Nat := [75, 112, 150].getD (s.fld Reg.MEMC_STATUS_MOP_ACTIVE) 150

/-- A class-0 request completes a latency after its issue (R339). -/
def State.c0Latency (s : State) (ns : Nat) : State :=
  let s : State := { s with mem := { s.mem with maxLat := max s.mem.maxLat ns } }
  (s.bumpIf (1500 < ns) Reg.MEMC_C0_OVER).raiseIf (1500 < ns) 0x110 2

/-- What DRAM_LAT0 adds to each class-0 request, in ns. -/
def State.c0Extra (s : State) : Nat := s.fld (latFld 0)

/-- MEMC admits a class-0 request for a beat on its channel (R339): beyond the budget of its window the request waits for
the next one, which admits it. Its latency is at most 1.5 µs and what is injected: below that a free value (log entry
79). -/
def State.c0Admit (s : State) (h ofs : Nat) : State :=
  let ch := ((s.xlate h ofs).map channelOf).getD 0
  let n := Cells.get (fun _ => 0) s.mem.admitted ch
  let s := if s.c0Budget ≤ n then s.bump Reg.MEMC_C0_HELD
    else { s with mem := { s.mem with admitted := Cells.set (fun _ => 0) s.mem.admitted ch (n + 1) } }
  let own := s.free.toNat % 1501
  let inj := s.c0Extra
  let s : State := { s.used with mem := { s.mem with maxLat := max s.mem.maxLat (own + inj) } }
  let slow := inj ≠ 0 ∧ 1500 < own + inj
  (s.bumpIf slow Reg.MEMC_C0_OVER).raiseIf slow 0x110 2

/-- The same for every beat of some bytes of an engine; other classes are not admitted so. -/
def State.admits (s : State) (e h ofs n : Nat) : State :=
  if engineClass e ≠ 0 then s
  else s.each (List.range ((ofs % 64 + n + 63) / 64)) (fun i s => s.c0Admit h (ofs / 64 * 64 + 64 * i))

/-- An access to the map while B33 is not ON reads zeros and is counted (R365). -/
def State.mapMiss (s : State) (wr : Bool) : State := if s.bankOn 33 then s else s.accessMiss 0 Reg.BANKS_WIN_DATA wr

/-- An engine reads bytes of a region, once admitted: the fault kind (0 none) and the bytes; injections fire here (R465).
Whole beats are read: a bad word anywhere in one faults it. -/
def State.beatsRead (s : State) (e h ofs n : Nat) : State × Nat × List Byte :=
  let cls := engineClass e
  let beats := (ofs % 64 + n + 63) / 64
  let s := (((s.beats cls beats).injLat cls beats)).mapMiss false
  let (pk, s) := s.injPager h
  let (ek, s) := s.injEcc cls
  let pa := (s.xlate h ofs).getD 0
  let own := if n = 0 then 0 else s.readFault h (ofs / 64 * 64) (64 * beats)
  let kind := if pk != 0 then pk else if own != 0 then own else if ek = 2 then 3 else 0
  let s := if ek = 1 ∧ kind = 0 then s.eccCorrect pa else s
  if kind = 0 then (s, 0, s.regionRead h ofs n)
  else
    let at' := if pk = 0 ∧ own ≠ 0 then s.faultBeat h ofs n else ofs / 64 * 64
    let s := if kind = 3 then s.eccUncorr ((s.xlate h at').getD 0) else s
    (s.memFault e kind h at' ((at' - ofs / 64 * 64) / 64), kind, List.replicate n 0)

/-- An engine writes bytes of a region, once admitted: the fault kind (0 none) and the bytes written before it. -/
def State.beatsWrite (s : State) (e h ofs : Nat) (l : List Byte) : State × Nat × Nat :=
  let cls := engineClass e
  let beats := (ofs % 64 + l.length + 63) / 64
  let s := ((s.beats cls beats).injLat cls beats).mapMiss true
  let (pk, s) := s.injPager h
  if pk != 0 then (s.memFault e pk h (ofs / 64 * 64) 0, pk, 0)
  else
    let (t, k, d) := s.regionWrite h (l.length / 65536 + 2) ofs l
    if k = 0 then (t, 0, l.length)
    else
      let t := if k = 2 then t.raise 0x111 0 else t
      (t.memFault e k h ((ofs + d) / 64 * 64) (((ofs + d) / 64) - ofs / 64), k, d)

/-- A whole read and a whole write of an engine: class 0 through its admission (R339). -/
def State.engRead (s : State) (e h ofs n : Nat) : State × Nat × List Byte := (s.admits e h ofs n).beatsRead e h ofs n
def State.engWrite (s : State) (e h ofs : Nat) (l : List Byte) : State × Nat :=
  let (t, k, _) := (s.admits e h ofs l.length).beatsWrite e h ofs l
  (t, k)

/-- FLT_DONE of an engine whose transfer had completed some beats before the fault just recorded (R341). -/
def State.fltDone (s : State) (k e n : Nat) : State := if k = 0 then s else s.wrN (Reg.MEMC_FLT_DONE e) n

/-- A write of an engine that halts (R341): at a fault it keeps the bytes not written yet, which RESUME tries again. -/
def State.storeRun (s : State) (e h ofs : Nat) (l : List Byte) : State × Nat :=
  let (t, k, d) := s.beatsWrite e h ofs l
  if k = 0 then (t, 0) else (t.memHalt e h (ofs + d) (some (l.drop d)), k)

end Sys2Proof.Machine
end

