-- ==== Sys2Proof/Machine/Ctl.lean ====
section
/-! DEFINITION. The control core's restarts and the mailbox's ends (R386, R387). -/

namespace Sys2Proof.Machine

/-- The mailbox command in progress ends with a status (R387). -/
def State.mboxEnd (s : State) (status : Nat) : State :=
  if s.flag Reg.CTL_RSP_BUSY then
    (((s.put Reg.CTL_RSP_STATUS status).put Reg.CTL_RSP_DONE 1).put Reg.CTL_RSP_BUSY 0).raise 9 1
  else s

/-- The row of R482 that LED_STAT follows: 0 an open window, 1 Pawn mode, 2 the firmware runs, 3 otherwise. -/
def State.ledRow (s : State) : Nat :=
  if s.sec.window.isSome then 0 else if s.boot.phase = 4 then 1
  else if s.boot.phase = 3 ∧ s.fld Reg.CTL_STATE_STATE = 0 then 2 else 3

/-- LED_STAT takes a level; high is off. -/
def State.ledPut (s : State) (low : Bool) : State :=
  let t : State := { s with boot := { s.boot with ledLow := low, ledAt := s.now } }
  if low = s.boot.ledLow then t else t.emit .pin 5 [b2n !low]

/-- LED_STAT goes over to the row that has come to apply (R482); a square wave starts low. -/
def State.ledFollow (s : State) : State :=
  let r := s.ledRow
  if r = s.boot.ledRow then s
  else ({ s with boot := { s.boot with ledRow := r } } : State).ledPut (r != 3)

/-- The square wave of LED_STAT changes: after 125 ms in the window, after 500 ms in Pawn mode (R482). -/
def State.ledToggle (s : State) : State :=
  let half := if s.boot.ledRow = 0 then 125 else 500
  if s.boot.ledRow < 2 then (s.advance (s.boot.ledAt + half * 1000 * ticksPerUs)).ledPut !s.boot.ledLow else s

/-- The control core restarts (R386): 1 by its watchdog, 2 by CMD.RESTART, 3 by a hand-over of B32. A restart that
finds one under way starts again, counts and records its cause; the mailbox command ends RESTARTED (R387), a preset load
that it cuts fails (R124), and what a service had under way is forgotten. -/
def State.coreRestart (s : State) (cause : Nat) : State :=
  let s := (s.bump Reg.CTL_RESTARTS).put Reg.CTL_STATE_CAUSE cause
  let s := if s.fld Reg.CTL_STATE_STATE = 2 then s else s.put Reg.CTL_STATE_STATE 1
  let s : State := { s with boot := { s.boot with ask := 0, copyTo := none, skipped := [] } }
  let s : State := { s with inp := { s.inp with load := s.inp.load.map (fun (j : EotfLoad) => { j with restarted := true }) } }
  s.ledFollow.mboxEnd 4

/-- The core is held stopped while B32 is not CTL's (R362). -/
def State.coreStop (s : State) : State := (s.put Reg.CTL_STATE_STATE 2).ledFollow.mboxEnd 4

/-- The core runs again: RESTARTED is raised once (R386). -/
def State.coreRuns (s : State) : State :=
  if s.fld Reg.CTL_STATE_STATE = 1 then ((s.put Reg.CTL_STATE_STATE 0).raise 9 2).ledFollow else s

/-- Whether the core runs. -/
def State.coreRunning (s : State) : Bool := s.fld Reg.CTL_STATE_STATE == 0

end Sys2Proof.Machine
end

