-- ==== Sys2Proof/Machine/Codec.lean ====
section
/-! DEFINITION. The block codec of the frame store (R137 to R147, R158): slot layout, index entries, the four block
modes, the PRED bitstream and its decoder. -/

namespace Sys2Proof.Machine

/-- The layout of a slot (R137). -/
structure SlotLayout where
  b : Nat
  ip : Nat
  lp : Nat
  d0 : Nat
  size : Nat
  deriving DecidableEq, Repr

/-- A number rounded up to a multiple. -/
def upTo (m n : Nat) : Nat := (n + m - 1) / m * m

def slotLayout (hact vact : Nat) : SlotLayout :=
  let b := (hact + 63) / 64
  let ip := upTo 256 (2 * b)
  let lp := upTo 4096 (384 * b)
  let d0 := upTo 4096 (ip * vact)
  ⟨b, ip, lp, d0, d0 + lp * vact⟩

/-- The pixels of block b of a line of `hact` pixels (R137). -/
def blockPixels (hact b : Nat) : Nat := min 64 (hact - 64 * b)

/-! Modes (R139): 0 COPY, 1 FLAT, 2 PRED, 3 RAW. -/

def indexWord (mode len orig : Nat) (sub mrg : Bool) : Nat :=
  mode + 4 * len + 2048 * orig + (if sub then 8192 else 0) + (if mrg then 16384 else 0)

def idxMode (w : Nat) : Nat := w % 4
def idxLen (w : Nat) : Nat := w / 4 % 512
def idxOrig (w : Nat) : Nat := w / 2048 % 4

/-- The mode by which a block's bytes decode: ORIG for a COPY; none for an invalid MODE, ORIG or LEN (R139, R140,
R158). -/
def idxEff (w n : Nat) : Option Nat :=
  let mode := idxMode w
  let orig := idxOrig w
  let len := idxLen w
  if (mode == 0) != (orig != 0) then none
  else
    let eff := if mode = 0 then orig else mode
    let ok := if eff = 1 then len == 6 else if eff = 3 then len == 6 * n else 1 ≤ len && len ≤ 384
    if ok then some eff else none

def Pix.black : Pix := ⟨0, 0, 0⟩
/-- A channel of a pixel: 0 R, 1 G, 2 B. -/
def Pix.ch (p : Pix) (c : Nat) : Sample := match c with | 0 => p.r | 1 => p.g | _ => p.b

/-- Six bytes of a pixel (R140). -/
def Pix.bytes (p : Pix) : List Byte := leBytes 2 p.r.toNat ++ leBytes 2 p.g.toNat ++ leBytes 2 p.b.toNat

/-- The pixel that six bytes spell. -/
def pixOf (l : List Byte) : Pix :=
  ⟨BitVec.ofNat 16 (leVal (l.take 2)), BitVec.ofNat 16 (leVal ((l.drop 2).take 2)),
   BitVec.ofNat 16 (leVal ((l.drop 4).take 2))⟩

/-! Bits, most significant first (R146). -/

/-- The `n` low bits of a number, most significant first. -/
def msbBits : Nat → Nat → List Bool
  | 0, _ => []
  | n + 1, v => (v / 2 ^ n % 2 == 1) :: msbBits n v

/-- The number that bits spell, most significant first. -/
def bitsVal (l : List Bool) : Nat := l.foldl (fun a b => 2 * a + b2n b) 0

/-- Bits packed into bytes, the last padded with zeros (R146). -/
def packMsb (l : List Bool) : List Byte :=
  (chunks 8 l).map (fun c => BitVec.ofNat 8 (bitsVal c * 2 ^ (8 - c.length)))

/-- The bits of bytes. -/
def unpackMsb (l : List Byte) : List Bool := l.flatMap (fun b => msbBits 8 b.toNat)

/-! The predictor and the residuals (R143, R144). -/

/-- The predictor of a channel. On an even line there is no line above: the left pixel, or 0 at the block's first. -/
def predict (even : Bool) (left : Option Nat) (above : Nat) (aboveLeft : Nat) : Nat :=
  if even then left.getD 0
  else
    let bv := above
    let av := left.getD bv
    let cv := if left.isSome then aboveLeft else bv
    if max av bv ≤ cv then min av bv
    else if cv ≤ min av bv then max av bv
    else av + bv - cv

/-- The mapped residual (R144). -/
def residual (u p : Nat) : Nat := if p ≤ u then 2 * (u - p) else 2 * (p - u) - 1

/-- The length of a residual's code under a Rice parameter (R144). -/
def riceLen (m k : Nat) : Nat := if m / 2 ^ k < 16 then m / 2 ^ k + 1 + k else 31

/-- A residual's code (R144). -/
def riceBits (m k : Nat) : List Bool :=
  let q := m / 2 ^ k
  if q < 16 then List.replicate q true ++ [false] ++ msbBits k (m % 2 ^ k)
  else List.replicate 16 true ++ msbBits 15 m

/-- The line above a block, by column; none outside 0 to HACTIVE − 1. -/
abbrev Above := List Pix

def abovePix (above : Above) (x : Int) : Pix := if x < 0 then Pix.black else above.getD x.toNat Pix.black

/-- A token: a MATCH with its offset and length, or a pixel's three mapped residuals. -/
inductive PredTok where
  | run (ofs : Int) (len : Nat)
  | pix (r g b : Nat)
  deriving DecidableEq, Repr

/-- The run of exact matches of the pixels ahead at an offset (R145, R146). -/
def matchRun (above : Above) (hact : Nat) : Nat → Int → List Pix → Nat
  | 0, _, _ => 0
  | _, _, [] => 0
  | n + 1, a, p :: ps =>
    if 0 ≤ a ∧ a < hact ∧ abovePix above a = p then 1 + matchRun above hact n (a + 1) ps else 0

/-- Offsets in the order that settles ties: the smaller |o|, then the negative (R146). -/
def matchOffsets : List Int := [0, -1, 1, -2, 2, -3, 3, -4, 4, -5, 5, -6, 6, -7, 7, -8, 8]

/-- The longest run at any offset: its offset and length. -/
def bestMatch (above : Above) (hact x : Nat) (px : List Pix) : Int × Nat :=
  matchOffsets.foldl (fun best o =>
    let r := matchRun above hact 64 ((x : Int) + o) px
    if best.2 < r then (o, r) else best) (0, 0)

/-- The residuals of a pixel. -/
def pixTok (even : Bool) (left : Option Pix) (above : Above) (x : Nat) (p : Pix) : PredTok :=
  let bv := abovePix above x
  let cv := abovePix above ((x : Int) - 1)
  let m := fun c => residual (p.ch c).toNat
    (predict even (left.map (fun l => (l.ch c).toNat)) (bv.ch c).toNat (cv.ch c).toNat)
  .pix (m 0) (m 1) (m 2)

/-- The token choice of the M960's encoder (R146), from column x on. -/
def predTokens (even matchEn : Bool) (above : Above) (hact : Nat) : Nat → Nat → Option Pix → List Pix → List PredTok
  | 0, _, _, _ => []
  | _, _, _, [] => []
  | fuel + 1, x, left, p :: ps =>
    let (o, r) := if even || !matchEn then (0, 0) else bestMatch above hact x (p :: ps)
    if 2 ≤ r then
      .run o r :: predTokens even matchEn above hact fuel (x + r) ((p :: ps)[r - 1]?) ((p :: ps).drop r)
    else pixTok even left above x p :: predTokens even matchEn above hact fuel (x + 1) (some p) ps

/-- The residuals of a channel. -/
def PredTok.res (c : Nat) : PredTok → List Nat
  | .run _ _ => []
  | .pix r g b => [if c = 0 then r else if c = 1 then g else b]

/-- The Rice parameter of fewest bits, ties to the smaller (R146). -/
def bestRice (ms : List Nat) : Nat :=
  ((List.range 16).foldl (fun best k =>
    let n := (ms.map (fun m => riceLen m k)).sum
    if n < best.2 then (k, n) else best) (0, (ms.map (fun m => riceLen m 0)).sum)).1

/-- The bits of a token (R144, R145). -/
def PredTok.bits (even : Bool) (kr kg kb : Nat) : PredTok → List Bool
  | .run o n => true :: (msbBits 5 (o + 8).toNat ++ msbBits 6 (n - 1))
  | .pix r g b => (if even then [] else [false]) ++ riceBits r kr ++ riceBits g kg ++ riceBits b kb

/-- The PRED bitstream of a block (R145, R146). -/
def predStream (even matchEn : Bool) (above : Above) (hact x0 : Nat) (px : List Pix) : List Bool :=
  let toks := predTokens even matchEn above hact px.length x0 none px
  let k := fun c => bestRice (toks.flatMap (PredTok.res c))
  msbBits 4 (k 0) ++ msbBits 4 (k 1) ++ msbBits 4 (k 2) ++ toks.flatMap (PredTok.bits even (k 0) (k 1) (k 2))

/-- A block as it is stored: mode, data, and whether a RAW took the place of PRED. -/
structure EncBlock where
  mode : Nat
  data : List Byte
  fallback : Bool
  deriving DecidableEq, Repr

/-- Whether all pixels of a block are equal. -/
def allEqual (px : List Pix) : Bool := px.all (fun p => px.head? == some p)

/-- The RAW image of a block. -/
def rawBytes (px : List Pix) : List Byte := px.flatMap Pix.bytes

/-- Whether a pixel lies outside the light domain of R126, so that no PRED stream holds it (R142). -/
def Pix.outside (p : Pix) : Bool := 0x3C00 < p.r.toNat || 0x3C00 < p.g.toNat || 0x3C00 < p.b.toNat

/-- The encoder (R141): `on` is CTRL.EN; `alone` forbids a dependence on line y − 1 (R503). A block that meets pixels
outside the light domain, which only an INPUT with EN at 0 lets through, is RAW (log entry 11). -/
def encodeBlock (on alone even matchEn : Bool) (above : Above) (hact x0 : Nat) (px : List Pix) : EncBlock :=
  if !on then ⟨3, rawBytes px, alone⟩
  else if allEqual px then ⟨1, (px.head?.getD Pix.black).bytes, false⟩
  else if alone || px.any Pix.outside || above.any Pix.outside then ⟨3, rawBytes px, true⟩
  else
    let st := predStream even matchEn above hact x0 px
    if 48 * px.length < st.length then ⟨3, rawBytes px, true⟩ else ⟨2, packMsb st, false⟩

/-! The decoder (R147). -/

/-- The next bits as a number, and the rest. -/
def takeBits (n : Nat) (l : List Bool) : Option (Nat × List Bool) :=
  if l.length < n then none else some (bitsVal (l.take n), l.drop n)

/-- One-bits before a zero, at most 16; the zero is consumed, after 16 ones none is. -/
def unary : Nat → List Bool → Option (Nat × List Bool)
  | 0, l => some (0, l)
  | _, [] => none
  | n + 1, b :: l =>
    if b then (match unary n l with | some (q, r) => some (q + 1, r) | none => none) else some (0, l)

/-- A residual read under a Rice parameter. -/
def readRice (k : Nat) (l : List Bool) : Option (Nat × List Bool) :=
  match unary 16 l with
  | none => none
  | some (q, r) =>
    if q = 16 then takeBits 15 r
    else match takeBits k r with
      | some (v, r') => some (q * 2 ^ k + v, r')
      | none => none

/-- A sample from a predictor and a residual; none outside +0 to 1.0. -/
def unresidual (p m : Nat) : Option Sample :=
  let v : Int := if m % 2 = 0 then (p : Int) + (m / 2 : Nat) else (p : Int) - ((m + 1) / 2 : Nat)
  if 0 ≤ v ∧ v ≤ 0x3C00 then some (BitVec.ofNat 16 v.toNat) else none

/-- A pixel token is read. -/
def readPix (even : Bool) (kr kg kb : Nat) (left : Option Pix) (above : Above) (x : Nat) (l : List Bool) :
    Option (Pix × List Bool) :=
  let bv := abovePix above x
  let cv := abovePix above ((x : Int) - 1)
  let p := fun c => predict even (left.map (fun q => (q.ch c).toNat)) (bv.ch c).toNat (cv.ch c).toNat
  match readRice kr l with
  | none => none
  | some (m0, l1) => match readRice kg l1 with
    | none => none
    | some (m1, l2) => match readRice kb l2 with
      | none => none
      | some (m2, l3) =>
        match unresidual (p 0) m0, unresidual (p 1) m1, unresidual (p 2) m2 with
        | some r, some g, some b => some (⟨r, g, b⟩, l3)
        | _, _, _ => none

/-- The pixels that a MATCH copies; none when one lies outside the line. -/
def matchPix (above : Above) (hact : Nat) : Nat → Int → Option (List Pix)
  | 0, _ => some []
  | n + 1, a =>
    if 0 ≤ a ∧ a < hact then
      (match matchPix above hact n (a + 1) with | some l => some (abovePix above a :: l) | none => none)
    else none

/-- The tokens of a block: `todo` pixels are still to come from column x; the decoded pixels, and the bits left. -/
def readToks (even : Bool) (kr kg kb : Nat) (above : Above) (hact : Nat) :
    Nat → Nat → Nat → Option Pix → List Bool → Option (List Pix × List Bool)
  | 0, _, todo, _, l => if todo = 0 then some ([], l) else none
  | fuel + 1, x, todo, left, l =>
    if todo = 0 then some ([], l)
    else
      let pixel := fun l =>
        match readPix even kr kg kb left above x l with
        | none => none
        | some (p, r) => match readToks even kr kg kb above hact fuel (x + 1) (todo - 1) (some p) r with
          | some (ps, r') => some (p :: ps, r')
          | none => none
      if even then pixel l
      else
        match l with
        | [] => none
        | false :: r => pixel r
        | true :: r =>
          match takeBits 5 r with
          | none => none
          | some (o, r1) => match takeBits 6 r1 with
            | none => none
            | some (n1, r2) =>
              if 16 < o ∨ todo < n1 + 1 then none
              else
                match matchPix above hact (n1 + 1) ((x : Int) + o - 8) with
                | none => none
                | some ps =>
                  match readToks even kr kg kb above hact fuel (x + n1 + 1) (todo - (n1 + 1)) ps.getLast? r2 with
                  | some (qs, r3) => some (ps ++ qs, r3)
                  | none => none

/-- A PRED block of n pixels from column x0 (R147). -/
def decodePred (even : Bool) (above : Above) (hact x0 n : Nat) (data : List Byte) : Option (List Pix) :=
  let l := unpackMsb data
  match takeBits 12 l with
  | none => none
  | some (h, r) =>
    match readToks even (h / 256) (h / 16 % 16) (h % 16) above hact n x0 n none r with
    | some (ps, rest) => if rest.length < 8 ∧ rest.all (fun b => !b) then some ps else none
    | none => none

/-- A block decoded by its effective mode (R140, R147). -/
def decodeBlock (eff : Nat) (even : Bool) (above : Above) (hact x0 n : Nat) (data : List Byte) : Option (List Pix) :=
  match eff with
  | 1 => if data.length = 6 then some (List.replicate n (pixOf data)) else none
  | 3 => if data.length = 6 * n then some ((chunks 6 data).map pixOf) else none
  | _ => decodePred even above hact x0 n data

end Sys2Proof.Machine
end

