-- ==== Sys2Proof/Machine/Input.lean ====
section
/-! DEFINITION. INPUT (R117 to R127, R132, R133): from a code to linear light, the EOTF banks and their presets, the
matrix, the clip, the required light and the hems. -/

namespace Sys2Proof.Machine

/-- The EN of a pixel-path unit in force in the current output frame (R11, R13). -/
def State.unitOn (s : State) (p : Nat) : Bool := s.flagA (Reg.HDR_CTRL_EN p)

/-! Fixed-point powers for the presets of R123, which take the real curve and round it once (log entry 10). Numbers are
multiples of 2^-100. -/

def fixOne : Nat := 2 ^ 100
def fixMul (a b : Nat) : Nat := a * b / fixOne
def fixDiv (a b : Nat) : Nat := if b = 0 then 0 else a * fixOne / b

/-- The integer square root, bit by bit. -/
def isqrtFrom : Nat → Nat → Nat → Nat
  | 0, _, r => r
  | k + 1, n, r =>
    let t := r + 2 ^ k
    isqrtFrom k n (if t * t ≤ n then t else r)

def isqrt (n : Nat) : Nat := isqrtFrom (Nat.log2 n / 2 + 1) n 0

/-- log2 of m in [1, 2): the fraction bits, most significant first. -/
def log2Bits : Nat → Nat → Nat
  | 0, _ => 0
  | k + 1, m =>
    let q := fixMul m m
    if 2 * fixOne ≤ q then 2 ^ k + log2Bits k (q / 2) else log2Bits k q

/-- log2 of a positive fixed-point number, as an integer multiple of 2^-100. -/
def fixLog2 (x : Nat) : Int :=
  let e : Int := (Nat.log2 x : Int) - 100
  let m := if 0 ≤ e then x / 2 ^ e.toNat else x * 2 ^ (-e).toNat
  e * fixOne + (log2Bits 100 m : Nat)

/-- 2 to a fraction, by its bits from the most significant; c is 2 to the weight of the bit at hand. -/
def exp2Bits : Nat → Nat → Nat → Nat
  | 0, _, _ => fixOne
  | k + 1, f, c =>
    let rest := exp2Bits k (f % 2 ^ k) (isqrt (c * fixOne))
    if 2 ^ k ≤ f then fixMul c rest else rest

/-- 2 to a power. -/
def fixExp2 (x : Int) : Nat :=
  let e := x / (fixOne : Int)
  let f := (x % (fixOne : Int)).toNat
  let m := exp2Bits 100 f (isqrt (2 * fixOne * fixOne))
  if 0 ≤ e then m * 2 ^ e.toNat else m / 2 ^ (-e).toNat

/-- x to the power n / d, for x at least 0. -/
def fixPow (x n d : Nat) : Nat := if x = 0 then 0 else fixExp2 (fixLog2 x * n / d)

/-- The SMPTE ST 2084 EOTF normalised to 10,000 cd/m² (constants of ST 2084; log entry 10). -/
def pqLight (v : Nat) : Nat :=
  let e := fixPow v 32 2523
  let c1 := fixOne * 3424 / 4096
  let c2 := fixOne * 2413 / 128
  let c3 := fixOne * 2392 / 128
  fixPow (fixDiv (e - c1) (c2 - fixMul c3 e)) 16384 2610

/-- The BT.2100 HLG inverse OETF (constants of BT.2100; log entry 10). -/
def hlgLight (v : Nat) : Nat :=
  let a := fixOne * 17883277 / 100000000
  let b := fixOne * 28466892 / 100000000
  let c := fixOne * 55991073 / 100000000
  let log2e : Nat := fixOne * 14426950408889634 / 10000000000000000
  if 2 * v ≤ fixOne then fixMul v v / 3
  else
    let x : Int := ((v : Int) - c) * fixOne / a
    (fixExp2 (x * log2e / fixOne) + b) / 12

/-- Entry i of a preset's curve (R123). -/
def presetEntry (curve param i : Nat) : Sample :=
  let v := fixOne * i / 4096
  match curve with
  | 0 => round16 ⟨(i : Int), 4096⟩
  | 1 =>
    let y := pqLight v * 10000 / max 1 (param % 65536)
    round16 (Frac.min ⟨(y : Int), fixOne⟩ (Frac.ofNat 65504))
  | 2 => round16 ⟨(fixPow (fixDiv (hlgLight v) (hlgLight fixOne)) 12 10 : Nat), fixOne⟩
  | _ =>
    let lb := val16 (BitVec.ofNat 16 (param / 65536))
    let r := fixPow (fixOne * lb.num.toNat / lb.den) 10 24
    let a := fixPow (fixOne - r) 24 10
    let b := fixDiv r (fixOne - r)
    round16 ⟨(fixMul a (fixPow (v + b) 24 10) : Nat), fixOne⟩

/-- What an entry of a bank reads as before a write: its curve, or its lost contents (R121, R124). -/
def EotfBank.base (x : EotfBank) (k : Nat) : Sample :=
  if x.curve = 4 then Config.lostRam x.param k else presetEntry x.curve x.param (k % 4097)

def State.eotfBank (s : State) (b : Nat) : EotfBank := if b = 0 then s.inp.bank0 else s.inp.bank1
def State.setEotfBank (s : State) (b : Nat) (x : EotfBank) : State :=
  { s with inp := if b = 0 then { s.inp with bank0 := x } else { s.inp with bank1 := x } }

/-- Entry i of channel ch of a bank. A bank that a load is filling shows each entry at its old or its new value
(R124). -/
def State.eotfEntry (s : State) (b ch i : Nat) : Sample :=
  let x := s.eotfBank b
  let k := ch * 4097 + i
  match s.inp.load with
  | some j =>
    if j.bank = b ∧ Config.loadRace s.now k then
      (if 3 < j.preset then Config.lostRam (s.fresh + 1) k else presetEntry j.preset (j.peak + 65536 * j.black) i)
    else Cells.get x.base x.cells k
  | none => Cells.get x.base x.cells k

def State.eotfStore (s : State) (b ch i : Nat) (v : Sample) : State :=
  let x := s.eotfBank b
  s.setEotfBank b { x with cells := Cells.set x.base x.cells (ch * 4097 + i) v }

/-- A NaN becomes +0, an infinity the largest finite number of its sign (R119). -/
def sanitize (v : Sample) : Sample :=
  if isNaN16 v then 0 else if v = 0x7C00 then 0x7BFF else if v = 0xFC00 then 0xFBFF else v

/-- The width of a component of an integer format (R117). -/
def fmtBits (fmt : Nat) : Nat := match fmt with | 0 => 8 | 1 => 10 | 2 => 12 | _ => 16
/-- The bits of a pixel (R72). -/
def pixelBits (fmt : Nat) : Nat := 3 * fmtBits fmt

/-- A component code widened to 16 bits by replication (R117). -/
def widen (fmt c : Nat) : Nat :=
  let n := fmtBits fmt
  if n = 16 then c else c * 2 ^ (16 - n) + c / 2 ^ (2 * n - 16)

/-- The table position of a 16-bit code (R117). -/
def eotfPos (c16 : Nat) : Nat := c16 + c16 / 32768

/-- The EOTF of the active bank at a position (R118, R119). -/
def State.eotf (s : State) (ch p : Nat) : Sample :=
  let b := s.fldA Reg.INPUT_EOTF_CFG_BANK
  let i := p / 16
  let f := p % 16
  let e0 := val16 (sanitize (s.eotfEntry b ch i))
  if f = 0 then sanitize (s.eotfEntry b ch i)
  else
    let e1 := val16 (sanitize (s.eotfEntry b ch (i + 1)))
    round16 (Frac.add e0 (Frac.mul ⟨(f : Int), 16⟩ (Frac.sub e1 e0)))

/-- A component before the matrix: the EOTF of an integer code; a binary16 component sanitised (R120). With EN at 0 an
integer code passes as its position over 65,536 (log entry 11). -/
def State.linear (s : State) (on : Bool) (fmt ch c : Nat) : Sample :=
  if fmt = 4 then (if on then sanitize (BitVec.ofNat 16 c) else BitVec.ofNat 16 c)
  else
    let p := eotfPos (widen fmt c)
    if on then s.eotf ch p else round16 ⟨(p : Int), 65536⟩

/-- One output channel of the matrix: a fused sum rounded once (R125). -/
def fusedSum (m1 m2 m3 o r g b : Sample) : Sample :=
  round16 (Frac.sum [Frac.mul (val16 m1) (val16 r), Frac.mul (val16 m2) (val16 g), Frac.mul (val16 m3) (val16 b), val16 o])

/-- A 16-bit half of an active word. -/
def State.lowA (s : State) (a : Nat) : Sample := BitVec.ofNat 16 (s.rdA a).toNat
def State.highA (s : State) (a : Nat) : Sample := BitVec.ofNat 16 ((s.rdA a).toNat / 65536)

/-- The matrix of R125. -/
def State.matrix (s : State) (r g b : Sample) : Sample × Sample × Sample :=
  (fusedSum (s.lowA Reg.INPUT_MAT0) (s.highA Reg.INPUT_MAT0) (s.lowA Reg.INPUT_MAT1) (s.highA Reg.INPUT_MAT1) r g b,
   fusedSum (s.lowA Reg.INPUT_MAT2) (s.highA Reg.INPUT_MAT2) (s.lowA Reg.INPUT_MAT3) (s.highA Reg.INPUT_MAT3) r g b,
   fusedSum (s.lowA Reg.INPUT_MAT4) (s.highA Reg.INPUT_MAT4) (s.lowA Reg.INPUT_MAT5) (s.highA Reg.INPUT_MAT5) r g b)

/-- The clip of R126: the clipped sample, and whether step 2 or step 3 changed it. -/
def clip01 (v : Sample) : Sample × Bool × Bool :=
  if isNaN16 v then (0, false, false)
  else if 0x8000 ≤ v.toNat then (0, true, false)
  else if 0x3C00 < v.toNat then (0x3C00, false, true)
  else (v, false, false)

/-- HEADROOM as it acts (R127). -/
def State.headroom (s : State) : Sample :=
  let h := s.lowA Reg.INPUT_HEADROOM
  if isNaN16 h ∨ 0x8000 ≤ h.toNat ∨ h.toNat < 0x3C00 then 0x3C00 else if 0x4400 < h.toNat then 0x4400 else h

/-- The larger of two samples between +0 and 1.0, whose order is that of their bits. -/
def maxS (a b : Sample) : Sample := if a.toNat ≤ b.toNat then b else a
def minS (a b : Sample) : Sample := if a.toNat ≤ b.toNat then a else b

/-- y_req of a pixel under a headroom (R127). -/
def yReq (h : Sample) (p : Pix) : Sample :=
  minS 0x3C00 (round16 (Frac.mul (val16 (maxS p.r (maxS p.g p.b))) (val16 h)))

/-- What INPUT makes of one pixel: its light, its y_req, its NaNs, and whether it was clipped below or above. -/
structure PixIn where
  pix : Pix
  y : Sample
  nans : Nat
  neg : Bool
  hi : Bool
  deriving DecidableEq, Repr

/-- INPUT's treatment of one pixel (R117 to R127). With EN at 0 a pixel passes unchanged (R11): nothing is clipped and
nothing counted, and its y_req is that of its value held to the light domain (log entry 11). -/
def State.inputPixel (s : State) (fmt r g b : Nat) : PixIn :=
  let on := s.unitOn 0x40
  let nans := if fmt = 4 then ([r, g, b].filter (fun c => isNaN16 (BitVec.ofNat 16 c))).length else 0
  let lr := s.linear on fmt 0 r
  let lg := s.linear on fmt 1 g
  let lb := s.linear on fmt 2 b
  let (mr, mg, mb) := if on then s.matrix lr lg lb else (lr, lg, lb)
  let (cr, nr, hr) := clip01 mr
  let (cg, ng, hg) := clip01 mg
  let (cb, nb, hb) := clip01 mb
  let p : Pix := ⟨cr, cg, cb⟩
  let y := yReq s.headroom p
  if on then ⟨p, y, nans, nr || ng || nb, hr || hg || hb⟩ else ⟨⟨lr, lg, lb⟩, y, 0, false, false⟩

/-- A run of pixels passes INPUT: the counters of R120 and R126, and the first events of a source frame (R133). -/
def State.inputRun (s : State) (fmt : Nat) (l : List (Nat × Nat × Nat)) : State × List PixIn :=
  let out := l.map (fun c => s.inputPixel fmt c.1 c.2.1 c.2.2)
  let nans := (out.map (·.nans)).sum
  let neg := (out.filter (·.neg)).length
  let hi := (out.filter (·.hi)).length
  let t := ((s.bumpBy (wholeFld Reg.INPUT_NAN_CNT) nans).bumpBy (wholeFld Reg.INPUT_CLAMP_NEG) neg).bumpBy
    (wholeFld Reg.INPUT_CLAMP_HI) hi
  let t := if 0 < neg + hi ∧ !t.inp.clampSeen then
      { (t.raise 0x40 2) with inp := { t.inp with clampSeen := true } } else t
  let t := if 0 < nans ∧ !t.inp.nanSeen then
      { (t.raise 0x40 3) with inp := { t.inp with nanSeen := true } } else t
  (t, out)

/-! Hems (R132). -/

/-- The line or column that stands for one at `y` of `n`; none is black. -/
def hemIndex (mode n : Nat) (y : Int) : Option Nat :=
  if 0 ≤ y ∧ y < n then some y.toNat
  else
    match mode with
    | 1 => some (if y < 0 then (-1 - y).toNat else (2 * (n : Int) - 1 - y).toNat)
    | 2 => none
    | _ => some (if y < 0 then 0 else n - 1)

/-! Table access (R121, R122, R124). -/

/-- Whether the applying set holds another value of a field than the active one (R122). -/
def State.switching (s : State) (x : Fld) : Bool :=
  match s.chip.applying with
  | none => false
  | some set => x.get (Cells.get resetWord set.words x.addr) != s.fldA x

/-- A load index as it acts: one beyond the last entry acts as 0. -/
def actIndex (last i : Nat) : Nat := if last < i then 0 else i
/-- The next index, which wraps after the last entry (R121). -/
def nextIndex (last i : Nat) : Nat := if last ≤ i then 0 else i + 1

/-- LUT_DATA is read (R121). -/
def State.lutRead (s : State) : State × Word :=
  let i := actIndex 4096 (s.fld Reg.INPUT_LUT_ADDR_INDEX)
  let ch := s.fld Reg.INPUT_LUT_ADDR_CH
  let v := s.eotfEntry (1 - s.fldA Reg.INPUT_EOTF_CFG_BANK) (if ch = 3 then 0 else ch) i
  (s.put Reg.INPUT_LUT_ADDR_INDEX (nextIndex 4096 i), v.setWidth 32)

/-- Whether a preset load runs. -/
def State.lutBusy (s : State) : Bool := s.flag Reg.INPUT_LUT_STATUS_BUSY

/-- LUT_DATA is written (R121, R122, R124). -/
def State.lutWrite (s : State) (w : Word) : State :=
  if s.lutBusy || s.switching Reg.INPUT_EOTF_CFG_BANK then s.bump Reg.INPUT_LUT_BUSY_CNT
  else
    let i := actIndex 4096 (s.fld Reg.INPUT_LUT_ADDR_INDEX)
    let ch := s.fld Reg.INPUT_LUT_ADDR_CH
    let b := 1 - s.fldA Reg.INPUT_EOTF_CFG_BANK
    let v : Sample := BitVec.ofNat 16 w.toNat
    let s := s.each (if ch = 3 then [0, 1, 2] else [ch]) (fun c s => s.eotfStore b c i v)
    s.put Reg.INPUT_LUT_ADDR_INDEX (nextIndex 4096 i)

/-- LUT_CTRL is written: PRESET is stored, and LOAD starts a load (R123, R124). -/
def State.lutCtrl (s : State) (w : Word) : State :=
  let s := s.put Reg.INPUT_LUT_CTRL_PRESET (Reg.INPUT_LUT_CTRL_PRESET.get w)
  if Reg.INPUT_LUT_CTRL_LOAD.get w = 0 then s
  else if s.lutBusy || s.switching Reg.INPUT_EOTF_CFG_BANK then s.bump Reg.INPUT_LUT_BUSY_CNT
  else
    let s := (s.put Reg.INPUT_LUT_STATUS_BUSY 1).put Reg.INPUT_LUT_STATUS_FAILED 0
    let j : EotfLoad := ⟨1 - s.fldA Reg.INPUT_EOTF_CFG_BANK, s.fld Reg.INPUT_LUT_CTRL_PRESET,
      s.fld Reg.INPUT_PRESET_PARAM_PEAK_NITS, s.fld Reg.INPUT_PRESET_PARAM_BLACK, false⟩
    { s with inp := { s.inp with load := some j } }

/-- BLACK as R124 refuses it: negative, a NaN, or above 0.1. −0 is not negative. -/
def blackBad (b : Sample) : Bool :=
  isNaN16 b || (0x8000 < b.toNat) || (b.toNat < 0x8000 && Frac.lt ⟨1, 10⟩ (val16 b))

/-- A preset load ends (R124): the bank holds its curve, or its contents are undefined. -/
def State.lutDone (s : State) : State :=
  match s.inp.load with
  | none => s
  | some j =>
    let fail := 3 < j.preset || (j.preset == 1 && j.peak == 0) || (j.preset == 3 && blackBad (BitVec.ofNat 16 j.black))
      || j.restarted || !s.coreRunning
    let x : EotfBank := if fail then ⟨4, s.fresh + 1, []⟩
      else ⟨j.preset, j.peak + 65536 * (if j.black = 0x8000 then 0 else j.black), []⟩
    let s := if fail then s.used else s
    let s := ((s.setEotfBank j.bank x).put Reg.INPUT_LUT_STATUS_BUSY 0).put Reg.INPUT_LUT_STATUS_FAILED (b2n fail)
    { (s.raise 0x40 (if fail then 1 else 0)) with inp := { s.inp with load := none } }

/-- LUT_STATUS as it reads (R122, R124). -/
def State.lutStatus (s : State) : Word :=
  Reg.INPUT_LUT_STATUS_SWITCH_PENDING.put (s.rd Reg.INPUT_LUT_STATUS) (b2n (s.switching Reg.INPUT_EOTF_CFG_BANK))

end Sys2Proof.Machine
end

