-- ==== Sys2Proof/Machine/Stats.lean ====
section
/-! DEFINITION. STATS (R128 to R136): zone histograms, needs, the record sets, capture and readback. -/

namespace Sys2Proof.Machine

/-! Geometry of the active configuration. -/

def State.hact (s : State) : Nat := s.fldA Reg.TIMING_HTIMING_HACTIVE
def State.vact (s : State) : Nat := s.fldA Reg.TIMING_VTIMING_VACTIVE
def State.zoneCols (s : State) : Nat := s.fldA Reg.ZONE_GRID_COLS
/-- The rows of zones; ROWS is ignored while COLS is 0 (R164). -/
def State.zoneRows (s : State) : Nat := if s.zoneCols = 0 then 0 else s.fldA Reg.ZONE_GRID_ROWS

/-- The zone boundaries of the active configuration; without zones the frame is one zone (R131, R162). -/
def State.colBounds (s : State) : List Nat :=
  if s.zoneCols = 0 then [0, s.hact]
  else (List.range (s.zoneCols + 1)).map (fun k => s.fldA ⟨Reg.ZONE_COLB k, 0, 13⟩)
def State.rowBounds (s : State) : List Nat :=
  if s.zoneCols = 0 then [0, s.vact]
  else (List.range (s.zoneRows + 1)).map (fun k => s.fldA ⟨Reg.ZONE_ROWB k, 0, 13⟩)

/-- The part of a list of rising boundaries that holds a position. -/
def partOf (b : List Nat) (x : Nat) : Nat := (b.filter (fun e => e ≤ x)).length - 1

/-- The zones of the grid in use by STATS. -/
def StatsState.cols (t : StatsState) : Nat := t.colb.length - 1
def StatsState.rows (t : StatsState) : Nat := t.rowb.length - 1

/-- Whether a pixel lies in a rectangle of a partial frame; every pixel of a full frame counts (R68). -/
def inRects (rs : Option (List Rect)) (x y : Nat) : Bool :=
  match rs with
  | none => true
  | some l => l.any (fun r => r.x ≤ x && x < r.x + r.w && r.y ≤ y && y < r.y + r.h)

/-- Whether a rectangle touches a zone. -/
def touches (rs : Option (List Rect)) (x0 x1 y0 y1 : Nat) : Bool :=
  match rs with
  | none => true
  | some l => l.any (fun r => r.x < x1 && x0 < r.x + r.w && r.y < y1 && y0 < r.y + r.h)

/-- A source frame starts (R166, R131): STATS changes to the boundaries of the active configuration. The complete set
stays in force until the sets swap. -/
def State.statsBegin (s : State) (frame : Nat) (rects : Option (List Rect)) : State :=
  { s with sta := { s.sta with
      isOpen := true, frame := frame, rects := rects, colb := s.colBounds, rowb := s.rowBounds, closed := 0
      acc := [], fill := [] } }

/-- A zone's record of the last complete frame, if it was gathered under the boundaries now in use (R130). -/
def StatsState.previous (t : StatsState) (z : Nat) : Option ZoneRec :=
  if t.doneColb = t.colb ∧ t.doneRowb = t.rowb then Cells.get (fun _ => none) t.done z else none

/-- A rectangle joins the frame (R68). -/
def State.statsRects (s : State) (rects : Option (List Rect)) : State := { s with sta := { s.sta with rects := rects } }

/-- The bin of a pixel (R128). -/
def binOf (y : Sample) : Nat := y.toNat / 1024 % 32

/-- One pixel joins its zone (R128). -/
def ZoneAcc.add (a : ZoneAcc) (y : Sample) : ZoneAcc :=
  ⟨a.n + 1, maxS a.ymax y, a.hist.mapIdx (fun i c => if i = binOf y then c + 1 else c)⟩

/-- The pixels of an accepted segment join their zones (R128, R130): in a partial frame only those in a rectangle. -/
def State.statsAdd (s : State) (line first : Nat) (ys : List Sample) : State :=
  let t := s.sta
  let row := partOf t.rowb line
  if !t.isOpen || t.closed > row then s
  else
    let acc := (ys.zipIdx).foldl (fun acc e =>
      let x := first + e.2
      if inRects t.rects x line then
        let z := row * t.cols + partOf t.colb x
        Cells.set (fun _ => ZoneAcc.empty) acc z ((Cells.get (fun _ => ZoneAcc.empty) acc z).add e.1)
      else acc) t.acc
    { s with sta := { t with acc := acc } }

/-- The lower edge of a bin and its width (R128). -/
def binLo (b : Nat) : Frac := if b = 0 then Frac.zero else ⟨(2 ^ (b - 1) : Nat), 2 ^ 14⟩
def binHi (b : Nat) : Frac := ⟨(2 ^ b : Nat), 2 ^ 14⟩

/-- FRAC as it acts (R129). -/
def fracAct (f : Sample) : Sample := if isNaN16 f ∨ 0x8000 ≤ f.toNat then 0 else minS f 0x3C00

/-- The first bin whose running sum reaches t: the bin and the sum before it. -/
def findBin : List Nat → Nat → Nat → Nat → Nat × Nat
  | [], _, b, c => (b - 1, c)
  | h :: hs, t, b, c => if t ≤ c + h then (b, c) else findBin hs t (b + 1) (c + h)

/-- A zone's need (R129). -/
def zoneNeed (a : ZoneAcc) (pct : Nat) (frac : Sample) : Sample :=
  let t := max 1 ((a.n * pct + 255) / 256)
  let (b, c) := findBin a.hist t 0 0
  let q : Sample :=
    if 15 ≤ b then 0x3C00
    else
      let h := a.hist.getD b 1
      round16 (Frac.add (binLo b) (Frac.mul ⟨((t - c : Nat) : Int), h⟩ (Frac.sub (binHi b) (binLo b))))
  let fr := round16 (Frac.mul (val16 (fracAct frac)) (val16 a.ymax))
  maxS (minS q a.ymax) fr

/-- The CAP registers take the selected zone as its row closes (R135). -/
def State.statsCapture (s : State) (z : Nat) (hist : List Nat) (r : ZoneRec) : State :=
  if s.flag Reg.STATS_CAPTURE_EN && !s.flag Reg.STATS_CAP_STATUS_VALID && s.fld Reg.STATS_CAPTURE_ZONE == z then
    let s := s.each (List.range 16) (fun i s => s.wrN (Reg.STATS_CAP_HIST i) (hist.getD i 0))
    let s := (s.wrN Reg.STATS_CAP_REC (r.need.toNat + 65536 * r.ymax.toNat)).wrN Reg.STATS_CAP_FRAME s.sta.frame
    (s.put Reg.STATS_CAP_STATUS_VALID 1).raise 0x41 1
  else s

/-- The record of a closing zone, whether it is stale, and its histogram (R130). -/
def State.closeRec (s : State) (z : Nat) (touched : Bool) : ZoneRec × Bool × List Nat :=
  let t := s.sta
  let a := Cells.get (fun _ => ZoneAcc.empty) t.acc z
  let prev := t.previous z
  let part := t.rects.isSome
  if a.n = 0 then (prev.getD ⟨0x3C00, 0x3C00⟩, touched, a.hist)
  else
    let r : ZoneRec := ⟨zoneNeed a (s.fldA Reg.STATS_CFG_PCT) (BitVec.ofNat 16 (s.fldA Reg.STATS_CFG_FRAC)), a.ymax⟩
    match part, prev with
    | true, some p => (⟨maxS r.need p.need, maxS r.ymax p.ymax⟩, false, a.hist)
    | _, _ => (r, false, a.hist)

/-- A zone row closes (R129, R130); what other rows have gathered stays. -/
def State.closeRow (s : State) (row : Nat) : State :=
  let t := s.sta
  let s := s.each (List.range t.cols) (fun j s =>
    let z := row * t.cols + j
    let touched := touches t.rects (t.colb.getD j 0) (t.colb.getD (j + 1) 0) (t.rowb.getD row 0) (t.rowb.getD (row + 1) 0)
    let (r, stale, hist) := s.closeRec z touched
    let s := s.bumpIf stale Reg.STATS_STALE_ZONES
    let s := { s with sta := { s.sta with fill := Cells.set (fun _ => none) s.sta.fill z (some r) } }
    s.statsCapture z hist r)
  { s with sta := { s.sta with closed := row + 1, acc := s.sta.acc.filter (fun e => e.1 / max 1 t.cols ≠ row) } }

/-- Every row whose last line is at or before `line` closes (R129). -/
def State.statsLine (s : State) (line : Nat) : State :=
  if s.sta.isOpen then
    (List.range s.sta.rows).foldl (fun s r =>
      if s.sta.closed = r ∧ s.sta.rowb.getD (r + 1) 0 ≤ line + 1 then s.closeRow r else s) s
  else s

/-- The frame completes (R131): rows still open close, and the sets swap roles. -/
def State.statsComplete (s : State) : State :=
  if s.sta.isOpen then
    let s := (List.range s.sta.rows).foldl (fun s r => if s.sta.closed = r then s.closeRow r else s) s
    let t := s.sta
    ({ s with sta := { t with
        isOpen := false, done := t.fill, fill := [], doneColb := t.colb, doneRowb := t.rowb } }.wrN Reg.STATS_RB_FRAME t.frame).raise 0x41 0
  else s

/-- The frame is discarded with its filling set (R131). -/
def State.statsDiscard (s : State) : State :=
  { s with sta := { s.sta with isOpen := false, closed := 0, acc := [], fill := [] } }

/-- A record as a readback shows it: need and y_max; a zone without a record reads 0 (log entry 13). -/
def ZoneRec.word (r : Option ZoneRec) : Word :=
  match r with
  | none => 0
  | some r => BitVec.ofNat 32 (r.need.toNat + 65536 * r.ymax.toNat)

/-- The record of the complete set (R131). -/
def State.zoneRec (s : State) (z : Nat) : Option ZoneRec := Cells.get (fun _ => none) s.sta.done z

/-- The configured zones of a readback: one without zones. -/
def State.zoneCount (s : State) : Nat := max 1 (s.zoneCols * s.zoneRows)

/-- RB_DATA is read (R136). -/
def State.statsRead (s : State) : State × Word :=
  let a := s.fld ⟨Reg.STATS_RB_ADDR, 0, 14⟩
  (s.put ⟨Reg.STATS_RB_ADDR, 0, 14⟩ (nextIndex (s.zoneCount - 1) a), ZoneRec.word (s.zoneRec a))

end Sys2Proof.Machine
end

