-- ==== Sys2Proof/Machine/FrameStore.lean ====
section
/-! DEFINITION. The frame store (R137 to R161, R503): how the write side fills a slot line by line, the ring of three
slots, and how the read side finds a line. -/

namespace Sys2Proof.Machine

/-! Slots. -/

def slotStateFld (n : Nat) : Fld := ⟨Reg.CODEC_SLOT_STATE, 4 * n, 2⟩
def slotFree : Nat := 0
def slotWriting : Nat := 1
def slotSettled : Nat := 2
def slotHoled : Nat := 3

def State.slotInfo (s : State) (n : Nat) : SlotInfo := Cells.get (fun _ => ⟨0, []⟩) s.sto.slots n
def State.setSlotInfo (s : State) (n : Nat) (x : SlotInfo) : State :=
  { s with sto := { s.sto with slots := Cells.set (fun _ => ⟨0, []⟩) s.sto.slots n x } }

/-- The handle of a slot in force. -/
def State.slotHandle (s : State) (n : Nat) : Nat :=
  match s.sto.layout with
  | some (h0, h1, h2, _, _) => if n = 0 then h0 else if n = 1 then h1 else h2
  | none => 0

/-- The layout in force (R137). -/
def State.slotDims (s : State) : SlotLayout :=
  match s.sto.layout with
  | some (_, _, _, h, v) => slotLayout h v
  | none => slotLayout 0 0

/-- A slot changes its state (R153); a readback of it turns stale (R161). -/
def State.setSlot (s : State) (n st : Nat) : State :=
  let stale := s.fld (slotStateFld n) != st && s.sto.rbSlot == n &&
    (s.flag Reg.CODEC_RB_STATUS_BUSY || s.flag Reg.CODEC_RB_STATUS_READY)
  (s.put (slotStateFld n) st).when stale (fun s => s.put Reg.CODEC_RB_STATUS_STALE 1)

/-- P, when it exists, and S (R153). -/
def State.newest (s : State) : Option Nat :=
  if s.flag Reg.CODEC_RING_NEWEST_VALID then some (s.fld Reg.CODEC_RING_NEWEST) else none
def State.shown (s : State) : Nat := s.fld Reg.CODEC_RING_SHOWN

/-- What a slot holds of a line: 0 written, 1 not written, 2 left to R24. -/
def State.slotLine (s : State) (n y : Nat) : Nat :=
  let i := s.slotInfo n
  if i.filled ≤ y then 1 else Cells.get (fun _ => 0) i.exc y

/-! Reading the blocks of a line. -/

/-- The blocks of a line as an engine reads them: index words and data; none on a memory fault. -/
def State.fetchLine (s : State) (e slot y : Nat) : State × Option (List (Nat × List Byte)) :=
  let d := s.slotDims
  let h := s.slotHandle slot
  let (s, k, idx) := s.engRead e h (d.ip * y) (2 * d.b)
  if k != 0 then (s, none)
  else
    (List.range d.b).foldl (fun (acc : State × Option (List (Nat × List Byte))) b =>
      match acc with
      | (s, none) => (s, none)
      | (s, some l) =>
        let w := leVal ((idx.drop (2 * b)).take 2)
        match idxEff w (blockPixels s.hact b) with
        | none => (s, some (l ++ [(w, [])]))
        | some _ =>
          let (s, k, data) := s.engRead e h (d.d0 + d.lp * y + 384 * b) (idxLen w)
          if k != 0 then (s, none) else (s, some (l ++ [(w, data)]))) (s, some [])

/-- Some blocks of a line as the write side reads them, each with its own index word; none on a memory fault. -/
def State.fetchBlocks (s : State) (slot y : Nat) (want : Nat → Bool) : State × Option (List (Nat × List Byte)) :=
  let d := s.slotDims
  let h := s.slotHandle slot
  (List.range d.b).foldl (fun (acc : State × Option (List (Nat × List Byte))) b =>
    match acc with
    | (s, none) => (s, none)
    | (s, some l) =>
      if !want b then (s, some (l ++ [(0, [])]))
      else
        let (s, k, idx) := s.engRead 0 h (d.ip * y + 2 * b) 2
        let w := leVal idx
        if k != 0 then (s, none)
        else match idxEff w (blockPixels s.hact b) with
          | none => (s, some (l ++ [(w, [])]))
          | some _ =>
            let (s, k, data) := s.engRead 0 h (d.d0 + d.lp * y + 384 * b) (idxLen w)
            if k != 0 then (s, none) else (s, some (l ++ [(w, data)]))) (s, some [])

/-- Whether a block of an odd line is coded against the line above. -/
def blockNeedsAbove (n : Nat) (blk : Nat × List Byte) : Bool := idxEff blk.1 n == some 2

/-- The pixels of a fetched block. -/
def State.decodeFetched (s : State) (y b : Nat) (above : Above) (blk : Nat × List Byte) : Option (List Pix) :=
  let n := blockPixels s.hact b
  match idxEff blk.1 n with
  | none => none
  | some eff => decodeBlock eff (y % 2 == 0) above s.hact (64 * b) n blk.2

/-- All the blocks of a line decoded; none on the first error. -/
def State.decodeFetchedLine (s : State) (y : Nat) (above : Above) (l : List (Nat × List Byte)) : Option (List Pix) :=
  (l.zipIdx).foldl (fun acc e =>
    match acc with
    | none => none
    | some ps => (s.decodeFetched y e.2 above e.1).map (fun q => ps ++ q)) (some [])

/-- A decode error is counted and raised (R158). -/
def State.decErr (s : State) : State := (s.bump Reg.CODEC_DEC_ERR).raise 0x42 3

/-- An even line of a slot, and whether a decode error was met (R157, R158). -/
def State.evenLine (s : State) (e slot y : Nat) : State × Option Above × Bool :=
  if s.slotLine slot y = 0 then
    match s.fetchLine e slot y with
    | (s, some l) =>
      match s.decodeFetchedLine y [] l with
      | some p => (s, some p, false)
      | none => (s, none, true)
    | (s, none) => (s, none, false)
  else (s, none, false)

/-- The line above an odd line, as an engine finds it: the kept line (R157), or the slot's; none when it has none. -/
def State.lineAbove (s : State) (e slot y : Nat) : State × Option Above × Bool :=
  if y % 2 = 0 then (s, some [], false)
  else
    match s.sto.kept with
    | some k => if e = 1 ∧ k.slot = slot ∧ k.line + 1 = y then (s, some k.pix, false) else s.evenLine e slot (y - 1)
    | none => s.evenLine e slot (y - 1)

/-- A line of a slot decoded: its pixels, none on an error; and whether a decode error was met in it or in the line above
(R158), not a memory fault. -/
def State.decodeSlotLine (s : State) (e slot y : Nat) : State × Option (List Pix) × Bool :=
  let (s, above, bad) := s.lineAbove e slot y
  match s.fetchLine e slot y with
  | (s, none) => (s, none, bad)
  | (s, some l) =>
    let needs := y % 2 == 1 && (l.zipIdx).any (fun x => blockNeedsAbove (blockPixels s.hact x.2) x.1)
    if above.isNone && needs then (s, none, bad)
    else match s.decodeFetchedLine y (above.getD []) l with
      | some p => (s, some p, bad)
      | none => (s, none, true)

/-- The read side reads a line of a slot (R157, R158); the line decoded is kept. -/
def State.readSlotLine (s : State) (slot y : Nat) : State × Option (List Pix) :=
  match s.decodeSlotLine 1 slot y with
  | (s, some p, bad) => ({ s.when bad State.decErr with sto := { s.sto with kept := some ⟨slot, y, p⟩ } }, some p)
  | (s, none, bad) => (s.when bad State.decErr, none)

/-- The slot that a replacement is read from (R20): P, or the slot that was P before it while P itself is shown. -/
def State.fallback (s : State) : Option Nat :=
  match s.newest with
  | none => none
  | some p =>
    if s.shown = p then
      match s.sto.prevP with
      | some q => if s.fld (slotStateFld q) = slotSettled then some q else none
      | none => none
    else some p

/-- The replacement of a line (R20); none when it is unavailable (R24). -/
def State.readFallback (s : State) (y : Nat) : State × Option (List Pix) :=
  match s.fallback with
  | none => (s, none)
  | some q => if s.slotLine q y = 0 then s.readSlotLine q y else (s, none)

/-- The line the read side shows (R20, R24, R151, R157): its pixels, or none for a black line. -/
def State.viewLine (s : State) (y : Nat) : State × Option (List Pix) :=
  if s.sto.layout.isNone then (s, none)
  else
    match s.slotLine s.shown y with
    | 0 =>
      match s.readSlotLine s.shown y with
      | (s, some p) => (s, some p)
      | (s, none) => s.readFallback y
    | 1 => s.readFallback y
    | _ => (s, none)

/-! Writing a line (R148 to R151, R503). -/

/-- Whether a column lies in one of some spans (first, one past the last). -/
def inSpans (l : List (Nat × Nat)) (x : Nat) : Bool := l.any (fun a => a.1 ≤ x && x < a.2)

/-- The columns a delivered line must carry (R150). -/
def SrcFrame.spans (f : SrcFrame) (hact y : Nat) : List (Nat × Nat) :=
  match f.rects with
  | none => [(0, hact)]
  | some rs => (rs.filter (fun r => r.y ≤ y && y < r.y + r.h)).map (fun r => (r.x, r.x + r.w))

/-- Whether the source must deliver a line: every line of a full frame, those that a rectangle touches in a partial one
(R148); after FLUSH no further one (R152). -/
def SrcFrame.needs (f : SrcFrame) (y : Nat) : Bool :=
  match f.rects with
  | none => true
  | some rs => rs.any (fun r => r.y ≤ y && y < r.y + r.h && 0 < r.w)

/-- The schedule D_n (R148). -/
def SrcFrame.due (f : SrcFrame) (n : Nat) : Nat := f.tPip + (n + 1) * f.tLine

/-- A line as its segments give it; columns not sent are black and are not used. -/
def denseLine (hact : Nat) (segs : List (Nat × List Pix)) : List Pix :=
  let l := segs.foldl (fun (acc : List Pix) e =>
    acc ++ List.replicate (e.1 - acc.length) Pix.black ++ e.2) []
  (l ++ List.replicate (hact - l.length) Pix.black).take hact

/-- Whether some segments carry every column of some spans. -/
def segsCover (segs : List (Nat × List Pix)) (spans : List (Nat × Nat)) : Bool :=
  let have' := segs.map (fun e => (e.1, e.1 + e.2.length))
  spans.all (fun a => (List.range (a.2 - a.1)).all (fun i => inSpans have' (a.1 + i)))

/-- A block leaves the encoder: what is stored, and its pixels. -/
structure OutBlock where
  word : Nat
  data : List Byte
  pix : List Pix
  deriving DecidableEq, Repr

/-- Counts of a stored block (R160). -/
def State.countBlock (s : State) (mode : Nat) : State :=
  s.bump (match mode with
    | 0 => Reg.CODEC_BLK_COPY
    | 1 => Reg.CODEC_BLK_FLAT
    | 2 => Reg.CODEC_BLK_PRED
    | _ => Reg.CODEC_BLK_RAW)

/-- A block encoded (R141, R503). -/
def State.encodeInto (s : State) (f : SrcFrame) (y b : Nat) (sub mrg : Bool) (px : List Pix) : State × OutBlock :=
  let even := y % 2 == 0
  let e := encodeBlock (s.unitOn 0x42) (!even && !f.prevWritten) even (s.flagA Reg.CODEC_CFG_MATCH_EN) f.prevPix s.hact
    (64 * b) px
  (((s.countBlock e.mode).bumpIf e.fallback Reg.CODEC_RAW_FALLBACK).injStretch, ⟨indexWord e.mode e.data.length 0 sub mrg, e.data, px⟩)

/-- P's line y − 1 as far as the blocks of line y need it: its pixels, +0 in the blocks that failed, and those blocks. -/
structure Refs where
  pix : List Pix
  bad : List Nat
  deriving DecidableEq, Repr

/-- P's line y − 1 decoded block by block; blocks not wanted are not looked at. -/
def State.refsOf (s : State) (y : Nat) (want : Nat → Bool) (l : List (Nat × List Byte)) : Refs :=
  (l.zipIdx).foldl (fun r e =>
    let none' := List.replicate (blockPixels s.hact e.2) Pix.black
    if !want e.2 then { r with pix := r.pix ++ none' }
    else match s.decodeFetched y e.2 [] e.1 with
      | some p => { r with pix := r.pix ++ p }
      | none => ⟨r.pix ++ none', r.bad ++ [e.2]⟩) ⟨[], []⟩

/-- The reference line with 1.0 in the blocks that failed: what decodes otherwise on it depends on them. -/
def Refs.other (r : Refs) : Above :=
  (r.pix.zipIdx).map (fun e => if r.bad.contains (e.2 / 64) then ⟨0x3C00#16, 0x3C00#16, 0x3C00#16⟩ else e.1)

/-- A block of P decoded for the write side; an error, also of what it refers to, gives +0 (R158). -/
def State.decodeOld (s : State) (y b : Nat) (refs : Refs) (blk : Nat × List Byte) : State × List Pix :=
  let p := s.decodeFetched y b refs.pix blk
  let lame := y % 2 == 1 && blockNeedsAbove (blockPixels s.hact b) blk &&
    (refs.bad.contains b || (!refs.bad.isEmpty && s.decodeFetched y b refs.other blk != p))
  match (if lame then none else p) with
  | some p => (s, p)
  | none => (s.decErr, List.replicate (blockPixels s.hact b) Pix.black)

/-- Whether no pixel of line y − 1 that a block refers to came from the source in this frame (R149). -/
def SrcFrame.clear (f : SrcFrame) (b : Nat) : Bool :=
  (List.range 80).all (fun i => !(8 ≤ 64 * b + i && inSpans f.prevSpans (64 * b + i - 8)))

/-- Whether a block of P on an odd line is copied by its bytes (R149, R503). -/
def SrcFrame.copies (f : SrcFrame) (b eff : Nat) : Bool := if f.prevWritten then f.clear b else eff != 2

/-- A block copied from P (R149, R503). -/
def State.copyBlock (s : State) (f : SrcFrame) (y b : Nat) (refs : Refs) (blk : Nat × List Byte) : State × OutBlock :=
  let recode := fun (s : State) =>
    let (s, p) := s.decodeOld y b refs blk
    s.encodeInto f y b true false p
  match idxEff blk.1 (blockPixels s.hact b) with
  | none => recode s
  | some eff =>
    if y % 2 = 0 then
      match s.decodeFetched y b [] blk with
      | some p => (s.countBlock 0, ⟨indexWord 0 blk.2.length eff true false, blk.2, p⟩)
      | none => recode s
    else if f.copies b eff then (s.countBlock 0, ⟨indexWord 0 blk.2.length eff true false, blk.2, []⟩)
    else recode (s.bump Reg.CODEC_RECODE)

/-- How the source covers a block: 0 wholly, 1 in part, 2 not at all (R148). -/
def blockCover (hact : Nat) (spans : List (Nat × Nat)) (b : Nat) : Nat :=
  let ins := (List.range (blockPixels hact b)).map (fun i => inSpans spans (64 * b + i))
  if ins.all id then 0 else if ins.any id then 1 else 2

/-- The blocks of a line: encoded where the source gives every pixel, merged where it gives some, else copied (R148). -/
def State.buildBlocks (s : State) (f : SrcFrame) (y : Nat) (spans : List (Nat × Nat)) (src : List Pix) (refs : Refs)
    (old : List (Nat × List Byte)) : State × List OutBlock :=
  (List.range s.slotDims.b).foldl (fun (acc : State × List OutBlock) b =>
    let (s, l) := acc
    let n := blockPixels s.hact b
    let px := (src.drop (64 * b)).take n
    let blk := old.getD b (0, [])
    let (s, o) :=
      match blockCover s.hact spans b with
      | 0 => s.encodeInto f y b false false px
      | 1 =>
        let (s, p) := s.decodeOld y b refs blk
        s.encodeInto f y b false true ((List.zip px p).zipIdx.map (fun e =>
          if inSpans spans (64 * b + e.2) then e.1.1 else e.1.2))
      | _ => s.copyBlock f y b refs blk
    (s, l ++ [o])) (s, [])

/-- Whether the write side decodes a block of P against P's line above (R148, R149). -/
def State.decodesAbove (s : State) (f : SrcFrame) (y : Nat) (spans : List (Nat × Nat)) (old : List (Nat × List Byte))
    (b : Nat) : Bool :=
  let blk := old.getD b (0, [])
  y % 2 == 1 && blockNeedsAbove (blockPixels s.hact b) blk &&
    (match blockCover s.hact spans b with | 0 => false | 1 => true | _ => !f.copies b 2)

/-- The blocks of a line reach the slot: its index row and each block's data (R137, R138). -/
def State.storeBlocks (s : State) (slot y : Nat) (l : List OutBlock) : State :=
  let d := s.slotDims
  let h := s.slotHandle slot
  let s := (s.engWrite 0 h (d.ip * y) (l.flatMap (fun o => leBytes 2 o.word))).1
  (l.zipIdx).foldl (fun s e => (s.engWrite 0 h (d.d0 + d.lp * y + 384 * e.2) e.1.data).1) s

def State.setSrc (s : State) (f : SrcFrame) : State := { s with sto := { s.sto with src := some f } }

/-- The write side passes a line it does not write: 1 a hole (R151), 2 left to R24 (R150). -/
def State.passLine (s : State) (f : SrcFrame) (why : Nat) : State :=
  let s := match f.slot with
    | some n =>
      let i := s.slotInfo n
      s.setSlotInfo n ⟨f.next + 1, Cells.set (fun _ => 0) i.exc f.next why⟩
    | none => s
  s.setSrc { f with next := f.next + 1, prevWritten := false, prevPix := [], prevSpans := [] }

/-- What the next line needs of P, read block by block (R148, R149): the blocks that the source does not cover, and of P's
line above those that they are decoded against. None on a memory fault, which leaves the line to R24 (R150), or when P
does not hold the line. -/
def State.oldBlocks (s : State) (f : SrcFrame) (spans : List (Nat × Nat)) : State × Option (List (Nat × List Byte) × Refs) :=
  let y := f.next
  let p := s.newest.getD 0
  let want := fun b => blockCover s.hact spans b != 0
  if !(List.range s.slotDims.b).any want then (s, some ([], ⟨[], []⟩))
  else if s.slotLine p y ≠ 0 then (s, none)
  else match s.fetchBlocks p y want with
    | (s, none) => (s, none)
    | (s, some old) =>
      let uses := s.decodesAbove f y spans old
      let near := fun b => uses b || uses (b + 1) || (0 < b && uses (b - 1))
      if !(List.range s.slotDims.b).any uses then (s, some (old, ⟨[], []⟩))
      else if s.slotLine p (y - 1) ≠ 0 then
        (s, some (old, ⟨List.replicate s.hact Pix.black, List.range s.slotDims.b⟩))
      else match s.fetchBlocks p (y - 1) near with
        | (s, none) => (s, none)
        | (s, some l) => (s, some (old, s.refsOf (y - 1) near l))

/-- The next line is written: `src` its source pixels, `spans` the columns they cover (none for a copied line). -/
def State.writeLine (s : State) (f : SrcFrame) (spans : List (Nat × Nat)) (src : List Pix) (sub : Bool) : State :=
  let y := f.next
  match f.slot with
  | none => s.setSrc { f with next := y + 1 }
  | some slot =>
    match s.oldBlocks f spans with
    | (s, none) => s.passLine f 2
    | (s, some (old, refs)) =>
      let (s, blocks) := s.buildBlocks f y spans src refs old
      let s := s.storeBlocks slot y blocks
      let i := s.slotInfo slot
      let s := (s.setSlotInfo slot { i with filled := y + 1 }).bumpIf sub Reg.CODEC_SUB_LINES
      s.setSrc { f with
        next := y + 1
        prevWritten := true
        prevPix := if y % 2 = 0 then blocks.flatMap (·.pix) else []
        prevSpans := spans
        bytes := f.bytes + (blocks.map (·.data.length)).sum }

/-! The ring (R153 to R156). -/

def slotFrameReg (n : Nat) : Nat := Reg.CODEC_SLOT_FRAME0 + 4 * n

/-- A slot whose frame is complete and fully written becomes SETTLED, and P, or HOLED (R153, R151). -/
def State.settle (s : State) : State :=
  match s.sto.src with
  | none => s
  | some f =>
    if f.complete ∧ s.vact ≤ f.next then
      let s := { s with sto := { s.sto with src := none } }
      match f.slot with
      | none => s
      | some n =>
        let s := s.put Reg.CODEC_RING_WRITING 0
        if 0 < f.holes then ((s.setSlot n slotHoled).bump Reg.CODEC_ABANDONED).raise 0x42 2
        else
          let s := { s.setSlot n slotSettled with sto := { s.sto with
            prevP := s.newest, settles := s.sto.settles + 1, blackP := false } }
          let s := (s.put Reg.CODEC_RING_NEWEST n).put Reg.CODEC_RING_NEWEST_VALID 1
          (s.wrN Reg.CODEC_LAST_BYTES (min f.bytes 0xFFFFFFFF)).raise 0x42 0
    else s

/-- Holes at the front are passed, and the frame settles when it can. -/
def State.pumpHoles : Nat → State → State
  | 0, s => s
  | n + 1, s =>
    match s.sto.src with
    | none => s
    | some f =>
      if f.next < s.vact ∧ Cells.get (fun _ => 0) f.missing f.next = 2 then State.pumpHoles n (s.passLine f 1) else s

def State.pump (s : State) : State := (State.pumpHoles s.vact s).settle

/-- A frame that is not settled is discarded (R154); in an entry to self-refresh it also counts there (R107). -/
def State.discardFrame (s : State) (sref : Bool) : State :=
  match s.sto.src with
  | none => s
  | some f =>
    let s := { s with sto := { s.sto with src := none } }
    let s := s.statsDiscard
    match f.slot with
    | none => s
    | some n =>
      let s := ((s.put Reg.CODEC_RING_WRITING 0).bump Reg.CODEC_INCOMPLETE).raise 0x42 1
      let s := s.bumpIf sref Reg.SREF_DISCARDED_FRAMES
      if s.shown = n then { s with sto := { s.sto with freeLater := some n } } else s.setSlot n slotFree

/-- The slot that the next frame is written into: the first after P in the ring that is neither P nor S (R153). -/
def State.nextSlot (s : State) : Nat :=
  let p := s.newest.getD 2
  let a := (p + 1) % 3
  if a ≠ s.shown then a else (p + 2) % 3

/-- FRAME_DONE of R98: MARGIN_MIN of a frame whose pip came in lock. -/
def State.recordMargin (s : State) (f : SrcFrame) : State :=
  if f.inLock then
    if f.missed then s.wrN Reg.TIMING_MARGIN_MIN 0
    else match f.margin with
      | some m => s.wrN Reg.TIMING_MARGIN_MIN (m / 256)
      | none => s
  else s

/-- The frame completes (R69): STATS swaps its sets, MARGIN_MIN is recorded. -/
def State.completeFrame (s : State) : State :=
  match s.sto.src with
  | none => s
  | some f =>
    if f.complete then s
    else ((s.setSrc { f with complete := true }).recordMargin f).statsComplete.pump

/-- A pip ends the frame before it: complete when every line is written, else discarded (R69, R154). -/
def State.endFrame (s : State) : State :=
  match s.sto.src with
  | none => s
  | some f =>
    if s.vact ≤ f.next ∨ f.slot.isNone then
      let s := s.completeFrame
      { s with sto := { s.sto with src := none } }
    else s.discardFrame false

/-- A source frame starts (R148, R152, R153); no pixel of it has been clipped or was a NaN yet (R133). -/
def State.startFrame (s : State) (no tPip tLine first : Nat) (inLock part : Bool) : State :=
  let off := part && !s.flagA Reg.CODEC_CFG_PARTIAL_EN
  let slot := if off ∨ s.sto.layout.isNone then none else some s.nextSlot
  let s := if off then (s.bump Reg.CODEC_REGION_OFF).raise 0x42 4 else s
  let s := match slot with
    | some n =>
      let s := (s.setSlot n slotWriting).setSlotInfo n ⟨0, []⟩
      let s := (s.put Reg.CODEC_RING_WRITE n).put Reg.CODEC_RING_WRITING 1
      let s := { s with sto := { s.sto with
        pips := Cells.set (fun _ => 0) s.sto.pips n tPip
        kept := (match s.sto.kept with | some k => if k.slot = n then none else some k | none => none) } }
      s.wrN (slotFrameReg n) no
    | none => s
  let s := { s with inp := { s.inp with clampSeen := false, nanSeen := false } }.statsBegin no (if part then some [] else none)
  s.setSrc
    { no := no, tPip := tPip, tLine := tLine, first := first, inLock := inLock
      rects := if part then some [] else none
      off := off, declared := 0, opened := false, flushed := false, complete := false, slot := slot, cur := none, lastLine := none, waiting := []
      missing := [], subs := 0, holes := 0, next := 0, prevWritten := false, prevPix := [], prevSpans := [], bytes := 0
      margin := none, missed := false }

/-- The slots of the active configuration, when all are enabled. -/
def State.slotConfig (s : State) : Option (Nat × Nat × Nat × Nat × Nat) :=
  if s.flagA Reg.CODEC_SLOT0_EN && s.flagA Reg.CODEC_SLOT1_EN && s.flagA Reg.CODEC_SLOT2_EN then
    some (s.fldA Reg.CODEC_SLOT0_HANDLE, s.fldA Reg.CODEC_SLOT1_HANDLE, s.fldA Reg.CODEC_SLOT2_HANDLE, s.hact, s.vact)
  else none

/-- A black line is written into FS0 (R156). -/
def State.blackLine (s : State) (y : Nat) : State :=
  let b := s.slotDims.b
  let s := s.storeBlocks 0 y (List.replicate b ⟨indexWord 1 6 0 false false, Pix.black.bytes, []⟩)
  s.bumpBy (wholeFld Reg.CODEC_BLK_FLAT) b

/-- FS0 becomes the black frame (R156). -/
def State.blackFrame (s : State) (cfg : Nat × Nat × Nat × Nat × Nat) : State :=
  let s := s.discardFrame false
  let s := { s with sto := { s.sto with
    layout := some cfg, prevP := none, freeLater := none, black := true, blackP := true, kept := none
    slots := [] } }
  let s := (List.range s.vact).foldl (fun s y => s.blackLine y) s
  let s := s.setSlotInfo 0 ⟨s.vact, []⟩
  let s := ((s.setSlot 0 slotSettled).setSlot 1 slotFree).setSlot 2 slotFree
  let s := (s.put Reg.CODEC_RING_NEWEST 0).put Reg.CODEC_RING_NEWEST_VALID 1
  let s := (s.put Reg.CODEC_RING_SHOWN 0).put Reg.CODEC_RING_WRITE 0
  (s.wrN Reg.CODEC_SLOT_FRAME0 0).raise 0x42 0

/-- The read side chooses S at a boundary (R155, R156); `first` when the frame is a first showing in lock of the
source frame being written. After a black frame S stays FS0 until a source frame settles. A discarded slot that is no
longer S becomes FREE (R154). -/
def State.chooseShown (s : State) (first : Bool) : State :=
  let s := { s with sto := { s.sto with black := false, kept := none, settles := 0 } }
  let s :=
    match s.slotConfig with
    | none =>
      let s := s.discardFrame false
      { s with sto := { s.sto with layout := none, black := true, blackP := false } }
    | some cfg =>
      if s.sto.layout = some cfg then
        let sh := match s.sto.src with
          | some f => if first && !s.sto.blackP then f.slot.getD (s.newest.getD 0) else s.newest.getD 0
          | none => s.newest.getD 0
        let s := s.put Reg.CODEC_RING_SHOWN sh
        match s.sto.freeLater with
        | some n =>
          if n = sh then s
          else { s.setSlot n slotFree with sto := { s.sto with freeLater := none } }
        | none => s
      else s.blackFrame cfg
  (s.put ⟨Reg.SREF_SLOT, 0, 2⟩ s.shown).wr Reg.SREF_SLOT_FRAME (s.rd (slotFrameReg s.shown))

/-! Arrival (R68, R69, R73, R74, R150). -/

/-- A line is declared missing (R74, R150, R151). -/
def State.declareMissing (s : State) (y : Nat) : State :=
  match s.sto.src with
  | none => s
  | some f =>
    if y < s.vact ∧ f.needs y ∧ !f.flushed ∧ f.next ≤ y ∧ Cells.get (fun _ => 0) f.missing y = 0 ∧ !f.waiting.any (fun l => l.line == y) then
      let hole := s.vact / 32 ≤ f.subs
      let s := s.setSrc { f with
        missing := Cells.set (fun _ => 0) f.missing y (if hole then 2 else 1)
        subs := if hole then f.subs else f.subs + 1
        holes := if hole then f.holes + 1 else f.holes
        cur := (match f.cur with | some c => if c.line = y then none else some c | none => none)
        missed := true }
      ((s.bump Reg.ISL_MISSING).raise 0x10 10).bumpIf hole Reg.CODEC_HOLE_LINES |>.statsLine y
    else s

/-- Every line below one that is neither complete nor missing is declared missing (R150). -/
def State.overtake (s : State) (y : Nat) : State :=
  match s.sto.src with
  | none => s
  | some f => (List.range (y - f.next)).foldl (fun s i => s.declareMissing (f.next + i)) s

/-- Whether a delivered line would wait for an earlier line that is still to be copied or delivered (R148). -/
def SrcFrame.held (f : SrcFrame) (y : Nat) : Bool :=
  (List.range (y - f.next)).any (fun i => !f.waiting.any (fun l => l.line == f.next + i))

/-- A line completes: it waits to be written, unless the arrival buffer of four lines is full (R148); its margin and an
early completion are recorded (R98). -/
def State.lineComplete (s : State) (c : LineIn) : State :=
  match s.sto.src with
  | none => s
  | some f =>
    if f.held c.line ∧ 4 ≤ (f.waiting.filter (fun l => f.held l.line)).length then
      ((s.setSrc { f with cur := none }).bump Reg.CODEC_ARRIVAL_DROP).declareMissing c.line
    else
      -- W_n = F + (n + 1 − LL) × t_line (R96)
      let ll := (s.rd Reg.CHIP_LATENCY_LINES).toNat
      let w := f.first + (c.line + 1) * f.tLine - ll * f.tLine
      let early := f.inLock && s.now + 2 * 256000 < w
      let m := w - s.now
      let s := s.setSrc { f with
        cur := none, waiting := f.waiting ++ [c]
        margin := some (match f.margin with | some k => min k m | none => m) }
      ((s.bumpIf early Reg.TIMING_EARLY_LINES).raiseIf early 0x30 7).statsLine c.line

/-- The final line of a frame (R69). -/
def SrcFrame.finalLine (f : SrcFrame) (vact : Nat) : Option Nat :=
  match f.rects with
  | none => some (vact - 1)
  | some rs => rs.foldl (fun m r =>
      if r.w = 0 ∨ r.h = 0 then m
      else some (match m with | some k => max k (r.y + r.h - 1) | none => r.y + r.h - 1)) none

/-- While the Pawn picture is shown, the line banks keep what is received (R459). -/
def State.pawnKeep (s : State) (line first : Nat) (px : List Pix) : State :=
  if s.pawn then
    let old := Cells.get (fun _ => []) s.boot.lines line
    let row := (old ++ List.replicate (first - old.length) Pix.black).take first ++ px ++ old.drop (first + px.length)
    { s with boot := { s.boot with lines := Cells.set (fun _ => []) s.boot.lines line row } }
  else s

/-- An accepted segment joins its line (R73, R150). -/
def State.segment (s : State) (line first : Nat) (px : List Pix) (last : Bool) : State :=
  match s.sto.src with
  | none => s
  | some _ =>
    let s := s.overtake line
    match s.sto.src with
    | none => s
    | some f =>
      let live := f.needs line && !f.flushed && f.next ≤ line && Cells.get (fun _ => 0) f.missing line == 0
      let s :=
        if live then
          let c : LineIn := match f.cur with
            | some c => if c.line = line then ⟨line, c.segs ++ [(first, px)]⟩ else ⟨line, [(first, px)]⟩
            | none => ⟨line, [(first, px)]⟩
          let s := s.setSrc { f with cur := some c }
          if last then
            if segsCover c.segs (f.spans s.hact line) then s.lineComplete c else s.declareMissing line
          else s
        else s
      let s := match s.sto.src with
        | some f => if last then s.setSrc { f with lastLine := some line } else s
        | none => s
      (if last ∧ f.finalLine s.vact = some line then s.completeFrame else s).pump

/-! The write side's own steps. -/

/-- The next line is a delivered one: it is written (R148). -/
def State.lineWrite (s : State) : State :=
  match s.sto.src with
  | none => s
  | some f =>
    if f.next < s.vact then
      match f.waiting.find? (fun l => l.line == f.next) with
      | some l =>
        let g := { f with waiting := f.waiting.filter (fun k => k.line ≠ f.next) }
        (s.writeLine g (f.spans s.hact f.next) (denseLine s.hact l.segs) false).pump
      | none => s
    else s

/-- Whether the next line is one to be copied: untouched, or missing within the allowance (R148, R150). -/
def SrcFrame.copyNext (f : SrcFrame) : Bool :=
  !f.needs f.next || Cells.get (fun _ => 0) f.missing f.next == 1 ||
    (f.flushed && !f.waiting.any (fun l => l.line == f.next))

/-- The next line is copied from P (R149). -/
def State.lineCopy (s : State) : State :=
  match s.sto.src with
  | none => s
  | some f =>
    if f.next < s.vact ∧ f.copyNext then
      (s.writeLine f [] [] (Cells.get (fun _ => 0) f.missing f.next == 1)).pump
    else s

/-- The earliest instant of the next copy: D_n − t_line (R148). -/
def State.copyTime (s : State) : Nat :=
  match s.sto.src with
  | none => s.now
  | some f => f.due f.next - f.tLine

/-- The first line that is neither complete nor missing, when the source still owes one (R150). -/
def State.owedLine (s : State) : Option Nat :=
  match s.sto.src with
  | none => none
  | some f =>
    if f.flushed then none
    else
      ((List.range (s.vact - f.next)).map (fun i => f.next + i)).find? (fun y =>
        f.needs y && Cells.get (fun _ => 0) f.missing y == 0 && !f.waiting.any (fun l => l.line == y))

/-- A REGION row is accepted for the frame (R68, R69): whether it counts in CTL_ERR. -/
def State.regionRow (s : State) (x y w h : Nat) (flush : Bool) : State × Bool :=
  match s.sto.src with
  | none => (s, !flush)
  | some f =>
    if flush then
      ((s.setSrc { f with flushed := true, cur := none }).completeFrame.pump, false)
    else
      match f.rects with
      | none => (s, true)
      | some rs =>
        if f.opened ∨ w = 0 ∨ h = 0 ∨ 16 ≤ f.declared then (s, true)
        else if f.off then (s.setSrc { f with declared := f.declared + 1 }, false)
        else
          let r : Rect := ⟨min x s.hact, min y s.vact, min (x + w) s.hact - min x s.hact, min (y + h) s.vact - min y s.vact⟩
          ((s.setSrc { f with rects := some (rs ++ [r]), declared := f.declared + 1 }).statsRects (some (rs ++ [r])), false)

/-! Readback (R161). -/

/-- RB_SEL is written (R161): what it cannot read ends at once, and no slot is selected. -/
def State.rbSelect (s : State) (w : Word) : State :=
  if s.flag Reg.CODEC_RB_STATUS_BUSY then s
  else
    let s := s.wr Reg.CODEC_RB_SEL (w &&& 0x1FFF0003)
    let slot := s.fld Reg.CODEC_RB_SEL_SLOT
    let line := s.fld Reg.CODEC_RB_SEL_LINE
    if s.vact ≤ line ∨ slot = 3 ∨ s.sto.layout.isNone then
      { (s.wr Reg.CODEC_RB_STATUS 10).raise 0x42 6 with sto := { s.sto with rbSlot := 3 } }
    else { s.wr Reg.CODEC_RB_STATUS 1 with sto := { s.sto with rbSlot := slot, rbLine := line } }

/-- The readback decode ends. -/
def State.rbDone (s : State) : State :=
  if s.flag Reg.CODEC_RB_STATUS_BUSY then
    let (s, p, _) := s.decodeSlotLine 10 s.sto.rbSlot s.sto.rbLine
    let s := (s.put Reg.CODEC_RB_STATUS_BUSY 0).put Reg.CODEC_RB_STATUS_READY 1
    (match p with
      | some l => { s with sto := { s.sto with rbPix := l } }
      | none => { s.put Reg.CODEC_RB_STATUS_ERR 1 with sto := { s.sto with rbPix := [] } }).raise 0x42 6
  else s

/-- The pixel that RB_DATA0 and RB_DATA1 show: the buffer is zero at reset; a column the buffer does not hold is a free
value (log entry 14). -/
def State.rbPixel (s : State) : State × Pix :=
  let x := s.fld ⟨Reg.CODEC_RB_X, 0, 13⟩
  match s.sto.rbPix[x]? with
  | some p => (s, p)
  | none =>
    if s.rd Reg.CODEC_RB_STATUS = 0 then (s, Pix.black)
    else (s.used.used, ⟨s.free.setWidth 16, (s.free.extractLsb' 16 16), s.used.free.setWidth 16⟩)

/-- RB_DATA0 is read. -/
def State.rbData0 (s : State) : State × Word :=
  let (s, p) := s.rbPixel
  (s, BitVec.ofNat 32 (p.r.toNat + 65536 * p.g.toNat))

/-- RB_DATA1 is read: RB_X goes on (R160). -/
def State.rbData1 (s : State) : State × Word :=
  let (s, p) := s.rbPixel
  (s.put ⟨Reg.CODEC_RB_X, 0, 13⟩ (s.fld ⟨Reg.CODEC_RB_X, 0, 13⟩ + 1), p.b.setWidth 32)

/-- GEOM and SLOT_BYTES, of the pending configuration (R138). -/
def State.codecPending (s : State) : SlotLayout :=
  slotLayout (s.fld Reg.TIMING_HTIMING_HACTIVE) (s.fld Reg.TIMING_VTIMING_VACTIVE)
def State.codecGeom (s : State) : Word :=
  let d := s.codecPending
  BitVec.ofNat 32 (d.b % 256 + d.lp / 4096 % 256 * 256 + d.ip / 256 % 16 * 65536)

end Sys2Proof.Machine
end

