-- ==== Sys2Proof/Machine/Zone.lean ====
section
/-! DEFINITION. ZONE, PSF and FIELD (R162 to R188): the levels of a zone row, the cap, the ageing gains, the PSF banks,
and the light field. -/

namespace Sys2Proof.Machine

/-! Stage RAMs. -/

/-- An entry of a stage RAM whose reset contents are `d`; lost contents are what Config says (R412; log entry 4). -/
def Tab.base (d : Nat → Sample) (t : Tab) (k : Nat) : Sample := if t.gen = 0 then d k else Config.lostRam t.gen k
def Tab.get (d : Nat → Sample) (t : Tab) (k : Nat) : Sample := Cells.get (t.base d) t.cells k
def Tab.set (d : Nat → Sample) (t : Tab) (k : Nat) (v : Sample) : Tab :=
  { t with cells := Cells.set (t.base d) t.cells k v }

/-- A finite non-negative sample in units of 2^-24. -/
def light24 (v : Sample) : Nat :=
  let f := val16 v
  f.num.toNat * (2 ^ 24 / f.den)

def oneS : Sample := 0x3C00

/-! PSF (R174 to R176). -/

/-- The PSF at reset (R174). -/
def psfReset (k : Nat) : Sample :=
  let i := k % 3249
  let dy := ((i / 57 : Nat) : Int) - 28
  let dx := ((i % 57 : Nat) : Int) - 28
  if dy.natAbs ≤ 8 ∧ dx.natAbs ≤ 8 then BitVec.ofNat 16 (256 * (8 - dy.natAbs) * (8 - dx.natAbs)) else 0

def State.psfBank (s : State) (b : Nat) : Tab := if b = 0 then s.psf.bank0 else s.psf.bank1
def State.setPsfBank (s : State) (b : Nat) (t : Tab) : State :=
  { s with psf := if b = 0 then { s.psf with bank0 := t } else { s.psf with bank1 := t } }

/-- A sample of a class in a bank by its index. -/
def State.psfAt (s : State) (b cls i : Nat) : Nat := (Tab.get psfReset (s.psfBank b) (cls * 3249 + i)).toNat

/-- The active sample at an offset in quarter pitches; none beyond 28 (R174). -/
def State.psfSample (s : State) (cls : Nat) (dy dx : Int) : Nat :=
  if dy.natAbs ≤ 28 ∧ dx.natAbs ≤ 28 then
    s.psfAt (s.fldA Reg.PSF_CFG_BANK) cls ((dy + 28).toNat * 57 + (dx + 28).toNat)
  else 0

/-- The figures of a class in a bank (R176): PEAK, VREACH and CENTRE_ZERO as one INFO word. -/
def State.psfInfo (s : State) (b cls : Nat) : Word :=
  let total := ((List.range 15).map (fun i => ((List.range 15).map (fun k => s.psfAt b cls (4 * i * 57 + 4 * k))).sum)).sum
  let reach := (List.range 57).foldl (fun m i =>
    if (List.range 57).any (fun k => s.psfAt b cls (i * 57 + k) != 0) then
      max m (1 + ((i : Int) - 28).natAbs) else m) 0
  let v := if reach = 0 then 0 else (reach - 1 + 3) / 4 + 1
  BitVec.ofNat 32 ((round16 ⟨total, 65536⟩).toNat + 65536 * v + (if s.psfAt b cls 1624 = 0 then 2 ^ 24 else 0))

/-- PSF.ADDR as it acts. -/
def State.psfIndex (s : State) : Nat := actIndex 3248 (s.fld Reg.PSF_ADDR_INDEX)

def State.psfRead (s : State) : State × Word :=
  let i := s.psfIndex
  (s.put Reg.PSF_ADDR_INDEX (nextIndex 3248 i),
   BitVec.ofNat 32 (s.psfAt (1 - s.fldA Reg.PSF_CFG_BANK) (s.fld Reg.PSF_ADDR_CLASS) i))

def State.psfWrite (s : State) (w : Word) : State :=
  if s.switching Reg.PSF_CFG_BANK then s.bump Reg.PSF_BUSY_CNT
  else
    let i := s.psfIndex
    let b := 1 - s.fldA Reg.PSF_CFG_BANK
    let t := Tab.set psfReset (s.psfBank b) (s.fld Reg.PSF_ADDR_CLASS * 3249 + i) (w.setWidth 16)
    (s.setPsfBank b t).put Reg.PSF_ADDR_INDEX (nextIndex 3248 i)

/-- PSF.CALC is written (R176): the bank is the load bank of now. -/
def State.psfCalc (s : State) (w : Word) : State :=
  if w.toNat % 2 = 0 then s
  else if s.flag Reg.PSF_STATUS_CALC_BUSY then s.bump Reg.PSF_BUSY_CNT
  else { s.put Reg.PSF_STATUS_CALC_BUSY 1 with psf := { s.psf with calcBank := 1 - s.fldA Reg.PSF_CFG_BANK } }

/-- The calculation ends (R176). -/
def State.psfCalcDone (s : State) : State :=
  if s.flag Reg.PSF_STATUS_CALC_BUSY then
    let s := s.each (List.range 8) (fun c s => s.wr (Reg.PSF_LOAD_INFO c) (s.psfInfo s.psf.calcBank c))
    (s.put Reg.PSF_STATUS_CALC_BUSY 0).raise 0x51 0
  else s

/-- ACT_INFO follows the active bank (R176). -/
def State.psfActive (s : State) : State :=
  s.each (List.range 8) (fun c s => s.wr (Reg.PSF_ACT_INFO c) (s.psfInfo (s.fldA Reg.PSF_CFG_BANK) c))

def State.psfStatus (s : State) : Word :=
  Reg.PSF_STATUS_SWITCH_PENDING.put (s.rd (Reg.HDR_STATUS 0x51)) (b2n (s.switching Reg.PSF_CFG_BANK))

/-! The class map (R165). -/

def classIn (m : Cells Word) (z : Nat) : Nat := (Cells.get (fun _ => 0) m (z / 8)).toNat / 16 ^ (z % 8) % 8

def State.classRead (s : State) : State × Word :=
  let a := s.fld ⟨Reg.ZONE_CLASS_ADDR, 0, 11⟩
  (s.put ⟨Reg.ZONE_CLASS_ADDR, 0, 11⟩ (a + 1), Cells.get (fun _ => 0) s.zon.classPend a)

def State.classWrite (s : State) (w : Word) : State :=
  let a := s.fld ⟨Reg.ZONE_CLASS_ADDR, 0, 11⟩
  { s.put ⟨Reg.ZONE_CLASS_ADDR, 0, 11⟩ (a + 1) with
    zon := { s.zon with classPend := Cells.set (fun _ => 0) s.zon.classPend a (w &&& 0x77777777) } }

/-! Ageing gains (R173). -/

def State.agPending (s : State) : Bool := s.flag Reg.ZONE_STATUS_AG_PENDING

def State.agRead (s : State) : State × Word :=
  let a := s.fld ⟨Reg.ZONE_AG_ADDR, 0, 14⟩
  (s.put ⟨Reg.ZONE_AG_ADDR, 0, 14⟩ (a + 1), (Tab.get (fun _ => oneS) s.zon.stage a).setWidth 32)

/-- The host writes AG_DATA (R173). -/
def State.agWrite (s : State) (w : Word) : State :=
  if s.agPending || s.fld Reg.ZONE_AGE_CFG_SRC == 0 then s.bump Reg.ZONE_AG_DROP
  else
    let a := s.fld ⟨Reg.ZONE_AG_ADDR, 0, 14⟩
    { s.put ⟨Reg.ZONE_AG_ADDR, 0, 14⟩ (a + 1) with
      zon := { s.zon with stage := Tab.set (fun _ => oneS) s.zon.stage a (w.setWidth 16) } }

def State.agCommit (s : State) (w : Word) : State :=
  if w.toNat % 2 = 0 then s else s.put Reg.ZONE_STATUS_AG_PENDING 1

/-- The staging gains become active at a boundary (R173). -/
def State.agApply (s : State) : State :=
  if s.agPending then
    { (s.put Reg.ZONE_STATUS_AG_PENDING 0).raise 0x50 1 with zon := { s.zon with gains := s.zon.stage } }
  else s

/-- A zone's gain as it acts (R169). -/
def State.gain (s : State) (z : Nat) : Sample :=
  let g := Tab.get (fun _ => oneS) s.zon.gains z
  if isNaN16 g then oneS
  else if 0x8000 ≤ g.toNat ∨ g.toNat < 0x3800 then 0x3800
  else if 0x4000 < g.toNat then 0x4000 else g

/-- The control core's gain for a zone (R173): none when AGE_K is a NaN, or infinite with no hours, where the spec
states no result. -/
def ageGain (gmax k : Sample) (hours : Frac) : Option Sample :=
  let top := if isNaN16 gmax then none else some
    (if 0x8000 ≤ gmax.toNat ∨ gmax.toNat < 0x3C00 then Frac.one else if 0x4000 < gmax.toNat then Frac.ofNat 2 else val16 gmax)
  let loss : Option Frac :=
    if isNaN16 k ∨ (isInf16 k ∧ hours.num = 0) then none
    else if k = 0x7C00 then some ⟨1, 2⟩
    else if k = 0xFC00 then none
    else some (Frac.min ⟨1, 2⟩ (Frac.div (Frac.mul (val16 k) hours) (Frac.ofNat 1000)))
  match top, loss with
  | some t, some l => some (round16 (Frac.min t (Frac.div Frac.one (Frac.sub Frac.one l))))
  | _, _ => none

/-! Levels (R166 to R172). -/

/-- L_MIN as it acts (R169). -/
def State.lMin (s : State) : Sample :=
  let l := s.lowA Reg.ZONE_L_MIN
  if isNaN16 l ∨ 0x8000 ≤ l.toNat then 0 else if 0x3400 < l.toNat then 0x3400 else l

def State.geomHold (s : State) : Bool := s.flag Reg.ZONE_STATUS_GEOM_HOLD

def levelAt (m : Cells ZoneLevel) (z : Nat) : ZoneLevel := Cells.get (fun _ => ⟨0, 0, 0, 0⟩) m z

/-- The levels of this frame and of the frame before, which stand in B36 (R357): 0 while the bank does not serve PIX. -/
def State.levels (s : State) : Cells ZoneLevel := if s.bankFor 36 ownPix then s.zon.cur else []
def State.levelsWas (s : State) : Cells ZoneLevel := if s.bankFor 36 ownPix then s.zon.hist else []

/-- The previous output frame's light level (R166, R168, R172). -/
def State.prevLam (s : State) (z : Nat) : Sample :=
  if s.geomHold || !s.zon.hasHist then s.lMin else (levelAt s.levelsWas z).lam

/-- The light level of a zone of the grid now, and whether it is this frame's (R177). -/
def State.zoneLam (s : State) (r c : Nat) : Sample × Bool :=
  let z := r * s.zoneCols + c
  if r < s.zon.solved then ((levelAt s.levels z).lam, true) else (s.prevLam z, false)

/-- The class of a zone. -/
def State.zoneClass (s : State) (z : Nat) : Nat := classIn s.zon.classAct z

def State.casEdge (s : State) (e : Nat) : CasEdge := Cells.get (fun _ => CasEdge.atReset) s.cas.edges e

/-- The edges whose neighbour's zones still count (R475, R476): those in use, and those lost. -/
def State.zoneEdge (s : State) (e : Nat) : Bool := (s.casEdge e).inUse || 0 < (s.casEdge e).lostAt

/-- A neighbour's zone at a place outside the grid (R181, R475): its level, its class, and whether it is of this frame of
the group. Of each neighbour seven columns or rows are known. It is 0 once EDL.LINK_HOLD has run out since its lane was
lost (R476); none at an outer edge. -/
def State.seamZone (s : State) (r c : Int) : Option (Sample × Nat × Bool) :=
  let rows : Int := s.zoneRows
  let cols : Int := s.zoneCols
  let e := if c < 0 then 2 else if cols ≤ c then 0 else if r < 0 then 3 else 1
  let inside := (0 ≤ r ∧ r < rows) ∨ (0 ≤ c ∧ c < cols)
  let dist : Int := match e with | 0 => c - cols | 1 => r - rows | 2 => -1 - c | _ => -1 - r
  let lost := (s.casEdge e).lostAt
  if !inside ∨ !s.zoneEdge e ∨ min 7 (if e % 2 = 0 then cols else rows) ≤ dist then none
  else if 0 < lost ∧ lost + (s.rd Reg.EDL_LINK_HOLD).toNat % 65536 * 256000000 < s.now then some (0, 0, true)
  else
    let rr := match e with | 1 => dist.toNat | 3 => (rows + r).toNat | _ => r.toNat
    let cc := if e % 2 = 0 then dist.toNat else c.toNat
    let w := Cells.get (fun _ => 0) s.cas.zones (e * 2 ^ 20 + rr * 1024 + cc)
    let root := s.tim.f - (s.rdA Reg.CAS_ROW_OFS).toNat % 2 ^ 14 * s.linePeriod
    some (w.setWidth 16, bits w.toNat 16 3, root ≤ Cells.get (fun _ => 0) s.cas.zoneAt (e * 1024 + rr))

/-- A level and class at a place of the extended grid: of the own grid with the row q's iterate in place of its
levels. -/
def State.extLam (s : State) (r c : Int) : Option (Sample × Nat × Bool) :=
  if 0 ≤ r ∧ r < s.zoneRows ∧ 0 ≤ c ∧ c < s.zoneCols then
    let l := s.zoneLam r.toNat c.toNat
    some (l.1, s.zoneClass (r.toNat * s.zoneCols + c.toNat), l.2)
  else s.seamZone r c

/-- Offsets −7 to 7. -/
def near7 : List Int := (List.range 15).map (fun (i : Nat) => (i : Int) - 7)

/-- f of R168: the light at the centre of the zone in column j of row q, given the row's iterate. -/
def State.rowLight (s : State) (q j : Nat) (l : List Sample) : Sample :=
  let total := near7.foldl (fun a dr => near7.foldl (fun a dc =>
    let r := (q : Int) + dr
    let c := (j : Int) + dc
    let x : Option (Sample × Nat) :=
      if dr = 0 ∧ 0 ≤ c ∧ c < s.zoneCols then some (l.getD c.toNat 0, s.zoneClass (q * s.zoneCols + c.toNat))
      else (s.extLam r c).map (fun x => (x.1, x.2.1))
    match x with
    | some (v, cls) => if v = 0 then a else a + light24 v * s.psfSample cls (-4 * dr) (-4 * dc)
    | none => a) a) 0
  round16 ⟨(total : Nat), 2 ^ 40⟩

/-- The quotient of two samples, clamped from below and above; a zero divisor gives the upper bound. -/
def ratioS (n d : Sample) (lo hi : Frac) : Frac :=
  if light24 d = 0 then hi else Frac.clamp (val16 (round16 ⟨(light24 n : Nat), light24 d⟩)) lo hi

/-- A product of samples rounded once and held at or below 1.0. -/
def mulCap (a b : Sample) : Sample := minS oneS (round16 (Frac.mul (val16 a) (val16 b)))

/-- One iteration of R168: all f first. -/
def State.iterRow (s : State) (q : Nat) (need l : List Sample) : List Sample :=
  let f := (List.range l.length).map (fun j => s.rowLight q j l)
  (List.range l.length).map (fun j =>
    let n := need.getD j 0
    let rho : Frac := if light24 n = 0 then Frac.one else ratioS n (f.getD j 0) Frac.one (Frac.ofNat 4)
    mulCap (l.getD j 0) (round16 rho))

/-- RISE or FALL as it acts (R169): none leaves the side unlimited. -/
def rateAct (v : Sample) : Option Frac :=
  if isNaN16 v ∨ v = 0x7C00 then none else if 0x8000 ≤ v.toNat then some Frac.zero else some (val16 v)

/-- Step 3 of R169; P in milliseconds is the period's ticks over 256,000,000. -/
def State.rateLimit (s : State) (l : Sample) (z : Nat) : Sample :=
  if s.geomHold || !s.zon.hasHist then l
  else
    let pp := val16 (levelAt s.levelsWas z).p
    let ms : Frac := ⟨(s.tim.period : Nat), 256000000⟩
    let x := match rateAct (s.highA Reg.ZONE_RATE) with
      | some r => Frac.max (val16 l) (Frac.sub pp (Frac.mul r ms))
      | none => val16 l
    let x := match rateAct (s.lowA Reg.ZONE_RATE) with
      | some r => Frac.min x (Frac.add pp (Frac.mul r ms))
      | none => x
    let p := round16 x
    if 0x8000 ≤ p.toNat then 0 else p

/-- The second part of a solve (R169), and its counts. -/
def State.level (s : State) (z : Nat) (l : Sample) : State :=
  let p := s.rateLimit l z
  let g := s.gain z
  let d4 := round16 (Frac.mul (val16 p) (val16 g))
  let d := round16 (Frac.mul (val16 d4) (val16 (BitVec.ofNat 16 (s.fld Reg.ZONE_CAP_STATE_C))))
  let delta := minS oneS (maxS s.lMin d)
  let lam := round16 (Frac.div (val16 delta) (val16 g))
  let s := (s.bumpIf (p != l) Reg.ZONE_RATE_LIM).bumpIf (0x3C00 < d.toNat) Reg.ZONE_CLAMP_HI
  if s.bankFor 36 ownPix then
    { s with zon := { s.zon with cur := Cells.set (fun _ => ⟨0, 0, 0, 0⟩) s.zon.cur z ⟨p, d4, lam, delta⟩ } }
  else s

/-- The need that a row's solve takes (R166, R167): 1.0 in a hold frame; of the frame being received on its first
showing in lock once its row has closed; else of the complete set. A set never filled gives 1.0, as a zone without a
previous record takes (R130). -/
def State.zoneNeedNow (s : State) (z : Nat) : Sample :=
  if s.geomHold then oneS
  else
    let t := s.sta
    let live := s.tim.first && t.isOpen && t.frame == s.tim.srcNo && z / max 1 t.cols < t.closed
    let r := if live then Cells.get (fun _ => none) t.fill z else Cells.get (fun _ => none) t.done z
    (r.getD ⟨oneS, oneS⟩).need

/-- The first iterate (R168). -/
def State.firstIterate (s : State) (z : Nat) (n : Sample) : Sample :=
  let peak : Sample := BitVec.ofNat 16 (s.fld (Reg.PSF_ACT_INFO_PEAK (s.zoneClass z)))
  round16 (ratioS n peak Frac.zero Frac.one)

/-- The next zone row is solved (R167 to R169). -/
def State.solveRow (s : State) : State :=
  let q := s.zon.solved
  if s.zoneRows ≤ q then s
  else
    let cols := s.zoneCols
    let need := (List.range cols).map (fun j => s.zoneNeedNow (q * cols + j))
    let l0 := (List.range cols).map (fun j => s.firstIterate (q * cols + j) (need.getD j 0))
    let l1 := s.iterRow q need l0
    let l2 := s.iterRow q need l1
    let s := s.each (List.range cols) (fun j s => s.level (q * cols + j) (l2.getD j 0))
    { s with zon := { s.zon with solved := q + 1 } }

/-- The height of the tallest zone row, and the lookahead A in lines (R162, R164). -/
def State.tallestRow (s : State) : Nat :=
  (List.range s.zoneRows).foldl (fun m r => max m (s.rowBounds.getD (r + 1) 0 - s.rowBounds.getD r 0)) 0
def State.lookahead (s : State) : Nat :=
  if s.zoneCols = 0 then 0 else s.fldA ⟨Reg.ZONE_LOOKAHEAD_ZROWS, 0, 4⟩ * s.tallestRow

/-- Whether row q's solve is due before FIELD processes line y (R167). -/
def State.rowDue (s : State) (q y : Nat) : Bool :=
  q < s.zoneRows && s.rowBounds.getD (q + 1) 0 ≤ y + 1 + s.lookahead

/-- Whether FIELD has processed the line after which row q may be solved (R167). -/
def State.rowMay (s : State) (q : Nat) : Bool :=
  q < s.zoneRows && s.rowBounds.getD (q + 1) 0 ≤ s.fie.next + 1 + s.lookahead

/-- The zones of the active configuration: one without zones. -/
def State.zoneTotal (s : State) : Nat := max 1 (s.zoneCols * s.zoneRows)

/-- PCAP as it acts (R170): none sets no cap. -/
def pcapAct (v : Sample) : Option Sample :=
  if isNaN16 v ∨ v = 0x7C00 then none else if 0x8000 ≤ v.toNat then some 0 else some v

/-- The cap of a frame (R170), fixed from the figures of the frame that ended; `known` is whether there was one. -/
def State.fixCap (s : State) (known : Bool) : State :=
  let n := s.zoneTotal
  let total := ((List.range n).map (fun z => light24 (minS oneS (levelAt s.levelsWas z).d4))).sum
  let pPrev : Sample := if known then round16 ⟨(total : Nat), n * 2 ^ 24⟩ else 0
  let c : Sample :=
    match pcapAct (s.lowA Reg.ZONE_PCAP) with
    | none => oneS
    | some cap =>
      if s.geomHold || !known then minS oneS cap
      else if pPrev.toNat ≤ cap.toNat then oneS
      else round16 (Frac.div (val16 cap) (val16 pPrev))
  let s := s.wrN Reg.ZONE_CAP_STATE (c.toNat + 65536 * pPrev.toNat)
  let low := c.toNat < 0x3C00
  let s := (s.bumpIf low Reg.ZONE_CAP_FRAMES).raiseIf (low && !s.zon.capped) 0x50 0
  { s with zon := { s.zon with capped := low } }

/-- The BFI mode that a word of BFI gives (R102). -/
def bfiModeOf (w : Word) : Nat := if Reg.TIMING_BFI_MODE.get w = 3 then 0 else Reg.TIMING_BFI_MODE.get w

/-- BFI as it acts (R101, R102): the mode and the duty in force. -/
def State.bfiMode (s : State) : Nat := bfiModeOf s.tim.bfi
def State.bfiDuty (s : State) : Nat := clampNat 1 48 (Reg.TIMING_BFI_DUTY.get s.tim.bfi)

/-- The lit fraction of the output frame, in 64ths (R102, R184). -/
def State.lit64 (s : State) : Nat :=
  if s.tim.dark then 0 else if s.bfiMode = 1 then 64 - s.bfiDuty else 64

/-- The thermal region that holds a pixel, for one axis of n regions over a size (R184): boundaries floor(i × size / n)
(R251). -/
def regionOf (n size x : Nat) : Nat := ((List.range n).filter (fun i => i * size / n ≤ x)).length - 1

/-- A region's centre pixel along one axis (R184, R251): the middle of its first and last position. -/
def regionMid (n size i : Nat) : Nat := (i * size / n + ((i + 1) * size / n - 1)) / 2

/-- The mean δ of the zones whose centre lies in each thermal region, weighted by the lit fraction (R184); a region that
holds no zone's centre takes the mean drive of the zone that covers its own centre, and without zones the global one
(R251). -/
def State.regionPower (s : State) : List Sample :=
  let cols := max 1 s.zoneCols
  let rows := max 1 s.zoneRows
  let cb := s.colBounds
  let rb := s.rowBounds
  let drive := fun z => light24 (levelAt s.levels z).delta
  let place := (List.range (rows * cols)).map (fun z =>
    let x := (cb.getD (z % cols) 0 + cb.getD (z % cols + 1) 0 - 1) / 2
    let y := (rb.getD (z / cols) 0 + rb.getD (z / cols + 1) 0 - 1) / 2
    (regionOf 9 s.vact y * 16 + regionOf 16 s.hact x, drive z))
  (List.range 144).map (fun i =>
    let l := (place.filter (fun p => p.1 == i)).map (·.2)
    let l := if l.isEmpty then
        [drive (partOf rb (regionMid 9 s.vact (i / 16)) * cols + partOf cb (regionMid 16 s.hact (i % 16)))]
      else l
    round16 ⟨(l.sum * s.lit64 : Nat), l.length * 64 * 2 ^ 24⟩)

/-- The end of an output frame (R172, R184): its figures become the history, of a frame whose boundary ZONE took part
in. -/
def State.zoneEnd (s : State) (no : Nat) : State :=
  if !s.zon.awake then s
  else
  let p := s.regionPower
  let s := s.wrN Reg.ZONE_LV_FRAME no
  { s with zon := { s.zon with hist := s.levels, hasHist := true, power := p } }

/-- LV_DATA is read (R186). -/
def State.lvRead (s : State) : State × Word :=
  let a := s.fld ⟨Reg.ZONE_LV_ADDR, 0, 14⟩
  let z := levelAt s.levelsWas a
  (s.put ⟨Reg.ZONE_LV_ADDR, 0, 14⟩ (nextIndex (s.zoneTotal - 1) a), BitVec.ofNat 32 (z.lam.toNat + 65536 * z.delta.toNat))

/-- The 16-bit code of a drive level (R182). -/
def levelCode (d : Sample) : Nat := ((Frac.roundInt (Frac.mul (val16 d) (Frac.ofNat 65535))).toNat) % 65536

/-- The global level of a frame without zones (R185): the complete set's need, through R169. -/
def State.globalSolve (s : State) : State :=
  let n := if s.geomHold then oneS else ((s.zoneRec 0).getD ⟨oneS, oneS⟩).need
  let s := s.level 0 (minS oneS n)
  { s with zon := { s.zon with solved := 1 } }

/-! The light field (R177 to R180). -/

/-- A grid point (R177); indices outside the grid are those of inner edges (R181). -/
def State.gridPoint (s : State) (gy gx : Int) : Sample :=
  let rlo := (gy - 30 + 3) / 4
  let clo := (gx - 30 + 3) / 4
  let total := (List.range 16).foldl (fun a (i : Nat) => (List.range 16).foldl (fun a (k : Nat) =>
    let r : Int := rlo + i
    let c : Int := clo + k
    match s.extLam r c with
    | some (v, cls, _) => if v = 0 then a else a + light24 v * s.psfSample cls (gy - 4 * r - 2) (gx - 4 * c - 2)
    | none => a) a) 0
  round16 ⟨(total : Nat), 2 ^ 40⟩

/-- Whether a class's light reaches a grid row through a non-zero sample from a zone in column c of row r (R178). -/
def State.reaches (s : State) (gy : Nat) (r c : Int) (cls : Nat) : Bool :=
  let dy : Int := (gy : Int) - 4 * r - 2
  decide (dy.natAbs ≤ 28) && (List.range 57).any (fun (k : Nat) =>
    let gx : Int := 4 * c + k - 26
    0 ≤ gx && gx < 4 * s.zoneCols && s.psfSample cls dy ((k : Int) - 28) != 0)

/-- The places of a neighbour's zones round the grid (R475). -/
def State.seamPlaces (s : State) : List (Int × Int) :=
  let rows := s.zoneRows
  let cols := s.zoneCols
  (List.range rows).flatMap (fun (r : Nat) => (List.range 7).flatMap (fun (d : Nat) =>
    [((r : Int), -1 - (d : Int)), ((r : Int), (cols : Int) + d)]))
  ++ (List.range cols).flatMap (fun (c : Nat) => (List.range 7).flatMap (fun (d : Nat) =>
    [(-1 - (d : Int), (c : Int)), ((rows : Int) + d, (c : Int))]))

/-- Whether a grid row is computed while a row at a previous-frame level reaches it through a non-zero sample (R178): of
the own grid, or of a neighbour's zones (R181). -/
def State.gridStale (s : State) (gy : Nat) : Bool :=
  (List.range s.zoneRows).any (fun (r : Nat) => s.zon.solved ≤ r &&
    (List.range s.zoneCols).any (fun (c : Nat) => s.reaches gy r c (s.zoneClass (r * s.zoneCols + c))))
  || (s.groupMember && s.seamPlaces.any (fun p =>
    match s.seamZone p.1 p.2 with
    | some (_, cls, now) => !now && s.reaches gy p.1 p.2 cls
    | none => false))

/-- A grid row is spilled (R180); a row whose write faults is left unwritten. -/
def State.spillRow (s : State) (gy : Nat) (row : List Sample) : State :=
  if s.flagA Reg.FIELD_CFG_SPILL_EN then
    let gxs := 4 * s.zoneCols
    let s := s.put Reg.FIELD_STATUS_SPILL_BUSY 1
    let s := (s.engWrite 4 (s.fldA Reg.FIELD_CFG_SPILL_HANDLE) (2 * gxs * gy) (row.flatMap (fun v => leBytes 2 v.toNat))).1
    if gy + 1 = 4 * s.zoneRows then
      ((s.wr Reg.FIELD_SPILL_FRAME (s.rd Reg.TIMING_FRAME_NO)).put Reg.FIELD_STATUS_SPILL_BUSY 0).raise 0x52 0
    else s
  else s

/-- Grid points kept beyond the own grid on every side for the inner edges of a group (R181). -/
def gridPad : Nat := 12

/-- The edges that a neighbour's seams continue (R475): 0 east, 1 south, 2 west, 3 north. One whose lane is lost is an
outer edge (R476). -/
def State.innerEdge (s : State) (e : Nat) : Bool := (s.casEdge e).inUse

/-- The bank that holds the columns received at an edge (R475; log entry 100): B42 the west's, B43 the east's. -/
def seamBank (e : Nat) : Nat := if e = 2 then 42 else 43

/-- A grid row, computed at its first use (R177), with gridPad points on either side: those of an inner edge, or the
nearest edge point (R179). -/
def State.gridRow (s : State) (gy : Int) : State × List Sample :=
  let key := (gy + gridPad).toNat
  match Cells.get (fun _ => []) s.fie.rows key with
  | x :: l => (s, if s.bankFor 36 ownPix then x :: l else List.replicate (l.length + 1) 0)
  | [] =>
    let gxs := 4 * s.zoneCols
    let mid := (List.range gxs).map (fun (i : Nat) => s.gridPoint gy i)
    let west := (List.range gridPad).map (fun (i : Nat) =>
      if s.zoneEdge 2 then s.gridPoint gy ((i : Int) - gridPad) else mid.headD 0)
    let east := (List.range gridPad).map (fun (i : Nat) =>
      if s.zoneEdge 0 then s.gridPoint gy ((gxs : Int) + i) else mid.getLastD 0)
    let row := west ++ mid ++ east
    let own := 0 ≤ gy && gy < 4 * s.zoneRows
    let stale := own && s.gridStale gy.toNat
    let s := s.bumpIf stale Reg.FIELD_STALE_ROWS
    let s := s.raiseIf (stale && !s.fie.stale) 0x52 1
    let s := { s with fie := { s.fie with
      rows := Cells.set (fun _ => []) s.fie.rows key row, stale := s.fie.stale || stale } }
    -- the rows stand in B36 (R357)
    (if own then s.spillRow gy.toNat mid else s, if s.bankFor 36 ownPix then row else row.map (fun _ => 0))

/-- Catmull-Rom weights at n / 64, in units of 2^-19 (R179). -/
def crWeights (n : Nat) : List Int :=
  let t : Int := n
  [-(t * t * t) + 128 * t * t - 4096 * t, 3 * t * t * t - 320 * t * t + 524288, -(3 * t * t * t) + 256 * t * t + 4096 * t,
   t * t * t - 64 * t * t]

/-- The grid position of a pixel along one axis, in 1/64 steps (R179). Beyond the frame the edge zone's size goes on
(log entry 16). -/
def gridPos (b : List Nat) (x : Int) : Int :=
  let n := b.length - 1
  let last := b.getD n 0
  let (j, lo, w) : Int × Int × Nat :=
    if x < 0 then
      let w := max 1 (b.getD 1 1)
      (x / (w : Int), x / (w : Int) * w, w)
    else if (last : Int) ≤ x then
      let w := max 1 (last - b.getD (n - 1) 0)
      let k := (x - last) / (w : Int)
      ((n : Int) + k, (last : Int) + k * w, w)
    else
      let j := partOf b x.toNat
      ((j : Int), (b.getD j 0 : Int), max 1 (b.getD (j + 1) 0 - b.getD j 0))
  256 * j + (256 * (2 * (x - lo) + 1) + w) / (2 * (w : Int))

/-- The row of the grid that stands for one outside it (R179): the nearest edge row at an outer edge, the row itself at
an inner one. -/
def State.gridClamp (s : State) (gy : Int) : Int :=
  let n : Int := 4 * s.zoneRows
  if gy < 0 then (if s.zoneEdge 3 then max gy (-(gridPad : Int)) else 0)
  else if n ≤ gy then (if s.zoneEdge 1 then min gy (n + gridPad - 1) else n - 1)
  else gy

/-- B at a column from the mixed grid columns, in exact units of 2^-62; true when a clamp changed it (R179). -/
def fieldAt (mixed : Array Int) (cb : List Nat) (x : Int) : Sample × Bool :=
  let gx64 := gridPos cb x
  let wx := crWeights (gx64 % 64).toNat
  let i := gx64 / 64 - 1 + gridPad
  let v := ((List.range 4).map (fun b => wx.getD b 0 * mixed.getD (min (i + b).toNat (mixed.size - 1)) 0)).sum
  if v < 0 then (0, true)
  else
    let r := round16 ⟨v, 2 ^ 62⟩
    if 0x3C00 < r.toNat then (oneS, true) else (r, false)

/-- B along a line with 32 columns on either side (R179, R200): those of an inner edge from the own field, else the
nearest pixel's. `y` outside the frame is a line of an inner edge. -/
def State.fieldLine (s : State) (y : Int) : State × List Sample :=
  if s.zoneCols = 0 then (s, List.replicate (s.hact + 64) (levelAt s.levels 0).lam)
  else
    let gy64 := gridPos s.rowBounds y
    let k := gy64 / 64
    let wy := crWeights (gy64 % 64).toNat
    let (s, r0) := s.gridRow (s.gridClamp (k - 1))
    let (s, r1) := s.gridRow (s.gridClamp k)
    let (s, r2) := s.gridRow (s.gridClamp (k + 1))
    let (s, r3) := s.gridRow (s.gridClamp (k + 2))
    let rows := [r0, r1, r2, r3].map (fun r => (r.map (fun v => (light24 v : Int))).toArray)
    let mixed : Array Int := ((List.range (4 * s.zoneCols + 2 * gridPad)).map (fun i =>
      ((List.zip wy rows).map (fun e => e.1 * e.2.getD i 0)).sum)).toArray
    let cb := s.colBounds
    let out := (List.range s.hact).map (fun (x : Nat) => fieldAt mixed cb x)
    let s := s.bumpBy (wholeFld Reg.FIELD_CLAMP_CNT) (if 0 ≤ y ∧ y < s.vact then (out.filter (·.2)).length else 0)
    let mid := out.map (·.1)
    let west := (List.range 32).map (fun (i : Nat) =>
      if s.innerEdge 2 then (fieldAt mixed cb ((i : Int) - 32)).1 else mid.headD 0)
    let east := (List.range 32).map (fun (i : Nat) =>
      if s.innerEdge 0 then (fieldAt mixed cb ((s.hact : Int) + i)).1 else mid.getLastD 0)
    (s, west ++ mid ++ east)

/-- FIELD's probe captures B (R188). -/
def State.fieldProbe (s : State) (y : Nat) (line : List Sample) : State :=
  let px := s.fld Reg.FIELD_PROBE_X
  if s.fld Reg.FIELD_PROBE_Y = y ∧ px < s.hact then
    (s.wrN Reg.FIELD_PROBE_B (line.getD (px + 32) 0).toNat).wr Reg.FIELD_PROBE_FRAME (s.rd Reg.TIMING_FRAME_NO)
  else s

/-- EXACT as R178 defines it. -/
def State.zoneExact (s : State) : Bool :=
  s.zoneCols == 0 || (List.range s.zoneTotal).all (fun z =>
    s.fld (Reg.PSF_ACT_INFO_VREACH (s.zoneClass z)) ≤ s.fldA ⟨Reg.ZONE_LOOKAHEAD_ZROWS, 0, 4⟩)

/-- ZONE and FIELD at a boundary (R165 to R185): `geom` when a geometry change takes effect, `newSrc` when a source
frame whose pip came after the hold began is on show. -/
def State.zoneBoundary (s : State) (geom newSrc : Bool) : State :=
  let known := s.zon.hasHist && !geom
  let s : State := if geom then
      { s.put Reg.ZONE_STATUS_GEOM_HOLD 1 with zon := { s.zon with hasHist := false, hist := [], holdFrom := s.now } }
    else if s.geomHold && newSrc then (s.put Reg.ZONE_STATUS_GEOM_HOLD 0).raise 0x50 2 else s
  let s := s.bumpIf s.geomHold Reg.ZONE_GEOM_FRAMES
  let s := s.agApply
  let s := (s.put Reg.ZONE_STATUS_EXACT (b2n s.zoneExact)).put Reg.ZONE_STATUS_GLOBAL (b2n (s.zoneCols == 0))
  let s := s.fixCap known
  let s := { s with zon := { s.zon with cur := [], solved := 0, awake := true }, fie := FieldState.atReset }
  let s : State := (s.put Reg.FIELD_GRID_DIM_GX (4 * s.zoneCols)).put Reg.FIELD_GRID_DIM_GY (4 * s.zoneRows)
  if s.zoneCols = 0 then s.globalSolve else s

end Sys2Proof.Machine
end

