-- ==== Sys2Proof/Machine/Split.lean ====
section
/-! DEFINITION. SPLIT and CELLLUT (R189 to R210): how the light is divided between the cells, clips and crushed blacks,
and the drive codes. Lines of the frame are read with 32 columns and lines of context on every side. -/

namespace Sys2Proof.Machine

/-! Context: the decoded lines with their hems and seams (R132, R200). -/

/-- The light at a place of a line held in the path, with hem or seam columns (R132, R475). Columns that were lost, or that
have not come, are those of an outer edge (R476, R478). -/
def State.lightAt (s : State) (line : Array Pix) (y x : Int) : Pix :=
  if 0 ≤ x ∧ x < s.hact then line.getD x.toNat Pix.black
  else
    let e := if x < 0 then 2 else 0
    let mode := s.fldA ⟨Reg.INPUT_HEM, 0, 2⟩
    let yy : Option Int := if (0 ≤ y ∧ y < s.vact) ∨ s.innerEdge (if y < 0 then 3 else 1) then some y
      else (hemIndex mode s.vact y).map (fun (n : Nat) => (n : Int))
    let hem := match hemIndex mode s.hact x with
      | none => Pix.black
      | some k => line.getD k Pix.black
    match s.innerEdge e, yy with
    | true, none => Pix.black
    | true, some yy =>
      let i := if x < 0 then x + 32 else x - s.hact
      if !s.bankFor (seamBank e) ownCas then Pix.black
      else if 0 ≤ i then (Cells.get (fun _ => []) s.cas.cols (e * 2 ^ 14 + (yy + 32).toNat)).getD i.toNat hem else hem
    | false, _ => hem

/-- A line held in the path. -/
def State.lightLine (s : State) (y : Int) : Array Pix := (Cells.get (fun _ => []) s.path.light (y + 32).toNat).toArray
/-- B at a place; beyond 32 columns, and beyond the frame at an outer edge, the nearest pixel's (R200). -/
def State.fieldOf (s : State) (y : Int) : Array Sample :=
  let y := if y < 0 then (if s.innerEdge 3 then y else 0)
    else if s.vact ≤ y then (if s.innerEdge 1 then y else s.vact - 1) else y
  (Cells.get (fun _ => []) s.path.field (y + 32).toNat).toArray
def fieldCol (l : Array Sample) (x : Int) : Sample := l.getD (min (x + 32).toNat (l.size - 1)) 0

/-! Geometry of the split. -/

def State.dual (s : State) : Bool := s.flagA Reg.SPLIT_CFG_DUAL
def State.monoHalf (s : State) : Bool := s.flagA Reg.SPLIT_CFG_MONO_HALF
/-- The width of the mono grid (R193). -/
def State.monoW (s : State) : Nat := if s.monoHalf then s.hact / 2 else s.hact
def State.rx (s : State) : Nat := s.fldA Reg.SPLIT_DIL_RX
def State.ry (s : State) : Nat := s.fldA Reg.SPLIT_DIL_RY
def State.chTaps (s : State) : Nat := (s.fldA Reg.SPLIT_BLUR_NTAP_H - 1) / 2
def State.cvTaps (s : State) : Nat := (s.fldA Reg.SPLIT_BLUR_NTAP_V - 1) / 2
/-- L_V, the lines below that SPLIT reads; 0 with one cell. -/
def State.splitReach (s : State) : Nat := if s.dual then s.ry + s.cvTaps + 2 else 0
/-- Mono columns kept to either side of the grid for the stages 1 and 4. -/
def State.targetPad (s : State) : Nat := 2 + s.chTaps + s.rx

/-- Weight t of a table of 16-bit elements, two to a word (R208). -/
def State.tapOf (s : State) (reg : Nat → Nat) (t : Nat) : Nat := s.fldA ⟨reg (t / 2), 16 * (t % 2), 16⟩

/-- A floor as it acts: −0 acts as +0 (R201). -/
def floorAct (v : Sample) : Sample := if 0x8000 ≤ v.toNat then 0 else v
def State.floorC (s : State) : Sample := floorAct (s.lowA Reg.SPLIT_FLOOR)
def State.floorM (s : State) : Sample := floorAct (s.highA Reg.SPLIT_FLOOR)

/-! Stage 1 (R194). -/

/-- The largest pattern up to `hi` whose value to the 64th power does not pass v^S, by bisection; v = n / d. -/
def powSearch (n d e : Nat) : Nat → Nat → Nat → Nat
  | 0, lo, _ => lo
  | k + 1, lo, hi =>
    let mid := (lo + hi + 1) / 2
    if light24 (BitVec.ofNat 16 mid) ^ 64 * d ^ e ≤ n ^ e * 2 ^ (24 * 64) then powSearch n d e k mid hi
    else powSearch n d e k lo (mid - 1)

/-- v^(S/64) correctly rounded to binary16, v = n / d in [0, 1] (R194). -/
def pow64 (n d e : Nat) : Sample :=
  if e = 0 then oneS
  else if n = 0 then 0
  else if d ≤ n then oneS
  else
    let u := powSearch n d e 14 0 0x3C00
    -- twice the value halfway to the next pattern, in 2^-24
    let h := light24 (BitVec.ofNat 16 u) + light24 (BitVec.ofNat 16 (u + 1))
    let l := h ^ 64 * d ^ e
    let r := n ^ e * 2 ^ (25 * 64)
    if l < r ∨ (l = r ∧ u % 2 = 1) then BitVec.ofNat 16 (u + 1) else BitVec.ofNat 16 u

/-- mt_px of a colour pixel (R194). -/
def targetPx (e : Nat) (y b : Sample) : Sample :=
  if light24 b = 0 then pow64 (if light24 y = 0 then 0 else 1) 1 e
  else pow64 (min (light24 y) (light24 b)) (light24 b) e

/-- The mono targets of a line, from mono column −targetPad on (R193, R194, R200). -/
def State.targetLine (s : State) (y : Int) : List Sample :=
  let line := s.lightLine y
  let b := s.fieldOf y
  let e := min 64 (s.fldA Reg.SPLIT_CFG_S)
  let px := fun (x : Int) => targetPx e (yReq s.headroom (s.lightAt line y x)) (fieldCol b x)
  (List.range (s.monoW + 2 * s.targetPad)).map (fun (i : Nat) =>
    let m : Int := (i : Int) - s.targetPad
    if s.monoHalf then maxS (px (2 * m)) (px (2 * m + 1)) else px m)

/-- The targets of a line, computed once in a frame. -/
def State.needTarget (s : State) (y : Int) : State :=
  match Cells.get (fun _ => []) s.path.target (y + 32).toNat with
  | _ :: _ => s
  | [] => { s with path := { s.path with
      target := Cells.set (fun _ => []) s.path.target (y + 32).toNat (s.targetLine y) } }

/-! Stages 2 to 6 (R195 to R198). -/

def foldMax (l : List Sample) : Sample := l.foldl maxS 0

/-- D and H of a line, from mono column −2 on (R195, R196). -/
def State.horLine (s : State) (y : Int) : List Sample :=
  let rows := (List.range (2 * s.ry + 1)).map (fun (j : Nat) =>
    (Cells.get (fun _ => []) s.path.target (y + j - s.ry + 32).toNat).toArray)
  -- dilation from column −(2 + ch)
  let d := ((List.range (s.monoW + 4 + 2 * s.chTaps)).map (fun i =>
    foldMax (rows.map (fun r => foldMax ((List.range (2 * s.rx + 1)).map (fun k => r.getD (i + k) 0)))))).toArray
  let taps := (List.range (2 * s.chTaps + 1)).map (fun t => s.tapOf Reg.SPLIT_HTAP t)
  (List.range (s.monoW + 4)).map (fun i =>
    round16 ⟨((taps.zipIdx).map (fun e => e.1 * light24 (d.getD (i + e.2) 0))).sum, 2 ^ 39⟩)

def State.needHor (s : State) (y : Int) : State :=
  match Cells.get (fun _ => []) s.path.hor (y + 32).toNat with
  | _ :: _ => s
  | [] => { s with path := { s.path with hor := Cells.set (fun _ => []) s.path.hor (y + 32).toNat (s.horLine y) } }

/-- M of a line, from mono column −2 on (R196). -/
def State.blurLine (s : State) (y : Int) : List Sample :=
  let rows := (List.range (2 * s.cvTaps + 1)).map (fun (t : Nat) =>
    (s.tapOf Reg.SPLIT_VTAP t, (Cells.get (fun _ => []) s.path.hor (y + t - s.cvTaps + 32).toNat).toArray))
  (List.range (s.monoW + 4)).map (fun i =>
    round16 ⟨(rows.map (fun e => e.1 * light24 (e.2.getD i 0))).sum, 2 ^ 39⟩)

/-- M_eff of a line (R198). -/
def State.effLine (s : State) (y : Int) : List Sample :=
  let rows := (List.range 5).map (fun (a : Nat) => ((s.blurLine (y + a - 2)).map (fun v => light24 (maxS v s.floorM))).toArray)
  let par := (List.range 25).map (fun k => s.tapOf Reg.SPLIT_PAR k)
  (List.range s.monoW).map (fun m =>
    round16 ⟨((rows.zipIdx).map (fun r => ((List.range 5).map (fun b =>
      par.getD (5 * r.2 + b) 0 * r.1.getD (m + b) 0)).sum)).sum, 2 ^ 39⟩)

/-! Stage 7 (R191, R199, R203). -/

/-- A channel's transmittance from the exact quotient num / den, and whether it clips. -/
def divide (num den : Nat) : Sample × Bool :=
  if den = 0 then (if num = 0 then (0, false) else (oneS, true))
  else if den ≤ num then (oneS, den < num)
  else (round16 ⟨(num : Nat), den⟩, false)

/-- What SPLIT makes of a colour pixel. -/
structure SplitPx where
  c : Pix
  clip : Bool
  crush : Bool
  deriving DecidableEq, Repr

def splitPx (floorC kr kg kb : Sample) (dual : Bool) (t : Pix) (b meff : Sample) : SplitPx :=
  let ch := fun (v k : Sample) =>
    if dual then divide (light24 v * 2 ^ 48) (light24 b * light24 meff * light24 k) else divide (light24 v) (light24 b)
  let r := ch t.r kr
  let g := ch t.g kg
  let bl := ch t.b kb
  let low := fun (v : Sample) => 0 < v.toNat && v.toNat < floorC.toNat
  ⟨⟨r.1, g.1, bl.1⟩, r.2 || g.2 || bl.2, low r.1 || low g.1 || low bl.1⟩

/-- What SPLIT sends on for a line: the colour transmittances and, with two cells, M. -/
structure SplitOut where
  col : List Pix
  mono : List Sample
  deriving DecidableEq, Repr

/-- SPLIT's probe (R209). -/
def State.splitProbe (s : State) (y : Nat) (yr b mt m me : Sample) (c : Pix) : State :=
  if s.spl.probeY = y then
    let d := s.dual
    let s := s.wrN Reg.SPLIT_PROBE_T (yr.toNat + 65536 * b.toNat)
    let s := s.wrN Reg.SPLIT_PROBE_M (if d then mt.toNat + 65536 * m.toNat else 0)
    let s := s.wrN Reg.SPLIT_PROBE_ME (if d then me.toNat else 0)
    let s := s.wrN Reg.SPLIT_PROBE_C0 (c.r.toNat + 65536 * c.g.toNat)
    let s := s.wrN Reg.SPLIT_PROBE_C1 c.b.toNat
    (s.wr Reg.SPLIT_PROBE_FRAME (s.rd Reg.TIMING_FRAME_NO)).raise 0x53 2
  else s

/-- The zone of a pixel (R203). -/
def State.zoneOf (s : State) (x y : Nat) : Nat :=
  if s.zoneCols = 0 then 0 else partOf s.rowBounds y * s.zoneCols + partOf s.colBounds x

/-- Clips and crushed pixels of a line are counted (R203). -/
def State.countClips (s : State) (y : Nat) (l : List SplitPx) : State :=
  let clips := (l.zipIdx).filter (fun e => e.1.clip)
  let crush := (l.filter (·.crush)).length
  let s := (s.bumpBy (wholeFld Reg.SPLIT_CLIP_TOTAL) clips.length).bumpBy (wholeFld Reg.SPLIT_CRUSH_TOTAL) crush
  let s := s.raiseIf (0 < crush && !s.spl.crushed) 0x53 1
  let fill := clips.foldl (fun m e =>
    let z := s.zoneOf e.2 y
    Cells.set (fun _ => 0) m z (Cells.get (fun _ => 0) m z + 1)) s.spl.fill
  { s with spl := { s.spl with fill := fill, crushed := s.spl.crushed || 0 < crush } }

/-- The clip sets swap after the last active line (R204). -/
def State.swapClips (s : State) : State :=
  let any := s.spl.fill.any (fun e => 0 < e.2)
  let s := { s with spl := { s.spl with done := s.spl.fill, fill := [] } }
  (s.wr Reg.SPLIT_CLIP_FRAME (s.rd Reg.TIMING_FRAME_NO)).raiseIf any 0x53 0

/-- SPLIT processes line y (R191, R192, R202). -/
def State.splitLine (s : State) (y : Nat) : State × SplitOut :=
  let line := s.lightLine y
  let b := s.fieldOf y
  let w := s.hact
  let px := s.spl.probeX
  let on := s.unitOn 0x53
  if !on then
    let s := if px < w then
        s.splitProbe y (yReq s.headroom (line.getD px Pix.black)) (fieldCol b px) 0 (if s.dual then oneS else 0) 0
          (line.getD px Pix.black)
      else s
    let s := if y + 1 = s.vact then s.swapClips else s
    (s, ⟨line.toList, if s.dual then List.replicate s.monoW oneS else []⟩)
  else
    let s := if s.dual then
        let s := s.each (List.range (2 * s.splitReach + 1)) (fun (i : Nat) s => s.needTarget ((y : Int) + i - s.splitReach))
        s.each (List.range (2 * (s.cvTaps + 2) + 1)) (fun (i : Nat) s => s.needHor ((y : Int) + i - (s.cvTaps + 2)))
      else s
    let meff := if s.dual then (s.effLine y).toArray else #[]
    let mono := if s.dual then ((s.blurLine y).drop 2).take s.monoW else []
    let half := s.monoHalf
    let kr := s.lowA Reg.SPLIT_KC0
    let kg := s.highA Reg.SPLIT_KC0
    let kb := s.lowA Reg.SPLIT_KC1
    let out := (List.range w).map (fun (x : Nat) =>
      splitPx s.floorC kr kg kb s.dual (line.getD x Pix.black) (fieldCol b x) (meff.getD (if half then x / 2 else x) 0))
    let s := s.countClips y out
    let s := if px < w then
        let m := if half then px / 2 else px
        let t := (Cells.get (fun _ => []) s.path.target (y + 32)).getD (m + s.targetPad) 0
        s.splitProbe y (yReq s.headroom (line.getD px Pix.black)) (fieldCol b px) t (mono.getD m 0) (meff.getD m 0)
          ((out.map (·.c)).getD px Pix.black)
      else s
    let s := if y + 1 = s.vact then s.swapClips else s
    (s, ⟨out.map (·.c), mono⟩)

/-- SPLIT at a boundary: counts start anew, a probe written before takes effect (R204, R209). The counts of a frame whose
last line was not processed are dropped. -/
def State.splitBoundary (s : State) : State :=
  let s := { s with spl := { s.spl with
    fill := [], crushed := false, probeX := s.fld Reg.SPLIT_PROBE_X, probeY := s.fld Reg.SPLIT_PROBE_Y } }
  s.put Reg.SPLIT_STATUS_DUAL_ACTIVE (b2n s.dual)

/-- CLIP_DATA is read (R204). -/
def State.clipRead (s : State) : State × Word :=
  let a := s.fld ⟨Reg.SPLIT_CLIP_ADDR, 0, 14⟩
  (s.put ⟨Reg.SPLIT_CLIP_ADDR, 0, 14⟩ (nextIndex (s.zoneCount - 1) a),
   BitVec.ofNat 32 (Cells.get (fun _ => 0) s.spl.done a % 2 ^ 25))

/-- VREACH of the pending configuration (R201). -/
def State.splitStatus (s : State) : Word :=
  let v := if s.flag Reg.SPLIT_CFG_DUAL then
      s.fld Reg.SPLIT_DIL_RY + (s.fld Reg.SPLIT_BLUR_NTAP_V - 1) / 2 + 2 else 0
  Reg.SPLIT_STATUS_VREACH.put (s.rd (Reg.HDR_STATUS 0x53)) v

/-! CELLLUT (R205 to R210). -/

/-- An entry of the reset tables (R207). -/
def linearEntry (k : Nat) : Sample :=
  let i := k % 1025
  if 480 < i then 0xFFFF
  else BitVec.ofNat 16 (min 65535 ((light24 (BitVec.ofNat 16 (i * 32)) * 65535 * 2 + 2 ^ 24) / 2 ^ 25))

def State.cellBank (s : State) (b : Nat) : Tab := if b = 0 then s.spl.lut0 else s.spl.lut1
def State.setCellBank (s : State) (b : Nat) (t : Tab) : State :=
  { s with spl := if b = 0 then { s.spl with lut0 := t } else { s.spl with lut1 := t } }

def State.cellEntry (s : State) (b table i : Nat) : Nat := (Tab.get linearEntry (s.cellBank b) (table * 1025 + i)).toNat

/-- The drive code of a transmittance (R205, R207). -/
def State.cellCode (s : State) (table : Nat) (t : Sample) : Nat :=
  if s.unitOn 0x54 then
    let b := s.fldA Reg.CELLLUT_CFG_BANK
    let u := t.toNat
    let e := fun i => (s.cellEntry b table i : Int)
    if u < 0x400 then ((1024 * e 0 + u * (e 32 - e 0) + 512) / 1024).toNat
    else if u % 32 = 0 then (e (u / 32)).toNat
    else ((32 * e (u / 32) + ((u % 32 : Nat) : Int) * (e (u / 32 + 1) - e (u / 32)) + 16) / 32).toNat
  else (light24 t * 65535 * 2 + 2 ^ 24) / 2 ^ 25

/-- Drive codes of a line: per colour subpixel, and per mono pixel. -/
structure DriveLine where
  r : List Nat
  g : List Nat
  b : List Nat
  m : List Nat
  deriving DecidableEq, Repr

/-- CELLLUT processes a line, and its probe captures (R205, R210). -/
def State.cellLine (s : State) (y : Nat) (l : SplitOut) : State × DriveLine :=
  let d : DriveLine := ⟨l.col.map (fun p => s.cellCode 0 p.r), l.col.map (fun p => s.cellCode 1 p.g),
    l.col.map (fun p => s.cellCode 2 p.b), l.mono.map (fun v => s.cellCode 3 v)⟩
  let x := s.spl.probeX
  let s := if s.spl.probeY = y ∧ x < s.hact then
      let m := if s.dual then d.m.getD (if s.monoHalf then x / 2 else x) 0 else 0
      let s := s.wrN Reg.CELLLUT_PROBE_D0 (d.r.getD x 0 + 65536 * d.g.getD x 0)
      let s := s.wrN Reg.CELLLUT_PROBE_D1 (d.b.getD x 0 + 65536 * m)
      (s.wr Reg.CELLLUT_PROBE_FRAME (s.rd Reg.TIMING_FRAME_NO)).raise 0x54 0
    else s
  (s, d)

/-- ADDR of CELLLUT as it acts (R210). -/
def State.cellAddr (s : State) : Nat × Nat :=
  (min 4 (s.fld Reg.CELLLUT_ADDR_TABLE), actIndex 1024 (s.fld Reg.CELLLUT_ADDR_INDEX))

def State.cellRead (s : State) : State × Word :=
  let (t, i) := s.cellAddr
  (s.put Reg.CELLLUT_ADDR_INDEX (nextIndex 1024 i),
   BitVec.ofNat 32 (s.cellEntry (1 - s.fldA Reg.CELLLUT_CFG_BANK) (if t = 4 then 0 else t) i))

def State.cellWrite (s : State) (w : Word) : State :=
  if s.switching Reg.CELLLUT_CFG_BANK then s.bump Reg.CELLLUT_BUSY_CNT
  else
    let (t, i) := s.cellAddr
    let b := 1 - s.fldA Reg.CELLLUT_CFG_BANK
    let tab := (if t = 4 then [0, 1, 2] else [t]).foldl (fun x k => Tab.set linearEntry x (k * 1025 + i) (w.setWidth 16))
      (s.cellBank b)
    (s.setCellBank b tab).put Reg.CELLLUT_ADDR_INDEX (nextIndex 1024 i)

def State.cellStatus (s : State) : Word :=
  Reg.CELLLUT_STATUS_SWITCH_PENDING.put (s.rd (Reg.HDR_STATUS 0x54)) (b2n (s.switching Reg.CELLLUT_CFG_BANK))

end Sys2Proof.Machine
end

