-- ==== Sys2Proof/Machine/Banks.lean ====
section
/-! DEFINITION. The owners of the SRAM banks (R354 to R368): accesses of a requester, handovers, and the host window. -/

namespace Sys2Proof.Machine

/-- The line bank that holds byte `a` of the 4 MiB that the pixel path alone addresses, and the byte in it (R355). -/
def lineByte (a : Nat) : Nat × Nat := (a / 32 % 32, a / 1024 * 32 + a % 32)

/-! Two ports at once (R363, R364). -/

/-- A 64-bit word of a bank (R354). -/
def State.bankWord (s : State) (bank w : Nat) : BitVec 64 :=
  s.sramRd bank (2 * (w % 65536) + 1) ++ s.sramRd bank (2 * (w % 65536))
def State.bankPut (s : State) (bank w : Nat) (v : BitVec 64) : State :=
  s.sramPut bank (2 * (w % 65536)) [v.extractLsb' 0 32, v.extractLsb' 32 32]

/-- One port's access of a cycle is performed. -/
def State.portStore (s : State) (bank : Nat) (x : Option BankAccess) : State :=
  match x with
  | some ⟨w, some v⟩ => s.bankPut bank w v
  | _ => s

/-- Whether both accesses of a cycle write one word. -/
def collides (a b : Option BankAccess) : Bool :=
  match a, b with
  | some ⟨w, some _⟩, some ⟨v, some _⟩ => w % 65536 == v % 65536
  | _, _ => false

/-- A cycle of a block bank: one access on port A and one on port B. A read returns the word as it was before the cycle;
of two writes of one word port B's is dropped, counted, flagged and raised. While CTL owns the bank, CDMA's access on
port B goes in a cycle that the core leaves idle, and HOST and TEST have no port B. -/
def State.bankCycle (s : State) (bank : Nat) (c : BankCycle) : State × List (BitVec 64) :=
  let owner := s.bankOwner bank
  let b := if owner = ownHost ∨ owner = ownTest then none else c.b
  let got := fun (s : State) (x : Option BankAccess) => match x with
    | some ⟨w, none⟩ => [s.bankWord bank w]
    | _ => []
  let t := s.portStore bank c.a
  if owner = ownCtl then (t.portStore bank b, got s c.a ++ got t b)
  else if collides c.a b then
    let w := (b.map (·.word % 65536)).getD 0
    ((({ t with mem := { t.mem with collided := (bank, w) :: t.mem.collided } } : State).bump Reg.BANKS_COLLIDE).raise 0x118 1, [])
  else (t.portStore bank b, got s c.a ++ got s b)

/-- The accesses that the old owner has in flight as a handover drains complete (R359); a bank not ON has none (R360). -/
def State.inFlight (s : State) (bank : Nat) (l : List BankCycle) : State :=
  if s.flag (Reg.BANKS_OWN_PENDING bank) && !s.flag (Reg.BANKS_OWN_CLEAR_BUSY bank) && s.bankOn bank then
    l.foldl (fun s c => (s.bankCycle bank c).1) s
  else s

/-! Handovers (R359 to R362). -/

/-- B32 is CTL's again, which stopped at the write that took it away: the core restarts (R362). -/
def State.bankOwnerChanged (s : State) (n new : Nat) : State :=
  if n = 32 ∧ new = ownCtl then (s.put Reg.CTL_STATE_STATE 1).coreRestart 3 else s

/-- The handover of a bank completes (R359, R361). -/
def State.handover (s : State) (n : Nat) : State :=
  if s.flag (Reg.BANKS_OWN_PENDING n) then
    let new := s.fld (Reg.BANKS_OWN_OWNER n)
    let s := if s.mem.clears.contains n then s.sramZero n else s
    let s : State := { s with mem := { s.mem with clears := s.mem.clears.filter (· != n) } }
    let s := ((s.put (Reg.BANKS_OWN_ACTIVE n) new).put (Reg.BANKS_OWN_PENDING n) 0).put (Reg.BANKS_OWN_CLEAR_BUSY n) 0
    (s.raise 0x118 2).bankOwnerChanged n new
  else s

/-- The drain of a handover is over (R359): with CLEAR in the write that started it the bank is filled with zeros first,
and its new owner waits (R361). -/
def State.drained (s : State) (n : Nat) : State :=
  if s.flag (Reg.BANKS_OWN_CLEAR_BUSY n) then s
  else if s.flag (Reg.BANKS_OWN_PENDING n) && s.mem.clears.contains n then s.put (Reg.BANKS_OWN_CLEAR_BUSY n) 1
  else s.handover n

/-- The zero-fill of a handover ends (R361). -/
def State.clearDone (s : State) (n : Nat) : State := if s.flag (Reg.BANKS_OWN_CLEAR_BUSY n) then s.handover n else s

/-- Whether the active configuration uses a bank of PIX (R362). -/
def State.bankUsed (s : State) (n : Nat) : Bool :=
  if n = 35 then s.unitOn 0x62
  else if n = 36 then s.unitOn 0x50
  else if n = 37 then s.unitOn 0x61 || (s.unitOn 0x64 && s.flagA Reg.DITH_CFG_MSRC)
  else if 38 ≤ n ∧ n ≤ 41 then s.unitOn 0x60
  else n < 32

/-- A write of OWN[n] (R355, R356, R359 to R362). -/
def State.ownWrite (s : State) (n : Nat) (w : Word) : State :=
  let new := (Reg.BANKS_OWN_OWNER n).get w
  let old := s.bankOwner n
  let refused := n < 32 || 6 ≤ new ||
    (new != old && ((old == ownPix && s.bankUsed n) || (n == 33 && old == ownAlloc && !s.mem.regions.isEmpty)
      || ((n == 42 || n == 43) && old == ownCas && s.groupMember)))
  if refused then (s.bump Reg.BANKS_OWN_REFUSED).raise 0x118 3
  else
    let clear := (Reg.BANKS_OWN_CLEAR n).get w
    let pend := s.flag (Reg.BANKS_OWN_PENDING n)
    if new = old ∧ !pend then s.put (Reg.BANKS_OWN_CLEAR n) clear
    else
      let s := ((s.put (Reg.BANKS_OWN_OWNER n) new).put (Reg.BANKS_OWN_CLEAR n) clear).put (Reg.BANKS_OWN_PENDING n) 1
      let rest := s.mem.clears.filter (· != n)
      let s : State := if pend then s
        else { s with mem := { s.mem with clears := if clear = 1 ∧ s.bankOn n then n :: rest else rest } }
      let s := if n = 32 ∧ old = ownCtl ∧ new ≠ ownCtl then s.coreStop else s
      if s.bankOn n then s else s.handover n

/-! Accesses (R358, R359, R365). -/

/-- Before an access by a requester: one of the pending new owner waits for the handover. -/
def State.bankWait (s : State) (bank req : Nat) : State :=
  if s.flag (Reg.BANKS_OWN_PENDING bank) && s.fld (Reg.BANKS_OWN_OWNER bank) == req then s.handover bank else s

/-- Whether a requester is the owner that a bank serves; the old owner of a pending handover is served no more. -/
def State.bankServes (s : State) (bank req : Nat) : Bool :=
  s.bankOwner bank == req && !s.flag (Reg.BANKS_OWN_PENDING bank)

/-- A requester reads a word of a block bank. -/
def State.bankRd (s : State) (bank req word : Nat) : State × Word :=
  if !s.bankOn bank then (s.accessMiss 0 Reg.BANKS_WIN_DATA false, 0)
  else
    let s := s.bankWait bank req
    if s.bankServes bank req then (s, s.sramRd bank word) else (s.nonOwner bank req false, 0)

/-- A requester writes a word of a block bank. -/
def State.bankWr (s : State) (bank req word : Nat) (v : Word) : State :=
  if !s.bankOn bank then s.accessMiss 0 Reg.BANKS_WIN_DATA true
  else
    let s := s.bankWait bank req
    if s.bankServes bank req then s.sramWr bank word v else s.nonOwner bank req true

/-- The same for 16-bit entries. -/
def State.bankRd16 (s : State) (bank req e : Nat) : State × Nat :=
  let (t, w) := s.bankRd bank req (e / 2)
  (t, w.toNat / 65536 ^ (e % 2) % 65536)
def State.bankWr16 (s : State) (bank req e v : Nat) : State :=
  s.bankWr bank req (e / 2) ((⟨0, 16 * (e % 2), 16⟩ : Fld).put (s.sramRd bank (e / 2)) v)

/-- WIN_ADDR after an access: OFFSET moves on by 4 and wraps within the bank. -/
def State.winNext (s : State) : State := s.put Reg.BANKS_WIN_ADDR_OFFSET (s.fld Reg.BANKS_WIN_ADDR_OFFSET + 1)

/-- WIN_DATA is read (R368). -/
def State.winRead (s : State) : State × Word :=
  let b := s.fld Reg.BANKS_WIN_ADDR_BANK
  if 32 ≤ b ∧ b < 48 then
    let (s, w) := s.bankRd b ownHost (s.fld Reg.BANKS_WIN_ADDR_OFFSET)
    (s.winNext, w)
  else (s.winNext, 0)

/-- WIN_DATA is written (R368). -/
def State.winWrite (s : State) (w : Word) : State :=
  let b := s.fld Reg.BANKS_WIN_ADDR_BANK
  if 32 ≤ b ∧ b < 48 then (s.bankWr b ownHost (s.fld Reg.BANKS_WIN_ADDR_OFFSET) w).winNext
  else (s.bump Reg.BANKS_NONOWNER_WR).winNext

/-- A bank's contents are lost in OFF (R365), with B36's the zone levels and grid rows (R357). -/
def State.bankLost (s : State) (n : Nat) : State :=
  let t := s.sramZero n
  if n = 36 then { t with zon := { t.zon with cur := [], hist := [] }, fie := { t.fie with rows := [] } } else t

end Sys2Proof.Machine
end

