-- ==== Sys2Proof/Machine/Patch.lean ====
section
/-! DEFINITION. PATCH (R211 to R225, R234) and DEFECT (R226 to R233, R235). -/

namespace Sys2Proof.Machine

/-! The layout of a patch set (R211, R221). -/

/-- A layout: words per colour and mono line, where the mono and the tile words start, and the bytes of a set. -/
structure PatchLayout where
  cw : Nat
  ww : Nat
  mo : Nat
  tileOff : Nat
  bytes : Nat
  deriving DecidableEq, Repr

def ceilDiv (n d : Nat) : Nat := (n + d - 1) / d
def page4k (n : Nat) : Nat := ceilDiv n 4096 * 4096

/-- The layout for a width, a height, a mono width and the tiles. -/
def patchLayout (h v wm tiles : Nat) : PatchLayout :=
  let ww := ceilDiv wm 3
  let mo := page4k (8 * h * v)
  let tileOff := mo + page4k (8 * ww * v)
  ⟨h, ww, mo, tileOff, tileOff + 4 * tiles⟩

/-- The mono grid width of a geometry; 0 with one cell (R193, R211). -/
def monoWidth (h : Nat) (dual half : Bool) : Nat := if dual then (if half then h / 2 else h) else 0

/-- Both layouts of a geometry: full and coarse. -/
def patchFull (h v wm : Nat) : PatchLayout := patchLayout h v wm (ceilDiv h 32 * ceilDiv v 32)
def patchCoarse (h v wm : Nat) : PatchLayout :=
  patchLayout (ceilDiv h 8) (ceilDiv v 8) (ceilDiv wm 8) (ceilDiv h 32 * ceilDiv v 32)

/-- WM of the active and of the pending configuration. -/
def State.wm (s : State) : Nat := monoWidth s.hact s.dual s.monoHalf
def State.wmPend (s : State) : Nat :=
  monoWidth (s.fld Reg.TIMING_HTIMING_HACTIVE) (s.flag Reg.SPLIT_CFG_DUAL) (s.flag Reg.SPLIT_CFG_MONO_HALF)

/-- SET_BYTES, COARSE_BYTES, MONO_OFF and TILE_OFF report the pending configuration (R212). -/
def State.patchFullPend (s : State) : PatchLayout :=
  patchFull (s.fld Reg.TIMING_HTIMING_HACTIVE) (s.fld Reg.TIMING_VTIMING_VACTIVE) s.wmPend
def State.patchCoarsePend (s : State) : PatchLayout :=
  patchCoarse (s.fld Reg.TIMING_HTIMING_HACTIVE) (s.fld Reg.TIMING_VTIMING_VACTIVE) s.wmPend

/-! The live set (R217). -/

def State.patchLive (s : State) : Nat := s.fldA Reg.PATCH_CFG_LIVE
/-- The handle and the COARSE bit of the live set, by the active words. -/
def State.liveHandle (s : State) : Nat :=
  if s.patchLive = 0 then s.fldA Reg.PATCH_SET0_HANDLE else s.fldA Reg.PATCH_SET1_HANDLE
def State.liveCoarse (s : State) : Bool :=
  if s.patchLive = 0 then s.flagA Reg.PATCH_CFG_COARSE0 else s.flagA Reg.PATCH_CFG_COARSE1
def State.livePatch (s : State) : PatchLayout :=
  if s.liveCoarse then patchCoarse s.hact s.vact s.wm else patchFull s.hact s.vact s.wm

/-- PF_LINES as it acts (R234). -/
def State.pfLines (s : State) : Nat := clampNat 4 16 (s.fldA Reg.PATCH_PREFETCH_PF_LINES)

/-! Fetching (R223, R224, R246). -/

/-- Whether a class-0 fetch issued PF_LINES ahead comes in time (0), late (2), or at an instant the spec leaves open
(1): the class-0 bound of 1.5 µs and the injected latency against the bounds of R224. -/
def State.fetchTime (s : State) : Nat :=
  let lat := s.fld Reg.PERTURB_DRAM_LAT0_C0 * ticksPerNs
  if lat = 0 ∨ lat + 384000 ≤ s.pfLines * s.linePeriod then 0
  else if (s.pfLines + 1) * s.linePeriod < lat then 2
  else 1

/-- Bytes read for class 0 in whole 64-byte beats: the bytes, and for each 64-byte beat 1 when it faulted and 2 when
it came late. The unit's counters of either are given. -/
def State.fetchBeats (s : State) (e h ofs n : Nat) : State × List (Byte × Nat) :=
  if n = 0 then (s, [])
  else
    (List.range ((ofs + n - 1) / 64 + 1 - ofs / 64)).foldl (fun (acc : State × List (Byte × Nat)) i =>
      let b := (ofs / 64 + i) * 64
      let lo := max ofs b
      let hi := min (ofs + n) (b + 64)
      let (s, k, l) := acc.1.engRead e h b 64
      let s := s.fltDone k e i
      let l := (l.drop (lo - b)).take (hi - lo)
      let t := s.fetchTime
      let late := if k != 0 then false else if t = 1 then s.free.toNat % 2 == 1 else t == 2
      let s := if k = 0 ∧ t = 1 then s.used else s
      let bad := if k != 0 then 1 else if late then 2 else 0
      let s : State :=
        if e = 3 then (s.bumpIf (bad == 1) Reg.PATCH_FETCH_FAULT).raiseIf (bad == 1) 0x60 1
        else ((s.bumpIf (bad == 1) Reg.OD_STATE_FAULT).raiseIf (bad == 1) 0x62 0).bumpIf (bad == 2) Reg.OD_LATE_FETCH
          |>.raiseIf (bad == 2) 0x62 1
      (s, acc.2 ++ l.map (fun x => (x, bad)))) (s, [])

/-- Little-endian words of `n` bytes out of fetched bytes; a word that a bad beat touches is bad. -/
def fetchedWords (n : Nat) (l : List (Byte × Nat)) : List Fetched :=
  (chunks n l).map (fun c => ⟨leVal (c.map (·.1)), c.foldl (fun m e => max m e.2) 0⟩)

/-- The key of the words of line y (R221). -/
def State.patchKey (s : State) (y : Nat) : Nat := if s.liveCoarse then y / 8 else y

/-- The banks that hold the patch words fetched ahead (R223, R357). -/
def patchBanks : List Nat := [38, 39, 40, 41]

/-- Words as they are read back from those banks: zeros, counted once, while one of them is not ON (R365). -/
def State.patchHeld (s : State) (l : List Fetched) : State × List Fetched :=
  if patchBanks.all (fun b => s.bankOn b) then (s, l)
  else (s.accessMiss 0 Reg.BANKS_WIN_DATA false, l.map (fun w => { w with val := 0 }))

/-- The words of line y are fetched: the tile row with its first line, a coarse line once for its 8 lines (R223). They go
into B38 to B41, whose contents they replace; the place of a word there is open (log entry 82). -/
def State.patchFetch (s : State) (y : Nat) : State :=
  let p := s.livePatch
  let h := s.liveHandle
  let s := if y = 0 then s.each (patchBanks.filter (fun b => s.bankOn b)) (fun b s => s.sramLost b) else s
  let s : State := if y % 32 = 0 then
      let tx := ceilDiv s.hact 32
      let (s, l) := s.fetchBeats 3 h (p.tileOff + 4 * tx * (y / 32)) (4 * tx)
      let (s, l) := s.patchHeld (fetchedWords 4 l)
      { s with pat := { s.pat with tiles := Cells.set (fun _ => []) s.pat.tiles (y / 32) l } }
    else s
  if s.liveCoarse && y % 8 != 0 then s
  else
    let k := s.patchKey y
    let (s, c) := s.fetchBeats 3 h (8 * p.cw * k) (8 * p.cw)
    let (s, m) := s.fetchBeats 3 h (p.mo + 8 * p.ww * k) (8 * p.ww)
    let (s, c) := s.patchHeld (fetchedWords 8 c)
    let (s, m) := s.patchHeld (fetchedWords 8 m)
    { s with pat := { s.pat with
        words := Cells.set (fun _ => ([], [])) s.pat.words k (c, m) } }

/-! The correction (R213 to R216). -/

/-- The step of a scale byte (R214). -/
def scaleStep (b : Nat) : Nat := if b = 0 then 0 else (16 + b % 16) * 2 ^ (b / 16 % 16)

/-- d' of R215 for a field, a step and the knots. -/
def patchCode (k1 k2 k3 field step d : Nat) : Nat :=
  if step = 0 then d
  else
    let o1 := sext 6 field
    let o2 := sext 6 (field / 64)
    let o3 := sext 6 (field / 4096)
    let seg := fun (a : Nat) (oa : Int) (b : Nat) (ob : Int) =>
      (oa * ((b : Int) - a) + (ob - oa) * ((d : Int) - a), ((b : Int) - a))
    let (num, den) : Int × Int :=
      if k3 < d then (o3, 1)
      else if d ≤ k1 then seg 0 0 k1 o1
      else if d ≤ k2 then seg k1 o1 k2 o2
      else seg k2 o2 k3 o3
    (clampInt 0 65535 (d + (2 * num * step + 128 * den) / (256 * den))).toNat

/-- The knots of a plane: 0 R, 1 G, 2 B, 3 M. -/
def State.patchKnots (s : State) (plane : Nat) : Nat × Nat × Nat :=
  let lo := Reg.PATCH_KR_LO + 8 * plane
  (s.fldA ⟨lo, 0, 16⟩, s.fldA ⟨lo, 16, 16⟩, s.fldA ⟨lo + 4, 0, 16⟩)

/-- The colour word, the mono word and field of a pixel's mono pixel, and the tile word. -/
def State.patchWord (s : State) (y x : Nat) : Fetched :=
  let l := (Cells.get (fun _ => ([], [])) s.pat.words (s.patchKey y)).1
  l.getD (if s.liveCoarse then x / 8 else x) ⟨0, 1⟩
def State.patchMono (s : State) (y m : Nat) : Fetched × Nat :=
  let l := (Cells.get (fun _ => ([], [])) s.pat.words (s.patchKey y)).2
  let k := if s.liveCoarse then m / 8 else m
  (l.getD (k / 3) ⟨0, 1⟩, k % 3)
def State.patchTile (s : State) (y x : Nat) : Fetched :=
  (Cells.get (fun _ => []) s.pat.tiles (y / 32)).getD (x / 32) ⟨0, 1⟩

/-- The colour pixel in front of a mono pixel (R211). -/
def State.inFront (s : State) (m : Nat) : Nat := if s.monoHalf then 2 * m else m

/-- A code of a plane corrected by a word's field and its tile; a bad word or tile corrects nothing (R224). -/
def State.patchSub (s : State) (plane : Nat) (w t : Fetched) (field : Nat) (bypass : Bool) (d : Nat) : Nat :=
  if bypass || w.bad != 0 || t.bad != 0 then d
  else
    let (k1, k2, k3) := s.patchKnots plane
    patchCode k1 k2 k3 field (scaleStep (t.val / 256 ^ plane % 256)) d

/-- PATCH's probe (R234). -/
def State.patchProbe (s : State) (y : Nat) (o : PatchLine) : State :=
  let x := s.pat.probeX
  if s.pat.probeY = y ∧ x < s.hact then
    let s : State := if s.unitOn 0x60 then
        let w := s.patchWord y x
        let t := s.patchTile y x
        let (lo, hi) := if w.bad = 0 then (BitVec.ofNat 32 w.val, BitVec.ofNat 32 (w.val / 2 ^ 32)) else (s.free, s.used.free)
        let s : State := if w.bad = 0 then s else s.used.used
        let s := (s.wr Reg.PATCH_PROBE_WORD lo).wr Reg.PATCH_PROBE_WORD_HI hi
        if t.bad = 0 then s.wrN Reg.PATCH_PROBE_TILE t.val else (s.wr Reg.PATCH_PROBE_TILE s.free).used
      else s
    let m := if s.dual then o.m.getD (if s.monoHalf then x / 2 else x) 0 else 0
    let s := s.wrN Reg.PATCH_PROBE_OUT0 (o.r.getD x 0 + 65536 * o.g.getD x 0)
    let s := s.wrN Reg.PATCH_PROBE_OUT1 (o.b.getD x 0 + 65536 * m)
    s.wr Reg.PATCH_PROBE_FRAME (s.rd Reg.TIMING_FRAME_NO)
  else s

/-- PATCH corrects line y (R215, R216, R224). -/
def State.patchLine (s : State) (y : Nat) (d : DriveLine) : State :=
  let put := fun (s : State) (o : PatchLine) =>
    let s := s.patchProbe y o
    { s with pat := { s.pat with out := Cells.set (fun _ => ⟨[], [], [], [], [], []⟩) s.pat.out y o } }
  if !s.unitOn 0x60 then put s ⟨d.r, d.g, d.b, d.m, [], []⟩
  else
    let xs := List.range s.hact
    let ms := List.range s.wm
    let col := fun (plane : Nat) (codes : List Nat) => (List.zip xs codes).map (fun e =>
      let w := s.patchWord y e.1
      s.patchSub plane w (s.patchTile y e.1) (w.val / 2 ^ (18 * plane) % 2 ^ 18) (bit w.val 55) e.2)
    let mono := (List.zip ms d.m).map (fun e =>
      let (w, k) := s.patchMono y e.1
      s.patchSub 3 w (s.patchTile y (s.inFront e.1)) (w.val / 2 ^ (18 * k) % 2 ^ 18) (bit w.val 57) e.2)
    let full := !s.liveCoarse
    let defC := xs.filter (fun x =>
      let w := s.patchWord y x
      full && w.bad == 0 && (s.patchTile y x).bad == 0 && bit w.val 54)
    let defM := ms.filter (fun m =>
      let (w, k) := s.patchMono y m
      full && w.bad == 0 && (s.patchTile y (s.inFront m)).bad == 0 && bit w.val (54 + k))
    let late := xs.filter (fun x =>
      (s.patchWord y x).bad == 2 || (s.patchTile y x).bad == 2 ||
      (0 < s.wm && (s.patchMono y (if s.monoHalf then x / 2 else x)).1.bad == 2))
    let o : PatchLine := ⟨col 0 d.r, col 1 d.g, col 2 d.b, mono, defC, defM⟩
    let s := s.bumpBy (wholeFld Reg.PATCH_LATE_FETCH) late.length
    put (s.raiseIf (0 < late.length) 0x60 2) o

/-! CHECK (R219). -/

/-- CHECK is written: SET is stored, and START begins a check unless one runs. -/
def State.checkWrite (s : State) (w : Word) : State :=
  let s := s.put Reg.PATCH_CHECK_SET (Reg.PATCH_CHECK_SET.get w)
  if Reg.PATCH_CHECK_START.get w = 0 ∨ s.flag Reg.PATCH_CHECK_STATUS_BUSY then s
  else
    let set := s.fld Reg.PATCH_CHECK_SET
    let h := s.fld (if set = 0 then Reg.PATCH_SET0_HANDLE else Reg.PATCH_SET1_HANDLE)
    let coarse := s.flag (if set = 0 then Reg.PATCH_CFG_COARSE0 else Reg.PATCH_CFG_COARSE1)
    let n := if coarse then s.patchCoarsePend.bytes else s.patchFullPend.bytes
    let s := s.wrN Reg.PATCH_CHECK_STATUS 1
    { s.wrN Reg.PATCH_CHECK_CRC 0 with pat := { s.pat with check := some (h, n) } }

/-- The check ends. -/
def State.checkDone (s : State) : State :=
  match s.pat.check with
  | none => s
  | some (h, n) =>
    let (s, k, l) := s.engRead 11 h 0 n
    let s : State := { s with pat := { s.pat with check := none } }
    let s := s.wrN Reg.PATCH_CHECK_STATUS (if k = 0 then 2 else 6)
    (s.wrN Reg.PATCH_CHECK_CRC (if k = 0 then crc32 l else 0)).raise 0x60 3

/-- PATCH at a boundary (R217, R234): `before` is what the live set was (LIVE, handle, COARSE). -/
def State.patchBoundary (s : State) (before : Nat × Nat × Bool) : State :=
  let swap := before != (s.patchLive, s.liveHandle, s.liveCoarse)
  let s := (s.bumpIf swap Reg.PATCH_SWAPS).raiseIf swap 0x60 0
  let s := (s.put Reg.PATCH_STATUS_LIVE_ACTIVE s.patchLive).put Reg.PATCH_STATUS_COARSE_ACTIVE (b2n s.liveCoarse)
  { s with pat := { s.pat with
      words := [], tiles := [], next := 0, out := []
      probeX := s.fld Reg.PATCH_PROBE_X, probeY := s.fld Reg.PATCH_PROBE_Y } }

/-! The defect table (R226 to R230). -/

/-- A defect entry (R226). -/
structure DefEntry where
  x : Nat
  y : Nat
  ch : Nat
  kind : Nat
  deriving DecidableEq, Repr

def defEntry (w : Nat) : DefEntry := ⟨bits w 0 13, bits w 13 13, bits w 26 3, bits w 29 3⟩
def DefEntry.word (e : DefEntry) : Nat := e.x + e.y * 2 ^ 13 + e.ch * 2 ^ 26 + e.kind * 2 ^ 29

def State.defectAt (s : State) (bank i : Nat) : Nat := (s.sramRd 37 (bank * 4096 + i)).toNat
/-- The used entries of a bank, as DEFECT reads them: zeros while B37 does not serve it. -/
def State.defectTable (s : State) (bank count : Nat) : List DefEntry :=
  (List.range (min 4096 count)).map (fun i => defEntry (if s.bankFor 37 ownPix then s.defectAt bank i else 0))
def State.defectActive (s : State) : List DefEntry :=
  s.defectTable (s.fldA Reg.DEFECT_CFG_BANK) (s.fldA ⟨Reg.DEFECT_COUNT, 0, 13⟩)

/-- Whether a column-open entry covers a line (R229). -/
def DefEntry.covers (e : DefEntry) (vact y : Nat) : Bool :=
  let h := vact / 2
  if e.y < h then e.y ≤ y && y < h else h ≤ y && y ≤ e.y

/-- Whether entries apply whatever their flags (R230). -/
def State.flagsIgnored (s : State) : Bool :=
  s.flagA Reg.DEFECT_CFG_APPLY_ALL || !s.unitOn 0x60 || s.liveCoarse

def State.patched (s : State) (y : Nat) : PatchLine :=
  Cells.get (fun _ => ⟨[], [], [], [], [], []⟩) s.pat.out y

/-- The DEF flag of an entry's pixel. -/
def State.defFlag (s : State) (y ch x : Nat) : Bool :=
  let p := s.patched y
  if ch = 3 then p.defM.contains x else p.defC.contains x

/-- The kinds in the order of precedence (R229). -/
def kindRank (k : Nat) : Nat := if k = 4 then 0 else if k = 1 then 1 else if k = 2 then 2 else 3

/-- The defective subpixels of a line: (plane, column, kind), each once. -/
def State.defMarks (s : State) (y : Nat) : List (Nat × Nat × Nat) :=
  let table := s.defectActive
  let auto := (s.dfc.auto.take s.dfc.live).map defEntry
  let point := table.filter (fun e => e.kind != 4 && e.y == y && (s.flagsIgnored || s.defFlag y e.ch e.x))
  let cols := (table ++ auto).filter (fun e => e.kind == 4 && e.covers s.vact y)
  let all := (cols ++ point).map (fun e => (e.ch, e.x, e.kind))
  ((all.map (fun e => (e.1, e.2.1))).eraseDups).map (fun k =>
    let l := (all.filter (fun e => e.1 == k.1 && e.2.1 == k.2)).map (·.2.2)
    (k.1, k.2, l.foldl (fun m v => if kindRank v < kindRank m then v else m) 3))

/-! Passing light to neighbours (R231). -/

/-- The codes of a plane of a line. -/
def PatchLine.plane (p : PatchLine) (ch : Nat) : List Nat :=
  if ch = 0 then p.r else if ch = 1 then p.g else if ch = 2 then p.b else p.m

/-- WEAK_GAIN and the weights of a plane's cell: side, vertical, diagonal. -/
def State.defGain (s : State) (ch : Nat) : Nat :=
  s.fldA (if ch = 3 then Reg.DEFECT_WEIGHT_M1_WEAK_GAIN else Reg.DEFECT_WEIGHT_C1_WEAK_GAIN)
def State.defWeight (s : State) (ch : Nat) (dx dy : Int) : Nat :=
  if dy = 0 then s.fldA (if ch = 3 then Reg.DEFECT_WEIGHT_M0_w_side else Reg.DEFECT_WEIGHT_C0_w_side)
  else if dx = 0 then s.fldA (if ch = 3 then Reg.DEFECT_WEIGHT_M0_w_vert else Reg.DEFECT_WEIGHT_C0_w_vert)
  else s.fldA (if ch = 3 then Reg.DEFECT_WEIGHT_M1_w_diag else Reg.DEFECT_WEIGHT_C1_w_diag)

/-- give of a subpixel, in 1/4096 code. -/
def defGive (gain kind d : Nat) : Int :=
  if kind = 3 then max 0 ((d * gain : Nat) - 65535 * 4096)
  else if kind = 2 then -((65535 - d : Int) * 4096)
  else (d * 4096 : Nat)

/-- A weak subpixel's own code. -/
def weakOut (gain d : Nat) : Nat := min 65535 ((d * gain * 2 + 4096) / 8192)

/-- A plane of line y out of DEFECT, and how many subpixels clamped; `marks` are those of lines y − 1, y, y + 1. -/
def State.defPlane (s : State) (ch y : Nat) (marks : List (Int × List (Nat × Nat × Nat))) : List Nat × Nat :=
  let gain := s.defGain ch
  let give := marks.flatMap (fun l => (l.2.filter (fun m => m.1 == ch)).map (fun m =>
    (l.1, m.2.1, defGive gain m.2.2 (((s.patched ((y : Int) + l.1).toNat).plane ch).getD m.2.1 0))))
  let own := (marks.filter (fun l => l.1 == 0)).flatMap (fun l => l.2.filter (fun m => m.1 == ch))
  let out := (((s.patched y).plane ch).zipIdx).map (fun (e : Nat × Nat) =>
    let kind := ((own.find? (fun m => m.2.1 == e.2)).map (·.2.2)).getD 0
    if kind != 0 && kind != 3 then (e.1, false)
    else
      let base := if kind = 3 then weakOut gain e.1 else e.1
      let acc : Int := (give.map (fun g =>
        let dx : Int := (g.2.1 : Int) - e.2
        if dx.natAbs ≤ 1 ∧ ¬(dx = 0 ∧ g.1 = 0) then g.2.2 * (s.defWeight ch dx g.1 : Int) else 0)).sum
      let v := (base : Int) + (2 * acc + 2 ^ 28) / 2 ^ 29
      ((clampInt 0 65535 v).toNat, v < 0 || 65535 < v))
  (out.map (·.1), (out.filter (·.2)).length)

/-- DEFECT's probe (R235). -/
def State.defProbe (s : State) (y : Nat) (o : DriveLine) : State :=
  let x := s.dfc.probeX
  if s.dfc.probeY = y ∧ x < s.hact then
    let m := if s.dual then o.m.getD (if s.monoHalf then x / 2 else x) 0 else 0
    let s := s.wrN Reg.DEFECT_PROBE_OUT0 (o.r.getD x 0 + 65536 * o.g.getD x 0)
    let s := s.wrN Reg.DEFECT_PROBE_OUT1 (o.b.getD x 0 + 65536 * m)
    s.wr Reg.DEFECT_PROBE_FRAME (s.rd Reg.TIMING_FRAME_NO)
  else s

/-- The figures of a line (R230, R235): defective subpixels handled, entries skipped, orphan flags. -/
def State.defFigures (s : State) (y : Nat) (marks : List (Nat × Nat × Nat)) : State :=
  let pts := s.defectActive.filter (fun e => e.kind != 4 && e.y == y)
  let skipped := if s.flagsIgnored then 0 else (pts.filter (fun e => !s.defFlag y e.ch e.x)).length
  let p := s.patched y
  let orphans :=
    (p.defC.filter (fun x => !pts.any (fun e => e.ch < 3 && e.x == x))).length +
    (p.defM.filter (fun m => !pts.any (fun e => e.ch == 3 && e.x == m))).length
  { s with dfc := { s.dfc with applied := s.dfc.applied + marks.length, skipped := s.dfc.skipped + skipped,
                               orphans := s.dfc.orphans + orphans } }

/-- DEFECT processes line y; the lines around it have left PATCH (R231, R233). -/
def State.defectLine (s : State) (y : Nat) : State × DriveLine :=
  let p := s.patched y
  if !s.unitOn 0x61 then
    let o : DriveLine := ⟨p.r, p.g, p.b, p.m⟩
    (s.defProbe y o, o)
  else
    let ls : List Int := (if 0 < y then [-1] else []) ++ [0] ++ (if y + 1 < s.vact then [1] else [])
    let marks := ls.map (fun (d : Int) => (d, s.defMarks ((y : Int) + d).toNat))
    let r := s.defPlane 0 y marks
    let g := s.defPlane 1 y marks
    let b := s.defPlane 2 y marks
    let m := s.defPlane 3 y marks
    let o : DriveLine := ⟨r.1, g.1, b.1, m.1⟩
    let clips := r.2 + g.2 + b.2 + m.2
    let s := s.defFigures y (s.defMarks y)
    let s := (s.bumpBy (wholeFld Reg.DEFECT_NBR_CLIP) clips).raiseIf (0 < clips && !s.dfc.clipped) 0x61 2
    let s : State := { s with dfc := { s.dfc with clipped := s.dfc.clipped || 0 < clips } }
    (s.defProbe y o, o)

/-- DEFECT at a boundary (R232, R235): the figures of the frame that ended are shown, the auto list is emptied or its
new entries take effect. -/
def State.defectBoundary (s : State) (ended : Bool) : State :=
  let d := s.dfc
  let s := if ended then
      ((s.wrN Reg.DEFECT_APPLIED d.applied).wrN Reg.DEFECT_FLAG_SKIP d.skipped).wrN Reg.DEFECT_ORPHAN_FLAG d.orphans
    else s
  let s : State := if d.clr then
      { (s.put Reg.DEFECT_STATUS_AUTO_FULL 0).wrN Reg.DEFECT_AUTO_STAT 0 with dfc := { s.dfc with auto := [], clr := false } }
    else s
  let new := s.dfc.live < s.dfc.auto.length
  let s := s.raiseIf new 0x61 0
  { s with dfc := { s.dfc with live := s.dfc.auto.length, applied := 0, skipped := 0, orphans := 0, clipped := false,
                               probeX := s.fld Reg.DEFECT_PROBE_X, probeY := s.fld Reg.DEFECT_PROBE_Y } }

/-- A partner's report of an open column (R232). -/
def State.autoAdd (s : State) (x ch : Nat) (bottom : Bool) : State :=
  if !s.flagA Reg.DEFECT_CFG_AUTO_COL then s
  else
    let w := (⟨x, if bottom then s.vact - 1 else 0, ch, 4⟩ : DefEntry).word
    if s.dfc.auto.contains w then s
    else if 32 ≤ s.dfc.auto.length then
      ((s.bumpIf (s.unitOn 0x61) Reg.DEFECT_AUTO_FULL).put Reg.DEFECT_STATUS_AUTO_FULL 1).raise 0x61 1
    else
      let s : State := { s with dfc := { s.dfc with auto := s.dfc.auto ++ [w] } }
      s.wrN Reg.DEFECT_AUTO_STAT s.dfc.auto.length

/-- AUTO_DATA is read: beyond the list there is no entry, and the word is a free value (log entry 14). -/
def State.autoRead (s : State) : State × Word :=
  let a := s.fld ⟨Reg.DEFECT_AUTO_ADDR, 0, 5⟩
  let n := s.dfc.auto.length
  let t := s.put ⟨Reg.DEFECT_AUTO_ADDR, 0, 5⟩ (nextIndex (if n = 0 then 31 else n - 1) a)
  if a < n then (t, BitVec.ofNat 32 (s.dfc.auto.getD a 0)) else (t.used, s.free)

/-- AUTO_CTL is written. -/
def State.autoCtl (s : State) (w : Word) : State :=
  if w.toNat % 2 = 0 then s else { s with dfc := { s.dfc with clr := true } }

/-- Accesses to the defect table (R227): DEFECT reaches B37 through PIX. -/
def State.defectRead (s : State) : State × Word :=
  let i := s.fld Reg.DEFECT_ADDR_INDEX
  let (s, w) := s.bankRd 37 ownPix ((1 - s.fldA Reg.DEFECT_CFG_BANK) * 4096 + i)
  (s.put Reg.DEFECT_ADDR_INDEX (nextIndex 4095 i), w)

def State.defectWrite (s : State) (w : Word) : State :=
  if s.switching Reg.DEFECT_CFG_BANK then s.bumpIf (s.unitOn 0x61) Reg.DEFECT_BUSY_CNT
  else
    let i := s.fld Reg.DEFECT_ADDR_INDEX
    let s := s.bankWr 37 ownPix ((1 - s.fldA Reg.DEFECT_CFG_BANK) * 4096 + i) w
    s.put Reg.DEFECT_ADDR_INDEX (nextIndex 4095 i)

def State.defectStatus (s : State) : Word :=
  Reg.DEFECT_STATUS_SWITCH_PENDING.put (s.rd (Reg.HDR_STATUS 0x61)) (b2n (s.switching Reg.DEFECT_CFG_BANK))

end Sys2Proof.Machine
end

