-- ==== Sys2Proof/Machine/Overdrive.lean ====
section
/-! DEFINITION. OD (R236 to R247, R255, R502) and THERM (R248 to R254, R256). -/

namespace Sys2Proof.Machine

/-! The layout of the states (R236). -/

def odMso (h v : Nat) : Nat := page4k (3 * h * v)
def odBytes (h v wm : Nat) : Nat := odMso h v + page4k (wm * v)
/-- STATE_BYTES of the pending configuration. -/
def State.odBytesPend (s : State) : Nat :=
  odBytes (s.fld Reg.TIMING_HTIMING_HACTIVE) (s.fld Reg.TIMING_VTIMING_VACTIVE) s.wmPend
def State.odHandle (s : State) : Nat := s.fldA Reg.OD_STATE_HANDLE

/-- The states of line y are fetched (R237). -/
def State.odFetch (s : State) (y : Nat) : State :=
  let h := s.odHandle
  let n := 3 * s.hact
  let (s, c) := s.fetchBeats 2 h (n * y) n
  let (s, m) := s.fetchBeats 2 h (odMso s.hact s.vact + s.wm * y) s.wm
  { s with od := { s.od with
      lines := Cells.set (fun _ => ([], [])) s.od.lines y (c.map (fun b => ⟨b.1.toNat, b.2⟩), m.map (fun b => ⟨b.1.toNat, b.2⟩)) } }

/-- States are written back beat by beat; a beat whose write faults keeps its old values (R246). -/
def State.odStore (s : State) (ofs : Nat) (l : List Byte) : State :=
  if l.isEmpty then s
  else
    s.each (List.range ((ofs + l.length - 1) / 64 + 1 - ofs / 64)) (fun i s =>
      let b := (ofs / 64 + i) * 64
      let lo := max ofs b
      let hi := min (ofs + l.length) (b + 64)
      let (s, k) := s.engWrite 2 s.odHandle lo ((l.drop (lo - ofs)).take (hi - lo))
      let s := s.fltDone k 2 i
      (s.bumpIf (k != 0) Reg.OD_STATE_FAULT).raiseIf (k != 0) 0x62 0)

/-! Temperature at a pixel (R248). -/

/-- Words of THERM as they reset (R256). -/
def thermInit : Word := 0x190
def convInit (k : Nat) : Word := BitVec.ofNat 32 (64 * k)

def State.thermAct (s : State) (r : Nat) : Int := sext 16 (Cells.get (fun _ => thermInit) s.thm.act r).toNat

/-- The position between region centres along one axis, in 1/256. -/
def regionPos (n size x : Nat) : Nat :=
  (clampInt 0 (((n - 1) * 256 : Nat) : Int)
    ((256 * (((2 * x + 1) * n : Nat) - (size : Int)) + size) / (2 * (size : Int)))).toNat

/-- T of R248. -/
def State.pixelTemp (s : State) (x y : Nat) : Int :=
  let u := regionPos 16 s.hact x
  let v := regionPos 9 s.vact y
  let rx := u / 256
  let wx : Int := ((u % 256 : Nat) : Int)
  let ry := v / 256
  let wy : Int := ((v % 256 : Nat) : Int)
  let t := fun (a b : Nat) (w : Int) => if w = 0 then 0 else w * s.thermAct (16 * b + a)
  (t rx ry ((256 - wx) * (256 - wy)) + t (rx + 1) ry (wx * (256 - wy)) + t rx (ry + 1) ((256 - wx) * wy)
    + t (rx + 1) (ry + 1) (wx * wy) + 32768) / 65536

/-! Tables (R239 to R242). -/

/-- The 16-bit entry index in B35 of a table's entry: bank b at byte b × 0x4_0000; the eight tables of a bank follow
each other in the order of CH and LUT (log entry 18). -/
def odIndex (bank ch lut i : Nat) : Nat := bank * 0x20000 + (ch * 2 + lut) * 9248 + i

def State.odEntry (s : State) (ch lut dbin b ks kx : Nat) : Nat :=
  s.pixSram16 35 (odIndex (s.fldA Reg.OD_CFG_BANK) ch lut (((dbin * 8 + b) * 17 + ks) * 17 + kx))

/-- TB[j] of the active configuration. -/
def State.odTb (s : State) (j : Nat) : Int := sext 16 (s.fldA ⟨Reg.OD_TBIN0 + 4 * (j / 2), 16 * (j % 2), 16⟩)

/-- The lower temperature bin and the weight of the upper one (R241). -/
def State.tempBin (s : State) (t : Int) : Nat × Nat :=
  if t ≤ s.odTb 0 then (0, 0)
  else if s.odTb 7 ≤ t then (6, 256)
  else
    let j := ((List.range 8).filter (fun j => s.odTb j ≤ t)).foldl max 0
    let d := s.odTb (j + 1) - s.odTb j
    (j, ((512 * (t - s.odTb j) + d) / (2 * d)).toNat)

/-- A knot of an axis: its index, the way beyond it and the segment's width (R241). -/
def odKnotAt (v : Nat) : Nat × Nat × Nat := if v < 61440 then (v / 4096, v % 4096, 4096) else (15, v - 61440, 4095)

/-- A lookup in a table (R241). -/
def State.odLook (s : State) (ch lut st x : Nat) (t : Int) : Nat :=
  let (ks, fs, ws) := odKnotAt st
  let (kx, fx, wx) := odKnotAt x
  let (j, w) := s.tempBin t
  let e := fun b i k => s.odEntry ch lut s.od.dbin b i k
  let bil := fun b => (ws - fs) * (wx - fx) * e b ks kx + (ws - fs) * fx * e b ks (kx + 1)
    + fs * (wx - fx) * e b (ks + 1) kx + fs * fx * e b (ks + 1) (kx + 1)
  divHalfUp ((256 - w) * bil j + w * bil (j + 1)) (256 * ws * wx)

/-- dbin of a planned period in ticks (R240). -/
def State.odDbin (s : State) (period : Nat) : Nat :=
  ([s.fldA Reg.OD_DBIN0_DB1, s.fldA Reg.OD_DBIN0_DB2, s.fldA Reg.OD_DBIN1_DB3].filter (fun d => d * ticksPerUs ≤ period)).length

/-! One frame step (R243). -/

/-- What OD makes of a subpixel: the drive, the 16-bit state, and whether the deadband or initialisation branch
applied. -/
structure OdStep where
  drive : Nat
  next : Nat
  settled : Bool
  deriving DecidableEq, Repr

def State.odStep (s : State) (ch : Nat) (black init : Bool) (t sigma : Nat) (temp : Int) : OdStep :=
  let s16 := 257 * sigma
  if black then
    if init then ⟨0, 0, true⟩ else ⟨0, s.odLook ch 1 s16 0 temp, false⟩
  else if init ∨ ((t : Int) - s16).natAbs ≤ s.fldA ⟨Reg.OD_DEADBAND, 0, 16⟩ then ⟨t, t, true⟩
  else
    let drive := s.odLook ch 0 s16 t temp
    ⟨drive, s.odLook ch 1 s16 drive temp, false⟩

/-- σ' of R236. -/
def odByte (s16 : Nat) : Byte := BitVec.ofNat 8 ((2 * s16 + 257) / 514)

/-- OD's probe (R255, R502). -/
def State.odProbe (s : State) (y : Nat) (black : Bool) (d : DriveLine) (col mono : List Fetched) : State :=
  let x := s.od.probeX
  let ch := if 4 ≤ s.od.probeCh then 0 else s.od.probeCh
  if s.od.probeY = y ∧ x < s.hact ∧ ¬(ch = 3 ∧ !s.dual) then
    let m := if s.monoHalf then x / 2 else x
    let t := if ch = 0 then d.r.getD x 0 else if ch = 1 then d.g.getD x 0 else if ch = 2 then d.b.getD x 0 else d.m.getD m 0
    let s : State := if s.unitOn 0x62 then
        let f : Fetched := if ch = 3 then mono.getD m ⟨0, 1⟩ else col.getD (3 * x + ch) ⟨0, 1⟩
        let temp := s.pixelTemp (if ch = 3 then s.inFront m else x) y
        let r := s.odStep ch black (s.od.init || f.bad != 0) t f.val temp
        let (j, w) := s.tempBin temp
        let (j, w) := if w = 256 then (j + 1, 0) else (j, w)
        let s16 := if f.bad = 0 then 257 * f.val else s.free.toNat % 65536
        let s : State := if f.bad = 0 then s else s.used
        let s := s.wrN Reg.OD_PROBE_IN (s16 + 65536 * t)
        let s := s.wrN Reg.OD_PROBE_OUT (r.drive + 65536 * r.next)
        s.wrN Reg.OD_PROBE_SEL (toField 16 temp + 2 ^ 16 * (j % 8) + 2 ^ 20 * (w % 256) + 2 ^ 28 * s.od.dbin
          + (if r.settled then 2 ^ 30 else 0) + (if s.od.init then 2 ^ 31 else 0))
      else ((s.wrN Reg.OD_PROBE_IN (65536 * t)).wrN Reg.OD_PROBE_OUT t).wrN Reg.OD_PROBE_SEL 0
    (s.wr Reg.OD_PROBE_FRAME (s.rd Reg.TIMING_FRAME_NO)).raise 0x62 2
  else s

/-- OD processes line y (R238, R243, R246): its drives, the states written back. -/
def State.odLine (s : State) (y : Nat) (black : Bool) (d : DriveLine) : State × DriveLine :=
  let (col, mono) := Cells.get (fun _ => ([], [])) s.od.lines y
  let s := s.odProbe y black d col mono
  if !s.unitOn 0x62 then (s, d)
  else
    let colA := col.toArray
    let step := fun (ch : Nat) (codes : List Nat) => (codes.zipIdx).map (fun (e : Nat × Nat) =>
      let f := colA.getD (3 * e.2 + ch) ⟨0, 1⟩
      s.odStep ch black (s.od.init || f.bad != 0) e.1 f.val (s.pixelTemp e.2 y))
    let r := step 0 d.r
    let g := step 1 d.g
    let b := step 2 d.b
    let m := ((List.zip d.m mono).zipIdx).map (fun (e : (Nat × Fetched) × Nat) =>
      s.odStep 3 black (s.od.init || e.1.2.bad != 0) e.1.1 e.1.2.val (s.pixelTemp (s.inFront e.2) y))
    let o : DriveLine := ⟨r.map (·.drive), g.map (·.drive), b.map (·.drive), m.map (·.drive)⟩
    let bytes := (List.zip r (List.zip g b)).flatMap (fun e => [odByte e.1.next, odByte e.2.1.next, odByte e.2.2.next])
    let s := s.odStore (3 * s.hact * y) bytes
    let s := s.odStore (odMso s.hact s.vact + s.wm * y) (m.map (fun e => odByte e.next))
    ({ s with od := { s.od with lines := Cells.set (fun _ => ([], [])) s.od.lines y ([], []) } }, o)

/-- OD at a boundary (R240, R245): `changed` when the state handle, the active size, DUAL or MONO_HALF changed or OD was
enabled; `period` is the planned period of the frame that starts. -/
def State.odBoundary (s : State) (changed : Bool) (period : Nat) : State :=
  let on := s.unitOn 0x62
  let need := s.od.needInit || changed
  let init := on && need
  let s := (s.bumpIf init Reg.OD_INIT_FRAMES).put Reg.OD_STATUS_INIT (b2n init)
  { s with od := { s.od with
      lines := [], next := 0, needInit := need && !on, init := init, dbin := s.odDbin period
      probeX := s.fld Reg.OD_PROBE_X, probeY := s.fld Reg.OD_PROBE_Y, probeCh := s.fld Reg.OD_PROBE_CH } }

/-- CMD is written (R245). -/
def State.odCmd (s : State) (w : Word) : State :=
  if w.toNat % 2 = 0 then s else { s with od := { s.od with needInit := true } }

/-- Accesses to the load bank (R242). -/
def State.odChannel (s : State) : Nat := min 4 (s.fld Reg.OD_ADDR_CH)

def State.odRead (s : State) : State × Word :=
  let i := actIndex 9247 (s.fld Reg.OD_ADDR_INDEX)
  let ch := s.odChannel
  let (s, v) := s.bankRd16 35 ownPix (odIndex (1 - s.fldA Reg.OD_CFG_BANK) (if ch = 4 then 0 else ch) (s.fld Reg.OD_ADDR_LUT) i)
  (s.put Reg.OD_ADDR_INDEX (nextIndex 9247 i), BitVec.ofNat 32 v)

def State.odWrite (s : State) (w : Word) : State :=
  if s.switching Reg.OD_CFG_BANK then s.bump Reg.OD_BUSY_CNT
  else
    let i := actIndex 9247 (s.fld Reg.OD_ADDR_INDEX)
    let ch := s.odChannel
    let lut := s.fld Reg.OD_ADDR_LUT
    let s := s.each (if ch = 4 then [0, 1, 2] else [ch]) (fun c s =>
      s.bankWr16 35 ownPix (odIndex (1 - s.fldA Reg.OD_CFG_BANK) c lut i) (w.toNat % 65536))
    s.put Reg.OD_ADDR_INDEX (nextIndex 9247 i)

def State.odStatus (s : State) : Word :=
  Reg.OD_STATUS_SWITCH_PENDING.put (s.rd (Reg.HDR_STATUS 0x62)) (b2n (s.switching Reg.OD_CFG_BANK))

/-! Sensors (R249, R250). -/

def State.sensor (s : State) (n : Nat) : Sensor := Cells.get (fun _ => Sensor.atReset) s.thm.sens n
def State.setSensor (s : State) (n : Nat) (x : Sensor) : State :=
  { s with thm := { s.thm with sens := Cells.set (fun _ => Sensor.atReset) s.thm.sens n x } }

def State.convAt (s : State) (k : Nat) : Int := sext 16 (Cells.get convInit s.thm.conv k).toNat

/-- The code of a sensor and its temperature (R249). -/
def Sensor.code (x : Sensor) : Nat := if x.codes.isEmpty then 0 else divHalfUp x.codes.sum x.codes.length
def State.codeTemp (s : State) (code : Nat) : Int :=
  let k := code / 128
  let f : Int := ((code % 128 : Nat) : Int)
  s.convAt k + (f * (s.convAt (k + 1) - s.convAt k) + 64) / 128

/-- Whether a sensor is treated as faulted (R250). -/
def State.sensorBad (s : State) (n : Nat) : Bool :=
  (s.sensor n).fault || !bit (s.fld Reg.THERM_CFG_SENS_EN) n

/-- STATUS.SENS_FAULT and ALL_FAULT follow the sensors (R250). -/
def State.sensReport (s : State) : State :=
  let m := (List.range 4).foldl (fun a n => a + (if s.sensorBad n then 2 ^ n else 0)) 0
  let was := s.flag Reg.THERM_STATUS_ALL_FAULT
  let s := (s.put Reg.THERM_STATUS_SENS_FAULT m).put Reg.THERM_STATUS_ALL_FAULT (b2n (m == 15))
  s.raiseIf (m == 15 && !was) 0x63 1

/-- CFG is written: STATUS follows SENS_EN at once (R250). -/
def State.thermCfg (s : State) (w : Word) : State := (s.wr Reg.THERM_CFG (w &&& 0xF1)).sensReport

/-- The ADC ends a conversion (R249, R250). -/
def State.adcDone (s : State) (code : Nat) : State :=
  if !s.domOn 9 then s
  else
    let n := s.thm.turn % 4
    let s : State := { s with thm := { s.thm with turn := (n + 1) % 4 } }
    let x := s.sensor n
    let good := s.fld Reg.THERM_ADC_LIM_LO ≤ code && code ≤ s.fld Reg.THERM_ADC_LIM_HI
    let (x, new) : Sensor × Bool :=
      if good then
        if x.fault then
          let run := x.goodRun + 1
          let codes := code :: x.codes
          if 16 ≤ run then (⟨codes.take 16, true, 0, 0, false⟩, false)
          else ({ x with goodRun := run, codes := codes.take 16, badRun := 0 }, false)
        else
          let codes := (code :: x.codes).take 16
          (⟨codes, x.full || codes.length == 16, 0, 0, false⟩, false)
      else if x.fault then ({ x with goodRun := 0, codes := [] }, false)
      else if x.badRun + 1 = 4 then ({ x with badRun := 4, goodRun := 0, fault := true, codes := [] }, true)
      else ({ x with badRun := x.badRun + 1 }, false)
    let s := s.setSensor n x
    let reg := Reg.THERM_SENS0 + 4 * n
    let s := if x.fault || x.codes.isEmpty then s.put ⟨reg, 31, 1⟩ (b2n x.fault)
      else
        let c := x.code
        s.wrN reg (toField 16 (s.codeTemp c) + 65536 * c)
    let en := bit (s.fld Reg.THERM_CFG_SENS_EN) n
    let s := (s.bumpIf (new && en) Reg.THERM_SENS_FAULT).raiseIf (new && en) 0x63 0
    s.sensReport

/-- D9 has come ON: the sequence starts again with THERM0 (R249). -/
def State.adcRestart (s : State) : State := { s with thm := { s.thm with turn := 0 } }

/-! The regional update (R251 to R254). -/

/-- The temperatures S0 to S3 after R250. -/
def State.sensTemps (s : State) : List Int :=
  let temp := fun (n : Nat) => sext 16 (s.fld ⟨Reg.THERM_SENS0 + 4 * n, 0, 16⟩)
  let good := (List.range 4).filter (fun n => !s.sensorBad n)
  let mean : Int :=
    if good.isEmpty then sext 16 (s.fld ⟨Reg.THERM_T_DEFAULT, 0, 16⟩)
    else (2 * (good.map temp).sum + good.length) / (2 * (good.length : Int))
  (List.range 4).map (fun n => if s.sensorBad n then mean else temp n)

/-- G as it acts (R251). -/
def gainAct (g : Sample) : Frac :=
  if isNaN16 g ∨ 0x8000 ≤ g.toNat then Frac.zero else if 0x5400 < g.toNat then Frac.ofNat 64 else val16 g

def State.heatAt (s : State) (r : Nat) : Int := sext 32 (Cells.get (fun _ => 0) s.thm.heat r).toNat
def State.ofsAt (s : State) (r : Nat) : Int := sext 16 (Cells.get (fun _ => 0) s.thm.ofs r).toNat

/-- A word of a 16-bit signed element, sign-extended. -/
def signed16 (v : Int) : Word := BitVec.ofNat 32 (toField 32 v)

/-- COMMIT is written (R252). -/
def State.thermCommit (s : State) (w : Word) : State :=
  if w.toNat % 2 = 0 then s
  else { s.put Reg.THERM_STATUS_COMMIT_PENDING 1 with thm := { s.thm with committed := true } }

/-- The control core's update for the output frame that ended (R251, R253): TIMEBASE at its end, `period` in ticks. -/
def State.thermUpdate (s : State) : State :=
  match s.thm.ended with
  | none => s
  | some (now, period) =>
    if s.flag Reg.THERM_CFG_SRC || !s.coreRunning then
      { s with thm := { s.thm with behind := true } }
    else
      let s0 := s.sensTemps
      let t := fun k => s0.getD k 0
      -- Δt in ns: the frame's period, or after a gap the time since the end of the last frame processed
      let dt : Frac := match s.thm.behind, s.thm.lastEnd with
        | true, some l => ⟨((now - l) * 1000 : Nat), 1⟩
        | _, _ => ⟨(period : Nat), ticksPerNs⟩
      let tau : Frac := ⟨(clampNat 1000 600000 (s.fld ⟨Reg.THERM_TAU, 0, 20⟩) * 1000000 : Nat), 1⟩
      let k := Frac.div dt (Frac.add tau dt)
      let g := gainAct (BitVec.ofNat 16 (s.fld Reg.THERM_MODEL_G))
      let pend := s.flag Reg.THERM_STATUS_COMMIT_PENDING
      let s := s.each (List.range 144) (fun r s =>
        let rx : Int := ((r % 16 : Nat) : Int)
        let ry : Int := ((r / 16 : Nat) : Int)
        let tb := ((15 - rx) * (8 - ry) * t 0 + rx * (8 - ry) * t 1 + (15 - rx) * ry * t 2 + rx * ry * t 3 + 60) / 120
        let hss := Frac.mul g (Frac.mul (val16 (s.zon.power.getD r 0)) (Frac.ofNat 4096))
        let h := s.heatAt r
        let h := clampInt (-(2 ^ 31)) (2 ^ 31 - 1) (h + Frac.roundInt (Frac.mul (Frac.sub hss (Frac.ofInt h)) k))
        let v := clampInt (-32768) 32767 (tb + s.ofsAt r + (h + 128) / 256)
        let heat := Cells.set (fun _ => 0) s.thm.heat r (BitVec.ofNat 32 (toField 32 h))
        let pd := if pend then s.thm.pend else Cells.set (fun _ => thermInit) s.thm.pend r (signed16 v)
        { s with thm := { s.thm with heat := heat, pend := pd } })
      let s := s.bumpBy (wholeFld Reg.THERM_PEND_DROP) (if pend then 144 else 0)
      let s : State := { s with thm := { s.thm with lastEnd := some now, ended := none, behind := false } }
      s.thermCommit 1

/-- THERM at a boundary (R252, R253): `ended` when an output frame ended, with its FRAME_NO and period; `no` is the
FRAME_NO of the frame that starts. -/
def State.thermBoundary (s : State) (ended : Option (Nat × Nat)) (no : Nat) : State :=
  let s : State := if s.flag Reg.THERM_STATUS_COMMIT_PENDING then
      { (s.put Reg.THERM_STATUS_COMMIT_PENDING 0).wrN Reg.THERM_UPDATE_FRAME no with thm := { s.thm with act := s.thm.pend } }
    else s
  match ended with
  | none => { s with thm := { s.thm with committed := false } }
  | some e =>
    let hold := !s.thm.committed && !s.flag Reg.THERM_CFG_SRC
    let s := (s.bumpIf hold Reg.THERM_HOLD_FRAMES).raiseIf (hold && !s.thm.holding) 0x63 2
    { s with thm := { s.thm with committed := false, holding := hold, ended := some (s.timebase, e.2), behind := s.thm.behind || s.thm.ended.isSome } }

/-! The arrays (R256). -/

def State.regIndex (s : State) : Nat := actIndex 143 (s.fld Reg.THERM_REG_ADDR_INDEX)
def State.regStep (s : State) (i : Nat) : State := s.put Reg.THERM_REG_ADDR_INDEX (nextIndex 143 i)

def State.regDataRead (s : State) : State × Word :=
  let i := s.regIndex
  let ext := fun (w : Word) => signed16 (sext 16 w.toNat)
  let w : Word := match s.fld Reg.THERM_REG_ADDR_SEL with
    | 0 => ext (Cells.get (fun _ => thermInit) s.thm.act i)
    | 1 => ext (Cells.get (fun _ => thermInit) s.thm.pend i)
    | 2 => Cells.get (fun _ => 0) s.thm.ofs i &&& 0xFFFF
    | 3 => Cells.get (fun _ => 0) s.thm.heat i
    | 4 => (s.zon.power.getD i 0).setWidth 32
    | _ => 0
  (s.regStep i, w)

def State.regDataWrite (s : State) (w : Word) : State :=
  let i := s.regIndex
  let half : Word := w &&& 0xFFFF
  let s : State := match s.fld Reg.THERM_REG_ADDR_SEL with
    | 1 =>
      if s.flag Reg.THERM_STATUS_COMMIT_PENDING || !s.flag Reg.THERM_CFG_SRC then s.bump Reg.THERM_PEND_DROP
      else { s with thm := { s.thm with pend := Cells.set (fun _ => thermInit) s.thm.pend i (signed16 (sext 16 half.toNat)) } }
    | 2 => { s with thm := { s.thm with ofs := Cells.set (fun _ => 0) s.thm.ofs i half } }
    | 3 => { s with thm := { s.thm with heat := Cells.set (fun _ => 0) s.thm.heat i w } }
    | _ => s
  s.regStep i

def State.convIndex (s : State) : Nat := actIndex 32 (s.fld ⟨Reg.THERM_CONV_ADDR, 0, 6⟩)

def State.convRead (s : State) : State × Word :=
  let i := s.convIndex
  (s.put ⟨Reg.THERM_CONV_ADDR, 0, 6⟩ (nextIndex 32 i), BitVec.ofNat 32 (toField 16 (s.convAt i)))

def State.convWrite (s : State) (w : Word) : State :=
  let i := s.convIndex
  let s : State := { s with thm := { s.thm with conv := Cells.set convInit s.thm.conv i (w &&& 0xFFFF) } }
  s.put ⟨Reg.THERM_CONV_ADDR, 0, 6⟩ (nextIndex 32 i)

end Sys2Proof.Machine
end

