-- ==== Sys2Proof/Machine/Dither.lean ====
section
/-! DEFINITION. DITH (R257 to R268): reduction to the drivers' depth, the threshold matrix, roll, polarity and the
shadow lane. -/

namespace Sys2Proof.Machine

/-- The shift of a depth code (R257, R268): 8-, 10- or 12-bit drivers. -/
def depthShift (code : Nat) : Nat := if code = 0 then 8 else if code = 1 then 6 else 4

/-- The code of N = 16 − s bits (R257). -/
def ditherCode (s d ts : Nat) : Nat :=
  let q := d / 2 ^ s
  min (if ts < d % 2 ^ s then q + 1 else q) (2 ^ (16 - s) - 1)

/-- The frame count n and the entry of the roll table in use (R261, R262). -/
def State.phaseN (s : State) : Nat := s.fld Reg.DITH_PHASE_N
def State.rollEntry (s : State) : Nat :=
  let p := 2 ^ min 4 (s.fldA Reg.DITH_CFG_PLOG)
  (if s.flagA Reg.DITH_CFG_BALANCE then s.phaseN / 2 else s.phaseN) % p

/-- POL of a line (R263). -/
def State.polarity (s : State) (y : Nat) : Nat :=
  match s.fldA Reg.DITH_CFG_INV with
  | 1 => (s.phaseN + y) % 2
  | 2 => (s.phaseN + y / 2) % 2
  | _ => s.phaseN % 2

/-- The 16-bit entry index in B37 of an entry of a RAM bank (R260). -/
def ditherIndex (bank i : Nat) : Nat := 0x20000 + bank * 0x1000 + i

/-- The values of a list in the order that a choice gives: at each place, one of those not yet taken. -/
def arrange (choose : Nat → Nat) : Nat → List Nat → List Nat
  | 0, _ => []
  | n + 1, l =>
    let i := choose n % l.length
    l.getD i 0 :: arrange choose n (l.eraseIdx i)

/-- The ROM matrix: each value from 0 to 4,095 exactly once, in an order that the spec does not give (R260). -/
def romMatrix : List Nat := arrange Config.romOrder 4096 (List.range 4096)

/-- An entry of the ROM matrix. -/
def romAt (i : Nat) : Nat := romMatrix.getD i 0

/-- An entry of the matrix in use (R260). -/
def State.matrixAt (s : State) (i : Nat) : Nat :=
  if s.flagA Reg.DITH_CFG_MSRC then s.pixSram16 37 (ditherIndex (s.fldA Reg.DITH_CFG_BANK) i) % 4096
  else romAt i

/-- The plane offsets ox, oy, ox_r (R259). -/
def planeOffset (plane : Nat) : Nat × Nat × Nat :=
  if plane = 0 then (0, 0, 0) else if plane = 1 then (21, 43, 5) else if plane = 2 then (43, 21, 10) else (32, 32, 15)

/-- tau of R259. -/
def State.tau (s : State) (plane x y : Nat) : Nat :=
  let e := s.rollEntry
  let w := s.fldA ⟨Reg.DITH_ROLL0 + 4 * (e / 2), 16 * (e % 2), 16⟩
  let (ox, oy, oxr) := planeOffset (if s.flagA Reg.DITH_CFG_DECOR then plane else 0)
  let row := (y + bits w 6 6 + oy) % 64
  let col := (x + bits w 0 6 + ox) % 64
  s.matrixAt (64 * row + col) ^^^ ((bits w 12 4 ^^^ oxr) * 256)

/-- ts of a subpixel (R257, R258). -/
def State.ditherTs (s : State) (sh plane x y : Nat) : Nat :=
  if s.unitOn 0x64 then s.tau plane x y / 2 ^ (12 - sh) else 2 ^ (sh - 1) - 1

def State.shiftC (s : State) : Nat := depthShift (s.fldA Reg.DITH_CFG_DEPTH_C)
def State.shiftM (s : State) : Nat := depthShift (s.fldA Reg.DITH_CFG_DEPTH_M)

/-- DITH's probe (R268). -/
def State.ditherProbe (s : State) (y : Nat) (d o : DriveLine) : State :=
  let x := s.dit.probeX
  let ch := if 4 ≤ s.dit.probeCh then 0 else s.dit.probeCh
  if s.dit.probeY = y ∧ x < s.hact ∧ ¬(ch = 3 ∧ !s.dual) then
    let k := if ch = 3 ∧ s.monoHalf then x / 2 else x
    let pick := fun (l : DriveLine) =>
      if ch = 0 then l.r.getD k 0 else if ch = 1 then l.g.getD k 0 else if ch = 2 then l.b.getD k 0 else l.m.getD k 0
    let sh := if ch = 3 then s.shiftM else s.shiftC
    let on := s.unitOn 0x64
    -- with EN 0 no threshold is read, and what the field shows is not stated
    let s := s.wrN Reg.DITH_PROBE_IN (pick d + 65536 * (if on then s.tau ch k y else s.free.toNat % 4096))
    let s := if on then s else s.used
    let s := s.wrN Reg.DITH_PROBE_OUT (pick o + 2 ^ 12 * s.polarity y + 2 ^ 16 * s.rollEntry + 2 ^ 20 * (s.ditherTs sh ch k y % 256))
    (s.wr Reg.DITH_PROBE_FRAME (s.rd Reg.TIMING_FRAME_NO)).raise 0x64 1
  else s

/-- The shadow lane's column c (R265). -/
def shadowCol : Fld := ⟨Reg.DITH_SHADOW_COL, 0, 13⟩

/-- The width of the values compared at a stage boundary (R266): PATCH, DEFECT and OD drive codes, OD's state, and the
code of DITH. -/
def State.shadowWidth (s : State) (stage plane : Nat) : Nat :=
  if stage = 4 then 8 else if stage = 5 then 16 - (if plane = 3 then s.shiftM else s.shiftC) else 16

/-- Where the two copies of the arithmetic differ in a line, if they do: the first stage in the order of R266 and the
plane. Both compute the same function of the same inputs (R265), so that their values differ by what an arithmetic
fault in one of them adds: `faults` has the exclusive-or of the two values for stage k and plane p at 4 (k − 1) + p. -/
def State.shadowDiffers (s : State) (faults : List Nat) : Option (Nat × Nat) :=
  ((List.range 20).find? (fun i =>
    (i % 4 != 3 || s.dual) && faults.getD i 0 % 2 ^ s.shadowWidth (i / 4 + 1) (i % 4) != 0)).map (fun i => (i / 4 + 1, i % 4))

/-- The shadow lane compares column c of line y (R265, R266): a line in which a value differs counts once, is recorded
when it is the first, and is raised. -/
def State.shadowLine (s : State) (y : Nat) (faults : List Nat) : State :=
  if s.flag Reg.DITH_SHADOW_CFG_EN && decide (s.fld shadowCol < s.hact) then
    let s := s.bump Reg.DITH_SHADOW_LINES
    let s : State := { s with dit := { s.dit with compared := s.dit.compared + 1 } }
    match s.shadowDiffers faults with
    | none => s
    | some (stage, plane) =>
      let s := s.bump Reg.DITH_SHADOW_ERR
      let s : State := { s with dit := { s.dit with differs := true } }
      let s := if s.flag Reg.DITH_SHADOW_FIRST1_VALID then s
        else ((s.wrN Reg.DITH_SHADOW_FIRST0 (s.fld shadowCol + 65536 * y)).wrN Reg.DITH_SHADOW_FIRST1
          (stage + 16 * plane + 256)).wr Reg.DITH_SHADOW_FRAME (s.rd Reg.TIMING_FRAME_NO)
      s.raise 0x64 0
  else s

/-- DITH processes line y; `faults` is as in `shadowDiffers`. -/
def State.ditherLine (s : State) (y : Nat) (d : DriveLine) (faults : List Nat) : State × DriveLine :=
  let red := fun (sh plane : Nat) (l : List Nat) => (l.zipIdx).map (fun (e : Nat × Nat) =>
    ditherCode sh e.1 (s.ditherTs sh plane e.2 y))
  let o : DriveLine := ⟨red s.shiftC 0 d.r, red s.shiftC 1 d.g, red s.shiftC 2 d.b,
    if s.dual then red s.shiftM 3 d.m else []⟩
  ((s.ditherProbe y d o).shadowLine y faults, o)

/-- DITH at a boundary (R261, R262, R265): n moves on, PHASE shows the entry and POL of line 0, the shadow lane's
column moves on. A domain that is not ON counts no frame: PHASE is restored as it was saved, or is 0 (R8, R261). -/
def State.ditherBoundary (s : State) : State :=
  if !s.domOn 9 then { s with dit := { s.dit with compared := 0, differs := false } }
  else
  let s := s.put Reg.DITH_PHASE_N (s.phaseN + 1)
  let s := (s.put ⟨Reg.DITH_PHASE, 8, 4⟩ s.rollEntry).put Reg.DITH_PHASE_POL (s.polarity 0)
  let s := s.put Reg.DITH_STATUS_RAM_ACTIVE (s.fldA Reg.DITH_CFG_MSRC)
  let stride := max 1 (s.fld Reg.DITH_SHADOW_CFG_STRIDE)
  let s := if s.flag Reg.DITH_SHADOW_CFG_EN && s.hact != 0 then s.put shadowCol ((s.fld shadowCol + stride) % s.hact) else s
  { s with dit := ⟨s.fld Reg.DITH_PROBE_X, s.fld Reg.DITH_PROBE_Y, s.fld Reg.DITH_PROBE_CH, 0, false⟩ }

/-- Whether a changed BANK or MSRC is pending (R260). -/
def State.ditherSwitching (s : State) : Bool := s.switching Reg.DITH_CFG_BANK || s.switching Reg.DITH_CFG_MSRC

/-- Accesses to the load bank and the ROM matrix (R260). -/
def State.ditherRead (s : State) : State × Word :=
  let i := s.fld Reg.DITH_ADDR_INDEX
  let (s, v) : State × Nat :=
    if s.flag Reg.DITH_ADDR_ROM then (s, romAt i)
    else
      let (s, v) := s.bankRd16 37 ownPix (ditherIndex (1 - s.fldA Reg.DITH_CFG_BANK) i)
      (s, v % 4096)
  (s.put Reg.DITH_ADDR_INDEX (nextIndex 4095 i), BitVec.ofNat 32 v)

def State.ditherWrite (s : State) (w : Word) : State :=
  if s.ditherSwitching || s.flag Reg.DITH_ADDR_ROM then s.bump Reg.DITH_BUSY_CNT
  else
    let i := s.fld Reg.DITH_ADDR_INDEX
    let s := s.bankWr16 37 ownPix (ditherIndex (1 - s.fldA Reg.DITH_CFG_BANK) i) (w.toNat % 4096)
    s.put Reg.DITH_ADDR_INDEX (nextIndex 4095 i)

def State.ditherStatus (s : State) : Word :=
  Reg.DITH_STATUS_SWITCH_PENDING.put (s.rd (Reg.HDR_STATUS 0x64)) (b2n s.ditherSwitching)

end Sys2Proof.Machine
end

