-- ==== Sys2Proof/Machine/Edl.lean ====
section
/-! DEFINITION. EDL, its partner table, its ports and its return buses (R269 to R310). -/

namespace Sys2Proof.Machine

/-! The partner table (R307): word w of entry e is kept at an address of its own. -/

def Reg.PARTNER_W (e w : Nat) : Nat := 0x5000000 + 16 * e + 4 * w

/-- An entry as it stands in some words: the RO words of the table and word 1 of the set asked for. -/
structure Partner where
  pid : Nat
  w0 : Nat
  w1 : Nat
  deriving DecidableEq, Repr

def Partner.port (p : Partner) : Nat := bits p.w0 0 6
def Partner.pos (p : Partner) : Nat := bits p.w0 6 6
/-- 0 colour, 1 mono, 2 LED, 3 none. -/
def Partner.kind (p : Partner) : Nat := bits p.w0 12 2
def Partner.valid (p : Partner) : Bool := bit p.w0 14
def Partner.absent (p : Partner) : Bool := bit p.w0 15
def Partner.prbs (p : Partner) : Bool := bit p.w0 16
def Partner.depths (p : Partner) : Nat := bits p.w0 17 3
def Partner.outputs (p : Partner) : Nat := bits p.w0 20 12
def Partner.col0 (p : Partner) : Nat := bits p.w1 0 13
def Partner.dir (p : Partner) : Bool := bit p.w1 13
def Partner.bgr (p : Partner) : Bool := bit p.w1 14
def Partner.half (p : Partner) : Nat := bits p.w1 15 1
def Partner.nout (p : Partner) : Nat := bits p.w1 16 12
def Partner.zoneBase (p : Partner) : Nat := bits p.w1 0 14
def Partner.zw (p : Partner) : Nat := bits p.w1 14 7
def Partner.zh (p : Partner) : Nat := bits p.w1 21 7
def Partner.en (p : Partner) : Bool := bit p.w1 31

/-- The entry of an ID, word 1 from the active configuration. -/
def State.partner (s : State) (e : Nat) : Partner :=
  ⟨e, (s.rd (Reg.PARTNER_W e 0)).toNat, (s.rdA (Reg.PARTNER_W e 1)).toNat⟩

/-- The entries that have an ID assigned, in order. -/
def State.partners (s : State) : List Partner :=
  ((List.range 1024).map s.partner).filter (·.valid)

/-! Ports. -/

def State.edlPort (s : State) (p : Nat) : EdlPort := Cells.get (fun _ => EdlPort.atReset) s.edl.ports p
def State.setEdlPort (s : State) (p : Nat) (x : EdlPort) : State :=
  { s with edl := { s.edl with ports := Cells.set (fun _ => EdlPort.atReset) s.edl.ports p x } }
def State.portState (s : State) (p : Nat) : Nat := s.fld (Reg.EDL_PORT_STATE_STATE p)
def State.setPortState (s : State) (p st : Nat) : State := s.put (Reg.EDL_PORT_STATE_STATE p) st

def portOFF : Nat := 0
def portTRAINING : Nat := 1
def portENUM : Nat := 2
def portUP : Nat := 3
def portWAIT : Nat := 4
def portFAILED : Nat := 5

def State.portIsUp (s : State) (p : Nat) : Bool := s.portState p == portUP

/-- The page of a port and of a return bus. -/
def portPage (p : Nat) : Nat := 0xA0 + p
def busPage (g : Nat) : Nat := 0xE0 + g

/-- KIND as it acts (R269). -/
def kindAct (k : Nat) : Nat := if k = 3 then 0 else k
def State.portKind (s : State) (p : Nat) : Nat := (s.edlPort p).kind

/-- The rate of an EDL lane in Mbit/s by its code (R29). -/
def edlMbps (c : Nat) : Nat := [1600, 3200, 6400, 8000, 10000, 12800, 16000].getD c 16000

/-- Ticks of one 66-bit block on a port (R31). -/
def State.blockTicks (s : State) (p : Nat) : Nat :=
  ceilDiv (66 * 256000) (edlMbps (s.fld (Reg.PHY_RATE_CUR (phyBase (laneEdl p)))))

/-! Blocks (R271, R272). -/

def ctIdle : Nat := 0x1E
def ctLstart : Nat := 0x2D
def ctSync : Nat := 0x33
def ctCmd : Nat := 0x4B
def ctPoll : Nat := 0x55
def ctTrain : Nat := 0x66

/-- The payload of a control block: CTYPE, the body, the CRC-8. -/
def controlBlock (ctype body : Nat) : Nat :=
  let l := BitVec.ofNat 8 ctype :: leBytes 6 body
  leVal l + 2 ^ 56 * crc8 l

/-! What a port sends next (R295). -/

/-- The first of the waiting items by place and order, ties by age, and those left. -/
def firstItem (q : List EdlItem) : Option (EdlItem × List EdlItem) :=
  match q with
  | [] => none
  | x :: l =>
    let i := l.foldl (fun a e => if e.place < a.place || (e.place == a.place && e.key < a.key) then e else a) x
    some (i, q.erase i)

/-- What a port turns to: a SYNC block that waits, else the packet in progress, else the first item; a burst in progress ends
when anything else is due (R295, R303). -/
def EdlPort.turn (x : EdlPort) : Option (EdlItem × EdlPort) :=
  let prog := match x.prog with
    | some i => if i.place = 8 && !x.queue.isEmpty then none else some i
    | none => none
  match x.queue.find? (fun i => i.place == 1) with
  | some i => some (i, { x with queue := x.queue.erase i, prog := prog })
  | none => match prog with
    | some i => some (i, { x with prog := none })
    | none => (firstItem x.queue).map (fun a => (a.1, { x with queue := a.2, prog := none }))

/-- The payload of a block that ends at an instant: a SYNC block takes its DELAY from there (R279). -/
def EdlItem.payload (i : EdlItem) (w fin : Nat) : Nat :=
  match i.names with
  | none => w
  | some t => controlBlock ctSync (w + 4 * min (2 ^ 20 - 1) ((t - fin) / ticksPerNs))

/-- The next block of an item leaves a port at an instant; a SYNC block stands beside the packet in progress. -/
def State.portBlock (s : State) (p at' : Nat) (i : EdlItem) (x : EdlPort) : State :=
  match i.blocks with
  | [] => s.setEdlPort p x
  | b :: rest =>
    let fin := at' + i.hold + s.blockTicks p
    let left : Option EdlItem := if rest.isEmpty then x.prog else some { i with hold := 0, blocks := rest }
    (s.setEdlPort p { x with free := fin, prog := left }).edlSend p b.1 (i.payload b.2 fin)

/-- A port sends block after block while it is to go on: by what it holds and the instant of the next block's start, which
is no earlier than `floor`. The fuel is at least the number of blocks. -/
def State.portRun (p floor : Nat) (go : EdlPort → Nat → Bool) : Nat → State → State
  | 0, s => s
  | n + 1, s =>
    let x := s.edlPort p
    let at' := max floor x.free
    if go x at' then
      match x.turn with
      | none => s
      | some (i, y) => (s.portBlock p at' i y).portRun p floor go n
    else s

/-- How many blocks and items wait on a port. -/
def EdlPort.load (x : EdlPort) : Nat :=
  (x.queue.map (fun i => i.blocks.length + 1)).sum + (match x.prog with | some i => i.blocks.length + 1 | none => 0)

/-- A port has sent the blocks whose start lies before now. -/
def State.portDrain (s : State) (p : Nat) : State :=
  s.portRun p 0 (fun _ t => decide (t < s.now)) (s.edlPort p).load

/-- Whether a port has nothing to send and has sent its last block. -/
def State.portIdle (s : State) (p : Nat) : Bool :=
  let x := (s.portDrain p).edlPort p
  x.queue.isEmpty && x.prog.isNone && decide (x.free ≤ s.now)

/-- Something waits on a port, which sends what is due by now. -/
def State.portPush (s : State) (p : Nat) (i : EdlItem) : State :=
  let s := s.portDrain p
  let x := s.edlPort p
  let s := s.setEdlPort p { x with queue := x.queue ++ [i] }
  s.portRun p s.now (fun _ t => decide (t ≤ s.now)) (s.edlPort p).load

/-- What waits on a port is dropped. -/
def State.portClear (s : State) (p : Nat) : State :=
  let s := s.portDrain p
  s.setEdlPort p { s.edlPort p with queue := [], prog := none }

/-- Blocks leave a port at once, after the one it is sending: training (R296). -/
def State.portSend (s : State) (p : Nat) (l : List (Nat × Nat)) : State :=
  let x := s.edlPort p
  (s.setEdlPort p { x with free := max s.now x.free + l.length * s.blockTicks p }).each l (fun b s => s.edlSend p b.1 b.2)

/-- A control block waits on a port at a place of R295. -/
def State.portControl (s : State) (p place ctype body : Nat) : State :=
  s.portPush p ⟨place, 0, 0, none, [(2, controlBlock ctype body)]⟩

/-- A CMD block (R285), of EDL itself (place 6) or of the host (7). -/
def State.portCmd (s : State) (p place pid : Nat) (rd enum : Bool) (addr data tag : Nat) : State :=
  s.portControl p place ctCmd (pid % 2048 + (if rd then 2 ^ 11 else 0) + (if enum then 2 ^ 12 else 0) + 2 ^ 13 * (addr % 4096)
    + 2 ^ 25 * (data % 65536) + 2 ^ 41 * (tag % 128))

/-- A packet: LSTART and its data blocks, with the CRC-16 that an injection corrupts (R275, R465). -/
def State.packetBlocks (s : State) (body : Nat) (payload : List Byte) : State × List (Nat × Nat) :=
  let (hurt, s) := s.injCrc 1
  let c := crc16 (leBytes 6 body ++ payload)
  let c := if hurt then c ^^^ (1 + s.free.toNat % 65535) else c
  let s := if hurt then s.used else s
  let data := payload ++ [BitVec.ofNat 8 (c / 256), BitVec.ofNat 8 (c % 256)]
  (s, (2, controlBlock ctLstart body) :: (chunks 8 data).map (fun b => (1, leVal b)))

/-! Line packets (R274 to R276, R295, R300). -/

/-- Codes of n bits packed as a little-endian bit stream (R72). -/
def packCodes (n : Nat) (l : List Nat) : List Byte :=
  leBytes (ceilDiv (l.length * n) 8) (l.foldr (fun c a => c % 2 ^ n + 2 ^ n * a) 0)

/-- The codes of a cell partner's outputs (R276). -/
def Partner.codes (p : Partner) (d : DriveLine) : List Nat :=
  let at' := fun (o : Nat) (l : List Nat) => if p.dir then (if p.col0 < o then 0 else l.getD (p.col0 - o) 0) else l.getD (p.col0 + o) 0
  (List.range p.nout).map (fun o =>
    if p.kind = 1 then at' o d.m
    else
      let ch := if p.bgr then 2 - o % 3 else o % 3
      at' (o / 3) (if ch = 0 then d.r else if ch = 1 then d.g else d.b))

/-- The half of the panel that holds a line (R269). -/
def State.halfOf (s : State) (y : Nat) : Nat := if y < s.vact / 2 then 0 else 1

/-- The line packets that a port holds, the one in progress among them. -/
def EdlPort.lines (x : EdlPort) : Nat := ((x.queue ++ x.prog.toList).filter (fun i => i.place == 3)).length

/-- The line packet of a line leaving DITH on one port (R295, R300). -/
def State.portLine (s : State) (p y : Nat) (d : DriveLine) (black rep : Bool) : State :=
  let e := s.partner (s.fldA (Reg.EDL_PORT_CFG_PID p))
  if s.portKind p != 1 || !e.en || e.half != s.halfOf y || e.nout == 0 then s
  else if !s.portIsUp p then s.bump (Reg.EDL_PORT_DROP_LINES p)
  else if 1 < e.kind then s
  else
    let s := s.portDrain p
    if 4 ≤ (s.edlPort p).lines then s.bump (Reg.EDL_PORT_DROP_LINES p)
    else
      let n := 16 - (if e.kind = 1 then s.shiftM else s.shiftC)
      let depth := if e.kind = 1 then s.fldA Reg.DITH_CFG_DEPTH_M else s.fldA Reg.DITH_CFG_DEPTH_C
      let payload := packCodes n (e.codes d)
      let body := e.pid + 2 ^ 11 * y + 2 ^ 24 * s.polarity y + (if black then 2 ^ 26 else 0) + (if rep then 2 ^ 28 else 0)
        + 2 ^ 30 * depth + 2 ^ 32 * payload.length
      let bp := s.flag Reg.PERTURB_EDL_BP_EN && s.fld Reg.PERTURB_EDL_BP_PORT == p
      let hold := if bp then s.fld Reg.PERTURB_EDL_BP_BLOCKS * s.blockTicks p else 0
      let s := if bp then s.injected else s
      let (s, l) := s.packetBlocks body payload
      s.portPush p ⟨3, 0, hold, none, l⟩

/-- A line leaves DITH (R276, R295). -/
def State.edlLine (s : State) (y : Nat) (d : DriveLine) (black rep : Bool) : State :=
  s.each (List.range 64) (fun p s => s.portLine p y d black rep)

/-! Level packets (R278, R283, R284, R299). -/

/-- The LED entries in use on a port. -/
def ledsOf (l : List Partner) (p : Nat) : List Partner :=
  l.filter (fun e => e.port == p && e.en && e.kind == 2)

/-- The channels of an entry that serve a zone row: channel and zone (R278). -/
def Partner.channels (e : Partner) (cols r : Nat) : List (Nat × Nat) :=
  let zw := max 1 e.zw
  ((List.range (min 64 (zw * e.zh))).map (fun c => (c, e.zoneBase + cols * (c / zw) + c % zw))).filter
    (fun x => x.2 / max 1 cols == r)

/-- The payload of a level packet: the mask and the codes in channel order. -/
def levelPayload (l : List (Nat × Nat)) : List Byte :=
  leBytes 8 (l.map (fun x => 2 ^ x.1)).sum ++ l.flatMap (fun x => leBytes 2 x.2)

/-- The blocks that leave a port before a level packet pushed now whose APPLY instant is `key`. -/
def EdlPort.ahead (x : EdlPort) (key : Nat) : Nat :=
  (((x.queue.filter (fun i => i.place < 4 || (i.place == 4 && i.key ≤ key))) ++ x.prog.toList).map (fun i => i.blocks.length)).sum

/-- A level packet waits on a port, by its APPLY instant, unless it could not leave before the instant given; whether it
does. `rep` marks a later showing (R274). -/
def State.levelPacket (s : State) (p pid row : Nat) (unaddr rep : Bool) (l : List (Nat × Nat)) (key : Nat) (limit : Option Nat) :
    State × Bool :=
  let payload := levelPayload l
  let s := s.portDrain p
  let blocks := 1 + ceilDiv (payload.length + 2) 8
  let fin := max s.now (s.edlPort p).free + ((s.edlPort p).ahead key + blocks) * s.blockTicks p
  if limit.any (fun t => decide (t < fin)) then (s, false)
  else
    let body := pid % 2048 + 2 ^ 11 * row + 2 ^ 25 + (if unaddr then 2 ^ 27 else 0) + (if rep then 2 ^ 28 else 0)
      + 2 ^ 32 * payload.length
    let (s, bl) := s.packetBlocks body payload
    (s.portPush p ⟨4, key, 0, none, bl⟩, true)

/-- The apply instant of a zone row (R182). -/
def State.applyAt (s : State) (r : Nat) : Nat :=
  s.tim.f + (s.rowBounds.getD (r + 1) 0 + s.fldA Reg.ZONE_SCAN_SETTLE_LINES) * s.linePeriod

/-- The code sent for a drive level: 0 in a dark showing (R102, R183), and until BL_RUN is reached (R317);
SAFE_LEVEL in Pawn mode (R459). -/
def State.sentCode (s : State) (d : Sample) : Nat :=
  if s.tim.dark || !s.pan.blRun then 0 else if s.pawn then s.fld ⟨Reg.EDL_SAFE_LEVEL, 0, 16⟩ else levelCode d

/-- The level packets of a solved row (R283). -/
def State.edlLevels (s : State) (r : Nat) : State :=
  let leds := s.partners
  s.each (List.range 64) (fun p s =>
    if s.portKind p != 2 || !s.portIsUp p then s
    else s.each (ledsOf leds p) (fun e s =>
      let ch := e.channels s.zoneCols r
      if ch.isEmpty then s
      else
        let l := ch.map (fun x => (x.1, s.sentCode (levelAt s.levels x.2).delta))
        let at' := s.applyAt r
        let (s, sent) := s.levelPacket p e.pid r false (s.tim.shows != 0) l at' (some (at' - 1000 * ticksPerNs))
        s.bumpIf (!sent) (Reg.EDL_PORT_LATE_LEVEL p)))

/-- The next zone row is solved, and its levels leave (R167, R283). -/
def State.solveAndSend (s : State) : State :=
  let q := s.zon.solved
  if s.zoneRows ≤ q then s else s.solveRow.edlLevels q

/-- A SYNC block that names an instant goes before all else; its DELAY runs from its own last bit (R279, R280). -/
def State.syncNames (s : State) (p t body : Nat) : State := s.portPush p ⟨1, 0, 0, some t, [(2, body)]⟩

/-- A SYNC APPLY leaves a port (R279). -/
def State.syncApply (s : State) (p t row : Nat) (dark all : Bool) : State :=
  s.syncNames p t (1 + 2 ^ 22 * (row % 128) + (if dark then 2 ^ 29 else 0) + (if all then 2 ^ 30 else 0))

/-- SYNC APPLY for a row on the ports that serve it (R283): lit at its apply instant, or dark at its dark band's. -/
def State.applyRow (s : State) (r : Nat) (dark : Bool) (t : Nat) : State :=
  let leds := s.partners
  s.each (List.range 64) (fun p s =>
    if s.portKind p == 2 && s.portIsUp p && (ledsOf leds p).any (fun e => !(e.channels s.zoneCols r).isEmpty) then
      s.syncApply p t r dark false
    else s)

/-- The global level of a frame without zones (R284), sent ahead of its boundary `f`: its packet, which has left before its
SYNC APPLY ALL for F does. `t` is what that boundary brings into force. -/
def State.globalSend (s t : State) (f : Nat) : State :=
  let code := t.sentCode (levelAt t.levels 0).delta
  s.each (List.range 64) (fun p s =>
    if s.portKind p != 2 || !s.portIsUp p then s
    else
      let s := (s.levelPacket p 0x7FF 0 false (t.tim.shows != 0) ((List.range 64).map (fun c => (c, code))) f none).1
      -- the block stands behind the packet it applies, not inside it
      s.portPush p ⟨4, f, 0, some f, [(2, 1 + (if t.tim.dark then 2 ^ 29 else 0) + 2 ^ 30)]⟩)

/-- Once per output frame, SAFE_LEVEL to parked partners (R299). -/
def State.parkedSend (s : State) : State :=
  let safe := s.fld ⟨Reg.EDL_SAFE_LEVEL, 0, 16⟩
  s.each (List.range 64) (fun p s =>
    if s.portKind p == 2 && s.portIsUp p && s.fld ⟨Reg.EDL_PORT_UNADDR p, 0, 7⟩ != 0 then
      (s.levelPacket p 0x7FF 0 true (s.tim.shows != 0) ((List.range 64).map (fun c => (c, safe))) s.now none).1
    else s)

/-! SYNC TIMING and FRAME (R279, R280). -/

/-- The pair sent ahead of a boundary at `f`, with what the coming frame is. -/
def State.syncFrame (s : State) (f no lp ofs : Nat) (nolines rep sref : Bool) : State :=
  s.each (List.range 64) (fun p s =>
    if s.portIsUp p then
      let s := s.portControl p 1 ctSync (2 + 4 * (lp % 2 ^ 24) + 2 ^ 26 * (ofs % 256))
      s.syncNames p f (2 ^ 22 * (no % 65536) + (if nolines then 2 ^ 38 else 0)
        + (if rep then 2 ^ 39 else 0) + (if sref then 2 ^ 40 else 0))
    else s)

/-! Training and enumeration (R296 to R301). -/

/-- Ports report their attempt. -/
def State.setAttempt (s : State) (p n : Nat) : State := s.put (Reg.EDL_PORT_STATE_ATTEMPT p) n

/-- A group of training patterns (R296 step 2): TRAIN PATTERN with SEQ, and 15 data blocks of zeros. -/
def patternGroup (seq : Nat) : List (Nat × Nat) :=
  (2, controlBlock ctTrain (1 + 2 ^ 8 * (seq % 2 ^ 16))) :: List.replicate 15 (1, 0)

/-- The scrambled blocks of `n` groups from SEQ `seq` on, newest first, and the scrambler after them. -/
def patternRun : Nat → Nat → Nat → List (List Nat) → List (List Nat) × Nat
  | 0, _, d, acc => (acc, d)
  | n + 1, seq, d, acc =>
    let (acc, d) := (patternGroup seq).foldl (fun (a : List (List Nat) × Nat) b =>
      let (w, d) := selfSyncRun 64 a.2 b.2
      ([b.1, b.2, w] :: a.1, d)) (acc, d)
    patternRun n (seq + 1) d acc

/-- Groups leave a port whose lane carries them, one after the other. -/
def State.sendPatterns (s : State) (p n seq : Nat) : State :=
  let l := laneEdl p
  if !s.laneCarries l then s
  else
    let r := patternRun n seq (s.lane l).lfsr []
    let s := s.mapLane l (fun x => { x with lfsr := r.2 })
    let s : State := { s with out := r.1.map (fun d => ⟨.edl, p, d⟩) ++ s.out }
    s.setEdlPort p { s.edlPort p with free := max s.now (s.edlPort p).free + 16 * n * s.blockTicks p }

/-- The patterns begin on a port whose lane is in L0 (R296 step 2): the first group. -/
def State.portPatterns (s : State) (p : Nat) : State :=
  (s.setEdlPort p { s.edlPort p with pattern := some s.now }).sendPatterns p 1 0

/-- The return bus of a group is up while it polls for a port that is neither OFF nor FAILED (R51, R59). -/
def State.busFollow (s : State) (g : Nat) : State :=
  let want := s.flag (Reg.RETBUS_CFG_EN g) && (List.range 4).any (fun i =>
    s.portState (4 * g + i) != portOFF && s.portState (4 * g + i) != portFAILED)
  s.laneProto (laneRet g) (if want then 0 else 2)

/-- A training attempt starts (R296, R300). -/
def State.portStart (s : State) (p attempt : Nat) : State :=
  let b := phyBase (laneEdl p)
  let s := s.put (Reg.PHY_RATE_CUR b) (min 6 (s.fld (Reg.PHY_RATE_MAX b)))
  let s := ((s.setAttempt p attempt).setPortState p portTRAINING).put (Reg.EDL_PORT_STATE_FOUND p) 0
  let s := s.portClear p
  let s := s.setEdlPort p { s.edlPort p with got := [], offer := none, misses := 0, since := s.now, pattern := none }
  let s := (s.laneProto (laneEdl p) 0).busFollow (p / 4)
  if s.laneInL0 (laneEdl p) then s.portPatterns p else s

/-- A port goes OFF (R300). -/
def State.portOff (s : State) (p : Nat) : State :=
  let s := ((s.portClear p).setAttempt p 0).setPortState p portOFF
  let s := s.put (Reg.EDL_PORT_STATE_FOUND p) 0
  let s := s.setEdlPort p { s.edlPort p with got := [], offer := none, misses := 0, pattern := none }
  ((s.put (Reg.PHY_RATE_CUR (phyBase (laneEdl p))) 0).laneProto (laneEdl p) 2).busFollow (p / 4)

/-- The walk ends when no port is training or enumerating (R297); the IDs that every port then holds, none for a port that
was given none, are its own when it retrains alone (R301). -/
def State.walkCheck (s : State) : State :=
  if s.edl.walking && !(List.range 64).any (fun p => s.portState p == portTRAINING || s.portState p == portENUM) then
    let s := s.each (List.range 64) (fun p s =>
      s.setEdlPort p { s.edlPort p with held := some ((s.edlPort p).held.getD (s.edlPort p).got) })
    { (s.put Reg.EDL_ENUM_STATUS_BUSY 0).raise 0x70 0 with edl := { s.edl with walking := false } }
  else s

/-- A port turns FAILED. -/
def State.portFail (s : State) (p : Nat) : State :=
  ((((s.portClear p).setPortState p portFAILED).laneProto (laneEdl p) 1).busFollow (p / 4)).raise (portPage p) 2

/-- An ID that was offered and not taken returns to the pointer (R298). -/
def State.offerBack (s : State) (p : Nat) : State :=
  let x := s.edlPort p
  let s := s.setEdlPort p { x with offer := none }
  match x.offer with
  | some id => if id < 0x7FE ∧ s.portKind p = 2 ∧ x.held.isNone then { s with edl := { s.edl with ptr := min s.edl.ptr id } } else s
  | none => s

/-- An attempt fails (R300): the lane sends IDLE. The ninth is the last. -/
def State.attemptFails (s : State) (p : Nat) : State :=
  let s := ((s.bump (Reg.EDL_PORT_TRAIN_FAILS p)).setPortState p portWAIT).offerBack p
  let s := (s.portClear p).setEdlPort p { (s.portClear p).edlPort p with pattern := none }
  let s := if s.laneInL0 (laneEdl p) then s.portControl p 9 ctIdle 0 else s
  (if 9 ≤ s.fld (Reg.EDL_PORT_STATE_ATTEMPT p) then s.portFail p else s).walkCheck

/-- SAFE_LEVEL and LINK_HOLD are broadcast on a port (R288). -/
def State.portDefaults (s : State) (p : Nat) : State :=
  let s := s.portCmd p 6 0x7FF false false 6 (s.fld ⟨Reg.EDL_SAFE_LEVEL, 0, 16⟩) 0
  s.portCmd p 6 0x7FF false false 7 (s.fld ⟨Reg.EDL_LINK_HOLD, 0, 16⟩) 0

/-- Partners required on a port (R296, R309). -/
def State.portExpect (s : State) (p : Nat) : Nat :=
  if s.portKind p = 1 then 1 else max 1 (s.fldA (Reg.EDL_PORT_CFG_EXPECT p))

/-- Step 6 of R296: the port comes UP, or its attempt fails. -/
def State.enumEnd (s : State) (p : Nat) : State :=
  let x := s.edlPort p
  let s : State := match x.held with
    | some h => s.each (h.drop x.got.length) (fun e s => s.put ⟨Reg.PARTNER_W e 0, 15, 1⟩ 1)
    | none => s
  let led := s.portKind p == 2
  let kinds := x.got.all (fun e => ((s.partner e).kind == 2) == led)
  let s := s.offerBack p
  if s.portExpect p ≤ x.got.length && kinds then
    (((s.portDefaults p).setPortState p portUP).raise (portPage p) 0).walkCheck
  else s.attemptFails p

/-- The lowest unused ID, from the pointer on: not the PID of an enabled cell port (R297), and neither assigned nor offered
on another port whose chain is enumerated at the same time (log entry 52). 0x400 when none is left. -/
def State.nextId (s : State) : Nat :=
  let cells := ((List.range 64).filter (fun p => s.portKind p == 1)).map (fun p => s.fldA (Reg.EDL_PORT_CFG_PID p))
  let offers := (List.range 64).filterMap (fun p => (s.edlPort p).offer)
  (((List.range (0x400 - s.edl.ptr)).map (fun i => s.edl.ptr + i)).find? (fun n =>
    !cells.contains n && !offers.contains n && !(s.partner n).valid)).getD 0x400

/-- An ID is offered down a port's chain (R298, R299). -/
def State.offerId (s : State) (p id : Nat) : State :=
  let s := s.setEdlPort p { s.edlPort p with offer := some id, misses := 0 }
  s.portCmd p 6 id false true 0 0 0

/-- Enumeration of a port goes on with its next ID, or ends (R297 to R301). -/
def State.enumNext (s : State) (p : Nat) : State :=
  let x := s.edlPort p
  if s.portKind p = 1 then
    if x.got.isEmpty then s.offerId p (s.fldA (Reg.EDL_PORT_CFG_PID p)) else s.enumEnd p
  else
    match x.held with
    | some h => match h[x.got.length]? with
      | some id => s.offerId p id
      | none => s.offerId p 0x7FE
    | none => if 0x3FF < s.nextId then s.offerId p 0x7FE else s.offerId p s.nextId

/-- 1,100 µs of patterns have passed: TRAIN DONE is sent, and enumeration begins (R296 steps 2, 4 and 5). -/
def State.trainDone (s : State) (p : Nat) : State :=
  if s.portState p = portTRAINING then
    match (s.edlPort p).pattern with
    | none => s
    | some t =>
      let groups := 1100 * ticksPerUs / (16 * s.blockTicks p)
      let s := (s.sendPatterns p (groups - 1) 1).advance (t + 1100 * ticksPerUs)
      ((s.portSend p [(2, controlBlock ctTrain 2)]).setPortState p portENUM).enumNext p
  else s

/-- 2 ms have passed since an attempt began (R296, R300). -/
def State.trainTimeout (s : State) (p : Nat) : State :=
  if s.portState p = portTRAINING ∨ s.portState p = portENUM then
    (s.advance ((s.edlPort p).since + 2000 * ticksPerUs)).attemptFails p
  else s

/-- A vertical blanking starts while a port waits (R300). -/
def State.trainRetry (s : State) (p : Nat) : State :=
  if s.portState p = portWAIT ∧ s.fld (Reg.EDL_PORT_STATE_ATTEMPT p) < 9 then
    s.portStart p (s.fld (Reg.EDL_PORT_STATE_ATTEMPT p) + 1)
  else s

/-- EDL_PORTn.CMD.RETRAIN (R300). -/
def State.portRetrain (s : State) (p : Nat) : State := if s.portState p = portFAILED then s.portStart p 1 else s

/-- A walk starts (R297, R307): words 0, 2 and 3 of every entry are cleared. -/
def State.walkStart (s : State) : State :=
  let s := s.each (List.range 1024) (fun e s =>
    ((s.wrN (Reg.PARTNER_W e 0) 0x3000).wrN (Reg.PARTNER_W e 2) 0).wrN (Reg.PARTNER_W e 3) 0)
  let s := (s.bump Reg.EDL_ENUM_RUNS).wrN Reg.EDL_ENUM_STATUS 0
  let s := s.each (List.range 64) (fun p s => (s.setEdlPort p { s.edlPort p with held := none }).wrN (Reg.EDL_PORT_UNADDR p) 0)
  { s.put Reg.EDL_ENUM_STATUS_BUSY 1 with
    edl := { s.edl with ptr := 0, walking := true, walked := true, statusAt := [], errAt := [], faultNew := [] } }

/-- EDL.CMD.ENUM (R297). -/
def State.enumWalk (s : State) : State :=
  let s := s.walkStart
  (s.each (List.range 64) (fun p s => if s.portState p = portOFF then s else s.portStart p 1)).walkCheck

/-- Ports at a frame boundary (R297, R300): KIND and EN take effect, the first walk runs. Until EDL_RUN is reached every
port is as if its KIND were 0 (R321). -/
def State.edlBoundary (s : State) : State :=
  let en := s.unitOn 0x70 && s.pan.edlRun
  let s := if en && !s.edl.walked then s.walkStart else s
  let s := s.each (List.range 64) (fun p s =>
    let k := if en then kindAct (s.fldA (Reg.EDL_PORT_CFG_KIND p)) else 0
    let s := if (k != s.portKind p || !s.domOn (12 + p / 4)) && s.portState p != portOFF then s.portOff p else s
    let s := s.setEdlPort p { s.edlPort p with kind := k }
    if k != 0 && s.portState p == portOFF && s.domOn (12 + p / 4) then s.portStart p 1 else s)
  s.walkCheck

/-! Host commands (R288). -/

def State.hcmdEnd (s : State) (noans refused : Bool) : State :=
  let s := (s.put Reg.EDL_HCMD_STATUS_BUSY 0).put Reg.EDL_HCMD_STATUS_DONE 1
  let s := (s.put Reg.EDL_HCMD_STATUS_NOANS (b2n noans)).put Reg.EDL_HCMD_STATUS_REFUSED (b2n refused)
  { s.raise 0x70 2 with edl := { s.edl with host := none } }

/-- The next TAG of EDL's own. -/
def State.nextTag (s : State) : State := { s with edl := { s.edl with tag := (s.edl.tag + 1) % 128 } }

/-- HCMD_GO is written (R288). -/
def State.hcmdGo (s : State) (w : Word) : State :=
  if w.toNat % 2 = 0 then s
  else if s.flag Reg.EDL_HCMD_STATUS_BUSY then s.bump Reg.EDL_HCMD_DROP
  else
    let s := s.wrN Reg.EDL_HCMD_STATUS 1
    let pid := s.fld Reg.EDL_HCMD0_PID
    let rd := s.flag Reg.EDL_HCMD0_RD
    let addr := s.fld Reg.EDL_HCMD0_ADDR
    let data := if rd then 0 else s.fld Reg.EDL_HCMD1_DATA
    let group := (0x400 ≤ pid && pid < 0x500) || pid == 0x7FF
    let e := s.partner pid
    if (group && rd) || (!group && (0x3FF < pid || !e.valid || !s.portIsUp e.port)) then s.hcmdEnd false true
    else
      let tag := s.edl.tag
      let s := s.nextTag
      if group then
        let s := s.each (List.range 64) (fun p s => if s.portIsUp p then s.portCmd p 7 pid false false addr data tag else s)
        { s with edl := { s.edl with host := some ⟨pid, false, tag, 0⟩ } }
      else
        let s := s.portCmd e.port 7 pid rd false addr data tag
        let s : State := { s with edl := { s.edl with host := some ⟨pid, rd, tag, 0⟩ } }
        if rd && !s.flag (Reg.RETBUS_CFG_EN (e.port / 4)) then s.hcmdEnd true false else s

/-- A port sends until no CMD of the host waits on it. -/
def State.portHost (s : State) (p : Nat) : State :=
  if (s.edlPort p).queue.any (fun i => i.place == 7) then
    let s := s.portRun p s.now (fun x _ => x.queue.any (fun i => i.place == 7)) (s.edlPort p).load
    s.advance (s.edlPort p).free
  else s

/-- The CMD of a host write has left every target port (R288). -/
def State.hcmdDone (s : State) : State :=
  match s.edl.host with
  | some h => if h.rd then s else (s.each (List.range 64) (fun p s => s.portHost p)).hcmdEnd false false
  | none => s

/-- After a host write of SAFE_LEVEL or LINK_HOLD both are broadcast on every backlight port that is UP (R288). -/
def State.defaultsSend (s : State) : State :=
  s.each (List.range 64) (fun p s => if s.portKind p == 2 && s.portIsUp p then s.portDefaults p else s)

/-! Return buses (R289 to R294). -/

def State.busSlot (s : State) (g : Nat) : Option EdlSlot := Cells.get (fun _ => none) s.edl.slots g
def State.setBusSlot (s : State) (g : Nat) (x : Option EdlSlot) : State :=
  { s with edl := { s.edl with slots := Cells.set (fun _ => none) s.edl.slots g x } }

/-- The next of some IDs after the one polled last (R292). -/
def roundRobin (last : Nat) (l : List Nat) : Option Nat :=
  match l.find? (fun e => last < e) with
  | some e => some e
  | none => l.head?

/-- POLL_PERIOD and ERR_PERIOD in ticks (R306). -/
def State.statusPeriod (s : State) : Nat := max 1 (s.fld Reg.EDL_POLL_CFG_POLL_PERIOD) * 1000 * ticksPerUs
def State.errPeriod (s : State) : Nat := max 1 (s.fld Reg.EDL_POLL_CFG_ERR_PERIOD) * 100000 * ticksPerUs

/-- Whether a partner was not polled within a period; `last` is the instant of the last poll, counted from 1. -/
def State.pollDue (s : State) (last period : Nat) : Bool := last == 0 || decide (last - 1 + period ≤ s.now)

/-- What the next POLL of a bus asks (R292, R298): the partner, its port and REQ. -/
def State.choosePoll (s : State) (g : Nat) : Option (Nat × Nat × Nat) :=
  match (List.range 4).filterMap (fun i =>
      if s.portState (4 * g + i) = portENUM then (s.edlPort (4 * g + i)).offer.map (fun id => (id, 4 * g + i, 4)) else none) with
  | x :: _ => some x
  | [] =>
    let ids := ((s.partners.filter (fun e => e.port / 4 == g && s.portIsUp e.port)).map (·.pid))
    let last := Cells.get (fun _ => 0) s.edl.lastPid g
    let pick := fun (l : List Nat) (req : Nat) => (roundRobin last l).map (fun e => (e, (s.partner e).port, req))
    let read := ids.filter (fun e => match s.edl.host with | some h => h.rd && h.pid == e | none => false)
    (pick read 3).orElse (fun _ => (pick (ids.filter s.edl.faultNew.contains) 1).orElse (fun _ =>
      (pick (ids.filter (fun e => s.pollDue (Cells.get (fun _ => 0) s.edl.statusAt e) s.statusPeriod)) 0).orElse (fun _ =>
        pick (ids.filter (fun e => s.pollDue (Cells.get (fun _ => 0) s.edl.errAt e) s.errPeriod)) 2)))

/-- A slot opens on a bus (R289, R292). -/
def State.pollOpen (s : State) (g : Nat) : State :=
  if (s.busSlot g).isSome || !s.domOn (28 + g) || !s.flag (Reg.RETBUS_CFG_EN g) then s
  else
    match s.choosePoll g with
    | none => s
    | some (pid, port, req) =>
      let tag := match s.edl.host with
        | some h => if req = 3 then h.tag else s.edl.tag
        | none => s.edl.tag
      let s := if req = 3 then s else s.nextTag
      let s := s.portControl port 5 ctPoll (pid + 2 ^ 11 * req + 2 ^ 14 * tag)
      let s := (s.bump (Reg.RETBUS_SLOTS g)).setBusSlot g (some ⟨port, pid, req, tag⟩)
      let e := s.edl
      { s with edl := { e with
          lastPid := if req = 4 then e.lastPid else Cells.set (fun _ => 0) e.lastPid g pid
          statusAt := if req = 0 then Cells.set (fun _ => 0) e.statusAt pid (s.now + 1) else e.statusAt
          errAt := if req = 2 then Cells.set (fun _ => 0) e.errAt pid (s.now + 1) else e.errAt
          host := if req = 3 then e.host.map (fun h => { h with polls := h.polls + 1 }) else e.host } }

/-- A host read has been polled three times without its answer (R288). -/
def State.hostReadCheck (s : State) : State :=
  match s.edl.host with
  | some h => if h.rd && 3 ≤ h.polls then s.hcmdEnd true false else s
  | none => s

/-- RETBUSn.CFG is written: the bus follows, and with EN 0 a host read of a partner of the group ends in NOANS (R310). -/
def State.busCfg (s : State) (g : Nat) : State :=
  let s := s.busFollow g
  match s.edl.host with
  | some h => if h.rd && !s.flag (Reg.RETBUS_CFG_EN g) && (s.partner h.pid).port / 4 == g then s.hcmdEnd true false else s
  | none => s

/-- The partner at position 0 of a port that is UP has become ABSENT (R300). -/
def State.portLost (s : State) (p : Nat) : State :=
  let s := (s.portClear p).raise (portPage p) 1
  if s.flagA Reg.EDL_CFG_AUTO_RETRAIN then (s.setAttempt p 0).setPortState p portWAIT else s.portFail p

/-- 8b/10b violations in an open slot (R310). -/
def State.codeErrs (s : State) (g code : Nat) : State :=
  (s.bumpBy (wholeFld (Reg.RETBUS_CODE_ERR g)) code).raiseIf (0 < code) (busPage g) 1

/-- A poll misses (R293, R298): `code` is the count of 8b/10b violations in the slot, `answered` whether a response
came. -/
def State.pollMiss (s : State) (g code : Nat) (answered : Bool) : State :=
  match s.busSlot g with
  | none => s
  | some x =>
    let s := (s.setBusSlot g none).codeErrs g code
    if !s.domOn (28 + g) || !s.flag (Reg.RETBUS_CFG_EN g) then s
    else
      let s := s.bump (if answered then Reg.RETBUS_CRC_ERR g else Reg.RETBUS_MISSES g)
      let s := s.raiseIf answered (busPage g) 0
      if x.req = 4 then
        let q := s.edlPort x.port
        if s.portState x.port = portENUM && q.offer == some x.pid then
          if q.misses = 0 then s.setEdlPort x.port { q with misses := 1 } else s.enumEnd x.port
        else s
      else
        let m := satAdd 255 (s.fld ⟨Reg.PARTNER_W x.pid 2, 24, 8⟩) 1
        let s := s.put ⟨Reg.PARTNER_W x.pid 2, 24, 8⟩ m
        let e := s.partner x.pid
        let s := if max 1 (s.fldA Reg.EDL_CFG_MISS_LIMIT) ≤ m && !e.absent then
            let s := (s.put ⟨Reg.PARTNER_W x.pid 0, 15, 1⟩ 1).raise (portPage x.port) 3
            if e.pos = 0 && s.portIsUp x.port then s.portLost x.port else s
          else s
        s.hostReadCheck

/-- A response that passed its CRC, names the partner polled and has the TYPE of its REQ closes its slot (R292, R293). -/
def State.answered (s : State) (g pid req type : Nat) : State :=
  let s := (s.setBusSlot g none).bump (Reg.RETBUS_ANSWERS g)
  let s := (s.put (Reg.RETBUS_LAST_PID g) pid).put (Reg.RETBUS_LAST_TYPE g) type
  if req = 4 then s else (s.put ⟨Reg.PARTNER_W pid 2, 24, 8⟩ 0).put ⟨Reg.PARTNER_W pid 0, 15, 1⟩ 0

/-- A STATUS response (R291, R293): temperature, flags, CRC errors. -/
def State.statusAnswer (s : State) (pid temp flags errs : Nat) : State :=
    let w3 := ⟨Reg.PARTNER_W pid 3, 0, 16⟩
    let s := (s.put ⟨Reg.PARTNER_W pid 2, 0, 16⟩ temp).put ⟨Reg.PARTNER_W pid 2, 17, 1⟩ (b2n (bit flags 2))
    let s := s.put w3 (satAdd 0xFFFF (s.fld w3) errs)
    let rest := s.edl.faultNew.filter (fun e => e != pid)
    { s with edl := { s.edl with faultNew := if bit flags 0 then pid :: rest else rest } }

/-- A FAULTS response (R291, R294): entries of output and kind. -/
def State.faultsAnswer (s : State) (pid : Nat) (l : List Nat) : State :=
    let w3 := ⟨Reg.PARTNER_W pid 3, 16, 16⟩
    let s := s.put w3 (satAdd 0xFFFF (s.fld w3) l.length)
    let s := if l.isEmpty then s else s.put ⟨Reg.PARTNER_W pid 2, 16, 1⟩ 1
    let s : State := { s with edl := { s.edl with faultNew := s.edl.faultNew.filter (fun e => e != pid) } }
    let e := s.partner pid
    s.each l (fun f s =>
      let o := bits f 0 12
      if bits f 12 3 = 1 && e.kind < 2 && o < e.nout then
        let k := if e.kind = 1 then o else o / 3
        let ch := if e.kind = 1 then 3 else if e.bgr then 2 - o % 3 else o % 3
        s.autoAdd (if e.dir then e.col0 - k else e.col0 + k) ch (e.half == 1)
      else s)

/-- A READBACK response (R288, R291): entries of TAG, ADDR, DATA. -/
def State.readbackAnswer (s : State) (pid : Nat) (l : List (Nat × Nat × Nat)) : State :=
    match s.edl.host with
    | some h =>
      match l.find? (fun e => h.rd && h.pid == pid && e.1 == h.tag) with
      | some e => (s.wrN Reg.EDL_HCMD_RD e.2.2).hcmdEnd false false
      | none => s.hostReadCheck
    | none => s

/-- A CAPS response to a poll of a port (R291, R298, R299): CAPS, OUTPUTS, HOPLAT. -/
def State.capsAnswer (s : State) (p pid caps outputs : Nat) : State :=
    let q := s.edlPort p
    if s.portState p != portENUM || q.offer != some pid then s
    else if pid = 0x7FE then
      let s := s.put ⟨Reg.EDL_PORT_UNADDR p, 0, 7⟩ (s.fld ⟨Reg.EDL_PORT_UNADDR p, 0, 7⟩ + 1)
      let s := s.put Reg.EDL_ENUM_STATUS_UNADDR (s.fld Reg.EDL_ENUM_STATUS_UNADDR + 1)
      ((s.put Reg.EDL_ENUM_STATUS_OVERFLOW 1).raise 0x70 1).enumNext p
    else
      let new := !(s.partner pid).valid
      let s := s.wrN (Reg.PARTNER_W pid 0) (p + 2 ^ 6 * (q.got.length % 64) + 2 ^ 12 * bits caps 0 2 + 2 ^ 14
        + (if bit caps 5 then 2 ^ 16 else 0) + 2 ^ 17 * bits caps 2 3 + 2 ^ 20 * (outputs % 4096))
      let s := if new then s.put Reg.EDL_ENUM_STATUS_ASSIGNED (s.fld Reg.EDL_ENUM_STATUS_ASSIGNED + 1) else s
      let s := if q.got.isEmpty then s.put (Reg.EDL_PORT_STATE_FIRST_PID p) pid else s
      let s := s.setEdlPort p { q with got := q.got ++ [pid] }
      let s := s.put (Reg.EDL_PORT_STATE_FOUND p) (q.got.length + 1)
      let s : State := if s.portKind p = 2 && q.held.isNone then { s with edl := { s.edl with ptr := pid + 1 } } else s
      s.enumNext p

/-! PRBS bursts (R303). -/

/-- Bits of PRBS31 (x^31 + x^28 + 1) in wire order, the first the least significant; the state's oldest bit is bit 30. -/
def prbs31 : Nat → Nat → Nat × Nat
  | 0, d => (0, d)
  | n + 1, d =>
    let o := bit d 30 != bit d 27
    let (rest, d2) := prbs31 n ((d * 2 + b2n o) % 2 ^ 31)
    (b2n o + 2 * rest, d2)

/-- `n` data blocks of a burst. -/
def prbsBlocks : Nat → Nat → List (Nat × Nat)
  | 0, _ => []
  | n + 1, d =>
    let (w, d2) := prbs31 64 d
    (1, w) :: prbsBlocks n d2

/-- A burst leaves a port in vertical blanking (R303); `n` is how many data blocks leave before something of higher
priority falls due. -/
def State.prbsBurst (s : State) (p n : Nat) : State :=
  let no := (s.rd Reg.TIMING_FRAME_NO).toNat
  let due := s.flag Reg.EDL_PRBS_CFG_EN && no % max 1 (s.fld Reg.EDL_PRBS_CFG_EVERY) == 0 && s.vact ≤ s.tim.line
    && s.portIsUp p && (s.edlPort p).burst != no + 1
  if !due then s
  else
    let want := max 1 (s.fld Reg.EDL_PRBS_CFG_BLOCKS)
    let s := s.portPush p ⟨8, 0, 0, none, (2, controlBlock ctTrain (3 + 2 ^ 16 * want)) :: prbsBlocks (min n want) (2 ^ 31 - 1)⟩
    let s := s.setEdlPort p { s.edlPort p with burst := no + 1 }
    s.bump (Reg.EDL_PORT_BURSTS p)

/-! What the pages report. -/

/-- SUMMARY of a group (R308). -/
def State.grpSummary (s : State) (g : Nat) : Word :=
  BitVec.ofNat 32 ((List.range 4).foldl (fun a i =>
    let st := s.portState (4 * g + i)
    a + (if st = portUP then 2 ^ i else if st = portFAILED then 2 ^ (4 + i) else if st = portWAIT then 2 ^ (8 + i) else 0)) 0)

/-- A forward lane has reached L0 (R296): the patterns of its port begin. -/
def State.portLaneUp (s : State) (p : Nat) : State :=
  if s.portState p = portTRAINING && s.laneInL0 (laneEdl p) then s.portPatterns p else s

end Sys2Proof.Machine
end

