-- ==== Sys2Proof/Machine/Panel.lean ====
section
/-! DEFINITION. GATE (R311 to R318, R326) and PANELPWR (R319 to R325, R327). -/

namespace Sys2Proof.Machine

/-! Pads (R316, R421). -/

/-- Whether the pads of a domain show what its units drive: the domain is ON and they are not latched. -/
def State.padsFree (s : State) (n : Nat) : Bool := s.fld (Reg.PWR_DOM_STATE_CUR n) == domStON && !s.flag (Reg.PWR_DOM_STATE_LATCHED n)

/-- A unit of D45 changes what it drives; a latched pad keeps its level. -/
def State.padEmit (s : State) (k : OutKind) (dst : Nat) (data : List Nat) : State :=
  if s.padsFree 45 then s.emit k dst data else s

/-- The levels held at the pads of a domain. -/
def State.padHeld (s : State) (n : Nat) : Nat := Cells.get (fun _ => 0) s.pwr.padHold n

/-! The gate timeline and the waveforms (R311 to R313). -/

/-- When gate line j of a gate frame begins (R311). -/
def GateFrame.lineStart (g : GateFrame) (j : Nat) : Nat := g.f + (1 + g.ofs + j) * g.tLine

/-- POL of a line of the frame (R263). -/
def GateFrame.pol (g : GateFrame) (y : Nat) : Nat :=
  (g.n + (if g.inv = 1 then y else if g.inv = 2 then y / 2 else 0)) % 2

/-- GT_MODEn of the frame; the 16 modes come first in its words, then four edge words per output. -/
def GateFrame.mode (g : GateFrame) (n : Nat) : Nat := (g.words.getD n 0).toNat
/-- Edge e of GTn (R326). -/
def GateFrame.edge (g : GateFrame) (n e : Nat) : Nat := bits (g.words.getD (16 + 4 * n + e / 2) 0).toNat (16 * (e % 2)) 16

/-- Whether edges apply to GTn in gate line j (R313). -/
def GateFrame.edgesApply (g : GateFrame) (n j : Nat) : Bool :=
  let m := g.mode n
  bit m (16 + g.no % 8) && (match m % 4 with
    | 1 => true
    | 2 => j < g.vact
    | 3 => j == 0
    | _ => false)

/-- Whether GTn is inverted in gate line j (R313). -/
def GateFrame.inverted (g : GateFrame) (n j : Nat) : Bool :=
  bit (g.mode n) 4 && g.pol (if j < g.vact then j else g.vact - 1) == 1

/-- The level of GTn at a position of gate line j (R312): the enabled edges up to there, the last position and on it the
highest number deciding. -/
def GateFrame.level (g : GateFrame) (n j pos : Nat) : Bool :=
  let idle := bit (g.mode n) 5
  let l := if g.edgesApply n j then
      ((List.range 8).foldl (fun (best : Nat × Bool) e =>
        let w := g.edge n e
        let p := w % 4096
        if bit w 15 && p ≤ pos && best.1 ≤ p + 1 then (p + 1, bit w 12) else best) (0, idle)).2
    else idle
  l != g.inverted n j

/-- The edges that GTn drives in gate line j: position and level, in order of position. -/
def GateFrame.edges (g : GateFrame) (n j : Nat) : List (Nat × Bool) :=
  let ps := if g.edgesApply n j then
      ((List.range 8).filterMap (fun e => if bit (g.edge n e) 15 then some (g.edge n e % 4096) else none)).eraseDups.mergeSort (· ≤ ·)
    else []
  (0, (g.level n j 0)) :: (ps.filter (fun p => 0 < p)).map (fun p => (p, g.level n j p))

/-- The gate frame that an output frame starts (R313). -/
def State.gateFrame (s : State) : GateFrame :=
  ⟨s.tim.f, (s.rd Reg.TIMING_FRAME_NO).toNat, s.linePeriod, s.fldA Reg.EDL_CFG_DRIVE_OFS, s.vact,
   s.fldA Reg.TIMING_HTIMING_HTOTAL, s.phaseN, s.fldA Reg.DITH_CFG_INV,
   (List.range 16).map (fun n => s.rdA (Reg.GATE_GT_MODE n)) ++ (List.range 64).map (fun i => s.rdA (Reg.GATE_EDGE i))⟩

/-- What GATE is to drive (R315). -/
def State.gateWant (s : State) : Nat :=
  if !s.flag (Reg.HDR_CTRL_EN 0x100) then 0
  else if s.pan.off = 2 then 2
  else if s.pan.gateRun then 1
  else 0

/-- GATE changes what it drives, and says so (R315, R326). -/
def State.setDrive (s : State) (d : Nat) : State :=
  if s.pan.drive = d then s
  else
    let s : State := { s with pan := { s.pan with drive := d } }
    let s := (s.put Reg.GATE_STATUS_SAFE (b2n (d == 0))).put Reg.GATE_STATUS_AGON (b2n (d == 2))
    s.raiseIf (d == 0) 0x100 0

/-- The next gate line (R311): of the frame that runs while a whole line is left before the one that follows, the last
being stretched; then line 0 of that. -/
def State.gateNext (s : State) : Option (GateFrame × Nat × Bool) :=
  match s.pan.cur, s.pan.next with
  | some g, some h =>
    if h.lineStart 0 < g.lineStart s.pan.line + g.tLine then some (h, 0, true) else some (g, s.pan.line, false)
  | some g, none => some (g, s.pan.line, false)
  | none, some h => some (h, 0, true)
  | none, none => none

/-- The first gate line boundary at an instant or after it (R311); the instant itself while no gate frame runs. -/
def State.gateLineAt (s : State) (t : Nat) : Nat :=
  let lineOf := fun (z l : Nat) => z + ceilDiv (t - z) (max 1 l) * l
  match s.pan.cur, s.pan.next with
  | some g, next =>
    let z := match next with
      | some h => h.lineStart 0
      | none => s.tim.next + (1 + g.ofs) * g.tLine
    let a := lineOf (g.lineStart 0) g.tLine
    if a + g.tLine ≤ z then a else lineOf z g.tLine
  | none, some h => lineOf (h.lineStart 0) h.tLine
  | none, none => t

/-- GATE starts a gate line and drives its edges (R311, R312, R315); with no gate frame there is no line to run a waveform
in. -/
def State.gateLine (s : State) : State :=
  match s.gateNext with
  | none => if s.gateWant = 1 then s else s.setDrive s.gateWant
  | some (g, j, isNew) =>
    let s := s.advance (g.lineStart j)
    let s : State := { s with pan := { s.pan with
      cur := some g, next := if isNew then none else s.pan.next, line := j + 1, lineAt := g.lineStart j } }
    let s := s.setDrive s.gateWant
    let levels := (s.rd Reg.GATE_LEVELS).toNat
    s.each (List.range 16) (fun n s =>
      if s.pan.drive = 1 then s.padEmit .gate n ((g.edges n j).flatMap (fun e => [e.1, b2n e.2]))
      else s.padEmit .gate n [0, b2n (bit levels (if s.pan.drive = 2 then 16 + n else n))])

/-- The level of GTn now (R326). -/
def State.gtLevel (s : State) (n : Nat) : Bool :=
  let levels := (s.rd Reg.GATE_LEVELS).toNat
  if s.pan.drive = 0 then bit levels n
  else if s.pan.drive = 2 then bit levels (16 + n)
  else
    match s.pan.cur with
    | some g =>
      -- the cycle of the line, held at its last position while the last line is stretched (R311)
      let pos := min (g.htotal / 8 - 1) ((s.now - s.pan.lineAt) * g.htotal / (8 * max 1 g.tLine))
      g.level n (s.pan.line - 1) pos
    | none => bit levels n

/-- Every gate output at its level of now. -/
def State.gateLevels (s : State) : State :=
  s.each (List.range 16) (fun n s => s.padEmit .gate n [0, b2n (s.gtLevel n)])

/-! The backlight outputs (R317, R318). -/

/-- The code of BL_PWM (R318). -/
def State.blCode (s : State) : Nat :=
  if s.pawn then s.fld ⟨Reg.EDL_SAFE_LEVEL, 0, 16⟩
  else if s.zoneCols = 0 then levelCode (levelAt s.levels 0).delta else s.fldA Reg.GATE_BL_CFG_FIXED_DUTY

def State.pwmN (s : State) : Nat := max 1 (s.fldA Reg.GATE_BL_CFG_PWM_N)

/-- The high time of a pulse in HCLK cycles, rounded half up, and in ticks (R318). -/
def State.pwmTicks (s : State) : Nat :=
  let khz := s.hclkKHz
  let cycles := divHalfUp (s.fld ⟨Reg.GATE_BL_DUTY, 0, 16⟩ * s.tim.period * khz) (s.pwmN * 65536 * 256000000)
  if khz = 0 then 0 else cycles * 256000000 / khz

/-- Where the dark fraction of the frame begins for BL_PWM, when there is one (R102, R318). -/
def State.pwmDarkAt (s : State) : Option Nat :=
  if s.bfiMode = 1 ∧ s.zoneCols = 0 then some (s.tim.f + ceilDiv ((64 - s.bfiDuty) * s.tim.period) 64) else none

/-- Whether BL_PWM is held inactive at an instant of the frame (R317, R318). -/
def State.pwmHeld (s : State) (t : Nat) : Bool :=
  !s.pan.blRun || s.tim.dark || (match s.pwmDarkAt with | some d => decide (d ≤ t) | none => false)

/-- The start of pulse cycle k of the frame. -/
def State.pwmStart (s : State) (k : Nat) : Nat := s.tim.f + k * s.tim.period / s.pwmN

/-- When the high time of pulse cycle k ends: at its own end, or where the dark fraction begins (R318). -/
def State.pwmEnd (s : State) (k : Nat) : Nat :=
  match s.pwmDarkAt with
  | some d => min (s.pwmStart k + s.pwmTicks) d
  | none => s.pwmStart k + s.pwmTicks

/-- BL_PWM follows its pulse and INV (R318). -/
def State.pwmDrive (s : State) : State :=
  let level := s.pan.pwmHigh != s.flagA Reg.GATE_BL_CFG_INV
  if level = s.pan.pwmPin then s
  else ({ s with pan := { s.pan with pwmPin := level } } : State).padEmit .pin 1 [b2n level]

/-- BL_PWM becomes active or inactive (R318). -/
def State.pwmSet (s : State) (high : Bool) : State :=
  ({ s with pan := { s.pan with pwmHigh := high } } : State).pwmDrive

/-- A pulse cycle begins, or its high time ends (R318). -/
def State.pwmPulse (s : State) : State :=
  if !s.tim.running then s
  else
    let k := s.pan.pwmCycle
    if s.pan.pwmHigh then
      let s := (s.advance (s.pwmEnd k)).pwmSet false
      { s with pan := { s.pan with pwmCycle := k + 1 } }
    else if s.pwmN ≤ k then s
    else
      let s := s.advance (s.pwmStart k)
      if s.pwmHeld s.now || s.pwmTicks == 0 then { s with pan := { s.pan with pwmCycle := k + 1 } }
      else s.pwmSet true

/-- BL_PWM as it stands now: a hold that has begun ends a pulse (R318). -/
def State.pwmNow (s : State) : Bool := s.pan.pwmHigh && !s.pwmHeld s.now

/-- The levels of GT0 to GT15, BL_EN and BL_PWM, by pad: those held while they are latched (R316, R421). -/
def State.gatePads (s : State) : Nat :=
  if s.flag (Reg.PWR_DOM_STATE_LATCHED 45) then s.padHeld 45 % 2 ^ 18
  else (List.range 16).foldl (fun a n => a + (if s.gtLevel n then 2 ^ n else 0)) 0
    + (if s.pan.blRun then 2 ^ 16 else 0) + (if s.pwmNow != s.flagA Reg.GATE_BL_CFG_INV then 2 ^ 17 else 0)

/-- GATE.OUT (R326). -/
def State.gateOut (s : State) : Word := BitVec.ofNat 32 s.gatePads

/-- GATE and the backlight at a frame boundary (R313, R318, R319): BL_RUN takes effect, the phase of BL_PWM is reset. -/
def State.gateBoundary (s : State) : State :=
  let bl := s.pan.blRun || s.pan.blWant
  let s := if bl && !s.pan.blRun then s.padEmit .pin 0 [1] else s
  let s : State := { s with pan := { s.pan with next := some s.gateFrame, blRun := bl, blWant := false, pwmCycle := 0 } }
  (s.pwmSet false).put ⟨Reg.GATE_BL_DUTY, 0, 16⟩ s.blCode

/-- BL_RUN is left: BL_EN goes low and BL_PWM inactive (R317, R323). -/
def State.backlightOff (s : State) : State :=
  let s := if s.pan.blRun then s.padEmit .pin 0 [0] else s
  ({ s with pan := { s.pan with blRun := false, blWant := false } } : State).pwmSet false

/-! Switching the panel on (R319, R320). -/

def panOFF : Nat := 0
def panPOWERING : Nat := 1
def panON : Nat := 2
def panDISCHARGE : Nat := 3
def panGATESON : Nat := 4
def panSUPPLY : Nat := 5

def State.panelState (s : State) : Nat := s.fld Reg.PANELPWR_STATE_STATE
def State.panelPe (s : State) : Nat := s.fld Reg.PANELPWR_STATE_PE
/-- The PE outputs change (R319); those owned drive GPIO4 to GPIO7. -/
def State.peDrive (s : State) : State := s.padEmit .pin 2 [s.panelPe &&& s.fld Reg.PANELPWR_CFG_PE_OWN]
def State.setPe (s : State) (m : Nat) : State := (s.put Reg.PANELPWR_STATE_PE m).peDrive

/-- PANELPWR.CFG is written: a ball taken shows its PE output at once, one given back is no longer driven (R319). -/
def State.panelCfg (s : State) (w : Word) : State := (s.wr Reg.PANELPWR_CFG (w &&& 0xF1#32)).peDrive

def onStepFld (k lo w : Nat) : Fld := ⟨Reg.PANELPWR_ON_STEP k, lo, w⟩

/-- The timed step under way ends after some ticks, and the instant at which it does. -/
def State.dueIn (s : State) (n : Nat) : State := { s with pan := { s.pan with due := s.now + n } }
def State.toDue (s : State) : State := s.advance s.pan.due

/-- D45 is on its way to OFF: GATE drives its SAFE levels, for max(t_line, 10 µs) before the pads are latched (R316). -/
def State.gateSafe (s : State) : State := ((s.setDrive 0).gateLevels).dueIn (max s.linePeriod (10 * ticksPerUs))

/-- Parts 3 and 4 of a step: the runs it sets, and its delay (R319). -/
def State.stepRuns (s : State) (k : Nat) : State :=
  let s := s.dueIn (s.fld (onStepFld k 16 16) * 100 * ticksPerUs)
  { s with pan := { s.pan with
      waitPg := false
      gateRun := s.pan.gateRun || s.flag (onStepFld k 8 1)
      edlRun := s.pan.edlRun || s.flag (onStepFld k 9 1)
      blWant := s.pan.blWant || (s.flag (onStepFld k 10 1) && !s.pan.blRun) } }

/-- A step begins (R319). -/
def State.stepStart (s : State) (k : Nat) : State :=
  let s := s.put Reg.PANELPWR_STATE_STEP k
  let s := s.setPe (s.panelPe ||| s.fld (onStepFld k 0 4))
  if s.flag (onStepFld k 12 1) && !s.pan.pgIn then
    let s := s.dueIn (s.fld ⟨Reg.PANELPWR_PG_TIMEOUT, 0, 16⟩ * 1000 * ticksPerUs)
    { s with pan := { s.pan with waitPg := true } }
  else s.stepRuns k

/-- A power-on starts. -/
def State.powerOn (s : State) : State :=
  ((s.put Reg.PANELPWR_STATE_PENDING 0).put Reg.PANELPWR_STATE_STATE panPOWERING).stepStart 0

/-- A step's delay ends (R319). -/
def State.powerOnStep (s : State) : State :=
  if s.panelState != panPOWERING || s.pan.waitPg then s
  else
    let s := s.toDue
    let k := s.fld Reg.PANELPWR_STATE_STEP
    if s.flag (onStepFld k 11 1) || k == 7 then (s.put Reg.PANELPWR_STATE_STATE panON).raise 0x101 0
    else s.stepStart (k + 1)

/-! Switching the panel off (R322 to R324). -/

/-- STATE is OFF; a pending ON starts (R323, R324). -/
def State.powerOffDone (s : State) : State :=
  let s : State := { (s.put Reg.PANELPWR_STATE_STATE panOFF).raise 0x101 1 with pan := { s.pan with off := 0 } }
  if s.fld Reg.PANELPWR_STATE_PENDING = 1 then s.powerOn else s

/-- The highest-numbered PE output that is high is lowered. -/
def State.lowerPe (s : State) : State := if s.panelPe = 0 then s else s.setPe (s.panelPe - 2 ^ Nat.log2 s.panelPe)

/-- The time between two supplies (R323). -/
def State.offDelay (s : State) : State := s.dueIn (s.fld Reg.PANELPWR_OFF_CFG_OFF_DELAY * 100 * ticksPerUs)

/-- EDL_RUN is left: every port is as if its KIND were 0 from now on (R300, R321). -/
def State.edlStops (s : State) : State :=
  let s := s.each (List.range 64) (fun p s => if s.portState p = portOFF then s else s.portOff p)
  s.each (List.range 64) (fun p s => s.setEdlPort p { s.edlPort p with kind := 0 })

/-- SUPPLY_OFF (R323): the runs are cleared, EDL's ports go off (R321), the outputs are lowered one at a time. -/
def State.offSupply (s : State) : State :=
  let s : State := { s with pan := { s.pan with gateRun := false, edlRun := false, blRun := false, blWant := false, off := 3 } }
  let s := (s.put Reg.PANELPWR_STATE_STATE panSUPPLY).edlStops
  let s := s.lowerPe
  if s.panelPe = 0 then s.powerOffDone else s.offDelay

/-- BACKLIGHT_OFF (R323). -/
def State.offBacklight (s : State) : State :=
  let s := s.backlightOff
  let s : State := { s with pan := { s.pan with off := 3 } }
  let s := s.each (List.range 64) (fun p s =>
    if s.portKind p == 2 && s.portIsUp p then s.syncApply p (s.now + 1000 * ticksPerNs) 0 true true else s)
  s.offSupply

/-- GATES_ON (R323); it takes no time when GATE_RUN was never reached (R320). -/
def State.offGates (s : State) : State :=
  if s.pan.gateRun then
    let s := s.dueIn (max 1 (s.fld Reg.PANELPWR_OFF_CFG_AG_FRAMES) * (s.rdA Reg.TIMING_PERIOD_MIN).toNat * 16)
    { s.put Reg.PANELPWR_STATE_STATE panGATESON with pan := { s.pan with off := 2 } }
  else s.offBacklight

/-- The power-off sequence starts (R322, R323); DISCHARGE takes no time when EDL_RUN was never reached. -/
def State.powerOff (s : State) (byPfail : Bool) : State :=
  let s : State := { s with pan := { s.pan with byPfail := byPfail, waitPg := false, blWant := false } }
  if s.pan.edlRun then
    let s := s.each (List.range 64) (fun p s =>
      if s.portKind p == 1 && s.portIsUp p then s.portCmd p 6 0x7FF false false 0x00D 1 0 else s)
    let s := s.dueIn (s.gateLineAt (s.now + s.fld Reg.PANELPWR_OFF_CFG_DIS_LINES * s.linePeriod) - s.now)
    { s.put Reg.PANELPWR_STATE_STATE panDISCHARGE with pan := { s.pan with off := 1 } }
  else s.offGates

/-- A timed step of the sequence ends (R323). -/
def State.powerOffStep (s : State) : State :=
  match s.pan.off with
  | 1 => s.toDue.offGates
  | 2 => s.toDue.offBacklight
  | 3 =>
    let s := s.toDue.lowerPe
    if s.panelPe = 0 then s.powerOffDone else s.offDelay
  | _ => s

/-- CMD.ON (R319, R324). -/
def State.cmdOn (s : State) : State :=
  if !s.pan.pfailN then ((s.bump Reg.PANELPWR_ON_REFUSED).raise 0x101 4).put Reg.PANELPWR_STATE_PENDING 0
  else if s.pan.off != 0 then s.put Reg.PANELPWR_STATE_PENDING 1
  else if s.panelState = panOFF then s.powerOn
  else s

/-- CMD.OFF (R322, R324). -/
def State.cmdOff (s : State) : State :=
  if s.pan.off != 0 then s.put Reg.PANELPWR_STATE_PENDING 0
  else s.bumpIf (s.panelState == panPOWERING) Reg.PANELPWR_ABORTS |>.powerOff false

/-- PWR_FAIL_N has been low for 1 µs (R322, R324): the panel's part. -/
def State.panelPfail (s : State) : State :=
  let s := ((s.bump Reg.PANELPWR_PFAIL_CNT).raise 0x101 2).put Reg.PANELPWR_STATE_PENDING 0
  let s : State := { s with pan := { s.pan with pfailN := false } }
  if s.pan.off != 0 then s
  else s.bumpIf (s.panelState == panPOWERING) Reg.PANELPWR_ABORTS |>.powerOff true

/-- PWR_FAIL_N has stayed high for 100 ms (R319). -/
def State.autoOn (s : State) : State :=
  if s.flag Reg.PANELPWR_CFG_AUTO_ON && s.pan.byPfail && s.pan.pfailN then
    let s : State := { s with pan := { s.pan with byPfail := false } }
    s.cmdOn
  else s

/-- PG_IN rises (R319). -/
def State.pgRise (s : State) : State :=
  let s : State := { s with pan := { s.pan with pgIn := true } }
  if s.pan.waitPg then s.stepRuns (s.fld Reg.PANELPWR_STATE_STEP) else s

/-- PG_IN has stayed low for PG_TIMEOUT (R320). -/
def State.pgFail (s : State) : State :=
  let s : State := { s with pan := { s.pan with pgIn := false } }
  if s.pan.waitPg then ((s.toDue.bump Reg.PANELPWR_PG_FAIL).raise 0x101 3).powerOff false else s

end Sys2Proof.Machine
end

