-- ==== Sys2Proof/Machine/Timing.lean ====
section
/-! DEFINITION. TIMING, GENLOCK and SREF (R93 to R116, R499): where each output frame begins, lock, repeats, house sync,
self-refresh and the slewed return. Instants are ticks of 1/256 ns, so that a field in 1/16 ns is 16 ticks. -/

namespace Sys2Proof.Machine

/-! Figures of the active configuration. -/

def State.latLines (s : State) : Nat := (s.rd Reg.CHIP_LATENCY_LINES).toNat
/-- LL × t_line. -/
def State.llTicks (s : State) : Nat := s.latLines * s.linePeriod
def State.periodMin (s : State) : Nat := 16 * (s.rdA Reg.TIMING_PERIOD_MIN).toNat
def State.periodMax (s : State) : Nat := 16 * (s.rdA Reg.TIMING_PERIOD_MAX).toNat
def State.freePeriod (s : State) : Nat := 16 * (s.rdA Reg.TIMING_FREE_PERIOD).toNat
/-- The shortest output frame (R94). -/
def State.shortestFrame (s : State) : Nat := (s.vact + s.fldA Reg.TIMING_VTIMING_VBLANK_MIN + 1) * s.linePeriod

/-- N_cas (R17, R470). -/
def State.casLevels (s : State) : Nat := if s.groupMember then s.fldA Reg.CAS_GEOM_DEPTH else 0

/-- What a change of which clears LOCK (R101). -/
def State.timShape (s : State) : Nat × Nat × Nat × Nat :=
  (s.linePeriod, s.fldA Reg.TIMING_HTIMING_HTOTAL, s.vact, s.latLines)

/-- LATENCY_LINES and LAT_BOUND_NS of the active configuration (R18, R113); 8 in Pawn mode (R459). -/
def State.latencyReport (s : State) : State :=
  let s := s.wrN Reg.CHIP_LATENCY_LINES (if s.pawn then 8 else s.lookahead + 24 + 2 * s.casLevels)
  s.wrN Reg.TIMING_LAT_BOUND_NS (ceilDiv s.llTicks 256 + 6000)

/-! Modes (R105): 0 FREE, 1 SLEWING, 2 LOCKED, 3 HOLDOVER. -/

def timFREE : Nat := 0
def timSLEWING : Nat := 1
def timLOCKED : Nat := 2
def timHOLDOVER : Nat := 3

def State.timMode (s : State) : Nat := s.fld Reg.TIMING_STATUS_MODE

/-- A signed number of ticks shown in 1/16 ns (R4). -/
def State.putPhase (s : State) (a : Nat) (e : Int) : State := s.wr a (BitVec.ofNat 32 (toField 32 (intHalfUp e 16)))

/-- A number of ticks shown in 1/16 ns (R4). -/
def State.putTicks (s : State) (a n : Nat) : State := s.wrN a (divHalfUp n 16)

/-- The shortest frame that R94 lets TIMING plan. -/
def State.leastPeriod (s : State) : Nat := max s.shortestFrame s.periodMin

/-- The output period of a source frame (R99). -/
def SrcPlan.pout (c : SrcPlan) : Nat := divHalfUp c.period (max 1 c.k)

/-- The start of showing i of a source frame (R99). -/
def SrcPlan.showAt (c : SrcPlan) (i : Nat) : Nat := c.f + divHalfUp (i * c.period) (max 1 c.k)

/-- TIMING changes its mode (R105). LOCK is 1 in LOCKED only; leaving LOCKED counts, and raises UNLOCK unless SRC_SEL
became FREE. -/
def State.setTimMode (s : State) (m : Nat) : State :=
  let old := s.timMode
  if m = old then s
  else
    let left := old == timLOCKED
    let s := (s.bumpIf left Reg.TIMING_LOCK_LOSS).raiseIf (left && m != timFREE) 0x30 1
    let s := (s.put Reg.TIMING_STATUS_MODE m).put Reg.TIMING_STATUS_LOCK (b2n (m == timLOCKED))
    let s := s.raiseIf (m == timLOCKED) 0x30 0
    if m = timSLEWING then { s with tim := { s.tim with slewed := false, late := true } } else s

/-! References (R97, R103, R473): 0 pips, 1 house sync, 2 none, 3 FSYNC. -/

def State.linkUp (s : State) : Bool := s.fld Reg.ISL_LINK_STATE_STATE == 6
def State.vrefOk (s : State) : Bool := s.flag Reg.GENLOCK_STATUS_VREF_OK

/-- Whether this M960 takes its frames from FSYNC (R473). -/
def State.followsFsync (s : State) : Bool := s.groupMember && !s.flag Reg.HOSTIF_STRAPS_CAS_ROLE

/-- The reference that the configuration and the events call for (R103, R104, R473). -/
def State.refWanted (s : State) : Nat :=
  if s.followsFsync then 3
  else
    match s.fldA Reg.TIMING_CFG_SRC_SEL with
    | 0 => 0
    | 1 => if s.vrefOk || !s.linkUp then 1 else 0
    | _ => 2

/-- OFFSET in ticks (R103). -/
def State.genOffset (s : State) : Int := 16 * sext 32 (s.rdA Reg.GENLOCK_OFFSET).toNat

/-- The source frame announced last. -/
def State.lastSrc (s : State) : SrcPlan := s.tim.plan.getD s.tim.cur

/-- Where the last event of the reference puts a boundary, and the output period it calls for; none while the reference
is absent (R105). -/
def State.refTarget (s : State) : Option (Int × Nat) :=
  match s.tim.ref with
  | 0 => if s.linkUp then s.tim.lastPip.map (fun t => (((t + s.llTicks : Nat) : Int), divHalfUp s.tim.lastPeriod (max 1 s.lastSrc.k))) else none
  | 1 => if s.vrefOk then s.tim.vref.map (fun t => ((t : Int) + s.genOffset, s.tim.vrefGap)) else none
  | 3 => s.tim.sync.map (fun t => ((t : Int), s.tim.syncGap))
  | _ => none

/-- The output period of the reference; the free-running one where none has been measured. -/
def State.refPeriod (s : State) : Nat :=
  match s.refTarget with
  | some (_, p) => if p = 0 then s.freePeriod else p
  | none =>
    let c := s.lastSrc
    if c.period = 0 then s.freePeriod else c.pout

/-- A phase error reduced into (−P/2, +P/2] (R110). -/
def reduceErr (e : Int) (p : Nat) : Int :=
  if p = 0 then e
  else
    let r := e % (p : Int)
    if (p : Int) < 2 * r then r - p else r

/-- F_internal of R110: the boundary, passed or planned, nearest to an instant, the earlier of two; those beyond the
next lie one output period apart. Its distance from the next boundary in output periods, and itself. -/
def State.nearest (s : State) (x : Int) (pout : Nat) : Int × Int :=
  let f : Int := s.tim.f
  let n : Int := s.tim.next
  if x ≤ n then (if 2 * x ≤ f + n then (-1, f) else (0, n))
  else
    let j := (2 * (x - n) - 1 + pout) / (2 * (max 1 pout : Nat))
    (j, n + j * pout)

/-- e of R110 for a target, and what of it the planned boundary leaves. -/
def State.phaseError (s : State) (x : Int) (psrc pout : Nat) : Int × Int :=
  let (j, f) := s.nearest x pout
  let e := reduceErr (f - x) psrc
  (e, if j = -1 then e + ((s.tim.period : Int) - pout) else e)

/-- P_src of the reference. -/
def State.refSource (s : State) : Nat :=
  if s.tim.ref = 0 then s.tim.lastPeriod else match s.refTarget with | some (_, p) => p | none => 0

/-! Slewing (R112). -/

/-- The largest correction of a frame. -/
def State.slewStep (s : State) (pout : Nat) : Nat :=
  let n := s.fld Reg.SREF_CFG_SLEW
  pout * (if n = 0 then 1 else min n 10) / 2000

/-- A slewed frame: its period, held within PERIOD_MIN and PERIOD_MAX, and the error it leaves. -/
def State.slewFrame (s : State) (pout : Nat) (e : Int) : Nat × Int :=
  let step : Int := s.slewStep pout
  let pmin : Int := s.periodMin
  let pmax : Int := s.periodMax
  let short := max ((pout : Int) - min e step) pmin
  let e := if 0 < e ∧ (pout : Int) ≤ short then e - pout else e
  let p : Int := if 0 < e then short else max pmin (min ((pout : Int) + min (-e) step) pmax)
  (p.toNat, e - ((pout : Int) - p))

/-- TIMING measures its phase against a target while slewing: the error, and the frame under way, when it is a slewed
one, takes what its limit allows of it. -/
def State.measure (s : State) : State :=
  match s.refTarget with
  | none => s
  | some (x, pout) =>
    let psrc := s.refSource
    let (e, left) := s.phaseError x psrc pout
    let s := s.putPhase Reg.TIMING_PHASE_ERR e
    let s : State := { s with tim := { s.tim with err := left, late := false } }
    if s.tim.slewed then
      let (p, rest) := s.slewFrame pout (reduceErr (left - ((s.tim.period : Int) - pout)) psrc)
      if s.now < s.tim.f + p then { s with tim := { s.tim with period := p, next := s.tim.f + p, err := rest } } else s
    else s

/-- TIMING starts slewing (R105). -/
def State.startSlew (s : State) : State := (s.setTimMode timSLEWING).measure

/-- The reference appears, or SRC_SEL changes (R104, R105): out of FREE, and out of HOLDOVER once self-refresh has ended
or when house sync returns to a self-refresh that its loss began. -/
def State.checkRef (s : State) : State :=
  let r := s.refWanted
  let s := if r = s.tim.ref then s
    else
      let s : State := { s with tim := { s.tim with ref := r } }
      if r = 2 then s.setTimMode timFREE
      else if s.timMode = timLOCKED ∨ s.timMode = timSLEWING then
        (if s.timMode = timSLEWING then s else s.setTimMode timSLEWING).measure
      else s
  let state := s.fld Reg.SREF_STATE_STATE
  let free := s.timMode == timFREE && state == 0
  let held := s.timMode == timHOLDOVER && (state == 0 || (state == 6 && s.tim.ref == 1))
  if (free || held) && s.refTarget.isSome then s.startSlew else s

/-- The next boundary is moved while the frame runs (R97, R100). -/
def State.moveNext (s : State) (t : Nat) : State :=
  let t := max t s.now
  let p := t - s.tim.f
  { s.putTicks Reg.TIMING_PERIOD_CUR p with tim := { s.tim with period := p, next := t } }

/-- An edge of house sync or an FSYNC reaches TIMING: in lock it places the boundary (R103, R473), while slewing it
gives the error. -/
def State.refEdge (s : State) : State :=
  match s.refTarget with
  | none => s
  | some (x, gap) =>
    if s.timMode = timLOCKED then
      let x := if 2 * (x - s.tim.f).natAbs < gap then x + gap else x
      if 0 < gap ∧ s.tim.running ∧ ((s.tim.f + s.shortestFrame : Nat) : Int) ≤ x then s.moveNext x.toNat else s
    else if s.timMode = timSLEWING then s.measure
    else s.checkRef

/-! Self-refresh (R106 to R112, R499). -/

def State.srefState (s : State) : Nat := s.fld Reg.SREF_STATE_STATE
def State.inSref (s : State) : Bool := s.srefState != 0

/-- STATE and REASON show a code. -/
def State.srefShow (s : State) (code : Nat) : State :=
  (s.put Reg.SREF_STATE_STATE code).put Reg.SREF_STATE_REASON code

/-- The mean of the measured pip intervals over a divisor (R4, R109). -/
def State.meanGap (s : State) (d : Nat) : Nat :=
  if s.tim.gaps.isEmpty then 0 else divHalfUp s.tim.gaps.sum (s.tim.gaps.length * d)

/-- The period held at entry (R109). -/
def State.heldPeriod (s : State) : Nat :=
  let k := max 1 s.lastSrc.k
  if s.flag Reg.SREF_CFG_HOLD_SEL then 16 * (s.rd Reg.SREF_HOLD_PERIOD).toNat
  else if !s.tim.gaps.isEmpty then s.meanGap k
  else if s.tim.running then s.tim.period
  else s.freePeriod

/-- An event of R106: the first enters self-refresh, a later one renews the reason; HOST stays while ENTER stands. -/
def State.srefEvent (s : State) (code : Nat) : State :=
  let first := !s.inSref
  let s : State := { s with srf := { s.srf with
    host := s.srf.host || code == 4
    released := false
    events := if first then [code] else code :: s.srf.events.filter (fun c => c ≠ code)
    pipSince := if code = 5 then false else s.srf.pipSince } }
  let s := s.srefShow (if s.srf.host then 4 else code)
  if first then
    let s : State := { s with srf := { s.srf with
      exiting := false, base := s.heldPeriod, k := max 1 s.lastSrc.k, trim := 0, gap := none, ret := false } }
    let s := ((s.bump Reg.SREF_ENTRIES).raise 0x32 0).wr Reg.SREF_TRIM_PPB 0
    let s := if s.timMode = timFREE then s else s.setTimMode timHOLDOVER
    let s : State := { s with tim := { s.tim with plan := none, cur := s.lastSrc, err := 0 } }
    (s.discardFrame true).pixRefUpdate
  else s

/-- Whether a reason still calls for self-refresh (R499). -/
def State.reasonStands (s : State) (code : Nat) : Bool :=
  let l := s.fld Reg.ISL_LINK_STATE_STATE
  match code with
  | 1 => l == 7
  | 2 => l == 8
  | 3 => l != 6 && l != 7 && l != 8
  | 5 => l == 6 && !s.srf.pipSince
  | 6 => s.fldA Reg.TIMING_CFG_SRC_SEL == 1 && !s.vrefOk && l != 6
  | _ => false

/-- CMD.RELEASE (R499). -/
def State.srefRelease (s : State) : State :=
  if s.srf.host then
    let s : State := { s with srf := { s.srf with host := false, events := s.srf.events.filter (fun c => c ≠ 4) } }
    match s.srf.events.find? s.reasonStands with
    | some c => s.srefShow c
    | none => { s with srf := { s.srf with released := true } }
  else s

/-- CMD.EXIT (R112). -/
def State.srefExitCmd (s : State) : State :=
  if s.linkUp then
    (if s.inSref then { s with srf := { s.srf with exiting := true } } else s)
  else s.bump Reg.SREF_EXIT_IGNORED

/-- The link leaves UP: an EXIT not yet acted on lapses (R112). -/
def State.srefLinkLeft (s : State) : State :=
  if s.srf.exiting then { s.bump Reg.SREF_EXIT_IGNORED with srf := { s.srf with exiting := false } } else s

/-- The link comes UP: the measured intervals start anew (R109), EXIT and the reason's events are kept. -/
def State.timLinkUp (s : State) : State :=
  { s.wr Reg.SREF_HOLD_MEAS 0 with tim := { s.tim with gaps := [], lastPip := none } }

/-- TIMING leaves self-refresh at a pip (R112). -/
def State.srefLeave (s : State) : State :=
  let s := (s.wr Reg.SREF_STATE 0).raise 0x32 1
  let s : State := { s with srf := { s.srf with host := false, exiting := false, released := false, events := [], gap := none
                                                left := s.now } }
  s.pixRefUpdate.checkRef

/-- Whether a pip ends self-refresh: AUTO_EXIT unless the host's ENTER stands, an EXIT, or a RELEASE (R112, R499). -/
def State.pipExits (s : State) : Bool :=
  s.linkUp && ((s.flag Reg.SREF_CFG_AUTO_EXIT && !s.srf.host) || s.srf.exiting || s.srf.released)

/-- Whether keepalive pips trim the period (R110): in S1, and in HOST. -/
def State.trims (s : State) : Bool := s.srefState == 1 || s.srefState == 4

/-- The output period of a frame in holdover (R108 to R110), and the state with the trim it applied. -/
def State.holdoverFrame (s : State) : State × Nat :=
  let base := max 1 s.srf.base
  let s : State :=
    match s.trims, s.srf.gap with
    | true, some g =>
      let k := s.srf.k
      let target : Int := intHalfUp (((g : Int) - (k * base : Nat)) * 1000000000) (k * base)
      let t := s.srf.trim + clampInt (-2000) 2000 (target - s.srf.trim)
      { s.wr Reg.SREF_TRIM_PPB (BitVec.ofNat 32 (toField 32 t)) with srf := { s.srf with trim := t } }
    | _, _ => s
  let p := ((base : Int) + intHalfUp ((base : Int) * s.srf.trim) 1000000000).toNat
  if s.trims ∧ s.tim.err ≠ 0 then
    let (q, e) := s.slewFrame p s.tim.err
    ({ s with tim := { s.tim with err := e } }, q)
  else (s, p)

/-! Pips (R97 to R100, R110). -/

/-- k of R99, its counts made. -/
def State.showings (s : State) (p : Nat) : State × Nat :=
  let rep := s.fldA Reg.TIMING_CFG_REPEAT + 1
  let k0 := max rep (ceilDiv p (max 1 s.periodMax))
  let cut := p < k0 * s.periodMin
  let k := if cut then max 1 (p / s.periodMin) else k0
  let held := rep < k
  let s := s.bumpIf cut Reg.TIMING_REPEAT_CUT
  ((s.bumpBy (wholeFld Reg.TIMING_HOLD_INSERT) (if held then k - rep else 0)).raiseIf held 0x30 5, k)

/-- The pip is measured, whatever uses it: the intervals (R109), and PIP_PHASE under house sync (R103). -/
def State.pipMeasured (s : State) (p : Nat) : State :=
  let t := s.now
  let gaps := match s.tim.lastPip with | some t0 => ((t - t0) :: s.tim.gaps).take 8 | none => s.tim.gaps
  let s : State := { s with
    tim := { s.tim with gaps := gaps, lastPip := some t, lastPeriod := p }, srf := { s.srf with pipSince := true } }
  let s := if gaps.isEmpty then s else s.wrN Reg.SREF_HOLD_MEAS (s.meanGap 16)
  if s.fldA Reg.TIMING_CFG_SRC_SEL = 1 then
    let x : Int := (t + s.llTicks : Nat)
    s.putPhase Reg.GENLOCK_PIP_PHASE (x - (s.nearest x s.refPeriod).2)
  else s

/-- A pip that trims only (R108, R110). -/
def State.pipTrims (s : State) (p k : Nat) : State :=
  if s.trims then
    let x : Int := (s.now + s.llTicks : Nat)
    let (e, left) := s.phaseError x p (divHalfUp p (max 1 k))
    let gap := s.tim.gaps.head?
    { s.putPhase Reg.TIMING_PHASE_ERR e with
      tim := { s.tim with err := left }, srf := { s.srf with gap := gap, k := k } }
  else s

/-- A short pip (R100): the frame ends at the earliest instant R94 allows, and TIMING slews. -/
def State.shortPip (s : State) : State :=
  let s := ((s.bump Reg.TIMING_SHORT_CNT).raise 0x30 3).setTimMode timSLEWING
  if s.tim.running then s.moveNext (min s.tim.next (s.tim.f + s.leastPeriod)) else s

/-- The pip places the boundaries of its source frame (R97, R99, R100). `expected` is when it was due. -/
def State.pipPlans (s : State) (no p k : Nat) (expected : Option Nat) : State :=
  let t := s.now
  let half := s.linePeriod / 2
  let plan : SrcPlan := ⟨no, t, p, k, t + s.llTicks, s.rdA Reg.TIMING_BFI⟩
  if s.tim.ref = 0 then
    let early := s.timMode == timLOCKED && expected.any (fun e => decide (t + half < e))
    let late := s.timMode == timLOCKED && expected.any (fun e => decide (e + half < t))
    let short := (s.timMode == timLOCKED || s.timMode == timSLEWING) && (early || p < s.periodMin)
    let s : State := { s with tim := { s.tim with plan := some plan } }
    if short then s.shortPip.measure
    else if s.timMode = timLOCKED ∧ !late then
      if s.tim.cur.k ≤ s.tim.showing + 1 then s.moveNext (max (t + s.llTicks) (s.tim.f + s.shortestFrame)) else s
    else if s.timMode = timSLEWING then s.measure
    else if late then s.startSlew
    else s.checkRef
  else
    let f := (s.nearest ((t + s.llTicks : Nat) : Int) s.refPeriod).2
    { s with tim := { s.tim with plan := some { plan with f := f.toNat } } }

/-- An accepted pip (R67) as TIMING and the frame store take it; the link has moved to UP where it does. -/
def State.timPip (s : State) (no period16 : Nat) (vrr part : Bool) : State :=
  let p := 16 * period16
  let expected := s.tim.lastPip.map (fun t => t + s.tim.lastPeriod)
  let s := s.bumpIf (vrr && !s.flagA Reg.TIMING_CFG_VRR_EN) Reg.TIMING_VRR_ERR
  let exits := s.inSref && s.pipExits
  if s.inSref ∧ !exits then
    let s := s.pipMeasured p
    let (s, k) := s.showings p
    s.pipTrims p k
  else
    let s := s.endFrame
    let s := s.pipMeasured p
    let (s, k) := s.showings p
    let s := if exits then
        { s with tim := { s.tim with plan := some ⟨no, s.now, p, k, s.now + s.llTicks, s.rdA Reg.TIMING_BFI⟩ } }.srefLeave
      else s.pipPlans no p k expected
    let first := match s.tim.plan with | some q => q.f | none => s.now + s.llTicks
    s.startFrame no s.now s.linePeriod first (s.timMode == timLOCKED) part

/-- No pip has come by the end of the tolerance (R100). -/
def State.latePip (s : State) : State :=
  match s.tim.lastPip with
  | none => s
  | some t =>
    if s.timMode = timLOCKED ∧ s.tim.ref = 0 then
      let s := s.advance (t + s.tim.lastPeriod + s.linePeriod / 2)
      let s := ((s.bump Reg.TIMING_LATE_PIP).raise 0x30 4).setTimMode timSLEWING
      { s with tim := { s.tim with err := 0 } }
    else s

/-- No pip has come within PERIOD_MAX of the expected time while the link is UP (R100, R106). -/
def State.pipTimeout (s : State) : State :=
  match s.tim.lastPip with
  | none => s
  | some t =>
    if s.linkUp ∧ (s.srf.pipSince ∨ !s.srf.events.contains 5) then
      (s.advance (t + s.tim.lastPeriod + s.periodMax)).srefEvent 5
    else s

/-! House sync (R103, R104). -/

/-- VREF or HREF is lost: which instant of R104 comes first, if either applies. -/
def State.glLossAt (s : State) : Option Nat :=
  if s.vrefOk then
    match s.tim.vref with
    | none => none
    | some v =>
      let a := v + s.tim.vrefGap * 3 / 2
      match s.flagA Reg.GENLOCK_CFG_HQUAL, s.tim.href with
      | true, some h => some (min a (h + 100 * ticksPerUs))
      | true, none => some (min a (v + 100 * ticksPerUs))
      | false, _ => some a
  else none

def State.glLoss (s : State) : State :=
  match s.glLossAt with
  | none => s
  | some t =>
    let s := s.advance t
    let s := ((s.bump Reg.GENLOCK_LOSS_CNT).raise 0x31 0).put Reg.GENLOCK_STATUS_VREF_OK 0
    let s : State := { s with tim := { s.tim with vref := none, vrefGood := 0, vrefLost := true } }
    if s.fldA Reg.TIMING_CFG_SRC_SEL = 1 ∧ !s.followsFsync then
      if s.linkUp then s.checkRef else s.srefEvent 6
    else s

/-- The instant at which the measure of a VREF interval begins or ends (R103): the edge itself against XTAL; with HQUAL,
the last active edge of HREF_IN, where one has come. -/
def State.vrefMark (s : State) : Nat :=
  match s.flagA Reg.GENLOCK_CFG_HQUAL, s.tim.hrefAt with
  | true, some h => h
  | _, _ => s.now

/-- An edge of VREF_IN (R103, R104). -/
def State.vrefEdge (s : State) (t : Nat) (rising : Bool) : State :=
  let s := s.advance t
  if rising != s.flagA Reg.GENLOCK_CFG_VEDGE then s
  else
    let mark := s.vrefMark
    let s : State := match s.tim.vref with
      | none => { s with tim := { s.tim with vref := some s.now, vrefGap := 0, hrefs := 0, vrefFrom := mark } }
      | some _ =>
        let gap := mark - s.tim.vrefFrom
        let old := s.tim.vrefGap
        let agree := old != 0 && ((if gap ≤ old then old - gap else gap - old) * 1000 ≤ old)
        let good := if agree then min 4 (s.tim.vrefGood + 1) else 1
        let s := (s.putTicks Reg.GENLOCK_VREF_PERIOD gap).wrN Reg.GENLOCK_HREF_COUNT s.tim.hrefs
        { s with tim := { s.tim with
            vref := some s.now, vrefGap := gap, hrefs := 0, vrefGood := good, vrefFrom := mark } }
    let back := !s.vrefOk && s.tim.vrefGood == 4
    let s := if back then (s.put Reg.GENLOCK_STATUS_VREF_OK 1).raiseIf s.tim.vrefLost 0x31 1 else s
    let s := if back then s.checkRef else s
    if s.tim.ref = 1 then s.refEdge else s

/-- An edge of HREF_IN: any edge shows that it toggles, the active ones are counted. -/
def State.hrefEdge (s : State) (t : Nat) (rising : Bool) : State :=
  let s := s.advance t
  let active := rising == s.flagA Reg.GENLOCK_CFG_HEDGE
  { s with tim := { s.tim with
      href := some s.now, hrefs := s.tim.hrefs + b2n active, hrefAt := if active then some s.now else s.tim.hrefAt } }

/-- GENLOCK.STATUS as it reads: HREF_OK while HREF toggles (R104, R115). -/
def State.genlockStatus (s : State) : Word :=
  let ok := match s.tim.href with | some h => decide (s.now ≤ h + 100 * ticksPerUs) | none => false
  Reg.GENLOCK_STATUS_HREF_OK.put (s.rd (Reg.HDR_STATUS 0x31)) (b2n ok)

/-! FSYNC (R473, R476). -/

/-- A boundary that FSYNC names. -/
def State.fsyncTarget (s : State) (f : Nat) : State :=
  let gap := match s.tim.sync with | some g => f - g | none => 0
  let s : State := { s with tim := { s.tim with sync := some f, syncGap := if gap = 0 then s.tim.syncGap else gap } }
  if s.timMode = timHOLDOVER then s.checkRef else s.checkRef.refEdge

/-- Every path to FSYNC is lost: the last output period is held (R476). -/
def State.fsyncLost (s : State) : State :=
  let s : State := { s with tim := { s.tim with sync := none }, srf := { s.srf with base := if s.inSref then s.srf.base else max 1 s.tim.period } }
  if s.timMode = timFREE then s else s.setTimMode timHOLDOVER

/-! The output frame (R94, R99, R105, R112). -/

/-- The BFI word from this boundary on: a change keeps to the source frame that the next pip announces while TIMING is in
lock (R101); out of lock it acts with its boundary. -/
def State.bfiTakes (s : State) : State :=
  if s.timMode = timLOCKED then { s with tim := { s.tim with bfi := s.tim.cur.bfi } }
  else { s with tim := { s.tim with bfi := s.rdA Reg.TIMING_BFI, cur := { s.tim.cur with bfi := s.rdA Reg.TIMING_BFI } } }

/-- In lock: which source frame this boundary shows, and which showing it is. -/
def State.lockedShowing (s : State) : State :=
  match s.tim.plan with
  | some p =>
    if 2 * p.f ≤ 2 * s.now + s.tim.period then
      { s with tim := { s.tim with cur := { p with f := s.now }, plan := none, showing := 0, first := true } }
    else { s with tim := { s.tim with showing := s.tim.showing + 1, first := false } }
  | none => { s with tim := { s.tim with showing := s.tim.showing + 1, first := false } }

/-- Lock is reached (R105): the showing that begins here is found from the announced frame's boundary. -/
def State.lockStarts (s : State) : State :=
  let s := s.setTimMode timLOCKED
  if s.tim.ref = 0 then
    let c : SrcPlan := { s.lastSrc with bfi := s.rdA Reg.TIMING_BFI }
    let k := max 1 c.k
    let p := max 1 c.period
    let j : Int := (2 * ((s.now : Int) - c.f) * k + p) / (2 * (p : Int))
    let i := (j % (k : Int)).toNat
    let f := s.now - divHalfUp (i * p) k
    if j < 0 then
      { s with tim := { s.tim with cur := { c with f := f }, plan := some c, showing := i, first := false } }
    else
      { s with tim := { s.tim with cur := { c with f := f }, plan := none, showing := i, first := j == 0 && s.tim.plan.isSome } }
  else s.lockedShowing

/-- The period of the output frame that begins now, before R94's bound. -/
def State.planPeriod (s : State) : State × Nat :=
  let pout := s.refPeriod
  match s.timMode with
  | 0 => (s, s.freePeriod)
  | 1 =>
    let (p, e) := s.slewFrame pout s.tim.err
    ({ s with tim := { s.tim with err := e, slewed := !s.tim.late && s.refTarget.isSome } }, p)
  | 2 =>
    if s.tim.ref = 0 then
      let c := s.tim.cur
      let i := s.tim.showing
      if i + 1 < max 1 c.k then (s, c.showAt (i + 1) - s.now)
      else
        let fin := match s.tim.plan with | some p => p.f | none => c.f + c.period
        (s, if s.now < fin then fin - s.now else c.pout)
    else (s, pout)
  | _ => s.holdoverFrame

/-- TIMING starts an output frame at this instant (R94 to R105): `shape` is that of the frame before. The read side's
choice of the slot (R155) is made on the way. -/
def State.timBoundary (s : State) (shape : Nat × Nat × Nat × Nat) : State :=
  let no := ((s.rd Reg.TIMING_FRAME_NO).toNat + 1) % 2 ^ 32
  let s := (s.wrN Reg.TIMING_FRAME_NO no).raise 0x30 2
  let s := s.checkRef
  -- a held PLL_PIX keeps TIMING unlocked (R403)
  let held := s.fld Reg.CLK_MUX_PIX_REF == 2
  let s := if (shape ≠ s.timShape ∨ held) ∧ s.timMode = timLOCKED then s.setTimMode timSLEWING else s
  let s := if s.timMode = timSLEWING ∧ s.tim.slewed ∧ s.tim.err = 0 ∧ s.refTarget.isSome ∧ !held then s.lockStarts
    else if s.timMode = timLOCKED then s.lockedShowing
    else { s with tim := { s.tim with cur := s.lastSrc, plan := none, first := false, showing := s.tim.showing + 1 } }
  let before := (s.shown, s.rd (slotFrameReg s.shown), Cells.get (fun _ => 0) s.sto.pips s.shown)
  let settled := s.sto.settles
  let slewing := s.timMode == timSLEWING
  let s := s.chooseShown s.tim.first
  let slotPip := Cells.get (fun _ => 0) s.sto.pips s.shown
  let same := before == (s.shown, s.rd (slotFrameReg s.shown), slotPip) && s.tim.running && !s.sto.black
  let k := s.tim.cur.k
  let had := s.tim.shows + 1
  let slew := if slewing && !same && decide (s.srf.left ≤ before.2.2) then (if had ≤ k then k - had else had - k) + (settled - 1) else 0
  let s := s.bumpBy (wholeFld Reg.SREF_SLEW_FRAMES) slew
  let shows := if same then s.tim.shows + 1 else 0
  let srcNo := if s.tim.first then s.tim.cur.no else (s.rd (slotFrameReg s.shown)).toNat
  let s := s.wrN Reg.TIMING_SHOWN_SRC srcNo
  let s := (s.putPhase Reg.TIMING_PHASE_ERR s.tim.err).bfiTakes
  let (s, p) := s.planPeriod
  let p := max 1 (max p s.shortestFrame)
  let s : State := { s with
    tim := { s.tim with
      running := true, f := s.now, period := p, next := s.now + p, line := 0, srcNo := srcNo
      lastF := s.tim.f, lastP := s.tim.period
      srcPip := if s.tim.first then s.tim.cur.pip else slotPip
      shows := shows, dark := s.bfiMode == 2 && shows != 0 }
    srf := { s.srf with ret := false } }
  let showing := if s.timMode = timLOCKED ∧ s.tim.ref = 0 then s.tim.showing else shows
  (s.putTicks Reg.TIMING_PERIOD_CUR p).wrN Reg.TIMING_K_CUR (min 255 s.tim.cur.k + 256 * min 255 showing)

/-- The start of an output line in this frame: its number and instant; none once the stretched line is reached (R94). -/
def State.nextLine (s : State) : Option (Nat × Nat) :=
  if s.tim.running ∧ s.tim.line < s.tim.period / max 1 s.linePeriod then
    some (s.tim.line, s.tim.f + s.tim.line * s.linePeriod)
  else none

end Sys2Proof.Machine
end

