-- ==== Sys2Proof/Machine/Power.lean ====
section
/-! DEFINITION. The power controller (R412 to R431): requests and their refusal, wake sources, time, operating points
and the AVSBus exchanges. What a domain keeps and loses is in Domains.lean. -/

namespace Sys2Proof.Machine

/-! Domains. -/

def State.domCur (s : State) (n : Nat) : Nat := s.fld (Reg.PWR_DOM_STATE_CUR n)
def State.domBusy (s : State) (n : Nat) : Bool := s.flag (Reg.PWR_DOM_STATE_BUSY n)
def State.domPending (s : State) (n : Nat) : Nat := s.fld (Reg.PWR_DOM_STATE_PENDING n)

/-- The domain of each unit (R412); the units that the table does not name are in D0. -/
def unitDomain (u : Unit) (p : Nat) : Nat :=
  match u with
  | .CTL => 1
  | .ISL | .ISL_LANE => 2
  | .INPUT | .STATS => 5
  | .CODEC => 6
  | .ZONE | .PSF | .FIELD => 7
  | .SPLIT | .CELLLUT => 8
  | .PATCH | .DEFECT | .OD | .THERM | .DITH => 9
  | .MEMC | .REGION | .SCHED | .ECC | .BULK => 10
  | .EDL_GRP => 12 + (p - 0x71)
  | .EDL_PORT => 12 + (p - 0xA0) / 4
  | .RETBUS => 28 + (p - 0xE0)
  | .CAS => 44
  | .GATE | .PANELPWR => 45
  | .NV => 46
  | _ => 0

/-- The prerequisites of a domain (R412). -/
def domNeeds (n : Nat) : List Nat :=
  if n = 1 then [79] else if 5 ≤ n ∧ n ≤ 9 then [10, 11] else if n = 11 then [10] else []

/-- The domains that depend on one. -/
def domServes (n : Nat) : List Nat :=
  if n = 79 then [1] else if n = 10 then [5, 6, 7, 8, 9, 11] else if n = 11 then [5, 6, 7, 8, 9] else []

/-- Whether a domain's lanes follow it (R412): their indices. -/
def domLanes (n : Nat) : List Nat :=
  (List.range laneCount).filter (fun l => laneDomain l == n)

/-- A class-0 engine is enabled in the active configuration (R331). -/
def State.class0On (s : State) : Bool :=
  s.slotConfig.isSome || s.unitOn 0x60 || s.unitOn 0x62 || s.flagA Reg.FIELD_CFG_SPILL_EN || s.flagA Reg.CAS_SEAM_EN

/-- The unit whose DRAM request is outstanding, if one is. -/
def State.dramWork (s : State) : Option Nat :=
  if s.flag Reg.BULK_BSTAT_BUSY then some 0x114
  else if s.flag Reg.CODEC_RB_STATUS_BUSY then some 0x42
  else if s.flag Reg.PATCH_CHECK_STATUS_BUSY then some 0x60
  else if !s.isl.staged.isEmpty then some 0x20
  else if !s.mem.copies.isEmpty || !s.mem.halted.isEmpty then some 0x110
  else none

/-- A refusal of R419, the reasons tried in the order of its table: the reason and the refuser. -/
def State.refusal (s : State) (n target : Nat) : Option (Nat × Nat) :=
  let off := target == domStOFF
  let ret := target == domStRET
  match (domServes n).find? (fun d => s.domCur d == domStON || s.domBusy d) with
  | some d => some (1, 0xF00 + d)
  | none =>
    let work : Option Nat :=
      if 12 ≤ n ∧ n ≤ 27 then
        ((List.range 4).find? (fun i => !s.portIdle (4 * (n - 12) + i))).map
          (fun i => portPage (4 * (n - 12) + i))
      else if n = 10 ∨ n = 11 then (if s.class0On then some 0x110 else s.dramWork)
      else if n = 80 then s.dramWork
      else if n = 46 then
        (if s.flag Reg.NV_STATUS_BUSY || s.flag Reg.NV_STATUS_SAVING || s.flag Reg.NV_STATUS_COMPACTING then some 6 else none)
      else if 47 ≤ n then (if s.flag (Reg.BANKS_OWN_PENDING (n - 47)) then some 0x118 else none)
      else none
    match work with
    | some p => some (2, p)
    | none =>
      if 5 ≤ n ∧ n ≤ 10 ∧ ret ∧ s.tim.running ∧
          (s.now < s.tim.f + s.vact * s.linePeriod ∨ s.tim.next < s.now + 100 * ticksPerUs) then some (3, 0x30)
      else if s.panelState ≠ panOFF ∧
          ((((5 ≤ n ∧ n ≤ 11) ∨ (12 ≤ n ∧ n ≤ 27) ∨ n = 45) ∧ off) ∨ (n = 45 ∧ ret)) then some (4, 0x101)
      else if off ∧ (n = 11 ∨ n = 80) ∧ !s.mem.regions.isEmpty then some (5, 0x111)
      else if off ∧ 47 ≤ n ∧ s.bankOwner (n - 47) = ownPix ∧ s.bankUsed (n - 47) then some (5, 0x118)
      else if n = 1 ∧ s.flag Reg.CTL_RSP_BUSY then some (6, 9)
      else none

/-- A per-domain counter of 16 bits counts (R428). -/
def State.domCount (s : State) (x : Fld) : State := s.bumpBy x 1

/-- A refusal is counted, recorded and raised (R419). -/
def State.refuse (s : State) (n : Nat) (r : Nat × Nat) : State :=
  let s := s.domCount (Reg.PWR_DOM_CNT1_REFUSED n)
  ((s.put (Reg.PWR_DOM_STATE_REASON n) r.1).put (Reg.PWR_DOM_STATE_REFUSER n) r.2).raise 3 0

def State.domTrans (s : State) (n : Nat) : Option DomTrans := s.pwr.trans.find? (fun t => t.dom == n)

/-- A transition begins; D45 on its way to OFF drives its SAFE levels first (R316). -/
def State.domBegin (s : State) (n target phase : Nat) : State :=
  let s := if n = 45 ∧ target = domStOFF ∧ phase = 0 then s.gateSafe else s
  { s.put (Reg.PWR_DOM_STATE_BUSY n) 1 with
    pwr := { s.pwr with trans := s.pwr.trans.filter (fun t => t.dom ≠ n) ++
      [⟨n, target, phase, (s.domTrans n).any (·.inner)⟩] } }

/-- A target waits for the transition under way, written to REQ or asked by an internal requester; the one it replaces is
counted (R418) unless an internal requester had asked for it (R415). -/
def State.domWait (s : State) (n target : Nat) (inner : Bool) : State :=
  let replaced := s.domPending n != 0 && !(s.domTrans n).any (·.inner)
  let s := if replaced then s.domCount (Reg.PWR_DOM_CNT0_SUPERSEDED n) else s
  { s.put (Reg.PWR_DOM_STATE_PENDING n) target with
    pwr := { s.pwr with trans := s.pwr.trans.map (fun t => if t.dom = n then { t with inner := inner } else t) } }

/-- A domain with no prerequisites is brought ON, now or after its transition. -/
def State.domWakeOne (s : State) (n : Nat) : State :=
  -- the ROM holds D10 and D11 OFF in Pawn mode (R459)
  if (n = 10 ∨ n = 11) ∧ s.pawn then s
  else if s.domBusy n then
    match s.domTrans n with
    | some t => if t.target = domStON ∨ s.domPending n = domStON then s else s.domWait n domStON true
    | none => s
  else if s.domCur n = domStON then s
  else s.domBegin n domStON 2

/-- A domain is brought ON, its prerequisites first (R413). -/
def State.domWake (s : State) (n : Nat) : State :=
  (s.each (domNeeds n) (fun d s => (s.each (domNeeds d) (fun e s => s.domWakeOne e)).domWakeOne d)).domWakeOne n

/-- A target is served by a domain with no transition under way (R414 to R419); a refusal drops it. -/
def State.domServe (s : State) (n target : Nat) : State :=
  let cur := s.domCur n
  if target = cur then s
  else if target = domStON then s.domWake n
  else if target = domStRET ∧ cur = domStOFF then (s.domWake n).domWait n domStRET false
  else
    match s.refusal n target with
    | some r => s.refuse n r
    | none => s.domBegin n target 0

/-- DOMn.REQ is written (R414, R418). -/
def State.domRequest (s : State) (n target : Nat) : State :=
  if n = 0 ∨ target = 0 then s
  else
    let s := s.put (Reg.PWR_DOM_REQ_TARGET n) target
    if s.domBusy n then s.domWait n target false else s.domServe n target

/-- An internal request (R415); whether it was refused. -/
def State.domAsk (s : State) (n target : Nat) : State × Bool :=
  if s.fld (Reg.PWR_DOM_REQ_TARGET n) ≠ domStON then (s, false)
  else if s.domBusy n then (s.domWait n target true, false)
  else if target = domStON then (s.domWake n, false)
  else
    match s.refusal n target with
    | some r => (s.refuse n r, true)
    | none => (s.domServe n target, false)

/-- An engine of class 1 to 4 needs DRAM: whether D10 and D11 are ON and no switch of the operating point holds it up
(R330), and the wake of the domains otherwise (R331). -/
def State.dramReady (s : State) : Bool := s.domOn 10 && s.domOn 11 && !s.flag Reg.MEMC_STATUS_SWITCHING
def State.dramWake (s : State) : State :=
  if s.domOn 10 && s.domOn 11 then s
  else (s.domRequest 10 domStON).domRequest 11 domStON

/-! Retention between frames (R111). -/

/-- After the last active line TIMING asks D5 to D9 for RET. -/
def State.retAsk (s : State) : State :=
  if s.inSref ∧ s.flag Reg.SREF_CFG_RET_BETWEEN ∧ !s.srf.ret ∧
      100 * ticksPerUs + s.vact * s.linePeriod ≤ s.tim.period then
    let (s, miss) := [5, 6, 7, 8, 9].foldl (fun (acc : State × Bool) n =>
      let (s, r) := acc.1.domAsk n domStRET
      (s, acc.2 || r)) (s, false)
    let s : State := { s with srf := { s.srf with ret := true } }
    (s.bumpIf miss Reg.SREF_RET_MISS).raiseIf miss 0x32 2
  else s

/-- 40 µs before the next boundary TIMING asks for them back. -/
def State.retWake (s : State) : State :=
  if s.srf.ret then
    let s := s.advance (s.tim.next - 40 * ticksPerUs)
    s.each [5, 6, 7, 8, 9] (fun n s => (s.domAsk n domStON).1)
  else s

/-- At the boundary: a domain that has not come back in time (R111). -/
def State.retCheck (s : State) : State :=
  let late := s.srf.ret && [5, 6, 7, 8, 9].any (fun n => s.fld (Reg.PWR_DOM_REQ_TARGET n) == domStON && !s.domOn n)
  (s.bumpIf late Reg.SREF_RET_MISS).raiseIf late 0x32 2

/-! Time (R428, R431). -/

def spentKey (n st : Nat) : Nat := 4 * n + st

/-- The µs a domain has spent in a state. -/
def State.spentUs (s : State) (n st : Nat) : Nat :=
  Cells.get (fun _ => 0) s.pwr.spent (spentKey n st) +
    (if s.domCur n = st then s.timebase - Cells.get (fun _ => 0) s.pwr.since n else 0)

/-- A domain reaches a state. -/
def State.domReach (s : State) (n st : Nat) : State :=
  let old := s.domCur n
  let s : State := { s with pwr := { s.pwr with
    spent := Cells.set (fun _ => 0) s.pwr.spent (spentKey n old) (s.spentUs n old)
    since := Cells.set (fun _ => 0) s.pwr.since n s.timebase } }
  s.put (Reg.PWR_DOM_STATE_CUR n) st

/-- TIME_ON, TIME_RET and TIME_OFF: ms, saturating. -/
def State.timeIn (s : State) (st : Nat) : Word :=
  let n := s.fld ⟨Reg.PWR_TIME_SEL, 0, 7⟩
  BitVec.ofNat 32 (if n < 95 then min 0xFFFFFFFF (s.spentUs n st / 1000) else 0)

/-- The instant of the first AONOSC tick at which TIMEBASE is at least some µs (R410). -/
def State.tbInstant (s : State) (us : Nat) : Nat :=
  let have' := s.timebase * 2 ^ 32 + s.clk.tbFrac
  let inc := (s.rd Reg.CLK_TB_INC).toNat
  if us * 2 ^ 32 ≤ have' ∨ inc = 0 then s.now
  else (s.now / aonTick + ceilDiv (us * 2 ^ 32 - have') inc) * aonTick

/-- POWER_ON_MIN (R431). -/
def State.minuteTick (s : State) : State :=
  let s := s.advance (s.tbInstant ((s.pwr.minutesAt + 1) * 60000000))
  let s := s.wrN Reg.AON_POWER_ON_MIN ((s.rd Reg.AON_POWER_ON_MIN).toNat + 1)
  { s with pwr := { s.pwr with minutesAt := s.pwr.minutesAt + 1 } }

/-! Wake sources (R427). -/

/-- The domains marked in WAKE_DOMS. -/
def State.wakeDoms (s : State) : List Nat :=
  (List.range 95).filter (fun n => bit (s.rd (Reg.PWR_WAKE_DOMS (n / 32))).toNat (n % 32))

/-- A wake source fires. -/
def State.wakeSource (s : State) (k : Nat) : State :=
  if bit (s.rd Reg.PWR_WAKE_SRC).toNat k then
    let s := (s.put ⟨Reg.AON_WAKE_CAUSE, k, 1⟩ 1).raise 1 0
    s.each s.wakeDoms (fun n s => s.domRequest n domStON)
  else s

/-- ALARM (R427, R431): the first tick at which TIMEBASE has reached ALARM. -/
def State.alarmFires (s : State) : State :=
  if s.pwr.alarmArmed then
    let a := (s.rd Reg.AON_ALARM).toNat + 2 ^ 32 * (s.rd Reg.AON_ALARM_HI).toNat
    let t := if a ≤ s.timebase then (s.now / aonTick + 1) * aonTick else s.tbInstant a
    let s := s.advance t
    let s : State := { s with pwr := { s.pwr with alarmArmed := false } }
    (s.raise 1 1).wakeSource 2
  else s

/-- A half of ALARM is written. -/
def State.alarmWrite (s : State) (a : Nat) (w : Word) : State :=
  { s.wr a w with pwr := { s.pwr with alarmArmed := true } }

/-! Pads (R421). -/

/-- The domains with latched pads, by the bits of PAD_RELEASE. -/
def padDoms : List (Nat × Nat) := [(0, 44), (1, 45), (2, 46)]

/-- The pads of a domain show again what its units drive. -/
def State.padsShow (s : State) (n : Nat) : State :=
  match n with
  | 44 => s.emit .pin 3 [b2n s.cas.pulse]
  | 45 => ((s.gateLevels.padEmit .pin 0 [b2n s.pan.blRun]).padEmit .pin 1 [b2n s.pan.pwmPin]).peDrive
  | _ => s

/-- PAD_RELEASE is written (R421). -/
def State.padRelease (s : State) (w : Word) : State :=
  s.each padDoms (fun e s =>
    if bit w.toNat e.1 && s.domOn e.2 && s.flag (Reg.PWR_DOM_STATE_LATCHED e.2) then
      let s := (s.put ⟨Reg.PWR_PAD_LATCHED, e.1, 1⟩ 0).put (Reg.PWR_DOM_STATE_LATCHED e.2) 0
      ({ s with pwr := { s.pwr with padHold := Cells.set (fun _ => 0) s.pwr.padHold e.2 0 } } : State).padsShow e.2
    else s)

/-! Operating points (R423 to R425). -/

/-- The frequency limits in kHz. -/
def opLimit (op : Nat) : Nat := [400000, 700000, 950000, 1200000].getD op 1200000
def opMv (op : Nat) : Nat := 650 + 50 * min 3 op

/-- The lowest operating point for a frequency in kHz. -/
def opFor (khz : Nat) : Nat := if khz ≤ 400000 then 0 else if khz ≤ 700000 then 1 else if khz ≤ 950000 then 2 else 3

/-- The pixel OP and the memory OP (R423). -/
def State.pixOp (s : State) : Nat :=
  opFor (pixKHz (s.fldA Reg.TIMING_HTIMING_HTOTAL) (max 1 (s.rdA Reg.TIMING_LINE_PERIOD).toNat))
def State.memOp (s : State) : Nat := min 2 (s.fld Reg.MEMC_STATUS_MOP_ACTIVE)

/-- OP_STATUS as it reads. -/
def State.opStatus (s : State) : Word :=
  Reg.PWR_OP_STATUS_MEM_OP.put (Reg.PWR_OP_STATUS_PIX_OP.put (s.rd Reg.PWR_OP_STATUS) s.pixOp) s.memOp

/-- Whether a reading lies within 10 mV of a target (R426). -/
def avsWithin (mv target : Nat) : Bool := decide (mv ≤ target + 10) && decide (target ≤ mv + 10)

/-- The target of VDD_CORE in mV. -/
def coreTarget (mx margin : Nat) : Nat := clampNat 700 880 (opMv mx + 80 + 10 * min 8 margin)

/-- A frame of an exchange leaves on AVSBus: the rail's number and the target. -/
def State.avsFrame (s : State) (r : AvsReq) : State :=
  let sel := s.fld (if r.rail = 0 then Reg.PWR_AVS_CFG_CORE_SEL else Reg.PWR_AVS_CFG_SER_SEL)
  s.emit .avs sel [r.mv]

/-- An exchange begins (R426). -/
def State.avsStart (s : State) (r : AvsReq) : State :=
  let r := { r with since := s.now, resends := 0 }
  let s : State := { s with pwr := { s.pwr with avs := some r } }
  ((s.bump Reg.PWR_AVS_REQS).put Reg.PWR_VSTATUS_AVS_BUSY 1).avsFrame r

/-- A target is asked of a rail: at once, or after the exchange under way, the latest for each rail. -/
def State.avsRequest (s : State) (rail mv : Nat) (newMax : Option Nat) : State :=
  let r : AvsReq := ⟨rail, mv, newMax, 0, 0, false⟩
  match s.pwr.avs with
  | none => s.avsStart r
  | some _ => { s with pwr := { s.pwr with avsWait := s.pwr.avsWait.filter (fun x => x.rail ≠ rail) ++ [r] } }

/-- The exchange under way ends, and the next begins. -/
def State.avsNext (s : State) : State :=
  let s : State := { s.put Reg.PWR_VSTATUS_AVS_BUSY 0 with pwr := { s.pwr with avs := none } }
  match s.pwr.avsWait with
  | [] => s
  | r :: rest => { s with pwr := { s.pwr with avsWait := rest } }.avsStart r

/-- An exchange is acknowledged (R425, R426): VSTATUS takes the reading, and MAX_ACTIVE a raised MAX, unless the host has
lowered MAX meanwhile. -/
def State.avsAcked (s : State) (r : AvsReq) (mv : Nat) : State :=
  let s := s.put (if r.rail = 0 then Reg.PWR_VSTATUS_VDD_CORE else Reg.PWR_VSTATUS_VDD_SER) mv
  let s := match r.newMax with
    | some m => s.put Reg.PWR_OP_STATUS_MAX_ACTIVE (min m (s.fld Reg.PWR_OP_CFG_MAX))
    | none => s
  s.avsNext

/-- A reading of the rail (R426): a CRC error of the acknowledge field resends the frame, a reading within 10 mV of the
target acknowledges it. An injected delay (R465) puts the acknowledgement off by its ms; one that would come later than
2 ms after the first frame does not come. -/
def State.avsPoll (s : State) (mv : Nat) (crcErr : Bool) : State :=
  match s.pwr.avs with
  | none => s
  | some r =>
    if crcErr then
      if r.resends < 3 then
        let r := { r with resends := r.resends + 1 }
        { s with pwr := { s.pwr with avs := some r } }.avsFrame r
      else s
    else if avsWithin mv r.mv ∧ !r.held then
      let delay := s.fld ⟨Reg.PERTURB_AVS_DELAY, 0, 16⟩
      if delay = 0 then s.avsAcked r mv
      else if s.now + delay * 1000 * ticksPerUs ≤ r.since + 2000 * ticksPerUs then
        (s.injected.advance (s.now + delay * 1000 * ticksPerUs)).avsAcked r mv
      else ({ s with pwr := { s.pwr with avs := some { r with held := true } } } : State).injected
    else s

/-- An exchange fails (R426): rejected by the slave, or 2 ms after its first frame. -/
def State.avsFailed (s : State) (nak : Bool) : State :=
  match s.pwr.avs with
  | none => s
  | some r =>
    let s := if nak then s.bump Reg.PWR_AVS_NAK else (s.advance (r.since + 2000 * ticksPerUs)).bump Reg.PWR_AVS_TIMEOUT
    (s.raise 3 3).avsNext

/-- OP_CFG is written (R425). -/
def State.opCfgWrite (s : State) (w : Word) : State :=
  let mx := Reg.PWR_OP_CFG_MAX.get w
  let old := s.fld Reg.PWR_OP_CFG_MAX
  if mx < old ∧ mx < s.pixOp then s.err 3 0x10
  else
    let s := s.wr Reg.PWR_OP_CFG (w &&& 0xF3)
    let mv := coreTarget mx (s.fld Reg.PWR_OP_CFG_MARGIN)
    if mx ≤ s.fld Reg.PWR_OP_STATUS_MAX_ACTIVE then (s.put Reg.PWR_OP_STATUS_MAX_ACTIVE mx).avsRequest 0 mv none
    else s.avsRequest 0 mv (some mx)

/-- VSER is written (R425). -/
def State.vserWrite (s : State) (w : Word) : State :=
  let s := s.wr Reg.PWR_VSER (w &&& 0x3FF)
  s.avsRequest 1 (clampNat 850 950 (Reg.PWR_VSER_TARGET.get w)) none

end Sys2Proof.Machine
end

