-- ==== Sys2Proof/Machine/MemCtl.lean ====
section
/-! DEFINITION. The commands of MEMC, REGION, ECC and BULK (R329 to R353): requests for regions, single beats, refresh
and operating points, retirement, halted engines, and the transfers of the BULK window. -/

namespace Sys2Proof.Machine

/-! Requests for regions (R333 to R337). -/

/-- RESULT of a port. -/
def resultFld (port : Nat) (x : Fld) : Fld := ⟨perPort port x.addr, x.lo, x.w⟩

/-- A port writes REQ_GO: a request joins the queue unless the port's last is not done. -/
def State.regionGo (s : State) (port : Nat) (isFree : Bool) : State :=
  if s.flag (resultFld port Reg.REGION_RESULT_BUSY) then s.bump Reg.REGION_REQ_DROP
  else
    let q := (s.rd (perPort port Reg.REGION_REQ))
    let r : RegionReq := ⟨port, isFree, Reg.REGION_REQ_PAGES.get q, Reg.REGION_REQ_CLASS0.get q != 0,
      Reg.REGION_REQ_COMMIT.get q != 0, s.fld ⟨perPort port Reg.REGION_REQ_HANDLE, 0, 6⟩⟩
    let s := s.wrN (perPort port Reg.REGION_RESULT) 1
    { s with mem := { s.mem with queue := s.mem.queue ++ [r] } }

/-- The request at the head ends with a status and a handle. -/
def State.regionEnd (s : State) (port status h : Nat) : State :=
  let s := s.wrN (perPort port Reg.REGION_RESULT) (2 + 16 * status + 256 * h)
  { s with mem := { s.mem with queue := s.mem.queue.tail } }

/-- The lowest handle that is free. -/
def State.freeHandle (s : State) : Option Nat := (List.range 64).find? (fun h => (s.region h).isNone)

/-- An allocation (R333, R335). -/
def State.regionAlloc (s : State) (r : RegionReq) : State :=
  if r.pages = 0 ∨ 32768 < r.pages then s.regionEnd r.port 4 0
  else
    match s.freeHandle with
    | none => (s.raise 0x111 1).regionEnd r.port 1 0
    | some h =>
      let now := r.cls0 || r.commit
      if s.freePages < (if now then r.pages else 0) + s.reserve then s.regionEnd r.port 2 0
      else
        match mapFit s.mem.regions r.pages with
        | none => s.regionEnd r.port 3 0
        | some b =>
          let s := s.sramPut 33 b (List.replicate r.pages 0)
          let s := if now then s.commitRun b r.pages else s
          let s : State := if r.cls0 || !r.commit then s
            else { s with mem := { s.mem with blank := s.mem.blank ++ (List.range r.pages).map (b + ·) } }
          let s : State := { s with mem := { s.mem with
            regions := s.mem.regions ++ [⟨h, r.pages, b, r.cls0, r.port == 3⟩] } }
          s.regionReport.regionEnd r.port 0 h

/-- Whether an enabled handle field of some words names a handle (R334): of the active configuration, the shadows, or
the set that waits for its boundary. -/
def handleNamed (rd : Nat → Word) (h : Nat) : Bool :=
  let named := fun (hf ef : Fld) => ef.get (rd ef.addr) != 0 && hf.get (rd hf.addr) == h
  named Reg.CODEC_SLOT0_HANDLE Reg.CODEC_SLOT0_EN || named Reg.CODEC_SLOT1_HANDLE Reg.CODEC_SLOT1_EN
  || named Reg.CODEC_SLOT2_HANDLE Reg.CODEC_SLOT2_EN || named Reg.PATCH_SET0_HANDLE Reg.PATCH_SET0_EN
  || named Reg.PATCH_SET1_HANDLE Reg.PATCH_SET1_EN || named Reg.OD_STATE_HANDLE Reg.OD_STATE_EN
  || named Reg.FIELD_CFG_SPILL_HANDLE Reg.FIELD_CFG_SPILL_EN || named Reg.CAS_SEAM_HANDLE Reg.CAS_SEAM_EN

/-- Whether a page of a region is being retired. -/
def State.regionMigrating (s : State) (r : Region) : Bool :=
  s.mem.copies.any (fun c => r.base ≤ c.mapIdx && c.mapIdx < r.base + r.pages)

/-- A free (R334); it waits while a page of the region migrates (R347). -/
def State.regionFree (s : State) (r : RegionReq) : State :=
  match s.region r.handle with
  | none => s.regionEnd r.port 6 0
  | some g =>
    if handleNamed s.rdA r.handle ∨ handleNamed s.rd r.handle
        ∨ s.chip.applying.any (fun set => handleNamed (Cells.get resetWord set.words) r.handle) ∨ s.mem.halted.any (fun x => x.handle == r.handle) then
      s.regionEnd r.port 5 0
    else if s.regionMigrating g then s
    else
      let s := (List.range g.pages).foldl (fun s i => s.uncommit (g.base + i)) s
      let s : State := { s with mem := { s.mem with regions := s.mem.regions.filter (fun x => x.handle ≠ r.handle) } }
      s.regionReport.regionEnd r.port 0 0

/-- MEMC serves the request at the head of the queue; the allocator uses B33 only while it owns it (R337). -/
def State.regionServe (s : State) : State :=
  match s.mem.queue with
  | [] => s
  | r :: _ =>
    if !s.mapUp then s
    else if r.isFree then s.regionFree r
    else s.regionAlloc r

/-- MEMC serves the requests in their order as far as it can. -/
def State.regionRun : Nat → State → State
  | 0, s => s
  | n + 1, s => State.regionRun n s.regionServe

/-- The core asks for a region through its own copy of the request registers (R333) for a service: `go` follows with its
handle, `fail` where none is given. Until MEMC has served the request the service waits; one service asks at a time. -/
def State.coreAlloc (s : State) (who pages : Nat) (cls0 commit : Bool) (go : State → Nat → State) (fail : State → State) :
    State :=
  let res := perPort 3 Reg.REGION_RESULT
  let s :=
    if s.boot.ask = who ∧ s.rd res ≠ 0 then s
    else if s.boot.ask = 0 ∨ s.rd res = 0 then
      let w := Reg.REGION_REQ_COMMIT.put (Reg.REGION_REQ_CLASS0.put (Reg.REGION_REQ_PAGES.put 0 pages) (b2n cls0)) (b2n commit)
      if s.flag (resultFld 3 Reg.REGION_RESULT_BUSY) then s
      else { (s.wr (perPort 3 Reg.REGION_REQ) w).regionGo 3 false with boot := { s.boot with ask := who } }
    else s
  if s.boot.ask ≠ who then s
  else
    let s := State.regionRun s.mem.queue.length s
    if s.flag (resultFld 3 Reg.REGION_RESULT_BUSY) then s
    else
      let st := s.fld (resultFld 3 Reg.REGION_RESULT_STATUS)
      let h := s.fld (resultFld 3 Reg.REGION_RESULT_HANDLE)
      let s : State := { s with boot := { s.boot with ask := 0 } }
      if st = 0 then go s h else fail s

/-- INFO0 to INFO2 of the handle in SEL (R350). -/
def State.regionInfo (s : State) (k : Nat) : Word :=
  match s.region (s.fld ⟨Reg.REGION_SEL, 0, 6⟩) with
  | none => 0
  | some r =>
    BitVec.ofNat 32 (match k with
      | 0 => r.pages + 2 ^ 16 + (if r.cls0 then 2 ^ 17 else 0) + (if r.byCtl then 2 ^ 18 else 0)
      | 1 => ((List.range r.pages).filter (fun i => mapCommitted (s.mapEntry (r.base + i)))).length
      | _ => r.base)

/-! Beats (R338 to R344). -/

/-- Whether an access of a class other than 0 has to wait for the migration of its page (R343). -/
def State.migWaits (s : State) (e h ofs : Nat) : Bool :=
  engineClass e != 0 && e != 7 &&
  (match s.region h with
   | some r => ofs < r.pages * 65536 && mapMigrating (s.mapEntry (r.base + ofs / 65536))
   | none => false)

/-- A read of the beat finds a word with a single-bit error (1) or an uncorrectable one (2), at a word of the beat. -/
def State.beatEcc (s : State) (h ofs ecc word : Nat) : State :=
  match s.xlate h (ofs / 64 * 64 + 8 * (word % 8)) with
  | none => s
  | some pa =>
    if ecc = 1 then s.eccCorrect pa
    else if ecc = 2 ∧ !s.poisoned pa then { s with mem := { s.mem with poison := pa / 8 :: s.mem.poison } }
    else s

/-- One beat of an engine: the read or the write itself, and its fault (R338, R341). -/
def State.beat (s : State) (e h ofs : Nat) (wr : Option (List Byte)) : State :=
  match wr with
  | none =>
    let (s, k, _) := s.beatsRead e h (ofs / 64 * 64) 64
    if k != 0 && engineHalts e then s.memHalt e h (ofs / 64 * 64) none else s
  | some l => if engineHalts e then (s.storeRun e h ofs l).1 else (s.beatsWrite e h ofs l).1

/-! The schedule of a channel (R338). -/

def chanGet (m : Cells Nat) (k : Nat) : Nat := Cells.get (fun _ => 0) m k
def chanSet (m : Cells Nat) (k v : Nat) : Cells Nat := Cells.set (fun _ => 0) m k v

/-- The weight of a class, 1 to 4. -/
def State.classWeight (s : State) (k : Nat) : Nat := s.fld ⟨Reg.SCHED_WEIGHT, 8 * (k - 1), 8⟩

/-- The class whose turn it is among some waiting classes 1 to 4, and whether a new round begins with it: in a round each
class has as many beats as its weight, C1 first (log entry 78); one with weight 0 is served when no other waits. -/
def State.classTurn (s : State) (ch : Nat) (classes : List Nat) : Nat × Bool :=
  let low := fun (l : List Nat) => l.foldl min 4
  let weighted := classes.filter (fun k => s.classWeight k != 0)
  if weighted.isEmpty then (low classes, false)
  else
    let left := weighted.filter (fun k => chanGet s.mem.credit (8 * ch + k) != 0)
    if left.isEmpty then (low weighted, true) else (low left, false)

/-- The weights of a new round. -/
def State.newRound (s : State) (ch : Nat) : State :=
  { s with mem := { s.mem with
      credit := [1, 2, 3, 4].foldl (fun m k => chanSet m (8 * ch + k) (s.classWeight k)) s.mem.credit } }

/-- A class spends one beat of its round. -/
def State.spend (s : State) (ch k : Nat) : State :=
  { s with mem := { s.mem with credit := chanSet s.mem.credit (8 * ch + k) (chanGet s.mem.credit (8 * ch + k) - 1) } }

/-- A channel turns to an engine of class 1 to 4, if its schedule does so while others wait on it: the copy of a page
comes first (R347), then the engine that class 0 has pre-empted, then the class whose turn it is. -/
def State.chanTurn (s : State) (ch e : Nat) (waiting : List Nat) : Option State :=
  let others := (e :: waiting).filter (fun x => engineClass x != 0)
  let kept := chanGet s.mem.preempted ch
  let go := fun (t : State) => some ({ t with mem := { t.mem with
    lastEng := chanSet t.mem.lastEng ch (e + 1), preempted := chanSet t.mem.preempted ch 0 } } : State)
  if s.mem.copies.any (fun c => !c.ended) ∧ others.contains 7 then (if e = 7 then go s else none)
  else if kept ≠ 0 ∧ others.contains (kept - 1) then (if e + 1 = kept then go (s.spend ch (engineClass e)) else none)
  else
    let turn := s.classTurn ch (others.map engineClass)
    if engineClass e ≠ turn.1 then none
    else go ((if turn.2 then s.newRound ch else s).spend ch turn.1)

/-- Class 0 takes a channel: a transfer of class 1 to 4 under way there is pre-empted. -/
def State.preempts (s : State) (ch : Nat) (waiting : List Nat) : State :=
  let last := chanGet s.mem.lastEng ch
  if last ≠ 0 ∧ waiting.contains (last - 1) then
    ({ s with mem := { s.mem with
        preempted := chanSet s.mem.preempted ch last, lastEng := chanSet s.mem.lastEng ch 0 } } : State).bump Reg.SCHED_PREEMPT
  else s

/-- Whether a forced refresh holds a channel (R338). -/
def State.refreshing (s : State) (ch : Nat) : Bool := decide (s.now < chanGet s.mem.refreshTo ch)

/-- The beat of an engine that was resumed while DRAM slept (R342). -/
def State.resumed (s : State) (e : Nat) : Option HaltedBeat :=
  s.mem.halted.find? (fun x => x.engine == e && x.resumed)

/-- An engine is halted no more. -/
def State.unhalt (s : State) (e : Nat) : State :=
  let s := s.put (Reg.MEMC_FLT_INFO_HALTED e) 0
  let s := if e = 9 then s.put Reg.BULK_BSTAT_HALTED 0 else s
  { s with mem := { s.mem with halted := s.mem.halted.filter (fun x => x.engine ≠ e) } }

/-- An engine that was resumed goes on, once DRAM is ready. -/
def State.resumeRun (s : State) (e : Nat) : State :=
  match s.resumed e with
  | none => s
  | some b => if s.dramReady then (s.unhalt e).beat e b.handle b.ofs b.wr else s.dramWake

/-- A channel serves one beat (R338, R339); `waiting` are the engines that wait on it besides. A class-0 request beyond
its window's budget, a request of another class while DRAM sleeps or its page migrates, and one out of its turn are not
served yet. -/
def State.dramBeat (s : State) (e h ofs : Nat) (wr : Option (List Byte)) (ecc word lat : Nat) (waiting : List Nat) : State :=
  let ch := ((s.xlate h ofs).map channelOf).getD 0
  let n := chanGet s.mem.admitted ch
  let serve := fun (s : State) => (if wr.isNone then s.beatEcc h ofs ecc word else s).beat e h ofs wr
  if engineClass e = 0 then
    if s.refreshing ch then s
    else if s.c0Budget ≤ n then s.bump Reg.MEMC_C0_HELD
    else
      let s : State := { s with mem := { s.mem with admitted := chanSet s.mem.admitted ch (n + 1) } }
      serve ((s.preempts ch waiting).c0Latency (lat + s.c0Extra))
  else if !s.dramReady then s.dramWake
  else if (s.resumed e).isSome then s.resumeRun e
  else if s.mem.halted.any (fun x => x.engine == e) then s
  else if s.migWaits e h ofs ∨ s.refreshing ch ∨ (n < s.c0Budget ∧ waiting.any (fun x => engineClass x == 0)) then s
  else
    match s.chanTurn ch e waiting with
    | none => s
    | some t => serve t

/-- A class-0 admission window opens (R339). -/
def State.c0Window (s : State) : State := { s with mem := { s.mem with admitted := [] } }

/-- A refresh of a channel falls due (R338): class 0 may postpone it four times; then it is forced, and holds the channel
for 350 ns. -/
def State.refresh (s : State) (ch : Nat) (busy : Bool) : State :=
  let n := chanGet s.mem.postponed ch
  if busy ∧ n < 4 then { s with mem := { s.mem with postponed := chanSet s.mem.postponed ch (n + 1) } }
  else
    { s with mem := { s.mem with
        postponed := chanSet s.mem.postponed ch 0
        refreshTo := if busy then chanSet s.mem.refreshTo ch (s.now + 350 * ticksPerNs) else s.mem.refreshTo } }

/-! The operating point (R330). -/

/-- The dies go into self-refresh: the switch is under way, once it is due and no copy is in progress (R347). -/
def State.mopStart (s : State) : State :=
  if s.mem.mopDue ∧ s.mem.copies.all (fun c => c.ended) then s.put Reg.MEMC_STATUS_SWITCHING 1 else s

/-- The switch ends: the new point is in use. -/
def State.mopEnd (s : State) : State :=
  if s.flag Reg.MEMC_STATUS_SWITCHING then
    let s : State := { s.put Reg.MEMC_STATUS_SWITCHING 0 with mem := { s.mem with mopDue := false } }
    ((s.put Reg.MEMC_STATUS_MOP_ACTIVE (min 2 (s.fldA Reg.MEMC_CFG_MOP))).bump Reg.MEMC_MOP_SWITCHES).raise 0x110 3
  else s

/-- Whether a switch may still begin: in the vertical blanking, with 20 µs to the next boundary, or with no frame. -/
def State.mopMay (s : State) : Bool :=
  !s.tim.running || (decide (s.vact < s.tim.line) && decide (s.now + 20 * ticksPerUs ≤ s.tim.next))

/-- The memory operating point changes: the switch under way ends, or one that a copy kept waiting runs. -/
def State.mopSwitch (s : State) : State :=
  (if s.flag Reg.MEMC_STATUS_SWITCHING ∨ !s.mopMay then s else s.mopStart).mopEnd

/-! Scrubbing and retirement (R345 to R347). -/

/-- The region that owns a physical page, and the offset of a physical address in it. -/
def State.owner (s : State) (pa : Nat) : Option (Nat × Nat) :=
  let idx := s.physEntry (pa / 65536) % 65536
  if s.pageState (pa / 65536) = 1 then
    (s.mem.regions.find? (fun r => r.base ≤ idx && idx < r.base + r.pages)).map (fun r =>
      (r.handle, (idx - r.base) * 65536 + pa % 65536))
  else none

/-- The committed pages. -/
def State.pagesUsed (s : State) : Nat :=
  (s.mem.regions.map (fun r => ((List.range r.pages).filter (fun i => mapCommitted (s.mapEntry (r.base + i)))).length)).sum

/-- A pass over every committed page, 1,024 beats each: the addresses of the words found with a single-bit error, and of
those found uncorrectable besides the poisoned ones (R345). -/
def State.scrub (s : State) (corr unc : List Nat) : State :=
  if !s.flag Reg.ECC_SCRUB_EN then s
  else if !s.dramReady then s.dramWake
  else
    let s := s.beats 1 (1024 * s.pagesUsed)
    let s := s.each corr (fun pa s => if (s.owner pa).isSome then s.eccCorrect pa else s)
    let s := s.each ((unc.map (· / 8 * 8) ++ s.mem.poison.map (8 * ·)).eraseDups) (fun pa s =>
      match s.owner pa with
      | some (h, ofs) =>
        let s : State := if s.poisoned pa then s else { s with mem := { s.mem with poison := pa / 8 :: s.mem.poison } }
        (s.eccUncorr pa).memFault 6 3 h (ofs / 64 * 64) 0
      | none => s)
    s.bump Reg.ECC_SCRUB_PASSES

/-- The map entries of finished copies point at their new pages (R347). -/
def State.remap (s : State) : State :=
  let s := s.each (s.mem.copies.filter (·.ended)) (fun c s =>
    (s.setMap c.mapIdx c.newPage true false).setPhys c.oldPage 0 2)
  { s with mem := { s.mem with copies := s.mem.copies.filter (fun c => !c.ended) } }

/-- The copy of a page ends (R347): its bytes are in the new page, an uncorrectable granule stays uncorrectable. The
map follows at the next output line start, at once while no output frame runs. -/
def State.copyEnds (s : State) : State :=
  match s.mem.copies.find? (fun c => !c.ended) with
  | none => s
  | some c =>
    let rest := (c.copied + 255) / 256 * 256
    -- a beat read and a beat written for each of the page's 1,024
    let s := s.beats 1 2048
    let s := s.dramWrite (c.newPage * 65536 + rest) (s.dramRead (c.oldPage * 65536 + rest) (65536 - rest))
    let bad := s.mem.poison.filter (fun w => w / 8192 == c.oldPage)
    let gran := (bad.map (fun w => w % 8192 / 32)).eraseDups
    let new := gran.flatMap (fun g => (List.range 32).map (fun i => c.newPage * 8192 + g * 32 + i))
    let at' := (s.owner (c.oldPage * 65536)).getD (0, 0)
    let s := s.each ((bad.map (fun w => w % 8192 / 8)).eraseDups) (fun b s => s.memFault 7 3 at'.1 (at'.2 + 64 * b) b)
    let s : State := { s with mem := { s.mem with
      poison := s.mem.poison ++ new
      copies := s.mem.copies.map (fun x => if x.oldPage = c.oldPage then { x with copied := 65536, ended := true } else x) } }
    let s := (s.bump Reg.ECC_RETIRED).raise 0x113 2
    if s.tim.running then s else s.remap

/-- RETIRE_CMD (R352). -/
def State.retireCmd (s : State) (w : Word) : State :=
  let p := w.toNat % 32768
  if !bit w.toNat 31 ∨ !s.mapUp then s
  else
    match s.pageState p with
    | 0 => s.retireFreePage p
    | 1 => s.retireStart p
    | _ => s

/-- ET_DATA is read (R352), through the allocator's access to B33 (R358). -/
def State.etRead (s : State) : State × Word :=
  let p := s.fld ⟨Reg.ECC_ET_ADDR, 0, 15⟩
  let (s, w) := s.bankRd 33 ownAlloc (0x18000 + p)
  (s.put ⟨Reg.ECC_ET_ADDR, 0, 15⟩ (p + 1), w)

/-! BULK (R348, R353). -/

/-- The bytes of a transfer. -/
def State.bulkLen (s : State) : Nat :=
  let n := s.fld Reg.BULK_CTRL_LEN / 8 * 8
  if n = 0 ∨ 2048 < n then 2048 else n

/-- CTRL is written; GO is ignored while a transfer is under way, which goes on as it began (log entry 83). -/
def State.bulkCtrl (s : State) (w : Word) : State :=
  let s := s.wr Reg.BULK_CTRL (w &&& 0x0FFF0006)
  if Reg.BULK_CTRL_GO.get w = 0 ∨ s.flag Reg.BULK_BSTAT_BUSY then s
  else
    let job : BulkJob := ⟨s.fld Reg.BULK_TARGET_HANDLE, (s.rd Reg.BULK_OFFSET).toNat / 8 * 8, s.bulkLen,
      s.flag Reg.BULK_CTRL_DIR, 0⟩
    let s := (s.wrN Reg.BULK_BSTAT 1).wrN Reg.BULK_DONE_BYTES 0
    { s with mem := { s.mem with bulk := job } }

/-- Bytes of the window. -/
def State.winBytes (s : State) (pos n : Nat) : List Byte :=
  (List.range n).map (fun i =>
    BitVec.ofNat 8 ((s.rd (Reg.BULK_WIN ((pos + i) / 4))).toNat / 256 ^ ((pos + i) % 4)))

def State.winPut (s : State) (pos : Nat) (l : List Byte) : State :=
  s.each l.zipIdx (fun e s =>
    let i := pos + e.2
    s.put ⟨Reg.BULK_WIN (i / 4), 8 * (i % 4), 8⟩ e.1.toNat)

/-- BULK's transfer is over. -/
def State.bulkOver (s : State) (ok : Bool) : State :=
  let j := s.mem.bulk
  let s := s.wrN Reg.BULK_DONE_BYTES j.pos
  let s := if ok ∧ s.flag Reg.BULK_CTRL_AUTO_INC then s.wrN Reg.BULK_OFFSET ((s.rd Reg.BULK_OFFSET).toNat + j.len) else s
  if ok then (s.wrN Reg.BULK_BSTAT 2).raise 0x114 0 else (s.wrN Reg.BULK_BSTAT 4).raise 0x114 1

/-- The beat of BULK at its position: its bytes, and whether it faulted. -/
def State.bulkBeat (s : State) : State × Bool :=
  let j := s.mem.bulk
  let ofs := j.ofs + j.pos
  let n := min (j.len - j.pos) (64 - ofs % 64)
  let h := j.handle
  -- the beats of the transfer that are done
  let past := ofs / 64 - j.ofs / 64
  let step := fun (s : State) => { s with mem := { s.mem with bulk := { j with pos := j.pos + n } } }
  if j.dir then
    let (s, k, l) := s.engRead 9 h ofs n
    if k = 0 then (step (s.winPut j.pos l), false) else ((s.fltDone k 9 past).memHalt 9 h ofs none, true)
  else
    let l := s.winBytes j.pos n
    let (s, k) := s.engWrite 9 h ofs l
    if k = 0 then (step s, false) else ((s.fltDone k 9 past).memHalt 9 h ofs (some l), true)

/-- The rest of a transfer: to its end, a fault, or a page that migrates. -/
def State.bulkRun : Nat → State → State
  | 0, s => s
  | n + 1, s =>
    if s.mem.bulk.len ≤ s.mem.bulk.pos then s.bulkOver true
    else if s.migWaits 9 s.mem.bulk.handle (s.mem.bulk.ofs + s.mem.bulk.pos) then s
    else
      let (s, bad) := s.bulkBeat
      if bad then s else State.bulkRun n s

/-- A transfer ends (R348): BULK moves what it has not moved yet. -/
def State.bulkDone (s : State) : State :=
  if !s.flag Reg.BULK_BSTAT_BUSY || s.flag Reg.BULK_BSTAT_HALTED then s
  else if !s.dramReady then s.dramWake
  else s.bulkRun 34

/-- The window is accessed (R348). -/
def State.bulkWinRead (s : State) (i : Nat) : Word := if s.flag Reg.BULK_BSTAT_BUSY then 0 else s.rd (Reg.BULK_WIN i)
def State.bulkWinWrite (s : State) (i : Nat) (w : Word) : State :=
  if s.flag Reg.BULK_BSTAT_BUSY then s.bump Reg.BULK_WIN_DROP else s.wr (Reg.BULK_WIN i) w

/-! Halted engines (R342). -/

def State.haltedBeat (s : State) (e : Nat) : Option HaltedBeat :=
  s.mem.halted.find? (fun x => x.engine == e && !x.resumed)

/-- A halted engine is told to go on with a beat: HALTED clears, and it goes on once DRAM is ready. -/
def State.haltGo (s : State) (b : HaltedBeat) : State :=
  let t := s.unhalt b.engine
  ({ t with mem := { t.mem with halted := { b with resumed := true } :: t.mem.halted } } : State).resumeRun b.engine

/-- The core's transfer is given up (ABORT of engine 13): a store into a region, or a load by a service, fails. -/
def State.coreAbort (s : State) (wr : Bool) : State :=
  let b := s.boot
  let s : State := { s with boot := { b with
    skipped := []
    copyTo := if wr then b.copyTo.map (fun x => (x.1, x.2.1, 0)) else b.copyTo
    image := if wr then b.image else b.image.map (fun x => (x.1, 0)) } }
  if !wr ∧ (s.fld Reg.CTL_MBOX_CMD_CODE = 0x40 ∨ s.fld Reg.CTL_MBOX_CMD_CODE = 0x41) then s.mboxEnd 6 else s

/-- Whether a port may command an engine: BULK from the host, engines 12 and 13 from the firmware alone. -/
def mayCommand (port e : Nat) : Bool := if port = 3 then e == 12 || e == 13 else e == 9

/-- RESUME retries the beat and goes on. -/
def State.fltResume (s : State) (e : Nat) : State :=
  match s.haltedBeat e with
  | none => s
  | some b => if e = 9 then (s.unhalt 9).bulkDone else s.haltGo b

/-- SKIP drops the beat and goes on: a dropped read delivers zeros. -/
def State.fltSkip (s : State) (e : Nat) : State :=
  match s.haltedBeat e with
  | none => s
  | some b =>
    if e ≠ 9 then
      let n := 64 - b.ofs % 64
      match b.wr with
      | none =>
        { s.unhalt e with boot := { s.boot with
            skipped := if e = 13 then (b.handle, b.ofs / 64 * 64) :: s.boot.skipped else s.boot.skipped } }
      | some l => if l.length ≤ n then s.unhalt e else s.haltGo { b with ofs := b.ofs + n, wr := some (l.drop n) }
    else
      let s := s.unhalt 9
      let j := s.mem.bulk
      let n := min (j.len - j.pos) (64 - b.ofs % 64)
      let s := if b.wr.isNone then s.winPut j.pos (List.replicate n 0) else s
      { s with mem := { s.mem with bulk := { j with pos := j.pos + n } } }.bulkDone

/-- ABORT ends the transfer. -/
def State.fltAbort (s : State) (e : Nat) : State :=
  match s.haltedBeat e with
  | none => s
  | some b =>
    if e = 9 then (s.unhalt 9).bulkOver false
    else if e = 13 then (s.unhalt e).coreAbort b.wr.isSome
    else s.unhalt e

/-- FLT_CMD of an engine is written. -/
def State.fltCmd (s : State) (port e : Nat) (w : Word) : State :=
  if !mayCommand port e then s
  else if bit w.toNat 2 then s.fltAbort e
  else if bit w.toNat 1 then s.fltSkip e
  else if bit w.toNat 0 then s.fltResume e
  else s

/-- An access has waited 40 µs for a migration (R343); the end of a TABLE packet follows in Link. -/
def State.migTimeout (s : State) (e h ofs : Nat) (wr : Option (List Byte)) : State :=
  if s.migWaits e h ofs then
    let s := s.memFault e 4 h (ofs / 64 * 64) 0
    if engineHalts e then s.memHalt e h ofs wr
    else if e = 10 ∧ s.flag Reg.CODEC_RB_STATUS_BUSY then
      (((s.put Reg.CODEC_RB_STATUS_BUSY 0).put Reg.CODEC_RB_STATUS_READY 1).put Reg.CODEC_RB_STATUS_ERR 1).raise 0x42 6
    else if e = 11 ∧ s.flag Reg.PATCH_CHECK_STATUS_BUSY then
      { (s.wrN Reg.PATCH_CHECK_STATUS 6).raise 0x60 3 with pat := { s.pat with check := none } }
    else s
  else s

/-! The control core's loads from a region (engine 13). -/

/-- Whole beats of a region from an offset on, a beat that was skipped as zeros; none at a fault, which halts the core's
load. -/
def State.coreBeats (h : Nat) : List Nat → State → State × Option (List Byte)
  | [], s => (s, some [])
  | b :: l, s =>
    if s.boot.skipped.contains (h, b) then
      let (t, r) := State.coreBeats h l s
      (t, r.map (List.replicate 64 0 ++ ·))
    else
      let (s, k, d) := s.engRead 13 h b 64
      if k ≠ 0 then (s.memHalt 13 h b none, none)
      else
        let (t, r) := State.coreBeats h l s
        (t, r.map (d ++ ·))

/-- The core loads bytes of a region and goes on with them; it waits for DRAM (R331) and while it is halted. -/
def State.coreLoad (s : State) (h ofs n : Nat) (go : State → List Byte → State) : State :=
  if s.mem.halted.any (fun x => x.engine == 13) then s
  else if !s.dramReady then s.dramWake
  else
    match State.coreBeats h ((List.range ((ofs % 64 + n + 63) / 64)).map (fun i => ofs / 64 * 64 + 64 * i)) s with
    | (t, none) => t
    | (t, some l) => go t ((l.drop (ofs % 64)).take n)

/-- A service of the core is done with what it loaded. -/
def State.loaded (s : State) : State := { s with boot := { s.boot with skipped := [] } }

/-- The core stores bytes into a region for a service, which goes on once they are there: after a fault when engine 13
has been resumed (R341, R342), and with `fail` when its store was aborted. -/
def State.coreStore (s : State) (who h : Nat) (l : List Byte) (go : State → Nat → Nat → State) : State :=
  let (t, k) := s.storeRun 13 h 0 l
  if k = 0 then go t h l.length else { t with boot := { t.boot with copyTo := some (who, h, l.length) } }

/-- A service whose store into a region was held up. -/
def State.coreStored (s : State) (who : Nat) (go : State → Nat → Nat → State) (fail start : State → State) : State :=
  match s.boot.copyTo with
  | none => start s
  | some (w, h, n) =>
    let done : State := { s with boot := { s.boot with copyTo := none } }
    if w ≠ who then s
    else if n = 0 then fail done
    else if (s.resumed 13).isSome then s.resumeRun 13
    else if s.mem.halted.any (fun x => x.engine == 13) then s
    else go done h n

/-- A class 1 to 4 request is made once DRAM is ready, and wakes it otherwise (R331). -/
def State.withDram (s : State) (f : State → State) : State := if s.dramReady then f s else s.dramWake

end Sys2Proof.Machine
end

