-- ==== Sys2Proof/Machine/Cas.lean ====
section
/-! DEFINITION. Device groups (R469 to R476): the lanes between members, positions, frame sync and seams. Lane k faces
edge k (0 east, 1 south, 2 west, 3 north), in both directions. Tunnelling is in Access.lean. -/

namespace Sys2Proof.Machine

/-! Edges. -/

def State.setCasEdge (s : State) (k : Nat) (x : CasEdge) : State :=
  { s with cas := { s.cas with edges := Cells.set (fun _ => CasEdge.atReset) s.cas.edges k x } }

/-- CAS.LANE_STATE of a lane: 0 DOWN, 1 TRAINING, 2 UP, 3 ABSENT. -/
def casLaneFld (k : Nat) : Fld := ⟨Reg.CAS_LANE_STATE, 4 * k, 3⟩
def State.casUp (s : State) (k : Nat) : Bool := s.fld (casLaneFld k) == 2
def State.casRoot (s : State) : Bool := s.groupMember && s.flag Reg.HOSTIF_STRAPS_CAS_ROLE

/-- Whether a lane takes part (R470). -/
def State.casLaneOn (s : State) (k : Nat) : Bool := s.groupMember && bit (s.fld Reg.CAS_CFG_LANE_EN) k

/-! Blocks (R65, R471). -/

/-- A control block leaves on a cascade lane. -/
def State.casControl (s : State) (k ctype : Nat) (body : List Byte) : State :=
  s.casSend k 2 (leVal (ctlBlock ctype k body))

/-- A payload follows as data rows, with its CRC-32. -/
def State.casData (s : State) (k : Nat) (l : List Byte) : State :=
  let l := l ++ leBytes 4 (crc32 l)
  s.each (chunks 16 l) (fun b s => s.casSend k 1 (leVal b))

/-! Training (R471): the phases of R83 in-band. -/

/-- The rate limit of an attempt (R84): CFG's, and RATE.MAX of both directions (R57). -/
def State.casRate (s : State) (k retry : Nat) : Nat :=
  min (s.fld Reg.CAS_CFG_RATE_MAX) (min (s.fld (Reg.PHY_RATE_MAX (phyBase (laneCasTx k))))
    (s.fld (Reg.PHY_RATE_MAX (phyBase (laneCasRx k))))) - (retry - 1)

/-- A TS1 block leaves: the preset in use, and in its place the one asked of the neighbour in EQ (log entry 68), LANES and
RATE. -/
def State.casTs1Send (s : State) (k preset : Nat) : State :=
  s.casControl k rowTS1 ([BitVec.ofNat 8 preset, 0, BitVec.ofNat 8 (s.fld (Reg.PHY_RATE_CUR (phyBase (laneCasTx k))))]
    ++ List.replicate 9 0x4A)

/-- Training blocks leave once the transmitter is in L0. -/
def State.casLaneUp (s : State) (k : Nat) : State :=
  if s.fld (casLaneFld k) = 1 ∧ (s.casEdge k).phase = 2 then s.casTs1Send k (s.fld (Reg.PHY_TXEQ_PRESET (phyBase (laneCasTx k))))
  else s

/-- An attempt starts: both directions at the rate of the attempt, TS1 blocks leave. -/
def State.casAttempt (s : State) (k retry : Nat) : State :=
  let s := (s.put (casLaneFld k) 1).setCasEdge k { s.casEdge k with
    phase := 2, retries := retry, since := s.now, preset := 0, height := 0, best := 0 }
  let r := s.casRate k retry
  let plain := fun (x : Lane) => { x with scrambled := false }
  let s := ((s.mapLane (laneCasTx k) plain).mapLane (laneCasRx k) plain)
  let s := (s.put (Reg.PHY_RATE_CUR (phyBase (laneCasTx k))) r).put (Reg.PHY_RATE_CUR (phyBase (laneCasRx k))) r
  let s := (s.put (Reg.PHY_RXSTAT_LOCK (phyBase (laneCasRx k))) 0).laneProto (laneCasRx k) 0
  (s.laneProto (laneCasTx k) 0).casLaneUp k

/-- A set of attempts starts on a lane that is DOWN. -/
def State.casStart (s : State) (k : Nat) : State :=
  if s.casLaneOn k && s.fld (casLaneFld k) == 0 then s.casAttempt k 0 else s

/-- Lanes follow CFG (R470): those in use start, the others go DOWN. -/
def State.casFollow (s : State) : State :=
  s.each (List.range 4) (fun k s =>
    if s.casLaneOn k then s.casStart k
    else
      let s := (s.put (casLaneFld k) 0).setCasEdge k CasEdge.atReset
      (s.laneProto (laneCasTx k) 2).laneProto (laneCasRx k) 2)

/-! Positions (R472). -/

/-- POS with the receiver's position leaves on a lane that is UP. -/
def State.posSend (s : State) (k : Nat) : State :=
  if s.casUp k && s.flag Reg.CAS_POS_VALID then
    let x := s.fld Reg.CAS_POS_X
    let y := s.fld Reg.CAS_POS_Y
    let (x, y) := match k with
      | 0 => (x + 1, y)
      | 1 => (x, y + 1)
      | 2 => (x + 65535, y)
      | _ => (x, y + 65535)
    s.casControl k rowPOS (leBytes 2 x ++ leBytes 2 y ++ leBytes 1 s.casLevels)
  else s

/-- The root takes (0, 0); a device that is in no group has no position (R470). -/
def State.posFollow (s : State) : State :=
  if !s.groupMember then s.wr Reg.CAS_POS 0
  else if s.casRoot ∧ !s.flag Reg.CAS_POS_VALID then
    (s.wrN Reg.CAS_POS (2 ^ 24 + 2 ^ 25)).each [0, 1, 2, 3] (fun k s => s.posSend k)
  else s

/-- CAS.CFG is written. -/
def State.casCfg (s : State) (w : Word) : State :=
  let s := (s.wr Reg.CAS_CFG w).posFollow
  let s := if s.groupMember then s else { s with cas := CasState.atReset }
  s.casFollow

/-- A POS block arrives. -/
def State.posBlock (s : State) (k x y : Nat) : State :=
  if !s.casUp k then s
  else if s.flag Reg.CAS_POS_VALID then
    if x = s.fld Reg.CAS_POS_X ∧ y = s.fld Reg.CAS_POS_Y then s
    else { (s.bump Reg.CAS_POS_ERR).raise 0x120 3 with cas := { s.cas with conflict := true } }
  else if 255 < x ∨ 255 < y then
    { (s.bump Reg.CAS_POS_ERR).raise 0x120 3 with cas := { s.cas with conflict := true } }
  else
    let s := s.wrN Reg.CAS_POS (x + 2 ^ 8 * y + 2 ^ 24)
    s.each [0, 1, 2, 3] (fun k s => s.posSend k)

/-- A lane is UP: its rows are scrambled, and POS leaves on it. On the root a lane that was lost brings a member back
(R476). -/
def State.casNowUp (s : State) (k : Nat) : State :=
  let x := s.casEdge k
  let hot := fun (x : Lane) => { x with scrambled := true, needSeed := true }
  let s := (s.mapLane (laneCasTx k) hot).mapLane (laneCasRx k) hot
  let s := (s.put (casLaneFld k) 2).setCasEdge k { x with phase := 6, retries := 0, synced := false, inUse := false }
  (s.raiseIf (s.casRoot && 0 < x.lostAt) 0x120 2).posSend k

/-- A lane's attempt fails: three retries, then ABSENT (R84, R471). -/
def State.casFails (s : State) (k : Nat) : State :=
  let x := s.casEdge k
  if x.retries < 3 then s.casAttempt k (x.retries + 1)
  else (s.put (casLaneFld k) 3).setCasEdge k { x with phase := 9, since := s.now }

/-- A phase of a lane passes its 10 ms. -/
def State.casTimeout (s : State) (k : Nat) : State :=
  if s.fld (casLaneFld k) = 1 then (s.advance ((s.casEdge k).since + 10000 * ticksPerUs)).casFails k else s

/-- A lane that is ABSENT starts a new set every second (R471). -/
def State.casRetry (s : State) (k : Nat) : State :=
  if s.fld (casLaneFld k) = 3 ∧ s.casLaneOn k then
    (s.advance ((s.casEdge k).since + 1000000 * ticksPerUs)).casAttempt k 0
  else s

/-- A TS1 block: the first one finds bit and block lock, and EQ begins with the first preset asked of the neighbour; from
then on a TS1's PRESET is the neighbour's request for this direction (R48; log entry 68). -/
def State.casTs1 (s : State) (k : Nat) (block : List Byte) (inverted : Bool) : State :=
  if s.fld (casLaneFld k) = 1 ∧ s.laneCarries (laneCasRx k) = true ∧ blockGood block = true ∧ byteAt block 0 = rowTS1 then
    if (s.casEdge k).phase = 2 then
      ((s.laneLocked (laneCasRx k) inverted).setCasEdge k { s.casEdge k with phase := 3, since := s.now, preset := 0 }).casTs1Send k 0
    else s.presetAsked (laneCasTx k) (byteAt block 2)
  else s

/-- One preset of EQ has been measured and the next one is asked for; after the eighth the best one settles, the receiver
chooses its peaking (R41), and ALIGN begins. -/
def State.casEq (s : State) (k height : Nat) : State :=
  let x := s.casEdge k
  if s.fld (casLaneFld k) = 1 ∧ x.phase = 3 then
    let x := if x.preset = 0 ∨ x.height < height then { x with height := height, best := x.preset } else x
    if x.preset < 7 then (s.setCasEdge k { x with preset := x.preset + 1 }).casTs1Send k (x.preset + 1)
    else
      (((s.setCasEdge k { x with phase := 4, since := s.now }).ctleChoose (laneCasRx k)).casTs1Send k x.best).casControl k rowALN
        ([0, 0] ++ List.replicate 10 0xB5)
  else s

/-- An ALN block on a cascade lane: READY, and the lane is UP, or the attempt fails. -/
def State.casAln (s : State) (k : Nat) (block : List Byte) (skew : Nat) : State :=
  if s.fld (casLaneFld k) = 1 ∧ (s.casEdge k).phase = 4 ∧ s.laneCarries (laneCasRx k) = true ∧ blockGood block = true ∧
      byteAt block 0 = rowALN then
    if byteAt block 1 % 16 ≠ (k + 2) % 4 ∨ 256 < skew then s.casFails k else s.casNowUp k
  else s

/-! Loss (R476). -/

/-- A lane leaves UP. -/
def State.casLost (s : State) (k : Nat) : State :=
  if s.casUp k then
    let s := (s.bump Reg.CAS_SEAM_LOST_CNT).raise 0x120 0
    let s := s.setCasEdge k { s.casEdge k with inUse := false, synced := false, lostAt := s.now }
    let s := { s with cas := { s.cas with
      cols := s.cas.cols.filter (fun e => e.1 / 2 ^ 14 ≠ k), rows := s.cas.rows.filter (fun e => e / 32 ≠ k) } }
    let s := (s.put (casLaneFld k) 0).casStart k
    if s.followsFsync ∧ (k = 2 ∨ k = 3) ∧ !s.casUp 2 ∧ !s.casUp 3 then
      ((s.bump Reg.CAS_SYNC_LOSS).raise 0x120 1).fsyncLost
    else s
  else s

/-! Frame sync (R473, R474). -/

/-- An FSYNC leaves. -/
def State.fsyncOn (s : State) (k no delay lp lat : Nat) : State :=
  if s.casUp k then s.casControl k rowFSYNC (leBytes 4 no ++ leBytes 3 delay ++ leBytes 3 lp ++ leBytes 2 lat) else s

/-- The root sends FSYNC at its boundary, 2,000 ns ahead of it (log entry 20). -/
def State.fsyncSend (s : State) : State :=
  if s.casRoot then
    let no := (s.rd Reg.TIMING_FRAME_NO).toNat
    let lp := s.linePeriod % 2 ^ 24
    let s := s.each [0, 1] (fun k s => s.fsyncOn k no 2000 lp s.latLines)
    s.each [0, 1, 2, 3] (fun k s => s.setCasEdge k { s.casEdge k with synced := s.casUp k })
  else s

/-- An FSYNC arrives at an edge: a member takes it from the west, or from the north when no west lane is UP, forwards
it east and south, and places its boundary. -/
def State.fsync (s : State) (k no delay lp lat : Nat) : State :=
  if !s.groupMember ∨ !s.casUp k then s
  else
    -- an FSYNC has arrived: every edge whose lane is UP may take up its seams (R476)
    let s := s.each [0, 1, 2, 3] (fun e s => s.setCasEdge e { s.casEdge e with synced := s.casUp e })
    if s.casRoot ∨ k ≠ (if s.casUp 2 then 2 else 3) then s
    else
      let s := s.each [0, 1] (fun e s => s.fsyncOn e no delay lp lat)
      let s : State := { s with cas := { s.cas with syncWas := some (lp, lat), syncAt := s.now } }
      let s := if lp ≠ s.linePeriod % 2 ^ 24 ∨ lat ≠ s.latLines then s.put Reg.CAS_STATUS_MISMATCH 1 else s
      s.fsyncTarget (s.now + delay * ticksPerNs + (s.rdA Reg.CAS_ROW_OFS).toNat % 2 ^ 14 * s.linePeriod)

/-- STATUS of CAS as it reads: SYNC_OK while an FSYNC came within the last frame. -/
def State.casStatus (s : State) : Word :=
  let ok := s.cas.syncWas.isSome && decide (s.now ≤ s.cas.syncAt + s.tim.period)
  Reg.CAS_STATUS_SYNC_OK.put (s.rd (Reg.HDR_STATUS 0x120)) (b2n ok)

/-- A member drives FSYNC_OUT high for 1 µs from its boundary. -/
def State.fsyncOut (s : State) : State :=
  if s.groupMember then { s.when (s.padsFree 44) (fun s => s.emit .pin 3 [1]) with cas := { s.cas with pulse := true } } else s
def State.fsyncOutEnd (s : State) : State :=
  if s.cas.pulse then
    let s := s.advance (s.tim.f + ticksPerUs)
    { s.when (s.padsFree 44) (fun s => s.emit .pin 3 [0]) with cas := { s.cas with pulse := false } }
  else s

/-- At a boundary, seams are used again on an edge that is UP and has had an FSYNC (R476). -/
def State.casBoundary (s : State) : State :=
  s.each [0, 1, 2, 3] (fun k s =>
    let x := s.casEdge k
    if s.casUp k && x.synced && !x.inUse then s.setCasEdge k { x with inUse := true, lostAt := 0 } else s)

/-! Seams (R475). -/

def pixBytes (l : List Pix) : List Byte := l.flatMap Pix.bytes
def bytesPix (l : List Byte) : List Pix := (chunks 6 l).map pixOf

/-- A SEAM leaves: kind, line or zone row, first column, the payload of `count` items. -/
def State.seamSend (s : State) (k kind line first count : Nat) (l : List Byte) : State :=
  if s.casUp k then
    (s.casControl k rowSEAM (leBytes 1 kind ++ leBytes 2 line ++ leBytes 2 first ++ leBytes 2 count)).casData k l
  else s

/-- A line leaves INPUT: its columns to the east and west, and the lines nearest an edge to the north and south. -/
def State.seamLine (s : State) (y : Nat) (px : List Pix) : State :=
  if !s.groupMember then s
  else
    let w := px.length
    let s := s.seamSend 0 0 y (w - 32) (min 32 w) (pixBytes (px.drop (w - 32)))
    let s := s.seamSend 2 0 y 0 (min 32 w) (pixBytes (px.take 32))
    let s := if y < 32 then s.seamSend 3 1 y 0 w (pixBytes px) else s
    if s.vact ≤ y + 32 then s.seamSend 1 1 y 0 w (pixBytes px) else s

/-- A zone row has been solved: λ and class of the seven columns or rows nearest each edge. -/
def State.seamZones (s : State) (r : Nat) : State :=
  if !s.groupMember ∨ s.zoneCols = 0 then s
  else
    let n := s.zoneCols
    let word := fun c =>
      let z := r * n + c
      leBytes 4 ((levelAt s.levels z).lam.toNat + 2 ^ 16 * s.zoneClass z)
    let run := fun (first count : Nat) => (List.range count).flatMap (fun i => word (first + i))
    let m := min 7 n
    let s := s.seamSend 0 2 r (n - m) m (run (n - m) m)
    let s := s.seamSend 2 2 r 0 m (run 0 m)
    let s := if r < 7 then s.seamSend 3 2 r 0 n (run 0 n) else s
    if s.zoneRows ≤ r + 7 then s.seamSend 1 2 r 0 n (run 0 n) else s

/-- The next zone row is solved, its levels and its seams leave. -/
def State.solveSeam (s : State) : State :=
  let q := s.zon.solved
  if s.zoneRows ≤ q then s else s.solveAndSend.seamZones q

def seamKey (k line : Nat) : Nat := k * 2 ^ 14 + line

/-- Columns beside a line, by its number + 32: those received, or none on a lost line. They are held in the edge's bank
(R475), where each line has 48 words of a ring of 2,048 lines (log entry 100); a bank that does not serve CAS drops them
(R358, R365). -/
def State.seamCols (s : State) (k line : Nat) (px : List Pix) : State :=
  let n := seamBank k
  let held := fun (s : State) (px : List Pix) =>
    ({ s with cas := { s.cas with cols := Cells.set (fun _ => []) s.cas.cols (seamKey k line) px } } : State)
  if s.bankFor n ownCas then
    (held s px).sramPut n (48 * (line % 2048)) ((wordsLsb (pixBytes px)).take 48)
  else (held s (px.map (fun _ => Pix.black))).bankMiss n ownCas true

/-- A SEAM arrives with its payload and CRC-32; what fails it is lost (R478). Columns near the top or bottom go on to the
north or south as corner blocks (KIND 0 there). -/
def State.seam (s : State) (k kind line first count : Nat) (bytes : List Byte) : State :=
  if !s.groupMember ∨ !s.casUp k then s
  else
    let n := if kind = 2 then 4 * count else 6 * count
    let data := bytes.take n
    let good := bytes.length = n + 4 ∧ bytes.drop n = leBytes 4 (crc32 data)
    let s := if good then s else s.bump Reg.CAS_SEAM_CRC
    let v := s.vact
    match kind with
    | 0 =>
      let px := if good then bytesPix data else []
      if k = 0 ∨ k = 2 then
        let s := s.seamCols k (line + 32) px
        let x := if k = 2 then 0 else s.hact
        let s := if good ∧ line < 32 then s.seamSend 3 0 line x count data else s
        if good ∧ v ≤ line + 32 then s.seamSend 1 0 line x count data else s
      else
        let key := if k = 1 then line + 32 + v else line + 32 - v
        s.seamCols (if first = 0 then 2 else 0) key px
    | 1 =>
      if s.flagA Reg.CAS_SEAM_EN ∧ (k = 1 ∨ k = 3) then
        let row := if k = 3 then line + 32 - v else line
        let key := k * 32 + row % 32
        let s := { s with cas := { s.cas with rows := s.cas.rows.filter (· ≠ key) ++ (if good then [key] else []) } }
        if good then
          let base := if k = 3 then 0 else 192 * s.hact
          (s.engWrite 5 (s.fldA Reg.CAS_SEAM_HANDLE) (base + row * 6 * s.hact + 6 * first) data).1
        else s
      else s
    | 2 =>
      if good then
        let s := { s with cas := { s.cas with zoneAt := Cells.set (fun _ => 0) s.cas.zoneAt (k * 1024 + line) s.now } }
        s.each (chunks 4 data).zipIdx (fun e s =>
          let col := if k = 0 then e.2 else if k = 2 then count - 1 - e.2 else first + e.2
          { s with cas := { s.cas with
            zones := Cells.set (fun _ => 0) s.cas.zones (k * 2 ^ 20 + line * 1024 + col) (BitVec.ofNat 32 (leVal e.1)) } })
      else s
    | _ => s

end Sys2Proof.Machine
end

