-- ==== Sys2Proof/Machine/Link.lean ====
section
/-! DEFINITION. The Iante Source Link (R60 to R92, R497 to R501): its rows and packets, training, sleep and wake,
hot-plug, and the frames of the back-channel that need no register access. -/

namespace Sys2Proof.Machine

/-! Link states (R89). -/

def lkDOWN : Nat := 0
def lkDETECT : Nat := 1
def lkRATE : Nat := 2
def lkEQ : Nat := 3
def lkALIGN : Nat := 4
def lkREADY : Nat := 5
def lkUP : Nat := 6
def lkS1 : Nat := 7
def lkS2 : Nat := 8
def lkABSENT : Nat := 9

def State.link (s : State) : Nat := s.fld Reg.ISL_LINK_STATE_STATE
def State.training (s : State) : Bool := 1 ≤ s.link && s.link ≤ 5

/-- Active lanes: 2 to the LANES code in use. -/
def State.islLanes (s : State) : Nat := 2 ^ min 4 (s.fld Reg.ISL_LINK_STATE_LANES)

/-- STATE leaves on the back-channel (R78, R80). -/
def State.stateFrame (s : State) : State :=
  s.bcSend 7 0 [BitVec.ofNat 8 (b2n s.isl.hpd), BitVec.ofNat 8 s.link]

/-- LINK_STATE.STATE changes, and a STATE frame says so (R80). -/
def State.setLink (s : State) (st : Nat) : State :=
  if st = s.link then s else ((s.put Reg.ISL_LINK_STATE_STATE st).stateFrame).pixRefUpdate

/-- A set of main lanes at a rate, the others in LOFF. -/
def State.mainLanes (s : State) (n rate : Nat) : State :=
  s.each (List.range 16) (fun k s =>
    if k < n then
      (s.put (Reg.PHY_RATE_CUR (phyBase (laneIsl k))) rate).laneProto (laneIsl k) 0
    else s.laneProto (laneIsl k) 2)

/-- Whether rows of the main lanes are scrambled from their next row on (R33, R83). -/
def State.scramble (s : State) (on : Bool) : State :=
  s.each (List.range 16) (fun k s => s.mapLane (laneIsl k) (fun x => { x with scrambled := on, needSeed := on }))

/-- BC_RX has a signal, and is up (R81); a lane under test has left its link (R55). -/
def State.bcActive (s : State) : Bool := s.laneCarries laneBcRx && !s.flag (Reg.PHY_RXSTAT_EI (phyBase laneBcRx))
def State.bcUp (s : State) : Bool := s.bcActive && s.flag (Reg.PHY_RXSTAT_LOCK (phyBase laneBcRx))

/-- BC_STAT as it reads (R92): a request waits for its reply only while words come from other members. -/
def State.bcStat (s : State) : Word :=
  BitVec.ofNat 32 (b2n s.bcUp + 2 * b2n (s.laneInL0 laneBcTx) + 4 * b2n s.isl.req.isSome)

/-! Leaving and losing the link. -/

/-- What the link holds of a frame and a packet is gone. -/
def State.linkClear (s : State) : State :=
  { s with isl := { s.isl with
    frame := none, skipping := false, misrun := 0, presets := [], asked := [], heights := [], settling := false, fast := 0
    ready := 0, hold := false } }

/-- Self-refresh takes over when UP, S1 or S2 is left other than through SLEEP (R106), and LINK_DOWN is raised where the
table of R87 says so. -/
def State.linkGone (s : State) (say : Bool) : State :=
  let live := s.link = lkUP ∨ s.link = lkS1 ∨ s.link = lkS2
  if live then
    let up := decide (s.link = lkUP)
    let s := if up then s.srefLinkLeft else s
    let s := s.raiseIf say 0x10 1
    if say || up then s.srefEvent 3 else s
  else s

/-! Training attempts (R82 to R84). -/

/-- A TRAIN frame leaves: PHASE, OP, data. The phase is the code of LINK_STATE (log entry 21). -/
def State.trainSend (s : State) (op : Nat) (data : List Nat) : State :=
  s.bcSend 6 0 ([BitVec.ofNat 8 s.link, BitVec.ofNat 8 op] ++ data.map (BitVec.ofNat 8))

/-- LANES and RATE limits of an attempt: those of CFG, the rate also that of RATE.MAX of every lane that may be used (R57),
and lowered on the second and third retry (R84). -/
def State.lanesLimit (s : State) : Nat := min 4 (s.fld Reg.ISL_CFG_LANES)
def State.rateLimit' (s : State) (retry : Nat) : Nat :=
  (List.range (2 ^ s.lanesLimit)).foldl (fun r k => min r (s.fld (Reg.PHY_RATE_MAX (phyBase (laneIsl k)))))
    (s.fld Reg.ISL_CFG_RATE_MAX) - (retry - 1)

/-- CAPS leave (R82). -/
def State.capsSend (s : State) : State := s.trainSend 1 [s.isl.capLanes, s.isl.capRate, 0x1F]

/-- DETECT of an attempt runs from here: BC_RX has a signal (R83 step 2). -/
def State.detectRuns (s : State) : State :=
  if s.link = lkDETECT ∧ s.isl.hold = true ∧ s.bcActive = true then
    { s with isl := { s.isl with since := s.now, hold := false } }.capsSend
  else s

/-- An attempt starts at DETECT, with the limits of this moment (R89). While BC_RX has no signal it waits there: training
cannot start (R81; log entry 69). -/
def State.attempt (s : State) (retry : Nat) : State :=
  let s := s.linkClear.scramble false
  let s := s.put Reg.ISL_LINK_STATE_RETRY retry
  let s : State := { s with isl := { s.isl with
    since := s.now, capLanes := s.lanesLimit, capRate := s.rateLimit' retry, hold := true } }
  (s.setLink lkDETECT).detectRuns

/-- A phase is reached. -/
def State.phase (s : State) (st : Nat) : State := { s with isl := { s.isl with since := s.now } }.setLink st

/-- An attempt fails (R84). -/
def State.attemptFail (s : State) (reason : Nat) : State :=
  if !s.training then s
  else
    let s := s.trainSend 7 [reason]
    let s := (s.put Reg.ISL_TRAIN_FAIL_PHASE s.link).put Reg.ISL_TRAIN_FAIL_REASON reason
    let s := s.put Reg.ISL_TRAIN_FAIL_FAILED (satAdd 0xFFFF (s.fld Reg.ISL_TRAIN_FAIL_FAILED) 1)
    let retry := s.fld Reg.ISL_LINK_STATE_RETRY
    if retry < 3 then s.attempt (retry + 1)
    else
      let s : State := { s.linkClear with isl := { s.linkClear.isl with idleSeen := false, wakeDue := false } }
      ((s.mainLanes 0 0).setLink lkABSENT |>.bump Reg.ISL_ABSENT_CNT).raise 0x10 2

/-- The conditions under which DOWN starts a set of attempts (R87), and those of ABSENT (R84). -/
def State.canTrain (s : State) : Bool := s.isl.hpd && s.bcActive

/-- The link leaves DOWN or ABSENT. -/
def State.trainStart (s : State) : State :=
  if s.canTrain ∧ (s.link = lkDOWN ∨ (s.link = lkABSENT ∧ s.isl.idleSeen)) then s.attempt 0 else s

/-- The link goes DOWN with every main lane in LOFF (R87). -/
def State.linkDown (s : State) : State :=
  { s.linkClear with isl := { s.linkClear.isl with wakeDue := false } }.mainLanes 0 0 |>.setLink lkDOWN

/-- ISL.CMD.RETRAIN (R87, R89). In ABSENT it starts attempts only while BC_RX has a signal (log entry 69). -/
def State.retrain (s : State) : State :=
  if s.link = lkDOWN then s.trainStart
  else if s.link = lkABSENT then (if s.canTrain then s.attempt 0 else s)
  else
    (s.linkGone true).linkDown.trainStart

/-- A link in UP, or lane 0 in S1, is lost (R87). -/
def State.linkLost (s : State) : State :=
  if s.link = lkUP ∨ (s.link = lkS1 ∧ s.isl.fast = 0) then (s.linkGone true).attempt 0 else s

/-! Hot-plug (R86). -/

/-- The level that ISL_HPD is to have. -/
def State.hpdWant (s : State) : Bool :=
  s.flag Reg.ISL_CFG_EN && s.domCur 2 != domStOFF && !s.flag Reg.ISL_CFG_HPD_LOW && s.isl.pulse.isNone

/-- ISL_HPD follows; low puts the main lanes in LOFF and the link DOWN. -/
def State.hpdFollow (s : State) : State :=
  let want := s.hpdWant
  if want = s.isl.hpd then s
  else
    let s : State := { s with isl := { s.isl with hpd := want } }
    let s := (s.emit .pin 4 [b2n want]).stateFrame
    if want then s else (s.linkGone false).linkDown

/-- ISL.CFG is written. The back-channel lanes come up with EN (log entry 21). -/
def State.islCfg (s : State) (w : Word) : State :=
  let s := s.wr Reg.ISL_CFG w
  let s := if s.flag Reg.ISL_CFG_EN then (s.laneProto laneBcRx 0).laneProto laneBcTx 0 else s
  s.hpdFollow

/-- CMD.HPD_PULSE, and the end of its 2 ms. -/
def State.hpdPulse (s : State) : State :=
  { s with isl := { s.isl with pulse := some (s.now + 2000 * ticksPerUs) } }.hpdFollow
def State.hpdPulseEnd (s : State) : State :=
  match s.isl.pulse with
  | none => s
  | some t => { s.advance t with isl := { (s.advance t).isl with pulse := none } }.hpdFollow

/-! Training messages from the source (R82, R83), in frames that a back-channel that is up has received whole. -/

/-- CAPS: the lesser of each side's maximum is set, or nothing is common. -/
def State.trainCaps (s : State) (lanes rate mask : Nat) : State :=
  if s.link ≠ lkDETECT then s
  else if mask % 32 = 0 then s.attemptFail 5
  else
    let n := min lanes s.isl.capLanes
    let r := min (min rate 7) s.isl.capRate
    let s := (s.trainSend 3 []).phase lkRATE
    let s := (s.put Reg.ISL_LINK_STATE_LANES n).put Reg.ISL_LINK_STATE_RATE r
    let s := s.each (List.range 16) (fun k s => s.put (Reg.PHY_RXSTAT_LOCK (phyBase (laneIsl k))) 0)
    (s.mainLanes (2 ^ n) r).trainSend 2 [n, r]

/-- The presets that EQ tries (R89). -/
def State.presetList (s : State) : List Nat :=
  let m := s.fld Reg.ISL_EQ_CFG_PRESET_MASK
  let m := if m = 0 then 1 else m
  (List.range 8).filter (fun p => bit m p)

def State.laneMask (s : State) : Nat := 2 ^ s.islLanes - 1

/-- A preset is asked for on some lanes. -/
def State.presetReq (s : State) (mask p : Nat) : State :=
  { s.trainSend 4 [mask % 256, mask / 256, p] with isl := { (s.trainSend 4 [mask % 256, mask / 256, p]).isl with
    asked := s.isl.asked ++ [(mask, p)] } }

/-- Every lane in use has bit and block lock: RATE ends, EQ asks for its first preset. -/
def State.rateDone (s : State) : State :=
  if (List.range s.islLanes).all (fun k => s.flag (Reg.PHY_RXSTAT_LOCK (phyBase (laneIsl k)))) then
    let s := (s.trainSend 3 []).phase lkEQ
    let l := s.presetList
    let s : State := { s with isl := { s.isl with presets := l, asked := [], heights := [], settling := false } }
    s.presetReq s.laneMask (l.headD 0)
  else s

/-- TS1 blocks arrive on the lanes of the link that carry it, which lock (R83); a lane on which none arrives whole
does not. -/
def State.ts1 (s : State) (blocks : List (List Byte)) (inverted : Nat) : State :=
  if s.link = lkRATE then
    let s := s.each (List.range s.islLanes) (fun k s =>
      if s.laneCarries (laneIsl k) && blockGood (copyOn blocks k) && byteAt (copyOn blocks k) 0 == rowTS1 then
        s.laneLocked (laneIsl k) (bit inverted k)
      else s)
    s.rateDone
  else s

/-- PRESET_ACK. -/
def State.presetAck (s : State) (mask p : Nat) : State :=
  { s with isl := { s.isl with asked := s.isl.asked.filter (fun a => a ≠ (mask, p)) } }

/-- A height by the bisection of R500: bit VOLT of `pass` says whether that point passes. -/
def edgeBisect (pass : Nat) : Nat → Nat → Nat → Nat
  | 0, lo, _ => lo
  | n + 1, lo, hi =>
    let m := (lo + hi) / 2
    if m = 0 ∨ bit pass m then edgeBisect pass n m hi else edgeBisect pass n lo m
def eyeHeight (up down : Nat) : Nat := edgeBisect up 7 0 128 + edgeBisect down 7 0 128

/-- The best preset of every lane is asked for. -/
def State.chooseBest (s : State) : State :=
  let s : State := { s with isl := { s.isl with settling := true } }
  s.each (List.range 8) (fun p s =>
    let mask := ((List.range s.islLanes).filter (fun k => s.fld (Reg.ISL_LANE_LSTAT_PRESET k) == p)).foldl (fun m k => m + 2 ^ k) 0
    if mask = 0 then s else s.presetReq mask p)

/-- The settling and measurement of a preset end (R500): per lane the passing points above and below. Once the chosen
presets have settled, EQ ends instead, each receiver with the peaking it chose (R41). -/
def State.eqMeasured (s : State) (eyes : List (Nat × Nat)) : State :=
  if s.link ≠ lkEQ ∨ !s.isl.asked.isEmpty then s
  else if s.isl.settling then
    ((s.each (List.range s.islLanes) (fun k s => s.ctleChoose (laneIsl k))).trainSend 3 []).phase lkALIGN
  else
    match s.isl.presets with
    | [] => s
    | p :: rest =>
      let first := s.isl.heights.isEmpty
      let s := s.each (List.range s.islLanes) (fun k s =>
        let e := eyes.getD k (0, 0)
        let h := eyeHeight e.1 e.2
        -- heights are kept one higher, so that a lane not yet measured differs from one with a closed eye
        let best := Cells.get (fun _ => 0) s.isl.heights k
        if first ∨ best < h + 1 then
          { s.put (Reg.ISL_LANE_LSTAT_PRESET k) p with isl := { s.isl with
            heights := Cells.set (fun _ => 0) s.isl.heights k (h + 1) } }
        else s)
      let s : State := { s with isl := { s.isl with presets := rest } }
      match rest with
      | [] => s.chooseBest
      | q :: _ => s.presetReq s.laneMask q

/-- Failing copies of a control row are counted at their lanes (R62). -/
def State.ctlCopies (s : State) (copies : List (List Byte)) : State :=
  s.each (List.range s.islLanes) (fun k s => s.bumpIf (!blockGood (copyOn copies k)) (Reg.ISL_LANE_CTL_CRC_CNT k))

/-- READY leaves. -/
def State.readySend (s : State) : State := { s.trainSend 6 [] with isl := { (s.trainSend 6 []).isl with ready := 1 } }

/-- An ALN row (R83, R500): lane order, from the LANE byte of every copy, and skew, in UI. A row of which a copy fails is
waited past: the source sends one every 64 rows. -/
def State.aln (s : State) (blocks : List (List Byte)) (skews : List Nat) : State :=
  if s.link ≠ lkALIGN then s
  else
    let n := s.islLanes
    let s := s.ctlCopies blocks
    if !(List.range n).all (fun k => blockGood (copyOn blocks k) && byteAt (copyOn blocks k) 0 == rowALN) then s
    else if (List.range n).any (fun k => byteAt (copyOn blocks k) 1 % 16 ≠ k) then s.attemptFail 3
    else if (List.range n).any (fun k => 256 < skews.getD k 0) then s.attemptFail 4
    else
      let s := s.each (List.range n) (fun k s => s.put (Reg.ISL_LANE_LSTAT_SKEW k) (skews.getD k 0))
      ((s.trainSend 3 []).phase lkREADY).readySend

/-! Fast retrain (R85). -/

/-- A fast retrain starts: 1 a wake to some codes, 2 lane 0 at code 0. -/
def State.fastStart (s : State) (kind lanes rate : Nat) : State :=
  let s := (s.mainLanes (2 ^ min 4 lanes) rate).scramble false
  { s with isl := { s.isl with fast := kind, fastLanes := lanes, fastRate := rate, since := s.now, ready := 0 } }

/-- A wake from S1 or S2. -/
def State.wakeTo (s : State) (lanes rate : Nat) : State :=
  let s : State := { s with isl := { s.isl with wakeDue := true } }
  if s.flag Reg.ISL_EQ_CFG_FAST_WAKE then s.fastStart 1 lanes rate
  else s.attempt 0

/-- The lanes that a fast retrain brings up. -/
def State.fastUses (s : State) : Nat := if s.isl.fast = 1 then 2 ^ min 4 s.isl.fastLanes else 1

/-- The phases of a fast retrain close with OK on the back-channel, and READY leaves (R85, as R83). -/
def State.fastReady (s : State) : State :=
  ((s.bcSend 6 0 [2#8, 3#8]).bcSend 6 0 [3#8, 3#8]).bcSend 6 0 [4#8, 3#8] |>.readySend

/-- A fast retrain reaches READY with every lane it uses awake; then the source's READY and, after a wake, the first pip
follow, within 10 ms (R85). -/
def State.fastDone (s : State) : State :=
  if s.isl.fast = 0 ∨ s.isl.ready ≠ 0 ∨ !(List.range s.fastUses).all (fun k => s.laneCarries (laneIsl k)) then s
  else
    let s := s.each (List.range s.fastUses) (fun k s => s.put (Reg.PHY_RXSTAT_LOCK (phyBase (laneIsl k))) 1)
    let s : State := { s with isl := { s.isl with since := s.now } }
    if s.isl.fast = 1 then
      let s := (s.put Reg.ISL_LINK_STATE_LANES s.isl.fastLanes).put Reg.ISL_LINK_STATE_RATE s.isl.fastRate
      (s.setLink lkREADY).fastReady
    else s.fastReady

/-- A fast retrain fails: full training follows; S1 is left for it (R87). -/
def State.fastLost (s : State) : State :=
  if s.isl.fast = 0 then s
  else
    let s := s.bump Reg.ISL_FAST_FAIL
    (if s.isl.fast = 2 then s.linkGone true else s).attempt 0

/-- A fast retrain has not reached READY 300 µs after its start (R85). -/
def State.fastFail (s : State) : State :=
  if s.isl.fast = 0 ∨ s.isl.ready ≠ 0 then s else (s.advance (s.isl.since + 300 * ticksPerUs)).fastLost

/-- A phase, or the wait for the source's READY or the first pip, passes its 10 ms (R83, R85): a timeout of RATE is one of
lanes that did not lock (log entry 69). DETECT does not time while it waits for BC_RX. -/
def State.phaseTimeout (s : State) : State :=
  let at' := s.isl.since + 10000 * ticksPerUs
  if s.isl.fast ≠ 0 then (if s.isl.ready = 0 then s else (s.advance at').fastLost)
  else if s.training ∧ s.isl.hold = false then (s.advance at').attemptFail (if s.link = lkRATE then 2 else 1)
  else s

/-- FAIL from the source. -/
def State.trainFail (s : State) : State := if s.isl.fast ≠ 0 then s.fastLost else s.attemptFail 6

/-- READY from the source: its rows are scrambled from the next one on. The rate change of lane 0 in S1 is then done. -/
def State.trainReady (s : State) : State :=
  if s.isl.ready = 1 then
    { s with isl := { s.isl with since := s.now, ready := 2, fast := if s.isl.fast = 2 then 0 else s.isl.fast } }.scramble true
  else s

/-- WAKE_REQ: only in S2 (R87, R88). -/
def State.wakeReq (s : State) : State :=
  if s.link = lkS2 ∧ s.isl.fast = 0 then s.wakeTo s.isl.upLanes s.isl.upRate else s

/-! Control rows (R62, R66). -/

/-- A row is ignored. -/
def State.ctlErr (s : State) : State := (s.bump Reg.ISL_CTL_ERR).raise 0x10 9

/-- Whether the link carries rows: in UP and S1, and once the source has answered READY (R83). -/
def State.rowsRun (s : State) : Bool :=
  s.link == lkUP || (s.link == lkS1 && s.isl.fast == 0) || (s.link == lkREADY && s.isl.ready == 2)

/-- A control row arrives, a copy on every active lane (R62): failing copies are counted, and a run of skipped data rows and
of misaligned rows ends. Its CTYPE and body when it is accepted. -/
def State.ctlRow (s : State) (copies : List (List Byte)) : State × Option (Nat × List Byte) :=
  if !s.rowsRun then (s, none)
  else
    let s := s.ctlCopies copies
    let s : State := { s with isl := { s.isl with skipping := false, misrun := 0 } }
    match rowAccepted s.islLanes copies with
    | none => (s.ctlErr, none)
    | some r => (s, some r)

/-- A row whose lanes carry different sync headers (R63). -/
def State.misaligned (s : State) : State :=
  if !s.rowsRun then s
  else
    let s := s.bump Reg.ISL_ALIGN_ERR
    if 3 ≤ s.isl.misrun ∧ s.link = lkUP then s.linkLost
    else { s with isl := { s.isl with misrun := s.isl.misrun + 1 } }

/-- The link comes UP at the first pip after READY: LINK_UP after a training, WAKE after a wake, both when a wake went
through full training (R83, R85, R87; log entry 69). -/
def State.linkComesUp (s : State) : State :=
  let s := (s.timLinkUp).setLink lkUP
  let s := (s.raiseIf (s.isl.fast == 0) 0x10 0).raiseIf s.isl.wakeDue 0x10 4
  { s with isl := { s.isl with
    fast := 0, ready := 0, wakeDue := false, upLanes := s.fld Reg.ISL_LINK_STATE_LANES, upRate := s.fld Reg.ISL_LINK_STATE_RATE } }

/-- An accepted PIP row (R67). -/
def State.pipRow (s : State) (no period flags : Nat) : State :=
  let s := if s.link = lkREADY then s.linkComesUp else s
  let s := ((s.wrN Reg.ISL_PIP_FRAME no).wrN Reg.ISL_PIP_PERIOD period).wrN Reg.ISL_PIP_FLAGS (flags % 65536)
  let part := bit flags 2
  let s : State := { s with isl := { s.isl with frame := some ⟨no, part, 0, 0, false, none, none, false⟩ } }
  s.timPip no period (bit flags 0) part

/-- An accepted SLEEP row (R87, R88). -/
def State.sleepRow (s : State) (level : Nat) : State :=
  if level ≠ 1 ∧ level ≠ 2 then s.ctlErr
  else if s.link = lkUP then
    let s := s.bumpIf (match s.isl.frame with | some f => !f.done | none => false) Reg.ISL_SLEEP_MIDFRAME
    let s := s.srefLinkLeft.linkClear.raise 0x10 3
    if level = 1 then
      let s := (s.put Reg.ISL_LINK_STATE_LANES 0).put Reg.ISL_LINK_STATE_RATE 0
      ((s.setLink lkS1).srefEvent 1).fastStart 2 0 0
    else ((s.mainLanes 0 0).setLink lkS2).srefEvent 2
  else if s.link = lkS1 ∧ level = 2 then
    -- the back-channel wakes the link at what it last used in UP
    (((s.linkClear.raise 0x10 3).mainLanes 0 0).setLink lkS2).srefEvent 2
  else s

/-- An accepted WAKE row (R66, R87, R88). -/
def State.wakeRow (s : State) (lanes rate : Nat) : State :=
  if 4 < lanes ∨ 7 < rate ∨ s.link ≠ lkS1 then s.ctlErr
  else s.wakeTo lanes rate

/-- An accepted REGION row (R68, R69, R88): the link keeps its own account of the frame; the frame store takes the
rectangle. -/
def State.regionCtl (s : State) (x y w h : Nat) (flush : Bool) : State :=
  if s.link = lkS1 then s.ctlErr
  else if flush then
    { (s.regionRow x y w h true).1 with isl := { s.isl with frame := s.isl.frame.map (fun f => { f with done := true }) } }
  else
    match s.isl.frame with
    | none => s.ctlErr
    | some f =>
      if !f.part ∨ f.opened ∨ w = 0 ∨ h = 0 ∨ 16 ≤ f.declared then s.ctlErr
      else
        let low := if x < s.hact ∧ y < s.vact then max f.low (min s.vact (y + h)) else f.low
        { (s.regionRow x y w h false).1 with isl := { s.isl with frame := some { f with declared := f.declared + 1, low := low } } }

/-- The META registers show the head of the FIFO (R70, R89). -/
def State.metaShow (s : State) : State :=
  let (no, l) := s.isl.metas.headD (0, [])
  let s := s.put ⟨Reg.ISL_META_STAT, 0, 4⟩ s.isl.metas.length
  let s := (s.wrN Reg.ISL_META_FRAME no).wrN Reg.ISL_META_ENT0 (leVal (l.take 4))
  (s.wrN Reg.ISL_META_ENT1 (leVal ((l.drop 4).take 4))).wrN Reg.ISL_META_ENT2 (leVal ((l.drop 8).take 4))

/-- An accepted META row: its twelve bytes, META_TYPE first. -/
def State.metaRow (s : State) (body : List Byte) : State :=
  let no := match s.isl.frame with | some f => f.no | none => (s.rd Reg.ISL_PIP_FRAME).toNat
  let full := 8 ≤ s.isl.metas.length
  let s := if full then s.bumpBy Reg.ISL_META_STAT_OVF 1 else s
  let l := (if full then s.isl.metas.drop 1 else s.isl.metas) ++ [(no, body.take 12)]
  ({ s with isl := { s.isl with metas := l } }.metaShow).raise 0x10 7

/-- META_POP. -/
def State.metaPop (s : State) (w : Word) : State :=
  if bit w.toNat 0 then { s with isl := { s.isl with metas := s.isl.metas.drop 1 } }.metaShow else s

/-! LINE packets (R71 to R74, R497). -/

/-- The little-endian bit stream of a payload as component codes. -/
def lineCodes (fmt count : Nat) (payload : List Byte) : List (Nat × Nat × Nat) :=
  let n := fmtBits fmt
  let px := fun (bs : Nat) => (bs % 2 ^ n, bs / 2 ^ n % 2 ^ n, bs / 2 ^ (2 * n) % 2 ^ n)
  -- 8 pixels take a whole number of bytes in every format
  ((chunks (3 * n) payload).flatMap (fun g =>
    let v := leVal g
    (List.range 8).map (fun i => px (v / 2 ^ (3 * n * i))))).take count

/-- A line is shown from the previous frame (R74). -/
def State.lineBad (s : State) (y : Nat) : State := s.declareMissing y

/-- The pixels of an accepted segment reach INPUT and STATS, and the line the frame store; a line that completes goes
to the neighbours (R475). While INPUT or CODEC is not ON the line is missing (log entry 29). -/
def State.segmentIn (s : State) (y first fmt : Nat) (codes : List (Nat × Nat × Nat)) (last : Bool) : State :=
  match s.sto.src with
  | none => if s.srefState = 4 then s.bump Reg.SREF_DISCARDED_LINES else s
  | some f =>
    if !(s.domOn 5 && s.domOn 6) then s.declareMissing y
    else if f.needs y ∧ (f.flushed ∨ y < f.next ∨ Cells.get (fun _ => 0) f.missing y ≠ 0) then
      -- the line was declared missing: its data is discarded, its order is kept
      s.segment y first [] last
    else
      let (s, px) := s.inputRun fmt codes
      let s := s.statsAdd y first (px.map (·.y))
      let segs := (match f.cur with | some c => if c.line = y then c.segs else [] | none => []) ++ [(first, px.map (·.pix))]
      let s := (s.pawnKeep y first (px.map (·.pix))).segment y first (px.map (·.pix)) last
      if last ∧ s.groupMember ∧ segsCover segs [(0, s.hact)] then s.seamLine y (denseLine s.hact segs) else s

/-- Order, overlap, parity and place of a segment (R73). A line below the one whose segments arrive is out of order too (log
entry 70). -/
def State.seqBad (s : State) (f : LinkFrame) (y first count par : Nat) : Bool :=
  (match f.last with | some l => y ≤ l | none => false)
  || (match f.cur with | some (l, e) => if l = y then first < e else y < l | none => false)
  || par != f.no % 2 || s.hact < first + count || s.vact ≤ y

/-- Data rows of a LINE packet have arrived, whole or cut short by a control row: the payload bytes of every active lane,
destriped (R61), and whether a block of it had an invalid sync header (R63). Rows that are skipped are aligned rows all the
same. -/
def State.linePacket (s : State) (t : Nat) (lanes : List (List Byte)) (bad : Bool) : State :=
  let s := s.advance t
  let s : State := if s.rowsRun then { s with isl := { s.isl with misrun := 0 } } else s
  if !(s.rowsRun || (s.link == lkS2 && s.isl.fast == 0)) ∨ s.isl.skipping then s
  else
    let bytes := destripe (lanes.take s.islLanes)
    let h := leVal (bytes.take 8)
    let y := bits h 4 13
    let first := bits h 17 13
    let count := bits h 30 13
    let fmt := bits h 43 3
    let last := bit h 46
    let opened := fun (s : State) =>
      let s : State := { s with isl := { s.isl with frame := s.isl.frame.map (fun f => { f with opened := true }) } }
      match s.sto.src with
      | some f => s.setSrc { f with opened := true }
      | none => s
    if bytes.length < 8 then s.bump Reg.ISL_HDR_ERR
    else if crc8 (bytes.take 7) ≠ bits h 56 8 ∨ bits h 0 4 ≠ 1 then
      { s.bump Reg.ISL_HDR_ERR with isl := { s.isl with skipping := true } }
    else
      let s := opened s
      if count = 0 then { (s.bump Reg.ISL_HDR_ERR).lineBad y with isl := { s.isl with skipping := true } }
      else if s.link = lkS1 ∨ s.link = lkS2 then s.bump Reg.ISL_LINE_IN_SLEEP
      else
        match s.isl.frame with
        | none => s.bump Reg.ISL_SEQ_ERR
        | some f =>
          if s.seqBad f y first count (bits h 47 1) then (s.bump Reg.ISL_SEQ_ERR).lineBad y
          else if fmt ≠ s.fldA Reg.INPUT_FMT_FORMAT ∨ 4 < fmt then (s.bump Reg.ISL_FMT_ERR).lineBad y
          else
            let n := (count * pixelBits fmt + 7) / 8
            if bytes.length < 8 + n + 4 then (s.bump Reg.ISL_HDR_ERR).lineBad y
            else
              let payload := (bytes.drop 8).take n
              let (hurt, s) := s.injCrc 0
              let good := !bad && !hurt && (bytes.drop (8 + n)).take 4 == leBytes 4 (crc32 payload)
              let g : LinkFrame := { f with
                opened := true
                last := if last then some y else f.last
                cur := if last then none else some (y, first + count)
                done := f.done || (last && y + 1 == (if f.part then f.low else s.vact)) }
              let s : State := { s with isl := { s.isl with frame := some g } }
              if good then s.segmentIn y first fmt (lineCodes fmt count payload) last
              else ((s.bump Reg.ISL_CRC_LINE).raise 0x10 5).lineBad y

/-! TABLE packets (R75, R76, R501). -/

/-- TABLE_ACK leaves, and the packet is counted. -/
def State.tableAck (s : State) (tag status : Nat) : State :=
  let s := s.bcSend 9 0 (leBytes 2 tag ++ leBytes 1 status)
  if status = 0 then s.bump Reg.ISL_TABLE_OK else (s.bump Reg.ISL_TABLE_NAK).raise 0x10 6

/-- An accepted TABLE row and its data rows: the bytes after the row, CRC-32 included. -/
def State.tablePacket (s : State) (h ofs len tag : Nat) (bytes : List Byte) (bad : Bool) : State :=
  if s.link = lkS1 then { s.ctlErr with isl := { s.ctlErr.isl with skipping := true } }
  else
    let n := len + 1
    let fits := match s.region h with | some r => ofs + n ≤ r.pages * 65536 | none => false
    if !fits ∨ ofs % 64 ≠ 0 then s.tableAck tag 2
    else if 2 ≤ s.isl.staged.length then s.tableAck tag 3
    else if bytes.length < n + 4 then s.tableAck tag 4
    else
      let data := bytes.take n
      if bad || (bytes.drop n).take 4 != leBytes 4 (crc32 data) then s.tableAck tag 1
      else { s with isl := { s.isl with staged := s.isl.staged ++ [⟨tag, h, ofs, data⟩] } }

/-- A control row by its CTYPE (R66), with the data rows that follow a TABLE row and whether a block of them was invalid.
TS1 and ALN are no rows of a running link. -/
def State.controlRow (s : State) (copies data : List (List Byte)) (bad : Bool) : State :=
  match s.ctlRow copies with
  | (s, none) => s
  | (s, some (ctype, b)) =>
    if ctype = rowIDLE ∨ ctype = rowTS1 ∨ ctype = rowALN then s
    else if ctype = rowPIP then s.pipRow (leField b 0 4) (leField b 4 4) (leField b 8 2)
    else if ctype = rowSLEEP then s.sleepRow (byteAt b 0)
    else if ctype = rowWAKE then s.wakeRow (byteAt b 0) (byteAt b 1)
    else if ctype = rowREGION then
      s.regionCtl (leField b 0 2) (leField b 2 2) (leField b 4 2) (leField b 6 2) (bit (byteAt b 8) 0)
    else if ctype = rowTABLE then
      s.tablePacket (byteAt b 0 % 64) (leField b 1 4) (leField b 5 2) (leField b 7 2) (destripe (data.take s.islLanes)) bad
    else if ctype = rowMETA then s.metaRow b
    else s.ctlErr

/-- The commit of the oldest staged packet ends; it waits for DRAM and for a page that migrates (R331, R343). -/
def State.tableCommit (s : State) : State :=
  match s.isl.staged with
  | [] => s
  | t :: rest =>
    if !s.dramReady then s.dramWake
    else if s.migWaits 8 t.handle t.ofs then s
    else
      let (s, k) := s.engWrite 8 t.handle t.ofs t.data
      { s with isl := { s.isl with staged := rest } }.tableAck t.tag (if k = 0 then 0 else 5)

/-- MIGRATION_TIMEOUT (R341, R343): a TABLE packet that waited ends with FAULT. -/
def State.migExpire (s : State) (e h ofs : Nat) (wr : Option (List Byte)) : State :=
  match s.isl.staged with
  | t :: rest =>
    if e = 8 ∧ t.handle = h ∧ s.migWaits 8 h t.ofs then
      let s := s.memFault 8 4 h (t.ofs / 64 * 64) 0
      ({ s with isl := { s.isl with staged := rest } } : State).tableAck t.tag 5
    else s.migTimeout e h ofs wr
  | [] => if e = 8 then s else s.migTimeout e h ofs wr

/-! Lanes report to the link (R45, R46, R81, R87). -/

/-- BC_RX is lost. -/
def State.bcLost (s : State) (was : Bool) : State :=
  s.bumpIf (was && s.link == lkUP) Reg.ISL_BC_BC_LOSS

/-- A receiver lost lock or showed electrical idle; `bcWas` is whether BC_RX was up. -/
def State.laneDown (s : State) (l : Nat) (bcWas : Bool) : State :=
  if l < 16 then
    (if l < s.islLanes ∧ (s.link = lkUP ∨ l = 0) then s.linkLost else s)
  else if l = laneBcRx then
    -- an attempt in DETECT waits until BC_RX has a signal again
    { s.bcLost bcWas with isl := { (s.bcLost bcWas).isl with hold := s.isl.hold || (s.link == lkDETECT && !s.bcActive) } }
  else if 102 ≤ l then s.casLost (l - 102)
  else s

/-- RX_LOCK_LOST (R45). -/
def State.rxLockLost (s : State) (l : Nat) : State :=
  if !laneIsRx l then s
  else
    let was := s.bcUp
    (s.laneLostLock l).laneDown l was

/-- A block of an ISL or CAS receiver is taken; 16 block errors in 64 blocks drop the lock (R30). With far-end loopback its
bits leave again, and under a test they are no blocks of the link (R55, R56). -/
def State.rxBlock (s : State) (l hdr payload : Nat) : State :=
  if !laneHasDfe l || !s.laneInL0 l || s.looped l 1 then s
  else if !s.laneCarries l then s.casEcho l hdr payload
  else
    let (s, drop) := s.takeBlock l hdr payload
    if drop then s.rxLockLost l else s

/-- EI_DETECT and EI_CLEAR (R46). -/
def State.eiDetect (s : State) (l : Nat) : State :=
  if !laneIsRx l then s
  else
    let was := s.bcUp
    let s := s.put (Reg.PHY_RXSTAT_EI (phyBase l)) 1
    let s : State := if l = laneBcRx ∧ s.link = lkABSENT then { s with isl := { s.isl with idleSeen := true } } else s
    s.laneDown l was
def State.eiClear (s : State) (l : Nat) : State :=
  if !laneIsRx l then s
  else
    let idle := s.flag (Reg.PHY_RXSTAT_EI (phyBase l))
    let s := s.put (Reg.PHY_RXSTAT_EI (phyBase l)) 0
    -- BC_RX leaving electrical idle is wake source 1 (R427)
    (if l = laneBcRx ∧ idle then s.wakeSource 1 else s).detectRuns

end Sys2Proof.Machine
end

