-- ==== Sys2Proof/Machine/Nv.lean ====
section
/-! DEFINITION. NVC (R432 to R451): the flash, records and the ring, host operations, the ageing counters and the save.
An operation is a list of steps; the step in front is a flash operation under way until FLASH_OP_DONE. -/

namespace Sys2Proof.Machine

/-! The flash (R432, R433). -/

/-- An erased byte; the model's flash is erased at reset (log entry 22). -/
def flashDefault (_ : Nat) : Byte := 0xFF
def flashSize : Nat := 2 ^ 25
def State.flashRd (s : State) (a n : Nat) : List Byte :=
  (List.range n).map (fun i => Cells.get flashDefault s.nv.flash ((a + i) % flashSize))
/-- Programming clears bits. -/
def State.flashPut (s : State) (a : Nat) (l : List Byte) : State :=
  { s with nv := { s.nv with flash := (l.zipIdx).foldl (fun m e =>
      let k := (a + e.2) % flashSize
      Cells.set flashDefault m k (Cells.get flashDefault m k &&& e.1)) s.nv.flash } }
def State.flashErase (s : State) (a n : Nat) : State :=
  { s with nv := { s.nv with flash := Cells.clearRange s.nv.flash (a / n * n) n } }

def ringBase : Nat := 0x1010000
def factoryBase : Nat := 0x1110000
/-- The parts of the map: 0 boot headers and slots, 1 coarse, 2 ring, 3 factory, 4 unused. -/
def flashPart (a : Nat) : Nat :=
  if a < 0x810000 then 0 else if a < ringBase then 1 else if a < factoryBase then 2 else if a < 0x1120000 then 3 else 4

/-- A refused program or erase (R434). -/
def State.wpRefused (s : State) : State := s.bump Reg.NV_WP_REFUSED
/-- The level of NV_WP_N is sampled. -/
def State.setWp (s : State) (wpN : Bool) : State :=
  { s with nv := { s.nv with wpN := wpN } }.put Reg.NV_STATUS_WP (b2n !wpN)

/-! Sectors and records (R435 to R437). -/

/-- The bytes of a sector header. -/
def sectorHeader (sseq era : Nat) : List Byte :=
  let l := leBytes 4 0x5253564E ++ leBytes 4 sseq ++ leBytes 2 era
  l ++ crc16Bytes l

/-- The bytes of a record, padded to a multiple of 4. -/
def recordBytes (typ id flags seq : Nat) (data : List Byte) : List Byte :=
  let h := [0x5E] ++ leBytes 1 typ ++ leBytes 2 id ++ leBytes 2 data.length ++ leBytes 1 flags ++ [0] ++ leBytes 4 seq ++ [0, 0]
  let l := h ++ crc16Bytes h ++ data
  let l := l ++ leBytes 4 (crc32 l)
  l ++ List.replicate ((4 - l.length % 4) % 4) 0xFF

def recordSize (len : Nat) : Nat := (20 + len + 3) / 4 * 4

/-- What a scan of a sector found: its header (SSEQ, ERA) when valid, its valid records, the records skipped, and
whether it ends in an invalid header. -/
structure SectorScan where
  header : Option (Nat × Nat)
  recs : List NvRec
  invalid : Nat
  torn : Bool
  deriving DecidableEq, Repr

/-- The records of a sector from an offset on (R437). -/
def scanRecords (bytes : Array Byte) (sector sseq era : Nat) : Nat → Nat → List NvRec × Nat × Bool × Nat
  | 0, off => ([], 0, false, off)
  | n + 1, off =>
    let at' := fun (i : Nat) => bytes.getD (off + i) 0xFF
    if 4096 ≤ off ∨ at' 0 = 0xFF then ([], 0, false, off)
    else
      let h := (List.range 16).map at'
      let len := leVal ((h.drop 4).take 2)
      if at' 0 ≠ 0x5E ∨ 4064 < len ∨ 4096 < off + recordSize len ∨ crc16Bytes (h.take 14) ≠ h.drop 14 then ([], 0, true, off)
      else
        let body := (List.range (16 + len)).map at'
        let crc := leVal ((List.range 4).map (fun i => at' (16 + len + i)))
        let (l, bad, torn, fin) := scanRecords bytes sector sseq era n (off + recordSize len)
        if crc32 body = crc then
          (⟨sector, off, era, sseq, (at' 1).toNat, leVal ((h.drop 2).take 2), len, (at' 6).toNat, leVal ((h.drop 8).take 4), crc⟩ :: l,
            bad, torn, fin)
        else (l, bad + 1, torn, fin)

/-- A sector read: none when all of it is erased. -/
def State.scanSector (s : State) (base k : Nat) : Option SectorScan × Nat :=
  let a := base + 4096 * k
  if !s.nv.flash.any (fun e => a ≤ e.1 && e.1 < a + 4096) then (none, 12)
  else
    let l := s.flashRd a 4096
    let h := l.take 12
    let sseq := leVal ((h.drop 4).take 4)
    let era := leVal ((h.drop 8).take 2)
    if leVal (h.take 4) ≠ 0x5253564E ∨ crc16Bytes (h.take 10) ≠ h.drop 10 then (some ⟨none, [], 0, false⟩, 12)
    else
      let (r, bad, torn, fin) := scanRecords l.toArray k sseq era 256 12
      (some ⟨some (sseq, era), r, bad, torn⟩, fin)

/-! Winners (R440). -/

/-- Whether a record comes after another in the order of R440. -/
def NvRec.after (a b : NvRec) : Bool :=
  if a.era ≠ b.era then b.era < a.era
  else if a.seq ≠ b.seq then b.seq < a.seq
  else if a.sseq ≠ b.sseq then b.sseq < a.sseq
  else b.off < a.off

def winnerOf (l : List NvRec) (typ id : Nat) : Option NvRec :=
  l.foldl (fun w r =>
    if r.typ = typ ∧ r.id = id then
      (match w with | some x => if r.after x then some r else some x | none => some r) else w) none

/-- The winner of a key, unless it is a DELETE. -/
def presentOf (l : List NvRec) (typ id : Nat) : Option NvRec :=
  match winnerOf l typ id with
  | some r => if bit r.flags 1 ∧ r.len = 0 then none else some r
  | none => none

/-- Whether two records that tie on SEQ are copies of one another. -/
def NvRec.copies (a b : NvRec) : Bool :=
  a.typ == b.typ && a.id == b.id && a.len == b.len && a.crc == b.crc && (bit a.flags 0 || bit b.flags 0)

/-- The ties of SEQ among some records that count. -/
def seqTies (l : List NvRec) : Nat :=
  match l with
  | [] => 0
  | r :: rest =>
    (rest.filter (fun x => x.typ == r.typ && x.id == r.id && x.era == r.era && x.seq == r.seq && !x.copies r)).length + seqTies rest

/-- The payload of an indexed record. -/
def State.recData (s : State) (base : Nat) (r : NvRec) : List Byte := s.flashRd (base + 4096 * r.sector + r.off + 16) r.len

/-! Saves (R447 to R449). -/

/-- The fields of a COMMIT: FIRST_SEQ, RECORDS, ZONES, CRC-32. -/
def State.commitOf (s : State) (r : NvRec) : Nat × Nat × Nat × Nat :=
  let l := s.recData ringBase r
  (leVal (l.take 4), leVal ((l.drop 4).take 2), leVal ((l.drop 6).take 2), leVal ((l.drop 16).take 4))

/-- The records of a COMMIT's save in SEQ order: the last written copy of each SEQ. -/
def State.saveRecs (s : State) (c : NvRec) : List NvRec :=
  let (first, n, _, _) := s.commitOf c
  (List.range n).filterMap (fun i =>
    (s.nv.recs.filter (fun r => r.era == c.era && r.seq == first + i && bit r.flags 2 && r.typ != 5)).getLast?)

/-- Whether a save is complete. -/
def State.saveGood (s : State) (c : NvRec) : Bool :=
  let (_, n, _, crc) := s.commitOf c
  let l := s.saveRecs c
  l.length == n && crc32 (l.flatMap (s.recData ringBase)) == crc

/-- The complete saves, newest first. -/
def insertRec (r : NvRec) : List NvRec → List NvRec
  | [] => [r]
  | x :: l => if r.after x then r :: x :: l else x :: insertRec r l
def sortRecs (l : List NvRec) : List NvRec := l.foldl (fun m r => insertRec r m) []
def dropCopies : List NvRec → List NvRec
  | [] => []
  | r :: l => r :: (dropCopies l).filter (fun x => !(x.era == r.era && x.seq == r.seq))
def State.goodSaves (s : State) : List NvRec :=
  (dropCopies (sortRecs (s.nv.recs.filter (fun r => r.typ == 5)))).filter s.saveGood

/-- Whether a record is live (R441). -/
def State.liveRec (s : State) (saves : List NvRec) (r : NvRec) : Bool :=
  let del := bit r.flags 1 && r.len == 0
  let win := winnerOf s.nv.recs r.typ r.id == some r
  (win && !del)
  || (del && s.nv.recs.any (fun x => x.typ == r.typ && x.id == r.id && x.sector != r.sector && r.after x))
  || (saves.take 2).any (fun c => c == r || (s.saveRecs c).contains r)

def State.liveRecs (s : State) : List NvRec :=
  let g := s.goodSaves
  s.nv.recs.filter (s.liveRec g)

/-- The index with the records of eras below one alone (R440). -/
def State.beforeEra (s : State) (era : Nat) : State :=
  { s with nv := { s.nv with recs := s.nv.recs.filter (fun r => r.era < era) } }

/-- Whether the ring holds more keys than the index takes (R442). -/
def State.keysOver (s : State) : Bool :=
  decide (16384 < s.nv.recs.length) && decide (16384 < ((s.nv.recs.map (fun r => 65536 * r.typ + r.id)).eraseDups).length)

/-! The size of a save (R450). -/

/-- Bytes packed into sectors from byte 12 on, records kept whole: the bytes used of each sector, last first. -/
def packSectors (l : List Nat) : List Nat :=
  l.foldl (fun acc n =>
    match acc with
    | [] => [12 + n]
    | u :: rest => if u + n ≤ 4096 then (u + n) :: rest else (12 + n) :: u :: rest) []

/-- ZONES of a save: the active zone count. -/
def State.ageZones (s : State) : Nat := max 1 s.zoneTotal

def State.saveSizes (s : State) : List Nat :=
  let z := s.ageZones
  (List.range ((z + 2015) / 2016)).map (fun k => recordSize (4 + 2 * min 2016 (z - 2016 * k))) ++
    [recordSize 240, recordSize 2048, recordSize 32]
def State.savePages (s : State) : Nat := ((packSectors s.saveSizes).map (fun u => (u + 255) / 256)).sum
def State.saveSectors (s : State) : Nat := (packSectors s.saveSizes).length
def State.saveUs (s : State) : Nat := s.savePages * s.fld Reg.NV_FLASH_CFG_FLASH_TPP + 4000
/-- SAVE_PAGES and SAVE_US as they read: 0, their reset value, until NVC is ready (DEDUCED; log entry 23). -/
def State.saveReport (s : State) (n : Nat) : Word := if s.flag Reg.NV_STATUS_READY then BitVec.ofNat 32 n else 0

/-! Space (R441). -/

def State.nvReserve (s : State) : Nat :=
  let n := s.fld Reg.NV_CFG_FREE_MIN
  max (if n < 4 then 4 else n) (s.saveSectors + 2)
def State.nvFree (s : State) : Nat := 256 - s.nv.inUse
/-- Whether live data leaves the reserve of erased sectors (a greedy packing of what is live, log entry 23). -/
def State.nvRoom (s : State) (extra : List Nat) : Bool :=
  (packSectors (s.liveRecs.map (fun r => recordSize r.len) ++ extra)).length + s.nvReserve ≤ 256

/-- The registers that show the ring. -/
def State.nvShow (s : State) : State :=
  let s := s.wrN Reg.NV_NEXT_SEQ s.nv.nextSeq
  let s := s.wrN Reg.NV_ERA s.nv.era
  if s.nv.inUse = 0 then s.wrN Reg.NV_RING (2 ^ 16 * 256)
  else s.wrN Reg.NV_RING (s.nv.head + 2 ^ 8 * s.nv.tail + 2 ^ 16 * s.nvFree)

def State.setFull (s : State) : State :=
  if s.flag Reg.NV_STATUS_FULL then s else (s.put Reg.NV_STATUS_FULL 1).raise 6 5

/-- The next in-use sector of the ring after one (R441). -/
def State.usedAfter (s : State) (k : Nat) : Nat :=
  (((List.range 255).map (fun i => (k + 1 + i) % 256)).find? (fun j =>
    s.nv.flash.any (fun e => ringBase + 4096 * j ≤ e.1 && e.1 < ringBase + 4096 * (j + 1)))).getD ((k + 1) % 256)

/-! Running an operation. -/

/-- Bytes at an address as page programs (R432). -/
def pagePrograms : Nat → Nat → List Byte → List NvStep
  | 0, _, _ => []
  | n + 1, a, l =>
    if l.isEmpty then []
    else
      let k := 256 - a % 256
      .program a (l.take k) :: pagePrograms n (a + k) (l.drop k)

def State.nvDo (s : State) (l : List NvStep) : State := { s with nv := { s.nv with todo := l ++ s.nv.todo } }

/-- The pages of a record at the head, then its entry in the index. -/
def State.appendSteps (s : State) (r : NvNew) : State :=
  let seq := r.seq.getD s.nv.nextSeq
  let bytes := recordBytes r.typ r.id r.flags seq r.data
  let a := ringBase + 4096 * s.nv.head + s.nv.headOff
  let crc := leVal ((bytes.drop (16 + r.data.length)).take 4)
  let e : NvRec := ⟨s.nv.head, s.nv.headOff, s.nv.era, s.nv.sseq, r.typ, r.id, r.data.length, r.flags, seq, crc⟩
  let s := s.nvDo (pagePrograms 18 a bytes ++ [.index e])
  { s with nv := { s.nv with
    headOff := s.nv.headOff + recordSize r.data.length
    nextSeq := if r.seq.isNone then s.nv.nextSeq + 1 else s.nv.nextSeq } }

/-- COMMIT's FIRST_SEQ translated to the new number of its first record (R440). -/
def renumbered (order : List NvRec) (r : NvRec) (data : List Byte) : List Byte :=
  if r.typ = 5 then
    let first := leVal (data.take 4)
    match order.findIdx? (fun x => x.seq == first && bit x.flags 2 && x.typ != 5) with
    | some i => leBytes 4 (i + 1) ++ data.drop 4
    | none => data
  else data

/-- One step that needs no flash operation, or none when the step in front is one. -/
def State.nvStep (s : State) : Option State :=
  match s.nv.todo with
  | [] => none
  | t :: rest =>
    let u : State := { s with nv := { s.nv with todo := rest } }
    match t with
    | .program _ _ => none
    | .erase _ _ => none
    | .append r =>
      if 4096 < s.nv.headOff + recordSize r.data.length ∨ s.nv.inUse = 0 then some (u.nvDo [.openNext, .append r])
      else if r.seq.isNone ∧ 0xFFFFFFFF < s.nv.nextSeq then some (u.nvDo [.renumber true 0, .append r])
      else some (u.appendSteps r)
    | .openNext =>
      let h := (s.nv.head + 1) % 256
      let u : State := { u with nv := { u.nv with
        head := h, headOff := 12, sseq := s.nv.sseq + 1, inUse := s.nv.inUse + 1
        tail := if s.nv.inUse = 0 then h else s.nv.tail } }
      some (u.nvDo (pagePrograms 1 (ringBase + 4096 * h) (sectorHeader (s.nv.sseq + 1) s.nv.era) ++ [.opened h]))
    | .opened _ => some u.nvShow
    | .index r =>
      let u : State := { u with nv := { u.nv with recs := u.nv.recs ++ [r] } }
      some (u.when u.keysOver State.setFull).nvShow
    | .gone k =>
      let u : State := { u with nv := { u.nv with
        recs := u.nv.recs.filter (fun r => r.sector ≠ k)
        inUse := u.nv.inUse - 1
        tail := if u.nv.tail = k then u.usedAfter k else u.nv.tail } }
      some (u.put Reg.NV_STATUS_COMPACTING 0).nvShow
    | .reclaim =>
      if s.nvFree < s.nvReserve ∧ !s.nv.saving ∧ s.nvRoom [] then
        let k := s.nv.tail
        let g := s.goodSaves
        let live := s.nv.recs.filter (fun r => r.sector == k && s.liveRec g r)
        let copies := live.map (fun r => NvStep.append ⟨r.typ, r.id, r.flags ||| 1, some r.seq, s.recData ringBase r⟩)
        some ((u.put Reg.NV_STATUS_COMPACTING 1).nvDo (copies ++ [.erase (ringBase + 4096 * k) false, .gone k, .reclaim]))
      else some u
    | .renumber fresh done =>
      let era := if fresh then s.nv.era + 1 else s.nv.era
      -- what was live in the old era, whatever of it the new one holds already
      let old := s.beforeEra era
      let order := dropCopies (sortRecs old.liveRecs).reverse
      let sectors := (old.nv.recs.map (·.sector)).eraseDups
      let first := if fresh then [NvStep.openNext] else []
      let news := ((order.zipIdx).drop done).map (fun e =>
        NvStep.append ⟨e.1.typ, e.1.id, e.1.flags % 8 / 2 * 2, some (e.2 + 1), renumbered order e.1 (s.recData ringBase e.1)⟩)
      let gone := sectors.flatMap (fun k => [NvStep.erase (ringBase + 4096 * k) false, .gone k])
      let u : State := { u with nv := { u.nv with
        era := era, nextSeq := if fresh then order.length + 1 else max s.nv.nextSeq (order.length + 1) } }
      some ((u.put Reg.NV_STATUS_RENUMBER 1).nvDo (first ++ news ++ gone))
    | .region a h ofs left =>
      if left = 0 then some u
      else
        let n := min left (256 - a % 256)
        let l := s.regionRead h ofs n
        some (u.nvDo [.program a l, .region (a + n) h (ofs + n) (left - n)])
    | .recEnd code =>
      some ((((u.put Reg.NV_REC_STATUS_BUSY 0).put Reg.NV_REC_STATUS_DONE 1).put Reg.NV_REC_STATUS_CODE code).raise 6 1)
    | .rawEnd code =>
      some ((((u.put Reg.NV_RAW_STATUS_BUSY 0).put Reg.NV_RAW_STATUS_DONE 1).put Reg.NV_RAW_STATUS_CODE code).raise 6 2)
    | .saveEnd cause =>
      let u := ((u.put Reg.NV_STATUS_SAVING 0).put Reg.NV_STATUS_SAVE_DONE 1).put Reg.NV_STATUS_SAVE_FAIL 0
      let u : State := { u with nv := { u.nv with
        saving := false, saves := u.nv.saves + 1, pfSaves := if cause = 1 then u.nv.pfSaves + 1 else u.nv.pfSaves } }
      some (((u.bump Reg.NV_SAVES).raise 6 3).when (cause = 3) (fun s => s.mboxEnd 0))
    | .ringClear =>
      some ({ u with nv := { u.nv with
        recs := [], head := 255, headOff := 4096, tail := 0, inUse := 0, sseq := 0, era := 0, nextSeq := 1 } }.put
          Reg.NV_STATUS_FULL 0).nvShow
    | .mboxEnd st => some (u.mboxEnd st)

/-- The flash operation in front is issued. -/
def State.flashIssue (s : State) : State :=
  match s.nv.todo with
  | .program a l :: _ => s.emit .flash 1 (a :: l.map (·.toNat))
  | .erase a big :: _ => s.emit .flash (if big then 3 else 2) [a]
  | _ => s

/-- The ends of an operation that a list of steps still holds, with a code in their place. -/
def endsOf (code : Nat) (l : List NvStep) : List NvStep :=
  l.filterMap (fun t => match t with
    | .recEnd _ => some (.recEnd code)
    | .rawEnd _ => some (.rawEnd code)
    | .mboxEnd _ | .saveEnd 3 => some (.mboxEnd 6)
    | _ => none)

/-- A save ends without its COMMIT. -/
def State.saveFails (s : State) : State :=
  if s.nv.saving then
    let s := ((s.put Reg.NV_STATUS_SAVING 0).put Reg.NV_STATUS_SAVE_FAIL 1).put Reg.NV_STATUS_SAVE_DONE 0
    let s : State := { s with nv := { s.nv with saving := false } }
    (s.bump Reg.NV_SAVE_FAILS).raise 6 4
  else s

/-- The operations under way end with a code; a save fails, a compaction stops. -/
def State.nvFail (s : State) (code : Nat) : State :=
  let s := s.saveFails.put Reg.NV_STATUS_COMPACTING 0
  { s with nv := { s.nv with todo := endsOf code s.nv.todo } }

/-- Steps without a flash operation are taken; then the one in front is issued, which NVC refuses while NV_WP_N is low
(R434). BUSY while anything is left. -/
def State.nvRun : Nat → State → State
  | 0, s => s
  | n + 1, s =>
    match s.nvStep with
    | some t => State.nvRun n t
    | none =>
      if !s.nv.todo.isEmpty ∧ !s.nv.wpN then State.nvRun n (s.wpRefused.nvFail 3)
      else
      let s := s.put Reg.NV_STATUS_BUSY (b2n !s.nv.todo.isEmpty)
      let s := if s.nv.todo.isEmpty then s.put Reg.NV_STATUS_RENUMBER 0 else s
      s.flashIssue
def nvFuel : Nat := 1200
/-- NVC goes on, unless a flash operation is already under way. -/
def State.nvGo (s : State) (was : List NvStep) : State := if was.isEmpty then s.nvRun nvFuel else s

/-- Steps join the operations of NVC. -/
def State.nvAdd (s : State) (l : List NvStep) : State :=
  let was := s.nv.todo
  ({ s with nv := { s.nv with todo := was ++ l } }).nvGo was

/-- FLASH_OP_DONE: the operation in front has taken effect (R432). -/
def State.flashDone (s : State) : State :=
  match s.nv.todo with
  | .program a l :: rest => { s.flashPut a l with nv := { (s.flashPut a l).nv with todo := rest } }.nvRun nvFuel
  | .erase a big :: rest =>
    let t := s.flashErase a (if big then 65536 else 4096)
    { t with nv := { t.nv with todo := rest } }.nvRun nvFuel
  | _ => s

/-- WIP was not clear after 5 s (R443): the operation ends with FLASH, a save fails. -/
def State.flashTimeout (s : State) : State :=
  match s.nv.todo with
  | [] => s
  | _ => (s.nvFail 7).nvRun nvFuel

/-! The scan (R442). -/

/-- H and Q of the newest complete save (R449). -/
def State.loadAges (s : State) : State :=
  match s.goodSaves with
  | [] => { s.put Reg.NV_STATUS_AGE_LOST 1 with nv := { s.nv with ages := [] } }
  | c :: _ =>
    let recs := s.saveRecs c
    let ages := (recs.filter (fun r => r.typ == 3)).foldl (fun m r =>
      let l := s.recData ringBase r
      let first := leVal (l.take 2)
      let n := leVal ((l.drop 2).take 2)
      ((chunks 2 (l.drop 4)).take n).zipIdx.foldl (fun m e =>
        Cells.set (fun _ => 0) m (first + e.2) (leVal e.1 * 2 ^ 32)) m) []
    let g := match recs.find? (fun r => r.typ == 2) with | some r => s.recData ringBase r | none => []
    let word := fun i => leVal ((g.drop (4 * i)).take 4)
    let s : State := { s.put Reg.NV_STATUS_AGE_LOST 0 with nv := { s.nv with
      ages := ages, litNs := max s.nv.litNs (word 1 * 60000000000), saves := max s.nv.saves (word 2)
      pfSaves := max s.nv.pfSaves (word 3) } }
    -- the control core keeps the larger POWER_ON_MIN (R446)
    s.wrN Reg.AON_POWER_ON_MIN (max (s.rd Reg.AON_POWER_ON_MIN).toNat (word 0))

/-- One sector of the ring: an invalid one is erased. -/
def State.scanRing (s : State) (k : Nat) : State × Option (Nat × SectorScan × Nat) :=
  match s.scanSector ringBase k with
  | (none, _) => (s, none)
  | (some x, fin) =>
    match x.header with
    | none =>
      if s.nv.wpN then ((s.flashErase (ringBase + 4096 * k) 4096).bump Reg.NV_REPAIRS, none) else (s.wpRefused, none)
    | some _ => (s.bumpBy (wholeFld Reg.NV_INVALID) x.invalid, some (k, x, fin))

/-- The sectors of the factory area as a scan finds them (R439): append order is address order. -/
def State.factoryScan (s : State) : List SectorScan :=
  (List.range 16).filterMap (fun k =>
    ((s.scanSector factoryBase k).1).map (fun x => { x with recs := x.recs.map (fun r => { r with sseq := k }) }))
def State.factoryRecs (s : State) : List NvRec := s.factoryScan.flatMap (·.recs)

/-- The PRESENCE records made before the scan take their IDs after those that it found (R438). -/
def State.presenceIds (s : State) : List NvStep × State :=
  s.nv.todo.foldl (fun (acc : List NvStep × State) t =>
    match t with
    | .append r =>
      if r.typ = 6 then
        (acc.1 ++ [.append { r with id := acc.2.nv.presence }],
          { acc.2 with nv := { acc.2.nv with presence := (acc.2.nv.presence + 1) % 256 } })
      else (acc.1 ++ [t], acc.2)
    | _ => (acc.1 ++ [t], acc.2)) ([], s)

/-- The scan of the ring and the factory area ends, and READY is set. -/
def State.nvScan (s : State) : State :=
  if s.domCur 46 ≠ domStON ∨ s.flag Reg.NV_STATUS_READY then s
  else
    let (s, secs) := (List.range 256).foldl (fun (acc : State × List (Nat × SectorScan × Nat)) k =>
      let (s, r) := acc.1.scanRing k
      (s, match r with | some x => acc.2 ++ [x] | none => acc.2)) (s, [])
    let key := fun (x : Nat × SectorScan × Nat) => match x.2.1.header with | some (q, e) => e * 2 ^ 32 + q | none => 0
    let sorted := secs.foldl (fun (l : List (Nat × SectorScan × Nat)) x =>
      (l.filter (fun y => key y < key x)) ++ [x] ++ l.filter (fun y => !(key y < key x))) []
    let recs := sorted.flatMap (fun x => x.2.1.recs)
    let fac := s.factoryRecs
    let s := s.bumpBy (wholeFld Reg.NV_INVALID) ((s.factoryScan.map (·.invalid)).sum)
    let eras := (sorted.map (fun x => key x / 2 ^ 32)).eraseDups
    let ring : NvState := match sorted.getLast?, sorted.head? with
      | some h, some t => { s.nv with
          head := h.1, headOff := if h.2.1.torn then 4096 else h.2.2, tail := t.1, inUse := sorted.length
          sseq := key h % 2 ^ 32, era := key h / 2 ^ 32 }
      | _, _ => { s.nv with head := 255, headOff := 4096, tail := 0, inUse := 0, sseq := 0, era := 0 }
    let top := (recs.filter (fun r => r.era == ring.era)).foldl (fun m r => max m r.seq) 0
    let ids := (recs.filter (fun r => r.typ == 6))
    let next := match (sortRecs ids).head? with | some r => (r.id + 1) % 256 | none => 0
    let s : State := { s with nv := { ring with recs := recs, factory := fac, nextSeq := top + 1, presence := next } }
    let s := s.bumpBy (wholeFld Reg.NV_SEQ_TIE) (seqTies recs + seqTies fac)
    let s := (s.when s.keysOver State.setFull).nvShow
    let s := (s.put Reg.NV_STATUS_READY 1).raise 6 0
    let s := s.loadAges
    let (was, s) := s.presenceIds
    let more := match eras with
      | _ :: _ :: _ => [NvStep.renumber false (recs.filter (fun r => r.era == ring.era)).length]
      | _ => []
    let torn : Bool := match sorted.getLast? with | some h => h.2.1.torn | none => false
    let fresh := if torn ∧ s.nv.wpN then [NvStep.openNext] else []
    { s with nv := { s.nv with todo := fresh ++ more ++ was } }.nvRun nvFuel

/-! Host operations (R443, R444). -/

/-- A command that finds NVC busy or not ready. -/
def State.nvIdle (s : State) : Bool := s.flag Reg.NV_STATUS_READY && s.nv.todo.isEmpty && !s.nv.saving
def State.nvIgnored (s : State) : State := s.err 6 0x10

def State.bufRd (s : State) (n : Nat) : List Byte := (List.range n).map (fun i => Cells.get (fun _ => 0) s.nv.buf (i % 4096))
def State.bufPut (s : State) (l : List Byte) : State :=
  { s with nv := { s.nv with buf := Cells.setRun (fun _ => 0) s.nv.buf 0 l } }

def State.recBegin (s : State) : State := s.wrN Reg.NV_REC_STATUS 1
def State.rawBegin (s : State) : State := s.wrN Reg.NV_RAW_STATUS 1

/-- A record or raw command written during a save ends ABORTED (R448). -/
def State.recAborted (s : State) : State := (s.wrN Reg.NV_REC_STATUS (2 + 16 * 6)).raise 6 1
def State.rawAborted (s : State) : State := (s.wrN Reg.NV_RAW_STATUS (2 + 16 * 6)).raise 6 2

/-- REC_CMD is written. -/
def State.recCmd (s : State) (op : Nat) : State :=
  if op = 0 then s
  else if s.nv.saving then s.recAborted
  else if !s.nvIdle then s.nvIgnored
  else
    let s := s.recBegin
    let typ := s.fld Reg.NV_REC_KEY_TYPE
    let id := s.fld Reg.NV_REC_KEY_ID
    let fac := s.flag Reg.NV_REC_KEY_FACTORY
    let len := s.fld Reg.NV_REC_LEN_LEN
    if op = 2 then
      match presentOf (if fac then s.nv.factory else s.nv.recs) typ id with
      | none => s.nvAdd [.recEnd 1]
      | some r =>
        let s := s.bufPut (s.recData (if fac then factoryBase else ringBase) r)
        ((s.wrN Reg.NV_REC_LEN r.len).wrN Reg.NV_REC_SEQ r.seq).nvAdd [.recEnd 0]
    else if fac ∨ (op = 1 ∧ (typ < 0x40 ∨ 0xFE < typ)) then s.nvAdd [.recEnd 5]
    else if op = 1 ∧ 4064 < len then s.nvAdd [.recEnd 4]
    else if !s.nv.wpN then s.wpRefused.nvAdd [.recEnd 3]
    else
      let data := if op = 1 then s.bufRd len else []
      if !s.nvRoom [recordSize data.length] then s.setFull.nvAdd [.recEnd 2]
      else s.nvAdd [.append ⟨typ, id, if op = 1 then 0 else 2, none, data⟩, .reclaim, .recEnd 0]

/-- A privileged write is refused (R389): `fac` for want of the jumper. -/
def State.secRefused (s : State) (port addr : Nat) (fac : Bool) : State :=
  let s := (s.bump Reg.SEC_REFUSED).wr Reg.SEC_LAST_REFUSED 0
  (((s.put Reg.SEC_LAST_REFUSED_ADDR addr).put Reg.SEC_LAST_REFUSED_PORT port).put Reg.SEC_LAST_REFUSED_FACTORY (b2n fac)).raise 5 2

def State.presenceOpen (s : State) : Bool := s.flag Reg.SEC_STATE_OPEN

/-- What the map of R433 says of a raw program or erase at an address: a code, 0 when it may be done. -/
def State.rawAllowed (s : State) (port a : Nat) : State × Nat :=
  match flashPart a with
  | 0 => if s.presenceOpen then (s, 0) else (s.secRefused port Reg.NV_RAW_CMD false, 9)
  | 2 => (s, 8)
  | 3 =>
    if !s.presenceOpen then (s.secRefused port Reg.NV_RAW_CMD false, 9)
    else if s.nv.jmpN then (s.secRefused port Reg.NV_RAW_CMD true, 9)
    else (s, 0)
  | _ => (s, 0)

def State.rawLen (s : State) : Nat :=
  let n := s.fld ⟨Reg.NV_RAW_LEN, 0, 13⟩
  if n = 0 then 4096 else min n 4096
def State.rawAddr (s : State) : Nat := s.fld ⟨Reg.NV_RAW_ADDR, 0, 25⟩

/-- RAW_CMD is written. -/
def State.rawCmd (s : State) (port op : Nat) : State :=
  if op = 0 ∨ 4 < op then s
  else if s.nv.saving then s.rawAborted
  else if !s.nvIdle then s.nvIgnored
  else
    let s := s.rawBegin
    let a := s.rawAddr
    match op with
    | 1 => (s.bufPut (s.flashRd a s.rawLen)).nvAdd [.rawEnd 0]
    | 2 =>
      let (s, code) := s.rawAllowed port a
      if code ≠ 0 then s.nvAdd [.rawEnd code]
      else if !s.nv.wpN then s.wpRefused.nvAdd [.rawEnd 3]
      else
        let n := min s.rawLen (256 - a % 256)
        (s.put Reg.NV_RAW_STATUS_TAKEN n).nvAdd [.program a (s.bufRd n), .rawEnd 0]
    | _ =>
      let big := op = 4
      if a % (if big then 65536 else 4096) ≠ 0 then s.nvAdd [.rawEnd 10]
      else
        let (s, code) := s.rawAllowed port a
        if code ≠ 0 then s.nvAdd [.rawEnd code]
        else if !s.nv.wpN then s.wpRefused.nvAdd [.rawEnd 3]
        else s.nvAdd [.erase a big, .rawEnd 0]

/-- BUF_DATA: the buffer word at BUF_ADDR, which moves on by 4 (R443). -/
def State.bufAddr (s : State) : Nat := s.fld ⟨Reg.NV_BUF_ADDR, 2, 10⟩ * 4
def State.bufNext (s : State) : State := s.wrN Reg.NV_BUF_ADDR ((s.bufAddr + 4) % 4096)
def State.bufRead (s : State) : State × Word :=
  (s.bufNext, BitVec.ofNat 32 (leVal (Cells.getRun (fun _ => 0) s.nv.buf s.bufAddr 4)))
def State.bufWrite (s : State) (w : Word) : State :=
  { s.bufNext with nv := { s.nv with buf := Cells.setRun (fun _ => 0) s.nv.buf s.bufAddr (leBytes 4 w.toNat) } }

/-! Ageing (R446). -/

def State.ageOf (s : State) (z : Nat) : Nat := Cells.get (fun _ => 0) s.nv.ages z

/-- AGE_DATA: H and the top half of Q. -/
def State.ageRead (s : State) : State × Word :=
  let z := s.fld ⟨Reg.NV_AGE_ADDR, 0, 14⟩
  let v := s.ageOf z
  (s.wrN Reg.NV_AGE_ADDR ((z + 1) % 16384), BitVec.ofNat 32 (v / 2 ^ 32 + 2 ^ 16 * (v / 2 ^ 16 % 2 ^ 16)))

/-- Whether a zone's H is 0xFFFF: H holds and Q stops. -/
def State.ageFull (s : State) (z : Nat) : Bool := decide (0xFFFF * 2 ^ 32 ≤ s.ageOf z)

/-- A zone whose H is 0xFFFF is counted once (R446). -/
def State.ageSat (s : State) (z : Nat) : State :=
  if !s.ageFull z || s.nv.satZones.contains z then s
  else ((({ s with nv := { s.nv with satZones := z :: s.nv.satZones } }.bump Reg.NV_AGE_SAT_ZONES).put
    Reg.NV_STATUS_AGE_SAT 1).raise 6 6)

/-- One zone's accrual for a lit time in ns; H goes to 0xFFFF at most. -/
def State.ageZone (s : State) (z : Nat) (d : Sample) (litNs : Nat) : State :=
  if s.ageFull z then s.ageSat z
  else
    -- δ in units of 2^-24; t in µs is litNs / 1000
    let a := (2 * light24 d * litNs * 2 ^ 32 + 2 ^ 24 * 3600000000000) / (2 * 2 ^ 24 * 3600000000000)
    let w := min (s.ageOf z + a) (0x10000 * 2 ^ 32 - 1)
    ({ s with nv := { s.nv with ages := Cells.set (fun _ => 0) s.nv.ages z w } } : State).ageSat z

/-- The accrual of the output frame that ended (R184, R446): `drive` the drive of each zone. -/
def State.ageFrame (s : State) (drive : Nat → Sample) (litNs : Nat) : State :=
  if s.nv.saving || !s.pan.pfailN || !s.pan.blRun || s.domCur 46 != domStON then s
  else
    let zs := List.range s.ageZones
    let lit := zs.any (fun z => drive z != 0)
    let s := s.each zs (fun z s => if drive z = 0 && !s.ageFull z then s else s.ageZone z (drive z) litNs)
    if lit then { s with nv := { s.nv with litNs := s.nv.litNs + litNs } } else s

/-! The save (R447, R448). -/

def LogEntry.bytes (e : LogEntry) : List Byte :=
  leBytes 8 e.tb ++ leBytes 1 e.bit ++ leBytes 2 e.page ++ [0] ++ leBytes 4 e.raw.toNat ++ List.replicate 16 0

/-- The save-set records in order, COMMIT last. The counts of GLOBAL include the save that it belongs to (log entry 23). -/
def State.saveNews (s : State) (cause : Nat) : List NvNew :=
  let z := s.ageZones
  let chunk := fun k =>
    let n := min 2016 (z - 2016 * k)
    let vals := (List.range n).flatMap (fun i =>
      let v := s.ageOf (2016 * k + i)
      leBytes 2 (min 0xFFFF (v / 2 ^ 32 + v % 2 ^ 32 / 2 ^ 31)))
    (⟨3, k, 4, none, leBytes 2 (2016 * k) ++ leBytes 2 n ++ vals⟩ : NvNew)
  let global : NvNew := ⟨2, 0, 4, none,
    leBytes 4 (s.rd Reg.AON_POWER_ON_MIN).toNat ++ leBytes 4 (s.nv.litNs / 60000000000) ++ leBytes 4 (s.nv.saves + 1) ++
      leBytes 4 (s.nv.pfSaves + b2n (cause == 1)) ++ List.replicate 224 0⟩
  -- entries oldest first, the places not used yet are 0 (log entry 23)
  let log := s.nv.log.flatMap LogEntry.bytes
  let tail : NvNew := ⟨4, 0, 4, none, log ++ List.replicate (2048 - log.length) 0⟩
  let set := (List.range ((z + 2015) / 2016)).map chunk ++ [global, tail]
  let crc := crc32 (set.flatMap (·.data))
  let commit : NvNew := ⟨5, 0, 4, none,
    leBytes 4 s.nv.nextSeq ++ leBytes 2 set.length ++ leBytes 2 z ++ leBytes 8 s.timebase ++ leBytes 4 crc ++
      leBytes 1 cause ++ List.replicate 11 0⟩
  set ++ [commit]

/-- The end of a host's save that a power failure has turned into the power-fail save (R448). -/
def powerFailEnd (t : NvStep) : List NvStep :=
  match t with
  | .saveEnd 2 => [.saveEnd 1]
  | .saveEnd 3 => [.saveEnd 1, .mboxEnd 0]
  | t => [t]

/-- A save starts (R448): what was under way ends ABORTED, a program under way completes. -/
def State.saveStart (s : State) (cause : Nat) : State :=
  if s.nv.saving then
    -- a power failure turns the save under way into the power-fail save
    if cause = 1 then { s with nv := { s.nv with todo := s.nv.todo.flatMap powerFailEnd } } else s
  else
    let s : State := { s with nv := { s.nv with saving := true } }
    let s := (s.put Reg.NV_STATUS_SAVING 1).put Reg.NV_STATUS_COMPACTING 0
    let was := s.nv.todo
    let front : List NvStep := match was with | .program a l :: .index r :: _ => [.program a l, .index r] | .program a l :: _ => [.program a l] | _ => []
    let ends := endsOf 6 was
    if !s.nv.wpN ∨ !s.flag Reg.NV_STATUS_READY then
      let s := (if s.nv.wpN then s else s.wpRefused).saveFails
      let rest := front ++ ends ++ (if cause = 3 then [.mboxEnd 6] else [])
      let t : State := { s with nv := { s.nv with todo := rest } }
      if front.isEmpty then t.nvRun nvFuel else t
    else
      let steps := ends ++ [.openNext] ++ (s.saveNews cause).map NvStep.append ++ [.saveEnd cause, .reclaim]
      let t : State := { s with nv := { s.nv with todo := front ++ steps } }
      if front.isEmpty then t.nvRun nvFuel else t.put Reg.NV_STATUS_BUSY 1

/-- SAVE_CMD is written. -/
def State.saveCmd (s : State) (w : Word) : State :=
  if bit w.toNat 0 then (if s.nvIdle then s.saveStart 2 else s.nvIgnored) else s

/-! PRESENCE records (R389, R438). -/

/-- A presence record: cause 1 open, 2 timed out, 3 CLOSE, 4 reset. -/
def State.presenceRec (s : State) (cause : Nat) : State :=
  if !s.nv.wpN then s.wpRefused
  else
    let r : NvNew := ⟨6, s.nv.presence, 0, none,
      leBytes 8 s.timebase ++ leBytes 1 cause ++ leBytes 4 (s.rd Reg.AON_POWER_ON_MIN).toNat⟩
    let s : State := { s with nv := { s.nv with presence := (s.nv.presence + 1) % 256 } }
    if s.flag Reg.NV_STATUS_READY then
      (if s.nvRoom [recordSize 13] then s.nvAdd [.append r, .reclaim] else s.setFull)
    else { s with nv := { s.nv with todo := s.nv.todo ++ [.append r, .reclaim] } }

/-! Mailbox services (R445). While NVC is busy the core waits. -/

/-- COARSE_STORE: the image of R220 in a region is checked, the coarse area erased and the image programmed. -/
def State.coarseStore (s : State) (h ofs : Nat) : State :=
  if !(s.inRegion h ofs && s.inRegion h (ofs + 63)) then s.mboxEnd 6
  else
    s.coreLoad h ofs 64 (fun s head =>
      let n := leVal ((head.drop 12).take 4)
      if leVal (head.take 4) ≠ 0x43504D31 ∨ 8388544 < n ∨ !s.inRegion h (ofs + 63 + n) then s.loaded.mboxEnd 6
      else
        s.coreLoad h (ofs + 64) n (fun s body =>
          if crc32 (head.take 60 ++ body) ≠ leVal (head.drop 60) then s.loaded.mboxEnd 6
          else if !s.nvIdle then s
          else if !s.nv.wpN then s.loaded.wpRefused.mboxEnd 6
          else
            s.loaded.nvAdd ((List.range 128).map (fun i => NvStep.erase (0x810000 + 65536 * i) true) ++
              [.region 0x810000 h ofs (64 + n), .mboxEnd 0])))

/-- AGE_LOAD: every counter takes a 16-bit value, then a save with cause 3. -/
def State.ageLoad (s : State) (h ofs : Nat) : State :=
  if !s.inRegion h ofs ∨ !s.inRegion h (ofs + 32767) then s.mboxEnd 6
  else if !s.nvIdle then s
  else
    s.coreLoad h ofs 32768 (fun s bytes =>
      let ages := Cells.setRun (fun _ => 0) [] 0 ((chunks 2 bytes).map (fun b => leVal b * 2 ^ 32))
      { s.loaded with nv := { s.nv with ages := ages, satZones := [] } }.saveStart 3)

/-- RING_FORMAT: the whole ring is erased. -/
def State.ringFormat (s : State) : State :=
  if !s.presenceOpen then s.mboxEnd 5
  else if !s.nvIdle then s
  else if !s.nv.wpN then s.wpRefused.mboxEnd 6
  else
    s.nvAdd ((List.range 16).map (fun i => NvStep.erase (ringBase + 65536 * i) true) ++ [.ringClear, .mboxEnd 0])

end Sys2Proof.Machine
end

