-- ==== Sys2Proof/Machine/Domains.lean ====
section
/-! DEFINITION. What a reset of a unit, a power domain's entry and wake, and a reset of the M960 keep and lose (R371,
R412 to R422, R429), with the save memory (R416, R417). -/

namespace Sys2Proof.Machine

/-! Words of a page. -/

/-- The page of a stored word, of whichever port's copy; none for the words kept above the address space. -/
def wordPage (a : Nat) : Option Nat := if a < 0x4000000 then some (a % 0x1000000 / 0x1000) else none

/-- Words brought back to what they hold after reset: those of some pages that a predicate of the offset takes. -/
def clearWords (m : Cells Word) (pages : List Nat) (takes : Nat → Bool) : Cells Word :=
  m.filter (fun e => match wordPage e.1 with
    | some p => !(pages.contains p && takes (e.1 % 0x1000))
    | none => true)

/-- The block words of some pages return to their reset values; the header stays but for STATUS (R371). -/
def State.clearBlock (s : State) (pages : List Nat) : State :=
  let f := fun (o : Nat) => 0x40 ≤ o || o == 0x00C
  { s with regs := clearWords s.regs pages f, act := clearWords s.act pages f }

/-- Every word of some pages returns to its reset value. -/
def State.clearPages (s : State) (pages : List Nat) : State :=
  { s with regs := clearWords s.regs pages (fun _ => true), act := clearWords s.act pages (fun _ => true) }

/-- The entries of PARTNER (R304) return to their reset values. -/
def State.clearPartners (s : State) : State :=
  { s with regs := s.regs.filter (fun e => e.1 < 0x5000000), act := s.act.filter (fun e => e.1 < 0x5000000) }

/-! What a unit holds beside its registers. -/

/-- The lanes of a unit's page. -/
def pageLanes (p : Nat) : List Nat := (List.range laneCount).filter (fun l => phyBase l / 0x1000 == p)

/-- A lane after its unit's reset: in LOFF, it moves again to what its protocol layer, the host's limit and its domain
ask for. -/
def State.laneReset (s : State) (l dom : Nat) : State :=
  let x := s.lane l
  ((s.setLane l { Lane.atReset with proto := x.proto, test := x.test }).put (Reg.PHY_LSTATE_DOMAIN (phyBase l)) dom).laneAim l

/-- A lane kind's implied state: 0 L0 in ON, 1 LS in RET, 2 LOFF in OFF (R52). -/
def impliedLane (st : Nat) : Nat := if st = domStRET then 1 else if st = domStOFF then 2 else 0

/-- A stage RAM whose contents are lost (R412). -/
def State.tabLost (s : State) : State × Tab := (s.used, ⟨s.fresh + 1, []⟩)

/-- The state of a unit beside its registers returns to its state after reset (R371). -/
def State.innerReset (s : State) (u : Unit) (p : Nat) : State :=
  match u with
  | .CHIP => { s with chip := ChipState.atReset }
  | .AON => { s with pwr := { s.pwr with alarmArmed := false } }
  | .CLK => { s with clk := { ClkState.atReset with tbFrac := s.clk.tbFrac } }
  | .SEC => { s with sec := SecState.atReset }
  | .HOSTIF => { s with host := HostState.atReset }
  | .NV => { s with nv := { NvState.atReset with flash := s.nv.flash, log := s.nv.log, wpN := s.nv.wpN, jmpN := s.nv.jmpN } }
  | .TEST => { s with test := TestState.atReset }
  | .PERTURB => { s with inj := PerturbState.atReset }
  | .ISL => { s with isl := { IslState.atReset with hpd := s.isl.hpd } }
  | .TIMING => { s with tim := { TimState.atReset with running := s.tim.running, next := s.tim.next } }
  | .SREF => { s with srf := SrefState.atReset }
  | .INPUT => { s with inp := InputState.atReset }
  | .STATS => { s with sta := StatsState.atReset }
  | .CODEC => { s with sto := StoreState.atReset }
  | .ZONE => { s with zon := ZoneState.atReset }
  | .PSF => { s with psf := PsfState.atReset }
  | .FIELD => { s with fie := FieldState.atReset }
  | .SPLIT => { s with spl := { SplitState.atReset with lut0 := s.spl.lut0, lut1 := s.spl.lut1 }, path := PathState.atReset }
  | .CELLLUT => { s with spl := { s.spl with lut0 := Tab.atReset, lut1 := Tab.atReset } }
  | .PATCH => { s with pat := PatchState.atReset }
  | .DEFECT => { s with dfc := DefectState.atReset }
  | .OD => { s with od := OdState.atReset }
  | .THERM => { s with thm := ThermState.atReset }
  | .DITH => { s with dit := DithState.atReset }
  | .EDL => { s with edl := { EdlState.atReset with ports := s.edl.ports, slots := s.edl.slots } }
  | .EDL_PORT => s.setEdlPort (p - 0xA0) EdlPort.atReset
  | .RETBUS => s.setBusSlot (p - 0xE0) none
  | .PARTNER => s.clearPartners
  -- pulses come again with the next frame: no frame has as many as 256
  | .GATE => { s with pan := { s.pan with drive := 0, cur := none, next := none, line := 0, lineAt := 0, pwmCycle := 256, pwmHigh := false, pwmPin := false } }
  | .PANELPWR => { s with pan := { PanelState.atReset with
      drive := s.pan.drive, cur := s.pan.cur, next := s.pan.next, line := s.pan.line, lineAt := s.pan.lineAt
      pwmCycle := s.pan.pwmCycle, pwmHigh := s.pan.pwmHigh, pwmPin := s.pan.pwmPin
      pfailN := s.pan.pfailN, pgIn := s.pan.pgIn } }
  | .MEMC =>
    { s.put Reg.BULK_BSTAT_HALTED 0 with mem := { s.mem with
        admitted := [], postponed := [], refreshTo := [], credit := [], lastEng := [], preempted := [], maxLat := 0
        mopDue := false, halted := [] } }
  | .REGION => { s with mem := { s.mem with regions := [], queue := [], blank := [] } }.sramZero 33
  | .ECC => { s with mem := { s.mem with copies := [], poison := [] } }
  | .BULK => { s.put (Reg.MEMC_FLT_INFO_HALTED 9) 0 with mem := { s.mem with bulk := BulkJob.atReset, halted := s.mem.halted.filter (fun h => h.engine ≠ 9) } }
  | .CAS => { s with cas := CasState.atReset }
  | .BANKS => { s with mem := { s.mem with collided := [] } }
  | _ => s

/-- A unit's registers and its other state after reset; its lanes start again from LOFF. -/
def State.blockReset (s : State) (u : Unit) (p : Nat) (all : Bool) : State :=
  let lanes := pageLanes p
  let doms := lanes.map (fun l => s.fld (Reg.PHY_LSTATE_DOMAIN (phyBase l)))
  let pages := if u = .PARTNER then [0xF0, 0xF1, 0xF2, 0xF3] else [p]
  let s := if all then s.clearPages pages else s.clearBlock pages
  let s := s.innerReset u p
  (lanes.zip doms).foldl (fun s e => s.laneReset e.1 e.2) s

/-- The words of PWR that say where each domain stands. -/
def State.keepDomains (s t : State) : State :=
  t.each (List.range 95) (fun n t =>
    (((t.put (Reg.PWR_DOM_STATE_CUR n) (s.domCur n)).put (Reg.PWR_DOM_STATE_BUSY n) (b2n (s.domBusy n))).put
      (Reg.PWR_DOM_STATE_LATCHED n) (s.fld (Reg.PWR_DOM_STATE_LATCHED n))).wr Reg.PWR_PAD_LATCHED (s.rd Reg.PWR_PAD_LATCHED))

/-- Block registers and internal state of a unit return to their reset values (R371). TIMEBASE stays (R431), and so do
the OTP fuses, the states the domains are in, and what lies outside the unit (log entry 24). -/
def State.unitReset (s : State) (p : Nat) : State :=
  match unitOfPage p with
  | none => s
  | some u =>
    let tb := (s.rd Reg.AON_TIMEBASE, s.rd Reg.AON_TIMEBASE_HI)
    let otp := s.rd Reg.SEC_OTP_LOCK
    let t := s.blockReset u p false
    let t := (t.wr Reg.AON_TIMEBASE tb.1).wr Reg.AON_TIMEBASE_HI tb.2
    let t := t.wr Reg.SEC_OTP_LOCK otp
    match u with
    | .PWR => s.keepDomains t
    | .ISL => if s.isl.hpd then (t.put Reg.ISL_LINK_STATE_STATE s.link).hpdFollow else t
    | .PANELPWR =>
      -- the runs are left: BL_EN, BL_PWM and PE fall, the ports stop, GATE follows at its next line (R315, R317, R321)
      let t := if s.pan.blRun then (t.padEmit .pin 0 [0]).pwmSet false else t
      let t := if s.pan.edlRun then t.edlStops else t
      if s.panelPe = 0 then t else t.peDrive
    | .GATE => (t.raiseIf (s.pan.drive != 0) 0x100 0).gateLevels.when s.pan.pwmPin (fun t => t.padEmit .pin 1 [0])
    | .NV => t.put Reg.NV_STATUS_WP (b2n !s.nv.wpN)
    | .CTL => if s.fld Reg.CTL_STATE_STATE = 0 then t else t.put Reg.CTL_STATE_STATE (s.fld Reg.CTL_STATE_STATE)
    | _ => t

/-- Units of the pixel path, whose SOFT_RST waits for the frame boundary (R371). -/
def pixelUnit (p : Nat) : Bool := (0x30 ≤ p && p ≤ 0x32) || (0x40 ≤ p && p ≤ 0x42) || (0x50 ≤ p && p ≤ 0x54) || (0x60 ≤ p && p ≤ 0x64)

/-- SOFT_RST of a page's header is written. -/
def State.softRst (s : State) (p : Nat) : State :=
  if pixelUnit p then { s with soft := s.soft.filter (· ≠ p) ++ [p] } else s.unitReset (hdrPage p)

/-- The soft resets that wait for the boundary. -/
def State.softBoundary (s : State) : State :=
  ({ s with soft := [] } : State).each s.soft (fun p s => s.unitReset p)

/-! Logic domains (R412). -/

/-- The units of a logic domain. -/
def domUnits (n : Nat) : List Unit :=
  match n with
  | 1 => [.CTL] | 5 => [.INPUT, .STATS] | 6 => [.CODEC] | 7 => [.ZONE, .PSF, .FIELD] | 8 => [.SPLIT, .CELLLUT]
  | 9 => [.PATCH, .DEFECT, .OD, .THERM, .DITH] | 10 => [.MEMC, .REGION, .SCHED, .ECC, .BULK] | 45 => [.GATE, .PANELPWR]
  | 46 => [.NV] | _ => []

def domPages (n : Nat) : List Nat := (domUnits n).map Unit.page

/-- The stage RAMs of a domain lose their contents (R412). -/
def State.stageLost (s : State) (n : Nat) : State :=
  match n with
  | 2 => { s with isl := { s.isl with staged := [] } }
  | 5 =>
    let g := s.fresh + 1
    let bank : EotfBank := ⟨4, g, []⟩
    let recs : Cells (Option ZoneRec) := (List.range 16384).map
      (fun z => (z, some ⟨(Config.lostRam g (2 * z)).setWidth 16, (Config.lostRam g (2 * z + 1)).setWidth 16⟩))
    { s.used with inp := { s.inp with bank0 := bank, bank1 := bank }, sta := { s.sta with done := recs } }
  | 7 =>
    let (s, a) := s.tabLost
    let (s, b) := s.tabLost
    { s with psf := { s.psf with bank0 := a, bank1 := b } }
  | 8 =>
    let (s, a) := s.tabLost
    let (s, b) := s.tabLost
    { s with spl := { s.spl with lut0 := a, lut1 := b } }
  | _ => s

/-- A domain's registers come up with their reset values, as does what its units hold beside them; with `ram` the stage
RAMs keep their contents. The results of training stay (R412). -/
def State.logicLost (s : State) (n : Nat) (ram : Bool) : State :=
  let t := (domUnits n).foldl (fun t u => t.blockReset u u.page true) s
  let t : State := if n = 10 then
      { (t.put Reg.MEMC_STATUS_TRAINED (s.fld Reg.MEMC_STATUS_TRAINED)).put Reg.MEMC_STATUS_MOP_ACTIVE
          (s.fld Reg.MEMC_STATUS_MOP_ACTIVE) with mem := { t.mem with mopDue := s.mem.mopDue } }
    else t
  -- SENSn keeps its values in RET and in OFF (R249)
  let t := if n = 9 then
      let kept := t.each (List.range 4) (fun k t => t.wr (Reg.THERM_SENS0 + 4 * k) (s.rd (Reg.THERM_SENS0 + 4 * k)))
      { kept with thm := { kept.thm with sens := s.thm.sens } }
    else t
  let t := if n = 46 then t.put Reg.NV_STATUS_WP (b2n !s.nv.wpN) else t
  if ram then
    { t with
      inp := if n = 5 then { t.inp with bank0 := s.inp.bank0, bank1 := s.inp.bank1 } else t.inp
      sta := if n = 5 then
          { t.sta with done := s.sta.done, doneColb := s.sta.doneColb, doneRowb := s.sta.doneRowb } else t.sta
      psf := if n = 7 then { t.psf with bank0 := s.psf.bank0, bank1 := s.psf.bank1 } else t.psf
      spl := if n = 8 then { t.spl with lut0 := s.spl.lut0, lut1 := s.spl.lut1 } else t.spl }
  else t.stageLost n

/-! The save memory (R416, R417). -/

/-- The bits of a word that are on the save list. -/
def savedMask (a : Nat) : Word :=
  match rowOf a with
  | some r => if r.s then (if a % 0x1000 = 0x010 ∨ r.rw = 0 then 0xFFFFFFFF else BitVec.ofNat 32 r.rw) else 0
  | none => 0

/-- The bits of a word that the host stores: what a wake brings back to reset unless it was saved (log entry 25). -/
def storedMask (a : Nat) : Word :=
  if a % 0x1000 = 0x02C then 0xFFFFFFFF
  else match rowOf a with
    | some r => BitVec.ofNat 32 r.rw
    | none => 0

def inPages (pages : List Nat) (a : Nat) : Bool := match wordPage a with | some p => pages.contains p | none => false

/-- The bytes of a domain's save list. Those of D5 to D9 are the manual's (the example after R427); the others are
counted from the tables, a /F word twice (log entry 25). -/
def saveBytes (n : Nat) : Nat :=
  match n with
  | 5 => 1024 | 6 => 512 | 7 => 2048 | 8 => 1536 | 9 => 3072
  | _ => 4 * (((domUnits n).map (fun u =>
      3 + ((u.rows.filter (·.s)).map (fun r => r.cnt * (if r.f then 2 else 1))).sum)).sum)

/-- AON.SAVE_USED. -/
def State.saveUsed (s : State) : State :=
  s.wrN Reg.AON_SAVE_USED ((s.pwr.slots.map (fun x => saveBytes x.dom)).sum)

def State.dropSlot (s : State) (n : Nat) : State :=
  { s with pwr := { s.pwr with slots := s.pwr.slots.filter (fun x => x.dom ≠ n) } }.saveUsed

/-- Step 3 of R416: the saved fields of a domain go to its slot with their CRC-32. -/
def State.saveDomain (s : State) (n : Nat) : State :=
  if domUnits n = [] then s
  else
    let pages := domPages n
    let take := fun (m : Cells Word) =>
      (m.filter (fun e => inPages pages e.1 && savedMask e.1 != 0)).map (fun e => (e.1, e.2 &&& savedMask e.1))
    let w := take s.regs
    let a := take s.act
    let crc := crc32 ((w ++ a).flatMap (fun e => leBytes 4 e.2.toNat))
    let slot : SaveSlot := ⟨n, w, a, crc⟩
    let s : State := { s with pwr := { s.pwr with slots := s.pwr.slots.filter (fun x => x.dom ≠ n) ++ [slot] } }
    s.saveUsed

/-- The restore of a wake from RET (R416): what the host stored and the list does not hold returns to reset, the saved
fields return unchanged. -/
def State.restoreDomain (s : State) (n : Nat) : State :=
  match s.pwr.slots.find? (fun x => x.dom == n) with
  | none => s
  | some slot =>
    let pages := domPages n
    let wipe := fun (m : Cells Word) => m.foldl (fun m e =>
      if inPages pages e.1 then
        Cells.set resetWord m e.1 ((e.2 &&& ~~~(storedMask e.1)) ||| (resetWord e.1 &&& storedMask e.1)) else m) m
    let back := fun (m : Cells Word) (l : List (Nat × Word)) => l.foldl (fun m e =>
      Cells.set resetWord m e.1 ((Cells.get resetWord m e.1 &&& ~~~(savedMask e.1)) ||| e.2)) m
    let clear := fun (m : Cells Word) => m.foldl (fun m e =>
      if inPages pages e.1 && savedMask e.1 != 0 then
        Cells.set resetWord m e.1 ((Cells.get resetWord m e.1 &&& ~~~(savedMask e.1)) ||| (resetWord e.1 &&& savedMask e.1)) else m) m
    ({ s with regs := back (clear (wipe s.regs)) slot.words, act := back (clear s.act) slot.active }).dropSlot n

/-! Entries and wakes (R416 to R421). -/

/-- The levels of a domain's output pads, by pad (R421): D44 FSYNC_OUT; D45 GT0 to GT15, BL_EN, BL_PWM and PE; D46
FL_CS_N, which is high. -/
def State.padLevels (s : State) (n : Nat) : Nat :=
  if s.flag (Reg.PWR_DOM_STATE_LATCHED n) then s.padHeld n
  else
    match n with
    | 44 => b2n s.cas.pulse
    | 45 => s.gatePads + 2 ^ 18 * s.panelPe
    | _ => 1

/-- The pads of D44 to D46 are latched on the way to OFF (R421). -/
def State.padLatch (s : State) (n : Nat) : State :=
  match padDoms.find? (fun e => e.2 == n) with
  | none => s
  | some (b, _) =>
    let s : State := { s with pwr := { s.pwr with padHold := Cells.set (fun _ => 0) s.pwr.padHold n (s.padLevels n) } }
    (s.put ⟨Reg.PWR_PAD_LATCHED, b, 1⟩ 1).put (Reg.PWR_DOM_STATE_LATCHED n) 1

/-- What each lane of a domain is implied to be in (R52). -/
def State.domLanesTo (s : State) (n st : Nat) : State :=
  s.each (domLanes n) (fun l s => (s.put (Reg.PHY_LSTATE_DOMAIN (phyBase l)) (impliedLane st)).laneAim l)

/-- The domain's transition is over: its pending target is served (R418). -/
def State.domNext (s : State) (n : Nat) : State :=
  let p := s.domPending n
  let s : State := { (s.put (Reg.PWR_DOM_STATE_BUSY n) 0).put (Reg.PWR_DOM_STATE_PENDING n) 0 with
    pwr := { s.pwr with trans := s.pwr.trans.filter (fun t => t.dom ≠ n) } }
  if p = 0 then s else s.domServe n p

/-- The ROM takes a domain out of any transition (R454, R459). -/
def State.domForce (s : State) (n target : Nat) : State :=
  { ((s.put (Reg.PWR_DOM_STATE_BUSY n) 0).put (Reg.PWR_DOM_STATE_PENDING n) 0).put (Reg.PWR_DOM_REQ_TARGET n) target with
    pwr := { s.pwr with trans := s.pwr.trans.filter (fun t => t.dom ≠ n) } }

/-- The entry is aborted (R420). -/
def State.domAbort (s : State) (n : Nat) (r : Nat × Nat) : State :=
  let s := s.domCount (Reg.PWR_DOM_CNT1_ABORTED n)
  (((s.put (Reg.PWR_DOM_STATE_REASON n) r.1).put (Reg.PWR_DOM_STATE_REFUSER n) r.2).raise 3 1).domNext n

/-- A refusing condition arises during a drain (R420). -/
def State.aborted (s : State) (n : Nat) : State :=
  match s.domTrans n with
  | some t =>
    if t.phase = 0 then (match s.refusal n t.target with | some r => s.domAbort n r | none => s) else s
  | none => s

/-- The drain of a domain is complete (R416): it saves, isolates and powers down. -/
def State.drainDone (s : State) (n : Nat) : State :=
  match s.domTrans n with
  | some t =>
    if t.phase ≠ 0 then s
    else match s.refusal n t.target with
      | some r => s.domAbort n r
      | none =>
        let s := if n = 45 ∧ t.target = domStOFF then s.toDue else s
        let s := if t.target = domStRET then s.saveDomain n else (s.dropSlot n).padLatch n
        let s := if 12 ≤ n ∧ n ≤ 27 then s.each (List.range 4) (fun i s => s.portOff (4 * (n - 12) + i)) else s
        (s.domLanesTo n t.target).domBegin n t.target 1
  | none => s

/-- What a domain loses on reaching OFF (R412). -/
def State.domLost (s : State) (n : Nat) : State :=
  if n = 11 then { s.used with dram := [], mem := { s.mem with dramGen := s.fresh + 1, pageGens := [], poison := [] } }
  else if 47 ≤ n then s.bankLost (n - 47)
  else if domUnits n ≠ [] then s.logicLost n false
  else s.stageLost n

/-- A domain has reached RET or OFF. -/
def State.domEntered (s : State) (n st : Nat) : State :=
  let s := (s.domReach n st).domCount (Reg.PWR_DOM_CNT0_ENTRIES n)
  let s := if st = domStOFF then s.domLost n else s
  let s := if n = 2 then s.hpdFollow else s
  s.domNext n

/-- A domain has come ON: from RET its slot is restored, unless its CRC fails (R417); from OFF it has its reset values. -/
def State.domUp (s : State) (n : Nat) (bad : Bool) : State :=
  let from' := s.domCur n
  let s := if from' = domStRET ∧ domUnits n ≠ [] then
      (if bad then ((s.logicLost n true).bump Reg.PWR_SAVE_ERR).raise 3 4 |>.dropSlot n else s.restoreDomain n)
    else s
  let s := (s.domReach n domStON).domLanesTo n domStON
  let s := if n = 1 ∧ from' = domStOFF then s.coreRestart 0 else s
  let s := if n = 2 then s.hpdFollow else s
  let s := if n = 9 then s.adcRestart else s
  s.domNext n

/-- A domain completes its entry or its wake; a wake waits until the prerequisites are ON (R413, R416). -/
def State.transitionDone (s : State) (n : Nat) (bad : Bool) : State :=
  match s.domTrans n with
  | some t =>
    if t.phase = 1 then s.domEntered n t.target
    else if t.phase = 2 ∧ (domNeeds n).all (fun d => s.domOn d) then s.domUp n bad
    else s
  | none => s

/-! Resets of the M960 (R429, R486). -/

/-- What survives every reset, beside the OTP fuses: the flash, the levels of the input pins, time, the words already
sent and the free values drawn. The DRAM's contents are lost with its controller (log entry 26). -/
def State.bareReset (s : State) : State :=
  { State.reset with
    now := s.now, fresh := s.fresh + 1, out := s.out, pending := s.pending
    mem := { MemState.atReset with dramGen := s.fresh + 1 }
    nv := { NvState.atReset with flash := s.nv.flash, wpN := s.nv.wpN, jmpN := s.nv.jmpN }
    pan := { PanelState.atReset with pfailN := s.pan.pfailN, pgIn := s.pan.pgIn }
    boot := { BootState.atReset with resetLow := s.boot.resetLow, keyHash := s.boot.keyHash } }

/-- The output pins that were high fall with a reset: BL_EN, BL_PWM, PE and ISL_HPD. -/
def State.pinsFall (s t : State) : State :=
  (((t.when s.pan.blRun (fun t => t.emit .pin 0 [0])).when s.pan.pwmPin (fun t => t.emit .pin 1 [0])).when (s.panelPe != 0) (fun t => t.emit .pin 2 [0])).when s.isl.hpd
    (fun t => t.emit .pin 4 [0])

/-- The state after any reset. -/
def State.afterReset (s : State) : State :=
  s.pinsFall ((s.bareReset.wr Reg.SEC_OTP_LOCK (s.rd Reg.SEC_OTP_LOCK)).put Reg.NV_STATUS_WP (b2n !s.nv.wpN))

/-- A reset closes the presence window, and the closing is recorded once NVC is ready (R388, R389). -/
def State.windowReset (s t : State) : State := if s.sec.window.isSome then t.presenceRec 4 else t

/-- A power-on reset (R429, R486): TIMEBASE and the save memory are cleared. -/
def State.powerOnReset (s : State) : State := s.windowReset s.afterReset

/-- What a reset other than a power-on reset keeps besides (R429): the SRAM, the save memory, TIMEBASE, BOOT_TRIES and
POWER_ON_MIN; the OD tables of B35 hold their reset contents (R242). -/
def State.lasted (s : State) : State :=
  let t := s.afterReset
  let t : State := { t with
    clk := { ClkState.atReset with tbFrac := s.clk.tbFrac }
    pwr := { PwrState.atReset with slots := s.pwr.slots, minutesAt := s.pwr.minutesAt, spent := s.pwr.spent, since := s.pwr.since }
    sram := Cells.clearRange s.sram (sramKey 35 0) (sramKey 36 0 - sramKey 35 0)
    mem := { t.mem with bankGens := Cells.erase s.mem.bankGens 35 } }
  (((t.wr Reg.AON_TIMEBASE (s.rd Reg.AON_TIMEBASE)).wr Reg.AON_TIMEBASE_HI (s.rd Reg.AON_TIMEBASE_HI)).wr Reg.AON_BOOT_TRIES
    (s.rd Reg.AON_BOOT_TRIES)).wr Reg.AON_POWER_ON_MIN (s.rd Reg.AON_POWER_ON_MIN)

/-- The time in each state is counted from power-on reset (R428): a domain that was not ON comes ON. -/
def State.lastedCounts (s t : State) : State :=
  t.each (List.range 95) (fun n t =>
    if s.domCur n = domStON then t
    else { t with pwr := { t.pwr with
      spent := Cells.set (fun _ => 0) t.pwr.spent (spentKey n (s.domCur n)) (s.spentUs n (s.domCur n))
      since := Cells.set (fun _ => 0) t.pwr.since n s.timebase } })

/-- A reset by RESET_N or by a supply monitor (R429). -/
def State.logicReset (s : State) : State := s.windowReset ((s.lastedCounts s.lasted).saveUsed.sramZero 33)

/-- RESET_N goes low. -/
def State.resetLow (s : State) : State :=
  let t := s.logicReset
  { t with boot := { t.boot with resetLow := true } }

end Sys2Proof.Machine
end

