-- ==== Sys2Proof/Machine/Boot.lean ====
section
/-! DEFINITION. The ROM's start-up and the mailbox services for start-up and update (R452 to R462). -/

namespace Sys2Proof.Machine

/-! Images and headers (R455, R456). -/

def slotBase (n : Nat) : Nat := if n = 0 then 0x10000 else 0x410000

/-- An image as its check leaves it: the code of R454 (0 good), VERSION, the bytes of its body and their CRC-32. -/
structure ImageCheck where
  code : Nat
  version : Nat
  len : Nat
  crc : Nat

/-- The check of R456 on an image read by `rd` (offset, length), under the key hash of the OTP. -/
def imageCheck (key : Option (BitVec 256)) (rd : Nat → Nat → List Byte) : ImageCheck :=
  let h := rd 0 192
  let at' := fun (o n : Nat) => (h.drop o).take n
  let len := leVal (at' 8 4)
  let bad := fun (c : Nat) => (⟨c, leVal (at' 4 4), len, leVal (at' 16 4)⟩ : ImageCheck)
  if leVal (at' 0 4) ≠ 0x4D49474D ∨ len < 4 ∨ 491520 < len ∨ len % 4 ≠ 0 ∨ len ≤ leVal (at' 12 4) then bad 3
  else
    let body := rd 512 len
    if crc32 body ≠ leVal (at' 16 4) then bad 3
    else match key with
      | none => bad 7
      | some k =>
        let digest := sha256 (at' 0 32 ++ body)
        if digest = beVal (at' 32 32) ∧ sha256 (at' 64 64) = k.toNat ∧
            ecdsaOk digest (beVal (at' 64 32)) (beVal (at' 96 32)) (beVal (at' 128 32)) (beVal (at' 160 32)) then bad 0
        else bad 4

/-- The check of a slot of the flash. -/
def State.slotCheck (s : State) (n : Nat) : ImageCheck := imageCheck s.boot.keyHash (fun o l => s.flashRd (slotBase n + o) l)

/-- A boot header (R455): HSEQ and PREF when it is valid. -/
def State.bootHeader (s : State) (k : Nat) : Option (Nat × Nat) :=
  let h := s.flashRd (0x1000 * k) 16
  if leVal (h.take 4) = 0x48424D54 ∧ crc32 (h.take 12) = leVal (h.drop 12) then
    some (leVal ((h.drop 4).take 4), (h.getD 8 0).toNat)
  else none

/-- The slot the headers name, if a header is valid: the greater HSEQ wins, header 0 on a tie. -/
def State.headerSlot (s : State) : Option Nat :=
  match s.bootHeader 0, s.bootHeader 1 with
  | some (a, p), some (b, q) => some ((if a < b then q else p) % 2)
  | some (_, p), none => some (p % 2)
  | none, some (_, q) => some (q % 2)
  | none, none => none

/-- A body goes into B32 from offset 0. -/
def State.loadB32 (s : State) (body : List Byte) : State :=
  (chunks 4 body).zipIdx.foldl (fun s e => s.sramWr 32 e.2 (BitVec.ofNat 32 (leVal e.1))) s

/-- The first bytes of B32. -/
def State.readB32 (s : State) (n : Nat) : List Byte :=
  (List.range (n / 4)).flatMap (fun i => leBytes 4 (s.sramRd 32 i).toNat)

/-- An image that passed its check is loaded. -/
def State.imageLoad (s : State) (body : List Byte) (c : ImageCheck) : State :=
  let s := s.loadB32 body
  { s with boot := { s.boot with img := some (c.len, c.crc, c.version) } }

def State.slotLoad (s : State) (n : Nat) (c : ImageCheck) : State :=
  let s := s.imageLoad (s.flashRd (slotBase n + 512) c.len) c
  { s with boot := { s.boot with slot := n } }

/-- The ROM reads the body of a slot into B32 before it checks it (R456): of a length that a body can have. -/
def State.bodyRead (s : State) (n : Nat) (c : ImageCheck) : State :=
  if 4 ≤ c.len ∧ c.len ≤ 491520 ∧ c.len % 4 = 0 then
    { s.loadB32 (s.flashRd (slotBase n + 512) c.len) with boot := { s.boot with img := none } }
  else s

/-! CHIP.BOOT_REASON (R454). -/

def bootFld (lo w : Nat) : Fld := ⟨Reg.CHIP_BOOT_REASON, lo, w⟩
def State.bootCode (s : State) (c : Nat) : State := s.put (bootFld 0 8) c
def State.slotCode (s : State) (n c : Nat) : State := s.put (bootFld (8 + 8 * n) 8) c

/-- A phase of the start-up begins. -/
def State.bootPhase (s : State) (p : Nat) : State :=
  ({ s.put (bootFld 24 1) (b2n (p == 4)) with boot := { s.boot with phase := p, since := s.now } } : State).ledFollow

/-- D10 and D11 are held OFF (R454, R459). -/
def State.dramHold (s : State) : State :=
  s.each [11, 10] (fun n s =>
    let s := s.domForce n domStOFF
    if s.domCur n = domStOFF then s else (s.dropSlot n).domEntered n domStOFF)

/-- D10 and D11 come ON for training. -/
def State.dramOn (s : State) : State :=
  s.each [10, 11] (fun n s =>
    let s := s.domForce n domStON
    if s.domCur n = domStON then s else s.domUp n false)

/-! The attempt count (R457, R458). -/

/-- The payload of a BOOT record. -/
def State.bootRecord (s : State) (tries : Nat) : NvNew :=
  ⟨1, 0, 0, none, leBytes 1 tries ++ leBytes 1 (s.fld (bootFld 0 8)) ++ leBytes 1 s.boot.slot ++ [0] ++
    leBytes 4 (s.rd Reg.AON_POWER_ON_MIN).toNat⟩

/-- A record of the ROM or the firmware is appended; while NV_WP_N is low it is refused (R434). -/
def State.ownRecord (s : State) (r : NvNew) : State :=
  if !s.nv.wpN then s.wpRefused
  else if s.flag Reg.NV_STATUS_READY then
    (if s.nvRoom [recordSize r.data.length] then s.nvAdd [.append r, .reclaim] else s.setFull)
  else { s with nv := { s.nv with todo := s.nv.todo ++ [.append r, .reclaim] } }

/-- TRIES of the BOOT record, 0 when there is none or NVC is not ready. -/
def State.nvTries (s : State) : Nat :=
  if s.flag Reg.NV_STATUS_READY then
    (match presentOf s.nv.recs 1 0 with
    | some r => ((s.recData ringBase r).getD 0 0).toNat
    | none => 0)
  else 0

/-- The count is set in AON and in the flash. -/
def State.setTries (s : State) (n : Nat) : State :=
  let s := s.wrN Reg.AON_BOOT_TRIES n
  s.ownRecord (s.bootRecord n)

/-- The ROM arms the watchdog at 1,000 ms before the firmware's first start (R453). -/
def State.wdogArm (s : State) : State := (s.put Reg.CTL_WDOG_PERIOD 1000).put Reg.CTL_WDOG_EN 1

/-- An attempt fails (R454): its code, D10 and D11 OFF, and the next attempt from step 3, which waits for HOSTLOAD again
with BOOT_SRC at 1 (R460). A tried image gives way to the committed slot (R461). -/
def State.bootFail (s : State) (code : Nat) : State :=
  if s.boot.trial then
    let n := (s.headerSlot).getD 0
    let c := s.slotCheck n
    let s := (s.put (bootFld 26 1) 1).coreRestart (s.fld Reg.CTL_STATE_CAUSE)
    let s : State := { s with boot := { s.boot with trial := false } }
    let s := s.slotCode n c.code
    if c.code = 0 then (s.slotLoad n c).bootPhase 2 else (s.bootCode c.code).dramHold.bootPhase 0
  else ((s.bootCode code).dramHold).bootPhase 0

/-- The slots in the order the ROM tries them (R455). -/
def State.slotOrder (s : State) : List Nat :=
  match s.headerSlot with
  | some p => [p, 1 - p]
  | none => [0, 1]

/-- Step 4 of an attempt (R453 to R456). -/
def State.bootImage (s : State) (jedec : Nat) : State :=
  if jedec = 0 ∨ jedec = 0xFFFFFF then s.bootFail 1
  else
    let (s, found) := s.slotOrder.foldl (fun (acc : State × Option (Nat × ImageCheck)) n =>
      match acc.2 with
      | some _ => acc
      | none =>
        let c := acc.1.slotCheck n
        ((acc.1.bodyRead n c).slotCode n c.code, if c.code = 0 then some (n, c) else none)) (s, none)
    match found with
    | some (n, c) =>
      let s := if s.headerSlot.isNone then s.put (bootFld 25 1) 1 else s
      (s.slotLoad n c).bootPhase 1
    | none =>
      -- with no valid header the cause is the header; else the last slot tried (log entry 27)
      let last := (s.slotOrder.getLast?).getD 0
      s.bootFail (if s.headerSlot.isNone then 2 else s.fld (bootFld (8 + 8 * last) 8))

/-- Whether the firmware or the ROM runs on the core. -/
def State.coreAlive (s : State) : Bool := s.coreRunning && s.domOn 1 && s.boot.phase != 0 && s.boot.phase != 1

/-- Whether the firmware runs, as it does from its start on. -/
def State.firmware (s : State) : Bool := s.coreAlive && (s.boot.phase == 2 || s.boot.phase == 3)

/-! The firmware's record of retired pages (R347, R438). -/

/-- The firmware records a page that has been retired, unless a record of it is there. -/
def State.recordRetired (s : State) (p : Nat) : State :=
  if s.firmware ∧ presentOf s.nv.recs 7 p = none then s.ownRecord ⟨7, p, 0, none, leBytes 8 s.timebase⟩ else s

/-- RETIRE_CMD, and its record when it takes a free page. -/
def State.retireWrite (s : State) (w : Word) : State :=
  let p := w.toNat % 32768
  let t := s.retireCmd w
  if s.pageState p = 0 ∧ t.pageState p = 2 then t.recordRetired p else t

/-- The copy of a page ends, and its record. -/
def State.copyDone (s : State) : State :=
  match s.mem.copies.find? (fun c => !c.ended) with
  | some c => s.copyEnds.recordRetired c.oldPage
  | none => s

/-- The pages of the records are retired again at a start-up, before any region is allocated (R347). -/
def State.retireAgain (s : State) : State :=
  if s.flag Reg.NV_STATUS_READY then
    s.each (((s.nv.recs.filter (·.typ == 7)).map (·.id)).eraseDups) (fun p s =>
      if (presentOf s.nv.recs 7 p).isSome then s.retireCmd (BitVec.ofNat 32 (p % 32768 + 2 ^ 31)) else s)
  else s

/-- DRAM training ends (step 5): `mask` has a bit for each operating point trained. -/
def State.dramTrained (s : State) (mask : Nat) : State :=
  if s.boot.phase ≠ 1 then s
  else if mask % 2 = 0 then s.bootFail 5
  else
    let s := s.dramOn.put Reg.MEMC_STATUS_TRAINED mask
    let mop := min 2 (s.fldA Reg.MEMC_CFG_MOP)
    let s := s.put Reg.MEMC_STATUS_MOP_ACTIVE (if bit mask mop then mop else 0)
    let s := s.wdogArm.put Reg.CTL_STATE_STATE 0
    (s.bootPhase 2).retireAgain

/-- The firmware writes BOOT_OK (R453, R458). -/
def State.bootOk (s : State) : State :=
  if s.boot.phase = 2 then
    let s := s.wrN Reg.AON_BOOT_TRIES 0
    let s := if s.nvTries = 0 then s else s.ownRecord (s.bootRecord 0)
    (({ s with boot := { s.boot with trial := false } } : State).bootPhase 3).retireAgain
  else s

/-- 10 s have passed since the firmware was started, without BOOT_OK (R453, R461). -/
def State.bootTimeout (s : State) : State :=
  if s.boot.phase = 2 then (s.advance (s.boot.since + 10000000 * ticksPerUs)).bootFail 6 else s

/-! The watchdog and restarts (R386). -/

/-- The watchdog expires (R386); during initialisation the attempt fails (R453). -/
def State.wdogExpires (s : State) : State :=
  if s.flag Reg.CTL_WDOG_EN ∧ s.domOn 1 ∧ s.fld Reg.CTL_STATE_STATE ≠ 2 ∧ (s.boot.phase = 2 ∨ s.boot.phase = 3) then
    let s := s.raise 9 0
    if s.boot.phase = 2 then (s.coreRestart 1).bootFail 6 else s.coreRestart 1
  else s

/-- The core runs again after a restart (R386): from the image in B32 when its CRC-32 holds, else from the active slot,
verified as at start-up. -/
def State.restarted (s : State) : State :=
  if s.fld Reg.CTL_STATE_STATE ≠ 1 then s
  else if 4 ≤ s.boot.phase ∨ s.boot.phase < 2 then s.coreRuns
  else
    let good := match s.boot.img with
      | some (n, crc, _) => crc32 (s.readB32 n) == crc
      | none => false
    if good then s.coreRuns
    else
      let c := s.slotCheck s.boot.slot
      let s := s.slotCode s.boot.slot c.code
      if c.code = 0 then (s.slotLoad s.boot.slot c).coreRuns else s.coreRuns.bootFail c.code

/-! Mailbox (R387, R460 to R462). -/

/-- The command in the mailbox, while it is being served by a core that runs. -/
def State.mboxCode (s : State) : Option Nat :=
  if s.flag Reg.CTL_RSP_BUSY && s.coreAlive then some (s.fld Reg.CTL_MBOX_CMD_CODE) else none

/-- The codes that are served: without firmware only those of R459 and R460. -/
def State.mboxKnows (s : State) (c : Nat) : Bool :=
  if s.firmware then [0, 1, 2, 0x10, 0x11, 0x12, 0x13, 0x14, 0x15, 0x40, 0x41, 0x42].contains c
  else [0, 1, 2, 0x10, 0x11].contains c

/-- A service of the mailbox: it runs when the command in progress has its code. -/
def State.mboxServe (s : State) (c : Nat) (f : State → State) : State :=
  if s.mboxCode = some c ∧ s.mboxKnows c then f s else s

def State.mboxArg (s : State) (i : Nat) : Nat := (s.rd (Reg.CTL_ARG i)).toNat
def State.setArg (s : State) (i n : Nat) : State := s.wrN (Reg.CTL_ARG i) n

/-- VERSION: the ROM's version is not given, nor a firmware version while none is loaded: free values (log entry 3). -/
def State.mboxVersion (s : State) : State :=
  let s := match s.boot.img with
    | some (_, _, v) => s.setArg 0 v
    | none => (s.wr (Reg.CTL_ARG 0) s.free).used
  (((s.wr (Reg.CTL_ARG 1) s.free).used).setArg 2 s.boot.slot).mboxEnd 0

/-- The bytes of an image in a bank. -/
def State.bankBytes (s : State) (b o n : Nat) : List Byte :=
  ((List.range ((n + 7) / 4)).flatMap (fun i => leBytes 4 (s.sramRd b (o / 4 + i)).toNat)).drop (o % 4) |>.take n

/-- HOSTLOAD. Where DRAM has not been trained, step 5 of R453 follows. -/
def State.mboxHostload (s : State) : State :=
  let b := s.mboxArg 0
  if b < 44 ∨ 47 < b ∨ s.bankOwner b ≠ ownHost ∨ !s.bankOn b then s.mboxEnd 2
  else
    let rd := fun o n => s.bankBytes b o n
    let c := imageCheck s.boot.keyHash rd
    if c.code ≠ 0 then (s.setArg 0 c.code).mboxEnd 6
    else
      let s := (s.imageLoad (rd 512 c.len) c).coreRestart (s.fld Reg.CTL_STATE_CAUSE)
      let s : State := { s with boot := { s.boot with trial := false } }
      if s.domOn 11 && s.fld Reg.MEMC_STATUS_TRAINED % 2 == 1 then s.wdogArm.bootPhase 2 else s.bootPhase 1

/-- REBOOT: a new boot from step 3. -/
def State.mboxReboot (s : State) : State :=
  let s := (s.setTries 0).mboxEnd 4
  ({ s with boot := { s.boot with trial := false, image := none, pawnDue := false } } : State).bootPhase 0

/-- The slot in ARG0, of a service that needs presence or does not. -/
def State.withSlot (s : State) (priv : Bool) (f : Nat → State → State) : State :=
  if priv && !s.presenceOpen then s.mboxEnd 5
  else if 1 < s.mboxArg 0 then s.mboxEnd 2
  else f (s.mboxArg 0) s

/-- The image of ACTIVATE is in its region, and waits for the boundary. -/
def State.activated (n : Nat) (s : State) (h len : Nat) : State :=
  { s with boot := { s.boot with image := some (h, len), slot := n } }

/-- ACTIVATE: the image goes to a region that the core allocates; the boundary starts it (R461). -/
def State.mboxActivate (s : State) : State :=
  s.withSlot true (fun n s =>
    if s.boot.image.isSome then s
    else
      s.coreStored 1 (State.activated n) (fun s => s.mboxEnd 6) (fun s =>
        let c := s.slotCheck n
        let s := s.slotCode n c.code
        if c.code ≠ 0 then (s.setArg 0 c.code).mboxEnd 6
        else
          s.withDram (fun s =>
            let bytes := s.flashRd (slotBase n) (512 + c.len)
            s.coreAlloc 1 (ceilDiv bytes.length 65536) false false
              (fun s h => s.coreStore 1 h bytes (State.activated n)) (fun s => s.mboxEnd 6))))

/-- A tried image is checked again and loaded, and the core restarts into it (R461). -/
def State.activateImage (s : State) (bytes : List Byte) : State :=
  let c := imageCheck s.boot.keyHash (fun o n => (bytes.drop o).take n)
  let s : State := { s.loaded with boot := { s.loaded.boot with image := none, trial := true } }
  let s := s.coreRestart (s.fld Reg.CTL_STATE_CAUSE)
  if c.code = 0 then (s.imageLoad ((bytes.drop 512).take c.len) c).bootPhase 2 else s.bootFail c.code

/-- The boundary after ACTIVATE (R461); an image whose load was aborted is no image. -/
def State.activateBoundary (s : State) : State :=
  match s.boot.image with
  | none => s
  | some (h, n) => if n = 0 then s.activateImage [] else s.coreLoad h 0 n State.activateImage

/-- COMMIT: the header with the lower HSEQ names the slot, and a SLOT record is appended (R462). -/
def State.mboxCommit (s : State) : State :=
  s.withSlot true (fun n s =>
    let c := s.slotCheck n
    let s := s.slotCode n c.code
    if c.code ≠ 0 then (s.setArg 0 c.code).mboxEnd 6
    else if !s.nvIdle then s
    else if !s.nv.wpN then s.wpRefused.mboxEnd 6
    else
      let seq := fun k => ((s.bootHeader k).map (·.1 + 1)).getD 0
      let k := if seq 1 ≤ seq 0 then 1 else 0
      let hseq := seq (1 - k)
      let h := leBytes 4 0x48424D54 ++ leBytes 4 hseq ++ leBytes 1 n ++ [0, 0, 0]
      let r : NvNew := ⟨8, 0, 0, none, leBytes 1 n ++ [0, 0, 0] ++ leBytes 4 c.version ++ leBytes 4 hseq ++ leBytes 8 s.timebase⟩
      (s.put (bootFld 26 1) 0).nvAdd
        [.erase (0x1000 * k) false, .program (0x1000 * k) (h ++ leBytes 4 (crc32 h)), .append r, .mboxEnd 0, .reclaim])

/-- PAWN: the count becomes 3, and Pawn mode begins at the next boundary. -/
def State.mboxPawn (s : State) : State :=
  if !s.presenceOpen then s.mboxEnd 5
  else
    let s := ((s.bootCode 8).setTries 3).mboxEnd 0
    { s with boot := { s.boot with pawnDue := true } }

def State.mboxSlotInfo (s : State) : State :=
  s.withSlot false (fun n s =>
    let c := s.slotCheck n
    ((s.setArg 1 c.version).setArg 2 c.code).mboxEnd 0)

/-- A code that no service has (R387). -/
def State.mboxUnknown (s : State) : State :=
  match s.mboxCode with
  | some c => if s.mboxKnows c then s else s.mboxEnd 1
  | none => s

/-- RESET_N rises (R452), or an internal reset is released (R486): the straps are sampled. -/
def State.resetRise (s : State) (gpio : Nat) : State :=
  if s.boot.resetLow ∨ s.boot.phase = 0 then
    let s := s.wrN Reg.HOSTIF_STRAPS gpio
    { s with boot := { s.boot with resetLow := false, clocked := false, phase := 0, since := s.now } }
  else s

end Sys2Proof.Machine
end

