-- ==== Sys2Proof/Machine/Test.lean ====
section
/-! DEFINITION. The idle-turn test (R463, R464, R467) and the TAP (R466). A turn's result is what the array gave: 0 all
words right, 1 a word wrong, 2 the turn yielded. -/

namespace Sys2Proof.Machine

/-! Counters and the record of the first fail. -/

def testKey (kind which : Nat) : Nat := 3 * kind + which
def State.testCount (s : State) (kind which : Nat) : Nat := Cells.get (fun _ => 0) s.test.counts (testKey kind which)

/-- A counter of a kind counts; it saturates (R467). -/
def State.testBump (s : State) (kind which : Nat) : State :=
  let n := s.testCount kind which
  let s : State := { s with test := { s.test with counts := Cells.set (fun _ => 0) s.test.counts (testKey kind which) (satAdd 0xFFFFFFFF n 1) } }
  s.raiseIf (n == 0xFFFFFFFE) 7 1

/-- CNT_CLR of TEST. -/
def State.testClear (s : State) (w : Word) : State :=
  let s := s.each (List.range 5) (fun k s =>
    if bit w.toNat k then
      { s with test := { s.test with counts := Cells.clearRange s.test.counts (testKey k 0) 3 } }
    else s)
  if bit w.toNat 5 then
    { (s.wr Reg.TEST_LAST_FAIL0 0).wr Reg.TEST_LAST_FAIL1 0 with test := { s.test with failed := false } }
  else s

/-- A completed turn (R464): a run, and a fail with the record of the first since CNT_CLR. -/
def State.turnEnds (s : State) (kind : Nat) (bad : Bool) (unit detail : Nat) : State :=
  let s := s.testBump kind 0
  if bad then
    let s := s.testBump kind 1
    if s.test.failed then s
    else
      let s := (s.wrN Reg.TEST_LAST_FAIL0 (kind + 256 * (unit % 256) + 65536 * (detail % 65536))).wrN Reg.TEST_LAST_FAIL1
        (s.rd Reg.TIMING_FRAME_NO).toNat
      ({ s with test := { s.test with failed := true } } : State).raise 7 0
  else s

/-- Whether a kind's turn may run: its bit of KIND_EN, and its rate in an output frame. No turn runs in Pawn mode (R459). -/
def State.turnMay (s : State) (kind rate : Nat) : Bool :=
  bit (s.rd Reg.TEST_CFG).toNat kind && s.boot.phase != 4 && s.boot.phase != 5
    && (!s.tim.running || decide (Cells.get (fun _ => 0) s.test.made kind < rate))

def State.turnMade (s : State) (kind : Nat) : State :=
  { s with test := { s.test with made := Cells.set (fun _ => 0) s.test.made kind (Cells.get (fun _ => 0) s.test.made kind + 1) } }

/-! SRAM (kind 0). -/

/-- The first bank from one on whose domain is ON, in turn from B0 to B47. -/
def State.sramBank (s : State) (from' : Nat) : Option Nat :=
  ((List.range 48).map (fun i => (from' + i) % 48)).find? (fun b => s.bankOn b)

/-- A sweep ends: SWEEPS counts, saturating. -/
def State.sweep (s : State) (lo : Nat) : State := s.bumpPhy ⟨Reg.TEST_SWEEPS, lo, 16⟩ 1

/-- An SRAM turn over one 256-word segment (R463, R367). -/
def State.sramTurn (s : State) (result : Nat) : State :=
  if !s.turnMay 0 (s.fld Reg.TEST_CFG_SRAM_TURNS) then s
  else
    match s.sramBank s.test.bank with
    | none => s
    | some b =>
      let seg := if b = s.test.bank then s.test.segment else 0
      let s := s.turnMade 0
      if result = 2 then (s.testBump 0 2).bump Reg.BANKS_TEST_ABORT
      else
        let s := if s.bankOwner b = ownTest then s.sramLost b else s
        let s := s.turnEnds 0 (result == 1) b seg
        let n := if b < 32 then 64 else 256
        let next := if seg + 1 < n then (b, seg + 1) else ((b + 1) % 48, 0)
        let s := if next = (0, 0) then s.sweep 0 else s
        { s with test := { s.test with bank := next.1, segment := next.2 } }

/-! DRAM (kind 1). -/

/-- A DRAM turn on a free page (R463); a failing one is retired (R341). -/
def State.dramTurn (s : State) (result : Nat) : State :=
  if !s.turnMay 1 (s.fld Reg.TEST_CFG_DRAM_TURNS) || !s.dramReady || !s.mapUp then s
  else
    match s.findFree 32768 s.test.page with
    | none => { (if s.test.page = 0 then s else s.sweep 16) with test := { s.test with page := 0 } }
    | some p =>
      let s := s.turnMade 1
      if result = 2 then s.testBump 1 2
      else
        -- a pattern and its complement, each written and read back: 4 times 1,024 beats of class 4
        let s := ((s.pageLost p).beats 4 4096).turnEnds 1 (result == 1) 0 p
        let s := if result = 1 then (s.retireFreePage p).recordRetired p else s
        let s := if p = 32767 then s.sweep 16 else s
        { s with test := { s.test with page := (p + 1) % 32768 } }

/-! LUT (kind 2). Tables: 0 EOTF, 1 PSF, 2 CELLLUT, 3 OD, 4 DEFECT, 5 the dither RAM bank, 6 the ROM dither matrix. -/

/-- The active bank of a table; none while the table is not in use. -/
def State.lutActive (s : State) (t : Nat) : Option Nat :=
  match t with
  | 0 => some (s.fldA Reg.INPUT_EOTF_CFG_BANK)
  | 1 => some (s.fldA Reg.PSF_CFG_BANK)
  | 2 => some (s.fldA Reg.CELLLUT_CFG_BANK)
  | 3 => some (s.fldA Reg.OD_CFG_BANK)
  | 4 => some (s.fldA Reg.DEFECT_CFG_BANK)
  | 5 => if s.flagA Reg.DITH_CFG_MSRC then some (s.fldA Reg.DITH_CFG_BANK) else none
  | _ => some 0

/-- Whether the domains that a table's check needs are ON (R463). -/
def State.lutUp (s : State) (t : Nat) : Bool :=
  match t with
  | 0 => s.domOn 5
  | 1 => s.domOn 7
  | 2 => s.domOn 8
  | 3 => s.domOn 9 && s.bankOn 35
  | 4 | 5 => s.domOn 9 && s.bankOn 37
  | _ => s.domOn 9

def State.lutBank (s : State) (t : Nat) : Option Nat := if s.lutUp t then s.lutActive t else none

/-- A table whose bank is no longer active loses its reference (R463). -/
def State.lutSwitches (s : State) : State :=
  { s with test := { s.test with refs := s.test.refs.filter (fun e => e.2 == s.lutActive e.1) } }

/-- The next table to check. -/
def State.lutTable (s : State) : Option Nat :=
  ((List.range 7).map (fun i => (s.test.table + i) % 7)).find? (fun t => (s.lutBank t).isSome)

/-- A LUT turn in vertical blanking (R463, R464): the first check of a table after it became active sets its reference. -/
def State.lutTurn (s : State) (result : Nat) : State :=
  if !s.turnMay 2 (s.fld Reg.TEST_CFG_LUT_TURNS) || (s.tim.running && decide (s.tim.line < s.vact)) then s
  else
    match s.lutTable with
    | none => s
    | some t =>
      let s := s.turnMade 2
      let b := s.lutBank t
      let had := Cells.get (fun _ => none) s.test.refs t
      let ref := fun (s : State) (r : Option Nat) => { s with test := { s.test with refs := Cells.set (fun _ => none) s.test.refs t r } }
      if result = 2 then ref (s.testBump 2 2) none
      else
        let s := s.turnEnds 2 (result == 1 && had == b) t 0
        { ref s b with test := { (ref s b).test with table := (t + 1) % 7 } }

/-! PRBS (kind 3) and shadow (kind 4). -/

/-- An ERRCNT response of a partner with the PRBS check (R291, R463). -/
def State.prbsTurn (s : State) (pid bits errs : Nat) : State :=
  if bits = 0 || !s.turnMay 3 0xFFFFFFFF then s else s.turnEnds 3 (errs != 0) 0 pid

/-- The shadow lane's result of the frame that ended (R266, R463). -/
def State.shadowTurn (s : State) : State :=
  let s := if s.dit.compared = 0 || !s.turnMay 4 0xFFFFFFFF then s else s.turnEnds 4 s.dit.differs 0 0
  { s with test := { s.test with made := [] }, dit := { s.dit with compared := 0, differs := false } }

/-! The TAP (R466). -/

/-- The boundary register's cells: 292 signal balls but for the nine that R466 names (log entry 28). -/
def tapCells : Nat := 283

def tapEXTEST : Nat := 0x00
def tapSAMPLE : Nat := 0x01
def tapIDCODE : Nat := 0x02
def tapCLAMP : Nat := 0x03
def tapHIGHZ : Nat := 0x04
def tapPULSE : Nat := 0x0C
def tapTRAIN : Nat := 0x0D
def tapRUNBIST : Nat := 0x10

/-- Bits shifted through a register whose bit 0 is nearest TDO: what leaves on TDO, and what the register then holds. -/
def tapShift (reg dr : List Bool) : List Bool × List Bool := ((reg ++ dr).take dr.length, (reg ++ dr).drop dr.length)

/-- An instruction is loaded, and its data register scanned: captured, shifted by `dr`, and the update kept. -/
def State.tapScan (s : State) (ir : Nat) (capture dr : List Bool) (update : List Bool → TapState → TapState) : State :=
  let (o, r) := tapShift capture dr
  let s : State := { s with tap := update r { s.tap with ir := ir } }
  if o.isEmpty then s else s.emit .tdo 0 (o.map b2n)

/-- The levels at the balls, as the boundary register captures them: a list cut or filled with low to its cells. -/
def tapCapture (pins : List Bool) : List Bool := (pins ++ List.replicate tapCells false).take tapCells

/-- An instruction that selects the boundary register. -/
def State.tapBoundary (s : State) (ir : Nat) (pins dr : List Bool) : State :=
  s.tapScan ir (tapCapture pins) dr (fun r t => { t with cells := r })

/-- An instruction that selects the bypass bit. -/
def State.tapBypass (s : State) (ir : Nat) (dr : List Bool) : State := s.tapScan ir [false] dr (fun _ t => t)

/-- The 32 bits of IDCODE. -/
def idcodeBits : List Bool := (List.range 32).map (fun i => bit 0x10960A4F i)

/-- RUNBIST starts: it destroys every SRAM content and the stage RAMs (R466). -/
def State.runBist (s : State) (dr : List Bool) : State :=
  let s := s.tapBypass tapRUNBIST dr
  let s := s.each (List.range 48) (fun b s => s.sramLost b)
  let s := s.each [2, 5, 7, 8] (fun n s => s.stageLost n)
  s.wrN Reg.TEST_BIST 0

/-- RUNBIST ends: the result and the failing unit. -/
def State.bistDone (s : State) (fail : Bool) (unit : Nat) : State :=
  if s.tap.ir = tapRUNBIST then s.wrN Reg.TEST_BIST (1 + 2 * b2n fail + 256 * (if fail then unit % 256 else 0)) else s

/-- Codes 0x11 to 0xFE are private; BYPASS while they are locked. -/
def State.tapPrivate (s : State) (code : Nat) : Bool := decide (0x11 ≤ code) && decide (code ≤ 0xFE) && s.flag Reg.TEST_UNLOCK_UNLOCK

/-- TRST_N is low: the TAP is in reset, its instruction IDCODE. -/
def State.tapReset (s : State) : State := { s with tap := TapState.atReset }

end Sys2Proof.Machine
end

