-- ==== Sys2Proof/Machine/Pixel.lean ====
section
/-! DEFINITION. The pixel path from the frame slot to the driver links, one output line at a time (R11 to R13, R94, R157
to R161, R177 to R268, R295): steps 5 to 13 of the pixel journey. -/

namespace Sys2Proof.Machine

/-- Whether the domains of the pixel path are all ON (R111, R408). -/
def State.pathOn (s : State) : Bool := [5, 6, 7, 8, 9].all (fun n => s.domOn n)

/-- A line of the light held in the path. -/
def State.keepLight (s : State) (y : Int) (l : List Pix) : State :=
  { s with path := { s.path with light := Cells.set (fun _ => []) s.path.light (y + 32).toNat l } }

/-- Flat grey of the Pawn picture (R459). -/
def pawnGrey : Pix := ⟨0x31C3#16, 0x31C3#16, 0x31C3#16⟩

/-- The line that the Pawn picture shows (R459): the source's while the link is UP and the output locked to it, else
flat grey. -/
def State.pawnLine (s : State) (y : Nat) : List Pix :=
  let l := Cells.get (fun _ => []) s.boot.lines y
  if s.linkUp ∧ s.timMode = timLOCKED ∧ l.length = s.hact then l else List.replicate s.hact pawnGrey

/-- The read side reads line y (R157); one that nothing can replace is black (R24). -/
def State.readLine (s : State) (y : Nat) : State :=
  if s.pawn then s.keepLight y (s.pawnLine y)
  else
    match s.viewLine y with
    | (s, some p) => s.keepLight y p
    | (s, none) =>
      let s : State := { s with path := { s.path with black := s.path.black ++ [y] } }
      s.keepLight y (List.replicate s.hact Pix.black)

/-- A seam line held in the seam region, from the north (line −32 to −1) or the south (R475): none when it was lost or has
not come (R476, R478), or when its memory fails. -/
def State.readSeam (s : State) (y : Int) : State × Option (List Pix) :=
  let n := 6 * s.hact
  let row := if y < 0 then (y + 32).toNat else (y - s.vact).toNat
  if s.innerEdge (if y < 0 then 3 else 1) && s.flagA Reg.CAS_SEAM_EN && s.cas.rows.contains ((if y < 0 then 96 else 32) + row) then
    let (s, bad, l) := s.engRead 5 (s.fldA Reg.CAS_SEAM_HANDLE) ((if y < 0 then 0 else 192 * s.hact) + row * n) n
    (s, if bad = 0 then some (bytesPix l) else none)
  else (s, none)

/-- A line of context beyond the frame: the seam of an inner edge, or the hem line (R132). -/
def State.readHem (s : State) (y : Int) : State :=
  match s.readSeam y with
  | (s, some l) => s.keepLight y l
  | (s, none) =>
    match hemIndex (s.fldA ⟨Reg.INPUT_HEM, 0, 2⟩) s.vact y with
    | none => s.keepLight y (List.replicate s.hact Pix.black)
    | some n =>
      if s.pawn then s.keepLight y (s.pawnLine n)
      else
        match s.viewLine n with
        | (s, some p) => s.keepLight y p
        | (s, none) => s.keepLight y (List.replicate s.hact Pix.black)

/-- The lines of a stretch, one after the other. -/
def State.lines (s : State) (lo : Int) (n : Nat) (f : Int → State → State) : State :=
  s.each (List.range n) (fun (i : Nat) s => f (lo + i) s)

/-- The read side is ahead of SPLIT by 16 lines (R17, R18): with line y it has read up to line y + 17, and the context
beyond the frame that SPLIT reaches. -/
def State.readAhead (s : State) (y : Nat) : State :=
  let s := if y = 0 then s.lines (-(s.splitReach : Int)) s.splitReach (fun i s => s.readHem i) else s
  let upTo := min s.vact (y + 18)
  let from' := s.path.readNext
  let s := s.lines from' (upTo - from') (fun i s => s.readLine i.toNat)
  let s := if from' < s.vact ∧ upTo = s.vact then s.lines s.vact s.splitReach (fun i s => s.readHem i) else s
  { s with path := { s.path with readNext := max from' upTo } }

/-- B of a line, held in the path. -/
def State.keepField (s : State) (y : Int) : State :=
  let (s, l) := s.fieldLine y
  { s with path := { s.path with field := Cells.set (fun _ => []) s.path.field (y + 32).toNat l } }

/-- FIELD processes a line of the frame, the zone rows that are due being solved first (R167, R177). -/
def State.fieldStep (s : State) (y : Nat) : State :=
  let s := s.each (List.range (s.zoneRows - s.zon.solved)) (fun _ s => if s.rowDue s.zon.solved y then s.solveSeam else s)
  let s := s.keepField y
  let s := s.fieldProbe y (Cells.get (fun _ => []) s.path.field (y + 32))
  { s with fie := { s.fie with next := y + 1 } }

/-- FIELD keeps the same distance; lines beyond an inner edge come with the frame's first and last (R181). -/
def State.fieldAhead (s : State) (y : Nat) : State :=
  let from' := s.fie.next
  let upTo := min s.vact (y + 18)
  let s := s.lines from' (upTo - from') (fun i s => s.fieldStep i.toNat)
  let r := s.splitReach
  let s := if y = 0 ∧ s.innerEdge 3 then s.lines (-(r : Int)) r (fun i s => s.keepField i) else s
  if from' < s.vact ∧ upTo = s.vact ∧ s.innerEdge 1 then s.lines s.vact r (fun i s => s.keepField i) else s

/-- The patch words and the states of the lines up to PF_LINES ahead are fetched (R223, R237). -/
def State.fetchAhead (s : State) (y : Nat) : State :=
  let upTo := min s.vact (y + s.pfLines + 1)
  let s := if s.unitOn 0x60 then s.lines s.pat.next (upTo - s.pat.next) (fun i s => s.patchFetch i.toNat) else s
  let s := if s.unitOn 0x62 then s.lines s.od.next (upTo - s.od.next) (fun i s => s.odFetch i.toNat) else s
  { s with pat := { s.pat with next := upTo }, od := { s.od with next := upTo } }

/-- Lines no longer reached leave the path. -/
def State.pathDrop (s : State) (y : Nat) : State :=
  let k := y + 32 - (2 * s.splitReach + 2)
  let old {α : Type} (m : Cells α) : Cells α := m.filter (fun e => k ≤ e.1)
  { s with path := { s.path with
      light := old s.path.light, field := old s.path.field, target := old s.path.target, hor := old s.path.hor }
           pat := { s.pat with out := s.pat.out.filter (fun e => y ≤ e.1 + 2) } }

/-- A line from SPLIT to PATCH. -/
def State.toPatch (s : State) (y : Nat) : State :=
  let (s, t) := s.splitLine y
  let (s, d) := s.cellLine y t
  (s.patchLine y d).pathDrop y

/-- A line from DEFECT to DITH: its codes; `faults` is what the shadow lane finds (R266). -/
def State.toCodes (s : State) (y : Nat) (faults : List Nat) : State × DriveLine :=
  let black := s.path.black.contains y
  let (s, d) := s.defectLine y
  let (s, d) := s.odLine y black d
  let zero := fun (l : List Nat) => l.map (fun _ => 0)
  let d : DriveLine := if black then ⟨zero d.r, zero d.g, zero d.b, zero d.m⟩ else d
  s.ditherLine y d faults

/-- A line produced while PLL_PIX is unlocked is undefined (R402): each of its codes is a free value (log entry 3). -/
def State.undefinedLine (s : State) (d : DriveLine) : State × DriveLine :=
  if s.clk.pixLost then
    let loose := fun (c : Nat) (l : List Nat) =>
      l.zipIdx.map (fun (e : Nat × Nat) => (Config.freeWord (s.fresh + 4 * e.2 + c)).toNat)
    ({ s with fresh := s.fresh + 4 * d.r.length }, ⟨loose 0 d.r, loose 1 d.g, loose 2 d.b, loose 3 d.m⟩)
  else (s, d)

/-- The codes of a line leave DITH one line after its start and go to the ports (R295); none does in the frame of R156. -/
def State.sendLine (s : State) (y : Nat) (d : DriveLine) : State :=
  if s.sto.black && !s.pawn then s
  else
    let (s, d) := s.undefinedLine d
    let t := s.now
    let s : State := { s with now := s.tim.f + (y + 1) * s.linePeriod }
    let s := s.edlLine y d (s.path.black.contains y) (s.tim.shows != 0)
    { s with now := t }

/-- An active output line. -/
def State.activeLine (s : State) (y : Nat) (faults : List Nat) : State :=
  let s := (s.bankReads ownPix ([35, 36, 37].filter s.bankUsed)).bankReads ownCas
    (([0, 2].filter s.innerEdge).map seamBank)
  let s := ((s.readAhead y).fieldAhead y).fetchAhead y
  let s := if y = 0 then s.toPatch 0 else s
  let s := if y + 1 < s.vact then s.toPatch (y + 1) else s
  let (s, d) := s.toCodes y faults
  s.sendLine y d

/-- OUTPUT_LINE_START: the next line of the output frame starts (R94). While a domain of the path is not ON no line is
processed (log entry 29). Retired pages are remapped at it (R347), and after the last active line a switch of the
memory operating point may begin (R330) and the domains may be asked to retain (R111). -/
def State.outputLine (s : State) (faults : List Nat) : State :=
  match s.nextLine with
  | none => s
  | some (y, t) =>
    let s := (s.advance t).remap
    let s := if y < s.vact ∧ s.pathOn then s.activeLine y faults else s
    let s := if y = s.vact then s.mopStart.retAsk else s
    { s with tim := { s.tim with line := y + 1 } }

end Sys2Proof.Machine
end

