-- ==== Sys2Proof/Machine/Validate.lean ====
section
/-! DEFINITION. APPLY, the validator and REVERT (R382, R383; R14), and the figures reported of a pending
configuration. Where a rule does not say which unit a failure concerns, or which index, the page and the index are the
model's (log entry 30). -/

namespace Sys2Proof.Machine

/-! A configuration as if it were active. -/

/-- Whether a stored word is a /F setting (R8): its row says so, or it is word 1 of a partner entry (R307). -/
def isShadow (a : Nat) : Bool :=
  if 0x5000000 ≤ a then a % 16 == 4 else (rowOf a).any (·.f)

/-- The /F shadows, as a set that applies. -/
def State.shadows (s : State) : ApplySet :=
  ⟨s.regs.filter (fun e => isShadow e.1), s.zon.classPend, false⟩

/-- The pages of the pixel path, whose EN takes effect at a boundary (R11). -/
def pathPages : List Nat :=
  [0x30, 0x31, 0x32, 0x40, 0x41, 0x42, 0x50, 0x51, 0x52, 0x53, 0x54, 0x60, 0x61, 0x62, 0x63, 0x64, 0x70, 0x100]

/-- The CTRL words of the pixel path come into force (R11, R13). -/
def State.takeCtrl (s : State) : State :=
  s.each pathPages (fun p s =>
    { s with act := Cells.set resetWord s.act (Reg.HDR_CTRL p) (s.rd (Reg.HDR_CTRL p)) })

/-- The machine as it would be with a set active. -/
def State.asActive (s : State) (set : ApplySet) : State :=
  { s with act := set.words, zon := { s.zon with classAct := set.classes } }.takeCtrl

/-- The machine with the pending configuration active: what is reported of it is read there. -/
def State.asPending (s : State) : State := s.asActive s.shadows

/-! Figures of the active configuration of such a machine. -/

/-- A list's total. -/
def total (l : List Nat) : Nat := l.foldl (· + ·) 0

/-- Blocks of a packet of some payload bytes: its LSTART and its data blocks (R275). -/
def packetLen (bytes : Nat) : Nat := 1 + ceilDiv (bytes + 2) 8

/-- KIND of a port of the configuration (R269). -/
def State.kindSet (s : State) (p : Nat) : Nat := kindAct (s.fldA (Reg.EDL_PORT_CFG_KIND p))

/-- The payload of a port (R305): bits, and the ticks over which they are counted. -/
def State.portDemand (s : State) (leds : List Partner) (p : Nat) : Nat × Nat :=
  if s.kindSet p = 1 then
    let e := s.partner (s.fldA (Reg.EDL_PORT_CFG_PID p))
    if !e.en || 1 < e.kind then (0, 1)
    else
      let n := 16 - depthShift (if e.kind = 1 then s.fldA Reg.DITH_CFG_DEPTH_M else s.fldA Reg.DITH_CFG_DEPTH_C)
      ((packetLen (ceilDiv (e.nout * n) 8) + 2) * 64, max 1 s.linePeriod)
  else if s.kindSet p = 2 then
    let own := ledsOf leds p
    let applies := if bfiModeOf (s.rdA Reg.TIMING_BFI) = 1 then 2 else 1
    let blocks :=
      if s.zoneCols = 0 then packetLen 136 + 1
      else total ((List.range s.zoneRows).map (fun r =>
        let ch := (own.map (fun e => (e.channels s.zoneCols r).length)).filter (· != 0)
        total (ch.map (fun n => packetLen (8 + 2 * n))) + (if ch.isEmpty then 0 else applies)))
    let parked := if s.fld ⟨Reg.EDL_PORT_UNADDR p, 0, 7⟩ = 0 then 0 else packetLen 136
    ((blocks + parked + 2) * 64, max 1 s.periodMin)
  else (0, 1)

/-- EDL_PORTn.PAYLOAD in Mbit/s (R305). -/
def State.portPayload (s : State) (leds : List Partner) (p : Nat) : Nat :=
  let d := s.portDemand leds p
  divHalfUp (d.1 * 256000) d.2

/-- The class-0 demand of R340 over one PERIOD_MIN, in thousandths of a bit. -/
def State.c0Demand (s : State) : Nat :=
  let px := s.hact * s.vact * 48
  (if s.flagA Reg.CODEC_CFG_PARTIAL_EN then 3150 else 2100) * px + 131 * px
  + 1000 * ((if s.unitOn 0x62 then 16 * odBytes s.hact s.vact s.wm else 0)
    + (if s.unitOn 0x60 then 8 * s.livePatch.bytes else 0)
    + (if s.flagA Reg.FIELD_CFG_SPILL_EN then 16 * (4 * s.zoneCols) * (4 * s.zoneRows) else 0))

/-- The peak of both dies in Mbit/s (R329). -/
def State.memPeak (s : State) : Nat := [1638400, 2457600, 3276800].getD (s.fldA Reg.MEMC_CFG_MOP) 3276800

/-- MEMC.DEMAND, LIMIT and ACTIVE_PCT (R340): Mbit/s, Mbit/s, 0.1 %. -/
def State.memDemand (s : State) : Nat := divHalfUp (s.c0Demand * 256) (max 1 s.periodMin)
def State.memLimit (s : State) : Nat := divHalfUp (s.memPeak * 7) 10
def State.memActivePct (s : State) : Nat :=
  divHalfUp (s.c0Demand * 256 * 1000) (max 1 (s.memPeak * s.vact * s.linePeriod))

/-- Whether a region is of class 0 and holds some bytes. -/
def State.regionHolds (s : State) (h bytes : Nat) : Bool :=
  s.isCls0 h && (s.region h).any (fun r => bytes ≤ r.pages * 65536)

/-- Bad values of R201: a k_c that is zero, negative, a NaN, infinite or above 2.0; a floor that is negative, a NaN or
above 2^-6, where −0 is not negative. -/
def badGain (v : Sample) : Bool := v.toNat == 0 || 0x4000 < v.toNat
def badFloor (v : Sample) : Bool := 0x2400 < v.toNat && v.toNat != 0x8000

/-- The rates of an ISL lane in Mbit/s (R29). -/
def islMbps (c : Nat) : Nat := [2500, 5000, 8000, 10000, 16000, 20000, 25000, 32000].getD c 32000

/-- A failure: the page and the index, when a condition holds. -/
def failIf (c : Bool) (page index : Nat) : Option (Nat × Nat) := if c then some (page, index) else none

/-- The first failure of a list. -/
def firstFail (l : List (Option (Nat × Nat))) : Option (Nat × Nat) := l.findSome? id

/-- The first member of a list that fails: its index. -/
def failAt {α : Type} (l : List α) (page : Nat) (index : α → Nat) (bad : α → Bool) : Option (Nat × Nat) :=
  (l.find? bad).map (fun x => (page, index x))

/-! The checks, in the order of the codes (R383). Each answers the page and the index of its first failure. -/

/-- 0x01: the total-timing pixel rate (R14). -/
def State.checkRate (s : State) : Option (Nat × Nat) :=
  failIf (opLimit (s.fld Reg.PWR_OP_STATUS_MAX_ACTIVE) * s.linePeriod < s.fldA Reg.TIMING_HTIMING_HTOTAL * 32000000) 0x30 0

/-- 0x02: the capacity of the link (R14). -/
def State.checkIsl (s : State) : Option (Nat × Nat) :=
  let lanes := 2 ^ min 4 (s.fld Reg.ISL_CFG_LANES)
  let rate := islMbps (s.fld Reg.ISL_CFG_RATE_MAX)
  failIf (lanes * rate * 128 * s.periodMin < s.hact * s.vact * pixelBits (s.fldA Reg.INPUT_FMT_FORMAT) * 256000 * 130) 0x10 0

/-- 0x03: the payload of every enabled port (R14, R305). -/
def State.checkPorts (s : State) : Option (Nat × Nat) :=
  let leds := s.partners
  (List.range 64).findSome? (fun p =>
    let d := s.portDemand leds p
    let rate := edlMbps (min 6 (s.fld (Reg.PHY_RATE_MAX (phyBase (laneEdl p)))))
    failIf (rate * 64 * d.2 < d.1 * 256000 * 66) (portPage p) p)

/-- 0x04: the number of partners, the IDs of cell ports, the drive instant (R14, R297, R277). -/
def State.checkPartners (s : State) : Option (Nat × Nat) :=
  let cells := (List.range 64).filter (fun p => s.kindSet p == 1)
  let pid := fun p => s.fldA (Reg.EDL_PORT_CFG_PID p)
  let need := total ((List.range 64).map (fun p =>
    if s.kindSet p = 1 then 1 else if s.kindSet p = 2 then s.fldA (Reg.EDL_PORT_CFG_EXPECT p) else 0))
  firstFail [
    failIf (1024 < need) 0x70 0,
    cells.findSome? (fun p =>
      failIf (0x3FF < pid p || cells.any (fun q => q < p && pid q == pid p)) (portPage p) p),
    failIf (s.fldA Reg.EDL_CFG_DRIVE_OFS * s.linePeriod < 5 * ticksPerUs
      || s.fldA Reg.TIMING_VTIMING_VBLANK_MIN ≤ s.fldA Reg.EDL_CFG_DRIVE_OFS || 2 ^ 24 ≤ s.linePeriod) 0x70 0 ]

/-- 0x05: the class-0 demand (R340). -/
def State.checkDemand (s : State) : Option (Nat × Nat) :=
  failIf (70 * s.memPeak * s.periodMin < s.c0Demand * 256 * 100
    || 75 * s.memPeak * s.vact * s.linePeriod < s.c0Demand * 256 * 100) 0x110 0

/-- 0x06: line and frame timing (R93, R95). The hold time of the panel is not known to the M960 (R95). -/
def State.checkTiming (s : State) : Option (Nat × Nat) :=
  let ht := s.fldA Reg.TIMING_HTIMING_HTOTAL
  failIf (s.hact % 8 != 0 || s.hact < 64 || 7680 < s.hact || s.vact < 8 || 4320 < s.vact || ht % 8 != 0
    || ht < s.hact + 64 || opLimit (s.fld Reg.PWR_OP_STATUS_MAX_ACTIVE) * s.linePeriod < ht * 32000000
    || s.periodMin < s.shortestFrame || s.periodMax < 2 * s.periodMin) 0x30 0

/-- 0x07: the reach of the split (R18). -/
def State.checkReach (s : State) : Option (Nat × Nat) := failIf (16 < s.splitReach) 0x53 0

/-- 0x08: the colour matrix (R125). -/
def State.checkMatrix (s : State) : Option (Nat × Nat) :=
  let regs := [Reg.INPUT_MAT0, Reg.INPUT_MAT1, Reg.INPUT_MAT2, Reg.INPUT_MAT3, Reg.INPUT_MAT4, Reg.INPUT_MAT5]
  let bad := fun (v : Sample) => isNaN16 v || isInf16 v
  failIf (regs.any (fun r => bad (s.lowA r) || bad (s.highA r))) 0x40 0

/-- 0x09: the zone grid (R163). -/
def State.checkGrid (s : State) : Option (Nat × Nat) :=
  let cols := s.zoneCols
  let rows := s.fldA Reg.ZONE_GRID_ROWS
  let lat := s.lookahead + 24 + 2 * s.casLevels
  let colb := fun i => s.fldA ⟨Reg.ZONE_COLB i, 0, 13⟩
  let rowb := fun i => s.fldA ⟨Reg.ZONE_ROWB i, 0, 13⟩
  if cols = 0 then none
  else failIf (128 < cols || rows == 0 || 128 < rows || colb 0 != 0 || rowb 0 != 0 || colb cols != s.hact
    || rowb rows != s.vact
    || (List.range cols).any (fun i => colb (i + 1) < colb i + 16 || colb i + 1024 < colb (i + 1))
    || (List.range rows).any (fun i => rowb (i + 1) < rowb i + 8 || rowb i + 1024 < rowb (i + 1))
    || rows - 1 < s.fldA ⟨Reg.ZONE_LOOKAHEAD_ZROWS, 0, 4⟩ || 1023 < lat || s.vact < lat) 0x50 0

/-- The PSF classes that a zone uses. -/
def State.classesUsed (s : State) : List Nat :=
  if s.zoneCols = 0 then []
  else (List.range 8).filter (fun c => (List.range s.zoneTotal).any (fun z => s.zoneClass z == c))

/-- 0x0A: the PSF classes (R176). -/
def State.checkPsf (s : State) : Option (Nat × Nat) :=
  failAt s.classesUsed 0x51 id (fun c =>
    let i := (s.psfInfo (s.fldA Reg.PSF_CFG_BANK) c).toNat
    i % 65536 == 0 || bit i 24)

/-- 0x0B: the split (R201). -/
def State.checkSplit (s : State) : Option (Nat × Nat) :=
  let nh := s.fldA Reg.SPLIT_BLUR_NTAP_H
  let nv := s.fldA Reg.SPLIT_BLUR_NTAP_V
  let sum := fun reg n => total ((List.range n).map (s.tapOf reg))
  let lh := s.rx + s.chTaps + 2
  failIf (badFloor (s.lowA Reg.SPLIT_FLOOR)
    || (s.dual && (nh % 2 == 0 || nv % 2 == 0 || sum Reg.SPLIT_HTAP nh != 32768 || sum Reg.SPLIT_VTAP nv != 32768
      || sum Reg.SPLIT_PAR 25 != 32768 || s.rx < s.chTaps || s.ry < s.cvTaps || 16 < s.splitReach
      || (s.groupMember && 32 < (if s.monoHalf then 2 * lh + 1 else lh))
      || badGain (s.lowA Reg.SPLIT_KC0) || badGain (s.highA Reg.SPLIT_KC0) || badGain (s.lowA Reg.SPLIT_KC1)
      || badFloor (s.highA Reg.SPLIT_FLOOR)))) 0x53 0

/-- The slots of the configuration: whether enabled, and the handle. -/
def State.slotsSet (s : State) : List (Nat × Bool × Nat) :=
  (List.range 3).map (fun n =>
    (n, s.flagA ⟨Reg.CODEC_SLOT0 + 4 * n, 8, 1⟩, s.fldA ⟨Reg.CODEC_SLOT0 + 4 * n, 0, 6⟩))

/-- 0x0C: the frame slots (R138). -/
def State.checkSlots (s : State) : Option (Nat × Nat) :=
  let l := s.slotsSet
  failAt l 0x42 (·.1) (fun x => !x.2.1 || l.any (fun y => y.1 < x.1 && y.2.2 == x.2.2)
    || !s.regionHolds x.2.2 (slotLayout s.hact s.vact).size)

/-- 0x0D: the patch sets, knots and prefetch (R212, R223). -/
def State.checkPatch (s : State) : Option (Nat × Nat) :=
  let live := s.patchLive
  let en := fun n => s.flagA ⟨Reg.PATCH_SET0 + 4 * n, 8, 1⟩
  let planes := if s.dual then [0, 1, 2, 3] else [0, 1, 2]
  let pf := s.pfLines
  if !s.unitOn 0x60 then none
  else firstFail [
    failIf (!en live || !s.regionHolds s.liveHandle s.livePatch.bytes) 0x60 live,
    failIf (en 0 && en 1 && s.fldA Reg.PATCH_SET0_HANDLE == s.fldA Reg.PATCH_SET1_HANDLE) 0x60 1,
    failAt planes 0x60 id (fun p =>
      let k := s.patchKnots p
      !(0 < k.1 && k.1 < k.2.1 && k.2.1 < k.2.2 && k.2.2 < 65535)),
    failIf (pf * s.linePeriod < 4 * ticksPerUs || 2 ^ 21 < (pf + 2) * 8 * (s.hact + ceilDiv s.wm 3)) 0x60 live ]

/-- 0x0E: the defect table and the weights (R228, R231). -/
def State.checkDefect (s : State) : Option (Nat × Nat) :=
  let count := s.fldA ⟨Reg.DEFECT_COUNT, 0, 13⟩
  let l := s.defectActive.zipIdx
  let key := fun (e : DefEntry) => e.y * 65536 + e.x * 8 + e.ch
  let weights := fun c0 c1 => 65536 < 2 * s.fldA ⟨c0, 0, 16⟩ + 2 * s.fldA ⟨c0, 16, 16⟩ + 4 * s.fldA ⟨c1, 0, 16⟩
    || s.fldA ⟨c1, 16, 16⟩ < 4096
  firstFail [
    failIf (s.unitOn 0x61 && 4096 < count) 0x61 4095,
    if !s.unitOn 0x61 then none
    else failAt (l.zip (none :: l.map some)) 0x61 (fun x => x.1.2) (fun x =>
      let e := x.1.1
      3 < e.ch || e.kind == 0 || 4 < e.kind || (e.ch == 3 && !s.dual) || (if e.ch = 3 then s.wm else s.hact) ≤ e.x
        || s.vact ≤ e.y || x.2.any (fun y => key e ≤ key y.1)),
    if !s.unitOn 0x61 then none
    else ((l.filter (fun x => x.1.kind == 4)).drop 64).head?.map (fun x => (0x61, x.2)),
    failIf (weights Reg.DEFECT_WEIGHT_C0 Reg.DEFECT_WEIGHT_C1) 0x61 0,
    failIf (weights Reg.DEFECT_WEIGHT_M0 Reg.DEFECT_WEIGHT_M1) 0x61 1 ]

/-- Whether a list of numbers rises strictly. -/
def risesInt : List Int → Bool
  | a :: b :: l => decide (a < b) && risesInt (b :: l)
  | _ => true

/-- 0x0F: overdrive (R238). -/
def State.checkOd (s : State) : Option (Nat × Nat) :=
  let h := s.odHandle
  let named := s.slotsSet.any (fun x => x.2.1 && x.2.2 == h)
    || (List.range 2).any (fun n => s.flagA ⟨Reg.PATCH_SET0 + 4 * n, 8, 1⟩ && s.fldA ⟨Reg.PATCH_SET0 + 4 * n, 0, 6⟩ == h)
  let d1 := s.fldA ⟨Reg.OD_DBIN0, 0, 16⟩
  let d2 := s.fldA ⟨Reg.OD_DBIN0, 16, 16⟩
  let d3 := s.fldA ⟨Reg.OD_DBIN1, 0, 16⟩
  failIf (s.unitOn 0x62 && (!s.flagA Reg.OD_STATE_EN || !s.regionHolds h (odBytes s.hact s.vact s.wm) || named
    || !risesInt ((List.range 8).map s.odTb) || !(0 < d1 && d1 < d2 && d2 < d3))) 0x62 0

/-- 0x10: the depths (R267). -/
def State.checkDither (s : State) : Option (Nat × Nat) :=
  failIf (s.fldA Reg.DITH_CFG_DEPTH_C == 3 || s.fldA Reg.DITH_CFG_DEPTH_M == 3) 0x64 0

/-- The columns of its cell that an entry drives: first and one past the last, none when it reaches beyond one end of a
cell of some width (R276, R304). -/
def Partner.span (e : Partner) (width : Nat) : Option (Nat × Nat) :=
  let n := if e.kind = 1 then e.nout else e.nout / 3
  if e.dir then (if e.col0 + 1 < n || width ≤ e.col0 then none else some (e.col0 + 1 - n, e.col0 + 1))
  else if width < e.col0 + n then none else some (e.col0, e.col0 + n)

/-- Whether two LED entries share a zone. -/
def Partner.zonesMeet (cols : Nat) (a b : Partner) : Bool :=
  let at' := fun (e : Partner) => (e.zoneBase / max 1 cols, e.zoneBase % max 1 cols)
  (at' a).1 < (at' b).1 + b.zh && (at' b).1 < (at' a).1 + a.zh && (at' a).2 < (at' b).2 + b.zw && (at' b).2 < (at' a).2 + a.zw

/-- 0x11: the partner table (R304). -/
def State.checkTable (s : State) : Option (Nat × Nat) :=
  let l := ((List.range 1024).map s.partner).filter (·.en)
  let width := fun (e : Partner) => if e.kind = 1 then s.wm else s.hact
  failAt l 0xF0 (·.pid) (fun e =>
    let depth := if e.kind = 1 then s.fldA Reg.DITH_CFG_DEPTH_M else s.fldA Reg.DITH_CFG_DEPTH_C
    let before := l.filter (fun x => x.pid < e.pid && x.kind == e.kind)
    !e.valid || (e.kind < 2 && s.kindSet e.port == 2) || (e.kind == 2 && s.kindSet e.port == 1)
    || (e.kind < 2 && (!bit e.depths depth
      || (e.kind == 0 && e.nout % 3 != 0)
      || (e.kind == 1 && !s.dual)
      || (match e.span (width e) with
          | none => true
          | some (a, b) => before.any (fun x => x.half == e.half && (match x.span (width x) with
              | none => false
              | some (c, d) => a < d && c < b)))))
    || (e.kind == 2 && (e.outputs < e.zw * e.zh || s.zoneCols == 0
      || s.zoneCols < e.zoneBase % max 1 s.zoneCols + e.zw || s.zoneRows < e.zoneBase / max 1 s.zoneCols + e.zh
      || before.any (fun x => x.zonesMeet s.zoneCols e))))

/-- The first step of the power-on sequence that sets a bit, among the steps that run. -/
def State.firstStep (s : State) (b : Nat) : Option Nat :=
  let last := ((List.range 8).find? (fun k => s.flag (Reg.PANELPWR_ON_STEP_LAST k))).getD 7
  (List.range (last + 1)).find? (fun k => s.flag (onStepFld k b 1))

/-- 0x12: the edges of GATE and the steps of PANELPWR (R314). -/
def State.checkPanel (s : State) : Option (Nat × Nat) :=
  let lim := s.fldA Reg.TIMING_HTIMING_HTOTAL / 8
  let early := fun (a b : Option Nat) => match a, b with
    | some i, some j => if i < j then some (0x101, i) else none
    | _, _ => none
  firstFail [
    failAt (List.range 128) 0x100 id (fun i =>
      let w := Reg.GATE_EDGE (i / 2)
      s.flagA ⟨w, 16 * (i % 2) + 15, 1⟩ && lim ≤ s.fldA ⟨w, 16 * (i % 2), 12⟩),
    early (s.firstStep 9) (s.firstStep 8),
    early (s.firstStep 10) (s.firstStep 9) ]

/-- 0x13: SETTLE_LINES (R182). -/
def State.checkSettle (s : State) : Option (Nat × Nat) :=
  failIf (s.fldA Reg.TIMING_VTIMING_VBLANK_MIN < s.fldA Reg.ZONE_SCAN_SETTLE_LINES) 0x50 0

/-- 0x14: the spill of the field (R180). -/
def State.checkSpill (s : State) : Option (Nat × Nat) :=
  failIf (s.flagA Reg.FIELD_CFG_SPILL_EN
    && !s.regionHolds (s.fldA Reg.FIELD_CFG_SPILL_HANDLE) (2 * (4 * s.zoneCols) * (4 * s.zoneRows))) 0x52 0

/-- 0x15: the owners of banks (R212, R238, R267, R337). -/
def State.checkOwners (s : State) : Option (Nat × Nat) :=
  let want := (if s.unitOn 0x62 then [(35, ownPix)] else [])
    ++ (if s.unitOn 0x64 && s.flagA Reg.DITH_CFG_MSRC then [(37, ownPix)] else [])
    ++ (if s.unitOn 0x60 then [(38, ownPix), (39, ownPix), (40, ownPix), (41, ownPix)] else [])
  failAt ((33, ownAlloc) :: want) 0x118 (·.1) (fun x => s.bankOwner x.1 != x.2)

/-- 0x16: the memory operating point (R329, R330); `now` is the active one. -/
def State.checkMop (s : State) (now : Nat) : Option (Nat × Nat) :=
  let mop := min 2 (s.fldA Reg.MEMC_CFG_MOP)
  failIf (!bit (s.fld Reg.MEMC_STATUS_TRAINED) mop
    || (mop != min 2 now && s.fldA Reg.TIMING_VTIMING_VBLANK_MIN * s.linePeriod < 30 * ticksPerUs)) 0x110 0

/-- The rows of members of the grid (R469). -/
def State.gridRows (s : State) : Nat :=
  (List.range (s.fldA Reg.CAS_GEOM_DEPTH)).foldl (fun n l => n * (s.fldA ⟨Reg.CAS_GEOM, 16 + 4 * l, 2⟩ + 1)) 1

/-- 0x17: the group (R472, R474). -/
def State.checkGroup (s : State) : Option (Nat × Nat) :=
  let depth := s.fldA Reg.CAS_GEOM_DEPTH
  let lat := s.lookahead + 24 + 2 * s.casLevels
  failIf (depth == 0 || 4 < depth
    || (s.groupMember && (s.cas.conflict
      || (s.followsFsync && s.cas.syncWas.any (fun x => x.1 != s.linePeriod || x.2 != lat))
      || s.fldA Reg.TIMING_VTIMING_VBLANK_MIN < (s.gridRows - 1) * s.vact
      || s.classesUsed.any (fun c => 7 < (s.psfInfo (s.fldA Reg.PSF_CFG_BANK) c).toNat / 65536 % 16)
      || !s.flagA Reg.CAS_SEAM_EN || !s.regionHolds (s.fldA Reg.CAS_SEAM_HANDLE) (384 * s.hact)))) 0x120 0

/-- 0x18: the input format (R117). -/
def State.checkFormat (s : State) : Option (Nat × Nat) := failIf (4 < s.fldA Reg.INPUT_FMT_FORMAT) 0x40 0

/-- The checks of a set in force, by their codes from 0x01 on; `mop` is the memory operating point in force now. -/
def State.checks (s : State) (mop : Nat) : List (Option (Nat × Nat)) :=
  [s.checkRate, s.checkIsl, s.checkPorts, s.checkPartners, s.checkDemand, s.checkTiming, s.checkReach, s.checkMatrix,
   s.checkGrid, s.checkPsf, s.checkSplit, s.checkSlots, s.checkPatch, s.checkDefect, s.checkOd, s.checkDither,
   s.checkTable, s.checkPanel, s.checkSettle, s.checkSpill, s.checkOwners, s.checkMop mop, s.checkGroup, s.checkFormat]

/-- The checks that concern DRAM, which Pawn mode holds off (R459): 0x05, 0x0C and 0x16 are not made in it (log entry
34). -/
def pawnSkips (code : Nat) : Bool := code == 0x05 || code == 0x0C || code == 0x16

/-- What the validator finds of a set (R383): the code, the page and the index of the first failure; none accepts. -/
def State.validate (s : State) (set : ApplySet) : Option (Nat × Nat × Nat) :=
  (((s.asActive set).checks (s.fldA Reg.MEMC_CFG_MOP)).zipIdx).findSome? (fun x =>
    if s.pawn && pawnSkips (x.2 + 1) then none else x.1.map (fun f => (x.2 + 1, f.1, f.2)))

/-! APPLY and REVERT (R382). -/

/-- CHIP.APPLY is written: GO copies the shadows and starts the validator; a later GO replaces the set. -/
def State.applyGo (s : State) (w : Word) : State :=
  if w.toNat % 2 = 0 then s
  else
    let s : State := { s with chip := { s.chip with applying := some s.shadows } }
    (s.put Reg.CHIP_APPLY_VALIDATING 1).put Reg.CHIP_APPLY_WAITING 0

/-- The set with the firmware's coarse image has been judged (R222). -/
def State.coarseJudged (s : State) (accepted : Bool) : State :=
  if s.pat.coarseDue then
    { (if accepted then s.put Reg.PATCH_STATUS_COARSE_LOADED 1 else s) with pat := { s.pat with coarseDue := false } }
  else s

/-- The validator ends (R382, R383). -/
def State.validated (s : State) : State :=
  match s.chip.applying with
  | none => s
  | some set =>
    if !s.flag Reg.CHIP_APPLY_VALIDATING then s
    else
      let s := s.put Reg.CHIP_APPLY_VALIDATING 0
      match s.validate set with
      | none =>
        let s := (s.wrN Reg.CHIP_CONFIG_REJECT 0).put Reg.CHIP_APPLY_WAITING 1
        ({ s with chip := { s.chip with applying := some { set with accepted := true } } } : State).coarseJudged true
      | some (code, page, index) =>
        let s : State := { s with chip := { s.chip with applying := none } }
        let s := s.wrN Reg.CHIP_CONFIG_REJECT (code + 2 ^ 8 * (page % 4096) + 2 ^ 20 * (index % 4096))
        ((s.bump Reg.CHIP_REJECT_CNT).raise 0 1).coarseJudged false

/-- REVERT: the shadows take the active values, unless a set is being applied. -/
def State.revert (s : State) : State :=
  if s.chip.applying.isSome then
    s.put (wholeFld (Reg.HDR_ERR_COUNT 0)) (satAdd 0xFFFFFFFF (s.rd (Reg.HDR_ERR_COUNT 0)).toNat 1)
  else
    let keep := s.regs.filter (fun e => !isShadow e.1)
    let back := s.act.filter (fun e => isShadow e.1)
    { s with
      regs := back.foldl (fun m e => Cells.set resetWord m e.1 e.2) keep
      zon := { s.zon with classPend := s.zon.classAct } }

/-- The accepted set takes effect at a boundary (R382): true when one did. -/
def State.applySet (s : State) : State × Bool :=
  match s.chip.applying with
  | none => (s, false)
  | some set =>
    if !set.accepted then (s, false)
    else
      let ctrl := s.act.filter (fun e => !isShadow e.1)
      let s : State := { s with
        act := set.words.foldl (fun m e => Cells.set resetWord m e.1 e.2) ctrl
        zon := { s.zon with classAct := set.classes }
        chip := { s.chip with applying := none } }
      let s := (s.put Reg.CHIP_APPLY_WAITING 0).psfActive.latencyReport
      ({ s with mem := { s.mem with mopDue := min 2 (s.fldA Reg.MEMC_CFG_MOP) != s.fld Reg.MEMC_STATUS_MOP_ACTIVE } }, true)

end Sys2Proof.Machine
end

