-- ==== Sys2Proof/Machine/Flags.lean ====
section
/-! DEFINITION. The flags of the page header: the counters that CNT_CLR clears and STATUS.SAT watches (R89, R371), and
the interrupt registers (R384, R385). -/

namespace Sys2Proof.Machine

/-- A run of 32-bit counters: CNT_CLR bit k clears the one at `base + 4k`. -/
def cntRun (base n : Nat) : List (Nat × Fld) := (List.range n).map (fun k => (k, wholeFld (base + 4 * k)))

/-- The counters of a unit's page: the bit of CNT_CLR and the counter (each unit's register table). -/
def countersOf (u : Unit) (p : Nat) : List (Nat × Fld) :=
  match u with
  | .CHIP => [(0, wholeFld Reg.CHIP_APPLY_CNT), (1, wholeFld Reg.CHIP_REJECT_CNT)]
  | .CLK => cntRun 0x2060 6
  | .PWR => cntRun 0x3060 5
      ++ (List.range 95).flatMap (fun n => [Reg.PWR_DOM_CNT0 n, Reg.PWR_DOM_CNT1 n].flatMap (fun a =>
        [(5, ⟨a, 0, 16⟩), (5, ⟨a, 16, 16⟩)]))
  | .HOSTIF => cntRun 0x404C 4
  | .SEC => [(0, wholeFld Reg.SEC_REFUSED), (1, wholeFld Reg.SEC_OPENINGS)]
  | .NV => cntRun 0x60A0 7
  | .CTL => [(0, wholeFld Reg.CTL_RESTARTS), (1, wholeFld Reg.CTL_MBOX_REFUSED)]
  | .PERTURB => [(32, wholeFld Reg.PERTURB_INJECTED)]
  | .ISL => cntRun 0x10060 13
  | .ISL_LANE => [(0, wholeFld (p * 0x1000 + 0x44))]
  | .ISL_BC => cntRun 0x21048 6
  | .TIMING => cntRun 0x30080 7
  | .GENLOCK => [(0, wholeFld Reg.GENLOCK_LOSS_CNT)]
  | .SREF => cntRun 0x32060 6
  | .INPUT => cntRun 0x40090 4
  | .STATS => [(0, wholeFld Reg.STATS_STALE_ZONES)]
  | .CODEC => cntRun 0x42080 13
  | .ZONE => cntRun 0x50090 5
  | .PSF => [(0, wholeFld Reg.PSF_BUSY_CNT)]
  | .FIELD => [(0, wholeFld Reg.FIELD_STALE_ROWS), (1, wholeFld Reg.FIELD_CLAMP_CNT)]
  | .SPLIT => [(0, wholeFld Reg.SPLIT_CLIP_TOTAL), (1, wholeFld Reg.SPLIT_CRUSH_TOTAL)]
  | .CELLLUT => [(0, wholeFld Reg.CELLLUT_BUSY_CNT)]
  | .PATCH => cntRun 0x60090 3
  | .DEFECT => cntRun 0x610A0 3
  | .OD => cntRun 0x62090 4
  | .THERM => cntRun 0x63090 3
  | .DITH => [(0, wholeFld Reg.DITH_BUSY_CNT), (1, wholeFld Reg.DITH_SHADOW_ERR), (2, wholeFld Reg.DITH_SHADOW_LINES)]
  | .EDL => [(0, wholeFld Reg.EDL_HCMD_DROP), (1, wholeFld Reg.EDL_ENUM_RUNS)]
  | .EDL_PORT => [(0, wholeFld (p * 0x1000 + 0x50)), (1, wholeFld (p * 0x1000 + 0x54)), (2, wholeFld (p * 0x1000 + 0x5C)),
      (3, wholeFld (p * 0x1000 + 0x60))]
  | .RETBUS => cntRun (p * 0x1000 + 0x44) 5
  | .PANELPWR => cntRun 0x101080 4
  | .MEMC => cntRun 0x110050 4 ++ [(4, wholeFld Reg.MEMC_MOP_SWITCHES)]
  | .REGION => [(0, wholeFld Reg.REGION_REQ_DROP)]
  | .SCHED => cntRun 0x112050 6
  | .ECC => cntRun 0x113044 5
  | .BULK => [(0, wholeFld Reg.BULK_WIN_DROP)]
  | .BANKS => cntRun 0x118040 5
  | .CAS => cntRun 0x120060 5
  | _ => []

/-- A write of CNT_CLR clears the counters its bits name (R89). -/
def State.cntClr (s : State) (u : Unit) (p : Nat) (w : Word) : State :=
  match u with
  | .TEST => s.testClear w
  | _ =>
    let s := s.each (countersOf u p) (fun c s => if bit w.toNat c.1 then s.put c.2 0 else s)
    let s : State := if u = .MEMC && bit w.toNat 0 then { s with mem := { s.mem with maxLat := 0 } } else s
    if u = .DITH && bit w.toNat 1 then s.put Reg.DITH_SHADOW_FIRST1_VALID 0 else s

/-- STATUS.SAT: whether a counter of the unit reads all ones (R89, R371). -/
def State.satFlag (s : State) (u : Unit) (p : Nat) : Bool :=
  (countersOf u p).any (fun c => s.fld c.2 == 2 ^ c.2.w - 1)
    || (u == .TEST && (List.range 15).any (fun k => Cells.get (fun _ => 0) s.test.counts k == 0xFFFFFFFF))

/-! Interrupts. -/

/-- The bits of IRQ_EN that a page has: its own events, and CHILDREN where it gathers children (R384). -/
def irqEnMask (u : Unit) (p : Nat) : Word :=
  BitVec.ofNat 32 (u.irqMask + (if (childrenOf p).isEmpty || u == .EDL_GRP then 0 else 2 ^ 31))

/-- The bits of IRQ_RAW that an event or a test sets: a group page has none of its own (R308). -/
def irqOwnMask (u : Unit) : Word := if u = .EDL_GRP then 0 else BitVec.ofNat 32 u.irqMask

/-- IRQ_RAW as it reads: on CHIP bit 31 follows IRQ_SUMMARY under IRQ_SUM_EN (R384, R385). -/
def State.rawOf (s : State) (p : Nat) : Word :=
  if p = 0 then
    (s.rd (Reg.HDR_IRQ_RAW 0) &&& 0x7FFFFFFF#32)
      ||| (if BitVec.ofNat 32 s.irqSummary &&& s.rd Reg.CHIP_IRQ_SUM_EN != 0 then 0x80000000#32 else 0)
  else s.irqRaw 3 p

/-- IRQ_PEND as it reads. -/
def State.pendOf (s : State) (p : Nat) : Word := s.rawOf p &&& s.rd (Reg.HDR_IRQ_EN (hdrPage p))

/-- IRQ_N is driven low (R385). -/
def State.irqLow (s : State) : Bool := s.pendOf 0 != 0 && s.flag ⟨Reg.HOSTIF_IRQ_CFG, 0, 1⟩

/-- A header word of a page changes, and a branch of CHIP that becomes pending is noted (R447, R80). -/
def State.irqWord (s : State) (p a : Nat) (w : Word) : State :=
  (s.wr a w).noteRise (s.irqPend (branchOf p) != 0) p

def State.irqEnWrite (s : State) (u : Unit) (p : Nat) (w : Word) : State :=
  s.irqWord p (Reg.HDR_IRQ_EN (hdrPage p)) (w &&& irqEnMask u p)

/-- IRQ_SET (R384). -/
def State.irqSetWrite (s : State) (u : Unit) (p : Nat) (w : Word) : State :=
  let a := Reg.HDR_IRQ_RAW (hdrPage p)
  s.irqWord p a (s.rd a ||| (w &&& irqOwnMask u))

/-- A write of 1 to IRQ_PEND (R384). -/
def State.irqPendWrite (s : State) (p : Nat) (w : Word) : State :=
  let a := Reg.HDR_IRQ_RAW (hdrPage p)
  s.wr a (s.rd a &&& ~~~w)

end Sys2Proof.Machine
end

