-- ==== Sys2Proof/Machine/Access.lean ====
section
/-! DEFINITION. Register access from the host ports and the control core (R6 to R10, R369 to R373, R379, R407, R409,
R422), physical presence (R388), the mailbox (R387), and the member window with its tunnel (R380, R477). -/

namespace Sys2Proof.Machine

/-! Physical presence (R388, R389). The window counts on TIMEBASE. -/

/-- The presence window opens, or its count starts anew. -/
def State.presenceOpens (s : State) : State :=
  let was := s.presenceOpen
  let len := clampNat 10 600 (s.fld ⟨Reg.SEC_WINDOW, 0, 10⟩) * 1000000
  let s : State := { s with sec := { window := some (s.timebase, s.timebase + len) } }
  if was then s
  else (((s.put Reg.SEC_STATE_OPEN 1).bump Reg.SEC_OPENINGS).raise 5 0).presenceRec 1 |>.ledFollow

/-- The window closes with a cause: 2 its count, 3 CLOSE. TEST.UNLOCK is cleared (R467). -/
def State.presenceShut (s : State) (cause : Nat) : State :=
  if !s.presenceOpen then s
  else
    let s : State := { s.put Reg.SEC_STATE_OPEN 0 with sec := { window := none } }
    (((s.put Reg.TEST_UNLOCK_UNLOCK 0).raise 5 1).presenceRec cause).ledFollow

/-- The count of the window ends. -/
def State.presenceEnds (s : State) : State :=
  match s.sec.window with
  | none => s
  | some w => (s.advance (s.tbInstant w.2)).presenceShut 2

/-- SEC.STATE as it reads: BUTTON is the level of a ball that no command carries, a free value (log entry 33). -/
def State.secState (s : State) : State × Word :=
  let left := match s.sec.window with
    | none => 0
    | some w => (w.2 - s.timebase) / 1000000
  (s.used, BitVec.ofNat 32 (b2n s.presenceOpen + 2 * (s.free.toNat % 2) + 4 * b2n (!s.nv.jmpN) + 2 ^ 16 * left))

/-! The mailbox (R387). -/

/-- MBOX_CMD is written by a port. -/
def State.mboxWrite (s : State) (port : Nat) (w : Word) : State :=
  if s.flag Reg.CTL_RSP_BUSY then s.bump Reg.CTL_MBOX_REFUSED
  else
    let s := s.wr Reg.CTL_MBOX_CMD (w &&& 0xFFFF#32)
    s.wrN Reg.CTL_RSP (w.toNat / 256 % 256 * 256 + 2 ^ 17 + 2 ^ 18 * port)

/-- ARGi is written by a port. -/
def State.argWrite (s : State) (port a : Nat) (w : Word) : State :=
  if s.flag Reg.CTL_RSP_BUSY && s.fld ⟨Reg.CTL_RSP, 18, 2⟩ != port then s.bump Reg.CTL_MBOX_REFUSED else s.wr a w

/-! PRBS (R54 to R56). -/

/-- Whether a lane has a far-end loopback (R56). -/
def laneFarEnd (l : Nat) : Bool := l == laneBcRx || l == laneBcTx || (98 ≤ l && l < 106)

/-- A lane leaves its link (R55). BC_TX sends no frames, and nothing comes over a return bus, while a test has it:
`bcSend` and `busResponse` look at that themselves. -/
def State.laneTaken (s : State) (l : Nat) : State :=
  if laneIsRx l then s.laneDown l s.bcUp
  else if 16 ≤ l && l < 80 then
    let p := l - 16
    if s.portIsUp p then s.portLost p
    else if s.portState p == portTRAINING || s.portState p == portENUM then s.attemptFails p else s
  else if 98 ≤ l && l < 102 then s.casLost (l - 98)
  else s

/-- PRBS is written (R54 to R56): a test takes the lane out of its link and keeps it up, and a generator that starts, or
whose pattern changes, fills the lane. -/
def State.prbsWrite (s : State) (l : Nat) (w : Word) : State :=
  let b := phyBase l
  let was := (s.lane l).test
  let old := s.rd (Reg.PHY_PRBS b)
  let loop := Reg.PHY_PRBS_LOOP b
  let kept := if loop.get w = 2 && !laneFarEnd l then s.fld loop else loop.get w
  let s := (s.wr (Reg.PHY_PRBS b) (w &&& 0x3F#32)).put loop kept
  let on := (!laneIsRx l && s.flag (Reg.PHY_PRBS_GEN_EN b)) || (laneIsRx l && s.flag (Reg.PHY_PRBS_CHK_EN b))
  let test := on || kept == 1 || kept == 2
  -- a checker that is off, or whose pattern or path changes, is out of step (log entry 65)
  let s := if !s.flag (Reg.PHY_PRBS_CHK_EN b) || old != s.rd (Reg.PHY_PRBS b) then s.put (Reg.PHY_PRBS_STAT_SYNC b) 0 else s
  let s := if test && !was then s.laneTaken l else s
  let s := (s.mapLane l (fun x => { x with test := test })).laneAim l
  let s := if old != s.rd (Reg.PHY_PRBS b) then s.prbsFill l else s
  s.detectRuns

/-! The header (R370, R371). -/

/-- The units whose EN enables something: the stages of R11, and GATE (log entry 31). -/
def Unit.hasEn : Unit → Bool
  | .INPUT | .STATS | .CODEC | .ZONE | .FIELD | .SPLIT | .CELLLUT | .PATCH | .DEFECT | .OD | .THERM | .DITH | .EDL
  | .GATE => true
  | _ => false

/-- The distance to the next sibling of a page (R370, R374); 0 for the last, and for CHIP. -/
def siblingStep (p : Nat) : Nat :=
  let parents := [0x000, 0x010, 0x030, 0x040, 0x050, 0x060, 0x070, 0x100, 0x110] ++ (List.range 16).map (0x071 + ·)
  match (parents.map childrenOf).find? (·.contains p) with
  | none => 0
  | some l => match l[l.idxOf p + 1]? with
    | none => 0
    | some q => q - p

/-- UNIT_ID and UNIT_TREE of a page (R370, R374). -/
def unitId (u : Unit) (p : Nat) : Word := BitVec.ofNat 32 (u.page + 2 ^ 16 * (hdrPage p - u.page) + 2 ^ 24)
def unitTree (p : Nat) : Word :=
  let kids := childrenOf (hdrPage p)
  BitVec.ofNat 32 (kids.length + 2 ^ 12 * kids.headD 0 + 2 ^ 24 * siblingStep (hdrPage p))

/-- Whether a unit's domain is fully ON (R422). -/
def State.unitPowered (s : State) (u : Unit) (p : Nat) : Bool := s.domOn (unitDomain u p)

/-- STATUS of a page as it reads: what the unit reports of it, and SAT (R371). -/
def State.statusWord (s : State) (u : Unit) (p : Nat) : Word :=
  let own : Word := match u with
    | .GENLOCK => s.genlockStatus
    | .PSF => s.psfStatus
    | .SPLIT => s.splitStatus
    | .CELLLUT => s.cellStatus
    | .DEFECT => s.defectStatus
    | .OD => s.odStatus
    | .DITH => s.ditherStatus
    | .CAS => s.casStatus
    | _ => s.rd (Reg.HDR_STATUS (hdrPage p))
  (own &&& 0x7FFFFFFF#32) ||| (if s.satFlag u p then 0x80000000#32 else 0)

/-- A header register as it reads; ERR_COUNT is cleared by its reader (R7). -/
def State.headerWord (s : State) (u : Unit) (p off : Nat) : Word :=
  match off with
  | 0x000 => unitId u p
  | 0x004 => unitTree p
  | 0x008 => s.rd (Reg.HDR_CTRL (hdrPage p)) ||| (if u.hasEn then 0 else 1)
  | 0x00C => s.statusWord u p
  | 0x010 => s.rawOf p
  | 0x018 => s.pendOf p
  | 0x01C => 0
  | 0x028 => BitVec.ofNat 32 (s.domCur (unitDomain u p))
  | _ => s.rd (Reg.HDR_UNIT_ID (hdrPage p) + off)

/-- SOFT_RST, EN and the gate of a page are written (R371). -/
def State.ctrlWrite (s : State) (u : Unit) (p : Nat) (w : Word) : State :=
  let a := Reg.HDR_CTRL (hdrPage p)
  let s := s.wr a ((w &&& (if u.hasEn then 0x7#32 else 0x6#32)))
  if bit w.toNat 3 then (s.softRst (hdrPage p)).srcApply else s

/-- LOCK is written (R372). -/
def State.lockWrite (s : State) (p : Nat) (w : Word) : State :=
  if w = 0x4C4F434B#32 then s.wr (Reg.HDR_LOCK (hdrPage p)) 1
  else if w = 0x554E4C4B#32 then s.wr (Reg.HDR_LOCK (hdrPage p)) 0
  else s

/-- A write of a header register. -/
def State.headerWrite (s : State) (u : Unit) (p off : Nat) (w : Word) : State :=
  match off with
  | 0x008 => s.ctrlWrite u p w
  | 0x014 => s.irqEnWrite u p w
  | 0x018 => s.irqPendWrite p w
  | 0x01C => s.irqSetWrite u p w
  | 0x02C => s.lockWrite p w
  | _ => s

/-! Reading. -/

/-- The entry and the word of PARTNER at an address, if it holds one (R307). -/
def partnerAt (a : Nat) : Option Nat :=
  if 0xF0000 ≤ a ∧ a < 0xF4000 ∧ 0x40 ≤ a % 0x1000 then some (0x5000000 + (a - 0xF0000)) else none

/-- The key under which a port's copy of a register is kept (R379): TREE_SEL, and the region requests of R333. -/
def State.keyFor (_ : State) (port a : Nat) : Nat :=
  if a = Reg.HOSTIF_TREE_SEL ∨ a = Reg.REGION_REQ ∨ a = Reg.REGION_REQ_HANDLE ∨ a = Reg.REGION_RESULT then perPort port a else a

/-- What a register reads, for the registers whose reading changes nothing. -/
def State.viewReg (s : State) (port a : Nat) : Word :=
  let n32 := fun n => BitVec.ofNat 32 n
  let table : List (Nat × (PUnit.{1} → Word)) := [
    (Reg.CHIP_IRQ_SUMMARY, fun _ => n32 s.irqSummary), (Reg.CLK_PIX_FREQ, fun _ => n32 (if s.flag Reg.CLK_STATUS_PIX_LOCK then s.pixFreq else 0)),
    (Reg.PWR_OP_STATUS, fun _ => s.opStatus), (Reg.INPUT_LUT_STATUS, fun _ => s.lutStatus),
    (Reg.NV_SAVE_PAGES, fun _ => s.saveReport s.savePages), (Reg.NV_SAVE_US, fun _ => s.saveReport s.saveUs), (Reg.PWR_TIME_ON, fun _ => s.timeIn 1),
    (Reg.PWR_TIME_RET, fun _ => s.timeIn 2), (Reg.PWR_TIME_OFF, fun _ => s.timeIn 3),
    (Reg.TEST_RUNS, fun _ => n32 (s.testCount (s.fld ⟨Reg.TEST_KIND_SEL, 0, 3⟩) 0)),
    (Reg.TEST_FAILS, fun _ => n32 (s.testCount (s.fld ⟨Reg.TEST_KIND_SEL, 0, 3⟩) 1)),
    (Reg.TEST_ABORTS, fun _ => n32 (s.testCount (s.fld ⟨Reg.TEST_KIND_SEL, 0, 3⟩) 2)),
    (Reg.PERTURB_ACTIVE, fun _ => n32 s.perturbActive), (Reg.ISL_BC_BC_STAT, fun _ => s.bcStat),
    (Reg.CODEC_GEOM, fun _ => s.codecGeom), (Reg.CODEC_SLOT_BYTES, fun _ => n32 s.codecPending.size),
    (Reg.PATCH_SET_BYTES, fun _ => n32 s.patchFullPend.bytes), (Reg.PATCH_COARSE_BYTES, fun _ => n32 s.patchCoarsePend.bytes),
    (Reg.PATCH_MONO_OFF, fun _ => n32 s.patchFullPend.mo), (Reg.PATCH_TILE_OFF, fun _ => n32 s.patchFullPend.tileOff),
    (Reg.OD_STATE_BYTES, fun _ => n32 s.odBytesPend), (Reg.GATE_OUT, fun _ => s.gateOut),
    (Reg.MEMC_C0_MAXLAT, fun _ => n32 s.mem.maxLat), (Reg.MEMC_DEMAND, fun _ => n32 s.asPending.memDemand), (Reg.MEMC_LIMIT, fun _ => n32 s.asPending.memLimit),
    (Reg.MEMC_ACTIVE_PCT, fun _ => n32 s.asPending.memActivePct), (Reg.REGION_INFO0, fun _ => s.regionInfo 0),
    (Reg.REGION_INFO1, fun _ => s.regionInfo 1), (Reg.REGION_INFO2, fun _ => s.regionInfo 2) ]
  match table.find? (·.1 == a) with
  | some e => e.2 ()
  | none =>
    if Reg.EDL_PT_WORD 0 ≤ a ∧ a ≤ Reg.EDL_PT_WORD 3 then
      s.rd (Reg.PARTNER_W (s.fld ⟨Reg.EDL_PT_SEL, 0, 10⟩) ((a - Reg.EDL_PT_WORD 0) / 4))
    else if 0xA0 ≤ a / 0x1000 ∧ a / 0x1000 < 0xE0 ∧ a % 0x1000 = 0x4C then
      let v := s.asPending
      n32 (v.portPayload v.partners (a / 0x1000 - 0xA0) % 2 ^ 24)
    else if 0x71 ≤ a / 0x1000 ∧ a / 0x1000 < 0x81 ∧ a % 0x1000 = 0x48 then s.grpSummary (a / 0x1000 - 0x71)
    else if Reg.BULK_WIN 0 ≤ a ∧ a < Reg.BULK_WIN 0 + 0x800 then s.bulkWinRead ((a - Reg.BULK_WIN 0) / 4)
    else s.rd (s.keyFor port a)

/-- What a register reads, and what reading it does: the data windows move on, SEC.STATE draws a free value. -/
def State.readReg (s : State) (port a : Nat) : State × Word :=
  let table : List (Nat × (State → State × Word)) := [
    (Reg.SEC_STATE, State.secState), (Reg.NV_BUF_DATA, State.bufRead), (Reg.NV_AGE_DATA, State.ageRead),
    (Reg.INPUT_LUT_DATA, State.lutRead), (Reg.STATS_RB_DATA, State.statsRead), (Reg.CODEC_RB_DATA0, State.rbData0),
    (Reg.CODEC_RB_DATA1, State.rbData1), (Reg.ZONE_AG_DATA, State.agRead), (Reg.ZONE_CLASS_DATA, State.classRead),
    (Reg.ZONE_LV_DATA, State.lvRead), (Reg.PSF_DATA, State.psfRead), (Reg.SPLIT_CLIP_DATA, State.clipRead),
    (Reg.CELLLUT_DATA, State.cellRead), (Reg.DEFECT_DATA, State.defectRead), (Reg.DEFECT_AUTO_DATA, State.autoRead),
    (Reg.OD_DATA, State.odRead), (Reg.THERM_REG_DATA, State.regDataRead), (Reg.THERM_CONV_DATA, State.convRead),
    (Reg.DITH_DATA, State.ditherRead), (Reg.ECC_ET_DATA, State.etRead), (Reg.BANKS_WIN_DATA, State.winRead) ]
  match table.find? (·.1 == a) with
  | some e => e.2 s
  | none => (s, s.viewReg port a)

/-- The register that holds the high half of the 64-bit register whose low half is at an address (R10). -/
def highHalf (a : Nat) : Option Nat :=
  if a = Reg.AON_TIMEBASE ∨ a = Reg.AON_ALARM ∨ a = Reg.PATCH_PROBE_WORD then some (a + 4)
  else match laneOfAddr a with
    | some l => if a = Reg.PHY_ES_UI (phyBase l) then some (a + 4) else none
    | none => none

/-- The latch of a port (R10): a low half latches its high half; the next read of that high half takes it. -/
def State.latched (s : State) (port a : Nat) (w : Word) : State × Word :=
  let set := fun (s : State) v => { s with host := { s.host with latch := Cells.set (fun _ => none) s.host.latch port v } }
  match highHalf a with
  | some h => (set s (some (h, s.rd h)), w)
  | none =>
    match Cells.get (fun _ => none) s.host.latch port with
    | some (h, v) => if h = a then (set s none, v) else (s, w)
    | none => (s, w)

/-- Whether an offset of a page is one that R57 makes inert. -/
def phyInert (a : Nat) : Bool :=
  match laneOfAddr a with
  | some l => !phyApplies l (a - phyBase l)
  | none => false

/-- A read of a register of this device by a port (R6 to R10, R371 to R373, R407, R409, R422). `whole` is whether the
port takes the whole word: an RC register is cleared only then (R377, R378). -/
def State.localRead (s : State) (port a : Nat) (whole : Bool) : State × Word :=
  let p := a / 0x1000
  let off := a % 0x1000
  match unitOfPage p with
  | none => (s, 0)
  | some u =>
    if off = 0 ∨ off = 4 ∨ off = 0x28 then (s, s.headerWord u p off)
    else if 0x40 ≤ off ∧ s.gateClosed p then (s, 0)
    else if !s.unitPowered u p then (s.accessMiss port a false, 0)
    else if off < 0x30 then
      let w := s.headerWord u p off
      (if off = 0x24 && whole then s.wr (Reg.HDR_ERR_COUNT (hdrPage p)) 0 else s, w)
    else if 0x40 ≤ off ∧ s.regClockBad u then (s.used, s.free)
    else
      match partnerAt a with
      | some k => (s, s.rd k)
      | none =>
        if phyInert a then (s, 0)
        else if (rowAt u off).isNone then (s.err (hdrPage p) 3, 0)
        else
          let (s, w) := s.readReg port a
          s.latched port a w

/-! Writing. -/

/-- A write of a plain register: RW bits are stored, W1C bits cleared (R7). -/
def State.store (s : State) (r : RegRow) (a : Nat) (w : Word) : State :=
  let old := s.rd a
  let rw := BitVec.ofNat 32 r.rw
  s.wr a ((((old &&& ~~~rw) ||| (w &&& rw)) &&& ~~~(w &&& BitVec.ofNat 32 r.w1c)))

/-- A write of a register of a lane's PHY block (R57); the taps take one only while they do not adapt (R42; a code beyond
the range of the taps is kept as written, log entry 67). -/
def State.phyWrite (s : State) (l : Nat) (r : RegRow) (a : Nat) (w : Word) : State :=
  match a - phyBase l with
  | 0x00 => (s.store r a w).laneAim l
  | 0x08 => (s.store r a w).ctleFollow l
  | 0x10 | 0x14 => if s.flag (Reg.PHY_RXEQ_ADAPT_EN (phyBase l)) then s else s.store r a w
  | 0x30 =>
    -- a START while a scan runs is ignored (R50)
    if bit w.toNat 0 then (if s.flag (Reg.PHY_ES_STATUS_BUSY (phyBase l)) then s else (s.store r a w).esStart l)
    else s.store r a w
  | 0x48 => s.prbsWrite l w
  | 0x54 => s.phyCntClr l w.toNat
  | _ => s.store r a w

/-- PCAP is written (R171). -/
def State.pcapWrite (s : State) (port : Nat) (r : RegRow) (w : Word) : State :=
  let above := match pcapAct (BitVec.ofNat 16 (s.rd Reg.ZONE_PCAP_SAFE).toNat) with
    | none => false
    | some lim => match pcapAct (BitVec.ofNat 16 w.toNat) with
      | none => true
      | some v => (val16 lim).lt (val16 v)
  if above && !s.presenceOpen then s.secRefused port Reg.ZONE_PCAP false else s.store r Reg.ZONE_PCAP w

/-- SREF.CMD is written (R106, R112, R499). -/
def State.srefCmd (s : State) (w : Word) : State :=
  let s := if bit w.toNat 0 then s.srefEvent 4 else s
  let s := if bit w.toNat 1 then s.srefExitCmd else s
  if bit w.toNat 2 then s.srefRelease else s

/-- GUARANTEE_VOID is written: it stays set while a class-0 injection is enabled (R21). -/
def State.voidWrite (s : State) (w : Word) : State :=
  if bit w.toNat 0 && !s.c0Injected then s.wr Reg.CHIP_GUARANTEE_VOID 0 else s

/-- PANELPWR.CMD and ISL.CMD are written. -/
def State.panelCmd (s : State) (w : Word) : State :=
  let s := if bit w.toNat 0 then s.cmdOn else s
  if bit w.toNat 1 then s.cmdOff else s
def State.islCmd (s : State) (w : Word) : State :=
  let s := if bit w.toNat 0 then s.retrain else s
  if bit w.toNat 1 then s.hpdPulse else s

/-- Word 1 of a partner entry is written; its bits [30:28] are reserved (R307, R6). -/
def State.partnerWrite (s : State) (k : Nat) (w : Word) : State := s.wr k (w &&& 0x8FFFFFFF#32)

/-- The registers whose write acts: their address, and what a port's write of a word does. -/
def writeActs : List (Nat × (State → Nat → Word → State)) := [
  (Reg.CHIP_APPLY, fun s _ w => s.applyGo w),
  (Reg.CHIP_REVERT, fun s _ w => if bit w.toNat 0 then s.revert else s),
  (Reg.CHIP_GUARANTEE_VOID, fun s _ w => s.voidWrite w),
  (Reg.AON_ALARM, fun s _ w => s.alarmWrite Reg.AON_ALARM w),
  (Reg.AON_ALARM_HI, fun s _ w => s.alarmWrite Reg.AON_ALARM_HI w),
  (Reg.CLK_CFG, fun s _ w => s.clkCfgWrite w),
  (Reg.PWR_OP_CFG, fun s _ w => s.opCfgWrite w),
  (Reg.PWR_VSER, fun s _ w => s.vserWrite w),
  (Reg.PWR_PAD_RELEASE, fun s _ w => s.padRelease w),
  (Reg.SEC_CMD, fun s _ w => if bit w.toNat 0 then s.presenceShut 3 else s),
  (Reg.SEC_OTP_LOCK, fun s _ w => if bit w.toNat 0 then s.wr Reg.SEC_OTP_LOCK 1 else s),
  (Reg.NV_REC_CMD, fun s _ w => s.recCmd (w.toNat % 4)),
  (Reg.NV_RAW_CMD, fun s p w => s.rawCmd p (w.toNat % 8)),
  (Reg.NV_SAVE_CMD, fun s _ w => s.saveCmd w),
  (Reg.NV_BUF_DATA, fun s _ w => s.bufWrite w),
  (Reg.TEST_BOOT_OK, fun s p w => if p = 3 && bit w.toNat 0 then s.bootOk else s),
  (Reg.PERTURB_STOP, fun s _ w => if bit w.toNat 0 then s.perturbStop else s),
  (Reg.CTL_CMD, fun s _ w => if bit w.toNat 0 then s.coreRestart 2 else s),
  (Reg.CTL_MBOX_CMD, fun s p w => s.mboxWrite p w),
  (Reg.ISL_CFG, fun s _ w => s.islCfg (w &&& 0x3771#32)),
  (Reg.ISL_CMD, fun s _ w => s.islCmd w),
  (Reg.ISL_META_POP, fun s _ w => s.metaPop w),
  (Reg.SREF_CMD, fun s _ w => s.srefCmd w),
  (Reg.INPUT_LUT_CTRL, fun s _ w => s.lutCtrl w),
  (Reg.INPUT_LUT_DATA, fun s _ w => s.lutWrite w),
  (Reg.CODEC_RB_SEL, fun s _ w => s.rbSelect w),
  (Reg.ZONE_AG_DATA, fun s _ w => s.agWrite w),
  (Reg.ZONE_AG_COMMIT, fun s _ w => s.agCommit w),
  (Reg.ZONE_CLASS_DATA, fun s _ w => s.classWrite w),
  (Reg.PSF_DATA, fun s _ w => s.psfWrite w),
  (Reg.PSF_CALC, fun s _ w => s.psfCalc w),
  (Reg.CELLLUT_DATA, fun s _ w => s.cellWrite w),
  (Reg.PATCH_CHECK, fun s _ w => s.checkWrite w),
  (Reg.DEFECT_DATA, fun s _ w => s.defectWrite w),
  (Reg.DEFECT_AUTO_CTL, fun s _ w => s.autoCtl w),
  (Reg.OD_DATA, fun s _ w => s.odWrite w),
  (Reg.OD_CMD, fun s _ w => s.odCmd w),
  (Reg.THERM_CFG, fun s _ w => s.thermCfg w),
  (Reg.THERM_COMMIT, fun s _ w => s.thermCommit w),
  (Reg.THERM_REG_DATA, fun s _ w => s.regDataWrite w),
  (Reg.THERM_CONV_DATA, fun s _ w => s.convWrite w),
  (Reg.DITH_DATA, fun s _ w => s.ditherWrite w),
  (Reg.EDL_CMD, fun s _ w => if bit w.toNat 0 then s.enumWalk else s),
  (Reg.EDL_SAFE_LEVEL, fun s _ w => (s.wr Reg.EDL_SAFE_LEVEL (w &&& 0xFFFF#32)).defaultsSend),
  (Reg.EDL_LINK_HOLD, fun s _ w => (s.wr Reg.EDL_LINK_HOLD (w &&& 0xFFFF#32)).defaultsSend),
  (Reg.EDL_HCMD_GO, fun s _ w => s.hcmdGo w),
  (Reg.EDL_REFCFG, fun s _ w => s.refcfgWrite w),
  (Reg.EDL_PT_WORD 1, fun s _ w => s.partnerWrite (Reg.PARTNER_W (s.fld ⟨Reg.EDL_PT_SEL, 0, 10⟩) 1) w),
  (Reg.PANELPWR_CFG, fun s _ w => s.panelCfg w),
  (Reg.PANELPWR_CMD, fun s _ w => s.panelCmd w),
  (Reg.REGION_REQ_GO, fun s p w => if bit w.toNat 0 then s.regionGo p false else if bit w.toNat 1 then s.regionGo p true else s),
  (Reg.ECC_RETIRE_CMD, fun s _ w => s.retireWrite w),
  (Reg.BULK_CTRL, fun s _ w => s.bulkCtrl w),
  (Reg.BANKS_WIN_DATA, fun s _ w => s.winWrite w),
  (Reg.CAS_CFG, fun s _ w => s.casCfg (w &&& 0x7F1#32)) ]

/-- A port writes a register that has passed every check. -/
def State.writeReg (s : State) (port : Nat) (u : Unit) (p a : Nat) (r : RegRow) (w : Word) : State :=
  match writeActs.find? (·.1 == a) with
  | some e => e.2 s port w
  | none =>
    match laneOfAddr a with
    | some l => s.phyWrite l r a w
    | none =>
      if u = .EDL_PORT ∧ a % 0x1000 = 0x44 then (if bit w.toNat 0 then s.portRetrain (p - 0xA0) else s)
      else if u = .MEMC ∧ 0x110100 ≤ a ∧ a % 16 = 12 then s.fltCmd port ((a - 0x110100) / 16) w
      else if r.act ≠ 0 then s.cntClr u p w
      else if u = .PERTURB then s.perturbStore a (w &&& BitVec.ofNat 32 r.rw)
      else if u = .PWR ∧ 0x3100 ≤ a ∧ a % 16 = 0 then s.domRequest ((a - 0x3100) / 16) (w.toNat % 4)
      else if u = .BANKS ∧ 0x118100 ≤ a ∧ a < 0x1181C0 then s.ownWrite ((a - 0x118100) / 4) w
      else if u = .BULK ∧ Reg.BULK_WIN 0 ≤ a then s.bulkWinWrite ((a - Reg.BULK_WIN 0) / 4) w
      else if u = .CTL ∧ Reg.CTL_ARG 0 ≤ a ∧ a ≤ Reg.CTL_ARG 7 then s.argWrite port a w
      else if a = Reg.ZONE_PCAP then s.pcapWrite port r w
      else if u = .RETBUS ∧ a % 0x1000 = 0x40 then (s.store r a w).busCfg (p - 0xE0)
      else s.store r (s.keyFor port a) w

/-- Whether a register may be written by a port: a register with no writable bit is RO (R7, R373); POWER_ON_MIN and
BOOT_TRIES are written by the control core alone (R431). -/
def writable (port a : Nat) (r : RegRow) : Bool :=
  r.rw != 0 || r.w1c != 0 || r.act != 0 || (port == 3 && (a == Reg.AON_POWER_ON_MIN || a == Reg.AON_BOOT_TRIES))

/-- A write of a register of this device by a port: the lock, the gate, the power, the register clock, the reserved and
the RO offsets, the privilege, and then the write (R6 to R9, R371 to R373, R407, R409, R422). -/
def State.writeOne (s : State) (port a : Nat) (w : Word) : State :=
  let p := a / 0x1000
  let off := a % 0x1000
  match unitOfPage p with
  | none => s
  | some u =>
    if s.rd (Reg.HDR_LOCK (hdrPage p)) != 0 && !(off == 0x14 || off == 0x18 || off == 0x2C) then s.err (hdrPage p) 1
    else if 0x40 ≤ off ∧ s.gateClosed p then s
    else if !(off = 0 ∨ off = 4 ∨ off = 0x28) ∧ !s.unitPowered u p then s.accessMiss port a true
    else if off < 0x30 then
      if off = 0x008 ∨ off = 0x014 ∨ off = 0x018 ∨ off = 0x01C ∨ off = 0x02C then s.headerWrite u p off w
      else if off = 0x024 then s else s.err (hdrPage p) 2
    else if 0x40 ≤ off ∧ s.regClockBad u ∧ s.free.toNat % 2 = 1 then s.used
    else
      match partnerAt a with
      | some k => if k % 16 = 4 then s.partnerWrite k w else s.err (hdrPage p) 2
      | none =>
        if phyInert a then s
        else match rowAt u off with
          | none => s.err (hdrPage p) 3
          | some r =>
            if !writable port a r then s.err (hdrPage p) 2
            else if r.p && !s.presenceOpen then s.secRefused port a false
            else if !(r.rw != 0 || r.w1c != 0 || r.act != 0) then s.wr a w
            else s.writeReg port u p a r w

/-- A write on this device; a group page writes its four ports in order (R308, R381). -/
def State.localWrite (s : State) (port a : Nat) (w : Word) : State :=
  let p := a / 0x1000
  let off := a % 0x1000
  if 0x71 ≤ p ∧ p < 0x81 ∧ (off = 0x40 ∨ off = 0x44) then
    if s.rd (Reg.HDR_LOCK p) != 0 then s.err p 1
    else if s.gateClosed p then s
    else if !s.unitPowered .EDL_GRP p then s.accessMiss port a true
    else s.each (List.range 4) (fun i s => s.writeOne port ((0xA0 + 4 * (p - 0x71) + i) * 0x1000 + off) w)
  else s.writeOne port a w

/-! The member window and its tunnel (R380, R477; log entry 32). -/

/-- The rows and columns of a level of the grid. -/
def State.levelSize (s : State) (l : Nat) : Nat × Nat :=
  (s.fldA ⟨Reg.CAS_GEOM, 16 + 4 * l, 2⟩ + 1, s.fldA ⟨Reg.CAS_GEOM, 18 + 4 * l, 2⟩ + 1)

/-- The members that a port's window selects. -/
def State.windowTargets (s : State) (port : Nat) : Option (List (Nat × Nat)) :=
  if s.casRoot then
    treeTargets s.levelSize (s.fldA Reg.CAS_GEOM_DEPTH) (s.rd (perPort port Reg.HOSTIF_TREE_SEL))
  else none

/-- A window access that reaches no member (R380). -/
def State.treeMiss (s : State) : State :=
  let s := (s.bump Reg.HOSTIF_TREE_MISS).raise 4 0
  { s with host := { s.host with treeMiss := true } }

/-- A TUNNEL block leaves on a cascade lane. -/
def State.tunnelSend (s : State) (k tag op addr hops status : Nat) (data : Word) : State :=
  s.casControl k rowTUNNEL (leBytes 1 tag ++ leBytes 1 op ++ leBytes 3 addr ++ leBytes 1 (hops % 16 + 16 * (status % 16))
    ++ leBytes 4 data.toNat)

/-- One access goes to a member: its TUNNEL block leaves east first, and the access waits for its reply. The TAG. -/
def State.tunnelTo (s : State) (port addr : Nat) (wr : Option Word) (at' : Nat × Nat) : State × Nat :=
  let tag := s.cas.tag
  let hops := at'.1 + at'.2 - 1
  let s : State := { s with cas := { s.cas with
    tag := (tag + 1) % 256
    tunnels := s.cas.tunnels ++ [⟨tag, port, addr, wr, s.now⟩] } }
  (s.tunnelSend (if at'.1 = 0 then 1 else 0) tag (if wr.isSome then 2 else 1) addr hops 0 (wr.getD 0), tag)

/-- A read through the window: the value, or the TAG of the tunnel that fetches it. -/
def State.windowRead (s : State) (port a : Nat) : State × Word × Option Nat :=
  let sel := s.rd (perPort port Reg.HOSTIF_TREE_SEL)
  if treeDepth sel = 0 then (s, 0, none)
  else match s.windowTargets port with
    | none => (s.treeMiss, 0, none)
    | some l =>
      if treeBroadcast sel then (s.treeMiss, 0, none)
      else
        let (s, tag) := s.tunnelTo port (a - 0x800000) none (l.headD (0, 0))
        (s, 0, some tag)

/-- A write through the window, to every member it selects. -/
def State.windowWrite (s : State) (port a : Nat) (w : Word) : State :=
  if treeDepth (s.rd (perPort port Reg.HOSTIF_TREE_SEL)) = 0 then s
  else match s.windowTargets port with
    | none => s.treeMiss
    | some l => s.each l (fun t s => (s.tunnelTo port (a - 0x800000) (some w) t).1)

/-! Accesses of a port. -/

/-- Whether the ports are served: not while RESET_N is low; the back-channel only while it is up (R81, R452). -/
def State.portServed (s : State) (port : Nat) : Bool := port == 3 || !s.boot.resetLow

/-- An address as the ports take it: 24 bits, the lowest two ignored (R369). -/
def portAddr (a : Nat) : Nat := a % 2 ^ 24 / 4 * 4

/-- A port writes one word. -/
def State.hostWrite (s : State) (port a : Nat) (w : Word) : State :=
  let a := portAddr a
  if !s.portServed port then s
  else if 0x800000 ≤ a then s.windowWrite port a w
  else s.localWrite port a w

/-- A port reads one word: its value, or the TAG of the tunnel that fetches it. -/
def State.hostRead (s : State) (port a : Nat) (whole : Bool) : State × Word × Option Nat :=
  let a := portAddr a
  if !s.portServed port then (s, 0, none)
  else if 0x800000 ≤ a then s.windowRead port a
  else
    let (s, w) := s.localRead port a whole
    (s, w, none)

/-- A word reaches a port that reads. -/
def State.deliver (s : State) (port : Nat) (w : Word) : State := s.emit .hostData port [w.toNat]

/-- A port reads one word, which leaves for it now or with the tunnel's reply. -/
def State.portRead (s : State) (port a : Nat) (whole : Bool) : State :=
  let (s, w, tag) := s.hostRead port a whole
  if tag.isSome || !s.portServed port then s else s.deliver port w

/-- A port's access to a register: a word written, or the register read. -/
def State.portAccess (s : State) (port a : Nat) (wr : Option Word) : State :=
  match wr with
  | some w => s.hostWrite port a w
  | none => s.portRead port a true

/-- What no command changes: time never goes back, and the queue of waiting commands is not a command's to change. -/
def State.after (s t : State) : State := { t with now := max s.now t.now, pending := s.pending }

/-- Whether the M960 is held in reset is changed by the reset commands alone. -/
def State.sameHold (s t : State) : State := { t with boot := { t.boot with resetLow := s.boot.resetLow } }

/-- A command that acts while the M960 is not held in reset (R429, R452, R486). -/
def State.unheld (s : State) (f : State → State) : Result :=
  .next (if s.boot.resetLow then s else s.after (s.sameHold (f s)))

/-- A command that acts whether or not the M960 is held in reset: the levels of balls, and the TAP. -/
def State.always (s : State) (f : State → State) : Result := .next (s.after (s.sameHold (f s)))

/-- A command that holds the M960 in reset, or releases it. -/
def State.resets (s : State) (f : State → State) : Result := .next (s.after (f s))

/-! In-band access over the back-channel (R77 to R81). -/

/-- REG_RD_RSP leaves. -/
def State.regRdRsp (s : State) (tag status : Nat) (ws : List Word) : State :=
  s.bcSend 0x02 tag (leBytes 4 status ++ ws.flatMap (fun w => leBytes 4 w.toNat))

/-- The read in progress is answered once every word is there. -/
def State.reqCheck (s : State) : State :=
  match s.isl.req with
  | none => s
  | some (tag, ws) =>
    if ws.all (fun x => x.1.isSome) then
      ({ s with isl := { s.isl with req := none } } : State).regRdRsp tag 0 (ws.map (fun x => x.1.getD 0))
    else s

/-- What a request is answered without being served: 1 BUSY, 2 DENIED; 0 when it is served. A request that is BUSY is not
looked at further, and one that is DENIED is not measured (log entry 71). -/
def State.reqRefused (s : State) : State × Nat :=
  if s.isl.req.isSome then (s.bump Reg.ISL_BC_BUSY_CNT, 1)
  else if !s.flag Reg.ISL_CFG_INBAND_EN then (s.bump Reg.ISL_BC_DENIED_CNT, 2)
  else (s, 0)

/-- A REG_RD frame with its payload (R78, R79). -/
def State.bcRegRd (s : State) (tag : Nat) (payload : List Byte) : State :=
    let (s, why) := s.reqRefused
    let addr := leVal (payload.take 3)
    let n := (payload.getD 3 0).toNat
    if why ≠ 0 then s.regRdRsp tag why []
    else if payload.length ≠ 4 ∨ n = 0 ∨ 63 < n then s.regRdRsp tag 3 []
    else
      let (s, ws) := (List.range n).foldl (fun (acc : State × List (Option Word × Nat)) k =>
        let (s, w, t) := acc.1.hostRead 2 (addr + 4 * k) true
        (s, acc.2 ++ [match t with | none => (some w, 0) | some t => (none, t)])) (s, [])
      ({ s with isl := { s.isl with req := some (tag, ws) } } : State).reqCheck

/-- A REG_WR frame with its payload. -/
def State.bcRegWr (s : State) (tag : Nat) (payload : List Byte) : State :=
    let (s, why) := s.reqRefused
    let addr := leVal (payload.take 3)
    let ws := wordsLsb (payload.drop 4)
    if why ≠ 0 then s.bcSend 0x04 tag (leBytes 1 why)
    else if payload.length < 8 ∨ payload.length % 4 ≠ 0 ∨ 256 < payload.length then s.bcSend 0x04 tag (leBytes 1 3)
    else
      (s.each ws.zipIdx (fun x s => s.hostWrite 2 (addr + 4 * x.2) x.1)).bcSend 0x04 tag (leBytes 1 0)

/-! Tunnel blocks that arrive (R477; log entry 32). -/

/-- A word comes back from a member for the port that waits for it. -/
def State.tunnelReply (s : State) (t : TunnelReq) (w : Word) : State :=
  let w := if t.addr % 0x1000 = 4 ∧ w.toNat % 256 ≠ 0 then BitVec.ofNat 32 (w.toNat + 2 ^ 12 * 0x800) else w
  if t.wr.isSome then s
  else if t.port = 2 then
    match s.isl.req with
    | none => s
    | some (tag, ws) =>
      ({ s with isl := { s.isl with
        req := some (tag, ws.map (fun x => if x.1.isNone && x.2 == t.tag then (some w, x.2) else x)) } } : State).reqCheck
  else s.deliver t.port w

/-- The access of a TAG waits no longer. -/
def State.tunnelDrop (s : State) (tag : Nat) : State :=
  { s with cas := { s.cas with tunnels := s.cas.tunnels.filter (fun t => t.tag ≠ tag) } }

/-- A TUNNEL block arrives on a lane: one with hops left is passed on, away from the root for an access and towards it
for a reply; an access is executed, as port 0, and answered; a reply reaches the port that waits. -/
def State.tunnelIn (s : State) (k tag op addr hops : Nat) (data : Word) : State :=
  if !s.casUp k then s
  else if hops ≠ 0 then
    let lane := if op = 1 ∨ op = 2 then (if k = 2 ∧ s.casUp 0 then 0 else 1) else (if s.casUp 2 then 2 else 3)
    s.tunnelSend lane tag op addr (hops - 1) 0 data
  else
    let back := s.fld Reg.CAS_POS_X + s.fld Reg.CAS_POS_Y - 1
    match op with
    | 1 =>
      let (s, w) := s.localRead 0 (portAddr addr) true
      s.tunnelSend k tag 3 addr back 0 w
    | 2 => (s.localWrite 0 (portAddr addr) data).tunnelSend k tag 4 addr back 0 0
    | 3 | 4 =>
      match s.cas.tunnels.find? (fun t => t.tag == tag) with
      | none => s
      | some t => (s.tunnelDrop tag).tunnelReply t data
    | _ => s

/-- 2 ms have passed since the oldest access that waits left: it answers 0 (R477). -/
def State.tunnelExpires (s : State) : State :=
  match s.cas.tunnels with
  | [] => s
  | t :: _ =>
    let s := ((s.advance (t.since + 2000 * ticksPerUs)).tunnelDrop t.tag).bump Reg.CAS_TUNNEL_TIMEOUT
    s.treeMiss.tunnelReply { t with addr := 0 } 0

/-- 100 µs of stretching have passed on I2C: the word that waits is sent as 0 (R378). -/
def State.i2cExpires (s : State) : State :=
  match s.cas.tunnels.find? (fun t => t.port == 1 && t.wr.isNone) with
  | none => s
  | some t =>
    let s := ((s.advance (t.since + 100 * ticksPerUs)).tunnelDrop t.tag).bump Reg.HOSTIF_I2C_TIMEOUT
    s.deliver 1 0

end Sys2Proof.Machine
end

