-- ==== Sys2Proof/Machine/Pawn.lean ====
section
/-! DEFINITION. The ROM's boot attempt and Pawn mode (R453, R458, R459). -/

namespace Sys2Proof.Machine

/-- The Pawn profile: register addresses and values, of the factory record of TYPE 0x09 and ID 0,
read from the flash itself (R439), if there is one. -/
def State.pawnProfile (s : State) : Option (List (Nat × Word)) :=
  (presentOf s.factoryRecs 9 0).map (fun r =>
    (((chunks 8 (s.recData factoryBase r)).filter (·.length == 8)).take 504).map (fun l =>
      (leVal (l.take 4), BitVec.ofNat 32 (leVal (l.drop 4)))))

/-- The settings that the ROM forces (R459). -/
def State.pawnForce (s : State) : State :=
  let s := s.put Reg.ZONE_GRID_COLS 0
  let s := s.each [0x53, 0x60, 0x61, 0x62] (fun p s => s.put (Reg.HDR_CTRL_EN p) 0)
  let s := (s.put (Reg.HDR_CTRL_EN 0x64) 1).put Reg.DITH_CFG_MSRC 0
  s.each (List.range 64) (fun p s =>
    let x := Reg.PHY_RATE_MAX (phyBase (laneEdl p))
    s.put x (min 3 (s.fld x)))

/-- Pawn mode, or its picture while HOSTLOAD is awaited, begins (R459, R460): `p` is the phase, 4 or 5. Without a valid
profile the panel stays off. -/
def State.pawnEnter (s : State) (p : Nat) : State :=
  let s : State := { s.dramHold.bootPhase p with boot := { (s.dramHold.bootPhase p).boot with pawnDue := false, lines := [] } }
  match s.pawnProfile with
  | none => if s.panelState = panOFF then s else s.cmdOff
  | some l => ((s.each l (fun e s => s.hostWrite 3 e.1 e.2)).pawnForce).applyGo 1

/-- Whether step 2 of the start-up is over (R453): XTAL stable and PLL_SYS locked, once since the reset. -/
def State.bootClocked (s : State) : Bool :=
  s.boot.clocked || (s.flag Reg.CLK_STATUS_XTAL_OK && s.flag Reg.CLK_STATUS_SYS_LOCK)

/-- Steps 3 and 4 of the start-up (R453, R458), once step 2 is over: the attempt is counted and the image read, or Pawn
mode or host-load begins. `jedec` is what the flash answers to its JEDEC ID command. -/
def State.bootAttempt (s : State) (jedec : Nat) : State :=
  let s : State := { s with boot := { s.boot with clocked := s.bootClocked } }
  if s.boot.phase ≠ 0 ∨ s.boot.resetLow ∨ !s.boot.clocked then s
  else if s.flag Reg.HOSTIF_STRAPS_BOOT_SRC then s.pawnEnter 5
  else
    let tries := max (s.rd Reg.AON_BOOT_TRIES).toNat s.nvTries
    if 3 ≤ tries then s.pawnEnter 4 else (s.setTries (tries + 1)).bootImage jedec

end Sys2Proof.Machine
end

