-- ==== Sys2Proof/Machine/Frame.lean ====
section
/-! DEFINITION. The output frame boundary (R94): everything that ends with a frame and that takes effect with the next. -/

namespace Sys2Proof.Machine

/-- What the boundaries of ZONE compare: a change of it is a geometry change (R166). Boundaries beyond the grid are
ignored (R163), and without zones all but COLS (R164). -/
def State.zoneShape (s : State) : List Nat :=
  if s.zoneCols = 0 then [0]
  else s.fldA (wholeFld Reg.ZONE_GRID) :: s.fldA (wholeFld Reg.ZONE_LOOKAHEAD_ZROWS)
    :: (List.range (s.zoneCols + 1)).map (fun i => s.fldA (wholeFld (Reg.ZONE_COLB i)))
    ++ (List.range (s.zoneRows + 1)).map (fun i => s.fldA (wholeFld (Reg.ZONE_ROWB i)))

/-- What an initialisation frame follows a change of (R245). -/
def State.odShape (s : State) : List Nat :=
  [s.odHandle, s.hact, s.vact, b2n s.dual, b2n s.monoHalf]

/-- The lit time of the output frame that ends, in ns (R184). -/
def State.litNs (s : State) : Nat := s.lit64 * s.tim.period / (64 * ticksPerNs)

/-- The drive of a zone in the output frame that ends, as the ageing counters take it (R184, R446). -/
def State.zoneDrive (s : State) (z : Nat) : Sample := (levelAt s.levels z).delta

/-- The end of an output frame (R172, R184, R446, R463): rows never reached are solved, the figures become the history,
the counters accrue, and the shadow lane's result is taken. -/
def State.frameEnds (s : State) : State :=
  let s := s.each (List.range (if s.domOn 7 then s.zoneRows - s.zon.solved else 0)) (fun _ s => s.solveSeam)
  let s := s.ageFrame s.zoneDrive s.litNs
  (s.zoneEnd (s.rd Reg.TIMING_FRAME_NO).toNat).shadowTurn

/-- The accepted set took effect (R382): APPLIED_FRAME, APPLY_CNT and APPLIED. -/
def State.setApplied (s : State) : State :=
  ((s.wr Reg.CHIP_APPLIED_FRAME (s.rd Reg.TIMING_FRAME_NO)).bump Reg.CHIP_APPLY_CNT).raise 0 0

/-- What is sent as a frame starts: the levels of parked partners (R299), FSYNC and FSYNC_OUT (R473). -/
def State.frameSends (s : State) : State :=
  s.parkedSend.fsyncSend.fsyncOut

/-- Units whose domain is OFF take no part in a boundary (R412). -/
def State.unlessOff (s : State) (n : Nat) (f : State → State) : State := if s.domCur n = domStOFF then s else f s

/-- The units at the boundary that starts a frame, once TIMING has planned it: `ended` is the frame that ended, `geom`
whether a geometry change took effect, `live` the live patch set before, `od` whether OD's states are no longer valid. -/
def State.frameStarts (s : State) (ended : Option (Nat × Nat)) (geom : Bool) (live : Nat × Nat × Bool) (od : Bool) : State :=
  let newSrc := decide (s.zon.holdFrom ≤ s.tim.srcPip)
  let s : State := { s.casBoundary with path := PathState.atReset }
  let s := s.unlessOff 7 (fun s => s.zoneBoundary geom newSrc)
  let s := s.unlessOff 8 State.splitBoundary
  let s := s.unlessOff 9 (fun s =>
    let s := (s.patchBoundary live).defectBoundary ended.isSome
    let s := s.odBoundary od s.tim.period
    (s.thermBoundary ended (s.rd Reg.TIMING_FRAME_NO).toNat).ditherBoundary)
  (s.edlBoundary.unlessOff 45 State.gateBoundary).frameSends

/-- FRAME_BOUNDARY (R94): the frame that runs ends at its planned boundary; what is due takes effect (R9, R371, R382,
R459, R461), and TIMING starts the next frame. -/
def State.frameBoundary (s : State) : State :=
  let running := s.tim.running
  let s := if running then (s.advance s.tim.next).mopEnd else s
  let shape := s.timShape
  let zones := s.zoneShape
  let od := s.odShape
  let odOn := s.unitOn 0x62
  let live := (s.patchLive, s.liveHandle, s.liveCoarse)
  let ended := if running then some ((s.rd Reg.TIMING_FRAME_NO).toNat, s.tim.period) else none
  let s := if running then s.retCheck.frameEnds else s
  let s := if s.boot.pawnDue then s.pawnEnter 4 else s
  let s := s.activateBoundary
  let (s, applied) := s.applySet
  let s := s.takeCtrl.softBoundary.lutSwitches
  let s := s.timBoundary shape
  let s := if applied then s.setApplied else s
  s.frameStarts ended (zones != s.zoneShape) live (od != s.odShape || (!odOn && s.unitOn 0x62))

end Sys2Proof.Machine
end

