-- ==== Sys2Proof/Machine/BootCmd.lean ====
section
/-! DEFINITION. The commands of the start-up (R453 to R458). -/

namespace Sys2Proof.Machine

/-- BOOT_ATTEMPT (R453). The flash's JEDEC ID. -/
def execBootAttempt (jedec : Nat) (s : State) : Result := s.unheld (fun s => s.bootAttempt jedec)

/-- DRAM_TRAIN_DONE (R453). A bit for each operating point trained. -/
def execDramTrainDone (mask : Nat) (s : State) : Result := s.unheld (fun s => s.dramTrained mask)

/-- BOOT_OK (R453). The firmware's word. -/
def execBootOk (w : Word) (s : State) : Result := s.unheld (fun s => s.hostWrite 3 Reg.TEST_BOOT_OK w)

/-- BOOT_TIMEOUT (R453). -/
def execBootTimeout (s : State) : Result := s.unheld State.bootTimeout

end Sys2Proof.Machine
end

