-- ==== Sys2Proof/Machine/CascadeCmd.lean ====
section
/-! DEFINITION. The commands of the device group (R469 to R478). -/

namespace Sys2Proof.Machine

/-- A control block comes on a cascade lane (R471), with the data rows that follow a SEAM. One that fails its CRC-16, or
whose CTYPE is none of the cascade's, has no effect; nothing comes over a lane that a test has taken (R55). -/
def State.casBlock (s : State) (k : Nat) (block data : List Byte) : State :=
  if !s.laneCarries (laneCasRx k) || !blockGood block then s
  else
    let b := (blockBody block).2
    let ctype := byteAt block 0
    if ctype = rowFSYNC then s.fsync k (leField b 0 4) (leField b 4 3) (leField b 7 3) (leField b 10 2)
    else if ctype = rowSEAM then s.seam k (byteAt b 0) (leField b 1 2) (leField b 3 2) (leField b 5 2) data
    else if ctype = rowTUNNEL then
      s.tunnelIn k (byteAt b 0) (byteAt b 1) (leField b 2 3) (byteAt b 5 % 16) (BitVec.ofNat 32 (leField b 6 4))
    else if ctype = rowPOS then s.posBlock k (leField b 0 2) (leField b 2 2)
    else s

/-- FSYNC (R473). The lane, and the block that came on it. -/
def execCasFsync (lane : Nat) (block : List Byte) (s : State) : Result := s.unheld (fun s => s.casBlock lane block [])

/-- SEAM (R475). The block, and the bytes of the data rows after it. -/
def execCasSeam (lane : Nat) (block : List Byte) (bytes : List Byte) (s : State) : Result :=
  s.unheld (fun s => s.casBlock lane block bytes)

/-- POS (R472). -/
def execCasPos (lane : Nat) (block : List Byte) (s : State) : Result := s.unheld (fun s => s.casBlock lane block [])

/-- TUNNEL (R477). -/
def execTunnel (lane : Nat) (block : List Byte) (s : State) : Result := s.unheld (fun s => s.casBlock lane block [])

/-- CAS_TRAIN_RETRY (R471). -/
def execCasTrainRetry (lane : Nat) (s : State) : Result := s.unheld (fun s => s.casRetry lane)

/-- FSYNC_OUT_PULSE_END (R473). -/
def execFsyncOutPulseEnd (s : State) : Result := s.unheld State.fsyncOutEnd

end Sys2Proof.Machine
end

