-- ==== Sys2Proof/Machine/ClockCmd.lean ====
section
/-! DEFINITION. The commands of the clock sources, PLLs and multiplexers (R394 to R411). -/

namespace Sys2Proof.Machine

/-- A PLL has not locked 1 ms after its enable (R397): it is reset and started again. -/
def State.pllFails (s : State) (p : Nat) : State :=
  if s.flag (pllLockFld p) then s else s.bump Reg.CLK_LOCK_FAIL

/-- XTAL is not stable 20 ms after AON is up (R398). -/
def State.xtalFails (s : State) : State :=
  if s.flag Reg.CLK_STATUS_XTAL_OK then s else s.put Reg.CLK_STATUS_XTAL_FAIL 1

/-- PLL_PIX sees no edge of its reference for 200 ns (R400). -/
def State.pixHold (s : State) : State := s.put Reg.CLK_MUX_PIX_REF 2

/-- An automatic gate closes (R406): the next access opens it again and is served, so nothing that can be read changes
(log entry 35). -/
def State.gateIdle (s : State) (_page : Nat) : State := s

/-- XTAL_STABLE (R396). -/
def execXtalStable (s : State) : Result := s.unheld State.xtalStable

/-- REFCLK_WINDOW (R396). The REFCLK cycles counted. -/
def execRefclkWindow (cycles : Nat) (s : State) : Result := s.unheld (fun s => s.refWindow cycles)

/-- PLL_LOCK (R397). 0 SYS, 1 PIX, 2 MEM, 3 EDL, 4 SSREF, 5 TX. -/
def execPllLock (pll : Nat) (s : State) : Result := s.unheld (fun s => s.pllLocked pll)

/-- LOCK_FAIL (R397). -/
def execLockFail (pll : Nat) (s : State) : Result := s.unheld (fun s => s.pllFails pll)

/-- XTAL_FAIL (R398). -/
def execXtalFail (s : State) : Result := s.unheld State.xtalFails

/-- PIX_REF_HOLD (R400). -/
def execPixRefHold (s : State) : Result := s.unheld State.pixHold

/-- LOCK_LOSS (R402). -/
def execLockLoss (pll : Nat) (s : State) : Result := s.unheld (fun s => s.pllLost pll)

/-- XTAL_LOSS (R403). -/
def execXtalLoss (s : State) : Result := s.unheld State.xtalLoss

/-- CLK_CFG_WRITE (R405). -/
def execClkCfgWrite (port : Nat) (w : Word) (s : State) : Result := s.unheld (fun s => s.hostWrite port Reg.CLK_CFG w)

/-- CLK_SWITCH_DONE (R405). 0 HCLK, 1 control core, 2 SSREF, 3 TXPLL. -/
def execClkSwitchDone (mux : Nat) (s : State) : Result := s.unheld (fun s => s.muxDone mux)

/-- SW_FORCED (R405). -/
def execSwForced (mux : Nat) (s : State) : Result := s.unheld (fun s => s.muxForce mux)

/-- SW_FAIL (R405). -/
def execSwFail (mux : Nat) (s : State) : Result := s.unheld (fun s => s.muxFailed mux)

/-- SW_FORCED_WRITE (R411). -/
def execSwForcedWrite (port : Nat) (w : Word) (s : State) : Result :=
  s.unheld (fun s => s.hostWrite port Reg.CLK_SW_FORCED w)

/-- AON_TRIM_WINDOW (R410). The XTAL cycles counted. -/
def execAonTrimWindow (cycles : Nat) (s : State) : Result := s.unheld (fun s => s.trimWindow cycles)

/-- CLOCK_GATE_CLOSE (R406). -/
def execClockGateClose (page : Nat) (s : State) : Result := s.unheld (fun s => s.gateIdle page)

end Sys2Proof.Machine
end

