-- ==== Sys2Proof/Machine/CoreCmd.lean ====
section
/-! DEFINITION. The commands of the control core, its mailbox and the presence window (R386 to R392, R445, R460 to
R462). -/

namespace Sys2Proof.Machine

/-- SVC_BTN_N has been low for 50 samples (R388): the presence window opens or starts anew, and wake source 0 fires
(R427). -/
def State.buttonHeld (s : State) : State := s.presenceOpens.wakeSource 0

/-- WDOG (R386). -/
def execCtlWdog (s : State) : Result := s.unheld State.wdogExpires

/-- CTL_RESTART (R386). -/
def execCtlRestart (port : Nat) (w : Word) (s : State) : Result :=
  s.unheld (fun s => s.hostWrite port Reg.CTL_CMD (Reg.CTL_CMD_RESTART.put w 1))

/-- RESTARTED (R386). -/
def execCtlRestarted (s : State) : Result := s.unheld State.restarted

/-- NOP (R387). -/
def execMboxNop (s : State) : Result := s.unheld (fun s => s.mboxServe 0 (fun s => s.mboxEnd 0))

/-- VERSION (R387). -/
def execMboxVersion (s : State) : Result := s.unheld (fun s => s.mboxServe 1 State.mboxVersion)

/-- ECHO (R387). -/
def execMboxEcho (s : State) : Result := s.unheld (fun s => s.mboxServe 2 (fun s => s.mboxEnd 0))

/-- HOSTLOAD (R460). -/
def execMboxHostload (s : State) : Result := s.unheld (fun s => s.mboxServe 0x10 State.mboxHostload)

/-- REBOOT (R460). -/
def execMboxReboot (s : State) : Result := s.unheld (fun s => s.mboxServe 0x11 State.mboxReboot)

/-- ACTIVATE (R461). -/
def execMboxActivate (s : State) : Result := s.unheld (fun s => s.mboxServe 0x12 State.mboxActivate)

/-- COMMIT (R462). -/
def execMboxCommit (s : State) : Result := s.unheld (fun s => s.mboxServe 0x13 State.mboxCommit)

/-- PAWN (R460). -/
def execMboxPawn (s : State) : Result := s.unheld (fun s => s.mboxServe 0x14 State.mboxPawn)

/-- SLOT_INFO (R460). -/
def execMboxSlotInfo (s : State) : Result := s.unheld (fun s => s.mboxServe 0x15 State.mboxSlotInfo)

/-- COARSE_STORE (R445). -/
def execMboxCoarseStore (s : State) : Result :=
  s.unheld (fun s => s.mboxServe 0x40 (fun s => s.coarseStore (s.mboxArg 0) (s.mboxArg 1)))

/-- AGE_LOAD (R445). -/
def execMboxAgeLoad (s : State) : Result :=
  s.unheld (fun s => s.mboxServe 0x41 (fun s => s.ageLoad (s.mboxArg 0) (s.mboxArg 1)))

/-- RING_FORMAT (R445). -/
def execMboxRingFormat (s : State) : Result := s.unheld (fun s => s.mboxServe 0x42 State.ringFormat)

/-- MBOX_UNKNOWN (R387). -/
def execMboxUnknown (s : State) : Result := s.unheld State.mboxUnknown

/-- OPEN (R388). -/
def execPresenceOpen (s : State) : Result := s.unheld State.buttonHeld

/-- PRESENCE_EXPIRE (R388). -/
def execPresenceExpire (s : State) : Result := s.unheld State.presenceEnds

/-- CLOSE (R388). -/
def execPresenceClose (port : Nat) (w : Word) (s : State) : Result :=
  s.unheld (fun s => s.hostWrite port Reg.SEC_CMD (Reg.SEC_CMD_CLOSE.put w 1))

/-- OTP_LOCK_WRITE (R392). -/
def execOtpLockWrite (port : Nat) (w : Word) (s : State) : Result :=
  s.unheld (fun s => s.hostWrite port Reg.SEC_OTP_LOCK w)

end Sys2Proof.Machine
end

