-- ==== Sys2Proof/Machine/EdlCmd.lean ====
section
/-! DEFINITION. The commands of the Eubel Driver Link (R269 to R310). -/

namespace Sys2Proof.Machine

/-- A good response by its TYPE (R291); an ERRCNT response of a partner with a PRBS check is a turn that judges its PRBS
figures (R463). -/
def State.busAnswer (s : State) (port pid type : Nat) (l : List Byte) : State :=
  match type with
  | 1 => s.statusAnswer pid (leField l 0 2) (leField l 2 2) (leField l 4 2)
  | 2 => s.faultsAnswer pid ((chunks 2 l).map leVal)
  | 3 => if (s.partner pid).prbs then s.prbsTurn pid (leField l 12 4) (leField l 8 4) else s
  | 4 => s.readbackAnswer pid ((chunks 6 l).map (fun e => (leField e 0 1 % 128, leField e 2 2, leField e 4 2)))
  | 5 => s.capsAnswer port pid (leField l 0 2) (leField l 2 2)
  | _ => s

/-- A response comes in an open slot of a return bus (R290 to R293): its bytes after the commas, and the 8b/10b violations in
the slot. One that fails its CRC, names another partner or has a TYPE that does not match REQ is a miss; nothing comes over
a lane that is not up. -/
def State.busResponse (s : State) (g : Nat) (bytes : List Byte) (code : Nat) : State :=
  match s.busSlot g with
  | none => s
  | some x =>
    if !s.laneCarries (laneRet g) then s
    else match busFrame bytes with
      | none => s.pollMiss g code true
      | some (pid, type, l) =>
        if pid ≠ x.pid ∨ type ≠ x.req + 1 then s.pollMiss g code true
        else ((s.codeErrs g code).answered g pid x.req type).busAnswer x.port pid type l

/-- HCMD_GO (R288). -/
def execHcmdGo (port : Nat) (w : Word) (s : State) : Result := s.unheld (fun s => s.hostWrite port Reg.EDL_HCMD_GO w)

/-- HCMD_DONE (R288). -/
def execHcmdDone (s : State) : Result := s.unheld State.hcmdDone

/-- SAFE_LEVEL_WRITE (R288). -/
def execSafeLevelWrite (port : Nat) (w : Word) (s : State) : Result :=
  s.unheld (fun s => s.hostWrite port Reg.EDL_SAFE_LEVEL w)

/-- LINK_HOLD_WRITE (R288). -/
def execLinkHoldWrite (port : Nat) (w : Word) (s : State) : Result :=
  s.unheld (fun s => s.hostWrite port Reg.EDL_LINK_HOLD w)

/-- POLL (R292). -/
def execEdlPoll (bus : Nat) (s : State) : Result := s.unheld (fun s => s.pollOpen bus)

/-- STATUS_RESPONSE (R291). The bytes of the response after its commas, and the 8b/10b violations in its slot. -/
def execStatusResponse (bus : Nat) (bytes : List Byte) (code : Nat) (s : State) : Result :=
  s.unheld (fun s => s.busResponse bus bytes code)

/-- FAULTS_RESPONSE (R294). -/
def execFaultsResponse (bus : Nat) (bytes : List Byte) (code : Nat) (s : State) : Result :=
  s.unheld (fun s => s.busResponse bus bytes code)

/-- ERRCNT_RESPONSE (R291). -/
def execErrcntResponse (bus : Nat) (bytes : List Byte) (code : Nat) (s : State) : Result :=
  s.unheld (fun s => s.busResponse bus bytes code)

/-- READBACK_RESPONSE (R288). -/
def execReadbackResponse (bus : Nat) (bytes : List Byte) (code : Nat) (s : State) : Result :=
  s.unheld (fun s => s.busResponse bus bytes code)

/-- CAPS_RESPONSE (R298). -/
def execCapsResponse (bus : Nat) (bytes : List Byte) (code : Nat) (s : State) : Result :=
  s.unheld (fun s => s.busResponse bus bytes code)

/-- NONE_RESPONSE (R291). -/
def execNoneResponse (bus : Nat) (bytes : List Byte) (code : Nat) (s : State) : Result :=
  s.unheld (fun s => s.busResponse bus bytes code)

/-- POLL_MISS (R293). The 8b/10b violations seen, and whether a response came. -/
def execPollMiss (bus : Nat) (codeErrs : Nat) (answered : Bool) (s : State) : Result :=
  s.unheld (fun s => s.pollMiss bus codeErrs answered)

/-- EDL_TRAIN_DONE (R296). -/
def execEdlTrainDone (edlPort : Nat) (s : State) : Result := s.unheld (fun s => s.trainDone edlPort)

/-- EDL_TRAIN_TIMEOUT (R300). -/
def execEdlTrainTimeout (edlPort : Nat) (s : State) : Result := s.unheld (fun s => s.trainTimeout edlPort)

/-- EDL_TRAIN_RETRY (R300). -/
def execEdlTrainRetry (edlPort : Nat) (s : State) : Result := s.unheld (fun s => s.trainRetry edlPort)

/-- PORT_RETRAIN (R300). -/
def execPortRetrain (port : Nat) (edlPort : Nat) (w : Word) (s : State) : Result :=
  s.unheld (fun s => s.hostWrite port (Reg.EDL_PORT_CMD edlPort) ((Reg.EDL_PORT_CMD_RETRAIN edlPort).put w 1))

/-- ENUM (R297). -/
def execEdlEnum (port : Nat) (w : Word) (s : State) : Result :=
  s.unheld (fun s => s.hostWrite port Reg.EDL_CMD (Reg.EDL_CMD_ENUM.put w 1))

/-- PRBS_BURST (R303). The data blocks that leave before a higher-priority block falls due. -/
def execPrbsBurst (edlPort : Nat) (blocks : Nat) (s : State) : Result :=
  s.unheld (fun s => s.prbsBurst edlPort blocks)

/-- GROUP_BROADCAST (R381). Whether CMD_ALL or CFG_ALL is written. -/
def execGroupBroadcast (port : Nat) (group : Nat) (cmd : Bool) (w : Word) (s : State) : Result :=
  s.unheld (fun s => s.hostWrite port (if cmd then Reg.EDL_GRP_CMD_ALL group else Reg.EDL_GRP_CFG_ALL group) w)

end Sys2Proof.Machine
end

