-- ==== Sys2Proof/Machine/HostCmd.lean ====
section
/-! DEFINITION. The commands of quad-SPI, I2C and the tunnel (R376 to R381, R477). -/

namespace Sys2Proof.Machine

/-- A serial port reads bytes from an address on: whole words leave whole, an RC register among them being cleared when
all the bytes of its word count in `acked`; of a word cut short its first bytes leave (R377, R378). -/
def State.readBytes (s : State) (port addr n acked : Nat) : State :=
  s.each (List.range (ceilDiv n 4)) (fun i s =>
    let a := addr + 4 * i
    if 4 * (i + 1) ≤ n then s.portRead port a (decide (4 * (i + 1) ≤ acked))
    else
      let (s, w, tag) := s.hostRead port a false
      if tag.isSome then s else s.emit .spiByte port ((msbBytes w).take (n - 4 * i)))

/-- A serial port writes the complete words of some bytes (R377, R378). -/
def State.writeBytes (s : State) (port addr : Nat) (bytes : List Byte) : State :=
  s.each (wordsMsb bytes).zipIdx (fun x s => s.hostWrite port (addr + 4 * x.2) x.1)

/-- WRITE and QWRITE (R376, R377): an incomplete word is discarded and counted. -/
def State.spiWrite (s : State) (addr : Nat) (bytes : List Byte) : State :=
  let s := s.writeBytes 0 addr bytes
  if bytes.length % 4 = 0 then s
  else
    let s := (s.bump Reg.HOSTIF_SPI_PARTIAL).raise 4 1
    { s with host := { s.host with discard := true } }

/-- READ and QREAD (R377): the start byte, then the words. -/
def State.spiRead (s : State) (addr n : Nat) : State :=
  if n = 0 then s else (s.emit .spiByte 0 [0xA5]).readBytes 0 addr n n

/-- STATUS (R377): of the host's posted writes only those that a tunnel carries to another device are not done at once
(R477); DISCARD and TREE_MISS are cleared. -/
def State.spiStatus (s : State) : State :=
  let busy := s.cas.tunnels.any (fun r => r.port == 0 && r.wr.isSome)
  let s := s.emit .spiByte 0 [b2n busy + 2 * b2n s.host.discard + 4 * b2n s.host.treeMiss]
  { s with host := { s.host with discard := false, treeMiss := false } }

/-- Any other command byte is ignored (R376). -/
def State.spiOther (s : State) (_code : Nat) : State := s

/-- An I2C write (R378). -/
def State.i2cWrite (s : State) (addr : Nat) (bytes : List Byte) : State :=
  let s := s.writeBytes 1 addr bytes
  if bytes.length % 4 = 0 then s else (s.bump Reg.HOSTIF_I2C_PARTIAL).raise 4 1

/-- An I2C read (R378): the host answers its last byte with NACK. -/
def State.i2cRead (s : State) (addr n : Nat) : State := s.readBytes 1 addr n (n - 1)

/-- WRITE (R376). The address, and the bytes clocked in after it. -/
def execSpiWrite (addr : Nat) (bytes : List Byte) (s : State) : Result := s.unheld (fun s => s.spiWrite addr bytes)

/-- QWRITE (R376). -/
def execSpiQwrite (addr : Nat) (bytes : List Byte) (s : State) : Result := s.unheld (fun s => s.spiWrite addr bytes)

/-- READ (R377). The address, and how many bytes of data the host clocks out. -/
def execSpiRead (addr : Nat) (n : Nat) (s : State) : Result := s.unheld (fun s => s.spiRead addr n)

/-- QREAD (R377). -/
def execSpiQread (addr : Nat) (n : Nat) (s : State) : Result := s.unheld (fun s => s.spiRead addr n)

/-- SPI_STATUS (R377). -/
def execSpiStatus (s : State) : Result := s.unheld State.spiStatus

/-- SPI_UNKNOWN_COMMAND (R376). -/
def execSpiUnknownCommand (code : Nat) (s : State) : Result := s.unheld (fun s => s.spiOther code)

/-- I2C_WRITE (R378). -/
def execI2cWrite (addr : Nat) (bytes : List Byte) (s : State) : Result := s.unheld (fun s => s.i2cWrite addr bytes)

/-- I2C_READ (R378). How many bytes the host takes; the last is answered with NACK. -/
def execI2cRead (addr : Nat) (n : Nat) (s : State) : Result := s.unheld (fun s => s.i2cRead addr n)

/-- I2C_TIMEOUT (R378). -/
def execI2cTimeout (s : State) : Result := s.unheld State.i2cExpires

/-- TUNNEL_TIMEOUT (R477). -/
def execTunnelTimeout (s : State) : Result := s.unheld State.tunnelExpires

end Sys2Proof.Machine
end

