-- ==== Sys2Proof/Machine/LanesCmd.lean ====
section
/-! DEFINITION. The commands of the serial lanes (R30 to R56, R498) and of CNT_CLR (R89). -/

namespace Sys2Proof.Machine

/-- What a lane that has reached L0 sends at once: the patterns of its port (R296), the training blocks of its cascade lane
(R471), the idle pair and the CAPS of a link in DETECT (R77, R83), the pattern of its generator (R54). -/
def State.laneWoke (s : State) (l : Nat) : State :=
  let s := s.prbsFill l
  let s := if 16 ≤ l ∧ l < 80 then s.portLaneUp (l - 16) else s
  let s := if 98 ≤ l ∧ l < 102 then s.casLaneUp (l - 98) else s
  if l = laneBcTx then
    let s := s.bcIdle
    if s.link = lkDETECT ∧ s.isl.hold = false then s.capsSend else s
  else if l = laneBcRx then s.detectRuns
  else s

/-- A lane's transition ends (R498). A receiver that leaves L0 is lost to its link (R45, R87), and held clock sources are
requested once no lane they serve is in L0 (R405). -/
def State.laneTransition (s : State) (l : Nat) : State :=
  if (s.lane l).trans.isNone then s
  else
    let was := s.laneInL0 l
    let bc := s.bcUp
    let s := s.laneDone l
    let s := if s.laneInL0 l then (if was then s else s.laneWoke l)
      else if was && laneIsRx l then s.laneDown l bc else s
    s.srcApply

/-- The offset of a unit's CNT_CLR in its page (each chapter's register table). -/
def cntClrOffset : Unit → Option Nat
  | .ISL_LANE => some 0x48
  | .CELLLUT => some 0x50
  | .PSF | .DITH | .BANKS => some 0x54
  | .GENLOCK | .BULK => some 0x58
  | .HOSTIF | .SEC | .RETBUS => some 0x5C
  | .ISL_BC | .FIELD => some 0x60
  | .TEST | .EDL_PORT => some 0x64
  | .SCHED => some 0x68
  | .MEMC | .ECC => some 0x6C
  | .CHIP | .PWR | .REGION | .CAS => some 0x74
  | .CLK | .SREF => some 0x78
  | .CTL => some 0x8C
  | .PANELPWR => some 0x90
  | .ISL => some 0x94
  | .SPLIT | .EDL => some 0x98
  | .TIMING | .PATCH | .THERM => some 0x9C
  | .INPUT | .OD => some 0xA0
  | .STATS | .ZONE => some 0xA4
  | .DEFECT => some 0xAC
  | .CODEC => some 0xB4
  | .NV => some 0xBC
  | _ => none
/-- Whether an address is that of a CNT_CLR register, of this device or through the member window. -/
def isCntClr (a : Nat) : Bool :=
  let a := a % 0x800000
  match laneOfAddr a with
  | some l => a == Reg.PHY_CNT_CLR (phyBase l)
  | none => match unitOfPage (a / 0x1000) with
    | some u => cntClrOffset u == some (a % 0x1000)
    | none => false

/-- A CNT_CLR register is written (R89); an address that holds none is no such command. -/
def State.cntClrWrite (s : State) (port a : Nat) (w : Word) : State := if isCntClr a then s.hostWrite port a w else s

/-- BC_RX locks (R81). -/
def State.bcRxLocks (s : State) (inverted : Bool) : State :=
  if s.bcActive && !s.bcUp then s.laneLocked laneBcRx inverted else s

/-- RX_BLOCK (R30). A block with its sync header and payload. -/
def execRxBlock (lane : Nat) (hdr : Nat) (payload : Nat) (s : State) : Result :=
  s.unheld (fun s => s.rxBlock lane hdr payload)

/-- REFCFG_WRITE (R40). -/
def execRefcfgWrite (port : Nat) (w : Word) (s : State) : Result :=
  s.unheld (fun s => s.hostWrite port Reg.EDL_REFCFG w)

/-- REFCFG_PENDING_APPLY (R40). -/
def execRefcfgPendingApply (s : State) : Result := s.unheld State.refcfgApply

/-- DFE_UPDATE (R42). The sign of the error, and the past decisions as bits. -/
def execDfeUpdate (lane : Nat) (err : Bool) (dec : Nat) (s : State) : Result :=
  s.unheld (fun s => s.dfeUpdate lane err dec)

/-- ADAPT_WINDOW_END (R43). The bit transitions of the window. -/
def execAdaptWindowEnd (lane : Nat) (changes : Nat) (s : State) : Result :=
  s.unheld (fun s => s.adaptWindow lane changes)

/-- RX_LOCK_LOST (R45). -/
def execRxLockLost (lane : Nat) (s : State) : Result := s.unheld (fun s => s.rxLockLost lane)

/-- EI_DETECT (R46). -/
def execEiDetect (lane : Nat) (s : State) : Result := s.unheld (fun s => s.eiDetect lane)

/-- EI_CLEAR (R46). -/
def execEiClear (lane : Nat) (s : State) : Result := s.unheld (fun s => s.eiClear lane)

/-- ES_START (R49). The word written, with START set. -/
def execEsStart (port : Nat) (lane : Nat) (w : Word) (s : State) : Result :=
  s.unheld (fun s => s.hostWrite port (Reg.PHY_ES_CTRL (phyBase lane)) ((Reg.PHY_ES_CTRL_START (phyBase lane)).put w 1))

/-- ES_DWELL_END (R49). The mismatches counted. -/
def execEsDwellEnd (lane : Nat) (errs : Nat) (s : State) : Result := s.unheld (fun s => s.esEnd lane errs)

/-- LSTATE_REQ_WRITE (R53). -/
def execLstateReqWrite (port : Nat) (lane : Nat) (w : Word) (s : State) : Result :=
  s.unheld (fun s => s.hostWrite port (Reg.PHY_LSTATE (phyBase lane)) w)

/-- LANE_TRANSITION_DONE (R498). -/
def execLaneTransitionDone (lane : Nat) (s : State) : Result := s.unheld (fun s => s.laneTransition lane)

/-- PRBS_WRITE (R55). -/
def execPrbsWrite (port : Nat) (lane : Nat) (w : Word) (s : State) : Result :=
  s.unheld (fun s => s.hostWrite port (Reg.PHY_PRBS (phyBase lane)) w)

/-- PRBS_CHECKER_SYNC (R54). The bits found wrong since the checker locked. -/
def execPrbsCheckerSync (lane : Nat) (errs : Nat) (s : State) : Result := s.unheld (fun s => s.prbsSync lane errs)

/-- CNT_CLR (R89). The page and offset of the CNT_CLR register, and the word written. -/
def execCntClr (port : Nat) (page : Nat) (off : Nat) (w : Word) (s : State) : Result :=
  s.unheld (fun s => s.cntClrWrite port (4096 * page + off) w)

/-- BC_RX_LOCK (R81). Whether the lane is wired inverted. -/
def execBcRxLock (inverted : Bool) (s : State) : Result := s.unheld (fun s => s.bcRxLocks inverted)

end Sys2Proof.Machine
end

