-- ==== Sys2Proof/Machine/LinkCmd.lean ====
section
/-! DEFINITION. The commands of the source link and its back-channel (R60 to R92, R497 to R501). -/

namespace Sys2Proof.Machine

/-- Rows and blocks of training come on the source link (0) or on a cascade lane (1 + k); a cascade lane is trained with
the same phases (R83, R471). -/
def State.alnRow (s : State) (link : Nat) (blocks : List (List Byte)) (skews : List Nat) : State :=
  if link = 0 then s.aln blocks skews else s.casAln (link - 1) (copyOn blocks 0) (skews.headD 0)
def State.ts1Block (s : State) (link : Nat) (blocks : List (List Byte)) (inverted : Nat) : State :=
  if link = 0 then s.ts1 blocks inverted else s.casTs1 (link - 1) (copyOn blocks 0) (bit inverted 0)
def State.eqMeasure (s : State) (link : Nat) (eyes : List (Nat × Nat)) : State :=
  if link = 0 then s.eqMeasured eyes
  else
    let e := eyes.headD (0, 0)
    s.casEq (link - 1) (eyeHeight e.1 e.2)
def State.phaseExpires (s : State) (link : Nat) : State := if link = 0 then s.phaseTimeout else s.casTimeout (link - 1)

/-- A TRAIN frame from the source: its OP and data (R82). OK closes no phase: the M960 closes each of them (R83). -/
def State.trainFrame (s : State) (op : Nat) (data : List Byte) : State :=
  match op with
  | 1 => s.trainCaps (byteAt data 0) (byteAt data 1) (byteAt data 2)
  | 5 => s.presetAck (leField data 0 2) (byteAt data 2)
  | 6 => s.trainReady
  | 7 => s.trainFail
  | _ => s

/-- Bits recovered by BC_RX leave on BC_TX under far-end loopback (R56). -/
def State.bcEcho (s : State) (bytes : List Byte) : State :=
  if s.looped laneBcRx 2 && s.laneInL0 laneBcRx && s.laneInL0 laneBcTx then s.bcGroups bytes else s

/-- A frame comes over the back-channel, its bytes after the comma (R77 to R79). One with LEN above 256 or a bad CRC-16 is
discarded; a back-channel that is down receives none (R81). A good one of a TYPE that the source does not send is counted
and has no effect. -/
def State.bcReceive (s : State) (bytes : List Byte) : State :=
  if !s.bcUp then s.bcEcho bytes
  else
    match bcFrame bytes with
    | none => s.bump Reg.ISL_BC_RX_CRC_ERR
    | some (type, tag, l) =>
      let s := s.bump Reg.ISL_BC_RX_FRAMES
      match type with
      | 1 => s.bcRegRd tag l
      | 3 => s.bcRegWr tag l
      | 6 => s.trainFrame (byteAt l 1) (l.drop 2)
      | 8 => s.wakeReq
      | _ => s

/-- An EVENT frame leaves, no earlier than 100 µs after the one before it (R80). -/
def State.eventSend (s : State) : State :=
  if !s.bcUp || s.isl.rises == 0 then s
  else
    let s := match s.isl.eventAt with
      | some t => s.advance (t + 100 * ticksPerUs)
      | none => s
    let s : State := { s with isl := { s.isl with rises := 0, eventAt := some s.now } }
    (s.bump Reg.ISL_BC_EVENTS_SENT).bcSend 0x05 0
      (leBytes 4 s.irqSummary ++ leBytes 4 (s.rd Reg.TIMING_FRAME_NO).toNat
        ++ leBytes 4 (s.rd Reg.AON_TIMEBASE).toNat ++ leBytes 4 (s.rd Reg.AON_TIMEBASE_HI).toNat)

/-- PIP (R67). The instant at which the row ends, and the block that came on each active lane. -/
def execPip (t : Nat) (copies : List (List Byte)) (s : State) : Result :=
  s.unheld (fun s => (s.advance t).controlRow copies [] false)

/-- SLEEP (R87). The block on each active lane. -/
def execSleepRow (copies : List (List Byte)) (s : State) : Result := s.unheld (fun s => s.controlRow copies [] false)

/-- WAKE (R87). -/
def execWakeRow (copies : List (List Byte)) (s : State) : Result := s.unheld (fun s => s.controlRow copies [] false)

/-- REGION (R68). -/
def execRegionRow (copies : List (List Byte)) (s : State) : Result := s.unheld (fun s => s.controlRow copies [] false)

/-- META (R70). -/
def execMetaRow (copies : List (List Byte)) (s : State) : Result := s.unheld (fun s => s.controlRow copies [] false)

/-- ALN (R83). The link (0 ISL, 1 + k CAS lane k), and per lane its block and its skew in UI. -/
def execAlnRow (link : Nat) (blocks : List (List Byte)) (skews : List Nat) (s : State) : Result :=
  s.unheld (fun s => s.alnRow link blocks skews)

/-- TS1 (R83). The link, per lane the block that came on it (empty where none did), and the lanes found inverted. -/
def execTs1Block (link : Nat) (blocks : List (List Byte)) (inverted : Nat) (s : State) : Result :=
  s.unheld (fun s => s.ts1Block link blocks inverted)

/-- IDLE (R66). -/
def execIdleRow (copies : List (List Byte)) (s : State) : Result := s.unheld (fun s => s.controlRow copies [] false)

/-- CONTROL_ROW_IGNORED (R62). -/
def execControlRowIgnored (copies : List (List Byte)) (s : State) : Result := s.unheld (fun s => s.controlRow copies [] false)

/-- MISALIGNED_ROW (R63). -/
def execMisalignedRow (s : State) : Result := s.unheld State.misaligned

/-- LINE_PACKET (R73). The instant at which it ends, the payload bytes of its blocks lane after lane, and whether a block of
it had an invalid sync header. -/
def execLinePacket (t : Nat) (lanes : List (List Byte)) (bad : Bool) (s : State) : Result :=
  s.unheld (fun s => s.linePacket t lanes bad)

/-- TABLE_PACKET (R501). Its TABLE row, its data rows lane after lane, and whether a block of those was invalid. -/
def execTablePacket (copies : List (List Byte)) (lanes : List (List Byte)) (bad : Bool) (s : State) : Result :=
  s.unheld (fun s => s.controlRow copies lanes bad)

/-- TABLE_COMMIT_DONE (R76). -/
def execTableCommitDone (s : State) : Result := s.unheld State.tableCommit

/-- REG_RD (R79). The bytes of the frame after its comma. -/
def execRegRd (bytes : List Byte) (s : State) : Result := s.unheld (fun s => s.bcReceive bytes)

/-- REG_WR (R79). -/
def execRegWr (bytes : List Byte) (s : State) : Result := s.unheld (fun s => s.bcReceive bytes)

/-- WAKE_REQ (R87). -/
def execWakeReq (bytes : List Byte) (s : State) : Result := s.unheld (fun s => s.bcReceive bytes)

/-- BC_FRAME_DISCARD (R77). -/
def execBcFrameDiscard (bytes : List Byte) (s : State) : Result := s.unheld (fun s => s.bcReceive bytes)

/-- TRAIN_CAPS (R82). -/
def execTrainCaps (bytes : List Byte) (s : State) : Result := s.unheld (fun s => s.bcReceive bytes)

/-- TRAIN_OK (R82). -/
def execTrainOk (bytes : List Byte) (s : State) : Result := s.unheld (fun s => s.bcReceive bytes)

/-- PRESET_ACK (R82). -/
def execPresetAck (bytes : List Byte) (s : State) : Result := s.unheld (fun s => s.bcReceive bytes)

/-- TRAIN_READY (R83). -/
def execTrainReady (bytes : List Byte) (s : State) : Result := s.unheld (fun s => s.bcReceive bytes)

/-- TRAIN_FAIL (R84). -/
def execTrainFail (bytes : List Byte) (s : State) : Result := s.unheld (fun s => s.bcReceive bytes)

/-- TRAIN_PHASE_TIMEOUT (R84). The link (0 ISL, 1 + k CAS lane k). -/
def execTrainPhaseTimeout (link : Nat) (s : State) : Result := s.unheld (fun s => s.phaseExpires link)

/-- EQ_PRESET_MEASURE (R500). Per lane the passing points of the eye above and below the threshold, as bits. -/
def execEqPresetMeasure (link : Nat) (eyes : List (Nat × Nat)) (s : State) : Result :=
  s.unheld (fun s => s.eqMeasure link eyes)

/-- LINK_TRAIN_START (R87). -/
def execLinkTrainStart (s : State) : Result := s.unheld State.trainStart

/-- FAST_RETRAIN_DONE (R85). -/
def execFastRetrainDone (s : State) : Result := s.unheld State.fastDone

/-- FAST_FAIL (R85). -/
def execFastFail (s : State) : Result := s.unheld State.fastFail

/-- EVENT (R80). -/
def execBcEvent (s : State) : Result := s.unheld State.eventSend

/-- RETRAIN (R87). The word written, with RETRAIN set. -/
def execIslRetrain (port : Nat) (w : Word) (s : State) : Result :=
  s.unheld (fun s => s.hostWrite port Reg.ISL_CMD (Reg.ISL_CMD_RETRAIN.put w 1))

/-- HPD_PULSE (R86). -/
def execHpdPulse (port : Nat) (w : Word) (s : State) : Result :=
  s.unheld (fun s => s.hostWrite port Reg.ISL_CMD (Reg.ISL_CMD_HPD_PULSE.put w 1))

/-- HPD_PULSE_END (R86). -/
def execHpdPulseEnd (s : State) : Result := s.unheld State.hpdPulseEnd

/-- META_POP (R89). -/
def execMetaPop (port : Nat) (w : Word) (s : State) : Result :=
  s.unheld (fun s => s.hostWrite port Reg.ISL_META_POP w)

end Sys2Proof.Machine
end

