-- ==== Sys2Proof/Machine/MemoryCmd.lean ====
section
/-! DEFINITION. The commands of the memory controller, regions, ECC, BULK and the SRAM banks (R328 to R368). -/

namespace Sys2Proof.Machine

/-- ALLOC (R333). -/
def execRegionAlloc (port : Nat) (w : Word) (s : State) : Result :=
  s.unheld (fun s => s.hostWrite port Reg.REGION_REQ_GO (Reg.REGION_REQ_GO_ALLOC.put w 1))

/-- FREE (R334). -/
def execRegionFree (port : Nat) (w : Word) (s : State) : Result :=
  s.unheld (fun s => s.hostWrite port Reg.REGION_REQ_GO (Reg.REGION_REQ_GO_FREE.put (Reg.REGION_REQ_GO_ALLOC.put w 0) 1))

/-- REGION_REQ_DONE (R333). -/
def execRegionReqDone (s : State) : Result := s.unheld State.regionServe

/-- DRAM_BEAT (R338). The engine, the place and the bytes written if any, what the array holds at a word of it (1 a
single-bit error, 2 an uncorrectable one), the latency in ns, and the other engines that wait on the channel. -/
def execDramBeat (engine : Nat) (handle : Nat) (ofs : Nat) (wr : Option (List Byte)) (ecc : Nat) (word : Nat) (lat : Nat) (waiting : List Nat) (s : State) : Result :=
  s.unheld (fun s => s.dramBeat engine handle ofs wr ecc word lat waiting)

/-- C0_WINDOW (R339). -/
def execC0Window (s : State) : Result := s.unheld State.c0Window

/-- DRAM_REFRESH (R338). -/
def execDramRefresh (ch : Nat) (busy : Bool) (s : State) : Result := s.unheld (fun s => s.refresh ch busy)

/-- MOP_SWITCH (R330). -/
def execMopSwitch (s : State) : Result := s.unheld State.mopSwitch

/-- SCRUB (R345). The addresses found with a single-bit and with an uncorrectable error. -/
def execScrubPage (corr : List Nat) (unc : List Nat) (s : State) : Result := s.unheld (fun s => s.scrub corr unc)

/-- RETIRED (R347). -/
def execRetireDone (s : State) : Result := s.unheld State.copyDone

/-- MIGRATION_TIMEOUT (R343). -/
def execMigrationTimeout (engine : Nat) (handle : Nat) (ofs : Nat) (wr : Option (List Byte)) (s : State) : Result :=
  s.unheld (fun s => s.migExpire engine handle ofs wr)

/-- RESUME (R342). -/
def execFltResume (port : Nat) (engine : Nat) (s : State) : Result :=
  s.unheld (fun s => s.hostWrite port (Reg.MEMC_FLT_CMD engine) ((Reg.MEMC_FLT_CMD_RESUME engine).put 0 1))

/-- SKIP (R342). -/
def execFltSkip (port : Nat) (engine : Nat) (s : State) : Result :=
  s.unheld (fun s => s.hostWrite port (Reg.MEMC_FLT_CMD engine) ((Reg.MEMC_FLT_CMD_SKIP engine).put 0 1))

/-- ABORT (R342). -/
def execFltAbort (port : Nat) (engine : Nat) (s : State) : Result :=
  s.unheld (fun s => s.hostWrite port (Reg.MEMC_FLT_CMD engine) ((Reg.MEMC_FLT_CMD_ABORT engine).put 0 1))

/-- RETIRE_CMD (R352). -/
def execRetireCmd (port : Nat) (w : Word) (s : State) : Result :=
  s.unheld (fun s => s.hostWrite port Reg.ECC_RETIRE_CMD w)

/-- GO (R348). -/
def execBulkGo (port : Nat) (w : Word) (s : State) : Result :=
  s.unheld (fun s => s.hostWrite port Reg.BULK_CTRL (Reg.BULK_CTRL_GO.put w 1))

/-- DONE (R348). -/
def execBulkDone (s : State) : Result := s.unheld State.bulkDone

/-- BULK_WIN_ACCESS (R348). -/
def execBulkWinAccess (port : Nat) (index : Nat) (wr : Option Word) (s : State) : Result :=
  s.unheld (fun s => s.portAccess port (Reg.BULK_WIN index) wr)

/-- OWN_WRITE (R359). -/
def execOwnWrite (port : Nat) (bank : Nat) (w : Word) (s : State) : Result :=
  s.unheld (fun s => s.hostWrite port (Reg.BANKS_OWN bank) w)

/-- HANDOVER (R359). The accesses the old owner has in flight, cycle by cycle. -/
def execHandover (bank : Nat) (cycles : List BankCycle) (s : State) : Result :=
  s.unheld (fun s => (s.inFlight bank cycles).drained bank)

/-- CLEAR_DONE (R361). -/
def execClearDone (bank : Nat) (s : State) : Result := s.unheld (fun s => s.clearDone bank)

/-- WIN_DATA_ACCESS (R368). -/
def execWinDataAccess (port : Nat) (wr : Option Word) (s : State) : Result :=
  s.unheld (fun s => s.portAccess port Reg.BANKS_WIN_DATA wr)

end Sys2Proof.Machine
end

