-- ==== Sys2Proof/Machine/NvCmd.lean ====
section
/-! DEFINITION. The commands of the non-volatile records (R432 to R451). -/

namespace Sys2Proof.Machine

/-- The levels of NV_WP_N and CAL_JMP_N are sampled (R434, R439). -/
def State.setPins (s : State) (wpN jmpN : Bool) : State :=
  let s := s.setWp wpN
  { s with nv := { s.nv with jmpN := jmpN } }

/-- APPEND (R443). The level of NV_WP_N, and the word written with OP set. -/
def execNvAppend (port : Nat) (wpN : Bool) (w : Word) (s : State) : Result :=
  s.unheld (fun s => (s.setWp wpN).hostWrite port Reg.NV_REC_CMD (Reg.NV_REC_CMD_OP.put w 1))

/-- NV_READ (R443). -/
def execNvRead (port : Nat) (w : Word) (s : State) : Result :=
  s.unheld (fun s => s.hostWrite port Reg.NV_REC_CMD (Reg.NV_REC_CMD_OP.put w 2))

/-- DELETE (R443). -/
def execNvDelete (port : Nat) (wpN : Bool) (w : Word) (s : State) : Result :=
  s.unheld (fun s => (s.setWp wpN).hostWrite port Reg.NV_REC_CMD (Reg.NV_REC_CMD_OP.put w 3))

/-- RAW_READ (R444). -/
def execRawRead (port : Nat) (w : Word) (s : State) : Result :=
  s.unheld (fun s => s.hostWrite port Reg.NV_RAW_CMD (Reg.NV_RAW_CMD_OP.put w 1))

/-- PROGRAM (R444). The levels of NV_WP_N and CAL_JMP_N. -/
def execNvProgram (port : Nat) (wpN : Bool) (jmpN : Bool) (w : Word) (s : State) : Result :=
  s.unheld (fun s => (s.setPins wpN jmpN).hostWrite port Reg.NV_RAW_CMD (Reg.NV_RAW_CMD_OP.put w 2))

/-- ERASE4K (R444). -/
def execErase4k (port : Nat) (wpN : Bool) (jmpN : Bool) (w : Word) (s : State) : Result :=
  s.unheld (fun s => (s.setPins wpN jmpN).hostWrite port Reg.NV_RAW_CMD (Reg.NV_RAW_CMD_OP.put w 3))

/-- ERASE64K (R444). -/
def execErase64k (port : Nat) (wpN : Bool) (jmpN : Bool) (w : Word) (s : State) : Result :=
  s.unheld (fun s => (s.setPins wpN jmpN).hostWrite port Reg.NV_RAW_CMD (Reg.NV_RAW_CMD_OP.put w 4))

/-- FLASH_OP_DONE (R432). -/
def execFlashOpDone (wpN : Bool) (s : State) : Result := s.unheld (fun s => (s.setWp wpN).flashDone)

/-- FLASH_TIMEOUT (R443). -/
def execFlashTimeout (s : State) : Result := s.unheld State.flashTimeout

/-- SAVE (R448). -/
def execNvSave (port : Nat) (wpN : Bool) (w : Word) (s : State) : Result :=
  s.unheld (fun s => (s.setWp wpN).hostWrite port Reg.NV_SAVE_CMD (Reg.NV_SAVE_CMD_SAVE.put w 1))

/-- NV_SCAN (R442). -/
def execNvScan (wpN : Bool) (s : State) : Result := s.unheld (fun s => (s.setWp wpN).nvScan)

/-- BUF_DATA_ACCESS (R443). -/
def execBufDataAccess (port : Nat) (wr : Option Word) (s : State) : Result :=
  s.unheld (fun s => s.portAccess port Reg.NV_BUF_DATA wr)

/-- AGE_DATA_READ (R451). -/
def execAgeDataRead (port : Nat) (s : State) : Result := s.unheld (fun s => s.portRead port Reg.NV_AGE_DATA true)

end Sys2Proof.Machine
end

