-- ==== Sys2Proof/Machine/PanelCmd.lean ====
section
/-! DEFINITION. The commands of the gate outputs, the panel's power sequences and LED_STAT (R311 to R326, R482). -/

namespace Sys2Proof.Machine

/-- PG_IN rises: a step that waits for it goes on, and wake source 3 fires (R319, R427). -/
def State.pgInRises (s : State) : State :=
  if s.pan.pgIn then s.pgRise else s.pgRise.wakeSource 3

/-- GATE_LINE (R311). -/
def execGateLine (s : State) : Result := s.unheld State.gateLine

/-- BL_PWM_PULSE (R318). -/
def execBlPwmPulse (s : State) : Result := s.unheld State.pwmPulse

/-- ON (R319). -/
def execPanelOn (port : Nat) (w : Word) (s : State) : Result :=
  s.unheld (fun s => s.hostWrite port Reg.PANELPWR_CMD (Reg.PANELPWR_CMD_ON.put w 1))

/-- OFF (R322). -/
def execPanelOff (port : Nat) (w : Word) (s : State) : Result :=
  s.unheld (fun s => s.hostWrite port Reg.PANELPWR_CMD (Reg.PANELPWR_CMD_OFF.put w 1))

/-- POWER_ON_STEP (R319). -/
def execPowerOnStep (s : State) : Result := s.unheld State.powerOnStep

/-- PG_IN_RISE (R319). -/
def execPgInRise (s : State) : Result := s.unheld State.pgInRises

/-- PG_FAIL (R320). -/
def execPgFail (s : State) : Result := s.unheld State.pgFail

/-- AUTO_ON (R319). -/
def execAutoOn (s : State) : Result := s.unheld State.autoOn

/-- POWER_OFF_STEP (R323). -/
def execPowerOffStep (s : State) : Result := s.unheld State.powerOffStep

/-- LED_STAT_TOGGLE (R482). -/
def execLedStatToggle (s : State) : Result := s.unheld State.ledToggle

end Sys2Proof.Machine
end

