-- ==== Sys2Proof/Machine/Firmware.lean ====
section
/-! DEFINITION. What the firmware does of its own accord: the ageing gains (R173) and the coarse patch set (R222). -/

namespace Sys2Proof.Machine

/-! The ageing gains (R173). -/

/-- Full-level hours of a zone. -/
def State.hoursOf (s : State) (z : Nat) : Frac := ⟨(s.ageOf z : Nat), 2 ^ 32⟩

/-- The gain of a zone; where the spec states no result it is a free value (log entry 3). -/
def State.ageGainOf (s : State) (z : Nat) : Sample :=
  (ageGain (BitVec.ofNat 16 (s.fld Reg.ZONE_AGE_CFG_G_MAX)) (BitVec.ofNat 16 (s.rd Reg.ZONE_AGE_K).toNat) (s.hoursOf z)).getD
    (BitVec.ofNat 16 (Config.freeWord (s.fresh + z)).toNat)

/-- A staging table of some gains. -/
def Tab.ofFun (d : Nat → Sample) (t : Tab) (n : Nat) (f : Nat → Sample) : Tab :=
  { t with cells := (List.range n).filterMap (fun z => if f z = t.base d z then none else some (z, f z)) }

/-- The control core computes every gain and commits the table; while a commit waits its writes are dropped. -/
def State.ageGainUpdate (s : State) : State :=
  if s.fld Reg.ZONE_AGE_CFG_SRC ≠ 0 ∨ !s.firmware then s
  else if s.agPending then (s.bumpBy (wholeFld Reg.ZONE_AG_DROP) 16384).agCommit 1
  else
    let stage := Tab.ofFun (fun _ => oneS) s.zon.stage 16384 s.ageGainOf
    ({ s with zon := { s.zon with stage := stage }, fresh := s.fresh + 16384 } : State).agCommit 1

/-! The coarse patch set (R220, R222). -/

/-- The coarse image of the flash does not load, for a reason. -/
def State.coarseFails (s : State) (why : Nat) : State :=
  ((s.put Reg.PATCH_STATUS_COARSE_BAD 1).put Reg.PATCH_STATUS_COARSE_WHY why).raise 0x60 4

/-- Why the coarse image with some header does not load: 1 no image, 2 geometry, 3 CRC; 0 when it does. -/
def State.coarseWhy (s : State) (head : List Byte) : Nat :=
  let n := leVal ((head.drop 12).take 4)
  let form := (head.getD 8 0).toNat
  if leVal (head.take 4) ≠ 0x43504D31 then 1
  else if n ≠ (patchCoarse s.hact s.vact s.wm).bytes ∨ leVal ((head.drop 4).take 2) ≠ s.hact
      ∨ leVal ((head.drop 6).take 2) ≠ s.vact ∨ bit form 0 ≠ s.flagA Reg.SPLIT_CFG_DUAL
      ∨ bit form 1 ≠ s.flagA Reg.SPLIT_CFG_MONO_HALF then 2
  else if crc32 (head.take 60 ++ s.flashRd 0x810040 n) ≠ leVal (head.drop 60) then 3
  else 0

/-- The registers that the firmware writes once the body is in its region: SET0, the knots, CFG, CTRL and APPLY. -/
def coarseWrites (h : Nat) (head : List Byte) : List (Nat × Word) :=
  let k := fun i => leVal ((head.drop (16 + 2 * i)).take 2)
  (Reg.PATCH_SET0, Reg.PATCH_SET0_EN.put (Reg.PATCH_SET0_HANDLE.put 0 h) 1)
    :: (List.range 4).flatMap (fun p =>
      [(Reg.PATCH_KR_LO + 8 * p, BitVec.ofNat 32 (k (3 * p) + 65536 * k (3 * p + 1))),
       (Reg.PATCH_KR_HI + 8 * p, BitVec.ofNat 32 (k (3 * p + 2)))])

/-- The coarse image is in its region: the registers are written, and applied. -/
def State.coarseStored (head : List Byte) (s : State) (h _ : Nat) : State :=
  let t := s.each (coarseWrites h head) (fun e s => s.hostWrite 3 e.1 e.2)
  let cfg := Reg.PATCH_CFG_COARSE0.put (Reg.PATCH_CFG_LIVE.put (t.rd Reg.PATCH_CFG) 0) 1
  let t := t.hostWrite 3 Reg.PATCH_CFG cfg
  let t := t.hostWrite 3 (Reg.HDR_CTRL 0x60) ((Reg.HDR_CTRL_EN 0x60).put (t.rd (Reg.HDR_CTRL 0x60)) 1)
  let t := t.hostWrite 3 Reg.CHIP_APPLY 1
  { t with pat := { t.pat with coarseDue := true } }

/-- COARSE_SET_LOAD: at a start-up from flash, once. -/
def State.coarseSetLoad (s : State) : State :=
  if !s.firmware || s.flag Reg.HOSTIF_STRAPS_BOOT_SRC || s.flag Reg.PATCH_STATUS_COARSE_LOADED
      || s.flag Reg.PATCH_STATUS_COARSE_BAD || s.pat.coarseDue then s
  else
    let head := s.flashRd 0x810000 64
    let why := s.coarseWhy head
    if why ≠ 0 then s.coarseFails why
    else
      let n := leVal ((head.drop 12).take 4)
      let fail := fun (s : State) => s.coarseFails 4
      s.coreStored 2 (State.coarseStored head) fail (fun s =>
        s.withDram (fun s =>
          s.coreAlloc 2 (ceilDiv n 65536) true true
            (fun s h => s.coreStore 2 h (s.flashRd 0x810040 n) (State.coarseStored head)) fail))

end Sys2Proof.Machine
end

