-- ==== Sys2Proof/Machine/PathCmd.lean ====
section
/-! DEFINITION. The commands of the pixel path's tables, captures and readbacks. -/

namespace Sys2Proof.Machine

/-- The next zone row is solved once FIELD has processed the line before it (R167). -/
def State.solveNext (s : State) : State :=
  if s.tim.running && decide (s.zon.solved < s.zoneRows) && s.rowMay s.zon.solved then s.solveSeam else s

/-- LUT_DATA_ACCESS (R121). The word written, or a read. -/
def execLutDataAccess (port : Nat) (wr : Option Word) (s : State) : Result :=
  s.unheld (fun s => s.portAccess port Reg.INPUT_LUT_DATA wr)

/-- LOAD (R123). The word written, with LOAD set. -/
def execLutLoad (port : Nat) (w : Word) (s : State) : Result :=
  s.unheld (fun s => s.hostWrite port Reg.INPUT_LUT_CTRL (Reg.INPUT_LUT_CTRL_LOAD.put w 1))

/-- LUT_DONE (R124). -/
def execLutDone (s : State) : Result := s.unheld State.lutDone

/-- CAP_STATUS_WRITE (R135). -/
def execCapStatusWrite (port : Nat) (w : Word) (s : State) : Result :=
  s.unheld (fun s => s.hostWrite port Reg.STATS_CAP_STATUS w)

/-- STATS_RB_DATA_READ (R136). -/
def execStatsRbDataRead (port : Nat) (s : State) : Result :=
  s.unheld (fun s => s.portRead port Reg.STATS_RB_DATA true)

/-- RB_SEL_WRITE (R161). -/
def execRbSelWrite (port : Nat) (w : Word) (s : State) : Result :=
  s.unheld (fun s => s.hostWrite port Reg.CODEC_RB_SEL w)

/-- RB_READY (R161). -/
def execRbReady (s : State) : Result :=
  s.unheld (fun s => if s.flag Reg.CODEC_RB_STATUS_BUSY then s.withDram State.rbDone else s)

/-- CODEC_RB_DATA1_READ (R160). -/
def execCodecRbData1Read (port : Nat) (s : State) : Result :=
  s.unheld (fun s => s.portRead port Reg.CODEC_RB_DATA1 true)

/-- ZONE_ROW_SOLVE (R167). -/
def execZoneRowSolve (s : State) : Result := s.unheld State.solveNext

/-- PCAP_WRITE (R171). -/
def execPcapWrite (port : Nat) (w : Word) (s : State) : Result := s.unheld (fun s => s.hostWrite port Reg.ZONE_PCAP w)

/-- CLASS_DATA_ACCESS (R165). -/
def execClassDataAccess (port : Nat) (wr : Option Word) (s : State) : Result :=
  s.unheld (fun s => s.portAccess port Reg.ZONE_CLASS_DATA wr)

/-- AG_DATA_ACCESS (R173). -/
def execAgDataAccess (port : Nat) (wr : Option Word) (s : State) : Result :=
  s.unheld (fun s => s.portAccess port Reg.ZONE_AG_DATA wr)

/-- AG_COMMIT (R173). -/
def execAgCommit (port : Nat) (w : Word) (s : State) : Result :=
  s.unheld (fun s => s.hostWrite port Reg.ZONE_AG_COMMIT w)

/-- AGE_GAIN_UPDATE (R173). -/
def execAgeGainUpdate (s : State) : Result := s.unheld State.ageGainUpdate

/-- LV_DATA_READ (R186). -/
def execLvDataRead (port : Nat) (s : State) : Result := s.unheld (fun s => s.portRead port Reg.ZONE_LV_DATA true)

/-- PSF_DATA_ACCESS (R175). -/
def execPsfDataAccess (port : Nat) (wr : Option Word) (s : State) : Result :=
  s.unheld (fun s => s.portAccess port Reg.PSF_DATA wr)

/-- CALC (R176). -/
def execPsfCalc (port : Nat) (w : Word) (s : State) : Result := s.unheld (fun s => s.hostWrite port Reg.PSF_CALC w)

/-- CALC_DONE (R176). -/
def execPsfCalcDone (s : State) : Result := s.unheld State.psfCalcDone

/-- CLIP_DATA_READ (R204). -/
def execClipDataRead (port : Nat) (s : State) : Result := s.unheld (fun s => s.portRead port Reg.SPLIT_CLIP_DATA true)

/-- CELLLUT_DATA_ACCESS (R206). -/
def execCelllutDataAccess (port : Nat) (wr : Option Word) (s : State) : Result :=
  s.unheld (fun s => s.portAccess port Reg.CELLLUT_DATA wr)

/-- CHECK_START (R219). -/
def execCheckStart (port : Nat) (w : Word) (s : State) : Result :=
  s.unheld (fun s => s.hostWrite port Reg.PATCH_CHECK (Reg.PATCH_CHECK_START.put w 1))

/-- CHECK_DONE (R219). -/
def execCheckDone (s : State) : Result :=
  s.unheld (fun s => if s.pat.check.isSome then s.withDram State.checkDone else s)

/-- COARSE_SET_LOAD (R222). -/
def execCoarseSetLoad (s : State) : Result := s.unheld State.coarseSetLoad

/-- DEFECT_DATA_ACCESS (R227). -/
def execDefectDataAccess (port : Nat) (wr : Option Word) (s : State) : Result :=
  s.unheld (fun s => s.portAccess port Reg.DEFECT_DATA wr)

/-- AUTO_DATA_READ (R235). -/
def execAutoDataRead (port : Nat) (s : State) : Result :=
  s.unheld (fun s => s.portRead port Reg.DEFECT_AUTO_DATA true)

/-- AUTO_CTL_CLR (R232). -/
def execAutoCtlClr (port : Nat) (w : Word) (s : State) : Result :=
  s.unheld (fun s => s.hostWrite port Reg.DEFECT_AUTO_CTL w)

/-- OD_DATA_ACCESS (R242). -/
def execOdDataAccess (port : Nat) (wr : Option Word) (s : State) : Result :=
  s.unheld (fun s => s.portAccess port Reg.OD_DATA wr)

/-- REINIT (R245). -/
def execOdReinit (port : Nat) (w : Word) (s : State) : Result := s.unheld (fun s => s.hostWrite port Reg.OD_CMD w)

/-- ADC_CONVERSION (R249). The code converted. -/
def execAdcConversion (code : Nat) (s : State) : Result := s.unheld (fun s => s.adcDone code)

/-- THERM_REGIONAL_UPDATE (R251). -/
def execThermRegionalUpdate (s : State) : Result := s.unheld State.thermUpdate

/-- THERM_COMMIT (R252). -/
def execThermCommit (port : Nat) (w : Word) (s : State) : Result :=
  s.unheld (fun s => s.hostWrite port Reg.THERM_COMMIT w)

/-- REG_DATA_ACCESS (R256). -/
def execRegDataAccess (port : Nat) (wr : Option Word) (s : State) : Result :=
  s.unheld (fun s => s.portAccess port Reg.THERM_REG_DATA wr)

/-- CONV_DATA_ACCESS (R256). -/
def execConvDataAccess (port : Nat) (wr : Option Word) (s : State) : Result :=
  s.unheld (fun s => s.portAccess port Reg.THERM_CONV_DATA wr)

/-- DITH_DATA_ACCESS (R260). -/
def execDithDataAccess (port : Nat) (wr : Option Word) (s : State) : Result :=
  s.unheld (fun s => s.portAccess port Reg.DITH_DATA wr)

end Sys2Proof.Machine
end

