-- ==== Sys2Proof/Machine/PowerCmd.lean ====
section
/-! DEFINITION. The commands of the power domains, voltages, wake sources and resets (R412 to R431, R452, R486). -/

namespace Sys2Proof.Machine

/-- A supply monitor trips (R486): VDD_AON's is a power-on reset, any other a reset as by RESET_N. The M960 is held in
reset until the supplies are back. -/
def State.supplyTrips (s : State) (aon : Bool) : State :=
  let t := if aon then s.powerOnReset else s.logicReset
  { t with boot := { t.boot with resetLow := true } }

/-- PWR_FAIL_N has been low for 1 µs (R322, R448): the panel powers off, and NVC saves. In reset only the level of the
ball changes. -/
def State.powerFails (s : State) : State :=
  if s.boot.resetLow then { s with pan := { s.pan with pfailN := false } }
  else
    let s := s.panelPfail
    if s.domCur 46 = domStON then s.saveStart 1 else s

/-- PWR_FAIL_N is high again (R322, R448). -/
def State.powerBack (s : State) : State := { s with pan := { s.pan with pfailN := true } }

/-- DOMAIN_REQ_WRITE (R414). -/
def execDomainReqWrite (port : Nat) (dom : Nat) (w : Word) (s : State) : Result :=
  s.unheld (fun s => s.hostWrite port (Reg.PWR_DOM_REQ dom) w)

/-- DOMAIN_DRAIN_DONE (R416). -/
def execDomainDrainDone (dom : Nat) (s : State) : Result := s.unheld (fun s => s.drainDone dom)

/-- DOMAIN_TRANSITION_DONE (R416). Whether the slot's CRC fails at a restore. -/
def execDomainTransitionDone (dom : Nat) (bad : Bool) (s : State) : Result :=
  s.unheld (fun s => s.transitionDone dom bad)

/-- ABORTED (R420). -/
def execDomainAborted (dom : Nat) (s : State) : Result := s.unheld (fun s => s.aborted dom)

/-- PAD_RELEASE (R421). -/
def execPadRelease (port : Nat) (w : Word) (s : State) : Result :=
  s.unheld (fun s => s.hostWrite port Reg.PWR_PAD_RELEASE w)

/-- OP_CFG_WRITE (R425). -/
def execOpCfgWrite (port : Nat) (w : Word) (s : State) : Result :=
  s.unheld (fun s => s.hostWrite port Reg.PWR_OP_CFG w)

/-- VSER_WRITE (R425). -/
def execVserWrite (port : Nat) (w : Word) (s : State) : Result := s.unheld (fun s => s.hostWrite port Reg.PWR_VSER w)

/-- AVS_POLL (R426). The voltage read in mV, and whether the acknowledge field fails its CRC. -/
def execAvsPoll (mv : Nat) (crcErr : Bool) (s : State) : Result := s.unheld (fun s => s.avsPoll mv crcErr)

/-- AVS_FAIL (R426). Whether the slave rejects it. -/
def execAvsFail (nak : Bool) (s : State) : Result := s.unheld (fun s => s.avsFailed nak)

/-- GPIO_WAKE_EDGE (R427). -/
def execGpioWakeEdge (gpio : Nat) (s : State) : Result := s.unheld (fun s => s.wakeSource (8 + gpio))

/-- ALARM (R427). -/
def execAonAlarm (s : State) : Result := s.unheld State.alarmFires

/-- ALARM_WRITE (R427). -/
def execAlarmWrite (port : Nat) (high : Bool) (w : Word) (s : State) : Result :=
  s.unheld (fun s => s.hostWrite port (if high then Reg.AON_ALARM_HI else Reg.AON_ALARM) w)

/-- WAKE_CAUSE_WRITE (R431). -/
def execWakeCauseWrite (port : Nat) (w : Word) (s : State) : Result :=
  s.unheld (fun s => s.hostWrite port Reg.AON_WAKE_CAUSE w)

/-- POWER_ON_MIN_TICK (R431). -/
def execPowerOnMinTick (s : State) : Result := s.unheld State.minuteTick

/-- SUPPLY_MONITOR_TRIP (R486). Whether the VDD_AON monitor trips. -/
def execSupplyMonitorTrip (aon : Bool) (s : State) : Result := s.resets (fun s => s.supplyTrips aon)

/-- POWER_ON_RESET (R429). -/
def execPowerOnReset (s : State) : Result := s.resets (fun s => s.supplyTrips true)

/-- RESET_N_LOW (R429). -/
def execResetNLow (s : State) : Result := s.resets State.resetLow

/-- RESET_N_RISE (R452). The levels of GPIO3 to GPIO0. -/
def execResetNRise (gpio : Nat) (s : State) : Result := s.resets (fun s => s.resetRise gpio)

/-- SUPPLY_BACK_IN_RANGE (R486). -/
def execSupplyBackInRange (gpio : Nat) (s : State) : Result := s.resets (fun s => s.resetRise gpio)

/-- PFAIL (R322). -/
def execPfail (s : State) : Result := s.always State.powerFails

/-- PWR_FAIL_N_HIGH (R448). -/
def execPwrFailNHigh (s : State) : Result := s.always State.powerBack

end Sys2Proof.Machine
end

