-- ==== Sys2Proof/Machine/RegCmd.lean ====
section
/-! DEFINITION. The commands of the registers, of applying settings and of interrupts (R6 to R10, R370 to R385, R465).
-/

namespace Sys2Proof.Machine

/-- APPLY_GO (R382). -/
def execApplyGo (port : Nat) (w : Word) (s : State) : Result :=
  s.unheld (fun s => s.hostWrite port Reg.CHIP_APPLY (Reg.CHIP_APPLY_GO.put w 1))

/-- VALIDATION_DONE (R382). -/
def execValidationDone (s : State) : Result := s.unheld State.validated

/-- REVERT (R382). -/
def execChipRevert (port : Nat) (w : Word) (s : State) : Result :=
  s.unheld (fun s => s.hostWrite port Reg.CHIP_REVERT w)

/-- GUARANTEE_VOID_WRITE (R21). -/
def execGuaranteeVoidWrite (port : Nat) (w : Word) (s : State) : Result :=
  s.unheld (fun s => s.hostWrite port Reg.CHIP_GUARANTEE_VOID w)

/-- SOFT_RST (R371). The page, and the word written to CTRL with SOFT_RST set. -/
def execSoftRst (port : Nat) (page : Nat) (w : Word) (s : State) : Result :=
  s.unheld (fun s => s.hostWrite port (Reg.HDR_CTRL page) ((Reg.HDR_CTRL_SOFT_RST page).put w 1))

/-- LOCK_WRITE (R372). -/
def execLockWrite (port : Nat) (page : Nat) (w : Word) (s : State) : Result :=
  s.unheld (fun s => s.hostWrite port (Reg.HDR_LOCK page) w)

/-- IRQ_SET (R384). -/
def execIrqSet (port : Nat) (page : Nat) (w : Word) (s : State) : Result :=
  s.unheld (fun s => s.hostWrite port (Reg.HDR_IRQ_SET page) w)

/-- IRQ_PEND_WRITE (R384). -/
def execIrqPendWrite (port : Nat) (page : Nat) (w : Word) (s : State) : Result :=
  s.unheld (fun s => s.hostWrite port (Reg.HDR_IRQ_PEND page) w)

/-- ERR_COUNT_READ (R7). -/
def execErrCountRead (port : Nat) (page : Nat) (s : State) : Result :=
  s.unheld (fun s => s.portRead port (Reg.HDR_ERR_COUNT page) true)

/-- READ_64_LOW (R10). The address of the low half. -/
def execRead64Low (port : Nat) (addr : Nat) (s : State) : Result := s.unheld (fun s => s.portRead port addr true)

/-- REG_WRITE (R7). -/
def execRegWrite (port : Nat) (addr : Nat) (w : Word) (s : State) : Result :=
  s.unheld (fun s => s.hostWrite port addr w)

/-- PERTURB_WRITE (R465). The offset of the register in the page of PERTURB. -/
def execPerturbWrite (port : Nat) (off : Nat) (w : Word) (s : State) : Result :=
  s.unheld (fun s => s.hostWrite port (Reg.HDR_UNIT_ID 8 + off) w)

/-- STOP (R465). -/
def execPerturbStop (port : Nat) (w : Word) (s : State) : Result :=
  s.unheld (fun s => s.hostWrite port Reg.PERTURB_STOP w)

end Sys2Proof.Machine
end

