-- ==== Sys2Proof/Machine/TestCmd.lean ====
section
/-! DEFINITION. The commands of the turns and of the test access port (R463 to R467). -/

namespace Sys2Proof.Machine

/-- SRAM_TURN (R463). 0 passed, 1 failed, 2 aborted. -/
def execSramTurn (result : Nat) (s : State) : Result := s.unheld (fun s => s.sramTurn result)

/-- DRAM_TURN (R463). -/
def execDramTurn (result : Nat) (s : State) : Result := s.unheld (fun s => s.dramTurn result)

/-- LUT_TURN (R463). -/
def execLutTurn (result : Nat) (s : State) : Result := s.unheld (fun s => s.lutTurn result)

/-- EXTEST (R466). The levels at the balls, and the bits shifted in. -/
def execExtest (pins : List Bool) (dr : List Bool) (s : State) : Result :=
  s.always (fun s => s.tapBoundary tapEXTEST pins dr)

/-- SAMPLE_PRELOAD (R466). -/
def execSamplePreload (pins : List Bool) (dr : List Bool) (s : State) : Result :=
  s.always (fun s => s.tapBoundary tapSAMPLE pins dr)

/-- IDCODE (R466). -/
def execIdcode (dr : List Bool) (s : State) : Result :=
  s.always (fun s => s.tapScan tapIDCODE idcodeBits dr (fun _ t => t))

/-- CLAMP (R466). -/
def execClamp (dr : List Bool) (s : State) : Result := s.always (fun s => s.tapBypass tapCLAMP dr)

/-- HIGHZ (R466). -/
def execHighz (dr : List Bool) (s : State) : Result := s.always (fun s => s.tapBypass tapHIGHZ dr)

/-- EXTEST_PULSE (R466). -/
def execExtestPulse (pins : List Bool) (dr : List Bool) (s : State) : Result :=
  s.always (fun s => s.tapBoundary tapPULSE pins dr)

/-- EXTEST_TRAIN (R466). -/
def execExtestTrain (pins : List Bool) (dr : List Bool) (s : State) : Result :=
  s.always (fun s => s.tapBoundary tapTRAIN pins dr)

/-- RUNBIST (R466). -/
def execRunbist (dr : List Bool) (s : State) : Result := s.always (fun s => s.runBist dr)

/-- BIST_DONE (R466). -/
def execBistDone (fail : Bool) (unit : Nat) (s : State) : Result := s.always (fun s => s.bistDone fail unit)

/-- BYPASS (R466). The instruction code. -/
def execBypass (code : Nat) (dr : List Bool) (s : State) : Result :=
  if s.tapPrivate code then .refused .privateInstruction else s.always (fun s => s.tapBypass code dr)

/-- TAP_RESET (R466). -/
def execTapReset (s : State) : Result := s.always State.tapReset

end Sys2Proof.Machine
end

