-- ==== Sys2Proof/Machine/TimingCmd.lean ====
section
/-! DEFINITION. The commands of frame timing, house sync and self-refresh (R93 to R116, R499), and of the frame
store's lines (R148 to R150). -/

namespace Sys2Proof.Machine

/-- The write side copies the next line, no earlier than D_n − t_line (R148). -/
def State.lineCopyDue (s : State) : State :=
  match s.sto.src with
  | none => s
  | some f => if f.next < s.vact ∧ f.copyNext then (s.advance s.copyTime).lineCopy else s

/-- The instant at which a line that is not complete is missing: D_n, in lock the earlier of D_n and W_n (R96, R98,
R150). -/
def State.lineDeadline (s : State) (f : SrcFrame) (n : Nat) : Nat :=
  if f.inLock then min (f.due n) (f.first + (n + 1) * f.tLine - s.latLines * f.tLine) else f.due n

/-- The line that the source owes passes its deadline (R150). -/
def State.lineOverdue (s : State) : State :=
  match s.sto.src, s.owedLine with
  | some f, some y => ((s.advance (s.lineDeadline f y)).declareMissing y).pump
  | _, _ => s

/-- The start of a zone row's dark band (R102): that of the frame before, when it still lies ahead in this frame. -/
def State.darkAt (s : State) (r : Nat) : Nat :=
  let part := fun f p => f + (s.applyAt r - s.tim.f) + (64 - s.bfiDuty) * p / 64
  let old := part s.tim.lastF s.tim.lastP
  if s.tim.lastP ≠ 0 ∧ s.tim.f ≤ old ∧ s.now ≤ old then old else part s.tim.f s.tim.period

/-- A SYNC APPLY with DARK leaves some ns ahead of the start of a row's dark band (R102, R283). -/
def State.darkBand (s : State) (r delay : Nat) : State :=
  if s.tim.running ∧ s.bfiMode = 1 ∧ r < s.zoneRows then
    let t := s.darkAt r
    (s.advance (t - delay * ticksPerNs)).applyRow r true t
  else s

/-- A row's SYNC APPLY leaves some ns ahead of its apply instant (R182, R283). -/
def State.applyAhead (s : State) (r delay : Nat) : State :=
  if s.tim.running ∧ r < s.zoneRows then
    let t := s.applyAt r
    (s.advance (t - delay * ticksPerNs)).applyRow r false t
  else s

/-- SYNC TIMING and SYNC FRAME leave ahead of the next boundary, with what that boundary will bring into force; without
zones the global level of the coming frame goes with them (R284). DELAY runs from FRAME's last bit, three blocks later
at the most, which take 124 ns at the lowest rate: from 700 ns on it lies between 500 and 20,000 ns (R280). -/
def State.syncAhead (s : State) (delay : Nat) : State :=
  let d := clampNat 700 20000 delay * ticksPerNs
  let s := if s.tim.running then s.advance (s.tim.next - d) else s
  let f := if s.tim.running then s.tim.next else s.now + d
  let t := s.frameBoundary
  let s := s.syncFrame f (((s.rd Reg.TIMING_FRAME_NO).toNat + 1) % 2 ^ 32) t.linePeriod (t.fldA Reg.EDL_CFG_DRIVE_OFS)
    (t.sto.black && !t.pawn) (t.tim.shows != 0) t.inSref
  if t.zoneCols = 0 then s.globalSend t f else s

/-- FRAME_BOUNDARY (R94). -/
def execFrameBoundary (s : State) : Result := s.unheld State.frameBoundary

/-- OUTPUT_LINE_START (R94). What an arithmetic fault adds to the values that the shadow lane compares (R266): none where
both copies work. -/
def execOutputLineStart (faults : List Nat) (s : State) : Result := s.unheld (fun s => s.outputLine faults)

/-- LINE_WRITE (R148). -/
def execLineWrite (s : State) : Result := s.unheld State.lineWrite

/-- LINE_COPY (R149). -/
def execLineCopy (s : State) : Result := s.unheld State.lineCopyDue

/-- LINE_DEADLINE (R150). -/
def execLineDeadline (s : State) : Result := s.unheld State.lineOverdue

/-- LATE_PIP (R100). -/
def execLatePip (s : State) : Result := s.unheld State.latePip

/-- PIP_TIMEOUT (R100). -/
def execPipTimeout (s : State) : Result := s.unheld State.pipTimeout

/-- VREF_EDGE (R103). The instant and the direction of the edge. -/
def execVrefEdge (t : Nat) (rising : Bool) (s : State) : Result := s.unheld (fun s => s.vrefEdge t rising)

/-- HREF_EDGE (R103). -/
def execHrefEdge (t : Nat) (rising : Bool) (s : State) : Result := s.unheld (fun s => s.hrefEdge t rising)

/-- GL_LOSS (R104). -/
def execGlLoss (s : State) : Result := s.unheld State.glLoss

/-- BFI_DARK_BAND (R102). The zone row, and how many ns ahead of the instant its SYNC APPLY leaves. -/
def execBfiDarkBand (row : Nat) (delay : Nat) (s : State) : Result := s.unheld (fun s => s.darkBand row delay)

/-- ENTER (R106). -/
def execSrefEnter (port : Nat) (w : Word) (s : State) : Result :=
  s.unheld (fun s => s.hostWrite port Reg.SREF_CMD (Reg.SREF_CMD_ENTER.put w 1))

/-- EXIT (R112). -/
def execSrefExit (port : Nat) (w : Word) (s : State) : Result :=
  s.unheld (fun s => s.hostWrite port Reg.SREF_CMD (Reg.SREF_CMD_EXIT.put w 1))

/-- RELEASE (R499). -/
def execSrefRelease (port : Nat) (w : Word) (s : State) : Result :=
  s.unheld (fun s => s.hostWrite port Reg.SREF_CMD (Reg.SREF_CMD_RELEASE.put w 1))

/-- SREF_RET_WAKE (R111). -/
def execSrefRetWake (s : State) : Result := s.unheld State.retWake

/-- SYNC_FRAME (R280). How many ns ahead of the boundary the pair leaves. -/
def execSyncFrame (delay : Nat) (s : State) : Result := s.unheld (fun s => s.syncAhead delay)

/-- SYNC_APPLY (R283). -/
def execSyncApply (row : Nat) (delay : Nat) (s : State) : Result := s.unheld (fun s => s.applyAhead row delay)

end Sys2Proof.Machine
end

