-- ==== Sys2Proof/Machine/Dispatch.lean ====
section
/-! DEFINITION. The dispatch: one arm for each command, each one direct call of the command's meaning. -/

namespace Sys2Proof.Machine

/-- What a command does to the state, all but the queue. -/
def exec (i : Instr) (s : State) : Host.Outcome State Fault Refusal :=
  match i with
  | .frameBoundary => Sys2Proof.Machine.execFrameBoundary s
  | .outputLineStart faults => Sys2Proof.Machine.execOutputLineStart faults s
  | .rxBlock lane hdr payload => Sys2Proof.Machine.execRxBlock lane hdr payload s
  | .refcfgWrite port w => Sys2Proof.Machine.execRefcfgWrite port w s
  | .refcfgPendingApply => Sys2Proof.Machine.execRefcfgPendingApply s
  | .dfeUpdate lane err dec => Sys2Proof.Machine.execDfeUpdate lane err dec s
  | .adaptWindowEnd lane changes => Sys2Proof.Machine.execAdaptWindowEnd lane changes s
  | .rxLockLost lane => Sys2Proof.Machine.execRxLockLost lane s
  | .eiDetect lane => Sys2Proof.Machine.execEiDetect lane s
  | .eiClear lane => Sys2Proof.Machine.execEiClear lane s
  | .esStart port lane w => Sys2Proof.Machine.execEsStart port lane w s
  | .esDwellEnd lane errs => Sys2Proof.Machine.execEsDwellEnd lane errs s
  | .lstateReqWrite port lane w => Sys2Proof.Machine.execLstateReqWrite port lane w s
  | .laneTransitionDone lane => Sys2Proof.Machine.execLaneTransitionDone lane s
  | .prbsWrite port lane w => Sys2Proof.Machine.execPrbsWrite port lane w s
  | .prbsCheckerSync lane errs => Sys2Proof.Machine.execPrbsCheckerSync lane errs s
  | .cntClr port page off w => Sys2Proof.Machine.execCntClr port page off w s
  | .pip t copies => Sys2Proof.Machine.execPip t copies s
  | .sleepRow copies => Sys2Proof.Machine.execSleepRow copies s
  | .wakeRow copies => Sys2Proof.Machine.execWakeRow copies s
  | .regionRow copies => Sys2Proof.Machine.execRegionRow copies s
  | .metaRow copies => Sys2Proof.Machine.execMetaRow copies s
  | .alnRow link blocks skews => Sys2Proof.Machine.execAlnRow link blocks skews s
  | .ts1Block link blocks inverted => Sys2Proof.Machine.execTs1Block link blocks inverted s
  | .idleRow copies => Sys2Proof.Machine.execIdleRow copies s
  | .controlRowIgnored copies => Sys2Proof.Machine.execControlRowIgnored copies s
  | .misalignedRow => Sys2Proof.Machine.execMisalignedRow s
  | .linePacket t lanes bad => Sys2Proof.Machine.execLinePacket t lanes bad s
  | .tablePacket copies lanes bad => Sys2Proof.Machine.execTablePacket copies lanes bad s
  | .tableCommitDone => Sys2Proof.Machine.execTableCommitDone s
  | .lineWrite => Sys2Proof.Machine.execLineWrite s
  | .lineCopy => Sys2Proof.Machine.execLineCopy s
  | .lineDeadline => Sys2Proof.Machine.execLineDeadline s
  | .regRd bytes => Sys2Proof.Machine.execRegRd bytes s
  | .regWr bytes => Sys2Proof.Machine.execRegWr bytes s
  | .wakeReq bytes => Sys2Proof.Machine.execWakeReq bytes s
  | .bcFrameDiscard bytes => Sys2Proof.Machine.execBcFrameDiscard bytes s
  | .trainCaps bytes => Sys2Proof.Machine.execTrainCaps bytes s
  | .trainOk bytes => Sys2Proof.Machine.execTrainOk bytes s
  | .presetAck bytes => Sys2Proof.Machine.execPresetAck bytes s
  | .trainReady bytes => Sys2Proof.Machine.execTrainReady bytes s
  | .trainFail bytes => Sys2Proof.Machine.execTrainFail bytes s
  | .trainPhaseTimeout link => Sys2Proof.Machine.execTrainPhaseTimeout link s
  | .eqPresetMeasure link eyes => Sys2Proof.Machine.execEqPresetMeasure link eyes s
  | .linkTrainStart => Sys2Proof.Machine.execLinkTrainStart s
  | .fastRetrainDone => Sys2Proof.Machine.execFastRetrainDone s
  | .fastFail => Sys2Proof.Machine.execFastFail s
  | .bcEvent => Sys2Proof.Machine.execBcEvent s
  | .islRetrain port w => Sys2Proof.Machine.execIslRetrain port w s
  | .hpdPulse port w => Sys2Proof.Machine.execHpdPulse port w s
  | .hpdPulseEnd => Sys2Proof.Machine.execHpdPulseEnd s
  | .metaPop port w => Sys2Proof.Machine.execMetaPop port w s
  | .latePip => Sys2Proof.Machine.execLatePip s
  | .pipTimeout => Sys2Proof.Machine.execPipTimeout s
  | .vrefEdge t rising => Sys2Proof.Machine.execVrefEdge t rising s
  | .hrefEdge t rising => Sys2Proof.Machine.execHrefEdge t rising s
  | .glLoss => Sys2Proof.Machine.execGlLoss s
  | .bfiDarkBand row delay => Sys2Proof.Machine.execBfiDarkBand row delay s
  | .srefEnter port w => Sys2Proof.Machine.execSrefEnter port w s
  | .srefExit port w => Sys2Proof.Machine.execSrefExit port w s
  | .srefRelease port w => Sys2Proof.Machine.execSrefRelease port w s
  | .srefRetWake => Sys2Proof.Machine.execSrefRetWake s
  | .lutDataAccess port wr => Sys2Proof.Machine.execLutDataAccess port wr s
  | .lutLoad port w => Sys2Proof.Machine.execLutLoad port w s
  | .lutDone => Sys2Proof.Machine.execLutDone s
  | .capStatusWrite port w => Sys2Proof.Machine.execCapStatusWrite port w s
  | .statsRbDataRead port => Sys2Proof.Machine.execStatsRbDataRead port s
  | .rbSelWrite port w => Sys2Proof.Machine.execRbSelWrite port w s
  | .rbReady => Sys2Proof.Machine.execRbReady s
  | .codecRbData1Read port => Sys2Proof.Machine.execCodecRbData1Read port s
  | .zoneRowSolve => Sys2Proof.Machine.execZoneRowSolve s
  | .pcapWrite port w => Sys2Proof.Machine.execPcapWrite port w s
  | .classDataAccess port wr => Sys2Proof.Machine.execClassDataAccess port wr s
  | .agDataAccess port wr => Sys2Proof.Machine.execAgDataAccess port wr s
  | .agCommit port w => Sys2Proof.Machine.execAgCommit port w s
  | .ageGainUpdate => Sys2Proof.Machine.execAgeGainUpdate s
  | .lvDataRead port => Sys2Proof.Machine.execLvDataRead port s
  | .psfDataAccess port wr => Sys2Proof.Machine.execPsfDataAccess port wr s
  | .psfCalc port w => Sys2Proof.Machine.execPsfCalc port w s
  | .psfCalcDone => Sys2Proof.Machine.execPsfCalcDone s
  | .clipDataRead port => Sys2Proof.Machine.execClipDataRead port s
  | .celllutDataAccess port wr => Sys2Proof.Machine.execCelllutDataAccess port wr s
  | .checkStart port w => Sys2Proof.Machine.execCheckStart port w s
  | .checkDone => Sys2Proof.Machine.execCheckDone s
  | .coarseSetLoad => Sys2Proof.Machine.execCoarseSetLoad s
  | .defectDataAccess port wr => Sys2Proof.Machine.execDefectDataAccess port wr s
  | .autoDataRead port => Sys2Proof.Machine.execAutoDataRead port s
  | .autoCtlClr port w => Sys2Proof.Machine.execAutoCtlClr port w s
  | .odDataAccess port wr => Sys2Proof.Machine.execOdDataAccess port wr s
  | .odReinit port w => Sys2Proof.Machine.execOdReinit port w s
  | .adcConversion code => Sys2Proof.Machine.execAdcConversion code s
  | .thermRegionalUpdate => Sys2Proof.Machine.execThermRegionalUpdate s
  | .thermCommit port w => Sys2Proof.Machine.execThermCommit port w s
  | .regDataAccess port wr => Sys2Proof.Machine.execRegDataAccess port wr s
  | .convDataAccess port wr => Sys2Proof.Machine.execConvDataAccess port wr s
  | .dithDataAccess port wr => Sys2Proof.Machine.execDithDataAccess port wr s
  | .syncFrame delay => Sys2Proof.Machine.execSyncFrame delay s
  | .syncApply row delay => Sys2Proof.Machine.execSyncApply row delay s
  | .hcmdGo port w => Sys2Proof.Machine.execHcmdGo port w s
  | .safeLevelWrite port w => Sys2Proof.Machine.execSafeLevelWrite port w s
  | .linkHoldWrite port w => Sys2Proof.Machine.execLinkHoldWrite port w s
  | .edlPoll bus => Sys2Proof.Machine.execEdlPoll bus s
  | .statusResponse bus bytes code => Sys2Proof.Machine.execStatusResponse bus bytes code s
  | .faultsResponse bus bytes code => Sys2Proof.Machine.execFaultsResponse bus bytes code s
  | .errcntResponse bus bytes code => Sys2Proof.Machine.execErrcntResponse bus bytes code s
  | .readbackResponse bus bytes code => Sys2Proof.Machine.execReadbackResponse bus bytes code s
  | .capsResponse bus bytes code => Sys2Proof.Machine.execCapsResponse bus bytes code s
  | .noneResponse bus bytes code => Sys2Proof.Machine.execNoneResponse bus bytes code s
  | .pollMiss bus codeErrs answered => Sys2Proof.Machine.execPollMiss bus codeErrs answered s
  | .edlTrainDone edlPort => Sys2Proof.Machine.execEdlTrainDone edlPort s
  | .edlTrainTimeout edlPort => Sys2Proof.Machine.execEdlTrainTimeout edlPort s
  | .edlTrainRetry edlPort => Sys2Proof.Machine.execEdlTrainRetry edlPort s
  | .portRetrain port edlPort w => Sys2Proof.Machine.execPortRetrain port edlPort w s
  | .edlEnum port w => Sys2Proof.Machine.execEdlEnum port w s
  | .prbsBurst edlPort blocks => Sys2Proof.Machine.execPrbsBurst edlPort blocks s
  | .groupBroadcast port group cmd w => Sys2Proof.Machine.execGroupBroadcast port group cmd w s
  | .gateLine => Sys2Proof.Machine.execGateLine s
  | .panelOn port w => Sys2Proof.Machine.execPanelOn port w s
  | .panelOff port w => Sys2Proof.Machine.execPanelOff port w s
  | .powerOnStep => Sys2Proof.Machine.execPowerOnStep s
  | .pgInRise => Sys2Proof.Machine.execPgInRise s
  | .pgFail => Sys2Proof.Machine.execPgFail s
  | .autoOn => Sys2Proof.Machine.execAutoOn s
  | .powerOffStep => Sys2Proof.Machine.execPowerOffStep s
  | .pfail => Sys2Proof.Machine.execPfail s
  | .regionAlloc port w => Sys2Proof.Machine.execRegionAlloc port w s
  | .regionFree port w => Sys2Proof.Machine.execRegionFree port w s
  | .regionReqDone => Sys2Proof.Machine.execRegionReqDone s
  | .dramBeat engine handle ofs wr ecc word lat waiting => Sys2Proof.Machine.execDramBeat engine handle ofs wr ecc word lat waiting s
  | .c0Window => Sys2Proof.Machine.execC0Window s
  | .dramRefresh ch busy => Sys2Proof.Machine.execDramRefresh ch busy s
  | .mopSwitch => Sys2Proof.Machine.execMopSwitch s
  | .scrubPage corr unc => Sys2Proof.Machine.execScrubPage corr unc s
  | .retireDone => Sys2Proof.Machine.execRetireDone s
  | .migrationTimeout engine handle ofs wr => Sys2Proof.Machine.execMigrationTimeout engine handle ofs wr s
  | .fltResume port engine => Sys2Proof.Machine.execFltResume port engine s
  | .fltSkip port engine => Sys2Proof.Machine.execFltSkip port engine s
  | .fltAbort port engine => Sys2Proof.Machine.execFltAbort port engine s
  | .retireCmd port w => Sys2Proof.Machine.execRetireCmd port w s
  | .bulkGo port w => Sys2Proof.Machine.execBulkGo port w s
  | .bulkDone => Sys2Proof.Machine.execBulkDone s
  | .bulkWinAccess port index wr => Sys2Proof.Machine.execBulkWinAccess port index wr s
  | .ownWrite port bank w => Sys2Proof.Machine.execOwnWrite port bank w s
  | .handover bank cycles => Sys2Proof.Machine.execHandover bank cycles s
  | .clearDone bank => Sys2Proof.Machine.execClearDone bank s
  | .winDataAccess port wr => Sys2Proof.Machine.execWinDataAccess port wr s
  | .applyGo port w => Sys2Proof.Machine.execApplyGo port w s
  | .validationDone => Sys2Proof.Machine.execValidationDone s
  | .chipRevert port w => Sys2Proof.Machine.execChipRevert port w s
  | .guaranteeVoidWrite port w => Sys2Proof.Machine.execGuaranteeVoidWrite port w s
  | .softRst port page w => Sys2Proof.Machine.execSoftRst port page w s
  | .lockWrite port page w => Sys2Proof.Machine.execLockWrite port page w s
  | .irqSet port page w => Sys2Proof.Machine.execIrqSet port page w s
  | .irqPendWrite port page w => Sys2Proof.Machine.execIrqPendWrite port page w s
  | .errCountRead port page => Sys2Proof.Machine.execErrCountRead port page s
  | .read64Low port addr => Sys2Proof.Machine.execRead64Low port addr s
  | .regWrite port addr w => Sys2Proof.Machine.execRegWrite port addr w s
  | .spiWrite addr bytes => Sys2Proof.Machine.execSpiWrite addr bytes s
  | .spiQwrite addr bytes => Sys2Proof.Machine.execSpiQwrite addr bytes s
  | .spiRead addr n => Sys2Proof.Machine.execSpiRead addr n s
  | .spiQread addr n => Sys2Proof.Machine.execSpiQread addr n s
  | .spiStatus => Sys2Proof.Machine.execSpiStatus s
  | .spiUnknownCommand code => Sys2Proof.Machine.execSpiUnknownCommand code s
  | .i2cWrite addr bytes => Sys2Proof.Machine.execI2cWrite addr bytes s
  | .i2cRead addr n => Sys2Proof.Machine.execI2cRead addr n s
  | .i2cTimeout => Sys2Proof.Machine.execI2cTimeout s
  | .tunnel lane block => Sys2Proof.Machine.execTunnel lane block s
  | .tunnelTimeout => Sys2Proof.Machine.execTunnelTimeout s
  | .ctlWdog => Sys2Proof.Machine.execCtlWdog s
  | .ctlRestart port w => Sys2Proof.Machine.execCtlRestart port w s
  | .ctlRestarted => Sys2Proof.Machine.execCtlRestarted s
  | .mboxNop => Sys2Proof.Machine.execMboxNop s
  | .mboxVersion => Sys2Proof.Machine.execMboxVersion s
  | .mboxEcho => Sys2Proof.Machine.execMboxEcho s
  | .mboxHostload => Sys2Proof.Machine.execMboxHostload s
  | .mboxReboot => Sys2Proof.Machine.execMboxReboot s
  | .mboxActivate => Sys2Proof.Machine.execMboxActivate s
  | .mboxCommit => Sys2Proof.Machine.execMboxCommit s
  | .mboxPawn => Sys2Proof.Machine.execMboxPawn s
  | .mboxSlotInfo => Sys2Proof.Machine.execMboxSlotInfo s
  | .mboxCoarseStore => Sys2Proof.Machine.execMboxCoarseStore s
  | .mboxAgeLoad => Sys2Proof.Machine.execMboxAgeLoad s
  | .mboxRingFormat => Sys2Proof.Machine.execMboxRingFormat s
  | .mboxUnknown => Sys2Proof.Machine.execMboxUnknown s
  | .presenceOpen => Sys2Proof.Machine.execPresenceOpen s
  | .presenceExpire => Sys2Proof.Machine.execPresenceExpire s
  | .presenceClose port w => Sys2Proof.Machine.execPresenceClose port w s
  | .otpLockWrite port w => Sys2Proof.Machine.execOtpLockWrite port w s
  | .xtalStable => Sys2Proof.Machine.execXtalStable s
  | .refclkWindow cycles => Sys2Proof.Machine.execRefclkWindow cycles s
  | .pllLock pll => Sys2Proof.Machine.execPllLock pll s
  | .lockFail pll => Sys2Proof.Machine.execLockFail pll s
  | .xtalFail => Sys2Proof.Machine.execXtalFail s
  | .pixRefHold => Sys2Proof.Machine.execPixRefHold s
  | .lockLoss pll => Sys2Proof.Machine.execLockLoss pll s
  | .xtalLoss => Sys2Proof.Machine.execXtalLoss s
  | .clkCfgWrite port w => Sys2Proof.Machine.execClkCfgWrite port w s
  | .clkSwitchDone mux => Sys2Proof.Machine.execClkSwitchDone mux s
  | .swForced mux => Sys2Proof.Machine.execSwForced mux s
  | .swFail mux => Sys2Proof.Machine.execSwFail mux s
  | .swForcedWrite port w => Sys2Proof.Machine.execSwForcedWrite port w s
  | .aonTrimWindow cycles => Sys2Proof.Machine.execAonTrimWindow cycles s
  | .clockGateClose page => Sys2Proof.Machine.execClockGateClose page s
  | .domainReqWrite port dom w => Sys2Proof.Machine.execDomainReqWrite port dom w s
  | .domainDrainDone dom => Sys2Proof.Machine.execDomainDrainDone dom s
  | .domainTransitionDone dom bad => Sys2Proof.Machine.execDomainTransitionDone dom bad s
  | .domainAborted dom => Sys2Proof.Machine.execDomainAborted dom s
  | .padRelease port w => Sys2Proof.Machine.execPadRelease port w s
  | .opCfgWrite port w => Sys2Proof.Machine.execOpCfgWrite port w s
  | .vserWrite port w => Sys2Proof.Machine.execVserWrite port w s
  | .avsPoll mv crcErr => Sys2Proof.Machine.execAvsPoll mv crcErr s
  | .avsFail nak => Sys2Proof.Machine.execAvsFail nak s
  | .gpioWakeEdge gpio => Sys2Proof.Machine.execGpioWakeEdge gpio s
  | .aonAlarm => Sys2Proof.Machine.execAonAlarm s
  | .alarmWrite port high w => Sys2Proof.Machine.execAlarmWrite port high w s
  | .wakeCauseWrite port w => Sys2Proof.Machine.execWakeCauseWrite port w s
  | .powerOnMinTick => Sys2Proof.Machine.execPowerOnMinTick s
  | .supplyMonitorTrip aon => Sys2Proof.Machine.execSupplyMonitorTrip aon s
  | .powerOnReset => Sys2Proof.Machine.execPowerOnReset s
  | .resetNLow => Sys2Proof.Machine.execResetNLow s
  | .resetNRise gpio => Sys2Proof.Machine.execResetNRise gpio s
  | .nvAppend port wpN w => Sys2Proof.Machine.execNvAppend port wpN w s
  | .nvRead port w => Sys2Proof.Machine.execNvRead port w s
  | .nvDelete port wpN w => Sys2Proof.Machine.execNvDelete port wpN w s
  | .rawRead port w => Sys2Proof.Machine.execRawRead port w s
  | .nvProgram port wpN jmpN w => Sys2Proof.Machine.execNvProgram port wpN jmpN w s
  | .erase4k port wpN jmpN w => Sys2Proof.Machine.execErase4k port wpN jmpN w s
  | .erase64k port wpN jmpN w => Sys2Proof.Machine.execErase64k port wpN jmpN w s
  | .flashOpDone wpN => Sys2Proof.Machine.execFlashOpDone wpN s
  | .flashTimeout => Sys2Proof.Machine.execFlashTimeout s
  | .nvSave port wpN w => Sys2Proof.Machine.execNvSave port wpN w s
  | .nvScan wpN => Sys2Proof.Machine.execNvScan wpN s
  | .bufDataAccess port wr => Sys2Proof.Machine.execBufDataAccess port wr s
  | .ageDataRead port => Sys2Proof.Machine.execAgeDataRead port s
  | .bootAttempt jedec => Sys2Proof.Machine.execBootAttempt jedec s
  | .dramTrainDone mask => Sys2Proof.Machine.execDramTrainDone mask s
  | .bootOk w => Sys2Proof.Machine.execBootOk w s
  | .bootTimeout => Sys2Proof.Machine.execBootTimeout s
  | .sramTurn result => Sys2Proof.Machine.execSramTurn result s
  | .dramTurn result => Sys2Proof.Machine.execDramTurn result s
  | .lutTurn result => Sys2Proof.Machine.execLutTurn result s
  | .perturbWrite port off w => Sys2Proof.Machine.execPerturbWrite port off w s
  | .perturbStop port w => Sys2Proof.Machine.execPerturbStop port w s
  | .extest pins dr => Sys2Proof.Machine.execExtest pins dr s
  | .samplePreload pins dr => Sys2Proof.Machine.execSamplePreload pins dr s
  | .idcode dr => Sys2Proof.Machine.execIdcode dr s
  | .clamp dr => Sys2Proof.Machine.execClamp dr s
  | .highz dr => Sys2Proof.Machine.execHighz dr s
  | .extestPulse pins dr => Sys2Proof.Machine.execExtestPulse pins dr s
  | .extestTrain pins dr => Sys2Proof.Machine.execExtestTrain pins dr s
  | .runbist dr => Sys2Proof.Machine.execRunbist dr s
  | .bistDone fail unit => Sys2Proof.Machine.execBistDone fail unit s
  | .bypass code dr => Sys2Proof.Machine.execBypass code dr s
  | .tapReset => Sys2Proof.Machine.execTapReset s
  | .casFsync lane block => Sys2Proof.Machine.execCasFsync lane block s
  | .casSeam lane block bytes => Sys2Proof.Machine.execCasSeam lane block bytes s
  | .casPos lane block => Sys2Proof.Machine.execCasPos lane block s
  | .casTrainRetry lane => Sys2Proof.Machine.execCasTrainRetry lane s
  | .ledStatToggle => Sys2Proof.Machine.execLedStatToggle s
  | .bcRxLock inverted => Sys2Proof.Machine.execBcRxLock inverted s
  | .pwrFailNHigh => Sys2Proof.Machine.execPwrFailNHigh s
  | .supplyBackInRange gpio => Sys2Proof.Machine.execSupplyBackInRange gpio s
  | .blPwmPulse => Sys2Proof.Machine.execBlPwmPulse s
  | .fsyncOutPulseEnd => Sys2Proof.Machine.execFsyncOutPulseEnd s
  | .hcmdDone => Sys2Proof.Machine.execHcmdDone s

end Sys2Proof.Machine
end

