-- ==== Sys2Proof/WellFormed.lean ====
section
/-! DEFINITION. Which commands are well formed: every index within its range (R369, R374 and the chapter of each
command). -/

namespace Sys2Proof

/-- A command whose operands lie within their ranges. -/
def Instr.wf : Instr → Bool
  | .frameBoundary => true
  | .outputLineStart _ => true
  | .rxBlock lane hdr _ => decide (lane < 106) && decide (hdr < 4)
  | .refcfgWrite port _ => decide (port < 4)
  | .refcfgPendingApply => true
  | .dfeUpdate lane _ _ => decide (lane < 106)
  | .adaptWindowEnd lane _ => decide (lane < 106)
  | .rxLockLost lane => decide (lane < 106)
  | .eiDetect lane => decide (lane < 106)
  | .eiClear lane => decide (lane < 106)
  | .esStart port lane _ => decide (port < 4) && decide (lane < 106)
  | .esDwellEnd lane _ => decide (lane < 106)
  | .lstateReqWrite port lane _ => decide (port < 4) && decide (lane < 106)
  | .laneTransitionDone lane => decide (lane < 106)
  | .prbsWrite port lane _ => decide (port < 4) && decide (lane < 106)
  | .prbsCheckerSync lane _ => decide (lane < 106)
  | .cntClr port page off _ => decide (port < 4) && decide (page < 4096) && decide (off < 4096)
  | .pip _ _ => true
  | .sleepRow _ => true
  | .wakeRow _ => true
  | .regionRow _ => true
  | .metaRow _ => true
  | .alnRow link _ _ => decide (link < 5)
  | .ts1Block link _ _ => decide (link < 5)
  | .idleRow _ => true
  | .controlRowIgnored _ => true
  | .misalignedRow => true
  | .linePacket _ _ _ => true
  | .tablePacket _ _ _ => true
  | .tableCommitDone => true
  | .lineWrite => true
  | .lineCopy => true
  | .lineDeadline => true
  | .regRd _ => true
  | .regWr _ => true
  | .wakeReq _ => true
  | .bcFrameDiscard _ => true
  | .trainCaps _ => true
  | .trainOk _ => true
  | .presetAck _ => true
  | .trainReady _ => true
  | .trainFail _ => true
  | .trainPhaseTimeout link => decide (link < 5)
  | .eqPresetMeasure link _ => decide (link < 5)
  | .linkTrainStart => true
  | .fastRetrainDone => true
  | .fastFail => true
  | .bcEvent => true
  | .islRetrain port _ => decide (port < 4)
  | .hpdPulse port _ => decide (port < 4)
  | .hpdPulseEnd => true
  | .metaPop port _ => decide (port < 4)
  | .latePip => true
  | .pipTimeout => true
  | .vrefEdge _ _ => true
  | .hrefEdge _ _ => true
  | .glLoss => true
  | .bfiDarkBand row _ => decide (row < 128)
  | .srefEnter port _ => decide (port < 4)
  | .srefExit port _ => decide (port < 4)
  | .srefRelease port _ => decide (port < 4)
  | .srefRetWake => true
  | .lutDataAccess port _ => decide (port < 4)
  | .lutLoad port _ => decide (port < 4)
  | .lutDone => true
  | .capStatusWrite port _ => decide (port < 4)
  | .statsRbDataRead port => decide (port < 4)
  | .rbSelWrite port _ => decide (port < 4)
  | .rbReady => true
  | .codecRbData1Read port => decide (port < 4)
  | .zoneRowSolve => true
  | .pcapWrite port _ => decide (port < 4)
  | .classDataAccess port _ => decide (port < 4)
  | .agDataAccess port _ => decide (port < 4)
  | .agCommit port _ => decide (port < 4)
  | .ageGainUpdate => true
  | .lvDataRead port => decide (port < 4)
  | .psfDataAccess port _ => decide (port < 4)
  | .psfCalc port _ => decide (port < 4)
  | .psfCalcDone => true
  | .clipDataRead port => decide (port < 4)
  | .celllutDataAccess port _ => decide (port < 4)
  | .checkStart port _ => decide (port < 4)
  | .checkDone => true
  | .coarseSetLoad => true
  | .defectDataAccess port _ => decide (port < 4)
  | .autoDataRead port => decide (port < 4)
  | .autoCtlClr port _ => decide (port < 4)
  | .odDataAccess port _ => decide (port < 4)
  | .odReinit port _ => decide (port < 4)
  | .adcConversion code => decide (code < 4096)
  | .thermRegionalUpdate => true
  | .thermCommit port _ => decide (port < 4)
  | .regDataAccess port _ => decide (port < 4)
  | .convDataAccess port _ => decide (port < 4)
  | .dithDataAccess port _ => decide (port < 4)
  | .syncFrame _ => true
  | .syncApply row _ => decide (row < 128)
  | .hcmdGo port _ => decide (port < 4)
  | .safeLevelWrite port _ => decide (port < 4)
  | .linkHoldWrite port _ => decide (port < 4)
  | .edlPoll bus => decide (bus < 16)
  | .statusResponse bus _ _ => decide (bus < 16)
  | .faultsResponse bus _ _ => decide (bus < 16)
  | .errcntResponse bus _ _ => decide (bus < 16)
  | .readbackResponse bus _ _ => decide (bus < 16)
  | .capsResponse bus _ _ => decide (bus < 16)
  | .noneResponse bus _ _ => decide (bus < 16)
  | .pollMiss bus _ _ => decide (bus < 16)
  | .edlTrainDone edlPort => decide (edlPort < 64)
  | .edlTrainTimeout edlPort => decide (edlPort < 64)
  | .edlTrainRetry edlPort => decide (edlPort < 64)
  | .portRetrain port edlPort _ => decide (port < 4) && decide (edlPort < 64)
  | .edlEnum port _ => decide (port < 4)
  | .prbsBurst edlPort _ => decide (edlPort < 64)
  | .groupBroadcast port group _ _ => decide (port < 4) && decide (group < 16)
  | .gateLine => true
  | .panelOn port _ => decide (port < 4)
  | .panelOff port _ => decide (port < 4)
  | .powerOnStep => true
  | .pgInRise => true
  | .pgFail => true
  | .autoOn => true
  | .powerOffStep => true
  | .pfail => true
  | .regionAlloc port _ => decide (port < 4)
  | .regionFree port _ => decide (port < 4)
  | .regionReqDone => true
  | .dramBeat engine handle _ _ _ _ _ _ => decide (engine < 16) && decide (handle < 64)
  | .c0Window => true
  | .dramRefresh ch _ => decide (ch < 32)
  | .mopSwitch => true
  | .scrubPage _ _ => true
  | .retireDone => true
  | .migrationTimeout engine handle _ _ => decide (engine < 16) && decide (handle < 64)
  | .fltResume port engine => decide (port < 4) && decide (engine < 16)
  | .fltSkip port engine => decide (port < 4) && decide (engine < 16)
  | .fltAbort port engine => decide (port < 4) && decide (engine < 16)
  | .retireCmd port _ => decide (port < 4)
  | .bulkGo port _ => decide (port < 4)
  | .bulkDone => true
  | .bulkWinAccess port index _ => decide (port < 4) && decide (index < 512)
  | .ownWrite port bank _ => decide (port < 4) && decide (bank < 48)
  | .handover bank _ => decide (bank < 48)
  | .clearDone bank => decide (bank < 48)
  | .winDataAccess port _ => decide (port < 4)
  | .applyGo port _ => decide (port < 4)
  | .validationDone => true
  | .chipRevert port _ => decide (port < 4)
  | .guaranteeVoidWrite port _ => decide (port < 4)
  | .softRst port page _ => decide (port < 4) && decide (page < 4096)
  | .lockWrite port page _ => decide (port < 4) && decide (page < 4096)
  | .irqSet port page _ => decide (port < 4) && decide (page < 4096)
  | .irqPendWrite port page _ => decide (port < 4) && decide (page < 4096)
  | .errCountRead port page => decide (port < 4) && decide (page < 4096)
  | .read64Low port addr => decide (port < 4) && decide (addr < 16777216)
  | .regWrite port addr _ => decide (port < 4) && decide (addr < 16777216)
  | .spiWrite addr _ => decide (addr < 16777216)
  | .spiQwrite addr _ => decide (addr < 16777216)
  | .spiRead addr _ => decide (addr < 16777216)
  | .spiQread addr _ => decide (addr < 16777216)
  | .spiStatus => true
  | .spiUnknownCommand code => decide (code < 256)
  | .i2cWrite addr _ => decide (addr < 16777216)
  | .i2cRead addr _ => decide (addr < 16777216)
  | .i2cTimeout => true
  | .tunnel lane _ => decide (lane < 4)
  | .tunnelTimeout => true
  | .ctlWdog => true
  | .ctlRestart port _ => decide (port < 4)
  | .ctlRestarted => true
  | .mboxNop => true
  | .mboxVersion => true
  | .mboxEcho => true
  | .mboxHostload => true
  | .mboxReboot => true
  | .mboxActivate => true
  | .mboxCommit => true
  | .mboxPawn => true
  | .mboxSlotInfo => true
  | .mboxCoarseStore => true
  | .mboxAgeLoad => true
  | .mboxRingFormat => true
  | .mboxUnknown => true
  | .presenceOpen => true
  | .presenceExpire => true
  | .presenceClose port _ => decide (port < 4)
  | .otpLockWrite port _ => decide (port < 4)
  | .xtalStable => true
  | .refclkWindow _ => true
  | .pllLock pll => decide (pll < 6)
  | .lockFail pll => decide (pll < 6)
  | .xtalFail => true
  | .pixRefHold => true
  | .lockLoss pll => decide (pll < 6)
  | .xtalLoss => true
  | .clkCfgWrite port _ => decide (port < 4)
  | .clkSwitchDone mux => decide (mux < 4)
  | .swForced mux => decide (mux < 4)
  | .swFail mux => decide (mux < 4)
  | .swForcedWrite port _ => decide (port < 4)
  | .aonTrimWindow _ => true
  | .clockGateClose page => decide (page < 4096)
  | .domainReqWrite port dom _ => decide (port < 4) && decide (dom < 95)
  | .domainDrainDone dom => decide (dom < 95)
  | .domainTransitionDone dom _ => decide (dom < 95)
  | .domainAborted dom => decide (dom < 95)
  | .padRelease port _ => decide (port < 4)
  | .opCfgWrite port _ => decide (port < 4)
  | .vserWrite port _ => decide (port < 4)
  | .avsPoll _ _ => true
  | .avsFail _ => true
  | .gpioWakeEdge gpio => decide (gpio < 4)
  | .aonAlarm => true
  | .alarmWrite port _ _ => decide (port < 4)
  | .wakeCauseWrite port _ => decide (port < 4)
  | .powerOnMinTick => true
  | .supplyMonitorTrip _ => true
  | .powerOnReset => true
  | .resetNLow => true
  | .resetNRise gpio => decide (gpio < 16)
  | .nvAppend port _ _ => decide (port < 4)
  | .nvRead port _ => decide (port < 4)
  | .nvDelete port _ _ => decide (port < 4)
  | .rawRead port _ => decide (port < 4)
  | .nvProgram port _ _ _ => decide (port < 4)
  | .erase4k port _ _ _ => decide (port < 4)
  | .erase64k port _ _ _ => decide (port < 4)
  | .flashOpDone _ => true
  | .flashTimeout => true
  | .nvSave port _ _ => decide (port < 4)
  | .nvScan _ => true
  | .bufDataAccess port _ => decide (port < 4)
  | .ageDataRead port => decide (port < 4)
  | .bootAttempt jedec => decide (jedec < 16777216)
  | .dramTrainDone mask => decide (mask < 8)
  | .bootOk _ => true
  | .bootTimeout => true
  | .sramTurn result => decide (result < 3)
  | .dramTurn result => decide (result < 3)
  | .lutTurn result => decide (result < 3)
  | .perturbWrite port off _ => decide (port < 4) && decide (off < 4096)
  | .perturbStop port _ => decide (port < 4)
  | .extest _ _ => true
  | .samplePreload _ _ => true
  | .idcode _ => true
  | .clamp _ => true
  | .highz _ => true
  | .extestPulse _ _ => true
  | .extestTrain _ _ => true
  | .runbist _ => true
  | .bistDone _ unit => decide (unit < 256)
  | .bypass code _ => decide (code < 256)
  | .tapReset => true
  | .casFsync lane _ => decide (lane < 4)
  | .casSeam lane _ _ => decide (lane < 4)
  | .casPos lane _ => decide (lane < 4)
  | .casTrainRetry lane => decide (lane < 4)
  | .ledStatToggle => true
  | .bcRxLock _ => true
  | .pwrFailNHigh => true
  | .supplyBackInRange gpio => decide (gpio < 16)
  | .blPwmPulse => true
  | .fsyncOutPulseEnd => true
  | .hcmdDone => true

end Sys2Proof
end

