-- ==== Sys2Proof/Safety.lean ====
section
/-! DEFINITION. What counts as a safe run, in the terms of the claims. -/

namespace Sys2Proof.Machine

/-- A command is answered with a next state. -/
def Answers (c : Instr) (s : State) : Prop := ∃ t, exec c s = .next t

/-- The codes for which BYPASS is refused: those of private instructions, while they are unlocked (R466). -/
def Private (c : Instr) (s : State) : Prop := ∃ code dr, c = .bypass code dr ∧ s.tapPrivate code = true

/-- Nothing of the M960 runs: no output frame, no configuration being applied, no source frame, no port or partner, no
region, no lane that moves, no presence window, no read latched. (The stage RAM of STATS may hold anything: RUNBIST, which
acts in reset, leaves it undefined.) -/
structure Quiet (s : State) : Prop where
  frames : s.tim = TimState.atReset
  refresh : s.srf = SrefState.atReset
  applying : s.chip = ChipState.atReset
  store : s.sto = StoreState.atReset
  stats : s.sta = { StatsState.atReset with done := s.sta.done }
  lines : s.path = PathState.atReset
  driver : s.edl = EdlState.atReset
  cascade : s.cas = CasState.atReset
  regions : s.mem.regions = []
  queue : s.mem.queue = []
  lanes : s.phy = PhyState.atReset
  window : s.sec = SecState.atReset
  latches : s.host = HostState.atReset
  phase : s.boot.phase = 0

/-- While the M960 is held in reset, nothing of it runs (R429, R452). -/
def HeldQuiet (s : State) : Prop := s.boot.resetLow = true → Quiet s

/-- The commands that act while the M960 is held in reset: the resets and supplies themselves, the level of PWR_FAIL_N,
and the TAP (R429, R452, R466, R486). Every other command waits for its release. -/
def actsInReset : Instr → Bool
  | .supplyMonitorTrip _ | .powerOnReset | .resetNLow | .resetNRise _ | .supplyBackInRange _ | .pfail | .pwrFailNHigh
  | .extest _ _ | .samplePreload _ _ | .idcode _ | .clamp _ | .highz _ | .extestPulse _ _ | .extestTrain _ _
  | .runbist _ | .bistDone _ _ | .bypass _ _ | .tapReset => true
  | _ => false

/-- The memories are in their one canonical form: the cells of the DRAM, of the SRAM banks and of the flash rise, and none
holds what an unlisted one reads as. -/
def Memory.wf (s : State) : Bool :=
  Cells.wf s.dramInit s.dram && Cells.wf (sramDefault s.mem.bankGens) s.sram &&
    Cells.wf flashDefault s.nv.flash

/-- A page whose unit serves an access: the M960 is out of reset, the unit is unlocked, its clock gate open, its domain
ON and its register clock in range (R372, R407, R409, R422). -/
structure State.Serves (s : State) (u : Unit) (p : Nat) : Prop where
  live : s.boot.resetLow = false
  unit : unitOfPage p = some u
  unlocked : s.rd (Reg.HDR_LOCK (hdrPage p)) = 0
  gate : s.gateClosed p = false
  power : s.unitPowered u p = true
  clock : s.regClockBad u = false

end Sys2Proof.Machine
end

