-- ==== Sys2Proof/Certificates/Slice0/Obligations.lean ====
section
/-! DEFINITION. The statements about the M960, each after rules of its spec. -/

open Sys2Proof Sys2Proof.Machine

/-! The block as a whole. -/

/-- A step takes the command at the front of the queue and runs it on the queue's rest. -/
def Obligations.StepRunsFront : Prop :=
  ∀ (s : State) (c : Instr) (rest : List Instr), s.pending = c :: rest → step s = exec c { s with pending := rest }

/-- On an empty queue one AONOSC tick passes, which TIMEBASE counts and nothing else notices (the model's choice, log
entry 1; the tick and the count are R394's and R410's). -/
def Obligations.IdleStepIsOneTick : Prop :=
  ∀ s : State, s.pending = [] → ∃ t, step s = .next t ∧ t.now = s.now + 64000 ∧
    t = { s with now := t.now, regs := t.regs, clk := t.clk } ∧
    (∀ a, a ≠ Reg.AON_TIMEBASE → a ≠ Reg.AON_TIMEBASE_HI → t.rd a = s.rd a) ∧
    (s.clk.tbFrac < 2 ^ 32 →
      (s.rd Reg.AON_TIMEBASE).toNat + 2 ^ 32 * (s.rd Reg.AON_TIMEBASE_HI).toNat + 1 < 2 ^ 64 →
      ((t.rd Reg.AON_TIMEBASE).toNat + 2 ^ 32 * (t.rd Reg.AON_TIMEBASE_HI).toNat) * 2 ^ 32 + t.clk.tbFrac =
        ((s.rd Reg.AON_TIMEBASE).toNat + 2 ^ 32 * (s.rd Reg.AON_TIMEBASE_HI).toNat) * 2 ^ 32 + s.clk.tbFrac
          + (s.rd Reg.CLK_TB_INC).toNat)

/-- Whatever a command does, the commands behind it stay in their order, and time does not go back. -/
def Obligations.StepKeepsQueueAndTime : Prop :=
  ∀ s t : State, step s = .next t → t.pending = s.pending.tail ∧ s.now ≤ t.now

/-- Every command is answered with a next state, but for BYPASS with the code of a private TAP instruction while private
instructions are unlocked, which is refused by that name (R466 says nothing of what they do). -/
def Obligations.OnlyPrivateStops : Prop :=
  ∀ (c : Instr) (s : State), (¬ Private c s → ∃ t, exec c s = .next t) ∧
    (Private c s → exec c s = .refused .privateInstruction)

/-- While the M960 is held in reset, only the resets and supplies, the level of PWR_FAIL_N and the TAP act. -/
def Obligations.HeldInReset : Prop :=
  ∀ (c : Instr) (s : State), s.boot.resetLow = true → actsInReset c = false → exec c s = .next s

/-- That a machine held in reset is quiet is kept by every step, from any state in which it holds. -/
def Obligations.HeldQuietKept : Prop := ∀ s t : State, HeldQuiet s → step s = .next t → HeldQuiet t

/-- Every step keeps the memories in their one canonical form, from any state in which they have it, so that equal
contents of the DRAM, of the SRAM banks and of the flash are equal data. -/
def Obligations.MemoriesStayCanonical : Prop :=
  ∀ s t : State, Memory.wf s = true → step s = .next t → Memory.wf t = true

/-- The machine after reset is out of reset and quiet, its memories are canonical, and nothing waits for it. -/
def Obligations.ResetIsHeldQuiet : Prop :=
  State.reset.boot.resetLow = false ∧ Quiet State.reset ∧ HeldQuiet State.reset ∧ Memory.wf State.reset = true ∧
    State.reset.pending = []


/-! Registers. -/

/-- R372. A write of 0x4C4F434B to LOCK locks a unit, of 0x554E4C4B unlocks it, any other is ignored. While it is locked
every write to its page but those of IRQ_EN, IRQ_PEND and LOCK is ignored and counted with code 0x01, whatever the clock
gate and the domain. Reset unlocks every unit. -/
def Obligations.LockStops : Prop :=
  (∀ (s : State) (u : Machine.Unit) (p port : Nat), s.boot.resetLow = false → unitOfPage p = some u →
    s.unitPowered u p = true →
      exec (.lockWrite port p 0x4C4F434B#32) s = .next (s.wr (Reg.HDR_LOCK (hdrPage p)) 1) ∧
      exec (.lockWrite port p 0x554E4C4B#32) s = .next (s.wr (Reg.HDR_LOCK (hdrPage p)) 0) ∧
      (∀ w, w ≠ 0x4C4F434B#32 → w ≠ 0x554E4C4B#32 → exec (.lockWrite port p w) s = .next s)) ∧
  (∀ (s : State) (u : Machine.Unit) (p off port : Nat) (w : Word), s.boot.resetLow = false → unitOfPage p = some u →
    off < 0x1000 → off % 4 = 0 → off ≠ 0x014 → off ≠ 0x018 → off ≠ 0x02C →
    s.rd (Reg.HDR_LOCK (hdrPage p)) ≠ 0 →
      exec (.regWrite port (p * 0x1000 + off) w) s = .next (s.err (hdrPage p) 1)) ∧
  (∀ p, State.reset.rd (Reg.HDR_LOCK p) = 0) ∧
  (∀ s : State, ∃ t, exec .resetNLow s = .next t ∧ ∀ p u, unitOfPage p = some u → t.rd (Reg.HDR_LOCK (hdrPage p)) = 0)

/-- Units all of whose registers are plain: a write stores, and does nothing else. -/
def plainUnits : List Machine.Unit := [.TIMING, .GENLOCK, .STATS, .FIELD, .SPLIT, .GATE, .SCHED]

/-- R7 and R8 on the units whose registers are plain. A write stores the RW bits of a register, into the shadow where it
is /F, so that the value in force stays, and clears the W1C bits written 1. It changes nothing else. -/
def Obligations.PlainWritesStore : Prop :=
  ∀ (s : State) (u : Machine.Unit) (off port : Nat) (w : Word) (r : RegRow), u ∈ plainUnits → s.Serves u u.page →
    0x40 ≤ off → off < 0x1000 → off % 4 = 0 → rowAt u off = some r → r.act = 0 → r.rw ≠ 0 ∨ r.w1c ≠ 0 →
    r.p = false ∨ s.presenceOpen = true →
      exec (.regWrite port (u.page * 0x1000 + off) w) s = .next (s.wr (u.page * 0x1000 + off)
        (((s.rd (u.page * 0x1000 + off) &&& ~~~BitVec.ofNat 32 r.rw) ||| (w &&& BitVec.ofNat 32 r.rw))
          &&& ~~~(w &&& BitVec.ofNat 32 r.w1c)))

/-- R373. An error sets ERR_CODE to its code and counts in ERR_COUNT, which sticks at all ones; no other register
changes. On the same units a write of an RO register records 0x02, and an access to an offset that the unit does not
name 0x03, a read answering 0. -/
def Rules.ErrorsAreRecorded : Prop :=
  (∀ (s : State) (p code : Nat), code < 2 ^ 32 →
    (s.err p code).rd (Reg.HDR_ERR_CODE (hdrPage p)) = BitVec.ofNat 32 code ∧
    ((s.err p code).rd (Reg.HDR_ERR_COUNT (hdrPage p))).toNat
      = min (2 ^ 32 - 1) ((s.rd (Reg.HDR_ERR_COUNT (hdrPage p))).toNat + 1) ∧
    (∀ a, a ≠ Reg.HDR_ERR_CODE (hdrPage p) → a ≠ Reg.HDR_ERR_COUNT (hdrPage p) → (s.err p code).rd a = s.rd a) ∧
    s.err p code = { s with regs := (s.err p code).regs }) ∧
  (∀ (s : State) (u : Machine.Unit) (off port : Nat) (w : Word) (r : RegRow), u ∈ plainUnits → s.Serves u u.page →
    0x40 ≤ off → off < 0x1000 → off % 4 = 0 → rowAt u off = some r → r.rw = 0 → r.w1c = 0 → r.act = 0 →
      exec (.regWrite port (u.page * 0x1000 + off) w) s = .next (s.err u.page 2)) ∧
  (∀ (s : State) (u : Machine.Unit) (off port : Nat) (w : Word), u ∈ plainUnits → s.Serves u u.page →
    0x30 ≤ off → off < 0x1000 → off % 4 = 0 → rowAt u off = none →
      exec (.regWrite port (u.page * 0x1000 + off) w) s = .next (s.err u.page 3) ∧
      exec (.read64Low port (u.page * 0x1000 + off)) s = .next ((s.err u.page 3).emit .hostData port [0]))

/-- R7. A read of ERR_COUNT answers its value and clears it in the same access. R374: a page that no unit occupies
ignores writes and reads 0, and records nothing. -/
def Rules.ErrCountReadClears : Prop :=
  (∀ (s : State) (u : Machine.Unit) (p port : Nat), s.boot.resetLow = false → unitOfPage p = some u → s.unitPowered u p = true →
    exec (.errCountRead port p) s = .next ((s.wr (Reg.HDR_ERR_COUNT (hdrPage p)) 0).emit .hostData port
      [(s.rd (Reg.HDR_ERR_COUNT (hdrPage p))).toNat])) ∧
  (∀ (s : State) (p off port : Nat) (w : Word), s.boot.resetLow = false → p < 0x800 → off < 0x1000 →
    off % 4 = 0 → unitOfPage p = none →
      exec (.regWrite port (p * 0x1000 + off) w) s = .next s ∧
      exec (.read64Low port (p * 0x1000 + off)) s = .next (s.emit .hostData port [0]))

/-- The 64-bit registers: TIMEBASE, ALARM, PROBE_WORD, and ES_UI of every lane that has one (R57, R234, R431). -/
def isWide (a : Nat) : Prop :=
  a = Reg.AON_TIMEBASE ∨ a = Reg.AON_ALARM ∨ a = Reg.PATCH_PROBE_WORD ∨
    ∃ l, l < laneCount ∧ phyApplies l 0x40 = true ∧ a = Reg.PHY_ES_UI (phyBase l)

/-- R10. A read of the low half of a 64-bit register latches the high half for its port; the next read of the high half
by that port answers the latched value, whatever the register holds by then, and takes the latch; with nothing latched it
answers the live value. The latches of the other ports stay. -/
def Obligations.LowHalfLatches : Prop :=
  ∀ (s : State) (u : Machine.Unit) (port a : Nat), isWide a → s.Serves u (a / 0x1000) →
    (∃ t, exec (.read64Low port a) s = .next t ∧
      t = { s with host := t.host, out := ⟨.hostData, port, [(s.rd a).toNat]⟩ :: s.out } ∧
      Cells.get (fun _ => none) t.host.latch port = some (a + 4, s.rd (a + 4)) ∧
      (∀ q, q ≠ port → Cells.get (fun _ => none) t.host.latch q = Cells.get (fun _ => none) s.host.latch q)) ∧
    (∀ v, Cells.get (fun _ => none) s.host.latch port = some (a + 4, v) →
      ∃ t, exec (.read64Low port (a + 4)) s = .next t ∧
        t = { s with host := t.host, out := ⟨.hostData, port, [v.toNat]⟩ :: s.out } ∧
        Cells.get (fun _ => none) t.host.latch port = none) ∧
    (Cells.get (fun _ => none) s.host.latch port = none →
      exec (.read64Low port (a + 4)) s = .next (s.emit .hostData port [(s.rd (a + 4)).toNat]))

/-- R384 and R21. A write of 1 to a bit of IRQ_PEND clears that bit of IRQ_RAW; one to IRQ_SET sets it, where the page
has that event, and nothing else but the event log follows. GUARANTEE_VOID is cleared by a write of 1 unless a
perturbation of class-0 traffic is still enabled. -/
def Rules.EventBits : Prop :=
  (∀ (s : State) (u : Machine.Unit) (p port : Nat) (w : Word), s.boot.resetLow = false → unitOfPage p = some u →
    s.unitPowered u p = true →
      exec (.irqPendWrite port p w) s
        = .next (s.wr (Reg.HDR_IRQ_RAW (hdrPage p)) (s.rd (Reg.HDR_IRQ_RAW (hdrPage p)) &&& ~~~w))) ∧
  (∀ (s : State) (u : Machine.Unit) (p port : Nat) (w : Word), s.boot.resetLow = false → unitOfPage p = some u →
    s.unitPowered u p = true → s.rd (Reg.HDR_LOCK (hdrPage p)) = 0 → u ≠ .EDL_GRP →
      ∃ t, exec (.irqSet port p w) s = .next t ∧
        t.rd (Reg.HDR_IRQ_RAW (hdrPage p)) = s.rd (Reg.HDR_IRQ_RAW (hdrPage p)) ||| (w &&& BitVec.ofNat 32 u.irqMask) ∧
        (∀ a, a ≠ Reg.HDR_IRQ_RAW (hdrPage p) → t.rd a = s.rd a) ∧
        t = { s with regs := t.regs, nv := { s.nv with log := t.nv.log }, isl := { s.isl with rises := t.isl.rises } }) ∧
  (∀ (s : State) (port : Nat) (w : Word), s.Serves .CHIP 0 → w.toNat % 2 = 1 →
    exec (.guaranteeVoidWrite port w) s
      = .next (if s.c0Injected then s else s.wr Reg.CHIP_GUARANTEE_VOID 0))

/-- R371. SOFT_RST returns the block registers and the internal state of a unit to their reset values, in a pixel-path
unit at the next frame boundary; the header is not reset. Said of GENLOCK, which waits, and of SCHED, which does not. -/
def Rules.SoftReset : Prop :=
  (∀ (s : State) (port : Nat) (w : Word), s.Serves .SCHED 0x112 →
    ∃ t, exec (.softRst port 0x112 w) s = .next t ∧
      (∀ off, 0x40 ≤ off → off < 0x1000 → t.rd (0x112000 + off) = resetWord (0x112000 + off)) ∧
      (∀ off, off < 0x40 → off ≠ 0x008 → off ≠ 0x00C → t.rd (0x112000 + off) = s.rd (0x112000 + off)) ∧
      t = { s with
        regs := t.regs, act := t.act, clk := t.clk, nv := { s.nv with log := t.nv.log }
        isl := { s.isl with rises := t.isl.rises } }) ∧
  (∀ (s : State) (port : Nat) (w : Word), s.Serves .GENLOCK 0x31 →
    ∃ t, exec (.softRst port 0x31 w) s = .next t ∧ 0x31 ∈ t.soft ∧
      (∀ off, 0x40 ≤ off → off < 0x1000 → t.rd (0x31000 + off) = s.rd (0x31000 + off)) ∧
      t = { s with
        regs := t.regs, soft := t.soft, clk := t.clk, nv := { s.nv with log := t.nv.log }
        isl := { s.isl with rises := t.isl.rises } })

/-- R382. APPLY.GO copies every shadow into the applying set and starts the validator, a later GO in its place. The
validator's end accepts the set, which then waits for the frame boundary, or rejects it, names the first failure, counts
it and raises REJECT. REVERT is ignored and counted in ERR_COUNT while a set is being applied. -/
def Obligations.ApplyAndRevert : Prop :=
  (∀ (s : State) (port : Nat) (w : Word), s.Serves .CHIP 0 →
    exec (.applyGo port w) s = .next (({ s with chip := { s.chip with applying := some s.shadows } }
      |>.put Reg.CHIP_APPLY_VALIDATING 1).put Reg.CHIP_APPLY_WAITING 0)) ∧
  (∀ (s : State) (set : ApplySet), s.boot.resetLow = false → s.chip.applying = some set →
    s.flag Reg.CHIP_APPLY_VALIDATING = true →
      (∀ t, t = s.put Reg.CHIP_APPLY_VALIDATING 0 → t.validate set = none → s.pat.coarseDue = false →
        exec .validationDone s = .next { (t.wr Reg.CHIP_CONFIG_REJECT 0).put Reg.CHIP_APPLY_WAITING 1 with
          chip := { s.chip with applying := some { set with accepted := true } } }) ∧
      (∀ t code page index, t = s.put Reg.CHIP_APPLY_VALIDATING 0 → t.validate set = some (code, page, index) →
        s.pat.coarseDue = false →
        exec .validationDone s = .next ((({ t with chip := { s.chip with applying := none } } : State).wrN
          Reg.CHIP_CONFIG_REJECT (code + 2 ^ 8 * (page % 4096) + 2 ^ 20 * (index % 4096))
            |>.bump Reg.CHIP_REJECT_CNT).raise 0 1))) ∧
  (∀ (s : State) (port : Nat) (w : Word), s.Serves .CHIP 0 → w.toNat % 2 = 1 →
    (s.chip.applying.isSome = true → exec (.chipRevert port w) s = .next (s.put (wholeFld (Reg.HDR_ERR_COUNT 0))
      (min (2 ^ 32 - 1) ((s.rd (Reg.HDR_ERR_COUNT 0)).toNat + 1)))) ∧
    (s.chip.applying = none → Cells.wf resetWord s.act = true → ∃ t, exec (.chipRevert port w) s = .next t ∧
      (∀ a, isShadow a = true → t.rd a = s.rdA a) ∧ (∀ a, isShadow a = false → t.rd a = s.rd a) ∧
      t = { s with regs := t.regs, zon := { s.zon with classPend := s.zon.classAct } }))


/-! The host ports (R376 to R381, R477). -/

/-- R376 to R378. A serial write stores each complete word at the next word's address, in order; the bytes of an
incomplete word are discarded, counted in SPI_PARTIAL or I2C_PARTIAL, and quad-SPI keeps DISCARD for the next STATUS. -/
def Rules.SerialWrites : Prop :=
  ∀ (s : State) (addr : Nat) (ws : List Word) (rest : List Byte), s.boot.resetLow = false → rest.length < 4 →
    (let bytes := ws.flatMap (fun w => (msbBytes w).map (BitVec.ofNat 8)) ++ rest
     let t := fun port => s.each ws.zipIdx (fun x s => s.hostWrite port (addr + 4 * x.2) x.1)
     let q : State := if rest = [] then t 0 else
        { ((t 0).bump Reg.HOSTIF_SPI_PARTIAL).raise 4 1 with host := { (t 0).host with discard := true } }
     (∃ u, exec (.spiWrite addr bytes) s = .next u ∧ u.regs = q.regs ∧ u.act = q.act ∧ u.out = q.out ∧ u.host = q.host) ∧
     exec (.spiQwrite addr bytes) s = exec (.spiWrite addr bytes) s ∧
     (∃ u, exec (.i2cWrite addr bytes) s = .next u ∧
       u.regs = (if rest = [] then t 1 else ((t 1).bump Reg.HOSTIF_I2C_PARTIAL).raise 4 1).regs ∧ u.out = (t 1).out ∧
       u.host = (t 1).host))

/-- R377 and R378. A serial read of whole words answers them one after the other from the address on, quad-SPI after its
start byte 0xA5; the STATUS byte shows WBUSY, DISCARD and TREE_MISS and clears the last two; any other command byte is ignored. Said of
the read-only words CHIP.DEVICE_ID and PRODUCT. -/
def Rules.SerialReads : Prop :=
  ∀ s : State, s.Serves .CHIP 0 → Cells.get (fun _ => none) s.host.latch 0 = none →
    Cells.get (fun _ => none) s.host.latch 1 = none →
    exec (.spiRead 0x40 4) s
      = .next ((s.emit .spiByte 0 [0xA5]).emit .hostData 0 [(s.rd 0x40).toNat]) ∧
    exec (.spiQread 0x40 4) s = exec (.spiRead 0x40 4) s ∧
    exec (.i2cRead 0x40 4) s = .next (s.emit .hostData 1 [(s.rd 0x40).toNat]) ∧
    exec .spiStatus s = .next { s.emit .spiByte 0 [b2n (s.cas.tunnels.any (fun r => r.port == 0 && r.wr.isSome))
        + 2 * b2n s.host.discard + 4 * b2n s.host.treeMiss] with
      host := { s.host with discard := false, treeMiss := false } } ∧
    ∀ code, exec (.spiUnknownCommand code) s = .next s

/-- R377, R378 and R477. An RC register clears only when its whole word has left: a quad-SPI read cut short, and an I2C
read whose last byte is not acknowledged, leave ERR_COUNT as it was. An access that waits is given up: over I2C after
100 µs its word leaves as 0, and I2C_TIMEOUT counts; after 2 ms it is dropped, and TUNNEL_TIMEOUT and TREE_MISS count. -/
def Rules.CutReadsAndTimeouts : Prop :=
  (∀ (s : State) (n : Nat), s.Serves .CHIP 0 → 0 < n → n < 4 →
    ∃ t u, exec (.spiRead 0x24 n) s = .next t ∧ t.rd 0x24 = s.rd 0x24 ∧
      t.out = ⟨.spiByte, 0, (msbBytes (s.rd 0x24)).take n⟩ :: ⟨.spiByte, 0, [0xA5]⟩ :: s.out ∧
      exec (.i2cRead 0x24 4) s = .next u ∧ u.rd 0x24 = s.rd 0x24 ∧ u.out = ⟨.hostData, 1, [(s.rd 0x24).toNat]⟩ :: s.out) ∧
  (∀ (s : State) (q : TunnelReq) (rest : List TunnelReq), s.boot.resetLow = false → s.cas.tunnels = q :: rest →
    (q.port = 1 → q.wr = none → rest.all (fun x => x.tag != q.tag) = true → s.now ≤ q.since + 25600000 →
      ∃ t, exec .i2cTimeout s = .next t ∧ t.now = q.since + 25600000 ∧ t.cas.tunnels = rest ∧
        t.fld (wholeFld Reg.HOSTIF_I2C_TIMEOUT) = min (2 ^ 32 - 1) (s.fld (wholeFld Reg.HOSTIF_I2C_TIMEOUT) + 1) ∧
        t.out = ⟨.hostData, 1, [0]⟩ :: s.out) ∧
    (rest.all (fun x => x.tag != q.tag) = true → s.now ≤ q.since + 512000000 →
      ∃ t, exec .tunnelTimeout s = .next t ∧ t.now = q.since + 512000000 ∧ t.cas.tunnels = rest ∧
        t.fld (wholeFld Reg.CAS_TUNNEL_TIMEOUT) = min (2 ^ 32 - 1) (s.fld (wholeFld Reg.CAS_TUNNEL_TIMEOUT) + 1) ∧
        t.fld (wholeFld Reg.HOSTIF_TREE_MISS) = min (2 ^ 32 - 1) (s.fld (wholeFld Reg.HOSTIF_TREE_MISS) + 1)))

/-- A control block that comes whole: its CTYPE, and its body (R65). -/
def carries (block : List Byte) (ctype : Nat) (b : List Byte) : Prop :=
  blockGood block = true ∧ byteAt block 0 = ctype ∧ b = (blockBody block).2

/-- R380 and R477. With DEPTH 0 the member window is closed: it reads 0 and ignores writes. A TUNNEL block with hops left
is passed on with one hop less: an access east from the west and south otherwise, a reply west while that lane is UP and
else north. One whose hops are spent is served here, a read being answered by a reply block, and a reply reaches the port
that waits for its TAG. -/
def Obligations.WindowAndTunnel : Prop :=
  (∀ (s : State) (port a : Nat) (w : Word), s.boot.resetLow = false → 0x800000 ≤ a → a < 0x1000000 → a % 4 = 0 →
    s.rd (perPort port Reg.HOSTIF_TREE_SEL) = 0 →
      exec (.regWrite port a w) s = .next s ∧ exec (.read64Low port a) s = .next (s.emit .hostData port [0])) ∧
  (∀ (s : State) (k : Nat) (block b : List Byte), s.boot.resetLow = false → s.laneCarries (laneCasRx k) = true →
    s.casUp k = true → carries block rowTUNNEL b → 0 < byteAt b 5 % 16 →
      (byteAt b 1 = 1 ∨ byteAt b 1 = 2 → exec (.tunnel k block) s = .next (s.tunnelSend (if k = 2 ∧ s.casUp 0 then 0 else 1)
        (byteAt b 0) (byteAt b 1) (leField b 2 3) (byteAt b 5 % 16 - 1) 0 (BitVec.ofNat 32 (leField b 6 4)))) ∧
      (byteAt b 1 = 3 ∨ byteAt b 1 = 4 → exec (.tunnel k block) s = .next (s.tunnelSend (if s.casUp 2 then 2 else 3)
        (byteAt b 0) (byteAt b 1) (leField b 2 3) (byteAt b 5 % 16 - 1) 0 (BitVec.ofNat 32 (leField b 6 4))))) ∧
  (∀ (s : State) (k : Nat) (block b : List Byte), s.Serves .CHIP 0 → s.laneCarries (laneCasRx k) = true →
    s.casUp k = true → carries block rowTUNNEL b → byteAt b 5 % 16 = 0 →
      (byteAt b 1 = 1 → leField b 2 3 = 0x40 → Cells.get (fun _ => none) s.host.latch 0 = none →
        exec (.tunnel k block) s = .next
          (s.tunnelSend k (byteAt b 0) 3 0x40 (s.fld Reg.CAS_POS_X + s.fld Reg.CAS_POS_Y - 1) 0 (s.rd 0x40))) ∧
      (∀ q rest, byteAt b 1 = 3 → s.cas.tunnels = q :: rest → q.tag = byteAt b 0 → rest.all (fun x => x.tag != q.tag) = true →
        q.port = 0 → q.wr = none → q.addr % 0x1000 ≠ 4 →
          exec (.tunnel k block) s = .next (({ s with cas := { s.cas with tunnels := rest } } : State).emit .hostData 0
            [leField b 6 4])))

/-! The control core, its mailbox and the presence window (R386 to R392, R445, R460 to R462). -/

/-- R386 and R387. A restart, whether asked for or by the watchdog, counts in RESTARTS, records its cause, leaves STATE at
RESTARTING, and ends the command in the mailbox with status RESTARTED; the watchdog also raises WDOG. When the core runs
again from an intact image, RESTARTED is raised and STATE reads RUNNING. -/
def Rules.CoreRestarts : Prop :=
  (∀ (s : State) (port : Nat) (w : Word), s.Serves .CTL 9 → s.fld Reg.CTL_STATE_STATE ≠ 2 →
    ∃ t, exec (.ctlRestart port w) s = .next t ∧ t.fld Reg.CTL_STATE_STATE = 1 ∧ t.fld Reg.CTL_STATE_CAUSE = 2 ∧
      t.fld (wholeFld Reg.CTL_RESTARTS) = min (2 ^ 32 - 1) (s.fld (wholeFld Reg.CTL_RESTARTS) + 1) ∧
      (s.flag Reg.CTL_RSP_BUSY = true → t.fld Reg.CTL_RSP_STATUS = 4 ∧ t.flag Reg.CTL_RSP_BUSY = false ∧
        t.flag Reg.CTL_RSP_DONE = true) ∧
      t = { s with regs := t.regs, out := t.out, boot := t.boot, inp := { s.inp with load := t.inp.load },
                   nv := { s.nv with log := t.nv.log }, isl := { s.isl with rises := t.isl.rises } }) ∧
  (∀ s : State, s.boot.resetLow = false → s.flag Reg.CTL_WDOG_EN = true → s.domOn 1 = true → s.gateClosed 9 = false →
    s.fld Reg.CTL_STATE_STATE ≠ 2 → s.boot.phase = 3 →
    ∃ t, exec .ctlWdog s = .next t ∧ t.fld Reg.CTL_STATE_STATE = 1 ∧ t.fld Reg.CTL_STATE_CAUSE = 1 ∧
      t.fld ⟨Reg.HDR_IRQ_RAW 9, 0, 1⟩ = 1 ∧
      t.fld (wholeFld Reg.CTL_RESTARTS) = min (2 ^ 32 - 1) (s.fld (wholeFld Reg.CTL_RESTARTS) + 1)) ∧
  (∀ (s : State) (n crc v : Nat), s.boot.resetLow = false → s.fld Reg.CTL_STATE_STATE = 1 → s.gateClosed 9 = false →
    s.boot.phase = 2 ∨ s.boot.phase = 3 → s.boot.img = some (n, crc, v) → crc32 (s.readB32 n) = crc →
    ∃ t, exec .ctlRestarted s = .next t ∧ t.fld Reg.CTL_STATE_STATE = 0 ∧ t.fld ⟨Reg.HDR_IRQ_RAW 9, 2, 1⟩ = 1)

/-- R387. A command written to MBOX_CMD makes its port the owner and sets BUSY; while BUSY is 1 another one is dropped and
counted. The core ends a command with its status, sets DONE and raises MBOX_DONE; NOP and ECHO answer OK and leave every
ARG as it was, a code that no service has answers UNKNOWN, VERSION gives the firmware's version and the active slot. -/
def Rules.MailboxServes : Prop :=
  (∀ (s : State) (port : Nat) (w : Word), port < 4 → s.Serves .CTL 9 →
    ∃ t, exec (.regWrite port Reg.CTL_MBOX_CMD w) s = .next t ∧
      (s.flag Reg.CTL_RSP_BUSY = true →
        t.fld (wholeFld Reg.CTL_MBOX_REFUSED) = min (2 ^ 32 - 1) (s.fld (wholeFld Reg.CTL_MBOX_REFUSED) + 1) ∧
        t.rd Reg.CTL_RSP = s.rd Reg.CTL_RSP ∧ t.rd Reg.CTL_MBOX_CMD = s.rd Reg.CTL_MBOX_CMD) ∧
      (s.flag Reg.CTL_RSP_BUSY = false → t.flag Reg.CTL_RSP_BUSY = true ∧ t.flag Reg.CTL_RSP_DONE = false ∧
        t.fld ⟨Reg.CTL_RSP, 18, 2⟩ = port ∧ t.fld Reg.CTL_MBOX_CMD_CODE = w.toNat % 256)) ∧
  (∀ s : State, s.boot.resetLow = false →
    (s.mboxCode = some 0 → ∃ t, exec .mboxNop s = .next t ∧ t.fld Reg.CTL_RSP_STATUS = 0 ∧ t.flag Reg.CTL_RSP_DONE = true ∧
      t.flag Reg.CTL_RSP_BUSY = false ∧ ∀ i, i < 8 → t.rd (Reg.CTL_ARG i) = s.rd (Reg.CTL_ARG i)) ∧
    (s.mboxCode = some 2 → ∃ t, exec .mboxEcho s = .next t ∧ t.fld Reg.CTL_RSP_STATUS = 0 ∧ t.flag Reg.CTL_RSP_DONE = true ∧
      t.flag Reg.CTL_RSP_BUSY = false ∧ ∀ i, i < 8 → t.rd (Reg.CTL_ARG i) = s.rd (Reg.CTL_ARG i)) ∧
    (∀ c, s.mboxCode = some c → s.mboxKnows c = false → ∃ t, exec .mboxUnknown s = .next t ∧
      t.fld Reg.CTL_RSP_STATUS = 1 ∧ t.flag Reg.CTL_RSP_DONE = true ∧ t.flag Reg.CTL_RSP_BUSY = false) ∧
    (∀ n crc v, s.mboxCode = some 1 → s.boot.img = some (n, crc, v) →
      ∃ t, exec .mboxVersion s = .next t ∧ t.fld Reg.CTL_RSP_STATUS = 0 ∧ t.flag Reg.CTL_RSP_DONE = true ∧
        t.rd (Reg.CTL_ARG 0) = BitVec.ofNat 32 v ∧ t.rd (Reg.CTL_ARG 2) = BitVec.ofNat 32 s.boot.slot))

/-- The control core reads bytes of a region without a fault: DRAM is ready, its engine is not halted, and its beats give
them (R341). -/
def coreReads (s u : State) (h ofs n : Nat) (l : List Byte) : Prop :=
  s.mem.halted.any (fun x => x.engine == 13) = false ∧ s.dramReady = true ∧ ∃ all,
    State.coreBeats h ((List.range ((ofs % 64 + n + 63) / 64)).map (fun i => ofs / 64 * 64 + 64 * i)) s = (u, some all) ∧
    l = (all.drop (ofs % 64)).take n

/-- R445 and R460 to R462. What the services of start-up and of NV do: REBOOT clears the count and starts a new boot, PAWN
sets it to 3 for the next boundary, SLOT_INFO answers the check of a slot, HOSTLOAD loads a good image from a bank of the
host, ACTIVATE keeps a good slot's image in the region that MEMC gave the core for the next boundary, COMMIT writes the other header and a SLOT
record, COARSE_STORE erases the coarse area and programs the image, AGE_LOAD replaces every counter and saves with
cause 3, RING_FORMAT erases the ring; those that need the presence window answer DENIED without it. -/
def Rules.ServicesAct : Prop :=
  ∀ s : State, s.boot.resetLow = false →
    (∀ (c : Nat) (e : Instr), (c, e) ∈ [(0x12, Instr.mboxActivate), (0x13, .mboxCommit), (0x14, .mboxPawn), (0x42, .mboxRingFormat)] →
      s.mboxCode = some c → s.mboxKnows c = true → s.presenceOpen = false → exec e s = .next (s.mboxEnd 5)) ∧
    (s.mboxCode = some 0x11 → ∃ t, exec .mboxReboot s = .next t ∧ t.boot.phase = 0 ∧
      t.rd Reg.AON_BOOT_TRIES = 0 ∧ t.flag Reg.CTL_RSP_BUSY = false) ∧
    (s.mboxCode = some 0x14 → s.mboxKnows 0x14 = true → s.presenceOpen = true → ∃ t, exec .mboxPawn s = .next t ∧
      t.boot.pawnDue = true ∧ t.rd Reg.AON_BOOT_TRIES = 3 ∧ t.fld Reg.CTL_RSP_STATUS = 0 ∧ t.flag Reg.CTL_RSP_BUSY = false) ∧
    (s.mboxCode = some 0x15 → s.mboxKnows 0x15 = true → s.mboxArg 0 ≤ 1 → ∃ t, exec .mboxSlotInfo s = .next t ∧
      t.rd (Reg.CTL_ARG 1) = BitVec.ofNat 32 (s.slotCheck (s.mboxArg 0)).version ∧
      t.rd (Reg.CTL_ARG 2) = BitVec.ofNat 32 (s.slotCheck (s.mboxArg 0)).code ∧ t.fld Reg.CTL_RSP_STATUS = 0) ∧
    (∀ (b : Nat) (rd : Nat → Nat → List Byte), s.mboxCode = some 0x10 → s.mboxArg 0 = b → 44 ≤ b → b ≤ 47 →
      s.bankOwner b = ownHost → s.bankOn b = true → (rd = fun o n => s.bankBytes b o n) → (imageCheck s.boot.keyHash rd).code = 0 →
      ∃ t, exec .mboxHostload s = .next t ∧
        t.boot.img = some ((imageCheck s.boot.keyHash rd).len, (imageCheck s.boot.keyHash rd).crc, (imageCheck s.boot.keyHash rd).version) ∧
        (t.boot.phase = 1 ∨ t.boot.phase = 2) ∧
        t.fld (wholeFld Reg.CTL_RESTARTS) = min (2 ^ 32 - 1) (s.fld (wholeFld Reg.CTL_RESTARTS) + 1)) ∧
    (∀ (n h : Nat) (u v : State), s.mboxCode = some 0x12 → s.mboxKnows 0x12 = true → s.presenceOpen = true → s.mboxArg 0 = n →
      n ≤ 1 → (s.slotCheck n).code = 0 → s.boot.image = none → s.boot.copyTo = none → s.dramReady = true → s.boot.ask = 1 →
      s.mem.queue = [] → s.rd (perPort 3 Reg.REGION_RESULT) = BitVec.ofNat 32 (2 + 256 * h) → h < 64 →
      u = { s.slotCode n 0 with boot := { (s.slotCode n 0).boot with ask := 0 } } →
      u.storeRun 13 h 0 (s.flashRd (slotBase n) (512 + (s.slotCheck n).len)) = (v, 0) →
      ∃ t, exec .mboxActivate s = .next t ∧ t.boot.slot = n ∧
        t.boot.image = some (h, (s.flashRd (slotBase n) (512 + (s.slotCheck n).len)).length)) ∧
    (∀ n, s.mboxCode = some 0x13 → s.mboxKnows 0x13 = true → s.presenceOpen = true → s.mboxArg 0 = n → n ≤ 1 →
      (s.slotCheck n).code = 0 → s.nvIdle = true → s.nv.wpN = true →
      ∃ t k h r rest, exec .mboxCommit s = .next t ∧ k ≤ 1 ∧
        t.nv.todo = .erase (0x1000 * k) false :: .program (0x1000 * k) h :: .append r :: rest ∧ r.typ = 8) ∧
    (∀ (h ofs n : Nat) (u v : State) (head body : List Byte), s.mboxCode = some 0x40 → s.mboxKnows 0x40 = true → s.mboxArg 0 = h →
      s.mboxArg 1 = ofs → s.inRegion h ofs = true → s.inRegion h (ofs + 63) = true → coreReads s u h ofs 64 head →
      leVal (head.take 4) = 0x43504D31 → n = leVal ((head.drop 12).take 4) → n ≤ 8388544 →
      u.inRegion h (ofs + 63 + n) = true → coreReads u v h (ofs + 64) n body →
      crc32 (head.take 60 ++ body) = leVal (head.drop 60) → v.nvIdle = true → v.nv.wpN = true →
      ∃ t rest, exec .mboxCoarseStore s = .next t ∧ t.nv.todo = .erase 0x810000 true :: rest) ∧
    (∀ (h ofs : Nat) (u : State) (l : List Byte), s.mboxCode = some 0x41 → s.mboxKnows 0x41 = true → s.mboxArg 0 = h →
      s.mboxArg 1 = ofs → s.nvIdle = true → s.inRegion h ofs = true → s.inRegion h (ofs + 32767) = true →
      coreReads s u h ofs 32768 l → u.nvIdle = true → u.nv.wpN = true →
      ∃ t, exec .mboxAgeLoad s = .next t ∧ t.nv.saving = true ∧
        t.nv.ages = Cells.setRun (fun _ => 0) [] 0 ((chunks 2 l).map (fun b => leVal b * 2 ^ 32))) ∧
    (s.mboxCode = some 0x42 → s.mboxKnows 0x42 = true → s.presenceOpen = true → s.nvIdle = true → s.nv.wpN = true →
      ∃ t rest, exec .mboxRingFormat s = .next t ∧ t.nv.todo = .erase ringBase true :: rest)

/-- R388 and R392. The button opens the presence window for SEC.WINDOW seconds, 10 to 600, counted on TIMEBASE, raises OPEN
and counts in OPENINGS; a press while it is open restarts the count and counts nothing. CLOSE closes it and raises CLOSE;
so does the end of the count. A write of 1 to OTP_LOCK under presence sets LOCK, which no write clears. -/
def Obligations.PresenceWindow : Prop :=
  (∀ s : State, s.boot.resetLow = false → s.gateClosed 5 = false → s.domOn 0 = true →
    ∃ t, exec .presenceOpen s = .next t ∧
      t.sec.window = some (s.timebase, s.timebase + max 10 (min 600 (s.fld ⟨Reg.SEC_WINDOW, 0, 10⟩)) * 1000000) ∧
      t.flag Reg.SEC_STATE_OPEN = true ∧
      t.fld (wholeFld Reg.SEC_OPENINGS) =
        (if s.presenceOpen then s.fld (wholeFld Reg.SEC_OPENINGS) else min (2 ^ 32 - 1) (s.fld (wholeFld Reg.SEC_OPENINGS) + 1)) ∧
      (s.presenceOpen = false → t.fld ⟨Reg.HDR_IRQ_RAW 5, 0, 1⟩ = 1)) ∧
  (∀ (s : State) (port : Nat) (w : Word), s.Serves .SEC 5 → s.presenceOpen = true →
    (∃ t, exec (.presenceClose port w) s = .next t ∧ t.sec.window = none ∧ t.presenceOpen = false ∧
      t.fld ⟨Reg.HDR_IRQ_RAW 5, 1, 1⟩ = 1) ∧
    (s.sec.window.isSome = true → ∃ t, exec .presenceExpire s = .next t ∧ t.sec.window = none ∧ t.presenceOpen = false ∧
      t.fld ⟨Reg.HDR_IRQ_RAW 5, 1, 1⟩ = 1) ∧
    (w.toNat % 2 = 1 → exec (.otpLockWrite port w) s = .next (s.wr Reg.SEC_OTP_LOCK 1))) ∧
  (∀ (s : State) (port : Nat) (w : Word), s.Serves .SEC 5 → w.toNat % 2 = 0 → s.presenceOpen = true →
    exec (.otpLockWrite port w) s = .next s)


/-! Serial lanes (R30 to R59, R89, R498). -/

/-- R52, R53, R59 and R498. A lane aims at the deepest of the host's limit, its protocol's request and what its domain
implies; a test stands in the place of its protocol while the host's limit is L0. A write of LSTATE.REQ starts a transition
there, BUSY being 1 throughout it; while one is under way a target other than the one the lane is bound for waits for it,
and one that it replaces is discarded and counted. When a transition ends CUR takes its state, and the lane goes
on to the latest target, unless that is the state just reached. -/
def Obligations.LaneTargets : Prop :=
  (∀ (s : State) (l : Nat), s.laneTarget l = max (max (min 2 (s.fld (Reg.PHY_LSTATE_REQ (phyBase l))))
    (if (s.lane l).test = true ∧ min 2 (s.fld (Reg.PHY_LSTATE_REQ (phyBase l))) = 0 then 0 else (s.lane l).proto)) (min 2 (s.fld (Reg.PHY_LSTATE_DOMAIN (phyBase l))))) ∧
  (∀ (s : State) (u : Machine.Unit) (l port : Nat) (w : Word), l < 106 → s.Serves u (phyBase l / 0x1000) →
    ∃ t, exec (.lstateReqWrite port l w) s = .next t ∧ t.fld (Reg.PHY_LSTATE_REQ (phyBase l)) = w.toNat % 4 ∧
      t.laneCur l = s.laneCur l ∧
      ((s.lane l).trans = none → t.laneTarget l = s.laneCur l → (t.lane l).trans = none) ∧
      ((s.lane l).trans = none → t.laneTarget l ≠ s.laneCur l →
        (t.lane l).trans = some (t.laneTarget l) ∧ t.flag (Reg.PHY_LSTATE_BUSY (phyBase l)) = true) ∧
      (∀ v, (s.lane l).trans = some v →
        (t.laneTarget l = (s.lane l).pend.getD v → t.lane l = s.lane l ∧
          t.fld (Reg.PHY_TRANS_CNT_SUPERSEDED (phyBase l)) = s.fld (Reg.PHY_TRANS_CNT_SUPERSEDED (phyBase l))) ∧
        (t.laneTarget l ≠ (s.lane l).pend.getD v →
          (t.lane l).trans = some v ∧ (t.lane l).pend = some (t.laneTarget l) ∧
          t.fld (Reg.PHY_TRANS_CNT_SUPERSEDED (phyBase l)) = (if (s.lane l).pend.isSome then
            min (2 ^ 16 - 1) (s.fld (Reg.PHY_TRANS_CNT_SUPERSEDED (phyBase l)) + 1)
            else s.fld (Reg.PHY_TRANS_CNT_SUPERSEDED (phyBase l))))) ∧
      (∀ k, k ≠ l → t.lane k = s.lane k)) ∧
  (∀ (s : State) (l v : Nat), s.boot.resetLow = false → l < 106 → v < 3 → (s.lane l).trans = some v →
    l < 102 ∨ v = 0 ∨ s.casUp (l - 102) = false →
    ∃ t, exec (.laneTransitionDone l) s = .next t ∧ t.laneCur l = v ∧ (t.lane l).pend = none ∧
      (t.lane l).trans = (match (s.lane l).pend with | some u => if u = v then none else some u | none => none) ∧
      t.flag (Reg.PHY_LSTATE_BUSY (phyBase l)) = (t.lane l).trans.isSome)

/-- R30, R45 and R46. A block with sync header 0b00 or 0b11 is counted in BLKERR and lock is kept, until 16 of 64
consecutive blocks are such: then lock is lost, LOCK reads 0 and LOCKLOSS_CNT counts. The idle detector sets and clears
EI. -/
def Rules.ReceiversReport : Prop :=
  (∀ (s : State) (l hdr payload : Nat), s.boot.resetLow = false → laneHasDfe l = true → s.laneCarries l = true →
    (∀ bad win, bad = (hdr != 1 && hdr != 2) → win = (bad :: (s.lane l).window).take 64 →
      ∃ t, exec (.rxBlock l hdr payload) s = .next t ∧
        (bad = false → t.regs = s.regs ∧ (t.lane l).window = win ∧ (t.lane l).rxHdr = hdr) ∧
        (bad = true → t.fld (Reg.PHY_RXSTAT_BLKERR (phyBase l))
          = min (2 ^ 16 - 1) (s.fld (Reg.PHY_RXSTAT_BLKERR (phyBase l)) + 1)) ∧
        (bad = true → (win.filter id).length < 16 → (t.lane l).window = win ∧
          t.flag (Reg.PHY_RXSTAT_LOCK (phyBase l)) = s.flag (Reg.PHY_RXSTAT_LOCK (phyBase l))) ∧
        (bad = true → 16 ≤ (win.filter id).length → t.flag (Reg.PHY_RXSTAT_LOCK (phyBase l)) = false ∧
          t.fld (wholeFld (Reg.PHY_LOCKLOSS_CNT (phyBase l)))
            = min (2 ^ 32 - 1) (s.fld (wholeFld (Reg.PHY_LOCKLOSS_CNT (phyBase l))) + 1)))) ∧
  (∀ (s : State) (l : Nat), s.boot.resetLow = false → laneIsRx l = true →
    (∃ t, exec (.rxLockLost l) s = .next t ∧ t.flag (Reg.PHY_RXSTAT_LOCK (phyBase l)) = false ∧
      t.fld (wholeFld (Reg.PHY_LOCKLOSS_CNT (phyBase l)))
        = min (2 ^ 32 - 1) (s.fld (wholeFld (Reg.PHY_LOCKLOSS_CNT (phyBase l))) + 1)) ∧
    (∃ t, exec (.eiDetect l) s = .next t ∧ t.flag (Reg.PHY_RXSTAT_EI (phyBase l)) = true) ∧
    (l ≠ laneBcRx → s.isl.hold = false → exec (.eiClear l) s = .next (s.put (Reg.PHY_RXSTAT_EI (phyBase l)) 0)) ∧
    (∃ t, exec (.eiClear l) s = .next t ∧ t.flag (Reg.PHY_RXSTAT_EI (phyBase l)) = false))

/-- R42 and R43. A tap moves one step by the signs of the error and of its decision, within its range; it moves only in
L0 while ADAPT_EN is 1 and adaptation is not frozen, and the host writes the taps only while ADAPT_EN is 0. A window with
fewer than 256 transitions freezes it, taps that adapt at the values they had at its start; 16 windows in a row that hold more
end it, and one that falls short starts the count again. -/
def Rules.TapsAdapt : Prop :=
  (∀ (w v : Nat) (up : Bool), w = 6 ∨ w = 8 → v < 2 ^ w → sext w v ≠ -(2 ^ (w - 1)) →
    sext w (dfeStep w v up) = max (-(2 ^ (w - 1) - 1)) (min (2 ^ (w - 1) - 1) (sext w v + (if up then 1 else -1)))) ∧
  (∀ (s : State) (l dec : Nat) (err : Bool), s.boot.resetLow = false → laneHasDfe l = true →
    (s.laneInL0 l = true → s.flag (Reg.PHY_RXEQ_ADAPT_EN (phyBase l)) = true →
      s.flag (Reg.PHY_RXSTAT_FROZEN (phyBase l)) = false →
      exec (.dfeUpdate l err dec) s = .next
        ((s.wr (Reg.PHY_DFE_TAPS0 (phyBase l)) (dfeTaps 0 0 (s.rd (Reg.PHY_DFE_TAPS0 (phyBase l))) err dec)).wr
          (Reg.PHY_DFE_TAPS1 (phyBase l)) (dfeTaps 4 4 (s.rd (Reg.PHY_DFE_TAPS1 (phyBase l))) err dec))) ∧
    (s.laneInL0 l = false ∨ s.flag (Reg.PHY_RXEQ_ADAPT_EN (phyBase l)) = false ∨
      s.flag (Reg.PHY_RXSTAT_FROZEN (phyBase l)) = true → exec (.dfeUpdate l err dec) s = .next s)) ∧
  (∀ (s : State) (l n : Nat), s.boot.resetLow = false → laneHasDfe l = true → s.laneInL0 l = true →
    ∃ t, exec (.adaptWindowEnd l n) s = .next t ∧
      (n < 256 → t.flag (Reg.PHY_RXSTAT_FROZEN (phyBase l)) = true ∧ (t.lane l).goodRun = 0) ∧
      (n < 256 → s.flag (Reg.PHY_RXSTAT_FROZEN (phyBase l)) = false →
        t.rd (Reg.PHY_DFE_TAPS0 (phyBase l)) = (if s.flag (Reg.PHY_RXEQ_ADAPT_EN (phyBase l)) then (s.lane l).taps0
          else s.rd (Reg.PHY_DFE_TAPS0 (phyBase l))) ∧
        t.rd (Reg.PHY_DFE_TAPS1 (phyBase l)) = (if s.flag (Reg.PHY_RXEQ_ADAPT_EN (phyBase l)) then (s.lane l).taps1
          else s.rd (Reg.PHY_DFE_TAPS1 (phyBase l))) ∧
        t.fld (Reg.PHY_FREEZE_CNT_FREEZE (phyBase l))
          = min (2 ^ 16 - 1) (s.fld (Reg.PHY_FREEZE_CNT_FREEZE (phyBase l)) + 1)) ∧
      (256 ≤ n → s.flag (Reg.PHY_RXSTAT_FROZEN (phyBase l)) = true → (s.lane l).goodRun < 15 →
        t.regs = s.regs ∧ (t.lane l).goodRun = (s.lane l).goodRun + 1) ∧
      (256 ≤ n → s.flag (Reg.PHY_RXSTAT_FROZEN (phyBase l)) = true → (s.lane l).goodRun = 15 →
        t.flag (Reg.PHY_RXSTAT_FROZEN (phyBase l)) = false ∧
        t.fld (Reg.PHY_FREEZE_CNT_RESUME (phyBase l))
          = min (2 ^ 16 - 1) (s.fld (Reg.PHY_FREEZE_CNT_RESUME (phyBase l)) + 1)) ∧
      t = { s with regs := t.regs, phy := t.phy }) ∧
  (∀ (s : State) (u : Machine.Unit) (l port : Nat) (w : Word), laneHasDfe l = true → s.Serves u (phyBase l / 0x1000) →
    s.flag (Reg.PHY_RXEQ_ADAPT_EN (phyBase l)) = true →
      exec (.regWrite port (Reg.PHY_DFE_TAPS0 (phyBase l)) w) s = .next s)

/-- R49, R50, R54 and R55. START begins a scan in L0 and is ignored while one runs; out of L0 it sets ABORTED and DONE
with the counts at 0. The dwell's end gives the mismatches, with SAT at all ones, and the 2^(DWELL + 10) UI compared, and
sets DONE. A checker that a pattern reaches and that has locked sets SYNC and counts wrong bits, sticking at all ones with SAT; a test enabled on a lane takes it from
its link, and far-end loopback is not taken where there is none. -/
def Rules.ScansAndTests : Prop :=
  (∀ (s : State) (u : Machine.Unit) (l port : Nat) (w : Word), laneIsRx l = true → s.Serves u (phyBase l / 0x1000) →
    (s.flag (Reg.PHY_ES_STATUS_BUSY (phyBase l)) = true → exec (.esStart port l w) s = .next s) ∧
    (s.flag (Reg.PHY_ES_STATUS_BUSY (phyBase l)) = false → ∃ t, exec (.esStart port l w) s = .next t ∧
      t.rd (Reg.PHY_ES_STATUS (phyBase l)) = (if s.laneInL0 l then 1 else 6) ∧ t.rd (Reg.PHY_ES_ERRS (phyBase l)) = 0 ∧
      t.rd (Reg.PHY_ES_UI (phyBase l)) = 0 ∧ t.rd (Reg.PHY_ES_UI_HI (phyBase l)) = 0 ∧
      t = { s with regs := t.regs })) ∧
  (∀ (s : State) (l errs : Nat), s.boot.resetLow = false → s.flag (Reg.PHY_ES_STATUS_BUSY (phyBase l)) = true → l < 106 →
    ∃ t, exec (.esDwellEnd l errs) s = .next t ∧ t.flag (Reg.PHY_ES_STATUS_BUSY (phyBase l)) = false ∧
      t.flag (Reg.PHY_ES_STATUS_DONE (phyBase l)) = true ∧
      (t.rd (Reg.PHY_ES_ERRS (phyBase l))).toNat = min (2 ^ 32 - 1) errs ∧
      (2 ^ 32 - 1 ≤ errs → t.flag (Reg.PHY_ES_STATUS_SAT (phyBase l)) = true) ∧
      (t.rd (Reg.PHY_ES_UI (phyBase l))).toNat + 2 ^ 32 * (t.rd (Reg.PHY_ES_UI_HI (phyBase l))).toNat
        = 2 ^ (min 30 (s.fld (Reg.PHY_ES_CTRL_DWELL (phyBase l))) + 10) ∧ t = { s with regs := t.regs }) ∧
  (∀ (s : State) (l errs : Nat), s.boot.resetLow = false →
    (laneIsRx l = true ∧ s.laneInL0 l = true ∧ s.looped l 1 = false) ∨ s.prbsFed l = true →
    s.flag (Reg.PHY_PRBS_CHK_EN (phyBase l)) = true →
    ∃ t, exec (.prbsCheckerSync l errs) s = .next t ∧ t.flag (Reg.PHY_PRBS_STAT_SYNC (phyBase l)) = true ∧
      (t.rd (Reg.PHY_PRBS_ERRS (phyBase l))).toNat = min (2 ^ 32 - 1) ((s.rd (Reg.PHY_PRBS_ERRS (phyBase l))).toNat + errs) ∧
      ((t.rd (Reg.PHY_PRBS_ERRS (phyBase l))).toNat = 2 ^ 32 - 1 → t.flag (Reg.PHY_PRBS_STAT_SAT (phyBase l)) = true) ∧
      t = { s with regs := t.regs }) ∧
  (∀ (s : State) (u : Machine.Unit) (l port : Nat) (w : Word), l < 106 → s.Serves u (phyBase l / 0x1000) →
    ∃ t, exec (.prbsWrite port l w) s = .next t ∧
      t.rd (Reg.PHY_PRBS (phyBase l)) % 16 = w % 16 ∧
      t.fld (Reg.PHY_PRBS_LOOP (phyBase l)) = (if w.toNat / 16 % 4 = 2 ∧ laneFarEnd l = false
        then s.fld (Reg.PHY_PRBS_LOOP (phyBase l)) else w.toNat / 16 % 4) ∧
      (w.toNat % 4 = 3 → (t.lane l).test = true))

/-- R40. A new SPREAD written while an EDL forward lane is in L0 is held, PENDING reading 1 and the value in force staying
(the reading of SPREAD meanwhile is the model's choice); with no lane in L0 it is taken at once, and held values are taken
at the first instant without one. -/
def Rules.SpreadWaits : Prop :=
  (∀ (s : State) (port : Nat) (w : Word), s.Serves .EDL 0x70 →
    ∃ t, exec (.refcfgWrite port w) s = .next t ∧ t = { s with regs := t.regs, phy := t.phy } ∧
      (s.anyEdlL0 = true → Reg.EDL_REFCFG_SPREAD.get w ≠ s.fld Reg.EDL_REFCFG_SPREAD →
        t.phy.spreadPend = some (Reg.EDL_REFCFG_SPREAD.get w) ∧ t.flag Reg.EDL_REFCFG_PENDING = true ∧
        t.fld Reg.EDL_REFCFG_SPREAD = s.fld Reg.EDL_REFCFG_SPREAD) ∧
      (s.anyEdlL0 = false → t.fld Reg.EDL_REFCFG_SPREAD = Reg.EDL_REFCFG_SPREAD.get w ∧
        t.fld Reg.EDL_REFCFG_EN = Reg.EDL_REFCFG_EN.get w ∧ t.flag Reg.EDL_REFCFG_PENDING = false)) ∧
  (∀ (s : State) (v : Nat), s.boot.resetLow = false → s.phy.spreadPend = some v → s.phy.enPend = none → v < 4 →
    s.anyEdlL0 = false →
    ∃ t, exec .refcfgPendingApply s = .next t ∧ t.fld Reg.EDL_REFCFG_SPREAD = v ∧ t.phy.spreadPend = none ∧
      t.flag Reg.EDL_REFCFG_PENDING = false ∧ t = { s with regs := t.regs, phy := { s.phy with spreadPend := none } })

/-- R89. A write of CNT_CLR clears the counters of its unit that its bits name, and leaves the others as they were. -/
def Rules.CountersClear : Prop :=
  ∀ (s : State) (u : Machine.Unit) (p off port : Nat) (w : Word), s.Serves u p → hdrPage p = p → p < u.page + u.count →
    cntClrOffset u = some off → u ≠ .TEST →
      ∃ t, exec (.cntClr port p off w) s = .next t ∧
        (∀ k x, (k, x) ∈ countersOf u p → t.fld x = if w.toNat / 2 ^ k % 2 = 1 then 0 else s.fld x) ∧
        t = { s with regs := t.regs, mem := { s.mem with maxLat := t.mem.maxLat } }


/-! The Iante Source Link (R60 to R92, R497 to R501). -/

/-- A counter of 32 bits counts some more, and sticks at all ones (R89). -/
def counted (s t : State) (a n : Nat) : Prop := (t.rd a).toNat = min (2 ^ 32 - 1) ((s.rd a).toNat + n)

/-- A bit of IRQ_RAW of a page is set. -/
def raised (t : State) (page bit : Nat) : Prop := t.fld ⟨Reg.HDR_IRQ_RAW page, bit, 1⟩ = 1

/-- A control row comes whole while the link carries rows: its CTYPE, and its body of twelve bytes (R62, R65). -/
def rowTaken (s : State) (copies : List (List Byte)) (ctype : Nat) (b : List Byte) : Prop :=
  s.rowsRun = true ∧ rowAccepted s.islLanes copies = some (ctype, b)

/-- The CTYPE values of the source link (R66). -/
def rowTypes : List Nat := [rowIDLE, rowPIP, rowSLEEP, rowWAKE, rowREGION, rowTABLE, rowTS1, rowALN, rowMETA]

/-- R62, R63 and R66. Each failing copy of a control row counts at its lane; a row of which no copy passes, whose passing
copies differ, or whose CTYPE is none of the link's is ignored, counts in CTL_ERR and raises it; an IDLE row does nothing
more. A row whose lanes differ in their sync headers counts in ALIGN_ERR; the fourth in a row on a link in UP loses it:
LINK_DOWN, self-refresh, and training. -/
def Obligations.ControlRows : Prop :=
  (∀ (s : State) (copies : List (List Byte)), s.boot.resetLow = false → s.rowsRun = true → s.gateClosed 0x10 = false →
    rowAccepted s.islLanes copies = none ∨ (∃ c b, rowAccepted s.islLanes copies = some (c, b) ∧ c ∉ rowTypes) →
    ∃ t, exec (.controlRowIgnored copies) s = .next t ∧ counted s t Reg.ISL_CTL_ERR 1 ∧ raised t 0x10 9 ∧
      (∀ k, k < s.islLanes →
        counted s t (Reg.ISL_LANE_CTL_CRC_CNT k) (if blockGood (copyOn copies k) then 0 else 1)) ∧
      t.isl.skipping = false ∧ t.isl.misrun = 0 ∧ t.link = s.link) ∧
  (∀ (s : State) (copies : List (List Byte)) (b : List Byte), s.boot.resetLow = false → rowTaken s copies rowIDLE b →
    ∃ t, exec (.idleRow copies) s = .next t ∧ t.rd Reg.ISL_CTL_ERR = s.rd Reg.ISL_CTL_ERR ∧
      (∀ k, k < s.islLanes →
        counted s t (Reg.ISL_LANE_CTL_CRC_CNT k) (if blockGood (copyOn copies k) then 0 else 1)) ∧
      t = { s with regs := t.regs, isl := { s.isl with skipping := false, misrun := 0 } }) ∧
  (∀ s : State, s.boot.resetLow = false → s.rowsRun = true →
    (s.isl.misrun < 3 ∨ s.link ≠ lkUP → ∃ t, exec .misalignedRow s = .next t ∧ counted s t Reg.ISL_ALIGN_ERR 1 ∧
      t = { s with
        regs := t.regs, nv := { s.nv with log := t.nv.log }
        isl := { s.isl with misrun := s.isl.misrun + 1, rises := t.isl.rises } }) ∧
    (3 ≤ s.isl.misrun → s.link = lkUP → s.gateClosed 0x10 = false →
      ∃ t, exec .misalignedRow s = .next t ∧ counted s t Reg.ISL_ALIGN_ERR 1 ∧
        raised t 0x10 1 ∧ t.link = lkDETECT ∧ t.inSref = true ∧ t.fld Reg.ISL_LINK_STATE_RETRY = 0))

/-- R67, R85, R87 and R88. A PIP row gives the frame its number, period and flags, and brings a link in READY UP. SLEEP
takes it to S1, with lane 0 alone at code 0, or to S2, every main lane in LOFF, with self-refresh under its reason; in S1
only S2 is acted on. WAKE in S1 starts a fast retrain to its codes; outside S1, or with a code out of range, it counts in
CTL_ERR, as a LEVEL other than 1 and 2 does. -/
def Obligations.SleepAndWake : Prop :=
  (∀ (s : State) (ti : Nat) (copies : List (List Byte)) (b : List Byte), s.boot.resetLow = false → rowTaken s copies rowPIP b →
    ∃ t, exec (.pip ti copies) s = .next t ∧ t.rd Reg.ISL_PIP_FRAME = BitVec.ofNat 32 (leField b 0 4) ∧
      t.rd Reg.ISL_PIP_PERIOD = BitVec.ofNat 32 (leField b 4 4) ∧ t.rd Reg.ISL_PIP_FLAGS = BitVec.ofNat 32 (leField b 8 2) ∧
      t.now = max s.now ti ∧ (s.link = lkREADY ∨ s.link = lkUP → t.link = lkUP) ∧ (s.link = lkS1 → t.link = lkS1)) ∧
  (∀ (s : State) (copies : List (List Byte)) (b : List Byte) (level : Nat), s.boot.resetLow = false →
    rowTaken s copies rowSLEEP b → level = byteAt b 0 → s.gateClosed 0x10 = false →
    (level = 1 → s.link = lkUP → s.srf.host = false → ∃ t, exec (.sleepRow copies) s = .next t ∧ t.link = lkS1 ∧
      t.srefState = 1 ∧ t.fld Reg.SREF_STATE_REASON = 1 ∧ t.fld Reg.ISL_LINK_STATE_LANES = 0 ∧
      t.fld Reg.ISL_LINK_STATE_RATE = 0 ∧ raised t 0x10 3 ∧ (t.lane 0).proto = 0 ∧
      ∀ k, 1 ≤ k → k < 16 → (t.lane k).proto = 2) ∧
    (level = 2 → s.link = lkUP ∨ s.link = lkS1 → s.srf.host = false → ∃ t, exec (.sleepRow copies) s = .next t ∧
      t.link = lkS2 ∧ t.srefState = 2 ∧ t.fld Reg.SREF_STATE_REASON = 2 ∧ raised t 0x10 3 ∧
      ∀ k, k < 16 → (t.lane k).proto = 2) ∧
    (level = 1 → s.link = lkS1 → ∃ t, exec (.sleepRow copies) s = .next t ∧ t.link = lkS1 ∧
      t.rd Reg.ISL_CTL_ERR = s.rd Reg.ISL_CTL_ERR) ∧
    (level ≠ 1 → level ≠ 2 → ∃ t, exec (.sleepRow copies) s = .next t ∧ counted s t Reg.ISL_CTL_ERR 1 ∧
      t.link = s.link)) ∧
  (∀ (s : State) (copies : List (List Byte)) (b : List Byte), s.boot.resetLow = false → rowTaken s copies rowWAKE b →
    (s.link = lkS1 → byteAt b 0 ≤ 4 → byteAt b 1 ≤ 7 → s.flag Reg.ISL_EQ_CFG_FAST_WAKE = true →
      ∃ t, exec (.wakeRow copies) s = .next t ∧ t.isl.fast = 1 ∧ t.isl.fastLanes = byteAt b 0 ∧
        t.isl.fastRate = byteAt b 1 ∧ t.isl.wakeDue = true ∧ t.isl.since = s.now ∧
        ∀ k, k < 16 → (t.lane k).proto = if k < 2 ^ byteAt b 0 then 0 else 2) ∧
    (s.link ≠ lkS1 ∨ 4 < byteAt b 0 ∨ 7 < byteAt b 1 →
      ∃ t, exec (.wakeRow copies) s = .next t ∧ counted s t Reg.ISL_CTL_ERR 1 ∧ t.link = s.link))

/-- R68 to R70 and R88. A REGION row declares a rectangle of a partial frame before its first LINE packet, up to 16, with W
and H not zero; any other without FLUSH, and every one in S1, counts in CTL_ERR; FLUSH ends the frame. META rows are kept,
the newest eight, each with the number of its frame, the head showing in the META registers; META_POP removes the head. -/
def Rules.RegionsAndMetas : Prop :=
  (∀ (s : State) (copies : List (List Byte)) (b : List Byte) (x y w h : Nat), s.boot.resetLow = false →
    rowTaken s copies rowREGION b → x = leField b 0 2 → y = leField b 2 2 → w = leField b 4 2 → h = leField b 6 2 →
    (s.link ≠ lkS1 → bit (byteAt b 8) 0 = false → ∀ f, s.isl.frame = some f →
      (f.part = false ∨ f.opened = true ∨ w = 0 ∨ h = 0 ∨ 16 ≤ f.declared → ∃ t, exec (.regionRow copies) s = .next t ∧
        counted s t Reg.ISL_CTL_ERR 1 ∧ t.sto = s.sto) ∧
      (f.part = true → f.opened = false → w ≠ 0 → h ≠ 0 → f.declared < 16 →
        ∃ t, exec (.regionRow copies) s = .next t ∧ t.rd Reg.ISL_CTL_ERR = s.rd Reg.ISL_CTL_ERR ∧
          t.isl.frame = some { f with
            declared := f.declared + 1
            low := if x < s.hact ∧ y < s.vact then max f.low (min s.vact (y + h)) else f.low } ∧
          (∀ g rs, s.sto.src = some g → g.rects = some rs → g.opened = false → g.declared < 16 → g.off = false →
            ∃ g', t.sto.src = some g' ∧ g'.rects = some (rs ++ [⟨min x s.hact, min y s.vact,
              min (x + w) s.hact - min x s.hact, min (y + h) s.vact - min y s.vact⟩])))) ∧
    (s.link ≠ lkS1 → bit (byteAt b 8) 0 = true →
      ∃ t, exec (.regionRow copies) s = .next t ∧ t.rd Reg.ISL_CTL_ERR = s.rd Reg.ISL_CTL_ERR ∧
        t.isl.frame = s.isl.frame.map (fun f => { f with done := true }) ∧
        ∀ g, t.sto.src = some g → g.flushed = true ∧ g.complete = true) ∧
    (s.link = lkS1 → ∃ t, exec (.regionRow copies) s = .next t ∧ counted s t Reg.ISL_CTL_ERR 1 ∧ t.sto = s.sto)) ∧
  (∀ (s : State) (copies : List (List Byte)) (b : List Byte) (f : LinkFrame), s.boot.resetLow = false →
    rowTaken s copies rowMETA b → s.isl.frame = some f → s.isl.metas.length ≤ 8 →
    ∃ t, exec (.metaRow copies) s = .next t ∧
      t.isl.metas = (s.isl.metas ++ [(f.no, b.take 12)]).drop (s.isl.metas.length + 1 - 8) ∧
      t.fld ⟨Reg.ISL_META_STAT, 0, 4⟩ = min 8 (s.isl.metas.length + 1) ∧
      t.fld Reg.ISL_META_STAT_OVF = (if s.isl.metas.length = 8 then min (2 ^ 16 - 1) (s.fld Reg.ISL_META_STAT_OVF + 1)
        else s.fld Reg.ISL_META_STAT_OVF)) ∧
  (∀ (s : State) (port : Nat) (w : Word), s.Serves .ISL 0x10 → w.toNat % 2 = 1 → s.isl.metas.length ≤ 8 →
    ∃ t, exec (.metaPop port w) s = .next t ∧ t.isl.metas = s.isl.metas.drop 1 ∧
      t.fld ⟨Reg.ISL_META_STAT, 0, 4⟩ = s.isl.metas.length - 1 ∧
      t.rd Reg.ISL_META_FRAME = BitVec.ofNat 32 ((s.isl.metas.drop 1).headD (0, [])).1)

/-- R61 and R71 to R74. The bytes of a LINE packet come striped over the lanes in use. One whose header fails its CRC-8, or
is of another TYPE, or counts no pixel, counts in HDR_ERR, and data rows are skipped until the next control row; in S1 and
S2 it counts in LINE_IN_SLEEP; before the first pip, out of order, past the active width or height, or of another parity it
counts in SEQ_ERR, of another format in FMT_ERR, cut short in HDR_ERR, with a wrong payload CRC-32 in CRC_LINE. A good
segment is taken: it opens its line, and ends it where LAST is set. -/
def Rules.LinePackets : Prop :=
  ∀ (s : State) (ti : Nat) (lanes : List (List Byte)) (bytes : List Byte) (bad : Bool) (h y first count fmt par n : Nat)
    (last : Bool),
    s.boot.resetLow = false → s.isl.skipping = false → bytes = destripe (lanes.take s.islLanes) → h = leVal (bytes.take 8) →
    y = h / 2 ^ 4 % 2 ^ 13 → first = h / 2 ^ 17 % 2 ^ 13 → count = h / 2 ^ 30 % 2 ^ 13 → fmt = h / 2 ^ 43 % 2 ^ 3 →
    last = (h / 2 ^ 46 % 2 == 1) → par = h / 2 ^ 47 % 2 → n = (count * pixelBits fmt + 7) / 8 →
    (s.rowsRun = true → bytes.length < 8 → ∃ t, exec (.linePacket ti lanes bad) s = .next t ∧ counted s t Reg.ISL_HDR_ERR 1) ∧
    (s.rowsRun = true → 8 ≤ bytes.length → crc8 (bytes.take 7) ≠ h / 2 ^ 56 % 2 ^ 8 ∨ h % 2 ^ 4 ≠ 1 ∨ count = 0 →
      ∃ t, exec (.linePacket ti lanes bad) s = .next t ∧ counted s t Reg.ISL_HDR_ERR 1 ∧ t.isl.skipping = true) ∧
    (8 ≤ bytes.length → crc8 (bytes.take 7) = h / 2 ^ 56 % 2 ^ 8 → h % 2 ^ 4 = 1 → count ≠ 0 →
      (s.isl.fast = 0 → s.link = lkS1 ∨ s.link = lkS2 →
        ∃ t, exec (.linePacket ti lanes bad) s = .next t ∧ counted s t Reg.ISL_LINE_IN_SLEEP 1) ∧
      (s.link = lkUP → s.isl.frame = none →
        ∃ t, exec (.linePacket ti lanes bad) s = .next t ∧ counted s t Reg.ISL_SEQ_ERR 1) ∧
      (∀ f, s.link = lkUP → s.isl.frame = some f →
        (s.seqBad f y first count par = true →
          ∃ t, exec (.linePacket ti lanes bad) s = .next t ∧ counted s t Reg.ISL_SEQ_ERR 1) ∧
        (s.seqBad f y first count par = false → fmt ≠ s.fldA Reg.INPUT_FMT_FORMAT ∨ 4 < fmt →
          ∃ t, exec (.linePacket ti lanes bad) s = .next t ∧ counted s t Reg.ISL_FMT_ERR 1) ∧
        (s.seqBad f y first count par = false → fmt = s.fldA Reg.INPUT_FMT_FORMAT → fmt ≤ 4 →
          (bytes.length < 8 + n + 4 → ∃ t, exec (.linePacket ti lanes bad) s = .next t ∧ counted s t Reg.ISL_HDR_ERR 1) ∧
          (8 + n + 4 ≤ bytes.length → s.flag ⟨Reg.PERTURB_CRC_INJ, 0, 1⟩ = false →
            (bad = true ∨ (bytes.drop (8 + n)).take 4 ≠ leBytes 4 (crc32 ((bytes.drop 8).take n)) →
              ∃ t, exec (.linePacket ti lanes bad) s = .next t ∧ counted s t Reg.ISL_CRC_LINE 1) ∧
            (bad = false → (bytes.drop (8 + n)).take 4 = leBytes 4 (crc32 ((bytes.drop 8).take n)) →
              ∃ t, exec (.linePacket ti lanes bad) s = .next t ∧ t.rd Reg.ISL_CRC_LINE = s.rd Reg.ISL_CRC_LINE ∧
                t.isl.frame = some { f with
                  opened := true
                  last := if last then some y else f.last
                  cur := if last then none else some (y, first + count)
                  done := f.done || (last && y + 1 == (if f.part then f.low else s.vact)) })))))

/-- R75, R76 and R501. A TABLE packet that lies in its region at a multiple of 64 bytes, finds a staging buffer free, is
whole and passes its CRC-32 is staged; else it is answered RANGE, BUSY, ABORTED or CRC, in this order of checks, and counts
in TABLE_NAK. A committed one is written into its region, answered OK and counts in TABLE_OK; one that meets a memory
fault is answered FAULT. -/
def Rules.TablePackets : Prop :=
  (∀ (s : State) (copies lanes : List (List Byte)) (b bytes : List Byte) (h ofs len tag : Nat) (bad : Bool),
    s.boot.resetLow = false → rowTaken s copies rowTABLE b → s.link = lkUP → s.gateClosed 0x10 = false →
    h = byteAt b 0 % 64 → ofs = leField b 1 4 → len = leField b 5 2 → tag = leField b 7 2 →
    bytes = destripe (lanes.take s.islLanes) →
    (ofs % 64 ≠ 0 ∨ s.region h = none ∨ (∃ r, s.region h = some r ∧ r.pages * 65536 < ofs + len + 1) →
      ∃ t, exec (.tablePacket copies lanes bad) s = .next t ∧
        counted s t Reg.ISL_TABLE_NAK 1 ∧ raised t 0x10 6 ∧ t.isl.staged = s.isl.staged) ∧
    (∀ r, s.region h = some r → ofs + len + 1 ≤ r.pages * 65536 → ofs % 64 = 0 →
      (2 ≤ s.isl.staged.length ∨ bytes.length < len + 5 ∨ bad = true ∨
        (bytes.drop (len + 1)).take 4 ≠ leBytes 4 (crc32 (bytes.take (len + 1))) →
          ∃ t, exec (.tablePacket copies lanes bad) s = .next t ∧
            counted s t Reg.ISL_TABLE_NAK 1 ∧ raised t 0x10 6 ∧ t.isl.staged = s.isl.staged) ∧
      (s.isl.staged.length < 2 → len + 5 ≤ bytes.length → bad = false →
        (bytes.drop (len + 1)).take 4 = leBytes 4 (crc32 (bytes.take (len + 1))) →
          ∃ t, exec (.tablePacket copies lanes bad) s = .next t ∧
            t.isl.staged = s.isl.staged ++ [⟨tag, h, ofs, bytes.take (len + 1)⟩] ∧
            t.rd Reg.ISL_TABLE_NAK = s.rd Reg.ISL_TABLE_NAK))) ∧
  (∀ (s u : State) (q : StagedTable) (rest : List StagedTable) (k : Nat), s.boot.resetLow = false →
    s.isl.staged = q :: rest → s.dramReady = true → s.migWaits 8 q.handle q.ofs = false →
    s.engWrite 8 q.handle q.ofs q.data = (u, k) →
    (k = 0 → exec .tableCommitDone s = .next
      (({ u with isl := { u.isl with staged := rest } } : State).bcSend 9 0 (leBytes 2 q.tag ++ [0])
        |>.bump Reg.ISL_TABLE_OK)) ∧
    (k ≠ 0 → exec .tableCommitDone s = .next
      (((({ u with isl := { u.isl with staged := rest } } : State).bcSend 9 0 (leBytes 2 q.tag ++ [5]))
        |>.bump Reg.ISL_TABLE_NAK).raise 0x10 6)))

/-- R77 to R81, R86 and R87. The back-channel answers a request BUSY while one waits and DENIED without INBAND_EN, and LEN
where its count is out of range; it serves the others as port 2. A frame with a bad CRC-16 is discarded and counts. A
WAKE_REQ acts in S2 alone. An EVENT carries IRQ_SUMMARY, FRAME_NO and TIMEBASE. HPD_PULSE drives ISL_HPD low for 2 ms;
RETRAIN abandons the link. -/
def Obligations.BackChannel : Prop :=
  (∀ (s : State) (bytes p : List Byte) (tag : Nat), s.boot.resetLow = false → s.bcUp = true →
    (s.isl.req.isSome = true →
      (bcFrame bytes = some (1, tag, p) → exec (.regRd bytes) s
        = .next (((s.bump Reg.ISL_BC_RX_FRAMES).bump Reg.ISL_BC_BUSY_CNT).bcSend 2 tag (leBytes 4 1))) ∧
      (bcFrame bytes = some (3, tag, p) → exec (.regWr bytes) s
        = .next (((s.bump Reg.ISL_BC_RX_FRAMES).bump Reg.ISL_BC_BUSY_CNT).bcSend 4 tag [1]))) ∧
    (s.isl.req = none → s.flag Reg.ISL_CFG_INBAND_EN = false →
      (bcFrame bytes = some (1, tag, p) → exec (.regRd bytes) s
        = .next (((s.bump Reg.ISL_BC_RX_FRAMES).bump Reg.ISL_BC_DENIED_CNT).bcSend 2 tag (leBytes 4 2))) ∧
      (bcFrame bytes = some (3, tag, p) → exec (.regWr bytes) s
        = .next (((s.bump Reg.ISL_BC_RX_FRAMES).bump Reg.ISL_BC_DENIED_CNT).bcSend 4 tag [2]))) ∧
    (s.isl.req = none → s.flag Reg.ISL_CFG_INBAND_EN = true →
      (bcFrame bytes = some (1, tag, p) →
        (p.length ≠ 4 ∨ p.getD 3 0 = 0 ∨ 63 < (p.getD 3 0).toNat →
          exec (.regRd bytes) s = .next ((s.bump Reg.ISL_BC_RX_FRAMES).bcSend 2 tag (leBytes 4 3))) ∧
        (∀ a, a < 0x800000 → a % 4 = 0 → p = leBytes 3 a ++ [1] →
          ∀ t, t = (s.bump Reg.ISL_BC_RX_FRAMES).localRead 2 a true → t.1.isl = (s.bump Reg.ISL_BC_RX_FRAMES).isl →
            exec (.regRd bytes) s = .next (t.1.bcSend 2 tag (leBytes 4 0 ++ leBytes 4 t.2.toNat)))) ∧
      (bcFrame bytes = some (3, tag, p) →
        (p.length < 8 ∨ p.length % 4 ≠ 0 ∨ 256 < p.length →
          exec (.regWr bytes) s = .next ((s.bump Reg.ISL_BC_RX_FRAMES).bcSend 4 tag [3])) ∧
        (∀ (a : Nat) (w : Word), a < 0x1000000 → a % 4 = 0 → p = leBytes 3 a ++ [0] ++ leBytes 4 w.toNat →
          exec (.regWr bytes) s = .next (s.after (s.sameHold
            (((s.bump Reg.ISL_BC_RX_FRAMES).hostWrite 2 a w).bcSend 4 tag [0]))))))) ∧
  (∀ (s : State) (bytes p : List Byte) (tag : Nat), s.boot.resetLow = false → s.bcUp = true →
    (bcFrame bytes = none → exec (.bcFrameDiscard bytes) s = .next (s.bump Reg.ISL_BC_RX_CRC_ERR)) ∧
    (bcFrame bytes = some (8, tag, p) →
      (s.link ≠ lkS2 → exec (.wakeReq bytes) s = .next (s.bump Reg.ISL_BC_RX_FRAMES)) ∧
      (s.link = lkS2 → s.isl.fast = 0 → s.flag Reg.ISL_EQ_CFG_FAST_WAKE = true → ∃ t, exec (.wakeReq bytes) s = .next t ∧
        t.isl.fast = 1 ∧ t.isl.fastLanes = s.isl.upLanes ∧ t.isl.fastRate = s.isl.upRate ∧ t.isl.wakeDue = true)) ∧
    (s.isl.rises ≠ 0 → ∃ t, exec .bcEvent s = .next t ∧ t.isl.rises = 0 ∧ t.isl.eventAt = some t.now ∧
      counted s t Reg.ISL_BC_EVENTS_SENT 1 ∧ ∀ t0, s.isl.eventAt = some t0 → t0 + 25600000 ≤ t.now)) ∧
  (∀ (s : State) (inverted : Bool), s.boot.resetLow = false → s.bcActive = true → s.bcUp = false →
    ∃ t, exec (.bcRxLock inverted) s = .next t ∧ t.bcUp = true ∧
      t.flag (Reg.PHY_RXSTAT_INVERTED (phyBase laneBcRx)) = inverted) ∧
  (∀ (s : State) (port : Nat) (w : Word), s.Serves .ISL 0x10 → w.toNat % 4 = 0 →
    (∃ t, exec (.hpdPulse port w) s = .next t ∧ t.isl.pulse = some (s.now + 512000000) ∧ t.isl.hpd = false) ∧
    (s.link ≠ lkDOWN → s.link ≠ lkABSENT → s.isl.hpd = false → ∃ t, exec (.islRetrain port w) s = .next t ∧ t.link = lkDOWN) ∧
    (s.canTrain = true → ∃ t, exec (.islRetrain port w) s = .next t ∧
      t.link = lkDETECT ∧ t.fld Reg.ISL_LINK_STATE_RETRY = 0)) ∧
  (∀ (s : State) (ti : Nat), s.boot.resetLow = false → s.isl.pulse = some ti → s.now ≤ ti →
    ∃ t, exec .hpdPulseEnd s = .next t ∧ t.now = ti ∧ t.isl.pulse = none ∧ t.isl.hpd = t.hpdWant)

/-- A TRAIN frame from the source: its OP and its data (R78, R82). -/
def trainCame (s : State) (bytes : List Byte) (op : Nat) (d : List Byte) : Prop :=
  s.bcUp = true ∧ ∃ tag phase, bcFrame bytes = some (6, tag, phase :: BitVec.ofNat 8 op :: d)

/-- R82 to R87 and R500. Training: DOWN starts at DETECT once ISL_HPD is high and BC_RX is active, with the limits of that
moment; CAPS sets the lesser of each side's maximum and opens RATE; EQ begins when every lane in use has locked; the height
of an eye is found by seven halvings each way, and the next preset asked for; ALIGN ends with lanes in order and skews
within 256 UI, else the attempt fails with 0x03 or 0x04; an attempt that fails, by FAIL from the source or after 10 ms,
counts, and the third retry's failure makes the link ABSENT. READY from the source turns the scramblers on. A fast retrain
sends READY when its lanes are awake, or counts in FAST_FAIL after 300 µs and gives way to full training. -/
def Obligations.Training : Prop :=
  (∀ s : State, s.boot.resetLow = false →
    (s.canTrain = true → s.link = lkDOWN → ∃ t, exec .linkTrainStart s = .next t ∧ t.link = lkDETECT ∧
      t.fld Reg.ISL_LINK_STATE_RETRY = 0 ∧ t.isl.since = s.now ∧ t.isl.hold = false ∧
      t.isl.capLanes = min 4 (s.fld Reg.ISL_CFG_LANES) ∧ t.isl.capRate = s.rateLimit' 0) ∧
    (∀ bytes d, trainCame s bytes 3 d → exec (.trainOk bytes) s = .next (s.bump Reg.ISL_BC_RX_FRAMES)) ∧
    (∀ bytes d, trainCame s bytes 6 d → s.isl.ready = 1 → ∃ t, exec (.trainReady bytes) s = .next t ∧
      t.isl.ready = 2 ∧ t.isl.since = s.now ∧ ∀ k, k < 16 → (t.lane k).scrambled = true ∧ (t.lane k).needSeed = true) ∧
    (∀ bytes d, trainCame s bytes 5 d → ∃ t, exec (.presetAck bytes) s = .next t ∧
      t.isl.asked = s.isl.asked.filter (fun a => a ≠ (leField d 0 2, byteAt d 2)) ∧ counted s t Reg.ISL_BC_RX_FRAMES 1) ∧
    (∀ bytes d, trainCame s bytes 7 d → s.training = true → s.isl.fast = 0 → s.fld Reg.ISL_LINK_STATE_RETRY < 3 →
      ∃ t, exec (.trainFail bytes) s = .next t ∧
        t.link = lkDETECT ∧ t.fld Reg.ISL_LINK_STATE_RETRY = s.fld Reg.ISL_LINK_STATE_RETRY + 1 ∧
        t.fld Reg.ISL_TRAIN_FAIL_REASON = 6 ∧ t.fld Reg.ISL_TRAIN_FAIL_PHASE = s.link) ∧
    (s.training = true → s.isl.fast = 0 → s.isl.hold = false → s.fld Reg.ISL_LINK_STATE_RETRY = 3 →
      s.gateClosed 0x10 = false → ∃ t, exec (.trainPhaseTimeout 0) s = .next t ∧
        t.link = lkABSENT ∧ counted s t Reg.ISL_ABSENT_CNT 1 ∧ raised t 0x10 2 ∧
        t.fld Reg.ISL_TRAIN_FAIL_REASON = (if s.link = lkRATE then 2 else 1)) ∧
    (∀ bytes d, trainCame s bytes 1 d → s.link = lkDETECT →
      (byteAt d 2 % 32 ≠ 0 → s.isl.capLanes ≤ 4 → s.isl.capRate ≤ 7 →
        ∃ t, exec (.trainCaps bytes) s = .next t ∧ t.link = lkRATE ∧
          t.fld Reg.ISL_LINK_STATE_LANES = min (byteAt d 0) s.isl.capLanes ∧
          t.fld Reg.ISL_LINK_STATE_RATE = min (byteAt d 1) s.isl.capRate) ∧
      (byteAt d 2 % 32 = 0 → ∃ t, exec (.trainCaps bytes) s = .next t ∧ t.fld Reg.ISL_TRAIN_FAIL_REASON = 5)) ∧
    (∀ blocks inv, s.link = lkRATE → (∀ k, k < s.islLanes → s.laneCarries (laneIsl k) = true ∧
        blockGood (copyOn blocks k) = true ∧ byteAt (copyOn blocks k) 0 = rowTS1) →
      ∃ t, exec (.ts1Block 0 blocks inv) s = .next t ∧ t.link = lkEQ ∧
        ∀ k, k < s.islLanes → t.flag (Reg.PHY_RXSTAT_LOCK (phyBase k)) = true) ∧
    (∀ blocks skews, s.link = lkALIGN →
      (∀ k, k < s.islLanes → blockGood (copyOn blocks k) = true ∧ byteAt (copyOn blocks k) 0 = rowALN) →
      ((∀ k, k < s.islLanes → byteAt (copyOn blocks k) 1 % 16 = k ∧ skews.getD k 0 ≤ 256) →
        ∃ t, exec (.alnRow 0 blocks skews) s = .next t ∧ t.link = lkREADY ∧ t.isl.ready = 1 ∧
          ∀ k, k < s.islLanes → t.fld (Reg.ISL_LANE_LSTAT_SKEW k) = skews.getD k 0) ∧
      ((∃ k, k < s.islLanes ∧ byteAt (copyOn blocks k) 1 % 16 ≠ k) →
        ∃ t, exec (.alnRow 0 blocks skews) s = .next t ∧ t.fld Reg.ISL_TRAIN_FAIL_REASON = 3) ∧
      ((∀ k, k < s.islLanes → byteAt (copyOn blocks k) 1 % 16 = k) → (∃ k, k < s.islLanes ∧ 256 < skews.getD k 0) →
        ∃ t, exec (.alnRow 0 blocks skews) s = .next t ∧ t.fld Reg.ISL_TRAIN_FAIL_REASON = 4)) ∧
    (∀ eyes, s.link = lkEQ → s.isl.asked = [] →
      (s.isl.settling = true → ∃ t, exec (.eqPresetMeasure 0 eyes) s = .next t ∧ t.link = lkALIGN) ∧
      (∀ p q rest, s.isl.settling = false → s.isl.presets = p :: q :: rest →
        ∃ t, exec (.eqPresetMeasure 0 eyes) s = .next t ∧ t.link = lkEQ ∧ t.isl.presets = q :: rest ∧
          t.isl.asked = [(2 ^ s.islLanes - 1, q)])) ∧
    (s.isl.ready = 0 → (∀ k, k < s.fastUses → s.laneCarries (laneIsl k) = true) →
      (s.isl.fast = 1 → ∃ t, exec .fastRetrainDone s = .next t ∧ t.link = lkREADY ∧ t.isl.ready = 1 ∧
        t.fld Reg.ISL_LINK_STATE_LANES = s.isl.fastLanes % 8 ∧ t.fld Reg.ISL_LINK_STATE_RATE = s.isl.fastRate % 8) ∧
      (s.isl.fast = 2 → ∃ t, exec .fastRetrainDone s = .next t ∧ t.link = s.link ∧ t.isl.ready = 1)) ∧
    (s.isl.fast ≠ 0 → s.isl.ready = 0 → s.now ≤ s.isl.since + 76800000 → ∃ t, exec .fastFail s = .next t ∧
      t.link = lkDETECT ∧ counted s t Reg.ISL_FAST_FAIL 1 ∧ t.now = s.isl.since + 76800000)) ∧
  (∀ up down h, (∀ m, 0 < m → m < 128 → (bit up m = true ↔ m ≤ h)) → (∀ m, 0 < m → m < 128 → (bit down m = true ↔ m ≤ h)) →
    h < 128 → eyeHeight up down = 2 * h)


/-! INPUT and STATS (R117 to R136). -/

/-- R117 to R119, R126 and R127. An integer code is widened by replication, so that code 0 stands at position 0 and full
scale at 65,536. The light at a position is its entry, or the exact value between two entries, rounded once; each entry is
sanitised before, a NaN to +0 and an infinity to the largest finite number of its sign. The clip leaves every sample
between +0 and 1.0 and says what it lost, and the required light is at most 1.0. While INPUT's EN is 0 a binary16 code
passes unchanged and nothing is counted. -/
def Obligations.CodesBecomeLight : Prop :=
  (∀ c, (c < 2 ^ 8 → widen 0 c = c * 257) ∧ (c < 2 ^ 10 → widen 1 c = c * 2 ^ 6 + c / 2 ^ 4) ∧
    (c < 2 ^ 12 → widen 2 c = c * 2 ^ 4 + c / 2 ^ 8) ∧ widen 3 c = c) ∧
  (∀ fmt, fmt < 4 → eotfPos (widen fmt 0) = 0 ∧ eotfPos (widen fmt (2 ^ fmtBits fmt - 1)) = 65536) ∧
  (∀ (s : State) (ch p : Nat) (e : Nat → Sample),
    (∀ k, e k = sanitize (s.eotfEntry (s.fldA Reg.INPUT_EOTF_CFG_BANK) ch k)) →
    (p % 16 = 0 → s.eotf ch p = e (p / 16)) ∧
    (p % 16 ≠ 0 → s.eotf ch p = round16 (Frac.add (val16 (e (p / 16))) (Frac.mul ⟨((p % 16 : Nat) : Int), 16⟩
      (Frac.sub (val16 (e (p / 16 + 1))) (val16 (e (p / 16)))))))) ∧
  (∀ v : Sample, sanitize v = if v.toNat % 2 ^ 15 > 0x7C00 then 0 else if v = 0x7C00 then 0x7BFF
    else if v = 0xFC00 then 0xFBFF else v) ∧
  (∀ v : Sample, clip01 v = if v.toNat % 2 ^ 15 > 0x7C00 then (0, false, false)
    else if 0x8000 ≤ v.toNat then (0, true, false) else if 0x3C00 < v.toNat then (0x3C00, false, true)
    else (v, false, false)) ∧
  (∀ (s : State) (fmt r g b : Nat), (s.inputPixel fmt r g b).y.toNat ≤ 0x3C00 ∧
    (s.unitOn 0x40 = true → (s.inputPixel fmt r g b).pix.r.toNat ≤ 0x3C00 ∧
      (s.inputPixel fmt r g b).pix.g.toNat ≤ 0x3C00 ∧ (s.inputPixel fmt r g b).pix.b.toNat ≤ 0x3C00) ∧
    (s.unitOn 0x40 = false → (s.inputPixel fmt r g b).nans = 0 ∧ (s.inputPixel fmt r g b).neg = false ∧
      (s.inputPixel fmt r g b).hi = false ∧ (fmt = 4 →
        (s.inputPixel fmt r g b).pix = ⟨BitVec.ofNat 16 r, BitVec.ofNat 16 g, BitVec.ofNat 16 b⟩)))

/-- R121 and R122. LUT_DATA reaches the load bank: a write stores its low half at INDEX, in one channel or in all three, a
read answers the entry there, and both move INDEX on, which wraps after 4,096; no access reaches the active bank. While a
load runs or a change of BANK waits, a write is dropped and counted. -/
def Rules.EotfBanksFill : Prop :=
  ∀ (s : State) (port i ch bank : Nat) (w : Word), s.Serves .INPUT 0x40 → i = (if s.fld Reg.INPUT_LUT_ADDR_INDEX ≤ 4096 then s.fld Reg.INPUT_LUT_ADDR_INDEX else 0) →
    ch = s.fld Reg.INPUT_LUT_ADDR_CH → bank = s.fldA Reg.INPUT_EOTF_CFG_BANK →
    (s.lutBusy = true ∨ s.switching Reg.INPUT_EOTF_CFG_BANK = true →
      exec (.lutDataAccess port (some w)) s = .next (s.bump Reg.INPUT_LUT_BUSY_CNT)) ∧
    (s.lutBusy = false → s.switching Reg.INPUT_EOTF_CFG_BANK = false → s.inp.load = none →
      ∃ t, exec (.lutDataAccess port (some w)) s = .next t ∧
        t.fld Reg.INPUT_LUT_ADDR_INDEX = (if i = 4096 then 0 else i + 1) ∧
        (∀ c k, c < 3 → k ≤ 4096 → t.eotfEntry (1 - bank) c k
          = if (ch = 3 ∨ ch = c) ∧ k = i then w.setWidth 16 else s.eotfEntry (1 - bank) c k) ∧
        (∀ c k, t.eotfEntry bank c k = s.eotfEntry bank c k) ∧ t = { s with regs := t.regs, inp := t.inp }) ∧
    (∃ t, exec (.lutDataAccess port none) s = .next t ∧
        t.fld Reg.INPUT_LUT_ADDR_INDEX = (if i = 4096 then 0 else i + 1) ∧
        t.out = ⟨.hostData, port, [(s.eotfEntry (1 - bank) (if ch = 3 then 0 else ch) i).toNat]⟩ :: s.out ∧
        t = { s with regs := t.regs, out := t.out })

/-- R123, R124. LOAD fixes the bank, the curve and its parameters and sets BUSY; one written while a load runs or a change
of BANK waits is ignored and counted. The load ends with the curve in every channel of its bank and LUT_DONE, or, for a
reserved curve, a PEAK_NITS of 0 for PQ, a bad BLACK for BT.1886 or a core that restarted, in FAILED and LUT_FAILED; the
other bank stays. -/
def Rules.EotfPresetLoads : Prop :=
  (∀ (s : State) (port : Nat) (w : Word), s.Serves .INPUT 0x40 →
    ∃ t, exec (.lutLoad port w) s = .next t ∧ t.fld Reg.INPUT_LUT_CTRL_PRESET = w.toNat % 8 ∧
      (s.lutBusy = true ∨ s.switching Reg.INPUT_EOTF_CFG_BANK = true → t.inp = s.inp ∧
        t.fld (wholeFld Reg.INPUT_LUT_BUSY_CNT) = min (2 ^ 32 - 1) (s.fld (wholeFld Reg.INPUT_LUT_BUSY_CNT) + 1)) ∧
      (s.lutBusy = false → s.switching Reg.INPUT_EOTF_CFG_BANK = false → t.lutBusy = true ∧
        t.flag Reg.INPUT_LUT_STATUS_FAILED = false ∧ t.inp = { s.inp with load := some ⟨1 - s.fldA Reg.INPUT_EOTF_CFG_BANK,
          w.toNat % 8, s.fld Reg.INPUT_PRESET_PARAM_PEAK_NITS, s.fld Reg.INPUT_PRESET_PARAM_BLACK,
          false⟩ })) ∧
  (∀ (s : State) (j : EotfLoad) (fails : Bool), s.boot.resetLow = false → s.inp.load = some j → j.bank ≤ 1 →
    s.gateClosed 0x40 = false → s.coreRunning = true →
    fails = (3 < j.preset || (j.preset == 1 && j.peak == 0) || (j.preset == 3 && blackBad (BitVec.ofNat 16 j.black))
      || j.restarted) →
    ∃ t, exec .lutDone s = .next t ∧ t.lutBusy = false ∧ t.flag Reg.INPUT_LUT_STATUS_FAILED = fails ∧ t.inp.load = none ∧
      t.fld ⟨Reg.HDR_IRQ_RAW 0x40, if fails then 1 else 0, 1⟩ = 1 ∧
      (∀ c k, t.eotfEntry (1 - j.bank) c k = { s with inp := { s.inp with load := none } }.eotfEntry (1 - j.bank) c k) ∧
      (fails = false → j.black ≠ 0x8000 → ∀ c k, c < 3 → k ≤ 4096 →
        t.eotfEntry j.bank c k = presetEntry j.preset (j.peak + 65536 * j.black) k))

/-- R135 and R136. A write of 1 to CAP_STATUS.VALID arms the capture again. A read of RB_DATA answers the record of the
complete set at RB_ADDR, need below and y_max above, and moves RB_ADDR on, which wraps after the last configured zone. -/
def Rules.StatsReadOut : Prop :=
  ∀ (s : State) (port : Nat) (w : Word), s.Serves .STATS 0x41 →
    exec (.capStatusWrite port w) s = .next (s.wr Reg.STATS_CAP_STATUS (s.rd Reg.STATS_CAP_STATUS &&& ~~~(w &&& 1))) ∧
    (∀ i r, i = s.fld ⟨Reg.STATS_RB_ADDR, 0, 14⟩ → s.zoneRec i = some r →
      ∃ t, exec (.statsRbDataRead port) s = .next t ∧
        t.fld ⟨Reg.STATS_RB_ADDR, 0, 14⟩ = (if s.zoneCount - 1 ≤ i then 0 else (i + 1) % 2 ^ 14) ∧
        t.out = ⟨.hostData, port, [r.need.toNat + 65536 * r.ymax.toNat]⟩ :: s.out ∧
        t = { s with regs := t.regs, out := t.out })

/-- R128 and R129. The bin of a pixel is the exponent of its required light, and a zone counts it there. A zone's need is
at least the FRAC part of its maximum, and with FRAC 0 never above its maximum. -/
def Rules.ZoneNeedBounds : Prop :=
  (∀ y : Sample, y.toNat ≤ 0x3C00 → binOf y = y.toNat / 2 ^ 10 ∧ binOf y ≤ 15) ∧
  (∀ (a : ZoneAcc) (y : Sample), a.hist.length = 16 → y.toNat ≤ 0x3C00 → (a.add y).n = a.n + 1 ∧
    (a.add y).hist.sum = a.hist.sum + 1 ∧ (a.add y).hist.length = 16 ∧
    (a.add y).ymax.toNat = max a.ymax.toNat y.toNat) ∧
  (∀ (a : ZoneAcc) (pct : Nat) (frac : Sample),
    (round16 (Frac.mul (val16 (fracAct frac)) (val16 a.ymax))).toNat ≤ (zoneNeed a pct frac).toNat) ∧
  (∀ (a : ZoneAcc) (pct : Nat), (zoneNeed a pct 0).toNat ≤ a.ymax.toNat)


/-! ZONE and PSF (R162 to R188). -/

/-- R165, R173, R175 and R186. The tables of ZONE and PSF behind their windows: an access to CLASS_DATA reaches a word of the
pending class map, bit 3 of each zone reserved; one to AG_DATA the staging gains, a write being dropped and counted while a
commit waits or AGE_CFG.SRC is 0; one to PSF.DATA the bank that is not active, a write being dropped and counted while a
change of BANK waits. LV_DATA answers λ and δ of the last frame's record. Each moves its index on, which wraps after the
last entry. -/
def Rules.ZoneTables : Prop :=
  (∀ (s : State) (port i : Nat) (w : Word), s.Serves .ZONE 0x50 → i = s.fld ⟨Reg.ZONE_CLASS_ADDR, 0, 11⟩ →
    (∃ t, exec (.classDataAccess port (some w)) s = .next t ∧ t.fld ⟨Reg.ZONE_CLASS_ADDR, 0, 11⟩ = (i + 1) % 2048 ∧
      (∀ z, classIn t.zon.classPend z = if z / 8 = i then w.toNat / 16 ^ (z % 8) % 8 else classIn s.zon.classPend z) ∧
      t.zon.classAct = s.zon.classAct ∧ t = { s with regs := t.regs, zon := t.zon }) ∧
    (∃ t, exec (.classDataAccess port none) s = .next t ∧ t.fld ⟨Reg.ZONE_CLASS_ADDR, 0, 11⟩ = (i + 1) % 2048 ∧
      t.out = ⟨.hostData, port, [(Cells.get (fun _ => 0) s.zon.classPend i).toNat]⟩ :: s.out ∧
      t = { s with regs := t.regs, out := t.out })) ∧
  (∀ (s : State) (port i : Nat) (w : Word), s.Serves .ZONE 0x50 → i = s.fld ⟨Reg.ZONE_AG_ADDR, 0, 14⟩ →
    (s.agPending = true ∨ s.fld Reg.ZONE_AGE_CFG_SRC = 0 →
      exec (.agDataAccess port (some w)) s = .next (s.bump Reg.ZONE_AG_DROP)) ∧
    (s.agPending = false → s.fld Reg.ZONE_AGE_CFG_SRC = 1 →
      ∃ t, exec (.agDataAccess port (some w)) s = .next t ∧ t.fld ⟨Reg.ZONE_AG_ADDR, 0, 14⟩ = (i + 1) % 16384 ∧
        (∀ z, Tab.get (fun _ => oneS) t.zon.stage z = if z = i then w.setWidth 16 else Tab.get (fun _ => oneS) s.zon.stage z) ∧
        t.zon.gains = s.zon.gains ∧ t = { s with regs := t.regs, zon := t.zon }) ∧
    (∃ t, exec (.agDataAccess port none) s = .next t ∧ t.fld ⟨Reg.ZONE_AG_ADDR, 0, 14⟩ = (i + 1) % 16384 ∧
      t.out = ⟨.hostData, port, [(Tab.get (fun _ => oneS) s.zon.stage i).toNat]⟩ :: s.out ∧
      t = { s with regs := t.regs, out := t.out }) ∧
    (∀ j, j = s.fld ⟨Reg.ZONE_LV_ADDR, 0, 14⟩ → ∃ t, exec (.lvDataRead port) s = .next t ∧
      t.fld ⟨Reg.ZONE_LV_ADDR, 0, 14⟩ = (if s.zoneTotal - 1 ≤ j then 0 else (j + 1) % 16384) ∧
      t.out = ⟨.hostData, port, [(levelAt s.levelsWas j).lam.toNat + 65536 * (levelAt s.levelsWas j).delta.toNat]⟩ :: s.out ∧
      t = { s with regs := t.regs, out := t.out })) ∧
  (∀ (s : State) (port i cls bank : Nat) (w : Word), s.Serves .PSF 0x51 → cls = s.fld Reg.PSF_ADDR_CLASS →
    i = (if s.fld Reg.PSF_ADDR_INDEX ≤ 3248 then s.fld Reg.PSF_ADDR_INDEX else 0) → bank = s.fldA Reg.PSF_CFG_BANK →
    (s.switching Reg.PSF_CFG_BANK = true → exec (.psfDataAccess port (some w)) s = .next (s.bump Reg.PSF_BUSY_CNT)) ∧
    (s.switching Reg.PSF_CFG_BANK = false → ∃ t, exec (.psfDataAccess port (some w)) s = .next t ∧
      t.fld Reg.PSF_ADDR_INDEX = (if i = 3248 then 0 else i + 1) ∧
      (∀ c k, c < 8 → k ≤ 3248 → t.psfAt (1 - bank) c k
        = if c = cls ∧ k = i then w.toNat % 2 ^ 16 else s.psfAt (1 - bank) c k) ∧
      (∀ c k, t.psfAt bank c k = s.psfAt bank c k) ∧ t = { s with regs := t.regs, psf := t.psf }) ∧
    (∃ t, exec (.psfDataAccess port none) s = .next t ∧ t.fld Reg.PSF_ADDR_INDEX = (if i = 3248 then 0 else i + 1) ∧
      t.out = ⟨.hostData, port, [s.psfAt (1 - bank) cls i]⟩ :: s.out ∧ t = { s with regs := t.regs, out := t.out }))

/-- R171 and R173. A write of PCAP above PCAP_SAFE without the presence window is refused, counted as a privileged write,
and PCAP stays; else the write stores. AG_COMMIT makes the staging gains active at the next boundary, AG_PENDING being 1
until then. With AGE_CFG.SRC 0 the control core writes every gain and commits; while a commit waits its writes are dropped
and counted. -/
def Rules.CapAndGains : Prop :=
  (∀ (s : State) (port : Nat) (w : Word), s.Serves .ZONE 0x50 →
    (∀ lim, pcapAct (BitVec.ofNat 16 (s.rd Reg.ZONE_PCAP_SAFE).toNat) = some lim → s.presenceOpen = false →
      (pcapAct (BitVec.ofNat 16 w.toNat) = none ∨ ∃ v, pcapAct (BitVec.ofNat 16 w.toNat) = some v ∧ (val16 lim).lt (val16 v) = true) →
        ∃ t, exec (.pcapWrite port w) s = .next t ∧ t.rd Reg.ZONE_PCAP = s.rd Reg.ZONE_PCAP ∧
          t.fld (wholeFld Reg.SEC_REFUSED) = min (2 ^ 32 - 1) (s.fld (wholeFld Reg.SEC_REFUSED) + 1)) ∧
    (s.presenceOpen = true ∨ pcapAct (BitVec.ofNat 16 (s.rd Reg.ZONE_PCAP_SAFE).toNat) = none →
      ∃ t, exec (.pcapWrite port w) s = .next t ∧ t.fld ⟨Reg.ZONE_PCAP, 0, 16⟩ = w.toNat % 2 ^ 16 ∧ t = { s with regs := t.regs }) ∧
    (w.toNat % 2 = 1 → exec (.agCommit port w) s = .next (s.put Reg.ZONE_STATUS_AG_PENDING 1)) ∧
    (w.toNat % 2 = 0 → exec (.agCommit port w) s = .next s)) ∧
  (∀ s : State, s.boot.resetLow = false → s.fld Reg.ZONE_AGE_CFG_SRC = 0 → s.firmware = true →
    ∃ t, exec .ageGainUpdate s = .next t ∧ t.agPending = true ∧ t.zon.gains = s.zon.gains ∧
      (s.agPending = true → t.zon.stage = s.zon.stage ∧
        t.fld (wholeFld Reg.ZONE_AG_DROP) = min (2 ^ 32 - 1) (s.fld (wholeFld Reg.ZONE_AG_DROP) + 16384)) ∧
      (s.agPending = false → ∀ z, z < 16384 → Tab.get (fun _ => oneS) t.zon.stage z = s.ageGainOf z)) ∧
  (∀ s : State, s.agPending = true → s.agApply.zon.gains = s.zon.stage ∧ s.agApply.agPending = false)

/-- R176. CALC takes the figures of the bank that is not active, CALC_BUSY being 1 meanwhile; one written while it is 1 is
ignored and counted. At its end LOAD_INFO holds PEAK, VREACH and CENTRE_ZERO of every class, and CALC_DONE is raised. -/
def Rules.PsfFigures : Prop :=
  (∀ (s : State) (port : Nat) (w : Word), s.Serves .PSF 0x51 → w.toNat % 2 = 1 →
    exec (.psfCalc port w) s = .next (if s.flag Reg.PSF_STATUS_CALC_BUSY then s.bump Reg.PSF_BUSY_CNT
      else { s.put Reg.PSF_STATUS_CALC_BUSY 1 with psf := { s.psf with calcBank := 1 - s.fldA Reg.PSF_CFG_BANK } })) ∧
  (∀ s : State, s.boot.resetLow = false → s.flag Reg.PSF_STATUS_CALC_BUSY = true → s.gateClosed 0x51 = false →
    ∃ t, exec .psfCalcDone s = .next t ∧ t.flag Reg.PSF_STATUS_CALC_BUSY = false ∧ t.fld ⟨Reg.HDR_IRQ_RAW 0x51, 0, 1⟩ = 1 ∧
      ∀ c, c < 8 → t.rd (Reg.PSF_LOAD_INFO c) = s.psfInfo s.psf.calcBank c) ∧
  (∀ (s : State) (b c : Nat), s.psfAt b c 1624 = 0 ↔ (s.psfInfo b c).toNat / 2 ^ 24 % 2 = 1)

/-- R167 to R169. ZONE_ROW_SOLVE solves the next row once FIELD has processed the line before it: every zone of it gets a
level, whose drive δ lies between L_MIN and 1.0 (it stands in B36, which has to serve PIX), and the row counts as solved. -/
def Rules.ZoneRowsSolve : Prop :=
  ∀ s : State, s.boot.resetLow = false → s.tim.running = true → s.zon.solved < s.zoneRows →
    s.rowMay s.zon.solved = true →
    ∃ t, exec .zoneRowSolve s = .next t ∧ t.zon.solved = s.zon.solved + 1 ∧
      (∀ z, z / s.zoneCols ≠ s.zon.solved → levelAt t.zon.cur z = levelAt s.zon.cur z) ∧
      (s.bankFor 36 ownPix = true → ∀ z, z / s.zoneCols = s.zon.solved → s.lMin.toNat ≤ (levelAt t.zon.cur z).delta.toNat ∧
        (levelAt t.zon.cur z).delta.toNat ≤ 0x3C00) ∧
      t.zon.hist = s.zon.hist ∧ t.zon.gains = s.zon.gains


/-! SPLIT and CELLLUT (R189 to R210). -/

/-- R204 and R206. CLIP_DATA answers the clipped pixels of a zone in the complete set. CELLLUT.DATA reaches the bank that is
not active, one table or R, G and B together, a read with TABLE 4 answering R; a write while a change of BANK waits is
dropped and counted. Each moves its index on, which wraps after the last entry. -/
def Rules.SplitTables : Prop :=
  (∀ (s : State) (port i : Nat), s.Serves .SPLIT 0x53 → i = s.fld ⟨Reg.SPLIT_CLIP_ADDR, 0, 14⟩ →
    ∃ t, exec (.clipDataRead port) s = .next t ∧
      t.fld ⟨Reg.SPLIT_CLIP_ADDR, 0, 14⟩ = (if s.zoneCount - 1 ≤ i then 0 else (i + 1) % 16384) ∧
      t.out = ⟨.hostData, port, [Cells.get (fun _ => 0) s.spl.done i % 2 ^ 25]⟩ :: s.out ∧
      t = { s with regs := t.regs, out := t.out }) ∧
  (∀ (s : State) (port i tab bank : Nat) (w : Word), s.Serves .CELLLUT 0x54 →
    tab = min 4 (s.fld Reg.CELLLUT_ADDR_TABLE) →
    i = (if s.fld Reg.CELLLUT_ADDR_INDEX ≤ 1024 then s.fld Reg.CELLLUT_ADDR_INDEX else 0) →
    bank = s.fldA Reg.CELLLUT_CFG_BANK →
    (s.switching Reg.CELLLUT_CFG_BANK = true →
      exec (.celllutDataAccess port (some w)) s = .next (s.bump Reg.CELLLUT_BUSY_CNT)) ∧
    (s.switching Reg.CELLLUT_CFG_BANK = false → ∃ t, exec (.celllutDataAccess port (some w)) s = .next t ∧
      t.fld Reg.CELLLUT_ADDR_INDEX = (if i = 1024 then 0 else i + 1) ∧
      (∀ c k, c < 4 → k ≤ 1024 → t.cellEntry (1 - bank) c k
        = if (c = tab ∨ (tab = 4 ∧ c < 3)) ∧ k = i then w.toNat % 2 ^ 16 else s.cellEntry (1 - bank) c k) ∧
      (∀ c k, t.cellEntry bank c k = s.cellEntry bank c k) ∧ t = { s with regs := t.regs, spl := t.spl }) ∧
    (∃ t, exec (.celllutDataAccess port none) s = .next t ∧
      t.fld Reg.CELLLUT_ADDR_INDEX = (if i = 1024 then 0 else i + 1) ∧
      t.out = ⟨.hostData, port, [s.cellEntry (1 - bank) (if tab = 4 then 0 else tab) i]⟩ :: s.out ∧
      t = { s with regs := t.regs, out := t.out }))

/-- R191, R199, R203, R205 and R207. A channel's transmittance is 0 for no light asked, 1.0 where the quotient is 1 or more,
and clips only above it. A drive code lies between the two entries it is interpolated from, which with EN at 0 is the
transmittance over its full range. -/
def Rules.LightBecomesCodes : Prop :=
  (∀ d, divide 0 d = (0, false)) ∧
  (∀ n d, 0 < d → divide n d = if d ≤ n then (0x3C00, decide (d < n)) else (round16 ⟨(n : Int), d⟩, false)) ∧
  (∀ n, 0 < n → divide n 0 = (0x3C00, true)) ∧
  (∀ (s : State) (tab lo hi : Nat) (v : Sample), v.toNat ≤ 0x3C00 → s.unitOn 0x54 = true →
    lo = (if v.toNat < 0x400 then 0 else v.toNat / 32) → hi = (if v.toNat < 0x400 then 32 else if v.toNat % 32 = 0 then lo else lo + 1) →
    min (s.cellEntry (s.fldA Reg.CELLLUT_CFG_BANK) tab lo) (s.cellEntry (s.fldA Reg.CELLLUT_CFG_BANK) tab hi) ≤ s.cellCode tab v ∧
    s.cellCode tab v ≤ max (s.cellEntry (s.fldA Reg.CELLLUT_CFG_BANK) tab lo) (s.cellEntry (s.fldA Reg.CELLLUT_CFG_BANK) tab hi)) ∧
  (∀ (s : State) (tab : Nat), s.unitOn 0x54 = false → s.cellCode tab 0 = 0 ∧ s.cellCode tab 0x3C00 = 65535)


/-! PATCH and DEFECT (R211 to R235). -/

/-- R214 and R215. The correction is 0 at code 0 and without a step; its result is a 16-bit code; at a knot it is the knot's
offset times the step over 128, rounded once, and above K3 it stays that of K3. -/
def Rules.PatchCorrects : Prop :=
  (∀ k1 k2 k3 field step, 0 < k1 → patchCode k1 k2 k3 field step 0 = 0) ∧
  (∀ k1 k2 k3 field d, patchCode k1 k2 k3 field 0 d = d) ∧
  (∀ k1 k2 k3 field step d, 0 < step → patchCode k1 k2 k3 field step d ≤ 65535) ∧
  (∀ k1 k2 k3 field step, 0 < k1 → k1 < k2 → k2 < k3 → 0 < step →
    patchCode k1 k2 k3 field step k1 = (max 0 (min 65535 (k1 + (sext 6 field * step + 64) / 128))).toNat ∧
    patchCode k1 k2 k3 field step k2 = (max 0 (min 65535 (k2 + (sext 6 (field / 64) * step + 64) / 128))).toNat ∧
    ∀ d, k3 ≤ d → patchCode k1 k2 k3 field step d
      = (max 0 (min 65535 (d + (sext 6 (field / 4096) * step + 64) / 128))).toNat) ∧
  (∀ e n, e < 16 → n < 16 → 0 < e + n → scaleStep (16 * e + n) = (16 + n) * 2 ^ e) ∧ scaleStep 0 = 0

/-- R219. START takes the handle and the byte count of the set's pending configuration and sets BUSY; one while BUSY is 1 is
ignored. The check ends with the CRC-32 of those bytes and DONE, or, when a read faulted, with FAULT and DONE and a CRC of
0, and raises CHECK_DONE. -/
def Rules.PatchChecks : Prop :=
  (∀ (s : State) (port : Nat) (w : Word), s.Serves .PATCH 0x60 →
    ∃ t, exec (.checkStart port w) s = .next t ∧ t.fld Reg.PATCH_CHECK_SET = w.toNat / 16 % 2 ∧
      (s.flag Reg.PATCH_CHECK_STATUS_BUSY = true → t.pat = s.pat ∧ t.rd Reg.PATCH_CHECK_STATUS = s.rd Reg.PATCH_CHECK_STATUS) ∧
      (s.flag Reg.PATCH_CHECK_STATUS_BUSY = false → t.rd Reg.PATCH_CHECK_STATUS = 1 ∧ t.rd Reg.PATCH_CHECK_CRC = 0 ∧
        t.pat.check = some (if w.toNat / 16 % 2 = 0
          then (s.fld Reg.PATCH_SET0_HANDLE, if s.flag Reg.PATCH_CFG_COARSE0 then s.patchCoarsePend.bytes else s.patchFullPend.bytes)
          else (s.fld Reg.PATCH_SET1_HANDLE, if s.flag Reg.PATCH_CFG_COARSE1 then s.patchCoarsePend.bytes else s.patchFullPend.bytes)))) ∧
  (∀ (s : State) (h n : Nat), s.boot.resetLow = false → s.pat.check = some (h, n) → s.dramReady = true →
    s.gateClosed 0x60 = false →
    ∃ t, exec .checkDone s = .next t ∧ t.pat.check = none ∧ t.flag Reg.PATCH_CHECK_STATUS_BUSY = false ∧
      t.flag Reg.PATCH_CHECK_STATUS_DONE = true ∧ t.fld ⟨Reg.HDR_IRQ_RAW 0x60, 3, 1⟩ = 1 ∧
      t.flag Reg.PATCH_CHECK_STATUS_FAULT = decide ((s.engRead 11 h 0 n).2.1 ≠ 0) ∧
      t.rd Reg.PATCH_CHECK_CRC = if (s.engRead 11 h 0 n).2.1 = 0
        then BitVec.ofNat 32 (crc32 (s.engRead 11 h 0 n).2.2) else 0)

/-- R222. At a start-up from flash the firmware looks at the coarse image once. One whose MAGIC, geometry or CRC-32 fails
leaves PATCH as it is and raises COARSE_BAD with the reason 1, 2 or 3, and one for which MEMC gives no region with 4; a
good one, stored in the region that MEMC gave, is applied and waits for the validator. -/
def Rules.CoarseSetLoads : Prop :=
  ∀ (s : State) (head : List Byte) (n : Nat), s.boot.resetLow = false → s.firmware = true → s.flag Reg.HOSTIF_STRAPS_BOOT_SRC = false →
    s.flag Reg.PATCH_STATUS_COARSE_LOADED = false → s.flag Reg.PATCH_STATUS_COARSE_BAD = false → s.pat.coarseDue = false →
    s.gateClosed 0x60 = false → head = s.flashRd 0x810000 64 → n = leVal ((head.drop 12).take 4) →
    (leVal (head.take 4) ≠ 0x43504D31 → s.coarseWhy head = 1) ∧
    (leVal (head.take 4) = 0x43504D31 → n ≠ (patchCoarse s.hact s.vact s.wm).bytes → s.coarseWhy head = 2) ∧
    (leVal (head.take 4) = 0x43504D31 → crc32 (head.take 60 ++ s.flashRd 0x810040 n) ≠ leVal (head.drop 60) →
      s.coarseWhy head = 2 ∨ s.coarseWhy head = 3) ∧
    (∀ why, why = s.coarseWhy head → why ≠ 0 →
      ∃ t, exec .coarseSetLoad s = .next t ∧ t.flag Reg.PATCH_STATUS_COARSE_BAD = true ∧
        t.fld Reg.PATCH_STATUS_COARSE_WHY = why ∧ t.fld ⟨Reg.HDR_IRQ_RAW 0x60, 4, 1⟩ = 1 ∧ t.mem = s.mem ∧ t.pat = s.pat) ∧
    (s.coarseWhy head = 0 → s.boot.copyTo = none → s.dramReady = true → s.boot.ask = 2 → s.mem.queue = [] →
      (∀ h u v, s.rd (perPort 3 Reg.REGION_RESULT) = BitVec.ofNat 32 (2 + 256 * h) → h < 64 →
        u = ({ s with boot := { s.boot with ask := 0 } } : State) → u.storeRun 13 h 0 (s.flashRd 0x810040 n) = (v, 0) →
        ∃ t, exec .coarseSetLoad s = .next t ∧ t.pat.coarseDue = true) ∧
      (∀ st h, s.rd (perPort 3 Reg.REGION_RESULT) = BitVec.ofNat 32 (2 + 16 * st + 256 * h) → 0 < st → st < 16 → h < 64 →
        ∃ t, exec .coarseSetLoad s = .next t ∧ t.flag Reg.PATCH_STATUS_COARSE_BAD = true ∧
          t.fld Reg.PATCH_STATUS_COARSE_WHY = 4 ∧ t.fld ⟨Reg.HDR_IRQ_RAW 0x60, 4, 1⟩ = 1))

/-- R227, R232 and R235. DEFECT.DATA reaches the bank of B37 that is not active, where PIX owns it; a write while a change
of BANK waits is dropped, and counted while DEFECT's EN is 1. AUTO_DATA answers an entry of the auto list and moves AUTO_ADDR on, which wraps
after the last entry. CLR empties the list at the next boundary, not before. -/
def Rules.DefectTables : Prop :=
  ∀ (s : State) (port i bank : Nat) (w : Word), s.Serves .DEFECT 0x61 → i = s.fld Reg.DEFECT_ADDR_INDEX →
    bank = s.fldA Reg.DEFECT_CFG_BANK →
    (s.switching Reg.DEFECT_CFG_BANK = true → exec (.defectDataAccess port (some w)) s
      = .next (if s.unitOn 0x61 then s.bump Reg.DEFECT_BUSY_CNT else s)) ∧
    (s.switching Reg.DEFECT_CFG_BANK = false → s.bankServes 37 ownPix = true → s.bankOn 37 = true →
      ∃ t, exec (.defectDataAccess port (some w)) s = .next t ∧ t.fld Reg.DEFECT_ADDR_INDEX = (if i = 4095 then 0 else i + 1) ∧
        t.defectAt (1 - bank) i = w.toNat ∧ (∀ b k, b < 2 → k < 4096 → b ≠ 1 - bank ∨ k ≠ i → t.defectAt b k = s.defectAt b k) ∧
        t = { s with regs := t.regs, sram := t.sram }) ∧
    (s.bankServes 37 ownPix = true → s.bankOn 37 = true → ∃ t, exec (.defectDataAccess port none) s = .next t ∧
      t.fld Reg.DEFECT_ADDR_INDEX = (if i = 4095 then 0 else i + 1) ∧
      t.out = ⟨.hostData, port, [s.defectAt (1 - bank) i]⟩ :: s.out ∧ t = { s with regs := t.regs, out := t.out }) ∧
    (∀ a, a = s.fld ⟨Reg.DEFECT_AUTO_ADDR, 0, 5⟩ → a < s.dfc.auto.length →
      ∃ t, exec (.autoDataRead port) s = .next t ∧
        t.fld ⟨Reg.DEFECT_AUTO_ADDR, 0, 5⟩ = (if s.dfc.auto.length - 1 ≤ a then 0 else (a + 1) % 32) ∧
        t.out = ⟨.hostData, port, [s.dfc.auto.getD a 0 % 2 ^ 32]⟩ :: s.out ∧ t = { s with regs := t.regs, out := t.out }) ∧
    exec (.autoCtlClr port w) s = .next (if w.toNat % 2 = 1 then { s with dfc := { s.dfc with clr := true } } else s) ∧
    (∀ ended, s.dfc.clr = true → (s.defectBoundary ended).dfc.auto = [] ∧ (s.defectBoundary ended).dfc.clr = false)

/-- R229 and R231. A column-open entry covers its half of the panel from its line away from the middle. A defective
subpixel that is neither weak nor whole keeps its own code; a weak one gives on what its gain lifts above full scale. -/
def Rules.DefectsShare : Prop :=
  (∀ (e : DefEntry) (vact y : Nat), e.y < vact / 2 → (e.covers vact y = true ↔ e.y ≤ y ∧ y < vact / 2)) ∧
  (∀ (e : DefEntry) (vact y : Nat), vact / 2 ≤ e.y → (e.covers vact y = true ↔ vact / 2 ≤ y ∧ y ≤ e.y)) ∧
  (∀ gain d, d ≤ 65535 → defGive gain 1 d = 4096 * (d : Int) ∧ defGive gain 4 d = 4096 * (d : Int) ∧
    defGive gain 2 d = -4096 * (65535 - (d : Int)) ∧ 0 ≤ defGive gain 3 d ∧
    (d * gain ≤ 65535 * 4096 → defGive gain 3 d = 0) ∧ weakOut gain d = min 65535 ((d * gain + 2048) / 4096)) ∧
  (∀ w, w < 2 ^ 32 → (defEntry w).word = w)


/-! OD, THERM and DITH (R236 to R268, R502). -/

/-- R242 and R260. OD.DATA reaches a table of the bank of B35 that is not active, one channel or R, G and B together;
DITH.DATA the matrix bank of B37 that is not active, or with ADDR.ROM the ROM matrix, which only reads and holds each value
from 0 to 4,095 exactly once; both where PIX owns the bank. A write while a change of BANK (or of MSRC) waits is dropped and counted. INDEX moves on and wraps. -/
def Rules.DriveTables : Prop :=
  (∀ (s : State) (port i ch lut bank : Nat) (w : Word), s.Serves .OD 0x62 → ch = min 4 (s.fld Reg.OD_ADDR_CH) →
    lut = s.fld Reg.OD_ADDR_LUT → bank = s.fldA Reg.OD_CFG_BANK →
    i = (if s.fld Reg.OD_ADDR_INDEX ≤ 9247 then s.fld Reg.OD_ADDR_INDEX else 0) →
    (s.switching Reg.OD_CFG_BANK = true → exec (.odDataAccess port (some w)) s = .next (s.bump Reg.OD_BUSY_CNT)) ∧
    (s.bankServes 35 ownPix = true → s.bankOn 35 = true →
      (s.switching Reg.OD_CFG_BANK = false → ∃ t, exec (.odDataAccess port (some w)) s = .next t ∧
        t.fld Reg.OD_ADDR_INDEX = (if i = 9247 then 0 else i + 1) ∧
        (∀ b c l k, b < 2 → c < 4 → l < 2 → k ≤ 9247 → t.sram16 35 (odIndex b c l k)
          = if b = 1 - bank ∧ (c = ch ∨ (ch = 4 ∧ c < 3)) ∧ l = lut ∧ k = i then w.toNat % 2 ^ 16
            else s.sram16 35 (odIndex b c l k)) ∧
        t = { s with regs := t.regs, sram := t.sram }) ∧
      (∃ t, exec (.odDataAccess port none) s = .next t ∧ t.fld Reg.OD_ADDR_INDEX = (if i = 9247 then 0 else i + 1) ∧
        t.out = ⟨.hostData, port, [s.sram16 35 (odIndex (1 - bank) (if ch = 4 then 0 else ch) lut i)]⟩ :: s.out ∧
        t = { s with regs := t.regs, out := t.out }))) ∧
  (∀ (s : State) (port i bank : Nat) (w : Word), s.Serves .DITH 0x64 → bank = s.fldA Reg.DITH_CFG_BANK →
    i = s.fld Reg.DITH_ADDR_INDEX →
    (s.ditherSwitching = true ∨ s.flag Reg.DITH_ADDR_ROM = true →
      exec (.dithDataAccess port (some w)) s = .next (s.bump Reg.DITH_BUSY_CNT)) ∧
    (s.flag Reg.DITH_ADDR_ROM = true → ∃ t, exec (.dithDataAccess port none) s = .next t ∧
      t.fld Reg.DITH_ADDR_INDEX = (if i = 4095 then 0 else i + 1) ∧
      t.out = ⟨.hostData, port, [romAt i]⟩ :: s.out ∧ t = { s with regs := t.regs, out := t.out }) ∧
    (s.flag Reg.DITH_ADDR_ROM = false → s.bankServes 37 ownPix = true → s.bankOn 37 = true →
      (s.ditherSwitching = false → ∃ t, exec (.dithDataAccess port (some w)) s = .next t ∧
        t.fld Reg.DITH_ADDR_INDEX = (if i = 4095 then 0 else i + 1) ∧
        (∀ b k, b < 2 → k < 4096 → t.sram16 37 (ditherIndex b k)
          = if b = 1 - bank ∧ k = i then w.toNat % 4096 else s.sram16 37 (ditherIndex b k)) ∧
        t = { s with regs := t.regs, sram := t.sram }) ∧
      (∃ t, exec (.dithDataAccess port none) s = .next t ∧ t.fld Reg.DITH_ADDR_INDEX = (if i = 4095 then 0 else i + 1) ∧
        t.out = ⟨.hostData, port, [s.sram16 37 (ditherIndex (1 - bank) i) % 4096]⟩ :: s.out ∧
        t = { s with regs := t.regs, out := t.out }))) ∧
  (∀ v, v < 4096 → ∃ i, i < 4096 ∧ romAt i = v ∧ ∀ j, j < 4096 → romAt j = v → j = i)

/-- R236, R241, R243 and R257. A state byte's 16-bit state is stored as that byte again. A subpixel in an initialisation frame,
or within the deadband, is driven to its target, and its state is the target; a black line drives 0. A reduced code is
one of the two beside the 16-bit one, keeps 0 and full scale, and rises with the threshold falling. The frame phase moves on by one mod 32 at a boundary with D9
ON, and at no other. -/
def Rules.DriveReduces : Prop :=
  (∀ b : Nat, b < 256 → odByte (257 * b) = BitVec.ofNat 8 b) ∧
  (∀ (s : State) (ch t sigma : Nat) (temp : Int) (init : Bool),
    (init = true ∨ ((t : Int) - 257 * sigma).natAbs ≤ s.fldA ⟨Reg.OD_DEADBAND, 0, 16⟩ →
      s.odStep ch false init t sigma temp = ⟨t, t, true⟩) ∧
    (s.odStep ch true init t sigma temp).drive = 0 ∧ (s.odStep ch true true t sigma temp).next = 0) ∧
  (∀ sh d ts, sh ∈ [4, 6, 8] → d < 2 ^ 16 → ts < 2 ^ sh →
    ditherCode sh d ts = min (d / 2 ^ sh + if ts < d % 2 ^ sh then 1 else 0) (2 ^ (16 - sh) - 1) ∧
    ditherCode sh 0 ts = 0 ∧ ditherCode sh 65535 ts = 2 ^ (16 - sh) - 1) ∧
  (∀ (s : State) (y : Nat), s.polarity y = (match s.fldA Reg.DITH_CFG_INV with
    | 1 => (s.phaseN + y) % 2 | 2 => (s.phaseN + y / 2) % 2 | _ => s.phaseN % 2)) ∧
  (∀ s : State, s.ditherBoundary.phaseN = if s.domOn 9 = true then (s.phaseN + 1) % 32 else s.phaseN)

/-- R249 and R250. While D9 is ON a conversion belongs to the next sensor in turn. One in range joins the last 16, whose
rounded mean is the sensor's code; the fourth in a row outside ADC_LIM makes the sensor fault, which counts and raises
SENS_FAULT where the sensor is enabled. -/
def Rules.SensorsConvert : Prop :=
  ∀ (s : State) (code n : Nat), s.boot.resetLow = false → s.domOn 9 = true → code < 4096 → n = s.thm.turn % 4 →
    (s.fld Reg.THERM_ADC_LIM_LO ≤ code → code ≤ s.fld Reg.THERM_ADC_LIM_HI → (s.sensor n).fault = false →
      ∃ t, exec (.adcConversion code) s = .next t ∧ t.thm.turn = (n + 1) % 4 ∧
        (t.sensor n).codes = (code :: (s.sensor n).codes).take 16 ∧ (t.sensor n).badRun = 0 ∧
        (∀ k, k ≠ n → t.sensor k = s.sensor k) ∧
        (∀ c, c = (t.sensor n).codes.sum → ((s.sensor n).codes.all (fun x => decide (x < 4096)) = true) →
          t.fld ⟨Reg.THERM_SENS0 + 4 * n, 16, 12⟩
            = (2 * c + (t.sensor n).codes.length) / (2 * (t.sensor n).codes.length))) ∧
    (code < s.fld Reg.THERM_ADC_LIM_LO ∨ s.fld Reg.THERM_ADC_LIM_HI < code → (s.sensor n).fault = false →
      (s.sensor n).badRun = 3 → bit (s.fld Reg.THERM_CFG_SENS_EN) n = true → s.gateClosed 0x63 = false →
      ∃ t, exec (.adcConversion code) s = .next t ∧ t.thm.turn = (n + 1) % 4 ∧ (t.sensor n).fault = true ∧
        t.fld ⟨Reg.THERM_SENS0 + 4 * n, 31, 1⟩ = 1 ∧ t.fld ⟨Reg.HDR_IRQ_RAW 0x63, 0, 1⟩ = 1 ∧
        t.fld (wholeFld Reg.THERM_SENS_FAULT) = min (2 ^ 32 - 1) (s.fld (wholeFld Reg.THERM_SENS_FAULT) + 1)) ∧
    (∀ k, k < 4 → s.sensReport.fld Reg.THERM_STATUS_SENS_FAULT / 2 ^ k % 2 = b2n (s.sensorBad k))

/-- R245, R251, R252, R254 and R256. REINIT makes the next frame with OD an initialisation frame. A COMMIT of 1 lets the
pending field become active at the next boundary; until then, and while SRC is 0, host writes to it are dropped and
counted. The control core's update commits the field, with no update while SRC is 1. REG_DATA and CONV_DATA reach the
array element of their address, which moves on and wraps. -/
def Rules.ThermalField : Prop :=
  (∀ (s : State) (port : Nat) (w : Word), s.Serves .OD 0x62 → exec (.odReinit port w) s
    = .next (if w.toNat % 2 = 1 then { s with od := { s.od with needInit := true } } else s)) ∧
  (∀ (s : State) (p : Nat), s.unitOn 0x62 = true → s.od.needInit = true → (s.odBoundary false p).od.init = true) ∧
  (∀ (s : State) (port : Nat) (w : Word), s.Serves .THERM 0x63 →
    exec (.thermCommit port w) s = .next (if w.toNat % 2 = 1 then { s.put Reg.THERM_STATUS_COMMIT_PENDING 1 with
      thm := { s.thm with committed := true } } else s)) ∧
  (∀ (s : State) (e : Option (Nat × Nat)) (no : Nat), s.flag Reg.THERM_STATUS_COMMIT_PENDING = true →
    (s.thermBoundary e no).thm.act = s.thm.pend ∧ (s.thermBoundary e no).flag Reg.THERM_STATUS_COMMIT_PENDING = false) ∧
  (∀ (s : State) (e : Nat × Nat), s.boot.resetLow = false → s.thm.ended = some e → s.flag Reg.THERM_CFG_SRC = false →
    s.coreRunning = true → ∃ t, exec .thermRegionalUpdate s = .next t ∧ t.thm.ended = none ∧ t.thm.committed = true ∧
      t.flag Reg.THERM_STATUS_COMMIT_PENDING = true ∧ t.thm.act = s.thm.act ∧ t.thm.ofs = s.thm.ofs ∧
      t.thm.lastEnd = some e.1) ∧
  (∀ (s : State) (port i : Nat) (w : Word), s.Serves .THERM 0x63 →
    i = (if s.fld Reg.THERM_REG_ADDR_INDEX ≤ 143 then s.fld Reg.THERM_REG_ADDR_INDEX else 0) →
    (∃ t, exec (.regDataAccess port (some w)) s = .next t ∧
      t.fld Reg.THERM_REG_ADDR_INDEX = (if i = 143 then 0 else i + 1) ∧
      (s.fld Reg.THERM_REG_ADDR_SEL = 1 → s.flag Reg.THERM_STATUS_COMMIT_PENDING = true ∨ s.flag Reg.THERM_CFG_SRC = false →
        t.thm = s.thm ∧ t.fld (wholeFld Reg.THERM_PEND_DROP) = min (2 ^ 32 - 1) (s.fld (wholeFld Reg.THERM_PEND_DROP) + 1)) ∧
      (s.fld Reg.THERM_REG_ADDR_SEL = 2 → t.ofsAt i = sext 16 w.toNat ∧ ∀ k, k ≠ i → t.ofsAt k = s.ofsAt k) ∧
      (s.fld Reg.THERM_REG_ADDR_SEL = 3 → t.heatAt i = sext 32 w.toNat ∧ ∀ k, k ≠ i → t.heatAt k = s.heatAt k) ∧
      (s.fld Reg.THERM_REG_ADDR_SEL = 0 ∨ 4 ≤ s.fld Reg.THERM_REG_ADDR_SEL → t.thm = s.thm)) ∧
    (s.fld Reg.THERM_REG_ADDR_SEL = 3 → ∃ t, exec (.regDataAccess port none) s = .next t ∧
      t.fld Reg.THERM_REG_ADDR_INDEX = (if i = 143 then 0 else i + 1) ∧
      t.out = ⟨.hostData, port, [(Cells.get (fun _ => 0) s.thm.heat i).toNat]⟩ :: s.out) ∧
    (∀ k, k = (if s.fld ⟨Reg.THERM_CONV_ADDR, 0, 6⟩ ≤ 32 then s.fld ⟨Reg.THERM_CONV_ADDR, 0, 6⟩ else 0) →
      (∃ t, exec (.convDataAccess port (some w)) s = .next t ∧ t.convAt k = sext 16 w.toNat ∧
        (∀ j, j ≠ k → t.convAt j = s.convAt j) ∧ t.fld ⟨Reg.THERM_CONV_ADDR, 0, 6⟩ = (if k = 32 then 0 else k + 1)) ∧
      (∃ t, exec (.convDataAccess port none) s = .next t ∧ t.out.head? = some ⟨.hostData, port, [toField 16 (s.convAt k)]⟩ ∧
        t.fld ⟨Reg.THERM_CONV_ADDR, 0, 6⟩ = (if k = 32 then 0 else k + 1))))


/-! TIMING, GENLOCK and SREF (R93 to R116, R499). -/

/-- The outputs of a command: those that its state holds in front of those before. -/
def fresh (s t : State) : List Output := (t.out.take (t.out.length - s.out.length)).reverse

/-- What a command sends on a port of EDL, in order: sync headers and payloads. -/
def sentEdl (s t : State) (p : Nat) : List (Nat × Nat) :=
  ((fresh s t).filter (fun o => o.kind == .edl && o.dst == p)).map (fun o => (o.data.getD 0 0, o.data.getD 1 0))

/-- R94, R95 and R105. An output frame starts at the boundary planned for it, or at once when none runs, with line 0; it counts
in FRAME_NO and raises FRAME, unless TIMING is reset at it or start-up changes hands; it ends a period later, which PERIOD_CUR
reads in 1/16 ns and which is FREE_PERIOD in FREE, but never shorter than R94's shortest frame. Its lines start LINE_PERIOD apart while whole lines are left of it; at an active one the read side is 17 lines ahead. -/
def Rules.FramesAndLines : Prop :=
  (∀ s : State, s.boot.resetLow = false → ∃ t, exec .frameBoundary s = .next t ∧
    t.now = (if s.tim.running then max s.now s.tim.next else s.now) ∧ t.tim.running = true ∧ t.tim.f = t.now ∧
    0 < t.tim.period ∧ t.tim.next = t.tim.f + t.tim.period ∧ t.tim.line = 0 ∧
    (s.boot.pawnDue = false → s.boot.image = none → 0x30 ∉ s.soft →
      (t.rd Reg.TIMING_FRAME_NO).toNat = ((s.rd Reg.TIMING_FRAME_NO).toNat + 1) % 2 ^ 32 ∧
      (s.gateClosed 0x30 = false → raised t 0x30 2)) ∧
    t.rd Reg.TIMING_PERIOD_CUR = BitVec.ofNat 32 (divHalfUp t.tim.period 16) ∧
    (t.timMode = timFREE → t.tim.period = max 1 (max t.freePeriod t.shortestFrame))) ∧
  (∀ (s : State) (faults : List Nat), s.boot.resetLow = false → s.nextLine = none →
    exec (.outputLineStart faults) s = .next s) ∧
  (∀ (s : State) (faults : List Nat) (y at' : Nat), s.boot.resetLow = false → s.nextLine = some (y, at') →
    at' = s.tim.f + s.tim.line * s.linePeriod ∧ y = s.tim.line ∧
    ∃ t, exec (.outputLineStart faults) s = .next t ∧ t.tim.line = y + 1 ∧ t.now = max s.now at' ∧
      (y < s.vact → s.pathOn = true → t.path.readNext = max s.path.readNext (min s.vact (y + 18))))

/-- R100, R103 to R106. In lock to pips, one that has not come half a line after it was due counts in LATE_PIP, raises it and
UNLOCK, and slews; one PERIOD_MAX late enters self-refresh for PIP_TIMEOUT, whatever the reference. An active edge of VREF is
timed, against XTAL or, with HQUAL, from HREF edge to HREF edge, and the fourth interval in a row that agrees within 0.1 %
makes it present; an edge of HREF is counted when active. The loss of
house sync counts, raises GL_LOSS, and with the link down as well enters self-refresh for GENLOCK_LOSS. -/
def Rules.TimingEvents : Prop :=
  (∀ (s : State) (tp : Nat), s.boot.resetLow = false → s.tim.lastPip = some tp →
    (s.timMode = timLOCKED → s.tim.ref = 0 → s.gateClosed 0x30 = false → ∃ t, exec .latePip s = .next t ∧
      t.now = max s.now (tp + s.tim.lastPeriod + s.linePeriod / 2) ∧ counted s t Reg.TIMING_LATE_PIP 1 ∧
      counted s t Reg.TIMING_LOCK_LOSS 1 ∧ raised t 0x30 4 ∧ raised t 0x30 1 ∧ t.timMode = timSLEWING ∧
      t.fld Reg.TIMING_STATUS_LOCK = 0) ∧
    (s.timMode ≠ timLOCKED ∨ s.tim.ref ≠ 0 → exec .latePip s = .next s) ∧
    (s.linkUp = false ∨ (s.srf.pipSince = false ∧ 5 ∈ s.srf.events) → exec .pipTimeout s = .next s) ∧
    (s.linkUp = true → s.srf.pipSince = true ∨ 5 ∉ s.srf.events → s.srf.host = false → ∃ t, exec .pipTimeout s = .next t ∧
      t.now = max s.now (tp + s.tim.lastPeriod + s.periodMax) ∧ t.srefState = 5 ∧ t.fld Reg.SREF_STATE_REASON = 5 ∧
      t.srf.pipSince = false ∧ (s.inSref = false → counted s t Reg.SREF_ENTRIES 1) ∧
      (s.inSref = false → s.gateClosed 0x32 = false → raised t 0x32 0) ∧
      (s.inSref = false → s.timMode ≠ timFREE → t.timMode = timHOLDOVER))) ∧
  (∀ (s : State) (at' : Nat) (rising : Bool), s.boot.resetLow = false →
    (s.advance at').now = max s.now at' ∧
    exec (.hrefEdge at' rising) s = .next { s.advance at' with tim := { s.tim with
      href := some (max s.now at')
      hrefs := s.tim.hrefs + (if rising = s.flagA Reg.GENLOCK_CFG_HEDGE then 1 else 0)
      hrefAt := if rising = s.flagA Reg.GENLOCK_CFG_HEDGE then some (max s.now at') else s.tim.hrefAt } } ∧
    (rising ≠ s.flagA Reg.GENLOCK_CFG_VEDGE → exec (.vrefEdge at' rising) s = .next (s.advance at')) ∧
    (∀ v gap mark, rising = s.flagA Reg.GENLOCK_CFG_VEDGE → s.tim.vref = some v →
      mark = (if s.flagA Reg.GENLOCK_CFG_HQUAL = true then s.tim.hrefAt.getD (max s.now at') else max s.now at') →
      gap = mark - s.tim.vrefFrom →
      ∃ t, exec (.vrefEdge at' rising) s = .next t ∧ t.tim.vref = some t.now ∧ t.now = max s.now at' ∧
        t.tim.vrefGap = gap ∧ t.tim.vrefFrom = mark ∧ t.tim.hrefs = 0 ∧
        t.rd Reg.GENLOCK_VREF_PERIOD = BitVec.ofNat 32 (divHalfUp gap 16) ∧
        t.rd Reg.GENLOCK_HREF_COUNT = BitVec.ofNat 32 s.tim.hrefs ∧
        (s.tim.vrefGood = 3 → s.tim.vrefGap ≠ 0 → ((gap : Int) - s.tim.vrefGap).natAbs * 1000 ≤ s.tim.vrefGap →
          t.vrefOk = true))) ∧
  (∀ (s : State), s.boot.resetLow = false → s.gateClosed 0x31 = false →
    (s.glLossAt = none → exec .glLoss s = .next s) ∧
    (∀ at', s.glLossAt = some at' → ∃ t, exec .glLoss s = .next t ∧ t.now = max s.now at' ∧ t.vrefOk = false ∧
      counted s t Reg.GENLOCK_LOSS_CNT 1 ∧ raised t 0x31 0 ∧
      (s.fldA Reg.TIMING_CFG_SRC_SEL = 1 → s.linkUp = false → s.followsFsync = false → s.srf.host = false →
        t.srefState = 6 ∧ t.fld Reg.SREF_STATE_REASON = 6)))

/-- R106, R112 and R499. ENTER enters self-refresh with reason HOST, which stands whatever follows. EXIT arms the exit at the
next pip while the link is UP, else it counts in EXIT_IGNORED. RELEASE withdraws ENTER: the newest reason that still
stands is shown, and with none the next pip ends self-refresh; without an ENTER it is ignored. R111: the domains held in
retention are asked to return 40 µs ahead of the boundary. -/
def Rules.SelfRefresh : Prop :=
  ∀ (s : State) (port : Nat) (w : Word), s.Serves .SREF 0x32 →
    (w.toNat / 2 % 4 = 0 → ∃ t, exec (.srefEnter port w) s = .next t ∧ t.srf.host = true ∧ t.srefState = 4 ∧
      t.fld Reg.SREF_STATE_REASON = 4 ∧ (s.inSref = false → counted s t Reg.SREF_ENTRIES 1 ∧ raised t 0x32 0) ∧
      (s.inSref = true → t.rd Reg.SREF_ENTRIES = s.rd Reg.SREF_ENTRIES)) ∧
    (w.toNat % 2 = 0 → w.toNat / 4 % 2 = 0 →
      (s.linkUp = false → ∃ t, exec (.srefExit port w) s = .next t ∧ counted s t Reg.SREF_EXIT_IGNORED 1 ∧ t.srf = s.srf) ∧
      (s.linkUp = true → exec (.srefExit port w) s
        = .next (if s.inSref then { s with srf := { s.srf with exiting := true } } else s))) ∧
    (w.toNat % 4 = 0 →
      (s.srf.host = false → exec (.srefRelease port w) s = .next s) ∧
      (s.srf.host = true → ∃ t, exec (.srefRelease port w) s = .next t ∧ t.srf.host = false ∧
        ∀ l, l = s.srf.events.filter (fun c => c ≠ 4) → t.srf.events = l ∧
          (∀ c, l.find? s.reasonStands = some c → c < 8 → t.srefState = c ∧ t.fld Reg.SREF_STATE_REASON = c ∧
            t.srf.released = s.srf.released) ∧
          (l.find? s.reasonStands = none → t.srf.released = true ∧ t.regs = s.regs))) ∧
    (s.srf.ret = true → ∃ t, exec .srefRetWake s = .next t ∧ t.now = max s.now (s.tim.next - 40 * 256000) ∧
      ∀ n, n ∈ [5, 6, 7, 8, 9] → s.fld (Reg.PWR_DOM_REQ_TARGET n) = domStON → t.domCur n = domStON ∨ t.domBusy n = true) ∧
    (s.srf.ret = false → exec .srefRetWake s = .next s)

/-- A port of EDL with nothing to send: no packet in progress, nothing waiting, the last block gone by an instant. -/
def portFree (s : State) (p at' : Nat) : Prop :=
  (s.edlPort p).queue = [] ∧ (s.edlPort p).prog = none ∧ (s.edlPort p).free ≤ at'

/-- R279, R280, R283 and R102. On a port that is UP and free a SYNC TIMING leaves ahead of each boundary and a SYNC FRAME
behind it, with DELAY from its own last bit, within 500 to 20,000 ns. On a free backlight port with an LED partner that
serves a zone row, SYNC APPLY names the row and its apply instant, and in BFI mode 1 with DARK the start of its dark
band, some ns ahead of them. A command of a row that is none does nothing. -/
def Rules.SyncBlocks : Prop :=
  (∀ (s : State) (delay d : Nat), s.boot.resetLow = false → s.tim.running = true → d = max 700 (min 20000 delay) →
    s.now + d * 256 ≤ s.tim.next →
    ∃ t, exec (.syncFrame delay) s = .next t ∧ t.now = s.tim.next - d * 256 ∧
    ∀ p, p < 64 → s.portIsUp p = true → s.laneCarries (laneEdl p) = true → s.portKind p = 1 →
      portFree s p t.now → ∃ timing rest, timing % 4 = 2 ∧ rest % 4 = 0 ∧ rest / 2 ^ 22 % 2 ^ 16
          = ((s.rd Reg.TIMING_FRAME_NO).toNat + 1) % 2 ^ 16 ∧ rest % 2 ^ 22 = 0 ∧ rest < 2 ^ 41 ∧
        sentEdl s t p = [(2, controlBlock 0x33 timing)] ∧
        ∀ n ns, t.now + s.blockTicks p < n → ns = (d * 256 - 2 * s.blockTicks p) / 256 → 500 ≤ ns ∧ ns ≤ 20000 ∧
          sentEdl t (State.portDrain { t with now := n } p) p = [(2, controlBlock 0x33 (rest + 4 * ns))]) ∧
  (∀ (s : State) (r delay p at' ns : Nat), s.boot.resetLow = false → s.tim.running = true → r < s.zoneRows → r < 128 →
    p < 64 → s.portIsUp p = true → s.laneCarries (laneEdl p) = true → s.portKind p = 2 →
    (ledsOf s.partners p).any (fun e => !(e.channels s.zoneCols r).isEmpty) = true →
    portFree s p (at' - delay * 256) → ns = min (2 ^ 20 - 1) ((delay * 256 - s.blockTicks p) / 256) →
    s.now + delay * 256 ≤ at' →
    (at' = s.applyAt r → ∃ t, exec (.syncApply r delay) s = .next t ∧ t.now = at' - delay * 256 ∧
      sentEdl s t p = [(2, controlBlock 0x33 (1 + 4 * ns + 2 ^ 22 * r))]) ∧
    (at' = s.darkAt r → s.bfiMode = 1 → ∃ t, exec (.bfiDarkBand r delay) s = .next t ∧ t.now = at' - delay * 256 ∧
      sentEdl s t p = [(2, controlBlock 0x33 (1 + 4 * ns + 2 ^ 22 * r + 2 ^ 29))])) ∧
  (∀ (s : State) (r delay : Nat), s.boot.resetLow = false → s.tim.running = false ∨ s.zoneRows ≤ r →
    exec (.syncApply r delay) s = .next s ∧ exec (.bfiDarkBand r delay) s = .next s)

/-! The frame store (R137 to R161, R503). -/

/-- R138 to R147. Whatever the encoder stores of a block decodes to the same pixels, under an index entry that is valid. -/
def Obligations.CodecRoundTrip : Prop :=
  ∀ (on alone even matchEn sub mrg : Bool) (above : Above) (hact x0 : Nat) (px : List Pix) (e : EncBlock),
    e = encodeBlock on alone even matchEn above hact x0 px →
    px ≠ [] → px.length ≤ 64 → x0 + px.length ≤ hact → above.length = hact →
      decodeBlock e.mode even above hact x0 px.length e.data = some px ∧
      idxEff (indexWord e.mode e.data.length 0 sub mrg) px.length = some e.mode

/-- R148 to R150 and R153. The next line that the source gave whole is written into its slot. A line the source does not give
is copied from P, no earlier than its schedule less a line, and is left to R24 where P has no such line. The line that
is owed past its deadline is missing: it counts and raises MISSING, and beyond the allowance it is a hole. When the
last line of a complete frame is written without holes its slot is SETTLED and is P. -/
def Rules.LinesAreStored : Prop :=
  (∀ (s : State) (f : SrcFrame) (l : LineIn) (n : Nat), s.boot.resetLow = false → s.sto.src = some f → f.next < s.vact →
    f.waiting.find? (fun l => l.line == f.next) = some l → f.slot = some n → n < 3 → 0 < s.hact →
    (List.range s.hact).all (inSpans (f.spans s.hact f.next)) = true →
    Cells.get (fun _ => 0) f.missing (f.next + 1) ≠ 2 →
    ∃ t, exec .lineWrite s = .next t ∧ (t.slotInfo n).filled = f.next + 1 ∧ (t.slotInfo n).exc = (s.slotInfo n).exc ∧
      (f.next + 1 < s.vact → ∃ g, t.sto.src = some g ∧ g.next = f.next + 1 ∧ g.prevWritten = true ∧
        g.waiting = f.waiting.filter (fun k => k.line ≠ f.next)) ∧
      (f.next + 1 = s.vact → f.complete = true → f.holes = 0 → t.sto.src = none ∧ t.newest = some n ∧
        t.fld (slotStateFld n) = slotSettled ∧ t.flag Reg.CODEC_RING_WRITING = false)) ∧
  (∀ (s : State) (f : SrcFrame) (n : Nat), s.boot.resetLow = false → s.sto.src = some f → f.next < s.vact →
    f.copyNext = true → f.slot = some n → 0 < s.hact → Cells.get (fun _ => 0) f.missing (f.next + 1) ≠ 2 →
    ∃ t, exec .lineCopy s = .next t ∧ t.now = max s.now (f.tPip + (f.next + 1) * f.tLine - f.tLine) ∧
      (t.slotInfo n).filled = f.next + 1 ∧
      (s.slotLine (s.newest.getD 0) f.next ≠ 0 → t.slotLine n f.next = 2 ∧ t.rd Reg.CODEC_SUB_LINES = s.rd Reg.CODEC_SUB_LINES)) ∧
  (∀ (s : State) (f : SrcFrame) (y : Nat), s.boot.resetLow = false → s.sto.src = some f → s.owedLine = some y →
    s.gateClosed 0x10 = false →
    ∃ t, exec .lineDeadline s = .next t ∧ t.now = max s.now (s.lineDeadline f y) ∧ counted s t Reg.ISL_MISSING 1 ∧
      raised t 0x10 10 ∧ counted s t Reg.CODEC_HOLE_LINES (if s.vact / 32 ≤ f.subs then 1 else 0))

/-- R160 and R161. A write of RB_SEL names a slot and a line to decode: BUSY, or READY and ERR at once where the line or the
slot is out of range or no layout is in force, and then no slot is selected; while BUSY it is ignored. The decode ends READY, and
raises it, once DRAM is there for it. RB_DATA1
answers the B of the column RB_X, which then moves on. -/
def Rules.ReadbackOfLines : Prop :=
  (∀ (s : State) (port slot line : Nat) (w : Word), s.Serves .CODEC 0x42 → slot = w.toNat % 4 →
    line = w.toNat / 2 ^ 16 % 2 ^ 13 →
    (s.flag Reg.CODEC_RB_STATUS_BUSY = true → exec (.rbSelWrite port w) s = .next s) ∧
    (s.flag Reg.CODEC_RB_STATUS_BUSY = false →
      (s.vact ≤ line ∨ slot = 3 ∨ s.sto.layout = none → ∃ t, exec (.rbSelWrite port w) s = .next t ∧
        t.rd Reg.CODEC_RB_SEL = w &&& 0x1FFF0003#32 ∧ t.rd Reg.CODEC_RB_STATUS = 10 ∧
        (s.gateClosed 0x42 = false → raised t 0x42 6) ∧ t.sto = { s.sto with rbSlot := 3 } ∧
        t = { s with regs := t.regs, sto := t.sto, nv := t.nv, isl := t.isl }) ∧
      (line < s.vact → slot ≠ 3 → s.sto.layout ≠ none → ∃ t, exec (.rbSelWrite port w) s = .next t ∧
        t.flag Reg.CODEC_RB_STATUS_BUSY = true ∧ t.sto = { s.sto with rbSlot := slot, rbLine := line } ∧
        t = { s with regs := t.regs, sto := t.sto }))) ∧
  (∀ s : State, s.boot.resetLow = false →
    (s.flag Reg.CODEC_RB_STATUS_BUSY = false → exec .rbReady s = .next s) ∧
    (s.flag Reg.CODEC_RB_STATUS_BUSY = true → s.dramReady = false → ∃ t, exec .rbReady s = .next t ∧
      t.flag Reg.CODEC_RB_STATUS_BUSY = true ∧ t.sto = s.sto) ∧
    (s.flag Reg.CODEC_RB_STATUS_BUSY = true → s.dramReady = true → s.gateClosed 0x42 = false → ∃ t, exec .rbReady s = .next t ∧
      t.flag Reg.CODEC_RB_STATUS_BUSY = false ∧ t.flag Reg.CODEC_RB_STATUS_READY = true ∧ raised t 0x42 6 ∧
      ∀ p, (s.decodeSlotLine 10 s.sto.rbSlot s.sto.rbLine).2.1 = some p → t.sto.rbPix = p)) ∧
  (∀ (s : State) (port x : Nat) (p : Pix), s.Serves .CODEC 0x42 → x = s.fld ⟨Reg.CODEC_RB_X, 0, 13⟩ →
    s.sto.rbPix[x]? = some p →
    exec (.codecRbData1Read port) s = .next ((s.put ⟨Reg.CODEC_RB_X, 0, 13⟩ (x + 1)).emit .hostData port [p.b.toNat]))


/-! The Eubel Driver Link (R269 to R310). -/

/-- The body of a CMD block (R285). -/
def cmdBody (pid : Nat) (rd : Bool) (addr data tag : Nat) : Nat :=
  pid + (if rd then 2 ^ 11 else 0) + 2 ^ 13 * addr + 2 ^ 25 * data + 2 ^ 41 * tag

/-- What HCMD_STATUS reads: BUSY, DONE, NOANS and REFUSED. -/
def hcmdReads (t : State) (busy done noans refused : Bool) : Prop :=
  t.flag Reg.EDL_HCMD_STATUS_BUSY = busy ∧ t.flag Reg.EDL_HCMD_STATUS_DONE = done ∧
    t.flag Reg.EDL_HCMD_STATUS_NOANS = noans ∧ t.flag Reg.EDL_HCMD_STATUS_REFUSED = refused

/-- R288, R308 and R381. HCMD_GO sends the command of HCMD0 and HCMD1: an individual one on the port of a valid partner that is
UP, a group or broadcast write on every port that is UP; anything else is REFUSED and not sent, and while BUSY it only
counts. A read on a bus that is off ends in NOANS; a write ends DONE when its CMD has left every port. A write of SAFE_LEVEL
or LINK_HOLD stores, and both go to the partners of every backlight port that is UP. A write of a group's CFG_ALL reaches
the CFG of its four ports, and one of CMD_ALL retrains those that are FAILED. What leaves at once is said of a port that is
free and whose lane carries traffic. -/
def Obligations.DriverCommands : Prop :=
  (∀ (s : State) (port pid addr data : Nat) (rd group : Bool) (w : Word), s.Serves .EDL 0x70 → w.toNat % 2 = 1 →
    s.edl.tag < 128 → pid = s.fld Reg.EDL_HCMD0_PID → rd = s.flag Reg.EDL_HCMD0_RD → addr = s.fld Reg.EDL_HCMD0_ADDR →
    data = (if rd then 0 else s.fld Reg.EDL_HCMD1_DATA) →
    (group = true ↔ (0x400 ≤ pid ∧ pid < 0x500) ∨ pid = 0x7FF) →
    (s.flag Reg.EDL_HCMD_STATUS_BUSY = true → exec (.hcmdGo port w) s = .next (s.bump Reg.EDL_HCMD_DROP)) ∧
    (s.flag Reg.EDL_HCMD_STATUS_BUSY = false → group = false → pid ≤ 0x3FF → (s.partner pid).valid = true →
      s.portIsUp (s.partner pid).port = true → ∃ t, exec (.hcmdGo port w) s = .next t ∧
        (portFree s (s.partner pid).port s.now → s.laneCarries (laneEdl (s.partner pid).port) = true →
          sentEdl s t (s.partner pid).port = [(2, controlBlock 0x4B (cmdBody pid rd addr data s.edl.tag))]) ∧
        (∀ p, p ≠ (s.partner pid).port → sentEdl s t p = []) ∧
        (if rd = true ∧ s.flag (Reg.RETBUS_CFG_EN ((s.partner pid).port / 4)) = false then hcmdReads t false true true false
          else hcmdReads t true false false false ∧ t.edl.host = some ⟨pid, rd, s.edl.tag, 0⟩)) ∧
    (s.flag Reg.EDL_HCMD_STATUS_BUSY = false → group = true → rd = false → ∃ t, exec (.hcmdGo port w) s = .next t ∧
      hcmdReads t true false false false ∧ t.edl.host = some ⟨pid, false, s.edl.tag, 0⟩ ∧
      ∀ p, p < 64 → (s.portIsUp p = false → sentEdl s t p = []) ∧
        (s.portIsUp p = true → portFree s p s.now → s.laneCarries (laneEdl p) = true →
          sentEdl s t p = [(2, controlBlock 0x4B (cmdBody pid false addr data s.edl.tag))])) ∧
    (s.flag Reg.EDL_HCMD_STATUS_BUSY = false →
      (group = true ∧ rd = true) ∨ (group = false ∧ (0x3FF < pid ∨ (s.partner pid).valid = false
        ∨ s.portIsUp (s.partner pid).port = false)) →
      ∃ t, exec (.hcmdGo port w) s = .next t ∧ hcmdReads t false true false true ∧ t.out = s.out ∧ raised t 0x70 2)) ∧
  (∀ s : State, s.boot.resetLow = false →
    (∀ h, s.edl.host = some h → h.rd = false → ∃ t, exec .hcmdDone s = .next t ∧ hcmdReads t false true false false ∧
      t.edl.host = none ∧ (s.gateClosed 0x70 = false → raised t 0x70 2) ∧
      (∀ p, p < 64 → ∀ i ∈ (t.edlPort p).queue, i.place ≠ 7) ∧
      ((∀ p, p < 64 → ∀ i ∈ (s.edlPort p).queue, i.place ≠ 7) → t.out = s.out ∧ t.now = s.now)) ∧
    ((∀ h, s.edl.host = some h → h.rd = true) → exec .hcmdDone s = .next s)) ∧
  (∀ (s : State) (port : Nat) (w : Word), s.Serves .EDL 0x70 → ∃ t u,
    exec (.safeLevelWrite port w) s = .next t ∧ exec (.linkHoldWrite port w) s = .next u ∧
    t.rd Reg.EDL_SAFE_LEVEL = w &&& 0xFFFF#32 ∧ t.rd Reg.EDL_LINK_HOLD = s.rd Reg.EDL_LINK_HOLD ∧
    u.rd Reg.EDL_LINK_HOLD = w &&& 0xFFFF#32 ∧ u.rd Reg.EDL_SAFE_LEVEL = s.rd Reg.EDL_SAFE_LEVEL ∧
    ∀ v, v = t ∨ v = u → ∀ p, p < 64 →
      (s.portKind p ≠ 2 ∨ s.portIsUp p = false → sentEdl s v p = []) ∧
      (s.portKind p = 2 → s.portIsUp p = true → portFree s p s.now → s.laneCarries (laneEdl p) = true →
        sentEdl s v p = [(2, controlBlock 0x4B (cmdBody 0x7FF false 6 (v.fld ⟨Reg.EDL_SAFE_LEVEL, 0, 16⟩) 0))] ∧
        (v.edlPort p).queue.flatMap (·.blocks)
          = [(2, controlBlock 0x4B (cmdBody 0x7FF false 7 (v.fld ⟨Reg.EDL_LINK_HOLD, 0, 16⟩) 0))])) ∧
  (∀ (s : State) (port g : Nat) (w : Word), s.Serves .EDL_GRP (0x71 + g) → g < 16 →
    (∀ i, i < 4 → s.Serves .EDL_PORT (0xA0 + 4 * g + i)) →
    (∃ t, exec (.groupBroadcast port g false w) s = .next t ∧
      (∀ i, i < 4 → t.rd (Reg.EDL_PORT_CFG (4 * g + i)) = w &&& 0x7F7FF3#32) ∧
      (∀ a, (∀ i, i < 4 → a ≠ Reg.EDL_PORT_CFG (4 * g + i)) → t.rd a = s.rd a) ∧ t = { s with regs := t.regs }) ∧
    (∃ t, exec (.groupBroadcast port g true w) s = .next t ∧ ∀ p, p < 64 → t.portState p =
      if p / 4 = g ∧ s.portState p = portFAILED ∧ w.toNat % 2 = 1 then portTRAINING else s.portState p))

/-- R296, R297, R299 to R301 and R303. 1,100 µs after a port's first pattern its groups have left it, SEQ going up, TRAIN DONE
takes it from TRAINING to ENUM, and its first ID is offered. An attempt not UP within 2 ms counts in TRAIN_FAILS and waits
for the next vertical blanking, which starts another, up to 9; the port that fails its ninth is FAILED, until RETRAIN
starts again at 1. ENUM clears words 0, 2 and 3 of every partner entry and retrains every port that is not OFF. A PRBS
burst that is due takes an UP port, at most BLOCKS data blocks long, and counts. -/
def Obligations.PortsTrain : Prop :=
  (∀ (s : State) (p : Nat), s.boot.resetLow = false → p < 64 →
    (s.portState p ≠ portTRAINING ∨ (s.edlPort p).pattern = none → exec (.edlTrainDone p) s = .next s) ∧
    (∀ t0, s.portState p = portTRAINING → (s.edlPort p).pattern = some t0 → ∃ t, exec (.edlTrainDone p) s = .next t ∧
      t.now = max s.now (t0 + 1100 * 256000) ∧
      (s.portKind p = 2 → (s.edlPort p).held = none → s.nextId ≤ 0x3FF → t.portState p = portENUM ∧
        (t.edlPort p).offer = some s.nextId ∧
        ((s.edlPort p).queue = [] → (s.edlPort p).prog = none → s.laneCarries (laneEdl p) = true →
          sentEdl s t p = (List.range (1100 * 256000 / (16 * s.blockTicks p) - 1)).flatMap (fun i => patternGroup (i + 1))
            ++ [(2, controlBlock 0x66 2)] ∧
          (t.edlPort p).queue.flatMap (·.blocks) = [(2, controlBlock 0x4B (s.nextId + 2 ^ 12))]))) ∧
    (s.portState p = portTRAINING ∨ s.portState p = portENUM → ∃ t, exec (.edlTrainTimeout p) s = .next t ∧
      t.now = max s.now ((s.edlPort p).since + 2000 * 256000) ∧
      counted s t (Reg.EDL_PORT_TRAIN_FAILS p) 1 ∧ (t.edlPort p).offer = none ∧
      (s.fld (Reg.EDL_PORT_STATE_ATTEMPT p) < 9 → t.portState p = portWAIT) ∧
      (9 ≤ s.fld (Reg.EDL_PORT_STATE_ATTEMPT p) → t.portState p = portFAILED ∧
        (s.gateClosed (0xA0 + p) = false → raised t (0xA0 + p) 2))) ∧
    (s.portState p ≠ portTRAINING → s.portState p ≠ portENUM → exec (.edlTrainTimeout p) s = .next s) ∧
    (s.portState p = portWAIT → s.fld (Reg.EDL_PORT_STATE_ATTEMPT p) < 9 → ∃ t, exec (.edlTrainRetry p) s = .next t ∧
      t.portState p = portTRAINING ∧ t.fld (Reg.EDL_PORT_STATE_ATTEMPT p) = s.fld (Reg.EDL_PORT_STATE_ATTEMPT p) + 1 ∧
      t.fld (Reg.EDL_PORT_STATE_FOUND p) = 0 ∧ (t.edlPort p).since = s.now ∧ (t.edlPort p).held = (s.edlPort p).held) ∧
    (s.portState p ≠ portWAIT ∨ 9 ≤ s.fld (Reg.EDL_PORT_STATE_ATTEMPT p) → exec (.edlTrainRetry p) s = .next s)) ∧
  (∀ (s : State) (p port : Nat) (w : Word), p < 64 → s.Serves .EDL_PORT (0xA0 + p) →
    (s.portState p ≠ portFAILED → exec (.portRetrain port p w) s = .next s) ∧
    (s.portState p = portFAILED → ∃ t, exec (.portRetrain port p w) s = .next t ∧ t.portState p = portTRAINING ∧
      t.fld (Reg.EDL_PORT_STATE_ATTEMPT p) = 1 ∧ t.fld (Reg.EDL_PORT_STATE_FOUND p) = 0)) ∧
  (∀ (s : State) (port : Nat) (w : Word), s.Serves .EDL 0x70 → ∃ t, exec (.edlEnum port w) s = .next t ∧
    counted s t Reg.EDL_ENUM_RUNS 1 ∧
    (∀ e, e < 1024 → t.rd (Reg.PARTNER_W e 0) = 0x3000 ∧ t.rd (Reg.PARTNER_W e 1) = s.rd (Reg.PARTNER_W e 1) ∧
      t.rd (Reg.PARTNER_W e 2) = 0 ∧ t.rd (Reg.PARTNER_W e 3) = 0) ∧
    (∀ p, p < 64 → t.portState p = (if s.portState p = portOFF then portOFF else portTRAINING) ∧
      (s.portState p ≠ portOFF → t.fld (Reg.EDL_PORT_STATE_ATTEMPT p) = 1))) ∧
  (∀ (s : State) (p n want : Nat) (due : Prop), s.boot.resetLow = false → p < 64 →
    want = max 1 (s.fld Reg.EDL_PRBS_CFG_BLOCKS) →
    (due ↔ s.flag Reg.EDL_PRBS_CFG_EN = true ∧
      (s.rd Reg.TIMING_FRAME_NO).toNat % max 1 (s.fld Reg.EDL_PRBS_CFG_EVERY) = 0 ∧ s.vact ≤ s.tim.line ∧
      s.portIsUp p = true ∧ (s.edlPort p).burst ≠ (s.rd Reg.TIMING_FRAME_NO).toNat + 1) →
    (¬ due → exec (.prbsBurst p n) s = .next s) ∧
    (due → ∃ t, exec (.prbsBurst p n) s = .next t ∧ counted s t (Reg.EDL_PORT_BURSTS p) 1 ∧
      (portFree s p s.now → s.laneCarries (laneEdl p) = true →
        sentEdl s t p = [(2, controlBlock 0x66 (3 + 2 ^ 16 * want))] ∧
        (t.edlPort p).prog.toList.flatMap (·.blocks) = prbsBlocks (min n want) (2 ^ 31 - 1))))

/-- A good response comes in an open slot over a return lane that is up: it passes its CRC-16, names the partner polled and
has the TYPE of REQ (R290 to R292). -/
def good (s : State) (g pid req : Nat) (bytes l : List Byte) : Prop :=
  s.laneCarries (laneRet g) = true ∧ busFrame bytes = some (pid, req + 1, l) ∧
    ∃ x, s.busSlot g = some x ∧ x.pid = pid ∧ x.req = req

/-- What every good answer leaves on its bus and partner (R293). -/
def answered (s t : State) (g pid type code : Nat) : Prop :=
  t.busSlot g = none ∧ counted s t (Reg.RETBUS_ANSWERS g) 1 ∧ counted s t (Reg.RETBUS_CODE_ERR g) code ∧
    t.fld (Reg.RETBUS_LAST_PID g) = pid ∧ t.fld (Reg.RETBUS_LAST_TYPE g) = type ∧
    t.fld ⟨Reg.PARTNER_W pid 2, 24, 8⟩ = 0 ∧ (t.partner pid).absent = false

/-- The commands by which the bytes of a response come. -/
def busCommands (g : Nat) (bytes : List Byte) (code : Nat) : List Instr :=
  [.statusResponse g bytes code, .faultsResponse g bytes code, .errcntResponse g bytes code, .readbackResponse g bytes code,
   .capsResponse g bytes code, .noneResponse g bytes code]

/-- R289 to R293, R298 and R310. A POLL opens the one slot of a bus that is on, and counts it. A good STATUS, FAULTS, ERRCNT or
READBACK response closes it, counts in ANSWERS, is shown in LAST, clears ABSENT and the misses, and puts its figures into
the partner's entry; a READBACK with the host's TAG ends its command. CAPS while its ID is on offer enters the partner
as valid with its port and position. A response that fails its CRC or does not match, as NONE, counts in CRC_ERR, an
absent one in MISSES, violations in CODE_ERR, and from MISS_LIMIT misses in a row on the partner is ABSENT. Nothing comes
without an open slot, or over a lane that is not up. -/
def Obligations.PollsAndAnswers : Prop :=
  (∀ (s : State) (g : Nat), s.boot.resetLow = false → g < 16 →
    (s.busSlot g ≠ none ∨ s.domOn (28 + g) = false ∨ s.flag (Reg.RETBUS_CFG_EN g) = false ∨ s.choosePoll g = none →
      exec (.edlPoll g) s = .next s) ∧
    (∀ pid p req, s.busSlot g = none → s.domOn (28 + g) = true → s.flag (Reg.RETBUS_CFG_EN g) = true →
      s.choosePoll g = some (pid, p, req) → ∃ t tag, exec (.edlPoll g) s = .next t ∧ t.busSlot g = some ⟨p, pid, req, tag⟩ ∧
        counted s t (Reg.RETBUS_SLOTS g) 1 ∧ (portFree s p s.now → s.laneCarries (laneEdl p) = true →
          sentEdl s t p = [(2, controlBlock 0x55 (pid + 2 ^ 11 * req + 2 ^ 14 * tag))]))) ∧
  (∀ (s : State) (g pid code : Nat) (bytes l : List Byte), s.boot.resetLow = false → g < 16 → pid < 1024 →
    (good s g pid 0 bytes l → ∃ t, exec (.statusResponse g bytes code) s = .next t ∧
      answered s t g pid 1 code ∧ t.fld ⟨Reg.PARTNER_W pid 2, 0, 16⟩ = leField l 0 2 ∧
      t.fld ⟨Reg.PARTNER_W pid 2, 17, 1⟩ = leField l 2 2 / 4 % 2 ∧
      t.fld ⟨Reg.PARTNER_W pid 3, 0, 16⟩ = min 0xFFFF (s.fld ⟨Reg.PARTNER_W pid 3, 0, 16⟩ + leField l 4 2)) ∧
    (good s g pid 1 bytes l → ∃ t, exec (.faultsResponse g bytes code) s = .next t ∧ answered s t g pid 2 code ∧
      t.fld ⟨Reg.PARTNER_W pid 3, 16, 16⟩ = min 0xFFFF (s.fld ⟨Reg.PARTNER_W pid 3, 16, 16⟩ + (l.length + 1) / 2) ∧
      (l ≠ [] → t.fld ⟨Reg.PARTNER_W pid 2, 16, 1⟩ = 1)) ∧
    (good s g pid 2 bytes l → ∃ t, exec (.errcntResponse g bytes code) s = .next t ∧ answered s t g pid 3 code) ∧
    (∀ h e, good s g pid 3 bytes l → s.edl.host = some h → h.rd = true → h.pid = pid →
      (chunks 6 l).find? (fun e => byteAt e 0 % 128 == h.tag) = some e →
      ∃ t, exec (.readbackResponse g bytes code) s = .next t ∧ answered s t g pid 4 code ∧
        t.fld ⟨Reg.EDL_HCMD_RD, 0, 16⟩ = leField e 4 2 ∧ hcmdReads t false true false false ∧ t.edl.host = none) ∧
    (∀ x caps, good s g pid 4 bytes l → caps = leField l 0 2 → s.busSlot g = some x → x.port < 64 →
      s.portState x.port = portENUM → (s.edlPort x.port).offer = some pid → (s.edlPort x.port).got.length < 64 →
      (s.edlPort x.port).got.contains pid = false → (s.edlPort x.port).held = none →
      ∃ t, exec (.capsResponse g bytes code) s = .next t ∧ t.busSlot g = none ∧ counted s t (Reg.RETBUS_ANSWERS g) 1 ∧
        counted s t (Reg.RETBUS_CODE_ERR g) code ∧
        (t.partner pid).valid = true ∧ (t.partner pid).port = x.port ∧
        (t.partner pid).pos = (s.edlPort x.port).got.length ∧ (t.partner pid).kind = caps % 4 ∧
        (t.partner pid).depths = caps / 4 % 8 ∧ (t.partner pid).prbs = (caps / 32 % 2 == 1) ∧
        (t.partner pid).outputs = leField l 2 2 % 4096 ∧ (t.edlPort x.port).got = (s.edlPort x.port).got ++ [pid])) ∧
  (∀ (s : State) (g code : Nat) (bytes : List Byte) (c : Instr), s.boot.resetLow = false → c ∈ busCommands g bytes code →
    s.busSlot g = none ∨ s.laneCarries (laneRet g) = false → exec c s = .next s) ∧
  (∀ (s : State) (g code : Nat) (x : EdlSlot) (m : Nat), s.boot.resetLow = false → g < 16 → s.busSlot g = some x →
    x.pid < 1024 → s.domOn (28 + g) = true → s.flag (Reg.RETBUS_CFG_EN g) = true →
    (∀ bytes c, c ∈ busCommands g bytes code → s.laneCarries (laneRet g) = true →
      (∀ pid type l, busFrame bytes = some (pid, type, l) → pid ≠ x.pid ∨ type ≠ x.req + 1) →
      ∃ t, exec c s = .next t ∧ t.busSlot g = none ∧ counted s t (Reg.RETBUS_CRC_ERR g) 1 ∧
        counted s t (Reg.RETBUS_CODE_ERR g) code) ∧
    (∀ bytes, s.laneCarries (laneRet g) = true → busFrame bytes = some (x.pid, 6, []) → x.req < 5 →
      ∃ t, exec (.noneResponse g bytes code) s = .next t ∧ t.busSlot g = none ∧ counted s t (Reg.RETBUS_CRC_ERR g) 1) ∧
    (∃ t, exec (.pollMiss g code false) s = .next t ∧ t.busSlot g = none ∧ counted s t (Reg.RETBUS_MISSES g) 1 ∧
      counted s t (Reg.RETBUS_CODE_ERR g) code ∧
      (x.req ≠ 4 → m = min 255 (s.fld ⟨Reg.PARTNER_W x.pid 2, 24, 8⟩ + 1) →
        t.fld ⟨Reg.PARTNER_W x.pid 2, 24, 8⟩ = m ∧
        (t.partner x.pid).absent = ((s.partner x.pid).absent || decide (max 1 (s.fldA Reg.EDL_CFG_MISS_LIMIT) ≤ m)))) ∧
    (∃ t, exec (.pollMiss g code true) s = .next t ∧ t.busSlot g = none ∧ counted s t (Reg.RETBUS_CRC_ERR g) 1))


/-! Gate timing outputs and the panel's power sequences (R311 to R327). -/

/-- A power-on step has begun: its number, the supplies, and what it waits for (R319). -/
def stepBegun (s t : State) (k pe : Nat) : Prop :=
  t.panelState = panPOWERING ∧ t.fld Reg.PANELPWR_STATE_STEP = k ∧ t.panelPe = pe ||| s.fld (onStepFld k 0 4) ∧
    t.pan.waitPg = (s.flag (onStepFld k 12 1) && !s.pan.pgIn) ∧
    (t.pan.waitPg = false → (t.pan.gateRun = true ↔ s.pan.gateRun = true ∨ s.flag (onStepFld k 8 1) = true) ∧
      (t.pan.edlRun = true ↔ s.pan.edlRun = true ∨ s.flag (onStepFld k 9 1) = true) ∧
      t.pan.due = t.now + s.fld (onStepFld k 16 16) * 25600000)

/-- R319, R320 and R324. ON in OFF with PWR_FAIL_N high starts the power-on at ON_STEP0; during a power-off it is kept pending; with
PWR_FAIL_N low it is refused and counted; while ON or powering on it is ignored. A step raises its supplies, waits for
PG_IN where it asks for it, then sets its runs and waits its delay, after which the next step begins or, after LAST or
step 7, the panel is ON. PG_IN rising goes on with the step that waits. AUTO_ON acts once PWR_FAIL_N has stayed high
after a power-off that it started. -/
def Obligations.PanelPowersOn : Prop :=
  (∀ (s : State) (port : Nat) (w : Word), s.Serves .PANELPWR 0x101 → w.toNat / 2 % 2 = 0 →
    (s.pan.pfailN = false → ∃ t, exec (.panelOn port w) s = .next t ∧ counted s t Reg.PANELPWR_ON_REFUSED 1 ∧
      raised t 0x101 4 ∧ t.fld Reg.PANELPWR_STATE_PENDING = 0 ∧ t.panelState = s.panelState) ∧
    (s.pan.pfailN = true → s.pan.off ≠ 0 → exec (.panelOn port w) s = .next (s.put Reg.PANELPWR_STATE_PENDING 1)) ∧
    (s.pan.pfailN = true → s.pan.off = 0 → s.panelState ≠ panOFF → exec (.panelOn port w) s = .next s) ∧
    (s.pan.pfailN = true → s.pan.off = 0 → s.panelState = panOFF → ∃ t, exec (.panelOn port w) s = .next t ∧
      stepBegun s t 0 s.panelPe)) ∧
  (∀ (s : State) (k : Nat), s.boot.resetLow = false → k = s.fld Reg.PANELPWR_STATE_STEP →
    (s.panelState ≠ panPOWERING ∨ s.pan.waitPg = true → exec .powerOnStep s = .next s) ∧
    (s.panelState = panPOWERING → s.pan.waitPg = false →
      (s.flag (onStepFld k 11 1) = true ∨ k = 7 → s.gateClosed 0x101 = false → ∃ t, exec .powerOnStep s = .next t ∧
        t.panelState = panON ∧ raised t 0x101 0 ∧ t.now = max s.now s.pan.due) ∧
      (s.flag (onStepFld k 11 1) = false → k ≠ 7 → ∃ t, exec .powerOnStep s = .next t ∧
        stepBegun s t (k + 1) s.panelPe ∧ t.now = max s.now s.pan.due))) ∧
  (∀ (s : State) (k : Nat), s.boot.resetLow = false → k = s.fld Reg.PANELPWR_STATE_STEP → ∃ t,
    exec .pgInRise s = .next t ∧ t.pan.pgIn = true ∧
    (s.pan.waitPg = true → t.pan.waitPg = false ∧ t.pan.due = s.now + s.fld (onStepFld k 16 16) * 25600000 ∧
      (t.pan.gateRun = true ↔ s.pan.gateRun = true ∨ s.flag (onStepFld k 8 1) = true) ∧
      (t.pan.edlRun = true ↔ s.pan.edlRun = true ∨ s.flag (onStepFld k 9 1) = true)) ∧
    (s.pan.waitPg = false → t.pan = { s.pan with pgIn := true })) ∧
  (∀ s : State, s.boot.resetLow = false →
    (s.flag Reg.PANELPWR_CFG_AUTO_ON = false ∨ s.pan.byPfail = false ∨ s.pan.pfailN = false → exec .autoOn s = .next s) ∧
    (s.flag Reg.PANELPWR_CFG_AUTO_ON = true → s.pan.byPfail = true → s.pan.pfailN = true → s.pan.off = 0 →
      s.panelState = panOFF → ∃ t, exec .autoOn s = .next t ∧ t.pan.byPfail = false ∧ stepBegun s t 0 s.panelPe))

/-- A power-off has begun (R322, R323): with EDL_RUN reached DISCHARGE is sent to the cell ports that are UP, at once where
the port is free and its lane carries traffic. -/
def offBegun (s t : State) : Prop :=
  t.panelState = panDISCHARGE ∧ t.pan.off = 1 ∧
    ∀ p, p < 64 → (s.portKind p ≠ 1 ∨ s.portIsUp p = false → sentEdl s t p = []) ∧
      (s.portKind p = 1 → s.portIsUp p = true → portFree s p t.now → s.laneCarries (laneEdl p) = true →
        sentEdl s t p = [(2, controlBlock 0x4B (cmdBody 0x7FF false 0x00D 1 0))])

/-- R320 and R322 to R324. OFF, PWR_FAIL_N low and a PG_IN that does not come start the power-off; in a power-on that counts in
ABORTS, or in PG_FAIL, and PWR_FAIL_N counts in PFAIL_CNT whatever goes on. It discharges, drives the AGON levels for
AG_FRAMES times PERIOD_MIN, then turns the backlight off and lowers the supplies, the highest first, and is OFF when
none is high. During a power-off OFF drops a pending ON. With PWR_FAIL_N low a save begins where NVC is ready and the flash
is not write-protected. -/
def Rules.PanelPowersOff : Prop :=
  (∀ (s : State) (port : Nat) (w : Word), s.Serves .PANELPWR 0x101 → w.toNat % 2 = 0 →
    (s.pan.off ≠ 0 → exec (.panelOff port w) s = .next (s.put Reg.PANELPWR_STATE_PENDING 0)) ∧
    (s.pan.off = 0 → s.pan.edlRun = true → ∃ t, exec (.panelOff port w) s = .next t ∧ offBegun s t ∧ t.pan.byPfail = false ∧
      counted s t Reg.PANELPWR_ABORTS (if s.panelState = panPOWERING then 1 else 0))) ∧
  (∀ s : State,
    (s.boot.resetLow = true → exec .pfail s = .next { s with pan := { s.pan with pfailN := false } }) ∧
    (s.boot.resetLow = false → ∃ t, exec .pfail s = .next t ∧ t.pan.pfailN = false ∧ counted s t Reg.PANELPWR_PFAIL_CNT 1 ∧
      (s.gateClosed 0x101 = false → raised t 0x101 2) ∧
      (s.pan.off = 0 → s.pan.edlRun = true → offBegun s t ∧ t.pan.byPfail = true) ∧
      (s.domCur 46 = domStON → s.nv.saving = false →
        (s.nv.wpN = true → s.flag Reg.NV_STATUS_READY = true → t.nv.saving = true ∧ t.flag Reg.NV_STATUS_SAVING = true) ∧
        (s.nv.wpN = false ∨ s.flag Reg.NV_STATUS_READY = false →
          t.nv.saving = false ∧ t.flag Reg.NV_STATUS_SAVE_FAIL = true))) ∧
    exec .pwrFailNHigh s = .next { s with pan := { s.pan with pfailN := true } }) ∧
  (∀ s : State, s.boot.resetLow = false →
    (s.pan.waitPg = false → exec .pgFail s = .next { s with pan := { s.pan with pgIn := false } }) ∧
    (s.pan.waitPg = true → s.pan.edlRun = true → ∃ t, exec .pgFail s = .next t ∧ counted s t Reg.PANELPWR_PG_FAIL 1 ∧
      offBegun s t ∧ t.pan.waitPg = false ∧ t.now = max s.now s.pan.due)) ∧
  (∀ s : State, s.boot.resetLow = false →
    (s.pan.off = 0 → exec .powerOffStep s = .next s) ∧
    (s.pan.off = 1 → s.pan.gateRun = true → ∃ t, exec .powerOffStep s = .next t ∧ t.panelState = panGATESON ∧ t.pan.off = 2 ∧
      t.now = max s.now s.pan.due ∧
      t.pan.due = t.now + max 1 (s.fld Reg.PANELPWR_OFF_CFG_AG_FRAMES) * (s.rdA Reg.TIMING_PERIOD_MIN).toNat * 16) ∧
    (s.pan.off = 2 → s.panelPe.log2 < 4 → s.fld Reg.PANELPWR_STATE_PENDING = 0 → ∃ t, exec .powerOffStep s = .next t ∧
      t.pan.gateRun = false ∧ t.pan.edlRun = false ∧ t.pan.blRun = false ∧ (∀ p, p < 64 → t.portState p = portOFF) ∧
      (if s.panelPe = 0 ∨ s.panelPe = 2 ^ s.panelPe.log2 then t.panelState = panOFF ∧ t.panelPe = 0
        else t.panelState = panSUPPLY ∧ t.panelPe = s.panelPe - 2 ^ s.panelPe.log2 ∧
          t.pan.due = t.now + s.fld Reg.PANELPWR_OFF_CFG_OFF_DELAY * 25600000)) ∧
    (s.pan.off = 3 → s.panelPe ≠ 0 → s.fld Reg.PANELPWR_STATE_PENDING = 0 → ∃ t, exec .powerOffStep s = .next t ∧
      t.panelPe = s.panelPe - 2 ^ s.panelPe.log2 ∧ (t.panelPe = 0 → t.panelState = panOFF ∧ t.pan.off = 0)))

/-- R311 to R313, R315, R317 and R318. Each gate line drives the sixteen outputs: their waveforms once GATE_RUN is reached, else at
SAFE or AGON levels; at the boundary of a frame's own period the next frame's line 0 follows. A position holds the level of
the enabled edge nearest before it, the highest number of equals, or IDLE, inverted where POL_XOR and POL say. Each
pulse cycle of BL_PWM goes high at its start, unless it is held inactive, and low after its high time, or where the dark
fraction begins. The pads show it while they are not latched. -/
def Rules.GateLines : Prop :=
  (∀ (s : State) (g : GateFrame) (j : Nat) (isNew : Bool), s.boot.resetLow = false → s.gateNext = some (g, j, isNew) →
    ∃ t, exec .gateLine s = .next t ∧ t.now = max s.now (g.lineStart j) ∧ t.pan.cur = some g ∧ t.pan.line = j + 1 ∧
      t.pan.drive = s.gateWant ∧
      fresh s t = if s.padsFree 45 = true then (List.range 16).map (fun n => ⟨.gate, n,
          if s.gateWant = 1 then (g.edges n j).flatMap (fun e => [e.1, b2n e.2])
          else [0, (s.rd Reg.GATE_LEVELS).toNat / 2 ^ (if s.gateWant = 2 then 16 + n else n) % 2]⟩)
        else []) ∧
  (∀ s : State, s.boot.resetLow = false → s.gateNext = none → ∃ t, exec .gateLine s = .next t ∧ t.out = s.out ∧
    t.pan.drive = (if s.gateWant = 1 then s.pan.drive else s.gateWant)) ∧
  (∀ (g : GateFrame) (n j pos : Nat),
    (g.edgesApply n j = false ∨ (∀ e, e < 8 → bit (g.edge n e) 15 = true → pos < g.edge n e % 4096) →
      g.level n j pos = (bit (g.mode n) 5 != g.inverted n j)) ∧
    (∀ e, g.edgesApply n j = true → e < 8 → bit (g.edge n e) 15 = true → g.edge n e % 4096 ≤ pos →
      (∀ i, i < 8 → i ≠ e → bit (g.edge n i) 15 = true → g.edge n i % 4096 ≤ pos →
        g.edge n i % 4096 < g.edge n e % 4096 ∨ (g.edge n i % 4096 = g.edge n e % 4096 ∧ i < e)) →
      g.level n j pos = (bit (g.edge n e) 12 != g.inverted n j))) ∧
  (∀ (s : State) (k : Nat), s.boot.resetLow = false → k = s.pan.pwmCycle →
    (s.tim.running = false → exec .blPwmPulse s = .next s) ∧
    (s.tim.running = true → s.pan.pwmHigh = true → ∃ t, exec .blPwmPulse s = .next t ∧
      t.now = max s.now (s.pwmEnd k) ∧ t.pan.pwmHigh = false ∧ t.pan.pwmCycle = k + 1 ∧
      t.pan.pwmPin = s.flagA Reg.GATE_BL_CFG_INV ∧
      (s.padsFree 45 = true → s.pan.pwmPin ≠ s.flagA Reg.GATE_BL_CFG_INV →
        t.out = ⟨.pin, 1, [b2n (s.flagA Reg.GATE_BL_CFG_INV)]⟩ :: s.out)) ∧
    (s.tim.running = true → s.pan.pwmHigh = false → s.pwmN ≤ k → exec .blPwmPulse s = .next s) ∧
    (s.tim.running = true → s.pan.pwmHigh = false → k < s.pwmN →
      (s.pwmHeld (max s.now (s.pwmStart k)) = true ∨ s.pwmTicks = 0 → ∃ t, exec .blPwmPulse s = .next t ∧
        t.now = max s.now (s.pwmStart k) ∧ t.pan = { s.pan with pwmCycle := k + 1 } ∧ t.out = s.out) ∧
      (s.pwmHeld (max s.now (s.pwmStart k)) = false → s.pwmTicks ≠ 0 → ∃ t, exec .blPwmPulse s = .next t ∧
        t.now = max s.now (s.pwmStart k) ∧ t.pan.pwmHigh = true ∧ t.pan.pwmPin = !s.flagA Reg.GATE_BL_CFG_INV ∧
        (s.padsFree 45 = true → s.pan.pwmPin = s.flagA Reg.GATE_BL_CFG_INV →
          t.out = ⟨.pin, 1, [b2n (!s.flagA Reg.GATE_BL_CFG_INV)]⟩ :: s.out))))


/-! In-package memory (R328 to R353). -/

/-- No injection is enabled that an access to memory could fire (R465). -/
def noInjection (s : State) : Prop := s.rd Reg.PERTURB_PAGER = 0 ∧ s.rd Reg.PERTURB_ECC_INJ = 0

/-- RESULT of a port: BUSY, DONE, STATUS and HANDLE. -/
def resultReads (t : State) (port busy done status h : Nat) : Prop :=
  t.rd (perPort port Reg.REGION_RESULT) = BitVec.ofNat 32 (busy + 2 * done + 16 * status + 256 * h)

/-- Class 1 to 4 may have a channel for a beat of an engine while some engines wait on it: no refresh holds it, no class 0
waits, and the channel turns to the engine (R338). -/
def mayServe (s : State) (ch e : Nat) (waiting : List Nat) : Prop :=
  s.refreshing ch = false ∧ (∀ x ∈ waiting, engineClass x ≠ 0) ∧ (s.chanTurn ch e waiting).isSome = true

/-- R332 to R335 and R337. A GO with no request of the port under way queues its REQ; another is dropped and counted. MEMC serves
the requests in order, while ALLOC owns B33: an allocation takes the lowest free handle and the first map entries that
fit, all of its pages at once for class 0 or COMMIT, and is refused as SIZE, ALLOC_FULL, NOSPACE, also where fewer pages than
RESERVE would be left, or MAPFULL; a FREE gives the handle back, waits while a page of the region migrates, and is
refused as NOTALLOC, or INUSE when a configuration, active, pending or waiting, or a halted engine names the handle. -/
def Obligations.RegionsAreServed : Prop :=
  (∀ (s : State) (port : Nat) (w : Word), s.Serves .REGION 0x111 → port < 4 →
    (s.flag (resultFld port Reg.REGION_RESULT_BUSY) = true →
      exec (.regionFree port w) s = .next (s.bump Reg.REGION_REQ_DROP) ∧
      exec (.regionAlloc port w) s = .next (s.bump Reg.REGION_REQ_DROP)) ∧
    (s.flag (resultFld port Reg.REGION_RESULT_BUSY) = false → ∃ t q u r,
      exec (.regionFree port w) s = .next t ∧ exec (.regionAlloc port w) s = .next u ∧
      resultReads t port 1 0 0 0 ∧ resultReads u port 1 0 0 0 ∧
      t.mem = { s.mem with queue := s.mem.queue ++ [q] } ∧ u.mem = { s.mem with queue := s.mem.queue ++ [r] } ∧
      q.port = port ∧ q.isFree = true ∧ q.handle = (s.rd (perPort port Reg.REGION_REQ_HANDLE)).toNat % 2 ^ 6 ∧
      r.port = port ∧ r.isFree = false ∧ r.pages = (s.rd (perPort port Reg.REGION_REQ)).toNat % 2 ^ 16 ∧
      (r.cls0 = true ↔ s.fld ⟨perPort port Reg.REGION_REQ, Reg.REGION_REQ_CLASS0.lo, 1⟩ = 1) ∧
      (r.commit = true ↔ s.fld ⟨perPort port Reg.REGION_REQ, Reg.REGION_REQ_COMMIT.lo, 1⟩ = 1))) ∧
  (∀ s : State, s.boot.resetLow = false →
    (s.mem.queue = [] ∨ s.bankOwner 33 ≠ ownAlloc ∨ s.bankOn 33 = false → exec .regionReqDone s = .next s) ∧
    (∀ q rest, s.mem.queue = q :: rest → s.bankOwner 33 = ownAlloc → s.bankOn 33 = true → q.port < 4 →
      (q.isFree = false → ∀ need, need = (if q.cls0 = true ∨ q.commit = true then q.pages else 0) + s.reserve →
        (q.pages = 0 ∨ 32768 < q.pages → ∃ t, exec .regionReqDone s = .next t ∧ resultReads t q.port 0 1 4 0 ∧
          t.mem = { s.mem with queue := rest }) ∧
        (0 < q.pages → q.pages ≤ 32768 → s.freeHandle = none → ∃ t, exec .regionReqDone s = .next t ∧
          resultReads t q.port 0 1 1 0 ∧ t.mem = { s.mem with queue := rest } ∧
          (s.gateClosed 0x111 = false → raised t 0x111 1)) ∧
        (∀ h, 0 < q.pages → q.pages ≤ 32768 → s.freeHandle = some h → s.freePages < need → ∃ t,
          exec .regionReqDone s = .next t ∧ resultReads t q.port 0 1 2 0 ∧ t.mem = { s.mem with queue := rest }) ∧
        (∀ h, 0 < q.pages → q.pages ≤ 32768 → s.freeHandle = some h → need ≤ s.freePages →
          mapFit s.mem.regions q.pages = none →
          ∃ t, exec .regionReqDone s = .next t ∧ resultReads t q.port 0 1 3 0 ∧ t.mem = { s.mem with queue := rest }) ∧
        (∀ h b, 0 < q.pages → q.pages ≤ 32768 → s.freeHandle = some h → mapFit s.mem.regions q.pages = some b →
          b + q.pages ≤ 65536 → need ≤ s.freePages →
          ∃ t, exec .regionReqDone s = .next t ∧ resultReads t q.port 0 1 0 h ∧
            t.mem = { s.mem with
              queue := rest, regions := s.mem.regions ++ [⟨h, q.pages, b, q.cls0, q.port == 3⟩]
              blank := s.mem.blank ++ (if q.cls0 = false ∧ q.commit = true then (List.range q.pages).map (b + ·) else []) } ∧
            (q.cls0 = false → q.commit = false → ∀ i, i < q.pages → mapCommitted (t.mapEntry (b + i)) = false) ∧
            (q.cls0 = true ∨ q.commit = true → q.pages ≤ (List.range 32768).countP s.pageFree →
              (∀ i, i < q.pages → mapCommitted (t.mapEntry (b + i)) = true) ∧ t.freePages = s.freePages - q.pages))) ∧
      (q.isFree = true → ∀ used, (used = true ↔ handleNamed s.rdA q.handle = true ∨ handleNamed s.rd q.handle = true
          ∨ (∃ set, s.chip.applying = some set ∧ handleNamed (Cells.get resetWord set.words) q.handle = true)
          ∨ s.mem.halted.any (fun x => x.handle == q.handle) = true) →
        (s.region q.handle = none → ∃ t, exec .regionReqDone s = .next t ∧ resultReads t q.port 0 1 6 0 ∧
          t.mem = { s.mem with queue := rest }) ∧
        (∀ g, s.region q.handle = some g → used = true →
          ∃ t, exec .regionReqDone s = .next t ∧ resultReads t q.port 0 1 5 0 ∧ t.mem = { s.mem with queue := rest }) ∧
        (∀ g, s.region q.handle = some g → used = false → s.regionMigrating g = true → exec .regionReqDone s = .next s) ∧
        (∀ g, s.region q.handle = some g → used = false → s.regionMigrating g = false →
          ∃ t, exec .regionReqDone s = .next t ∧ resultReads t q.port 0 1 0 0 ∧ t.region q.handle = none ∧
            (∀ h, h ≠ q.handle → t.region h = s.region h) ∧ t.mem.queue = rest))))

/-- R330 to R332, R336, R338 to R341 and R344. A beat that an engine of class 1 to 4 writes into a written page changes its bytes
of DRAM and no other; the first write of a page commits the lowest free one, and with none to give faults NOSPACE. A
beat beyond the region faults UNMAPPED: engines 9, 12 and 13 halt, class 0 counts. A read that meets a single-bit error
counts in CORR. On a channel that nothing else waits on every engine is served; a class of weight 0, and one whose
weight is spent, is not while another with weight left waits. Class 0 is admitted within its budget for the window, and
counts in C0_HELD beyond it; each window opens anew. A refresh is postponed while class 0 waits, four times, and then holds
the channel for 350 ns. The operating point switches in vertical blanking once the copies have ended. -/
def Obligations.BeatsAreServed : Prop :=
  (∀ (s : State) (e h ofs word lat ecc ch : Nat) (l : List Byte) (waiting : List Nat), s.boot.resetLow = false →
    noInjection s → 0 < engineClass e → s.dramReady = true → s.migWaits e h ofs = false → s.mem.copies = [] →
    s.mem.halted.any (fun x => x.engine == e) = false → ch = ((s.xlate h ofs).map channelOf).getD 0 →
    mayServe s ch e waiting → l ≠ [] → ofs % 64 + l.length ≤ 64 →
    (∀ pa, s.xlate h ofs = some pa → ∃ t, exec (.dramBeat e h ofs (some l) ecc word lat waiting) s = .next t ∧
      (∀ a, t.dramByte a = if pa ≤ a ∧ a < pa + l.length then l.getD (a - pa) 0 else s.dramByte a) ∧
      counted s t (Reg.SCHED_BEATS_C (engineClass e)) 1 ∧ t.sram = s.sram) ∧
    (∀ p r i, s.region h = some r → ofs < r.pages * 65536 → i = r.base + ofs / 65536 → r.base + r.pages ≤ 65536 →
      mapCommitted (s.mapEntry i) = false → s.mem.blank.contains i = false → s.mapUp = true → s.reserve < s.freePages →
      s.lowestFree = some p → ∃ t, exec (.dramBeat e h ofs (some l) ecc word lat waiting) s = .next t ∧
        t.xlate h ofs = some (p * 65536 + ofs % 65536) ∧ t.freePages = s.freePages - 1 ∧ t.pageState p = 1 ∧
        (∀ a, p * 65536 + ofs % 65536 ≤ a → a < p * 65536 + ofs % 65536 + l.length →
          t.dramByte a = l.getD (a - (p * 65536 + ofs % 65536)) 0)) ∧
    (∀ r i, s.region h = some r → ofs < r.pages * 65536 → i = r.base + ofs / 65536 →
      mapCommitted (s.mapEntry i) = true → ∃ t, exec (.dramBeat e h ofs (some l) ecc word lat waiting) s = .next t ∧
        t.mem.blank.contains i = false ∧ t.xlate h ofs = some (s.mapEntry i % 32768 * 65536 + ofs % 65536)) ∧
    (∀ kind, (kind = 1 ∧ s.inRegion h ofs = false) ∨ (kind = 2 ∧ (∃ r, s.region h = some r ∧ ofs < r.pages * 65536 ∧
        mapCommitted (s.mapEntry (r.base + ofs / 65536)) = false) ∧ (s.freePages ≤ s.reserve ∨ s.mapUp = false)) → e < 16 →
      ∃ t, exec (.dramBeat e h ofs (some l) ecc word lat waiting) s = .next t ∧ t.fld (Reg.MEMC_FLT_INFO_KIND e) = kind ∧
        t.fld (Reg.MEMC_FLT_INFO_CLASS e) = engineClass e ∧ t.dram = s.dram ∧
        t.fld (Reg.MEMC_FLT_INFO_FAULT_CNT e) = min (2 ^ 16 - 1) (s.fld (Reg.MEMC_FLT_INFO_FAULT_CNT e) + 1) ∧
        (engineHalts e = true → t.flag (Reg.MEMC_FLT_INFO_HALTED e) = true ∧
          t.haltedBeat e = some ⟨e, h, ofs, some l, false⟩)) ∧
    (∀ pa, s.xlate h ofs = some pa → s.xlate h (ofs / 64 * 64 + 8 * (word % 8)) ≠ none → s.readFault h (ofs / 64 * 64) 64 = 0 →
      ∃ t, exec (.dramBeat e h ofs none 1 word lat waiting) s = .next t ∧ counted s t Reg.ECC_CORR 1 ∧ t.dram = s.dram)) ∧
  (∀ (s : State) (ch e x : Nat) (waiting : List Nat), 0 < engineClass e →
    (s.chanTurn ch e []).isSome = true ∧
    ((∀ c ∈ s.mem.copies, c.ended = true) → Cells.get (fun _ => 0) s.mem.preempted ch = 0 → x ∈ waiting → 0 < engineClass x →
      s.classWeight (engineClass x) ≠ 0 →
      s.classWeight (engineClass e) = 0 ∨ (Cells.get (fun _ => 0) s.mem.credit (8 * ch + engineClass e) = 0 ∧
        Cells.get (fun _ => 0) s.mem.credit (8 * ch + engineClass x) ≠ 0) → s.chanTurn ch e waiting = none)) ∧
  (∀ (s : State) (e h ofs word lat ecc ch last : Nat) (wr : Option (List Byte)) (waiting : List Nat),
    s.boot.resetLow = false → e ≤ 5 → ch = ((s.xlate h ofs).map channelOf).getD 0 →
    last = Cells.get (fun _ => 0) s.mem.lastEng ch →
    (s.refreshing ch = true → exec (.dramBeat e h ofs wr ecc word lat waiting) s = .next s) ∧
    (s.refreshing ch = false → s.c0Budget ≤ Cells.get (fun _ => 0) s.mem.admitted ch →
      exec (.dramBeat e h ofs wr ecc word lat waiting) s = .next (s.bump Reg.MEMC_C0_HELD)) ∧
    (s.refreshing ch = false → Cells.get (fun _ => 0) s.mem.admitted ch < s.c0Budget → noInjection s →
      s.rd Reg.PERTURB_DRAM_LAT0 = 0 →
      wr = none → ecc = 0 → ∃ t, exec (.dramBeat e h ofs wr ecc word lat waiting) s = .next t ∧
        Cells.get (fun _ => 0) t.mem.admitted ch = Cells.get (fun _ => 0) s.mem.admitted ch + 1 ∧
        t.mem.maxLat = max s.mem.maxLat lat ∧
        counted s t Reg.MEMC_C0_OVER (if 1500 < lat then 1 else 0) ∧
        counted s t Reg.SCHED_PREEMPT (if last ≠ 0 ∧ waiting.contains (last - 1) = true then 1 else 0) ∧
        counted s t Reg.MEMC_C0_FAULTS (if s.readFault h (ofs / 64 * 64) 64 = 0 then 0 else 1))) ∧
  (∀ s : State, s.boot.resetLow = false →
    exec .c0Window s = .next { s with mem := { s.mem with admitted := [] } } ∧
    (∀ ch busy n, n = Cells.get (fun _ => 0) s.mem.postponed ch → exec (.dramRefresh ch busy) s = .next { s with mem :=
      if busy = true ∧ n < 4 then { s.mem with postponed := Cells.set (fun _ => 0) s.mem.postponed ch (n + 1) }
      else { s.mem with
        postponed := Cells.set (fun _ => 0) s.mem.postponed ch 0
        refreshTo := if busy = true then Cells.set (fun _ => 0) s.mem.refreshTo ch (s.now + 350 * 256) else s.mem.refreshTo } }) ∧
    (∀ may, (may = true ↔ s.mem.mopDue = true ∧ s.mem.copies.all (fun c => c.ended) = true ∧
        (s.tim.running = false ∨ (s.vact < s.tim.line ∧ s.now + 20 * 256000 ≤ s.tim.next))) →
      (may = false → s.flag Reg.MEMC_STATUS_SWITCHING = false → exec .mopSwitch s = .next s) ∧
      (may = true ∨ s.flag Reg.MEMC_STATUS_SWITCHING = true → ∃ t,
        exec .mopSwitch s = .next t ∧ t.fld Reg.MEMC_STATUS_MOP_ACTIVE = min 2 (s.fldA Reg.MEMC_CFG_MOP) ∧
        t.flag Reg.MEMC_STATUS_SWITCHING = false ∧ counted s t Reg.MEMC_MOP_SWITCHES 1 ∧
        (s.gateClosed 0x110 = false → raised t 0x110 3) ∧ t.mem = { s.mem with mopDue := false })))

/-- R342, R343, R345 to R347 and R352. While ALLOC has B33 RETIRE_CMD takes a free page out of use at once, starts the copy of one
in use and ignores one retired. The copy ends with the bytes of the old page in the new one, and counts in RETIRED. A pass
of the scrubber counts while it is enabled. An access that still waits for a migration after 40 µs faults MIGRATING and
halts its engine, or ends a TABLE packet of engine 8. A halted engine goes on by RESUME, drops its beat by SKIP, ends by
ABORT: BULK from the host, engines 12 and 13 from the control core. -/
def Rules.PagesAndHalts : Prop :=
  (∀ (s : State) (port p : Nat) (w : Word), s.Serves .ECC 0x113 → p = w.toNat % 2 ^ 15 →
    (w.toNat < 2 ^ 31 ∨ s.mapUp = false → exec (.retireCmd port w) s = .next s) ∧
    (2 ^ 31 ≤ w.toNat → s.mapUp = true →
      (s.pageState p = 0 → ∃ t, exec (.retireCmd port w) s = .next t ∧ t.pageState p = 2 ∧ counted s t Reg.ECC_RETIRED 1 ∧
        raised t 0x113 2 ∧ t.freePages = s.freePages - 1 ∧ t.mem = s.mem) ∧
      (s.pageState p = 2 → exec (.retireCmd port w) s = .next s) ∧
      (∀ q, s.pageState p = 1 → s.mem.copies.any (fun c => c.oldPage == p) = false → s.lowestFree = some q → q < 32768 →
        ∃ t c, exec (.retireCmd port w) s = .next t ∧ t.mem = { s.mem with copies := s.mem.copies ++ [c] } ∧ c.oldPage = p ∧
          c.newPage = q ∧ c.ended = false ∧ mapMigrating (t.mapEntry c.mapIdx) = true ∧ t.pageState q = 1) ∧
      (s.pageState p = 1 → s.mem.copies.any (fun c => c.oldPage == p) = false → s.lowestFree = none →
        ∃ t, exec (.retireCmd port w) s = .next t ∧ counted s t Reg.ECC_RETIRE_FAIL 1 ∧ raised t 0x113 3 ∧
          t.errEntry p % 8 = 0 ∧ t.pageState p = 1))) ∧
  (∀ s : State, s.boot.resetLow = false →
    (s.mem.copies.find? (fun c => !c.ended) = none → exec .retireDone s = .next s) ∧
    (∀ c, s.mem.copies.find? (fun c => !c.ended) = some c → c.copied = 0 → c.newPage ≠ c.oldPage → c.newPage < 32768 →
      c.mapIdx < 65536 → s.bankOn 33 = true → s.tim.running = false → s.mem.copies = [c] → s.mem.poison = [] → ∃ t,
        exec .retireDone s = .next t ∧
        (∀ i, i < 65536 → t.dramByte (c.newPage * 65536 + i) = s.dramByte (c.oldPage * 65536 + i)) ∧
        counted s t Reg.ECC_RETIRED 1 ∧ t.mem.copies = [] ∧ t.mapEntry c.mapIdx = c.newPage + 0x8000 ∧
        (c.oldPage < 32768 → t.pageState c.oldPage = 2)) ∧
    (s.flag Reg.ECC_SCRUB_EN = false → ∀ corr unc, exec (.scrubPage corr unc) s = .next s) ∧
    (s.flag Reg.ECC_SCRUB_EN = true → s.dramReady = true → s.mem.poison = [] → exec (.scrubPage [] []) s
      = .next ((s.beats 1 (1024 * s.pagesUsed)).bump Reg.ECC_SCRUB_PASSES)) ∧
    (∀ e h ofs wr, e ≠ 8 → s.migWaits e h ofs = false → exec (.migrationTimeout e h ofs wr) s = .next s) ∧
    (∀ e h ofs wr, s.migWaits e h ofs = true → engineHalts e = true → ∃ t, exec (.migrationTimeout e h ofs wr) s = .next t ∧
      t.fld (Reg.MEMC_FLT_INFO_KIND e) = 4 ∧ t.flag (Reg.MEMC_FLT_INFO_HALTED e) = true ∧
      t.haltedBeat e = some ⟨e, h, ofs, wr, false⟩) ∧
    (∀ h ofs wr x rest, s.isl.staged = x :: rest → x.handle = h → s.migWaits 8 h x.ofs = true → ∃ t,
      exec (.migrationTimeout 8 h ofs wr) s = .next t ∧ t.fld (Reg.MEMC_FLT_INFO_KIND 8) = 4 ∧ t.isl.staged = rest)) ∧
  (∀ (s : State) (port e : Nat), s.Serves .MEMC 0x110 → e < 16 →
    (mayCommand port e = false ∨ s.haltedBeat e = none →
      exec (.fltResume port e) s = .next s ∧ exec (.fltSkip port e) s = .next s ∧ exec (.fltAbort port e) s = .next s) ∧
    (mayCommand port e = true ↔ (port = 3 ∧ (e = 12 ∨ e = 13)) ∨ (port ≠ 3 ∧ e = 9)) ∧
    (∀ b, s.haltedBeat e = some b → b.engine = e → port = 3 → e = 12 ∨ e = 13 →
      (∃ t, exec (.fltSkip port e) s = .next t ∧ (∀ l, b.wr = some l → l.length ≤ 64 - b.ofs % 64 → t = s.unhalt e) ∧
        (b.wr = none → t.mem = (s.unhalt e).mem ∧ (e = 13 → t.boot.skipped = (b.handle, b.ofs / 64 * 64) :: s.boot.skipped))) ∧
      (∃ t, exec (.fltAbort port e) s = .next t ∧ t.flag (Reg.MEMC_FLT_INFO_HALTED e) = false ∧ t.haltedBeat e = none) ∧
      (∃ t, exec (.fltResume port e) s = .next t ∧
        (s.dramReady = false → t.flag (Reg.MEMC_FLT_INFO_HALTED e) = false ∧ t.haltedBeat e = none ∧
          t.resumed e = some { b with resumed := true }) ∧
        (s.dramReady = true → b.wr = none → noInjection s → s.readFault b.handle (b.ofs / 64 * 64) 64 = 0 →
          t.flag (Reg.MEMC_FLT_INFO_HALTED e) = false ∧ t.haltedBeat e = none ∧ counted s t (Reg.SCHED_BEATS_C 3) 1))) ∧
    (∀ b j n, e = 9 → s.haltedBeat 9 = some b → port ≠ 3 → j = s.mem.bulk → n = min (j.len - j.pos) (64 - b.ofs % 64) →
      (∃ t, exec (.fltAbort port 9) s = .next t ∧
        t.flag (Reg.MEMC_FLT_INFO_HALTED 9) = false ∧ t.rd Reg.BULK_BSTAT = 4 ∧ t.haltedBeat 9 = none ∧
        t.rd Reg.BULK_DONE_BYTES = BitVec.ofNat 32 j.pos) ∧
      (∃ t, exec (.fltResume port 9) s = .next t ∧ exec .bulkDone (s.unhalt 9) = .next t ∧
        (s.dramReady = false → t.flag (Reg.MEMC_FLT_INFO_HALTED 9) = false ∧ t.mem.bulk = j)) ∧
      (∃ t u, exec (.fltSkip port 9) s = .next t ∧ exec .bulkDone u = .next t ∧ u.mem.bulk = { j with pos := j.pos + n } ∧
        u.dram = s.dram ∧ u.haltedBeat 9 = none ∧ (b.wr = none → n % 4 = 0 → j.pos % 4 = 0 → j.pos + n ≤ 2048 →
          u.winBytes j.pos n = List.replicate n 0))))

/-- R348 and R353. GO starts a transfer, and is ignored while one is under way. It moves LEN bytes, 2,048 for 0 and for more,
between the window and the region, as GO found TARGET, OFFSET and CTRL, ends DONE with its bytes counted, and with
AUTO_INC moves OFFSET on. While it is BUSY a write of the window is dropped and counted, and a read answers 0. -/
def Rules.BulkMoves : Prop :=
  (∀ (s : State) (port i : Nat) (w : Word), s.Serves .BULK 0x114 → i < 512 →
    (s.flag Reg.BULK_BSTAT_BUSY = true →
      exec (.bulkGo port w) s = .next (s.wr Reg.BULK_CTRL (w &&& 0x0FFF0006#32)) ∧
      exec (.bulkWinAccess port i (some w)) s = .next (s.bump Reg.BULK_WIN_DROP) ∧
      exec (.bulkWinAccess port i none) s = .next (s.emit .hostData port [0])) ∧
    (s.flag Reg.BULK_BSTAT_BUSY = false →
      (∃ t, exec (.bulkGo port w) s = .next t ∧ t.rd Reg.BULK_BSTAT = 1 ∧ t.rd Reg.BULK_DONE_BYTES = 0 ∧
        t.rd Reg.BULK_CTRL = w &&& 0x0FFF0006#32 ∧
        t.mem.bulk = ⟨s.fld Reg.BULK_TARGET_HANDLE, (s.rd Reg.BULK_OFFSET).toNat / 8 * 8, t.bulkLen, w.toNat / 2 % 2 == 1, 0⟩ ∧
        t = { s with regs := t.regs, mem := t.mem }) ∧
      exec (.bulkWinAccess port i (some w)) s = .next (s.wr (Reg.BULK_WIN i) w) ∧
      exec (.bulkWinAccess port i none) s = .next (s.emit .hostData port [(s.rd (Reg.BULK_WIN i)).toNat]))) ∧
  (∀ (s : State) (h ofs n pa : Nat) (j : BulkJob), s.boot.resetLow = false → j = s.mem.bulk → h = j.handle → ofs = j.ofs →
    n = j.len →
    (s.flag Reg.BULK_BSTAT_BUSY = false ∨ s.flag Reg.BULK_BSTAT_HALTED = true → exec .bulkDone s = .next s) ∧
    (s.bulkLen = (if s.fld Reg.BULK_CTRL_LEN / 8 * 8 = 0 ∨ 2048 < s.fld Reg.BULK_CTRL_LEN then 2048
      else s.fld Reg.BULK_CTRL_LEN / 8 * 8)) ∧
    (s.flag Reg.BULK_BSTAT_BUSY = true → s.flag Reg.BULK_BSTAT_HALTED = false → s.dramReady = false → ∃ t,
      exec .bulkDone s = .next t ∧ t.flag Reg.BULK_BSTAT_BUSY = true ∧ t.mem.bulk = j ∧ t.dram = s.dram) ∧
    (s.flag Reg.BULK_BSTAT_BUSY = true → s.flag Reg.BULK_BSTAT_HALTED = false → s.dramReady = true → j.pos = 0 → n ≤ 2048 →
      noInjection s → s.mem.copies = [] → s.mem.poison = [] → s.xlate h ofs = some pa → ofs % 65536 + n ≤ 65536 →
      s.migWaits 9 h ofs = false → s.gateClosed 0x114 = false → ∃ t, exec .bulkDone s = .next t ∧ t.rd Reg.BULK_BSTAT = 2 ∧
        t.rd Reg.BULK_DONE_BYTES = BitVec.ofNat 32 n ∧ raised t 0x114 0 ∧
        t.rd Reg.BULK_OFFSET = (if s.flag Reg.BULK_CTRL_AUTO_INC then s.rd Reg.BULK_OFFSET + BitVec.ofNat 32 n
          else s.rd Reg.BULK_OFFSET) ∧
        (j.dir = false →
          ∀ a, t.dramByte a = if pa ≤ a ∧ a < pa + n then (s.winBytes 0 n).getD (a - pa) 0 else s.dramByte a) ∧
        (j.dir = true → t.dram = s.dram ∧ t.winBytes 0 n = s.dramRead pa n)))


/-! On-die SRAM banks and their owners (R354 to R368). -/

/-- R355, R356, R358 to R364 and R368. A write of OWN[n] of a line bank, with a reserved code, or that takes a bank which is in use or
that a group or a region needs, is refused and counted. Any other that names a new owner is pending, the latest in force, at
once where the bank is not ON; when the drain is over, the old owner's accesses done two to a cycle, port B's of two writes
of one word dropped and counted, and after it the fill with zeros that CLEAR asked for, the new owner is ACTIVE and
HANDOVER raised. The window reaches a bank of HOST; of another owner a read answers 0, a write is
dropped, and both are counted. Moving B32 away from CTL stops the core, and its return restarts it with cause BANK. -/
def Obligations.BanksChangeHands : Prop :=
  (∀ (s : State) (port n new old : Nat) (w : Word), s.Serves .BANKS 0x118 → n < 48 → new = w.toNat % 8 → old = s.bankOwner n →
    (n < 32 ∨ 6 ≤ new ∨ (new ≠ old ∧ ((old = ownPix ∧ s.bankUsed n = true)
      ∨ (n = 33 ∧ old = ownAlloc ∧ s.mem.regions ≠ []) ∨ ((n = 42 ∨ n = 43) ∧ old = ownCas ∧ s.groupMember = true))) →
      ∃ t, exec (.ownWrite port n w) s = .next t ∧ counted s t Reg.BANKS_OWN_REFUSED 1 ∧ raised t 0x118 3 ∧
        t.bankOwner n = old ∧ t.rd (Reg.BANKS_OWN n) = s.rd (Reg.BANKS_OWN n) ∧ t.sram = s.sram ∧ t.mem = s.mem) ∧
    (32 ≤ n → new < 6 → n ≠ 32 → (old ≠ ownPix ∨ s.bankUsed n = false) → (n = 33 → s.mem.regions = []) →
      (n = 42 ∨ n = 43 → s.groupMember = false) →
      (new = old → s.flag (Reg.BANKS_OWN_PENDING n) = false → exec (.ownWrite port n w) s
        = .next (s.put (Reg.BANKS_OWN_CLEAR n) (w.toNat / 2 ^ 9 % 2))) ∧
      (new ≠ old ∨ s.flag (Reg.BANKS_OWN_PENDING n) = true → s.bankOn n = true →
        ∃ t, exec (.ownWrite port n w) s = .next t ∧ t.fld (Reg.BANKS_OWN_OWNER n) = new ∧
          t.flag (Reg.BANKS_OWN_PENDING n) = true ∧ t.bankOwner n = old ∧ t.sram = s.sram ∧
          (s.flag (Reg.BANKS_OWN_PENDING n) = false → t.mem.clears.contains n = (w.toNat / 2 ^ 9 % 2 == 1)) ∧
          t = { s with regs := t.regs, mem := { s.mem with clears := t.mem.clears } }) ∧
      (new ≠ old → s.bankOn n = false → s.mem.clears.contains n = false →
        s.flag (Reg.BANKS_OWN_PENDING n) = false → ∃ t, exec (.ownWrite port n w) s = .next t ∧ t.bankOwner n = new ∧
          t.flag (Reg.BANKS_OWN_PENDING n) = false ∧ raised t 0x118 2 ∧ t.sram = s.sram))) ∧
  (∀ (s : State) (n : Nat), s.boot.resetLow = false → 32 < n → n < 48 → s.gateClosed 0x118 = false →
    (s.flag (Reg.BANKS_OWN_CLEAR_BUSY n) = true ∨ s.flag (Reg.BANKS_OWN_PENDING n) = false → ∀ cycles,
      exec (.handover n cycles) s = .next s) ∧
    (s.flag (Reg.BANKS_OWN_CLEAR_BUSY n) = false → s.flag (Reg.BANKS_OWN_PENDING n) = true →
      (∀ cycles, ∃ t, exec (.handover n cycles) s = .next t ∧ (s.bankOn n = false ∨ cycles = [] → t.sram = s.sram) ∧
        (s.mem.clears.contains n = true → t.flag (Reg.BANKS_OWN_CLEAR_BUSY n) = true ∧ t.bankOwner n = s.bankOwner n ∧
          t.flag (Reg.BANKS_OWN_PENDING n) = true) ∧
        (s.mem.clears.contains n = false → t.bankOwner n = s.fld (Reg.BANKS_OWN_OWNER n) ∧
          t.flag (Reg.BANKS_OWN_PENDING n) = false ∧ raised t 0x118 2)) ∧
      (∀ a v b u, a < 65536 → b < 65536 → s.bankOn n = true → s.bankOwner n < 4 → s.bankOwner n ≠ ownCtl → ∃ t,
        exec (.handover n [⟨some ⟨a, some v⟩, some ⟨b, some u⟩⟩]) s = .next t ∧ t.bankWord n a = v ∧
        (b ≠ a → t.bankWord n b = u ∧ t.rd Reg.BANKS_COLLIDE = s.rd Reg.BANKS_COLLIDE) ∧
        (b = a → counted s t Reg.BANKS_COLLIDE 1 ∧ raised t 0x118 1 ∧ (n, a) ∈ t.mem.collided))) ∧
    (s.flag (Reg.BANKS_OWN_CLEAR_BUSY n) = false → exec (.clearDone n) s = .next s) ∧
    (s.flag (Reg.BANKS_OWN_CLEAR_BUSY n) = true → s.flag (Reg.BANKS_OWN_PENDING n) = true → s.mem.clears.contains n = true →
      ∃ t, exec (.clearDone n) s = .next t ∧ t.bankOwner n = s.fld (Reg.BANKS_OWN_OWNER n) ∧
        t.flag (Reg.BANKS_OWN_PENDING n) = false ∧ t.flag (Reg.BANKS_OWN_CLEAR_BUSY n) = false ∧ raised t 0x118 2 ∧
        (∀ k, k < 131072 → t.sramRd n k = 0) ∧ ∀ b k, b ≠ n → k < 131072 → t.sramRd b k = s.sramRd b k)) ∧
  (∀ (s : State) (port b o : Nat) (w : Word), s.Serves .BANKS 0x118 → b = s.fld Reg.BANKS_WIN_ADDR_BANK →
    o = s.fld Reg.BANKS_WIN_ADDR_OFFSET →
    (32 ≤ b → b < 48 → s.bankOn b = true → s.flag (Reg.BANKS_OWN_PENDING b) = false →
      (s.bankOwner b = ownHost →
        exec (.winDataAccess port (some w)) s = .next ((s.sramWr b o w).put Reg.BANKS_WIN_ADDR_OFFSET (o + 1)) ∧
        exec (.winDataAccess port none) s
          = .next ((s.put Reg.BANKS_WIN_ADDR_OFFSET (o + 1)).emit .hostData port [(s.sramRd b o).toNat])) ∧
      (s.bankOwner b ≠ ownHost →
        (∃ t, exec (.winDataAccess port (some w)) s = .next t ∧ counted s t Reg.BANKS_NONOWNER_WR 1 ∧
          t.fld Reg.BANKS_LAST_NONOWNER_BANK = b ∧ t.fld Reg.BANKS_LAST_NONOWNER_OWNER = ownHost ∧ raised t 0x118 0 ∧
          t.fld Reg.BANKS_WIN_ADDR_OFFSET = (o + 1) % 2 ^ 17 ∧ t.sram = s.sram) ∧
        (∃ t, exec (.winDataAccess port none) s = .next t ∧ counted s t Reg.BANKS_NONOWNER_RD 1 ∧ raised t 0x118 0 ∧
          t.fld Reg.BANKS_WIN_ADDR_OFFSET = (o + 1) % 2 ^ 17 ∧ t.out = ⟨.hostData, port, [0]⟩ :: s.out ∧
          t.sram = s.sram))) ∧
    (b < 32 → ∃ t, exec (.winDataAccess port (some w)) s = .next t ∧ counted s t Reg.BANKS_NONOWNER_WR 1 ∧
      t.sram = s.sram)) ∧
  (∀ (s : State) (port : Nat) (w : Word), s.Serves .BANKS 0x118 → s.bankOwner 32 = ownCtl → s.bankOn 32 = true →
    w.toNat % 8 < 6 → w.toNat % 8 ≠ ownCtl → ∃ t, exec (.ownWrite port 32 w) s = .next t ∧
      t.fld Reg.CTL_STATE_STATE = 2 ∧ t.bankOwner 32 = ownCtl ∧ t.flag (Reg.BANKS_OWN_PENDING 32) = true) ∧
  (∀ s : State, s.boot.resetLow = false → s.flag (Reg.BANKS_OWN_CLEAR_BUSY 32) = false →
    s.flag (Reg.BANKS_OWN_PENDING 32) = true → s.mem.clears.contains 32 = false → s.fld (Reg.BANKS_OWN_OWNER 32) = ownCtl → ∀ cycles,
    ∃ t, exec (.handover 32 cycles) s = .next t ∧ t.bankOwner 32 = ownCtl ∧ t.fld Reg.CTL_STATE_STATE = 1 ∧
      t.fld Reg.CTL_STATE_CAUSE = 3 ∧ counted s t Reg.CTL_RESTARTS 1)


/-! Clock sources, switching, gating and trimming (R394 to R411). -/

/-- R396 to R398, R400, R402 to R404. XTAL being stable sets XTAL_OK and raises XTAL_BACK after a loss; not stable 20 ms after
power-up sets XTAL_FAIL; its loss counts and raises XTAL_LOSS, holds the trim, and a PLL_PIX on it holds. Four windows in
a row of 999 to 1,001 cycles declare REFCLK present, one outside withdraws it. A PLL's lock sets its STATUS bit, and
PLL_SYS then carries HCLK and the control core; a lock that does not come counts in LOCK_FAIL; a lost one in LOCK_LOSS. -/
def Obligations.ClocksComeAndGo : Prop :=
  ∀ s : State, s.boot.resetLow = false → s.gateClosed 2 = false →
    (∃ t, exec .xtalStable s = .next t ∧ t.flag Reg.CLK_STATUS_XTAL_OK = true ∧ t.flag Reg.CLK_AON_TRIM_HELD = false ∧
      (s.clk.xtalLost = true → raised t 2 1 ∧ t.clk.xtalLost = false)) ∧
    exec .xtalFail s = .next (if s.flag Reg.CLK_STATUS_XTAL_OK then s else s.put Reg.CLK_STATUS_XTAL_FAIL 1) ∧
    (s.flag Reg.CLK_STATUS_XTAL_OK = false → exec .xtalLoss s = .next s) ∧
    (s.flag Reg.CLK_STATUS_XTAL_OK = true → ∃ t, exec .xtalLoss s = .next t ∧ counted s t Reg.CLK_XTAL_LOSS 1 ∧ raised t 2 0 ∧
      t.flag Reg.CLK_STATUS_XTAL_OK = false ∧ t.flag Reg.CLK_AON_TRIM_HELD = true ∧ t.clk.xtalLost = true ∧
      t.fld Reg.CLK_MUX_PIX_REF = (if s.fld Reg.CLK_MUX_PIX_REF = 1 then 2 else s.fld Reg.CLK_MUX_PIX_REF)) ∧
    exec .pixRefHold s = .next (s.put Reg.CLK_MUX_PIX_REF 2) ∧
    (s.flag Reg.CLK_STATUS_XTAL_OK = false → ∀ n, exec (.refclkWindow n) s = .next s) ∧
    (s.flag Reg.CLK_STATUS_XTAL_OK = true → ∀ n, (999 ≤ n → n ≤ 1001 → ∃ t, exec (.refclkWindow n) s = .next t ∧ t.clk.refRun = min 4 (s.clk.refRun + 1) ∧
        (3 ≤ s.clk.refRun → t.flag Reg.CLK_STATUS_REFCLK_OK = true) ∧ (s.clk.refRun < 3 → t.regs = s.regs)) ∧
      (n < 999 ∨ 1001 < n → exec (.refclkWindow n) s
        = .next { (s.put Reg.CLK_STATUS_REFCLK_OK 0) with clk := { s.clk with refRun := 0 } })) ∧
    (∀ p, p < 6 →
      (∃ t, exec (.pllLock p) s = .next t ∧ t.flag (pllLockFld p) = true ∧
        (p = 0 → s.muxTo 0 = none → s.muxTo 1 = none → t.muxTo 0 = some (s.fld Reg.CLK_CFG_HDIV) ∧ t.muxTo 1 = some (16 * s.cdiv))) ∧
      exec (.lockFail p) s = .next (if s.flag (pllLockFld p) then s else s.bump Reg.CLK_LOCK_FAIL) ∧
      (s.flag (pllLockFld p) = false → exec (.lockLoss p) s = .next s) ∧
      (s.flag (pllLockFld p) = true → ∃ t, exec (.lockLoss p) s = .next t ∧ t.flag (pllLockFld p) = false ∧
        (p = 2 → s.flag Reg.MEMC_STATUS_SWITCHING = true → t.rd Reg.CLK_LOCK_LOSS = s.rd Reg.CLK_LOCK_LOSS) ∧
        (p ≠ 2 ∨ s.flag Reg.MEMC_STATUS_SWITCHING = false → counted s t Reg.CLK_LOCK_LOSS 1 ∧ raised t 2 2) ∧
        (p = 0 → s.muxTo 0 = none → s.muxTo 1 = none → t.muxTo 0 = some 2 ∧ t.muxTo 1 = some 1)))

/-- R405, R406, R410 and R411. A change of HDIV or CDIV in CLK.CFG while PLL_SYS is locked asks its multiplexer for the new
source. A switch ends with MUX showing the new source, and the latest one asked for meanwhile is next; a forced one
sets its SW_FORCED bit, counts and raises; a failed one stays on the old clock, counts and raises. SW_FORCED is cleared by
a write of 1. The AONOSC code steps by one toward 4 MHz where a window is off by more than half a step, and INC follows
the windows where it is not. Closing an automatic gate changes nothing that can be read. -/
def Obligations.ClocksSwitch : Prop :=
  (∀ (s : State) (port : Nat) (w : Word), s.Serves .CLK 2 → s.flag Reg.CLK_STATUS_SYS_LOCK = true →
    (s.rd Reg.CLK_CFG ^^^ w) &&& 0x300#32 = 0 → s.muxTo 0 = none → s.muxTo 1 = none →
    ∃ t, exec (.clkCfgWrite port w) s = .next t ∧ t.rd Reg.CLK_CFG = w &&& 0x3F1#32 ∧
      t.muxTo 0 = (if w.toNat % 2 ≠ s.fld Reg.CLK_CFG_HDIV then some (w.toNat % 2) else none) ∧
      t.muxTo 1 = (if max 2 (w.toNat / 2 ^ 4 % 2 ^ 4) ≠ s.cdiv then some (16 * max 2 (w.toNat / 2 ^ 4 % 2 ^ 4)) else none) ∧
      t = { s with regs := t.regs, clk := t.clk }) ∧
  (∀ (s : State) (m : Nat), s.boot.resetLow = false → m < 4 → s.gateClosed 2 = false →
    (s.muxTo m = none → exec (.clkSwitchDone m) s = .next s ∧ exec (.swForced m) s = .next s ∧ exec (.swFail m) s = .next s) ∧
    (∀ src, s.muxTo m = some src →
      (s.rd Reg.PERTURB_CLKSW = 0 → ∃ t, exec (.clkSwitchDone m) s = .next t ∧ t.muxTo m = s.muxPend m ∧ t.muxPend m = none ∧
        t.fld (muxFld m) = (if m = 1 then src % 2 else src % 2 ^ (muxFld m).w) ∧
        t.rd Reg.CLK_SW_FORCED_CNT = s.rd Reg.CLK_SW_FORCED_CNT) ∧
      (∃ t, exec (.swForced m) s = .next t ∧ t.muxTo m = s.muxPend m ∧ t.muxPend m = none ∧ counted s t Reg.CLK_SW_FORCED_CNT 1 ∧
        t.fld ⟨Reg.CLK_SW_FORCED, m, 1⟩ = 1 ∧ raised t 2 3 ∧
        t.fld (muxFld m) = (if m = 1 then src % 2 else src % 2 ^ (muxFld m).w)) ∧
      (∃ t, exec (.swFail m) s = .next t ∧ t.muxTo m = s.muxPend m ∧ t.muxPend m = none ∧ counted s t Reg.CLK_SW_FAIL 1 ∧
        raised t 2 4 ∧ t.rd Reg.CLK_MUX = s.rd Reg.CLK_MUX))) ∧
  (∀ (s : State) (port : Nat) (w : Word), s.Serves .CLK 2 →
    exec (.swForcedWrite port w) s
      = .next (s.wr Reg.CLK_SW_FORCED (s.rd Reg.CLK_SW_FORCED &&& ~~~(w &&& 0xF#32)))) ∧
  (∀ (s : State) (n page code : Nat), s.boot.resetLow = false → code = s.fld Reg.CLK_AON_TRIM_CODE →
    exec (.clockGateClose page) s = .next s ∧
    (s.flag Reg.CLK_STATUS_XTAL_OK = false → exec (.aonTrimWindow n) s = .next s) ∧
    (s.flag Reg.CLK_STATUS_XTAL_OK = true →
      (25568 ≤ n → n ≤ 25632 → ∃ t, exec (.aonTrimWindow n) s = .next t ∧ t.fld Reg.CLK_AON_TRIM_CODE = code ∧
        t.clk.windows = (n :: s.clk.windows).take 16 ∧ t.rd Reg.CLK_TB_INC = BitVec.ofNat 32 (incOf t.clk.windows)) ∧
      (25632 < n → code < 127 → ∃ t, exec (.aonTrimWindow n) s = .next t ∧ t.fld Reg.CLK_AON_TRIM_CODE = code + 1 ∧
        t.clk.windows = [] ∧ t.rd Reg.CLK_TB_INC = s.rd Reg.CLK_TB_INC) ∧
      (n < 25568 → 0 < code → ∃ t, exec (.aonTrimWindow n) s = .next t ∧ t.fld Reg.CLK_AON_TRIM_CODE = code - 1 ∧
        t.clk.windows = [] ∧ t.rd Reg.CLK_TB_INC = s.rd Reg.CLK_TB_INC)))


/-! Power domains, supplies, wakes and resets (R412 to R431, R486). -/

/-- A counter of 16 bits counts one, and sticks at all ones (R428). -/
def counted16 (s t : State) (x : Fld) : Prop := t.fld x = min (2 ^ 16 - 1) (s.fld x + 1)

/-- What is recorded of a refusal or an abort of a domain: its reason and refuser, with a count (R419, R420). -/
def turnedDown (s t : State) (n : Nat) (x : Fld) (r : Nat × Nat) : Prop :=
  counted16 s t x ∧ t.fld (Reg.PWR_DOM_STATE_REASON n) = r.1 ∧ t.fld (Reg.PWR_DOM_STATE_REFUSER n) = r.2

/-- R413, R414, R418 and R419. A request of D0 or for state 0 is ignored; else REQ takes the target. While a transition is
under way the target is kept, and one that it replaces counts in SUPERSEDED unless it was an internal request's. A domain
with none begins its wake, its prerequisites that are not ON first, but for the DRAM's in Pawn mode; its entry, when nothing refuses it; or from OFF to RET its wake, RET pending. A refused
one is dropped, counted, recorded and raised. -/
def Rules.DomainRequests : Prop :=
  ∀ (s : State) (port n k : Nat) (w : Word), s.Serves .PWR 3 → n < 95 → k = w.toNat % 4 →
    (n = 0 ∨ k = 0 → exec (.domainReqWrite port n w) s = .next s) ∧
    (n ≠ 0 → k ≠ 0 → ∃ t, exec (.domainReqWrite port n w) s = .next t ∧ t.fld (Reg.PWR_DOM_REQ_TARGET n) = k ∧
      t.domCur n = s.domCur n ∧
      (s.domBusy n = true → t.domPending n = k ∧ t.domTrans n = (s.domTrans n).map (fun x => { x with inner := false }) ∧
        t.pwr.slots = s.pwr.slots ∧ ∀ inner, inner = (s.domTrans n).any (·.inner) →
        (s.domPending n ≠ 0 → inner = false → counted16 s t (Reg.PWR_DOM_CNT0_SUPERSEDED n)) ∧
        (s.domPending n = 0 ∨ inner = true → t.rd (Reg.PWR_DOM_CNT0 n) = s.rd (Reg.PWR_DOM_CNT0 n))) ∧
      (s.domBusy n = false →
        (k = s.domCur n → t.pwr = s.pwr ∧ t.domBusy n = false) ∧
        (k ≠ s.domCur n → k = 1 → s.pawn = true → n = 10 ∨ n = 11 → t.domTrans n = s.domTrans n) ∧
        (k ≠ s.domCur n → k = 1 ∨ k = 2 ∧ s.domCur n = 3 → s.pawn = false → t.domBusy n = true ∧
          (∃ i, t.domTrans n = some ⟨n, 1, 2, i⟩) ∧ (k = 2 → t.domPending n = 2) ∧
          (∀ d, d ∈ domNeeds n → s.domBusy d = false → s.domCur d ≠ 1 → ∃ i, t.domTrans d = some ⟨d, 1, 2, i⟩)) ∧
        (k ≠ s.domCur n → k ≠ 1 → ¬ (k = 2 ∧ s.domCur n = 3) →
          (∀ r, s.refusal n k = some r → turnedDown s t n (Reg.PWR_DOM_CNT1_REFUSED n) r ∧ raised t 3 0 ∧ t.pwr = s.pwr ∧
            t.domBusy n = false) ∧
          (s.refusal n k = none → t.domBusy n = true ∧ ∃ i, t.domTrans n = some ⟨n, k, 0, i⟩))))

/-- R413, R416 to R418 and R420. With no transition, nothing completes. During a drain a refusing condition ends the
entry: the domain stays as it was, which is counted, recorded and raised. A drain that ends without one leaves a slot of
saved words on the way to RET and none on the way to OFF, where the pads latch. An entry ends in its target and counts;
a wake, once the prerequisites are ON, in ON, and a slot whose CRC fails counts in SAVE_ERR. What waited is served at once. -/
def Rules.DomainsMove : Prop :=
  ∀ (s : State) (n : Nat) (bad : Bool), s.boot.resetLow = false → 0 < n → n < 95 → s.gateClosed 3 = false →
    (s.domTrans n = none → exec (.domainDrainDone n) s = .next s ∧ exec (.domainTransitionDone n bad) s = .next s ∧
      exec (.domainAborted n) s = .next s) ∧
    (∀ k i, s.domTrans n = some ⟨n, k, 0, i⟩ → k = 2 ∨ k = 3 →
      exec (.domainTransitionDone n bad) s = .next s ∧
      (∀ r, s.refusal n k = some r → s.domPending n = 0 → ∃ t, exec (.domainAborted n) s = .next t ∧
        exec (.domainDrainDone n) s = .next t ∧ turnedDown s t n (Reg.PWR_DOM_CNT1_ABORTED n) r ∧ raised t 3 1 ∧
        t.domBusy n = false ∧ t.domTrans n = none ∧ t.domCur n = s.domCur n ∧ t.pwr.slots = s.pwr.slots) ∧
      (s.refusal n k = none → exec (.domainAborted n) s = .next s ∧
        ∃ t, exec (.domainDrainDone n) s = .next t ∧ t.domTrans n = some ⟨n, k, 1, i⟩ ∧ t.domBusy n = true ∧
          t.domCur n = s.domCur n ∧ (k = 2 → domUnits n ≠ [] → ∃ x, x ∈ t.pwr.slots ∧ x.dom = n) ∧
          (k = 3 → ∀ x, x ∈ t.pwr.slots → x.dom ≠ n) ∧
          (k = 3 → n = 44 ∨ n = 45 ∨ n = 46 → t.fld (Reg.PWR_DOM_STATE_LATCHED n) = 1 ∧
            t.fld ⟨Reg.PWR_PAD_LATCHED, n - 44, 1⟩ = 1))) ∧
    (∀ k i, s.domTrans n = some ⟨n, k, 1, i⟩ → k = 2 ∨ k = 3 → exec (.domainDrainDone n) s = .next s ∧
      ∃ t, exec (.domainTransitionDone n bad) s = .next t ∧ t.domCur n = k ∧
        counted16 s t (Reg.PWR_DOM_CNT0_ENTRIES n) ∧
        (s.domPending n = 0 → t.domPending n = 0 ∧ t.domBusy n = false ∧ t.domTrans n = none) ∧
        (s.domPending n = 1 → s.pawn = false → t.domPending n = 0 ∧ t.domBusy n = true ∧
          ∃ i, t.domTrans n = some ⟨n, 1, 2, i⟩)) ∧
    (∀ i, s.domTrans n = some ⟨n, 1, 2, i⟩ →
      ((∃ d, d ∈ domNeeds n ∧ s.domOn d = false) → exec (.domainTransitionDone n bad) s = .next s) ∧
      ((∀ d, d ∈ domNeeds n → s.domOn d = true) → s.domPending n = 0 →
        ∃ t, exec (.domainTransitionDone n bad) s = .next t ∧ t.domCur n = 1 ∧ t.domBusy n = false ∧ t.domTrans n = none ∧
          (s.domCur n = 2 → bad = true → domUnits n ≠ [] → counted s t Reg.PWR_SAVE_ERR 1 ∧ raised t 3 4)))

/-- R416. The words that a domain saves come back from its slot as they were, whatever happened to them meanwhile. -/
def Rules.SavedWordsReturn : Prop :=
  ∀ (s u : State) (n a : Nat), domUnits n ≠ [] → Cells.wf resetWord s.regs = true → inPages (domPages n) a = true →
    Cells.wf resetWord u.regs = true → u.pwr.slots = (s.saveDomain n).pwr.slots →
    (u.restoreDomain n).rd a &&& savedMask a = s.rd a &&& savedMask a

/-- R425 and R426. OP_CFG is refused with code 0x10 below the OP in use; else it stores, a MAX within MAX_ACTIVE acts at once,
and VDD_CORE's target is asked for; VSER asks for VDD_SER's. A request starts an exchange, counted and sent, or waits for
the one under way, the latest for its rail. A reading within 10 mV acknowledges it, a failed acknowledge field resends
it, three times at most; a rejection and a time-out count, raise and leave MAX_ACTIVE; then the next begins. -/
def Rules.SuppliesFollow : Prop :=
  (∀ (s : State) (port : Nat) (w : Word), s.Serves .PWR 3 →
    let mx := w.toNat % 4
    let mv := coreTarget mx (w.toNat / 2 ^ 4 % 2 ^ 4)
    let mvs := clampNat 850 950 (w.toNat % 2 ^ 10)
    let raise := s.fld Reg.PWR_OP_STATUS_MAX_ACTIVE < mx
    (mx < s.fld Reg.PWR_OP_CFG_MAX → mx < s.pixOp → exec (.opCfgWrite port w) s = .next (s.err 3 0x10)) ∧
    (¬ (mx < s.fld Reg.PWR_OP_CFG_MAX ∧ mx < s.pixOp) → ∃ t, exec (.opCfgWrite port w) s = .next t ∧
      t.rd Reg.PWR_OP_CFG = w &&& 0xF3#32 ∧ t.fld Reg.PWR_OP_STATUS_MAX_ACTIVE = min (s.fld Reg.PWR_OP_STATUS_MAX_ACTIVE) mx ∧
      (s.pwr.avs = none → t.pwr.avs = some ⟨0, mv, if raise then some mx else none, s.now, 0, false⟩ ∧
        t.out = ⟨.avs, s.fld Reg.PWR_AVS_CFG_CORE_SEL, [mv]⟩ :: s.out ∧ counted s t Reg.PWR_AVS_REQS 1) ∧
      (s.pwr.avs ≠ none → t.pwr.avs = s.pwr.avs ∧ t.out = s.out ∧ t.pwr.avsWait
        = s.pwr.avsWait.filter (fun x => x.rail ≠ 0) ++ [⟨0, mv, if raise then some mx else none, 0, 0, false⟩])) ∧
    (∃ t, exec (.vserWrite port w) s = .next t ∧ t.rd Reg.PWR_VSER = w &&& 0x3FF#32 ∧
      (s.pwr.avs = none → t.pwr.avs = some ⟨1, mvs, none, s.now, 0, false⟩ ∧
        t.out = ⟨.avs, s.fld Reg.PWR_AVS_CFG_SER_SEL, [mvs]⟩ :: s.out ∧ counted s t Reg.PWR_AVS_REQS 1) ∧
      (s.pwr.avs ≠ none → t.pwr.avs = s.pwr.avs ∧ t.out = s.out ∧
        t.pwr.avsWait = s.pwr.avsWait.filter (fun x => x.rail ≠ 1) ++ [⟨1, mvs, none, 0, 0, false⟩]))) ∧
  (∀ (s : State) (mv : Nat) (crcErr nak : Bool), s.boot.resetLow = false → s.gateClosed 3 = false → mv < 1024 →
    (s.pwr.avs = none → exec (.avsPoll mv crcErr) s = .next s ∧ exec (.avsFail nak) s = .next s) ∧
    (∀ r, s.pwr.avs = some r → r.rail < 2 →
      (r.resends < 3 → ∃ t, exec (.avsPoll mv true) s = .next t ∧ t.pwr.avs = some { r with resends := r.resends + 1 } ∧
        t.out = ⟨.avs, s.fld (if r.rail = 0 then Reg.PWR_AVS_CFG_CORE_SEL else Reg.PWR_AVS_CFG_SER_SEL), [r.mv]⟩ :: s.out) ∧
      (3 ≤ r.resends → exec (.avsPoll mv true) s = .next s) ∧
      (r.mv + 10 < mv ∨ mv + 10 < r.mv → exec (.avsPoll mv false) s = .next s) ∧
      (r.mv ≤ mv + 10 → mv ≤ r.mv + 10 → s.fld ⟨Reg.PERTURB_AVS_DELAY, 0, 16⟩ = 0 → r.held = false →
        ∃ t, exec (.avsPoll mv false) s = .next t ∧
          t.fld (if r.rail = 0 then Reg.PWR_VSTATUS_VDD_CORE else Reg.PWR_VSTATUS_VDD_SER) = mv ∧
          (∀ m, r.newMax = some m → t.fld Reg.PWR_OP_STATUS_MAX_ACTIVE = min m (s.fld Reg.PWR_OP_CFG_MAX) % 4) ∧
          (s.pwr.avsWait = [] → t.pwr.avs = none ∧ t.fld Reg.PWR_VSTATUS_AVS_BUSY = 0) ∧
          (∀ q l, s.pwr.avsWait = q :: l → t.pwr.avs = some { q with since := s.now, resends := 0 } ∧ t.pwr.avsWait = l)) ∧
      (∃ t, exec (.avsFail nak) s = .next t ∧ counted s t (if nak then Reg.PWR_AVS_NAK else Reg.PWR_AVS_TIMEOUT) 1 ∧
        raised t 3 3 ∧ t.fld Reg.PWR_OP_STATUS_MAX_ACTIVE = s.fld Reg.PWR_OP_STATUS_MAX_ACTIVE ∧
        t.now = (if nak then s.now else max s.now (r.since + 512000000)) ∧ (s.pwr.avsWait = [] → t.pwr.avs = none))))

/-- R421, R427 and R431. A write of ALARM arms it; the alarm fires once, raises ALARM, and is wake source 2. An enabled source
sets its bit of WAKE_CAUSE, raises WAKE and brings the domains marked in WAKE_DOMS ON; one that is not enabled does
nothing. WAKE_CAUSE is cleared by a write of 1. PAD_RELEASE lets go of the pads of a domain that is ON, and of no other.
POWER_ON_MIN counts every 60,000,000 µs of TIMEBASE. -/
def Rules.WakesAndPads : Prop :=
  (∀ (s : State) (k : Nat), s.boot.resetLow = false → k < 4 → s.gateClosed 1 = false →
    (s.rd Reg.PWR_WAKE_SRC).toNat.testBit (8 + k) = false → exec (.gpioWakeEdge k) s = .next s) ∧
  (∀ (s : State) (k : Nat), s.boot.resetLow = false → k < 4 → s.gateClosed 1 = false →
    (s.rd Reg.PWR_WAKE_SRC).toNat.testBit (8 + k) = true → ∃ t, exec (.gpioWakeEdge k) s = .next t ∧
      t.fld ⟨Reg.AON_WAKE_CAUSE, 8 + k, 1⟩ = 1 ∧ raised t 1 0 ∧
      ∀ n, 0 < n → n < 95 → (s.rd (Reg.PWR_WAKE_DOMS (n / 32))).toNat.testBit (n % 32) = true →
        t.fld (Reg.PWR_DOM_REQ_TARGET n) = 1 ∧
        (s.domBusy n = false → s.domCur n ≠ 1 → s.pawn = false → ∃ i, t.domTrans n = some ⟨n, 1, 2, i⟩)) ∧
  (∀ (s : State) (port : Nat) (high : Bool) (w : Word), s.Serves .AON 1 →
    exec (.alarmWrite port high w) s
      = .next { (s.wr (if high then Reg.AON_ALARM_HI else Reg.AON_ALARM) w) with pwr := { s.pwr with alarmArmed := true } } ∧
    exec (.wakeCauseWrite port w) s = .next (s.wr Reg.AON_WAKE_CAUSE (s.rd Reg.AON_WAKE_CAUSE &&& ~~~(w &&& 0xF0F#32)))) ∧
  (∀ s : State, s.boot.resetLow = false →
    (s.pwr.alarmArmed = false → exec .aonAlarm s = .next s) ∧
    (s.pwr.alarmArmed = true → s.gateClosed 1 = false → ∃ t, exec .aonAlarm s = .next t ∧ t.pwr.alarmArmed = false ∧
      raised t 1 1 ∧ ((s.rd Reg.PWR_WAKE_SRC).toNat.testBit 2 = true → t.fld ⟨Reg.AON_WAKE_CAUSE, 2, 1⟩ = 1 ∧ raised t 1 0) ∧
      ((s.rd Reg.AON_ALARM).toNat + 2 ^ 32 * (s.rd Reg.AON_ALARM_HI).toNat ≤ s.timebase →
        t.now = (s.now / 64000 + 1) * 64000))) ∧
  (∀ (s : State) (port : Nat) (w : Word), s.Serves .PWR 3 → ∃ t, exec (.padRelease port w) s = .next t ∧
    ∀ i, i < 3 → t.fld ⟨Reg.PWR_PAD_LATCHED, i, 1⟩
      = if w.toNat.testBit i = true ∧ s.domOn (44 + i) = true ∧ s.flag (Reg.PWR_DOM_STATE_LATCHED (44 + i)) = true then 0 else s.fld ⟨Reg.PWR_PAD_LATCHED, i, 1⟩) ∧
  (∀ s : State, s.boot.resetLow = false → ∃ t, exec .powerOnMinTick s = .next t ∧
    (t.rd Reg.AON_POWER_ON_MIN).toNat = ((s.rd Reg.AON_POWER_ON_MIN).toNat + 1) % 2 ^ 32 ∧
    t.pwr.minutesAt = s.pwr.minutesAt + 1 ∧ t.now = max s.now (s.tbInstant (60000000 * (s.pwr.minutesAt + 1))))

/-- R429, R452 and R486. A power-on reset, as the trip of VDD_AON's monitor is one, leaves every domain ON with REQ at ON, no
pad latched, TIMEBASE 0 and no slot saved; a reset by RESET_N's or another monitor leaves the save memory, TIMEBASE,
BOOT_TRIES and POWER_ON_MIN. Both hold the M960 in reset and keep the flash. The rise of RESET_N, or the supplies'
return, releases it and samples the straps. -/
def Rules.ResetsKeep : Prop :=
  ∀ (s : State) (gpio : Nat), gpio < 16 →
    (∃ t, exec .powerOnReset s = .next t ∧ exec (.supplyMonitorTrip true) s = .next t ∧ t.boot.resetLow = true ∧
      t.rd Reg.AON_TIMEBASE = 0 ∧ t.rd Reg.AON_TIMEBASE_HI = 0 ∧ t.pwr = PwrState.atReset ∧ t.nv.flash = s.nv.flash ∧
      t.rd Reg.PWR_PAD_LATCHED = 0 ∧ ∀ n, n < 95 → t.domCur n = 1 ∧ t.fld (Reg.PWR_DOM_REQ_TARGET n) = 1) ∧
    (∃ t, exec (.supplyMonitorTrip false) s = .next t ∧ exec .resetNLow s = .next t ∧ t.boot.resetLow = true ∧
      t.pwr.slots = s.pwr.slots ∧ t.nv.flash = s.nv.flash ∧ t.rd Reg.PWR_PAD_LATCHED = 0 ∧
      (∀ a, a ∈ [Reg.AON_TIMEBASE, Reg.AON_TIMEBASE_HI, Reg.AON_BOOT_TRIES, Reg.AON_POWER_ON_MIN] → t.rd a = s.rd a) ∧
      ∀ n, n < 95 → t.domCur n = 1 ∧ t.fld (Reg.PWR_DOM_REQ_TARGET n) = 1) ∧
    (s.boot.resetLow = true → ∃ t, exec (.resetNRise gpio) s = .next t ∧ exec (.supplyBackInRange gpio) s = .next t ∧
      t.boot.resetLow = false ∧ t.rd Reg.HOSTIF_STRAPS = BitVec.ofNat 32 gpio ∧ t.boot.phase = 0)


/-! NVC: the flash, records and saves (R432 to R451). -/

/-- NVC with the levels of NV_WP_N and CAL_JMP_N that a command samples (R434, R439). -/
def nvPins (s : State) (wpN jmpN : Bool) : State :=
  { s.setWp wpN with nv := { (s.setWp wpN).nv with jmpN := jmpN } }

/-- A record operation has ended with a code, which raises REC_DONE; and a raw one, RAW_DONE (R443, R444, R451). -/
def recEnded (t : State) (code : Nat) : Prop :=
  t.fld ⟨Reg.NV_REC_STATUS, 0, 1⟩ = 0 ∧ t.fld ⟨Reg.NV_REC_STATUS, 1, 1⟩ = 1 ∧ t.fld ⟨Reg.NV_REC_STATUS, 4, 4⟩ = code ∧ raised t 6 1
def rawEnded (t : State) (code : Nat) : Prop :=
  t.fld ⟨Reg.NV_RAW_STATUS, 0, 1⟩ = 0 ∧ t.fld ⟨Reg.NV_RAW_STATUS, 1, 1⟩ = 1 ∧ t.fld ⟨Reg.NV_RAW_STATUS, 4, 4⟩ = code ∧ raised t 6 2

/-- NVC is as it was, but for the event log, which an interrupt that rises joins (R447). -/
def nvKept (s t : State) : Prop := t.nv = { s.nv with log := t.nv.log }

/-- R434, R438, R439, R441, R443 and R448. A record command that finds NVC busy or not ready is ignored with code 0x10, during
a save it ends ABORTED. READ answers with the winner's payload, length and SEQ, or NOTFOUND. APPEND and DELETE end BADTYPE
for a type or an index that takes none, BADLEN, WP, which counts, or NOSPACE, which sets FULL; else the record goes to the
head, where there is room as its pages follow those before, under the next SEQ; a DELETE is a record without payload and
with flag 1. -/
def Obligations.RecordsAreKept : Prop :=
  ∀ (s u : State) (port : Nat) (wpN : Bool) (w : Word) (typ id len : Nat) (fac : Bool), s.Serves .NV 6 → u = s.setWp wpN →
    typ = s.fld Reg.NV_REC_KEY_TYPE → id = s.fld Reg.NV_REC_KEY_ID → fac = s.flag Reg.NV_REC_KEY_FACTORY →
    len = s.fld Reg.NV_REC_LEN_LEN →
    (s.nvIdle = false → s.nv.saving = false → exec (.nvAppend port wpN w) s = .next (u.err 6 0x10) ∧
      exec (.nvDelete port wpN w) s = .next (u.err 6 0x10) ∧ exec (.nvRead port w) s = .next (s.err 6 0x10)) ∧
    (s.nv.saving = true → ∃ a d r, exec (.nvAppend port wpN w) s = .next a ∧ exec (.nvDelete port wpN w) s = .next d ∧
      exec (.nvRead port w) s = .next r ∧ recEnded a 6 ∧ recEnded d 6 ∧ recEnded r 6 ∧ nvKept u a ∧ nvKept u d ∧ nvKept s r) ∧
    (s.nvIdle = true →
      (presentOf (if fac then s.nv.factory else s.nv.recs) typ id = none →
        ∃ t, exec (.nvRead port w) s = .next t ∧ recEnded t 1 ∧ nvKept s t) ∧
      (∀ r, presentOf (if fac then s.nv.factory else s.nv.recs) typ id = some r → r.len ≤ 4064 → r.seq < 2 ^ 32 →
        ∃ t, exec (.nvRead port w) s = .next t ∧ recEnded t 0 ∧ (t.rd Reg.NV_REC_LEN).toNat = r.len ∧
          (t.rd Reg.NV_REC_SEQ).toNat = r.seq ∧ t.bufRd r.len = s.recData (if fac then factoryBase else ringBase) r) ∧
      (∃ a d, exec (.nvAppend port wpN w) s = .next a ∧ exec (.nvDelete port wpN w) s = .next d ∧
        (fac = true ∨ typ < 0x40 ∨ typ = 0xFF → recEnded a 5) ∧ (fac = true → recEnded d 5) ∧
        (fac = false → 0x40 ≤ typ → typ ≤ 0xFE →
          (4064 < len → recEnded a 4) ∧
          (len ≤ 4064 → wpN = false → recEnded a 3 ∧ counted s a Reg.NV_WP_REFUSED 1 ∧ recEnded d 3) ∧
          (len ≤ 4064 → wpN = true → s.nvRoom [recordSize len] = false → recEnded a 2 ∧ a.flag Reg.NV_STATUS_FULL = true) ∧
          (len ≤ 4064 → wpN = true → s.nvRoom [recordSize len] = true → s.nv.inUse ≠ 0 →
            s.nv.headOff + recordSize len ≤ 4096 → s.nv.nextSeq < 2 ^ 32 →
            a.nv.nextSeq = s.nv.nextSeq + 1 ∧ a.nv.headOff = s.nv.headOff + recordSize len ∧
            a.flag Reg.NV_STATUS_BUSY = true ∧ a.fld ⟨Reg.NV_REC_STATUS, 0, 1⟩ = 1 ∧
            ∃ l rest, a.nv.todo = .program (ringBase + 4096 * s.nv.head + s.nv.headOff) l :: rest ∧ rest.getLast? = some (.recEnd 0) ∧
              l = (recordBytes typ id 0 s.nv.nextSeq (s.bufRd len)).take (256 - s.nv.headOff % 256))) ∧
        (fac = false → wpN = true →
          (s.nvRoom [recordSize 0] = false → recEnded d 2 ∧ d.flag Reg.NV_STATUS_FULL = true) ∧
          (s.nvRoom [recordSize 0] = true → s.nv.inUse ≠ 0 → s.nv.headOff + recordSize 0 ≤ 4096 → s.nv.nextSeq < 2 ^ 32 →
            d.nv.nextSeq = s.nv.nextSeq + 1 ∧ d.nv.headOff = s.nv.headOff + recordSize 0 ∧
            ∃ l rest, d.nv.todo = .program (ringBase + 4096 * s.nv.head + s.nv.headOff) l :: rest ∧ rest.getLast? = some (.recEnd 0) ∧
              l = (recordBytes typ id 2 s.nv.nextSeq []).take (256 - s.nv.headOff % 256)))))

/-- R433, R434, R444 and R448. A raw READ fills the buffer. PROGRAM takes what lies in its page, and ERASE4K and ERASE64K an
aligned address only; what the map forbids ends RING, or DENIED for want of presence or the jumper, which counts as refused,
and while NV_WP_N is low WP, which counts. What is allowed goes to the flash. -/
def Rules.RawOperations : Prop :=
  ∀ (s v : State) (port : Nat) (wpN jmpN : Bool) (w : Word) (a : Nat), s.Serves .NV 6 → v = nvPins s wpN jmpN → port < 4 →
    a = s.rawAddr →
    (s.nvIdle = false → s.nv.saving = false → exec (.rawRead port w) s = .next (s.err 6 0x10) ∧
      exec (.nvProgram port wpN jmpN w) s = .next (v.err 6 0x10) ∧ exec (.erase4k port wpN jmpN w) s = .next (v.err 6 0x10) ∧
      exec (.erase64k port wpN jmpN w) s = .next (v.err 6 0x10)) ∧
    (s.nv.saving = true → ∃ r p e b, exec (.rawRead port w) s = .next r ∧ exec (.nvProgram port wpN jmpN w) s = .next p ∧
      exec (.erase4k port wpN jmpN w) s = .next e ∧ exec (.erase64k port wpN jmpN w) s = .next b ∧
      rawEnded r 6 ∧ nvKept s r ∧ rawEnded p 6 ∧ nvKept v p ∧ rawEnded e 6 ∧ nvKept v e ∧ rawEnded b 6 ∧ nvKept v b) ∧
    (s.nvIdle = true →
      (∃ t, exec (.rawRead port w) s = .next t ∧ rawEnded t 0 ∧ t.bufRd s.rawLen = s.flashRd a s.rawLen) ∧
      (∃ p e b, exec (.nvProgram port wpN jmpN w) s = .next p ∧ exec (.erase4k port wpN jmpN w) s = .next e ∧
        exec (.erase64k port wpN jmpN w) s = .next b ∧
        ∀ (t : State) (n : Nat) (st : NvStep), (t, n, st) ∈
            [(p, 1, .program a (s.bufRd (min s.rawLen (256 - a % 256)))), (e, 4096, .erase a false), (b, 65536, .erase a true)] →
          (a % n ≠ 0 → rawEnded t 10) ∧
          (a % n = 0 → flashPart a = 2 → rawEnded t 8) ∧
          (a % n = 0 → flashPart a = 0 ∨ flashPart a = 3 → s.presenceOpen = false → rawEnded t 9 ∧ counted s t Reg.SEC_REFUSED 1 ∧
            t.fld Reg.SEC_LAST_REFUSED_PORT = port ∧ t.fld Reg.SEC_LAST_REFUSED_FACTORY = 0) ∧
          (a % n = 0 → flashPart a = 3 → s.presenceOpen = true → jmpN = true → rawEnded t 9 ∧ counted s t Reg.SEC_REFUSED 1 ∧
            t.fld Reg.SEC_LAST_REFUSED_FACTORY = 1) ∧
          (a % n = 0 → flashPart a = 1 ∨ flashPart a = 4 ∨ flashPart a = 0 ∧ s.presenceOpen = true ∨
              flashPart a = 3 ∧ s.presenceOpen = true ∧ jmpN = false →
            (wpN = false → rawEnded t 3 ∧ counted s t Reg.NV_WP_REFUSED 1) ∧
            (wpN = true → t.nv.todo = [st, .rawEnd 0] ∧ t.flag Reg.NV_STATUS_BUSY = true ∧
              (n = 1 → t.fld Reg.NV_RAW_STATUS_TAKEN = min s.rawLen (256 - a % 256))))))

/-- R432, R443 and R451. A flash operation that ends has cleared the bits of its bytes, or erased its sector or block, and no
other byte. One whose WIP does not clear ends with FLASH, and a save with it fails. An access to BUF_DATA reads or writes
the word at BUF_ADDR and moves it on by 4, a read of AGE_DATA the zone at AGE_ADDR, by 1. -/
def Rules.FlashAndBuffer : Prop :=
  (∀ (s : State) (wpN : Bool), s.boot.resetLow = false →
    (∀ a l rest, s.nv.todo = .program a l :: rest → a + l.length ≤ 2 ^ 25 → ∃ t, exec (.flashOpDone wpN) s = .next t ∧
      ∀ k, Cells.get flashDefault t.nv.flash k = if a ≤ k ∧ k < a + l.length
        then Cells.get flashDefault s.nv.flash k &&& l.getD (k - a) 0 else Cells.get flashDefault s.nv.flash k) ∧
    (∀ a big rest n, s.nv.todo = .erase a big :: rest → n = (if big then 65536 else 4096) → ∃ t, exec (.flashOpDone wpN) s = .next t ∧
      ∀ k, Cells.get flashDefault t.nv.flash k = if k / n = a / n then 0xFF else Cells.get flashDefault s.nv.flash k) ∧
    (s.nv.todo = [] → exec .flashTimeout s = .next s) ∧
    (s.nv.todo ≠ [] → s.gateClosed 6 = false → s.nv.todo.length < 1200 → ∃ t, exec .flashTimeout s = .next t ∧ t.nv.todo = [] ∧ t.nv.saving = false ∧
        (∀ c, .recEnd c ∈ s.nv.todo → recEnded t 7) ∧ (∀ c, .rawEnd c ∈ s.nv.todo → rawEnded t 7) ∧
        (s.nv.saving = true → counted s t Reg.NV_SAVE_FAILS 1 ∧ raised t 6 4))) ∧
  (∀ (s : State) (port : Nat) (w : Word), s.Serves .NV 6 →
    (∃ t, exec (.bufDataAccess port none) s = .next t ∧ (t.rd Reg.NV_BUF_ADDR).toNat = (s.bufAddr + 4) % 4096 ∧
      t = { s with regs := t.regs, out := ⟨.hostData, port, [leVal (Cells.getRun (fun _ => 0) s.nv.buf s.bufAddr 4)]⟩ :: s.out }) ∧
    (∃ t, exec (.bufDataAccess port (some w)) s = .next t ∧ (t.rd Reg.NV_BUF_ADDR).toNat = (s.bufAddr + 4) % 4096 ∧
      leVal (Cells.getRun (fun _ => 0) t.nv.buf s.bufAddr 4) = w.toNat) ∧
    (∀ z, z = s.fld ⟨Reg.NV_AGE_ADDR, 0, 14⟩ → ∃ t, exec (.ageDataRead port) s = .next t ∧
      (t.rd Reg.NV_AGE_ADDR).toNat = (z + 1) % 16384 ∧ t = { s with regs := t.regs, out := t.out } ∧ (s.ageOf z < 2 ^ 48 →
        t.out = ⟨.hostData, port, [s.ageOf z / 2 ^ 32 + 2 ^ 16 * (s.ageOf z / 2 ^ 16 % 2 ^ 16)]⟩ :: s.out)))

/-- R436 and R437. A record as it is written to a sector is found valid by a scan that comes to it, with the type, ID, length,
flags and SEQ it was written with, and the scan goes on at the next multiple of 4 behind it. -/
def Obligations.RecordsAreFound : Prop :=
  ∀ (pre data post : List Byte) (typ id flags seq k sseq era n : Nat), typ < 2 ^ 8 → id < 2 ^ 16 → flags < 2 ^ 8 → seq < 2 ^ 32 →
    data.length ≤ 4064 → pre.length + recordSize data.length ≤ 4096 →
    ∃ crc, scanRecords (pre ++ recordBytes typ id flags seq data ++ post).toArray k sseq era (n + 1) pre.length
      = (let x := scanRecords (pre ++ recordBytes typ id flags seq data ++ post).toArray k sseq era n
          (pre.length + recordSize data.length)
        (⟨k, pre.length, era, sseq, typ, id, data.length, flags, seq, crc⟩ :: x.1, x.2.1, x.2.2.1, x.2.2.2))

/-- R434, R442, R443, R448 and R450. SAVE_CMD while NVC is busy is ignored with code 0x10; while NV_WP_N is low the save is
refused and fails; else it opens a fresh sector. The records of a save are as long as SAVE_PAGES and SAVE_SECTORS count
them. The scan answers with READY, once; it waits for D46. -/
def Rules.SavesAndScans : Prop :=
  (∀ (s u : State) (port : Nat) (wpN : Bool) (w : Word), s.Serves .NV 6 → u = s.setWp wpN →
    (s.nvIdle = false → exec (.nvSave port wpN w) s = .next (u.err 6 0x10)) ∧
    (s.nvIdle = true → wpN = false → ∃ t, exec (.nvSave port wpN w) s = .next t ∧ counted s t Reg.NV_SAVE_FAILS 1 ∧
      counted s t Reg.NV_WP_REFUSED 1 ∧ raised t 6 4 ∧ t.nv.saving = false ∧ t.flag Reg.NV_STATUS_SAVE_FAIL = true ∧
      t.nv.flash = s.nv.flash ∧ t.nv.recs = s.nv.recs) ∧
    (s.nvIdle = true → wpN = true → ∃ t, exec (.nvSave port wpN w) s = .next t ∧ t.nv.saving = true ∧
      t.flag Reg.NV_STATUS_SAVING = true ∧ t.flag Reg.NV_STATUS_BUSY = true ∧ t.nv.head = (s.nv.head + 1) % 256 ∧
      ∃ l, t.nv.todo = .program (ringBase + 4096 * t.nv.head) (sectorHeader (s.nv.sseq + 1) s.nv.era) :: l ∧
        .saveEnd 2 ∈ l ∧ ∀ r, r ∈ u.saveNews 2 → (∃ x, .append x ∈ l ∧ x.typ = r.typ ∧ x.id = r.id ∧ x.flags = 4))) ∧
  (∀ (s : State) (cause : Nat), s.nv.log.length ≤ 64 → s.zoneTotal ≤ 16384 →
    (s.saveNews cause).map (fun r => recordSize r.data.length) = s.saveSizes) ∧
  (∀ (s : State) (wpN : Bool), s.boot.resetLow = false → s.gateClosed 6 = false →
    (s.domCur 46 ≠ 1 ∨ s.flag Reg.NV_STATUS_READY = true → exec (.nvScan wpN) s = .next (s.setWp wpN)) ∧
    (s.domCur 46 = 1 → s.flag Reg.NV_STATUS_READY = false → ∃ t, exec (.nvScan wpN) s = .next t ∧
      t.flag Reg.NV_STATUS_READY = true ∧ raised t 6 0 ∧
      (s.nv.flash = [] → s.nv.todo = [] → t.nv.recs = [] ∧ t.nv.factory = [] ∧ t.flag Reg.NV_STATUS_AGE_LOST = true)))


/-! Start-up, turns, fault injection and the TAP (R452 to R468, R504). -/

/-- R453, R454 and R458. Step 3 waits for XTAL and PLL_SYS. With BOOT_SRC 1 the ROM waits for HOSTLOAD; at three attempts it
enters Pawn mode, D10 and D11 OFF; else the attempt counts in BOOT_TRIES, and fails for a flash that is absent, or with
HDR_BAD where no header is valid and no slot good; a good slot in the order of the headers is loaded, and DRAM trains. -/
def Rules.BootsAreCounted : Prop :=
  ∀ (s : State) (jedec : Nat), s.boot.resetLow = false →
    (s.boot.phase ≠ 0 ∨ s.bootClocked = false → ∃ t, exec (.bootAttempt jedec) s = .next t ∧ t = { s with boot := t.boot } ∧
      t.boot.phase = s.boot.phase) ∧
    (s.boot.phase = 0 → s.bootClocked = true →
      (s.flag Reg.HOSTIF_STRAPS_BOOT_SRC = true → s.pawnProfile = none → ∃ t, exec (.bootAttempt jedec) s = .next t ∧
        t.boot.phase = 5 ∧ t.rd Reg.AON_BOOT_TRIES = s.rd Reg.AON_BOOT_TRIES) ∧
      (s.flag Reg.HOSTIF_STRAPS_BOOT_SRC = false → 3 ≤ max (s.rd Reg.AON_BOOT_TRIES).toNat s.nvTries → s.pawnProfile = none →
        ∃ t, exec (.bootAttempt jedec) s = .next t ∧ t.boot.phase = 4 ∧ t.fld ⟨Reg.CHIP_BOOT_REASON, 24, 1⟩ = 1 ∧
          t.domCur 10 = 3 ∧ t.domCur 11 = 3) ∧
      (s.flag Reg.HOSTIF_STRAPS_BOOT_SRC = false → max (s.rd Reg.AON_BOOT_TRIES).toNat s.nvTries < 3 → s.boot.trial = false →
        ∃ t, exec (.bootAttempt jedec) s = .next t ∧
          (t.rd Reg.AON_BOOT_TRIES).toNat = max (s.rd Reg.AON_BOOT_TRIES).toNat s.nvTries + 1 ∧
          (jedec = 0 ∨ jedec = 0xFFFFFF → t.fld ⟨Reg.CHIP_BOOT_REASON, 0, 8⟩ = 1 ∧ t.boot.phase = 0 ∧ t.domCur 10 = 3 ∧
            t.domCur 11 = 3) ∧
          (jedec ≠ 0 → jedec ≠ 0xFFFFFF → s.headerSlot = none → (s.slotCheck 0).code ≠ 0 → (s.slotCheck 1).code ≠ 0 →
            t.fld ⟨Reg.CHIP_BOOT_REASON, 0, 8⟩ = 2 ∧ t.boot.phase = 0) ∧
          (∀ n, jedec ≠ 0 → jedec ≠ 0xFFFFFF → n = (s.headerSlot).getD 0 → (s.slotCheck n).code = 0 →
            t.boot.phase = 1 ∧ t.boot.slot = n ∧ t.boot.img = some ((s.slotCheck n).len, (s.slotCheck n).crc, (s.slotCheck n).version) ∧
            t.fld ⟨Reg.CHIP_BOOT_REASON, 8 + 8 * n, 8⟩ = 0 ∧
            (s.headerSlot = none → t.fld ⟨Reg.CHIP_BOOT_REASON, 25, 1⟩ = 1))))

/-- R453, R454, R458 and R461. Training without MOP0 fails the attempt with DRAM_TRAIN, and step 3 comes next; with it TRAINED shows the points
trained, D10 and D11 are ON and the firmware starts under a watchdog of 1,000 ms. BOOT_OK clears BOOT_TRIES and ends the
start-up; a host's write of it does nothing. 10 s without it fail the attempt with WDOG_INIT. -/
def Rules.BootsEnd : Prop :=
  ∀ (s : State) (mask : Nat) (w : Word), s.boot.resetLow = false → mask < 8 →
    (s.boot.phase ≠ 1 → exec (.dramTrainDone mask) s = .next s) ∧
    (s.boot.phase = 1 → s.boot.trial = false → mask % 2 = 0 → ∃ t, exec (.dramTrainDone mask) s = .next t ∧
      t.fld ⟨Reg.CHIP_BOOT_REASON, 0, 8⟩ = 5 ∧ t.domCur 10 = 3 ∧ t.domCur 11 = 3 ∧
      t.boot.phase = 0) ∧
    (s.boot.phase = 1 → mask % 2 = 1 → ∃ t, exec (.dramTrainDone mask) s = .next t ∧ t.fld Reg.MEMC_STATUS_TRAINED = mask ∧
      t.boot.phase = 2 ∧ t.boot.since = s.now ∧ t.domCur 10 = 1 ∧ t.domCur 11 = 1 ∧ t.fld Reg.CTL_WDOG_PERIOD = 1000 ∧
      t.flag Reg.CTL_WDOG_EN = true) ∧
    (s.Serves .TEST 7 → w.toNat % 2 = 1 →
      exec (.regWrite 0 Reg.TEST_BOOT_OK w) s = .next s ∧
      (s.boot.phase ≠ 2 → exec (.bootOk w) s = .next s) ∧
      (s.boot.phase = 2 → ∃ t, exec (.bootOk w) s = .next t ∧ t.rd Reg.AON_BOOT_TRIES = 0 ∧ t.boot.phase = 3 ∧
        t.boot.trial = false)) ∧
    (s.boot.phase ≠ 2 → exec .bootTimeout s = .next s) ∧
    (s.boot.phase = 2 → ∃ t, exec .bootTimeout s = .next t ∧ t.now = max s.now (s.boot.since + 2560000000000) ∧
      (s.boot.trial = false → t.fld ⟨Reg.CHIP_BOOT_REASON, 0, 8⟩ = 6 ∧ t.boot.phase = 0) ∧
      (s.boot.trial = true → t.fld ⟨Reg.CHIP_BOOT_REASON, 26, 1⟩ = 1 ∧ t.boot.trial = false ∧
        t.rd Reg.AON_BOOT_TRIES = s.rd Reg.AON_BOOT_TRIES))

/-- A turn of a kind has completed (R464): a run, a fail with the record of the first since CNT_CLR, or nothing more. -/
def turnDone (s t : State) (kind unit detail : Nat) (bad : Bool) : Prop :=
  t.testCount kind 0 = min (2 ^ 32 - 1) (s.testCount kind 0 + 1) ∧
  (bad = true → t.testCount kind 1 = min (2 ^ 32 - 1) (s.testCount kind 1 + 1) ∧
    (s.test.failed = false → (t.rd Reg.TEST_LAST_FAIL0).toNat = kind + 2 ^ 8 * unit + 2 ^ 16 * detail ∧
      t.rd Reg.TEST_LAST_FAIL1 = s.rd Reg.TIMING_FRAME_NO ∧ raised t 7 0)) ∧
  (bad = false → t.testCount kind 1 = s.testCount kind 1)

/-- R341, R463 and R464. A turn runs while its bit of KIND_EN is set, its domains are ON and its rate in the frame is not used
up; no turn runs in Pawn mode. One that yields counts as an abort, and is retried; one that completes counts a run, and a
fail with what failed: a segment of a bank, after which the sweep goes on; a free page, which is retired; a table, whose
first check after it became active sets the reference only. -/
def Rules.TurnsRun : Prop :=
  ∀ (s : State) (result : Nat), s.boot.resetLow = false → s.gateClosed 7 = false → result < 3 →
    (s.turnMay 0 (s.fld Reg.TEST_CFG_SRAM_TURNS) = false ∨ s.sramBank s.test.bank = none → exec (.sramTurn result) s = .next s) ∧
    (∀ b seg, s.turnMay 0 (s.fld Reg.TEST_CFG_SRAM_TURNS) = true → s.sramBank s.test.bank = some b →
      seg = (if b = s.test.bank then s.test.segment else 0) → seg < 256 → ∃ t, exec (.sramTurn result) s = .next t ∧
        (result = 2 → counted s t Reg.BANKS_TEST_ABORT 1 ∧ t.testCount 0 0 = s.testCount 0 0 ∧ t.test.segment = s.test.segment ∧
          t.testCount 0 2 = min (2 ^ 32 - 1) (s.testCount 0 2 + 1)) ∧
        (result < 2 → turnDone s t 0 b seg (result == 1) ∧
          (t.test.bank, t.test.segment) = if seg + 1 < (if b < 32 then 64 else 256) then (b, seg + 1) else ((b + 1) % 48, 0))) ∧
    (s.turnMay 1 (s.fld Reg.TEST_CFG_DRAM_TURNS) = false ∨ s.dramReady = false ∨ s.mapUp = false →
      exec (.dramTurn result) s = .next s) ∧
    (s.turnMay 1 (s.fld Reg.TEST_CFG_DRAM_TURNS) = true → s.dramReady = true → s.mapUp = true → s.gateClosed 0x113 = false →
      ∀ p, s.findFree 32768 s.test.page = some p → p < 32768 → ∃ t, exec (.dramTurn result) s = .next t ∧
        (result = 2 → t.testCount 1 2 = min (2 ^ 32 - 1) (s.testCount 1 2 + 1) ∧ t.testCount 1 0 = s.testCount 1 0) ∧
        (result < 2 → turnDone s t 1 0 p (result == 1) ∧ t.test.page = (p + 1) % 32768) ∧
        (result = 1 → t.pageState p = 2 ∧ counted s t Reg.ECC_RETIRED 1 ∧ raised t 0x113 2)) ∧
    (s.turnMay 2 (s.fld Reg.TEST_CFG_LUT_TURNS) = false → exec (.lutTurn result) s = .next s) ∧
    (s.turnMay 2 (s.fld Reg.TEST_CFG_LUT_TURNS) = true → s.tim.running = false ∨ s.vact ≤ s.tim.line →
      ∀ tab, s.lutTable = some tab → ∃ t, exec (.lutTurn result) s = .next t ∧
        (result = 2 → t.testCount 2 2 = min (2 ^ 32 - 1) (s.testCount 2 2 + 1) ∧
          Cells.get (fun _ => none) t.test.refs tab = none) ∧
        (result < 2 → turnDone s t 2 tab 0 (result == 1 && Cells.get (fun _ => none) s.test.refs tab == s.lutBank tab) ∧
          Cells.get (fun _ => none) t.test.refs tab = s.lutBank tab ∧ t.test.table = (tab + 1) % 7))

/-- R8, R21, R465 and R504. Without an open presence window a write of an injection is refused, which counts. With one it is
stored, and a count of 0 enables nothing; enabling an injection into class-0 traffic sets GUARANTEE_VOID. STOP clears every
injection, from any port. -/
def Rules.InjectionsObey : Prop :=
  ∀ (s : State) (port a : Nat) (w : Word) (r : RegRow), s.Serves .PERTURB 8 → port < 4 → a ∈ perturbRegs →
    rowAt .PERTURB (a - 0x8000) = some r →
    (s.presenceOpen = false → ∃ t, exec (.perturbWrite port (a - 0x8000) w) s = .next t ∧ t.rd a = s.rd a ∧
      counted s t Reg.SEC_REFUSED 1 ∧ t.fld Reg.SEC_LAST_REFUSED_ADDR = a ∧ t.fld Reg.SEC_LAST_REFUSED_PORT = port) ∧
    (s.presenceOpen = true → ∃ t, exec (.perturbWrite port (a - 0x8000) w) s = .next t ∧
      (a ≠ Reg.PERTURB_CRC_INJ → a ≠ Reg.PERTURB_ECC_INJ → t.rd a = w &&& BitVec.ofNat 32 r.rw) ∧
      (a = Reg.PERTURB_CRC_INJ → t.rd a = (if w.toNat / 2 ^ 16 = 0 then 0 else w &&& BitVec.ofNat 32 r.rw) ∧
        (t.inj.isl, t.inj.edl, t.inj.bc) = (if w.toNat.testBit 0 then w.toNat / 2 ^ 16 else 0,
          if w.toNat.testBit 1 then w.toNat / 2 ^ 16 else 0, if w.toNat.testBit 2 then w.toNat / 2 ^ 16 else 0)) ∧
      (a = Reg.PERTURB_ECC_INJ → t.inj.ecc = w.toNat / 2 ^ 16 ∧
        t.rd a = (if w.toNat / 2 ^ 16 = 0 then w &&& 0x70#32 else w &&& BitVec.ofNat 32 r.rw)) ∧
      (t.c0Injected = true → t.fld ⟨Reg.CHIP_GUARANTEE_VOID, 0, 1⟩ = 1) ∧
      (t.c0Injected = false → t.rd Reg.CHIP_GUARANTEE_VOID = s.rd Reg.CHIP_GUARANTEE_VOID)) ∧
    (w.toNat % 2 = 1 → ∃ t, exec (.perturbStop port w) s = .next t ∧ (∀ b, b ∈ perturbRegs → t.rd b = 0) ∧
      t.inj = PerturbState.atReset ∧ ∀ b, b ∉ perturbRegs → t.rd b = s.rd b)

/-- What leaves on TDO in a scan, if anything does. -/
def tdoSent (s t : State) (l : List Bool) : Prop :=
  t.out = if l = [] then s.out else ⟨.tdo, 0, l.map b2n⟩ :: s.out

/-- R466. The boundary-scan instructions capture the balls into the boundary register and shift through it; IDCODE shifts out
0x1096_0A4F; CLAMP, HIGHZ, RUNBIST and BYPASS put one bit between TDI and TDO. RUNBIST clears its result, which it leaves
with the failing unit as it ends. Nothing else changes, and TAP reset selects IDCODE. -/
def Obligations.TapScans : Prop :=
  (∀ (s : State) (pins dr : List Bool), ∃ e p u r, exec (.extest pins dr) s = .next e ∧
    exec (.samplePreload pins dr) s = .next p ∧ exec (.extestPulse pins dr) s = .next u ∧ exec (.extestTrain pins dr) s = .next r ∧
    ∀ (t : State) (ir : Nat), (t, ir) ∈ [(e, 0x00), (p, 0x01), (u, 0x0C), (r, 0x0D)] →
      t = { s with tap := t.tap, out := t.out } ∧ t.tap.ir = ir ∧
        t.tap.cells = (tapCapture pins ++ dr).drop dr.length ∧ tdoSent s t ((tapCapture pins ++ dr).take dr.length)) ∧
  (∀ (s : State) (dr : List Bool), ∃ t, exec (.idcode dr) s = .next t ∧ t = { s with tap := t.tap, out := t.out } ∧
    t.tap = { s.tap with ir := 2 } ∧ tdoSent s t (((List.range 32).map (fun i => (0x10960A4F).testBit i) ++ dr).take dr.length)) ∧
  (∀ (s : State) (dr : List Bool) (code : Nat), s.tapPrivate code = false →
    ∃ c h b, exec (.clamp dr) s = .next c ∧ exec (.highz dr) s = .next h ∧ exec (.bypass code dr) s = .next b ∧
    ∀ (t : State) (ir : Nat), (t, ir) ∈ [(c, 0x03), (h, 0x04), (b, code)] →
      t = { s with tap := { s.tap with ir := ir }, out := t.out } ∧ tdoSent s t ((false :: dr).take dr.length)) ∧
  (∀ (s : State) (dr : List Bool) (fail : Bool) (unit : Nat), unit < 256 →
    (∃ t, exec (.runbist dr) s = .next t ∧ t.tap = { s.tap with ir := 0x10 } ∧ t.rd Reg.TEST_BIST = 0 ∧
      tdoSent s t ((false :: dr).take dr.length)) ∧
    (s.tap.ir ≠ 0x10 → exec (.bistDone fail unit) s = .next s) ∧
    (s.tap.ir = 0x10 → ∃ t, exec (.bistDone fail unit) s = .next t ∧ t = { s with regs := t.regs } ∧
      (t.rd Reg.TEST_BIST).toNat = if fail then 3 + 2 ^ 8 * unit else 1)) ∧
  (∀ s : State, exec .tapReset s = .next { s with tap := TapState.atReset })


/-! Device groups and LED_STAT (R469 to R478, R482). -/

/-- R470 to R473, R475, R476 and R482. A member that receives its first POS takes it; one that contradicts the position it has
counts in POS_ERR, raises it, and is kept out. FSYNC from the west, or from the north without a west lane, places the
member's boundary; values other than its own set MISMATCH. A SEAM that fails its CRC-32 counts, and its columns are lost;
else columns, rows and zone levels are held where R475 puts them. An ABSENT lane starts a new set of attempts every second.
FSYNC_OUT falls 1 µs after the boundary, and LED_STAT changes every 125 ms in the presence window, every 500 ms in Pawn mode. -/
def Obligations.MembersFollow : Prop :=
  ∀ (s : State) (k : Nat), s.boot.resetLow = false → k < 4 → s.gateClosed 0x120 = false →
    (∀ block data, s.laneCarries (laneCasRx k) = false ∨ blockGood block = false → exec (.casPos k block) s = .next s ∧
      exec (.casFsync k block) s = .next s ∧ exec (.casSeam k block data) s = .next s) ∧
    (∀ block b x y, s.laneCarries (laneCasRx k) = true → carries block rowPOS b → x = leField b 0 2 → y = leField b 2 2 →
      (s.casUp k = false → exec (.casPos k block) s = .next s) ∧
      (s.casUp k = true → s.flag Reg.CAS_POS_VALID = true →
        (x = s.fld Reg.CAS_POS_X → y = s.fld Reg.CAS_POS_Y → exec (.casPos k block) s = .next s) ∧
        (x ≠ s.fld Reg.CAS_POS_X ∨ y ≠ s.fld Reg.CAS_POS_Y → ∃ t, exec (.casPos k block) s = .next t ∧
          counted s t Reg.CAS_POS_ERR 1 ∧ raised t 0x120 3 ∧ t.rd Reg.CAS_POS = s.rd Reg.CAS_POS ∧ t.cas.conflict = true)) ∧
      (s.casUp k = true → s.flag Reg.CAS_POS_VALID = false → x < 256 → y < 256 → ∃ t, exec (.casPos k block) s = .next t ∧
        t.fld Reg.CAS_POS_X = x ∧ t.fld Reg.CAS_POS_Y = y ∧ t.flag Reg.CAS_POS_VALID = true ∧
        ((∀ e, e < 4 → s.casUp e = true → s.laneCarries (laneCasTx e) = true) →
          t.out.length = s.out.length + ((List.range 4).filter (fun e => s.casUp e)).length))) ∧
    (∀ block b no delay lp lat, s.laneCarries (laneCasRx k) = true → carries block rowFSYNC b →
      no = leField b 0 4 → delay = leField b 4 3 → lp = leField b 7 3 → lat = leField b 10 2 →
      (s.groupMember = false ∨ s.casUp k = false → exec (.casFsync k block) s = .next s) ∧
      (s.groupMember = true → s.casUp k = true → ∃ t, exec (.casFsync k block) s = .next t ∧
        (t.casEdge k).synced = true ∧
        ((∀ e, e < 2 → s.casUp e = true → s.laneCarries (laneCasTx e) = true) → s.casRoot = false →
          k = (if s.casUp 2 then 2 else 3) →
          ∃ l, t.out = l ++ s.out ∧ l.length = ((List.range 2).filter (fun e => s.casUp e)).length) ∧
        (s.casRoot = false → k = (if s.casUp 2 then 2 else 3) → t.cas.syncWas = some (lp, lat) ∧ t.cas.syncAt = s.now ∧
          t.tim.sync = some (s.now + delay * 256 + (s.rdA Reg.CAS_ROW_OFS).toNat % 2 ^ 14 * s.linePeriod) ∧
          (lp ≠ s.linePeriod % 2 ^ 24 ∨ lat ≠ s.latLines → t.flag Reg.CAS_STATUS_MISMATCH = true)) ∧
        (s.casRoot = true ∨ k ≠ (if s.casUp 2 then 2 else 3) → t.tim = s.tim ∧ t.out = s.out))) ∧
    (∀ block b kind line first count bytes n, s.laneCarries (laneCasRx k) = true → carries block rowSEAM b → kind = byteAt b 0 →
      line = leField b 1 2 → first = leField b 3 2 → count = leField b 5 2 → n = (if kind = 2 then 4 * count else 6 * count) →
      (s.groupMember = false ∨ s.casUp k = false → exec (.casSeam k block bytes) s = .next s) ∧
      (s.groupMember = true → s.casUp k = true → ∃ t, exec (.casSeam k block bytes) s = .next t ∧
        (bytes.length ≠ n + 4 ∨ bytes.drop n ≠ leBytes 4 (crc32 (bytes.take n)) → counted s t Reg.CAS_SEAM_CRC 1 ∧
          t.cas.zones = s.cas.zones ∧ (kind = 0 → k = 0 ∨ k = 2 → Cells.get (fun _ => []) t.cas.cols (seamKey k (line + 32)) = [])) ∧
        (bytes.length = n + 4 → bytes.drop n = leBytes 4 (crc32 (bytes.take n)) →
          t.rd Reg.CAS_SEAM_CRC = s.rd Reg.CAS_SEAM_CRC ∧
          (kind = 0 → k = 0 ∨ k = 2 → s.bankFor (seamBank k) ownCas = true →
            Cells.get (fun _ => []) t.cas.cols (seamKey k (line + 32)) = bytesPix (bytes.take n)) ∧
          (kind = 1 → s.flagA Reg.CAS_SEAM_EN = true → k = 3 → line + 32 = s.vact → first = 0 → 96 ∈ t.cas.rows ∧
            ∃ x : State, (x.engWrite 5 (s.fldA Reg.CAS_SEAM_HANDLE) 0 (bytes.take n)).1 = t ∧ x = { s with cas := x.cas }) ∧
          (kind = 2 → ∀ i, i < count → Cells.get (fun _ => 0) t.cas.zones
              (k * 2 ^ 20 + line * 1024 + if k = 0 then i else if k = 2 then count - 1 - i else first + i)
            = BitVec.ofNat 32 (leVal ((bytes.drop (4 * i)).take 4)))))) ∧
    (s.fld (casLaneFld k) ≠ 3 ∨ s.casLaneOn k = false → exec (.casTrainRetry k) s = .next s) ∧
    (s.fld (casLaneFld k) = 3 → s.casLaneOn k = true → ∃ t, exec (.casTrainRetry k) s = .next t ∧
      t.now = max s.now ((s.casEdge k).since + 256000000000) ∧ t.fld (casLaneFld k) = 1 ∧ (t.casEdge k).retries = 0) ∧
    (s.cas.pulse = false → exec .fsyncOutPulseEnd s = .next s) ∧
    (s.cas.pulse = true → ∃ t, exec .fsyncOutPulseEnd s = .next t ∧ t.now = max s.now (s.tim.f + 256000) ∧
      t.cas.pulse = false ∧ t.out = if s.padsFree 44 then ⟨.pin, 3, [0]⟩ :: s.out else s.out) ∧
    (2 ≤ s.boot.ledRow → exec .ledStatToggle s = .next s) ∧
    (s.boot.ledRow < 2 → ∃ t, exec .ledStatToggle s = .next t ∧
      t.now = max s.now (s.boot.ledAt + if s.boot.ledRow = 0 then 32000000000 else 128000000000) ∧
      t.boot.ledLow = !s.boot.ledLow ∧ t.out = ⟨.pin, 5, [b2n s.boot.ledLow]⟩ :: s.out)

/-! Statements of several parts. -/

/-- Errors set ERR_CODE and count, reads of ERR_COUNT clear it. -/
def Obligations.ErrorsAreRecorded : Prop :=
  Rules.ErrorsAreRecorded ∧ Rules.ErrCountReadClears

/-- IRQ_PEND, IRQ_SET, GUARANTEE_VOID and SOFT_RST. -/
def Obligations.EventsAndSoftResets : Prop :=
  Rules.EventBits ∧ Rules.SoftReset

/-- Quad-SPI and I2C write, read, cut short and give up. -/
def Obligations.SerialAccesses : Prop :=
  Rules.SerialWrites ∧ Rules.SerialReads ∧ Rules.CutReadsAndTimeouts

/-- Restarts of the control core, the mailbox and its services. -/
def Obligations.CoreAndMailbox : Prop :=
  Rules.CoreRestarts ∧ Rules.MailboxServes ∧ Rules.ServicesAct

/-- Receivers count block errors, lose lock and adapt their taps. -/
def Obligations.ReceiversAdapt : Prop :=
  Rules.ReceiversReport ∧ Rules.TapsAdapt

/-- Eye scans, PRBS, loopback, spread and the clearing of counters. -/
def Obligations.LanesAreTested : Prop :=
  Rules.ScansAndTests ∧ Rules.SpreadWaits ∧ Rules.CountersClear

/-- REGION, META, LINE and TABLE packets. -/
def Obligations.SourceData : Prop :=
  Rules.RegionsAndMetas ∧ Rules.LinePackets ∧ Rules.TablePackets

/-- EOTF banks and presets, and the readout of STATS. -/
def Obligations.InputTablesAndStats : Prop :=
  Rules.EotfBanksFill ∧ Rules.EotfPresetLoads ∧ Rules.StatsReadOut

/-- The tables of ZONE, the cap, the ageing gains and the PSF figures. -/
def Obligations.ZoneTablesAndCap : Prop :=
  Rules.ZoneTables ∧ Rules.CapAndGains ∧ Rules.PsfFigures

/-- Needs and levels of zones stay within their bounds. -/
def Obligations.ZoneRowsSolve : Prop :=
  Rules.ZoneNeedBounds ∧ Rules.ZoneRowsSolve

/-- SPLIT and CELLLUT divide the light and look up codes. -/
def Obligations.LightBecomesCodes : Prop :=
  Rules.SplitTables ∧ Rules.LightBecomesCodes

/-- Patch corrections, the check of a set and the coarse set. -/
def Obligations.PatchesCorrect : Prop :=
  Rules.PatchCorrects ∧ Rules.PatchChecks ∧ Rules.CoarseSetLoads

/-- The tables of DEFECT and what neighbours give. -/
def Obligations.DefectsShare : Prop :=
  Rules.DefectTables ∧ Rules.DefectsShare

/-- The tables of OD and DITH, overdrive and reduction. -/
def Obligations.DriveIsReduced : Prop :=
  Rules.DriveTables ∧ Rules.DriveReduces

/-- Sensors convert and the thermal field is updated. -/
def Obligations.HeatIsFollowed : Prop :=
  Rules.SensorsConvert ∧ Rules.ThermalField

/-- Output frames, their lines and their SYNC blocks. -/
def Obligations.FramesAndLines : Prop :=
  Rules.FramesAndLines ∧ Rules.SyncBlocks

/-- Late pips, house sync and self-refresh. -/
def Obligations.LockAndSelfRefresh : Prop :=
  Rules.TimingEvents ∧ Rules.SelfRefresh

/-- Lines are written, copied, missed and read back. -/
def Obligations.FrameStoreLines : Prop :=
  Rules.LinesAreStored ∧ Rules.ReadbackOfLines

/-- The panel's power-off sequence, the gate lines and BL_PWM. -/
def Obligations.PanelPowersOffAndGates : Prop :=
  Rules.PanelPowersOff ∧ Rules.GateLines

/-- Retirement, halts, migration and the BULK window. -/
def Obligations.PagesAndTransfers : Prop :=
  Rules.PagesAndHalts ∧ Rules.BulkMoves

/-- Requests of power domains and their transitions. -/
def Obligations.DomainsMove : Prop :=
  Rules.DomainRequests ∧ Rules.DomainsMove

/-- Operating points, AVSBus exchanges, wake sources and pads. -/
def Obligations.SuppliesAndWakes : Prop :=
  Rules.SuppliesFollow ∧ Rules.WakesAndPads

/-- What power-on reset and RESET_N clear and keep, and that saved words return. -/
def Obligations.ResetsAndSavesKeep : Prop :=
  Rules.ResetsKeep ∧ Rules.SavedWordsReturn

/-- Raw flash operations, their end, the buffer and saves. -/
def Obligations.RawFlash : Prop :=
  Rules.RawOperations ∧ Rules.FlashAndBuffer ∧ Rules.SavesAndScans

/-- Boot attempts are counted, fail and succeed. -/
def Obligations.StartUps : Prop :=
  Rules.BootsAreCounted ∧ Rules.BootsEnd

/-- Idle turns and fault injection. -/
def Obligations.TurnsAndInjections : Prop :=
  Rules.TurnsRun ∧ Rules.InjectionsObey
end

