-- ==== Sys2Proof/Laws/Cells.lean ====
section
/-! SUPPORT. The laws of sparse arrays: a read after a write, and that every operation keeps the canonical form. -/

namespace Sys2Proof.Machine

variable {α : Type} (d : Nat → α)

/-! Reading. -/

theorem Cells.get_insert (m : Cells α) (k : Nat) (v : α) (j : Nat) :
    Cells.get d (Cells.insert k v (Cells.erase m k)) j = if k = j then v else Cells.get d m j := by
  induction m with
  | nil => rfl
  | cons e m ih =>
    obtain ⟨i, w⟩ := e
    by_cases hik : i = k
    · subst hik
      simp only [Cells.erase, ne_eq, not_true_eq_false, decide_false, Bool.false_eq_true, not_false_eq_true,
        List.filter_cons_of_neg]
      rw [show List.filter (fun e => decide (¬e.1 = i)) m = Cells.erase m i from rfl, ih]
      by_cases hj : i = j <;> simp [Cells.get, hj]
    · have he : Cells.erase ((i, w) :: m) k = (i, w) :: Cells.erase m k := by simp [Cells.erase, hik]
      rw [he]
      simp only [Cells.insert]
      split
      · have hrest : ∀ n : Cells α, Cells.get d ((k, v) :: n) j = if k = j then v else Cells.get d n j := fun _ => rfl
        rw [hrest]
        by_cases hj : k = j
        · simp [hj]
        · simp only [hj, if_false, Cells.get]
          by_cases hij : i = j
          · simp [hij]
          · simp only [hij, if_false]
            have := ih
            simp only [hj, if_false] at this
            rw [← this]
            clear this ih he
            induction Cells.erase m k with
            | nil => simp [Cells.insert, Cells.get, hj]
            | cons e n ih => 
              obtain ⟨a, b⟩ := e
              simp only [Cells.insert]
              split
              · simp [Cells.get, hj]
              · simp only [Cells.get]
                split
                · rfl
                · exact ih
      · simp only [Cells.get, ih]
        by_cases hij : i = j
        · have : ¬ k = j := fun h => hik (hij.trans h.symm)
          simp [hij, this]
        · simp [hij]

theorem Cells.get_erase (m : Cells α) (k j : Nat) (h : k ≠ j) :
    Cells.get d (Cells.erase m k) j = Cells.get d m j := by
  induction m with
  | nil => rfl
  | cons e m ih =>
    obtain ⟨i, w⟩ := e
    by_cases hik : i = k
    · subst hik
      have : Cells.erase ((i, w) :: m) i = Cells.erase m i := by simp [Cells.erase]
      rw [this, ih]
      simp [Cells.get, h]
    · have : Cells.erase ((i, w) :: m) k = (i, w) :: Cells.erase m k := by simp [Cells.erase, hik]
      rw [this]
      simp only [Cells.get, ih]

theorem Cells.get_erase_self (m : Cells α) (k : Nat) : Cells.get d (Cells.erase m k) k = d k := by
  induction m with
  | nil => rfl
  | cons e m ih =>
    obtain ⟨i, w⟩ := e
    by_cases hik : i = k
    · have : Cells.erase ((i, w) :: m) k = Cells.erase m k := by simp [Cells.erase, hik]
      rw [this, ih]
    · have : Cells.erase ((i, w) :: m) k = (i, w) :: Cells.erase m k := by simp [Cells.erase, hik]
      rw [this]
      simp [Cells.get, hik, ih]

/-- A read after a write. -/
theorem Cells.get_set [DecidableEq α] (m : Cells α) (k : Nat) (v : α) (j : Nat) :
    Cells.get d (Cells.set d m k v) j = if k = j then v else Cells.get d m j := by
  unfold Cells.set
  split
  · by_cases h : k = j
    · subst h; simp [Cells.get_erase_self, *]
    · simp [h, Cells.get_erase d m k j h]
  · exact Cells.get_insert d m k v j

@[simp] theorem Cells.get_set_self [DecidableEq α] (m : Cells α) (k : Nat) (v : α) :
    Cells.get d (Cells.set d m k v) k = v := by simp [Cells.get_set]

theorem Cells.get_set_other [DecidableEq α] (m : Cells α) (k : Nat) (v : α) (j : Nat) (h : k ≠ j) :
    Cells.get d (Cells.set d m k v) j = Cells.get d m j := by simp [Cells.get_set, h]

/-- Clearing a range brings its indices back to what an unlisted one reads as, and no other. -/
theorem Cells.get_clearRange (m : Cells α) (lo n j : Nat) :
    Cells.get d (Cells.clearRange m lo n) j = if lo ≤ j ∧ j < lo + n then d j else Cells.get d m j := by
  induction m with
  | nil => simp [Cells.clearRange, Cells.get]
  | cons e m ih =>
    obtain ⟨i, w⟩ := e
    by_cases hi : lo ≤ i ∧ i < lo + n
    · have : Cells.clearRange ((i, w) :: m) lo n = Cells.clearRange m lo n := by simp [Cells.clearRange, hi]
      rw [this, ih]
      by_cases hj : lo ≤ j ∧ j < lo + n
      · simp [hj]
      · have : i ≠ j := fun h => hj (h ▸ hi)
        simp [hj, Cells.get, this]
    · have : Cells.clearRange ((i, w) :: m) lo n = (i, w) :: Cells.clearRange m lo n := by
        simp only [Cells.clearRange, List.filter_cons]
        rw [if_pos (by simp only [Bool.not_eq_true', Bool.and_eq_false_iff, decide_eq_false_iff_not]; omega)]
      rw [this]
      simp only [Cells.get, ih]
      by_cases hij : i = j
      · subst hij; simp [hi]
      · simp [hij]

/-! The canonical form, as a statement about every entry. -/

theorem Cells.wf_iff [DecidableEq α] (m : Cells α) :
    Cells.wf d m = true ↔ m.Pairwise (fun a b => a.1 < b.1) ∧ ∀ e ∈ m, e.2 ≠ d e.1 := by
  induction m with
  | nil => simp [Cells.wf]
  | cons e m ih =>
    obtain ⟨i, v⟩ := e
    cases m with
    | nil => simp [Cells.wf]
    | cons f n =>
      obtain ⟨j, w⟩ := f
      simp only [Cells.wf, Bool.and_eq_true, decide_eq_true_eq, ih]
      constructor
      · rintro ⟨⟨hv, hij⟩, hp, hd⟩
        refine ⟨List.pairwise_cons.2 ⟨?_, hp⟩, ?_⟩
        · intro x hx
          rcases List.mem_cons.1 hx with rfl | hx
          · exact hij
          · exact Nat.lt_trans hij ((List.pairwise_cons.1 hp).1 x hx)
        · intro x hx
          rcases List.mem_cons.1 hx with rfl | hx
          · exact hv
          · exact hd x hx
      · rintro ⟨hp, hd⟩
        have hp' := List.pairwise_cons.1 hp
        exact ⟨⟨hd _ (List.mem_cons_self), hp'.1 _ (List.mem_cons_self)⟩, hp'.2,
          fun x hx => hd x (List.mem_cons_of_mem _ hx)⟩

theorem Cells.wf_filter [DecidableEq α] (m : Cells α) (p : Nat × α → Bool) (h : Cells.wf d m = true) :
    Cells.wf d (m.filter p) = true := by
  rw [Cells.wf_iff] at *
  exact ⟨h.1.filter p, fun e he => h.2 e (List.mem_filter.1 he).1⟩

theorem Cells.mem_insert (m : Cells α) (k : Nat) (v : α) (e : Nat × α) :
    e ∈ Cells.insert k v m ↔ e = (k, v) ∨ e ∈ m := by
  induction m with
  | nil => simp [Cells.insert]
  | cons f m ih =>
    obtain ⟨i, w⟩ := f
    simp only [Cells.insert]
    split
    · simp
    · simp [ih, or_left_comm]

theorem Cells.wf_insert [DecidableEq α] (m : Cells α) (k : Nat) (v : α) (h : Cells.wf d m = true)
    (hv : v ≠ d k) (hk : ∀ e ∈ m, e.1 ≠ k) : Cells.wf d (Cells.insert k v m) = true := by
  rw [Cells.wf_iff] at *
  refine ⟨?_, ?_⟩
  · obtain ⟨hp, -⟩ := h
    induction m with
    | nil => simp [Cells.insert]
    | cons f m ih =>
      obtain ⟨i, w⟩ := f
      have hp' := List.pairwise_cons.1 hp
      have hik : i ≠ k := hk _ (List.mem_cons_self)
      simp only [Cells.insert]
      split
      · rename_i hlt
        refine List.pairwise_cons.2 ⟨fun x hx => ?_, hp⟩
        rcases List.mem_cons.1 hx with rfl | hx
        · exact hlt
        · exact Nat.lt_trans hlt (hp'.1 x hx)
      · rename_i hlt
        refine List.pairwise_cons.2 ⟨fun x hx => ?_, ih (fun e he => hk e (List.mem_cons_of_mem _ he)) hp'.2⟩
        rcases (Cells.mem_insert m k v x).1 hx with rfl | hx
        · exact Nat.lt_of_le_of_ne (Nat.le_of_not_lt hlt) hik
        · exact hp'.1 x hx
  · intro e he
    rcases (Cells.mem_insert m k v e).1 he with rfl | he
    · exact hv
    · exact h.2 e he

/-- A write keeps the canonical form. -/
theorem Cells.wf_set [DecidableEq α] (m : Cells α) (k : Nat) (v : α) (h : Cells.wf d m = true) :
    Cells.wf d (Cells.set d m k v) = true := by
  unfold Cells.set
  split
  · exact Cells.wf_filter d m _ h
  · rename_i hv
    refine Cells.wf_insert d _ k v (Cells.wf_filter d m _ h) hv (fun e he => ?_)
    simpa using (List.mem_filter.1 he).2

theorem Cells.wf_setRun [DecidableEq α] (l : List α) (m : Cells α) (k : Nat) (h : Cells.wf d m = true) :
    Cells.wf d (Cells.setRun d m k l) = true := by
  induction l generalizing m k with
  | nil => exact h
  | cons v l ih => exact ih _ _ (Cells.wf_set d m k v h)

theorem Cells.wf_clearRange [DecidableEq α] (m : Cells α) (lo n : Nat) (h : Cells.wf d m = true) :
    Cells.wf d (Cells.clearRange m lo n) = true := Cells.wf_filter d m _ h

/-! Runs. -/

theorem Cells.get_runFrom [DecidableEq α] (vs : List α) (k j : Nat) (m : Cells α) :
    Cells.get d (Cells.runFrom d k vs ++ m) j =
      if k ≤ j ∧ j < k + vs.length then (if vs.getD (j - k) (d j) = d j then Cells.get d m j else vs.getD (j - k) (d j))
      else Cells.get d m j := by
  induction vs generalizing k with
  | nil => simp [Cells.runFrom]
  | cons v vs ih =>
    by_cases hj : k = j
    · subst hj
      have hno : ∀ m : Cells α, Cells.get d (Cells.runFrom d (k + 1) vs ++ m) k = Cells.get d m k := by
        intro m
        clear ih
        suffices h : ∀ (vs : List α) (i : Nat), k < i → Cells.get d (Cells.runFrom d i vs ++ m) k = Cells.get d m k from
          h vs (k + 1) (Nat.lt_succ_self k)
        intro vs
        induction vs with
        | nil => intro i _; rfl
        | cons w vs ih =>
          intro i hi
          simp only [Cells.runFrom]
          split
          · exact ih (i + 1) (by omega)
          · simp only [List.cons_append, Cells.get]
            rw [if_neg (by omega)]
            exact ih (i + 1) (by omega)
      simp only [Cells.runFrom]
      split
      · rename_i hv
        rw [hno]
        simp [hv]
      · rename_i hv
        simp [Cells.get, hv]
    · have hstep : Cells.get d (Cells.runFrom d k (v :: vs) ++ m) j = Cells.get d (Cells.runFrom d (k + 1) vs ++ m) j := by
        simp only [Cells.runFrom]
        split
        · rfl
        · simp [Cells.get, hj]
      rw [hstep, ih]
      by_cases hr : k + 1 ≤ j ∧ j < k + 1 + vs.length
      · have h1 : k ≤ j ∧ j < k + (v :: vs).length := by simp only [List.length_cons]; omega
        have h2 : (v :: vs).getD (j - k) (d j) = vs.getD (j - (k + 1)) (d j) := by
          have : j - k = (j - (k + 1)) + 1 := by omega
          rw [this, List.getD_cons_succ]
        rw [if_pos hr, if_pos h1, h2]
      · have h1 : ¬(k ≤ j ∧ j < k + (v :: vs).length) := by simp only [List.length_cons]; omega
        rw [if_neg hr, if_neg h1]

theorem Cells.get_filter (m : Cells α) (p : Nat → Bool) (j : Nat) :
    Cells.get d (m.filter (fun e => p e.1)) j = if p j = true then Cells.get d m j else d j := by
  induction m with
  | nil => simp [Cells.get]
  | cons e m ih =>
    obtain ⟨i, w⟩ := e
    by_cases hi : p i = true
    · rw [List.filter_cons_of_pos (by simpa using hi)]
      simp only [Cells.get, ih]
      by_cases hij : i = j
      · subst hij; simp [hi]
      · simp [hij]
    · rw [List.filter_cons_of_neg (by simpa using hi), ih]
      by_cases hij : i = j
      · subst hij; simp [hi]
      · simp [Cells.get, hij]

theorem Cells.get_append (m n : Cells α) (j : Nat) :
    Cells.get d (m ++ n) j = if m.any (fun e => e.1 == j) = true then Cells.get d m j else Cells.get d n j := by
  induction m with
  | nil => simp
  | cons e m ih =>
    obtain ⟨i, w⟩ := e
    by_cases hij : i = j
    · subst hij; simp [Cells.get]
    · simp only [List.cons_append, Cells.get, hij, if_false, ih, List.any_cons, beq_iff_eq, Bool.or_eq_true, false_or]

/-- What a run leaves: its values in its range, every other index as it was. -/
theorem Cells.get_putRun [DecidableEq α] (m : Cells α) (k : Nat) (vs : List α) (j : Nat) :
    Cells.get d (Cells.putRun d m k vs) j
      = if k ≤ j ∧ j < k + vs.length then vs.getD (j - k) (d j) else Cells.get d m j := by
  unfold Cells.putRun
  have hf : ∀ j, Cells.get d (m.filter (fun e => decide (k + vs.length ≤ e.1))) j
      = if k + vs.length ≤ j then Cells.get d m j else d j := by
    intro j
    rw [Cells.get_filter d m (fun i => decide (k + vs.length ≤ i))]
    simp
  rw [Cells.get_append]
  by_cases hlt : j < k
  · rw [if_neg (show ¬(k ≤ j ∧ j < k + vs.length) by omega)]
    split
    · rw [Cells.get_filter d m (fun i => decide (i < k))]
      simp [hlt]
    · rename_i hn
      rw [Cells.get_runFrom, if_neg (by omega), hf, if_neg (by omega)]
      have : Cells.get d (m.filter (fun e => decide (e.1 < k))) j = d j := by
        have hne : ∀ e ∈ m.filter (fun e => decide (e.1 < k)), e.1 ≠ j := by
          intro e he hej
          exact hn (List.any_eq_true.2 ⟨e, he, by simp [hej]⟩)
        generalize m.filter (fun e => decide (e.1 < k)) = n at hne
        induction n with
        | nil => rfl
        | cons e n ih =>
          obtain ⟨i, w⟩ := e
          have := hne (i, w) (List.mem_cons_self)
          simp only [Cells.get]
          rw [if_neg this]
          exact ih (fun e he => hne e (List.mem_cons_of_mem _ he))
      rw [Cells.get_filter d m (fun i => decide (i < k))] at this
      simpa [hlt] using this.symm
  · have hany : ¬ (m.filter (fun e => decide (e.1 < k))).any (fun e => e.1 == j) = true := by
      rw [List.any_eq_true]
      rintro ⟨e, he, hj⟩
      have := (List.mem_filter.1 he).2
      simp only [decide_eq_true_eq] at this
      simp only [beq_iff_eq] at hj
      omega
    rw [if_neg hany, Cells.get_runFrom, hf]
    by_cases hr : k ≤ j ∧ j < k + vs.length
    · rw [if_pos hr, if_pos hr, if_neg (Nat.not_le.2 hr.2)]
      split
      · rename_i h; exact h.symm
      · rfl
    · rw [if_neg hr, if_neg hr, if_pos (by omega)]

theorem Cells.mem_runFrom [DecidableEq α] (vs : List α) (k : Nat) (e : Nat × α) (he : e ∈ Cells.runFrom d k vs) :
    k ≤ e.1 ∧ e.1 < k + vs.length ∧ e.2 ≠ d e.1 := by
  induction vs generalizing k with
  | nil => cases he
  | cons v vs ih =>
    simp only [Cells.runFrom] at he
    split at he
    · have := ih (k + 1) he
      simp only [List.length_cons]
      exact ⟨by have := this.1; omega, by have := this.2.1; omega, this.2.2⟩
    · rename_i hv
      rcases List.mem_cons.1 he with rfl | he
      · exact ⟨Nat.le_refl _, by simp only [List.length_cons]; omega, hv⟩
      · have := ih (k + 1) he
        simp only [List.length_cons]
        exact ⟨by have := this.1; omega, by have := this.2.1; omega, this.2.2⟩

theorem Cells.pairwise_runFrom [DecidableEq α] (vs : List α) (k : Nat) :
    (Cells.runFrom d k vs).Pairwise (fun a b => a.1 < b.1) := by
  induction vs generalizing k with
  | nil => exact List.Pairwise.nil
  | cons v vs ih =>
    simp only [Cells.runFrom]
    split
    · exact ih (k + 1)
    · refine List.pairwise_cons.2 ⟨fun e he => ?_, ih (k + 1)⟩
      have := (Cells.mem_runFrom d vs (k + 1) e he).1
      dsimp only
      omega

/-- Putting a run keeps the canonical form. -/
theorem Cells.wf_putRun [DecidableEq α] (m : Cells α) (k : Nat) (vs : List α) (h : Cells.wf d m = true) :
    Cells.wf d (Cells.putRun d m k vs) = true := by
  rw [Cells.wf_iff] at *
  obtain ⟨hp, hd⟩ := h
  unfold Cells.putRun
  refine ⟨List.pairwise_append.2 ⟨hp.filter _, List.pairwise_append.2 ⟨Cells.pairwise_runFrom d vs k, hp.filter _, ?_⟩, ?_⟩, ?_⟩
  · intro a ha b hb
    have h1 := Cells.mem_runFrom d vs k a ha
    have h2 := (List.mem_filter.1 hb).2
    simp only [decide_eq_true_eq] at h2
    omega
  · intro a ha b hb
    have h1 := (List.mem_filter.1 ha).2
    simp only [decide_eq_true_eq] at h1
    rcases List.mem_append.1 hb with hb | hb
    · have := Cells.mem_runFrom d vs k b hb
      omega
    · have h2 := (List.mem_filter.1 hb).2
      simp only [decide_eq_true_eq] at h2
      omega
  · intro e he
    rcases List.mem_append.1 he with he | he
    · exact hd e (List.mem_filter.1 he).1
    · rcases List.mem_append.1 he with he | he
      · exact (Cells.mem_runFrom d vs k e he).2.2
      · exact hd e (List.mem_filter.1 he).1

theorem Cells.rising_iff (m : Cells α) : Cells.rising m = true ↔ m.Pairwise (fun a b => a.1 < b.1) := by
  induction m with
  | nil => simp [Cells.rising]
  | cons a m ih =>
    cases m with
    | nil => simp [Cells.rising]
    | cons b m =>
      simp only [Cells.rising, Bool.and_eq_true, decide_eq_true_eq, ih]
      constructor
      · rintro ⟨hab, hp⟩
        refine List.pairwise_cons.2 ⟨fun x hx => ?_, hp⟩
        rcases List.mem_cons.1 hx with rfl | hx
        · exact hab
        · exact Nat.lt_trans hab ((List.pairwise_cons.1 hp).1 x hx)
      · intro h
        exact ⟨(List.pairwise_cons.1 h).1 b (List.mem_cons_self), (List.pairwise_cons.1 h).2⟩

theorem Cells.get_low (m : Cells α) (j : Nat) (h : ∀ e ∈ m, j < e.1) : Cells.get d m j = d j := by
  induction m with
  | nil => rfl
  | cons e m ih =>
    obtain ⟨i, w⟩ := e
    have := h (i, w) (List.mem_cons_self)
    simp only [Cells.get]
    rw [if_neg (by dsimp only at this; omega)]
    exact ih (fun e he => h e (List.mem_cons_of_mem _ he))

theorem Cells.walk_eq (n : Nat) (m : Cells α) (k : Nat) (hp : m.Pairwise (fun a b => a.1 < b.1)) (hk : ∀ e ∈ m, k ≤ e.1) :
    Cells.walk d n m k = Cells.getRun d m k n := by
  induction n generalizing m k with
  | zero => rfl
  | succ n ih =>
    have hrun : Cells.getRun d m k (n + 1) = Cells.get d m k :: Cells.getRun d m (k + 1) n := by
      simp only [Cells.getRun, List.range_succ_eq_map, List.map_cons, List.map_map, Nat.add_zero, List.cons.injEq, true_and]
      exact List.map_congr_left (fun i _ => by simp only [Function.comp]; congr 1; omega)
    rw [hrun]
    cases m with
    | nil => simp only [Cells.walk, Cells.get]; rw [ih [] (k + 1) List.Pairwise.nil (fun e he => by cases he)]
    | cons e m =>
      obtain ⟨i, v⟩ := e
      obtain ⟨hlow, hp'⟩ := List.pairwise_cons.1 hp
      have hik : k ≤ i := hk (i, v) (List.mem_cons_self)
      by_cases hi : i = k
      · subst hi
        simp only [Cells.walk, Cells.get, if_true]
        rw [ih m (i + 1) hp' (fun e he => hlow e he)]
        congr 1
        simp only [Cells.getRun]
        exact List.map_congr_left (fun j _ => by simp only [Cells.get]; rw [if_neg (by omega)])
      · simp only [Cells.walk, Cells.get]
        rw [if_neg hi, if_neg hi, ih ((i, v) :: m) (k + 1) hp ?_]
        · rw [Cells.get_low d m k (fun e he => by have := hlow e he; dsimp only at this; omega)]
        · intro e he
          rcases List.mem_cons.1 he with rfl | he
          · dsimp only; omega
          · have := hlow e he; dsimp only at this; omega

/-- Reading in one pass reads what is there. -/
theorem Cells.window_eq (m : Cells α) (k n : Nat) : Cells.window d m k n = Cells.getRun d m k n := by
  unfold Cells.window
  split
  · rename_i h
    rw [Cells.rising_iff] at h
    have hsub := (List.dropWhile_suffix (fun e : Nat × α => decide (e.1 < k)) (l := m)).sublist
    have hge : ∀ e ∈ m.dropWhile (fun e => decide (e.1 < k)), k ≤ e.1 := by
      have hp := h.sublist hsub
      generalize hm : m.dropWhile (fun e => decide (e.1 < k)) = l at hp
      cases l with
      | nil => intro e he; cases he
      | cons a l =>
        have ha : ¬ a.1 < k := by
          have := List.head?_dropWhile_not (fun e : Nat × α => decide (e.1 < k)) m
          rw [hm] at this
          simpa using this
        intro e he
        rcases List.mem_cons.1 he with rfl | he
        · omega
        · have := (List.pairwise_cons.1 hp).1 e he
          omega
    rw [Cells.walk_eq d n _ k (h.sublist hsub) hge]
    simp only [Cells.getRun]
    refine List.map_congr_left (fun i _ => ?_)
    clear hge hsub
    induction m with
    | nil => rfl
    | cons e m ih =>
      obtain ⟨j, w⟩ := e
      by_cases hj : j < k
      · rw [List.dropWhile_cons_of_pos (by simpa using hj), ih (List.pairwise_cons.1 h).2]
        simp only [Cells.get]
        rw [if_neg (by omega)]
      · rw [List.dropWhile_cons_of_neg (by simpa using hj)]
  · rfl

end Sys2Proof.Machine
end

