-- ==== Sys2Proof/Laws/Fields.lean ====
section
/-! SUPPORT. The fields of a word: a field reads as it was written, and a write leaves every other field alone. -/

namespace Sys2Proof.Machine

variable (x y : Fld) (w : Word) (n : Nat)

/-- A word with a field replaced, as a number: the part above, the field, the part below. -/
theorem Fld.put_toNat (h : x.lo + x.w ≤ 32) :
    (x.put w n).toNat =
      w.toNat / 2 ^ (x.lo + x.w) * 2 ^ (x.lo + x.w) + n % 2 ^ x.w * 2 ^ x.lo + w.toNat % 2 ^ x.lo := by
  unfold Fld.put
  rw [BitVec.toNat_ofNat, Nat.mod_eq_of_lt]
  have hw : w.toNat < 2 ^ 32 := w.isLt
  obtain ⟨r, hr⟩ := Nat.exists_eq_add_of_le h
  have e32 : 2 ^ 32 = 2 ^ (x.lo + x.w) * 2 ^ r := by rw [← pow_add, hr]
  have e : 2 ^ (x.lo + x.w) = 2 ^ x.w * 2 ^ x.lo := by rw [pow_add, Nat.mul_comm]
  have p0 : 0 < 2 ^ x.lo := Nat.two_pow_pos _
  have p1 : 0 < 2 ^ x.w := Nat.two_pow_pos _
  have h1 : n % 2 ^ x.w + 1 ≤ 2 ^ x.w := Nat.mod_lt _ p1
  have h2 : w.toNat % 2 ^ x.lo < 2 ^ x.lo := Nat.mod_lt _ p0
  have h3 : (n % 2 ^ x.w + 1) * 2 ^ x.lo ≤ 2 ^ x.w * 2 ^ x.lo := Nat.mul_le_mul_right _ h1
  have h4 : w.toNat / 2 ^ (x.lo + x.w) + 1 ≤ 2 ^ r := by
    apply Nat.succ_le_of_lt
    apply Nat.div_lt_of_lt_mul
    omega
  have h5 : (w.toNat / 2 ^ (x.lo + x.w) + 1) * 2 ^ (x.lo + x.w) ≤ 2 ^ r * 2 ^ (x.lo + x.w) := Nat.mul_le_mul_right _ h4
  rw [Nat.mul_comm (2 ^ r)] at h5
  rw [Nat.add_mul] at h3 h5
  omega

/-- A field reads as it was written, cut to its width. -/
theorem Fld.get_put_self (h : x.lo + x.w ≤ 32) : x.get (x.put w n) = n % 2 ^ x.w := by
  unfold Fld.get
  rw [Fld.put_toNat x w n h]
  have e : 2 ^ (x.lo + x.w) = 2 ^ x.w * 2 ^ x.lo := by rw [pow_add, Nat.mul_comm]
  have p0 : 0 < 2 ^ x.lo := Nat.two_pow_pos _
  rw [e, ← Nat.mul_assoc, ← Nat.add_mul, Nat.add_comm, Nat.add_mul_div_right _ _ p0,
    Nat.div_eq_of_lt (Nat.mod_lt _ p0), Nat.zero_add, Nat.add_comm, Nat.add_mul_mod_self_right, Nat.mod_mod]

/-- A field of some word reads the same after another field, below or above it, is written. -/
theorem Fld.get_put_other (h : x.lo + x.w ≤ 32) (hd : y.lo + y.w ≤ x.lo ∨ x.lo + x.w ≤ y.lo) :
    y.get (x.put w n) = y.get w := by
  unfold Fld.get
  rw [Fld.put_toNat x w n h]
  have e : 2 ^ (x.lo + x.w) = 2 ^ x.w * 2 ^ x.lo := by rw [pow_add, Nat.mul_comm]
  have p0 : 0 < 2 ^ x.lo := Nat.two_pow_pos _
  have p1 : 0 < 2 ^ x.w := Nat.two_pow_pos _
  rcases hd with hd | hd
  · obtain ⟨r, hr⟩ := Nat.exists_eq_add_of_le hd
    have hx : 2 ^ x.lo = 2 ^ (y.lo + y.w) * 2 ^ r := by rw [hr, pow_add]
    have hy : 2 ^ (y.lo + y.w) = 2 ^ y.lo * 2 ^ y.w := pow_add _ _ _
    have key : (w.toNat / 2 ^ (x.lo + x.w) * 2 ^ (x.lo + x.w) + n % 2 ^ x.w * 2 ^ x.lo + w.toNat % 2 ^ x.lo)
        % 2 ^ (y.lo + y.w) = w.toNat % 2 ^ (y.lo + y.w) := by
      have : w.toNat / 2 ^ (x.lo + x.w) * 2 ^ (x.lo + x.w) + n % 2 ^ x.w * 2 ^ x.lo + w.toNat % 2 ^ x.lo
          = w.toNat % 2 ^ x.lo + 2 ^ (y.lo + y.w) * ((w.toNat / 2 ^ (x.lo + x.w) * 2 ^ x.w + n % 2 ^ x.w) * 2 ^ r) := by
        rw [e, hx]; ring
      rw [this, Nat.add_mul_mod_self_left, hx, Nat.mod_mul_right_mod]
    have red : ∀ v : Nat, v / 2 ^ y.lo % 2 ^ y.w = v % 2 ^ (y.lo + y.w) / 2 ^ y.lo := by
      intro v; rw [hy, Nat.mod_mul_right_div_self]
    rw [red, key, ← red]
  · obtain ⟨r, hr⟩ := Nat.exists_eq_add_of_le hd
    have hy : 2 ^ y.lo = 2 ^ (x.lo + x.w) * 2 ^ r := by rw [hr, pow_add]
    have hlt : n % 2 ^ x.w * 2 ^ x.lo + w.toNat % 2 ^ x.lo < 2 ^ (x.lo + x.w) := by
      have h1 : n % 2 ^ x.w + 1 ≤ 2 ^ x.w := Nat.mod_lt _ p1
      have h2 : w.toNat % 2 ^ x.lo < 2 ^ x.lo := Nat.mod_lt _ p0
      have h3 := Nat.mul_le_mul_right (2 ^ x.lo) h1
      rw [Nat.add_mul] at h3
      omega
    have p2 : 0 < 2 ^ (x.lo + x.w) := Nat.two_pow_pos _
    rw [hy, ← Nat.div_div_eq_div_mul, ← Nat.div_div_eq_div_mul, Nat.add_assoc, Nat.add_comm,
      Nat.add_mul_div_right _ _ p2, Nat.div_eq_of_lt hlt, Nat.zero_add]

end Sys2Proof.Machine
end

