-- ==== Sys2Proof/Laws/State.lean ====
section
/-! SUPPORT. What the three plainest updates of the state leave in each field: a register word written, something sent
out, a free value used. -/

namespace Sys2Proof.Machine

variable (s : State) (a : Nat) (w : Word) (k : OutKind) (d : Nat) (l : List Nat)

/-! A register word written. -/

@[simp] theorem State.wr_regs : (s.wr a w).regs = Cells.set resetWord s.regs a w := rfl
@[simp] theorem State.wr_now : (s.wr a w).now = s.now := rfl
@[simp] theorem State.wr_act : (s.wr a w).act = s.act := rfl
@[simp] theorem State.wr_dram : (s.wr a w).dram = s.dram := rfl
@[simp] theorem State.wr_sram : (s.wr a w).sram = s.sram := rfl
@[simp] theorem State.wr_fresh : (s.wr a w).fresh = s.fresh := rfl
@[simp] theorem State.wr_out : (s.wr a w).out = s.out := rfl
@[simp] theorem State.wr_phy : (s.wr a w).phy = s.phy := rfl
@[simp] theorem State.wr_mem : (s.wr a w).mem = s.mem := rfl
@[simp] theorem State.wr_inj : (s.wr a w).inj = s.inj := rfl
@[simp] theorem State.wr_clk : (s.wr a w).clk = s.clk := rfl
@[simp] theorem State.wr_pwr : (s.wr a w).pwr = s.pwr := rfl
@[simp] theorem State.wr_chip : (s.wr a w).chip = s.chip := rfl
@[simp] theorem State.wr_inp : (s.wr a w).inp = s.inp := rfl
@[simp] theorem State.wr_sta : (s.wr a w).sta = s.sta := rfl
@[simp] theorem State.wr_sto : (s.wr a w).sto = s.sto := rfl
@[simp] theorem State.wr_zon : (s.wr a w).zon = s.zon := rfl
@[simp] theorem State.wr_psf : (s.wr a w).psf = s.psf := rfl
@[simp] theorem State.wr_fie : (s.wr a w).fie = s.fie := rfl
@[simp] theorem State.wr_cas : (s.wr a w).cas = s.cas := rfl
@[simp] theorem State.wr_isl : (s.wr a w).isl = s.isl := rfl
@[simp] theorem State.wr_nv : (s.wr a w).nv = s.nv := rfl
@[simp] theorem State.wr_tim : (s.wr a w).tim = s.tim := rfl
@[simp] theorem State.wr_srf : (s.wr a w).srf = s.srf := rfl
@[simp] theorem State.wr_spl : (s.wr a w).spl = s.spl := rfl
@[simp] theorem State.wr_path : (s.wr a w).path = s.path := rfl
@[simp] theorem State.wr_pat : (s.wr a w).pat = s.pat := rfl
@[simp] theorem State.wr_dfc : (s.wr a w).dfc = s.dfc := rfl
@[simp] theorem State.wr_od : (s.wr a w).od = s.od := rfl
@[simp] theorem State.wr_thm : (s.wr a w).thm = s.thm := rfl
@[simp] theorem State.wr_dit : (s.wr a w).dit = s.dit := rfl
@[simp] theorem State.wr_edl : (s.wr a w).edl = s.edl := rfl
@[simp] theorem State.wr_pan : (s.wr a w).pan = s.pan := rfl
@[simp] theorem State.wr_boot : (s.wr a w).boot = s.boot := rfl
@[simp] theorem State.wr_test : (s.wr a w).test = s.test := rfl
@[simp] theorem State.wr_tap : (s.wr a w).tap = s.tap := rfl
@[simp] theorem State.wr_sec : (s.wr a w).sec = s.sec := rfl
@[simp] theorem State.wr_host : (s.wr a w).host = s.host := rfl
@[simp] theorem State.wr_soft : (s.wr a w).soft = s.soft := rfl
@[simp] theorem State.wr_pending : (s.wr a w).pending = s.pending := rfl

/-! Something sent out. -/

@[simp] theorem State.emit_out : (s.emit k d l).out = ⟨k, d, l⟩ :: s.out := rfl
@[simp] theorem State.emit_now : (s.emit k d l).now = s.now := rfl
@[simp] theorem State.emit_regs : (s.emit k d l).regs = s.regs := rfl
@[simp] theorem State.emit_act : (s.emit k d l).act = s.act := rfl
@[simp] theorem State.emit_dram : (s.emit k d l).dram = s.dram := rfl
@[simp] theorem State.emit_sram : (s.emit k d l).sram = s.sram := rfl
@[simp] theorem State.emit_fresh : (s.emit k d l).fresh = s.fresh := rfl
@[simp] theorem State.emit_phy : (s.emit k d l).phy = s.phy := rfl
@[simp] theorem State.emit_mem : (s.emit k d l).mem = s.mem := rfl
@[simp] theorem State.emit_inj : (s.emit k d l).inj = s.inj := rfl
@[simp] theorem State.emit_clk : (s.emit k d l).clk = s.clk := rfl
@[simp] theorem State.emit_pwr : (s.emit k d l).pwr = s.pwr := rfl
@[simp] theorem State.emit_chip : (s.emit k d l).chip = s.chip := rfl
@[simp] theorem State.emit_inp : (s.emit k d l).inp = s.inp := rfl
@[simp] theorem State.emit_sta : (s.emit k d l).sta = s.sta := rfl
@[simp] theorem State.emit_sto : (s.emit k d l).sto = s.sto := rfl
@[simp] theorem State.emit_zon : (s.emit k d l).zon = s.zon := rfl
@[simp] theorem State.emit_psf : (s.emit k d l).psf = s.psf := rfl
@[simp] theorem State.emit_fie : (s.emit k d l).fie = s.fie := rfl
@[simp] theorem State.emit_cas : (s.emit k d l).cas = s.cas := rfl
@[simp] theorem State.emit_isl : (s.emit k d l).isl = s.isl := rfl
@[simp] theorem State.emit_nv : (s.emit k d l).nv = s.nv := rfl
@[simp] theorem State.emit_tim : (s.emit k d l).tim = s.tim := rfl
@[simp] theorem State.emit_srf : (s.emit k d l).srf = s.srf := rfl
@[simp] theorem State.emit_spl : (s.emit k d l).spl = s.spl := rfl
@[simp] theorem State.emit_path : (s.emit k d l).path = s.path := rfl
@[simp] theorem State.emit_pat : (s.emit k d l).pat = s.pat := rfl
@[simp] theorem State.emit_dfc : (s.emit k d l).dfc = s.dfc := rfl
@[simp] theorem State.emit_od : (s.emit k d l).od = s.od := rfl
@[simp] theorem State.emit_thm : (s.emit k d l).thm = s.thm := rfl
@[simp] theorem State.emit_dit : (s.emit k d l).dit = s.dit := rfl
@[simp] theorem State.emit_edl : (s.emit k d l).edl = s.edl := rfl
@[simp] theorem State.emit_pan : (s.emit k d l).pan = s.pan := rfl
@[simp] theorem State.emit_boot : (s.emit k d l).boot = s.boot := rfl
@[simp] theorem State.emit_test : (s.emit k d l).test = s.test := rfl
@[simp] theorem State.emit_tap : (s.emit k d l).tap = s.tap := rfl
@[simp] theorem State.emit_sec : (s.emit k d l).sec = s.sec := rfl
@[simp] theorem State.emit_host : (s.emit k d l).host = s.host := rfl
@[simp] theorem State.emit_soft : (s.emit k d l).soft = s.soft := rfl
@[simp] theorem State.emit_pending : (s.emit k d l).pending = s.pending := rfl

/-! A free value used. -/

@[simp] theorem State.used_fresh : s.used.fresh = s.fresh + 1 := rfl
@[simp] theorem State.used_now : s.used.now = s.now := rfl
@[simp] theorem State.used_regs : s.used.regs = s.regs := rfl
@[simp] theorem State.used_act : s.used.act = s.act := rfl
@[simp] theorem State.used_dram : s.used.dram = s.dram := rfl
@[simp] theorem State.used_sram : s.used.sram = s.sram := rfl
@[simp] theorem State.used_out : s.used.out = s.out := rfl
@[simp] theorem State.used_phy : s.used.phy = s.phy := rfl
@[simp] theorem State.used_mem : s.used.mem = s.mem := rfl
@[simp] theorem State.used_inj : s.used.inj = s.inj := rfl
@[simp] theorem State.used_clk : s.used.clk = s.clk := rfl
@[simp] theorem State.used_pwr : s.used.pwr = s.pwr := rfl
@[simp] theorem State.used_chip : s.used.chip = s.chip := rfl
@[simp] theorem State.used_inp : s.used.inp = s.inp := rfl
@[simp] theorem State.used_sta : s.used.sta = s.sta := rfl
@[simp] theorem State.used_sto : s.used.sto = s.sto := rfl
@[simp] theorem State.used_zon : s.used.zon = s.zon := rfl
@[simp] theorem State.used_psf : s.used.psf = s.psf := rfl
@[simp] theorem State.used_fie : s.used.fie = s.fie := rfl
@[simp] theorem State.used_cas : s.used.cas = s.cas := rfl
@[simp] theorem State.used_isl : s.used.isl = s.isl := rfl
@[simp] theorem State.used_nv : s.used.nv = s.nv := rfl
@[simp] theorem State.used_tim : s.used.tim = s.tim := rfl
@[simp] theorem State.used_srf : s.used.srf = s.srf := rfl
@[simp] theorem State.used_spl : s.used.spl = s.spl := rfl
@[simp] theorem State.used_path : s.used.path = s.path := rfl
@[simp] theorem State.used_pat : s.used.pat = s.pat := rfl
@[simp] theorem State.used_dfc : s.used.dfc = s.dfc := rfl
@[simp] theorem State.used_od : s.used.od = s.od := rfl
@[simp] theorem State.used_thm : s.used.thm = s.thm := rfl
@[simp] theorem State.used_dit : s.used.dit = s.dit := rfl
@[simp] theorem State.used_edl : s.used.edl = s.edl := rfl
@[simp] theorem State.used_pan : s.used.pan = s.pan := rfl
@[simp] theorem State.used_boot : s.used.boot = s.boot := rfl
@[simp] theorem State.used_test : s.used.test = s.test := rfl
@[simp] theorem State.used_tap : s.used.tap = s.tap := rfl
@[simp] theorem State.used_sec : s.used.sec = s.sec := rfl
@[simp] theorem State.used_host : s.used.host = s.host := rfl
@[simp] theorem State.used_soft : s.used.soft = s.soft := rfl
@[simp] theorem State.used_pending : s.used.pending = s.pending := rfl

end Sys2Proof.Machine
end

