-- ==== Sys2Proof/Laws/Shared.lean ====
section
/-! SUPPORT. What each shared operation can do, once: registers and fields, counters, events and errors, and the three
ways in which a command acts. -/

namespace Sys2Proof.Machine

/-! Registers. -/

theorem State.rd_wr (s : State) (a b : Nat) (w : Word) : (s.wr a w).rd b = if a = b then w else s.rd b :=
  Cells.get_set resetWord s.regs a w b

@[simp] theorem State.rd_wr_self (s : State) (a : Nat) (w : Word) : (s.wr a w).rd a = w := by simp [State.rd_wr]

theorem State.rd_wr_other (s : State) (a b : Nat) (w : Word) (h : a ≠ b) : (s.wr a w).rd b = s.rd b := by
  simp [State.rd_wr, h]

@[simp] theorem State.rdA_wr (s : State) (a b : Nat) (w : Word) : (s.wr a w).rdA b = s.rdA b := rfl

theorem State.fld_put_self (s : State) (x : Fld) (n : Nat) (h : x.lo + x.w ≤ 32) : (s.put x n).fld x = n % 2 ^ x.w := by
  simp [State.put, State.fld, Fld.get_put_self x _ n h]

theorem State.fld_put_other (s : State) (x y : Fld) (n : Nat) (h : x.lo + x.w ≤ 32)
    (hd : x.addr ≠ y.addr ∨ y.lo + y.w ≤ x.lo ∨ x.lo + x.w ≤ y.lo) : (s.put x n).fld y = s.fld y := by
  unfold State.put State.fld
  by_cases ha : x.addr = y.addr
  · rw [← ha, State.rd_wr_self]
    exact Fld.get_put_other x y _ n h (hd.resolve_left (fun hn => hn ha))
  · rw [State.rd_wr_other _ _ _ _ ha]

/-- A counter of a field changes registers, the event log and the rises that an EVENT frame will carry, nothing else. -/
def OnlyRegs (s t : State) : Prop :=
  ∃ r l e, t = { s with regs := r, nv := { s.nv with log := l }, isl := { s.isl with rises := e } }

theorem OnlyRegs.refl (s : State) : OnlyRegs s s := ⟨s.regs, s.nv.log, s.isl.rises, rfl⟩

theorem OnlyRegs.trans {s t u : State} (h : OnlyRegs s t) (g : OnlyRegs t u) : OnlyRegs s u := by
  obtain ⟨r, l, e, rfl⟩ := h
  obtain ⟨r', l', e', rfl⟩ := g
  exact ⟨r', l', e', rfl⟩

theorem State.wr_onlyRegs (s : State) (a : Nat) (w : Word) : OnlyRegs s (s.wr a w) :=
  ⟨_, s.nv.log, s.isl.rises, rfl⟩

theorem State.put_onlyRegs (s : State) (x : Fld) (n : Nat) : OnlyRegs s (s.put x n) := s.wr_onlyRegs _ _

theorem State.noteRise_onlyRegs (s : State) (was : Bool) (p : Nat) : OnlyRegs s (s.noteRise was p) := by
  unfold State.noteRise
  dsimp only
  split
  · exact OnlyRegs.refl s
  · exact ⟨_, _, _, rfl⟩

theorem State.raise_onlyRegs (s : State) (p b : Nat) : OnlyRegs s (s.raise p b) := by
  unfold State.raise
  split
  · exact OnlyRegs.refl s
  · dsimp only
    split
    · exact s.put_onlyRegs _ _
    · exact (s.put_onlyRegs _ _).trans (State.noteRise_onlyRegs _ _ _)

theorem State.raiseIf_onlyRegs (s : State) (c : Bool) (p b : Nat) : OnlyRegs s (s.raiseIf c p b) := by
  cases c
  · exact OnlyRegs.refl s
  · exact s.raise_onlyRegs p b

theorem State.bumpBy_onlyRegs (s : State) (x : Fld) (n : Nat) : OnlyRegs s (s.bumpBy x n) := by
  unfold State.bumpBy
  dsimp only
  split
  · split
    · split
      · exact (s.put_onlyRegs _ _).trans (State.raise_onlyRegs _ _ _)
      · exact s.put_onlyRegs _ _
    · exact s.put_onlyRegs _ _
  · exact s.put_onlyRegs _ _

theorem State.bump_onlyRegs (s : State) (a : Nat) : OnlyRegs s (s.bump a) := s.bumpBy_onlyRegs _ _

theorem State.err_onlyRegs (s : State) (p c : Nat) : OnlyRegs s (s.err p c) :=
  (s.wr_onlyRegs _ _).trans (State.put_onlyRegs _ _ _)

/-- An event changes IRQ_RAW of its page, no other register (R384). -/
theorem State.noteRise_rd (s : State) (was : Bool) (p a : Nat) : (s.noteRise was p).rd a = s.rd a := by
  unfold State.noteRise
  dsimp only
  split <;> rfl

theorem State.raise_rd_other (s : State) (p b a : Nat) (h : Reg.HDR_IRQ_RAW (hdrPage p) ≠ a) :
    (s.raise p b).rd a = s.rd a := by
  unfold State.raise
  split
  · rfl
  · dsimp only
    split
    · exact State.rd_wr_other _ _ _ _ h
    · rw [State.noteRise_rd]; exact State.rd_wr_other _ _ _ _ h

/-- A counter of a field changes its own register and IRQ_RAW of its page, no other (R89). -/
theorem State.bumpBy_rd_other (s : State) (x : Fld) (n a : Nat) (h : x.addr ≠ a)
    (hr : Reg.HDR_IRQ_RAW (hdrPage (x.addr / 0x1000)) ≠ a) : (s.bumpBy x n).rd a = s.rd a := by
  unfold State.bumpBy
  dsimp only
  split
  · split
    · split
      · rw [State.raise_rd_other _ _ _ _ hr]; exact State.rd_wr_other _ _ _ _ h
      · exact State.rd_wr_other _ _ _ _ h
    · exact State.rd_wr_other _ _ _ _ h
  · exact State.rd_wr_other _ _ _ _ h

/-- The counter itself sticks at all ones (R89). -/
theorem State.bumpBy_fld (s : State) (x : Fld) (n : Nat) (hx : x.lo + x.w ≤ 32)
    (hr : Reg.HDR_IRQ_RAW (hdrPage (x.addr / 0x1000)) ≠ x.addr) :
    (s.bumpBy x n).fld x = satAdd (2 ^ x.w - 1) (s.fld x) n := by
  have hp : ∀ m, (s.put x m).fld x = m % 2 ^ x.w := fun m => s.fld_put_self x m hx
  have hlt : satAdd (2 ^ x.w - 1) (s.fld x) n < 2 ^ x.w := by
    have := Nat.two_pow_pos x.w
    unfold satAdd; split
    all_goals omega
  have key : (s.put x (satAdd (2 ^ x.w - 1) (s.fld x) n)).fld x = satAdd (2 ^ x.w - 1) (s.fld x) n := by
    rw [hp, Nat.mod_eq_of_lt hlt]
  unfold State.bumpBy
  dsimp only
  split
  · split
    · split
      · unfold State.fld; rw [State.raise_rd_other _ _ _ _ hr]; exact key
      · exact key
    · exact key
  · exact key

/-! What a command may not touch but by its own rule: the queue, the hold in reset, and time, which does not go back. -/

structure Steady (s t : State) : Prop where
  now : s.now ≤ t.now
  pending : t.pending = s.pending
  hold : t.boot.resetLow = s.boot.resetLow

theorem Steady.refl (s : State) : Steady s s := ⟨Nat.le_refl _, rfl, rfl⟩

theorem Steady.trans {s t u : State} (h : Steady s t) (g : Steady t u) : Steady s u :=
  ⟨Nat.le_trans h.now g.now, g.pending.trans h.pending, g.hold.trans h.hold⟩

theorem OnlyRegs.steady {s t : State} (h : OnlyRegs s t) : Steady s t := by
  obtain ⟨r, l, e, rfl⟩ := h
  exact ⟨Nat.le_refl _, rfl, rfl⟩

theorem State.emit_steady (s : State) (k : OutKind) (d : Nat) (x : List Nat) : Steady s (s.emit k d x) :=
  ⟨Nat.le_refl _, rfl, rfl⟩

theorem State.used_steady (s : State) : Steady s s.used := ⟨Nat.le_refl _, rfl, rfl⟩

theorem State.advance_steady (s : State) (t : Nat) : Steady s (s.advance t) := by
  unfold State.advance
  by_cases h : t ≤ s.now
  · rw [if_pos h]; exact Steady.refl s
  · rw [if_neg h]
    have hn : s.now ≤ t := Nat.le_of_lt (Nat.lt_of_not_le h)
    dsimp only
    split
    · exact ⟨hn, rfl, rfl⟩
    · exact ⟨hn, rfl, rfl⟩

/-- Each of a list of changes keeps what one change keeps. -/
theorem State.each_induct {α : Type} (P : State → Prop) (l : List α) (f : α → State → State)
    (h : ∀ x t, P t → P (f x t)) : ∀ s : State, P s → P (s.each l f) := by
  induction l with
  | nil => exact fun s hs => hs
  | cons x l ih => exact fun s hs => ih _ (h x s hs)

theorem State.each_steady {α : Type} (s : State) (l : List α) (f : α → State → State)
    (h : ∀ x t, Steady t (f x t)) : Steady s (s.each l f) :=
  State.each_induct (Steady s) l f (fun x t ht => ht.trans (h x t)) s (Steady.refl s)

/-! The three ways in which a command acts. -/

theorem State.after_sameHold (s t : State) (hn : s.now ≤ t.now) (hp : t.pending = s.pending)
    (hr : t.boot.resetLow = s.boot.resetLow) : s.after (s.sameHold t) = t := by
  obtain ⟨⟩ := t
  simp only at hn hp hr
  subst hp
  simp [State.after, State.sameHold, Nat.max_eq_right hn, ← hr]

/-- A command that waits for the M960 to leave reset: its effect, when it moves no time back and keeps the queue. -/
theorem State.unheld_eq (s : State) (f : State → State) (h : s.boot.resetLow = false) (hn : s.now ≤ (f s).now)
    (hp : (f s).pending = s.pending) (hr : (f s).boot.resetLow = s.boot.resetLow) : s.unheld f = .next (f s) := by
  simp [State.unheld, h, State.after_sameHold s (f s) hn hp hr]

/-- The same, for an effect that keeps the queue and the hold in reset. -/
theorem State.unheld_steady (s : State) (f : State → State) (h : s.boot.resetLow = false) (hf : Steady s (f s)) :
    s.unheld f = .next (f s) := s.unheld_eq f h hf.now hf.pending hf.hold

/-- In reset it does nothing. -/
theorem State.unheld_held (s : State) (f : State → State) (h : s.boot.resetLow = true) : s.unheld f = .next s := by
  simp [State.unheld, h]

/-- Whatever it does, the queue stays, time does not go back, and reset is neither entered nor left. -/
theorem State.unheld_next (s : State) (f : State → State) :
    ∃ t, s.unheld f = .next t ∧ t.pending = s.pending ∧ s.now ≤ t.now ∧ t.boot.resetLow = s.boot.resetLow := by
  refine ⟨_, rfl, ?_⟩
  cases h : s.boot.resetLow
  · exact ⟨rfl, Nat.le_max_left _ _, h⟩
  · exact ⟨rfl, Nat.le_refl _, h⟩

theorem State.always_next (s : State) (f : State → State) :
    ∃ t, s.always f = .next t ∧ t.pending = s.pending ∧ s.now ≤ t.now ∧ t.boot.resetLow = s.boot.resetLow :=
  ⟨_, rfl, rfl, Nat.le_max_left _ _, rfl⟩

theorem State.resets_next (s : State) (f : State → State) :
    ∃ t, s.resets f = .next t ∧ t.pending = s.pending ∧ s.now ≤ t.now :=
  ⟨_, rfl, rfl, Nat.le_max_left _ _⟩

/-! The step. -/

theorem step_cons (s : State) (c : Instr) (rest : List Instr) (h : s.pending = c :: rest) :
    step s = exec c { s with pending := rest } := by simp [step, h]

theorem step_nil (s : State) (h : s.pending = []) : step s = .next (s.advance (s.now + aonTick)) := by simp [step, h]

end Sys2Proof.Machine
end

