-- ==== Sys2Proof/Laws/Access.lean ====
section
/-! SUPPORT. What an access of a port comes to when the unit serves it: the checks are passed once, here. -/

namespace Sys2Proof.Machine

variable {s : State} {u : Unit} {p : Nat}

/-- The broadcast registers of the group pages are the only ones that do not reach `writeOne` (R381). -/
def isGroupWrite (a : Nat) : Bool :=
  decide (0x71 ≤ a / 0x1000) && decide (a / 0x1000 < 0x81) && (a % 0x1000 == 0x40 || a % 0x1000 == 0x44)

/-- A write of a block register by a port, the unit serving it and the register being writable and not privileged, or
the presence window open. -/
theorem State.hostWrite_block {port a : Nat} {w : Word} {r : RegRow} (h : s.Serves u (a / 0x1000))
    (ha : portAddr a = a) (hw : a < 0x800000) (hg : isGroupWrite a = false) (ho : 0x40 ≤ a % 0x1000)
    (hp : partnerAt a = none) (hi : phyInert a = false) (hr : rowAt u (a % 0x1000) = some r)
    (hb : writable port a r = true) (hs : (r.rw != 0 || r.w1c != 0 || r.act != 0) = true)
    (hv : r.p = false ∨ s.presenceOpen = true) :
    s.hostWrite port a w = s.writeReg port u (a / 0x1000) a r w := by
  have hl : s.portServed port = true := by simp [State.portServed, h.live]
  have hng : ¬ (0x71 ≤ a / 0x1000 ∧ a / 0x1000 < 0x81 ∧ (a % 0x1000 = 0x40 ∨ a % 0x1000 = 0x44)) := by
    simp [isGroupWrite] at hg; omega
  have h0 : ¬ (a % 0x1000 = 0 ∨ a % 0x1000 = 4 ∨ a % 0x1000 = 0x28) := by omega
  have hlt : ¬ a % 0x1000 < 0x30 := by omega
  have hpv : (r.p && !s.presenceOpen) = false := by rcases hv with h | h <;> simp [h]
  simp only [State.hostWrite, ha, hl, Bool.not_true, Bool.false_eq_true, if_false, show ¬ 0x800000 ≤ a by omega,
    State.localWrite, if_neg hng, State.writeOne, h.unit, h.unlocked, bne_self_eq_false, Bool.false_and, h.gate,
    and_false, h.power, if_neg hlt, h.clock, hp, hi, hr, hb, hpv, hs]
  simp

/-- A write of a header register of a page of the device, the unit serving it. -/
theorem State.hostWrite_header {port off : Nat} {w : Word} (h : s.Serves u p) (hq : p < 0x800)
    (ho : off = 0x008 ∨ off = 0x014 ∨ off = 0x018 ∨ off = 0x01C ∨ off = 0x02C) :
    s.hostWrite port (p * 0x1000 + off) w = s.headerWrite u p off w := by
  have hl : s.portServed port = true := by simp [State.portServed, h.live]
  have ha : portAddr (p * 0x1000 + off) = p * 0x1000 + off := by unfold portAddr; omega
  have hd : (p * 0x1000 + off) / 0x1000 = p := by omega
  have hm : (p * 0x1000 + off) % 0x1000 = off := by omega
  have hng : ¬ (0x71 ≤ p ∧ p < 0x81 ∧ (off = 0x40 ∨ off = 0x44)) := by omega
  have h40 : ¬ 0x40 ≤ off := by omega
  have hlt : off < 0x30 := by omega
  simp only [State.hostWrite, ha, hl, Bool.not_true, Bool.false_eq_true, if_false,
    show ¬ 0x800000 ≤ p * 0x1000 + off by omega, State.localWrite, hd, hm, if_neg hng, State.writeOne, h.unit,
    h.unlocked, bne_self_eq_false, Bool.false_and, h40, false_and, h.power, hlt, if_true, if_pos ho]
  simp

end Sys2Proof.Machine
end

