-- ==== Sys2Proof/Laws/Exec.lean ====
section
/-! SUPPORT. What every command is, said once: one equation for each row of the dispatch, and which commands wait for the
release of reset. -/

namespace Sys2Proof.Machine

variable (s : State)

theorem exec_frameBoundary : exec .frameBoundary s = s.unheld State.frameBoundary := rfl
theorem exec_outputLineStart (faults : List Nat) :
    exec (.outputLineStart faults) s = s.unheld (fun s => s.outputLine faults) := rfl
theorem exec_rxBlock (lane : Nat) (hdr : Nat) (payload : Nat) :
    exec (.rxBlock lane hdr payload) s = s.unheld (fun s => s.rxBlock lane hdr payload) := rfl
theorem exec_refcfgWrite (port : Nat) (w : Word) :
    exec (.refcfgWrite port w) s = s.unheld (fun s => s.hostWrite port Reg.EDL_REFCFG w) := rfl
theorem exec_refcfgPendingApply : exec .refcfgPendingApply s = s.unheld State.refcfgApply := rfl
theorem exec_dfeUpdate (lane : Nat) (err : Bool) (dec : Nat) :
    exec (.dfeUpdate lane err dec) s = s.unheld (fun s => s.dfeUpdate lane err dec) := rfl
theorem exec_adaptWindowEnd (lane : Nat) (changes : Nat) :
    exec (.adaptWindowEnd lane changes) s = s.unheld (fun s => s.adaptWindow lane changes) := rfl
theorem exec_rxLockLost (lane : Nat) : exec (.rxLockLost lane) s = s.unheld (fun s => s.rxLockLost lane) := rfl
theorem exec_eiDetect (lane : Nat) : exec (.eiDetect lane) s = s.unheld (fun s => s.eiDetect lane) := rfl
theorem exec_eiClear (lane : Nat) : exec (.eiClear lane) s = s.unheld (fun s => s.eiClear lane) := rfl
theorem exec_esStart (port : Nat) (lane : Nat) (w : Word) :
    exec (.esStart port lane w) s =
      s.unheld (fun s => s.hostWrite port (Reg.PHY_ES_CTRL (phyBase lane)) ((Reg.PHY_ES_CTRL_START (phyBase lane)).put w 1)) := rfl
theorem exec_esDwellEnd (lane : Nat) (errs : Nat) :
    exec (.esDwellEnd lane errs) s = s.unheld (fun s => s.esEnd lane errs) := rfl
theorem exec_lstateReqWrite (port : Nat) (lane : Nat) (w : Word) :
    exec (.lstateReqWrite port lane w) s =
      s.unheld (fun s => s.hostWrite port (Reg.PHY_LSTATE (phyBase lane)) w) := rfl
theorem exec_laneTransitionDone (lane : Nat) :
    exec (.laneTransitionDone lane) s = s.unheld (fun s => s.laneTransition lane) := rfl
theorem exec_prbsWrite (port : Nat) (lane : Nat) (w : Word) :
    exec (.prbsWrite port lane w) s = s.unheld (fun s => s.hostWrite port (Reg.PHY_PRBS (phyBase lane)) w) := rfl
theorem exec_prbsCheckerSync (lane : Nat) (errs : Nat) :
    exec (.prbsCheckerSync lane errs) s = s.unheld (fun s => s.prbsSync lane errs) := rfl
theorem exec_cntClr (port : Nat) (page : Nat) (off : Nat) (w : Word) :
    exec (.cntClr port page off w) s = s.unheld (fun s => s.cntClrWrite port (4096 * page + off) w) := rfl
theorem exec_pip (t : Nat) (copies : List (List Byte)) :
    exec (.pip t copies) s = s.unheld (fun s => (s.advance t).controlRow copies [] false) := rfl
theorem exec_sleepRow (copies : List (List Byte)) :
    exec (.sleepRow copies) s = s.unheld (fun s => s.controlRow copies [] false) := rfl
theorem exec_wakeRow (copies : List (List Byte)) :
    exec (.wakeRow copies) s = s.unheld (fun s => s.controlRow copies [] false) := rfl
theorem exec_regionRow (copies : List (List Byte)) :
    exec (.regionRow copies) s = s.unheld (fun s => s.controlRow copies [] false) := rfl
theorem exec_metaRow (copies : List (List Byte)) :
    exec (.metaRow copies) s = s.unheld (fun s => s.controlRow copies [] false) := rfl
theorem exec_alnRow (link : Nat) (blocks : List (List Byte)) (skews : List Nat) :
    exec (.alnRow link blocks skews) s = s.unheld (fun s => s.alnRow link blocks skews) := rfl
theorem exec_ts1Block (link : Nat) (blocks : List (List Byte)) (inverted : Nat) :
    exec (.ts1Block link blocks inverted) s = s.unheld (fun s => s.ts1Block link blocks inverted) := rfl
theorem exec_idleRow (copies : List (List Byte)) :
    exec (.idleRow copies) s = s.unheld (fun s => s.controlRow copies [] false) := rfl
theorem exec_controlRowIgnored (copies : List (List Byte)) :
    exec (.controlRowIgnored copies) s = s.unheld (fun s => s.controlRow copies [] false) := rfl
theorem exec_misalignedRow : exec .misalignedRow s = s.unheld State.misaligned := rfl
theorem exec_linePacket (t : Nat) (lanes : List (List Byte)) (bad : Bool) :
    exec (.linePacket t lanes bad) s = s.unheld (fun s => s.linePacket t lanes bad) := rfl
theorem exec_tablePacket (copies : List (List Byte)) (lanes : List (List Byte)) (bad : Bool) :
    exec (.tablePacket copies lanes bad) s = s.unheld (fun s => s.controlRow copies lanes bad) := rfl
theorem exec_tableCommitDone : exec .tableCommitDone s = s.unheld State.tableCommit := rfl
theorem exec_lineWrite : exec .lineWrite s = s.unheld State.lineWrite := rfl
theorem exec_lineCopy : exec .lineCopy s = s.unheld State.lineCopyDue := rfl
theorem exec_lineDeadline : exec .lineDeadline s = s.unheld State.lineOverdue := rfl
theorem exec_regRd (bytes : List Byte) : exec (.regRd bytes) s = s.unheld (fun s => s.bcReceive bytes) := rfl
theorem exec_regWr (bytes : List Byte) : exec (.regWr bytes) s = s.unheld (fun s => s.bcReceive bytes) := rfl
theorem exec_wakeReq (bytes : List Byte) : exec (.wakeReq bytes) s = s.unheld (fun s => s.bcReceive bytes) := rfl
theorem exec_bcFrameDiscard (bytes : List Byte) :
    exec (.bcFrameDiscard bytes) s = s.unheld (fun s => s.bcReceive bytes) := rfl
theorem exec_trainCaps (bytes : List Byte) : exec (.trainCaps bytes) s = s.unheld (fun s => s.bcReceive bytes) := rfl
theorem exec_trainOk (bytes : List Byte) : exec (.trainOk bytes) s = s.unheld (fun s => s.bcReceive bytes) := rfl
theorem exec_presetAck (bytes : List Byte) : exec (.presetAck bytes) s = s.unheld (fun s => s.bcReceive bytes) := rfl
theorem exec_trainReady (bytes : List Byte) :
    exec (.trainReady bytes) s = s.unheld (fun s => s.bcReceive bytes) := rfl
theorem exec_trainFail (bytes : List Byte) : exec (.trainFail bytes) s = s.unheld (fun s => s.bcReceive bytes) := rfl
theorem exec_trainPhaseTimeout (link : Nat) :
    exec (.trainPhaseTimeout link) s = s.unheld (fun s => s.phaseExpires link) := rfl
theorem exec_eqPresetMeasure (link : Nat) (eyes : List (Nat × Nat)) :
    exec (.eqPresetMeasure link eyes) s = s.unheld (fun s => s.eqMeasure link eyes) := rfl
theorem exec_linkTrainStart : exec .linkTrainStart s = s.unheld State.trainStart := rfl
theorem exec_fastRetrainDone : exec .fastRetrainDone s = s.unheld State.fastDone := rfl
theorem exec_fastFail : exec .fastFail s = s.unheld State.fastFail := rfl
theorem exec_bcEvent : exec .bcEvent s = s.unheld State.eventSend := rfl
theorem exec_islRetrain (port : Nat) (w : Word) :
    exec (.islRetrain port w) s =
      s.unheld (fun s => s.hostWrite port Reg.ISL_CMD (Reg.ISL_CMD_RETRAIN.put w 1)) := rfl
theorem exec_hpdPulse (port : Nat) (w : Word) :
    exec (.hpdPulse port w) s =
      s.unheld (fun s => s.hostWrite port Reg.ISL_CMD (Reg.ISL_CMD_HPD_PULSE.put w 1)) := rfl
theorem exec_hpdPulseEnd : exec .hpdPulseEnd s = s.unheld State.hpdPulseEnd := rfl
theorem exec_metaPop (port : Nat) (w : Word) :
    exec (.metaPop port w) s = s.unheld (fun s => s.hostWrite port Reg.ISL_META_POP w) := rfl
theorem exec_latePip : exec .latePip s = s.unheld State.latePip := rfl
theorem exec_pipTimeout : exec .pipTimeout s = s.unheld State.pipTimeout := rfl
theorem exec_vrefEdge (t : Nat) (rising : Bool) :
    exec (.vrefEdge t rising) s = s.unheld (fun s => s.vrefEdge t rising) := rfl
theorem exec_hrefEdge (t : Nat) (rising : Bool) :
    exec (.hrefEdge t rising) s = s.unheld (fun s => s.hrefEdge t rising) := rfl
theorem exec_glLoss : exec .glLoss s = s.unheld State.glLoss := rfl
theorem exec_bfiDarkBand (row : Nat) (delay : Nat) :
    exec (.bfiDarkBand row delay) s = s.unheld (fun s => s.darkBand row delay) := rfl
theorem exec_srefEnter (port : Nat) (w : Word) :
    exec (.srefEnter port w) s = s.unheld (fun s => s.hostWrite port Reg.SREF_CMD (Reg.SREF_CMD_ENTER.put w 1)) := rfl
theorem exec_srefExit (port : Nat) (w : Word) :
    exec (.srefExit port w) s = s.unheld (fun s => s.hostWrite port Reg.SREF_CMD (Reg.SREF_CMD_EXIT.put w 1)) := rfl
theorem exec_srefRelease (port : Nat) (w : Word) :
    exec (.srefRelease port w) s =
      s.unheld (fun s => s.hostWrite port Reg.SREF_CMD (Reg.SREF_CMD_RELEASE.put w 1)) := rfl
theorem exec_srefRetWake : exec .srefRetWake s = s.unheld State.retWake := rfl
theorem exec_lutDataAccess (port : Nat) (wr : Option Word) :
    exec (.lutDataAccess port wr) s = s.unheld (fun s => s.portAccess port Reg.INPUT_LUT_DATA wr) := rfl
theorem exec_lutLoad (port : Nat) (w : Word) :
    exec (.lutLoad port w) s =
      s.unheld (fun s => s.hostWrite port Reg.INPUT_LUT_CTRL (Reg.INPUT_LUT_CTRL_LOAD.put w 1)) := rfl
theorem exec_lutDone : exec .lutDone s = s.unheld State.lutDone := rfl
theorem exec_capStatusWrite (port : Nat) (w : Word) :
    exec (.capStatusWrite port w) s = s.unheld (fun s => s.hostWrite port Reg.STATS_CAP_STATUS w) := rfl
theorem exec_statsRbDataRead (port : Nat) :
    exec (.statsRbDataRead port) s = s.unheld (fun s => s.portRead port Reg.STATS_RB_DATA true) := rfl
theorem exec_rbSelWrite (port : Nat) (w : Word) :
    exec (.rbSelWrite port w) s = s.unheld (fun s => s.hostWrite port Reg.CODEC_RB_SEL w) := rfl
theorem exec_rbReady :
    exec .rbReady s =
      s.unheld (fun s => if s.flag Reg.CODEC_RB_STATUS_BUSY then s.withDram State.rbDone else s) := rfl
theorem exec_codecRbData1Read (port : Nat) :
    exec (.codecRbData1Read port) s = s.unheld (fun s => s.portRead port Reg.CODEC_RB_DATA1 true) := rfl
theorem exec_zoneRowSolve : exec .zoneRowSolve s = s.unheld State.solveNext := rfl
theorem exec_pcapWrite (port : Nat) (w : Word) :
    exec (.pcapWrite port w) s = s.unheld (fun s => s.hostWrite port Reg.ZONE_PCAP w) := rfl
theorem exec_classDataAccess (port : Nat) (wr : Option Word) :
    exec (.classDataAccess port wr) s = s.unheld (fun s => s.portAccess port Reg.ZONE_CLASS_DATA wr) := rfl
theorem exec_agDataAccess (port : Nat) (wr : Option Word) :
    exec (.agDataAccess port wr) s = s.unheld (fun s => s.portAccess port Reg.ZONE_AG_DATA wr) := rfl
theorem exec_agCommit (port : Nat) (w : Word) :
    exec (.agCommit port w) s = s.unheld (fun s => s.hostWrite port Reg.ZONE_AG_COMMIT w) := rfl
theorem exec_ageGainUpdate : exec .ageGainUpdate s = s.unheld State.ageGainUpdate := rfl
theorem exec_lvDataRead (port : Nat) :
    exec (.lvDataRead port) s = s.unheld (fun s => s.portRead port Reg.ZONE_LV_DATA true) := rfl
theorem exec_psfDataAccess (port : Nat) (wr : Option Word) :
    exec (.psfDataAccess port wr) s = s.unheld (fun s => s.portAccess port Reg.PSF_DATA wr) := rfl
theorem exec_psfCalc (port : Nat) (w : Word) :
    exec (.psfCalc port w) s = s.unheld (fun s => s.hostWrite port Reg.PSF_CALC w) := rfl
theorem exec_psfCalcDone : exec .psfCalcDone s = s.unheld State.psfCalcDone := rfl
theorem exec_clipDataRead (port : Nat) :
    exec (.clipDataRead port) s = s.unheld (fun s => s.portRead port Reg.SPLIT_CLIP_DATA true) := rfl
theorem exec_celllutDataAccess (port : Nat) (wr : Option Word) :
    exec (.celllutDataAccess port wr) s = s.unheld (fun s => s.portAccess port Reg.CELLLUT_DATA wr) := rfl
theorem exec_checkStart (port : Nat) (w : Word) :
    exec (.checkStart port w) s =
      s.unheld (fun s => s.hostWrite port Reg.PATCH_CHECK (Reg.PATCH_CHECK_START.put w 1)) := rfl
theorem exec_checkDone :
    exec .checkDone s = s.unheld (fun s => if s.pat.check.isSome then s.withDram State.checkDone else s) := rfl
theorem exec_coarseSetLoad : exec .coarseSetLoad s = s.unheld State.coarseSetLoad := rfl
theorem exec_defectDataAccess (port : Nat) (wr : Option Word) :
    exec (.defectDataAccess port wr) s = s.unheld (fun s => s.portAccess port Reg.DEFECT_DATA wr) := rfl
theorem exec_autoDataRead (port : Nat) :
    exec (.autoDataRead port) s = s.unheld (fun s => s.portRead port Reg.DEFECT_AUTO_DATA true) := rfl
theorem exec_autoCtlClr (port : Nat) (w : Word) :
    exec (.autoCtlClr port w) s = s.unheld (fun s => s.hostWrite port Reg.DEFECT_AUTO_CTL w) := rfl
theorem exec_odDataAccess (port : Nat) (wr : Option Word) :
    exec (.odDataAccess port wr) s = s.unheld (fun s => s.portAccess port Reg.OD_DATA wr) := rfl
theorem exec_odReinit (port : Nat) (w : Word) :
    exec (.odReinit port w) s = s.unheld (fun s => s.hostWrite port Reg.OD_CMD w) := rfl
theorem exec_adcConversion (code : Nat) : exec (.adcConversion code) s = s.unheld (fun s => s.adcDone code) := rfl
theorem exec_thermRegionalUpdate : exec .thermRegionalUpdate s = s.unheld State.thermUpdate := rfl
theorem exec_thermCommit (port : Nat) (w : Word) :
    exec (.thermCommit port w) s = s.unheld (fun s => s.hostWrite port Reg.THERM_COMMIT w) := rfl
theorem exec_regDataAccess (port : Nat) (wr : Option Word) :
    exec (.regDataAccess port wr) s = s.unheld (fun s => s.portAccess port Reg.THERM_REG_DATA wr) := rfl
theorem exec_convDataAccess (port : Nat) (wr : Option Word) :
    exec (.convDataAccess port wr) s = s.unheld (fun s => s.portAccess port Reg.THERM_CONV_DATA wr) := rfl
theorem exec_dithDataAccess (port : Nat) (wr : Option Word) :
    exec (.dithDataAccess port wr) s = s.unheld (fun s => s.portAccess port Reg.DITH_DATA wr) := rfl
theorem exec_syncFrame (delay : Nat) : exec (.syncFrame delay) s = s.unheld (fun s => s.syncAhead delay) := rfl
theorem exec_syncApply (row : Nat) (delay : Nat) :
    exec (.syncApply row delay) s = s.unheld (fun s => s.applyAhead row delay) := rfl
theorem exec_hcmdGo (port : Nat) (w : Word) :
    exec (.hcmdGo port w) s = s.unheld (fun s => s.hostWrite port Reg.EDL_HCMD_GO w) := rfl
theorem exec_safeLevelWrite (port : Nat) (w : Word) :
    exec (.safeLevelWrite port w) s = s.unheld (fun s => s.hostWrite port Reg.EDL_SAFE_LEVEL w) := rfl
theorem exec_linkHoldWrite (port : Nat) (w : Word) :
    exec (.linkHoldWrite port w) s = s.unheld (fun s => s.hostWrite port Reg.EDL_LINK_HOLD w) := rfl
theorem exec_edlPoll (bus : Nat) : exec (.edlPoll bus) s = s.unheld (fun s => s.pollOpen bus) := rfl
theorem exec_statusResponse (bus : Nat) (bytes : List Byte) (code : Nat) :
    exec (.statusResponse bus bytes code) s = s.unheld (fun s => s.busResponse bus bytes code) := rfl
theorem exec_faultsResponse (bus : Nat) (bytes : List Byte) (code : Nat) :
    exec (.faultsResponse bus bytes code) s = s.unheld (fun s => s.busResponse bus bytes code) := rfl
theorem exec_errcntResponse (bus : Nat) (bytes : List Byte) (code : Nat) :
    exec (.errcntResponse bus bytes code) s = s.unheld (fun s => s.busResponse bus bytes code) := rfl
theorem exec_readbackResponse (bus : Nat) (bytes : List Byte) (code : Nat) :
    exec (.readbackResponse bus bytes code) s = s.unheld (fun s => s.busResponse bus bytes code) := rfl
theorem exec_capsResponse (bus : Nat) (bytes : List Byte) (code : Nat) :
    exec (.capsResponse bus bytes code) s = s.unheld (fun s => s.busResponse bus bytes code) := rfl
theorem exec_noneResponse (bus : Nat) (bytes : List Byte) (code : Nat) :
    exec (.noneResponse bus bytes code) s = s.unheld (fun s => s.busResponse bus bytes code) := rfl
theorem exec_pollMiss (bus : Nat) (codeErrs : Nat) (answered : Bool) :
    exec (.pollMiss bus codeErrs answered) s = s.unheld (fun s => s.pollMiss bus codeErrs answered) := rfl
theorem exec_edlTrainDone (edlPort : Nat) :
    exec (.edlTrainDone edlPort) s = s.unheld (fun s => s.trainDone edlPort) := rfl
theorem exec_edlTrainTimeout (edlPort : Nat) :
    exec (.edlTrainTimeout edlPort) s = s.unheld (fun s => s.trainTimeout edlPort) := rfl
theorem exec_edlTrainRetry (edlPort : Nat) :
    exec (.edlTrainRetry edlPort) s = s.unheld (fun s => s.trainRetry edlPort) := rfl
theorem exec_portRetrain (port : Nat) (edlPort : Nat) (w : Word) :
    exec (.portRetrain port edlPort w) s =
      s.unheld (fun s => s.hostWrite port (Reg.EDL_PORT_CMD edlPort) ((Reg.EDL_PORT_CMD_RETRAIN edlPort).put w 1)) := rfl
theorem exec_edlEnum (port : Nat) (w : Word) :
    exec (.edlEnum port w) s = s.unheld (fun s => s.hostWrite port Reg.EDL_CMD (Reg.EDL_CMD_ENUM.put w 1)) := rfl
theorem exec_prbsBurst (edlPort : Nat) (blocks : Nat) :
    exec (.prbsBurst edlPort blocks) s = s.unheld (fun s => s.prbsBurst edlPort blocks) := rfl
theorem exec_groupBroadcast (port : Nat) (group : Nat) (cmd : Bool) (w : Word) :
    exec (.groupBroadcast port group cmd w) s =
      s.unheld (fun s => s.hostWrite port (if cmd then Reg.EDL_GRP_CMD_ALL group else Reg.EDL_GRP_CFG_ALL group) w) := rfl
theorem exec_gateLine : exec .gateLine s = s.unheld State.gateLine := rfl
theorem exec_panelOn (port : Nat) (w : Word) :
    exec (.panelOn port w) s =
      s.unheld (fun s => s.hostWrite port Reg.PANELPWR_CMD (Reg.PANELPWR_CMD_ON.put w 1)) := rfl
theorem exec_panelOff (port : Nat) (w : Word) :
    exec (.panelOff port w) s =
      s.unheld (fun s => s.hostWrite port Reg.PANELPWR_CMD (Reg.PANELPWR_CMD_OFF.put w 1)) := rfl
theorem exec_powerOnStep : exec .powerOnStep s = s.unheld State.powerOnStep := rfl
theorem exec_pgInRise : exec .pgInRise s = s.unheld State.pgInRises := rfl
theorem exec_pgFail : exec .pgFail s = s.unheld State.pgFail := rfl
theorem exec_autoOn : exec .autoOn s = s.unheld State.autoOn := rfl
theorem exec_powerOffStep : exec .powerOffStep s = s.unheld State.powerOffStep := rfl
theorem exec_pfail : exec .pfail s = s.always State.powerFails := rfl
theorem exec_regionAlloc (port : Nat) (w : Word) :
    exec (.regionAlloc port w) s =
      s.unheld (fun s => s.hostWrite port Reg.REGION_REQ_GO (Reg.REGION_REQ_GO_ALLOC.put w 1)) := rfl
theorem exec_regionFree (port : Nat) (w : Word) :
    exec (.regionFree port w) s =
      s.unheld (fun s => s.hostWrite port Reg.REGION_REQ_GO (Reg.REGION_REQ_GO_FREE.put (Reg.REGION_REQ_GO_ALLOC.put w 0) 1)) := rfl
theorem exec_regionReqDone : exec .regionReqDone s = s.unheld State.regionServe := rfl
theorem exec_dramBeat (engine : Nat) (handle : Nat) (ofs : Nat) (wr : Option (List Byte)) (ecc : Nat) (word : Nat) (lat : Nat) (waiting : List Nat) :
    exec (.dramBeat engine handle ofs wr ecc word lat waiting) s =
      s.unheld (fun s => s.dramBeat engine handle ofs wr ecc word lat waiting) := rfl
theorem exec_c0Window : exec .c0Window s = s.unheld State.c0Window := rfl
theorem exec_dramRefresh (ch : Nat) (busy : Bool) :
    exec (.dramRefresh ch busy) s = s.unheld (fun s => s.refresh ch busy) := rfl
theorem exec_mopSwitch : exec .mopSwitch s = s.unheld State.mopSwitch := rfl
theorem exec_scrubPage (corr : List Nat) (unc : List Nat) :
    exec (.scrubPage corr unc) s = s.unheld (fun s => s.scrub corr unc) := rfl
theorem exec_retireDone : exec .retireDone s = s.unheld State.copyDone := rfl
theorem exec_migrationTimeout (engine : Nat) (handle : Nat) (ofs : Nat) (wr : Option (List Byte)) :
    exec (.migrationTimeout engine handle ofs wr) s = s.unheld (fun s => s.migExpire engine handle ofs wr) := rfl
theorem exec_fltResume (port : Nat) (engine : Nat) :
    exec (.fltResume port engine) s =
      s.unheld (fun s => s.hostWrite port (Reg.MEMC_FLT_CMD engine) ((Reg.MEMC_FLT_CMD_RESUME engine).put 0 1)) := rfl
theorem exec_fltSkip (port : Nat) (engine : Nat) :
    exec (.fltSkip port engine) s =
      s.unheld (fun s => s.hostWrite port (Reg.MEMC_FLT_CMD engine) ((Reg.MEMC_FLT_CMD_SKIP engine).put 0 1)) := rfl
theorem exec_fltAbort (port : Nat) (engine : Nat) :
    exec (.fltAbort port engine) s =
      s.unheld (fun s => s.hostWrite port (Reg.MEMC_FLT_CMD engine) ((Reg.MEMC_FLT_CMD_ABORT engine).put 0 1)) := rfl
theorem exec_retireCmd (port : Nat) (w : Word) :
    exec (.retireCmd port w) s = s.unheld (fun s => s.hostWrite port Reg.ECC_RETIRE_CMD w) := rfl
theorem exec_bulkGo (port : Nat) (w : Word) :
    exec (.bulkGo port w) s = s.unheld (fun s => s.hostWrite port Reg.BULK_CTRL (Reg.BULK_CTRL_GO.put w 1)) := rfl
theorem exec_bulkDone : exec .bulkDone s = s.unheld State.bulkDone := rfl
theorem exec_bulkWinAccess (port : Nat) (index : Nat) (wr : Option Word) :
    exec (.bulkWinAccess port index wr) s = s.unheld (fun s => s.portAccess port (Reg.BULK_WIN index) wr) := rfl
theorem exec_ownWrite (port : Nat) (bank : Nat) (w : Word) :
    exec (.ownWrite port bank w) s = s.unheld (fun s => s.hostWrite port (Reg.BANKS_OWN bank) w) := rfl
theorem exec_handover (bank : Nat) (cycles : List BankCycle) :
    exec (.handover bank cycles) s = s.unheld (fun s => (s.inFlight bank cycles).drained bank) := rfl
theorem exec_clearDone (bank : Nat) : exec (.clearDone bank) s = s.unheld (fun s => s.clearDone bank) := rfl
theorem exec_winDataAccess (port : Nat) (wr : Option Word) :
    exec (.winDataAccess port wr) s = s.unheld (fun s => s.portAccess port Reg.BANKS_WIN_DATA wr) := rfl
theorem exec_applyGo (port : Nat) (w : Word) :
    exec (.applyGo port w) s = s.unheld (fun s => s.hostWrite port Reg.CHIP_APPLY (Reg.CHIP_APPLY_GO.put w 1)) := rfl
theorem exec_validationDone : exec .validationDone s = s.unheld State.validated := rfl
theorem exec_chipRevert (port : Nat) (w : Word) :
    exec (.chipRevert port w) s = s.unheld (fun s => s.hostWrite port Reg.CHIP_REVERT w) := rfl
theorem exec_guaranteeVoidWrite (port : Nat) (w : Word) :
    exec (.guaranteeVoidWrite port w) s = s.unheld (fun s => s.hostWrite port Reg.CHIP_GUARANTEE_VOID w) := rfl
theorem exec_softRst (port : Nat) (page : Nat) (w : Word) :
    exec (.softRst port page w) s =
      s.unheld (fun s => s.hostWrite port (Reg.HDR_CTRL page) ((Reg.HDR_CTRL_SOFT_RST page).put w 1)) := rfl
theorem exec_lockWrite (port : Nat) (page : Nat) (w : Word) :
    exec (.lockWrite port page w) s = s.unheld (fun s => s.hostWrite port (Reg.HDR_LOCK page) w) := rfl
theorem exec_irqSet (port : Nat) (page : Nat) (w : Word) :
    exec (.irqSet port page w) s = s.unheld (fun s => s.hostWrite port (Reg.HDR_IRQ_SET page) w) := rfl
theorem exec_irqPendWrite (port : Nat) (page : Nat) (w : Word) :
    exec (.irqPendWrite port page w) s = s.unheld (fun s => s.hostWrite port (Reg.HDR_IRQ_PEND page) w) := rfl
theorem exec_errCountRead (port : Nat) (page : Nat) :
    exec (.errCountRead port page) s = s.unheld (fun s => s.portRead port (Reg.HDR_ERR_COUNT page) true) := rfl
theorem exec_read64Low (port : Nat) (addr : Nat) :
    exec (.read64Low port addr) s = s.unheld (fun s => s.portRead port addr true) := rfl
theorem exec_regWrite (port : Nat) (addr : Nat) (w : Word) :
    exec (.regWrite port addr w) s = s.unheld (fun s => s.hostWrite port addr w) := rfl
theorem exec_spiWrite (addr : Nat) (bytes : List Byte) :
    exec (.spiWrite addr bytes) s = s.unheld (fun s => s.spiWrite addr bytes) := rfl
theorem exec_spiQwrite (addr : Nat) (bytes : List Byte) :
    exec (.spiQwrite addr bytes) s = s.unheld (fun s => s.spiWrite addr bytes) := rfl
theorem exec_spiRead (addr : Nat) (n : Nat) : exec (.spiRead addr n) s = s.unheld (fun s => s.spiRead addr n) := rfl
theorem exec_spiQread (addr : Nat) (n : Nat) : exec (.spiQread addr n) s = s.unheld (fun s => s.spiRead addr n) := rfl
theorem exec_spiStatus : exec .spiStatus s = s.unheld State.spiStatus := rfl
theorem exec_spiUnknownCommand (code : Nat) :
    exec (.spiUnknownCommand code) s = s.unheld (fun s => s.spiOther code) := rfl
theorem exec_i2cWrite (addr : Nat) (bytes : List Byte) :
    exec (.i2cWrite addr bytes) s = s.unheld (fun s => s.i2cWrite addr bytes) := rfl
theorem exec_i2cRead (addr : Nat) (n : Nat) : exec (.i2cRead addr n) s = s.unheld (fun s => s.i2cRead addr n) := rfl
theorem exec_i2cTimeout : exec .i2cTimeout s = s.unheld State.i2cExpires := rfl
theorem exec_tunnel (lane : Nat) (block : List Byte) :
    exec (.tunnel lane block) s = s.unheld (fun s => s.casBlock lane block []) := rfl
theorem exec_tunnelTimeout : exec .tunnelTimeout s = s.unheld State.tunnelExpires := rfl
theorem exec_ctlWdog : exec .ctlWdog s = s.unheld State.wdogExpires := rfl
theorem exec_ctlRestart (port : Nat) (w : Word) :
    exec (.ctlRestart port w) s =
      s.unheld (fun s => s.hostWrite port Reg.CTL_CMD (Reg.CTL_CMD_RESTART.put w 1)) := rfl
theorem exec_ctlRestarted : exec .ctlRestarted s = s.unheld State.restarted := rfl
theorem exec_mboxNop : exec .mboxNop s = s.unheld (fun s => s.mboxServe 0 (fun s => s.mboxEnd 0)) := rfl
theorem exec_mboxVersion : exec .mboxVersion s = s.unheld (fun s => s.mboxServe 1 State.mboxVersion) := rfl
theorem exec_mboxEcho : exec .mboxEcho s = s.unheld (fun s => s.mboxServe 2 (fun s => s.mboxEnd 0)) := rfl
theorem exec_mboxHostload : exec .mboxHostload s = s.unheld (fun s => s.mboxServe 0x10 State.mboxHostload) := rfl
theorem exec_mboxReboot : exec .mboxReboot s = s.unheld (fun s => s.mboxServe 0x11 State.mboxReboot) := rfl
theorem exec_mboxActivate : exec .mboxActivate s = s.unheld (fun s => s.mboxServe 0x12 State.mboxActivate) := rfl
theorem exec_mboxCommit : exec .mboxCommit s = s.unheld (fun s => s.mboxServe 0x13 State.mboxCommit) := rfl
theorem exec_mboxPawn : exec .mboxPawn s = s.unheld (fun s => s.mboxServe 0x14 State.mboxPawn) := rfl
theorem exec_mboxSlotInfo : exec .mboxSlotInfo s = s.unheld (fun s => s.mboxServe 0x15 State.mboxSlotInfo) := rfl
theorem exec_mboxCoarseStore :
    exec .mboxCoarseStore s =
      s.unheld (fun s => s.mboxServe 0x40 (fun s => s.coarseStore (s.mboxArg 0) (s.mboxArg 1))) := rfl
theorem exec_mboxAgeLoad :
    exec .mboxAgeLoad s = s.unheld (fun s => s.mboxServe 0x41 (fun s => s.ageLoad (s.mboxArg 0) (s.mboxArg 1))) := rfl
theorem exec_mboxRingFormat : exec .mboxRingFormat s = s.unheld (fun s => s.mboxServe 0x42 State.ringFormat) := rfl
theorem exec_mboxUnknown : exec .mboxUnknown s = s.unheld State.mboxUnknown := rfl
theorem exec_presenceOpen : exec .presenceOpen s = s.unheld State.buttonHeld := rfl
theorem exec_presenceExpire : exec .presenceExpire s = s.unheld State.presenceEnds := rfl
theorem exec_presenceClose (port : Nat) (w : Word) :
    exec (.presenceClose port w) s =
      s.unheld (fun s => s.hostWrite port Reg.SEC_CMD (Reg.SEC_CMD_CLOSE.put w 1)) := rfl
theorem exec_otpLockWrite (port : Nat) (w : Word) :
    exec (.otpLockWrite port w) s = s.unheld (fun s => s.hostWrite port Reg.SEC_OTP_LOCK w) := rfl
theorem exec_xtalStable : exec .xtalStable s = s.unheld State.xtalStable := rfl
theorem exec_refclkWindow (cycles : Nat) :
    exec (.refclkWindow cycles) s = s.unheld (fun s => s.refWindow cycles) := rfl
theorem exec_pllLock (pll : Nat) : exec (.pllLock pll) s = s.unheld (fun s => s.pllLocked pll) := rfl
theorem exec_lockFail (pll : Nat) : exec (.lockFail pll) s = s.unheld (fun s => s.pllFails pll) := rfl
theorem exec_xtalFail : exec .xtalFail s = s.unheld State.xtalFails := rfl
theorem exec_pixRefHold : exec .pixRefHold s = s.unheld State.pixHold := rfl
theorem exec_lockLoss (pll : Nat) : exec (.lockLoss pll) s = s.unheld (fun s => s.pllLost pll) := rfl
theorem exec_xtalLoss : exec .xtalLoss s = s.unheld State.xtalLoss := rfl
theorem exec_clkCfgWrite (port : Nat) (w : Word) :
    exec (.clkCfgWrite port w) s = s.unheld (fun s => s.hostWrite port Reg.CLK_CFG w) := rfl
theorem exec_clkSwitchDone (mux : Nat) : exec (.clkSwitchDone mux) s = s.unheld (fun s => s.muxDone mux) := rfl
theorem exec_swForced (mux : Nat) : exec (.swForced mux) s = s.unheld (fun s => s.muxForce mux) := rfl
theorem exec_swFail (mux : Nat) : exec (.swFail mux) s = s.unheld (fun s => s.muxFailed mux) := rfl
theorem exec_swForcedWrite (port : Nat) (w : Word) :
    exec (.swForcedWrite port w) s = s.unheld (fun s => s.hostWrite port Reg.CLK_SW_FORCED w) := rfl
theorem exec_aonTrimWindow (cycles : Nat) :
    exec (.aonTrimWindow cycles) s = s.unheld (fun s => s.trimWindow cycles) := rfl
theorem exec_clockGateClose (page : Nat) : exec (.clockGateClose page) s = s.unheld (fun s => s.gateIdle page) := rfl
theorem exec_domainReqWrite (port : Nat) (dom : Nat) (w : Word) :
    exec (.domainReqWrite port dom w) s = s.unheld (fun s => s.hostWrite port (Reg.PWR_DOM_REQ dom) w) := rfl
theorem exec_domainDrainDone (dom : Nat) : exec (.domainDrainDone dom) s = s.unheld (fun s => s.drainDone dom) := rfl
theorem exec_domainTransitionDone (dom : Nat) (bad : Bool) :
    exec (.domainTransitionDone dom bad) s = s.unheld (fun s => s.transitionDone dom bad) := rfl
theorem exec_domainAborted (dom : Nat) : exec (.domainAborted dom) s = s.unheld (fun s => s.aborted dom) := rfl
theorem exec_padRelease (port : Nat) (w : Word) :
    exec (.padRelease port w) s = s.unheld (fun s => s.hostWrite port Reg.PWR_PAD_RELEASE w) := rfl
theorem exec_opCfgWrite (port : Nat) (w : Word) :
    exec (.opCfgWrite port w) s = s.unheld (fun s => s.hostWrite port Reg.PWR_OP_CFG w) := rfl
theorem exec_vserWrite (port : Nat) (w : Word) :
    exec (.vserWrite port w) s = s.unheld (fun s => s.hostWrite port Reg.PWR_VSER w) := rfl
theorem exec_avsPoll (mv : Nat) (crcErr : Bool) :
    exec (.avsPoll mv crcErr) s = s.unheld (fun s => s.avsPoll mv crcErr) := rfl
theorem exec_avsFail (nak : Bool) : exec (.avsFail nak) s = s.unheld (fun s => s.avsFailed nak) := rfl
theorem exec_gpioWakeEdge (gpio : Nat) :
    exec (.gpioWakeEdge gpio) s = s.unheld (fun s => s.wakeSource (8 + gpio)) := rfl
theorem exec_aonAlarm : exec .aonAlarm s = s.unheld State.alarmFires := rfl
theorem exec_alarmWrite (port : Nat) (high : Bool) (w : Word) :
    exec (.alarmWrite port high w) s =
      s.unheld (fun s => s.hostWrite port (if high then Reg.AON_ALARM_HI else Reg.AON_ALARM) w) := rfl
theorem exec_wakeCauseWrite (port : Nat) (w : Word) :
    exec (.wakeCauseWrite port w) s = s.unheld (fun s => s.hostWrite port Reg.AON_WAKE_CAUSE w) := rfl
theorem exec_powerOnMinTick : exec .powerOnMinTick s = s.unheld State.minuteTick := rfl
theorem exec_supplyMonitorTrip (aon : Bool) :
    exec (.supplyMonitorTrip aon) s = s.resets (fun s => s.supplyTrips aon) := rfl
theorem exec_powerOnReset : exec .powerOnReset s = s.resets (fun s => s.supplyTrips true) := rfl
theorem exec_resetNLow : exec .resetNLow s = s.resets State.resetLow := rfl
theorem exec_resetNRise (gpio : Nat) : exec (.resetNRise gpio) s = s.resets (fun s => s.resetRise gpio) := rfl
theorem exec_nvAppend (port : Nat) (wpN : Bool) (w : Word) :
    exec (.nvAppend port wpN w) s =
      s.unheld (fun s => (s.setWp wpN).hostWrite port Reg.NV_REC_CMD (Reg.NV_REC_CMD_OP.put w 1)) := rfl
theorem exec_nvRead (port : Nat) (w : Word) :
    exec (.nvRead port w) s = s.unheld (fun s => s.hostWrite port Reg.NV_REC_CMD (Reg.NV_REC_CMD_OP.put w 2)) := rfl
theorem exec_nvDelete (port : Nat) (wpN : Bool) (w : Word) :
    exec (.nvDelete port wpN w) s =
      s.unheld (fun s => (s.setWp wpN).hostWrite port Reg.NV_REC_CMD (Reg.NV_REC_CMD_OP.put w 3)) := rfl
theorem exec_rawRead (port : Nat) (w : Word) :
    exec (.rawRead port w) s = s.unheld (fun s => s.hostWrite port Reg.NV_RAW_CMD (Reg.NV_RAW_CMD_OP.put w 1)) := rfl
theorem exec_nvProgram (port : Nat) (wpN : Bool) (jmpN : Bool) (w : Word) :
    exec (.nvProgram port wpN jmpN w) s =
      s.unheld (fun s => (s.setPins wpN jmpN).hostWrite port Reg.NV_RAW_CMD (Reg.NV_RAW_CMD_OP.put w 2)) := rfl
theorem exec_erase4k (port : Nat) (wpN : Bool) (jmpN : Bool) (w : Word) :
    exec (.erase4k port wpN jmpN w) s =
      s.unheld (fun s => (s.setPins wpN jmpN).hostWrite port Reg.NV_RAW_CMD (Reg.NV_RAW_CMD_OP.put w 3)) := rfl
theorem exec_erase64k (port : Nat) (wpN : Bool) (jmpN : Bool) (w : Word) :
    exec (.erase64k port wpN jmpN w) s =
      s.unheld (fun s => (s.setPins wpN jmpN).hostWrite port Reg.NV_RAW_CMD (Reg.NV_RAW_CMD_OP.put w 4)) := rfl
theorem exec_flashOpDone (wpN : Bool) : exec (.flashOpDone wpN) s = s.unheld (fun s => (s.setWp wpN).flashDone) := rfl
theorem exec_flashTimeout : exec .flashTimeout s = s.unheld State.flashTimeout := rfl
theorem exec_nvSave (port : Nat) (wpN : Bool) (w : Word) :
    exec (.nvSave port wpN w) s =
      s.unheld (fun s => (s.setWp wpN).hostWrite port Reg.NV_SAVE_CMD (Reg.NV_SAVE_CMD_SAVE.put w 1)) := rfl
theorem exec_nvScan (wpN : Bool) : exec (.nvScan wpN) s = s.unheld (fun s => (s.setWp wpN).nvScan) := rfl
theorem exec_bufDataAccess (port : Nat) (wr : Option Word) :
    exec (.bufDataAccess port wr) s = s.unheld (fun s => s.portAccess port Reg.NV_BUF_DATA wr) := rfl
theorem exec_ageDataRead (port : Nat) :
    exec (.ageDataRead port) s = s.unheld (fun s => s.portRead port Reg.NV_AGE_DATA true) := rfl
theorem exec_bootAttempt (jedec : Nat) : exec (.bootAttempt jedec) s = s.unheld (fun s => s.bootAttempt jedec) := rfl
theorem exec_dramTrainDone (mask : Nat) : exec (.dramTrainDone mask) s = s.unheld (fun s => s.dramTrained mask) := rfl
theorem exec_bootOk (w : Word) : exec (.bootOk w) s = s.unheld (fun s => s.hostWrite 3 Reg.TEST_BOOT_OK w) := rfl
theorem exec_bootTimeout : exec .bootTimeout s = s.unheld State.bootTimeout := rfl
theorem exec_sramTurn (result : Nat) : exec (.sramTurn result) s = s.unheld (fun s => s.sramTurn result) := rfl
theorem exec_dramTurn (result : Nat) : exec (.dramTurn result) s = s.unheld (fun s => s.dramTurn result) := rfl
theorem exec_lutTurn (result : Nat) : exec (.lutTurn result) s = s.unheld (fun s => s.lutTurn result) := rfl
theorem exec_perturbWrite (port : Nat) (off : Nat) (w : Word) :
    exec (.perturbWrite port off w) s = s.unheld (fun s => s.hostWrite port (Reg.HDR_UNIT_ID 8 + off) w) := rfl
theorem exec_perturbStop (port : Nat) (w : Word) :
    exec (.perturbStop port w) s = s.unheld (fun s => s.hostWrite port Reg.PERTURB_STOP w) := rfl
theorem exec_extest (pins : List Bool) (dr : List Bool) :
    exec (.extest pins dr) s = s.always (fun s => s.tapBoundary tapEXTEST pins dr) := rfl
theorem exec_samplePreload (pins : List Bool) (dr : List Bool) :
    exec (.samplePreload pins dr) s = s.always (fun s => s.tapBoundary tapSAMPLE pins dr) := rfl
theorem exec_idcode (dr : List Bool) :
    exec (.idcode dr) s = s.always (fun s => s.tapScan tapIDCODE idcodeBits dr (fun _ t => t)) := rfl
theorem exec_clamp (dr : List Bool) : exec (.clamp dr) s = s.always (fun s => s.tapBypass tapCLAMP dr) := rfl
theorem exec_highz (dr : List Bool) : exec (.highz dr) s = s.always (fun s => s.tapBypass tapHIGHZ dr) := rfl
theorem exec_extestPulse (pins : List Bool) (dr : List Bool) :
    exec (.extestPulse pins dr) s = s.always (fun s => s.tapBoundary tapPULSE pins dr) := rfl
theorem exec_extestTrain (pins : List Bool) (dr : List Bool) :
    exec (.extestTrain pins dr) s = s.always (fun s => s.tapBoundary tapTRAIN pins dr) := rfl
theorem exec_runbist (dr : List Bool) : exec (.runbist dr) s = s.always (fun s => s.runBist dr) := rfl
theorem exec_bistDone (fail : Bool) (unit : Nat) :
    exec (.bistDone fail unit) s = s.always (fun s => s.bistDone fail unit) := rfl
theorem exec_bypass (code : Nat) (dr : List Bool) :
    exec (.bypass code dr) s =
      if s.tapPrivate code then .refused .privateInstruction else s.always (fun s => s.tapBypass code dr) := rfl
theorem exec_tapReset : exec .tapReset s = s.always State.tapReset := rfl
theorem exec_casFsync (lane : Nat) (block : List Byte) :
    exec (.casFsync lane block) s = s.unheld (fun s => s.casBlock lane block []) := rfl
theorem exec_casSeam (lane : Nat) (block : List Byte) (bytes : List Byte) :
    exec (.casSeam lane block bytes) s = s.unheld (fun s => s.casBlock lane block bytes) := rfl
theorem exec_casPos (lane : Nat) (block : List Byte) :
    exec (.casPos lane block) s = s.unheld (fun s => s.casBlock lane block []) := rfl
theorem exec_casTrainRetry (lane : Nat) : exec (.casTrainRetry lane) s = s.unheld (fun s => s.casRetry lane) := rfl
theorem exec_ledStatToggle : exec .ledStatToggle s = s.unheld State.ledToggle := rfl
theorem exec_bcRxLock (inverted : Bool) :
    exec (.bcRxLock inverted) s = s.unheld (fun s => s.bcRxLocks inverted) := rfl
theorem exec_pwrFailNHigh : exec .pwrFailNHigh s = s.always State.powerBack := rfl
theorem exec_supplyBackInRange (gpio : Nat) :
    exec (.supplyBackInRange gpio) s = s.resets (fun s => s.resetRise gpio) := rfl
theorem exec_blPwmPulse : exec .blPwmPulse s = s.unheld State.pwmPulse := rfl
theorem exec_fsyncOutPulseEnd : exec .fsyncOutPulseEnd s = s.unheld State.fsyncOutEnd := rfl
theorem exec_hcmdDone : exec .hcmdDone s = s.unheld State.hcmdDone := rfl

/-- A command that does not act in reset waits for its release. -/
theorem exec_unheld : ∀ c : Instr, actsInReset c = false → ∃ f, exec c s = s.unheld f
  | .frameBoundary, _ => ⟨_, exec_frameBoundary s⟩
  | .outputLineStart faults, _ => ⟨_, exec_outputLineStart s faults⟩
  | .rxBlock lane hdr payload, _ => ⟨_, exec_rxBlock s lane hdr payload⟩
  | .refcfgWrite port w, _ => ⟨_, exec_refcfgWrite s port w⟩
  | .refcfgPendingApply, _ => ⟨_, exec_refcfgPendingApply s⟩
  | .dfeUpdate lane err dec, _ => ⟨_, exec_dfeUpdate s lane err dec⟩
  | .adaptWindowEnd lane changes, _ => ⟨_, exec_adaptWindowEnd s lane changes⟩
  | .rxLockLost lane, _ => ⟨_, exec_rxLockLost s lane⟩
  | .eiDetect lane, _ => ⟨_, exec_eiDetect s lane⟩
  | .eiClear lane, _ => ⟨_, exec_eiClear s lane⟩
  | .esStart port lane w, _ => ⟨_, exec_esStart s port lane w⟩
  | .esDwellEnd lane errs, _ => ⟨_, exec_esDwellEnd s lane errs⟩
  | .lstateReqWrite port lane w, _ => ⟨_, exec_lstateReqWrite s port lane w⟩
  | .laneTransitionDone lane, _ => ⟨_, exec_laneTransitionDone s lane⟩
  | .prbsWrite port lane w, _ => ⟨_, exec_prbsWrite s port lane w⟩
  | .prbsCheckerSync lane errs, _ => ⟨_, exec_prbsCheckerSync s lane errs⟩
  | .cntClr port page off w, _ => ⟨_, exec_cntClr s port page off w⟩
  | .pip t copies, _ => ⟨_, exec_pip s t copies⟩
  | .sleepRow copies, _ => ⟨_, exec_sleepRow s copies⟩
  | .wakeRow copies, _ => ⟨_, exec_wakeRow s copies⟩
  | .regionRow copies, _ => ⟨_, exec_regionRow s copies⟩
  | .metaRow copies, _ => ⟨_, exec_metaRow s copies⟩
  | .alnRow link blocks skews, _ => ⟨_, exec_alnRow s link blocks skews⟩
  | .ts1Block link blocks inverted, _ => ⟨_, exec_ts1Block s link blocks inverted⟩
  | .idleRow copies, _ => ⟨_, exec_idleRow s copies⟩
  | .controlRowIgnored copies, _ => ⟨_, exec_controlRowIgnored s copies⟩
  | .misalignedRow, _ => ⟨_, exec_misalignedRow s⟩
  | .linePacket t lanes bad, _ => ⟨_, exec_linePacket s t lanes bad⟩
  | .tablePacket copies lanes bad, _ => ⟨_, exec_tablePacket s copies lanes bad⟩
  | .tableCommitDone, _ => ⟨_, exec_tableCommitDone s⟩
  | .lineWrite, _ => ⟨_, exec_lineWrite s⟩
  | .lineCopy, _ => ⟨_, exec_lineCopy s⟩
  | .lineDeadline, _ => ⟨_, exec_lineDeadline s⟩
  | .regRd bytes, _ => ⟨_, exec_regRd s bytes⟩
  | .regWr bytes, _ => ⟨_, exec_regWr s bytes⟩
  | .wakeReq bytes, _ => ⟨_, exec_wakeReq s bytes⟩
  | .bcFrameDiscard bytes, _ => ⟨_, exec_bcFrameDiscard s bytes⟩
  | .trainCaps bytes, _ => ⟨_, exec_trainCaps s bytes⟩
  | .trainOk bytes, _ => ⟨_, exec_trainOk s bytes⟩
  | .presetAck bytes, _ => ⟨_, exec_presetAck s bytes⟩
  | .trainReady bytes, _ => ⟨_, exec_trainReady s bytes⟩
  | .trainFail bytes, _ => ⟨_, exec_trainFail s bytes⟩
  | .trainPhaseTimeout link, _ => ⟨_, exec_trainPhaseTimeout s link⟩
  | .eqPresetMeasure link eyes, _ => ⟨_, exec_eqPresetMeasure s link eyes⟩
  | .linkTrainStart, _ => ⟨_, exec_linkTrainStart s⟩
  | .fastRetrainDone, _ => ⟨_, exec_fastRetrainDone s⟩
  | .fastFail, _ => ⟨_, exec_fastFail s⟩
  | .bcEvent, _ => ⟨_, exec_bcEvent s⟩
  | .islRetrain port w, _ => ⟨_, exec_islRetrain s port w⟩
  | .hpdPulse port w, _ => ⟨_, exec_hpdPulse s port w⟩
  | .hpdPulseEnd, _ => ⟨_, exec_hpdPulseEnd s⟩
  | .metaPop port w, _ => ⟨_, exec_metaPop s port w⟩
  | .latePip, _ => ⟨_, exec_latePip s⟩
  | .pipTimeout, _ => ⟨_, exec_pipTimeout s⟩
  | .vrefEdge t rising, _ => ⟨_, exec_vrefEdge s t rising⟩
  | .hrefEdge t rising, _ => ⟨_, exec_hrefEdge s t rising⟩
  | .glLoss, _ => ⟨_, exec_glLoss s⟩
  | .bfiDarkBand row delay, _ => ⟨_, exec_bfiDarkBand s row delay⟩
  | .srefEnter port w, _ => ⟨_, exec_srefEnter s port w⟩
  | .srefExit port w, _ => ⟨_, exec_srefExit s port w⟩
  | .srefRelease port w, _ => ⟨_, exec_srefRelease s port w⟩
  | .srefRetWake, _ => ⟨_, exec_srefRetWake s⟩
  | .lutDataAccess port wr, _ => ⟨_, exec_lutDataAccess s port wr⟩
  | .lutLoad port w, _ => ⟨_, exec_lutLoad s port w⟩
  | .lutDone, _ => ⟨_, exec_lutDone s⟩
  | .capStatusWrite port w, _ => ⟨_, exec_capStatusWrite s port w⟩
  | .statsRbDataRead port, _ => ⟨_, exec_statsRbDataRead s port⟩
  | .rbSelWrite port w, _ => ⟨_, exec_rbSelWrite s port w⟩
  | .rbReady, _ => ⟨_, exec_rbReady s⟩
  | .codecRbData1Read port, _ => ⟨_, exec_codecRbData1Read s port⟩
  | .zoneRowSolve, _ => ⟨_, exec_zoneRowSolve s⟩
  | .pcapWrite port w, _ => ⟨_, exec_pcapWrite s port w⟩
  | .classDataAccess port wr, _ => ⟨_, exec_classDataAccess s port wr⟩
  | .agDataAccess port wr, _ => ⟨_, exec_agDataAccess s port wr⟩
  | .agCommit port w, _ => ⟨_, exec_agCommit s port w⟩
  | .ageGainUpdate, _ => ⟨_, exec_ageGainUpdate s⟩
  | .lvDataRead port, _ => ⟨_, exec_lvDataRead s port⟩
  | .psfDataAccess port wr, _ => ⟨_, exec_psfDataAccess s port wr⟩
  | .psfCalc port w, _ => ⟨_, exec_psfCalc s port w⟩
  | .psfCalcDone, _ => ⟨_, exec_psfCalcDone s⟩
  | .clipDataRead port, _ => ⟨_, exec_clipDataRead s port⟩
  | .celllutDataAccess port wr, _ => ⟨_, exec_celllutDataAccess s port wr⟩
  | .checkStart port w, _ => ⟨_, exec_checkStart s port w⟩
  | .checkDone, _ => ⟨_, exec_checkDone s⟩
  | .coarseSetLoad, _ => ⟨_, exec_coarseSetLoad s⟩
  | .defectDataAccess port wr, _ => ⟨_, exec_defectDataAccess s port wr⟩
  | .autoDataRead port, _ => ⟨_, exec_autoDataRead s port⟩
  | .autoCtlClr port w, _ => ⟨_, exec_autoCtlClr s port w⟩
  | .odDataAccess port wr, _ => ⟨_, exec_odDataAccess s port wr⟩
  | .odReinit port w, _ => ⟨_, exec_odReinit s port w⟩
  | .adcConversion code, _ => ⟨_, exec_adcConversion s code⟩
  | .thermRegionalUpdate, _ => ⟨_, exec_thermRegionalUpdate s⟩
  | .thermCommit port w, _ => ⟨_, exec_thermCommit s port w⟩
  | .regDataAccess port wr, _ => ⟨_, exec_regDataAccess s port wr⟩
  | .convDataAccess port wr, _ => ⟨_, exec_convDataAccess s port wr⟩
  | .dithDataAccess port wr, _ => ⟨_, exec_dithDataAccess s port wr⟩
  | .syncFrame delay, _ => ⟨_, exec_syncFrame s delay⟩
  | .syncApply row delay, _ => ⟨_, exec_syncApply s row delay⟩
  | .hcmdGo port w, _ => ⟨_, exec_hcmdGo s port w⟩
  | .safeLevelWrite port w, _ => ⟨_, exec_safeLevelWrite s port w⟩
  | .linkHoldWrite port w, _ => ⟨_, exec_linkHoldWrite s port w⟩
  | .edlPoll bus, _ => ⟨_, exec_edlPoll s bus⟩
  | .statusResponse bus bytes code, _ => ⟨_, exec_statusResponse s bus bytes code⟩
  | .faultsResponse bus bytes code, _ => ⟨_, exec_faultsResponse s bus bytes code⟩
  | .errcntResponse bus bytes code, _ => ⟨_, exec_errcntResponse s bus bytes code⟩
  | .readbackResponse bus bytes code, _ => ⟨_, exec_readbackResponse s bus bytes code⟩
  | .capsResponse bus bytes code, _ => ⟨_, exec_capsResponse s bus bytes code⟩
  | .noneResponse bus bytes code, _ => ⟨_, exec_noneResponse s bus bytes code⟩
  | .pollMiss bus codeErrs answered, _ => ⟨_, exec_pollMiss s bus codeErrs answered⟩
  | .edlTrainDone edlPort, _ => ⟨_, exec_edlTrainDone s edlPort⟩
  | .edlTrainTimeout edlPort, _ => ⟨_, exec_edlTrainTimeout s edlPort⟩
  | .edlTrainRetry edlPort, _ => ⟨_, exec_edlTrainRetry s edlPort⟩
  | .portRetrain port edlPort w, _ => ⟨_, exec_portRetrain s port edlPort w⟩
  | .edlEnum port w, _ => ⟨_, exec_edlEnum s port w⟩
  | .prbsBurst edlPort blocks, _ => ⟨_, exec_prbsBurst s edlPort blocks⟩
  | .groupBroadcast port group cmd w, _ => ⟨_, exec_groupBroadcast s port group cmd w⟩
  | .gateLine, _ => ⟨_, exec_gateLine s⟩
  | .panelOn port w, _ => ⟨_, exec_panelOn s port w⟩
  | .panelOff port w, _ => ⟨_, exec_panelOff s port w⟩
  | .powerOnStep, _ => ⟨_, exec_powerOnStep s⟩
  | .pgInRise, _ => ⟨_, exec_pgInRise s⟩
  | .pgFail, _ => ⟨_, exec_pgFail s⟩
  | .autoOn, _ => ⟨_, exec_autoOn s⟩
  | .powerOffStep, _ => ⟨_, exec_powerOffStep s⟩
  | .pfail, h => nomatch h
  | .regionAlloc port w, _ => ⟨_, exec_regionAlloc s port w⟩
  | .regionFree port w, _ => ⟨_, exec_regionFree s port w⟩
  | .regionReqDone, _ => ⟨_, exec_regionReqDone s⟩
  | .dramBeat engine handle ofs wr ecc word lat waiting, _ => ⟨_, exec_dramBeat s engine handle ofs wr ecc word lat waiting⟩
  | .c0Window, _ => ⟨_, exec_c0Window s⟩
  | .dramRefresh ch busy, _ => ⟨_, exec_dramRefresh s ch busy⟩
  | .mopSwitch, _ => ⟨_, exec_mopSwitch s⟩
  | .scrubPage corr unc, _ => ⟨_, exec_scrubPage s corr unc⟩
  | .retireDone, _ => ⟨_, exec_retireDone s⟩
  | .migrationTimeout engine handle ofs wr, _ => ⟨_, exec_migrationTimeout s engine handle ofs wr⟩
  | .fltResume port engine, _ => ⟨_, exec_fltResume s port engine⟩
  | .fltSkip port engine, _ => ⟨_, exec_fltSkip s port engine⟩
  | .fltAbort port engine, _ => ⟨_, exec_fltAbort s port engine⟩
  | .retireCmd port w, _ => ⟨_, exec_retireCmd s port w⟩
  | .bulkGo port w, _ => ⟨_, exec_bulkGo s port w⟩
  | .bulkDone, _ => ⟨_, exec_bulkDone s⟩
  | .bulkWinAccess port index wr, _ => ⟨_, exec_bulkWinAccess s port index wr⟩
  | .ownWrite port bank w, _ => ⟨_, exec_ownWrite s port bank w⟩
  | .handover bank cycles, _ => ⟨_, exec_handover s bank cycles⟩
  | .clearDone bank, _ => ⟨_, exec_clearDone s bank⟩
  | .winDataAccess port wr, _ => ⟨_, exec_winDataAccess s port wr⟩
  | .applyGo port w, _ => ⟨_, exec_applyGo s port w⟩
  | .validationDone, _ => ⟨_, exec_validationDone s⟩
  | .chipRevert port w, _ => ⟨_, exec_chipRevert s port w⟩
  | .guaranteeVoidWrite port w, _ => ⟨_, exec_guaranteeVoidWrite s port w⟩
  | .softRst port page w, _ => ⟨_, exec_softRst s port page w⟩
  | .lockWrite port page w, _ => ⟨_, exec_lockWrite s port page w⟩
  | .irqSet port page w, _ => ⟨_, exec_irqSet s port page w⟩
  | .irqPendWrite port page w, _ => ⟨_, exec_irqPendWrite s port page w⟩
  | .errCountRead port page, _ => ⟨_, exec_errCountRead s port page⟩
  | .read64Low port addr, _ => ⟨_, exec_read64Low s port addr⟩
  | .regWrite port addr w, _ => ⟨_, exec_regWrite s port addr w⟩
  | .spiWrite addr bytes, _ => ⟨_, exec_spiWrite s addr bytes⟩
  | .spiQwrite addr bytes, _ => ⟨_, exec_spiQwrite s addr bytes⟩
  | .spiRead addr n, _ => ⟨_, exec_spiRead s addr n⟩
  | .spiQread addr n, _ => ⟨_, exec_spiQread s addr n⟩
  | .spiStatus, _ => ⟨_, exec_spiStatus s⟩
  | .spiUnknownCommand code, _ => ⟨_, exec_spiUnknownCommand s code⟩
  | .i2cWrite addr bytes, _ => ⟨_, exec_i2cWrite s addr bytes⟩
  | .i2cRead addr n, _ => ⟨_, exec_i2cRead s addr n⟩
  | .i2cTimeout, _ => ⟨_, exec_i2cTimeout s⟩
  | .tunnel lane block, _ => ⟨_, exec_tunnel s lane block⟩
  | .tunnelTimeout, _ => ⟨_, exec_tunnelTimeout s⟩
  | .ctlWdog, _ => ⟨_, exec_ctlWdog s⟩
  | .ctlRestart port w, _ => ⟨_, exec_ctlRestart s port w⟩
  | .ctlRestarted, _ => ⟨_, exec_ctlRestarted s⟩
  | .mboxNop, _ => ⟨_, exec_mboxNop s⟩
  | .mboxVersion, _ => ⟨_, exec_mboxVersion s⟩
  | .mboxEcho, _ => ⟨_, exec_mboxEcho s⟩
  | .mboxHostload, _ => ⟨_, exec_mboxHostload s⟩
  | .mboxReboot, _ => ⟨_, exec_mboxReboot s⟩
  | .mboxActivate, _ => ⟨_, exec_mboxActivate s⟩
  | .mboxCommit, _ => ⟨_, exec_mboxCommit s⟩
  | .mboxPawn, _ => ⟨_, exec_mboxPawn s⟩
  | .mboxSlotInfo, _ => ⟨_, exec_mboxSlotInfo s⟩
  | .mboxCoarseStore, _ => ⟨_, exec_mboxCoarseStore s⟩
  | .mboxAgeLoad, _ => ⟨_, exec_mboxAgeLoad s⟩
  | .mboxRingFormat, _ => ⟨_, exec_mboxRingFormat s⟩
  | .mboxUnknown, _ => ⟨_, exec_mboxUnknown s⟩
  | .presenceOpen, _ => ⟨_, exec_presenceOpen s⟩
  | .presenceExpire, _ => ⟨_, exec_presenceExpire s⟩
  | .presenceClose port w, _ => ⟨_, exec_presenceClose s port w⟩
  | .otpLockWrite port w, _ => ⟨_, exec_otpLockWrite s port w⟩
  | .xtalStable, _ => ⟨_, exec_xtalStable s⟩
  | .refclkWindow cycles, _ => ⟨_, exec_refclkWindow s cycles⟩
  | .pllLock pll, _ => ⟨_, exec_pllLock s pll⟩
  | .lockFail pll, _ => ⟨_, exec_lockFail s pll⟩
  | .xtalFail, _ => ⟨_, exec_xtalFail s⟩
  | .pixRefHold, _ => ⟨_, exec_pixRefHold s⟩
  | .lockLoss pll, _ => ⟨_, exec_lockLoss s pll⟩
  | .xtalLoss, _ => ⟨_, exec_xtalLoss s⟩
  | .clkCfgWrite port w, _ => ⟨_, exec_clkCfgWrite s port w⟩
  | .clkSwitchDone mux, _ => ⟨_, exec_clkSwitchDone s mux⟩
  | .swForced mux, _ => ⟨_, exec_swForced s mux⟩
  | .swFail mux, _ => ⟨_, exec_swFail s mux⟩
  | .swForcedWrite port w, _ => ⟨_, exec_swForcedWrite s port w⟩
  | .aonTrimWindow cycles, _ => ⟨_, exec_aonTrimWindow s cycles⟩
  | .clockGateClose page, _ => ⟨_, exec_clockGateClose s page⟩
  | .domainReqWrite port dom w, _ => ⟨_, exec_domainReqWrite s port dom w⟩
  | .domainDrainDone dom, _ => ⟨_, exec_domainDrainDone s dom⟩
  | .domainTransitionDone dom bad, _ => ⟨_, exec_domainTransitionDone s dom bad⟩
  | .domainAborted dom, _ => ⟨_, exec_domainAborted s dom⟩
  | .padRelease port w, _ => ⟨_, exec_padRelease s port w⟩
  | .opCfgWrite port w, _ => ⟨_, exec_opCfgWrite s port w⟩
  | .vserWrite port w, _ => ⟨_, exec_vserWrite s port w⟩
  | .avsPoll mv crcErr, _ => ⟨_, exec_avsPoll s mv crcErr⟩
  | .avsFail nak, _ => ⟨_, exec_avsFail s nak⟩
  | .gpioWakeEdge gpio, _ => ⟨_, exec_gpioWakeEdge s gpio⟩
  | .aonAlarm, _ => ⟨_, exec_aonAlarm s⟩
  | .alarmWrite port high w, _ => ⟨_, exec_alarmWrite s port high w⟩
  | .wakeCauseWrite port w, _ => ⟨_, exec_wakeCauseWrite s port w⟩
  | .powerOnMinTick, _ => ⟨_, exec_powerOnMinTick s⟩
  | .supplyMonitorTrip _, h => nomatch h
  | .powerOnReset, h => nomatch h
  | .resetNLow, h => nomatch h
  | .resetNRise _, h => nomatch h
  | .nvAppend port wpN w, _ => ⟨_, exec_nvAppend s port wpN w⟩
  | .nvRead port w, _ => ⟨_, exec_nvRead s port w⟩
  | .nvDelete port wpN w, _ => ⟨_, exec_nvDelete s port wpN w⟩
  | .rawRead port w, _ => ⟨_, exec_rawRead s port w⟩
  | .nvProgram port wpN jmpN w, _ => ⟨_, exec_nvProgram s port wpN jmpN w⟩
  | .erase4k port wpN jmpN w, _ => ⟨_, exec_erase4k s port wpN jmpN w⟩
  | .erase64k port wpN jmpN w, _ => ⟨_, exec_erase64k s port wpN jmpN w⟩
  | .flashOpDone wpN, _ => ⟨_, exec_flashOpDone s wpN⟩
  | .flashTimeout, _ => ⟨_, exec_flashTimeout s⟩
  | .nvSave port wpN w, _ => ⟨_, exec_nvSave s port wpN w⟩
  | .nvScan wpN, _ => ⟨_, exec_nvScan s wpN⟩
  | .bufDataAccess port wr, _ => ⟨_, exec_bufDataAccess s port wr⟩
  | .ageDataRead port, _ => ⟨_, exec_ageDataRead s port⟩
  | .bootAttempt jedec, _ => ⟨_, exec_bootAttempt s jedec⟩
  | .dramTrainDone mask, _ => ⟨_, exec_dramTrainDone s mask⟩
  | .bootOk w, _ => ⟨_, exec_bootOk s w⟩
  | .bootTimeout, _ => ⟨_, exec_bootTimeout s⟩
  | .sramTurn result, _ => ⟨_, exec_sramTurn s result⟩
  | .dramTurn result, _ => ⟨_, exec_dramTurn s result⟩
  | .lutTurn result, _ => ⟨_, exec_lutTurn s result⟩
  | .perturbWrite port off w, _ => ⟨_, exec_perturbWrite s port off w⟩
  | .perturbStop port w, _ => ⟨_, exec_perturbStop s port w⟩
  | .extest _ _, h => nomatch h
  | .samplePreload _ _, h => nomatch h
  | .idcode _, h => nomatch h
  | .clamp _, h => nomatch h
  | .highz _, h => nomatch h
  | .extestPulse _ _, h => nomatch h
  | .extestTrain _ _, h => nomatch h
  | .runbist _, h => nomatch h
  | .bistDone _ _, h => nomatch h
  | .bypass _ _, h => nomatch h
  | .tapReset, h => nomatch h
  | .casFsync lane block, _ => ⟨_, exec_casFsync s lane block⟩
  | .casSeam lane block bytes, _ => ⟨_, exec_casSeam s lane block bytes⟩
  | .casPos lane block, _ => ⟨_, exec_casPos s lane block⟩
  | .casTrainRetry lane, _ => ⟨_, exec_casTrainRetry s lane⟩
  | .ledStatToggle, _ => ⟨_, exec_ledStatToggle s⟩
  | .bcRxLock inverted, _ => ⟨_, exec_bcRxLock s inverted⟩
  | .pwrFailNHigh, h => nomatch h
  | .supplyBackInRange _, h => nomatch h
  | .blPwmPulse, _ => ⟨_, exec_blPwmPulse s⟩
  | .fsyncOutPulseEnd, _ => ⟨_, exec_fsyncOutPulseEnd s⟩
  | .hcmdDone, _ => ⟨_, exec_hcmdDone s⟩

end Sys2Proof.Machine
end

