-- ==== Sys2Proof/Laws/Memory.lean ====
section
/-! SUPPORT. The canonical form of the memories: reset has it, and every operation that changes a memory keeps it. -/

namespace Sys2Proof.Machine

theorem Memory.wf_iff (s : State) : Memory.wf s = true ↔ Cells.wf s.dramInit s.dram = true ∧
    Cells.wf (sramDefault s.mem.bankGens) s.sram = true ∧ Cells.wf flashDefault s.nv.flash = true := by
  simp [Memory.wf, and_assoc]

theorem Memory.wf_reset : Memory.wf State.reset = true := rfl

/-- Whatever leaves the memories and their generations alone keeps the form. -/
theorem Memory.wf_congr {s t : State} (h : Memory.wf s = true) (hd : t.dram = s.dram) (hs : t.sram = s.sram)
    (hf : t.nv.flash = s.nv.flash) (hg : t.mem.dramGen = s.mem.dramGen) (hp : t.mem.pageGens = s.mem.pageGens)
    (hb : t.mem.bankGens = s.mem.bankGens) : Memory.wf t = true := by
  unfold Memory.wf State.dramInit at *
  rw [hd, hs, hf, hg, hp, hb]
  exact h

/-! The DRAM. -/

/-- A write changes its bytes and no other. -/
theorem State.dramByte_dramWrite (s : State) (pa : Nat) (l : List Byte) (a : Nat) :
    (s.dramWrite pa l).dramByte a = if pa ≤ a ∧ a < pa + l.length then l.getD (a - pa) 0 else s.dramByte a := by
  change Cells.get s.dramInit (Cells.putRun s.dramInit s.dram pa l) a = _
  rw [Cells.get_putRun]
  split
  · rename_i h
    have : a - pa < l.length := by omega
    simp [List.getD, this]
  · rfl

/-- A read is of the bytes one by one. -/
theorem State.dramRead_eq (s : State) (pa n : Nat) : s.dramRead pa n = (List.range n).map (fun i => s.dramByte (pa + i)) :=
  Cells.window_eq s.dramInit s.dram pa n

theorem Memory.wf_dramWrite {s : State} (h : Memory.wf s = true) (pa : Nat) (l : List Byte) :
    Memory.wf (s.dramWrite pa l) = true := by
  rw [Memory.wf_iff] at *
  exact ⟨Cells.wf_putRun _ s.dram pa l h.1, h.2⟩

/-- Outside a page the default is the same, whatever the page's generation. -/
theorem dramDefault_other (g : Nat) (gens gens' : Cells Nat) (p a : Nat) (ha : ¬(p * 65536 ≤ a ∧ a < p * 65536 + 65536))
    (hg : ∀ j, j ≠ p → Cells.get (fun _ => 0) gens' j = Cells.get (fun _ => 0) gens j) :
    dramDefault g gens' a = dramDefault g gens a := by
  have : a / 65536 ≠ p := by omega
  unfold dramDefault
  rw [hg _ this]

/-- A page whose contents are lost (R463). -/
theorem Memory.wf_pageLost {s : State} (h : Memory.wf s = true) (p : Nat) : Memory.wf (s.pageLost p) = true := by
  rw [Memory.wf_iff] at *
  refine ⟨?_, h.2⟩
  have h1 := h.1
  rw [Cells.wf_iff] at *
  refine ⟨h1.1.filter _, fun e he => ?_⟩
  obtain ⟨hm, ho⟩ := List.mem_filter.1 he
  have hk : ¬(p * 65536 ≤ e.1 ∧ e.1 < p * 65536 + 65536) := by
    intro hc
    simp [hc.1, hc.2] at ho
  have := dramDefault_other s.mem.dramGen s.mem.pageGens (Cells.set (fun _ => 0) s.mem.pageGens p (s.fresh + 1)) p e.1 hk
    (fun j hj => Cells.get_set_other (fun _ => 0) s.mem.pageGens p _ j (Ne.symm hj))
  exact fun hc => h1.2 e hm (hc.trans this)

/-- The DRAM loses its contents. -/
theorem Memory.wf_dramLost {s t : State} (h : Memory.wf s = true) (hd : t.dram = []) (hs : t.sram = s.sram)
    (hf : t.nv.flash = s.nv.flash) (hb : t.mem.bankGens = s.mem.bankGens) : Memory.wf t = true := by
  rw [Memory.wf_iff] at *
  rw [hd, hs, hf, hb]
  exact ⟨rfl, h.2⟩

/-! The SRAM banks. -/

theorem State.sramRd_sramWr (s : State) (b k : Nat) (v : Word) (c j : Nat) (hk : k < 131072) (hj : j < 131072) :
    (s.sramWr b k v).sramRd c j = if b = c ∧ k = j then v else s.sramRd c j := by
  simp only [State.sramRd, State.sramWr, Cells.get_set, sramKey]
  by_cases h : b = c ∧ k = j
  · rw [if_pos h, if_pos (by rw [h.1, h.2])]
  · rw [if_neg h, if_neg (by omega)]

theorem Memory.wf_sramWr {s : State} (h : Memory.wf s = true) (bank word : Nat) (v : Word) :
    Memory.wf (s.sramWr bank word v) = true := by
  rw [Memory.wf_iff] at *
  exact ⟨h.1, Cells.wf_set _ s.sram _ v h.2.1, h.2.2⟩

theorem Memory.wf_sramPut {s : State} (h : Memory.wf s = true) (bank word : Nat) (l : List Word) :
    Memory.wf (s.sramPut bank word l) = true := by
  rw [Memory.wf_iff] at *
  exact ⟨h.1, Cells.wf_putRun _ s.sram _ l h.2.1, h.2.2⟩

/-- Outside the words of a bank the default is the same, whatever the bank's generation. -/
theorem sramDefault_other (gens gens' : Cells Nat) (bank k : Nat) (hk : ¬(sramKey bank 0 ≤ k ∧ k < sramKey bank 0 + 131072))
    (hg : ∀ j, j ≠ bank → Cells.get (fun _ => 0) gens' j = Cells.get (fun _ => 0) gens j) :
    sramDefault gens' k = sramDefault gens k := by
  have : k / 131072 ≠ bank := by unfold sramKey at hk; omega
  unfold sramDefault
  rw [hg _ this]

/-- Clearing a bank's words and changing its generation alone keeps the form. -/
theorem Cells.wf_bank (m : Cells Word) (gens gens' : Cells Nat) (bank : Nat) (h : Cells.wf (sramDefault gens) m = true)
    (hg : ∀ j, j ≠ bank → Cells.get (fun _ => 0) gens' j = Cells.get (fun _ => 0) gens j) :
    Cells.wf (sramDefault gens') (Cells.clearRange m (sramKey bank 0) 131072) = true := by
  rw [Cells.wf_iff] at *
  refine ⟨h.1.filter _, fun e he => ?_⟩
  obtain ⟨hm, ho⟩ := List.mem_filter.1 he
  have hk : ¬(sramKey bank 0 ≤ e.1 ∧ e.1 < sramKey bank 0 + 131072) := by
    intro hc
    simp [hc.1, hc.2] at ho
  rw [sramDefault_other gens gens' bank e.1 hk hg]
  exact h.2 e hm

theorem Memory.wf_sramGen {s : State} (h : Memory.wf s = true) (bank g : Nat) : Memory.wf (s.sramGen bank g) = true := by
  rw [Memory.wf_iff] at *
  exact ⟨h.1, Cells.wf_bank s.sram _ _ bank h.2.1
    (fun j hj => Cells.get_set_other (fun _ => 0) s.mem.bankGens bank g j (Ne.symm hj)), h.2.2⟩

theorem Memory.wf_sramZero {s : State} (h : Memory.wf s = true) (bank : Nat) : Memory.wf (s.sramZero bank) = true :=
  Memory.wf_sramGen h bank 1

theorem Memory.wf_sramLost {s : State} (h : Memory.wf s = true) (bank : Nat) : Memory.wf (s.sramLost bank) = true :=
  Memory.wf_congr (Memory.wf_sramGen h bank (s.fresh + 2)) rfl rfl rfl rfl rfl rfl

/-- The SRAM as a reset other than a power-on reset leaves it: B35 in its reset contents, the other banks as they were. -/
theorem Cells.wf_bank35 (m : Cells Word) (gens : Cells Nat) (h : Cells.wf (sramDefault gens) m = true) :
    Cells.wf (sramDefault (Cells.erase gens 35)) (Cells.clearRange m (sramKey 35 0) (sramKey 36 0 - sramKey 35 0)) = true :=
  Cells.wf_bank m gens _ 35 h (fun j hj => Cells.get_erase (fun _ => 0) gens 35 j (Ne.symm hj))

/-! The flash. -/

theorem Memory.wf_flashPut {s : State} (h : Memory.wf s = true) (a : Nat) (l : List Byte) :
    Memory.wf (s.flashPut a l) = true := by
  rw [Memory.wf_iff] at *
  refine ⟨h.1, h.2.1, ?_⟩
  have fold : ∀ (l : List (Byte × Nat)) (m : Cells Byte), Cells.wf flashDefault m = true →
      Cells.wf flashDefault (l.foldl (fun m e => Cells.set flashDefault m ((a + e.2) % flashSize)
        (Cells.get flashDefault m ((a + e.2) % flashSize) &&& e.1)) m) = true := by
    intro l
    induction l with
    | nil => exact fun m hm => hm
    | cons e l ih => exact fun m hm => ih _ (Cells.wf_set _ m _ _ hm)
  exact fold l.zipIdx s.nv.flash h.2.2

theorem Memory.wf_flashErase {s : State} (h : Memory.wf s = true) (a n : Nat) : Memory.wf (s.flashErase a n) = true := by
  rw [Memory.wf_iff] at *
  exact ⟨h.1, h.2.1, Cells.wf_clearRange _ s.nv.flash _ n h.2.2⟩

end Sys2Proof.Machine
end

