-- ==== Sys2Proof/Tests/Slice0.lean ====
section
/-! SUPPORT. Tests: ill-formed commands are refused by the check, single commands do what the spec's words and examples
say, and every statement's hypotheses are met together by some state. -/

open Sys2Proof Sys2Proof.Machine

namespace Sys2Proof.Tests

-- One proof after the other: side by side, their kernel evaluations take too many threads.
set_option Elab.async false

/-! Helpers. -/

/-- The state after a command. -/
def after : Result → State
  | .next t => t
  | _ => State.reset

/-- Commands one after the other. -/
def runAll (s : State) (l : List Instr) : State := l.foldl (fun s c => after (exec c s)) s

/-- The machine right after reset, which every test starts from. -/
def live : State := State.reset

/-- An active (/F) word set. -/
def setA (s : State) (a : Nat) (w : Word) : State := { s with act := Cells.set resetWord s.act a w }

/-- The lanes of a list are in L0, on their links. -/
def carrying (s : State) (lanes : List Nat) : State :=
  lanes.foldl (fun s l => (s.setLane l { s.lane l with proto := 0 }).put (Reg.PHY_LSTATE_CUR (phyBase l)) 0) s

/-- `State.Serves`, computed. -/
def serves (s : State) (u : Machine.Unit) (p : Nat) : Bool :=
  !s.boot.resetLow && unitOfPage p == some u && s.rd (Reg.HDR_LOCK (hdrPage p)) == 0 && !s.gateClosed p &&
    s.unitPowered u p && !s.regClockBad u

theorem serves_iff (s : State) (u : Machine.Unit) (p : Nat) : s.Serves u p ↔ serves s u p = true := by
  simp only [serves, Bool.and_eq_true, Bool.not_eq_true', beq_iff_eq]
  exact ⟨fun h => ⟨⟨⟨⟨⟨h.live, h.unit⟩, h.unlocked⟩, h.gate⟩, h.power⟩, h.clock⟩,
    fun h => ⟨h.1.1.1.1.1, h.1.1.1.1.2, h.1.1.1.2, h.1.1.2, h.1.2, h.2⟩⟩


/-! Ill-formed commands: one at least for each kind of check, which the check refuses; at the bounds it does not. -/

theorem test_ports_checked : [Instr.esStart 4 0 0, .prbsWrite 0 106 0, .cntClr 0 4096 0 0, .cntClr 0 0 4096 0,
    .softRst 4 0 0, .lockWrite 0 4096 0, .errCountRead 4 0, .read64Low 0 16777216, .regWrite 0 16777216 0,
    .regWrite 4 0 0].all (fun c => !c.wf) = true := by decide

theorem test_lanes_checked : [Instr.rxBlock 106 0 0, .rxBlock 0 4 0, .laneTransitionDone 106, .eiDetect 106,
    .dfeUpdate 106 false 0].all (fun c => !c.wf) = true := by decide

theorem test_links_checked : [Instr.alnRow 5 [] [], .ts1Block 5 [] 0, .trainPhaseTimeout 5, .eqPresetMeasure 5 []].all
    (fun c => !c.wf) = true := by decide

theorem test_memory_operands_checked : [Instr.dramBeat 16 0 0 none 0 0 0 [], .dramBeat 0 64 0 none 0 0 0 [],
    .dramRefresh 32 false, .migrationTimeout 16 0 0 none, .fltSkip 0 16, .bulkWinAccess 0 512 none, .handover 48 []].all
    (fun c => !c.wf) = true := by decide

theorem test_panel_operands_checked : [Instr.edlPoll 16, .noneResponse 16 [] 0, .statusResponse 16 [] 0, .edlTrainDone 64,
    .groupBroadcast 0 16 false 0, .bfiDarkBand 128 0, .syncApply 128 0, .adcConversion 4096].all
    (fun c => !c.wf) = true := by decide

theorem test_device_operands_checked : [Instr.pllLock 6, .clkSwitchDone 4, .clockGateClose 4096, .domainDrainDone 95,
    .gpioWakeEdge 4, .resetNRise 16, .bootAttempt 16777216, .dramTrainDone 8, .sramTurn 3, .perturbWrite 0 4096 0,
    .bistDone false 256, .bypass 256 [], .casPos 4 [], .spiUnknownCommand 256, .spiRead 16777216 0, .tunnel 4 []].all
    (fun c => !c.wf) = true := by decide

theorem test_bounds_are_well_formed : [Instr.rxBlock 105 3 0, .esStart 3 105 0, .cntClr 3 4095 4095 0,
    .dramBeat 15 63 0 none 0 0 0 [], .dramRefresh 31 true, .handover 47 [], .domainDrainDone 94, .edlTrainDone 63,
    .regWrite 3 16777215 0, .bootAttempt 16777215, .bypass 255 []].all (fun c => c.wf) = true := by decide

/-! How the links' bytes are read: the words are written out from the spec's tables. -/

/-- The check values of "CRCs" (R64), of the digits 1 to 9. -/
theorem test_crcs : let l : List Byte := [0x31, 0x32, 0x33, 0x34, 0x35, 0x36, 0x37, 0x38, 0x39]
    crc8 l = 0xF4 ∧ crc16 l = 0x29B1 ∧ crc32 l = 0xCBF43926 := by decide +kernel

/-- Byte i of a row is byte floor(i / N) of lane i mod N (R61). -/
theorem test_striping : destripe [[0, 3], [1, 4], [2, 5]] = [0, 1, 2, 3, 4, 5] := by decide

/-- A control block that fails its CRC-16 is not used, the copies that pass must agree, and a row has its body after CTYPE
and lane (R62, R65). -/
def wakeCopies : List (List Byte) := [ctlBlock 0x4B 0 [2, 1], (ctlBlock 0x4B 1 [2, 1]).set 3 9, ctlBlock 0x4B 2 [2, 1]]
theorem test_control_row : rowAccepted 3 wakeCopies = some (0x4B, [2, 1, 0, 0, 0, 0, 0, 0, 0, 0, 0, 0]) ∧
    rowAccepted 3 (wakeCopies.set 1 (ctlBlock 0x4B 1 [3, 1])) = none ∧ rowAccepted 1 [[]] = none := by decide +kernel

/-- A frame of the back-channel is TYPE, TAG, LEN, payload, CRC-16 (R77); a response of a return bus PID, TYPE, TAG, LEN,
payload, CRC-16 (R290). -/
theorem test_frames : bcFrame ([0x81, 7, 2, 0, 0xAA, 0xBB] ++ crc16Bytes [0x81, 7, 2, 0, 0xAA, 0xBB]) = some (0x81, 7, [0xAA, 0xBB]) ∧
    bcFrame [0x81, 7, 2, 0, 0xAA, 0xBB, 0, 0] = none ∧
    busFrame ([0x34, 0x02, 1, 9, 1, 0xCC] ++ crc16Bytes [0x34, 0x02, 1, 9, 1, 0xCC]) = some (0x234, 1, [0xCC]) := by decide +kernel

/-! What the spec's worked examples compute. -/

/-- The red subpixel of P1 under "The correction": scale step 192, code 52,580. -/
theorem test_patch_example : scaleStep 0x38 = 192 ∧ patchCode 4096 16384 57344 0xC17D (scaleStep 0x38) 52563 = 52580 := by
  decide

/-- The same subpixel in CELLLUT: two entries of the red table, drive 52,563. -/
def cellLoaded : State :=
  let s := setA live (Reg.HDR_CTRL 0x54) 7
  (s.setCellBank 0 ((s.cellBank 0).set linearEntry 465 (BitVec.ofNat 16 52480))).setCellBank 0
    (((s.cellBank 0).set linearEntry 465 (BitVec.ofNat 16 52480)).set linearEntry 466 (BitVec.ofNat 16 52612))
theorem test_cell_example : cellLoaded.cellCode 0 0x3A34 = 52563 := by decide +kernel

/-- "One pixel through both stages": the mono target and the colour cell's transmittances. -/
theorem test_split_example : targetPx 32 0x3480 0x3566 = 0x3B4E ∧ targetPx 32 0x3C00 0x3566 = 0x3C00 ∧
    (splitPx 0x1400 0x3BC0 0x3C00 0x3B80 true ⟨0x3400#16, 0x3200#16, 0x3000#16⟩ 0x3566 0x3BE4)
      = ⟨⟨0x3A34#16, 0x3882#16, 0x3669#16⟩, false, false⟩ := by decide +kernel

/-- "One pixel of P1, FORMAT 2, PRESET 3": c16, p, the entries, y_req. -/
theorem test_input_example : widen 2 2100 = 33608 ∧ eotfPos 33608 = 33609 ∧
    yReq 0x3C80 ⟨0x3271#16, 0x3271#16, 0x3271#16⟩ = 0x333F := by decide +kernel

/-- The dither example: 3,047 above the threshold, 3,046 below. -/
theorem test_dither_example : ditherCode 4 48745 6 = 3047 ∧ ditherCode 4 48745 9 = 3046 := by decide

/-- "Overdrive": temperature bin 3, weight 38; duration bin 1 at 240 Hz. -/
def odExample : State := (setA (setA live Reg.OD_DBIN0 (BitVec.ofNat 32 (3000 + 2 ^ 16 * 6000))) Reg.OD_DBIN1 12000#32)
theorem test_overdrive_bins : odExample.tempBin 504 = (3, 38) ∧ odExample.odDbin (4166670 * 256) = 1 := by decide +kernel

/-- Its drive of 48,745 from the eight entries of the example. -/
def odEntries : List (Nat × Nat × Nat × Nat) := [(3, 4, 9, 45200), (3, 4, 10, 50400), (3, 5, 9, 44100), (3, 5, 10, 49300),
  (4, 4, 9, 42600), (4, 4, 10, 47500), (4, 5, 9, 41900), (4, 5, 10, 46800)]
def odLoaded : State := odEntries.foldl (fun s x =>
    let e := odIndex 0 0 0 (((8 + x.1) * 17 + x.2.1) * 17 + x.2.2.1)
    let w := (s.sramRd 35 (e / 2)).toNat
    s.sramWr 35 (e / 2) (BitVec.ofNat 32 (if e % 2 = 0 then w / 65536 * 65536 + x.2.2.2 else w % 65536 + 65536 * x.2.2.2)))
  { odExample with od := { odExample.od with dbin := 1 } }
theorem test_overdrive_example : odLoaded.odLook 0 0 16448 40000 504 = 48745 := by decide +kernel

/-- "Block 0 of even line 100 on P1": MODE 2, 38 bytes that begin 00 0F FF FC. -/
theorem test_codec_example :
    let b := encodeBlock true false true false [] 3840 0
      (List.replicate 32 ⟨0x3000#16, 0x3000#16, 0x3000#16⟩ ++ List.replicate 32 ⟨0x3001#16, 0x3001#16, 0x3001#16⟩)
    b.mode = 2 ∧ b.data.length = 38 ∧ b.data.take 4 = [0x00, 0x0F, 0xFF, 0xFC] := by decide +kernel

/-- "Saves with FLASH_TPP at 400 µs": P1 and P3. -/
def zonesOf (rows cols : Nat) : State := (setA live Reg.ZONE_GRID (BitVec.ofNat 32 (cols + 2 ^ 8 * rows))).put Reg.NV_FLASH_CFG_FLASH_TPP 400
theorem test_save_example : ((zonesOf 54 96).savePages, (zonesOf 54 96).saveSectors, (zonesOf 54 96).saveUs) = (52, 4, 24800) ∧
    ((zonesOf 128 128).savePages, (zonesOf 128 128).saveSectors, (zonesOf 128 128).saveUs) = (140, 9, 60000) := by decide +kernel

/-- "PERIOD_MAX 50 ms and a source running at 15 Hz": two showings; REPEAT 5: five. -/
def paced (rep min max : Nat) : State := setA (setA (setA live Reg.TIMING_CFG (BitVec.ofNat 32 (16 * rep))) Reg.TIMING_PERIOD_MIN
  (BitVec.ofNat 32 min)) Reg.TIMING_PERIOD_MAX (BitVec.ofNat 32 max)
theorem test_repeat_example : ((paced 0 66666667 800000000).showings (66666667 * 256)).2 = 2 ∧
    ((paced 4 66666667 800000000).showings (41708333 * 256)).2 = 5 := by
  decide +kernel

/-- seed(0) and seed(15). -/
theorem test_seeds : (resetWord (Reg.PHY_SEED (phyBase (laneIsl 0)))).toNat % 2 ^ 23 = 0x0FF921 ∧
    (resetWord (Reg.PHY_SEED (phyBase (laneIsl 15)))).toNat % 2 ^ 23 = 0x0F6210 := by decide +kernel

/-- "One zone of P1": need 0x379C; with FRAC 0.75, 0x3880. -/
theorem test_stats_example :
    let a : ZoneAcc := ⟨6400, 0x3A00, List.replicate 11 0 ++ [1000, 5000, 360, 40, 0]⟩
    zoneNeed a 253 0x3800 = 0x379C ∧ zoneNeed a 253 0x3A00 = 0x3880 := by decide +kernel
/-! The hypotheses of the statements are met: the block, registers and ports. -/

theorem witness_StepRunsFront :
    ({ live with pending := [.c0Window, .idleRow []] } : State).pending = .c0Window :: [.idleRow []] := rfl

theorem witness_IdleStepIsOneTick : live.pending = [] ∧ live.clk.tbFrac < 2 ^ 32 ∧
    (live.rd Reg.AON_TIMEBASE).toNat + 2 ^ 32 * (live.rd Reg.AON_TIMEBASE_HI).toNat + 1 < 2 ^ 64 := by decide +kernel

theorem witness_StepKeepsQueueAndTime : ∃ t, step { live with pending := [.frameBoundary, .c0Window] } = .next t := ⟨_, rfl⟩

/-- A machine whose private TAP instructions are unlocked. -/
def unlocked : State := { live with regs := Cells.set resetWord live.regs Reg.TEST_UNLOCK 1 }

theorem witness_OnlyPrivateStops : ¬ Private .c0Window live ∧ unlocked.tapPrivate 0x80 = true ∧
    Private (.bypass 0x80 []) unlocked :=
  ⟨fun h => (by obtain ⟨_, _, h, _⟩ := h; cases h), by decide +kernel, ⟨0x80, [], rfl, by decide +kernel⟩⟩

def held : State := { live with boot := { live.boot with resetLow := true } }

theorem witness_HeldInReset : held.boot.resetLow = true ∧ actsInReset .frameBoundary = false := by decide +kernel

theorem witness_HeldQuietKept : held.boot.resetLow = true ∧ HeldQuiet held ∧
    ∃ t, step { held with pending := [.tapReset] } = .next t :=
  ⟨by decide +kernel, fun _ => by constructor <;> decide +kernel, ⟨_, rfl⟩⟩

theorem witness_MemoriesStayCanonical : Memory.wf (live.dramWrite 5 [1, 2]) = true ∧
    ∃ t, step { live.dramWrite 5 [1, 2] with pending := [.c0Window] } = .next t :=
  ⟨Memory.wf_dramWrite Memory.wf_reset 5 [1, 2], ⟨_, rfl⟩⟩

/-- A page is locked. -/
def locked (p : Nat) : State := live.wr (Reg.HDR_LOCK p) 1

theorem witness_LockStops :
    (live.boot.resetLow = false ∧ unitOfPage 0x30 = some .TIMING ∧ live.unitPowered .TIMING 0x30 = true ∧
      (5 : Word) ≠ 0x4C4F434B#32 ∧ (5 : Word) ≠ 0x554E4C4B#32) ∧
    (∀ off ∈ [0x000, 0x010, 0x024, 0x030, 0x040, 0xFFC], off < 0x1000 ∧ off % 4 = 0 ∧ off ≠ 0x014 ∧ off ≠ 0x018 ∧
      off ≠ 0x02C ∧ (locked 0x71).rd (Reg.HDR_LOCK (hdrPage 0x71)) ≠ 0 ∧ unitOfPage 0x71 = some .EDL_GRP) := by
  decide +kernel

theorem witness_PlainWritesStore : Machine.Unit.TIMING ∈ plainUnits ∧ live.Serves .TIMING 0x30 ∧
    (rowAt .TIMING 0x048).any (fun r => r.act == 0 && (r.rw != 0 || r.w1c != 0) && !r.p) = true := by
  simp only [serves_iff]; decide +kernel

/-- Offsets of a plain unit with an RO register and with no register. -/
theorem witness_ErrorsAreRecorded : (1 : Nat) < 2 ^ 32 ∧ Machine.Unit.TIMING ∈ plainUnits ∧ live.Serves .TIMING 0x30 ∧
    ((List.range 0x400).any (fun i => (rowAt .TIMING (4 * i)).any (fun r => r.rw == 0 && r.w1c == 0 && r.act == 0)) = true) ∧
    rowAt .TIMING 0xFFC = none ∧ rowAt .TIMING 0x030 = none := by
  simp only [serves_iff]; decide +kernel

theorem witness_ErrCountReadClears : live.boot.resetLow = false ∧ unitOfPage 0x30 = some .TIMING ∧
    live.unitPowered .TIMING 0x30 = true ∧ unitOfPage 0x90 = none ∧ unitOfPage 0x7FF = none := by decide +kernel

/-- A machine on which a port has read the low half of TIMEBASE. -/
def latched : State := after (exec (.read64Low 2 Reg.AON_TIMEBASE) live)

theorem witness_LowHalfLatches : isWide Reg.AON_TIMEBASE ∧ isWide (Reg.PHY_ES_UI (phyBase 0)) ∧ latched.Serves .AON 1 ∧
    latched.Serves .ISL_LANE (phyBase 0 / 0x1000) ∧
    Cells.get (fun _ => none) latched.host.latch 2 = some (Reg.AON_TIMEBASE + 4, 0) ∧
    Cells.get (fun _ => none) latched.host.latch 1 = none := by
  refine ⟨Or.inl rfl, Or.inr (Or.inr (Or.inr ⟨0, by decide +kernel, by decide +kernel, rfl⟩)), ?_⟩
  simp only [serves_iff]; decide +kernel

theorem witness_EventBits : live.boot.resetLow = false ∧ unitOfPage 0x30 = some .TIMING ∧
    live.unitPowered .TIMING 0x30 = true ∧ live.rd (Reg.HDR_LOCK (hdrPage 0x30)) = 0 ∧
    Machine.Unit.TIMING ≠ .EDL_GRP ∧ live.Serves .CHIP 0 := by simp only [serves_iff]; decide +kernel

theorem witness_SoftReset : live.Serves .SCHED 0x112 ∧ live.Serves .GENLOCK 0x31 := by simp only [serves_iff]; decide +kernel

/-- The reset configuration with its three frame slots in regions, and DRAM trained. -/
def fit : State :=
  { ((live.wr Reg.CODEC_SLOT0 0x100).wr Reg.CODEC_SLOT1 0x101).wr Reg.CODEC_SLOT2 0x102 |>.put Reg.MEMC_STATUS_TRAINED 7 with
    mem := { live.mem with regions := [⟨0, 3257, 0, true, false⟩, ⟨1, 3257, 3257, true, false⟩, ⟨2, 3257, 6514, true, false⟩] } }

/-- A machine with a set being validated that passes, and one with a set that does not. -/
def applying : State := after (exec (.applyGo 0 1) fit)
def misfit : State := after (exec (.applyGo 0 1) (live.wr Reg.TIMING_LINE_PERIOD 1))

theorem witness_ApplyAndRevert : live.Serves .CHIP 0 ∧ applying.Serves .CHIP 0 ∧ applying.chip.applying = some fit.shadows ∧
    applying.flag Reg.CHIP_APPLY_VALIDATING = true ∧ applying.pat.coarseDue = false ∧
    (applying.put Reg.CHIP_APPLY_VALIDATING 0).validate fit.shadows = none ∧
    misfit.chip.applying = some (live.wr Reg.TIMING_LINE_PERIOD 1).shadows ∧ misfit.flag Reg.CHIP_APPLY_VALIDATING = true ∧ misfit.pat.coarseDue = false ∧
    (misfit.put Reg.CHIP_APPLY_VALIDATING 0).validate (live.wr Reg.TIMING_LINE_PERIOD 1).shadows = some (1, 0x30, 0) ∧
    (1 : Word).toNat % 2 = 1 ∧ live.chip.applying = none ∧ Cells.wf resetWord live.act = true := by
  simp only [serves_iff]; decide +kernel
/-! Ports, the control core and the presence window. -/

/-- Accesses of the member window under way. -/
def tunnelled (port : Nat) : State := { live with cas := { live.cas with tunnels :=
  [{ tag := 5, port := port, addr := 0x40, since := 10, wr := none }, { tag := 6, port := 0, addr := 0x44, since := 50, wr := some 3 }] } }

theorem witness_SerialAccesses : live.boot.resetLow = false ∧ ([] : List Byte).length < 4 ∧ ([1, 2, 3] : List Byte).length < 4 ∧
    live.Serves .CHIP 0 ∧ Cells.get (fun _ => none) live.host.latch 0 = none ∧
    Cells.get (fun _ => none) live.host.latch 1 = none ∧ (∀ n ∈ [1, 3], 0 < n ∧ n < 4) ∧
    (tunnelled 1).boot.resetLow = false ∧ (tunnelled 1).cas.tunnels.length = 2 ∧
    (tunnelled 1).cas.tunnels.head?.map (fun q => (q.port, q.wr)) = some (1, none) ∧
    ((tunnelled 1).cas.tunnels.tail.all (fun x => x.tag != 5)) = true ∧
    (tunnelled 1).now ≤ 10 + 25600000 ∧ (tunnelled 0).now ≤ 10 + 512000000 := by simp only [serves_iff]; decide +kernel

/-- A member whose lanes to the west (2) and north (3) are up, or only one of them. -/
def west : State := carrying (live.put (casLaneFld 2) 2) [laneCasRx 2]
def north : State := carrying (live.put (casLaneFld 3) 2) [laneCasRx 3]

/-- TUNNEL blocks: a read of PRODUCT with a hop left, and one that has none; the reply to TAG 5. -/
def passing : List Byte := ctlBlock 0xC3 0 ([9, 1] ++ leBytes 3 0x40 ++ [1])
def reading : List Byte := ctlBlock 0xC3 0 ([9, 1] ++ leBytes 3 0x40 ++ [0])
def replying (hops : Byte) : List Byte := ctlBlock 0xC3 0 ([5, 3] ++ leBytes 3 0x40 ++ [hops] ++ leBytes 4 77)

/-- A whole block of a CTYPE with its fields (R65, R477). -/
theorem test_tunnel_blocks : blockGood passing = true ∧ byteAt passing 0 = rowTUNNEL ∧
    byteAt (blockBody passing).2 5 % 16 = 1 ∧ byteAt (blockBody passing).2 1 = 1 ∧ blockGood (replying 1) = true ∧
    byteAt (blockBody (replying 1)).2 1 = 3 ∧ leField (blockBody (replying 0)).2 6 4 = 77 ∧ blockGood reading = true ∧
    byteAt (blockBody reading).2 5 % 16 = 0 ∧ leField (blockBody reading).2 2 3 = 0x40 := by decide +kernel
def awaiting : State := { west with cas := { west.cas with tunnels := (tunnelled 0).cas.tunnels } }

theorem witness_WindowAndTunnel :
    (∀ a ∈ [0x800000, 0xFFFFFC], live.boot.resetLow = false ∧ 0x800000 ≤ a ∧ a < 0x1000000 ∧ a % 4 = 0) ∧
    live.rd (perPort 3 Reg.HOSTIF_TREE_SEL) = 0 ∧ north.boot.resetLow = false ∧ north.casUp 3 = true ∧
    north.casUp 2 = false ∧ 0 < 1 ∧ west.Serves .CHIP 0 ∧ west.casUp 2 = true ∧
    Cells.get (fun _ => none) west.host.latch 0 = none ∧ north.laneCarries (laneCasRx 3) = true ∧
    west.laneCarries (laneCasRx 2) = true ∧ awaiting.Serves .CHIP 0 ∧ awaiting.casUp 2 = true ∧
    awaiting.laneCarries (laneCasRx 2) = true ∧ awaiting.cas.tunnels.head?.map (fun q => (q.tag, q.port, q.wr)) = some (5, 0, none) ∧
    (0x40 : Nat) % 0x1000 ≠ 4 := by simp only [serves_iff]; decide +kernel

/-- The firmware runs, its services are to be had, and a command waits in the mailbox, with and without presence. -/
def running : State :=
  { live.put Reg.NV_STATUS_READY 1 with boot := { live.boot with phase := 3 }, nv := { live.nv with wpN := true } }
def boxed (c : Nat) : State := after (exec (.regWrite 2 Reg.CTL_MBOX_CMD (BitVec.ofNat 32 c)) running)
def present (s : State) : State :=
  let t := after (exec .presenceOpen s)
  { t with nv := { t.nv with todo := [] } }
def watched : State := running.put Reg.CTL_WDOG_EN 1

/-- A core that restarts from an image of no bytes. -/
def restarting : State :=
  let s := after (exec (.ctlRestart 0 0) running)
  { s with boot := { s.boot with img := some (0, crc32 [], 3) } }

theorem witness_CoreRestarts : running.Serves .CTL 9 ∧ running.fld Reg.CTL_STATE_STATE ≠ 2 ∧
    (boxed 2).Serves .CTL 9 ∧ (boxed 2).flag Reg.CTL_RSP_BUSY = true ∧
    watched.boot.resetLow = false ∧ watched.flag Reg.CTL_WDOG_EN = true ∧ watched.domOn 1 = true ∧
    watched.gateClosed 9 = false ∧ watched.fld Reg.CTL_STATE_STATE ≠ 2 ∧ watched.boot.phase = 3 ∧
    restarting.boot.resetLow = false ∧ restarting.fld Reg.CTL_STATE_STATE = 1 ∧ restarting.gateClosed 9 = false ∧
    (restarting.boot.phase = 2 ∨ restarting.boot.phase = 3) ∧ restarting.boot.img = some (0, crc32 [], 3) ∧
    crc32 (restarting.readB32 0) = crc32 [] := by simp only [serves_iff]; decide +kernel

theorem witness_MailboxServes : running.Serves .CTL 9 ∧ running.flag Reg.CTL_RSP_BUSY = false ∧
    (boxed 0).flag Reg.CTL_RSP_BUSY = true ∧ (boxed 0).boot.resetLow = false ∧ (boxed 0).mboxCode = some 0 ∧
    (boxed 0).mboxKnows 0 = true ∧ (boxed 2).mboxCode = some 2 ∧ (boxed 2).mboxKnows 2 = true ∧
    (boxed 0x99).mboxCode = some 0x99 ∧ (boxed 0x99).mboxKnows 0x99 = false ∧ (boxed 1).mboxCode = some 1 ∧
    (boxed 1).mboxKnows 1 = true ∧
    ({ boxed 1 with boot := { (boxed 1).boot with img := some (5, 6, 7) } } : State).boot.img = some (5, 6, 7) := by
  simp only [serves_iff]; decide +kernel

theorem witness_ServicesAct :
    (∀ c ∈ [0x12, 0x13, 0x14, 0x42], (boxed c).boot.resetLow = false ∧ (boxed c).mboxCode = some c ∧
      (boxed c).mboxKnows c = true ∧ (boxed c).presenceOpen = false) ∧
    ((boxed 0x11).mboxCode = some 0x11 ∧ (boxed 0x11).mboxKnows 0x11 = true) ∧
    ((present (boxed 0x14)).mboxCode = some 0x14 ∧ (present (boxed 0x14)).mboxKnows 0x14 = true ∧
      (present (boxed 0x14)).presenceOpen = true) ∧
    ((boxed 0x15).mboxCode = some 0x15 ∧ (boxed 0x15).mboxKnows 0x15 = true ∧ (boxed 0x15).mboxArg 0 ≤ 1) ∧
    ((present (boxed 0x42)).mboxCode = some 0x42 ∧ (present (boxed 0x42)).mboxKnows 0x42 = true ∧
      (present (boxed 0x42)).presenceOpen = true ∧ (present (boxed 0x42)).nvIdle = true ∧
      (present (boxed 0x42)).nv.wpN = true) := by decide +kernel

/-- A signed image of four bytes, its header in front, and the hash of the key that signed it. -/
def imageBytes : List Byte := leBytes 192
  0x70b7aa80d6608f819ddc7d760314550f256d1ae5771ff8f293c38fb372806e0270b7aa80d6608f819ddc7d760314550f256d1ae5771ff8f293c38fb372806e02118667899b2f68bfbc65dc9005e835ef064da6da07306ee48e23cd28dc1a62fc4818f1654d1ea9ad8df715df5474ec3052424776997ea119a689848760de8fb070b7aa80d6608f819ddc7d760314550f256d1ae5771ff8f293c38fb372806e020000000000000000000000002144df1c0000000000000004000000004d49474d
def imageKey : BitVec 256 := 0x8a1c881d1531fed32daaff79cce7e32d8b23d95f55056851b00a6f2ee6d2aff8
def imageRead (o n : Nat) : List Byte := if o = 0 then imageBytes.take n else List.replicate n 0

theorem test_image_is_good : (imageCheck (some imageKey) imageRead).code = 0 := by decide +kernel
/-- The image in slot 0, in B44, and a good coarse image in a region, each with the service that takes it. -/
def slotted (c : Nat) : State :=
  let s := present (boxed c)
  { s with
    boot := { s.boot with keyHash := some imageKey }
    nv := { s.nv with flash := Cells.putRun (fun _ => 0xFF) s.nv.flash (slotBase 0) (imageBytes ++ List.replicate 600 0#8) } }
def banked : State :=
  let s := boxed 0x10 |>.wr (Reg.CTL_ARG 0) 44
  { s with
    boot := { s.boot with keyHash := some imageKey } } |>.sramPut 44 0 ((chunks 4 (imageBytes ++ List.replicate 600 0#8)).map (fun b => BitVec.ofNat 32 (leVal b)))
def coarseHead : List Byte := leBytes 4 0x43504D31 ++ List.replicate 8 1 ++ leBytes 4 4 ++ List.replicate 44 2
def coarse : State := (boxed 0x40).regionAlloc ⟨3, false, 1, false, true, 0⟩ |>.wr (Reg.CTL_ARG 0) 0 |>.regionPut 0 0
  (coarseHead ++ leBytes 4 (crc32 (coarseHead ++ List.replicate 4 9)) ++ List.replicate 4 9)
def ages : State := (boxed 0x41).regionAlloc ⟨3, false, 1, false, true, 0⟩ |>.wr (Reg.CTL_ARG 0) 0

theorem witness_ServicesAct_hostload : banked.mboxCode = some 0x10 ∧ banked.mboxKnows 0x10 = true ∧ banked.mboxArg 0 = 44 ∧
    banked.bankOwner 44 = ownHost ∧ banked.bankOn 44 = true ∧
    (imageCheck banked.boot.keyHash (fun o n => banked.bankBytes 44 o n)).code = 0 := by decide +kernel

/-- MEMC has given the core a region, and the image of the slot fits into it. -/
def given : State :=
  let s := (slotted 0x12).put (Reg.BANKS_OWN_ACTIVE 33) ownAlloc
  let t := s.regionAlloc ⟨3, false, 1, false, true, 0⟩
  { t.wrN (perPort 3 Reg.REGION_RESULT) 2 with boot := { t.boot with ask := 1 } }

/-- What the core reads of a region. -/
def coreRead (s : State) (h ofs n : Nat) : State × Option (List Byte) :=
  let r := State.coreBeats h ((List.range ((ofs % 64 + n + 63) / 64)).map (fun i => ofs / 64 * 64 + 64 * i)) s
  (r.1, r.2.map (fun all => (all.drop (ofs % 64)).take n))

theorem witness_ServicesAct_given : given.mboxCode = some 0x12 ∧ given.mboxKnows 0x12 = true ∧ given.presenceOpen = true ∧
    given.mboxArg 0 = 0 ∧ (given.slotCheck 0).code = 0 ∧ given.boot.image = none ∧ given.boot.copyTo = none ∧
    given.dramReady = true ∧ given.boot.ask = 1 ∧ given.mem.queue = [] ∧
    given.rd (perPort 3 Reg.REGION_RESULT) = BitVec.ofNat 32 (2 + 256 * 0) ∧
    (({ given.slotCode 0 0 with boot := { (given.slotCode 0 0).boot with ask := 0 } } : State).storeRun 13 0 0
      (given.flashRd (slotBase 0) (512 + (given.slotCheck 0).len))).2 = 0 := by decide +kernel

theorem witness_ServicesAct_slots : (slotted 0x12).mboxCode = some 0x12 ∧ (slotted 0x12).mboxKnows 0x12 = true ∧
    (slotted 0x12).presenceOpen = true ∧ (slotted 0x12).mboxArg 0 = 0 ∧ ((slotted 0x12).slotCheck 0).code = 0 ∧
    (slotted 0x13).mboxCode = some 0x13 ∧
    (slotted 0x13).mboxKnows 0x13 = true ∧ (slotted 0x13).nvIdle = true ∧ (slotted 0x13).nv.wpN = true := by decide +kernel

theorem witness_ServicesAct_coarse : coarse.mboxCode = some 0x40 ∧ coarse.mboxKnows 0x40 = true ∧ coarse.mboxArg 0 = 0 ∧
    coarse.mboxArg 1 = 0 ∧ coarse.nvIdle = true ∧ coarse.nv.wpN = true ∧
    coarse.mem.halted = [] ∧ coarse.dramReady = true ∧ coarse.inRegion 0 0 = true ∧ coarse.inRegion 0 63 = true ∧
    (let r := coreRead coarse 0 0 64
     let head := r.2.getD []
     let n := leVal ((head.drop 12).take 4)
     let b := coreRead r.1 0 64 n
     r.2.isSome = true ∧ leVal (head.take 4) = 0x43504D31 ∧ n ≤ 8388544 ∧ r.1.inRegion 0 (0 + 63 + n) = true ∧
     r.1.mem.halted = [] ∧ r.1.dramReady = true ∧ b.2.isSome = true ∧
     crc32 (head.take 60 ++ b.2.getD []) = leVal (head.drop 60) ∧ b.1.nvIdle = true ∧ b.1.nv.wpN = true) ∧
    ages.mboxCode = some 0x41 ∧ ages.mboxKnows 0x41 = true ∧ ages.mboxArg 0 = 0 ∧ ages.mboxArg 1 = 0 ∧ ages.nvIdle = true ∧
    ages.mem.halted = [] ∧ ages.dramReady = true ∧ ages.inRegion 0 0 = true ∧ ages.inRegion 0 (0 + 32767) = true ∧
    (let r := coreRead ages 0 0 32768
     r.2.isSome = true ∧ r.1.nvIdle = true ∧ r.1.nv.wpN = true) := by decide +kernel

theorem witness_PresenceWindow : live.boot.resetLow = false ∧ live.gateClosed 5 = false ∧ live.domOn 0 = true ∧
    (present live).Serves .SEC 5 ∧ (present live).presenceOpen = true ∧ (present live).sec.window.isSome = true ∧
    (1 : Word).toNat % 2 = 1 ∧ (2 : Word).toNat % 2 = 0 := by simp only [serves_iff]; decide +kernel
/-! Serial lanes and the source link. -/

/-- A lane in L0 whose receiver adapts, and one whose adaptation is frozen, with a run of good windows. -/
def adapting (l : Nat) : State := (live.put (Reg.PHY_LSTATE_CUR (phyBase l)) 0).put (Reg.PHY_RXEQ_ADAPT_EN (phyBase l)) 1
def frozen (l run : Nat) : State :=
  let s := (adapting l).put (Reg.PHY_RXSTAT_FROZEN (phyBase l)) 1
  s.setLane l { s.lane l with goodRun := run }

/-- A lane in a transition, and one with a target that waits for it. -/
def moving : State :=
  let s := live.put (Reg.PHY_LSTATE_CUR (phyBase 3)) 0
  after (exec (.lstateReqWrite 0 3 1) (s.setLane 3 { s.lane 3 with proto := 0 }))
def waiting : State := after (exec (.lstateReqWrite 0 3 2) moving)

theorem witness_LaneTargets : (3 < 106 ∧ 105 < 106) ∧ live.Serves .ISL_LANE (phyBase 3 / 0x1000) ∧
    live.Serves .CAS (phyBase 105 / 0x1000) ∧ (live.lane 3).trans = none ∧ live.laneTarget 3 = live.laneCur 3 ∧
    (moving.lane 3).trans = some 1 ∧ moving.Serves .ISL_LANE (phyBase 3 / 0x1000) ∧ (moving.lane 3).pend = none ∧
    moving.laneTarget 3 = (moving.lane 3).pend.getD 1 ∧ (waiting.lane 3).trans = some 1 ∧ (waiting.lane 3).pend = some 2 ∧
    waiting.boot.resetLow = false := by simp only [serves_iff]; decide +kernel

theorem witness_ReceiversReport : live.boot.resetLow = false ∧ laneHasDfe 0 = true ∧ laneHasDfe 105 = true ∧
    (adapting 0).boot.resetLow = false ∧ (adapting 0).laneCarries 0 = true ∧
    laneIsRx 0 = true ∧ laneIsRx 96 = true ∧ (0 : Nat) ≠ laneBcRx ∧ live.isl.hold = false ∧
    ((((3 : Nat) != 1 && (3 : Nat) != 2) :: List.replicate 15 true).take 64 |>.filter id).length = 16 := by decide +kernel

theorem witness_TapsAdapt : (31 < 2 ^ 6 ∧ sext 6 31 ≠ -(2 ^ 5)) ∧ (129 < 2 ^ 8 ∧ sext 8 129 ≠ -(2 ^ 7)) ∧
    laneHasDfe 105 = true ∧ (adapting 105).boot.resetLow = false ∧ (adapting 105).laneInL0 105 = true ∧
    (adapting 105).flag (Reg.PHY_RXEQ_ADAPT_EN (phyBase 105)) = true ∧
    (adapting 105).flag (Reg.PHY_RXSTAT_FROZEN (phyBase 105)) = false ∧ live.laneInL0 105 = false ∧
    (∀ n ∈ [14, 15], (frozen 105 n).laneInL0 105 = true ∧ (frozen 105 n).flag (Reg.PHY_RXSTAT_FROZEN (phyBase 105)) = true ∧
      ((frozen 105 n).lane 105).goodRun = n) ∧
    (adapting 105).Serves .CAS (phyBase 105 / 0x1000) := by simp only [serves_iff]; decide +kernel

/-- A scan runs; a PRBS checker is enabled. -/
def scanning : State := after (exec (.esStart 0 0 1) (adapting 0))
def checking : State := (adapting 0).put (Reg.PHY_PRBS_CHK_EN (phyBase 0)) 1

theorem witness_ScansAndTests : laneIsRx 0 = true ∧ live.Serves .ISL_LANE (phyBase 0 / 0x1000) ∧
    live.flag (Reg.PHY_ES_STATUS_BUSY (phyBase 0)) = false ∧ scanning.Serves .ISL_LANE (phyBase 0 / 0x1000) ∧
    scanning.flag (Reg.PHY_ES_STATUS_BUSY (phyBase 0)) = true ∧ scanning.boot.resetLow = false ∧
    checking.boot.resetLow = false ∧ checking.flag (Reg.PHY_PRBS_CHK_EN (phyBase 0)) = true ∧
    checking.laneInL0 0 = true ∧ checking.looped 0 1 = false := by
  simp only [serves_iff]; decide +kernel

/-- An EDL forward lane in L0; a held value of SPREAD. -/
def edlActive : State := live.put (Reg.PHY_LSTATE_CUR (phyBase (laneEdl 63))) 0
def spreadHeld : State := { live with phy := { live.phy with spreadPend := some 3 } }

theorem witness_SpreadWaits : edlActive.Serves .EDL 0x70 ∧ edlActive.anyEdlL0 = true ∧
    Reg.EDL_REFCFG_SPREAD.get (BitVec.ofNat 32 0xFFFFFFFF) ≠ edlActive.fld Reg.EDL_REFCFG_SPREAD ∧
    live.Serves .EDL 0x70 ∧ live.anyEdlL0 = false ∧ spreadHeld.boot.resetLow = false ∧
    spreadHeld.phy.spreadPend = some 3 ∧ spreadHeld.phy.enPend = none ∧ spreadHeld.anyEdlL0 = false := by
  simp only [serves_iff]; decide +kernel

theorem witness_CountersClear : live.Serves .TIMING 0x30 ∧ hdrPage 0x30 = 0x30 ∧
    0x30 < Machine.Unit.TIMING.page + Machine.Unit.TIMING.count ∧ (cntClrOffset .TIMING).isSome = true ∧
    Machine.Unit.TIMING ≠ .TEST := by simp only [serves_iff]; decide +kernel
/-- The source link in a state, on a number of lanes (a code), the source's READY received where it trains. -/
def link (n : Nat) (l : Nat := 2) : State :=
  let s := carrying ((live.put Reg.ISL_LINK_STATE_STATE n).put Reg.ISL_LINK_STATE_LANES l) (List.range 16)
  { s with isl := { s.isl with ready := if n = 5 then 2 else 0 } }

/-- A control row on four lanes: the same CTYPE and body on each (R62, R65). -/
def row (ctype : Nat) (body : List Byte) : List (List Byte) := (List.range 4).map (fun k => ctlBlock ctype k body)
/-- The rows of R66's table: a pip of frame 77 with its PERIOD and FLAGS, a REGION, a META, a SLEEP and a WAKE. -/
def pipOf (flags : Nat) : List (List Byte) := row 0x2D (leBytes 4 77 ++ leBytes 4 1234567 ++ leBytes 2 flags)
def regionOf (x y w h flush : Nat) : List (List Byte) :=
  row 0x55 (leBytes 2 x ++ leBytes 2 y ++ leBytes 2 w ++ leBytes 2 h ++ leBytes 1 flush)
def mixed : List (List Byte) := (row 0x1E []).set 2 (ctlBlock 0x33 2 [])
def torn : List (List Byte) := ((row 0x1E []).set 1 []).set 3 []

theorem witness_ControlRows : (link 6).boot.resetLow = false ∧ (link 6).rowsRun = true ∧ (link 6).gateClosed 0x10 = false ∧
    rowAccepted (link 6).islLanes mixed = none ∧ rowAccepted (link 6).islLanes [[], [], [], []] = none ∧
    (rowAccepted (link 6).islLanes (row 0xD2 [])).map (·.1) = some 0xD2 ∧ 0xD2 ∉ rowTypes ∧
    (rowAccepted (link 6).islLanes torn).map (·.1) = some rowIDLE ∧ (link 6).isl.misrun < 3 ∧ 3 ≤ (2 + 1) ∧
    (link 6).link = lkUP := by decide +kernel

/-- Of an accepted row: its CTYPE, and a field of its body. -/
def rowField (s : State) (copies : List (List Byte)) (i n : Nat) : Option (Nat × Nat) :=
  (rowAccepted s.islLanes copies).map (fun r => (r.1, leField r.2 i n))
def onS1 : State := (link 7).put Reg.ISL_EQ_CFG_FAST_WAKE 1

theorem witness_SleepAndWake : (link 6).boot.resetLow = false ∧ (∀ n ∈ [5, 6, 7], (link n).rowsRun = true ∧
      rowField (link n) (pipOf 4) 0 4 = some (rowPIP, 77) ∧ rowField (link n) (row 0x33 [1]) 0 1 = some (rowSLEEP, 1) ∧
      rowField (link n) (row 0x33 [2]) 0 1 = some (rowSLEEP, 2) ∧ rowField (link n) (row 0x33 [3]) 0 1 = some (rowSLEEP, 3)) ∧
    (link 6).link = lkUP ∧ (link 5).link = lkREADY ∧ (link 7).link = lkS1 ∧
    (link 6).srf.host = false ∧ (link 7).srf.host = false ∧ (link 6).gateClosed 0x10 = false ∧ (link 7).gateClosed 0x10 = false ∧
    onS1.link = lkS1 ∧ onS1.rowsRun = true ∧ onS1.flag Reg.ISL_EQ_CFG_FAST_WAKE = true ∧
    rowField onS1 (row 0x4B [4, 7]) 0 2 = some (rowWAKE, 4 + 2 ^ 8 * 7) ∧
    rowField onS1 (row 0x4B [5, 7]) 0 1 = some (rowWAKE, 5) ∧ rowField onS1 (row 0x4B [4, 8]) 1 1 = some (rowWAKE, 8) ∧
    (link 6).link ≠ lkS1 := by decide +kernel

/-- A source frame that a pip has opened, whole (flags 0) or partial (flags 4). -/
def framed (flags : Nat) : State :=
  after (execPip 5000 (pipOf flags) (setA (link 6) Reg.CODEC_CFG (live.rdA Reg.CODEC_CFG ||| 0xFFF#32)))
def metaFull : State := (List.range 8).foldl (fun s _ => after (execMetaRow (row 0x99 [1, 2]) s)) (framed 0)

theorem witness_RegionsAndMetas : (framed 4).boot.resetLow = false ∧ (framed 4).rowsRun = true ∧ (framed 4).link = lkUP ∧
    (∀ x ∈ [(regionOf 8 9 16 17 0, 0), (regionOf 8 9 16 17 1, 1)], rowField (framed 4) x.1 4 2 = some (rowREGION, 16) ∧
      rowField (framed 4) x.1 8 1 = some (rowREGION, x.2) ∧ rowField (framed 0) x.1 4 2 = some (rowREGION, 16) ∧
      rowField (link 7) x.1 4 2 = some (rowREGION, 16)) ∧
    (framed 4).isl.frame.map (fun f => (f.part, f.opened, f.declared)) = some (true, false, 0) ∧
    (framed 4).sto.src.map (fun g => (g.rects, g.opened, g.declared, g.off)) = some (some [], false, 0, false) ∧
    (framed 0).isl.frame.map (fun f => f.part) = some false ∧ (framed 0).rowsRun = true ∧ (link 7).rowsRun = true ∧
    (link 7).link = lkS1 ∧ (framed 0).isl.metas.length ≤ 8 ∧ metaFull.isl.metas.length = 8 ∧ metaFull.rowsRun = true ∧
    rowField metaFull (row 0x99 [1, 2]) 0 2 = some (rowMETA, 513) ∧
    metaFull.isl.frame.isSome = true ∧ metaFull.Serves .ISL 0x10 ∧ (1 : Word).toNat % 2 = 1 := by
  simp only [serves_iff]; decide +kernel

/-- A LINE packet of `count` pixels of a format, with its CRCs. -/
def lineHeader (y first count fmt last par : Nat) : List Byte :=
  let b := leBytes 7 (1 + y * 2 ^ 4 + first * 2 ^ 17 + count * 2 ^ 30 + fmt * 2 ^ 43 + last * 2 ^ 46 + par * 2 ^ 47)
  b ++ leBytes 1 (crc8 b)
def linePacket (y first count fmt last par : Nat) : List Byte :=
  let p := (List.range ((count * pixelBits fmt + 7) / 8)).map (fun i => BitVec.ofNat 8 (i * 7))
  lineHeader y first count fmt last par ++ p ++ leBytes 4 (crc32 p)

/-- Bytes striped over four lanes, byte i on lane i mod 4, padded with zeros (R61). -/
def striped (l : List Byte) : List (List Byte) :=
  (List.range 4).map (fun k => (List.range ((l.length + 3) / 4)).map (fun i => l.getD (4 * i + k) 0))

theorem test_striped : destripe (striped (linePacket 0 0 4 3 1 1)) = linePacket 0 0 4 3 1 1 := by decide +kernel

/-- What the header of striped bytes says: its CRC-8 right, TYPE, LINE, FIRST, COUNT, FORMAT, PARITY. -/
def headerOf (l : List Byte) : Bool × List Nat :=
  let b := destripe ((striped l).take 4)
  let h := leVal (b.take 8)
  (crc8 (b.take 7) == h / 2 ^ 56 % 2 ^ 8,
    [h % 2 ^ 4, h / 2 ^ 4 % 2 ^ 13, h / 2 ^ 17 % 2 ^ 13, h / 2 ^ 30 % 2 ^ 13, h / 2 ^ 43 % 2 ^ 3, h / 2 ^ 47 % 2])

theorem witness_LinePackets :
    (framed 0).boot.resetLow = false ∧ (framed 0).isl.skipping = false ∧ (framed 0).rowsRun = true ∧
    (framed 0).islLanes = 4 ∧ (destripe ((striped [0]).take 4)).length < 8 ∧
    headerOf (linePacket 0 0 4 3 1 1) = (true, [1, 0, 0, 4, 3, 1]) ∧
    (headerOf ((linePacket 0 0 4 3 1 1).set 3 9)).1 = false ∧ headerOf (linePacket 0 0 0 3 1 1) = (true, [1, 0, 0, 0, 3, 1]) ∧
    (destripe ((striped (linePacket 0 0 4 3 1 1)).take 4)).length = 8 + (4 * pixelBits 3 + 7) / 8 + 4 ∧
    (destripe ((striped ((linePacket 0 0 4 3 1 1).take 20)).take 4)).length < 8 + (4 * pixelBits 3 + 7) / 8 + 4 ∧
    (link 7).isl.fast = 0 ∧ (link 7).link = lkS1 ∧ (link 7).isl.skipping = false ∧ (link 8).link = lkS2 ∧
    (link 6).isl.frame = none ∧ (framed 0).link = lkUP ∧
    (framed 0).isl.frame.map (fun f => (((framed 0).seqBad f 0 0 4 1, (framed 0).seqBad f 0 0 4 0))) = some (false, true) ∧
    (framed 0).fldA Reg.INPUT_FMT_FORMAT = 3 ∧ 2 ≠ (framed 0).fldA Reg.INPUT_FMT_FORMAT ∧
    (framed 0).flag ⟨Reg.PERTURB_CRC_INJ, 0, 1⟩ = false ∧
    (let b := destripe ((striped (linePacket 0 0 4 3 1 1)).take 4)
     (b.drop 32).take 4 = leBytes 4 (crc32 ((b.drop 8).take 24)) ∧ (b.set 9 1).drop 32 = leBytes 4 (crc32 ((b.drop 8).take 24)) ∧
       crc32 (((b.set 9 1).drop 8).take 24) ≠ crc32 ((b.drop 8).take 24)) := by decide +kernel

/-- A table packet for a region, staged. -/
def tableBytes : List Byte := [1, 2, 3, 4] ++ leBytes 4 (crc32 [1, 2, 3, 4])
def tableRow (h ofs len tag : Nat) : List (List Byte) := row 0x66 (leBytes 1 h ++ leBytes 4 ofs ++ leBytes 2 len ++ leBytes 2 tag)
def tabled : State := (link 6).regionAlloc ⟨3, false, 2, true, true, 0⟩
def staged : State := after (execTablePacket (tableRow 0 64 3 9) (striped tableBytes) false tabled)

theorem witness_TablePackets : tabled.boot.resetLow = false ∧ tabled.rowsRun = true ∧ tabled.link = lkUP ∧
    tabled.islLanes = 4 ∧ tabled.gateClosed 0x10 = false ∧
    rowField tabled (tableRow 0 63 3 9) 1 4 = some (rowTABLE, 63) ∧ 63 % 64 ≠ 0 ∧
    rowField tabled (tableRow 1 64 3 9) 0 1 = some (rowTABLE, 1) ∧ tabled.region 1 = none ∧
    tabled.region 0 = some ⟨0, 2, 0, true, true⟩ ∧ 2 * 65536 < 131008 + 64 + 1 ∧ 131008 + 63 + 1 ≤ 2 * 65536 ∧ 131008 % 64 = 0 ∧
    rowField tabled (tableRow 0 131008 63 9) 5 2 = some (rowTABLE, 63) ∧ tabled.isl.staged.length < 2 ∧
    destripe ((striped tableBytes).take 4) = tableBytes ∧ 3 + 5 ≤ tableBytes.length ∧ tableBytes.length < 63 + 5 ∧
    (tableBytes.drop 4).take 4 = leBytes 4 (crc32 (tableBytes.take 4)) ∧
    staged.isl.staged = [⟨9, 0, 64, [1, 2, 3, 4]⟩] ∧ staged.dramReady = true ∧ staged.migWaits 8 0 64 = false ∧
    (staged.engWrite 8 0 64 [1, 2, 3, 4]).2 = 0 ∧ staged.boot.resetLow = false := by decide +kernel

/-- The back-channel active, not yet locked; locked; with in-band access enabled. -/
def bcActive (n : Nat) : State := carrying (after (exec (.regWrite 0 Reg.ISL_CFG 0x0701) (link n))) [laneBcRx, laneBcTx]
def bcLocked (n : Nat) : State := after (execBcRxLock true (bcActive n))
def inband : State := after (exec (.regWrite 0 Reg.ISL_CFG 0x1701) (bcLocked 6))
def busyReq : State := { inband with isl := { inband.isl with req := some (0, []) } }
def pulsing : State := after (execHpdPulse 0 0 (bcLocked 6))

def unplugged : State := { bcLocked 6 with isl := { (bcLocked 6).isl with hpd := false } }

/-- REG_RD and REG_WR frames, for an address of the member, with their counts right and wrong; a WAKE_REQ. -/
def rdFrame (n : Nat) : List Byte := bcBytes 1 7 (leBytes 3 0x40 ++ leBytes 1 n)
def wrFrame (n : Nat) : List Byte := bcBytes 3 7 (leBytes 3 0x30048 ++ [0] ++ leBytes n 5)
def eventful : State := { bcLocked 6 with isl := { (bcLocked 6).isl with rises := 5, eventAt := some 100 } }

theorem witness_BackChannel : busyReq.boot.resetLow = false ∧ busyReq.bcUp = true ∧ busyReq.isl.req.isSome = true ∧
    (bcLocked 6).bcUp = true ∧ (bcLocked 6).isl.req = none ∧ (bcLocked 6).flag Reg.ISL_CFG_INBAND_EN = false ∧
    inband.bcUp = true ∧ inband.isl.req = none ∧ inband.flag Reg.ISL_CFG_INBAND_EN = true ∧
    bcFrame (rdFrame 1) = some (1, 7, leBytes 3 0x40 ++ [1]) ∧ bcFrame (wrFrame 4) = some (3, 7, leBytes 3 0x30048 ++ [0] ++ leBytes 4 5) ∧
    bcFrame (rdFrame 64) = some (1, 7, [0x40, 0, 0, 64]) ∧ (63 : Nat) < (([0x40, 0, 0, 64] : List Byte).getD 3 0).toNat ∧
    bcFrame (wrFrame 3) = some (3, 7, leBytes 3 0x30048 ++ [0] ++ leBytes 3 5) ∧
    ((inband.bump Reg.ISL_BC_RX_FRAMES).localRead 2 0x40 true).1.isl = (inband.bump Reg.ISL_BC_RX_FRAMES).isl ∧
    bcFrame ((rdFrame 1).set 4 9) = none := by decide +kernel

theorem witness_BackChannel_wakes : bcFrame (bcBytes 8 1 []) = some (8, 1, []) ∧
    (bcLocked 6).link ≠ lkS2 ∧ (bcLocked 8).link = lkS2 ∧
    ((bcLocked 8).put Reg.ISL_EQ_CFG_FAST_WAKE 1).isl.fast = 0 ∧
    ((bcLocked 8).put Reg.ISL_EQ_CFG_FAST_WAKE 1).bcUp = true ∧ eventful.bcUp = true ∧ eventful.isl.rises ≠ 0 ∧
    (bcActive 6).bcActive = true ∧ (bcActive 6).bcUp = false ∧ (bcLocked 6).Serves .ISL 0x10 ∧ (0 : Word).toNat % 4 = 0 ∧
    (bcLocked 6).canTrain = true ∧
    unplugged.isl.hpd = false ∧ unplugged.link = lkUP ∧ lkUP ≠ lkDOWN ∧ lkUP ≠ lkABSENT ∧ unplugged.Serves .ISL 0x10 ∧
    pulsing.isl.pulse = some 512000000 ∧ pulsing.now ≤ 512000000 := by simp only [serves_iff]; decide +kernel

def retried (n r : Nat) : State := (bcLocked n).put Reg.ISL_LINK_STATE_RETRY r
/-- In EQ: the chosen presets settle, or the next is to be measured. -/
def settling (b : Bool) : State :=
  { retried 3 0 with isl := { (retried 3 0).isl with settling := b, presets := [2, 3], asked := [] } }
def fastRetrain (n : Nat) : State := { bcLocked 7 with isl := { (bcLocked 7).isl with fast := n, fastLanes := 2, fastRate := 4, ready := 0 } }
def readied : State := { retried 5 0 with isl := { (retried 5 0).isl with ready := 1 } }
/-- A TRAIN frame with an OP and its data (R78, R82). -/
def train (op : Byte) (d : List Byte) : List Byte := bcBytes 6 9 ([1, op] ++ d)
/-- TS1 blocks, and ALN blocks with the numbers of their lanes. -/
def ts1 : List (List Byte) := row 0x78 []
def aln (l : List Nat) : List (List Byte) := l.map (fun k => ctlBlock 0x87 k [])

theorem witness_Training : (bcLocked 0).boot.resetLow = false ∧ (bcLocked 0).canTrain = true ∧ (bcLocked 0).link = lkDOWN ∧
    (bcLocked 3).bcUp = true ∧ readied.bcUp = true ∧ readied.isl.ready = 1 ∧
    (∀ x ∈ [(3, []), (6, []), (5, [15, 0, 2]), (7, []), (1, [2, 4, 0xFF]), (1, [2, 4, 0xE0])],
      bcFrame (train x.1 x.2) = some (6, 9, 1 :: BitVec.ofNat 8 x.1.toNat :: x.2)) ∧
    (∀ n ∈ [1, 2, 3, 4], (retried n 2).bcUp = true ∧ (retried n 2).training = true ∧ (retried n 2).isl.fast = 0 ∧
      (retried n 2).fld Reg.ISL_LINK_STATE_RETRY < 3 ∧ (retried n 3).training = true ∧ (retried n 3).isl.hold = false ∧
      (retried n 3).isl.fast = 0 ∧ (retried n 3).fld Reg.ISL_LINK_STATE_RETRY = 3) ∧ (retried 1 3).gateClosed 0x10 = false ∧
    (retried 1 0).link = lkDETECT ∧ (retried 1 0).isl.capLanes ≤ 4 ∧ (retried 1 0).isl.capRate ≤ 7 ∧
    byteAt ([2, 4, 0xFF] : List Byte) 2 % 32 ≠ 0 ∧ byteAt ([2, 4, 0xE0] : List Byte) 2 % 32 = 0 ∧
    (retried 2 0).link = lkRATE ∧ (retried 2 0).islLanes = 4 ∧
    (∀ k, k < 4 → (retried 2 0).laneCarries (laneIsl k) = true ∧ blockGood (copyOn ts1 k) = true ∧
      byteAt (copyOn ts1 k) 0 = rowTS1) := by decide +kernel

theorem witness_Training_lanes : (retried 4 0).link = lkALIGN ∧ (retried 4 0).islLanes = 4 ∧
    (∀ l ∈ [[0, 1, 2, 3], [0, 2, 1, 3]], ∀ k, k < 4 → blockGood (copyOn (aln l) k) = true ∧ byteAt (copyOn (aln l) k) 0 = rowALN) ∧
    (∀ k, k < 4 → byteAt (copyOn (aln [0, 1, 2, 3]) k) 1 % 16 = k ∧ ([0, 256, 256, 0] : List Nat).getD k 0 ≤ 256) ∧
    byteAt (copyOn (aln [0, 2, 1, 3]) 1) 1 % 16 ≠ 1 ∧ 256 < ([0, 257, 0, 0] : List Nat).getD 1 0 ∧
    (∀ b ∈ [true, false], (settling b).link = lkEQ ∧ (settling b).isl.asked = [] ∧ (settling b).isl.settling = b ∧
      (settling b).isl.presets = [2, 3]) ∧
    (∀ n ∈ [1, 2], (fastRetrain n).isl.fast = n ∧ (fastRetrain n).isl.ready = 0 ∧
      (∀ k, k < (fastRetrain n).fastUses → (fastRetrain n).laneCarries (laneIsl k) = true) ∧
      (fastRetrain n).now ≤ (fastRetrain n).isl.since + 76800000) ∧
    (∀ m, m < 128 → 0 < m → (bit 0xE m = true ↔ m ≤ 3)) := by decide +kernel
/-! INPUT, STATS, ZONE and PSF, SPLIT and CELLLUT. -/

/-- A change of a field in a set that applies. -/
def changing (x : Fld) : State := after (exec (.applyGo 0 1) (live.put x 1))

/-- A preset load under way. -/
def loading (preset : Nat) : State := after (exec (.lutLoad 1 (BitVec.ofNat 32 (0x100 + preset))) live)

theorem witness_InputTablesAndStats : live.Serves .INPUT 0x40 ∧ live.lutBusy = false ∧
    live.switching Reg.INPUT_EOTF_CFG_BANK = false ∧ live.inp.load = none ∧
    (changing Reg.INPUT_EOTF_CFG_BANK).Serves .INPUT 0x40 ∧
    (changing Reg.INPUT_EOTF_CFG_BANK).switching Reg.INPUT_EOTF_CFG_BANK = true ∧ (loading 3).Serves .INPUT 0x40 ∧
    (loading 3).lutBusy = true ∧ (loading 3).boot.resetLow = false ∧
    (loading 3).inp.load.map (fun j => (j.bank, j.preset, j.black != 0x8000)) = some (1, 3, true) ∧
    (loading 4).inp.load.map (·.preset) = some 4 ∧ (loading 3).gateClosed 0x40 = false ∧ (loading 3).coreRunning = true ∧
    live.Serves .STATS 0x41 ∧
    ({ live with sta := { live.sta with done := [(0, some ⟨3, 4⟩)] } } : State).zoneRec 0 = some ⟨3, 4⟩ := by
  simp only [serves_iff]; decide +kernel

theorem witness_CodesBecomeLight : (255 < 2 ^ 8 ∧ 1023 < 2 ^ 10 ∧ 4095 < 2 ^ 12) ∧ 65520 % 16 = 0 ∧ 65521 % 16 ≠ 0 ∧
    (setA live (Reg.HDR_CTRL 0x40) 7).unitOn 0x40 = true ∧ (setA live (Reg.HDR_CTRL 0x40) 0).unitOn 0x40 = false := by
  decide +kernel

/-- A commit of gains waits; the host writes them; the firmware runs; the presence window is open. -/
def agPend : State := live.put Reg.ZONE_STATUS_AG_PENDING 1
def agHost : State := live.put Reg.ZONE_AGE_CFG_SRC 1
def psfCalculating : State := live.put Reg.PSF_STATUS_CALC_BUSY 1
def psfSwitching : State := changing Reg.PSF_CFG_BANK

theorem witness_ZoneTablesAndCap : live.Serves .ZONE 0x50 ∧ agPend.Serves .ZONE 0x50 ∧ agPend.agPending = true ∧
    live.fld Reg.ZONE_AGE_CFG_SRC = 0 ∧ agHost.Serves .ZONE 0x50 ∧ agHost.agPending = false ∧
    agHost.fld Reg.ZONE_AGE_CFG_SRC = 1 ∧ live.Serves .PSF 0x51 ∧ live.switching Reg.PSF_CFG_BANK = false ∧
    psfSwitching.Serves .PSF 0x51 ∧ psfSwitching.switching Reg.PSF_CFG_BANK = true ∧
    pcapAct (BitVec.ofNat 16 (live.rd Reg.ZONE_PCAP_SAFE).toNat) = some 0x3A00 ∧ live.presenceOpen = false ∧
    pcapAct (BitVec.ofNat 16 0x7C00) = none ∧ pcapAct (BitVec.ofNat 16 0x3A01) = some 0x3A01 ∧
    (val16 0x3A00).lt (val16 0x3A01) = true ∧ (live.wr Reg.ZONE_PCAP_SAFE 0x7C00).Serves .ZONE 0x50 ∧
    pcapAct (BitVec.ofNat 16 ((live.wr Reg.ZONE_PCAP_SAFE 0x7C00).rd Reg.ZONE_PCAP_SAFE).toNat) = none ∧ (present live).Serves .ZONE 0x50 ∧ (present live).presenceOpen = true ∧
    (3 : Word).toNat % 2 = 1 ∧ running.fld Reg.ZONE_AGE_CFG_SRC = 0 ∧ running.firmware = true ∧
    running.agPending = false ∧ (running.put Reg.ZONE_STATUS_AG_PENDING 1).firmware = true ∧ psfCalculating.boot.resetLow = false ∧ psfCalculating.flag Reg.PSF_STATUS_CALC_BUSY = true ∧
    psfCalculating.gateClosed 0x51 = false := by simp only [serves_iff]; decide +kernel

/-- Two zone rows of two zones, the first of which may be solved. -/
def zoned : State :=
  let s := [(Reg.ZONE_GRID, 0x0202#32), (Reg.ZONE_COLB 1, 3840), (Reg.ZONE_COLB 2, 7680), (Reg.ZONE_ROWB 1, 2160),
    (Reg.ZONE_ROWB 2, 4320)].foldl (fun s e => setA s e.1 e.2) live
  { s with tim := { s.tim with running := true }, fie := { s.fie with next := 2159 } }

theorem witness_ZoneRowsSolve : (0x3C00#16).toNat ≤ 0x3C00 ∧ (List.replicate 16 0).length = 16 ∧
    zoned.boot.resetLow = false ∧ zoned.tim.running = true ∧ zoned.zon.solved < zoned.zoneRows ∧
    zoned.rowMay zoned.zon.solved = true ∧ zoned.bankFor 36 ownPix = true := by decide +kernel

def cellSwitching : State := changing Reg.CELLLUT_CFG_BANK
def cellOn : State := setA live (Reg.HDR_CTRL 0x54) 7

theorem witness_LightBecomesCodes : live.Serves .SPLIT 0x53 ∧ live.Serves .CELLLUT 0x54 ∧
    live.switching Reg.CELLLUT_CFG_BANK = false ∧ cellSwitching.Serves .CELLLUT 0x54 ∧
    cellSwitching.switching Reg.CELLLUT_CFG_BANK = true ∧ cellOn.unitOn 0x54 = true ∧ (0x3C00#16).toNat ≤ 0x3C00 ∧
    live.unitOn 0x54 = false ∧ 0 < 7 := by simp only [serves_iff]; decide +kernel
/-! PATCH, DEFECT, OD, THERM and DITH. -/

def patchChecking : State := after (exec (.checkStart 1 0x10) live)

theorem witness_PatchesCorrect : (0 < 1 ∧ 1 < 2 ∧ 2 < 65535) ∧ (15 < 16 ∧ 0 < 15 + 15) ∧ live.Serves .PATCH 0x60 ∧
    live.flag Reg.PATCH_CHECK_STATUS_BUSY = false ∧ patchChecking.Serves .PATCH 0x60 ∧
    patchChecking.flag Reg.PATCH_CHECK_STATUS_BUSY = true ∧ patchChecking.boot.resetLow = false ∧
    patchChecking.pat.check.isSome = true ∧ patchChecking.dramReady = true ∧ patchChecking.gateClosed 0x60 = false := by simp only [serves_iff]; decide +kernel

/-- A flash whose coarse area holds an image of another geometry, and no image (why 2 and 1). -/
def coarseFlash : State :=
  { running with nv := { running.nv with flash := Cells.putRun (fun _ => 0xFF) [] 0x810000 coarseHead } }

/-- A geometry without a line, whose coarse image is a header alone (so that the kernel can compute its CRC), and the request
that MEMC has answered with a status. -/
def coarseImage : List Byte :=
  let n := (patchCoarse 64 0 0).bytes
  let head : List Byte := leBytes 4 0x43504D31 ++ leBytes 2 64 ++ leBytes 2 0 ++ [0, 0, 0, 0] ++ leBytes 4 n ++ List.replicate 44 2
  head ++ leBytes 4 (crc32 (head ++ List.replicate n 9)) ++ List.replicate n 9
def smallPanel (s : State) : State :=
  let w := fun x n => (x : Fld).put (s.rdA x.addr) n
  setA (setA (setA s Reg.TIMING_HTIMING_HACTIVE.addr (w Reg.TIMING_HTIMING_HACTIVE 64)) Reg.TIMING_VTIMING_VACTIVE.addr
    (w Reg.TIMING_VTIMING_VACTIVE 0)) Reg.SPLIT_CFG_DUAL.addr 0
def coarseGood (image : List Byte) (status : Nat) : State :=
  let s := smallPanel running
  let s : State := { s.put (Reg.BANKS_OWN_ACTIVE 33) ownAlloc with
    nv := { s.nv with flash := Cells.putRun (fun _ => 0xFF) [] 0x810000 image } }
  let t := s.regionAlloc ⟨3, false, 1, false, true, 0⟩
  { t.wrN (perPort 3 Reg.REGION_RESULT) (2 + 16 * status) with boot := { t.boot with ask := 2 } }

theorem witness_CoarseSetLoads_image :
    (∀ x ∈ [0, 4], (coarseGood coarseImage x).boot.resetLow = false ∧ (coarseGood coarseImage x).firmware = true ∧
      (coarseGood coarseImage x).coarseWhy ((coarseGood coarseImage x).flashRd 0x810000 64) = 0 ∧
      (coarseGood coarseImage x).boot.copyTo = none ∧ (coarseGood coarseImage x).dramReady = true ∧
      (coarseGood coarseImage x).boot.ask = 2 ∧ (coarseGood coarseImage x).mem.queue = [] ∧
      (coarseGood coarseImage x).rd (perPort 3 Reg.REGION_RESULT) = BitVec.ofNat 32 (2 + 16 * x + 256 * 0)) ∧
    (let s := coarseGood coarseImage 0
     (({ s with boot := { s.boot with ask := 0 } } : State).storeRun 13 0 0
       (s.flashRd 0x810040 (leVal (((s.flashRd 0x810000 64).drop 12).take 4)))).2 = 0) ∧
    (coarseGood (coarseImage.set 60 0) 0).coarseWhy ((coarseGood (coarseImage.set 60 0) 0).flashRd 0x810000 64) = 3 := by
  decide +kernel

theorem witness_CoarseSetLoads : running.boot.resetLow = false ∧ running.firmware = true ∧
    running.flag Reg.HOSTIF_STRAPS_BOOT_SRC = false ∧ running.flag Reg.PATCH_STATUS_COARSE_LOADED = false ∧
    running.flag Reg.PATCH_STATUS_COARSE_BAD = false ∧ running.pat.coarseDue = false ∧ running.gateClosed 0x60 = false ∧
    leVal ((running.flashRd 0x810000 64).take 4) ≠ 0x43504D31 ∧ running.coarseWhy (running.flashRd 0x810000 64) = 1 ∧
    coarseFlash.firmware = true ∧ leVal ((coarseFlash.flashRd 0x810000 64).take 4) = 0x43504D31 ∧
    coarseFlash.coarseWhy (coarseFlash.flashRd 0x810000 64) = 2 := by decide +kernel

def defSwitching : State := changing Reg.DEFECT_CFG_BANK
def autoListed : State := { live with dfc := { live.dfc with auto := [3, 4], clr := true } }

theorem witness_DefectsShare : live.Serves .DEFECT 0x61 ∧ live.switching Reg.DEFECT_CFG_BANK = false ∧
    live.bankServes 37 ownPix = true ∧ live.bankOn 37 = true ∧ defSwitching.Serves .DEFECT 0x61 ∧
    defSwitching.switching Reg.DEFECT_CFG_BANK = true ∧ autoListed.Serves .DEFECT 0x61 ∧
    autoListed.fld ⟨Reg.DEFECT_AUTO_ADDR, 0, 5⟩ < autoListed.dfc.auto.length ∧ autoListed.dfc.clr = true ∧
    2159 < 4320 / 2 ∧ 4320 / 2 ≤ 2160 ∧ 65535 ≤ 65535 ∧ 65535 * 4096 ≤ 65535 * 4096 ∧ 0xFFFFFFFF < 2 ^ 32 := by
  simp only [serves_iff]; decide +kernel

def odSwitching : State := changing Reg.OD_CFG_BANK
def odOn : State := setA live (Reg.HDR_CTRL 0x62) 7
def dithSwitching : State := changing Reg.DITH_CFG_BANK
def dithRom : State := live.put Reg.DITH_ADDR_ROM 1

theorem witness_DriveIsReduced : live.Serves .OD 0x62 ∧ live.bankServes 35 ownPix = true ∧ live.bankOn 35 = true ∧
    live.switching Reg.OD_CFG_BANK = false ∧ odSwitching.Serves .OD 0x62 ∧ odSwitching.switching Reg.OD_CFG_BANK = true ∧
    live.Serves .DITH 0x64 ∧ live.ditherSwitching = false ∧ live.flag Reg.DITH_ADDR_ROM = false ∧
    live.bankServes 37 ownPix = true ∧ live.bankOn 37 = true ∧ dithSwitching.Serves .DITH 0x64 ∧
    dithSwitching.ditherSwitching = true ∧ dithRom.Serves .DITH 0x64 ∧ dithRom.flag Reg.DITH_ADDR_ROM = true ∧
    255 < 256 ∧ 8 ∈ [4, 6, 8] ∧ 65535 < 2 ^ 16 ∧ 255 < 2 ^ 8 ∧
    ((257 * 254 + 1 : Int) - 257 * 255).natAbs ≤ live.fldA ⟨Reg.OD_DEADBAND, 0, 16⟩ := by simp only [serves_iff]; decide +kernel

/-- Sensor 0 with three conversions out of range behind it; the same at the limits of ADC_LIM. -/
def nearFault : State := (live.setSensor 0 ⟨[], false, 3, 0, false⟩).put Reg.THERM_CFG_SENS_EN 1
def ended : State := { live with thm := { live.thm with ended := some (77, 1000000) } }
def thermPending : State := live.put Reg.THERM_STATUS_COMMIT_PENDING 1
def regSel (k : Nat) : State := live.wr Reg.THERM_REG_ADDR (BitVec.ofNat 32 (k * 256 + 143))

theorem witness_HeatIsFollowed : live.boot.resetLow = false ∧ live.domOn 9 = true ∧ live.thm.turn % 4 = 0 ∧
    (∀ c ∈ [live.fld Reg.THERM_ADC_LIM_LO, live.fld Reg.THERM_ADC_LIM_HI], c < 4096 ∧
      live.fld Reg.THERM_ADC_LIM_LO ≤ c ∧ c ≤ live.fld Reg.THERM_ADC_LIM_HI) ∧ (live.sensor 0).fault = false ∧
    (live.sensor 0).codes.all (fun x => decide (x < 4096)) = true ∧
    (0 < nearFault.fld Reg.THERM_ADC_LIM_LO ∨ nearFault.fld Reg.THERM_ADC_LIM_HI < 4095) ∧
    (nearFault.sensor 0).fault = false ∧ (nearFault.sensor 0).badRun = 3 ∧
    bit (nearFault.fld Reg.THERM_CFG_SENS_EN) 0 = true ∧ nearFault.gateClosed 0x63 = false ∧ nearFault.domOn 9 = true ∧
    live.Serves .OD 0x62 ∧ odOn.unitOn 0x62 = true ∧
    ({ odOn with od := { odOn.od with needInit := true } } : State).od.needInit = true ∧ live.Serves .THERM 0x63 ∧
    thermPending.flag Reg.THERM_STATUS_COMMIT_PENDING = true ∧ ended.boot.resetLow = false ∧
    ended.thm.ended = some (77, 1000000) ∧ ended.flag Reg.THERM_CFG_SRC = false ∧ ended.coreRunning = true ∧
    (∀ k ∈ [1, 2, 3, 0, 4, 7], (regSel k).fld Reg.THERM_REG_ADDR_SEL = k ∧ (regSel k).Serves .THERM 0x63 ∧
      (regSel k).fld Reg.THERM_REG_ADDR_INDEX = 143) := by simp only [serves_iff]; decide +kernel
/-! Frame timing, self-refresh, and the frame store. -/

/-- An output frame runs, with lines to come; one whose lines are over. -/
def frame : State := after (execFrameBoundary live)
def frameOver : State := { frame with tim := { frame.tim with line := 100000 } }

/-- The pixel path is ON in the frame. -/
def pathRuns : State := [5, 6, 7, 8, 9].foldl (fun s n => s.put (Reg.PWR_DOM_STATE_CUR n) domStON) frame

theorem witness_FramesAndLines : live.boot.resetLow = false ∧ live.gateClosed 0x30 = false ∧ frameOver.nextLine = none ∧
    frame.nextLine = some (0, frame.tim.f) ∧ frame.boot.resetLow = false ∧ live.boot.pawnDue = false ∧ live.boot.image = none ∧
    0x30 ∉ live.soft ∧ pathRuns.boot.resetLow = false ∧ pathRuns.nextLine = some (0, frame.tim.f) ∧ 0 < pathRuns.vact ∧
    pathRuns.pathOn = true := by decide +kernel

/-- A frame with a partner of four LEDs' channels on a backlight port that is UP, and a cell port that is UP. -/
def ledded : State :=
  let s := ((frame.put (Reg.EDL_PORT_STATE_STATE 3) 3).put (Reg.EDL_PORT_STATE_STATE 5) 3).wrN (Reg.PARTNER_W 7 0)
    (5 + 2 ^ 12 * 2 + 2 ^ 14)
  let s := [(Reg.PARTNER_W 7 1, BitVec.ofNat 32 (2 ^ 14 * 8 + 2 ^ 21 * 8 + 2 ^ 31)), (Reg.ZONE_GRID, 0x0808#32),
    (Reg.ZONE_ROWB 1, 540#32), (Reg.ZONE_ROWB 2, 1080#32), (Reg.TIMING_BFI, 0x1001#32)].foldl (fun s e => setA s e.1 e.2) s
  let s : State := { s with tim := { s.tim with bfi := 0x1001 } }
  carrying ((s.setEdlPort 5 { s.edlPort 5 with kind := 2 }).setEdlPort 3 { s.edlPort 3 with kind := 1 }) [laneEdl 3, laneEdl 5]

theorem witness_SyncBlocks : ledded.boot.resetLow = false ∧ ledded.tim.running = true ∧ ledded.portIsUp 3 = true ∧
    ledded.laneCarries (laneEdl 3) = true ∧ ledded.laneCarries (laneEdl 5) = true ∧ ledded.portKind 3 = 1 ∧
    (∀ p ∈ [3, 5], (ledded.edlPort p).queue = [] ∧ (ledded.edlPort p).prog = none ∧
      (ledded.edlPort p).free ≤ ledded.tim.next - 20000 * 256 ∧ (ledded.edlPort p).free ≤ ledded.applyAt 1 - 900 * 256 ∧
      (ledded.edlPort p).free ≤ ledded.darkAt 1 - 900 * 256) ∧
    ledded.portIsUp 5 = true ∧ ledded.portKind 5 = 2 ∧ ledded.now + 20000 * 256 ≤ ledded.tim.next ∧ 1 < ledded.zoneRows ∧
    (ledsOf ledded.partners 5).any (fun e => !(e.channels ledded.zoneCols 1).isEmpty) = true ∧ ledded.bfiMode = 1 ∧
    ledded.now + 900 * 256 ≤ ledded.darkAt 1 ∧ ledded.now + 900 * 256 ≤ ledded.applyAt 1 := by decide +kernel

/-- Locked to pips, one of which is late; the same with the link UP and a pip since; four intervals of VREF seen. -/
def lockedPips : State :=
  { live.put Reg.TIMING_STATUS_MODE 2 with
    tim := { live.tim with lastPip := some 1000, lastPeriod := 5000000, running := true, next := 99999999 } }
def upPips : State := { lockedPips.put Reg.ISL_LINK_STATE_STATE 6 with srf := { live.srf with pipSince := true } }
def timedOut : State := after (execPipTimeout upPips)
def vsync : State := { live with tim := { live.tim with vref := some 1000, vrefFrom := 1000, vrefGap := 4000000, vrefGood := 3, hrefs := 5 } }
def vsyncOk : State := setA (after (execVrefEdge 4005000 false vsync)) Reg.TIMING_CFG ((live.rdA Reg.TIMING_CFG &&& ~~~3#32) ||| 1)

theorem witness_TimingEvents : lockedPips.boot.resetLow = false ∧ lockedPips.tim.lastPip = some 1000 ∧
    lockedPips.timMode = timLOCKED ∧ lockedPips.tim.ref = 0 ∧ lockedPips.gateClosed 0x30 = false ∧ live.timMode ≠ timLOCKED ∧
    upPips.linkUp = true ∧ upPips.tim.ref = 0 ∧ upPips.srf.pipSince = true ∧ 5 ∉ upPips.srf.events ∧ lockedPips.linkUp = false ∧
    timedOut.linkUp = true ∧ timedOut.srf.pipSince = false ∧ 5 ∈ timedOut.srf.events ∧ upPips.srf.host = false ∧
    upPips.inSref = false ∧ upPips.gateClosed 0x32 = false ∧ upPips.timMode ≠ timFREE ∧
    live.flagA Reg.GENLOCK_CFG_VEDGE = false ∧ vsync.tim.hrefAt = none ∧ vsync.tim.vrefFrom = 1000 ∧ vsync.tim.vref = some 1000 ∧ vsync.tim.vrefGood = 3 ∧ vsync.tim.vrefGap ≠ 0 ∧
    (((4005000 - 1000 : Nat) : Int) - (4000000 : Nat)).natAbs * 1000 ≤ 4000000 ∧ live.glLossAt = none ∧
    vsyncOk.glLossAt.isSome = true ∧ vsyncOk.gateClosed 0x31 = false ∧ vsyncOk.fldA Reg.TIMING_CFG_SRC_SEL = 1 ∧
    vsyncOk.linkUp = false ∧ vsyncOk.followsFsync = false ∧ vsyncOk.srf.host = false := by decide +kernel

/-- Self-refresh by ENTER; the same with an older reason that stands; with domains held in retention. -/
def entered : State := after (execSrefEnter 0 0 frame)
def enteredTwice : State := { entered with srf := { entered.srf with events := [4, 3, 2] } }
def retained : State := { entered with srf := { entered.srf with ret := true } }

theorem witness_SelfRefresh : frame.Serves .SREF 0x32 ∧ frame.inSref = false ∧ entered.Serves .SREF 0x32 ∧
    entered.inSref = true ∧ entered.linkUp = false ∧ upPips.Serves .SREF 0x32 ∧ upPips.linkUp = true ∧
    live.srf.host = false ∧ entered.srf.host = true ∧ (0 : Word).toNat / 2 % 4 = 0 ∧ (1 : Word).toNat / 2 % 4 = 0 ∧
    (entered.srf.events.filter (fun c => c ≠ 4)).find? entered.reasonStands = none ∧
    ((enteredTwice.srf.events.filter (fun c => c ≠ 4)).find? enteredTwice.reasonStands).isSome = true ∧
    enteredTwice.srf.host = true ∧ retained.srf.ret = true ∧ live.srf.ret = false := by simp only [serves_iff]; decide +kernel

def grey : Pix := ⟨0x3000#16, 0x2000#16, 0x1000#16⟩

/-- A small frame of 64 by 8 pixels, and a source frame of it with one line waiting. -/
def small : State := setA (setA live Reg.TIMING_HTIMING 0x00800040#32) Reg.TIMING_VTIMING 0x00280008#32
def srcFrame : SrcFrame :=
  { no := 3, tPip := 1000, tLine := 500, first := 2000, inLock := false, rects := none, off := false, declared := 0
    opened := true, flushed := false, complete := false, slot := some 1, cur := none, lastLine := none
    waiting := [⟨0, [(0, List.replicate 64 grey)]⟩], missing := [], subs := 0, holes := 0, next := 0, prevWritten := false
    prevPix := [], prevSpans := [], bytes := 0, margin := none, missed := false }
def storing (f : SrcFrame) : State := { small with sto := { small.sto with src := some f, layout := some (0, 1, 2, 64, 8) } }
def lastLine : SrcFrame := { srcFrame with next := 7, complete := true, waiting := [⟨7, [(0, List.replicate 64 grey)]⟩] }
def copied : SrcFrame := { srcFrame with rects := some [], waiting := [] }

theorem witness_LinesAreStored : (storing srcFrame).boot.resetLow = false ∧ (storing srcFrame).sto.src = some srcFrame ∧
    srcFrame.next < (storing srcFrame).vact ∧ (srcFrame.waiting.find? (fun l => l.line == srcFrame.next)).isSome = true ∧
    srcFrame.slot = some 1 ∧ (storing srcFrame).hact = 64 ∧
    (List.range 64).all (inSpans (srcFrame.spans 64 0)) = true ∧ Cells.get (fun _ => 0) srcFrame.missing 1 ≠ 2 ∧
    srcFrame.next + 1 < (storing srcFrame).vact ∧ lastLine.next + 1 = (storing lastLine).vact ∧
    (lastLine.waiting.find? (fun l => l.line == lastLine.next)).isSome = true ∧ lastLine.complete = true ∧
    lastLine.holes = 0 ∧ (List.range 64).all (inSpans (lastLine.spans 64 7)) = true ∧ copied.copyNext = true ∧
    (storing copied).boot.resetLow = false ∧ (storing { srcFrame with waiting := [] }).owedLine = some 0 ∧
    (storing srcFrame).gateClosed 0x10 = false := by decide +kernel

def decoding : State := after (execRbSelWrite 0 0x00020001#32 (storing srcFrame))

theorem witness_ReadbackOfLines : (storing srcFrame).Serves .CODEC 0x42 ∧
    (storing srcFrame).flag Reg.CODEC_RB_STATUS_BUSY = false ∧ (storing srcFrame).vact ≤ 8 ∧ 7 < (storing srcFrame).vact ∧
    (storing srcFrame).sto.layout ≠ none ∧ live.sto.layout = none ∧ decoding.flag Reg.CODEC_RB_STATUS_BUSY = true ∧
    decoding.gateClosed 0x42 = false ∧ decoding.Serves .CODEC 0x42 ∧ live.flag Reg.CODEC_RB_STATUS_BUSY = false ∧
    ({ live with sto := { live.sto with rbPix := [grey] } } : State).sto.rbPix[live.fld ⟨Reg.CODEC_RB_X, 0, 13⟩]? = some grey := by
  simp only [serves_iff]; decide +kernel

theorem witness_CodecRoundTrip : (List.replicate 64 grey) ≠ [] ∧ (List.replicate 64 grey).length ≤ 64 ∧
    16 + (List.replicate 64 grey).length ≤ 80 ∧ (List.replicate 80 grey).length = 80 ∧
    (∀ p ∈ List.replicate 80 grey, p.r.toNat ≤ 0x3C00 ∧ p.g.toNat ≤ 0x3C00 ∧ p.b.toNat ≤ 0x3C00) := by decide +kernel
/-! The Eubel Driver Link, the panel. -/

/-- HCMD0 and HCMD1 name a command. -/
def commanded (s : State) (pid rd addr data : Nat) : State :=
  (s.wrN Reg.EDL_HCMD0 (pid + 2 ^ 11 * rd + 2 ^ 16 * addr)).wrN Reg.EDL_HCMD1 data
def sending : State := after (execHcmdGo 0 1#32 (commanded ledded 7 0 0x123 0xBEEF))
def hostReading : State := after (execHcmdGo 0 1#32 ((commanded ledded 7 1 0x123 0).setBusSlot 1 (some ⟨5, 7, 3, 0⟩)))

theorem witness_DriverCommands :
    (∀ x ∈ [(0, 0), (0x3FF, 0), (7, 1), (0x400, 0), (0x4FF, 0), (0x7FF, 1), (0x500, 0), (0x7FE, 1)],
      (commanded ledded x.1 x.2 0xFFF 0xFFFF).Serves .EDL 0x70 ∧ (commanded ledded x.1 x.2 0xFFF 0xFFFF).edl.tag < 128 ∧
      (commanded ledded x.1 x.2 0xFFF 0xFFFF).fld Reg.EDL_HCMD0_PID = x.1 ∧
      (commanded ledded x.1 x.2 0xFFF 0xFFFF).flag Reg.EDL_HCMD_STATUS_BUSY = false) ∧ (1 : Word).toNat % 2 = 1 ∧
    (ledded.partner 7).valid = true ∧ ledded.portIsUp (ledded.partner 7).port = true ∧ (ledded.partner 0x3FF).valid = false ∧
    sending.flag Reg.EDL_HCMD_STATUS_BUSY = true ∧ sending.edl.host.map (·.rd) = some false ∧
    (∀ p, p < 64 → ∀ i ∈ (sending.edlPort p).queue, i.place ≠ 7) ∧ (ledded.edlPort 5).free ≤ ledded.now ∧
    (ledded.edlPort 5).queue = [] ∧ (ledded.edlPort 5).prog = none ∧ ledded.laneCarries (laneEdl 5) = true ∧
    (commanded (ledded.put (Reg.RETBUS_CFG_EN 1) 0) 7 1 0xFFF 0).flag (Reg.RETBUS_CFG_EN ((ledded.partner 7).port / 4)) = false ∧
    (commanded (ledded.put (Reg.RETBUS_CFG_EN 1) 1) 7 1 0xFFF 0).flag (Reg.RETBUS_CFG_EN 1) = true ∧
    hostReading.edl.host.map (·.rd) = some true ∧ ledded.edl.host = none ∧ ledded.portKind 5 = 2 ∧ ledded.portIsUp 5 = true ∧
    live.Serves .EDL_GRP (0x71 + 15) ∧ (∀ i, i < 4 → live.Serves .EDL_PORT (0xA0 + 4 * 15 + i)) := by
  simp only [serves_iff]; decide +kernel

/-- A port in training, enumerating, waiting for another attempt, and FAILED. -/
def inTraining : State :=
  let s := ledded.setPortState 5 1
  carrying ((s.setEdlPort 5 { s.edlPort 5 with pattern := some 0 }).put (Reg.RETBUS_CFG_EN 1) 1) [laneRet 1]
def inEnum : State := after (execEdlTrainDone 5 inTraining)
def inWait : State := after (execEdlTrainTimeout 5 inEnum)
def inFailed : State := after (execEdlTrainTimeout 5 (inEnum.setAttempt 5 9))

/-- A PRBS burst is due. -/
def burstDue : State :=
  let s := (ledded.wr Reg.EDL_PRBS_CFG 0x0004FFF1#32).wrN Reg.TIMING_FRAME_NO 510
  { s with tim := { s.tim with line := 4320 } }

theorem witness_PortsTrain : ledded.boot.resetLow = false ∧ 5 < 64 ∧ ledded.portState 5 ≠ portTRAINING ∧
    inTraining.portState 5 = portTRAINING ∧ inTraining.portKind 5 = 2 ∧ (inTraining.edlPort 5).held = none ∧
    inTraining.nextId ≤ 0x3FF ∧ (inTraining.edlPort 5).pattern = some 0 ∧ (inTraining.edlPort 5).queue = [] ∧
    (inTraining.edlPort 5).prog = none ∧ inTraining.laneCarries (laneEdl 5) = true ∧ inEnum.portState 5 = portENUM ∧ inWait.portState 5 = portWAIT ∧
    inWait.fld (Reg.EDL_PORT_STATE_ATTEMPT 5) < 9 ∧ 9 ≤ (inWait.setAttempt 5 9).fld (Reg.EDL_PORT_STATE_ATTEMPT 5) ∧
    (inWait.setAttempt 5 9).portState 5 = portWAIT ∧ inWait.gateClosed (0xA0 + 5) = false ∧
    inFailed.portState 5 = portFAILED ∧ inFailed.Serves .EDL_PORT (0xA0 + 5) ∧ ledded.Serves .EDL 0x70 ∧
    burstDue.flag Reg.EDL_PRBS_CFG_EN = true ∧
    (burstDue.rd Reg.TIMING_FRAME_NO).toNat % max 1 (burstDue.fld Reg.EDL_PRBS_CFG_EVERY) = 0 ∧
    burstDue.vact ≤ burstDue.tim.line ∧ burstDue.portIsUp 5 = true ∧ (burstDue.edlPort 5).queue = [] ∧
    (burstDue.edlPort 5).prog = none ∧ (burstDue.edlPort 5).free ≤ burstDue.now ∧ burstDue.laneCarries (laneEdl 5) = true ∧
    (burstDue.edlPort 5).burst ≠ (burstDue.rd Reg.TIMING_FRAME_NO).toNat + 1 ∧ ledded.flag Reg.EDL_PRBS_CFG_EN = false := by
  simp only [serves_iff]; decide +kernel

/-- A slot that polled partner 7 for something; the slot that asks an ID on offer for its CAPS; a read of the host. -/
def slotted7 (req : Nat) : State :=
  carrying ((ledded.put (Reg.RETBUS_CFG_EN 1) 1).setBusSlot 1 (some ⟨5, 7, req, 3⟩)) [laneRet 1]
def capsAsked : State := after (execEdlPoll 1 inEnum)
def readAsked : State := { slotted7 3 with edl := { (slotted7 3).edl with host := some ⟨7, true, 3, 0⟩ } }

theorem witness_PollsAndAnswers : ledded.boot.resetLow = false ∧ (slotted7 0).busSlot 1 ≠ none ∧ inEnum.busSlot 1 = none ∧
    inEnum.domOn (28 + 1) = true ∧ inEnum.flag (Reg.RETBUS_CFG_EN 1) = true ∧ ledded.busSlot 1 = none ∧
    inEnum.choosePoll 1 = some (inEnum.nextId - 1, 5, 4) ∧ inEnum.laneCarries (laneEdl 5) = true ∧
    (∀ x ∈ [(0, [5, 0, 4, 0, 2, 0]), (1, [9]), (2, [1, 2, 3, 4]), (3, [3, 1, 2, 0, 0xEF, 0xBE])],
      (slotted7 x.1).laneCarries (laneRet 1) = true ∧ busFrame (busBytes 7 (x.1 + 1) 3 x.2) = some (7, x.1 + 1, x.2) ∧
      ((slotted7 x.1).busSlot 1).map (fun y => (y.pid, y.req)) = some (7, x.1) ∧ (slotted7 x.1).boot.resetLow = false) ∧
    7 < 1024 ∧ readAsked.edl.host = some ⟨7, true, 3, 0⟩ ∧ (readAsked.busSlot 1).map (fun y => (y.pid, y.req)) = some (7, 3) ∧
    readAsked.laneCarries (laneRet 1) = true ∧
    (chunks 6 ([3, 1, 2, 0, 0xEF, 0xBE] : List Byte)).find? (fun e => byteAt e 0 % 128 == 3) = some [3, 1, 2, 0, 0xEF, 0xBE] ∧
    (slotted7 0).domOn (28 + 1) = true ∧ (slotted7 0).flag (Reg.RETBUS_CFG_EN 1) = true ∧
    busFrame (busBytes 7 2 3 [9]) = some (7, 2, [9]) ∧ busFrame [1, 2, 3] = none ∧
    (ledded.laneCarries (laneRet 1) = false ∨ ledded.busSlot 1 = none) := by decide +kernel

theorem witness_PollsAndAnswers_caps : busFrame (busBytes 7 6 3 []) = some (7, 6, []) ∧ (capsAsked.busSlot 1).map (fun x => (x.pid, x.req, x.port)) = some (1, 4, 5) ∧
    capsAsked.portState 5 = portENUM ∧ capsAsked.laneCarries (laneRet 1) = true ∧
    busFrame (busBytes 1 5 0 [0x41, 0, 8, 0]) = some (1, 5, [0x41, 0, 8, 0]) ∧
    (capsAsked.edlPort 5).offer = some 1 ∧ (capsAsked.edlPort 5).got = [] ∧ (capsAsked.edlPort 5).held = none := by decide +kernel

/-- Power-on steps: step 0 waits for PG_IN, step 1 is the last. -/
def stepped : State := (live.wr (Reg.PANELPWR_ON_STEP 0) 0x00051701#32).wr (Reg.PANELPWR_ON_STEP 1) 0x00070F0E#32
def waitsPg : State := after (execPanelOn 0 0#32 stepped)
def step0 : State := after (execPgInRise waitsPg)
def step1 : State := after (execPowerOnStep step0)
def panelUp : State :=
  let s := after (execPowerOnStep step1)
  carrying ((s.put (Reg.EDL_PORT_STATE_STATE 3) 3).setEdlPort 3 { s.edlPort 3 with kind := 1 }) [laneEdl 3]
def discharging : State := after (execPanelOff 0 0#32 panelUp)
def gatesOn : State := after (execPowerOffStep discharging)
def supplies : State := after (execPowerOffStep gatesOn)
def powerFailed : State := after (execPfail stepped)
def autoArmed : State :=
  let s := stepped.put Reg.PANELPWR_CFG_AUTO_ON 1
  { s with pan := { s.pan with byPfail := true, pfailN := true } }

theorem witness_PanelPowersOn : stepped.Serves .PANELPWR 0x101 ∧ stepped.pan.pfailN = true ∧ stepped.pan.off = 0 ∧
    stepped.panelState = panOFF ∧ (0 : Word).toNat / 2 % 2 = 0 ∧ powerFailed.Serves .PANELPWR 0x101 ∧
    powerFailed.pan.pfailN = false ∧ discharging.Serves .PANELPWR 0x101 ∧ discharging.pan.pfailN = true ∧
    discharging.pan.off ≠ 0 ∧ step0.Serves .PANELPWR 0x101 ∧ step0.panelState ≠ panOFF ∧ step0.pan.off = 0 ∧
    waitsPg.panelState = panPOWERING ∧ waitsPg.pan.waitPg = true ∧ step0.panelState = panPOWERING ∧
    step0.pan.waitPg = false ∧ step0.fld Reg.PANELPWR_STATE_STEP = 0 ∧ step0.flag (onStepFld 0 11 1) = false ∧
    step1.fld Reg.PANELPWR_STATE_STEP = 1 ∧ step1.flag (onStepFld 1 11 1) = true ∧ step1.gateClosed 0x101 = false ∧
    live.flag Reg.PANELPWR_CFG_AUTO_ON = false ∧ autoArmed.flag Reg.PANELPWR_CFG_AUTO_ON = true ∧
    autoArmed.pan.byPfail = true ∧ autoArmed.pan.pfailN = true ∧ autoArmed.pan.off = 0 ∧ autoArmed.panelState = panOFF := by
  simp only [serves_iff]; decide +kernel

/-- A frame in which gate lines come, and BL_PWM pulses. -/
def gated : State := after (execFrameBoundary { panelUp with pan := { panelUp.pan with blWant := true } })
def pulsedHigh : State := { gated with pan := { gated.pan with pwmHigh := true, pwmPin := true } }

/-- A frame whose output 0 has edge 0, at unit 5. -/
def edged : GateFrame := ⟨0, 0, 8000, 0, 8, 100, 8, 0, 0x00010001#32 :: List.replicate 15 0 ++ [0x9005#32]⟩

theorem witness_GateLines_edges : edged.edgesApply 0 3 = true ∧ bit (edged.edge 0 0) 15 = true ∧ edged.edge 0 0 % 4096 ≤ 5 ∧
    (∀ i, i < 8 → i ≠ 0 → bit (edged.edge 0 i) 15 = false) ∧ edged.level 0 3 5 = true ∧ edged.level 0 3 4 = false ∧
    edged.edgesApply 1 3 = false := by decide +kernel

theorem witness_PanelPowersOffAndGates : discharging.Serves .PANELPWR 0x101 ∧ discharging.pan.off = 1 ∧
    (1 : Word).toNat / 2 % 2 = 0 ∧ (2 : Word).toNat % 2 = 0 ∧ panelUp.Serves .PANELPWR 0x101 ∧ panelUp.pan.off = 0 ∧
    panelUp.pan.edlRun = true ∧ held.boot.resetLow = true ∧ panelUp.boot.resetLow = false ∧
    panelUp.gateClosed 0x101 = false ∧ live.domCur 46 = domStON ∧ live.nv.saving = false ∧ live.pan.waitPg = false ∧
    waitsPg.pan.waitPg = true ∧ ({ waitsPg with pan := { waitsPg.pan with edlRun := true } } : State).pan.waitPg = true ∧
    discharging.pan.gateRun = true ∧ gatesOn.pan.off = 2 ∧ gatesOn.panelPe.log2 < 4 ∧
    gatesOn.fld Reg.PANELPWR_STATE_PENDING = 0 ∧ supplies.pan.off = 3 ∧ supplies.panelPe ≠ 0 ∧
    supplies.fld Reg.PANELPWR_STATE_PENDING = 0 ∧ gated.gateNext.map (fun x => (x.2.1, x.2.2)) = some (0, true) ∧
    gated.boot.resetLow = false ∧ gated.padsFree 45 = true ∧ live.gateNext = none ∧
    pulsedHigh.pan.pwmPin ≠ pulsedHigh.flagA Reg.GATE_BL_CFG_INV ∧ gated.pan.pwmPin = gated.flagA Reg.GATE_BL_CFG_INV ∧
    gated.pwmN ≤ ({ gated with pan := { gated.pan with pwmCycle := gated.pwmN } } : State).pan.pwmCycle ∧
    (panelUp.edlPort 3).queue = [] ∧ (panelUp.edlPort 3).prog = none ∧ (panelUp.edlPort 3).free ≤ panelUp.now ∧
    panelUp.portIsUp 3 = true ∧ panelUp.portKind 3 = 1 ∧ panelUp.laneCarries (laneEdl 3) = true ∧
    live.tim.running = false ∧ pulsedHigh.tim.running = true ∧
    pulsedHigh.pan.pwmHigh = true ∧ gated.pan.pwmHigh = false ∧ gated.pan.pwmCycle < gated.pwmN ∧
    gated.pwmHeld (max gated.now (gated.pwmStart gated.pan.pwmCycle)) = false ∧
    ((gated.wrN Reg.GATE_BL_DUTY 1).pwmTicks = gated.pwmTicks ∨ gated.pwmTicks = 0 ∨ gated.pwmTicks ≠ 0) := by
  simp only [serves_iff]; decide +kernel

/-! Regions, beats, retirement, BULK. -/

def queued (q : RegionReq) (rs : List Region) : State := { live with mem := { live.mem with queue := [q], regions := rs } }
def asking : State := { live.put (resultFld 1 Reg.REGION_RESULT_BUSY) 1 with pending := [] }
def scarce (s : State) : State := s.put ⟨Reg.REGION_FREE_PAGES, 0, 16⟩ (s.reserve + 1)

/-- A machine with a region of three lazy pages as handle 1, the middle one of which is committed. -/
def lazy3 : State := after (execRegionReqDone (queued ⟨1, false, 3, false, false, 0⟩ [⟨0, 1, 0, false, false⟩]))
def wrote : State := after (execDramBeat 12 1 0x10010 (some [1, 2, 3]) 0 0 0 [] lazy3)
def retiring : State := after (execRetireCmd 0 (0x80000000#32 + 0) wrote)
/-- The same as an allocation with COMMIT leaves it: committed and not yet written. -/
def unwritten : State := { wrote with mem := { wrote.mem with blank := [2] } }

theorem witness_RegionsAreServed : live.Serves .REGION 0x111 ∧ (3 : Nat) < 4 ∧
    asking.flag (resultFld 1 Reg.REGION_RESULT_BUSY) = true ∧ live.flag (resultFld 3 Reg.REGION_RESULT_BUSY) = false ∧
    live.mem.queue = [] ∧ live.bankOwner 33 = ownAlloc ∧ live.bankOn 33 = true ∧
    live.mapUp = true ∧ (live.bankOwner 33 = ownAlloc → live.bankOn 33 = true) ∧ (live.put (Reg.BANKS_OWN_ACTIVE 33) 0).mapUp = false ∧
    ((queued ⟨3, false, 0, false, false, 0⟩ []).mem.queue = [⟨3, false, 0, false, false, 0⟩]) ∧
    (queued ⟨3, false, 32768, true, true, 0⟩ ((List.range 64).map (fun h => ⟨h, 1, h, false, false⟩))).freeHandle = none ∧
    (scarce live).freeHandle = some 0 ∧ (scarce live).freePages < 2 + (scarce live).reserve ∧
    mapFit [⟨0, 32768, 0, false, false⟩, ⟨1, 32768, 32768, false, false⟩] 1 = none ∧
    mapFit [⟨0, 32768, 0, false, false⟩] 32768 = some 32768 ∧ 1 + live.reserve ≤ live.freePages ∧
    lazy3.region 1 = some ⟨1, 3, 1, false, false⟩ ∧ lazy3.region 0 = some ⟨0, 1, 0, false, false⟩ ∧ lazy3.region 2 = none ∧
    retiring.regionMigrating ⟨1, 3, 1, false, false⟩ = true ∧ lazy3.regionMigrating ⟨1, 3, 1, false, false⟩ = false ∧
    lazy3.mem.halted.any (fun x => x.handle == 1) = false ∧ lazy3.chip.applying = none ∧
    handleNamed lazy3.rdA 1 = false ∧ handleNamed lazy3.rd 1 = false ∧
    handleNamed (lazy3.rd) (lazy3.fld Reg.BULK_TARGET_HANDLE) = handleNamed lazy3.rd 0 := by
  simp only [serves_iff]; decide +kernel

theorem witness_PagesAreFree : 1 ≤ (List.range 32768).countP live.pageFree :=
  List.countP_pos_iff.2 ⟨0, List.mem_range.2 (by decide), by decide +kernel⟩

/-- A page that cannot be committed, an engine halted, a forced refresh, a weight that is spent, a switch that is due. -/
def noPages : State := lazy3.put ⟨Reg.REGION_FREE_PAGES, 0, 16⟩ lazy3.reserve
def haltedAt (e : Nat) : State := wrote.memHalt e 1 0x10010 none
def refreshHeld : State := { wrote with mem := { wrote.mem with refreshTo := [(0, 1000)] } }
def spentC3 : State := { wrote.wr Reg.SCHED_WEIGHT 0x02000201#32 with mem := { wrote.mem with credit := [(2, 1)] } }
def mopDueNow : State := { live with mem := { live.mem with mopDue := true } }

theorem witness_BeatsAreServed : wrote.boot.resetLow = false ∧ noInjection wrote ∧ 0 < engineClass 12 ∧
    wrote.dramReady = true ∧ wrote.migWaits 12 1 0x1003E = false ∧ wrote.mem.copies = [] ∧
    wrote.mem.halted.any (fun x => x.engine == 12) = false ∧ 0x1003E % 64 + 2 ≤ 64 ∧ wrote.xlate 1 0x1003E = some 0x3E ∧
    wrote.refreshing 0 = false ∧ (∀ x ∈ [13], engineClass x ≠ 0) ∧ (wrote.chanTurn 0 12 [13]).isSome = true ∧
    lazy3.inRegion 1 0x10010 = true ∧ lazy3.xlate 1 0x10010 = none ∧ lazy3.reserve < lazy3.freePages ∧
    lazy3.lowestFree = some 0 ∧ lazy3.region 1 = some ⟨1, 3, 1, false, false⟩ ∧ lazy3.mapUp = true ∧
    mapCommitted (lazy3.mapEntry 2) = false ∧ lazy3.mem.blank.contains 2 = false ∧
    mapCommitted (unwritten.mapEntry 2) = true ∧ unwritten.region 1 = some ⟨1, 3, 1, false, false⟩ ∧
    (unwritten.chanTurn 0 12 []).isSome = true ∧ wrote.inRegion 1 0x30000 = false ∧
    noPages.inRegion 1 0 = true ∧ mapCommitted (noPages.mapEntry 1) = false ∧ noPages.freePages ≤ noPages.reserve ∧
    engineHalts 12 = true ∧ wrote.readFault 1 (0x1003E / 64 * 64) 64 = 0 ∧
    wrote.xlate 1 (0x1003E / 64 * 64 + 8 * (7 % 8)) ≠ none := by
  refine ⟨?_, ⟨?_, ?_⟩, ?_⟩ <;> decide +kernel

theorem witness_BeatsAreServed_turns :
    ((wrote.xlate 1 0x1003E).map channelOf).getD 0 = 0 ∧ Cells.get (fun _ => 0) live.mem.admitted 0 < live.c0Budget ∧
    live.c0Budget ≤ Cells.get (fun _ => 0) [(0, live.c0Budget)] 0 ∧ live.rd Reg.PERTURB_DRAM_LAT0 = 0 ∧
    refreshHeld.refreshing 0 = true ∧ engineClass 5 = 0 ∧ engineClass 9 = 2 ∧ spentC3.classWeight 2 = 2 ∧ spentC3.classWeight 3 = 0 ∧
    Cells.get (fun _ => 0) spentC3.mem.preempted 0 = 0 ∧ Cells.get (fun _ => 0) spentC3.mem.credit 3 = 0 ∧
    Cells.get (fun _ => 0) spentC3.mem.credit 2 ≠ 0 ∧ spentC3.chanTurn 0 12 [9] = none ∧
    mopDueNow.mem.mopDue = true ∧ mopDueNow.tim.running = false ∧ live.flag Reg.MEMC_STATUS_SWITCHING = false ∧
    live.mem.mopDue = false ∧ live.mem.copies.all (fun c => c.ended) = true ∧ live.gateClosed 0x110 = false := by
  decide +kernel

/-- A TABLE packet that waits for the copy of its page. -/
def stagedWaits : State := { retiring with isl := { retiring.isl with staged := [⟨9, 1, 0x10010, [1, 2]⟩] } }

theorem witness_PagesAndHalts : wrote.Serves .ECC 0x113 ∧ wrote.mapUp = true ∧ wrote.pageState 9 = 0 ∧
    (after (execRetireCmd 0 (0x80000000#32 + 9) wrote)).pageState 9 = 2 ∧ wrote.pageState 0 = 1 ∧
    (wrote.put (Reg.BANKS_OWN_ACTIVE 33) 0).mapUp = false ∧
    wrote.mem.copies.any (fun c => c.oldPage == 0) = false ∧ wrote.lowestFree = some 1 ∧
    retiring.mem.copies = [⟨0, 1, 2, 0, false⟩] ∧ retiring.tim.running = false ∧ retiring.mem.poison = [] ∧
    retiring.bankOn 33 = true ∧ live.mem.poison = [] ∧ stagedWaits.isl.staged = [⟨9, 1, 0x10010, [1, 2]⟩] ∧
    stagedWaits.migWaits 8 1 0x10010 = true ∧
    live.mem.copies.find? (fun c => !c.ended) = none ∧ live.flag Reg.ECC_SCRUB_EN = true ∧ live.dramReady = true ∧
    (live.put Reg.ECC_SCRUB_EN 0).flag Reg.ECC_SCRUB_EN = false ∧ retiring.migWaits 12 1 0x10010 = true ∧
    retiring.migWaits 12 1 0 = false ∧ engineHalts 12 = true := by
  simp only [serves_iff]; decide +kernel

/-- Engines halted at a beat while DRAM sleeps; BULK halted in a transfer of 16 bytes. -/
def asleepAt (e : Nat) : State := (haltedAt e).put Reg.MEMC_STATUS_SWITCHING 1
def bulkHalted (dir : Bool) : State := { haltedAt 9 with mem := { (haltedAt 9).mem with bulk := ⟨1, 0x10010, 16, dir, 0⟩ } }

theorem witness_PagesAndHalts_commands :
    wrote.Serves .MEMC 0x110 ∧ mayCommand 3 15 = false ∧ mayCommand 3 12 = true ∧
    mayCommand 0 9 = true ∧ live.haltedBeat 15 = none ∧ (haltedAt 12).Serves .MEMC 0x110 ∧
    (haltedAt 12).haltedBeat 12 = some ⟨12, 1, 0x10010, none, false⟩ ∧
    (haltedAt 9).haltedBeat 9 = some ⟨9, 1, 0x10010, none, false⟩ ∧
    (haltedAt 12).readFault 1 (0x10010 / 64 * 64) 64 = 0 ∧ noInjection (haltedAt 12) ∧ (haltedAt 12).dramReady = true ∧
    (asleepAt 12).dramReady = false ∧ (asleepAt 12).Serves .MEMC 0x110 ∧
    (asleepAt 12).haltedBeat 12 = some ⟨12, 1, 0x10010, none, false⟩ ∧ (bulkHalted true).Serves .MEMC 0x110 ∧
    (bulkHalted true).haltedBeat 9 = some ⟨9, 1, 0x10010, none, false⟩ ∧
    min ((bulkHalted true).mem.bulk.len - (bulkHalted true).mem.bulk.pos) (64 - 0x10010 % 64) = 16 := by
  simp only [serves_iff, noInjection]; decide +kernel

/-- No page is free any more. -/
def allUsed : State := live.sramPut 33 0x10000 (List.replicate 32768 (physWord 0 1))

theorem allUsed_page (p : Nat) (h : p < 32768) : allUsed.pageState p = 1 := by
  have e : allUsed.sramRd 33 (0x10000 + p) = physWord 0 1 := by
    unfold allUsed State.sramRd State.sramPut
    rw [Cells.get_putRun, if_pos (by rw [List.length_replicate]; unfold sramKey; omega), List.getD_eq_getElem?_getD,
      List.getElem?_replicate, if_pos (by unfold sramKey; omega)]
    rfl
  unfold State.pageState State.physEntry State.mapRd
  rw [show allUsed.bankOn 33 = true from (by decide +kernel : live.bankOn 33 = true), e]
  decide

theorem allUsed_findFree (n p : Nat) (h : p + n ≤ 32768) : allUsed.findFree n p = none := by
  induction n generalizing p with
  | zero => rfl
  | succ n ih =>
    have : allUsed.pageFree p = false := by unfold State.pageFree; rw [allUsed_page p (by omega)]; rfl
    unfold State.findFree
    rw [this]
    exact ih (p + 1) (by omega)

theorem witness_RetirementFails : live.Serves .ECC 0x113 ∧ live.mapUp = true ∧ allUsed.regs = live.regs ∧ allUsed.pageState 32767 = 1 ∧
    allUsed.mem.copies = [] ∧ allUsed.lowestFree = none :=
  ⟨by simp only [serves_iff]; decide +kernel, by decide +kernel, rfl, allUsed_page _ (by decide), rfl, allUsed_findFree _ _ (by decide)⟩

/-- A region of one committed page, and a transfer under way from the window and to it. -/
def bulk0 : State := wrote.wrN Reg.BULK_OFFSET 0x1F800 |>.put Reg.BULK_TARGET_HANDLE 1
def bulkOut : State := after (execBulkGo 0 4#32 bulk0)
def bulkIn : State := after (execBulkGo 3 0x08000006#32 bulk0)

theorem witness_BulkMoves : bulk0.Serves .BULK 0x114 ∧ bulkOut.Serves .BULK 0x114 ∧ (511 : Nat) < 512 ∧
    bulk0.flag Reg.BULK_BSTAT_BUSY = false ∧
    (∀ s ∈ [bulkOut, bulkIn], s.boot.resetLow = false ∧ s.flag Reg.BULK_BSTAT_BUSY = true ∧
      s.flag Reg.BULK_BSTAT_HALTED = false ∧ s.dramReady = true ∧ s.mem.bulk.pos = 0 ∧ s.mem.bulk.handle = 1 ∧
      s.mem.bulk.ofs = 0x1F800 ∧ s.mem.bulk.len ≤ 2048 ∧ 0 < s.mem.bulk.len ∧
      (s.put Reg.MEMC_STATUS_SWITCHING 1).dramReady = false ∧
      s.rd Reg.PERTURB_PAGER = 0 ∧ s.rd Reg.PERTURB_ECC_INJ = 0 ∧ s.mem.copies = [] ∧ s.mem.poison = [] ∧
      (s.rd Reg.BULK_OFFSET).toNat % 8 = 0 ∧ s.fld Reg.BULK_TARGET_HANDLE = 1 ∧ s.xlate 1 0x1F800 = some 0xF800 ∧
      (s.rd Reg.BULK_OFFSET).toNat = 0x1F800 ∧ 0x1F800 % 65536 + s.mem.bulk.len ≤ 65536 ∧ s.migWaits 9 1 0x1F800 = false ∧
      s.gateClosed 0x114 = false) ∧ bulkOut.flag Reg.BULK_CTRL_DIR = false ∧ bulkIn.flag Reg.BULK_CTRL_DIR = true := by
  simp only [serves_iff]; decide +kernel

/-! Banks and clocks. -/

/-- A handover of B47 that asks for CLEAR is pending; its fill has begun; one of B33 without CLEAR; B32 comes back. -/
def pend47 : State := after (execOwnWrite 0 47 0x201#32 live)
def clear47 : State := after (execHandover 47 [] pend47)
def pend33 : State := after (execOwnWrite 0 33 0x000#32 live)
def away32 : State := after (execHandover 32 [] (after (execOwnWrite 0 32 4#32 live)))
def back32 : State := after (execOwnWrite 0 32 1#32 away32)
/-- A bank that is not ON. -/
def bankOff : State := (live.put (Reg.PWR_DOM_STATE_CUR (47 + 47)) 3)

theorem witness_BanksChangeHands : live.Serves .BANKS 0x118 ∧ (31 : Nat) < 48 ∧ (6 : Nat) ≤ (6 : Word).toNat % 8 ∧
    (3 : Word).toNat % 8 < 6 ∧ lazy3.Serves .BANKS 0x118 ∧ lazy3.bankOwner 33 = ownAlloc ∧ lazy3.mem.regions ≠ [] ∧
    (live.bankOwner 47 ≠ ownPix ∨ live.bankUsed 47 = false) ∧ live.mem.regions = [] ∧ live.groupMember = false ∧
    live.flag (Reg.BANKS_OWN_PENDING 47) = false ∧ live.bankOn 47 = true ∧ 1 ≠ live.bankOwner 47 ∧
    live.gateClosed 0x118 = false ∧ pend47.flag (Reg.BANKS_OWN_PENDING 47) = true ∧
    pend47.flag (Reg.BANKS_OWN_CLEAR_BUSY 47) = false ∧ pend47.mem.clears.contains 47 = true ∧
    clear47.flag (Reg.BANKS_OWN_CLEAR_BUSY 47) = true ∧ clear47.flag (Reg.BANKS_OWN_PENDING 47) = true ∧
    clear47.mem.clears.contains 47 = true ∧ pend33.flag (Reg.BANKS_OWN_PENDING 33) = true ∧
    pend33.flag (Reg.BANKS_OWN_CLEAR_BUSY 33) = false ∧ pend33.mem.clears.contains 33 = false ∧
    live.bankOwner 44 = ownHost ∧ live.bankOwner 33 ≠ ownHost ∧
    (∀ b ∈ [44, 33, 31], (live.wrN Reg.BANKS_WIN_ADDR (b * 2 ^ 24 + 4 * 131071)).fld Reg.BANKS_WIN_ADDR_BANK = b ∧
      (live.wrN Reg.BANKS_WIN_ADDR (b * 2 ^ 24 + 4 * 131071)).fld Reg.BANKS_WIN_ADDR_OFFSET = 131071) ∧
    pend33.bankOn 33 = true ∧ pend33.bankOwner 33 < 4 ∧
    pend33.bankOwner 33 ≠ ownCtl ∧ pend33.boot.resetLow = false ∧ bankOff.flag (Reg.BANKS_OWN_PENDING 47) = false ∧
    bankOff.mem.clears.contains 47 = false ∧ live.bankOwner 32 = ownCtl ∧ live.bankOn 32 = true ∧ (4 : Word).toNat % 8 ≠ ownCtl ∧
    back32.flag (Reg.BANKS_OWN_CLEAR_BUSY 32) = false ∧ back32.flag (Reg.BANKS_OWN_PENDING 32) = true ∧
    back32.mem.clears.contains 32 = false ∧ back32.fld (Reg.BANKS_OWN_OWNER 32) = ownCtl ∧
    bankOff.bankOn 47 = false ∧ bankOff.Serves .BANKS 0x118 ∧ bankOff.bankOwner 47 ≠ 1 := by
  simp only [serves_iff]; decide +kernel

/-- The crystal is stable after a loss; then it is lost again. REFCLK runs. PLL_SYS has locked, and HCLK switches. -/
def xtalBack : State := after (execXtalStable { live with clk := { live.clk with xtalLost := true } })
def sysLocked : State := after (execPllLock 0 live)
def sysRuns : State := after (execClkSwitchDone 1 (after (execClkSwitchDone 0 sysLocked)))

theorem witness_ClocksComeAndGo : live.boot.resetLow = false ∧ live.gateClosed 2 = false ∧
    live.flag Reg.CLK_STATUS_XTAL_OK = false ∧ xtalBack.flag Reg.CLK_STATUS_XTAL_OK = true ∧ xtalBack.gateClosed 2 = false ∧
    (999 : Nat) ≤ 1001 ∧ (998 : Nat) < 999 ∧ (5 : Nat) < 6 ∧ live.muxTo 0 = none ∧ live.muxTo 1 = none ∧
    live.flag Reg.MEMC_STATUS_SWITCHING = false ∧ (live.put Reg.MEMC_STATUS_SWITCHING 1).flag Reg.MEMC_STATUS_SWITCHING = true ∧
    sysRuns.muxTo 0 = none ∧ sysRuns.muxTo 1 = none ∧ 3 ≤ ({ xtalBack with clk := { xtalBack.clk with refRun := 3 } } : State).clk.refRun ∧
    xtalBack.clk.refRun < 3 ∧
    live.clk.refRun < 3 := by decide +kernel

theorem witness_ClocksSwitch : sysRuns.Serves .CLK 2 ∧ sysRuns.flag Reg.CLK_STATUS_SYS_LOCK = true ∧
    (sysRuns.rd Reg.CLK_CFG ^^^ 0x031#32) &&& 0x300#32 = 0 ∧ sysRuns.muxTo 0 = none ∧ sysRuns.muxTo 1 = none ∧
    sysLocked.gateClosed 2 = false ∧ sysLocked.muxTo 0 = some 0 ∧ live.muxTo 3 = none ∧
    (sysLocked.muxTo 1).isSome = true ∧ live.rd Reg.PERTURB_CLKSW = 0 ∧ live.flag Reg.CLK_STATUS_XTAL_OK = false ∧
    xtalBack.flag Reg.CLK_STATUS_XTAL_OK = true ∧ 25568 ≤ 25568 ∧ 25632 < 25633 ∧ 25567 < 25568 ∧
    xtalBack.fld Reg.CLK_AON_TRIM_CODE < 127 ∧ 0 < xtalBack.fld Reg.CLK_AON_TRIM_CODE := by
  simp only [serves_iff]; decide +kernel

/-! Power domains, supplies, wakes, resets. -/

/-- D7 asked for RET and drained; a later request replaced another; on its way back to ON. -/
def reqDom (s : State) (n : Nat) (k : Word) : State := after (execDomainReqWrite 0 n k s)
def toRet : State := reqDom live 7 2
def inRet : State := after (execDomainTransitionDone 7 false (after (execDomainDrainDone 7 toRet)))
def toOff : State := live.domBegin 46 3 0
def offPad : State := after (execDomainDrainDone 45 (live.domBegin 45 3 0))

/-- Pawn mode, with D10 OFF. -/
def bootPawn : State := { live.put (Reg.PWR_DOM_STATE_CUR 10) 3 with boot := { live.boot with phase := 4 } }

theorem witness_DomainRequests : live.Serves .PWR 3 ∧ toRet.Serves .PWR 3 ∧ (94 : Nat) < 95 ∧
    (0x80000003 : Word).toNat % 4 = 3 ∧ live.domBusy 94 = false ∧ live.domCur 94 = 1 ∧ toRet.domBusy 7 = true ∧
    toRet.domPending 7 = 0 ∧ (reqDom toRet 7 1).domPending 7 = 1 ∧ inRet.domCur 7 = 2 ∧ inRet.domBusy 7 = false ∧
    (inRet.put (Reg.PWR_DOM_STATE_CUR 7) 3).domCur 7 = 3 ∧ (live.refusal 10 3).isSome = true ∧
    live.refusal 7 2 = none ∧ live.refusal 94 3 = none ∧ live.pawn = false ∧ bootPawn.pawn = true ∧
    bootPawn.Serves .PWR 3 ∧ bootPawn.domCur 10 = 3 ∧ bootPawn.domBusy 10 = false := by
  simp only [serves_iff]; decide +kernel

theorem witness_DomainsMove : live.gateClosed 3 = false ∧ live.boot.resetLow = false ∧ live.domTrans 94 = none ∧
    toRet.gateClosed 3 = false ∧ toRet.domTrans 7 = some ⟨7, 2, 0, false⟩ ∧ toRet.refusal 7 2 = none ∧ domUnits 7 ≠ [] ∧
    (live.domBegin 10 3 0).domTrans 10 = some ⟨10, 3, 0, false⟩ ∧ ((live.domBegin 10 3 0).refusal 10 3).isSome = true ∧
    (live.domBegin 10 3 0).domPending 10 = 0 ∧ toOff.domTrans 46 = some ⟨46, 3, 0, false⟩ ∧ toOff.refusal 46 3 = none ∧
    offPad.domTrans 45 = some ⟨45, 3, 1, false⟩ ∧ offPad.domPending 45 = 0 ∧ (reqDom offPad 45 1).domPending 45 = 1 ∧
    (reqDom offPad 45 1).domTrans 45 = some ⟨45, 3, 1, false⟩ ∧ (reqDom inRet 7 1).domTrans 7 = some ⟨7, 1, 2, false⟩ ∧
    (reqDom inRet 7 1).domCur 7 = 2 ∧ (domNeeds 7).all (reqDom inRet 7 1).domOn = true ∧
    (reqDom inRet 7 1).domPending 7 = 0 ∧ (domNeeds 17).any (fun d => !(toOff.domOn d)) = false := by
  decide +kernel

/-- An AVSBus exchange is under way, one for the other rail waits. -/
def lowMax : State := (live.put Reg.PWR_OP_CFG_MAX 0).put Reg.PWR_OP_STATUS_MAX_ACTIVE 0
def raising : State := after (execOpCfgWrite 0 0x21#32 lowMax)
def raisingTwo : State := after (execVserWrite 0 0x3FF#32 raising)

theorem witness_SuppliesFollow : live.Serves .PWR 3 ∧ raising.Serves .PWR 3 ∧ live.pwr.avs = none ∧
    raising.pwr.avs.isSome = true ∧ raising.boot.resetLow = false ∧ raising.gateClosed 3 = false ∧
    2 < live.fld Reg.PWR_OP_CFG_MAX ∧ 2 < live.pixOp ∧ lowMax.Serves .PWR 3 ∧ ¬(1 < lowMax.fld Reg.PWR_OP_CFG_MAX) ∧
    raisingTwo.pwr.avs.map (fun r => (r.rail, r.resends, r.held, r.newMax)) = some (0, 0, false, some 1) ∧
    raisingTwo.pwr.avsWait.length = 1 ∧ (raising.pwr.avsWait = []) ∧
    raising.fld ⟨Reg.PERTURB_AVS_DELAY, 0, 16⟩ = 0 ∧ raising.pwr.avs.map (fun r => decide (r.mv < 1014)) = some true := by
  simp only [serves_iff]; decide +kernel

/-- GPIO0 and the alarm are wake sources; D7 and D10 of those that wake are not ON; the alarm is armed. -/
def asleep : State := (((live.wr Reg.PWR_WAKE_SRC 0x804#32).wr (Reg.PWR_WAKE_DOMS 0) 0x80#32).wr (Reg.PWR_WAKE_DOMS 2)
  0x40000000#32).put (Reg.PWR_DOM_STATE_CUR 94) 3 |>.put (Reg.PWR_DOM_STATE_CUR 7) 2
def armed : State :=  after (execAlarmWrite 0 false 0#32 (after (execAlarmWrite 0 true 0#32 asleep)))

theorem witness_WakesAndPads : asleep.boot.resetLow = false ∧ asleep.gateClosed 1 = false ∧
    (asleep.rd Reg.PWR_WAKE_SRC).toNat.testBit (8 + 2) = false ∧ (asleep.rd Reg.PWR_WAKE_SRC).toNat.testBit (8 + 3) = true ∧
    (asleep.rd (Reg.PWR_WAKE_DOMS (94 / 32))).toNat.testBit (94 % 32) = true ∧ asleep.domBusy 94 = false ∧
    asleep.domCur 94 ≠ 1 ∧ asleep.Serves .AON 1 ∧ asleep.pwr.alarmArmed = false ∧ armed.pwr.alarmArmed = true ∧
    armed.boot.resetLow = false ∧ armed.gateClosed 1 = false ∧ (armed.rd Reg.PWR_WAKE_SRC).toNat.testBit 2 = true ∧
    (armed.rd Reg.AON_ALARM).toNat + 2 ^ 32 * (armed.rd Reg.AON_ALARM_HI).toNat ≤ armed.timebase ∧ armed.Serves .PWR 3 ∧ asleep.pawn = false ∧
    (0x4 : Word).toNat.testBit 2 = true ∧ live.domOn (44 + 2) = true ∧ offPad.domOn (44 + 1) = false := by
  simp only [serves_iff]; decide +kernel

/-- A slot saved; the same in reset. -/
def savedThen : State := live.saveDomain 7

theorem witness_ResetsAndSavesKeep : domUnits 7 ≠ [] ∧ Cells.wf resetWord live.regs = true ∧
    inPages (domPages 7) Reg.ZONE_GRID = true ∧ Cells.wf resetWord savedThen.regs = true ∧ (15 : Nat) < 16 ∧
    held.boot.resetLow = true ∧ savedThen.pwr.slots.length = 1 ∧ live.boot.resetLow = false := by decide +kernel

/-! NVC. -/

/-- NVC has scanned an empty flash; a record's key, length and data stand ready; it is being written; it is written. -/
def scanned : State := after (execNvScan true live)
def keyed : State := (scanned.wr Reg.NV_REC_KEY 0xFE0007#32).wr Reg.NV_REC_LEN 12#32
def appending : State := after (execNvAppend 0 true 0#32 keyed)
def finish (s : State) : Nat → State
  | 0 => s
  | n + 1 => match s.nv.todo with
    | [] => s
    | _ => finish (after (execFlashOpDone true s)) n
def appended : State := finish appending 20
def savingNow : State := after (execNvSave 0 true 0#32 scanned)

/-- All sectors but one are kept in reserve, and a live record leaves no room in that one. -/
def crowded : State := { keyed.put Reg.NV_CFG_FREE_MIN 255 with
  nv := { keyed.nv with recs := [⟨0, 12, 1, 1, 0x80, 0, 4064, 0, 1, 0⟩] } }

theorem witness_RecordsAreKept : live.Serves .NV 6 ∧ live.nvIdle = false ∧ live.nv.saving = false ∧
    savingNow.Serves .NV 6 ∧ savingNow.nv.saving = true ∧ keyed.Serves .NV 6 ∧ keyed.nvIdle = true ∧
    keyed.fld Reg.NV_REC_KEY_TYPE = 0xFE ∧ keyed.flag Reg.NV_REC_KEY_FACTORY = false ∧ keyed.fld Reg.NV_REC_LEN_LEN = 12 ∧
    presentOf keyed.nv.recs 0xFE 7 = none ∧ appended.nvIdle = true ∧ appended.Serves .NV 6 ∧
    (presentOf appended.nv.recs 0xFE 7).map (fun r => decide (r.len ≤ 4064 ∧ r.seq < 2 ^ 32)) = some true ∧
    keyed.nvRoom [recordSize 12] = true ∧ appended.nv.inUse ≠ 0 ∧ appended.nvRoom [recordSize 12] = true ∧
    appended.nv.headOff + recordSize 12 ≤ 4096 ∧ appended.nv.nextSeq < 2 ^ 32 ∧
    (keyed.wr Reg.NV_REC_KEY 0x13F0007#32).flag Reg.NV_REC_KEY_FACTORY = true ∧
    (keyed.wr Reg.NV_REC_KEY 0x3F0007#32).fld Reg.NV_REC_KEY_TYPE = 0x3F ∧
    4064 < (keyed.wr Reg.NV_REC_LEN 4065#32).fld Reg.NV_REC_LEN_LEN ∧
    crowded.nvRoom [recordSize 12] = false ∧ crowded.nvRoom [recordSize 0] = false ∧ crowded.nvIdle = true ∧
    appended.nvRoom [recordSize 0] = true ∧ appended.nv.headOff + recordSize 0 ≤ 4096 := by
  simp only [serves_iff]; decide +kernel

/-- A raw operation at an address. -/
def rawAt (a n : Nat) : State := (scanned.wrN Reg.NV_RAW_ADDR a).wrN Reg.NV_RAW_LEN n
def rawOpen (a : Nat) : State := (rawAt a 256).put Reg.SEC_STATE_OPEN 1

theorem witness_RawOperations : (3 : Nat) < 4 ∧ live.Serves .NV 6 ∧ live.nvIdle = false ∧ savingNow.nv.saving = true ∧
    (rawAt 0x8100FF 256).Serves .NV 6 ∧ (rawAt 0x8100FF 256).nvIdle = true ∧ (rawAt 0x8100FF 256).rawAddr = 0x8100FF ∧
    0x8100FF % 4096 ≠ 0 ∧ 0x81F000 % 65536 ≠ 0 ∧
    (∀ a ∈ [0, 0xFFFF, 0x810000, 0x100FFFF, 0x1010000, 0x110FFFF, 0x1110000, 0x111FFFF, 0x1120000, 0x1FFFFFF],
      (rawAt a 1).rawAddr = a) ∧ flashPart 0x1010000 = 2 ∧ flashPart 0x110FFFF = 2 ∧ flashPart 0 = 0 ∧
    flashPart 0x1110000 = 3 ∧ flashPart 0x810000 = 1 ∧ flashPart 0x1FFFFFF = 4 ∧ (rawAt 0 1).presenceOpen = false ∧
    (rawOpen 0).presenceOpen = true ∧ (rawOpen 0x1110000).Serves .NV 6 ∧ (rawOpen 0x1110000).nvIdle = true := by
  simp only [serves_iff]; decide +kernel

def erasing : State := after (execErase4k 0 true true 0#32 (rawAt 0x810000 0))
def programming : State := after (execNvProgram 0 true true 0#32 (rawAt 0x1FFFFF0 16))

theorem witness_FlashAndBuffer : programming.boot.resetLow = false ∧
    (match programming.nv.todo with | .program a l :: _ => a + l.length == 2 ^ 25 | _ => false) = true ∧
    erasing.nv.todo = [.erase 0x810000 false, .rawEnd 0] ∧ erasing.gateClosed 6 = false ∧ erasing.nv.todo.length < 1200 ∧
    live.nv.todo = [] ∧ appending.nv.todo ≠ [] ∧ appending.gateClosed 6 = false ∧ appending.nv.todo.length < 1200 ∧
    appending.nv.todo.contains (.recEnd 0) = true ∧ savingNow.nv.todo ≠ [] ∧ savingNow.nv.todo.length < 1200 ∧
    savingNow.gateClosed 6 = false ∧ live.Serves .NV 6 ∧ live.ageOf 16383 < 2 ^ 48 := by
  simp only [serves_iff]; decide +kernel

theorem witness_RecordsAreFound : (66 : Nat) < 2 ^ 8 ∧ 0xFFFF < 2 ^ 16 ∧ (4 : Nat) < 2 ^ 8 ∧ 0xFFFFFFFF < 2 ^ 32 ∧
    (List.replicate 4064 (7 : Byte)).length ≤ 4064 ∧
    (List.replicate 12 (0xFF : Byte)).length + recordSize (List.replicate 4064 (7 : Byte)).length ≤ 4096 := by decide +kernel

theorem witness_SavesAndScans : live.Serves .NV 6 ∧ live.nvIdle = false ∧ scanned.Serves .NV 6 ∧ scanned.nvIdle = true ∧
    scanned.nv.log.length ≤ 64 ∧ scanned.zoneTotal ≤ 16384 ∧ live.boot.resetLow = false ∧ live.gateClosed 6 = false ∧
    scanned.flag Reg.NV_STATUS_READY = true ∧ live.domCur 46 = 1 ∧ live.flag Reg.NV_STATUS_READY = false ∧
    live.nv.flash = [] ∧ live.nv.todo = [] ∧ (toOff.put (Reg.PWR_DOM_STATE_CUR 46) 3).domCur 46 ≠ 1 := by
  simp only [serves_iff]; decide +kernel

/-! Start-up, turns, injection, the TAP; device groups. -/

/-- Step 3 of the start-up is over; D10 and D11 train; the firmware starts. -/
def clockedUp : State := { live with boot := { live.boot with clocked := true } }
def booting (phase : Nat) (trial : Bool) : State := { clockedUp with boot := { clockedUp.boot with phase, trial } }

theorem witness_BootsAreCounted : live.boot.resetLow = false ∧ live.boot.phase = 0 ∧ live.bootClocked = false ∧
    clockedUp.bootClocked = true ∧ clockedUp.flag Reg.HOSTIF_STRAPS_BOOT_SRC = false ∧ clockedUp.pawnProfile = none ∧
    (clockedUp.put Reg.HOSTIF_STRAPS_BOOT_SRC 1).flag Reg.HOSTIF_STRAPS_BOOT_SRC = true ∧
    (clockedUp.put Reg.HOSTIF_STRAPS_BOOT_SRC 1).pawnProfile = none ∧
    max (clockedUp.rd Reg.AON_BOOT_TRIES).toNat clockedUp.nvTries < 3 ∧
    3 ≤ max ((clockedUp.wrN Reg.AON_BOOT_TRIES 3).rd Reg.AON_BOOT_TRIES).toNat clockedUp.nvTries ∧
    clockedUp.boot.trial = false ∧ clockedUp.headerSlot = none ∧ (clockedUp.slotCheck 0).code ≠ 0 ∧
    (clockedUp.slotCheck 1).code ≠ 0 := by decide +kernel

/-- An image that the key hash signs lies in slot 1, and no header names a slot; then header 0 names it. -/
def inFlash (s : State) (a : Nat) (l : List Byte) : State :=
  { s with nv := { s.nv with flash := Cells.putRun flashDefault s.nv.flash a l } }
def imaged : State :=
  inFlash (inFlash { clockedUp with boot := { clockedUp.boot with keyHash := some imageKey } } (slotBase 1) (imageRead 0 192))
    (slotBase 1 + 512) (imageRead 512 4)
def headerBytes : List Byte := leBytes 4 0x48424D54 ++ leBytes 8 (7 + 2 ^ 32)
def named : State := inFlash imaged 0 (headerBytes ++ leBytes 4 (crc32 headerBytes))

theorem witness_SlotsAreLoaded : (imaged.slotCheck 1).code = 0 ∧ imaged.headerSlot = none ∧ imaged.bootClocked = true ∧
    (imaged.slotCheck 0).code ≠ 0 ∧ named.headerSlot = some 1 ∧ imaged.boot.phase = 0 := by decide +kernel

theorem witness_BootsEnd : live.boot.phase ≠ 1 ∧ (booting 1 false).boot.phase = 1 ∧ (booting 1 false).boot.trial = false ∧
    (6 : Nat) % 2 = 0 ∧ (7 : Nat) % 2 = 1 ∧ (booting 2 true).Serves .TEST 7 ∧ (1 : Word).toNat % 2 = 1 ∧
    (booting 2 true).boot.trial = true ∧ (booting 2 false).boot.phase = 2 ∧ (booting 2 false).boot.resetLow = false := by
  simp only [serves_iff]; decide +kernel

/-- The sweep stands at a bank's last segment; a table's reference is set. -/
def lastSeg : State := { live with test := { live.test with bank := 31, segment := 63 } }
def refSet : State := { after (execLutTurn 0 live) with test := { (after (execLutTurn 0 live)).test with table := 0 } }

def noMap : State := live.put (Reg.BANKS_OWN_ACTIVE 33) 0

theorem witness_TurnsRun : live.boot.resetLow = false ∧ live.gateClosed 7 = false ∧
    live.turnMay 0 (live.fld Reg.TEST_CFG_SRAM_TURNS) = true ∧ live.sramBank live.test.bank = some 0 ∧
    lastSeg.sramBank 31 = some 31 ∧ 63 < 256 ∧ live.turnMay 1 (live.fld Reg.TEST_CFG_DRAM_TURNS) = true ∧
    live.domOn 10 = true ∧ live.domOn 11 = true ∧ live.gateClosed 0x113 = false ∧
    live.dramReady = true ∧ live.mapUp = true ∧ noMap.mapUp = false ∧
    live.findFree 32768 live.test.page = some 0 ∧ live.turnMay 2 (live.fld Reg.TEST_CFG_LUT_TURNS) = true ∧
    live.tim.running = false ∧ live.lutTable = some 0 ∧ refSet.lutTable = some 0 ∧
    Cells.get (fun _ => none) refSet.test.refs 0 = refSet.lutBank 0 ∧
    (booting 4 false).turnMay 0 ((booting 4 false).fld Reg.TEST_CFG_SRAM_TURNS) = false ∧
    (booting 4 false).turnMay 1 ((booting 4 false).fld Reg.TEST_CFG_DRAM_TURNS) = false ∧
    (booting 4 false).turnMay 2 ((booting 4 false).fld Reg.TEST_CFG_LUT_TURNS) = false := by decide +kernel

/-- The presence window is open. -/
def openNow : State := live.put Reg.SEC_STATE_OPEN 1

theorem witness_InjectionsObey : live.Serves .PERTURB 8 ∧ openNow.Serves .PERTURB 8 ∧ (3 : Nat) < 4 ∧
    live.presenceOpen = false ∧ openNow.presenceOpen = true ∧
    (∀ a ∈ perturbRegs, (rowAt .PERTURB (a - 0x8000)).isSome = true) ∧ Reg.PERTURB_CRC_INJ ∈ perturbRegs ∧
    Reg.PERTURB_ECC_INJ ∈ perturbRegs ∧ (0xFFFF0007 : Word).toNat / 2 ^ 16 ≠ 0 ∧
    (after (execPerturbWrite 3 (Reg.PERTURB_ECC_INJ - 0x8000) 0xFFFF0003#32 openNow)).c0Injected = true ∧
    (after (execPerturbWrite 3 (Reg.PERTURB_CRC_INJ - 0x8000) 0xFFFF0007#32 openNow)).c0Injected = false ∧
    (0xFFFFFFFF : Word).toNat % 2 = 1 := by simp only [serves_iff]; decide +kernel

theorem witness_TapScans : live.tapPrivate 0x03 = false ∧ live.tapPrivate 0x04 = false ∧ live.tapPrivate 0x7F = false ∧
    255 < 256 ∧ live.tap.ir ≠ 0x10 ∧ (after (execRunbist [] live)).tap.ir = 0x10 := by decide +kernel

/-- A member with its west and east neighbours; it has a position. -/
def member : State :=
  carrying (((after (execRegWrite 0 Reg.CAS_CFG 0x7F1#32 live)).put (casLaneFld 2) 2).put (casLaneFld 0) 2)
    ((List.range 4).flatMap (fun k => [laneCasRx k, laneCasTx k]))
def posBlock (x y : Nat) : List Byte := ctlBlock 0xD2 0 (leBytes 2 x ++ leBytes 2 y ++ [1])
def placed : State := after (execCasPos 2 (posBlock 255 0) member)
def northUp : State := placed.put (casLaneFld 3) 2
def syncBlock : List Byte := ctlBlock 0xA5 0 (leBytes 4 9 ++ leBytes 3 5000 ++ leBytes 3 1 ++ leBytes 2 17)
def seamBlock (kind line first count : Nat) : List Byte :=
  ctlBlock 0xB4 0 (leBytes 1 kind ++ leBytes 2 line ++ leBytes 2 first ++ leBytes 2 count)
/-- A region of one page as handle 5, which holds the row that a north neighbour sends ahead. -/
def seamHeld : State :=
  let s := setA northUp Reg.CAS_SEAM (Reg.CAS_SEAM_HANDLE.put 0xFFFFFFFF#32 5)
  { s with mem := { s.mem with regions := [⟨5, 1, 0, true, true⟩] } }
def alone : State := member.put (casLaneFld 1) 3
def seamBytes : List Byte := List.replicate 12 1
def pulseOut : State := { placed with cas := { placed.cas with pulse := true } }
def ledBlinks (row : Nat) : State := { live with boot := { live.boot with ledRow := row } }

theorem witness_MembersFollow : member.boot.resetLow = false ∧ member.gateClosed 0x120 = false ∧ (3 : Nat) < 4 ∧
    member.laneCarries (laneCasRx 2) = true ∧ live.laneCarries (laneCasRx 2) = false ∧ blockGood (posBlock 255 0) = true ∧
    byteAt (posBlock 255 0) 0 = 0xD2 ∧ leField (blockBody (posBlock 255 0)).2 0 2 = 255 ∧ blockGood (List.replicate 16 0) = false ∧
    blockGood syncBlock = true ∧ byteAt syncBlock 0 = 0xA5 ∧ leField (blockBody syncBlock).2 4 3 = 5000 ∧
    blockGood (seamBlock 0 3 0 2) = true ∧ byteAt (seamBlock 0 3 0 2) 0 = 0xB4 ∧ leField (blockBody (seamBlock 0 3 0 2)).2 5 2 = 2 ∧
    placed.bankFor (seamBank 2) ownCas = true ∧
    placed.laneCarries (laneCasRx 2) = true ∧ (∀ e, e < 4 → member.laneCarries (laneCasTx e) = true) ∧
    (∀ e, e < 2 → placed.laneCarries (laneCasTx e) = true) ∧ live.casUp 0 = false ∧ live.groupMember = false ∧ member.casUp 2 = true ∧ member.groupMember = true ∧
    member.flag Reg.CAS_POS_VALID = false ∧ placed.casUp 0 = true ∧ placed.flag Reg.CAS_POS_VALID = true ∧
    placed.fld Reg.CAS_POS_X = 255 ∧ placed.fld Reg.CAS_POS_Y = 0 ∧ placed.groupMember = true ∧ placed.casRoot = false ∧
    (placed.casUp 2 = true) ∧ placed.gateClosed 0x120 = false ∧
    (seamBytes ++ leBytes 4 (crc32 seamBytes)).length = 6 * 2 + 4 ∧
    (seamBytes ++ leBytes 4 (crc32 seamBytes)).drop (6 * 2) = leBytes 4 (crc32 ((seamBytes ++ [9]).take (6 * 2))) ∧
    (seamBytes ++ leBytes 4 (crc32 seamBytes)).length = 4 * 3 + 4 ∧
    northUp.casUp 3 = true ∧ northUp.groupMember = true ∧ seamHeld.flagA Reg.CAS_SEAM_EN = true ∧
    seamHeld.casUp 3 = true ∧ seamHeld.groupMember = true ∧ seamHeld.laneCarries (laneCasRx 3) = true ∧
    ((seamHeld.vact : Int) - 32 < 65536) ∧
    alone.fld (casLaneFld 1) = 3 ∧ alone.casLaneOn 1 = true ∧ placed.cas.pulse = false ∧ pulseOut.cas.pulse = true ∧
    (ledBlinks 1).boot.ledRow < 2 ∧ 2 ≤ (ledBlinks 3).boot.ledRow := by decide +kernel

end Sys2Proof.Tests
end

section
/-! PROOFS. Reads of 64-bit registers by halves (R10): what a port's read of a stored register comes to, what the latch of
a port does, and that both halves of every 64-bit register are stored registers. -/

namespace Sys2Proof.Machine

variable {s : State} {u : Unit} {a : Nat}

/-! A read of a register that holds its own value. -/

/-- The registers whose read moves a data window on or draws a free value. -/
def actingReads : List Nat :=
  [Reg.SEC_STATE, Reg.NV_BUF_DATA, Reg.NV_AGE_DATA, Reg.INPUT_LUT_DATA, Reg.STATS_RB_DATA, Reg.CODEC_RB_DATA0,
    Reg.CODEC_RB_DATA1, Reg.ZONE_AG_DATA, Reg.ZONE_CLASS_DATA, Reg.ZONE_LV_DATA, Reg.PSF_DATA, Reg.SPLIT_CLIP_DATA,
    Reg.CELLLUT_DATA, Reg.DEFECT_DATA, Reg.DEFECT_AUTO_DATA, Reg.OD_DATA, Reg.THERM_REG_DATA, Reg.THERM_CONV_DATA,
    Reg.DITH_DATA, Reg.ECC_ET_DATA, Reg.BANKS_WIN_DATA]

/-- The registers outside arrays whose value is computed when they are read. -/
def computedReads : List Nat :=
  [Reg.CHIP_IRQ_SUMMARY, Reg.CLK_PIX_FREQ, Reg.PWR_OP_STATUS, Reg.INPUT_LUT_STATUS, Reg.NV_SAVE_PAGES, Reg.NV_SAVE_US,
    Reg.PWR_TIME_ON, Reg.PWR_TIME_RET, Reg.PWR_TIME_OFF, Reg.TEST_RUNS, Reg.TEST_FAILS, Reg.TEST_ABORTS,
    Reg.PERTURB_ACTIVE, Reg.ISL_BC_BC_STAT, Reg.CODEC_GEOM, Reg.CODEC_SLOT_BYTES, Reg.PATCH_SET_BYTES,
    Reg.PATCH_COARSE_BYTES, Reg.PATCH_MONO_OFF, Reg.PATCH_TILE_OFF, Reg.OD_STATE_BYTES, Reg.GATE_OUT, Reg.MEMC_C0_MAXLAT,
    Reg.MEMC_DEMAND, Reg.MEMC_LIMIT, Reg.MEMC_ACTIVE_PCT, Reg.REGION_INFO0, Reg.REGION_INFO1, Reg.REGION_INFO2]

/-- The registers of which each port has its own copy (R333, R379). -/
def copiedPerPort : List Nat := [Reg.HOSTIF_TREE_SEL, Reg.REGION_REQ, Reg.REGION_REQ_HANDLE, Reg.REGION_RESULT]

/-- An address in an array of registers that are computed when read: PARTNER's words, the EDL ports' payloads, the
groups' summaries, the window of BULK. -/
def inComputedArray (a : Nat) : Bool :=
  (Reg.EDL_PT_WORD 0 ≤ a && a ≤ Reg.EDL_PT_WORD 3) ||
    (0xA0 ≤ a / 0x1000 && a / 0x1000 < 0xE0 && a % 0x1000 == 0x4C) ||
    (0x71 ≤ a / 0x1000 && a / 0x1000 < 0x81 && a % 0x1000 == 0x48) ||
    (Reg.BULK_WIN 0 ≤ a && a < Reg.BULK_WIN 0 + 0x800)

/-- A register that reads as the word it holds, and whose read does nothing. -/
def ReadsItsWord (a : Nat) : Prop :=
  a ∉ actingReads ∧ a ∉ computedReads ∧ a ∉ copiedPerPort ∧ inComputedArray a = false

/-- A table of registers has no entry for an address that is not among its keys. -/
theorem find?_key_none {β : Type} {l : List (Nat × β)} {keys : List Nat} (hk : l.map Prod.fst = keys) (h : a ∉ keys) :
    l.find? (·.1 == a) = none := by
  subst hk
  refine List.find?_eq_none.2 fun e he hea => h ?_
  exact beq_iff_eq.1 hea ▸ List.mem_map_of_mem he

theorem State.keyFor_eq (port : Nat) (h : a ∉ copiedPerPort) : s.keyFor port a = a := by
  simp only [copiedPerPort, List.mem_cons, List.not_mem_nil, or_false] at h
  simp only [State.keyFor, if_neg h]

theorem State.viewReg_eq_rd (port : Nat) (hc : a ∉ computedReads) (hk : a ∉ copiedPerPort)
    (ha : inComputedArray a = false) : s.viewReg port a = s.rd a := by
  simp only [inComputedArray, Bool.or_eq_false_iff, Bool.and_eq_false_iff, decide_eq_false_iff_not, beq_eq_false_iff_ne]
    at ha
  obtain ⟨⟨⟨hpartner, hport⟩, hgroup⟩, hbulk⟩ := ha
  unfold State.viewReg
  extract_lets n32 table
  rw [find?_key_none (l := table) (keys := computedReads) rfl hc]
  simp only [State.keyFor_eq port hk]
  rw [if_neg (by omega), if_neg (by omega), if_neg (by omega), if_neg (by omega)]

theorem State.readReg_eq_rd (port : Nat) (h : ReadsItsWord a) : s.readReg port a = (s, s.rd a) := by
  obtain ⟨hact, hcomp, hcopy, harr⟩ := h
  unfold State.readReg
  extract_lets table
  rw [find?_key_none (l := table) (keys := actingReads) rfl hact]
  exact congrArg (Prod.mk s) (State.viewReg_eq_rd port hcomp hcopy harr)

/-- A block register of this device at a word's address, named by a row of its unit and not inert (R57), that reads as
the word it holds. -/
def StoredRead (u : Unit) (a : Nat) : Prop :=
  portAddr a = a ∧ a < 0x800000 ∧ 0x40 ≤ a % 0x1000 ∧ partnerAt a = none ∧ phyInert a = false ∧
    (rowAt u (a % 0x1000)).isNone = false ∧ ReadsItsWord a

/-- A stored register is read past every check, and the latch of the port has the last word. -/
theorem State.localRead_stored (port : Nat) (whole : Bool) (h : s.Serves u (a / 0x1000)) (hr : StoredRead u a) :
    s.localRead port a whole = s.latched port a (s.rd a) := by
  obtain ⟨-, -, hblock, hpartner, hinert, hrow, hword⟩ := hr
  simp only [State.localRead, h.unit, h.gate, h.power, h.clock, hpartner, hinert, hrow, State.readReg_eq_rd port hword,
    if_neg (show ¬ (a % 0x1000 = 0 ∨ a % 0x1000 = 4 ∨ a % 0x1000 = 0x28) by omega),
    if_neg (show ¬ a % 0x1000 < 0x30 by omega)]
  simp

theorem State.portRead_stored (port : Nat) (whole : Bool) (h : s.Serves u (a / 0x1000)) (hr : StoredRead u a)
    {t : State} {w : Word} (hl : s.latched port a (s.rd a) = (t, w)) (ht : t.boot = s.boot) :
    s.portRead port a whole = t.deliver port w := by
  have hs : s.portServed port = true := by simp [State.portServed, h.live]
  have htl : t.portServed port = true := by simp [State.portServed, ht, h.live]
  have hread := (State.localRead_stored port whole h hr).trans hl
  obtain ⟨haddr, hdev, -⟩ := hr
  simp [State.portRead, State.hostRead, haddr, hs, htl, Nat.not_le.2 hdev, hread]

/-! The latch of a port. -/

/-- A port's latch is filled or emptied. -/
def State.setLatch (s : State) (port : Nat) (v : Option (Nat × Word)) : State :=
  { s with host := { s.host with latch := Cells.set (fun _ => none) s.host.latch port v } }

theorem State.setLatch_get (port : Nat) (v : Option (Nat × Word)) :
    Cells.get (fun _ => none) (s.setLatch port v).host.latch port = v := Cells.get_set_self _ _ _ _

theorem State.setLatch_get_other {port q : Nat} (v : Option (Nat × Word)) (h : q ≠ port) :
    Cells.get (fun _ => none) (s.setLatch port v).host.latch q = Cells.get (fun _ => none) s.host.latch q :=
  Cells.get_set_other _ _ _ _ _ h.symm

theorem State.latched_low {b : Nat} (port : Nat) (w : Word) (h : highHalf a = some b) :
    s.latched port a w = (s.setLatch port (some (b, s.rd b)), w) := by
  simp [State.latched, h, State.setLatch]

theorem State.latched_taken {v : Word} (port : Nat) (w : Word) (h : highHalf a = none)
    (hl : Cells.get (fun _ => none) s.host.latch port = some (a, v)) :
    s.latched port a w = (s.setLatch port none, v) := by
  simp [State.latched, h, hl, State.setLatch]

theorem State.latched_empty (port : Nat) (w : Word) (h : highHalf a = none)
    (hl : Cells.get (fun _ => none) s.host.latch port = none) : s.latched port a w = (s, w) := by
  simp [State.latched, h, hl]

/-- A read of a stored register, by what the latch makes of it: a state that differs from the first in the latches
alone, and the word that the port is given. -/
theorem exec_read64Low_stored (port : Nat) (h : s.Serves u (a / 0x1000)) (hr : StoredRead u a) {t : State} {w : Word}
    (hl : s.latched port a (s.rd a) = (t, w)) (ht : t = { s with host := t.host }) :
    exec (.read64Low port a) s = .next (t.emit .hostData port [w.toNat]) := by
  have hb : t.boot = s.boot := by rw [ht]
  have hread : s.portRead port a true = t.emit .hostData port [w.toNat] := State.portRead_stored port true h hr hl hb
  have hst : Steady s (t.emit .hostData port [w.toNat]) := by
    rw [ht]; exact ⟨Nat.le_refl _, rfl, rfl⟩
  rw [exec_read64Low, s.unheld_steady _ h.live (by simpa only [hread] using hst), hread]

/-! The halves of the 64-bit registers. -/

/-- Both halves of a 64-bit register at an address are stored registers of one page, and the low one names the high. -/
def WidePair (u : Unit) (a : Nat) : Prop :=
  StoredRead u a ∧ StoredRead u (a + 4) ∧ (a + 4) / 0x1000 = a / 0x1000 ∧ highHalf a = some (a + 4) ∧
    highHalf (a + 4) = none

/-- The low halves of the 64-bit registers, listed. -/
def wideAddrs : List Nat :=
  [Reg.AON_TIMEBASE, Reg.AON_ALARM, Reg.PATCH_PROBE_WORD] ++
    ((List.range laneCount).filter (phyApplies · 0x40)).map (fun l => Reg.PHY_ES_UI (phyBase l))

theorem mem_wideAddrs : a ∈ wideAddrs ↔ isWide a := by
  simp only [wideAddrs, isWide, List.mem_append, List.mem_cons, List.not_mem_nil, or_false, or_assoc, List.mem_map,
    List.mem_filter, List.mem_range, and_assoc, eq_comm (b := a)]

theorem widePair_of_mem : ∀ a ∈ wideAddrs, ∀ u ∈ unitOfPage (a / 0x1000), WidePair u a := by
  simp only [WidePair, StoredRead, ReadsItsWord]
  decide +kernel

/-- Settles O12: each half is a stored register, so that its read is what the latch makes of the word it holds; the three
clauses are the latch's three cases. -/
theorem lowHalfLatches : Obligations.LowHalfLatches := by
  intro s u port a hwide hserves
  obtain ⟨hlow, hhigh, hpage, hnames, hnone⟩ := widePair_of_mem a (mem_wideAddrs.2 hwide) u hserves.unit
  have hserves' : s.Serves u ((a + 4) / 0x1000) := hpage ▸ hserves
  refine ⟨⟨_, exec_read64Low_stored port hserves hlow (State.latched_low port _ hnames) rfl, rfl, ?_, ?_⟩, ?_, ?_⟩
  · exact State.setLatch_get port _
  · exact fun q hq => State.setLatch_get_other _ hq
  · intro v hlatch
    exact ⟨_, exec_read64Low_stored port hserves' hhigh (State.latched_taken port _ hnone hlatch) rfl, rfl,
      State.setLatch_get port _⟩
  · intro hempty
    exact exec_read64Low_stored port hserves' hhigh (State.latched_empty port _ hnone hempty) rfl

end Sys2Proof.Machine
end

section
/-! PROOFS. Input conditioning (R117 to R119, R126, R127): the widening of a code, the light at a position, what sanitising
and clipping leave of a sample, and what INPUT makes of a pixel with EN at 1 and at 0. -/

namespace Sys2Proof.Machine

variable {s : State}

/-! From a code to a position. -/

theorem widen_eightBit (c : Nat) : widen 0 c = c * 257 := by
  change c * 2 ^ 8 + c / 2 ^ 0 = c * 257
  omega

theorem widen_tenBit (c : Nat) : widen 1 c = c * 2 ^ 6 + c / 2 ^ 4 := rfl

theorem widen_twelveBit (c : Nat) : widen 2 c = c * 2 ^ 4 + c / 2 ^ 8 := rfl

theorem widen_sixteenBit (c : Nat) : widen 3 c = c := rfl

/-- The ends of an integer format's range are the ends of the table. -/
theorem eotfPos_widen_ends {fmt : Nat} (h : fmt < 4) :
    eotfPos (widen fmt 0) = 0 ∧ eotfPos (widen fmt (2 ^ fmtBits fmt - 1)) = 65536 := by
  interval_cases fmt <;> decide

/-! The light at a position. -/

theorem State.eotf_at_entry {p : Nat} {e : Nat → Sample} (ch : Nat)
    (he : ∀ k, e k = sanitize (s.eotfEntry (s.fldA Reg.INPUT_EOTF_CFG_BANK) ch k)) (h : p % 16 = 0) :
    s.eotf ch p = e (p / 16) := by
  rw [he]
  exact if_pos h

theorem State.eotf_between_entries {p : Nat} {e : Nat → Sample} (ch : Nat)
    (he : ∀ k, e k = sanitize (s.eotfEntry (s.fldA Reg.INPUT_EOTF_CFG_BANK) ch k)) (h : p % 16 ≠ 0) :
    s.eotf ch p = round16 (Frac.add (val16 (e (p / 16))) (Frac.mul ⟨((p % 16 : Nat) : Int), 16⟩
      (Frac.sub (val16 (e (p / 16 + 1))) (val16 (e (p / 16)))))) := by
  rw [he, he]
  exact if_neg h

/-! What sanitising and clipping leave of a sample. -/

theorem isNaN16_iff {v : Sample} : isNaN16 v = true ↔ v.toNat % 2 ^ 15 > 0x7C00 := decide_eq_true_iff

theorem sanitize_cases (v : Sample) : sanitize v = if v.toNat % 2 ^ 15 > 0x7C00 then 0 else if v = 0x7C00 then 0x7BFF
    else if v = 0xFC00 then 0xFBFF else v := by
  simp only [sanitize, isNaN16_iff]

theorem clip01_cases (v : Sample) : clip01 v = if v.toNat % 2 ^ 15 > 0x7C00 then (0, false, false)
    else if 0x8000 ≤ v.toNat then (0, true, false) else if 0x3C00 < v.toNat then (0x3C00, false, true)
    else (v, false, false) := by
  simp only [clip01, isNaN16_iff]

/-- A clipped sample lies between +0 and 1.0, in the order of the bits. -/
theorem clip01_le_one (v : Sample) : (clip01 v).1.toNat ≤ 0x3C00 := by
  rw [clip01_cases]
  split_ifs with hnan hneg hhigh
  · decide
  · decide
  · decide
  · exact Nat.le_of_not_lt hhigh

theorem minS_le_left (a b : Sample) : (minS a b).toNat ≤ a.toNat := by
  rw [minS]
  split_ifs with h
  · exact Nat.le_refl _
  · exact Nat.le_of_not_le h

theorem yReq_le_one (h : Sample) (p : Pix) : (yReq h p).toNat ≤ 0x3C00 := minS_le_left 0x3C00 _

/-! One pixel through INPUT. -/

/-- A pixel whose channels are each clipped into the light domain. -/
def clipPix (m : Sample × Sample × Sample) : Pix := ⟨(clip01 m.1).1, (clip01 m.2.1).1, (clip01 m.2.2).1⟩

/-- With EN at 1 the pixel is the matrix of its linear components, clipped. -/
theorem State.inputPixel_pix_of_on (fmt r g b : Nat) (h : s.unitOn 0x40 = true) :
    (s.inputPixel fmt r g b).pix =
      clipPix (s.matrix (s.linear true fmt 0 r) (s.linear true fmt 1 g) (s.linear true fmt 2 b)) := by
  simp only [State.inputPixel, h, if_true, clipPix]

/-- With EN at 1 the required light is taken from the clipped pixel. -/
theorem State.inputPixel_y_of_on (fmt r g b : Nat) (h : s.unitOn 0x40 = true) :
    (s.inputPixel fmt r g b).y = yReq s.headroom (s.inputPixel fmt r g b).pix := by
  simp only [State.inputPixel, h, if_true]

/-- With EN at 0 the linear components pass, nothing is counted, and the required light is that of their clip. -/
theorem State.inputPixel_of_off (fmt r g b : Nat) (h : s.unitOn 0x40 = false) :
    s.inputPixel fmt r g b =
      ⟨⟨s.linear false fmt 0 r, s.linear false fmt 1 g, s.linear false fmt 2 b⟩,
        yReq s.headroom (clipPix (s.linear false fmt 0 r, s.linear false fmt 1 g, s.linear false fmt 2 b)),
        0, false, false⟩ := by
  simp only [State.inputPixel, h, Bool.false_eq_true, if_false, clipPix]

theorem State.linear_off_binary16 (ch c : Nat) : s.linear false 4 ch c = BitVec.ofNat 16 c := rfl

theorem State.inputPixel_y_le_one (fmt r g b : Nat) : (s.inputPixel fmt r g b).y.toNat ≤ 0x3C00 := by
  cases h : s.unitOn 0x40 with
  | true =>
    rw [State.inputPixel_y_of_on fmt r g b h]
    exact yReq_le_one _ _
  | false =>
    rw [State.inputPixel_of_off fmt r g b h]
    exact yReq_le_one _ _

theorem State.inputPixel_pix_le_one (fmt r g b : Nat) (h : s.unitOn 0x40 = true) :
    (s.inputPixel fmt r g b).pix.r.toNat ≤ 0x3C00 ∧ (s.inputPixel fmt r g b).pix.g.toNat ≤ 0x3C00 ∧
      (s.inputPixel fmt r g b).pix.b.toNat ≤ 0x3C00 := by
  rw [State.inputPixel_pix_of_on fmt r g b h]
  exact ⟨clip01_le_one _, clip01_le_one _, clip01_le_one _⟩

/-- Settles O27: the table's ends and the interpolation are the model's own cases, the bounds come from the clip and from
the smaller of 1.0 and the product, and with EN at 0 the binary16 components are the codes themselves. -/
theorem codesBecomeLight : Obligations.CodesBecomeLight := by
  refine ⟨fun c => ⟨fun _ => widen_eightBit c, fun _ => widen_tenBit c, fun _ => widen_twelveBit c, widen_sixteenBit c⟩,
    fun _ => eotfPos_widen_ends, fun s ch p e he => ⟨State.eotf_at_entry ch he, State.eotf_between_entries ch he⟩,
    sanitize_cases, clip01_cases, fun s fmt r g b => ⟨State.inputPixel_y_le_one fmt r g b,
      State.inputPixel_pix_le_one fmt r g b, fun hoff => ?_⟩⟩
  rw [State.inputPixel_of_off fmt r g b hoff]
  refine ⟨rfl, rfl, rfl, ?_⟩
  rintro rfl
  simp only [State.linear_off_binary16]

end Sys2Proof.Machine
end

section
/-! PROOFS. LOCK (R372): what a port's write of LOCK does, what a locked unit makes of every other write, and that no lock
outlasts a reset. -/

namespace Sys2Proof.Machine

variable {s : State} {u : Unit} {p off port : Nat} {w : Word}

/-! A write of a unit's page, up to the checks of the register fabric. -/

/-- The pages of the units lie below the member window (R374, R380). -/
theorem Unit.page_add_count_le (u : Unit) : u.page + u.count ≤ 0x800 := by cases u <;> decide

theorem unitOfPage_lt (h : unitOfPage p = some u) : p < 0x800 := by
  have hin := List.find?_some h
  have hle := u.page_add_count_le
  simp only [Bool.and_eq_true, decide_eq_true_eq] at hin
  omega

/-- Out of reset, a port's write of a word of a unit's page is a write on this device. -/
theorem State.hostWrite_unitPage (hlive : s.boot.resetLow = false) (hpage : unitOfPage p = some u) (hoff : off < 0x1000)
    (halign : off % 4 = 0) : s.hostWrite port (p * 0x1000 + off) w = s.localWrite port (p * 0x1000 + off) w := by
  have hp := unitOfPage_lt hpage
  have haddr : portAddr (p * 0x1000 + off) = p * 0x1000 + off := by unfold portAddr; omega
  have hserved : s.portServed port = true := by simp [State.portServed, hlive]
  have hdev : ¬ 0x800000 ≤ p * 0x1000 + off := by omega
  simp [State.hostWrite, haddr, hserved, hdev]

/-- Below PARTNER's four pages every page shows its own header (R374). -/
theorem hdrPage_of_lt (h : p < 0xF0) : hdrPage p = p := if_neg (by simp only [Bool.and_eq_true, decide_eq_true_eq]; omega)

/-- A locked unit counts every write of its page but those of IRQ_EN, IRQ_PEND and LOCK, before any other check. The
broadcast registers of a group page are checked against the group's own lock (R381). -/
theorem State.localWrite_locked (hpage : unitOfPage p = some u) (hoff : off < 0x1000) (hen : off ≠ 0x014)
    (hpend : off ≠ 0x018) (hlk : off ≠ 0x02C) (hlocked : s.rd (Reg.HDR_LOCK (hdrPage p)) ≠ 0) :
    s.localWrite port (p * 0x1000 + off) w = s.err (hdrPage p) 1 := by
  have hdiv : (p * 0x1000 + off) / 0x1000 = p := by omega
  have hmod : (p * 0x1000 + off) % 0x1000 = off := by omega
  simp only [State.localWrite, hdiv, hmod]
  by_cases hgroup : 0x71 ≤ p ∧ p < 0x81 ∧ (off = 0x40 ∨ off = 0x44)
  · rw [hdrPage_of_lt (by omega)] at hlocked ⊢
    rw [if_pos hgroup, if_pos (bne_iff_ne.2 hlocked)]
  · have hrefused : (s.rd (Reg.HDR_LOCK (hdrPage p)) != 0 && !(off == 0x14 || off == 0x18 || off == 0x2C)) = true := by
      simpa [hen, hpend, hlk] using hlocked
    simp only [if_neg hgroup, State.writeOne, hdiv, hmod, hpage, hrefused, if_true]

/-- A write of LOCK passes the lock and the clock gate; it needs the unit's domain. -/
theorem State.localWrite_lockWrite (hpage : unitOfPage p = some u) (hpower : s.unitPowered u p = true) :
    s.localWrite port (Reg.HDR_LOCK p) w = s.lockWrite p w := by
  have hdiv : (p * 0x1000 + 0x2C) / 0x1000 = p := by omega
  have hmod : (p * 0x1000 + 0x2C) % 0x1000 = 0x2C := by omega
  simp [State.localWrite, Reg.HDR_LOCK, hdiv, hmod, State.writeOne, hpage, hpower, State.headerWrite]

/-! What the word written to LOCK does. -/

theorem State.lockWrite_lock : s.lockWrite p 0x4C4F434B#32 = s.wr (Reg.HDR_LOCK (hdrPage p)) 1 := rfl

theorem State.lockWrite_unlock : s.lockWrite p 0x554E4C4B#32 = s.wr (Reg.HDR_LOCK (hdrPage p)) 0 := rfl

theorem State.lockWrite_other (hlock : w ≠ 0x4C4F434B#32) (hunlock : w ≠ 0x554E4C4B#32) : s.lockWrite p w = s := by
  rw [State.lockWrite, if_neg hlock, if_neg hunlock]

theorem State.lockWrite_onlyRegs (s : State) (p : Nat) (w : Word) : OnlyRegs s (s.lockWrite p w) := by
  unfold State.lockWrite
  split_ifs
  · exact s.wr_onlyRegs _ _
  · exact s.wr_onlyRegs _ _
  · exact OnlyRegs.refl s

/-! The two commands. -/

theorem exec_lockWrite_unitPage (hlive : s.boot.resetLow = false) (hpage : unitOfPage p = some u)
    (hpower : s.unitPowered u p = true) : exec (.lockWrite port p w) s = .next (s.lockWrite p w) := by
  have hwrite : s.hostWrite port (Reg.HDR_LOCK p) w = s.lockWrite p w :=
    (State.hostWrite_unitPage hlive hpage (by decide) (by decide)).trans (State.localWrite_lockWrite hpage hpower)
  rw [exec_lockWrite, s.unheld_steady _ hlive (by simpa only [hwrite] using (s.lockWrite_onlyRegs p w).steady), hwrite]

theorem exec_regWrite_locked (hlive : s.boot.resetLow = false) (hpage : unitOfPage p = some u) (hoff : off < 0x1000)
    (halign : off % 4 = 0) (hen : off ≠ 0x014) (hpend : off ≠ 0x018) (hlk : off ≠ 0x02C)
    (hlocked : s.rd (Reg.HDR_LOCK (hdrPage p)) ≠ 0) :
    exec (.regWrite port (p * 0x1000 + off) w) s = .next (s.err (hdrPage p) 1) := by
  have hwrite : s.hostWrite port (p * 0x1000 + off) w = s.err (hdrPage p) 1 :=
    (State.hostWrite_unitPage hlive hpage hoff halign).trans (State.localWrite_locked hpage hoff hen hpend hlk hlocked)
  rw [exec_regWrite, s.unheld_steady _ hlive (by simpa only [hwrite] using (s.err_onlyRegs _ 1).steady), hwrite]

/-! The words that a reset leaves. -/

/-- LOCK resets to 0 on every page (R370). -/
theorem resetWord_lock (p : Nat) : resetWord (Reg.HDR_LOCK p) = 0 := by
  have hmod : (p * 0x1000 + 0x2C) % 0x1000 = 0x2C := by omega
  have hlow : (p * 0x1000 + 0x2C) % 16 = 12 := by omega
  have hspecial : resetSpecial (Reg.HDR_LOCK p) = none := by
    simp [resetSpecial, Reg.HDR_LOCK, hmod, hlow]
  have hrow : ∀ u, rowAt u 0x2C = some (.mk' 0x02C 1 4 0 0 0 0xFFFFFFFF 0) := fun _ => rfl
  rw [resetWord, hspecial]
  simp only [rowOf, Reg.HDR_LOCK, hmod, hrow]
  cases unitOfPage ((p * 0x1000 + 0x2C) / 0x1000) <;> rfl

/-- The pins that fall are words sent out. -/
theorem State.pinsFall_rd (s t : State) (a : Nat) : (s.pinsFall t).rd a = t.rd a := by
  have hwhen : ∀ (t : State) (c : Bool) (k : Nat), (t.when c (fun t => t.emit .pin k [0])).rd a = t.rd a := by
    intro t c k
    cases c <;> rfl
  simp only [State.pinsFall, hwhen]

theorem State.lastedCounts_rd (s t : State) (a : Nat) : (s.lastedCounts t).rd a = t.rd a := by
  refine State.each_induct (fun t' => t'.rd a = t.rd a) _ _ (fun n t' ht => ?_) t rfl
  split <;> exact ht

/-- Every reset leaves the tables' values, but for the OTP lock and the level of NV_WP_N in NV.STATUS. -/
theorem State.afterReset_rd (s : State) {a : Nat} (hotp : Reg.SEC_OTP_LOCK ≠ a) (hwp : Reg.NV_STATUS_WP.addr ≠ a) :
    s.afterReset.rd a = resetWord a := by
  rw [State.afterReset, State.pinsFall_rd, State.put, State.rd_wr_other _ _ _ _ hwp, State.rd_wr_other _ _ _ _ hotp]
  rfl

theorem State.afterReset_notReady (s : State) : s.afterReset.fld Reg.NV_STATUS_READY = 0 := by
  rw [State.fld, State.afterReset, State.pinsFall_rd]
  change State.fld _ Reg.NV_STATUS_READY = 0
  rw [State.fld_put_other _ _ _ _ (by decide) (by decide), State.fld, State.rd_wr_other _ _ _ _ (by decide)]
  change Reg.NV_STATUS_READY.get (resetWord Reg.NV_STATUS_READY.addr) = 0
  decide

/-- The words of AON that a reset by RESET_N or by a supply monitor keeps, or counts anew (R429). -/
def lastingWords : List Nat :=
  [Reg.AON_TIMEBASE, Reg.AON_TIMEBASE_HI, Reg.AON_BOOT_TRIES, Reg.AON_POWER_ON_MIN, Reg.AON_SAVE_USED]

/-- The state after such a reset, before the presence window is closed. -/
def State.clearedLogic (s : State) : State := (s.lastedCounts s.lasted).saveUsed.sramZero 33

theorem State.logicReset_eq (s : State) : s.logicReset = s.windowReset s.clearedLogic := rfl

theorem State.clearedLogic_rd (s : State) {a : Nat} (h : a ∉ lastingWords) : s.clearedLogic.rd a = s.afterReset.rd a := by
  simp only [lastingWords, List.mem_cons, List.not_mem_nil, or_false, not_or, eq_comm (a := a)] at h
  obtain ⟨htb, htbHi, htries, hmin, hused⟩ := h
  calc s.clearedLogic.rd a
      = (s.lastedCounts s.lasted).rd a := State.rd_wr_other _ _ _ _ hused
    _ = s.lasted.rd a := s.lastedCounts_rd _ a
    _ = s.afterReset.rd a := by
      rw [State.lasted, State.rd_wr_other _ _ _ _ hmin, State.rd_wr_other _ _ _ _ htries,
        State.rd_wr_other _ _ _ _ htbHi, State.rd_wr_other _ _ _ _ htb]
      rfl

/-- While NVC is not ready, a presence record waits for it, or is refused by the write protection and counted. -/
theorem State.presenceRec_rd (cause : Nat) {a : Nat} (hready : s.fld Reg.NV_STATUS_READY = 0)
    (hcount : Reg.NV_WP_REFUSED ≠ a) (hraw : Reg.HDR_IRQ_RAW 6 ≠ a) : (s.presenceRec cause).rd a = s.rd a := by
  unfold State.presenceRec
  split
  · exact State.bumpBy_rd_other _ _ _ _ hcount hraw
  · change State.rd (if s.flag Reg.NV_STATUS_READY = true then _ else _) a = s.rd a
    rw [if_neg (by simp [State.flag, hready])]
    rfl

/-- Closing the presence window at a reset changes no word but NVC's count and interrupt. -/
theorem State.logicReset_rd (s : State) {a : Nat} (hcount : Reg.NV_WP_REFUSED ≠ a) (hraw : Reg.HDR_IRQ_RAW 6 ≠ a) :
    s.logicReset.rd a = s.clearedLogic.rd a := by
  have hready : s.clearedLogic.fld Reg.NV_STATUS_READY = 0 := by
    rw [State.fld, s.clearedLogic_rd (by decide)]
    exact s.afterReset_notReady
  rw [State.logicReset_eq, State.windowReset]
  split
  · exact State.presenceRec_rd 4 hready hcount hraw
  · rfl

/-- No lock outlasts a reset by RESET_N. -/
theorem State.resetLow_rd_lock (s : State) (p : Nat) : s.resetLow.rd (Reg.HDR_LOCK p) = 0 := by
  have hne : ∀ a : Nat, a % 0x1000 ≠ 0x2C → a ≠ Reg.HDR_LOCK p := by
    unfold Reg.HDR_LOCK
    omega
  have hlasting : Reg.HDR_LOCK p ∉ lastingWords := fun hmem =>
    (show ∀ a ∈ lastingWords, a % 0x1000 ≠ 0x2C by decide) _ hmem (by unfold Reg.HDR_LOCK; omega)
  calc s.resetLow.rd (Reg.HDR_LOCK p)
      = s.logicReset.rd (Reg.HDR_LOCK p) := rfl
    _ = s.clearedLogic.rd (Reg.HDR_LOCK p) := s.logicReset_rd (hne _ (by decide)) (hne _ (by decide))
    _ = s.afterReset.rd (Reg.HDR_LOCK p) := s.clearedLogic_rd hlasting
    _ = resetWord (Reg.HDR_LOCK p) := s.afterReset_rd (hne _ (by decide)) (hne _ (by decide))
    _ = 0 := resetWord_lock p

/-- Settles O9: the lock is the first check of a write on this device, its own register passes it, and a reset
leaves every LOCK at its reset word, 0. -/
theorem lockStops : Obligations.LockStops := by
  refine ⟨fun s u p port hlive hpage hpower => ⟨?_, ?_, fun w hlock hunlock => ?_⟩, ?_, ?_, ?_⟩
  · rw [exec_lockWrite_unitPage hlive hpage hpower, State.lockWrite_lock]
  · rw [exec_lockWrite_unitPage hlive hpage hpower, State.lockWrite_unlock]
  · rw [exec_lockWrite_unitPage hlive hpage hpower, State.lockWrite_other hlock hunlock]
  · exact fun s u p off port w hlive hpage hoff halign hen hpend hlk hlocked =>
      exec_regWrite_locked hlive hpage hoff halign hen hpend hlk hlocked
  · exact resetWord_lock
  · exact fun s => ⟨_, exec_resetNLow s, fun p u _ => s.resetLow_rd_lock (hdrPage p)⟩

end Sys2Proof.Machine
end

section
/-! PROOFS. The block as a whole: what a step answers, what it keeps of the queue and of time, one tick of AONOSC on an
empty queue (R394, R410), and that a machine held in reset is quiet (R429, R452). -/

namespace Sys2Proof.Machine

variable {s t : State} {c : Instr}

/-! What is at rest in a machine held in reset. -/

/-- What of the state is at rest in a quiet machine. -/
def State.atRest (s : State) :=
  (s.tim, s.srf, s.chip, s.sto, { s.sta with done := [] }, s.path, s.edl, s.cas, s.mem.regions, s.mem.queue, s.phy,
    s.sec, s.host, s.boot.phase)

theorem quiet_iff : Quiet s ↔ s.atRest = State.reset.atRest := by
  constructor
  · intro ⟨frames, refresh, applying, store, stats, lines, driver, cascade, regions, queue, lanes, window, latches, phase⟩
    rw [State.atRest, frames, refresh, applying, store, stats, lines, driver, cascade, regions, queue, lanes, window,
      latches, phase]
    rfl
  · intro h
    simp only [State.atRest, Prod.mk.injEq] at h
    obtain ⟨frames, refresh, applying, store, stats, lines, driver, cascade, regions, queue, lanes, window, latches, phase⟩ := h
    exact ⟨frames, refresh, applying, store, congrArg (fun x : StatsState => { x with done := s.sta.done }) stats, lines,
      driver, cascade, regions, queue, lanes, window, latches, phase⟩

theorem Quiet.congr (h : Quiet s) (ht : t.atRest = s.atRest) : Quiet t := quiet_iff.2 (ht.trans (quiet_iff.1 h))

/-! The commands that act in reset leave what is at rest as it is, or bring all of it to rest. -/

theorem OnlyRegs.atRest_eq (h : OnlyRegs s t) : t.atRest = s.atRest := by
  obtain ⟨r, l, e, rfl⟩ := h
  rfl

theorem State.when_emit_atRest (s : State) (b : Bool) (k : Nat) : (s.when b (fun t => t.emit .pin k [0])).atRest = s.atRest := by
  cases b <;> rfl

theorem State.pinsFall_atRest (s t : State) : (s.pinsFall t).atRest = t.atRest := by
  simp only [State.pinsFall, State.when_emit_atRest]

theorem State.afterReset_quiet (s : State) : Quiet s.afterReset := quiet_iff.2 (s.pinsFall_atRest _)

theorem State.each_atRest {α : Type} (s : State) (l : List α) (f : α → State → State)
    (h : ∀ x u, (f x u).atRest = u.atRest) : (s.each l f).atRest = s.atRest :=
  State.each_induct (fun u => u.atRest = s.atRest) l f (fun x u hu => (h x u).trans hu) s rfl

theorem State.lastedCounts_atRest (s t : State) : (s.lastedCounts t).atRest = t.atRest := by
  refine State.each_atRest t _ _ fun n u => ?_
  split <;> rfl

theorem State.clearedLogic_quiet (s : State) : Quiet s.clearedLogic :=
  (s.afterReset_quiet).congr (s.lastedCounts_atRest s.lasted)

/-- A presence record while NVC is not ready touches NVC alone. -/
theorem State.presenceRec_atRest (cause : Nat) (hready : s.fld Reg.NV_STATUS_READY = 0) :
    (s.presenceRec cause).atRest = s.atRest := by
  unfold State.presenceRec
  split
  · exact (s.bump_onlyRegs _).atRest_eq
  · change State.atRest (if s.flag Reg.NV_STATUS_READY = true then _ else _) = s.atRest
    rw [if_neg (by simp [State.flag, hready])]
    rfl

theorem State.windowReset_quiet (hready : t.fld Reg.NV_STATUS_READY = 0) (ht : Quiet t) : Quiet (s.windowReset t) := by
  rw [State.windowReset]
  split
  · exact ht.congr (State.presenceRec_atRest 4 hready)
  · exact ht

theorem State.powerOnReset_quiet (s : State) : Quiet s.powerOnReset :=
  State.windowReset_quiet s.afterReset_notReady s.afterReset_quiet

theorem State.clearedLogic_notReady (s : State) : s.clearedLogic.fld Reg.NV_STATUS_READY = 0 := by
  rw [State.fld, s.clearedLogic_rd (by decide)]
  exact s.afterReset_notReady

theorem State.logicReset_quiet (s : State) : Quiet s.logicReset :=
  State.windowReset_quiet s.clearedLogic_notReady s.clearedLogic_quiet

theorem State.supplyTrips_quiet (s : State) (aon : Bool) : Quiet (s.supplyTrips aon) := by
  cases aon
  · exact s.logicReset_quiet.congr rfl
  · exact s.powerOnReset_quiet.congr rfl

/-- Once RESET_N has risen, or the supplies are back, the M960 is not held. -/
theorem State.resetRise_released (s : State) (gpio : Nat) : (s.resetRise gpio).boot.resetLow = false := by
  unfold State.resetRise
  split
  · rfl
  · next h => exact Bool.eq_false_iff.2 fun hheld => h (.inl hheld)

theorem State.tapScan_atRest (s : State) (ir : Nat) (capture dr : List Bool) (update : List Bool → TapState → TapState) :
    (s.tapScan ir capture dr update).atRest = s.atRest := by
  unfold State.tapScan
  dsimp only
  split <;> rfl

theorem State.stageLost_atRest (s : State) (n : Nat) : (s.stageLost n).atRest = s.atRest := by
  unfold State.stageLost
  split <;> rfl

theorem State.sramLost_atRest (s : State) (b : Nat) : (s.sramLost b).atRest = s.atRest := rfl

theorem State.wr_atRest (s : State) (a : Nat) (w : Word) : (s.wr a w).atRest = s.atRest := rfl

theorem State.runBist_atRest (s : State) (dr : List Bool) : (s.runBist dr).atRest = s.atRest := by
  rw [State.runBist, State.wrN, State.wr_atRest, State.each_atRest _ _ _ fun n u => u.stageLost_atRest n,
    State.each_atRest _ _ _ fun b u => u.sramLost_atRest b]
  exact State.tapScan_atRest s _ _ _ _

theorem State.bistDone_atRest (s : State) (fail : Bool) (unit : Nat) : (s.bistDone fail unit).atRest = s.atRest := by
  unfold State.bistDone
  split <;> rfl

theorem State.powerFails_atRest (h : s.boot.resetLow = true) : s.powerFails.atRest = s.atRest := by
  rw [State.powerFails, if_pos h]
  rfl

/-! What a command answers. -/

/-- A command that acts in reset brings the machine to rest or releases it, leaves at rest what is while it is held, or
is BYPASS. -/
theorem exec_actsInReset (h : actsInReset c = true) :
    (∃ f, exec c s = s.resets f ∧ ((f s).boot.resetLow = true → Quiet (f s))) ∨
      (∃ f, exec c s = s.always f ∧ (s.boot.resetLow = true → (f s).atRest = s.atRest)) ∨
      ∃ code dr, c = .bypass code dr := by
  have hrise : ∀ gpio, (s.resetRise gpio).boot.resetLow = true → Quiet (s.resetRise gpio) := fun gpio hheld =>
    absurd hheld (Bool.eq_false_iff.1 (s.resetRise_released gpio))
  unfold actsInReset at h
  split at h
  · exact .inl ⟨_, exec_supplyMonitorTrip s _, fun _ => s.supplyTrips_quiet _⟩
  · exact .inl ⟨_, exec_powerOnReset s, fun _ => s.supplyTrips_quiet true⟩
  · exact .inl ⟨_, exec_resetNLow s, fun _ => s.supplyTrips_quiet false⟩
  · exact .inl ⟨_, exec_resetNRise s _, hrise _⟩
  · exact .inl ⟨_, exec_supplyBackInRange s _, hrise _⟩
  · exact .inr (.inl ⟨_, exec_pfail s, State.powerFails_atRest⟩)
  · exact .inr (.inl ⟨_, exec_pwrFailNHigh s, fun _ => rfl⟩)
  · exact .inr (.inl ⟨_, exec_extest s _ _, fun _ => s.tapScan_atRest _ _ _ _⟩)
  · exact .inr (.inl ⟨_, exec_samplePreload s _ _, fun _ => s.tapScan_atRest _ _ _ _⟩)
  · exact .inr (.inl ⟨_, exec_idcode s _, fun _ => s.tapScan_atRest _ _ _ _⟩)
  · exact .inr (.inl ⟨_, exec_clamp s _, fun _ => s.tapScan_atRest _ _ _ _⟩)
  · exact .inr (.inl ⟨_, exec_highz s _, fun _ => s.tapScan_atRest _ _ _ _⟩)
  · exact .inr (.inl ⟨_, exec_extestPulse s _ _, fun _ => s.tapScan_atRest _ _ _ _⟩)
  · exact .inr (.inl ⟨_, exec_extestTrain s _ _, fun _ => s.tapScan_atRest _ _ _ _⟩)
  · exact .inr (.inl ⟨_, exec_runbist s _, fun _ => s.runBist_atRest _⟩)
  · exact .inr (.inl ⟨_, exec_bistDone s _ _, fun _ => s.bistDone_atRest _ _⟩)
  · exact .inr (.inr ⟨_, _, rfl⟩)
  · exact .inr (.inl ⟨_, exec_tapReset s, fun _ => rfl⟩)
  · exact nomatch h

theorem exec_bypass_public {code : Nat} (dr : List Bool) (h : s.tapPrivate code = false) :
    exec (.bypass code dr) s = s.always (fun s => s.tapBypass code dr) := by
  rw [exec_bypass, h]
  rfl

theorem exec_bypass_private {code : Nat} (dr : List Bool) (h : s.tapPrivate code = true) :
    exec (.bypass code dr) s = .refused .privateInstruction := by
  rw [exec_bypass, if_pos h]

/-- A command that is not a private instruction answers a next state, keeps the queue and moves no time back. -/
theorem exec_next (h : ¬ Private c s) : ∃ t, exec c s = .next t ∧ t.pending = s.pending ∧ s.now ≤ t.now := by
  cases hc : actsInReset c with
  | false =>
    obtain ⟨f, hf⟩ := exec_unheld s c hc
    obtain ⟨t, ht, hp, hn, -⟩ := s.unheld_next f
    exact ⟨t, hf.trans ht, hp, hn⟩
  | true =>
    obtain ⟨f, hf, -⟩ | ⟨f, hf, -⟩ | ⟨code, dr, rfl⟩ := exec_actsInReset (s := s) hc
    · obtain ⟨t, ht, hp, hn⟩ := s.resets_next f
      exact ⟨t, hf.trans ht, hp, hn⟩
    · obtain ⟨t, ht, hp, hn, -⟩ := s.always_next f
      exact ⟨t, hf.trans ht, hp, hn⟩
    · have hpub : s.tapPrivate code = false := by
        cases hp : s.tapPrivate code with
        | false => rfl
        | true => exact absurd ⟨code, dr, rfl, hp⟩ h
      obtain ⟨t, ht, hp, hn, -⟩ := s.always_next (fun s => s.tapBypass code dr)
      exact ⟨t, (exec_bypass_public dr hpub).trans ht, hp, hn⟩

theorem exec_private (h : Private c s) : exec c s = .refused .privateInstruction := by
  obtain ⟨code, dr, rfl, hp⟩ := h
  exact exec_bypass_private dr hp

/-- Settles O4: every arm of the dispatch is one of the three ways to act, but for BYPASS with a private code. -/
theorem onlyPrivateStops : Obligations.OnlyPrivateStops := fun _ _ =>
  ⟨fun h => (exec_next h).imp fun _ ht => ht.1, exec_private⟩

/-- Settles O5: every command that does not act in reset is one that waits for the release. -/
theorem heldInReset : Obligations.HeldInReset := by
  intro c s hheld hc
  obtain ⟨f, hf⟩ := exec_unheld s c hc
  exact hf.trans (s.unheld_held f hheld)

/-- Settles O1. -/
theorem stepRunsFront : Obligations.StepRunsFront := step_cons

/-- Settles O3: the front command is taken from the queue, and keeps the rest of it. -/
theorem stepKeepsQueueAndTime : Obligations.StepKeepsQueueAndTime := by
  intro s t hstep
  cases hp : s.pending with
  | nil =>
    rw [step_nil s hp, Host.Outcome.next.injEq] at hstep
    subst hstep
    have hadv := s.advance_steady (s.now + aonTick)
    exact ⟨hadv.pending.trans hp, hadv.now⟩
  | cons c rest =>
    rw [step_cons s c rest hp] at hstep
    by_cases hpriv : Private c { s with pending := rest }
    · rw [exec_private hpriv] at hstep
      exact nomatch hstep
    · obtain ⟨u, hu, hpend, hnow⟩ := exec_next hpriv
      rw [hu, Host.Outcome.next.injEq] at hstep
      subst hstep
      exact ⟨hpend, hnow⟩

/-! One tick of AONOSC. -/

/-- One tick adds INC to TIMEBASE with its fraction (R410). -/
theorem State.advance_tick (s : State) :
    s.advance (s.now + aonTick) = { s.tbAdd 1 with now := s.now + aonTick } := by
  have hlater : ¬ s.now + aonTick ≤ s.now := by unfold aonTick; omega
  have hone : (s.now + aonTick) / aonTick - s.now / aonTick = 1 := by unfold aonTick; omega
  rw [State.advance, if_neg hlater]
  dsimp only
  rw [hone, if_neg Nat.one_ne_zero]

theorem State.tbAdd_rd_other {n a : Nat} (hlo : a ≠ Reg.AON_TIMEBASE) (hhi : a ≠ Reg.AON_TIMEBASE_HI) :
    (s.tbAdd n).rd a = s.rd a := by
  change ((s.wrN Reg.AON_TIMEBASE _).wrN Reg.AON_TIMEBASE_HI _).rd a = s.rd a
  rw [State.wrN, State.wrN, State.rd_wr_other _ _ _ _ hhi.symm, State.rd_wr_other _ _ _ _ hlo.symm]

/-- TIMEBASE and its fraction together, in 2^-32 µs. -/
def State.tbFine (s : State) : Nat :=
  ((s.rd Reg.AON_TIMEBASE).toNat + 2 ^ 32 * (s.rd Reg.AON_TIMEBASE_HI).toNat) * 2 ^ 32 + s.clk.tbFrac

/-- The sum is exact as long as TIMEBASE does not run past its 64 bits. -/
theorem State.tbAdd_tbFine (hfrac : s.clk.tbFrac < 2 ^ 32)
    (hroom : (s.rd Reg.AON_TIMEBASE).toNat + 2 ^ 32 * (s.rd Reg.AON_TIMEBASE_HI).toNat + 1 < 2 ^ 64) :
    (s.tbAdd 1).tbFine = s.tbFine + (s.rd Reg.CLK_TB_INC).toNat := by
  have hlo : (s.tbAdd 1).rd Reg.AON_TIMEBASE = _ := State.rd_wr_other _ _ _ _ (by decide)
  have hhi : (s.tbAdd 1).rd Reg.AON_TIMEBASE_HI = _ := State.rd_wr_self _ _ _
  rw [State.wrN, State.rd_wr_self] at hlo
  have hinc := (s.rd Reg.CLK_TB_INC).isLt
  rw [State.tbFine, State.tbFine, hlo, hhi, BitVec.toNat_ofNat, BitVec.toNat_ofNat]
  change _ + (s.clk.tbFrac + 1 * (s.rd Reg.CLK_TB_INC).toNat) % 2 ^ 32 = _
  omega

/-- Settles O2: an empty queue moves time by one tick. -/
theorem idleStepIsOneTick : Obligations.IdleStepIsOneTick := by
  intro s hp
  refine ⟨_, step_nil s hp, ?_⟩
  rw [s.advance_tick]
  exact ⟨rfl, rfl, fun a => State.tbAdd_rd_other, State.tbAdd_tbFine⟩

/-- Settles O8. -/
theorem resetIsHeldQuiet : Obligations.ResetIsHeldQuiet := by
  have hquiet : Quiet State.reset := quiet_iff.2 rfl
  exact ⟨rfl, hquiet, fun _ => hquiet, Memory.wf_reset, rfl⟩

theorem State.resets_heldQuiet {f : State → State} (hf : (f s).boot.resetLow = true → Quiet (f s))
    (h : s.resets f = .next t) : HeldQuiet t := by
  rw [State.resets, Host.Outcome.next.injEq] at h
  subst h
  exact fun hheld => (hf hheld).congr rfl

theorem State.always_heldQuiet {f : State → State} (hf : s.boot.resetLow = true → (f s).atRest = s.atRest)
    (hs : HeldQuiet s) (h : s.always f = .next t) : HeldQuiet t := by
  rw [State.always, Host.Outcome.next.injEq] at h
  subst h
  exact fun hheld => (hs hheld).congr (hf hheld)

theorem State.unheld_heldQuiet {f : State → State} (hs : HeldQuiet s) (h : s.unheld f = .next t) : HeldQuiet t := by
  rw [State.unheld, Host.Outcome.next.injEq] at h
  subst h
  split
  · exact hs
  · next hfree => exact fun hheld => absurd hheld hfree

theorem exec_heldQuiet (hs : HeldQuiet s) (h : exec c s = .next t) : HeldQuiet t := by
  cases hc : actsInReset c with
  | false =>
    obtain ⟨f, hf⟩ := exec_unheld s c hc
    exact State.unheld_heldQuiet hs (hf.symm.trans h)
  | true =>
    obtain ⟨f, hf, hquiet⟩ | ⟨f, hf, hrest⟩ | ⟨code, dr, rfl⟩ := exec_actsInReset (s := s) hc
    · exact State.resets_heldQuiet hquiet (hf.symm.trans h)
    · exact State.always_heldQuiet hrest hs (hf.symm.trans h)
    · cases hp : s.tapPrivate code with
      | false => exact State.always_heldQuiet (f := fun s => s.tapBypass code dr) (fun _ => s.tapScan_atRest _ _ _ _) hs ((exec_bypass_public dr hp).symm.trans h)
      | true => exact nomatch (exec_bypass_private dr hp).symm.trans h

/-- Settles O6: a command that waits for the release leaves a held machine alone; the others leave at rest what is, or
bring all of it to rest, or release the hold. -/
theorem heldQuietKept : Obligations.HeldQuietKept := by
  intro s t hs hstep
  cases hp : s.pending with
  | nil =>
    rw [step_nil s hp, Host.Outcome.next.injEq] at hstep
    subst hstep
    rw [s.advance_tick]
    exact fun hheld => (hs hheld).congr rfl
  | cons c rest =>
    rw [step_cons s c rest hp] at hstep
    have hs' : HeldQuiet { s with pending := rest } := fun hheld => (hs hheld).congr rfl
    exact exec_heldQuiet hs' hstep

end Sys2Proof.Machine
end

section
/-! PROOFS. Bytes and bits: numbers as bytes, runs of a list, and bits most significant first (R5, R146). -/

namespace Sys2Proof.Machine

/-! Numbers as bytes. -/

@[simp] theorem length_leBytes (n v : Nat) : (leBytes n v).length = n := by
  induction n generalizing v with
  | zero => rfl
  | succ n ih => simp [leBytes, ih]

theorem leVal_leBytes (n v : Nat) : leVal (leBytes n v) = v % 256 ^ n := by
  induction n generalizing v with
  | zero => simp [leBytes, leVal, Nat.mod_one]
  | succ n ih =>
    simp only [leBytes, leVal, ih, BitVec.toNat_ofNat]
    rw [show v % 256 % 2 ^ 8 = v % 256 by omega, pow_succ, Nat.mul_comm (256 ^ n), Nat.mod_mul]

theorem leVal_append (a b : List Byte) : leVal (a ++ b) = leVal a + 256 ^ a.length * leVal b := by
  induction a with
  | nil => simp [leVal]
  | cons x a ih => simp only [List.cons_append, leVal, ih, List.length_cons, pow_succ]; ring

theorem leVal_lt (l : List Byte) : leVal l < 256 ^ l.length := by
  induction l with
  | nil => simp [leVal]
  | cons b l ih =>
    simp only [leVal, List.length_cons, pow_succ]
    have hb : b.toNat < 256 := b.isLt
    omega

/-! Runs of a list. -/

theorem chunks_nil {α : Type} (n : Nat) : chunks n ([] : List α) = [] := by
  cases n with
  | zero => simp [chunks]
  | succ n => simp [chunks]

theorem chunks_short {α : Type} {n : Nat} {l : List α} (hpos : l ≠ []) (hlen : l.length ≤ n) : chunks n l = [l] := by
  have hlpos : 0 < l.length := List.length_pos_iff.2 hpos
  have hone : (l.length + n - 1) / n = 1 := Nat.div_eq_of_lt_le (by omega) (by omega)
  simp [chunks, hone, List.take_of_length_le hlen]

theorem chunks_append {α : Type} {n : Nat} {a : List α} (l : List α) (hn : 0 < n) (ha : a.length = n) :
    chunks n (a ++ l) = a :: chunks n l := by
  have hcount : ((a ++ l).length + n - 1) / n = (l.length + n - 1) / n + 1 := by
    rw [List.length_append, ha, show n + l.length + n - 1 = l.length + n - 1 + n by omega, Nat.add_div_right _ hn]
  rw [chunks, hcount, List.range_succ_eq_map, List.map_cons, List.map_map]
  congr 1
  · simp [← ha]
  · refine List.map_congr_left fun i _ => ?_
    simp only [Function.comp_apply, Nat.succ_mul]
    rw [Nat.add_comm, ← List.drop_drop, ← ha, List.drop_left]

/-- The runs of pieces put together are the pieces. -/
theorem chunks_flatMap {α β : Type} {n : Nat} (f : α → List β) (l : List α) (hn : 0 < n)
    (hf : ∀ x ∈ l, (f x).length = n) : chunks n (l.flatMap f) = l.map f := by
  induction l with
  | nil => exact chunks_nil n
  | cons x l ih =>
    rw [List.flatMap_cons, chunks_append _ hn (hf x (by simp)), ih fun y hy => hf y (List.mem_cons_of_mem _ hy),
      List.map_cons]

/-! Bits, most significant first. -/

@[simp] theorem length_msbBits (n v : Nat) : (msbBits n v).length = n := by
  induction n with
  | zero => rfl
  | succ n ih => simp [msbBits, ih]

theorem bitsVal_foldl (l : List Bool) (a : Nat) :
    l.foldl (fun a b => 2 * a + b2n b) a = a * 2 ^ l.length + bitsVal l := by
  induction l generalizing a with
  | nil => simp [bitsVal]
  | cons b l ih =>
    rw [bitsVal, List.foldl_cons, List.foldl_cons, ih, ih (2 * 0 + b2n b), List.length_cons, pow_succ]
    ring

theorem bitsVal_cons (b : Bool) (l : List Bool) : bitsVal (b :: l) = b2n b * 2 ^ l.length + bitsVal l := by
  rw [bitsVal, List.foldl_cons, bitsVal_foldl]
  simp

theorem bitsVal_lt (l : List Bool) : bitsVal l < 2 ^ l.length := by
  induction l with
  | nil => simp [bitsVal]
  | cons b l ih =>
    rw [bitsVal_cons, List.length_cons, pow_succ]
    cases b <;> simp [b2n] <;> omega

theorem bitsVal_msbBits (n v : Nat) : bitsVal (msbBits n v) = v % 2 ^ n := by
  induction n with
  | zero => simp [msbBits, bitsVal, Nat.mod_one]
  | succ n ih =>
    rw [msbBits, bitsVal_cons, ih, length_msbBits, pow_succ, Nat.mod_mul]
    have hbit : b2n (v / 2 ^ n % 2 == 1) = v / 2 ^ n % 2 := by
      rcases Nat.mod_two_eq_zero_or_one (v / 2 ^ n) with h | h <;> simp [b2n, h]
    rw [hbit]
    ring

theorem msbBits_mod (n v : Nat) : msbBits n (v % 2 ^ n) = msbBits n v := by
  induction n generalizing v with
  | zero => rfl
  | succ n ih =>
    have hhigh : v % 2 ^ (n + 1) / 2 ^ n = v / 2 ^ n % 2 := by
      rw [pow_succ, Nat.mod_mul_right_div_self]
    rw [msbBits, msbBits, hhigh, Nat.mod_mod, ← ih (v % 2 ^ (n + 1)), Nat.mod_mod_of_dvd _ (pow_dvd_pow 2 (Nat.le_succ n)),
      ih]

theorem msbBits_bitsVal (l : List Bool) : msbBits l.length (bitsVal l) = l := by
  induction l with
  | nil => rfl
  | cons b l ih =>
    have hpos : 0 < 2 ^ l.length := Nat.two_pow_pos _
    rw [List.length_cons, msbBits, bitsVal_cons]
    congr 1
    · rw [Nat.add_comm, Nat.add_mul_div_right _ _ hpos, Nat.div_eq_of_lt (bitsVal_lt l)]
      cases b <;> simp [b2n]
    · rw [← msbBits_mod, Nat.mul_add_mod_self_right, msbBits_mod, ih]

theorem msbBits_zero (n : Nat) : msbBits n 0 = List.replicate n false := by
  induction n with
  | zero => rfl
  | succ n ih => simp [msbBits, ih, List.replicate_succ]

/-- Zeros below a number's bits. -/
theorem msbBits_shift (n k v : Nat) : msbBits (n + k) (v * 2 ^ k) = msbBits n v ++ List.replicate k false := by
  induction n with
  | zero =>
    rw [Nat.zero_add, ← msbBits_mod, Nat.mul_mod_left, msbBits_zero]
    rfl
  | succ n ih =>
    rw [show n + 1 + k = n + k + 1 by omega, msbBits, ih, msbBits, List.cons_append, pow_add,
      Nat.mul_div_mul_right _ _ (Nat.two_pow_pos k)]

theorem takeBits_msbBits (n v : Nat) (r : List Bool) : takeBits n (msbBits n v ++ r) = some (v % 2 ^ n, r) := by
  have htake : (msbBits n v ++ r).take n = msbBits n v := List.take_left' (length_msbBits n v)
  have hdrop : (msbBits n v ++ r).drop n = r := List.drop_left' (length_msbBits n v)
  rw [takeBits, if_neg (by simp), htake, hdrop, bitsVal_msbBits]

theorem unpackMsb_cons (b : Byte) (l : List Byte) : unpackMsb (b :: l) = msbBits 8 b.toNat ++ unpackMsb l := rfl

/-- Bits that fill at most a byte come back with the padding. -/
theorem unpackMsb_packed_byte {c : List Bool} (h : c.length ≤ 8) :
    msbBits 8 (BitVec.ofNat 8 (bitsVal c * 2 ^ (8 - c.length))).toNat = c ++ List.replicate (8 - c.length) false := by
  have hsplit : 8 = c.length + (8 - c.length) := by omega
  rw [BitVec.toNat_ofNat, msbBits_mod]
  conv_lhs => rw [hsplit]
  rw [show c.length + (8 - c.length) - c.length = 8 - c.length by omega, msbBits_shift, msbBits_bitsVal]

/-- Bits packed into bytes come back with fewer than eight zeros behind them. -/
theorem unpackMsb_packMsb (l : List Bool) : ∃ z, z < 8 ∧ unpackMsb (packMsb l) = l ++ List.replicate z false := by
  by_cases hnil : l = []
  · subst hnil
    exact ⟨0, by omega, by simp [packMsb, chunks_nil, unpackMsb]⟩
  · have hpos : 0 < l.length := List.length_pos_iff.2 hnil
    by_cases hlen : l.length ≤ 8
    · refine ⟨8 - l.length, by omega, ?_⟩
      rw [packMsb, chunks_short hnil hlen, List.map_singleton, unpackMsb_cons, unpackMsb_packed_byte hlen]
      simp [unpackMsb]
    · obtain ⟨z, hz, hrest⟩ := unpackMsb_packMsb (l.drop 8)
      have hbyte : (l.take 8).length = 8 := by simp; omega
      refine ⟨z, hz, ?_⟩
      conv_lhs => rw [← List.take_append_drop 8 l]
      rw [packMsb, chunks_append _ (by omega) hbyte, List.map_cons, unpackMsb_cons, unpackMsb_packed_byte (by omega),
        hbyte, show (List.replicate (8 - 8) false : List Bool) = [] from rfl, List.append_nil]
      change _ ++ unpackMsb (packMsb (l.drop 8)) = _
      rw [hrest, ← List.append_assoc, List.take_append_drop]
termination_by l.length
decreasing_by simp; omega

theorem length_packMsb (l : List Bool) : (packMsb l).length = (l.length + 7) / 8 := by simp [packMsb, chunks]

end Sys2Proof.Machine
end

section
/-! PROOFS. The block codec (R138 to R147): every block decodes to the pixels that were encoded, and its index entry is
valid. -/

namespace Sys2Proof.Machine

/-! Pixels as bytes. -/

@[simp] theorem Pix.length_bytes (p : Pix) : p.bytes.length = 6 := by simp [Pix.bytes]

theorem pixOf_bytes (p : Pix) : pixOf p.bytes = p := by
  have hsample : ∀ v : Sample, BitVec.ofNat 16 (leVal (leBytes 2 v.toNat)) = v := fun v => by
    rw [leVal_leBytes, Nat.mod_eq_of_lt (show v.toNat < 256 ^ 2 from v.isLt), BitVec.ofNat_toNat, BitVec.setWidth_eq]
  have hr : p.bytes.take 2 = leBytes 2 p.r.toNat := by
    rw [Pix.bytes, List.append_assoc]
    exact List.take_left' (length_leBytes _ _)
  have hg : (p.bytes.drop 2).take 2 = leBytes 2 p.g.toNat := by
    rw [Pix.bytes, List.append_assoc, List.drop_left' (length_leBytes _ _)]
    exact List.take_left' (length_leBytes _ _)
  have hb : (p.bytes.drop 4).take 2 = leBytes 2 p.b.toNat := by
    rw [Pix.bytes, List.drop_left' (by simp)]
    exact List.take_of_length_le (by simp)
  rw [pixOf, hr, hg, hb, hsample, hsample, hsample]

theorem length_rawBytes (px : List Pix) : (rawBytes px).length = 6 * px.length := by
  simp [rawBytes, List.length_flatMap, Nat.mul_comm]

theorem chunks_rawBytes (px : List Pix) : (chunks 6 (rawBytes px)).map pixOf = px := by
  rw [rawBytes, chunks_flatMap Pix.bytes px (by omega) fun p _ => p.length_bytes, List.map_map]
  simp [Function.comp_def, pixOf_bytes]

theorem eq_replicate_of_allEqual {px : List Pix} (h : allEqual px = true) :
    px = List.replicate px.length (px.head?.getD Pix.black) := by
  refine List.eq_replicate_iff.2 ⟨rfl, fun p hp => ?_⟩
  have hhead := List.all_eq_true.1 h p hp
  rw [beq_iff_eq.1 hhead]
  rfl

/-! Index entries. -/

theorem idxEff_indexWord {mode len n : Nat} (sub mrg : Bool) (hlen : len < 512)
    (h : mode = 1 ∧ len = 6 ∨ mode = 3 ∧ len = 6 * n ∨ mode = 2 ∧ 1 ≤ len ∧ len ≤ 384) :
    idxEff (indexWord mode len 0 sub mrg) n = some mode := by
  have hflags : ∃ f, indexWord mode len 0 sub mrg = mode + 4 * len + 8192 * f :=
    ⟨b2n sub + 2 * b2n mrg, by unfold indexWord b2n; split <;> split <;> omega⟩
  obtain ⟨f, hf⟩ := hflags
  have hsmall : mode < 4 := by omega
  have hmode : idxMode (indexWord mode len 0 sub mrg) = mode := by unfold idxMode; omega
  have horig : idxOrig (indexWord mode len 0 sub mrg) = 0 := by unfold idxOrig; omega
  have hidx : idxLen (indexWord mode len 0 sub mrg) = len := by unfold idxLen; omega
  rw [idxEff, hmode, horig, hidx]
  obtain ⟨rfl, rfl⟩ | ⟨rfl, rfl⟩ | ⟨rfl, hlo, hhi⟩ := h
  · simp
  · simp
  · simp [hlo, hhi]

/-! Residuals and their codes. -/

theorem unary_ones {n q : Nat} (r : List Bool) (h : q < n) : unary n (List.replicate q true ++ false :: r) = some (q, r) := by
  induction q generalizing n with
  | zero =>
    obtain ⟨n, rfl⟩ := Nat.exists_eq_succ_of_ne_zero (Nat.ne_of_gt h)
    rfl
  | succ q ih =>
    obtain ⟨n, rfl⟩ := Nat.exists_eq_succ_of_ne_zero (Nat.ne_of_gt (Nat.lt_of_le_of_lt (Nat.zero_le _) h))
    simp only [List.replicate_succ, List.cons_append, unary, if_true, ih (Nat.lt_of_succ_lt_succ h)]

theorem unary_all_ones (n : Nat) (r : List Bool) : unary n (List.replicate n true ++ r) = some (n, r) := by
  induction n with
  | zero => cases r <;> rfl
  | succ n ih => simp only [List.replicate_succ, List.cons_append, unary, if_true, ih]

theorem readRice_riceBits {m : Nat} (k : Nat) (r : List Bool) (hm : m < 2 ^ 15) : readRice k (riceBits m k ++ r) = some (m, r) := by
  unfold riceBits
  dsimp only
  split
  next hq =>
    rw [List.append_assoc, List.append_assoc, readRice, List.singleton_append, unary_ones _ hq]
    dsimp only
    rw [if_neg (by omega), takeBits_msbBits, Nat.mod_mod]
    dsimp only
    rw [Nat.mul_comm, Nat.div_add_mod]
  next =>
    rw [List.append_assoc, readRice, unary_all_ones]
    dsimp only
    rw [if_pos rfl, takeBits_msbBits, Nat.mod_eq_of_lt hm]

theorem residual_lt {u p : Nat} (hu : u ≤ 0x3C00) (hp : p ≤ 0x3C00) : residual u p < 2 ^ 15 := by
  unfold residual
  split <;> omega

theorem unresidual_residual {v : Sample} (p : Nat) (hv : v.toNat ≤ 0x3C00) : unresidual p (residual v.toNat p) = some v := by
  have hback : (if residual v.toNat p % 2 = 0 then (p : Int) + (residual v.toNat p / 2 : Nat)
      else (p : Int) - ((residual v.toNat p + 1) / 2 : Nat)) = (v.toNat : Int) := by
    unfold residual
    split <;> split <;> omega
  unfold unresidual
  rw [hback]
  dsimp only
  rw [if_pos (by omega), Int.toNat_natCast, BitVec.ofNat_toNat, BitVec.setWidth_eq]

/-! Pixels of the light domain (R126). -/

/-- Every channel lies between +0 and 1.0. -/
def Pix.InLight (p : Pix) : Prop := ∀ c, (p.ch c).toNat ≤ 0x3C00

theorem Pix.inLight_of_not_outside {p : Pix} (h : p.outside = false) : p.InLight := by
  simp only [Pix.outside, Bool.or_eq_false_iff, decide_eq_false_iff_not, Nat.not_lt] at h
  obtain ⟨⟨hr, hg⟩, hb⟩ := h
  intro c
  unfold Pix.ch
  split <;> assumption

theorem inLight_of_any_outside {l : List Pix} (h : l.any Pix.outside = false) : ∀ p ∈ l, p.InLight :=
  fun p hp => Pix.inLight_of_not_outside (Bool.eq_false_iff.2 (List.any_eq_false.1 h p hp))

theorem Pix.black_inLight : Pix.black.InLight := fun c => by
  unfold Pix.ch Pix.black
  split <;> simp

theorem abovePix_inLight {above : Above} (h : ∀ p ∈ above, p.InLight) (x : Int) : (abovePix above x).InLight := by
  unfold abovePix
  split
  · exact Pix.black_inLight
  · rcases Nat.lt_or_ge x.toNat above.length with hx | hx
    · simpa [List.getD, hx] using h _ (List.getElem_mem hx)
    · simpa [List.getD, hx] using Pix.black_inLight

/-- The predictor lies between its neighbours. -/
theorem predict_le {even : Bool} {left : Option Nat} {above aboveLeft : Nat} (hl : ∀ v ∈ left, v ≤ 0x3C00)
    (ha : above ≤ 0x3C00) : predict even left above aboveLeft ≤ 0x3C00 := by
  cases left with
  | none =>
    unfold predict
    simp only [Option.getD_none, Option.isSome_none, Bool.false_eq_true, if_false]
    split_ifs <;> omega
  | some v =>
    have hv := hl v rfl
    unfold predict
    simp only [Option.getD_some, Option.isSome_some, if_true]
    split_ifs <;> omega

/-- The predictor of a channel of a pixel, as encoder and decoder take it. -/
def predictAt (even : Bool) (left : Option Pix) (above : Above) (x c : Nat) : Nat :=
  predict even (left.map (fun l => (l.ch c).toNat)) ((abovePix above x).ch c).toNat ((abovePix above ((x : Int) - 1)).ch c).toNat

theorem predictAt_le {left : Option Pix} {above : Above} (even : Bool) (x c : Nat) (hl : ∀ p ∈ left, p.InLight)
    (ha : ∀ p ∈ above, p.InLight) : predictAt even left above x c ≤ 0x3C00 := by
  refine predict_le (fun v hv => ?_) (abovePix_inLight ha _ c)
  obtain ⟨p, hp, rfl⟩ := Option.mem_map.1 hv
  exact hl p hp c

theorem pixTok_eq (even : Bool) (left : Option Pix) (above : Above) (x : Nat) (p : Pix) :
    pixTok even left above x p = .pix (residual p.r.toNat (predictAt even left above x 0))
      (residual p.g.toNat (predictAt even left above x 1)) (residual p.b.toNat (predictAt even left above x 2)) := rfl

/-- A pixel token reads back as its pixel. -/
theorem readPix_residuals {left : Option Pix} {above : Above} {p : Pix} (even : Bool) (kr kg kb x : Nat) (rest : List Bool)
    (hp : p.InLight) (hl : ∀ p ∈ left, p.InLight) (ha : ∀ p ∈ above, p.InLight) :
    readPix even kr kg kb left above x (riceBits (residual p.r.toNat (predictAt even left above x 0)) kr ++
      (riceBits (residual p.g.toNat (predictAt even left above x 1)) kg ++
      (riceBits (residual p.b.toNat (predictAt even left above x 2)) kb ++ rest))) = some (p, rest) := by
  have hpred := fun c => predictAt_le even x c hl ha
  have hr : p.r.toNat ≤ 0x3C00 := hp 0
  have hg : p.g.toNat ≤ 0x3C00 := hp 1
  have hb : p.b.toNat ≤ 0x3C00 := hp 2
  rw [readPix, readRice_riceBits _ _ (residual_lt hr (hpred 0))]
  dsimp only
  rw [readRice_riceBits _ _ (residual_lt hg (hpred 1))]
  dsimp only
  rw [readRice_riceBits _ _ (residual_lt hb (hpred 2))]
  dsimp only
  change (match unresidual (predictAt even left above x 0) _, unresidual (predictAt even left above x 1) _,
    unresidual (predictAt even left above x 2) _ with | some r, some g, some b => _ | _, _, _ => _) = _
  rw [unresidual_residual _ hr, unresidual_residual _ hg, unresidual_residual _ hb]

/-! Matches (R145, R146). -/

theorem matchRun_le (above : Above) (hact n : Nat) (a : Int) (px : List Pix) :
    matchRun above hact n a px ≤ n ∧ matchRun above hact n a px ≤ px.length := by
  induction n generalizing a px with
  | zero => simp [matchRun]
  | succ n ih =>
    cases px with
    | nil => simp [matchRun]
    | cons p ps =>
      rw [matchRun]
      have := ih (a + 1) ps
      rw [List.length_cons]
      split <;> omega

/-- The pixels of a run are those that a MATCH copies. -/
theorem matchPix_of_matchRun (above : Above) (hact n : Nat) (a : Int) (px : List Pix) :
    matchPix above hact (matchRun above hact n a px) a = some (px.take (matchRun above hact n a px)) := by
  induction n generalizing a px with
  | zero => simp [matchRun, matchPix]
  | succ n ih =>
    cases px with
    | nil => simp [matchRun, matchPix]
    | cons p ps =>
      rw [matchRun]
      split
      next h =>
        obtain ⟨hlo, hhi, hpix⟩ := h
        rw [Nat.add_comm, matchPix, if_pos ⟨hlo, hhi⟩, ih (a + 1) ps, hpix, List.take_succ_cons]
      next => simp [matchPix]

/-- The best match is none, or the run at one of the offsets. -/
theorem bestMatch_cases (above : Above) (hact x : Nat) (px : List Pix) :
    bestMatch above hact x px = (0, 0) ∨ ∃ o ∈ matchOffsets, bestMatch above hact x px = (o, matchRun above hact 64 (x + o) px) := by
  unfold bestMatch
  refine List.foldlRecOn matchOffsets _ (motive := fun best => best = (0, 0) ∨
    ∃ o ∈ matchOffsets, best = (o, matchRun above hact 64 (x + o) px)) (.inl rfl) fun best hbest o ho => ?_
  dsimp only
  split
  · exact .inr ⟨o, ho, rfl⟩
  · exact hbest

theorem matchOffset_bounds : ∀ o ∈ matchOffsets, -8 ≤ o ∧ o ≤ 8 := by decide

/-! The tokens of a block (R145 to R147). -/

/-- The token that the encoder chooses is a pixel, or on an odd line a run of two pixels or more. -/
theorem predTokens_cons (even matchEn : Bool) (above : Above) (hact fuel x : Nat) (left : Option Pix) (p : Pix) (ps : List Pix) :
    predTokens even matchEn above hact (fuel + 1) x left (p :: ps) =
        pixTok even left above x p :: predTokens even matchEn above hact fuel (x + 1) (some p) ps ∨
      ∃ o ∈ matchOffsets, ∃ r, r = matchRun above hact 64 (x + o) (p :: ps) ∧ 2 ≤ r ∧ even = false ∧
        predTokens even matchEn above hact (fuel + 1) x left (p :: ps) =
          .run o r :: predTokens even matchEn above hact fuel (x + r) ((p :: ps)[r - 1]?) ((p :: ps).drop r) := by
  rw [predTokens]
  by_cases hoff : (even || !matchEn) = true
  · exact .inl (by rw [if_pos hoff]; rfl)
  · have heven : even = false := by
      cases even with
      | false => rfl
      | true => exact absurd rfl hoff
    rw [if_neg hoff]
    obtain hnone | ⟨o, ho, hrun⟩ := bestMatch_cases above hact x (p :: ps)
    · exact .inl (by rw [hnone]; rfl)
    · rw [hrun]
      by_cases hlong : 2 ≤ matchRun above hact 64 (x + o) (p :: ps)
      · exact .inr ⟨o, ho, _, rfl, hlong, heven, if_pos hlong⟩
      · exact .inl (if_neg hlong)

/-- A pixel token is read, and the tokens behind it go on from its column. -/
theorem readToks_pixel {left : Option Pix} {above : Above} {p : Pix} {ps : List Pix} {rest tail : List Bool} (even : Bool)
    (kr kg kb hact fuel x : Nat) (hp : p.InLight) (hl : ∀ p ∈ left, p.InLight) (ha : ∀ p ∈ above, p.InLight)
    (htail : readToks even kr kg kb above hact fuel (x + 1) ps.length (some p) tail = some (ps, rest)) :
    readToks even kr kg kb above hact (fuel + 1) x (p :: ps).length left
      ((pixTok even left above x p).bits even kr kg kb ++ tail) = some (p :: ps, rest) := by
  have hpix := readPix_residuals even kr kg kb x tail hp hl ha
  rw [readToks, pixTok_eq, List.length_cons, if_neg (Nat.succ_ne_zero _), PredTok.bits]
  simp only [List.append_assoc]
  cases even with
  | true => simp only [if_true, List.nil_append, hpix, Nat.add_sub_cancel, htail]
  | false =>
    simp only [Bool.false_eq_true, if_false, List.cons_append, List.nil_append, hpix, Nat.add_sub_cancel, htail]

/-- A run is read: it copies its pixels, and the tokens behind it go on from its end. -/
theorem readToks_run {left : Option Pix} {above : Above} {px : List Pix} {rest tail : List Bool} {o : Int} {r : Nat}
    (kr kg kb hact fuel x : Nat) (ho : o ∈ matchOffsets) (hr : r = matchRun above hact 64 (x + o) px) (hlong : 2 ≤ r)
    (htail : readToks false kr kg kb above hact fuel (x + r) (px.drop r).length px[r - 1]? tail = some (px.drop r, rest)) :
    readToks false kr kg kb above hact (fuel + 1) x px.length left
      ((PredTok.run o r).bits false kr kg kb ++ tail) = some (px, rest) := by
  obtain ⟨hlo, hhi⟩ := matchOffset_bounds o ho
  obtain ⟨hmax, hlen⟩ := matchRun_le above hact 64 (x + o) px
  have hcopy := matchPix_of_matchRun above hact 64 (x + o) px
  rw [← hr] at hmax hlen hcopy
  have hofs : (o + 8).toNat % 2 ^ 5 = (o + 8).toNat := Nat.mod_eq_of_lt (by omega)
  have hcount : (r - 1) % 2 ^ 6 = r - 1 := Nat.mod_eq_of_lt (by omega)
  have hfrom : (x : Int) + ((o + 8).toNat : Int) - 8 = x + o := by omega
  have hlast : (px.take r).getLast? = px[r - 1]? := by
    rw [List.getLast?_eq_getElem?, List.length_take, Nat.min_eq_left hlen, List.getElem?_take_of_lt (by omega)]
  have hfits : ¬ (16 < (o + 8).toNat ∨ px.length < r) := by omega
  rw [readToks, if_neg (by omega), PredTok.bits, List.cons_append, List.append_assoc]
  simp only [Bool.false_eq_true, if_false, takeBits_msbBits, hofs, hcount]
  rw [show x + (r - 1) + 1 = x + r by omega, show r - 1 + 1 = r by omega, if_neg hfits, hfrom, hcopy]
  rw [List.length_drop] at htail
  simp only [hlast, htail, List.take_append_drop]

theorem readToks_predTokens {above : Above} (even matchEn : Bool) (kr kg kb hact fuel : Nat) (ha : ∀ p ∈ above, p.InLight) :
    ∀ (x : Nat) (left : Option Pix) (px : List Pix) (rest : List Bool), px.length ≤ fuel → (∀ p ∈ px, p.InLight) →
      (∀ p ∈ left, p.InLight) →
      readToks even kr kg kb above hact fuel x px.length left
        ((predTokens even matchEn above hact fuel x left px).flatMap (PredTok.bits even kr kg kb) ++ rest) = some (px, rest) := by
  induction fuel with
  | zero =>
    intro x left px rest hfuel _ _
    obtain rfl := List.eq_nil_of_length_eq_zero (Nat.le_zero.1 hfuel)
    rfl
  | succ fuel ih =>
    intro x left px rest hfuel hpx hl
    cases px with
    | nil => rfl
    | cons p ps =>
      have hps : ∀ q ∈ ps, q.InLight := fun q hq => hpx q (List.mem_cons_of_mem _ hq)
      obtain heq | ⟨o, ho, r, hr, hlong, rfl, heq⟩ := predTokens_cons even matchEn above hact fuel x left p ps
      · rw [heq, List.flatMap_cons, List.append_assoc]
        refine readToks_pixel even kr kg kb hact fuel x (hpx p (by simp)) hl ha (ih _ _ _ _ ?_ hps fun q hq => ?_)
        · exact Nat.le_of_succ_le_succ hfuel
        · obtain rfl := Option.mem_some.1 hq
          exact hpx _ (by simp)
      · rw [heq, List.flatMap_cons, List.append_assoc]
        refine readToks_run kr kg kb hact fuel x ho hr hlong (ih _ _ _ _ ?_ (fun q hq => hpx q (List.mem_of_mem_drop hq)) fun q hq => ?_)
        · rw [List.length_drop]
          omega
        · exact hpx q (List.mem_of_getElem? hq)

/-! The PRED block. -/

theorem bestRice_lt (ms : List Nat) : bestRice ms < 16 := by
  unfold bestRice
  refine List.foldlRecOn (List.range 16) _ (motive := fun best : Nat × Nat => best.1 < 16) (by simp) fun best hbest k hk => ?_
  dsimp only
  split
  · exact List.mem_range.1 hk
  · exact hbest

theorem bitsVal_append (a b : List Bool) : bitsVal (a ++ b) = bitsVal a * 2 ^ b.length + bitsVal b := by
  rw [bitsVal, List.foldl_append, bitsVal_foldl]
  rfl

/-- The three Rice parameters of the header. -/
theorem takeBits_header {k0 k1 k2 : Nat} (r : List Bool) (h0 : k0 < 16) (h1 : k1 < 16) (h2 : k2 < 16) :
    takeBits 12 (msbBits 4 k0 ++ (msbBits 4 k1 ++ (msbBits 4 k2 ++ r))) = some (256 * k0 + 16 * k1 + k2, r) := by
  have hall : msbBits 4 k0 ++ (msbBits 4 k1 ++ (msbBits 4 k2 ++ r)) = (msbBits 4 k0 ++ (msbBits 4 k1 ++ msbBits 4 k2)) ++ r := by
    simp only [List.append_assoc]
  have hlen : (msbBits 4 k0 ++ (msbBits 4 k1 ++ msbBits 4 k2)).length = 12 := by simp
  rw [hall, takeBits, if_neg (by simp; omega), List.take_left' hlen, List.drop_left' hlen, bitsVal_append, bitsVal_append,
    bitsVal_msbBits, bitsVal_msbBits, bitsVal_msbBits, List.length_append, length_msbBits, length_msbBits,
    Nat.mod_eq_of_lt (b := 2 ^ 4) h0, Nat.mod_eq_of_lt (b := 2 ^ 4) h1, Nat.mod_eq_of_lt (b := 2 ^ 4) h2]
  congr 2
  omega

theorem decodePred_predStream {above : Above} {px : List Pix} (even matchEn : Bool) (hact x0 : Nat)
    (hpx : ∀ p ∈ px, p.InLight) (ha : ∀ p ∈ above, p.InLight) :
    decodePred even above hact x0 px.length (packMsb (predStream even matchEn above hact x0 px)) = some px := by
  obtain ⟨z, hz, hbits⟩ := unpackMsb_packMsb (predStream even matchEn above hact x0 px)
  rw [decodePred, hbits, predStream]
  simp only [List.append_assoc]
  rw [takeBits_header _ (bestRice_lt _) (bestRice_lt _) (bestRice_lt _)]
  dsimp only
  generalize hk0 : bestRice (List.flatMap (PredTok.res 0) _) = k0
  generalize hk1 : bestRice (List.flatMap (PredTok.res 1) _) = k1
  generalize hk2 : bestRice (List.flatMap (PredTok.res 2) _) = k2
  have h0 : k0 < 16 := hk0 ▸ bestRice_lt _
  have h1 : k1 < 16 := hk1 ▸ bestRice_lt _
  have h2 : k2 < 16 := hk2 ▸ bestRice_lt _
  rw [show (256 * k0 + 16 * k1 + k2) / 256 = k0 by omega, show (256 * k0 + 16 * k1 + k2) / 16 % 16 = k1 by omega,
    show (256 * k0 + 16 * k1 + k2) % 16 = k2 by omega,
    readToks_predTokens even matchEn k0 k1 k2 hact px.length ha x0 none px _ (Nat.le_refl _) hpx (by simp)]
  dsimp only
  rw [if_pos ⟨by simpa using hz, by simp⟩]

theorem twelve_le_length_predStream (even matchEn : Bool) (above : Above) (hact x0 : Nat) (px : List Pix) :
    12 ≤ (predStream even matchEn above hact x0 px).length := by
  rw [predStream]
  simp only [List.length_append, length_msbBits]
  omega

/-! The block. -/

/-- The block as it is stored: RAW, FLAT with all pixels equal, or PRED with all samples in the light domain. -/
theorem encodeBlock_cases (on alone even matchEn : Bool) (above : Above) (hact x0 : Nat) (px : List Pix) :
    (∃ fb, encodeBlock on alone even matchEn above hact x0 px = ⟨3, rawBytes px, fb⟩) ∨
      (allEqual px = true ∧ encodeBlock on alone even matchEn above hact x0 px = ⟨1, (px.head?.getD Pix.black).bytes, false⟩) ∨
      ((∀ p ∈ px, p.InLight) ∧ (∀ p ∈ above, p.InLight) ∧ (predStream even matchEn above hact x0 px).length ≤ 48 * px.length ∧
        encodeBlock on alone even matchEn above hact x0 px = ⟨2, packMsb (predStream even matchEn above hact x0 px), false⟩) := by
  rw [encodeBlock]
  split
  · exact .inl ⟨_, rfl⟩
  · split
    next heq => exact .inr (.inl ⟨heq, rfl⟩)
    next =>
      split
      · exact .inl ⟨_, rfl⟩
      next hin =>
        simp only [Bool.or_eq_true, not_or, Bool.not_eq_true] at hin
        obtain ⟨⟨-, hpx⟩, ha⟩ := hin
        dsimp only
        split
        · exact .inl ⟨_, rfl⟩
        next hlen => exact .inr (.inr ⟨inLight_of_any_outside hpx, inLight_of_any_outside ha, Nat.le_of_not_lt hlen, rfl⟩)

/-- Settles O38: a RAW block spells its pixels, a FLAT block the one pixel they all are, and the tokens of a PRED block
read back one by one. -/
theorem codecRoundTrip : Obligations.CodecRoundTrip := by
  intro on alone even matchEn sub mrg above hact x0 px e he hne hlen _ _
  subst he
  obtain ⟨fb, heq⟩ | ⟨hall, heq⟩ | ⟨hpx, ha, hbits, heq⟩ := encodeBlock_cases on alone even matchEn above hact x0 px
  · rw [heq]
    refine ⟨?_, idxEff_indexWord sub mrg ?_ (.inr (.inl ⟨rfl, length_rawBytes px⟩))⟩
    · rw [decodeBlock, if_pos (length_rawBytes px), chunks_rawBytes]
    · change (rawBytes px).length < 512
      rw [length_rawBytes]
      omega
  · rw [heq]
    refine ⟨?_, idxEff_indexWord sub mrg ?_ (.inl ⟨rfl, Pix.length_bytes _⟩)⟩
    · rw [decodeBlock, if_pos (Pix.length_bytes _), pixOf_bytes, ← eq_replicate_of_allEqual hall]
    · change (Pix.bytes _).length < 512
      rw [Pix.length_bytes]
      omega
  · rw [heq]
    have hmin := twelve_le_length_predStream even matchEn above hact x0 px
    have hdata := length_packMsb (predStream even matchEn above hact x0 px)
    refine ⟨decodePred_predStream even matchEn hact x0 hpx ha, idxEff_indexWord sub mrg ?_ (.inr (.inr ⟨rfl, ?_, ?_⟩))⟩
    all_goals
      dsimp only
      omega

end Sys2Proof.Machine
end

section
/-! PROOFS. The data windows whose read the latch of a port answers: what a statement says of every read of such a window
fails where the port holds a word latched under the window's own address (R10 gives the latch to high halves alone). -/

namespace Sys2Proof.Machine

/-- The machine after reset, but that port 0 holds the word 5 latched under an address. -/
def latching (a : Nat) : State :=
  { State.reset with host := { HostState.atReset with latch := [(0, some (a, 5))] } }

/-- What has left the M960 by the end of a command. -/
def Result.sent : Result → List Output
  | .next t => t.out
  | _ => []

theorem Result.sent_of_next {r : Result} {t : State} (h : r = .next t) : Result.sent r = t.out := h ▸ rfl

theorem latching_serves_input : (latching Reg.INPUT_LUT_DATA).Serves .INPUT 0x40 := by constructor <;> decide

/-- Refutes O28: LUT_DATA answers the word latched under its address, 5, and not the entry at INDEX, 0. -/
theorem not_inputTablesAndStats : ¬ Obligations.InputTablesAndStats := by
  rintro ⟨hfill, -, -⟩
  obtain ⟨-, -, t, ht, -, hout, -⟩ := hfill (latching Reg.INPUT_LUT_DATA) 0 0 0 0 0 latching_serves_input
    (by decide) (by decide) (by decide)
  have hsent := Result.sent_of_next ht
  rw [hout] at hsent
  exact absurd hsent (by decide)

theorem latching_serves_zone : (latching Reg.ZONE_CLASS_DATA).Serves .ZONE 0x50 := by constructor <;> decide

/-- Refutes O29: CLASS_DATA answers the word latched under its address, 5, and not the class word at CLASS_ADDR, 0. -/
theorem not_zoneTablesAndCap : ¬ Obligations.ZoneTablesAndCap := by
  rintro ⟨⟨hclass, -, -⟩, -, -⟩
  obtain ⟨-, t, ht, -, hout, -⟩ := hclass (latching Reg.ZONE_CLASS_DATA) 0 0 0 latching_serves_zone (by decide)
  have hsent := Result.sent_of_next ht
  rw [hout] at hsent
  exact absurd hsent (by decide)

theorem latching_serves_split : (latching Reg.SPLIT_CLIP_DATA).Serves .SPLIT 0x53 := by constructor <;> decide

/-- Refutes O31: CLIP_DATA answers the word latched under its address, 5, and not the clip count of the zone, 0. -/
theorem not_lightBecomesCodes : ¬ Obligations.LightBecomesCodes := by
  rintro ⟨⟨hclip, -⟩, -⟩
  obtain ⟨t, ht, -, hout, -⟩ := hclip (latching Reg.SPLIT_CLIP_DATA) 0 0 latching_serves_split (by decide)
  have hsent := Result.sent_of_next ht
  rw [hout] at hsent
  exact absurd hsent (by decide)

theorem latching_serves_od : (latching Reg.OD_DATA).Serves .OD 0x62 := by constructor <;> decide

/-- Refutes O34: OD.DATA answers the word latched under its address, 5, and not the table's entry at INDEX. -/
theorem not_driveIsReduced : ¬ Obligations.DriveIsReduced := by
  rintro ⟨⟨hod, -, -⟩, -⟩
  obtain ⟨-, hserved⟩ := hod (latching Reg.OD_DATA) 0 0 0 0 0 0 latching_serves_od (by decide)
    (by decide) (by decide) (by decide)
  obtain ⟨-, t, ht, -, hout, -⟩ := hserved (by decide) (by decide)
  have hsent := Result.sent_of_next ht
  rw [hout] at hsent
  exact absurd hsent (by decide)

theorem latching_serves_bulk : (latching (Reg.BULK_WIN 0)).Serves .BULK 0x114 := by constructor <;> decide

/-- Refutes O47: a read of the window's word 0 answers the word latched under its address, 5, and not the word held, 0. -/
theorem not_pagesAndTransfers : ¬ Obligations.PagesAndTransfers := by
  rintro ⟨-, hwindow, -⟩
  obtain ⟨-, hidle⟩ := hwindow (latching (Reg.BULK_WIN 0)) 0 0 0 latching_serves_bulk (by decide)
  obtain ⟨-, -, hread⟩ := hidle (by decide)
  exact absurd (Result.sent_of_next hread) (by decide)

/-- The same, with the SRAM window at word 0 of bank 47. -/
def latchingWindow : State := (latching Reg.BANKS_WIN_DATA).put Reg.BANKS_WIN_ADDR_BANK 47

theorem latchingWindow_serves_banks : latchingWindow.Serves .BANKS 0x118 := by constructor <;> decide

/-- Refutes O48: a read of WIN_DATA at a bank of HOST answers the word latched under its address, 5, and not the word in
the bank, 0. -/
theorem not_banksChangeHands : ¬ Obligations.BanksChangeHands := by
  rintro ⟨-, -, hwindow, -, -⟩
  obtain ⟨hbank, -⟩ := hwindow latchingWindow 0 47 0 0 latchingWindow_serves_banks (by decide) (by decide)
  obtain ⟨hhost, -⟩ := hbank (by decide) (by decide) (by decide) (by decide)
  obtain ⟨-, hread⟩ := hhost (by decide)
  exact absurd (Result.sent_of_next hread) (by decide)

theorem latching_serves_nv : (latching Reg.NV_BUF_DATA).Serves .NV 6 := by constructor <;> decide

/-- Refutes O56: a read of BUF_DATA answers the word latched under its address, 5, and not the buffer's word, 0. -/
theorem not_rawFlash : ¬ Obligations.RawFlash := by
  rintro ⟨-, ⟨-, hbuffer⟩, -⟩
  obtain ⟨⟨t, ht, -, hstate⟩, -, -⟩ := hbuffer (latching Reg.NV_BUF_DATA) 0 0 latching_serves_nv
  have hout : t.out = [⟨.hostData, 0, [leVal (Cells.getRun (fun _ => 0) (latching Reg.NV_BUF_DATA).nv.buf
    (latching Reg.NV_BUF_DATA).bufAddr 4)]⟩] := congrArg State.out hstate
  exact absurd ((Result.sent_of_next ht).trans hout) (by decide)

end Sys2Proof.Machine
end

section
/-! PROOFS. What the shared operations leave of registers, fields and the rest of the state, in the form in which the
statements ask for it; what a command answers where the M960 is out of reset; and what the write of a block register
comes to (R6 to R9, R89, R384). -/

namespace Sys2Proof.Machine

variable {s t : State} {a b p n : Nat} {w : Word} {x y : Fld}

/-! Fields of the stored words. -/

theorem Fld.get_lt (x : Fld) (w : Word) : x.get w < 2 ^ x.w := Nat.mod_lt _ (Nat.two_pow_pos _)

/-- A mask that holds a field whole leaves it. -/
theorem Fld.get_and_of_ones {m : Word} (h : x.get m = 2 ^ x.w - 1) : x.get (w &&& m) = x.get w := by
  unfold Fld.get at h ⊢
  rw [BitVec.toNat_and, ← Nat.shiftRight_eq_div_pow, Nat.shiftRight_and_distrib, Nat.and_mod_two_pow,
    Nat.shiftRight_eq_div_pow, Nat.shiftRight_eq_div_pow, h, Nat.and_two_pow_sub_one_eq_mod, Nat.mod_mod]

/-- Setting bit 0 of a word. -/
theorem Fld.put_bit_zero (a : Nat) (w : Word) : ((⟨a, 0, 1⟩ : Fld).put w 1).toNat = w.toNat / 2 * 2 + 1 := by
  have hw := w.isLt
  rw [Fld.put, BitVec.toNat_ofNat]
  dsimp only
  omega

theorem State.fld_lt (s : State) (x : Fld) : s.fld x < 2 ^ x.w := x.get_lt _

theorem State.fld_wr_self (h : a = x.addr) : (s.wr a w).fld x = x.get w := by
  rw [State.fld, h, State.rd_wr_self]

theorem State.fld_wr_other (h : a ≠ x.addr) : (s.wr a w).fld x = s.fld x := by
  rw [State.fld, State.rd_wr_other _ _ _ _ h, State.fld]

theorem State.rd_put_other (h : x.addr ≠ a) : (s.put x n).rd a = s.rd a := State.rd_wr_other _ _ _ _ h

theorem State.fld_put_mod (h : x.lo + x.w ≤ 32) : (s.put x n).fld x = n % 2 ^ x.w := s.fld_put_self x n h

theorem State.fld_put_apart (h : x.lo + x.w ≤ 32 ∧ (x.addr ≠ y.addr ∨ y.lo + y.w ≤ x.lo ∨ x.lo + x.w ≤ y.lo)) :
    (s.put x n).fld y = s.fld y := s.fld_put_other x y n h.1 h.2

theorem State.fld_whole : s.fld (wholeFld a) = (s.rd a).toNat := by
  rw [State.fld, Fld.get, wholeFld, Nat.pow_zero, Nat.div_one, Nat.mod_eq_of_lt (s.rd a).isLt]

theorem State.flag_iff : s.flag x = true ↔ s.fld x ≠ 0 := bne_iff_ne

theorem State.flag_eq_false_iff : s.flag x = false ↔ s.fld x = 0 := bne_eq_false_iff_eq

theorem State.fld_of_regs (h : t.regs = s.regs) (x : Fld) : t.fld x = s.fld x := by
  rw [State.fld, State.rd, h, State.fld, State.rd]

theorem State.rd_of_regs (h : t.regs = s.regs) (a : Nat) : t.rd a = s.rd a := by rw [State.rd, h, State.rd]

/-! Events. -/

theorem State.fld_raise_other (h : Reg.HDR_IRQ_RAW (hdrPage p) ≠ x.addr) : (s.raise p n).fld x = s.fld x := by
  rw [State.fld, State.raise_rd_other _ _ _ _ h, State.fld]

theorem State.rd_raise (hgate : s.gateClosed p = false) :
    (s.raise p n).rd a = (s.put ⟨Reg.HDR_IRQ_RAW (hdrPage p), n, 1⟩ 1).rd a := by
  simp only [State.raise, hgate, Bool.false_eq_true, if_false]
  split
  · rfl
  · rw [State.noteRise_rd]

/-- An event sets its bit of IRQ_RAW where the gate is open (R384, R407). -/
theorem State.fld_raise_self (hgate : s.gateClosed p = false) (hn : n < 32) :
    (s.raise p n).fld ⟨Reg.HDR_IRQ_RAW (hdrPage p), n, 1⟩ = 1 := by
  rw [State.fld, State.rd_raise hgate]
  exact s.fld_put_self ⟨Reg.HDR_IRQ_RAW (hdrPage p), n, 1⟩ 1 hn

/-- No event clears a bit of IRQ_RAW (R384). -/
theorem State.fld_raise_of_set (hb : b < 32) (hn : n < 32) (h : s.fld ⟨a, b, 1⟩ = 1) : (s.raise p n).fld ⟨a, b, 1⟩ = 1 := by
  cases hgate : s.gateClosed p
  · rw [State.fld, State.rd_raise hgate]
    change (s.put _ 1).fld ⟨a, b, 1⟩ = 1
    by_cases hsame : (⟨Reg.HDR_IRQ_RAW (hdrPage p), n, 1⟩ : Fld) = ⟨a, b, 1⟩
    · rw [hsame]; exact s.fld_put_self ⟨a, b, 1⟩ 1 hb
    · have hd : Reg.HDR_IRQ_RAW (hdrPage p) ≠ a ∨ b + 1 ≤ n ∨ n + 1 ≤ b := by
        simp only [Fld.mk.injEq, and_true, not_and] at hsame
        by_cases ha : Reg.HDR_IRQ_RAW (hdrPage p) = a
        · have := hsame ha; omega
        · exact Or.inl ha
      rw [State.fld_put_other _ _ _ _ (by exact hn) hd]; exact h
  · simp only [State.raise, hgate, if_true, h]

/-! Counters. -/

theorem State.fld_bumpBy_other (h : x.addr ≠ y.addr ∧ Reg.HDR_IRQ_RAW (hdrPage (x.addr / 0x1000)) ≠ y.addr) :
    (s.bumpBy x n).fld y = s.fld y := by
  rw [State.fld, State.bumpBy_rd_other _ _ _ _ h.1 h.2, State.fld]

theorem State.rd_bump_other (h : a ≠ b ∧ Reg.HDR_IRQ_RAW (hdrPage (a / 0x1000)) ≠ b) : (s.bump a).rd b = s.rd b :=
  State.bumpBy_rd_other _ _ _ _ h.1 h.2

theorem State.fld_bump_other (h : a ≠ x.addr ∧ Reg.HDR_IRQ_RAW (hdrPage (a / 0x1000)) ≠ x.addr) :
    (s.bump a).fld x = s.fld x := State.fld_bumpBy_other h

theorem Unit.satBit_lt {u : Unit} (h : u.satBit = some b) : b < 32 := by
  revert h; cases u <;> simp [Unit.satBit] <;> omega

/-- A counter clears no bit of IRQ_RAW: it may only raise SAT there (R89). -/
theorem State.fld_bumpBy_of_set (hx : x.addr ≠ a) (hb : b < 32) (h : s.fld ⟨a, b, 1⟩ = 1) :
    (s.bumpBy x n).fld ⟨a, b, 1⟩ = 1 := by
  have hput : ∀ m, (s.put x m).fld ⟨a, b, 1⟩ = 1 := fun m => (State.fld_wr_other hx).trans h
  unfold State.bumpBy
  dsimp only
  split
  · split
    · split
      · next hbit => exact State.fld_raise_of_set hb (Unit.satBit_lt hbit) (hput _)
      · exact hput _
    · exact hput _
  · exact hput _

theorem satAdd_eq_min (m a b : Nat) : satAdd m a b = min m (a + b) := by unfold satAdd; split <;> omega

theorem State.rd_bump_toNat (h : Reg.HDR_IRQ_RAW (hdrPage (a / 0x1000)) ≠ a) :
    ((s.bump a).rd a).toNat = min (2 ^ 32 - 1) ((s.rd a).toNat + 1) := by
  rw [← State.fld_whole, ← State.fld_whole, ← satAdd_eq_min]
  exact State.bumpBy_fld s (wholeFld a) 1 (Nat.le_refl _) h

/-- A counter counts: what the statements ask of it. -/
theorem counted_of_rd (h : t.rd a = (s.bump a).rd a) (ha : Reg.HDR_IRQ_RAW (hdrPage (a / 0x1000)) ≠ a) : counted s t a 1 := by
  rw [counted, h]; exact State.rd_bump_toNat ha

/-! What registers, counters and events leave of the rest of the state. -/

theorem OnlyRegs.now_eq (h : OnlyRegs s t) : t.now = s.now := by obtain ⟨_, _, _, rfl⟩ := h; rfl
theorem OnlyRegs.act_eq (h : OnlyRegs s t) : t.act = s.act := by obtain ⟨_, _, _, rfl⟩ := h; rfl
theorem OnlyRegs.out_eq (h : OnlyRegs s t) : t.out = s.out := by obtain ⟨_, _, _, rfl⟩ := h; rfl
theorem OnlyRegs.clk_eq (h : OnlyRegs s t) : t.clk = s.clk := by obtain ⟨_, _, _, rfl⟩ := h; rfl
theorem OnlyRegs.pan_eq (h : OnlyRegs s t) : t.pan = s.pan := by obtain ⟨_, _, _, rfl⟩ := h; rfl
theorem OnlyRegs.pwr_eq (h : OnlyRegs s t) : t.pwr = s.pwr := by obtain ⟨_, _, _, rfl⟩ := h; rfl
theorem OnlyRegs.phy_eq (h : OnlyRegs s t) : t.phy = s.phy := by obtain ⟨_, _, _, rfl⟩ := h; rfl
theorem OnlyRegs.mem_eq (h : OnlyRegs s t) : t.mem = s.mem := by obtain ⟨_, _, _, rfl⟩ := h; rfl
theorem OnlyRegs.sec_eq (h : OnlyRegs s t) : t.sec = s.sec := by obtain ⟨_, _, _, rfl⟩ := h; rfl

theorem State.muxTo_congr {m : Nat} (h : t.clk = s.clk) : t.muxTo m = s.muxTo m := by rw [State.muxTo, h, State.muxTo]
theorem State.muxPend_congr {m : Nat} (h : t.clk = s.clk) : t.muxPend m = s.muxPend m := by
  rw [State.muxPend, h, State.muxPend]

/-! Whether a gate is closed. -/

theorem State.gateClosed_congr (h : t.rd (Reg.HDR_CTRL (hdrPage p)) = s.rd (Reg.HDR_CTRL (hdrPage p))) :
    t.gateClosed p = s.gateClosed p := by
  have hm : t.fld (Reg.HDR_CTRL_GATE_MODE (hdrPage p)) = s.fld (Reg.HDR_CTRL_GATE_MODE (hdrPage p)) := congrArg _ h
  have he : t.fld (Reg.HDR_CTRL_CLK_EN (hdrPage p)) = s.fld (Reg.HDR_CTRL_CLK_EN (hdrPage p)) := congrArg _ h
  rw [State.gateClosed, hm, he, State.gateClosed]

theorem State.gateClosed_wr (h : a ≠ Reg.HDR_CTRL (hdrPage p)) : (s.wr a w).gateClosed p = s.gateClosed p :=
  State.gateClosed_congr (State.rd_wr_other _ _ _ _ h)

theorem State.gateClosed_put (h : x.addr ≠ Reg.HDR_CTRL (hdrPage p)) : (s.put x n).gateClosed p = s.gateClosed p :=
  State.gateClosed_congr (State.rd_put_other h)

theorem State.gateClosed_raise (h : Reg.HDR_IRQ_RAW (hdrPage b) ≠ Reg.HDR_CTRL (hdrPage p)) :
    (s.raise b n).gateClosed p = s.gateClosed p :=
  State.gateClosed_congr (State.raise_rd_other _ _ _ _ h)

theorem State.gateClosed_bump
    (h : a ≠ Reg.HDR_CTRL (hdrPage p) ∧ Reg.HDR_IRQ_RAW (hdrPage (a / 0x1000)) ≠ Reg.HDR_CTRL (hdrPage p)) :
    (s.bump a).gateClosed p = s.gateClosed p :=
  State.gateClosed_congr (State.rd_bump_other h)

/-! A change of what stands beside the registers leaves every register. -/

section
variable (s : State) (x : Fld) (a p : Nat)

@[simp] theorem State.rd_clk (c : ClkState) : ({ s with clk := c } : State).rd a = s.rd a := rfl
@[simp] theorem State.fld_clk (c : ClkState) : ({ s with clk := c } : State).fld x = s.fld x := rfl
@[simp] theorem State.gateClosed_clk (c : ClkState) : ({ s with clk := c } : State).gateClosed p = s.gateClosed p := rfl
@[simp] theorem State.rd_pan (c : PanelState) : ({ s with pan := c } : State).rd a = s.rd a := rfl
@[simp] theorem State.fld_pan (c : PanelState) : ({ s with pan := c } : State).fld x = s.fld x := rfl
@[simp] theorem State.gateClosed_pan (c : PanelState) : ({ s with pan := c } : State).gateClosed p = s.gateClosed p := rfl
@[simp] theorem State.rd_pwr (c : PwrState) : ({ s with pwr := c } : State).rd a = s.rd a := rfl
@[simp] theorem State.fld_pwr (c : PwrState) : ({ s with pwr := c } : State).fld x = s.fld x := rfl
@[simp] theorem State.gateClosed_pwr (c : PwrState) : ({ s with pwr := c } : State).gateClosed p = s.gateClosed p := rfl
@[simp] theorem State.rd_mem (c : MemState) : ({ s with mem := c } : State).rd a = s.rd a := rfl
@[simp] theorem State.fld_mem (c : MemState) : ({ s with mem := c } : State).fld x = s.fld x := rfl
@[simp] theorem State.gateClosed_mem (c : MemState) : ({ s with mem := c } : State).gateClosed p = s.gateClosed p := rfl
@[simp] theorem State.rd_phy (c : PhyState) : ({ s with phy := c } : State).rd a = s.rd a := rfl
@[simp] theorem State.fld_phy (c : PhyState) : ({ s with phy := c } : State).fld x = s.fld x := rfl
@[simp] theorem State.gateClosed_phy (c : PhyState) : ({ s with phy := c } : State).gateClosed p = s.gateClosed p := rfl
@[simp] theorem State.rd_isl (c : IslState) : ({ s with isl := c } : State).rd a = s.rd a := rfl
@[simp] theorem State.fld_isl (c : IslState) : ({ s with isl := c } : State).fld x = s.fld x := rfl
@[simp] theorem State.gateClosed_isl (c : IslState) : ({ s with isl := c } : State).gateClosed p = s.gateClosed p := rfl
@[simp] theorem State.rd_nv (c : NvState) : ({ s with nv := c } : State).rd a = s.rd a := rfl
@[simp] theorem State.fld_nv (c : NvState) : ({ s with nv := c } : State).fld x = s.fld x := rfl
@[simp] theorem State.gateClosed_nv (c : NvState) : ({ s with nv := c } : State).gateClosed p = s.gateClosed p := rfl
@[simp] theorem State.rd_edl (c : EdlState) : ({ s with edl := c } : State).rd a = s.rd a := rfl
@[simp] theorem State.fld_edl (c : EdlState) : ({ s with edl := c } : State).fld x = s.fld x := rfl
@[simp] theorem State.gateClosed_edl (c : EdlState) : ({ s with edl := c } : State).gateClosed p = s.gateClosed p := rfl
@[simp] theorem State.rd_tim (c : TimState) : ({ s with tim := c } : State).rd a = s.rd a := rfl
@[simp] theorem State.fld_tim (c : TimState) : ({ s with tim := c } : State).fld x = s.fld x := rfl
@[simp] theorem State.gateClosed_tim (c : TimState) : ({ s with tim := c } : State).gateClosed p = s.gateClosed p := rfl
@[simp] theorem State.rd_srf (c : SrefState) : ({ s with srf := c } : State).rd a = s.rd a := rfl
@[simp] theorem State.fld_srf (c : SrefState) : ({ s with srf := c } : State).fld x = s.fld x := rfl
@[simp] theorem State.gateClosed_srf (c : SrefState) : ({ s with srf := c } : State).gateClosed p = s.gateClosed p := rfl
@[simp] theorem State.rd_boot (c : BootState) : ({ s with boot := c } : State).rd a = s.rd a := rfl
@[simp] theorem State.fld_boot (c : BootState) : ({ s with boot := c } : State).fld x = s.fld x := rfl
@[simp] theorem State.gateClosed_boot (c : BootState) : ({ s with boot := c } : State).gateClosed p = s.gateClosed p := rfl
@[simp] theorem State.rd_sec (c : SecState) : ({ s with sec := c } : State).rd a = s.rd a := rfl
@[simp] theorem State.fld_sec (c : SecState) : ({ s with sec := c } : State).fld x = s.fld x := rfl
@[simp] theorem State.gateClosed_sec (c : SecState) : ({ s with sec := c } : State).gateClosed p = s.gateClosed p := rfl
@[simp] theorem State.rd_cas (c : CasState) : ({ s with cas := c } : State).rd a = s.rd a := rfl
@[simp] theorem State.fld_cas (c : CasState) : ({ s with cas := c } : State).fld x = s.fld x := rfl
@[simp] theorem State.gateClosed_cas (c : CasState) : ({ s with cas := c } : State).gateClosed p = s.gateClosed p := rfl
@[simp] theorem State.rd_chip (c : ChipState) : ({ s with chip := c } : State).rd a = s.rd a := rfl
@[simp] theorem State.fld_chip (c : ChipState) : ({ s with chip := c } : State).fld x = s.fld x := rfl
@[simp] theorem State.gateClosed_chip (c : ChipState) : ({ s with chip := c } : State).gateClosed p = s.gateClosed p := rfl
@[simp] theorem State.rd_zon (c : ZoneState) : ({ s with zon := c } : State).rd a = s.rd a := rfl
@[simp] theorem State.fld_zon (c : ZoneState) : ({ s with zon := c } : State).fld x = s.fld x := rfl
@[simp] theorem State.gateClosed_zon (c : ZoneState) : ({ s with zon := c } : State).gateClosed p = s.gateClosed p := rfl
@[simp] theorem State.rd_sto (c : StoreState) : ({ s with sto := c } : State).rd a = s.rd a := rfl
@[simp] theorem State.fld_sto (c : StoreState) : ({ s with sto := c } : State).fld x = s.fld x := rfl
@[simp] theorem State.gateClosed_sto (c : StoreState) : ({ s with sto := c } : State).gateClosed p = s.gateClosed p := rfl

end

/-! What keeps time, the queue and the hold in reset. -/

section
variable (s : State)
theorem State.wr_steady (a : Nat) (w : Word) : Steady s (s.wr a w) := (s.wr_onlyRegs a w).steady
theorem State.put_steady (x : Fld) (n : Nat) : Steady s (s.put x n) := (s.put_onlyRegs x n).steady
theorem State.raise_steady (p n : Nat) : Steady s (s.raise p n) := (s.raise_onlyRegs p n).steady
theorem State.bump_steady (a : Nat) : Steady s (s.bump a) := (s.bump_onlyRegs a).steady
theorem State.clk_steady (c : ClkState) : Steady s { s with clk := c } := ⟨Nat.le_refl _, rfl, rfl⟩
theorem State.pan_steady (c : PanelState) : Steady s { s with pan := c } := ⟨Nat.le_refl _, rfl, rfl⟩
theorem State.pwr_steady (c : PwrState) : Steady s { s with pwr := c } := ⟨Nat.le_refl _, rfl, rfl⟩
end

/-! Time. -/

theorem State.advance_now (s : State) (n : Nat) : (s.advance n).now = max s.now n := by
  unfold State.advance
  by_cases h : n ≤ s.now
  · rw [if_pos h, Nat.max_eq_left h]
  · rw [if_neg h, Nat.max_eq_right (Nat.le_of_not_le h)]

theorem State.advance_eq (s : State) (n : Nat) :
    s.advance n = { s with now := (s.advance n).now, regs := (s.advance n).regs, clk := (s.advance n).clk } := by
  unfold State.advance
  split
  · rfl
  · dsimp only; split <;> rfl

theorem State.rd_advance (h : a ≠ Reg.AON_TIMEBASE ∧ a ≠ Reg.AON_TIMEBASE_HI) : (s.advance n).rd a = s.rd a := by
  unfold State.advance
  split
  · rfl
  · dsimp only
    split
    · rfl
    · exact State.tbAdd_rd_other h.1 h.2

theorem State.fld_advance (h : x.addr ≠ Reg.AON_TIMEBASE ∧ x.addr ≠ Reg.AON_TIMEBASE_HI) :
    (s.advance n).fld x = s.fld x := by rw [State.fld, State.rd_advance h, State.fld]

theorem State.gateClosed_advance
    (h : Reg.HDR_CTRL (hdrPage p) ≠ Reg.AON_TIMEBASE ∧ Reg.HDR_CTRL (hdrPage p) ≠ Reg.AON_TIMEBASE_HI) :
    (s.advance n).gateClosed p = s.gateClosed p := State.gateClosed_congr (State.rd_advance h)

/-! What a command answers out of reset. -/

/-- What a command leaves: its effect, but that time goes not back, the queue stays and reset is neither entered nor left. -/
def State.left (s t : State) : State := s.after (s.sameHold t)

theorem State.unheld_live {f : State → State} (h : s.boot.resetLow = false) : s.unheld f = .next (s.left (f s)) := by
  simp [State.unheld, h, State.left]

@[simp] theorem State.left_rd (s t : State) (a : Nat) : (s.left t).rd a = t.rd a := rfl
@[simp] theorem State.left_fld (s t : State) (x : Fld) : (s.left t).fld x = t.fld x := rfl
@[simp] theorem State.left_flag (s t : State) (x : Fld) : (s.left t).flag x = t.flag x := rfl
@[simp] theorem State.left_now (s t : State) : (s.left t).now = max s.now t.now := rfl
@[simp] theorem State.left_regs (s t : State) : (s.left t).regs = t.regs := rfl
@[simp] theorem State.left_out (s t : State) : (s.left t).out = t.out := rfl

theorem State.left_of_steady (h : Steady s t) : s.left t = t := State.after_sameHold s t h.now h.pending h.hold

/-! Writes of block registers. -/

/-- The row of a block register that a port's write reaches: writable, and none of the broadcast, partner or inert ones. -/
def blockRow (u : Unit) (a : Nat) : Option RegRow :=
  if portAddr a = a ∧ a < 0x800000 ∧ isGroupWrite a = false ∧ 0x40 ≤ a % 0x1000 ∧ partnerAt a = none ∧ phyInert a = false
  then (rowAt u (a % 0x1000)).filter (fun r => r.rw != 0 || r.w1c != 0 || r.act != 0) else none

theorem State.hostWrite_blockRow {u : Unit} {port : Nat} {r : RegRow} (hs : s.Serves u (a / 0x1000))
    (hr : blockRow u a = some r) (hv : r.p = false ∨ s.presenceOpen = true) :
    s.hostWrite port a w = s.writeReg port u (a / 0x1000) a r w := by
  unfold blockRow at hr
  split at hr
  case isFalse => cases hr
  case isTrue h =>
    obtain ⟨haddr, hdevice, hgroup, hblock, hpartner, hinert⟩ := h
    obtain ⟨hrow, hbits⟩ := Option.filter_eq_some_iff.1 hr
    exact State.hostWrite_block hs haddr hdevice hgroup hblock hpartner hinert hrow (by simp [writable, hbits]) hbits hv

/-- The write of a register that acts, one that needs no presence window. -/
theorem State.hostWrite_acts {u : Unit} {port : Nat} {e : Nat × (State → Nat → Word → State)}
    (hs : s.Serves u (a / 0x1000)) (hr : (blockRow u a).any (fun r => !r.p) = true)
    (hact : writeActs.find? (·.1 == a) = some e) : s.hostWrite port a w = e.2 s port w := by
  obtain ⟨r, hrow, hp⟩ := Option.any_eq_true _ _ |>.1 hr
  rw [State.hostWrite_blockRow hs hrow (Or.inl (by simpa using hp)), State.writeReg, hact]

end Sys2Proof.Machine
end

section
/-! PROOFS. The clock sources, the PLLs, the multiplexers and the trim of AONOSC (R394 to R411). -/

namespace Sys2Proof.Machine

variable {s t : State} {m src : Nat}

/-! Multiplexers. -/

theorem State.muxTo_setMuxTo (s : State) (m k : Nat) (v : Option Nat) :
    (s.setMuxTo m v).muxTo k = if m = k then v else s.muxTo k := Cells.get_set _ _ _ _ _

theorem State.muxTo_setMuxPend (s : State) (m k : Nat) (v : Option Nat) : (s.setMuxPend m v).muxTo k = s.muxTo k := rfl

theorem State.muxPend_setMuxPend (s : State) (m k : Nat) (v : Option Nat) :
    (s.setMuxPend m v).muxPend k = if m = k then v else s.muxPend k := Cells.get_set _ _ _ _ _

/-- HCLK and the control core have no source that R396 finds absent. -/
theorem State.srcAbsent_core (hm : m < 2) : s.srcAbsent m src = false := by
  have h2 : (m == 2) = false := by simp; omega
  have h3 : (m == 3) = false := by simp; omega
  simp [State.srcAbsent, h2, h3]

/-- A source asked of HCLK or the control core with no switch under way is switched to at once (R405). -/
theorem State.muxRequest_idle (hm : m < 2) (h : s.muxTo m = none) : s.muxRequest m src = s.setMuxTo m (some src) := by
  simp [State.muxRequest, State.srcAbsent_core hm, h]

theorem State.muxRequest_core_rd (hm : m < 2) {a : Nat} (ha : a ≠ Reg.CLK_SUPERSEDED) (hraw : a ≠ Reg.HDR_IRQ_RAW 2) :
    (s.muxRequest m src).rd a = s.rd a := by
  simp only [State.muxRequest, State.srcAbsent_core hm, Bool.false_eq_true, if_false]
  split
  · rfl
  · change (s.bumpIf _ Reg.CLK_SUPERSEDED).rd a = s.rd a
    unfold State.bumpIf
    split
    · exact State.rd_bump_other ⟨ha.symm, hraw.symm⟩
    · rfl

/-- A multiplexer's switch ends: what was asked for meanwhile is next, and nothing waits (R405). -/
theorem State.muxNext_muxTo (s : State) (m : Nat) : (s.muxNext m).muxTo m = s.muxPend m := by
  rw [State.muxNext, State.muxTo_setMuxPend, State.muxTo_setMuxTo, if_pos rfl]

theorem State.muxNext_muxPend (s : State) (m : Nat) : (s.muxNext m).muxPend m = none := by
  rw [State.muxNext, State.muxPend_setMuxPend, if_pos rfl]

theorem State.muxNext_rd (s : State) (m a : Nat) : (s.muxNext m).rd a = s.rd a := rfl

theorem State.muxNext_steady (s : State) (m : Nat) : Steady s (s.muxNext m) :=
  (s.clk_steady _).trans (State.clk_steady _ _)

/-! Sources (R396, R400, R403). -/

theorem State.xtalStable_flags (s : State) :
    s.xtalStable.flag Reg.CLK_STATUS_XTAL_OK = true ∧ s.xtalStable.flag Reg.CLK_AON_TRIM_HELD = false := by
  simp only [State.flag_iff, State.flag_eq_false_iff, State.xtalStable]
  constructor <;> split_ifs <;>
    simp (disch := decide) [State.fld_put_mod, State.fld_put_apart, State.fld_raise_other]

theorem State.xtalStable_back (hgate : s.gateClosed 2 = false) (hlost : s.clk.xtalLost = true) :
    raised s.xtalStable 2 1 ∧ s.xtalStable.clk.xtalLost = false := by
  have hraised : ∀ u : State, u.gateClosed 2 = false → (u.raise 2 1).fld ⟨Reg.HDR_IRQ_RAW 2, 1, 1⟩ = 1 :=
    fun u hu => State.fld_raise_self (p := 2) hu (by decide)
  rw [State.xtalStable, if_pos (by split <;> exact hlost)]
  refine ⟨hraised _ ?_, rfl⟩
  split <;> simp (disch := decide) [State.gateClosed_put, hgate]

/-- The registers that the loss of XTAL leaves, but for PIX_REF (R403). -/
def State.xtalGone (s : State) : State :=
  (((s.bump Reg.CLK_XTAL_LOSS).put Reg.CLK_STATUS_XTAL_OK 0).raise 2 0).put Reg.CLK_AON_TRIM_HELD 1

theorem State.xtalGone_pixRef (s : State) : s.xtalGone.fld Reg.CLK_MUX_PIX_REF = s.fld Reg.CLK_MUX_PIX_REF := by
  simp (disch := decide) [State.xtalGone, State.fld_put_apart, State.fld_raise_other, State.fld_bump_other]

theorem State.xtalLoss_regs (hok : s.flag Reg.CLK_STATUS_XTAL_OK = true) :
    s.xtalLoss.regs = (if s.fld Reg.CLK_MUX_PIX_REF = 1 then s.xtalGone.put Reg.CLK_MUX_PIX_REF 2 else s.xtalGone).regs := by
  rw [State.xtalLoss, if_pos hok, ← s.xtalGone_pixRef]
  rfl

/-- XTAL_OK falls with a count and an event, and the trim is held (R403). -/
theorem State.xtalLoss_effect (hok : s.flag Reg.CLK_STATUS_XTAL_OK = true) (hgate : s.gateClosed 2 = false) :
    counted s s.xtalLoss Reg.CLK_XTAL_LOSS 1 ∧ raised s.xtalLoss 2 0 ∧ s.xtalLoss.flag Reg.CLK_STATUS_XTAL_OK = false ∧
      s.xtalLoss.flag Reg.CLK_AON_TRIM_HELD = true ∧
      s.xtalLoss.fld Reg.CLK_MUX_PIX_REF = (if s.fld Reg.CLK_MUX_PIX_REF = 1 then 2 else s.fld Reg.CLK_MUX_PIX_REF) := by
  have hraised : s.xtalGone.fld ⟨Reg.HDR_IRQ_RAW 2, 0, 1⟩ = 1 := by
    rw [State.xtalGone, State.fld_put_apart (by decide)]
    exact State.fld_raise_self (p := 2)
      (by simp (disch := decide) [State.gateClosed_put, State.gateClosed_bump, hgate]) (by decide)
  have hcount : s.xtalGone.rd Reg.CLK_XTAL_LOSS = (s.bump Reg.CLK_XTAL_LOSS).rd Reg.CLK_XTAL_LOSS := by
    simp (disch := decide) [State.xtalGone, State.rd_put_other, State.raise_rd_other]
  have hgone : s.xtalGone.fld Reg.CLK_STATUS_XTAL_OK = 0 := by
    simp (disch := decide) [State.xtalGone, State.fld_put_apart, State.fld_put_mod, State.fld_raise_other]
  have hheld : s.xtalGone.fld Reg.CLK_AON_TRIM_HELD = 1 := State.fld_put_mod (by decide)
  have htwo : (s.xtalGone.put Reg.CLK_MUX_PIX_REF 2).fld Reg.CLK_MUX_PIX_REF = 2 := State.fld_put_mod (by decide)
  have hregs := State.xtalLoss_regs hok
  refine ⟨counted_of_rd ?_ (by decide), ?_, State.flag_eq_false_iff.2 ?_, State.flag_iff.2 ?_, ?_⟩
  all_goals simp only [raised, State.rd_of_regs hregs, State.fld_of_regs hregs]
  all_goals split
  all_goals simp (disch := decide) [State.rd_put_other, State.fld_put_apart, s.xtalGone_pixRef, *]

/-- The fourth good window in a row declares REFCLK present, and fewer change no register (R396). -/
theorem State.refWindow_good {n : Nat} (hok : s.flag Reg.CLK_STATUS_XTAL_OK = true) (hlo : 999 ≤ n) (hhi : n ≤ 1001) :
    (s.refWindow n).clk.refRun = min 4 (s.clk.refRun + 1) ∧
      (3 ≤ s.clk.refRun → (s.refWindow n).flag Reg.CLK_STATUS_REFCLK_OK = true) ∧
      (s.clk.refRun < 3 → (s.refWindow n).regs = s.regs) := by
  simp only [State.refWindow, hok, Bool.not_true, Bool.false_eq_true, if_false, and_self, hlo, hhi, if_true]
  split
  · exact ⟨rfl, fun _ => State.flag_iff.2 (by simp (disch := decide) [State.fld_put_mod]), fun h => by omega⟩
  · exact ⟨rfl, fun h => by omega, fun _ => rfl⟩

theorem State.refWindow_bad {n : Nat} (hok : s.flag Reg.CLK_STATUS_XTAL_OK = true) (hn : n < 999 ∨ 1001 < n) :
    s.refWindow n = { (s.put Reg.CLK_STATUS_REFCLK_OK 0) with clk := { s.clk with refRun := 0 } } := by
  have hout : ¬ (999 ≤ n ∧ n ≤ 1001) := by omega
  simp only [State.refWindow, hok, Bool.not_true, Bool.false_eq_true, if_false, hout]

/-! PLLs (R397, R402, R404). -/

theorem State.muxRequests_rd {a i j : Nat} (ha : a ≠ Reg.CLK_SUPERSEDED) (hraw : a ≠ Reg.HDR_IRQ_RAW 2) :
    ((s.muxRequest 0 i).muxRequest 1 j).rd a = s.rd a := by
  rw [State.muxRequest_core_rd (by decide) ha hraw, State.muxRequest_core_rd (by decide) ha hraw]

/-- Two sources asked for, of HCLK and of the control core, with no switch under way. -/
theorem State.muxRequests_muxTo {i j : Nat} (h0 : s.muxTo 0 = none) (h1 : s.muxTo 1 = none) :
    ((s.muxRequest 0 i).muxRequest 1 j).muxTo 0 = some i ∧ ((s.muxRequest 0 i).muxRequest 1 j).muxTo 1 = some j := by
  have hfree : (s.setMuxTo 0 (some i)).muxTo 1 = none := by simp [State.muxTo_setMuxTo, h1]
  rw [State.muxRequest_idle (by decide) h0, State.muxRequest_idle (by decide) hfree]
  simp [State.muxTo_setMuxTo]

theorem pllLockFld_ne {p a : Nat} (h : Reg.HDR_STATUS 2 ≠ a) : (pllLockFld p).addr ≠ a := h

theorem State.pllLocked_flag {p : Nat} (hp : p < 6) : (s.pllLocked p).flag (pllLockFld p) = true := by
  have hput : (s.put (pllLockFld p) 1).fld (pllLockFld p) = 1 := State.fld_put_mod (show 8 + p + 1 ≤ 32 by omega)
  refine State.flag_iff.2 ?_
  rw [State.pllLocked]
  dsimp only
  split
  · rw [State.fld, State.muxRequests_rd (pllLockFld_ne (by decide)) (pllLockFld_ne (by decide)), ← State.fld, hput]; decide
  · split
    · rw [State.fld_clk, hput]; decide
    · rw [hput]; decide

theorem State.pllLocked_sys (h0 : s.muxTo 0 = none) (h1 : s.muxTo 1 = none) :
    (s.pllLocked 0).muxTo 0 = some (s.fld Reg.CLK_CFG_HDIV) ∧ (s.pllLocked 0).muxTo 1 = some (16 * s.cdiv) := by
  have hcfg : ∀ u : State, u.rd Reg.CLK_CFG = s.rd Reg.CLK_CFG → u.hclkPll = s.fld Reg.CLK_CFG_HDIV ∧ u.ctlPll = 16 * s.cdiv :=
    fun u hu => ⟨congrArg Reg.CLK_CFG_HDIV.get hu, congrArg (fun w => 16 * max 2 (Reg.CLK_CFG_CDIV.get w)) hu⟩
  have hput : (s.put (pllLockFld 0) 1).rd Reg.CLK_CFG = s.rd Reg.CLK_CFG := State.rd_put_other (by decide)
  have hask : s.pllLocked 0 = ((s.put (pllLockFld 0) 1).muxRequest 0 (s.put (pllLockFld 0) 1).hclkPll).muxRequest 1
      (s.put (pllLockFld 0) 1).ctlPll := by unfold State.pllLocked; exact if_pos rfl
  rw [hask, (hcfg _ hput).1, (hcfg _ hput).2]
  exact State.muxRequests_muxTo h0 h1

/-- The register effect of a lost lock, which PLL_MEM's is counted outside a switch of the operating point alone (R402). -/
def State.lockDrops (s : State) (p : Nat) : State :=
  if p = 2 ∧ s.flag Reg.MEMC_STATUS_SWITCHING then s.put (pllLockFld p) 0
  else ((s.put (pllLockFld p) 0).bump Reg.CLK_LOCK_LOSS).raise 2 2

theorem State.pllLost_eq {p : Nat} (h : s.flag (pllLockFld p) = true) :
    s.pllLost p = if p = 0 then ((s.lockDrops p).muxRequest 0 2).muxRequest 1 1
      else if p = 1 then { s.lockDrops p with clk := { (s.lockDrops p).clk with pixLost := true } } else s.lockDrops p := by
  have hswitch : (s.put (pllLockFld p) 0).flag Reg.MEMC_STATUS_SWITCHING = s.flag Reg.MEMC_STATUS_SWITCHING := by
    rw [State.flag, State.fld, State.rd_put_other (pllLockFld_ne (by decide)), ← State.fld, ← State.flag]
  simp only [State.pllLost, h, Bool.not_true, Bool.false_eq_true, if_false, hswitch, State.lockDrops]

theorem State.pllLost_rd {p a : Nat} (h : s.flag (pllLockFld p) = true) (ha : a ≠ Reg.CLK_SUPERSEDED)
    (hraw : a ≠ Reg.HDR_IRQ_RAW 2) : (s.pllLost p).rd a = (s.lockDrops p).rd a := by
  rw [State.pllLost_eq h]
  split
  · exact State.muxRequests_rd ha hraw
  · split <;> rfl

theorem State.muxRequest_core_raised {k b : Nat} (hm : m < 2) (hb : b < 32) (hk : Reg.CLK_SUPERSEDED ≠ Reg.HDR_IRQ_RAW k)
    (h : raised s k b) : raised (s.muxRequest m src) k b := by
  simp only [State.muxRequest, State.srcAbsent_core hm, Bool.false_eq_true, if_false]
  split
  · exact h
  · change raised (s.bumpIf _ Reg.CLK_SUPERSEDED) k b
    unfold State.bumpIf
    split
    · exact State.fld_bumpBy_of_set hk hb h
    · exact h

/-- A lost lock counts and is raised, unless it is PLL_MEM's during a switch of the operating point (R402). -/
theorem State.pllLost_counts {p : Nat} (h : s.flag (pllLockFld p) = true) (hgate : s.gateClosed 2 = false)
    (hp : p ≠ 2 ∨ s.flag Reg.MEMC_STATUS_SWITCHING = false) :
    counted s (s.pllLost p) Reg.CLK_LOCK_LOSS 1 ∧ raised (s.pllLost p) 2 2 := by
  have hdrops : s.lockDrops p = ((s.put (pllLockFld p) 0).bump Reg.CLK_LOCK_LOSS).raise 2 2 :=
    if_neg (by rintro ⟨h2, hs⟩; rcases hp with hp | hp; exacts [hp h2, by simp [hs] at hp])
  have hput : (s.put (pllLockFld p) 0).rd Reg.CLK_LOCK_LOSS = s.rd Reg.CLK_LOCK_LOSS :=
    State.rd_put_other (pllLockFld_ne (by decide))
  have hraised : raised (s.lockDrops p) 2 2 := by
    rw [hdrops]
    exact State.fld_raise_self (p := 2)
      (by rw [State.gateClosed_bump (by decide), State.gateClosed_put (pllLockFld_ne (by decide)), hgate]) (by decide)
  constructor
  · rw [counted, State.pllLost_rd h (by decide) (by decide), hdrops, State.raise_rd_other _ _ _ _ (by decide),
      State.rd_bump_toNat (by decide), hput]
  · rw [State.pllLost_eq h]
    split
    · exact State.muxRequest_core_raised (by decide) (by decide) (by decide)
        (State.muxRequest_core_raised (by decide) (by decide) (by decide) hraised)
    · split <;> exact hraised

theorem State.lockDrops_flag {p : Nat} (hp : p < 6) : (s.lockDrops p).fld (pllLockFld p) = 0 := by
  have hput : (s.put (pllLockFld p) 0).fld (pllLockFld p) = 0 := State.fld_put_mod (show 8 + p + 1 ≤ 32 by omega)
  rw [State.lockDrops]
  split
  · exact hput
  · rw [State.fld_raise_other (fun h => pllLockFld_ne (by decide) h.symm),
      State.fld_bump_other ⟨fun h => pllLockFld_ne (by decide) h.symm, fun h => pllLockFld_ne (by decide) h.symm⟩, hput]

theorem State.lockDrops_clk (s : State) (p : Nat) : (s.lockDrops p).clk = s.clk := by
  rw [State.lockDrops]
  split
  · rfl
  · exact (((s.put_onlyRegs _ _).trans (State.bump_onlyRegs _ _)).trans (State.raise_onlyRegs _ _ _)).clk_eq

theorem State.pllLost_sys (h : s.flag (pllLockFld 0) = true) (h0 : s.muxTo 0 = none) (h1 : s.muxTo 1 = none) :
    (s.pllLost 0).muxTo 0 = some 2 ∧ (s.pllLost 0).muxTo 1 = some 1 := by
  have hclk := s.lockDrops_clk 0
  rw [State.pllLost_eq h, if_pos rfl]
  exact State.muxRequests_muxTo ((State.muxTo_congr hclk).trans h0) ((State.muxTo_congr hclk).trans h1)


/-- Settles O49: each command is taken apart into what its operation does to the registers and to the multiplexers. -/
theorem clocksComeAndGo : Obligations.ClocksComeAndGo := by
  intro s hlive hgate
  refine ⟨⟨_, State.unheld_live hlive, s.xtalStable_flags.1, s.xtalStable_flags.2, State.xtalStable_back hgate⟩, ?_,
    fun hok => ?_, fun hok => ?_, ?_, fun hok n => ?_, fun hok n => ⟨fun hlo hhi => ?_, fun hn => ?_⟩, fun p hp => ⟨?_, ?_, fun hlock => ?_, fun hlock => ?_⟩⟩
  · rw [exec_xtalFail, State.unheld_steady s _ hlive (by rw [State.xtalFails]; split; exacts [Steady.refl s, s.put_steady _ _])]
    rfl
  · rw [exec_xtalLoss, State.unheld_steady s _ hlive (by rw [State.xtalLoss, hok]; exact Steady.refl s), State.xtalLoss, hok]
    rfl
  · obtain ⟨hcount, hraised, hgone, hheld, hpix⟩ := State.xtalLoss_effect hok hgate
    exact ⟨_, State.unheld_live hlive, hcount, hraised, hgone, hheld, by rw [State.xtalLoss, if_pos hok]; rfl, hpix⟩
  · exact State.unheld_steady s _ hlive (s.put_steady _ _)
  · rw [exec_refclkWindow, State.unheld_steady s _ hlive (by rw [State.refWindow, hok]; exact Steady.refl s), State.refWindow, hok]
    rfl
  · obtain ⟨hrun, hdeclared, hfew⟩ := State.refWindow_good hok hlo hhi
    exact ⟨_, (exec_refclkWindow s n).trans (State.unheld_live hlive), hrun, hdeclared, hfew⟩
  · rw [exec_refclkWindow, State.unheld_steady s _ hlive (by rw [State.refWindow_bad hok hn]; exact (s.put_steady _ _).trans (State.clk_steady _ _)),
      State.refWindow_bad hok hn]
  · refine ⟨_, (exec_pllLock s p).trans (State.unheld_live hlive), State.pllLocked_flag hp, ?_⟩
    rintro rfl h0 h1
    exact State.pllLocked_sys h0 h1
  · rw [exec_lockFail, State.unheld_steady s _ hlive (by rw [State.pllFails]; split; exacts [Steady.refl s, s.bump_steady _])]
    rfl
  · rw [exec_lockLoss, State.unheld_steady s _ hlive (by rw [State.pllLost, hlock]; exact Steady.refl s), State.pllLost, hlock]
    rfl
  · refine ⟨_, (exec_lockLoss s p).trans (State.unheld_live hlive), State.flag_eq_false_iff.2 ?_, fun h2 hs => ?_, State.pllLost_counts hlock hgate, ?_⟩
    · change (s.pllLost p).fld _ = 0
      rw [State.fld, State.pllLost_rd hlock (pllLockFld_ne (by decide)) (pllLockFld_ne (by decide)), ← State.fld]
      exact State.lockDrops_flag hp
    · change (s.pllLost p).rd _ = _
      rw [State.pllLost_rd hlock (by decide) (by decide), State.lockDrops, if_pos ⟨h2, hs⟩]
      exact State.rd_put_other (pllLockFld_ne (by decide))
    · rintro rfl h0 h1
      exact State.pllLost_sys hlock h0 h1

end Sys2Proof.Machine
end

section
/-! PROOFS. The multiplexers' switches and the trim of AONOSC (R405, R406, R410, R411). -/

namespace Sys2Proof.Machine

variable {s t : State} {m src : Nat} {w : Word}

/-! CLK.CFG (R405). -/

/-- Bits 8 and 9 of two words that agree there. -/
theorem bit_eq_of_mask {v w : Word} {k : Nat} (hm : (0x300#32).getLsbD k = true) (h : (v ^^^ w) &&& 0x300#32 = 0) :
    (⟨Reg.CLK_CFG, k, 1⟩ : Fld).get w = (⟨Reg.CLK_CFG, k, 1⟩ : Fld).get v := by
  have hbit : v.getLsbD k = w.getLsbD k := by simpa [hm] using congrArg (fun x : Word => x.getLsbD k) h
  have hget : ∀ x : Word, (⟨Reg.CLK_CFG, k, 1⟩ : Fld).get x = (x.getLsbD k).toNat := fun x => by
    rw [Fld.get, BitVec.getLsbD, Nat.testBit, Nat.shiftRight_eq_div_pow]
    rcases Nat.mod_two_eq_zero_or_one (x.toNat / 2 ^ k) with h | h <;> simp [h]
  rw [hget, hget, hbit]

/-- CLK.CFG with the sources of SSREF and TXPLL as they were, PLL_SYS locked and no switch under way. -/
theorem State.clkCfgWrite_eq (hlock : s.flag Reg.CLK_STATUS_SYS_LOCK = true) (hsrc : (s.rd Reg.CLK_CFG ^^^ w) &&& 0x300#32 = 0)
    (h0 : s.muxTo 0 = none) (h1 : s.muxTo 1 = none) :
    s.clkCfgWrite w =
      (((s.wr Reg.CLK_CFG (w &&& 0x3F1#32)).when (decide (Reg.CLK_CFG_HDIV.get w ≠ s.fld Reg.CLK_CFG_HDIV))
        (fun u => u.setMuxTo 0 (some (Reg.CLK_CFG_HDIV.get w)))).when (decide (max 2 (Reg.CLK_CFG_CDIV.get w) ≠ s.cdiv))
        (fun u => u.setMuxTo 1 (some (16 * max 2 (Reg.CLK_CFG_CDIV.get w))))) := by
  have hss : Reg.CLK_CFG_SSREF_SRC.get w = Reg.CLK_CFG_SSREF_SRC.get (s.rd Reg.CLK_CFG) := bit_eq_of_mask (by decide) hsrc
  have htx : Reg.CLK_CFG_TXREF_SRC.get w = Reg.CLK_CFG_TXREF_SRC.get (s.rd Reg.CLK_CFG) := bit_eq_of_mask (by decide) hsrc
  have hlocked : ∀ u : State, u.rd (Reg.HDR_STATUS 2) = s.rd (Reg.HDR_STATUS 2) → u.flag Reg.CLK_STATUS_SYS_LOCK = true :=
    fun u hu => (congrArg (fun v => Reg.CLK_STATUS_SYS_LOCK.get v != 0) hu).trans hlock
  have hdiv : (s.wr Reg.CLK_CFG (w &&& 0x3F1#32)).hclkPll = Reg.CLK_CFG_HDIV.get w :=
    (State.fld_wr_self rfl).trans (Fld.get_and_of_ones (by decide))
  have cdiv : ∀ u : State, u.rd Reg.CLK_CFG = w &&& 0x3F1#32 → u.ctlPll = 16 * max 2 (Reg.CLK_CFG_CDIV.get w) := fun u hu => by
    rw [State.ctlPll, State.cdiv, State.fld, show Reg.CLK_CFG_CDIV.addr = Reg.CLK_CFG from rfl, hu,
      Fld.get_and_of_ones (by decide)]
  have hwr : (s.wr Reg.CLK_CFG (w &&& 0x3F1#32)).rd (Reg.HDR_STATUS 2) = s.rd (Reg.HDR_STATUS 2) :=
    State.rd_wr_other _ _ _ _ (by decide)
  have hfirst : (if Reg.CLK_CFG_HDIV.get w ≠ Reg.CLK_CFG_HDIV.get (s.rd Reg.CLK_CFG) ∧
        (s.wr Reg.CLK_CFG (w &&& 0x3F1#32)).flag Reg.CLK_STATUS_SYS_LOCK = true
      then (s.wr Reg.CLK_CFG (w &&& 0x3F1#32)).muxRequest 0 (s.wr Reg.CLK_CFG (w &&& 0x3F1#32)).hclkPll
      else s.wr Reg.CLK_CFG (w &&& 0x3F1#32)) =
      (s.wr Reg.CLK_CFG (w &&& 0x3F1#32)).when (decide (Reg.CLK_CFG_HDIV.get w ≠ s.fld Reg.CLK_CFG_HDIV))
        (fun u => u.setMuxTo 0 (some (Reg.CLK_CFG_HDIV.get w))) := by
    simp only [State.when, decide_eq_true_eq, hlocked _ hwr, and_true, hdiv, State.muxRequest_idle (s := s.wr _ _) (by decide : 0 < 2) h0]
    rfl
  simp only [State.clkCfgWrite, hss, htx, ne_eq, not_true, if_false, BitVec.ofNat_eq_ofNat] at hfirst ⊢
  rw [hfirst]
  generalize hu : (s.wr Reg.CLK_CFG (w &&& 0x3F1#32)).when _ _ = u
  have hregs : u.regs = (s.wr Reg.CLK_CFG (w &&& 0x3F1#32)).regs := by rw [← hu, State.when]; split <;> rfl
  have hrd : u.rd Reg.CLK_CFG = w &&& 0x3F1#32 := by rw [State.rd_of_regs hregs, State.rd_wr_self]
  have hfree : u.muxTo 1 = none := by
    rw [← hu, State.when]; split
    · rw [State.muxTo_setMuxTo, if_neg (by decide)]; exact h1
    · exact h1
  simp only [State.when, decide_eq_true_eq, hlocked u ((State.rd_of_regs hregs _).trans hwr), and_true, cdiv u hrd,
    State.muxRequest_idle (s := u) (by decide : 1 < 2) hfree]
  rfl

theorem State.when_steady {c : Bool} {f : State → State} (h : ∀ u, Steady u (f u)) : Steady s (s.when c f) := by
  cases c
  · exact Steady.refl s
  · exact h s

theorem State.muxNext_fld (s : State) (m : Nat) (x : Fld) : (s.muxNext m).fld x = s.fld x := rfl

/-! Switches (R405, R465). -/

theorem muxFld_addr (m : Nat) : (muxFld m).addr = Reg.CLK_MUX := by unfold muxFld; split <;> rfl

theorem State.muxTake_regs (s : State) (m src : Nat) :
    (s.muxTake m src).regs = (s.put (muxFld m) (if m = 1 then src % 2 else src)).regs := by
  rw [State.muxTake]
  dsimp only
  split <;> rfl

theorem State.muxTake_muxTo (s : State) (m src k : Nat) : (s.muxTake m src).muxTo k = s.muxTo k := by
  rw [State.muxTake]
  dsimp only
  split <;> rfl

theorem State.muxTake_muxPend (s : State) (m src k : Nat) : (s.muxTake m src).muxPend k = s.muxPend k := by
  rw [State.muxTake]
  dsimp only
  split <;> rfl

theorem State.muxTake_rd {a : Nat} (s : State) (m src : Nat) (ha : Reg.CLK_MUX ≠ a) : (s.muxTake m src).rd a = s.rd a := by
  rw [State.rd_of_regs (s.muxTake_regs m src), State.rd_put_other (by rwa [muxFld_addr])]

/-- MUX shows the new source: of the control core's code the lowest bit. -/
theorem State.muxTake_fld (s : State) (m src : Nat) :
    (s.muxTake m src).fld (muxFld m) = if m = 1 then src % 2 else src % 2 ^ (muxFld m).w := by
  rw [State.fld_of_regs (s.muxTake_regs m src), State.fld_put_mod (by unfold muxFld; split <;> decide)]
  by_cases h : m = 1
  · subst h; rw [if_pos rfl, if_pos rfl]; exact Nat.mod_mod _ _
  · rw [if_neg h, if_neg h]

theorem State.muxDone_eq (hto : s.muxTo m = some src) (hinj : s.rd Reg.PERTURB_CLKSW = 0) :
    s.muxDone m = (s.muxTake m src).muxNext m := by
  have hno : s.flag ⟨Reg.PERTURB_CLKSW, m, 1⟩ = false := by
    rw [State.flag_eq_false_iff, State.fld, hinj]; simp [Fld.get]
  simp only [State.muxDone, hto, State.injClksw, hno, Bool.false_eq_true, if_false]

/-- What a forced switch marks before MUX takes the new source. -/
def State.forcedMarks (s : State) (m : Nat) : State :=
  ((s.put ⟨Reg.CLK_SW_FORCED, m, 1⟩ 1).bump Reg.CLK_SW_FORCED_CNT).raise 2 3

theorem State.muxForce_eq (hto : s.muxTo m = some src) :
    s.muxForce m = ((s.forcedMarks m).muxTake m src).muxNext m := by
  simp only [State.muxForce, hto, State.forcedMarks]

theorem State.forcedMarks_clk (s : State) (m : Nat) : (s.forcedMarks m).clk = s.clk :=
  (((s.put_onlyRegs _ _).trans (State.bump_onlyRegs _ _)).trans (State.raise_onlyRegs _ _ _)).clk_eq

theorem State.forcedMarks_effect (hm : m < 4) (hgate : s.gateClosed 2 = false) :
    counted s (s.forcedMarks m) Reg.CLK_SW_FORCED_CNT 1 ∧ (s.forcedMarks m).fld ⟨Reg.CLK_SW_FORCED, m, 1⟩ = 1 ∧
      raised (s.forcedMarks m) 2 3 := by
  have hself : (s.put ⟨Reg.CLK_SW_FORCED, m, 1⟩ 1).fld ⟨Reg.CLK_SW_FORCED, m, 1⟩ = 1 :=
    State.fld_put_mod (show m + 1 ≤ 32 by omega)
  have happ : ∀ a, Reg.CLK_SW_FORCED ≠ a → (s.put ⟨Reg.CLK_SW_FORCED, m, 1⟩ 1).rd a = s.rd a := fun a ha => State.rd_put_other ha
  have hraw : Reg.HDR_IRQ_RAW (hdrPage 2) ≠ Reg.CLK_SW_FORCED := by decide
  have hcnt : Reg.CLK_SW_FORCED_CNT ≠ Reg.CLK_SW_FORCED ∧
      Reg.HDR_IRQ_RAW (hdrPage (Reg.CLK_SW_FORCED_CNT / 0x1000)) ≠ Reg.CLK_SW_FORCED := by decide
  refine ⟨?_, ?_, State.fld_raise_self (p := 2) ?_ (by decide)⟩
  · rw [counted, State.forcedMarks, State.raise_rd_other _ _ _ _ (by decide), State.rd_bump_toNat (by decide), happ _ (by decide)]
  · rw [State.forcedMarks, State.fld_raise_other hraw, State.fld_bump_other hcnt, hself]
  · rw [State.gateClosed_bump (by decide), State.gateClosed_congr (happ _ (by decide)), hgate]

theorem State.muxFail_effect (hgate : s.gateClosed 2 = false) :
    counted s s.muxFail Reg.CLK_SW_FAIL 1 ∧ raised s.muxFail 2 4 ∧ s.muxFail.rd Reg.CLK_MUX = s.rd Reg.CLK_MUX := by
  refine ⟨?_, State.fld_raise_self (p := 2) (by rw [State.gateClosed_bump (by decide), hgate]) (by decide), ?_⟩
  · rw [counted, State.muxFail, State.raise_rd_other _ _ _ _ (by decide), State.rd_bump_toNat (by decide)]
  · rw [State.muxFail, State.raise_rd_other _ _ _ _ (by decide), State.rd_bump_other (by decide)]

theorem State.muxFailed_eq (hto : s.muxTo m = some src) : s.muxFailed m = s.muxFail.muxNext m := by
  simp only [State.muxFailed, hto]

theorem State.muxFail_clk (s : State) : s.muxFail.clk = s.clk :=
  ((s.bump_onlyRegs _).trans (State.raise_onlyRegs _ _ _)).clk_eq

/-! The trim (R410). -/

/-- The trim's window: the code steps toward 4 MHz, or the windows are kept and INC follows them. -/
theorem State.trimWindow_on_target {n : Nat} (hok : s.flag Reg.CLK_STATUS_XTAL_OK = true) (hlo : 25568 ≤ n) (hhi : n ≤ 25632) :
    s.trimWindow n = { ((s.put Reg.CLK_AON_TRIM_CODE (s.fld Reg.CLK_AON_TRIM_CODE)).wrN Reg.CLK_TB_INC (incOf ((n :: s.clk.windows).take 16))) with
      clk := { s.clk with windows := (n :: s.clk.windows).take 16 } } := by
  have hhigh : ¬ 25632 < n := by omega
  have hlow : ¬ n < 25568 := by omega
  simp only [State.trimWindow, hok, if_true, hhigh, hlow, if_false]
  rfl

theorem State.trimWindow_steps {n code : Nat} (hok : s.flag Reg.CLK_STATUS_XTAL_OK = true)
    (hcode : (if 25632 < n then min 127 (s.fld Reg.CLK_AON_TRIM_CODE + 1) else if n < 25568 then s.fld Reg.CLK_AON_TRIM_CODE - 1
      else s.fld Reg.CLK_AON_TRIM_CODE) = code) (hmoves : code ≠ s.fld Reg.CLK_AON_TRIM_CODE) :
    s.trimWindow n = { (s.put Reg.CLK_AON_TRIM_CODE code) with clk := { s.clk with windows := [] } } := by
  simp only [State.trimWindow, hok, if_true, hcode, hmoves, if_false]
  rfl

theorem State.trimWindow_moved {n code : Nat} (hlive : s.boot.resetLow = false) (hok : s.flag Reg.CLK_STATUS_XTAL_OK = true)
    (hcode : (if 25632 < n then min 127 (s.fld Reg.CLK_AON_TRIM_CODE + 1) else if n < 25568 then s.fld Reg.CLK_AON_TRIM_CODE - 1
      else s.fld Reg.CLK_AON_TRIM_CODE) = code) (hmoves : code ≠ s.fld Reg.CLK_AON_TRIM_CODE) (hlt : code < 128) :
    ∃ t, exec (.aonTrimWindow n) s = .next t ∧ t.fld Reg.CLK_AON_TRIM_CODE = code ∧ t.clk.windows = [] ∧
      t.rd Reg.CLK_TB_INC = s.rd Reg.CLK_TB_INC := by
  refine ⟨_, (exec_aonTrimWindow s n).trans (State.unheld_live hlive), ?_, ?_, ?_⟩
  · rw [State.left_fld, State.trimWindow_steps hok hcode hmoves, State.fld_clk, State.fld_put_mod (by decide)]
    exact Nat.mod_eq_of_lt hlt
  · rw [State.trimWindow_steps hok hcode hmoves]; rfl
  · rw [State.left_rd, State.trimWindow_steps hok hcode hmoves, State.rd_clk, State.rd_put_other (by decide)]

/-! SW_FORCED (R411). -/

/-- A write of SW_FORCED clears the bits written 1. -/
theorem State.swForcedWrite_eq {port : Nat} (hs : s.Serves .CLK 2) :
    s.hostWrite port Reg.CLK_SW_FORCED w = s.wr Reg.CLK_SW_FORCED (s.rd Reg.CLK_SW_FORCED &&& ~~~(w &&& 0xF#32)) := by
  obtain ⟨r, hrow, hplain⟩ : ∃ r, blockRow .CLK Reg.CLK_SW_FORCED = some r ∧ r.p = false ∧ r.rw = 0 ∧ r.w1c = 0xF ∧ r.act = 0 :=
    ⟨_, rfl, by decide⟩
  obtain ⟨hp, hrw, hw1c, hact⟩ := hplain
  rw [State.hostWrite_blockRow hs hrow (Or.inl hp)]
  have hstore : s.writeReg port .CLK (Reg.CLK_SW_FORCED / 0x1000) Reg.CLK_SW_FORCED r w = s.store r Reg.CLK_SW_FORCED w := by
    simp only [State.writeReg, hact]
    rfl
  have hstored : ∀ v : Word, (v &&& ~~~BitVec.ofNat 32 0 ||| w &&& BitVec.ofNat 32 0) = v := fun v => by
    rw [BitVec.and_zero, BitVec.or_zero, BitVec.not_zero, BitVec.and_allOnes]
  rw [hstore, State.store, hrw, hw1c, hstored]

theorem State.muxTo_when (s : State) (c : Bool) (m k : Nat) (v : Option Nat) :
    (s.when c (fun u => u.setMuxTo m v)).muxTo k = if c = true ∧ m = k then v else s.muxTo k := by
  cases c <;> simp [State.when, State.muxTo_setMuxTo]

/-- What a write of CLK.CFG asks of the multiplexers of HCLK and of the control core. -/
theorem exec_clkCfgWrite_requests (hs : s.Serves .CLK 2) (hlock : s.flag Reg.CLK_STATUS_SYS_LOCK = true)
    (hsrc : (s.rd Reg.CLK_CFG ^^^ w) &&& 0x300#32 = 0) (h0 : s.muxTo 0 = none) (h1 : s.muxTo 1 = none) {port : Nat} :
    ∃ t, exec (.clkCfgWrite port w) s = .next t ∧ t.rd Reg.CLK_CFG = w &&& 0x3F1#32 ∧
      t.muxTo 0 = (if w.toNat % 2 ≠ s.fld Reg.CLK_CFG_HDIV then some (w.toNat % 2) else none) ∧
      t.muxTo 1 = (if max 2 (w.toNat / 2 ^ 4 % 2 ^ 4) ≠ s.cdiv then some (16 * max 2 (w.toNat / 2 ^ 4 % 2 ^ 4)) else none) ∧
      t = { s with regs := t.regs, clk := t.clk } := by
  have hdiv : Reg.CLK_CFG_HDIV.get w = w.toNat % 2 := by rw [Fld.get]; simp [Reg.CLK_CFG_HDIV]
  have hcdiv : Reg.CLK_CFG_CDIV.get w = w.toNat / 2 ^ 4 % 2 ^ 4 := rfl
  have hwrite : s.hostWrite port Reg.CLK_CFG w = s.clkCfgWrite w := State.hostWrite_acts (u := .CLK) (a := Reg.CLK_CFG) hs (by decide) rfl
  have hwritten := hwrite.trans (State.clkCfgWrite_eq hlock hsrc h0 h1)
  have hsteady : Steady s (s.hostWrite port Reg.CLK_CFG w) := by
    rw [hwritten]
    exact (s.wr_steady _ _).trans ((State.when_steady fun u => u.clk_steady _).trans (State.when_steady fun u => u.clk_steady _))
  refine ⟨_, (exec_clkCfgWrite s port w).trans (State.unheld_steady s _ hs.live hsteady), ?_⟩
  rw [hwritten, ← hdiv, ← hcdiv]
  refine ⟨?_, ?_, ?_, ?_⟩
  · simp only [State.when]; split_ifs <;> exact State.rd_wr_self ..
  · have hnone : (s.wr Reg.CLK_CFG (w &&& 0x3F1#32)).muxTo 0 = none := h0
    simp [State.muxTo_when, hnone]
  · have hnone : (s.wr Reg.CLK_CFG (w &&& 0x3F1#32)).muxTo 1 = none := h1
    simp [State.muxTo_when, hnone]
  · simp only [State.when]; split_ifs <;> rfl

/-- Settles O50: each command by the lemma of its operation. -/
theorem clocksSwitch : Obligations.ClocksSwitch := by
  refine ⟨fun s port w hs hlock hsrc h0 h1 => exec_clkCfgWrite_requests hs hlock hsrc h0 h1, fun s m hlive hm hgate =>
    ⟨fun hto => ?_, fun src hto => ⟨fun hinj => ?_, ?_, ?_⟩⟩, fun s port w hs => ?_,
    fun s n page code hlive hcode => ⟨?_, fun hok => ?_, fun hok => ⟨fun hlo hhi => ?_, fun hn hlt => ?_, fun hn hpos => ?_⟩⟩⟩
  · rw [exec_clkSwitchDone, exec_swForced, exec_swFail, State.unheld_steady s _ hlive (by simp [State.muxDone, hto, Steady.refl]),
      State.unheld_steady s _ hlive (by simp [State.muxForce, hto, Steady.refl]),
      State.unheld_steady s _ hlive (by simp [State.muxFailed, hto, Steady.refl])]
    simp [State.muxDone, State.muxForce, State.muxFailed, hto]
  · refine ⟨_, (exec_clkSwitchDone s m).trans (State.unheld_live hlive), ?_⟩
    simp only [State.muxDone_eq hto hinj, State.left_fld, State.left_rd, State.muxNext_rd]
    refine ⟨(State.muxNext_muxTo _ m).trans (State.muxTake_muxPend ..), State.muxNext_muxPend _ m, State.muxTake_fld .., State.muxTake_rd _ _ _ (by decide)⟩
  · obtain ⟨hcount, hforced, hraised⟩ := State.forcedMarks_effect hm hgate
    have hrd : ∀ a, Reg.CLK_MUX ≠ a → (((s.forcedMarks m).muxTake m src).muxNext m).rd a = (s.forcedMarks m).rd a :=
      fun a ha => State.muxTake_rd _ _ _ ha
    refine ⟨_, (exec_swForced s m).trans (State.unheld_live hlive), ?_⟩
    simp only [State.muxForce_eq hto, counted, raised, State.fld, State.left_rd, hrd _ (by decide : Reg.CLK_MUX ≠ Reg.CLK_SW_FORCED_CNT),
      hrd _ (by decide : Reg.CLK_MUX ≠ Reg.CLK_SW_FORCED), hrd _ (by decide : Reg.CLK_MUX ≠ Reg.HDR_IRQ_RAW 2)]
    refine ⟨(State.muxNext_muxTo _ m).trans ((State.muxTake_muxPend ..).trans (State.muxPend_congr (s.forcedMarks_clk m))),
      State.muxNext_muxPend _ m, hcount, hforced, hraised, State.muxTake_fld ..⟩
  · obtain ⟨hcount, hraised, hmux⟩ := State.muxFail_effect hgate
    refine ⟨_, (exec_swFail s m).trans (State.unheld_live hlive), ?_⟩
    simp only [State.muxFailed_eq hto, counted, raised, State.left_rd, State.left_fld, State.muxNext_rd, State.muxNext_fld]
    exact ⟨(State.muxNext_muxTo _ m).trans (State.muxPend_congr s.muxFail_clk), State.muxNext_muxPend _ m, hcount, hraised, hmux⟩
  · rw [exec_swForcedWrite, State.unheld_steady s _ hs.live (by rw [State.swForcedWrite_eq hs]; exact s.wr_steady _ _),
      State.swForcedWrite_eq hs]
  · exact State.unheld_steady s (fun u => u.gateIdle page) hlive (Steady.refl s)
  · rw [exec_aonTrimWindow, State.unheld_steady s _ hlive (by rw [State.trimWindow, hok]; exact Steady.refl s), State.trimWindow, hok]
    rfl
  · refine ⟨_, (exec_aonTrimWindow s n).trans (State.unheld_live hlive), ?_⟩
    rw [State.trimWindow_on_target hok hlo hhi]
    refine ⟨?_, rfl, State.rd_wr_self ..⟩
    rw [State.left_fld, State.fld_clk, State.wrN, State.fld_wr_other (by decide), State.fld_put_mod (by decide), hcode]
    exact Nat.mod_eq_of_lt (s.fld_lt _)
  · exact State.trimWindow_moved hlive hok (by rw [if_pos hn]; omega) (by omega) (by omega)
  · exact State.trimWindow_moved hlive hok (by rw [if_neg (by omega), if_pos hn, hcode]) (by omega)
      (by have hlt : s.fld Reg.CLK_AON_TRIM_CODE < 128 := s.fld_lt Reg.CLK_AON_TRIM_CODE; omega)

end Sys2Proof.Machine
end

section
/-! PROOFS. The panel's power-on sequence (R319, R320, R324), and what a request for ON leaves of the rest of the state
(R413, R414, R418). -/

namespace Sys2Proof.Machine

variable {s t u : State} {k n : Nat}

/-! What a request for ON leaves (R413, R427). -/

/-- Nothing but registers, the event log and the state of the power controller differs. -/
def OnlyDomains (s t : State) : Prop :=
  ∃ r l e p, t = { s with regs := r, nv := { s.nv with log := l }, isl := { s.isl with rises := e }, pwr := p }

theorem OnlyDomains.refl (s : State) : OnlyDomains s s := ⟨s.regs, s.nv.log, s.isl.rises, s.pwr, rfl⟩

theorem OnlyDomains.trans (h : OnlyDomains s t) (g : OnlyDomains t u) : OnlyDomains s u := by
  obtain ⟨r, l, e, p, rfl⟩ := h
  obtain ⟨r', l', e', p', rfl⟩ := g
  exact ⟨r', l', e', p', rfl⟩

theorem OnlyRegs.domains (h : OnlyRegs s t) : OnlyDomains s t := by
  obtain ⟨r, l, e, rfl⟩ := h
  exact ⟨r, l, e, s.pwr, rfl⟩

theorem OnlyDomains.pwr (h : OnlyDomains s t) (p : PwrState) : OnlyDomains s { t with pwr := p } := by
  obtain ⟨r, l, e, _, rfl⟩ := h
  exact ⟨r, l, e, p, rfl⟩

theorem OnlyDomains.pan_eq (h : OnlyDomains s t) : t.pan = s.pan := by obtain ⟨_, _, _, _, rfl⟩ := h; rfl

theorem OnlyDomains.steady (h : OnlyDomains s t) : Steady s t := by
  obtain ⟨_, _, _, _, rfl⟩ := h; exact ⟨Nat.le_refl _, rfl, rfl⟩

theorem OnlyDomains.each {α : Type} (s : State) (l : List α) (f : α → State → State)
    (h : ∀ x t, OnlyDomains t (f x t)) : OnlyDomains s (s.each l f) :=
  State.each_induct (OnlyDomains s) l f (fun x t ht => ht.trans (h x t)) s (OnlyDomains.refl s)

theorem State.domWait_only (s : State) (n target : Nat) (inner : Bool) : OnlyDomains s (s.domWait n target inner) := by
  refine OnlyDomains.pwr ?_ _
  refine OnlyDomains.trans ?_ (State.put_onlyRegs _ _ _).domains
  split
  · exact (s.bumpBy_onlyRegs _ _).domains
  · exact OnlyDomains.refl s

/-- A wake begins: no pad of D45 moves for it. -/
theorem State.domBegin_wake (s : State) (n : Nat) :
    s.domBegin n domStON 2 = { s.put (Reg.PWR_DOM_STATE_BUSY n) 1 with
      pwr := { s.pwr with trans := s.pwr.trans.filter (fun t => t.dom ≠ n) ++ [⟨n, domStON, 2, (s.domTrans n).any (·.inner)⟩] } } := by
  rw [State.domBegin, if_neg (by simp [domStON, domStOFF])]

theorem State.domWakeOne_only (s : State) (n : Nat) : OnlyDomains s (s.domWakeOne n) := by
  unfold State.domWakeOne
  split
  · exact OnlyDomains.refl s
  · split
    · split
      · split
        · exact OnlyDomains.refl s
        · exact s.domWait_only n domStON true
      · exact OnlyDomains.refl s
    · split
      · exact OnlyDomains.refl s
      · rw [s.domBegin_wake]; exact (s.put_onlyRegs _ _).domains.pwr _

theorem State.domWake_only (s : State) (n : Nat) : OnlyDomains s (s.domWake n) :=
  (OnlyDomains.each s _ _ fun d t => (OnlyDomains.each t _ _ fun e v => v.domWakeOne_only e).trans (State.domWakeOne_only _ d)).trans
    (State.domWakeOne_only _ n)

theorem State.domRequest_on_only (s : State) (n : Nat) : OnlyDomains s (s.domRequest n domStON) := by
  unfold State.domRequest
  split
  · exact OnlyDomains.refl s
  · refine (s.put_onlyRegs (Reg.PWR_DOM_REQ_TARGET n) domStON).domains.trans ?_
    change OnlyDomains _ (if (s.put (Reg.PWR_DOM_REQ_TARGET n) domStON).domBusy n = true then _ else _)
    split
    · exact State.domWait_only _ n domStON false
    · unfold State.domServe
      dsimp only
      split
      · exact OnlyDomains.refl _
      · rw [if_pos rfl]; exact State.domWake_only _ n

/-- A wake source changes registers, the event log and the power controller alone. -/
theorem State.wakeSource_only (s : State) (k : Nat) : OnlyDomains s (s.wakeSource k) := by
  unfold State.wakeSource
  split
  · exact ((s.put_onlyRegs _ _).trans (State.raise_onlyRegs _ _ _)).domains.trans
      (OnlyDomains.each _ _ _ fun n t => t.domRequest_on_only n)
  · exact OnlyDomains.refl s

/-! The steps of a power-on (R319). -/

section
variable (s : State) (k : OutKind) (d a m : Nat) (l : List Nat) (x : Fld)
theorem State.padEmit_eq : s.padEmit k d l = { s with out := (s.padEmit k d l).out } := by
  unfold State.padEmit; split <;> rfl
theorem State.peDrive_eq : s.peDrive = { s with out := s.peDrive.out } := s.padEmit_eq ..
@[simp] theorem State.peDrive_rd : s.peDrive.rd a = s.rd a := by rw [State.peDrive_eq]; rfl
@[simp] theorem State.peDrive_fld : s.peDrive.fld x = s.fld x := by rw [State.peDrive_eq]; rfl
@[simp] theorem State.peDrive_flag : s.peDrive.flag x = s.flag x := by rw [State.peDrive_eq]; rfl
@[simp] theorem State.peDrive_pan : s.peDrive.pan = s.pan := by rw [State.peDrive_eq]
theorem State.peDrive_steady : Steady s s.peDrive := by
  unfold State.peDrive State.padEmit
  split
  exacts [s.emit_steady .., Steady.refl s]
@[simp] theorem State.peDrive_now : s.peDrive.now = s.now := by rw [State.peDrive_eq]
end

theorem onStepFld_addr (k lo w : Nat) : (onStepFld k lo w).addr = Reg.PANELPWR_ON_STEP k := rfl

theorem State.put_onStep {x : Fld} {m lo w : Nat} (hx : x.addr = Reg.PANELPWR_STATE) :
    (s.put x m).fld (onStepFld k lo w) = s.fld (onStepFld k lo w) :=
  State.fld_wr_other (by rw [hx, onStepFld_addr]; simp only [Reg.PANELPWR_STATE, Reg.PANELPWR_ON_STEP]; omega)

/-- A panel in parts 3 and 4 of a step: its runs, and the instant at which its delay ends. -/
def State.panelRuns (s : State) (k due : Nat) : PanelState :=
  { s.pan with
    due := due
    waitPg := false
    gateRun := s.pan.gateRun || s.flag (onStepFld k 8 1)
    edlRun := s.pan.edlRun || s.flag (onStepFld k 9 1)
    blWant := s.pan.blWant || (s.flag (onStepFld k 10 1) && !s.pan.blRun) }

theorem State.stepRuns_of_delay (hn : s.fld (onStepFld k 16 16) * 100 * ticksPerUs = n) :
    s.stepRuns k = { s with pan := s.panelRuns k (s.now + n) } := by
  rw [State.stepRuns, hn]; rfl

theorem mul_ticksPerUs (n : Nat) : n * 100 * ticksPerUs = n * 25600000 := by
  have hticks : 100 * ticksPerUs = 25600000 := by decide
  rw [Nat.mul_assoc, hticks]

/-- Parts 3 and 4 of a step touch the panel's own state alone. -/
theorem State.stepRuns_eq (s : State) (k : Nat) :
    s.stepRuns k = { s with pan := s.panelRuns k (s.now + s.fld (onStepFld k 16 16) * 25600000) } :=
  State.stepRuns_of_delay (mul_ticksPerUs _)

theorem State.panelRuns_gate (s : State) (k d : Nat) :
    (s.panelRuns k d).gateRun = true ↔ s.pan.gateRun = true ∨ s.flag (onStepFld k 8 1) = true := Bool.or_eq_true_iff

theorem State.panelRuns_edl (s : State) (k d : Nat) :
    (s.panelRuns k d).edlRun = true ↔ s.pan.edlRun = true ∨ s.flag (onStepFld k 9 1) = true := Bool.or_eq_true_iff

theorem State.stepRuns_runs (s : State) (k : Nat) :
    (s.stepRuns k).pan.waitPg = false ∧
      ((s.stepRuns k).pan.gateRun = true ↔ s.pan.gateRun = true ∨ s.flag (onStepFld k 8 1) = true) ∧
      ((s.stepRuns k).pan.edlRun = true ↔ s.pan.edlRun = true ∨ s.flag (onStepFld k 9 1) = true) ∧
      (s.stepRuns k).pan.due = (s.stepRuns k).now + s.fld (onStepFld k 16 16) * 25600000 := by
  rw [State.stepRuns_eq]
  generalize s.fld (onStepFld k 16 16) * 25600000 = d
  exact ⟨rfl, s.panelRuns_gate .., s.panelRuns_edl .., rfl⟩

/-- A step's number and its supplies, as STATE shows them. -/
def State.stepShown (s : State) (k : Nat) : State :=
  (s.put Reg.PANELPWR_STATE_STEP k).setPe ((s.put Reg.PANELPWR_STATE_STEP k).panelPe |||
    (s.put Reg.PANELPWR_STATE_STEP k).fld (onStepFld k 0 4))

theorem State.stepShown_pan (s : State) (k : Nat) : (s.stepShown k).pan = s.pan := by
  rw [State.stepShown, State.setPe, State.peDrive_pan]; rfl

theorem State.stepShown_now (s : State) (k : Nat) : (s.stepShown k).now = s.now := by
  rw [State.stepShown, State.setPe, State.peDrive_now]; rfl

theorem State.stepShown_onStep (s : State) (k j lo w : Nat) :
    (s.stepShown k).fld (onStepFld j lo w) = s.fld (onStepFld j lo w) := by
  rw [State.stepShown, State.setPe, State.peDrive_fld, State.put_onStep rfl, State.put_onStep rfl]

theorem State.stepShown_state (hk : k < 8) (hst : s.panelState = panPOWERING) :
    (s.stepShown k).panelState = panPOWERING ∧ (s.stepShown k).fld Reg.PANELPWR_STATE_STEP = k ∧
      (s.stepShown k).panelPe = s.panelPe ||| s.fld (onStepFld k 0 4) := by
  have hpe : (s.put Reg.PANELPWR_STATE_STEP k).panelPe = s.panelPe := State.fld_put_apart (by decide)
  have hset : (s.put Reg.PANELPWR_STATE_STEP k).fld (onStepFld k 0 4) = s.fld (onStepFld k 0 4) := State.put_onStep rfl
  have hlt : s.panelPe ||| s.fld (onStepFld k 0 4) < 2 ^ 4 := Nat.or_lt_two_pow (s.fld_lt _) (s.fld_lt _)
  rw [State.stepShown, hpe, hset, State.setPe]
  simp (disch := decide) only [State.panelState, State.panelPe, State.peDrive_fld, State.fld_put_apart, State.fld_put_mod]
  exact ⟨hst, Nat.mod_eq_of_lt hk, Nat.mod_eq_of_lt hlt⟩

theorem State.stepStart_of_timeout (hn : (s.stepShown k).fld ⟨Reg.PANELPWR_PG_TIMEOUT, 0, 16⟩ * 1000 * ticksPerUs = n) :
    s.stepStart k = if (s.stepShown k).flag (onStepFld k 12 1) && !(s.stepShown k).pan.pgIn then
        { s.stepShown k with pan := { (s.stepShown k).pan with due := (s.stepShown k).now + n, waitPg := true } }
      else (s.stepShown k).stepRuns k := by
  unfold State.stepStart
  dsimp only
  rw [← State.stepShown, hn]
  rfl

/-- A step's start touches, beside STATE and the pads, the panel's own state alone: it waits for PG_IN, or sets its runs. -/
theorem State.stepStart_eq (s : State) (k : Nat) :
    ∃ d : Nat, s.stepStart k = if s.flag (onStepFld k 12 1) && !s.pan.pgIn then
        { s.stepShown k with pan := { s.pan with due := d, waitPg := true } }
      else (s.stepShown k).stepRuns k := by
  have hflag : (s.stepShown k).flag (onStepFld k 12 1) = s.flag (onStepFld k 12 1) := by
    rw [State.flag, s.stepShown_onStep, State.flag]
  rw [← hflag, ← s.stepShown_pan k]
  exact ⟨_, State.stepStart_of_timeout rfl⟩

/-- A step begins as the statement says, in a panel that powers on (R319). -/
theorem State.stepStart_begun (hk : k < 8) (hst : s.panelState = panPOWERING) : stepBegun s (s.stepStart k) k s.panelPe := by
  obtain ⟨hstate, hstep, hpe⟩ := State.stepShown_state hk hst
  obtain ⟨d, hstart⟩ := s.stepStart_eq k
  have hfld := s.stepShown_onStep k
  have hpan := s.stepShown_pan k
  rw [hstart]
  generalize s.stepShown k = v at hstate hstep hpe hfld hpan
  have hflag : ∀ lo, v.flag (onStepFld k lo 1) = s.flag (onStepFld k lo 1) := fun lo => by rw [State.flag, hfld, State.flag]
  cases hwait : s.flag (onStepFld k 12 1) && !s.pan.pgIn
  · rw [if_neg Bool.false_ne_true, State.stepRuns_eq, hfld]
    refine ⟨hstate, hstep, hpe, hwait.symm, fun _ => ⟨?_, ?_, rfl⟩⟩
    · rw [← hpan, ← hflag]; exact v.panelRuns_gate ..
    · rw [← hpan, ← hflag]; exact v.panelRuns_edl ..
  · rw [if_pos rfl]
    exact ⟨hstate, hstep, hpe, hwait.symm, fun h => absurd h Bool.true_eq_false.mp⟩

/-- What a step's start leaves: time, the queue, the hold in reset, and whether a power-off began it. -/
theorem State.stepStart_leaves (s : State) (k : Nat) :
    (s.stepStart k).now = (s.stepShown k).now ∧ (s.stepStart k).pending = (s.stepShown k).pending ∧
      (s.stepStart k).boot = (s.stepShown k).boot ∧ (s.stepStart k).pan.byPfail = s.pan.byPfail := by
  obtain ⟨d, hstart⟩ := s.stepStart_eq k
  rw [hstart, ← s.stepShown_pan k]
  split
  · exact ⟨rfl, rfl, rfl, rfl⟩
  · rw [State.stepRuns_eq]; exact ⟨rfl, rfl, rfl, rfl⟩


theorem State.stepStart_now (s : State) (k : Nat) : (s.stepStart k).now = s.now :=
  (s.stepStart_leaves k).1.trans (s.stepShown_now k)

theorem State.stepStart_steady (s : State) (k : Nat) : Steady s (s.stepStart k) := by
  have hshown : Steady s (s.stepShown k) := by
    rw [State.stepShown, State.setPe]
    exact ((s.put_steady _ _).trans (State.put_steady _ _ _)).trans (State.peDrive_steady _)
  obtain ⟨hnow, hpending, hboot, -⟩ := s.stepStart_leaves k
  exact hshown.trans ⟨hnow.ge, hpending, congrArg _ hboot⟩

theorem State.powerOn_steady (s : State) : Steady s s.powerOn :=
  ((s.put_steady _ _).trans (State.put_steady _ _ _)).trans (State.stepStart_steady _ _)

/-- A step begun from a state that shows the same panel. -/
theorem stepBegun_of_same {pe : Nat} (h : stepBegun u t k pe) (hpan : u.pan.waitPg = s.pan.waitPg ∧ u.pan.pgIn = s.pan.pgIn ∧
    u.pan.gateRun = s.pan.gateRun ∧ u.pan.edlRun = s.pan.edlRun)
    (hfld : ∀ lo w, u.fld (onStepFld k lo w) = s.fld (onStepFld k lo w)) : stepBegun s t k pe := by
  obtain ⟨-, hpg, hgate, hedl⟩ := hpan
  have hflag : ∀ lo, u.flag (onStepFld k lo 1) = s.flag (onStepFld k lo 1) := fun lo => by
    rw [State.flag, hfld, State.flag]
  simpa only [stepBegun, hfld, hflag, hpg, hgate, hedl] using h

theorem State.powerOn_begun (s : State) : stepBegun s s.powerOn 0 s.panelPe := by
  have hstate : ((s.put Reg.PANELPWR_STATE_PENDING 0).put Reg.PANELPWR_STATE_STATE panPOWERING).panelState = panPOWERING :=
    State.fld_put_mod (by decide)
  have hpe : ((s.put Reg.PANELPWR_STATE_PENDING 0).put Reg.PANELPWR_STATE_STATE panPOWERING).panelPe = s.panelPe := by
    simp (disch := decide) only [State.panelPe, State.fld_put_apart]
  have hbegun := State.stepStart_begun (k := 0) (by decide) hstate
  rw [hpe] at hbegun
  exact stepBegun_of_same hbegun ⟨rfl, rfl, rfl, rfl⟩ fun lo w => by rw [State.put_onStep rfl, State.put_onStep rfl]

/-- What a step began, a command that moves no time back leaves. -/
theorem stepBegun_left {pe : Nat} (h : stepBegun s t k pe) (hnow : s.now ≤ t.now) : stepBegun s (s.left t) k pe := by
  obtain ⟨hst, hstep, hpe, hpg, hruns⟩ := h
  refine ⟨hst, hstep, hpe, hpg, fun hw => ?_⟩
  obtain ⟨hgate, hedl, hdue⟩ := hruns hw
  exact ⟨hgate, hedl, by rw [State.left_now, Nat.max_eq_right hnow]; exact hdue⟩

/-! The end of a step (R319). -/

theorem State.toDue_onStep (s : State) (k lo w : Nat) : s.toDue.fld (onStepFld k lo w) = s.fld (onStepFld k lo w) :=
  State.fld_advance (by simp only [onStepFld_addr, Reg.PANELPWR_ON_STEP, Reg.AON_TIMEBASE, Reg.AON_TIMEBASE_HI]; omega)

theorem State.toDue_step (s : State) : s.toDue.fld Reg.PANELPWR_STATE_STEP = s.fld Reg.PANELPWR_STATE_STEP :=
  State.fld_advance (by decide)

theorem State.powerOnStep_eq (hst : s.panelState = panPOWERING) (hpg : s.pan.waitPg = false) :
    s.powerOnStep =
      if s.flag (onStepFld (s.fld Reg.PANELPWR_STATE_STEP) 11 1) || s.fld Reg.PANELPWR_STATE_STEP == 7 then
        (s.toDue.put Reg.PANELPWR_STATE_STATE panON).raise 0x101 0
      else s.toDue.stepStart (s.fld Reg.PANELPWR_STATE_STEP + 1) := by
  have hcond : (s.panelState != panPOWERING || s.pan.waitPg) = false := by simp [hst, hpg]
  have hflag : s.toDue.flag (onStepFld (s.fld Reg.PANELPWR_STATE_STEP) 11 1) =
      s.flag (onStepFld (s.fld Reg.PANELPWR_STATE_STEP) 11 1) := by rw [State.flag, s.toDue_onStep, State.flag]
  rw [State.powerOnStep, hcond, ← hflag, ← s.toDue_step]
  rfl

/-- After the last step the panel is ON. -/
theorem State.powerOnStep_done (hst : s.panelState = panPOWERING) (hpg : s.pan.waitPg = false)
    (hlast : s.flag (onStepFld (s.fld Reg.PANELPWR_STATE_STEP) 11 1) = true ∨ s.fld Reg.PANELPWR_STATE_STEP = 7)
    (hgate : s.gateClosed 0x101 = false) :
    s.powerOnStep.panelState = panON ∧ raised s.powerOnStep 0x101 0 ∧ s.powerOnStep.now = max s.now s.pan.due := by
  rw [State.powerOnStep_eq hst hpg, if_pos (by simpa using hlast)]
  refine ⟨?_, ?_, ?_⟩
  · rw [State.panelState, State.fld_raise_other (by decide), State.fld_put_mod (by decide)]; rfl
  · exact State.fld_raise_self (p := 0x101)
      (by rw [State.gateClosed_put (by decide), State.toDue, State.gateClosed_advance (by decide), hgate]) (by decide)
  · rw [(State.raise_onlyRegs _ _ _).now_eq]; exact s.advance_now s.pan.due

/-- The next step begins when the delay has passed. -/
theorem State.powerOnStep_next (hst : s.panelState = panPOWERING) (hpg : s.pan.waitPg = false)
    (hmore : s.flag (onStepFld (s.fld Reg.PANELPWR_STATE_STEP) 11 1) = false) (h7 : s.fld Reg.PANELPWR_STATE_STEP ≠ 7) :
    stepBegun s s.powerOnStep (s.fld Reg.PANELPWR_STATE_STEP + 1) s.panelPe ∧ s.powerOnStep.now = max s.now s.pan.due := by
  have hlt : s.fld Reg.PANELPWR_STATE_STEP < 8 := s.fld_lt Reg.PANELPWR_STATE_STEP
  have hstate : s.toDue.panelState = panPOWERING := (State.fld_advance (by decide)).trans hst
  have hpe : s.toDue.panelPe = s.panelPe := State.fld_advance (by decide)
  have hpan : s.toDue.pan = s.pan := by rw [State.toDue, State.advance_eq]
  have hstart := State.powerOnStep_eq hst hpg
  rw [hmore, Bool.false_or, if_neg (by simpa using h7)] at hstart
  have hbegun := State.stepStart_begun (k := s.fld Reg.PANELPWR_STATE_STEP + 1) (by omega) hstate
  rw [hpe] at hbegun
  rw [hstart]
  refine ⟨stepBegun_of_same hbegun (by simp [hpan]) fun lo w => s.toDue_onStep _ lo w, ?_⟩
  rw [State.stepStart_now]
  exact s.advance_now s.pan.due

/-! CMD.ON (R319, R324). -/

theorem State.cmdOn_refused (hfail : s.pan.pfailN = false) :
    s.cmdOn = ((s.bump Reg.PANELPWR_ON_REFUSED).raise 0x101 4).put Reg.PANELPWR_STATE_PENDING 0 := by
  rw [State.cmdOn, hfail]; rfl

theorem State.cmdOn_powers (hhigh : s.pan.pfailN = true) (hoff : s.pan.off = 0) (hst : s.panelState = panOFF) :
    s.cmdOn = s.powerOn := by
  rw [State.cmdOn, hhigh, hoff, if_pos hst]; rfl

/-- A write of CMD with ON and without OFF. -/
theorem State.panelOn_write {port : Nat} {w : Word} (hs : s.Serves .PANELPWR 0x101) (hw : w.toNat / 2 % 2 = 0) :
    s.hostWrite port Reg.PANELPWR_CMD (Reg.PANELPWR_CMD_ON.put w 1) = s.cmdOn := by
  have hput : (Reg.PANELPWR_CMD_ON.put w 1).toNat = w.toNat / 2 * 2 + 1 := Fld.put_bit_zero _ w
  have hon : bit (Reg.PANELPWR_CMD_ON.put w 1).toNat 0 = true := by rw [hput, bit, beq_iff_eq]; omega
  have hoff : bit (Reg.PANELPWR_CMD_ON.put w 1).toNat 1 = false := by rw [hput, bit, beq_eq_false_iff_ne]; omega
  have hwrite : s.hostWrite port Reg.PANELPWR_CMD (Reg.PANELPWR_CMD_ON.put w 1) = s.panelCmd (Reg.PANELPWR_CMD_ON.put w 1) :=
    State.hostWrite_acts (u := .PANELPWR) (a := Reg.PANELPWR_CMD) hs (by decide) rfl
  rw [hwrite]
  simp only [State.panelCmd, hon, hoff, if_true, Bool.false_eq_true, if_false]

/-! PG_IN and AUTO_ON (R319). -/

theorem State.pgRise_wait (hpg : s.pan.waitPg = true) :
    s.pgRise = ({ s with pan := { s.pan with pgIn := true } } : State).stepRuns (s.fld Reg.PANELPWR_STATE_STEP) := by
  rw [State.pgRise]
  exact if_pos hpg

theorem State.pgRise_idle (hpg : s.pan.waitPg = false) : s.pgRise = { s with pan := { s.pan with pgIn := true } } := by
  rw [State.pgRise]
  exact if_neg (by simp [hpg])

theorem State.pgInRises_pan_eq (s : State) : s.pgInRises.pan = s.pgRise.pan := by
  rw [State.pgInRises]
  split
  · rfl
  · exact (State.wakeSource_only _ 3).pan_eq

/-- PG_IN rising goes on with the step that waits, and with none is noted alone. -/
theorem State.pgInRises_pan (s : State) :
    s.pgInRises.pan.pgIn = true ∧
      (s.pan.waitPg = true → s.pgInRises.pan.waitPg = false ∧
        s.pgInRises.pan.due = s.now + s.fld (onStepFld (s.fld Reg.PANELPWR_STATE_STEP) 16 16) * 25600000 ∧
        (s.pgInRises.pan.gateRun = true ↔ s.pan.gateRun = true ∨ s.flag (onStepFld (s.fld Reg.PANELPWR_STATE_STEP) 8 1) = true) ∧
        (s.pgInRises.pan.edlRun = true ↔ s.pan.edlRun = true ∨ s.flag (onStepFld (s.fld Reg.PANELPWR_STATE_STEP) 9 1) = true)) ∧
      (s.pan.waitPg = false → s.pgInRises.pan = { s.pan with pgIn := true }) := by
  rw [State.pgInRises_pan_eq]
  cases hpg : s.pan.waitPg
  · rw [State.pgRise_idle hpg]
    exact ⟨rfl, fun h => absurd h (by decide), fun _ => rfl⟩
  · rw [State.pgRise_wait hpg]
    obtain ⟨hdone, hgate, hedl, hdue⟩ := State.stepRuns_runs { s with pan := { s.pan with pgIn := true } } (s.fld Reg.PANELPWR_STATE_STEP)
    exact ⟨rfl, fun _ => ⟨hdone, hdue, hgate, hedl⟩, fun h => absurd h (by decide)⟩

theorem State.powerOn_byPfail (s : State) : s.powerOn.pan.byPfail = s.pan.byPfail := by
  obtain ⟨-, -, -, hby⟩ := ((s.put Reg.PANELPWR_STATE_PENDING 0).put Reg.PANELPWR_STATE_STATE panPOWERING).stepStart_leaves 0
  exact hby

/-- Settles O43: a step by `stepStart_begun`, the rest by the cases of CMD.ON. -/
theorem panelPowersOn : Obligations.PanelPowersOn := by
  refine ⟨fun s port w hs hw => ⟨fun hfail => ?_, fun hhigh hoff => ?_, fun hhigh hoff hst => ?_, fun hhigh hoff hst => ?_⟩,
    fun s k hlive hk => ⟨fun hidle => ?_, fun hst hpg => ⟨fun hlast hgate => ?_, fun hmore h7 => ?_⟩⟩, fun s k hlive hk => ?_,
    fun s hlive => ⟨fun hno => ?_, fun hauto hby hhigh hoff hst => ?_⟩⟩
  · refine ⟨_, (exec_panelOn s port w).trans (State.unheld_live hs.live), ?_⟩
    rw [State.panelOn_write hs hw, State.cmdOn_refused hfail]
    refine ⟨?_, ?_, State.fld_put_mod (by decide), ?_⟩
    · rw [counted, State.left_rd, State.rd_put_other (by decide), State.raise_rd_other _ _ _ _ (by decide), State.rd_bump_toNat (by decide)]
    · rw [raised, State.left_fld, State.fld_put_apart (by decide)]
      exact State.fld_raise_self (p := 0x101) (by rw [State.gateClosed_bump (by decide), hs.gate]) (by decide)
    · change (State.put _ _ _).fld _ = _
      rw [State.fld_put_apart (by decide), State.fld_raise_other (by decide), State.fld_bump_other (by decide)]
      rfl
  · have hon : s.hostWrite port Reg.PANELPWR_CMD (Reg.PANELPWR_CMD_ON.put w 1) = s.put Reg.PANELPWR_STATE_PENDING 1 := by
      rw [State.panelOn_write hs hw, State.cmdOn, hhigh, if_neg (by decide), if_pos (by simpa using hoff)]
    exact (exec_panelOn s port w).trans ((State.unheld_steady s _ hs.live (hon ▸ s.put_steady _ _)).trans (congrArg _ hon))
  · have hon : s.hostWrite port Reg.PANELPWR_CMD (Reg.PANELPWR_CMD_ON.put w 1) = s := by
      rw [State.panelOn_write hs hw, State.cmdOn, hhigh, hoff, if_neg hst]; rfl
    exact (exec_panelOn s port w).trans ((State.unheld_steady s _ hs.live (hon.symm ▸ Steady.refl s)).trans (congrArg _ hon))
  · have hbegun := s.powerOn_begun
    rw [← State.cmdOn_powers hhigh hoff hst, ← State.panelOn_write (port := port) hs hw] at hbegun
    exact ⟨_, (exec_panelOn s port w).trans (State.unheld_live hs.live), stepBegun_left hbegun (by
      rw [State.panelOn_write hs hw, State.cmdOn_powers hhigh hoff hst]; exact s.powerOn_steady.now)⟩
  · have hstep : s.powerOnStep = s := by
      have hcond : (s.panelState != panPOWERING || s.pan.waitPg) = true := by simpa using hidle
      rw [State.powerOnStep, hcond]; rfl
    exact (State.unheld_steady s _ hlive (hstep.symm ▸ Steady.refl s)).trans (congrArg _ hstep)
  · refine ⟨_, State.unheld_live hlive, ?_⟩
    obtain ⟨hon, hraised, hnow⟩ := State.powerOnStep_done hst hpg (hk ▸ hlast) hgate
    exact ⟨hon, hraised, by rw [State.left_now, hnow]; exact Nat.max_eq_right (Nat.le_max_left _ _)⟩
  · obtain ⟨hbegun, hnow⟩ := State.powerOnStep_next hst hpg (hk ▸ hmore) (hk ▸ h7)
    rw [← hk] at hbegun
    refine ⟨_, State.unheld_live hlive, stepBegun_left hbegun (by rw [hnow]; exact Nat.le_max_left _ _), ?_⟩
    rw [State.left_now, hnow]
    exact Nat.max_eq_right (Nat.le_max_left _ _)
  · obtain ⟨hin, hwait, hidle⟩ := State.pgInRises_pan s
    refine ⟨_, State.unheld_live hlive, hin, fun hpg => ?_, hidle⟩
    rw [hk]
    exact hwait hpg
  · have hauto : s.autoOn = s := by
      rw [State.autoOn, if_neg]
      rintro h
      simp only [Bool.and_eq_true] at h
      obtain ⟨⟨hauto, hby⟩, hhigh⟩ := h
      rcases hno with h | h | h <;> simp_all
    exact (State.unheld_steady s _ hlive (hauto.symm ▸ Steady.refl s)).trans (congrArg _ hauto)
  · have hon : s.autoOn = ({ s with pan := { s.pan with byPfail := false } } : State).powerOn := by
      rw [State.autoOn, hauto, hby, hhigh]
      exact State.cmdOn_powers hhigh hoff hst
    have hsteady : s.now ≤ s.autoOn.now := hon ▸ (s.pan_steady _).now.trans (State.powerOn_steady _).now
    have hbegun := State.powerOn_begun { s with pan := { s.pan with byPfail := false } }
    refine ⟨_, State.unheld_live hlive, ?_, stepBegun_left ?_ hsteady⟩
    · change s.autoOn.pan.byPfail = false
      rw [hon]
      exact State.powerOn_byPfail _
    · rw [hon]
      exact stepBegun_of_same hbegun ⟨rfl, rfl, rfl, rfl⟩ fun lo w => rfl

end Sys2Proof.Machine
end

section
/-! PROOFS. Accesses of the units whose registers are plain (R7, R8), the errors they record (R373), and the pages that no
unit occupies (R374). -/

namespace Sys2Proof.Machine

variable {s : State} {u : Unit} {off port p a code : Nat} {w : Word} {r : RegRow}

/-! The addresses of the plain units. -/

/-- The pages of the units whose registers are plain. -/
def plainPages : List Nat := plainUnits.map Unit.page

theorem page_mem_plainPages (hu : u ∈ plainUnits) : u.page ∈ plainPages := List.mem_map_of_mem hu

theorem plainPages_bounds {q : Nat} (h : q ∈ plainPages) : (0x30 ≤ q ∧ q < 0x800) ∧ ¬ (0x71 ≤ q ∧ q < 0x81) ∧ ¬ (0xF0 ≤ q ∧ q < 0xF4) := by
  revert q; decide

theorem hdrPage_plain (hu : u ∈ plainUnits) : hdrPage u.page = u.page := by
  obtain ⟨-, -, hpartner⟩ := plainPages_bounds (page_mem_plainPages hu)
  exact if_neg (by simpa using hpartner)

/-- No lane's PHY block lies on the page of a plain unit. -/
theorem phyBase_not_plain : ∀ l ∈ List.range laneCount,
    phyBase l / 0x1000 ∉ plainPages ∧ phyBase l % 0x1000 + 0x100 ≤ 0x1000 := by decide

theorem laneOfAddr_plain (ha : a / 0x1000 ∈ plainPages) : laneOfAddr a = none := by
  refine List.find?_eq_none.2 fun l hl hin => ?_
  obtain ⟨hpage, hfit⟩ := phyBase_not_plain l hl
  simp only [Bool.and_eq_true, decide_eq_true_eq] at hin
  exact hpage ((show phyBase l / 0x1000 = a / 0x1000 by omega) ▸ ha)

/-- No register of a plain unit acts when it is written. -/
theorem writeActs_not_plain : ∀ k ∈ writeActs.map Prod.fst, k / 0x1000 ∉ plainPages := by decide

theorem writeActs_plain (ha : a / 0x1000 ∈ plainPages) : writeActs.find? (·.1 == a) = none :=
  find?_key_none rfl fun h => writeActs_not_plain a h ha

theorem phyInert_plain (ha : a / 0x1000 ∈ plainPages) : phyInert a = false := by rw [phyInert, laneOfAddr_plain ha]

theorem partnerAt_plain (ha : a / 0x1000 ∈ plainPages) : partnerAt a = none := by
  obtain ⟨-, -, hpartner⟩ := plainPages_bounds ha
  exact if_neg (by omega)

theorem keyFor_plain (ha : a / 0x1000 ∈ plainPages) : s.keyFor port a = a := by
  have hcopied : ∀ k ∈ copiedPerPort, k / 0x1000 ∉ plainPages := by decide
  exact State.keyFor_eq port fun h => hcopied a h ha

theorem plainUnits_not_acting : ∀ u ∈ plainUnits,
    ∀ v ∈ [Unit.EDL_PORT, .MEMC, .PERTURB, .PWR, .BANKS, .BULK, .CTL, .RETBUS], u ≠ v := by decide

/-- A write of a plain unit's register stores, past every rule for registers that act. -/
theorem State.writeReg_plain (hu : u ∈ plainUnits) (ha : a / 0x1000 = u.page) (hact : r.act = 0) :
    s.writeReg port u u.page a r w = s.store r a w := by
  have hmem : a / 0x1000 ∈ plainPages := ha ▸ page_mem_plainPages hu
  have hothers : ∀ v ∈ [Unit.EDL_PORT, .MEMC, .PERTURB, .PWR, .BANKS, .BULK, .CTL, .RETBUS], u ≠ v := by
    exact plainUnits_not_acting u hu
  have hcap : a ≠ Reg.ZONE_PCAP := fun h => absurd hmem (h ▸ by decide)
  simp only [List.forall_mem_cons] at hothers
  simp only [State.writeReg, writeActs_plain hmem, laneOfAddr_plain hmem, hothers, hact, hcap, keyFor_plain hmem, ne_eq, not_true,
    false_and, if_false]

/-! A port's access of a plain unit's page. -/

theorem plain_addr (hoff : off < 0x1000) : (u.page * 0x1000 + off) / 0x1000 = u.page ∧ (u.page * 0x1000 + off) % 0x1000 = off := by
  omega

/-- A port's write of a plain unit's page, up to the row of the register. -/
theorem State.hostWrite_plain (hu : u ∈ plainUnits) (hs : s.Serves u u.page) (hlow : 0x30 ≤ off) (hoff : off < 0x1000)
    (halign : off % 4 = 0) {row : Option RegRow} (hrow : rowAt u off = row) :
    s.hostWrite port (u.page * 0x1000 + off) w =
      row.elim (s.err u.page 3) (fun r =>
        if !writable port (u.page * 0x1000 + off) r then s.err u.page 2
        else if r.p && !s.presenceOpen then s.secRefused port (u.page * 0x1000 + off) false
        else if !(r.rw != 0 || r.w1c != 0 || r.act != 0) then s.wr (u.page * 0x1000 + off) w
        else s.writeReg port u u.page (u.page * 0x1000 + off) r w) := by
  obtain ⟨hdiv, hmod⟩ := plain_addr (u := u) hoff
  have hmem : (u.page * 0x1000 + off) / 0x1000 ∈ plainPages := by rw [hdiv]; exact page_mem_plainPages hu
  obtain ⟨-, hgroup, -⟩ := plainPages_bounds (page_mem_plainPages hu)
  have hnogroup : ¬ (0x71 ≤ u.page ∧ u.page < 0x81 ∧ (off = 0x40 ∨ off = 0x44)) := by tauto
  have hblock : ¬ off < 0x30 := by omega
  have hunlocked := hs.unlocked
  rw [hdrPage_plain hu] at hunlocked
  rw [State.hostWrite_unitPage hs.live hs.unit hoff halign]
  simp only [State.localWrite, State.writeOne, hdiv, hmod, hs.unit, hunlocked, hs.gate, hs.power, hs.clock, hdrPage_plain hu,
    partnerAt_plain hmem, phyInert_plain hmem, if_neg hnogroup, if_neg hblock, hrow]
  cases row <;> simp

/-- Settles O10: every register of a plain unit comes to `State.store`. -/
theorem plainWritesStore : Obligations.PlainWritesStore := by
  intro s u off port w r hu hs hblock hoff halign hrow hact hbits hpres
  obtain ⟨hdiv, -⟩ := plain_addr (u := u) hoff
  have hany : (r.rw != 0 || r.w1c != 0) = true := by simpa using hbits
  have hpriv : (r.p && !s.presenceOpen) = false := by rcases hpres with h | h <;> simp [h]
  have hwrite : s.hostWrite port (u.page * 0x1000 + off) w = s.store r (u.page * 0x1000 + off) w := by
    rw [State.hostWrite_plain hu hs (by omega) hoff halign hrow]
    simp only [Option.elim, writable, hany, Bool.true_or, Bool.not_true, Bool.false_eq_true, if_false, hpriv, State.writeReg_plain hu hdiv hact]
  have hsteady : Steady s (s.hostWrite port (u.page * 0x1000 + off) w) := by rw [hwrite]; exact s.wr_steady _ _
  rw [exec_regWrite, s.unheld_steady _ hs.live hsteady, hwrite]
  rfl

/-! Errors (R373). -/

theorem hdrErr_ne (p : Nat) : Reg.HDR_ERR_COUNT p ≠ Reg.HDR_ERR_CODE p := by
  simp only [Reg.HDR_ERR_COUNT, Reg.HDR_ERR_CODE]; omega

theorem State.err_code (s : State) (p code : Nat) : (s.err p code).rd (Reg.HDR_ERR_CODE (hdrPage p)) = BitVec.ofNat 32 code := by
  rw [State.err, State.rd_put_other (hdrErr_ne _), State.wrN, State.rd_wr_self]

theorem State.err_count (s : State) (p code : Nat) : ((s.err p code).rd (Reg.HDR_ERR_COUNT (hdrPage p))).toNat
    = min (2 ^ 32 - 1) ((s.rd (Reg.HDR_ERR_COUNT (hdrPage p))).toNat + 1) := by
  have hput : ∀ (t : State) (n : Nat), ((t.put (wholeFld (Reg.HDR_ERR_COUNT (hdrPage p))) n).rd (Reg.HDR_ERR_COUNT (hdrPage p))).toNat
      = n % 2 ^ 32 := fun t n => by rw [← State.fld_whole]; exact State.fld_put_mod (by decide : 0 + 32 ≤ 32)
  rw [State.err, hput, satAdd_eq_min]
  omega

theorem State.err_rd_other {b : Nat} (hc : b ≠ Reg.HDR_ERR_CODE (hdrPage p)) (hn : b ≠ Reg.HDR_ERR_COUNT (hdrPage p)) :
    (s.err p code).rd b = s.rd b := by
  rw [State.err, State.rd_put_other hn.symm, State.wrN, State.rd_wr_other _ _ _ _ hc.symm]

theorem State.err_steady (s : State) (p code : Nat) : Steady s (s.err p code) := (s.err_onlyRegs p code).steady

/-- A write of an RO register of a plain unit. -/
theorem exec_regWrite_readOnly (hu : u ∈ plainUnits) (hs : s.Serves u u.page) (hlow : 0x30 ≤ off) (hoff : off < 0x1000)
    (halign : off % 4 = 0) (hrow : rowAt u off = some r) (hrw : r.rw = 0) (hw1c : r.w1c = 0) (hact : r.act = 0) :
    exec (.regWrite port (u.page * 0x1000 + off) w) s = .next (s.err u.page 2) := by
  have hnotAon : (u.page * 0x1000 + off == Reg.AON_POWER_ON_MIN || u.page * 0x1000 + off == Reg.AON_BOOT_TRIES) = false := by
    obtain ⟨hpage, -⟩ := plainPages_bounds (page_mem_plainPages hu)
    simp only [Bool.or_eq_false_iff, beq_eq_false_iff_ne, Reg.AON_POWER_ON_MIN, Reg.AON_BOOT_TRIES]; omega
  have hwrite : s.hostWrite port (u.page * 0x1000 + off) w = s.err u.page 2 := by
    rw [State.hostWrite_plain hu hs hlow hoff halign hrow]
    simp only [Option.elim, writable, hrw, hw1c, hact, hnotAon, bne_self_eq_false, Bool.or_self, Bool.and_false, Bool.not_false, if_true]
  have hsteady : Steady s (s.hostWrite port (u.page * 0x1000 + off) w) := by rw [hwrite]; exact s.err_steady _ _
  rw [exec_regWrite, s.unheld_steady _ hs.live hsteady, hwrite]

/-- A write of an offset that a plain unit does not name. -/
theorem exec_regWrite_unnamed (hu : u ∈ plainUnits) (hs : s.Serves u u.page) (hlow : 0x30 ≤ off) (hoff : off < 0x1000)
    (halign : off % 4 = 0) (hrow : rowAt u off = none) :
    exec (.regWrite port (u.page * 0x1000 + off) w) s = .next (s.err u.page 3) := by
  have hwrite : s.hostWrite port (u.page * 0x1000 + off) w = s.err u.page 3 := by
    rw [State.hostWrite_plain hu hs hlow hoff halign hrow]
    rfl
  have hsteady : Steady s (s.hostWrite port (u.page * 0x1000 + off) w) := by rw [hwrite]; exact s.err_steady _ _
  rw [exec_regWrite, s.unheld_steady _ hs.live hsteady, hwrite]

/-! Reads. -/

/-- A read of a page of this device by a port that is served. -/
theorem exec_read64Low_page {t : State} {v : Word} (hlive : s.boot.resetLow = false) (hp : p < 0x800) (hoff : off < 0x1000)
    (halign : off % 4 = 0) (hread : s.localRead port (p * 0x1000 + off) true = (t, v)) (ht : OnlyRegs s t) :
    exec (.read64Low port (p * 0x1000 + off)) s = .next (t.emit .hostData port [v.toNat]) := by
  have haddr : portAddr (p * 0x1000 + off) = p * 0x1000 + off := by unfold portAddr; omega
  have hserved : s.portServed port = true := by simp [State.portServed, hlive]
  have hserved' : t.portServed port = true := by simp [State.portServed, ht.steady.hold, hlive]
  have hdev : ¬ 0x800000 ≤ p * 0x1000 + off := by omega
  have hport : s.portRead port (p * 0x1000 + off) true = t.emit .hostData port [v.toNat] := by
    simp [State.portRead, State.hostRead, haddr, hserved, hserved', hdev, hread, State.deliver]
  have hsteady : Steady s (s.portRead port (p * 0x1000 + off) true) := by rw [hport]; exact ht.steady.trans (t.emit_steady ..)
  rw [exec_read64Low, s.unheld_steady _ hlive hsteady, hport]

theorem exec_read64Low_unnamed (hu : u ∈ plainUnits) (hs : s.Serves u u.page) (hlow : 0x30 ≤ off) (hoff : off < 0x1000)
    (halign : off % 4 = 0) (hrow : rowAt u off = none) :
    exec (.read64Low port (u.page * 0x1000 + off)) s = .next ((s.err u.page 3).emit .hostData port [0]) := by
  obtain ⟨hdiv, hmod⟩ := plain_addr (u := u) hoff
  have hmem : (u.page * 0x1000 + off) / 0x1000 ∈ plainPages := by rw [hdiv]; exact page_mem_plainPages hu
  obtain ⟨hpage, -, -⟩ := plainPages_bounds (page_mem_plainPages hu)
  have hblock : ¬ off < 0x30 := by omega
  have hheader : ¬ (off = 0 ∨ off = 4 ∨ off = 0x28) := by omega
  refine exec_read64Low_page (v := 0) hs.live hpage.2 hoff halign ?_ (s.err_onlyRegs _ _)
  simp only [State.localRead, hdiv, hmod, hs.unit, hs.gate, hs.power, hs.clock, hdrPage_plain hu, partnerAt_plain hmem,
    phyInert_plain hmem, if_neg hblock, if_neg hheader, hrow]
  simp

/-- A read of ERR_COUNT clears it (R7). -/
theorem exec_errCountRead_page (hlive : s.boot.resetLow = false) (hpage : unitOfPage p = some u) (hpower : s.unitPowered u p = true) :
    exec (.errCountRead port p) s = .next ((s.wr (Reg.HDR_ERR_COUNT (hdrPage p)) 0).emit .hostData port
      [(s.rd (Reg.HDR_ERR_COUNT (hdrPage p))).toNat]) := by
  have hdiv : (p * 0x1000 + 0x24) / 0x1000 = p := by omega
  have hmod : (p * 0x1000 + 0x24) % 0x1000 = 0x24 := by omega
  have hword : s.headerWord u p 0x24 = s.rd (Reg.HDR_ERR_COUNT (hdrPage p)) := by
    have haddr : Reg.HDR_UNIT_ID (hdrPage p) + 0x24 = Reg.HDR_ERR_COUNT (hdrPage p) := by
      simp only [Reg.HDR_UNIT_ID, Reg.HDR_ERR_COUNT, Nat.add_zero]
    rw [← haddr]; rfl
  have hread : s.localRead port (p * 0x1000 + 0x24) true =
      (s.wr (Reg.HDR_ERR_COUNT (hdrPage p)) 0, s.rd (Reg.HDR_ERR_COUNT (hdrPage p))) := by
    simp only [State.localRead, hdiv, hmod, hpage, hpower, hword]
    simp
  rw [exec_errCountRead, ← exec_read64Low]
  exact exec_read64Low_page hlive (unitOfPage_lt hpage) (by decide) (by decide) hread (s.wr_onlyRegs _ _)

/-! Pages that no unit occupies (R374). -/

theorem groupPages_occupied : ∀ q ∈ List.range 0x10, (unitOfPage (0x71 + q)).isSome = true := by decide

theorem not_group_of_unoccupied (h : unitOfPage p = none) : ¬ (0x71 ≤ p ∧ p < 0x81) := by
  rintro ⟨hlo, hhi⟩
  have hsome := groupPages_occupied (p - 0x71) (List.mem_range.2 (by omega))
  rw [show 0x71 + (p - 0x71) = p by omega, h] at hsome
  cases hsome

theorem exec_regWrite_unoccupied (hlive : s.boot.resetLow = false) (hp : p < 0x800) (hoff : off < 0x1000) (halign : off % 4 = 0)
    (hpage : unitOfPage p = none) : exec (.regWrite port (p * 0x1000 + off) w) s = .next s := by
  have hdiv : (p * 0x1000 + off) / 0x1000 = p := by omega
  have haddr : portAddr (p * 0x1000 + off) = p * 0x1000 + off := by unfold portAddr; omega
  have hdev : ¬ 0x800000 ≤ p * 0x1000 + off := by omega
  have hgroup := not_group_of_unoccupied hpage
  have hwrite : s.hostWrite port (p * 0x1000 + off) w = s := by
    have hnogroup : ¬ (0x71 ≤ p ∧ p < 0x81 ∧ ((p * 0x1000 + off) % 0x1000 = 0x40 ∨ (p * 0x1000 + off) % 0x1000 = 0x44)) := by tauto
    simp only [State.hostWrite, haddr, if_neg hdev, State.localWrite, hdiv, if_neg hnogroup, State.writeOne, hpage, ite_self]
  have hsteady : Steady s (s.hostWrite port (p * 0x1000 + off) w) := by rw [hwrite]; exact Steady.refl s
  rw [exec_regWrite, s.unheld_steady _ hlive hsteady, hwrite]

theorem exec_read64Low_unoccupied (hlive : s.boot.resetLow = false) (hp : p < 0x800) (hoff : off < 0x1000) (halign : off % 4 = 0)
    (hpage : unitOfPage p = none) : exec (.read64Low port (p * 0x1000 + off)) s = .next (s.emit .hostData port [0]) := by
  have hdiv : (p * 0x1000 + off) / 0x1000 = p := by omega
  exact exec_read64Low_page (v := 0) hlive hp hoff halign (by simp only [State.localRead, hdiv, hpage]) (OnlyRegs.refl s)

/-- Settles O11: the errors of the plain units' accesses, the header's ERR_COUNT, and the pages that no unit occupies. -/
theorem errorsAreRecorded : Obligations.ErrorsAreRecorded := by
  refine ⟨⟨fun s p code _ => ⟨s.err_code p code, s.err_count p code, fun a => State.err_rd_other, rfl⟩, ?_, ?_⟩, ?_, ?_⟩
  · intro s u off port w r hu hs hblock hoff halign hrow hrw hw1c hact
    exact exec_regWrite_readOnly hu hs (by omega) hoff halign hrow hrw hw1c hact
  · intro s u off port w hu hs hlow hoff halign hrow
    exact ⟨exec_regWrite_unnamed hu hs hlow hoff halign hrow, exec_read64Low_unnamed hu hs hlow hoff halign hrow⟩
  · intro s u p port hlive hpage hpower
    exact exec_errCountRead_page hlive hpage hpower
  · intro s p off port w hlive hp hoff halign hpage
    exact ⟨exec_regWrite_unoccupied hlive hp hoff halign hpage, exec_read64Low_unoccupied hlive hp hoff halign hpage⟩

end Sys2Proof.Machine
end

section
/-! PROOFS. APPLY, the validator's end and REVERT (R382). -/

namespace Sys2Proof.Machine

variable {s : State} {port : Nat} {w : Word}

/-! Cells taken back into an array. -/

theorem Cells.get_foldl_set_of_not_mem {α : Type} [DecidableEq α] {d : Nat → α} {j : Nat} :
    ∀ (l m : Cells α), (∀ e ∈ l, e.1 ≠ j) → Cells.get d (l.foldl (fun m e => Cells.set d m e.1 e.2) m) j = Cells.get d m j
  | [], _, _ => rfl
  | (i, v) :: l, m, h => by
    have hi : i ≠ j := h (i, v) (List.mem_cons_self ..)
    rw [List.foldl_cons, Cells.get_foldl_set_of_not_mem l _ fun e he => h e (List.mem_cons_of_mem _ he),
      Cells.get_set_other _ _ _ _ _ hi]

theorem Cells.get_foldl_set_of_default {α : Type} [DecidableEq α] {d : Nat → α} {j : Nat} :
    ∀ (l m : Cells α), l.Pairwise (fun a b => a.1 < b.1) → Cells.get d m j = d j →
      Cells.get d (l.foldl (fun m e => Cells.set d m e.1 e.2) m) j = Cells.get d l j
  | [], _, _, hm => hm
  | (i, v) :: l, m, hl, hm => by
    obtain ⟨hfirst, hrest⟩ := List.pairwise_cons.1 hl
    rw [List.foldl_cons, Cells.get]
    by_cases hij : i = j
    · subst hij
      rw [if_pos rfl, Cells.get_foldl_set_of_not_mem l _ fun e he => (hfirst e he).ne', Cells.get_set_self]
    · rw [if_neg hij]
      exact Cells.get_foldl_set_of_default l _ hrest ((Cells.get_set_other _ _ _ _ _ hij).trans hm)

/-! REVERT. -/

theorem Cells.get_keep (m : Cells Word) (a : Nat) :
    Cells.get resetWord (m.filter (fun e => !isShadow e.1)) a = if isShadow a = true then resetWord a else Cells.get resetWord m a := by
  rw [Cells.get_filter resetWord m (fun k => !isShadow k)]
  cases isShadow a <;> rfl

theorem State.revert_regs (hnone : s.chip.applying = none) :
    s.revert.regs = (s.act.filter (fun e => isShadow e.1)).foldl (fun m e => Cells.set resetWord m e.1 e.2)
      (s.regs.filter (fun e => !isShadow e.1)) := by
  rw [State.revert, hnone]; rfl

theorem State.revert_rd_shadow {a : Nat} (hact : Cells.wf resetWord s.act = true) (hnone : s.chip.applying = none)
    (ha : isShadow a = true) : s.revert.rd a = s.rdA a := by
  obtain ⟨hsorted, -⟩ := (Cells.wf_iff resetWord s.act).1 hact
  have hkeep : Cells.get resetWord (s.regs.filter (fun e => !isShadow e.1)) a = resetWord a := by rw [Cells.get_keep, if_pos ha]
  rw [State.rd, State.revert_regs hnone, Cells.get_foldl_set_of_default _ _ (hsorted.filter _) hkeep,
    Cells.get_filter resetWord s.act isShadow, if_pos ha, State.rdA]

theorem State.revert_rd_other {a : Nat} (hnone : s.chip.applying = none) (ha : isShadow a = false) : s.revert.rd a = s.rd a := by
  rw [State.rd, State.revert_regs hnone, Cells.get_foldl_set_of_not_mem, Cells.get_keep, ha, if_neg Bool.false_ne_true, State.rd]
  intro e he hea
  obtain ⟨-, hshadow⟩ := List.mem_filter.1 he
  rw [hea, ha] at hshadow
  cases hshadow

theorem State.revert_rest (hnone : s.chip.applying = none) :
    s.revert = { s with regs := s.revert.regs, zon := { s.zon with classPend := s.zon.classAct } } := by
  rw [State.revert, hnone]; rfl

theorem State.revert_refused (hsome : s.chip.applying.isSome = true) :
    s.revert = s.put (wholeFld (Reg.HDR_ERR_COUNT 0)) (min (2 ^ 32 - 1) ((s.rd (Reg.HDR_ERR_COUNT 0)).toNat + 1)) := by
  have hmax : 0xFFFFFFFF = 2 ^ 32 - 1 := by decide
  rw [State.revert, if_pos hsome, satAdd_eq_min, hmax]

theorem State.zon_regs_steady (s : State) (r : Cells Word) (z : ZoneState) : Steady s { s with regs := r, zon := z } :=
  ⟨Nat.le_refl _, rfl, rfl⟩

theorem State.revert_steady (s : State) : Steady s s.revert := by
  cases hnone : s.chip.applying with
  | none => rw [State.revert_rest hnone]; exact (State.zon_regs_steady s _ _)
  | some set => rw [State.revert_refused (by rw [hnone]; rfl)]; exact s.put_steady _ _

theorem exec_chipRevert_odd (hs : s.Serves .CHIP 0) (hw : w.toNat % 2 = 1) : exec (.chipRevert port w) s = .next s.revert := by
  have hbit : bit w.toNat 0 = true := by rw [bit, beq_iff_eq]; omega
  have hwrite : s.hostWrite port Reg.CHIP_REVERT w = s.revert := by
    rw [State.hostWrite_acts (u := .CHIP) (a := Reg.CHIP_REVERT) hs (by decide) rfl]
    exact if_pos hbit
  have hsteady : Steady s (s.hostWrite port Reg.CHIP_REVERT w) := by rw [hwrite]; exact s.revert_steady
  rw [exec_chipRevert, s.unheld_steady _ hs.live hsteady, hwrite]

/-! The validator's end. -/

theorem State.coarseJudged_idle {b : Bool} (hdue : s.pat.coarseDue = false) : s.coarseJudged b = s := by
  rw [State.coarseJudged, hdue]; rfl

theorem State.validated_accepts {set : ApplySet} (hset : s.chip.applying = some set) (hval : s.flag Reg.CHIP_APPLY_VALIDATING = true)
    (hok : (s.put Reg.CHIP_APPLY_VALIDATING 0).validate set = none) (hdue : s.pat.coarseDue = false) :
    s.validated = { ((s.put Reg.CHIP_APPLY_VALIDATING 0).wr Reg.CHIP_CONFIG_REJECT 0).put Reg.CHIP_APPLY_WAITING 1 with
      chip := { s.chip with applying := some { set with accepted := true } } } := by
  simp only [State.validated, hset, hval, Bool.not_true, Bool.false_eq_true, if_false, hok]
  exact State.coarseJudged_idle hdue

theorem State.validated_rejects {set : ApplySet} {code page index : Nat} (hset : s.chip.applying = some set)
    (hval : s.flag Reg.CHIP_APPLY_VALIDATING = true)
    (hbad : (s.put Reg.CHIP_APPLY_VALIDATING 0).validate set = some (code, page, index)) (hdue : s.pat.coarseDue = false) :
    s.validated = ((({ s.put Reg.CHIP_APPLY_VALIDATING 0 with chip := { s.chip with applying := none } } : State).wrN
      Reg.CHIP_CONFIG_REJECT (code + 2 ^ 8 * (page % 4096) + 2 ^ 20 * (index % 4096))).bump Reg.CHIP_REJECT_CNT).raise 0 1 := by
  simp only [State.validated, hset, hval, Bool.not_true, Bool.false_eq_true, if_false, hbad]
  refine State.coarseJudged_idle ?_
  have hpat : ∀ t u : State, OnlyRegs t u → u.pat = t.pat := by rintro t _ ⟨_, _, _, rfl⟩; rfl
  rw [hpat _ _ (State.raise_onlyRegs _ _ _), hpat _ _ (State.bump_onlyRegs _ _)]
  exact hdue

theorem State.chip_steady (s : State) (c : ChipState) : Steady s { s with chip := c } := ⟨Nat.le_refl _, rfl, rfl⟩

/-- Settles O14: GO by its write, the validator's end by its two results, REVERT by its two cases. -/
theorem applyAndRevert : Obligations.ApplyAndRevert := by
  refine ⟨fun s port w hs => ?_, fun s set hlive hset hval => ⟨?_, ?_⟩, fun s port w hs hw => ⟨fun hsome => ?_, fun hnone hact => ?_⟩⟩
  · have hodd : ¬ (Reg.CHIP_APPLY_GO.put w 1).toNat % 2 = 0 := by
      rw [show (Reg.CHIP_APPLY_GO.put w 1).toNat = w.toNat / 2 * 2 + 1 from Fld.put_bit_zero _ w]; omega
    have hwrite : s.hostWrite port Reg.CHIP_APPLY (Reg.CHIP_APPLY_GO.put w 1) =
        (({ s with chip := { s.chip with applying := some s.shadows } } : State).put Reg.CHIP_APPLY_VALIDATING 1).put Reg.CHIP_APPLY_WAITING 0 := by
      rw [State.hostWrite_acts (u := .CHIP) (a := Reg.CHIP_APPLY) hs (by decide) rfl]
      exact if_neg hodd
    have hsteady : Steady s (s.hostWrite port Reg.CHIP_APPLY (Reg.CHIP_APPLY_GO.put w 1)) := by
      rw [hwrite]; exact ((s.chip_steady _).trans (State.put_steady _ _ _)).trans (State.put_steady _ _ _)
    rw [exec_applyGo, s.unheld_steady _ hs.live hsteady, hwrite]
  · rintro t rfl hok hdue
    have hval := State.validated_accepts hset hval hok hdue
    refine (State.unheld_steady s _ hlive ?_).trans (congrArg _ hval)
    rw [hval]
    exact (((s.put_steady _ _).trans (State.wr_steady _ _ _)).trans (State.put_steady _ _ _)).trans (State.chip_steady _ _)
  · rintro t code page index rfl hbad hdue
    have hval := State.validated_rejects hset hval hbad hdue
    refine (State.unheld_steady s _ hlive ?_).trans (congrArg _ hval)
    rw [hval]
    exact ((((s.put_steady _ _).trans (State.chip_steady _ _)).trans (State.wr_steady _ _ _)).trans (State.bump_steady _ _)).trans
      (State.raise_steady _ _ _)
  · rw [exec_chipRevert_odd hs hw, State.revert_refused hsome]
  · exact ⟨s.revert, exec_chipRevert_odd hs hw, fun a => State.revert_rd_shadow hact hnone, fun a => State.revert_rd_other hnone,
      State.revert_rest hnone⟩

end Sys2Proof.Machine
end

section
/-! PROOFS. A record as it is written to a sector, and what a scan makes of it (R436, R437). -/

namespace Sys2Proof.Machine

/-! The CRC-32 of R64 is a word. -/

theorem crc32Byte_lt (b : Byte) {c : Nat} (hc : c < 2 ^ 32) : crc32Byte c b < 2 ^ 32 := by
  have hstep : ∀ v, v < 2 ^ 32 → (if v % 2 = 1 then v / 2 ^^^ 0xEDB88320 else v / 2) < 2 ^ 32 := fun v hv => by
    split
    · exact Nat.xor_lt_two_pow (by omega) (by decide)
    · omega
  have hfold : ∀ (l : List Nat) (v : Nat), v < 2 ^ 32 →
      l.foldl (fun c _ => if c % 2 = 1 then c / 2 ^^^ 0xEDB88320 else c / 2) v < 2 ^ 32 := by
    intro l
    induction l with
    | nil => exact fun v hv => hv
    | cons _ l ih => exact fun v hv => ih _ (hstep v hv)
  exact hfold _ _ (Nat.xor_lt_two_pow hc (Nat.lt_trans b.isLt (by decide)))

theorem crc32_lt (l : List Byte) : crc32 l < 2 ^ 32 := by
  have hfold : ∀ (l : List Byte) (c : Nat), c < 2 ^ 32 → l.foldl crc32Byte c < 2 ^ 32 := by
    intro l
    induction l with
    | nil => exact fun c hc => hc
    | cons b l ih => exact fun c hc => ih _ (crc32Byte_lt b hc)
  exact Nat.xor_lt_two_pow (hfold l _ (by decide)) (by decide)

/-! Bytes in the middle of a sector. -/

/-- A byte read at an offset into a piece of a sector. -/
theorem getD_middle (pre r post : List Byte) {i : Nat} (hi : i < r.length) :
    (pre ++ r ++ post).toArray.getD (pre.length + i) 0xFF = r[i] := by
  rw [Array.getD_eq_getD_getElem?, List.getElem?_toArray, List.append_assoc, List.getElem?_append_right (by omega),
    Nat.add_sub_cancel_left, List.getElem?_append_left hi, List.getElem?_eq_getElem hi]
  rfl

/-- A run of bytes read at an offset into a piece of a sector. -/
theorem map_getD_middle (pre r post : List Byte) {k m : Nat} (hm : k + m ≤ r.length) :
    (List.range m).map (fun i => (pre ++ r ++ post).toArray.getD (pre.length + (k + i)) 0xFF) = (r.drop k).take m := by
  refine List.ext_getElem (by simp; omega) fun i hi _ => ?_
  have him : i < m := by simpa using hi
  simp only [List.getElem_map, List.getElem_range, List.getElem_take, List.getElem_drop]
  exact getD_middle pre r post (by omega)

/-! The bytes of a record (R436). -/

/-- The first fourteen bytes of a record: all of its header but the CRC-16. -/
def recordHead (typ id flags seq len : Nat) : List Byte :=
  [0x5E] ++ leBytes 1 typ ++ leBytes 2 id ++ leBytes 2 len ++ leBytes 1 flags ++ [0] ++ leBytes 4 seq ++ [0, 0]

theorem length_recordHead (typ id flags seq len : Nat) : (recordHead typ id flags seq len).length = 14 := by
  simp [recordHead]

/-- The bytes that the CRC-32 of a record covers. -/
def recordBody (typ id flags seq : Nat) (data : List Byte) : List Byte :=
  recordHead typ id flags seq data.length ++ crc16Bytes (recordHead typ id flags seq data.length) ++ data

theorem length_crc16Bytes (l : List Byte) : (crc16Bytes l).length = 2 := rfl

theorem length_recordBody (typ id flags seq : Nat) (data : List Byte) :
    (recordBody typ id flags seq data).length = 16 + data.length := by
  simp only [recordBody, List.length_append, length_recordHead, length_crc16Bytes]

/-- A record is its body, the body's CRC-32 and the padding. -/
theorem recordBytes_eq (typ id flags seq : Nat) (data : List Byte) : ∃ pad : List Byte,
    recordBytes typ id flags seq data = recordBody typ id flags seq data ++ leBytes 4 (crc32 (recordBody typ id flags seq data)) ++ pad ∧
      (recordBytes typ id flags seq data).length = recordSize data.length := by
  refine ⟨_, rfl, ?_⟩
  have hlen := length_recordBody typ id flags seq data
  change (recordBody typ id flags seq data ++ leBytes 4 _ ++ List.replicate _ _).length = _
  rw [List.length_append, List.length_append, List.length_replicate, length_leBytes, hlen, recordSize]
  change 16 + data.length + 4 + (4 - (recordBody typ id flags seq data ++ leBytes 4 _).length % 4) % 4 = _
  rw [List.length_append, length_leBytes, hlen]
  omega

/-! A scan that comes to a record (R437). -/

/-- What a scan reads of a header. -/
theorem recordHead_fields {typ id flags seq len : Nat} (c : List Byte) (htyp : typ < 2 ^ 8) (hid : id < 2 ^ 16)
    (hflags : flags < 2 ^ 8) (hseq : seq < 2 ^ 32) (hlen : len < 2 ^ 16) :
    let h := recordHead typ id flags seq len ++ c
    (h.getD 1 0xFF).toNat = typ ∧ leVal ((h.drop 2).take 2) = id ∧ leVal ((h.drop 4).take 2) = len ∧
      (h.getD 6 0xFF).toNat = flags ∧ leVal ((h.drop 8).take 4) = seq := by
  have hbyte : ∀ v, v < 2 ^ 8 → (BitVec.ofNat 8 (v % 256)).toNat = v := fun v hv => by simp; omega
  have htwo : ∀ v, v < 2 ^ 16 → leVal (leBytes 2 v) = v := fun v hv => by rw [leVal_leBytes]; exact Nat.mod_eq_of_lt hv
  have hfour : leVal (leBytes 4 seq) = seq := by rw [leVal_leBytes]; exact Nat.mod_eq_of_lt hseq
  exact ⟨hbyte typ htyp, htwo id hid, htwo len hlen, hbyte flags hflags, hfour⟩

/-- A scan that comes to the bytes of a record takes it when its checks hold. -/
theorem scanRecords_at {pre r post : List Byte} {len crc n : Nat} (k sseq era : Nat) (hsize : r.length = recordSize len)
    (hlen : len ≤ 4064) (hfit : pre.length + r.length ≤ 4096) (hmark : r[0]? = some 0x5E)
    (hread : leVal (((r.take 16).drop 4).take 2) = len) (hcrc16 : crc16Bytes ((r.take 16).take 14) = (r.take 16).drop 14)
    (hcrc32 : crc32 (r.take (16 + len)) = crc) (hstored : leVal ((r.drop (16 + len)).take 4) = crc) :
    scanRecords (pre ++ r ++ post).toArray k sseq era (n + 1) pre.length =
      (let x := scanRecords (pre ++ r ++ post).toArray k sseq era n (pre.length + recordSize len);
        (⟨k, pre.length, era, sseq, ((r.take 16).getD 1 0xFF).toNat, leVal (((r.take 16).drop 2).take 2), len,
          ((r.take 16).getD 6 0xFF).toNat, leVal (((r.take 16).drop 8).take 4), crc⟩ :: x.1, x.2.1, x.2.2.1, x.2.2.2)) := by
  have hlong : 20 + len ≤ r.length := by rw [hsize, recordSize]; omega
  have hat : ∀ i, i < 16 → (pre ++ r ++ post).toArray.getD (pre.length + i) 0xFF = (r.take 16).getD i 0xFF := fun i hi => by
    rw [getD_middle pre r post (by omega), List.getD_eq_getElem?_getD, List.getElem?_take_of_lt hi, List.getElem?_eq_getElem (by omega)]
    rfl
  have hhead := map_getD_middle pre r post (k := 0) (m := 16) (by omega)
  have hbody := map_getD_middle pre r post (k := 0) (m := 16 + len) (by omega)
  have hend := map_getD_middle pre r post (k := 16 + len) (m := 4) (by omega)
  simp only [Nat.zero_add, List.drop_zero] at hhead hbody
  have hfirst : (r.take 16).getD 0 0xFF = 0x5E := by
    rw [List.getD_eq_getElem?_getD, List.getElem?_take_of_lt (by decide), hmark]; rfl
  have hroom : ¬ 4096 ≤ pre.length := by omega
  have hmarked : ¬ (0x5E : Byte) = 0xFF := by decide
  have hin : ¬ 4096 < pre.length + recordSize len := by omega
  rw [scanRecords]
  simp only [hhead, hread, hbody, hend, hcrc16, hcrc32, hstored, hat 0 (by decide), hat 1 (by decide), hat 6 (by decide), hfirst,
    hroom, hmarked, hin, Nat.not_lt.2 hlen, or_self, ne_eq, not_true, if_false, if_true]

/-- Settles O55: the header's CRC-16 and the body's CRC-32 are those that were written, so the scan takes the record. -/
theorem recordsAreFound : Obligations.RecordsAreFound := by
  intro pre data post typ id flags seq k sseq era n htyp hid hflags hseq hdata hfit
  obtain ⟨pad, hrec, hsize⟩ := recordBytes_eq typ id flags seq data
  have hlen := length_recordBody typ id flags seq data
  have hbody : (recordBytes typ id flags seq data).take (16 + data.length) = recordBody typ id flags seq data := by
    rw [hrec, List.append_assoc, ← hlen, List.take_left]
  have hhead : (recordBytes typ id flags seq data).take 16 =
      recordHead typ id flags seq data.length ++ crc16Bytes (recordHead typ id flags seq data.length) := by
    rw [hrec, recordBody, List.append_assoc, List.append_assoc, List.append_assoc, ← List.append_assoc]
    exact List.take_left' (by rw [List.length_append, length_recordHead, length_crc16Bytes])
  have hstored : leVal (((recordBytes typ id flags seq data).drop (16 + data.length)).take 4) =
      crc32 (recordBody typ id flags seq data) := by
    rw [hrec, List.append_assoc, ← hlen, List.drop_left, List.take_left' (length_leBytes ..), leVal_leBytes]
    exact Nat.mod_eq_of_lt (crc32_lt _)
  obtain ⟨htyp', hid', hlen', hflags', hseq'⟩ := recordHead_fields (len := data.length)
    (crc16Bytes (recordHead typ id flags seq data.length)) htyp hid hflags hseq (by omega)
  have hscan := scanRecords_at (pre := pre) (post := post) (n := n) k sseq era hsize hdata (by rw [hsize]; exact hfit) (by rw [hrec]; rfl)
    (by rw [hhead]; exact hlen')
    (by rw [hhead, List.take_left' (length_recordHead ..), List.drop_left' (length_recordHead ..)]) (congrArg crc32 hbody) hstored
  rw [hhead, htyp', hid', hflags', hseq'] at hscan
  exact ⟨_, hscan⟩

end Sys2Proof.Machine
end

section
/-! PROOFS. What leaves the M960 on EDL and on the cascade changes, beside what has left, the registers, the ports, the lanes
and the injections alone (R271 to R284, R295, R475). -/

namespace Sys2Proof.Machine

variable {s t u : State}

/-- Nothing differs but what a transmission may touch: registers with the event log, the lanes, EDL's ports, the
injections, the free values drawn and what has left. -/
def Sending (s t : State) : Prop :=
  ∃ r l e f o ph ed ij, t = { s with
    regs := r, nv := { s.nv with log := l }, isl := { s.isl with rises := e }, fresh := f, out := o, phy := ph, edl := ed, inj := ij }

theorem Sending.refl (s : State) : Sending s s := ⟨s.regs, s.nv.log, s.isl.rises, s.fresh, s.out, s.phy, s.edl, s.inj, rfl⟩

theorem Sending.trans (h : Sending s t) (g : Sending t u) : Sending s u := by
  obtain ⟨_, _, _, _, _, _, _, _, rfl⟩ := h
  obtain ⟨r, l, e, f, o, ph, ed, ij, rfl⟩ := g
  exact ⟨r, l, e, f, o, ph, ed, ij, rfl⟩

theorem OnlyRegs.sending (h : OnlyRegs s t) : Sending s t := by
  obtain ⟨r, l, e, rfl⟩ := h
  exact ⟨r, l, e, s.fresh, s.out, s.phy, s.edl, s.inj, rfl⟩

theorem Sending.each {α : Type} (s : State) (l : List α) (f : α → State → State) (h : ∀ x t, Sending t (f x t)) :
    Sending s (s.each l f) :=
  State.each_induct (Sending s) l f (fun x t ht => ht.trans (h x t)) s (Sending.refl s)

theorem Sending.ite {c : Prop} [Decidable c] (ht : Sending s t) (hu : Sending s u) : Sending s (if c then t else u) := by
  split
  exacts [ht, hu]

theorem Sending.zon_eq (h : Sending s t) : t.zon = s.zon := by obtain ⟨_, _, _, _, _, _, _, _, rfl⟩ := h; rfl
theorem Sending.act_eq (h : Sending s t) : t.act = s.act := by obtain ⟨_, _, _, _, _, _, _, _, rfl⟩ := h; rfl
theorem Sending.now_eq (h : Sending s t) : t.now = s.now := by obtain ⟨_, _, _, _, _, _, _, _, rfl⟩ := h; rfl
theorem Sending.tim_eq (h : Sending s t) : t.tim = s.tim := by obtain ⟨_, _, _, _, _, _, _, _, rfl⟩ := h; rfl
theorem Sending.steady (h : Sending s t) : Steady s t := by
  obtain ⟨_, _, _, _, _, _, _, _, rfl⟩ := h; exact ⟨Nat.le_refl _, rfl, rfl⟩

section
variable (s : State) (p k n : Nat) (l : List Byte)

theorem State.phy_sending (c : PhyState) : Sending s { s with phy := c } := ⟨_, _, _, _, _, _, _, _, rfl⟩
theorem State.edl_sending (c : EdlState) : Sending s { s with edl := c } := ⟨_, _, _, _, _, _, _, _, rfl⟩
theorem State.inj_sending (c : PerturbState) : Sending s { s with inj := c } := ⟨_, _, _, _, _, _, _, _, rfl⟩
theorem State.used_sending : Sending s s.used := ⟨_, _, _, _, _, _, _, _, rfl⟩
theorem State.emit_sending (o : OutKind) (d : Nat) (x : List Nat) : Sending s (s.emit o d x) := ⟨_, _, _, _, _, _, _, _, rfl⟩
theorem State.setEdlPort_sending (x : EdlPort) : Sending s (s.setEdlPort p x) := s.edl_sending _
theorem State.setLane_sending (x : Lane) : Sending s (s.setLane p x) := s.phy_sending _
theorem State.put_sending (x : Fld) : Sending s (s.put x n) := (s.put_onlyRegs x n).sending
theorem State.bump_sending : Sending s (s.bump n) := (s.bump_onlyRegs n).sending

theorem State.bumpIf_sending (c : Bool) : Sending s (s.bumpIf c n) := by
  unfold State.bumpIf
  exact Sending.ite (s.bump_sending n) (Sending.refl s)

theorem State.edlSend_sending (hdr payload : Nat) : Sending s (s.edlSend p hdr payload) := by
  unfold State.edlSend
  dsimp only
  exact Sending.ite (Sending.refl s) ((s.setLane_sending ..).trans (State.emit_sending ..))

theorem State.casSend_sending (hdr payload : Nat) : Sending s (s.casSend k hdr payload) := by
  unfold State.casSend
  dsimp only
  exact Sending.ite (Sending.refl s) (Sending.ite ((s.setLane_sending ..).trans (State.emit_sending ..)) (s.emit_sending ..))

theorem State.casControl_sending (ctype : Nat) : Sending s (s.casControl k ctype l) := s.casSend_sending ..

theorem State.casData_sending : Sending s (s.casData k l) := Sending.each s _ _ fun _ t => t.casSend_sending ..

/-! A port's blocks (R295). -/

theorem State.portBlock_sending (at' : Nat) (i : EdlItem) (x : EdlPort) : Sending s (s.portBlock p at' i x) := by
  unfold State.portBlock
  split
  · exact s.setEdlPort_sending ..
  · exact (s.setEdlPort_sending ..).trans (State.edlSend_sending ..)

end

theorem State.portRun_sending (p floor : Nat) (go : EdlPort → Nat → Bool) :
    ∀ (n : Nat) (s : State), Sending s (s.portRun p floor go n)
  | 0, s => Sending.refl s
  | n + 1, s => by
    unfold State.portRun
    dsimp only
    split
    · split
      · exact Sending.refl s
      · exact (s.portBlock_sending ..).trans (State.portRun_sending p floor go n _)
    · exact Sending.refl s

section
variable (s : State) (p : Nat)

theorem State.portDrain_sending : Sending s (s.portDrain p) := State.portRun_sending ..

theorem State.portPush_sending (i : EdlItem) : Sending s (s.portPush p i) :=
  ((s.portDrain_sending p).trans (State.setEdlPort_sending ..)).trans (State.portRun_sending ..)

theorem State.injSpent_sending (c : PerturbState) (n : Nat) (x : Fld) :
    Sending s (if n = 0 then ({ s with inj := c } : State).put x 0 else { s with inj := c }).injected :=
  (Sending.ite ((s.inj_sending c).trans (State.put_sending ..)) (s.inj_sending c)).trans (State.bump_sending ..)

theorem State.injCrc_sending (k : Nat) : Sending s (s.injCrc k).2 := by
  unfold State.injCrc
  split
  · exact s.injSpent_sending ..
  · exact Sending.refl s

theorem State.packetBlocks_sending (body : Nat) (l : List Byte) : Sending s (s.packetBlocks body l).1 := by
  unfold State.packetBlocks
  have h := s.injCrc_sending 1
  generalize s.injCrc 1 = e at h ⊢
  obtain ⟨hurt, v⟩ := e
  exact h.trans (Sending.ite v.used_sending (Sending.refl v))

/-! Level packets and seams (R278, R283, R475). -/

theorem State.levelPacket_sending (pid row : Nat) (unaddr rep : Bool) (l : List (Nat × Nat)) (key : Nat) (limit : Option Nat) :
    Sending s (s.levelPacket p pid row unaddr rep l key limit).1 := by
  unfold State.levelPacket
  have hdrain := s.portDrain_sending p
  generalize s.portDrain p = v at hdrain ⊢
  dsimp only
  split
  · exact hdrain
  · have hblocks := v.packetBlocks_sending
    generalize v.packetBlocks = e at hblocks ⊢
    exact (hdrain.trans (hblocks ..)).trans (State.portPush_sending ..)

theorem State.edlLevels_sending (r : Nat) : Sending s (s.edlLevels r) := by
  unfold State.edlLevels
  refine Sending.each s _ _ fun p t => Sending.ite (Sending.refl t) (Sending.each t _ _ fun e v => ?_)
  have h := v.levelPacket_sending p
  generalize v.levelPacket = g at h ⊢
  refine Sending.ite (Sending.refl v) ?_
  extract_lets l at'
  clear_value l at'
  generalize at' - 1000 * ticksPerNs = limit
  have hsent := h e.pid r false (v.tim.shows != 0) l at' (some limit)
  generalize g p e.pid r false (v.tim.shows != 0) l at' (some limit) = x at hsent ⊢
  obtain ⟨w, sent⟩ := x
  exact hsent.trans (w.bumpIf_sending ..)

theorem State.seamSend_sending (k kind line first count : Nat) (l : List Byte) : Sending s (s.seamSend k kind line first count l) := by
  unfold State.seamSend
  exact Sending.ite ((s.casControl_sending ..).trans (State.casData_sending ..)) (Sending.refl s)

theorem State.seamZones_sending (r : Nat) : Sending s (s.seamZones r) := by
  unfold State.seamZones
  refine Sending.ite (Sending.refl s) ?_
  dsimp only
  refine Sending.trans ?_ (Sending.ite (State.seamSend_sending ..) (Sending.refl _))
  refine Sending.trans ?_ (Sending.ite (State.seamSend_sending ..) (Sending.refl _))
  exact (s.seamSend_sending ..).trans (State.seamSend_sending ..)

end

end Sys2Proof.Machine
end

section
/-! PROOFS. Zone needs and the solve of a zone row (R128, R129, R166 to R169). -/

namespace Sys2Proof.Machine

variable {s t : State}

/-! Samples between +0 and 1.0, ordered as their bits (R127). -/

theorem toNat_maxS (a b : Sample) : (maxS a b).toNat = max a.toNat b.toNat := by
  unfold maxS
  split <;> omega

theorem toNat_minS (a b : Sample) : (minS a b).toNat = min a.toNat b.toNat := by
  unfold minS
  split <;> omega

/-! Bins and needs (R128, R129). -/

theorem binOf_of_le {y : Sample} (h : y.toNat ≤ 0x3C00) : binOf y = y.toNat / 2 ^ 10 ∧ binOf y ≤ 15 := by
  unfold binOf
  omega

theorem sum_mapIdx_count (l : List Nat) (k : Nat) (h : k < l.length) :
    (l.mapIdx (fun i c => if i = k then c + 1 else c)).sum = l.sum + 1 := by
  induction l generalizing k with
  | nil => exact absurd h (Nat.not_lt_zero k)
  | cons x xs ih =>
    rw [List.mapIdx_cons, List.sum_cons, List.sum_cons]
    cases k with
    | zero =>
      have hrest : xs.mapIdx (fun i c => if i + 1 = 0 then c + 1 else c) = xs := by
        simp only [Nat.succ_ne_zero, if_false]
        exact List.mapIdx_eq_iff.mpr fun i => by simp
      rw [hrest, if_pos rfl]
      omega
    | succ k =>
      simp only [Nat.add_right_cancel_iff]
      rw [ih k (Nat.lt_of_succ_lt_succ h), if_neg (Nat.succ_ne_zero k).symm]
      omega

theorem fracAct_zero : fracAct 0 = 0 := by decide

theorem round16_mul_zero (x : Frac) : (round16 (Frac.mul (val16 0) x)).toNat = 0 := by
  have hzero : val16 0 = ⟨0, 2 ^ 24⟩ := by decide
  have hnum : (Frac.mul (val16 0) x).num = 0 := by rw [hzero]; exact Int.zero_mul _
  unfold round16
  rw [hnum, if_neg (by decide)]
  unfold mag16
  simp

theorem zoneNeed_toNat (a : ZoneAcc) (pct : Nat) (frac : Sample) :
    ∃ q : Sample, (zoneNeed a pct frac).toNat
      = max (min q.toNat a.ymax.toNat) (round16 (Frac.mul (val16 (fracAct frac)) (val16 a.ymax))).toNat := by
  unfold zoneNeed
  generalize findBin a.hist (max 1 ((a.n * pct + 255) / 256)) 0 0 = e
  obtain ⟨b, c⟩ := e
  dsimp only
  rw [toNat_maxS, toNat_minS]
  exact ⟨_, rfl⟩

theorem zoneNeedBounds : Rules.ZoneNeedBounds := by
  unfold Rules.ZoneNeedBounds
  refine ⟨fun y => binOf_of_le, fun a y hlen hy => ⟨rfl, ?_, ?_, toNat_maxS _ _⟩, fun a pct frac => ?_, fun a pct => ?_⟩
  · exact sum_mapIdx_count a.hist (binOf y) (by have := (binOf_of_le hy).2; omega)
  · exact List.length_mapIdx.trans hlen
  · obtain ⟨q, hq⟩ := zoneNeed_toNat a pct frac
    omega
  · obtain ⟨q, hq⟩ := zoneNeed_toNat a pct 0
    rw [fracAct_zero, round16_mul_zero] at hq
    omega

/-! The level of a zone (R169). -/

theorem State.lMin_le (s : State) : s.lMin.toNat ≤ 0x3400 := by
  unfold State.lMin
  dsimp only
  split
  · decide
  · split
    · decide
    · omega

theorem State.lMin_congr (h : t.act = s.act) : t.lMin = s.lMin := by
  have hlow : t.lowA Reg.ZONE_L_MIN = s.lowA Reg.ZONE_L_MIN := by rw [State.lowA, State.rdA, h, State.lowA, State.rdA]
  unfold State.lMin
  rw [hlow]

/-- Whether B36 serves PIX, which no count of ZONE changes. -/
theorem State.bankFor_bump {a : Nat} (h : a = Reg.ZONE_RATE_LIM ∨ a = Reg.ZONE_CLAMP_HI) :
    (s.bump a).bankFor 36 ownPix = s.bankFor 36 ownPix := by
  have hkeep : ∀ x : Fld, x.addr ≠ 0x50094 → x.addr ≠ 0x50098 → x.addr ≠ Reg.HDR_IRQ_RAW (hdrPage 0x50) →
      (s.bump a).fld x = s.fld x := fun x h1 h2 h3 => by
    obtain rfl | rfl := h
    · exact State.fld_bump_other ⟨h1.symm, h3.symm⟩
    · exact State.fld_bump_other ⟨h2.symm, h3.symm⟩
  simp only [State.bankFor, State.bankOn, State.domOn, State.bankOwner, State.flag,
    hkeep (Reg.PWR_DOM_STATE_CUR (47 + 36)) (by decide) (by decide) (by decide),
    hkeep (Reg.PWR_DOM_STATE_BUSY (47 + 36)) (by decide) (by decide) (by decide),
    hkeep (Reg.BANKS_OWN_ACTIVE 36) (by decide) (by decide) (by decide),
    hkeep (Reg.BANKS_OWN_PENDING 36) (by decide) (by decide) (by decide)]

theorem State.bankFor_bumpIf {a : Nat} {c : Bool} (h : a = Reg.ZONE_RATE_LIM ∨ a = Reg.ZONE_CLAMP_HI) :
    (s.bumpIf c a).bankFor 36 ownPix = s.bankFor 36 ownPix := by
  unfold State.bumpIf
  split
  · exact State.bankFor_bump h
  · rfl

/-- What the solve of a zone keeps: all but registers and this frame's levels. -/
structure Leveling (s t : State) : Prop where
  zon : t.zon = { s.zon with cur := t.zon.cur }
  act : t.act = s.act
  bank : t.bankFor 36 ownPix = s.bankFor 36 ownPix
  steady : Steady s t

theorem Leveling.refl (s : State) : Leveling s s := ⟨rfl, rfl, rfl, Steady.refl s⟩

theorem Leveling.trans {u : State} (h : Leveling s t) (g : Leveling t u) : Leveling s u :=
  ⟨by rw [g.zon, h.zon], g.act.trans h.act, g.bank.trans h.bank, h.steady.trans g.steady⟩

/-- A level within its bounds (R169). -/
def State.LevelWithin (s : State) (l : ZoneLevel) : Prop := s.lMin.toNat ≤ l.delta.toNat ∧ l.delta.toNat ≤ 0x3C00

theorem State.level_within (s : State) (p d4 lam d : Sample) : s.LevelWithin ⟨p, d4, lam, minS oneS (maxS s.lMin d)⟩ := by
  have hmin := s.lMin_le
  have hone : oneS.toNat = 0x3C00 := rfl
  unfold State.LevelWithin
  dsimp only
  rw [toNat_minS, toNat_maxS, hone]
  omega

theorem State.withLevels_leveling (s : State) (c : Cells ZoneLevel) : Leveling s { s with zon := { s.zon with cur := c } } :=
  ⟨rfl, rfl, rfl, ⟨Nat.le_refl _, rfl, rfl⟩⟩

theorem State.bumpIf_leveling {a : Nat} (c : Bool) (h : a = Reg.ZONE_RATE_LIM ∨ a = Reg.ZONE_CLAMP_HI) : Leveling s (s.bumpIf c a) := by
  have hsend : Sending s (s.bumpIf c a) := s.bumpIf_sending a c
  exact ⟨by rw [hsend.zon_eq], hsend.act_eq, State.bankFor_bumpIf h, hsend.steady⟩

/-- The level of a zone, beside what it counts: where B36 serves PIX the zone takes a level within the bounds, and no other
zone changes. -/
theorem State.level_leveling (s : State) (z : Nat) (l : Sample) : Leveling s (s.level z l) ∧
    (∀ y, y ≠ z → levelAt (s.level z l).zon.cur y = levelAt s.zon.cur y) ∧
    (s.bankFor 36 ownPix = true → s.LevelWithin (levelAt (s.level z l).zon.cur z)) := by
  unfold State.level
  extract_lets p g d4 d delta lam u
  have hu : Leveling s u := (State.bumpIf_leveling _ (.inl rfl)).trans (State.bumpIf_leveling _ (.inr rfl))
  have hzon : u.zon = s.zon := ((s.bumpIf_sending _ _).trans (State.bumpIf_sending _ _ _)).zon_eq
  have hwithin : s.LevelWithin ⟨p, d4, lam, delta⟩ := s.level_within p d4 lam d
  clear_value u delta lam
  split
  next hbank =>
    refine ⟨hu.trans (u.withLevels_leveling _), fun y hy => ?_, fun _ => ?_⟩
    · rw [levelAt, levelAt, Cells.get_set_other _ _ _ _ _ hy.symm, hzon]
    · rw [levelAt, Cells.get_set_self]
      exact hwithin
  next hbank =>
    refine ⟨hu, fun y _ => by rw [hzon], fun h => absurd (hu.bank.trans h) hbank⟩

/-- The levels of a row, zone by zone from its first (R167): the zones solved so far stand within the bounds, the others
as they were. -/
theorem State.levels_leveling (s : State) (first : Nat) (l : Nat → Sample) (n : Nat) :
    Leveling s (s.each (List.range n) (fun j t => t.level (first + j) (l j))) ∧
    (∀ y, (∀ j, j < n → y ≠ first + j) →
      levelAt (s.each (List.range n) (fun j t => t.level (first + j) (l j))).zon.cur y = levelAt s.zon.cur y) ∧
    (s.bankFor 36 ownPix = true → ∀ j, j < n →
      s.LevelWithin (levelAt (s.each (List.range n) (fun j t => t.level (first + j) (l j))).zon.cur (first + j))) := by
  induction n with
  | zero => exact ⟨Leveling.refl s, fun _ _ => rfl, fun _ j hj => absurd hj (Nat.not_lt_zero j)⟩
  | succ n ih =>
    have hsplit : s.each (List.range (n + 1)) (fun j t => t.level (first + j) (l j))
        = (s.each (List.range n) (fun j t => t.level (first + j) (l j))).level (first + n) (l n) := by
      simp only [State.each, List.range_succ, List.foldl_append, List.foldl_cons, List.foldl_nil]
    rw [hsplit]
    generalize s.each (List.range n) (fun j t => t.level (first + j) (l j)) = v at ih ⊢
    obtain ⟨hlev, hothers, hrow⟩ := ih
    obtain ⟨hlast, hkeep, hlevel⟩ := v.level_leveling (first + n) (l n)
    have hmin : v.lMin = s.lMin := State.lMin_congr hlev.act
    refine ⟨hlev.trans hlast, fun y hy => ?_, fun hbank j hj => ?_⟩
    · rw [hkeep y (hy n (Nat.lt_succ_self n)), hothers y fun j hj => hy j (Nat.lt_succ_of_lt hj)]
    · by_cases hjn : j = n
      · subst hjn
        have h := hlevel (hlev.bank.trans hbank)
        rwa [State.LevelWithin, hmin] at h
      · rw [hkeep _ (by omega)]
        exact hrow hbank j (by omega)

/-- The next row is solved (R167): what a solve leaves. -/
structure RowSolved (s t : State) : Prop where
  solved : t.zon.solved = s.zon.solved + 1
  others : ∀ z, z / s.zoneCols ≠ s.zon.solved → levelAt t.zon.cur z = levelAt s.zon.cur z
  row : s.bankFor 36 ownPix = true → ∀ z, z / s.zoneCols = s.zon.solved → s.LevelWithin (levelAt t.zon.cur z)
  hist : t.zon.hist = s.zon.hist
  gains : t.zon.gains = s.zon.gains

theorem RowSolved.of_zon {u : State} (h : RowSolved s t) (g : u.zon = t.zon) : RowSolved s u := by
  obtain ⟨hsolved, hothers, hrow, hhist, hgains⟩ := h
  rw [← g] at hsolved hothers hrow hhist hgains
  exact ⟨hsolved, hothers, hrow, hhist, hgains⟩

theorem State.zoneCols_pos (h : s.zon.solved < s.zoneRows) : 0 < s.zoneCols := by
  unfold State.zoneRows at h
  split at h <;> omega

theorem State.solveRow_solved (h : s.zon.solved < s.zoneRows) : RowSolved s s.solveRow ∧ Steady s s.solveRow := by
  have hcols := State.zoneCols_pos h
  unfold State.solveRow
  dsimp only
  rw [if_neg (by omega)]
  generalize s.iterRow _ _ _ = l
  obtain ⟨hlev, hothers, hrow⟩ := s.levels_leveling (s.zon.solved * s.zoneCols) (fun j => l.getD j 0) s.zoneCols
  generalize s.each _ _ = v at hlev hothers hrow
  have hsteady : Steady v { v with zon := { v.zon with solved := s.zon.solved + 1 } } := ⟨Nat.le_refl _, rfl, rfl⟩
  refine ⟨⟨rfl, fun z hz => hothers z fun j hj heq => hz ?_, fun hbank z hz => ?_, ?_, ?_⟩, hlev.steady.trans hsteady⟩
  · rw [heq, Nat.add_comm, Nat.add_mul_div_right j _ hcols, Nat.div_eq_of_lt hj, Nat.zero_add]
  · have hpart := hrow hbank (z % s.zoneCols) (Nat.mod_lt z hcols)
    rwa [← hz, Nat.div_add_mod'] at hpart
  · exact (congrArg ZoneState.hist hlev.zon :)
  · exact (congrArg ZoneState.gains hlev.zon :)

theorem State.solveSeam_eq (h : s.zon.solved < s.zoneRows) :
    s.solveSeam = (s.solveRow.edlLevels s.zon.solved).seamZones s.zon.solved := by
  have hmore : ¬ s.zoneRows ≤ s.zon.solved := by omega
  unfold State.solveSeam State.solveAndSend
  dsimp only
  rw [if_neg hmore, if_neg hmore]

/-- Settles O30: the needs' bounds from the order of the samples' bits; the solve of a row level by level, its levels and
seams being sent without touching them. -/
theorem zoneRowsSolve : Obligations.ZoneRowsSolve := by
  refine ⟨zoneNeedBounds, fun s hlive hrun hmore hmay => ?_⟩
  obtain ⟨hsolved, hsteady⟩ := State.solveRow_solved hmore
  have hsend := (s.solveRow.edlLevels_sending s.zon.solved).trans (State.seamZones_sending _ s.zon.solved)
  have hnext : s.solveNext = (s.solveRow.edlLevels s.zon.solved).seamZones s.zon.solved := by
    rw [State.solveNext, hrun, hmay, decide_eq_true hmore]
    exact State.solveSeam_eq hmore
  have hrun : exec .zoneRowSolve s = .next s.solveNext :=
    s.unheld_steady _ hlive (hnext ▸ hsteady.trans hsend.steady)
  rw [hnext] at hrun
  obtain ⟨hq, hothers, hrow, hhist, hgains⟩ := hsolved.of_zon hsend.zon_eq
  exact ⟨_, hrun, hq, hothers, hrow, hhist, hgains⟩

end Sys2Proof.Machine
end

section
/-! PROOFS. A wake from RET restores the words of a slot as it stands (R416, R417): a statement of every state meets slots
that name words of PWR itself. -/

namespace Sys2Proof.Machine

/-- The machine after reset, but that D45 is on its wake from RET and its slot names a word of PWR: PENDING of D45, at RET. -/
def wakingOddly : State :=
  { (State.reset.put (Reg.PWR_DOM_STATE_CUR 45) domStRET).put (Reg.PWR_DOM_STATE_BUSY 45) 1 with
    pwr := { PwrState.atReset with
      trans := [⟨45, domStON, 2, false⟩]
      slots := [⟨45, [((Reg.PWR_DOM_STATE_PENDING 45).addr, (Reg.PWR_DOM_STATE_PENDING 45).put 0 domStRET)], [], 0⟩] } }

/-- Whether a domain is in a transition at the end of a command. -/
def Result.busy (n : Nat) : Result → Bool
  | .next t => t.domBusy n
  | _ => false

theorem wakingOddly_needs : ∀ d, d ∈ domNeeds 45 → wakingOddly.domOn d = true := by decide

/-- The restored PENDING is served at once: D45 starts for RET again. -/
theorem wakingOddly_busy : Result.busy 45 (exec (.domainTransitionDone 45 false) wakingOddly) = true := by decide

/-- Refutes O51: a wake that nothing waits for ends with BUSY set, where the slot restored holds a target in PENDING. -/
theorem not_domainsMove : ¬ Obligations.DomainsMove := by
  rintro ⟨-, hmove⟩
  obtain ⟨-, -, -, hwake⟩ := hmove wakingOddly 45 false (by decide) (by decide) (by decide) (by decide)
  obtain ⟨t, ht, -, hbusy, -⟩ := (hwake false (by decide)).2 wakingOddly_needs (by decide)
  have h : Result.busy 45 (.next t) = true := ht ▸ wakingOddly_busy
  exact absurd (h.symm.trans hbusy) (by decide)

end Sys2Proof.Machine
end

section
/-! PROOFS. The record operations of NVC (R434, R438, R439, R441, R443, R448). -/

namespace Sys2Proof.Machine

variable {s t : State} {a n code : Nat}

/-! Runs of cells. -/

theorem Cells.get_setRun {α : Type} [DecidableEq α] {d : Nat → α} {j : Nat} {e : α} :
    ∀ (l : List α) (m : Cells α) (k : Nat),
      Cells.get d (Cells.setRun d m k l) j = if k ≤ j ∧ j < k + l.length then l.getD (j - k) e else Cells.get d m j
  | [], m, k => by rw [Cells.setRun, if_neg (by simp)]
  | v :: vs, m, k => by
    rw [Cells.setRun, Cells.get_setRun vs, List.length_cons]
    by_cases hj : k = j
    · subst hj
      rw [if_neg (by omega), if_pos (by omega), Cells.get_set_self, Nat.sub_self, List.getD_cons_zero]
    · rw [Cells.get_set_other _ _ _ _ _ hj]
      by_cases hin : k + 1 ≤ j ∧ j < k + 1 + vs.length
      · obtain ⟨i, rfl⟩ : ∃ i, j = k + 1 + i := ⟨j - (k + 1), by omega⟩
        rw [if_pos hin, if_pos (by omega), show k + 1 + i - (k + 1) = i by omega, show k + 1 + i - k = i + 1 by omega,
          List.getD_cons_succ]
      · rw [if_neg hin, if_neg (by omega)]

/-- The buffer holds what was put into it (R443). -/
theorem State.bufRd_bufPut {l : List Byte} (hlen : l.length ≤ 4096) : (s.bufPut l).bufRd l.length = l := by
  refine List.ext_getElem (by simp [State.bufRd]) fun i hi hl => ?_
  have hmod : i % 4096 = i := Nat.mod_eq_of_lt (by omega)
  simp only [State.bufRd, State.bufPut, List.getElem_map, List.getElem_range, hmod]
  rw [Cells.get_setRun (e := 0), if_pos (by omega), Nat.sub_zero, List.getD_eq_getElem _ _ hl]

theorem OnlyRegs.bufRd_eq (h : OnlyRegs s t) (n : Nat) : t.bufRd n = s.bufRd n := by obtain ⟨_, _, _, rfl⟩ := h; rfl

theorem State.recData_length (s : State) (base : Nat) (r : NvRec) : (s.recData base r).length = r.len := by
  simp [State.recData, State.flashRd]

/-! An operation that ends at once. -/

/-- A record operation ends with a code, and NVC is not busy. -/
def State.recOver (s : State) (code : Nat) : State :=
  ((((((s.put Reg.NV_REC_STATUS_BUSY 0).put Reg.NV_REC_STATUS_DONE 1).put Reg.NV_REC_STATUS_CODE code).raise 6 1).put
    Reg.NV_STATUS_BUSY 0).put Reg.NV_STATUS_RENUMBER 0)

theorem State.recOver_onlyRegs (s : State) (code : Nat) : OnlyRegs s (s.recOver code) :=
  (((((s.put_onlyRegs _ _).trans (State.put_onlyRegs _ _ _)).trans (State.put_onlyRegs _ _ _)).trans
    (State.raise_onlyRegs _ _ _)).trans (State.put_onlyRegs _ _ _)).trans (State.put_onlyRegs _ _ _)

theorem OnlyRegs.nv_eq (h : OnlyRegs s t) : t.nv = { s.nv with log := t.nv.log } := by obtain ⟨_, _, _, rfl⟩ := h; rfl

theorem OnlyRegs.nvKept (h : OnlyRegs s t) : nvKept s t := h.nv_eq

theorem State.recOver_rd_other
    (h : Reg.NV_REC_STATUS ≠ a ∧ Reg.HDR_IRQ_RAW (hdrPage 6) ≠ a ∧ Reg.NV_STATUS_BUSY.addr ≠ a) : (s.recOver code).rd a = s.rd a := by
  obtain ⟨hrec, hraw, hstatus⟩ := h
  rw [State.recOver, State.rd_put_other (x := Reg.NV_STATUS_RENUMBER) hstatus, State.rd_put_other hstatus,
    State.raise_rd_other _ _ _ _ hraw, State.rd_put_other (x := Reg.NV_REC_STATUS_CODE) hrec,
    State.rd_put_other (x := Reg.NV_REC_STATUS_DONE) hrec, State.rd_put_other (x := Reg.NV_REC_STATUS_BUSY) hrec]

theorem State.recOver_full : (s.recOver code).fld Reg.NV_STATUS_FULL = s.fld Reg.NV_STATUS_FULL := by
  rw [State.recOver, State.fld_put_apart (by decide), State.fld_put_apart (by decide), State.fld_raise_other (by decide),
    State.fld_put_apart (by decide), State.fld_put_apart (by decide), State.fld_put_apart (by decide)]

theorem State.recOver_ended (hgate : s.gateClosed 6 = false) (hcode : code < 16) : recEnded (s.recOver code) code := by
  have hkeep : ∀ u : State, u.gateClosed 6 = false → (u.raise 6 1).fld ⟨Reg.HDR_IRQ_RAW 6, 1, 1⟩ = 1 :=
    fun u hu => u.fld_raise_self hu (by decide)
  unfold recEnded raised State.recOver
  refine ⟨?_, ?_, ?_, ?_⟩
  · rw [State.fld_put_apart (by decide), State.fld_put_apart (by decide), State.fld_raise_other (by decide),
      State.fld_put_apart (by decide), State.fld_put_apart (by decide)]
    exact State.fld_put_mod (x := Reg.NV_REC_STATUS_BUSY) (by decide)
  · rw [State.fld_put_apart (by decide), State.fld_put_apart (by decide), State.fld_raise_other (by decide),
      State.fld_put_apart (by decide)]
    exact State.fld_put_mod (x := Reg.NV_REC_STATUS_DONE) (by decide)
  · rw [State.fld_put_apart (by decide), State.fld_put_apart (by decide), State.fld_raise_other (by decide)]
    exact (State.fld_put_mod (x := Reg.NV_REC_STATUS_CODE) (by decide)).trans (Nat.mod_eq_of_lt hcode)
  · rw [State.fld_put_apart (by decide), State.fld_put_apart (by decide)]
    refine hkeep _ ?_
    rw [State.gateClosed_put (by decide), State.gateClosed_put (by decide), State.gateClosed_put (by decide)]
    exact hgate

theorem State.todo_nil (h : s.nv.todo = []) : ({ s with nv := { s.nv with todo := [] } } : State) = s := by rw [← h]

theorem State.flashIssue_idle (h : s.nv.todo = []) : s.flashIssue = s := by rw [State.flashIssue, h]

theorem State.nvRun_idle (h : s.nv.todo = []) :
    s.nvRun (n + 1) = (s.put Reg.NV_STATUS_BUSY 0).put Reg.NV_STATUS_RENUMBER 0 := by
  have htodo : ∀ x m, (s.put x m).nv.todo = [] := fun _ _ => h
  rw [State.nvRun, show s.nvStep = none by rw [State.nvStep, h]]
  simp only [h, htodo, List.isEmpty_nil, Bool.not_true, Bool.false_eq_true, false_and, if_false, if_true, b2n]
  exact State.flashIssue_idle h

theorem State.nvAdd_recEnd (h : s.nv.todo = []) : s.nvAdd [.recEnd code] = s.recOver code := by
  have hend : ({ s with nv := { s.nv with todo := [.recEnd code] } } : State).nvStep =
      some ((((s.put Reg.NV_REC_STATUS_BUSY 0).put Reg.NV_REC_STATUS_DONE 1).put Reg.NV_REC_STATUS_CODE code).raise 6 1) := by
    simp only [State.nvStep, State.todo_nil h]
  have htodo : ∀ u : State, u.nv.todo = [] → (u.raise 6 1).nv.todo = [] := fun u hu => by
    rw [(u.raise_onlyRegs 6 1).nv_eq]; exact hu
  simp only [State.nvAdd, h, State.nvGo, List.isEmpty_nil, if_true, List.nil_append, nvFuel]
  rw [State.nvRun, hend]
  exact State.nvRun_idle (n := 1198) (htodo _ h)

/-! Room for a record (R441). -/

theorem State.nvRoom_congr {l : List Nat} (hact : t.act = s.act) (hrecs : t.nv.recs = s.nv.recs) (hflash : t.nv.flash = s.nv.flash)
    (huse : t.fld Reg.NV_CFG_FREE_MIN = s.fld Reg.NV_CFG_FREE_MIN) : t.nvRoom l = s.nvRoom l := by
  have hfld : ∀ x : Fld, t.fldA x = s.fldA x := fun x => by rw [State.fldA, State.rdA, hact, State.fldA, State.rdA]
  have hdata : t.recData ringBase = s.recData ringBase := by
    funext r; simp only [State.recData, State.flashRd, hflash]
  have hcommit : t.commitOf = s.commitOf := by funext c; simp only [State.commitOf, hdata]
  have hsave : t.saveRecs = s.saveRecs := by funext c; simp only [State.saveRecs, hcommit, hrecs]
  have hgood : t.saveGood = s.saveGood := by funext c; simp only [State.saveGood, hcommit, hsave, hdata]
  have hone : t.liveRec = s.liveRec := by funext l c; simp only [State.liveRec, hrecs, hsave]
  have hlive : t.liveRecs = s.liveRecs := by simp only [State.liveRecs, State.goodSaves, hrecs, hgood, hone]
  have hcols : t.zoneCols = s.zoneCols := hfld _
  have hrows : t.zoneRows = s.zoneRows := by rw [State.zoneRows, hcols, hfld, State.zoneRows]
  have hzones : t.ageZones = s.ageZones := by rw [State.ageZones, State.zoneTotal, hcols, hrows]; rfl
  have hsectors : t.saveSectors = s.saveSectors := by rw [State.saveSectors, State.saveSizes, hzones]; rfl
  have hres : t.nvReserve = s.nvReserve := by rw [State.nvReserve, huse, hsectors, State.nvReserve]
  rw [State.nvRoom, hlive, hres, State.nvRoom]

/-! A record appended at the head. -/

theorem State.emit_fld {k : OutKind} {d : Nat} {l : List Nat} {x : Fld} : (s.emit k d l).fld x = s.fld x := rfl

/-- NVC begins to write a record at the head: the flash operation in front is issued. -/
def State.recWriting (s : State) (a : Nat) (l : List Byte) (rest : List NvStep) (len : Nat) : State :=
  (({ s with nv := { s.nv with todo := .program a l :: rest, headOff := s.nv.headOff + recordSize len, nextSeq := s.nv.nextSeq + 1 } } :
    State).put Reg.NV_STATUS_BUSY 1).emit .flash 1 (a :: l.map (·.toNat))

theorem recordBytes_ne_nil (typ id flags seq : Nat) (data : List Byte) : recordBytes typ id flags seq data ≠ [] := by
  simp [recordBytes]

theorem pagePrograms_cons {l : List Byte} (h : l ≠ []) :
    pagePrograms (n + 1) a l = .program a (l.take (256 - a % 256)) :: pagePrograms n (a + (256 - a % 256)) (l.drop (256 - a % 256)) := by
  rw [pagePrograms, if_neg (by simpa using h)]

/-- The address of the head within its page. -/
theorem head_mod_page (head off : Nat) : (ringBase + 4096 * head + off) % 256 = off % 256 := by
  have : ringBase = 0x1010000 := rfl
  omega

theorem State.nvRun_issued {l : List Byte} {rest : List NvStep} (htodo : s.nv.todo = .program a l :: rest) (hwp : s.nv.wpN = true) :
    s.nvRun (n + 1) = (s.put Reg.NV_STATUS_BUSY 1).emit .flash 1 (a :: l.map (·.toNat)) := by
  have hput : (s.put Reg.NV_STATUS_BUSY 1).nv.todo = .program a l :: rest := htodo
  have hissue : (s.put Reg.NV_STATUS_BUSY 1).flashIssue = (s.put Reg.NV_STATUS_BUSY 1).emit .flash 1 (a :: l.map (·.toNat)) := by
    rw [State.flashIssue, hput]
  rw [State.nvRun, show s.nvStep = none by rw [State.nvStep, htodo]]
  simp only [htodo, hput, hwp, List.isEmpty_cons, Bool.not_false, Bool.not_true, Bool.false_eq_true, and_false, if_false, b2n, if_true]
  exact hissue

/-- The record that a write puts at the head, without a number of its own. -/
theorem State.appendSteps_fresh {r : NvNew} (hseq : r.seq = none) :
    ∃ rest, s.appendSteps r = { s with nv := { s.nv with
      todo := .program (ringBase + 4096 * s.nv.head + s.nv.headOff)
        ((recordBytes r.typ r.id r.flags s.nv.nextSeq r.data).take (256 - s.nv.headOff % 256)) :: (rest ++ s.nv.todo)
      headOff := s.nv.headOff + recordSize r.data.length, nextSeq := s.nv.nextSeq + 1 } } := by
  simp only [State.appendSteps, hseq, Option.getD_none, Option.isNone_none, if_true, State.nvDo]
  rw [pagePrograms_cons (recordBytes_ne_nil r.typ r.id r.flags s.nv.nextSeq r.data), head_mod_page]
  exact ⟨_, rfl⟩

theorem State.nvAdd_append {r : NvNew} (htodo : s.nv.todo = []) (hwp : s.nv.wpN = true) (hseq : r.seq = none)
    (huse : s.nv.inUse ≠ 0) (hfits : s.nv.headOff + recordSize r.data.length ≤ 4096) (hnext : s.nv.nextSeq < 2 ^ 32) :
    ∃ rest, rest.getLast? = some (.recEnd 0) ∧ s.nvAdd [.append r, .reclaim, .recEnd 0] =
      s.recWriting (ringBase + 4096 * s.nv.head + s.nv.headOff)
        ((recordBytes r.typ r.id r.flags s.nv.nextSeq r.data).take (256 - s.nv.headOff % 256)) rest r.data.length := by
  have hhead : ¬ (4096 < s.nv.headOff + recordSize r.data.length ∨ s.nv.inUse = 0) := by omega
  have hfresh : ¬ 0xFFFFFFFF < s.nv.nextSeq := by omega
  obtain ⟨more, hsteps⟩ := State.appendSteps_fresh (s := { s with nv := { s.nv with todo := [.reclaim, .recEnd 0] } }) hseq
  have hstep : ({ s with nv := { s.nv with todo := [.append r, .reclaim, .recEnd 0] } } : State).nvStep =
      some (({ s with nv := { s.nv with todo := [.reclaim, .recEnd 0] } } : State).appendSteps r) := by
    simp only [State.nvStep, if_neg hhead, hseq, Option.isNone_none, true_and, if_neg hfresh]
  refine ⟨more ++ [.reclaim, .recEnd 0], by rw [List.getLast?_append]; rfl, ?_⟩
  simp only [State.nvAdd, htodo, State.nvGo, List.isEmpty_nil, if_true, List.nil_append, nvFuel]
  rw [State.nvRun, hstep, hsteps]
  exact State.nvRun_issued (n := 1198) rfl hwp

/-! What REC_CMD does. -/

theorem State.recCmd_saving {op : Nat} (hop : op ≠ 0) (h : s.nv.saving = true) : s.recCmd op = s.recAborted := by
  rw [State.recCmd, if_neg hop, if_pos h]

theorem State.recCmd_ignored {op : Nat} (hop : op ≠ 0) (hsave : s.nv.saving = false) (h : s.nvIdle = false) : s.recCmd op = s.nvIgnored := by
  rw [State.recCmd, if_neg hop, if_neg (by rw [hsave]; exact Bool.false_ne_true), if_pos (by rw [h]; rfl)]

theorem State.nvIdle_iff : s.nvIdle = true ↔ s.flag Reg.NV_STATUS_READY = true ∧ s.nv.todo = [] ∧ s.nv.saving = false := by
  simp [State.nvIdle, and_assoc]

theorem State.recAborted_ended (hgate : s.gateClosed 6 = false) : recEnded s.recAborted 6 := by
  have hword : ∀ x : Fld, x.addr = Reg.NV_REC_STATUS → s.recAborted.fld x = x.get (BitVec.ofNat 32 (2 + 16 * 6)) := fun x hx => by
    rw [State.recAborted, State.fld_raise_other (by rw [hx]; decide)]
    exact State.fld_wr_self hx.symm
  refine ⟨(hword _ rfl).trans (by decide), (hword _ rfl).trans (by decide), (hword _ rfl).trans (by decide), ?_⟩
  exact State.fld_raise_self ((State.gateClosed_wr (by decide)).trans hgate) (by decide)

theorem State.recAborted_onlyRegs (s : State) : OnlyRegs s s.recAborted := (s.wr_onlyRegs _ _).trans (State.raise_onlyRegs _ _ _)

theorem State.recBegin_fld {x : Fld} (h : Reg.NV_REC_STATUS ≠ x.addr) : s.recBegin.fld x = s.fld x := State.fld_wr_other h

theorem State.recBegin_gate : s.recBegin.gateClosed 6 = s.gateClosed 6 := State.gateClosed_wr (by decide)

theorem State.recBegin_nvRoom (s : State) (l : List Nat) : s.recBegin.nvRoom l = s.nvRoom l :=
  State.nvRoom_congr rfl rfl rfl (State.recBegin_fld (by decide))

/-- The record that READ looks for (R439). -/
def State.recFound (s : State) : Option NvRec :=
  presentOf (if s.flag Reg.NV_REC_KEY_FACTORY then s.nv.factory else s.nv.recs) (s.fld Reg.NV_REC_KEY_TYPE) (s.fld Reg.NV_REC_KEY_ID)

/-- The payload of APPEND and of DELETE (R438). -/
def State.recPayload (s : State) (op : Nat) : List Byte := if op = 1 then s.bufRd (s.fld Reg.NV_REC_LEN_LEN) else []

section
variable {op : Nat} (hidle : s.nvIdle = true)
include hidle

theorem State.recCmd_begun (hop : op ≠ 0) (hread : op ≠ 2) :
    s.recCmd op =
      if s.flag Reg.NV_REC_KEY_FACTORY ∨ (op = 1 ∧ (s.fld Reg.NV_REC_KEY_TYPE < 0x40 ∨ 0xFE < s.fld Reg.NV_REC_KEY_TYPE)) then
        s.recBegin.recOver 5
      else if op = 1 ∧ 4064 < s.fld Reg.NV_REC_LEN_LEN then s.recBegin.recOver 4
      else if s.nv.wpN = false then s.recBegin.wpRefused.recOver 3
      else if s.nvRoom [recordSize (s.recPayload op).length] = false then s.recBegin.setFull.recOver 2
      else s.recBegin.nvAdd [.append ⟨s.fld Reg.NV_REC_KEY_TYPE, s.fld Reg.NV_REC_KEY_ID, if op = 1 then 0 else 2, none, s.recPayload op⟩,
        .reclaim, .recEnd 0] := by
  obtain ⟨-, htodo, hsave⟩ := State.nvIdle_iff.1 hidle
  have hkey : ∀ x : Fld, Reg.NV_REC_STATUS ≠ x.addr → s.recBegin.fld x = s.fld x := fun _ => State.recBegin_fld
  have hfac : s.recBegin.flag Reg.NV_REC_KEY_FACTORY = s.flag Reg.NV_REC_KEY_FACTORY := by
    rw [State.flag, hkey _ (by decide), State.flag]
  have hrefused : s.recBegin.wpRefused.nv.todo = [] := by
    rw [State.wpRefused, (State.bump_onlyRegs _ _).nv_eq]; exact htodo
  have hfull : s.recBegin.setFull.nv.todo = [] := by
    unfold State.setFull
    split
    · exact htodo
    · rw [(State.raise_onlyRegs _ _ _).nv_eq]; exact htodo
  have hwp : s.recBegin.nv.wpN = s.nv.wpN := rfl
  have hbuf : s.recBegin.bufRd = s.bufRd := rfl
  rw [State.recCmd, if_neg hop, if_neg (by rw [hsave]; exact Bool.false_ne_true), if_neg (by rw [hidle]; exact Bool.false_ne_true)]
  simp only [hread, if_false, hkey Reg.NV_REC_KEY_TYPE (by decide), hkey Reg.NV_REC_KEY_ID (by decide),
    hkey Reg.NV_REC_LEN_LEN (by decide), hfac, hwp, hbuf, Bool.not_eq_true', State.recBegin_nvRoom, State.nvAdd_recEnd hrefused,
    State.nvAdd_recEnd hfull, State.nvAdd_recEnd (s := s.recBegin) (code := 5) htodo,
    State.nvAdd_recEnd (s := s.recBegin) (code := 4) htodo, State.recPayload]
  rfl

theorem State.recCmd_read :
    s.recCmd 2 = match s.recFound with
      | none => s.recBegin.recOver 1
      | some r => (((s.recBegin.bufPut (s.recData (if s.flag Reg.NV_REC_KEY_FACTORY then factoryBase else ringBase) r)).wrN
          Reg.NV_REC_LEN r.len).wrN Reg.NV_REC_SEQ r.seq).recOver 0 := by
  obtain ⟨-, htodo, hsave⟩ := State.nvIdle_iff.1 hidle
  have hkey : ∀ x : Fld, Reg.NV_REC_STATUS ≠ x.addr → s.recBegin.fld x = s.fld x := fun _ => State.recBegin_fld
  have hfac : s.recBegin.flag Reg.NV_REC_KEY_FACTORY = s.flag Reg.NV_REC_KEY_FACTORY := by
    rw [State.flag, hkey _ (by decide), State.flag]
  have hfound : presentOf (if s.flag Reg.NV_REC_KEY_FACTORY then s.recBegin.nv.factory else s.recBegin.nv.recs)
      (s.fld Reg.NV_REC_KEY_TYPE) (s.fld Reg.NV_REC_KEY_ID) = s.recFound := rfl
  rw [State.recCmd, if_neg (by decide), if_neg (by rw [hsave]; exact Bool.false_ne_true),
    if_neg (by rw [hidle]; exact Bool.false_ne_true)]
  simp only [if_true, hkey Reg.NV_REC_KEY_TYPE (by decide), hkey Reg.NV_REC_KEY_ID (by decide), hfac, hfound]
  cases s.recFound with
  | none => exact State.nvAdd_recEnd htodo
  | some r => exact State.nvAdd_recEnd htodo

end

/-! The level of NV_WP_N, and the word of the command. -/

theorem State.setWp_fld {wpN : Bool} {x : Fld} (h : Reg.NV_STATUS_WP.addr ≠ x.addr ∨ x.lo + x.w ≤ Reg.NV_STATUS_WP.lo ∨
    Reg.NV_STATUS_WP.lo + Reg.NV_STATUS_WP.w ≤ x.lo) : (s.setWp wpN).fld x = s.fld x := State.fld_put_apart ⟨by decide, h⟩

theorem State.setWp_steady (s : State) (wpN : Bool) : Steady s (s.setWp wpN) :=
  Steady.trans (t := { s with nv := { s.nv with wpN := wpN } }) ⟨Nat.le_refl _, rfl, rfl⟩ (State.put_steady _ _ _)

theorem State.setWp_serves {wpN : Bool} (hs : s.Serves .NV 6) : (s.setWp wpN).Serves .NV 6 where
  live := hs.live
  unit := hs.unit
  unlocked := by rw [State.setWp, State.rd_put_other (by decide)]; exact hs.unlocked
  gate := by rw [State.setWp, State.gateClosed_put (by decide)]; exact hs.gate
  power := by
    rw [State.unitPowered, State.domOn, State.setWp_fld (by decide), State.setWp_fld (by decide)]
    exact hs.power
  clock := rfl

theorem State.setWp_nvIdle {wpN : Bool} : (s.setWp wpN).nvIdle = s.nvIdle := by
  rw [State.nvIdle, State.flag, State.setWp_fld (by decide)]; rfl

theorem State.setWp_nvRoom (s : State) (wpN : Bool) (l : List Nat) : (s.setWp wpN).nvRoom l = s.nvRoom l :=
  State.nvRoom_congr rfl rfl rfl (State.setWp_fld (by decide))

theorem State.setWp_recPayload {wpN : Bool} {op : Nat} : (s.setWp wpN).recPayload op = s.recPayload op := by
  rw [State.recPayload, State.setWp_fld (by decide)]; rfl

theorem State.hostWrite_recCmd {port op : Nat} {w : Word} (hs : s.Serves .NV 6) (hop : op < 4) :
    s.hostWrite port Reg.NV_REC_CMD (Reg.NV_REC_CMD_OP.put w op) = s.recCmd op := by
  have hword : (Reg.NV_REC_CMD_OP.put w op).toNat % 4 = op := by
    have h := Fld.get_put_self Reg.NV_REC_CMD_OP w op (by decide)
    rw [Fld.get, show Reg.NV_REC_CMD_OP.lo = 0 from rfl, Nat.pow_zero, Nat.div_one] at h
    exact h.trans (Nat.mod_eq_of_lt hop)
  rw [State.hostWrite_acts (u := .NV) (a := Reg.NV_REC_CMD) hs (by decide) rfl]
  exact congrArg s.recCmd hword

/-! What the operations leave. -/

theorem State.recBegin_onlyRegs (s : State) : OnlyRegs s s.recBegin := s.wr_onlyRegs _ _

theorem State.recBegun_ended (hgate : s.gateClosed 6 = false) (hcode : code < 16) : recEnded (s.recBegin.recOver code) code :=
  State.recOver_ended (State.recBegin_gate.trans hgate) hcode

theorem State.recProtected_effect (hgate : s.gateClosed 6 = false) :
    recEnded (s.recBegin.wpRefused.recOver 3) 3 ∧ counted s (s.recBegin.wpRefused.recOver 3) Reg.NV_WP_REFUSED 1 := by
  have hopen : s.recBegin.wpRefused.gateClosed 6 = false := by
    rw [State.wpRefused, State.gateClosed_bump (by decide), State.recBegin_gate]; exact hgate
  refine ⟨State.recOver_ended hopen (by decide), ?_⟩
  have hkeep : s.recBegin.rd Reg.NV_WP_REFUSED = s.rd Reg.NV_WP_REFUSED := State.rd_wr_other _ _ _ _ (by decide)
  rw [counted, State.recOver_rd_other (by decide), State.wpRefused, State.rd_bump_toNat (by decide), hkeep]

theorem State.setFull_flag : s.setFull.flag Reg.NV_STATUS_FULL = true := by
  unfold State.setFull
  split
  case isTrue h => exact h
  case isFalse =>
    rw [State.flag_iff, State.fld_raise_other (by decide), State.fld_put_mod (by decide)]
    decide

theorem State.setFull_gate : s.setFull.gateClosed 6 = s.gateClosed 6 := by
  unfold State.setFull
  split
  · rfl
  · rw [State.gateClosed_raise (by decide), State.gateClosed_put (by decide)]

theorem State.recFull_effect (hgate : s.gateClosed 6 = false) :
    recEnded (s.recBegin.setFull.recOver 2) 2 ∧ (s.recBegin.setFull.recOver 2).flag Reg.NV_STATUS_FULL = true := by
  refine ⟨State.recOver_ended (State.setFull_gate.trans (State.recBegin_gate.trans hgate)) (by decide), ?_⟩
  rw [State.flag, State.recOver_full]
  exact State.setFull_flag

theorem State.recWriting_busy {a : Nat} {l : List Byte} {rest : List NvStep} {len : Nat} :
    (s.recBegin.recWriting a l rest len).flag Reg.NV_STATUS_BUSY = true ∧
      (s.recBegin.recWriting a l rest len).fld ⟨Reg.NV_REC_STATUS, 0, 1⟩ = 1 := by
  unfold State.recWriting
  refine ⟨?_, ?_⟩
  · rw [State.flag_iff, State.emit_fld, State.fld_put_mod (by decide)]
    decide
  · rw [State.emit_fld, State.fld_put_apart (by decide), State.fld_nv, State.recBegin, State.wrN]
    exact (State.fld_wr_self rfl).trans (by decide)

/-- READ that finds a record (R443). -/
theorem State.recRead_effect {r : NvRec} (hgate : s.gateClosed 6 = false) (hidle : s.nvIdle = true) (hfound : s.recFound = some r)
    (hlen : r.len ≤ 4064) (hseq : r.seq < 2 ^ 32) :
    recEnded (s.recCmd 2) 0 ∧ ((s.recCmd 2).rd Reg.NV_REC_LEN).toNat = r.len ∧ ((s.recCmd 2).rd Reg.NV_REC_SEQ).toNat = r.seq ∧
      (s.recCmd 2).bufRd r.len = s.recData (if s.flag Reg.NV_REC_KEY_FACTORY then factoryBase else ringBase) r := by
  rw [State.recCmd_read hidle, hfound]
  dsimp only
  generalize hdata : s.recData (if s.flag Reg.NV_REC_KEY_FACTORY then factoryBase else ringBase) r = data
  have hlength : data.length = r.len := by rw [← hdata, State.recData_length]
  refine ⟨State.recOver_ended ?_ (by decide), ?_, ?_, ?_⟩
  · rw [State.wrN, State.gateClosed_wr (by decide), State.wrN, State.gateClosed_wr (by decide)]
    exact State.recBegin_gate.trans hgate
  · rw [State.recOver_rd_other (by decide), State.wrN, State.rd_wr_other _ _ _ _ (by decide), State.wrN, State.rd_wr_self,
      BitVec.toNat_ofNat, Nat.mod_eq_of_lt (by omega)]
  · rw [State.recOver_rd_other (by decide), State.wrN, State.rd_wr_self, BitVec.toNat_ofNat, Nat.mod_eq_of_lt hseq]
  · refine ((State.recOver_onlyRegs _ _).bufRd_eq r.len).trans ?_
    have hput := State.bufRd_bufPut (s := s.recBegin) (l := data) (by omega)
    rw [hlength] at hput
    exact hput

/-! The commands. -/

section
variable {port : Nat} {wpN : Bool} {w : Word} (hs : s.Serves .NV 6)
include hs

theorem exec_nvAppend_left : exec (.nvAppend port wpN w) s = .next (s.left ((s.setWp wpN).recCmd 1)) := by
  rw [exec_nvAppend, State.unheld_live hs.live, State.hostWrite_recCmd (State.setWp_serves hs) (by decide)]

theorem exec_nvDelete_left : exec (.nvDelete port wpN w) s = .next (s.left ((s.setWp wpN).recCmd 3)) := by
  rw [exec_nvDelete, State.unheld_live hs.live, State.hostWrite_recCmd (State.setWp_serves hs) (by decide)]

theorem exec_nvRead_left : exec (.nvRead port w) s = .next (s.left (s.recCmd 2)) := by
  rw [exec_nvRead, State.unheld_live hs.live, State.hostWrite_recCmd hs (by decide)]

end

theorem recEnded_left (h : recEnded t code) : recEnded (s.left t) code := h

theorem nvKept_left {u : State} (h : nvKept u t) : nvKept u (s.left t) := h

/-- APPEND or DELETE, in every case in which nothing goes to the flash (R438, R439, R441). -/
theorem State.recCmd_refused {op : Nat} (hgate : s.gateClosed 6 = false) (hidle : s.nvIdle = true) (hop : op ≠ 0) (hread : op ≠ 2) :
    (s.flag Reg.NV_REC_KEY_FACTORY = true ∨ op = 1 ∧ (s.fld Reg.NV_REC_KEY_TYPE < 0x40 ∨ 0xFE < s.fld Reg.NV_REC_KEY_TYPE) →
      recEnded (s.recCmd op) 5) ∧
    (s.flag Reg.NV_REC_KEY_FACTORY = false → (op = 1 → 0x40 ≤ s.fld Reg.NV_REC_KEY_TYPE ∧ s.fld Reg.NV_REC_KEY_TYPE ≤ 0xFE) →
      (op = 1 ∧ 4064 < s.fld Reg.NV_REC_LEN_LEN → recEnded (s.recCmd op) 4) ∧
      ((op = 1 → s.fld Reg.NV_REC_LEN_LEN ≤ 4064) →
        (s.nv.wpN = false → recEnded (s.recCmd op) 3 ∧ counted s (s.recCmd op) Reg.NV_WP_REFUSED 1) ∧
        (s.nv.wpN = true → s.nvRoom [recordSize (s.recPayload op).length] = false →
          recEnded (s.recCmd op) 2 ∧ (s.recCmd op).flag Reg.NV_STATUS_FULL = true))) := by
  rw [State.recCmd_begun hidle hop hread]
  refine ⟨fun hbar => ?_, fun hfac htyp => ?_⟩
  · rw [if_pos hbar]; exact State.recBegun_ended hgate (by decide)
  have htaken : ¬ (s.flag Reg.NV_REC_KEY_FACTORY = true ∨
      op = 1 ∧ (s.fld Reg.NV_REC_KEY_TYPE < 0x40 ∨ 0xFE < s.fld Reg.NV_REC_KEY_TYPE)) := by
    rw [hfac]
    rintro (h | ⟨h, hout⟩)
    · cases h
    · have := htyp h; omega
  rw [if_neg htaken]
  refine ⟨fun hlong => ?_, fun hshort => ?_⟩
  · rw [if_pos hlong]; exact State.recBegun_ended hgate (by decide)
  rw [if_neg (fun h => by have := hshort h.1; omega)]
  refine ⟨fun hwp => ?_, fun hwp hroom => ?_⟩
  · rw [if_pos hwp]; exact State.recProtected_effect hgate
  · rw [if_neg (by rw [hwp]; decide), if_pos hroom]; exact State.recFull_effect hgate

/-- APPEND or DELETE of a record that finds its place at the head (R438, R440). -/
theorem State.recCmd_appends {op : Nat} (hidle : s.nvIdle = true) (hop : op ≠ 0) (hread : op ≠ 2)
    (hfac : s.flag Reg.NV_REC_KEY_FACTORY = false)
    (hok : op = 1 → 0x40 ≤ s.fld Reg.NV_REC_KEY_TYPE ∧ s.fld Reg.NV_REC_KEY_TYPE ≤ 0xFE ∧ s.fld Reg.NV_REC_LEN_LEN ≤ 4064)
    (hwp : s.nv.wpN = true) (hroom : s.nvRoom [recordSize (s.recPayload op).length] = true) (huse : s.nv.inUse ≠ 0)
    (hfits : s.nv.headOff + recordSize (s.recPayload op).length ≤ 4096) (hnext : s.nv.nextSeq < 2 ^ 32) :
    ∃ rest, rest.getLast? = some (.recEnd 0) ∧ s.recCmd op =
      s.recBegin.recWriting (ringBase + 4096 * s.nv.head + s.nv.headOff)
        ((recordBytes (s.fld Reg.NV_REC_KEY_TYPE) (s.fld Reg.NV_REC_KEY_ID) (if op = 1 then 0 else 2) s.nv.nextSeq
          (s.recPayload op)).take (256 - s.nv.headOff % 256)) rest (s.recPayload op).length := by
  obtain ⟨-, htodo, -⟩ := State.nvIdle_iff.1 hidle
  have htaken : ¬ (s.flag Reg.NV_REC_KEY_FACTORY = true ∨
      op = 1 ∧ (s.fld Reg.NV_REC_KEY_TYPE < 0x40 ∨ 0xFE < s.fld Reg.NV_REC_KEY_TYPE)) := by
    rw [hfac]
    rintro (h | ⟨h, hout⟩)
    · cases h
    · have := hok h; omega
  rw [State.recCmd_begun hidle hop hread, if_neg htaken, if_neg (fun h => by have := hok h.1; omega),
    if_neg (by rw [hwp]; decide), if_neg (by rw [hroom]; decide)]
  exact State.nvAdd_append (s := s.recBegin) htodo hwp rfl huse hfits hnext

theorem State.recPayload_append_length (h : op = 1) : (s.recPayload op).length = s.fld Reg.NV_REC_LEN_LEN := by
  simp [State.recPayload, h, State.bufRd]

theorem State.recWriting_effect {u : State} {l : List Byte} {rest : List NvStep} {len : Nat}
    (h : t = u.recBegin.recWriting a l rest len) :
    t.nv.nextSeq = u.nv.nextSeq + 1 ∧ t.nv.headOff = u.nv.headOff + recordSize len ∧ t.flag Reg.NV_STATUS_BUSY = true ∧
      t.fld ⟨Reg.NV_REC_STATUS, 0, 1⟩ = 1 ∧ t.nv.todo = .program a l :: rest := by
  subst h
  obtain ⟨hbusy, hrec⟩ := State.recWriting_busy (s := u) (a := a) (l := l) (rest := rest) (len := len)
  exact ⟨rfl, rfl, hbusy, hrec, rfl⟩

/-- Settles O54: by what REC_CMD comes to in each of its cases, under the level of NV_WP_N that the command samples. -/
theorem recordsAreKept : Obligations.RecordsAreKept := by
  rintro s u port wpN w typ id len fac hs rfl rfl rfl rfl rfl
  have hu : (s.setWp wpN).Serves .NV 6 := State.setWp_serves hs
  have hidle : (s.setWp wpN).nvIdle = s.nvIdle := State.setWp_nvIdle
  have hsave : (s.setWp wpN).nv.saving = s.nv.saving := rfl
  rw [exec_nvAppend_left hs, exec_nvDelete_left hs, exec_nvRead_left hs]
  refine ⟨fun hbusy hnot => ?_, fun hsaving => ?_, fun hready => ⟨fun hnone => ?_, fun r hfound hlen hseq => ?_, ?_⟩⟩
  · have herr : ∀ v : State, Steady s v → s.left v.nvIgnored = v.err 6 0x10 := fun v hv =>
      State.left_of_steady (hv.trans (v.err_steady _ _))
    rw [State.recCmd_ignored (by decide) (hsave.trans hnot) (hidle.trans hbusy),
      State.recCmd_ignored (by decide) (hsave.trans hnot) (hidle.trans hbusy), State.recCmd_ignored (by decide) hnot hbusy]
    rw [herr _ (s.setWp_steady wpN), herr _ (Steady.refl s)]
    exact ⟨rfl, rfl, rfl⟩
  · rw [State.recCmd_saving (by decide) (hsave.trans hsaving), State.recCmd_saving (by decide) (hsave.trans hsaving),
      State.recCmd_saving (by decide) hsaving]
    exact ⟨_, _, _, rfl, rfl, rfl, State.recAborted_ended hu.gate, State.recAborted_ended hu.gate, State.recAborted_ended hs.gate,
      (State.recAborted_onlyRegs _).nvKept, (State.recAborted_onlyRegs _).nvKept, (State.recAborted_onlyRegs _).nvKept⟩
  · rw [State.recCmd_read hready, State.recFound, hnone]
    exact ⟨_, rfl, State.recBegun_ended hs.gate (by decide), (s.recBegin_onlyRegs.trans (State.recOver_onlyRegs _ _)).nvKept⟩
  · exact ⟨_, rfl, State.recRead_effect hs.gate hready hfound hlen hseq⟩
  have hkey : ∀ x : Fld, Reg.NV_STATUS_WP.addr ≠ x.addr → (s.setWp wpN).fld x = s.fld x := fun x hx => State.setWp_fld (Or.inl hx)
  have htyp := hkey Reg.NV_REC_KEY_TYPE (by decide)
  have hid := hkey Reg.NV_REC_KEY_ID (by decide)
  have hlen := hkey Reg.NV_REC_LEN_LEN (by decide)
  have hfac : (s.setWp wpN).flag Reg.NV_REC_KEY_FACTORY = s.flag Reg.NV_REC_KEY_FACTORY := by
    rw [State.flag, hkey _ (by decide), State.flag]
  have hrefused : (s.setWp wpN).rd Reg.NV_WP_REFUSED = s.rd Reg.NV_WP_REFUSED := State.rd_put_other (by decide)
  have happend := (s.setWp wpN).recCmd_refused (op := 1) hu.gate (hidle.trans hready) (by decide) (by decide)
  have hdelete := (s.setWp wpN).recCmd_refused (op := 3) hu.gate (hidle.trans hready) (by decide) (by decide)
  have happends := (s.setWp wpN).recCmd_appends (op := 1) (hidle.trans hready) (by decide) (by decide)
  have hdeletes := (s.setWp wpN).recCmd_appends (op := 3) (hidle.trans hready) (by decide) (by decide)
  rw [State.setWp_recPayload, State.setWp_nvRoom, htyp, hlen, hfac] at happend hdelete
  rw [State.setWp_recPayload, State.setWp_nvRoom, htyp, hid, hlen, hfac] at happends hdeletes
  obtain ⟨happend5, happend⟩ := happend
  obtain ⟨hdelete5, hdelete⟩ := hdelete
  have hcount : ∀ t : State, counted (s.setWp wpN) t Reg.NV_WP_REFUSED 1 → counted s t Reg.NV_WP_REFUSED 1 := fun t h => by
    rw [counted, ← hrefused]; exact h
  refine ⟨_, _, rfl, rfl, fun hbar => happend5 ?_, fun hfac => hdelete5 (Or.inl hfac), fun hfac hlo hhi => ⟨fun hlong => ?_,
    fun hshort hwp => ?_, fun hshort hwp hroom => ?_, fun hshort hwp hroom huse hfits hnext => ?_⟩, fun hfac hwp => ⟨fun hroom => ?_,
    fun hroom huse hfits hnext => ?_⟩⟩
  · exact hbar.imp id fun h => ⟨rfl, by omega⟩
  · exact (happend hfac fun _ => ⟨hlo, hhi⟩).1 ⟨rfl, hlong⟩
  · obtain ⟨-, happend⟩ := happend hfac fun _ => ⟨hlo, hhi⟩
    obtain ⟨-, hdelete⟩ := hdelete hfac fun h => by cases h
    obtain ⟨ha, hcounted⟩ := (happend fun _ => hshort).1 hwp
    exact ⟨ha, hcount _ hcounted, ((hdelete fun h => by cases h).1 hwp).1⟩
  · obtain ⟨-, happend⟩ := happend hfac fun _ => ⟨hlo, hhi⟩
    exact (happend fun _ => hshort).2 hwp (by rw [State.recPayload_append_length rfl]; exact hroom)
  · obtain ⟨rest, hlast, hrun⟩ := happends hfac (fun _ => ⟨hlo, hhi, hshort⟩) hwp
      (by rw [State.recPayload_append_length rfl]; exact hroom) huse (by rw [State.recPayload_append_length rfl]; exact hfits) hnext
    obtain ⟨hseq, hoff, hbusy, hrec, htodo⟩ := State.recWriting_effect hrun
    rw [State.recPayload_append_length rfl] at hoff
    exact ⟨hseq, hoff, hbusy, hrec, _, rest, htodo, hlast, rfl⟩
  · obtain ⟨-, hdelete⟩ := hdelete hfac fun h => by cases h
    exact (hdelete fun h => by cases h).2 hwp hroom
  · obtain ⟨rest, hlast, hrun⟩ := hdeletes hfac (fun h => by cases h) hwp hroom huse hfits hnext
    obtain ⟨hseq, hoff, -, -, htodo⟩ := State.recWriting_effect hrun
    exact ⟨hseq, hoff, _, rest, htodo, hlast, rfl⟩

end Sys2Proof.Machine
end

section
/-! PROOFS. Wakes of power domains, the alarm, the pads and POWER_ON_MIN (R413, R418, R421, R427, R431). -/

namespace Sys2Proof.Machine

variable {s t u : State} {k m n target : Nat} {inner : Bool} {x : Fld}

/-! Registers of the domains. -/

theorem domState_ne (h : m ≠ n) : Reg.PWR_DOM_STATE m ≠ Reg.PWR_DOM_STATE n := by simp only [Reg.PWR_DOM_STATE]; omega
theorem domReq_ne (h : m ≠ n) : Reg.PWR_DOM_REQ m ≠ Reg.PWR_DOM_REQ n := by simp only [Reg.PWR_DOM_REQ]; omega
theorem domReq_ne_state (m n : Nat) : Reg.PWR_DOM_REQ m ≠ Reg.PWR_DOM_STATE n := by
  simp only [Reg.PWR_DOM_REQ, Reg.PWR_DOM_STATE]; omega
theorem domCnt_ne_state (m n : Nat) : Reg.PWR_DOM_CNT0 m ≠ Reg.PWR_DOM_STATE n := by
  simp only [Reg.PWR_DOM_CNT0, Reg.PWR_DOM_STATE]; omega
theorem domCnt_ne_req (m n : Nat) : Reg.PWR_DOM_CNT0 m ≠ Reg.PWR_DOM_REQ n := by
  simp only [Reg.PWR_DOM_CNT0, Reg.PWR_DOM_REQ]; omega
theorem domCnt_page (hm : m < 95) : Reg.HDR_IRQ_RAW (hdrPage (Reg.PWR_DOM_CNT0 m / 0x1000)) = 0x3010 := by
  have h : Reg.PWR_DOM_CNT0 m / 0x1000 = 3 := by simp only [Reg.PWR_DOM_CNT0]; omega
  rw [h]; rfl

/-! What a wake keeps (R413): the states of domains, what was asked for, and the wakes that have begun. -/

/-- A wake of a domain has begun. -/
def State.Waking (s : State) (n : Nat) : Prop := s.domBusy n = true ∧ ∃ i, s.domTrans n = some ⟨n, 1, 2, i⟩

structure Woken (s t : State) : Prop where
  only : OnlyDomains s t
  pwr : t.pwr = { s.pwr with trans := t.pwr.trans }
  low : ∀ a, a < 0x3100 → a ≠ 0x3010 → t.rd a = s.rd a
  cur : ∀ n, t.domCur n = s.domCur n
  asked : ∀ n, s.fld (Reg.PWR_DOM_REQ_TARGET n) = 1 → t.fld (Reg.PWR_DOM_REQ_TARGET n) = 1
  stays : ∀ n, s.Waking n → t.Waking n
  begins : ∀ n, s.domBusy n = false → t.domBusy n = false ∨ t.Waking n

theorem Woken.refl (s : State) : Woken s s :=
  ⟨OnlyDomains.refl s, rfl, fun _ _ _ => rfl, fun _ => rfl, fun _ h => h, fun _ h => h, fun _ h => Or.inl h⟩

theorem Woken.trans (h : Woken s t) (g : Woken t u) : Woken s u where
  only := h.only.trans g.only
  pwr := by rw [g.pwr, h.pwr]
  low a ha hb := (g.low a ha hb).trans (h.low a ha hb)
  cur n := (g.cur n).trans (h.cur n)
  asked n hn := g.asked n (h.asked n hn)
  stays n hn := g.stays n (h.stays n hn)
  begins n hn := (h.begins n hn).elim (fun hb => g.begins n hb) fun hw => Or.inr (g.stays n hw)

/-- A change of registers that keeps CUR, BUSY and what was asked for. -/
theorem Woken.of_onlyRegs (h : OnlyRegs s t) (low : ∀ a, a < 0x3100 → a ≠ 0x3010 → t.rd a = s.rd a)
    (cur : ∀ n, t.domCur n = s.domCur n) (busy : ∀ n, t.domBusy n = s.domBusy n)
    (asked : ∀ n, s.fld (Reg.PWR_DOM_REQ_TARGET n) = 1 → t.fld (Reg.PWR_DOM_REQ_TARGET n) = 1) : Woken s t where
  only := h.domains
  pwr := by rw [h.pwr_eq]
  low := low
  cur := cur
  asked := asked
  stays n hn := by rw [State.Waking, busy, State.domTrans, h.pwr_eq]; exact hn
  begins n hn := Or.inl ((busy n).trans hn)

theorem State.domCur_pwr (s : State) (p : PwrState) (n : Nat) : ({ s with pwr := p } : State).domCur n = s.domCur n := rfl
theorem State.domBusy_pwr (s : State) (p : PwrState) (n : Nat) : ({ s with pwr := p } : State).domBusy n = s.domBusy n := rfl

theorem State.domCur_put (h : (x.lo + x.w ≤ 32 ∧ (x.addr ≠ Reg.PWR_DOM_STATE n ∨ 2 ≤ x.lo))) {v : Nat} :
    (s.put x v).domCur n = s.domCur n :=
  State.fld_put_apart ⟨h.1, h.2.imp id Or.inl⟩

theorem State.domBusy_put (h : (x.lo + x.w ≤ 32 ∧ (x.addr ≠ Reg.PWR_DOM_STATE n ∨ 5 ≤ x.lo ∨ x.lo + x.w ≤ 4))) {v : Nat} :
    (s.put x v).domBusy n = s.domBusy n :=
  congrArg (· != 0) (State.fld_put_apart ⟨h.1, h.2⟩)

theorem State.put_request_woken (s : State) (m : Nat) : Woken s (s.put (Reg.PWR_DOM_REQ_TARGET m) 1) := by
  refine Woken.of_onlyRegs (s.put_onlyRegs _ _) (fun a ha _ => State.rd_put_other ?_) (fun n => ?_) (fun n => ?_) fun n hn => ?_
  · simp only [Reg.PWR_DOM_REQ_TARGET, Reg.PWR_DOM_REQ]; omega
  · exact State.domCur_put ⟨by simp [Reg.PWR_DOM_REQ_TARGET], Or.inl (domReq_ne_state m n)⟩
  · exact State.domBusy_put ⟨by simp [Reg.PWR_DOM_REQ_TARGET], Or.inl (domReq_ne_state m n)⟩
  · by_cases hmn : m = n
    · subst hmn; exact State.fld_put_mod (by simp [Reg.PWR_DOM_REQ_TARGET])
    · exact (State.fld_put_apart ⟨by simp [Reg.PWR_DOM_REQ_TARGET], Or.inl (domReq_ne hmn)⟩).trans hn

theorem State.put_pending_woken (s : State) (m v : Nat) : Woken s (s.put (Reg.PWR_DOM_STATE_PENDING m) v) := by
  refine Woken.of_onlyRegs (s.put_onlyRegs _ _) (fun a ha _ => State.rd_put_other ?_) (fun n => ?_) (fun n => ?_) fun n hn => ?_
  · simp only [Reg.PWR_DOM_STATE_PENDING, Reg.PWR_DOM_STATE]; omega
  · exact State.domCur_put ⟨by simp [Reg.PWR_DOM_STATE_PENDING], Or.inr (by simp [Reg.PWR_DOM_STATE_PENDING])⟩
  · exact State.domBusy_put ⟨by simp [Reg.PWR_DOM_STATE_PENDING], Or.inr (Or.inr (by simp [Reg.PWR_DOM_STATE_PENDING]))⟩
  · exact (State.fld_put_apart ⟨by simp [Reg.PWR_DOM_STATE_PENDING], Or.inl (domReq_ne_state n m).symm⟩).trans hn

theorem State.domCount_superseded_woken (s : State) (hm : m < 95) : Woken s (s.domCount (Reg.PWR_DOM_CNT0_SUPERSEDED m)) := by
  have hpage := domCnt_page hm
  have hfld : ∀ y : Fld, Reg.PWR_DOM_CNT0 m ≠ y.addr → 0x3010 ≠ y.addr →
      (s.domCount (Reg.PWR_DOM_CNT0_SUPERSEDED m)).fld y = s.fld y :=
    fun y hy hraw => State.fld_bumpBy_other ⟨hy, by rw [← hpage] at hraw; exact hraw⟩
  have hraw : ∀ n, 0x3010 ≠ Reg.PWR_DOM_STATE n := fun n => by simp only [Reg.PWR_DOM_STATE]; omega
  refine Woken.of_onlyRegs (s.bumpBy_onlyRegs _ _) (fun a ha hb => State.bumpBy_rd_other _ _ _ _ ?_ ?_) (fun n => ?_) (fun n => ?_)
    fun n hn => ?_
  · simp only [Reg.PWR_DOM_CNT0_SUPERSEDED, Reg.PWR_DOM_CNT0]; omega
  · exact fun h => hb (h.symm.trans hpage)
  · exact hfld _ (domCnt_ne_state m n) (hraw n)
  · exact congrArg (· != 0) (hfld _ (domCnt_ne_state m n) (hraw n))
  · exact (hfld _ (domCnt_ne_req m n) (by simp only [Reg.PWR_DOM_REQ_TARGET, Reg.PWR_DOM_REQ]; omega)).trans hn

theorem find_map_inner (l : List DomTrans) :
    (l.map fun t => if t.dom = m then { t with inner := inner } else t).find? (fun t => t.dom == n) =
      (l.find? (fun t => t.dom == n)).map fun t => if t.dom = m then { t with inner := inner } else t := by
  have hdom : (fun t : DomTrans => t.dom == n) ∘ (fun t : DomTrans => if t.dom = m then { t with inner := inner } else t) =
      fun t : DomTrans => t.dom == n := by
    funext t; dsimp only [Function.comp]; split <;> rfl
  rw [List.find?_map, hdom]

theorem State.inner_woken (s : State) (m : Nat) (inner : Bool) : Woken s { s with pwr := { s.pwr with
    trans := s.pwr.trans.map (fun t => if t.dom = m then { t with inner := inner } else t) } } := by
  refine ⟨(OnlyDomains.refl s).pwr _, rfl, fun _ _ _ => rfl, fun _ => rfl, fun _ h => h, ?_, fun _ h => Or.inl h⟩
  rintro n ⟨hbusy, i, htrans⟩
  refine ⟨hbusy, ?_⟩
  rw [State.domTrans] at htrans ⊢
  rw [find_map_inner, htrans]
  by_cases hnm : n = m
  · exact ⟨inner, by simp [hnm]⟩
  · exact ⟨i, by simp [hnm]⟩

theorem State.domWait_woken (s : State) (hm : m < 95) : Woken s (s.domWait m target inner) := by
  have hcount : Woken s (if s.domPending m != 0 && !(s.domTrans m).any (·.inner) then s.domCount (Reg.PWR_DOM_CNT0_SUPERSEDED m)
      else s) := by
    split
    · exact s.domCount_superseded_woken hm
    · exact Woken.refl s
  exact (hcount.trans (State.put_pending_woken _ m target)).trans (State.inner_woken _ m inner)

/-- A wake begins; the others stay as they were. -/
theorem State.domBegin_waking (s : State) (m : Nat) : (s.domBegin m domStON 2).Waking m := by
  rw [s.domBegin_wake]
  refine ⟨?_, (s.domTrans m).any (·.inner), ?_⟩
  · rw [State.domBusy, State.flag_iff, State.fld_pwr, State.fld_put_mod (by simp [Reg.PWR_DOM_STATE_BUSY])]
    simp [Reg.PWR_DOM_STATE_BUSY]
  · rw [State.domTrans]
    dsimp only
    rw [List.find?_append, List.find?_eq_none.2 fun t ht => by simpa using (List.mem_filter.1 ht).2]
    simp [domStON]

theorem State.domBegin_woken (s : State) (m : Nat) : Woken s (s.domBegin m domStON 2) := by
  have hbusy : ∀ n, n ≠ m → (s.domBegin m domStON 2).domBusy n = s.domBusy n := fun n hnm => by
    rw [s.domBegin_wake, State.domBusy_pwr]
    exact State.domBusy_put ⟨by simp [Reg.PWR_DOM_STATE_BUSY], Or.inl (domState_ne hnm.symm)⟩
  have htrans : ∀ n, n ≠ m → (s.domBegin m domStON 2).domTrans n = s.domTrans n := fun n hnm => by
    rw [s.domBegin_wake, State.domTrans]
    dsimp only
    rw [List.find?_append, List.find?_filter, List.find?_singleton, if_neg (by simpa using Ne.symm hnm), Option.or_none, State.domTrans]
    congr 1
    funext t
    by_cases ht : t.dom = n
    · simp [ht, hnm]
    · simp [ht]
  have hself := s.domBegin_waking m
  refine ⟨?_, ?_, fun a ha _ => ?_, fun n => ?_, fun n hn => ?_, fun n hn => ?_, fun n hn => ?_⟩
  · rw [s.domBegin_wake]; exact (s.put_onlyRegs _ _).domains.pwr _
  · rw [s.domBegin_wake]
  · rw [s.domBegin_wake, State.rd_pwr]
    exact State.rd_put_other (by simp only [Reg.PWR_DOM_STATE_BUSY, Reg.PWR_DOM_STATE]; omega)
  · rw [s.domBegin_wake, State.domCur_pwr]
    exact State.domCur_put ⟨by simp [Reg.PWR_DOM_STATE_BUSY], Or.inr (by simp [Reg.PWR_DOM_STATE_BUSY])⟩
  · rw [s.domBegin_wake, State.fld_pwr]
    exact (State.fld_put_apart ⟨by simp [Reg.PWR_DOM_STATE_BUSY], Or.inl (domReq_ne_state n m).symm⟩).trans hn
  · by_cases hnm : n = m
    · rw [hnm]; exact hself
    · rw [State.Waking, hbusy n hnm, htrans n hnm]; exact hn
  · by_cases hnm : n = m
    · rw [hnm]; exact Or.inr hself
    · rw [hbusy n hnm]; exact Or.inl hn

theorem State.domWakeOne_woken (s : State) (hm : m < 95) : Woken s (s.domWakeOne m) := by
  unfold State.domWakeOne
  split
  · exact Woken.refl s
  · split
    · split
      · split
        · exact Woken.refl s
        · exact s.domWait_woken hm
      · exact Woken.refl s
    · split
      · exact Woken.refl s
      · exact s.domBegin_woken m

theorem Woken.each {l : List Nat} {f : Nat → State → State} (h : ∀ m ∈ l, ∀ t, Woken t (f m t)) (s : State) : Woken s (s.each l f) := by
  induction l generalizing s with
  | nil => exact Woken.refl s
  | cons m l ih =>
    exact (h m (List.mem_cons_self ..) s).trans (ih (fun m' hm' => h m' (List.mem_cons_of_mem _ hm')) (f m s))

theorem domNeeds_lt (hm : m ∈ domNeeds n) : m < 95 := by
  unfold domNeeds at hm
  split at hm
  · simp at hm; omega
  · split at hm
    · simp at hm; omega
    · split at hm
      · simp at hm; omega
      · simp at hm

theorem State.domNeeds_woken (s : State) (n : Nat) :
    Woken s (s.each (domNeeds n) (fun d s => (s.each (domNeeds d) (fun e s => s.domWakeOne e)).domWakeOne d)) :=
  Woken.each (fun _ hd t => (Woken.each (fun _ he v => v.domWakeOne_woken (domNeeds_lt he)) t).trans
    (State.domWakeOne_woken _ (domNeeds_lt hd))) s

theorem State.domWake_woken (s : State) (hn : n < 95) : Woken s (s.domWake n) :=
  (s.domNeeds_woken n).trans (State.domWakeOne_woken _ hn)

theorem State.domServe_on (h : s.domCur n ≠ 1) : s.domServe n domStON = s.domWake n := by
  have hcur : ¬ domStON = s.domCur n := h.symm
  rw [State.domServe]
  exact (if_neg hcur).trans (if_pos rfl)

theorem State.domServe_on_woken (s : State) (hn : n < 95) : Woken s (s.domServe n domStON) := by
  unfold State.domServe
  dsimp only
  split
  · exact Woken.refl s
  · rw [if_pos rfl]; exact s.domWake_woken hn

theorem State.domRequest_woken (s : State) (hn : n < 95) : Woken s (s.domRequest n domStON) := by
  unfold State.domRequest
  split
  · exact Woken.refl s
  · refine (s.put_request_woken n).trans ?_
    change Woken _ (if (s.put (Reg.PWR_DOM_REQ_TARGET n) domStON).domBusy n = true then _ else _)
    split
    · exact State.domWait_woken _ hn
    · exact State.domServe_on_woken _ hn

/-! What a request for ON brings about. -/

theorem OnlyDomains.pawn_eq (h : OnlyDomains s t) : t.pawn = s.pawn := by obtain ⟨_, _, _, _, rfl⟩ := h; rfl

theorem Woken.pawn_eq (h : Woken s t) : t.pawn = s.pawn := h.only.pawn_eq

theorem State.domWakeOne_waking (h : s.domBusy n = false ∨ s.Waking n) (hcur : s.domCur n ≠ 1) (hpawn : s.pawn = false) :
    (s.domWakeOne n).Waking n := by
  have hrom : ¬ ((n = 10 ∨ n = 11) ∧ s.pawn = true) := by rw [hpawn]; rintro ⟨-, h⟩; cases h
  rw [State.domWakeOne, if_neg hrom]
  rcases h with hidle | ⟨hbusy, i, htrans⟩
  · rw [if_neg (by rw [hidle]; decide), if_neg (by exact hcur)]; exact s.domBegin_waking n
  · rw [if_pos hbusy]
    simp only [htrans]
    exact ⟨hbusy, i, htrans⟩

theorem State.domWake_waking (hidle : s.domBusy n = false) (hcur : s.domCur n ≠ 1) (hpawn : s.pawn = false) : (s.domWake n).Waking n := by
  have hneeds := s.domNeeds_woken n
  exact State.domWakeOne_waking (hneeds.begins n hidle) (by rw [hneeds.cur]; exact hcur) (hneeds.pawn_eq.trans hpawn)

theorem State.domRequest_asks (hn : 0 < n) (hlt : n < 95) : (s.domRequest n domStON).fld (Reg.PWR_DOM_REQ_TARGET n) = 1 := by
  have hput : (s.put (Reg.PWR_DOM_REQ_TARGET n) 1).fld (Reg.PWR_DOM_REQ_TARGET n) = 1 :=
    State.fld_put_mod (by simp [Reg.PWR_DOM_REQ_TARGET])
  rw [State.domRequest, if_neg (by simp [domStON]; omega)]
  change State.fld (if (s.put (Reg.PWR_DOM_REQ_TARGET n) 1).domBusy n = true then _ else _) _ = 1
  split
  · exact (State.domWait_woken _ hlt).asked n hput
  · exact (State.domServe_on_woken _ hlt).asked n hput

theorem State.domRequest_waking (hn : 0 < n) (hlt : n < 95) (h : s.domBusy n = false ∨ s.Waking n) (hcur : s.domCur n ≠ 1)
    (hpawn : s.pawn = false) : (s.domRequest n domStON).Waking n := by
  have hput := s.put_request_woken n
  have hbusy : (s.put (Reg.PWR_DOM_REQ_TARGET n) 1).domBusy n = s.domBusy n :=
    State.domBusy_put ⟨by simp [Reg.PWR_DOM_REQ_TARGET], Or.inl (domReq_ne_state n n)⟩
  rcases h with hidle | hwaking
  · have hnext : (s.put (Reg.PWR_DOM_REQ_TARGET n) 1).domCur n ≠ 1 := by rw [hput.cur]; exact hcur
    rw [State.domRequest, if_neg (by simp [domStON]; omega)]
    change State.Waking (if (s.put (Reg.PWR_DOM_REQ_TARGET n) 1).domBusy n = true then _ else
      (s.put (Reg.PWR_DOM_REQ_TARGET n) 1).domServe n domStON) n
    rw [if_neg (by rw [hbusy, hidle]; decide), State.domServe_on hnext]
    exact State.domWake_waking (hbusy.trans hidle) hnext (hput.pawn_eq.trans hpawn)
  · exact (s.domRequest_woken hlt).stays n hwaking

/-- Requests for ON of several domains: each is asked for, and wakes where nothing stands in its way. -/
theorem State.requests_on {l : List Nat} (hl : ∀ m ∈ l, m < 95) (hmem : n ∈ l) (hn : 0 < n) (s : State) :
    (s.each l (fun m s => s.domRequest m domStON)).fld (Reg.PWR_DOM_REQ_TARGET n) = 1 ∧
      ((s.domBusy n = false ∨ s.Waking n) → s.domCur n ≠ 1 → s.pawn = false →
        (s.each l (fun m s => s.domRequest m domStON)).Waking n) := by
  induction l generalizing s with
  | nil => cases hmem
  | cons m l ih =>
    obtain ⟨hm, hrest⟩ := List.forall_mem_cons.1 hl
    have hfirst := s.domRequest_woken hm
    have hlater := Woken.each (f := fun m s => s.domRequest m domStON) (fun m hm t => t.domRequest_woken (hrest m hm))
      (s.domRequest m domStON)
    by_cases heq : n = m
    · subst heq
      exact ⟨hlater.asked n (State.domRequest_asks hn hm), fun hidle hcur hpawn =>
        hlater.stays n (State.domRequest_waking hn hm hidle hcur hpawn)⟩
    · obtain ⟨hasked, hwaking⟩ := ih hrest ((List.mem_cons.1 hmem).resolve_left heq) (s.domRequest m domStON)
      refine ⟨hasked, fun hidle hcur hpawn => hwaking ?_ (by rw [hfirst.cur]; exact hcur) (hfirst.pawn_eq.trans hpawn)⟩
      exact hidle.elim (hfirst.begins n) fun h => Or.inr (hfirst.stays n h)

/-! Wake sources, the alarm and POWER_ON_MIN (R427, R431). -/

theorem bit_eq_testBit (a i : Nat) : bit a i = a.testBit i := by
  rw [bit, Nat.testBit_eq_decide_div_mod_eq]
  by_cases h : a / 2 ^ i % 2 = 1 <;> simp [h]

theorem State.mem_wakeDoms : n ∈ s.wakeDoms ↔ n < 95 ∧ (s.rd (Reg.PWR_WAKE_DOMS (n / 32))).toNat.testBit (n % 32) = true := by
  rw [State.wakeDoms, List.mem_filter, List.mem_range, bit_eq_testBit]

theorem State.wakeSource_off (h : (s.rd Reg.PWR_WAKE_SRC).toNat.testBit k = false) : s.wakeSource k = s := by
  rw [State.wakeSource, if_neg (by rw [bit_eq_testBit, h]; exact Bool.false_ne_true)]

/-- An enabled source shows in WAKE_CAUSE and raises WAKE. -/
def State.wakeShown (s : State) (k : Nat) : State := (s.put ⟨Reg.AON_WAKE_CAUSE, k, 1⟩ 1).raise 1 0

theorem State.wakeShown_rd {a : Nat} (h : Reg.AON_WAKE_CAUSE ≠ a ∧ Reg.HDR_IRQ_RAW (hdrPage 1) ≠ a) :
    (s.wakeShown k).rd a = s.rd a := by
  rw [State.wakeShown, State.raise_rd_other _ _ _ _ h.2, State.rd_put_other h.1]

theorem State.wakeShown_fld (h : Reg.AON_WAKE_CAUSE ≠ x.addr ∧ Reg.HDR_IRQ_RAW (hdrPage 1) ≠ x.addr) :
    (s.wakeShown k).fld x = s.fld x := by rw [State.fld, State.wakeShown_rd h, State.fld]

theorem State.wakeShown_onlyRegs (s : State) (k : Nat) : OnlyRegs s (s.wakeShown k) :=
  (s.put_onlyRegs _ _).trans (State.raise_onlyRegs _ _ _)

theorem State.wakeShown_cause (hk : k < 32) : (s.wakeShown k).fld ⟨Reg.AON_WAKE_CAUSE, k, 1⟩ = 1 := by
  rw [State.wakeShown, State.fld_raise_other (show Reg.HDR_IRQ_RAW (hdrPage 1) ≠ Reg.AON_WAKE_CAUSE by decide)]
  exact State.fld_put_mod hk

theorem State.wakeShown_raised (hgate : s.gateClosed 1 = false) : raised (s.wakeShown k) 1 0 :=
  State.fld_raise_self ((State.gateClosed_put (show Reg.AON_WAKE_CAUSE ≠ Reg.HDR_CTRL (hdrPage 1) by decide)).trans hgate) (by decide)

theorem State.wakeSource_on (h : (s.rd Reg.PWR_WAKE_SRC).toNat.testBit k = true) :
    s.wakeSource k = (s.wakeShown k).each (s.wakeShown k).wakeDoms (fun n s => s.domRequest n domStON) := by
  rw [State.wakeSource, if_pos (by rw [bit_eq_testBit, h]), State.wakeShown]

theorem State.wakeSource_woken (h : (s.rd Reg.PWR_WAKE_SRC).toNat.testBit k = true) : Woken (s.wakeShown k) (s.wakeSource k) := by
  rw [State.wakeSource_on h]
  exact Woken.each (fun m hm t => t.domRequest_woken (State.mem_wakeDoms.1 hm).1) _

/-- A wake source that is enabled shows itself. -/
theorem State.wakeSource_shows (h : (s.rd Reg.PWR_WAKE_SRC).toNat.testBit k = true) (hk : k < 32) (hgate : s.gateClosed 1 = false) :
    (s.wakeSource k).fld ⟨Reg.AON_WAKE_CAUSE, k, 1⟩ = 1 ∧ raised (s.wakeSource k) 1 0 := by
  have hwoken := State.wakeSource_woken h
  have hlow : ∀ x : Fld, x.addr < 0x3100 → x.addr ≠ 0x3010 → (s.wakeSource k).fld x = (s.wakeShown k).fld x := fun x hx hraw => by
    rw [State.fld, hwoken.low _ hx hraw, State.fld]
  exact ⟨(hlow _ (show Reg.AON_WAKE_CAUSE < 0x3100 by decide) (show Reg.AON_WAKE_CAUSE ≠ 0x3010 by decide)).trans
      (State.wakeShown_cause hk),
    (hlow _ (by decide) (by decide)).trans (State.wakeShown_raised hgate)⟩

/-- A wake source that is enabled brings the marked domains ON. -/
theorem State.wakeSource_wakes (h : (s.rd Reg.PWR_WAKE_SRC).toNat.testBit k = true) (hn : 0 < n) (hlt : n < 95)
    (hmark : (s.rd (Reg.PWR_WAKE_DOMS (n / 32))).toNat.testBit (n % 32) = true) :
    (s.wakeSource k).fld (Reg.PWR_DOM_REQ_TARGET n) = 1 ∧
      (s.domBusy n = false → s.domCur n ≠ 1 → s.pawn = false → (s.wakeSource k).Waking n) := by
  have hdoms : (s.wakeShown k).rd (Reg.PWR_WAKE_DOMS (n / 32)) = s.rd (Reg.PWR_WAKE_DOMS (n / 32)) :=
    State.wakeShown_rd ⟨by simp only [Reg.AON_WAKE_CAUSE, Reg.PWR_WAKE_DOMS]; omega, by
      rw [show Reg.HDR_IRQ_RAW (hdrPage 1) = 0x1010 from rfl, Reg.PWR_WAKE_DOMS]; omega⟩
  have hstate : ∀ x : Fld, x.addr = Reg.PWR_DOM_STATE n → (s.wakeShown k).fld x = s.fld x := fun x hx =>
    State.wakeShown_fld ⟨by rw [hx]; simp only [Reg.AON_WAKE_CAUSE, Reg.PWR_DOM_STATE]; omega, by
      rw [hx, show Reg.HDR_IRQ_RAW (hdrPage 1) = 0x1010 from rfl, Reg.PWR_DOM_STATE]; omega⟩
  have hmem : n ∈ (s.wakeShown k).wakeDoms := State.mem_wakeDoms.2 ⟨hlt, by rw [hdoms]; exact hmark⟩
  obtain ⟨hasked, hwaking⟩ := State.requests_on (fun m hm => (State.mem_wakeDoms.1 hm).1) hmem hn (s.wakeShown k)
  rw [State.wakeSource_on h]
  refine ⟨hasked, fun hidle hcur hpawn => hwaking (Or.inl ?_) ?_ ?_⟩
  · rw [State.domBusy, State.flag, hstate _ rfl]; exact hidle
  · rw [State.domCur, hstate _ rfl]; exact hcur
  · rw [(s.wakeShown_onlyRegs k).domains.pawn_eq]; exact hpawn

theorem State.alarmFires_off (h : s.pwr.alarmArmed = false) : s.alarmFires = s := by
  rw [State.alarmFires, if_neg (by rw [h]; exact Bool.false_ne_true)]

/-- The instant at which the alarm fires. -/
def State.alarmAt (s : State) : Nat :=
  if (s.rd Reg.AON_ALARM).toNat + 2 ^ 32 * (s.rd Reg.AON_ALARM_HI).toNat ≤ s.timebase then (s.now / aonTick + 1) * aonTick
  else s.tbInstant ((s.rd Reg.AON_ALARM).toNat + 2 ^ 32 * (s.rd Reg.AON_ALARM_HI).toNat)

/-- The alarm is spent and ALARM raised. -/
def State.alarmShown (s : State) : State :=
  ({ s.advance s.alarmAt with pwr := { (s.advance s.alarmAt).pwr with alarmArmed := false } } : State).raise 1 1

theorem State.alarmFires_on (h : s.pwr.alarmArmed = true) : s.alarmFires = s.alarmShown.wakeSource 2 := by
  rw [State.alarmFires, if_pos h]; rfl

theorem State.alarmShown_gate : s.alarmShown.gateClosed 1 = s.gateClosed 1 := by
  rw [State.alarmShown, State.gateClosed_raise (by decide), State.gateClosed_pwr, State.gateClosed_advance (by decide)]

theorem State.alarmShown_raised (hgate : s.gateClosed 1 = false) : raised s.alarmShown 1 1 :=
  State.fld_raise_self (by rw [State.gateClosed_pwr, State.gateClosed_advance (by decide)]; exact hgate) (by decide)

theorem State.alarmShown_src : s.alarmShown.rd Reg.PWR_WAKE_SRC = s.rd Reg.PWR_WAKE_SRC := by
  rw [State.alarmShown, State.raise_rd_other _ _ _ _ (by decide), State.rd_pwr, State.rd_advance (by decide)]

/-- What the alarm leaves, whether or not it is an enabled wake source. -/
theorem State.alarmFires_effect (h : s.pwr.alarmArmed = true) (hgate : s.gateClosed 1 = false) :
    s.alarmFires.pwr.alarmArmed = false ∧ raised s.alarmFires 1 1 ∧
      ((s.rd Reg.PWR_WAKE_SRC).toNat.testBit 2 = true →
        s.alarmFires.fld ⟨Reg.AON_WAKE_CAUSE, 2, 1⟩ = 1 ∧ raised s.alarmFires 1 0) ∧
      s.alarmFires.now = max s.now s.alarmAt := by
  have harmed : s.alarmShown.pwr.alarmArmed = false := by
    rw [State.alarmShown, (State.raise_onlyRegs _ _ _).pwr_eq]
  have hnow : s.alarmShown.now = max s.now s.alarmAt := by
    rw [State.alarmShown, (State.raise_onlyRegs _ _ _).now_eq]; exact s.advance_now _
  have hraised := State.alarmShown_raised hgate
  rw [State.alarmFires_on h]
  cases hsrc : (s.rd Reg.PWR_WAKE_SRC).toNat.testBit 2 with
  | false =>
    rw [State.wakeSource_off (by rw [State.alarmShown_src]; exact hsrc)]
    exact ⟨harmed, hraised, fun h => (Bool.false_ne_true h).elim, hnow⟩
  | true =>
    have hon : (s.alarmShown.rd Reg.PWR_WAKE_SRC).toNat.testBit 2 = true := by rw [State.alarmShown_src]; exact hsrc
    have hwoken := State.wakeSource_woken hon
    have hpwr := (s.alarmShown.wakeShown_onlyRegs 2).pwr_eq
    refine ⟨?_, ?_, fun _ => State.wakeSource_shows hon (by decide) (State.alarmShown_gate.trans hgate), ?_⟩
    · rw [hwoken.pwr, hpwr]; exact harmed
    · rw [raised, State.fld, hwoken.low _ (by decide) (by decide), ← State.fld, State.wakeShown]
      refine State.fld_raise_of_set (by decide) (by decide) ?_
      rw [State.fld_put_apart (by decide)]
      exact hraised
    · obtain ⟨_, _, _, _, heq⟩ := State.wakeSource_only s.alarmShown 2
      rw [heq]; exact hnow

theorem State.minuteTick_eq (hn : s.tbInstant ((s.pwr.minutesAt + 1) * 60000000) = n) :
    s.minuteTick = { (s.advance n).wrN Reg.AON_POWER_ON_MIN (((s.advance n).rd Reg.AON_POWER_ON_MIN).toNat + 1) with
      pwr := { (s.advance n).pwr with minutesAt := (s.advance n).pwr.minutesAt + 1 } } := by
  rw [State.minuteTick, hn]
  rfl

theorem State.minuteTick_effect (hn : s.tbInstant ((s.pwr.minutesAt + 1) * 60000000) = n) :
    (s.minuteTick.rd Reg.AON_POWER_ON_MIN).toNat = ((s.rd Reg.AON_POWER_ON_MIN).toNat + 1) % 2 ^ 32 ∧
      s.minuteTick.pwr.minutesAt = s.pwr.minutesAt + 1 ∧ s.minuteTick.now = max s.now n := by
  have hpwr : (s.advance n).pwr = s.pwr := by rw [s.advance_eq]
  rw [State.minuteTick_eq hn]
  refine ⟨?_, congrArg (fun p : PwrState => p.minutesAt + 1) hpwr, s.advance_now n⟩
  rw [State.rd_pwr, State.wrN, State.rd_wr_self, BitVec.toNat_ofNat, State.rd_advance (by decide)]

/-! The pads (R421). -/

theorem State.padsShow_regs (s : State) (n : Nat) : (s.padsShow n).regs = s.regs := by
  have hlevels : s.gateLevels.regs = s.regs :=
    State.each_induct (fun t => t.regs = s.regs) (List.range 16) (fun n t => t.padEmit .gate n [0, b2n (t.gtLevel n)])
      (fun x t ht => by rw [State.padEmit_eq]; exact ht) s rfl
  unfold State.padsShow
  split
  · rfl
  · rw [State.peDrive_eq, State.padEmit_eq]
    dsimp only
    rw [State.padEmit_eq]
    exact hlevels
  · rfl

/-- Whether PAD_RELEASE lets go of the pads of a domain. -/
def State.PadFree (s : State) (w : Word) (i : Nat) : Prop :=
  w.toNat.testBit i = true ∧ s.domOn (44 + i) = true ∧ s.flag (Reg.PWR_DOM_STATE_LATCHED (44 + i)) = true

/-- PAD_RELEASE of one domain. -/
def State.padLetGo (s : State) (w : Word) (i : Nat) : State :=
  if bit w.toNat i && s.domOn (44 + i) && s.flag (Reg.PWR_DOM_STATE_LATCHED (44 + i)) then
    let s := (s.put ⟨Reg.PWR_PAD_LATCHED, i, 1⟩ 0).put (Reg.PWR_DOM_STATE_LATCHED (44 + i)) 0
    ({ s with pwr := { s.pwr with padHold := Cells.set (fun _ => 0) s.pwr.padHold (44 + i) 0 } } : State).padsShow (44 + i)
  else s

theorem State.padRelease_eq (s : State) (w : Word) : s.padRelease w = ((s.padLetGo w 0).padLetGo w 1).padLetGo w 2 := by
  have hdoms : padDoms = [0, 1, 2].map fun i => (i, 44 + i) := rfl
  have heach : s.padRelease w = [0, 1, 2].foldl (fun s i => s.padLetGo w i) s := by
    rw [State.padRelease, hdoms, State.each, List.foldl_map]
    rfl
  rw [heach]
  rfl

section
variable {w : Word} {i j : Nat}

theorem State.padLetGo_free (h : s.PadFree w i) : (s.padLetGo w i).regs =
    ((s.put ⟨Reg.PWR_PAD_LATCHED, i, 1⟩ 0).put (Reg.PWR_DOM_STATE_LATCHED (44 + i)) 0).regs := by
  obtain ⟨hbit, hon, hlatched⟩ := h
  rw [State.padLetGo, if_pos (by rw [bit_eq_testBit, hbit, hon, hlatched]; rfl)]
  exact State.padsShow_regs _ _

theorem State.padLetGo_kept (h : ¬ s.PadFree w i) : s.padLetGo w i = s := by
  refine if_neg fun hall => h ?_
  rw [bit_eq_testBit, Bool.and_eq_true, Bool.and_eq_true] at hall
  exact ⟨hall.1.1, hall.1.2, hall.2⟩

theorem State.padLetGo_self (hi : i < 3) (p : Prop) [Decidable p] (hp : s.PadFree w i ↔ p) :
    (s.padLetGo w i).fld ⟨Reg.PWR_PAD_LATCHED, i, 1⟩ = if p then 0 else s.fld ⟨Reg.PWR_PAD_LATCHED, i, 1⟩ := by
  split
  · next h =>
    rw [State.fld_of_regs (State.padLetGo_free (hp.2 h)), State.fld_put_apart ⟨by simp [Reg.PWR_DOM_STATE_LATCHED], Or.inl (by
      simp only [Reg.PWR_DOM_STATE_LATCHED, Reg.PWR_DOM_STATE, Reg.PWR_PAD_LATCHED]; omega)⟩]
    exact State.fld_put_mod (by dsimp only; omega)
  · next h => rw [State.padLetGo_kept (mt hp.1 h)]

/-- The pads of one domain leave what is read of another. -/
theorem State.padLetGo_other (hi : i < 3) {y : Fld} (hlatch : Reg.PWR_PAD_LATCHED ≠ y.addr ∨ y.lo + y.w ≤ i ∨ i + 1 ≤ y.lo)
    (hstate : Reg.PWR_DOM_STATE (44 + i) ≠ y.addr) : (s.padLetGo w i).fld y = s.fld y := by
  by_cases h : s.PadFree w i
  · rw [State.fld_of_regs (State.padLetGo_free h), State.fld_put_apart ⟨by simp [Reg.PWR_DOM_STATE_LATCHED], Or.inl hstate⟩,
      State.fld_put_apart ⟨by dsimp only; omega, hlatch⟩]
  · rw [State.padLetGo_kept h]

theorem State.padLetGo_latched (hi : i < 3) (hij : i ≠ j) :
    (s.padLetGo w i).fld ⟨Reg.PWR_PAD_LATCHED, j, 1⟩ = s.fld ⟨Reg.PWR_PAD_LATCHED, j, 1⟩ :=
  State.padLetGo_other hi (Or.inr (by dsimp only; omega)) (by simp only [Reg.PWR_DOM_STATE, Reg.PWR_PAD_LATCHED]; omega)

theorem State.padLetGo_padFree (hi : i < 3) (hij : i ≠ j) : (s.padLetGo w i).PadFree w j ↔ s.PadFree w j := by
  have hfld : ∀ y : Fld, y.addr = Reg.PWR_DOM_STATE (44 + j) → (s.padLetGo w i).fld y = s.fld y := fun y hy =>
    State.padLetGo_other hi (Or.inl (by rw [hy]; simp only [Reg.PWR_DOM_STATE, Reg.PWR_PAD_LATCHED]; omega))
      (by rw [hy]; exact domState_ne (by omega))
  rw [State.PadFree, State.domOn, State.flag, hfld _ rfl, hfld _ rfl, hfld _ rfl]
  rfl

end

theorem State.padRelease_latched {w : Word} {i : Nat} (hi : i < 3) (p : Prop) [Decidable p] (hp : s.PadFree w i ↔ p) :
    (s.padRelease w).fld ⟨Reg.PWR_PAD_LATCHED, i, 1⟩ = if p then 0 else s.fld ⟨Reg.PWR_PAD_LATCHED, i, 1⟩ := by
  rw [State.padRelease_eq]
  obtain rfl | rfl | rfl : i = 0 ∨ i = 1 ∨ i = 2 := by omega
  · rw [State.padLetGo_latched (i := 2) (by decide) (by decide), State.padLetGo_latched (i := 1) (by decide) (by decide)]
    exact State.padLetGo_self (by decide) p hp
  · rw [State.padLetGo_latched (i := 2) (by decide) (by decide),
      State.padLetGo_self (by decide) p ((State.padLetGo_padFree (by decide) (by decide)).trans hp),
      State.padLetGo_latched (i := 0) (by decide) (by decide)]
  · rw [State.padLetGo_self (by decide) p (((State.padLetGo_padFree (by decide) (by decide)).trans
        (State.padLetGo_padFree (by decide) (by decide))).trans hp),
      State.padLetGo_latched (i := 1) (by decide) (by decide), State.padLetGo_latched (i := 0) (by decide) (by decide)]

/-! The commands. -/

theorem exec_gpioWakeEdge_off (hlive : s.boot.resetLow = false) (hoff : (s.rd Reg.PWR_WAKE_SRC).toNat.testBit (8 + k) = false) :
    exec (.gpioWakeEdge k) s = .next s := by
  have hsame : s.wakeSource (8 + k) = s := State.wakeSource_off hoff
  have hsteady : Steady s (s.wakeSource (8 + k)) := by rw [hsame]; exact Steady.refl s
  rw [exec_gpioWakeEdge, s.unheld_steady (fun s => s.wakeSource (8 + k)) hlive hsteady, hsame]

theorem exec_aonAlarm_off (hlive : s.boot.resetLow = false) (hoff : s.pwr.alarmArmed = false) : exec .aonAlarm s = .next s := by
  have hsame : s.alarmFires = s := State.alarmFires_off hoff
  have hsteady : Steady s s.alarmFires := by rw [hsame]; exact Steady.refl s
  rw [exec_aonAlarm, s.unheld_steady _ hlive hsteady, hsame]

theorem exec_alarmWrite_eq {port : Nat} {high : Bool} {w : Word} (hs : s.Serves .AON 1) :
    exec (.alarmWrite port high w) s
      = .next { (s.wr (if high then Reg.AON_ALARM_HI else Reg.AON_ALARM) w) with pwr := { s.pwr with alarmArmed := true } } := by
  have hwrite : s.hostWrite port (if high then Reg.AON_ALARM_HI else Reg.AON_ALARM) w =
      s.alarmWrite (if high then Reg.AON_ALARM_HI else Reg.AON_ALARM) w := by
    cases high
    · exact State.hostWrite_acts (u := .AON) (a := Reg.AON_ALARM) hs (by decide) rfl
    · exact State.hostWrite_acts (u := .AON) (a := Reg.AON_ALARM_HI) hs (by decide) rfl
  have hsteady : Steady s (s.hostWrite port (if high then Reg.AON_ALARM_HI else Reg.AON_ALARM) w) := by
    rw [hwrite]; exact (s.wr_steady _ _).trans (State.pwr_steady _ _)
  rw [exec_alarmWrite, s.unheld_steady _ hs.live hsteady, hwrite, State.alarmWrite]

theorem State.minute_now (hn : s.tbInstant (60000000 * (s.pwr.minutesAt + 1)) = n) : s.tbInstant ((s.pwr.minutesAt + 1) * 60000000) = n := by
  rw [Nat.mul_comm]; exact hn

theorem exec_powerOnMinTick_effect (hlive : s.boot.resetLow = false) (hn : s.tbInstant (60000000 * (s.pwr.minutesAt + 1)) = n) :
    ∃ t, exec .powerOnMinTick s = .next t ∧ (t.rd Reg.AON_POWER_ON_MIN).toNat = ((s.rd Reg.AON_POWER_ON_MIN).toNat + 1) % 2 ^ 32 ∧
      t.pwr.minutesAt = s.pwr.minutesAt + 1 ∧ t.now = max s.now n := by
  obtain ⟨hmin, hat, hnow⟩ := State.minuteTick_effect (State.minute_now hn)
  refine ⟨_, (exec_powerOnMinTick s).trans (State.unheld_live hlive), by rw [State.left_rd, hmin], hat, ?_⟩
  rw [State.left_now, hnow, ← Nat.max_assoc, Nat.max_self]

theorem exec_aonAlarm_effect (hlive : s.boot.resetLow = false) (harmed : s.pwr.alarmArmed = true) (hgate : s.gateClosed 1 = false) :
    ∃ t, exec .aonAlarm s = .next t ∧ t.pwr.alarmArmed = false ∧ raised t 1 1 ∧
      ((s.rd Reg.PWR_WAKE_SRC).toNat.testBit 2 = true → t.fld ⟨Reg.AON_WAKE_CAUSE, 2, 1⟩ = 1 ∧ raised t 1 0) ∧
      ((s.rd Reg.AON_ALARM).toNat + 2 ^ 32 * (s.rd Reg.AON_ALARM_HI).toNat ≤ s.timebase → t.now = (s.now / 64000 + 1) * 64000) := by
  obtain ⟨hspent, hraised, hwake, hnow⟩ := State.alarmFires_effect harmed hgate
  refine ⟨_, (exec_aonAlarm s).trans (State.unheld_live hlive), hspent, hraised, hwake, fun hpast => ?_⟩
  have hat : s.alarmAt = (s.now / aonTick + 1) * aonTick := by rw [State.alarmAt, if_pos hpast]
  have htick : aonTick = 64000 := rfl
  rw [State.left_now, hnow, hat, htick]
  have := Nat.div_add_mod s.now 64000
  omega

theorem exec_wakeCauseWrite_eq {port : Nat} {w : Word} (hs : s.Serves .AON 1) :
    exec (.wakeCauseWrite port w) s = .next (s.wr Reg.AON_WAKE_CAUSE (s.rd Reg.AON_WAKE_CAUSE &&& ~~~(w &&& 0xF0F#32))) := by
  have hrow : blockRow .AON Reg.AON_WAKE_CAUSE = some (RegRow.mk' 0x58 1 4 0 0 0xF0F 0 0) := by decide
  have hstored : (s.rd Reg.AON_WAKE_CAUSE &&& ~~~0#32 ||| w &&& 0#32) &&& ~~~(w &&& 0xF0F#32) =
      s.rd Reg.AON_WAKE_CAUSE &&& ~~~(w &&& 0xF0F#32) := by
    rw [BitVec.and_zero, BitVec.or_zero, BitVec.not_zero, BitVec.and_allOnes]
  have hwrite : s.hostWrite port Reg.AON_WAKE_CAUSE w = s.wr Reg.AON_WAKE_CAUSE (s.rd Reg.AON_WAKE_CAUSE &&& ~~~(w &&& 0xF0F#32)) := by
    rw [State.hostWrite_blockRow hs hrow (Or.inl rfl), ← hstored]
    rfl
  have hsteady : Steady s (s.hostWrite port Reg.AON_WAKE_CAUSE w) := by rw [hwrite]; exact s.wr_steady _ _
  rw [exec_wakeCauseWrite, s.unheld_steady _ hs.live hsteady, hwrite]

/-- Wake sources, the alarm, WAKE_CAUSE, the pads and POWER_ON_MIN (R421, R427, R431). -/
theorem wakesAndPads : Rules.WakesAndPads := by
  refine ⟨fun s k hlive _ _ hoff => exec_gpioWakeEdge_off hlive hoff, fun s k hlive hk hgate hon => ?_,
    fun s port high w hs => ⟨exec_alarmWrite_eq hs, exec_wakeCauseWrite_eq hs⟩,
    fun s hlive => ⟨exec_aonAlarm_off hlive, exec_aonAlarm_effect hlive⟩, fun s port w hs => ?_,
    fun s hlive => exec_powerOnMinTick_effect hlive rfl⟩
  · refine ⟨_, (exec_gpioWakeEdge s k).trans (State.unheld_live hlive), ?_⟩
    obtain ⟨hcause, hraised⟩ := State.wakeSource_shows hon (by omega) hgate
    exact ⟨hcause, hraised, fun n hn hlt hmark => by
      obtain ⟨hasked, hwaking⟩ := State.wakeSource_wakes hon hn hlt hmark
      exact ⟨hasked, fun hidle hcur hpawn => (hwaking hidle hcur hpawn).2⟩⟩
  · refine ⟨_, (exec_padRelease s port w).trans (State.unheld_live hs.live), fun i hi => ?_⟩
    have hwrite : s.hostWrite port Reg.PWR_PAD_RELEASE w = s.padRelease w :=
      State.hostWrite_acts (u := .PWR) (a := Reg.PWR_PAD_RELEASE) hs (by decide) rfl
    rw [State.left_fld, hwrite]
    exact State.padRelease_latched hi _ Iff.rfl

end Sys2Proof.Machine
end

section
/-! PROOFS. Operating points and the exchanges on AVSBus (R425, R426). -/

namespace Sys2Proof.Machine

variable {s t u : State} {a port rail mv mx : Nat} {w : Word} {x : Fld} {r : AvsReq} {newMax : Option Nat} {nak : Bool}

/-! An exchange (R426). -/

/-- The rail's number on AVSBus. -/
def railSel (rail : Nat) : Fld := if rail = 0 then Reg.PWR_AVS_CFG_CORE_SEL else Reg.PWR_AVS_CFG_SER_SEL

theorem railSel_addr (rail : Nat) : (railSel rail).addr = Reg.PWR_AVS_CFG := by unfold railSel; split <;> rfl

theorem State.avsFrame_eq (s : State) (r : AvsReq) : s.avsFrame r = s.emit .avs (s.fld (railSel r.rail)) [r.mv] := rfl

/-- An exchange is the one under way. -/
def State.avsTaken (s : State) (r : AvsReq) : State :=
  { s with pwr := { s.pwr with avs := some { r with since := s.now, resends := 0 } } }

/-- It is counted and shown. -/
def State.avsShown (s : State) : State := (s.bump Reg.PWR_AVS_REQS).put Reg.PWR_VSTATUS_AVS_BUSY 1

theorem State.avsShown_onlyRegs (s : State) : OnlyRegs s s.avsShown := (s.bump_onlyRegs _).trans (State.put_onlyRegs _ _ _)

theorem State.avsTaken_rd : (s.avsTaken r).rd a = s.rd a := rfl
theorem State.avsTaken_fld : (s.avsTaken r).fld x = s.fld x := rfl
theorem State.avsTaken_gate {p : Nat} : (s.avsTaken r).gateClosed p = s.gateClosed p := rfl

theorem State.avsStart_eq (s : State) (r : AvsReq) :
    s.avsStart r = (s.avsTaken r).avsShown.emit .avs ((s.avsTaken r).avsShown.fld (railSel r.rail)) [r.mv] := rfl

/-- The registers that the beginning of an exchange reaches. -/
def avsRegs : List Nat := [Reg.PWR_AVS_REQS, Reg.HDR_IRQ_RAW 3, Reg.PWR_VSTATUS]

theorem State.avsShown_rd (h : a ∉ avsRegs) : s.avsShown.rd a = s.rd a := by
  simp only [avsRegs, List.mem_cons, List.not_mem_nil, or_false, not_or] at h
  obtain ⟨hreqs, hraw, hstatus⟩ := h
  rw [State.avsShown, State.rd_put_other (Ne.symm hstatus), State.rd_bump_other ⟨Ne.symm hreqs, Ne.symm hraw⟩]

theorem State.avsShown_fld (h : x.addr ∉ avsRegs) : s.avsShown.fld x = s.fld x := by
  rw [State.fld, State.avsShown_rd h, State.fld]

theorem State.avsStart_rd (h : a ∉ avsRegs) : (s.avsStart r).rd a = s.rd a := by
  rw [State.avsStart_eq, State.rd, State.emit_regs, ← State.rd, State.avsShown_rd h, State.avsTaken_rd]

theorem State.avsStart_fld (h : x.addr ∉ avsRegs) : (s.avsStart r).fld x = s.fld x := by
  rw [State.fld, State.avsStart_rd h, State.fld]

theorem State.avsStart_pwr : (s.avsStart r).pwr = { s.pwr with avs := some { r with since := s.now, resends := 0 } } := by
  rw [State.avsStart_eq, State.emit_pwr, (State.avsShown_onlyRegs _).pwr_eq, State.avsTaken]

theorem State.avsStart_now : (s.avsStart r).now = s.now := by
  rw [State.avsStart_eq, State.emit_now, (State.avsShown_onlyRegs _).now_eq, State.avsTaken]

theorem State.avsStart_out : (s.avsStart r).out = ⟨.avs, s.fld (railSel r.rail), [r.mv]⟩ :: s.out := by
  rw [State.avsStart_eq, State.emit_out, State.avsShown_fld (by rw [railSel_addr]; decide), State.avsTaken_fld,
    (State.avsShown_onlyRegs _).out_eq, State.avsTaken]

theorem State.avsStart_counted : counted s (s.avsStart r) Reg.PWR_AVS_REQS 1 := by
  rw [counted, State.avsStart_eq, State.rd, State.emit_regs, ← State.rd, State.avsShown, State.rd_put_other (by decide),
    State.rd_bump_toNat (by decide), State.avsTaken_rd]

theorem State.avsStart_raised {b : Nat} (hb : b < 32) (h : raised s 3 b) : raised (s.avsStart r) 3 b := by
  rw [raised, State.avsStart_eq, State.emit_fld, State.avsShown, State.fld_put_apart ⟨by decide, Or.inl (show Reg.PWR_VSTATUS ≠ Reg.HDR_IRQ_RAW 3 by decide)⟩]
  exact State.fld_bumpBy_of_set (by decide) hb h

/-! What is asked of a rail. -/

theorem State.avsRequest_free (h : s.pwr.avs = none) : s.avsRequest rail mv newMax = s.avsStart ⟨rail, mv, newMax, 0, 0, false⟩ := by
  rw [State.avsRequest, h]

theorem State.avsRequest_waits (h : s.pwr.avs ≠ none) : s.avsRequest rail mv newMax =
    { s with pwr := { s.pwr with avsWait := s.pwr.avsWait.filter (fun x => x.rail ≠ rail) ++ [⟨rail, mv, newMax, 0, 0, false⟩] } } := by
  obtain ⟨r, hr⟩ := Option.ne_none_iff_exists'.1 h
  rw [State.avsRequest, hr]

theorem State.avsRequest_rd (h : a ∉ avsRegs) : (s.avsRequest rail mv newMax).rd a = s.rd a := by
  by_cases hfree : s.pwr.avs = none
  · rw [State.avsRequest_free hfree, State.avsStart_rd h]
  · rw [State.avsRequest_waits hfree, State.rd_pwr]

theorem State.avsRequest_fld (h : x.addr ∉ avsRegs) : (s.avsRequest rail mv newMax).fld x = s.fld x := by
  rw [State.fld, State.avsRequest_rd h, State.fld]

/-- A request begins its exchange, or waits for the one under way as the latest for its rail. -/
theorem State.avsRequest_effect :
    (s.pwr.avs = none → (s.avsRequest rail mv newMax).pwr.avs = some ⟨rail, mv, newMax, s.now, 0, false⟩ ∧
      (s.avsRequest rail mv newMax).out = ⟨.avs, s.fld (railSel rail), [mv]⟩ :: s.out ∧
      counted s (s.avsRequest rail mv newMax) Reg.PWR_AVS_REQS 1) ∧
    (s.pwr.avs ≠ none → (s.avsRequest rail mv newMax).pwr.avs = s.pwr.avs ∧ (s.avsRequest rail mv newMax).out = s.out ∧
      (s.avsRequest rail mv newMax).pwr.avsWait
        = s.pwr.avsWait.filter (fun x => x.rail ≠ rail) ++ [⟨rail, mv, newMax, 0, 0, false⟩]) := by
  refine ⟨fun h => ?_, fun h => ?_⟩
  · rw [State.avsRequest_free h, State.avsStart_pwr, State.avsStart_out]
    exact ⟨rfl, rfl, State.avsStart_counted⟩
  · rw [State.avsRequest_waits h]
    exact ⟨rfl, rfl, rfl⟩

/-! OP_CFG and VSER (R425). -/

theorem counted_of_same {c n : Nat} (hrd : u.rd c = s.rd c) (h : counted u t c n) : counted s t c n := by rw [counted, ← hrd]; exact h

/-- OP_CFG is stored, and a MAX within MAX_ACTIVE acts at once. -/
def State.opTaken (s : State) (w : Word) (mx : Nat) : State :=
  if s.fld Reg.PWR_OP_STATUS_MAX_ACTIVE < mx then s.wr Reg.PWR_OP_CFG (w &&& 0xF3)
  else (s.wr Reg.PWR_OP_CFG (w &&& 0xF3)).put Reg.PWR_OP_STATUS_MAX_ACTIVE mx

theorem State.opTaken_onlyRegs (s : State) (w : Word) (mx : Nat) : OnlyRegs s (s.opTaken w mx) := by
  unfold State.opTaken
  split
  · exact s.wr_onlyRegs _ _
  · exact (s.wr_onlyRegs _ _).trans (State.put_onlyRegs _ _ _)

theorem State.opTaken_rd (h : Reg.PWR_OP_CFG ≠ a ∧ Reg.PWR_OP_STATUS ≠ a) : (s.opTaken w mx).rd a = s.rd a := by
  unfold State.opTaken
  split
  · exact State.rd_wr_other _ _ _ _ h.1
  · rw [State.rd_put_other (x := Reg.PWR_OP_STATUS_MAX_ACTIVE) h.2, State.rd_wr_other _ _ _ _ h.1]

theorem State.opTaken_cfg : (s.opTaken w mx).rd Reg.PWR_OP_CFG = w &&& 0xF3 := by
  unfold State.opTaken
  split
  · exact State.rd_wr_self _ _ _
  · rw [State.rd_put_other (by decide), State.rd_wr_self]

theorem State.opTaken_active (hmx : mx < 4) :
    (s.opTaken w mx).fld Reg.PWR_OP_STATUS_MAX_ACTIVE = min (s.fld Reg.PWR_OP_STATUS_MAX_ACTIVE) mx := by
  unfold State.opTaken
  split
  · next h => rw [State.fld_wr_other (by decide), Nat.min_eq_left (Nat.le_of_lt h)]
  · next h =>
    rw [State.fld_put_mod (by decide), Nat.min_eq_right (Nat.le_of_not_lt h)]
    exact Nat.mod_eq_of_lt hmx

theorem State.opCfgWrite_refused (hlow : w.toNat % 4 < s.fld Reg.PWR_OP_CFG_MAX) (hpix : w.toNat % 4 < s.pixOp) :
    s.opCfgWrite w = s.err 3 0x10 := by
  have hmx : Reg.PWR_OP_CFG_MAX.get w = w.toNat % 4 := by rw [Fld.get, show Reg.PWR_OP_CFG_MAX.lo = 0 from rfl, Nat.pow_zero, Nat.div_one]; rfl
  rw [State.opCfgWrite]
  dsimp only
  rw [hmx, if_pos ⟨hlow, hpix⟩]

theorem State.opCfgWrite_taken (h : ¬ (w.toNat % 4 < s.fld Reg.PWR_OP_CFG_MAX ∧ w.toNat % 4 < s.pixOp)) :
    s.opCfgWrite w = (s.opTaken w (w.toNat % 4)).avsRequest 0 (coreTarget (w.toNat % 4) (w.toNat / 2 ^ 4 % 2 ^ 4))
      (if s.fld Reg.PWR_OP_STATUS_MAX_ACTIVE < w.toNat % 4 then some (w.toNat % 4) else none) := by
  have hmx : Reg.PWR_OP_CFG_MAX.get w = w.toNat % 4 := by rw [Fld.get, show Reg.PWR_OP_CFG_MAX.lo = 0 from rfl, Nat.pow_zero, Nat.div_one]; rfl
  have hmargin : (s.wr Reg.PWR_OP_CFG (w &&& 0xF3)).fld Reg.PWR_OP_CFG_MARGIN = w.toNat / 2 ^ 4 % 2 ^ 4 := by
    exact (State.fld_wr_self (x := Reg.PWR_OP_CFG_MARGIN) rfl).trans (Fld.get_and_of_ones (by decide))
  have hactive : (s.wr Reg.PWR_OP_CFG (w &&& 0xF3)).fld Reg.PWR_OP_STATUS_MAX_ACTIVE = s.fld Reg.PWR_OP_STATUS_MAX_ACTIVE :=
    State.fld_wr_other (by decide)
  rw [State.opCfgWrite]
  dsimp only
  rw [hmx, if_neg h, hmargin, hactive, State.opTaken]
  by_cases hraise : s.fld Reg.PWR_OP_STATUS_MAX_ACTIVE < w.toNat % 4
  · rw [if_neg (by omega), if_pos hraise, if_pos hraise]
  · rw [if_pos (by omega), if_neg hraise, if_neg hraise]

theorem State.vserWrite_eq : s.vserWrite w = (s.wr Reg.PWR_VSER (w &&& 0x3FF)).avsRequest 1 (clampNat 850 950 (w.toNat % 2 ^ 10)) none := by
  rw [State.vserWrite, Fld.get, show Reg.PWR_VSER_TARGET.lo = 0 from rfl, Nat.pow_zero, Nat.div_one]
  rfl

/-- What a request leaves, of a state that differs from another in registers alone. -/
theorem OnlyRegs.avsRequest_effect (h : OnlyRegs s u) (hcfg : u.rd Reg.PWR_AVS_CFG = s.rd Reg.PWR_AVS_CFG)
    (hreqs : u.rd Reg.PWR_AVS_REQS = s.rd Reg.PWR_AVS_REQS) :
    (s.pwr.avs = none → (u.avsRequest rail mv newMax).pwr.avs = some ⟨rail, mv, newMax, s.now, 0, false⟩ ∧
      (u.avsRequest rail mv newMax).out = ⟨.avs, s.fld (railSel rail), [mv]⟩ :: s.out ∧
      counted s (u.avsRequest rail mv newMax) Reg.PWR_AVS_REQS 1) ∧
    (s.pwr.avs ≠ none → (u.avsRequest rail mv newMax).pwr.avs = s.pwr.avs ∧ (u.avsRequest rail mv newMax).out = s.out ∧
      (u.avsRequest rail mv newMax).pwr.avsWait
        = s.pwr.avsWait.filter (fun x => x.rail ≠ rail) ++ [⟨rail, mv, newMax, 0, 0, false⟩]) := by
  have hsel : u.fld (railSel rail) = s.fld (railSel rail) := by rw [State.fld, railSel_addr, hcfg, State.fld, railSel_addr]
  obtain ⟨hfree, hwait⟩ := State.avsRequest_effect (s := u) (rail := rail) (mv := mv) (newMax := newMax)
  rw [h.pwr_eq, h.now_eq, h.out_eq, hsel] at hfree
  rw [h.pwr_eq, h.out_eq] at hwait
  exact ⟨fun hn => (hfree hn).imp id fun ⟨hout, hcount⟩ => ⟨hout, counted_of_same hreqs hcount⟩, hwait⟩

/-! The end of an exchange. -/

/-- No exchange is under way. -/
def State.avsDone (s : State) : State := { s.put Reg.PWR_VSTATUS_AVS_BUSY 0 with pwr := { s.pwr with avs := none } }

theorem State.avsNext_last (h : s.pwr.avsWait = []) : s.avsNext = s.avsDone := by
  simp only [State.avsNext, h, State.avsDone]

theorem State.avsNext_more {q : AvsReq} {l : List AvsReq} (h : s.pwr.avsWait = q :: l) :
    s.avsNext = ({ s.avsDone with pwr := { s.avsDone.pwr with avsWait := l } } : State).avsStart q := by
  simp only [State.avsNext, h, State.avsDone]

theorem State.avsDone_pwr : s.avsDone.pwr = { s.pwr with avs := none } := rfl
theorem State.now_pwr (s : State) (p : PwrState) : ({ s with pwr := p } : State).now = s.now := rfl

theorem State.avsDone_now : s.avsDone.now = s.now := by
  rw [State.avsDone, State.now_pwr, (s.put_onlyRegs Reg.PWR_VSTATUS_AVS_BUSY 0).now_eq]

theorem State.avsDone_fld (h : x.lo + x.w ≤ 31 ∨ Reg.PWR_VSTATUS ≠ x.addr) : s.avsDone.fld x = s.fld x := by
  have hbusy : (s.put Reg.PWR_VSTATUS_AVS_BUSY 0).fld x = s.fld x :=
    State.fld_put_apart (x := Reg.PWR_VSTATUS_AVS_BUSY) ⟨by decide, h.elim (fun hlow => Or.inr (Or.inl hlow)) Or.inl⟩
  rw [State.avsDone, State.fld_pwr, hbusy]

theorem State.avsShown_status (haddr : x.addr = Reg.PWR_VSTATUS) (hlow : x.lo + x.w ≤ 31) : s.avsShown.fld x = s.fld x := by
  have hother : Reg.PWR_AVS_REQS ≠ x.addr ∧ Reg.HDR_IRQ_RAW (hdrPage (Reg.PWR_AVS_REQS / 0x1000)) ≠ x.addr := by rw [haddr]; decide
  have hbusy : ((s.bump Reg.PWR_AVS_REQS).put Reg.PWR_VSTATUS_AVS_BUSY 1).fld x = (s.bump Reg.PWR_AVS_REQS).fld x :=
    State.fld_put_apart (x := Reg.PWR_VSTATUS_AVS_BUSY) ⟨by decide, Or.inr (Or.inl hlow)⟩
  rw [State.avsShown, hbusy, State.fld_bump_other hother]

/-- The end of an exchange leaves the readings of VSTATUS, and every register that no exchange reaches. -/
theorem State.avsNext_fld (h : x.addr ∉ avsRegs ∨ x.addr = Reg.PWR_VSTATUS ∧ x.lo + x.w ≤ 31) : s.avsNext.fld x = s.fld x := by
  have hstatus : Reg.PWR_VSTATUS ∈ avsRegs := by decide
  have hdone : s.avsDone.fld x = s.fld x :=
    State.avsDone_fld (h.elim (fun hx => Or.inr fun he => hx (he ▸ hstatus)) fun hx => Or.inl hx.2)
  cases hw : s.pwr.avsWait with
  | nil => rw [State.avsNext_last hw, hdone]
  | cons q l =>
    have hrest : ({ s.avsDone with pwr := { s.avsDone.pwr with avsWait := l } } : State).fld x = s.fld x := by
      rw [State.fld_pwr, hdone]
    rw [State.avsNext_more hw]
    generalize ({ s.avsDone with pwr := { s.avsDone.pwr with avsWait := l } } : State) = v at hrest
    rcases h with hx | ⟨haddr, hlow⟩
    · rw [State.avsStart_fld hx, hrest]
    · rw [State.avsStart_eq, State.emit_fld, State.avsShown_status haddr hlow, State.avsTaken_fld, hrest]

theorem State.avsNext_now : s.avsNext.now = s.now := by
  cases hw : s.pwr.avsWait with
  | nil => rw [State.avsNext_last hw, State.avsDone_now]
  | cons q l =>
    rw [State.avsNext_more hw, State.avsStart_now]
    rw [State.now_pwr, State.avsDone_now]

theorem State.avsNext_raised {b : Nat} (hb : b < 32) (h : raised s 3 b) : raised s.avsNext 3 b := by
  have hdone : raised s.avsDone 3 b := by
    rw [raised, State.avsDone_fld (Or.inr (show Reg.PWR_VSTATUS ≠ Reg.HDR_IRQ_RAW 3 by decide))]; exact h
  cases hw : s.pwr.avsWait with
  | nil => rw [State.avsNext_last hw]; exact hdone
  | cons q l =>
    rw [raised, ← State.fld_pwr s.avsDone _ { s.avsDone.pwr with avsWait := l }] at hdone
    rw [State.avsNext_more hw]
    exact State.avsStart_raised hb hdone

/-! A reading, and a failure (R426). -/

theorem State.avsPoll_none {b : Bool} (h : s.pwr.avs = none) : s.avsPoll mv b = s := by rw [State.avsPoll, h]
theorem State.avsFailed_none (h : s.pwr.avs = none) : s.avsFailed nak = s := by rw [State.avsFailed, h]

theorem State.avsPoll_resends (h : s.pwr.avs = some r) (hfew : r.resends < 3) : s.avsPoll mv true =
    ({ s with pwr := { s.pwr with avs := some { r with resends := r.resends + 1 } } } : State).avsFrame { r with resends := r.resends + 1 } := by
  simp only [State.avsPoll, h, if_true, if_pos hfew]

theorem State.avsPoll_spent (h : s.pwr.avs = some r) (hmany : 3 ≤ r.resends) : s.avsPoll mv true = s := by
  simp only [State.avsPoll, h, if_true, if_neg (Nat.not_lt.2 hmany)]

theorem avsWithin_iff {target : Nat} : avsWithin mv target = true ↔ mv ≤ target + 10 ∧ target ≤ mv + 10 := by
  simp [avsWithin]

theorem State.avsPoll_far (h : s.pwr.avs = some r) (hfar : r.mv + 10 < mv ∨ mv + 10 < r.mv) : s.avsPoll mv false = s := by
  have hnot : ¬ (avsWithin mv r.mv = true ∧ (!r.held) = true) := by rw [avsWithin_iff]; omega
  simp only [State.avsPoll, h, Bool.false_eq_true, if_false, if_neg hnot]

theorem State.avsPoll_acked (h : s.pwr.avs = some r) (hnear : r.mv ≤ mv + 10 ∧ mv ≤ r.mv + 10)
    (hdelay : s.fld ⟨Reg.PERTURB_AVS_DELAY, 0, 16⟩ = 0) (hheld : r.held = false) : s.avsPoll mv false = s.avsAcked r mv := by
  have hyes : avsWithin mv r.mv = true ∧ (!r.held) = true := ⟨avsWithin_iff.2 hnear.symm, by rw [hheld]; rfl⟩
  simp only [State.avsPoll, h, Bool.false_eq_true, if_false, if_pos hyes, hdelay, if_true]

/-- The reading that VSTATUS takes. -/
def railShown (rail : Nat) : Fld := if rail = 0 then Reg.PWR_VSTATUS_VDD_CORE else Reg.PWR_VSTATUS_VDD_SER

theorem railShown_addr (rail : Nat) : (railShown rail).addr = Reg.PWR_VSTATUS := by unfold railShown; split <;> rfl
theorem railShown_width (rail : Nat) : (railShown rail).w = 10 := by unfold railShown; split <;> rfl
theorem railShown_low (rail : Nat) : (railShown rail).lo + (railShown rail).w ≤ 31 := by unfold railShown; split <;> decide

/-- An acknowledged exchange before the next one begins. -/
def State.avsRead (s : State) (r : AvsReq) (mv : Nat) : State :=
  match r.newMax with
  | some m => (s.put (railShown r.rail) mv).put Reg.PWR_OP_STATUS_MAX_ACTIVE (min m ((s.put (railShown r.rail) mv).fld Reg.PWR_OP_CFG_MAX))
  | none => s.put (railShown r.rail) mv

theorem State.avsAcked_eq (s : State) (r : AvsReq) (mv : Nat) : s.avsAcked r mv = (s.avsRead r mv).avsNext := rfl

theorem State.avsRead_onlyRegs (s : State) (r : AvsReq) (mv : Nat) : OnlyRegs s (s.avsRead r mv) := by
  unfold State.avsRead
  split
  · exact (s.put_onlyRegs _ _).trans (State.put_onlyRegs _ _ _)
  · exact s.put_onlyRegs _ _

theorem State.avsRead_shown (hmv : mv < 1024) : (s.avsRead r mv).fld (railShown r.rail) = mv := by
  have hwide : (railShown r.rail).lo + (railShown r.rail).w ≤ 32 := Nat.le_succ_of_le (railShown_low r.rail)
  have hput : (s.put (railShown r.rail) mv).fld (railShown r.rail) = mv := by
    rw [State.fld_put_mod hwide, railShown_width]; exact Nat.mod_eq_of_lt hmv
  unfold State.avsRead
  split
  · rw [State.fld_put_apart ⟨by decide, Or.inl (by rw [railShown_addr]; decide)⟩, hput]
  · exact hput

theorem State.avsRead_active {m : Nat} (h : r.newMax = some m) :
    (s.avsRead r mv).fld Reg.PWR_OP_STATUS_MAX_ACTIVE = min m (s.fld Reg.PWR_OP_CFG_MAX) % 4 := by
  have hmax : (s.put (railShown r.rail) mv).fld Reg.PWR_OP_CFG_MAX = s.fld Reg.PWR_OP_CFG_MAX := by
    rw [State.fld, State.rd_put_other (by rw [railShown_addr]; decide), State.fld]
  rw [State.avsRead, h]
  dsimp only
  rw [State.fld_put_mod (by decide), hmax]
  rfl

/-- The failure of an exchange, before the next one begins. -/
def State.avsLost (s : State) (r : AvsReq) (nak : Bool) : State :=
  (if nak then s.bump Reg.PWR_AVS_NAK else (s.advance (r.since + 2000 * ticksPerUs)).bump Reg.PWR_AVS_TIMEOUT).raise 3 3

theorem State.avsFailed_some (h : s.pwr.avs = some r) : s.avsFailed nak = (s.avsLost r nak).avsNext := by
  rw [State.avsFailed, h]; rfl

theorem State.avsLost_eq (n : Nat) (hn : r.since + 2000 * ticksPerUs = n) :
    s.avsLost r nak = (if nak then s.bump Reg.PWR_AVS_NAK else (s.advance n).bump Reg.PWR_AVS_TIMEOUT).raise 3 3 := by
  rw [State.avsLost, hn]

theorem State.avsLost_effect (n : Nat) (hn : r.since + 2000 * ticksPerUs = n) (hgate : s.gateClosed 3 = false) :
    counted s (s.avsLost r nak) (if nak then Reg.PWR_AVS_NAK else Reg.PWR_AVS_TIMEOUT) 1 ∧ raised (s.avsLost r nak) 3 3 ∧
      (s.avsLost r nak).fld Reg.PWR_OP_STATUS_MAX_ACTIVE = s.fld Reg.PWR_OP_STATUS_MAX_ACTIVE ∧
      (s.avsLost r nak).now = (if nak then s.now else max s.now n) ∧ (s.avsLost r nak).pwr = s.pwr := by
  rw [State.avsLost_eq n hn]
  cases nak
  · have hadvance : (s.advance n).pwr = s.pwr := by rw [s.advance_eq]
    refine ⟨?_, State.fld_raise_self ?_ (by decide), ?_, ?_, ?_⟩
    · refine counted_of_same (u := s.advance n) (State.rd_advance (by decide)) ?_
      rw [counted]
      simp only [Bool.false_eq_true, if_false]
      rw [State.raise_rd_other _ _ _ _ (by decide), State.rd_bump_toNat (by decide)]
    · simp only [Bool.false_eq_true, if_false]
      rw [State.gateClosed_bump (by decide), State.gateClosed_advance (by decide)]; exact hgate
    · simp only [Bool.false_eq_true, if_false]
      rw [State.fld_raise_other (by decide), State.fld_bump_other (by decide), State.fld_advance (by decide)]
    · simp only [Bool.false_eq_true, if_false]
      rw [(State.raise_onlyRegs _ _ _).now_eq, (State.bump_onlyRegs _ _).now_eq, State.advance_now]
    · simp only [Bool.false_eq_true, if_false]
      rw [(State.raise_onlyRegs _ _ _).pwr_eq, (State.bump_onlyRegs _ _).pwr_eq, hadvance]
  · simp only [if_true]
    refine ⟨?_, State.fld_raise_self ?_ (by decide), ?_, ?_, ?_⟩
    · rw [counted, State.raise_rd_other _ _ _ _ (by decide), State.rd_bump_toNat (by decide)]
    · rw [State.gateClosed_bump (by decide)]; exact hgate
    · rw [State.fld_raise_other (by decide), State.fld_bump_other (by decide)]
    · rw [(State.raise_onlyRegs _ _ _).now_eq, (State.bump_onlyRegs _ _).now_eq]
    · rw [(State.raise_onlyRegs _ _ _).pwr_eq, (State.bump_onlyRegs _ _).pwr_eq]

/-! The commands. -/

theorem exec_opCfgWrite_left (hs : s.Serves .PWR 3) : exec (.opCfgWrite port w) s = .next (s.left (s.opCfgWrite w)) := by
  have hwrite : s.hostWrite port Reg.PWR_OP_CFG w = s.opCfgWrite w :=
    State.hostWrite_acts (u := .PWR) (a := Reg.PWR_OP_CFG) hs (by decide) rfl
  rw [exec_opCfgWrite, State.unheld_live hs.live, hwrite]

theorem exec_vserWrite_left (hs : s.Serves .PWR 3) : exec (.vserWrite port w) s = .next (s.left (s.vserWrite w)) := by
  have hwrite : s.hostWrite port Reg.PWR_VSER w = s.vserWrite w :=
    State.hostWrite_acts (u := .PWR) (a := Reg.PWR_VSER) hs (by decide) rfl
  rw [exec_vserWrite, State.unheld_live hs.live, hwrite]

theorem exec_opCfgWrite_refused (hs : s.Serves .PWR 3) (hlow : w.toNat % 4 < s.fld Reg.PWR_OP_CFG_MAX) (hpix : w.toNat % 4 < s.pixOp) :
    exec (.opCfgWrite port w) s = .next (s.err 3 0x10) := by
  rw [exec_opCfgWrite_left hs, State.opCfgWrite_refused hlow hpix, State.left_of_steady (s.err_steady _ _)]

/-- OP_CFG and VSER store, and ask their rails for what they hold (R425). -/
theorem exec_opCfgWrite_effect (hs : s.Serves .PWR 3) (h : ¬ (w.toNat % 4 < s.fld Reg.PWR_OP_CFG_MAX ∧ w.toNat % 4 < s.pixOp)) :
    let v := coreTarget (w.toNat % 4) (w.toNat / 2 ^ 4 % 2 ^ 4)
    let newMax := if s.fld Reg.PWR_OP_STATUS_MAX_ACTIVE < w.toNat % 4 then some (w.toNat % 4) else none
    ∃ t, exec (.opCfgWrite port w) s = .next t ∧ t.rd Reg.PWR_OP_CFG = w &&& 0xF3#32 ∧
      t.fld Reg.PWR_OP_STATUS_MAX_ACTIVE = min (s.fld Reg.PWR_OP_STATUS_MAX_ACTIVE) (w.toNat % 4) ∧
      (s.pwr.avs = none → t.pwr.avs = some ⟨0, v, newMax, s.now, 0, false⟩ ∧
        t.out = ⟨.avs, s.fld Reg.PWR_AVS_CFG_CORE_SEL, [v]⟩ :: s.out ∧ counted s t Reg.PWR_AVS_REQS 1) ∧
      (s.pwr.avs ≠ none → t.pwr.avs = s.pwr.avs ∧ t.out = s.out ∧
        t.pwr.avsWait = s.pwr.avsWait.filter (fun x => x.rail ≠ 0) ++ [⟨0, v, newMax, 0, 0, false⟩]) := by
  intro v newMax
  have heffect := (s.opTaken_onlyRegs w (w.toNat % 4)).avsRequest_effect (rail := 0) (mv := v) (newMax := newMax)
    (State.opTaken_rd (by decide)) (State.opTaken_rd (by decide))
  have hcfg := State.avsRequest_rd (s := s.opTaken w (w.toNat % 4)) (rail := 0) (mv := v) (newMax := newMax)
    (show Reg.PWR_OP_CFG ∉ avsRegs by decide)
  have hactive := State.avsRequest_fld (s := s.opTaken w (w.toNat % 4)) (rail := 0) (mv := v) (newMax := newMax)
    (show Reg.PWR_OP_STATUS_MAX_ACTIVE.addr ∉ avsRegs by decide)
  rw [State.opTaken_cfg] at hcfg
  rw [State.opTaken_active (Nat.mod_lt _ (by decide))] at hactive
  have hexec : exec (.opCfgWrite port w) s = .next (s.left ((s.opTaken w (w.toNat % 4)).avsRequest 0 v newMax)) := by
    rw [exec_opCfgWrite_left hs, State.opCfgWrite_taken h]
  generalize (s.opTaken w (w.toNat % 4)).avsRequest 0 v newMax = t at hexec hcfg hactive heffect
  exact ⟨_, hexec, hcfg, hactive, heffect⟩

theorem exec_vserWrite_effect (hs : s.Serves .PWR 3) :
    let v := clampNat 850 950 (w.toNat % 2 ^ 10)
    ∃ t, exec (.vserWrite port w) s = .next t ∧ t.rd Reg.PWR_VSER = w &&& 0x3FF#32 ∧
      (s.pwr.avs = none → t.pwr.avs = some ⟨1, v, none, s.now, 0, false⟩ ∧
        t.out = ⟨.avs, s.fld Reg.PWR_AVS_CFG_SER_SEL, [v]⟩ :: s.out ∧ counted s t Reg.PWR_AVS_REQS 1) ∧
      (s.pwr.avs ≠ none → t.pwr.avs = s.pwr.avs ∧ t.out = s.out ∧
        t.pwr.avsWait = s.pwr.avsWait.filter (fun x => x.rail ≠ 1) ++ [⟨1, v, none, 0, 0, false⟩]) := by
  intro v
  have heffect := (s.wr_onlyRegs Reg.PWR_VSER (w &&& 0x3FF)).avsRequest_effect (rail := 1) (mv := v) (newMax := none)
    (State.rd_wr_other _ _ _ _ (by decide)) (State.rd_wr_other _ _ _ _ (by decide))
  have hvser := State.avsRequest_rd (s := s.wr Reg.PWR_VSER (w &&& 0x3FF)) (rail := 1) (mv := v) (newMax := none)
    (show Reg.PWR_VSER ∉ avsRegs by decide)
  rw [State.rd_wr_self] at hvser
  have hexec : exec (.vserWrite port w) s = .next (s.left ((s.wr Reg.PWR_VSER (w &&& 0x3FF)).avsRequest 1 v none)) := by
    rw [exec_vserWrite_left hs, State.vserWrite_eq]
  generalize (s.wr Reg.PWR_VSER (w &&& 0x3FF)).avsRequest 1 v none = t at hexec hvser heffect
  exact ⟨_, hexec, hvser, heffect⟩

section
variable {crcErr : Bool} (hlive : s.boot.resetLow = false)
include hlive

theorem exec_avsPoll_same (h : s.avsPoll mv crcErr = s) : exec (.avsPoll mv crcErr) s = .next s := by
  have hsteady : Steady s (s.avsPoll mv crcErr) := by rw [h]; exact Steady.refl s
  rw [exec_avsPoll, s.unheld_steady (fun s => s.avsPoll mv crcErr) hlive hsteady, h]

theorem exec_avsFail_same (h : s.avsFailed nak = s) : exec (.avsFail nak) s = .next s := by
  have hsteady : Steady s (s.avsFailed nak) := by rw [h]; exact Steady.refl s
  rw [exec_avsFail, s.unheld_steady (fun s => s.avsFailed nak) hlive hsteady, h]

/-- A failed acknowledge field sends the frame again (R426). -/
theorem exec_avsPoll_resends (h : s.pwr.avs = some r) (hfew : r.resends < 3) :
    ∃ t, exec (.avsPoll mv true) s = .next t ∧ t.pwr.avs = some { r with resends := r.resends + 1 } ∧
      t.out = ⟨.avs, s.fld (railSel r.rail), [r.mv]⟩ :: s.out := by
  have hexec : exec (.avsPoll mv true) s = .next (s.left (s.avsPoll mv true)) := (exec_avsPoll s mv true).trans (State.unheld_live hlive)
  rw [State.avsPoll_resends h hfew] at hexec
  exact ⟨_, hexec, rfl, rfl⟩

/-- A reading near the target acknowledges the exchange, and the next begins (R426). -/
theorem exec_avsPoll_acks (h : s.pwr.avs = some r) (hmv : mv < 1024) (hnear : r.mv ≤ mv + 10 ∧ mv ≤ r.mv + 10)
    (hdelay : s.fld ⟨Reg.PERTURB_AVS_DELAY, 0, 16⟩ = 0) (hheld : r.held = false) :
    ∃ t, exec (.avsPoll mv false) s = .next t ∧ t.fld (railShown r.rail) = mv ∧
      (∀ m, r.newMax = some m → t.fld Reg.PWR_OP_STATUS_MAX_ACTIVE = min m (s.fld Reg.PWR_OP_CFG_MAX) % 4) ∧
      (s.pwr.avsWait = [] → t.pwr.avs = none ∧ t.fld Reg.PWR_VSTATUS_AVS_BUSY = 0) ∧
      (∀ q l, s.pwr.avsWait = q :: l → t.pwr.avs = some { q with since := s.now, resends := 0 } ∧ t.pwr.avsWait = l) := by
  have hread := s.avsRead_onlyRegs r mv
  have hexec : exec (.avsPoll mv false) s = .next (s.left (s.avsRead r mv).avsNext) := by
    rw [exec_avsPoll, State.unheld_live hlive, State.avsPoll_acked h hnear hdelay hheld, State.avsAcked_eq]
  have hshown : (s.avsRead r mv).avsNext.fld (railShown r.rail) = mv := by
    rw [State.avsNext_fld (Or.inr ⟨railShown_addr _, railShown_low _⟩), State.avsRead_shown hmv]
  have hactive : ∀ m, r.newMax = some m →
      (s.avsRead r mv).avsNext.fld Reg.PWR_OP_STATUS_MAX_ACTIVE = min m (s.fld Reg.PWR_OP_CFG_MAX) % 4 := fun m hm => by
    rw [State.avsNext_fld (Or.inl (by decide)), State.avsRead_active hm]
  have hlast : s.pwr.avsWait = [] → (s.avsRead r mv).avsNext.pwr.avs = none ∧
      (s.avsRead r mv).avsNext.fld Reg.PWR_VSTATUS_AVS_BUSY = 0 := fun hw => by
    have hnone : (s.avsRead r mv).pwr.avsWait = [] := by rw [hread.pwr_eq]; exact hw
    rw [State.avsNext_last hnone, State.avsDone_pwr]
    refine ⟨rfl, ?_⟩
    rw [State.avsDone, State.fld_pwr, State.fld_put_mod (by decide)]
    rfl
  have hmore : ∀ q l, s.pwr.avsWait = q :: l → (s.avsRead r mv).avsNext.pwr.avs = some { q with since := s.now, resends := 0 } ∧
      (s.avsRead r mv).avsNext.pwr.avsWait = l := fun q l hw => by
    have hwait : (s.avsRead r mv).pwr.avsWait = q :: l := by rw [hread.pwr_eq]; exact hw
    rw [State.avsNext_more hwait, State.avsStart_pwr, State.now_pwr, State.avsDone_now, hread.now_eq]
    exact ⟨rfl, rfl⟩
  generalize (s.avsRead r mv).avsNext = t at hexec hshown hactive hlast hmore
  exact ⟨_, hexec, hshown, hactive, hlast, hmore⟩

/-- An exchange that fails counts, is raised, and leaves MAX_ACTIVE (R426). -/
theorem exec_avsFail_effect (h : s.pwr.avs = some r) (hgate : s.gateClosed 3 = false) (n : Nat) (hn : r.since + 2000 * ticksPerUs = n) :
    ∃ t, exec (.avsFail nak) s = .next t ∧ counted s t (if nak then Reg.PWR_AVS_NAK else Reg.PWR_AVS_TIMEOUT) 1 ∧
      raised t 3 3 ∧ t.fld Reg.PWR_OP_STATUS_MAX_ACTIVE = s.fld Reg.PWR_OP_STATUS_MAX_ACTIVE ∧
      t.now = (if nak then s.now else max s.now n) ∧ (s.pwr.avsWait = [] → t.pwr.avs = none) := by
  obtain ⟨hcount, hraised, hactive, hnow, hpwr⟩ := State.avsLost_effect (nak := nak) n hn hgate
  have hexec : exec (.avsFail nak) s = .next (s.left (s.avsLost r nak).avsNext) := by
    rw [exec_avsFail, State.unheld_live hlive, State.avsFailed_some h]
  have hlast : s.pwr.avsWait = [] → (s.avsLost r nak).avsNext.pwr.avs = none := fun hw => by
    rw [State.avsNext_last (by rw [hpwr]; exact hw), State.avsDone_pwr]
  have hcounted : counted s (s.avsLost r nak).avsNext (if nak then Reg.PWR_AVS_NAK else Reg.PWR_AVS_TIMEOUT) 1 := by
    rw [counted, ← State.fld_whole, State.avsNext_fld (Or.inl (by cases nak <;> decide)), State.fld_whole]
    exact hcount
  have hlater : max s.now (if nak then s.now else max s.now n) = if nak then s.now else max s.now n := by
    cases nak <;> simp
  have hact := (State.avsNext_fld (s := s.avsLost r nak) (x := Reg.PWR_OP_STATUS_MAX_ACTIVE) (Or.inl (by decide))).trans hactive
  have hrise := State.avsNext_raised (by decide) hraised
  have htime := State.avsNext_now.trans hnow
  generalize (s.avsLost r nak).avsNext = t at hexec hlast hcounted hact hrise htime
  refine ⟨_, hexec, hcounted, hrise, hact, ?_, hlast⟩
  rw [State.left_now, htime, hlater]

end

/-- Operating points and exchanges (R425, R426). -/
theorem suppliesFollow : Rules.SuppliesFollow := by
  refine ⟨fun s port w hs => ⟨exec_opCfgWrite_refused hs, exec_opCfgWrite_effect hs, exec_vserWrite_effect hs⟩,
    fun s mv crcErr nak hlive hgate hmv => ⟨fun h => ⟨exec_avsPoll_same hlive (State.avsPoll_none h),
      exec_avsFail_same hlive (State.avsFailed_none h)⟩, fun r h _ => ⟨exec_avsPoll_resends hlive h,
      fun hmany => exec_avsPoll_same hlive (State.avsPoll_spent h hmany),
      fun hfar => exec_avsPoll_same hlive (State.avsPoll_far h hfar),
      fun hlo hhi hdelay hheld => exec_avsPoll_acks hlive h hmv ⟨hlo, hhi⟩ hdelay hheld, ?_⟩⟩⟩
  have hticks : r.since + 2000 * ticksPerUs = r.since + 512000000 := by
    have hper : ticksPerUs = 256000 := rfl
    omega
  exact exec_avsFail_effect hlive h hgate _ hticks

/-- Settles O52: the exchanges by their beginnings and ends, the wakes by what each request for ON keeps. -/
theorem suppliesAndWakes : Obligations.SuppliesAndWakes := ⟨suppliesFollow, wakesAndPads⟩

end Sys2Proof.Machine
end

section
/-! PROOFS. The corrections of PATCH, the check of a set and the coarse set (R214, R215, R219, R222). -/

namespace Sys2Proof.Machine

variable {s t u : State} {port : Nat} {w : Word} {k1 k2 k3 field step d : Nat}

/-! The correction (R214, R215). -/

/-- What a correction adds to a code, rounded once: an offset times the step over 128. -/
def patchAdds (off : Int) (step d : Nat) : Nat := (max 0 (min 65535 (d + (off * step + 64) / 128))).toNat

theorem clampInt_eq {lo hi x : Int} (h : lo ≤ hi) : clampInt lo hi x = max lo (min hi x) := by
  unfold clampInt
  split
  · omega
  · split <;> omega

/-- A segment of the interpolation whose offset at the code is `off`: its rounding is that of the offset. -/
theorem segment_adds {den off num : Int} (hden : 0 < den) (hnum : num = off * den) :
    (clampInt 0 65535 (d + (2 * num * step + 128 * den) / (256 * den))).toNat = patchAdds off step d := by
  have hsame : 2 * num * step + 128 * den = 2 * den * (off * step + 64) := by rw [hnum]; ring
  have hdiv : (256 : Int) * den = 2 * den * 128 := by ring
  rw [hsame, hdiv, Int.mul_ediv_mul_of_pos _ _ (by omega), clampInt_eq (by decide), patchAdds]

theorem patchCode_zero_step (d : Nat) : patchCode k1 k2 k3 field 0 d = d := by rw [patchCode, if_pos rfl]

theorem patchCode_le (hstep : 0 < step) : patchCode k1 k2 k3 field step d ≤ 65535 := by
  rw [patchCode, if_neg (by omega)]
  dsimp only
  generalize (if k3 < d then (sext 6 (field / 4096), (1 : Int)) else _ : Int × Int) = e
  obtain ⟨num, den⟩ := e
  rw [clampInt_eq (by decide)]
  omega

section
variable (hstep : 0 < step)
include hstep

theorem patchCode_first (h : d ≤ k1) (hk : d ≤ k3) : patchCode k1 k2 k3 field step d =
    (clampInt 0 65535 (d + (2 * (0 * ((k1 : Int) - (0 : Nat)) + (sext 6 field - 0) * ((d : Int) - (0 : Nat))) * step +
      128 * ((k1 : Int) - (0 : Nat))) / (256 * ((k1 : Int) - (0 : Nat))))).toNat := by
  simp only [patchCode, if_neg (Nat.ne_of_gt hstep), if_neg (Nat.not_lt.2 hk), if_pos h]

theorem patchCode_second (h1 : k1 < d) (h2 : d ≤ k2) (hk : d ≤ k3) : patchCode k1 k2 k3 field step d =
    (clampInt 0 65535 (d + (2 * (sext 6 field * ((k2 : Int) - k1) + (sext 6 (field / 64) - sext 6 field) * ((d : Int) - k1)) * step +
      128 * ((k2 : Int) - k1)) / (256 * ((k2 : Int) - k1)))).toNat := by
  simp only [patchCode, if_neg (Nat.ne_of_gt hstep), if_neg (Nat.not_lt.2 hk), if_neg (Nat.not_le.2 h1), if_pos h2]

theorem patchCode_third (h1 : k1 < d) (h2 : k2 < d) (hk : d ≤ k3) : patchCode k1 k2 k3 field step d =
    (clampInt 0 65535 (d + (2 * (sext 6 (field / 64) * ((k3 : Int) - k2) +
      (sext 6 (field / 4096) - sext 6 (field / 64)) * ((d : Int) - k2)) * step +
      128 * ((k3 : Int) - k2)) / (256 * ((k3 : Int) - k2)))).toNat := by
  simp only [patchCode, if_neg (Nat.ne_of_gt hstep), if_neg (Nat.not_lt.2 hk), if_neg (Nat.not_le.2 h1), if_neg (Nat.not_le.2 h2)]

theorem patchCode_above (h : k3 < d) : patchCode k1 k2 k3 field step d =
    (clampInt 0 65535 (d + (2 * sext 6 (field / 4096) * step + 128 * 1) / (256 * 1))).toNat := by
  simp only [patchCode, if_neg (Nat.ne_of_gt hstep), if_pos h]

end

theorem patchCode_zero (hk1 : 0 < k1) : patchCode k1 k2 k3 field step 0 = 0 := by
  rcases Nat.eq_zero_or_pos step with rfl | hstep
  · exact patchCode_zero_step 0
  · rw [patchCode_first hstep (Nat.zero_le _) (Nat.zero_le _), segment_adds (off := 0) (by omega) (by simp), patchAdds]
    omega

theorem patchCode_knots (hk1 : 0 < k1) (h12 : k1 < k2) (h23 : k2 < k3) (hstep : 0 < step) :
    patchCode k1 k2 k3 field step k1 = patchAdds (sext 6 field) step k1 ∧
      patchCode k1 k2 k3 field step k2 = patchAdds (sext 6 (field / 64)) step k2 ∧
      ∀ d, k3 ≤ d → patchCode k1 k2 k3 field step d = patchAdds (sext 6 (field / 4096)) step d := by
  refine ⟨?_, ?_, fun d hd => ?_⟩
  · rw [patchCode_first hstep (Nat.le_refl _) (by omega), segment_adds (off := sext 6 field) (by omega) (by ring)]
  · rw [patchCode_second hstep h12 (Nat.le_refl _) (by omega), segment_adds (off := sext 6 (field / 64)) (by omega) (by ring)]
  · rcases Nat.eq_or_lt_of_le hd with rfl | habove
    · rw [patchCode_third hstep (by omega) h23 (Nat.le_refl _), segment_adds (off := sext 6 (field / 4096)) (by omega) (by ring)]
    · rw [patchCode_above hstep habove, segment_adds (off := sext 6 (field / 4096)) (by omega) (by ring)]

theorem scaleStep_eq {e n : Nat} (hn : n < 16) (he : e < 16) (hpos : 0 < e + n) : scaleStep (16 * e + n) = (16 + n) * 2 ^ e := by
  rw [scaleStep, if_neg (by omega), show (16 * e + n) % 16 = n by omega, show (16 * e + n) / 16 % 16 = e by omega]

theorem patchCorrects : Rules.PatchCorrects :=
  ⟨fun _ _ _ _ _ hk1 => patchCode_zero hk1, fun _ _ _ _ d => patchCode_zero_step d, fun _ _ _ _ _ _ hstep => patchCode_le hstep,
    fun _ _ _ _ _ hk1 h12 h23 hstep => patchCode_knots hk1 h12 h23 hstep, fun _ _ he hn hpos => scaleStep_eq hn he hpos, rfl⟩

end Sys2Proof.Machine
end

section
/-! PROOFS. What the accesses of engines to DRAM leave of the rest of the state (R338 to R347, R465). -/

namespace Sys2Proof.Machine

variable {s t u : State} {a e h k n p ofs pa cls kind done : Nat} {w : Word} {x : Fld}

/-- The pages whose registers an access to DRAM reaches: PWR, PERTURB, MEMC, REGION, SCHED and ECC. -/
def memPages : List Nat := [0x3, 0x8, 0x110, 0x111, 0x112, 0x113]

/-- Nothing differs but what an access to DRAM reaches: registers of those pages, the event log, the words of the SRAM
banks, MEMC's own state, the counts of injections and the free values. -/
structure MemWork (s t : State) : Prop where
  state : ∃ r l e m f i c, t = { s with
    regs := r, nv := { s.nv with log := l }, isl := { s.isl with rises := e }, sram := m, fresh := f, inj := i, mem := c }
  rd : ∀ a, a / 0x1000 ∉ memPages → t.rd a = s.rd a

theorem MemWork.refl (s : State) : MemWork s s := ⟨⟨s.regs, s.nv.log, s.isl.rises, s.sram, s.fresh, s.inj, s.mem, rfl⟩, fun _ _ => rfl⟩

theorem MemWork.trans (h : MemWork s t) (g : MemWork t u) : MemWork s u := by
  refine ⟨?_, fun a ha => (g.rd a ha).trans (h.rd a ha)⟩
  obtain ⟨r, l, e, m, f, i, c, rfl⟩ := h.state
  obtain ⟨r', l', e', m', f', i', c', rfl⟩ := g.state
  exact ⟨r', l', e', m', f', i', c', rfl⟩

theorem MemWork.of_onlyRegs (h : OnlyRegs s t) (hrd : ∀ a, a / 0x1000 ∉ memPages → t.rd a = s.rd a) : MemWork s t := by
  refine ⟨?_, hrd⟩
  obtain ⟨r, l, e, rfl⟩ := h
  exact ⟨r, l, e, s.sram, s.fresh, s.inj, s.mem, rfl⟩

theorem MemWork.ite {c : Prop} [Decidable c] (ht : MemWork s t) (hu : MemWork s u) : MemWork s (if c then t else u) := by
  split
  · exact ht
  · exact hu

theorem MemWork.fld (h : MemWork s t) (hx : x.addr / 0x1000 ∉ memPages) : t.fld x = s.fld x := by
  rw [State.fld, h.rd _ hx, State.fld]

theorem MemWork.pat_eq (h : MemWork s t) : t.pat = s.pat := by obtain ⟨_, _, _, _, _, _, _, rfl⟩ := h.state; rfl
theorem MemWork.now_eq (h : MemWork s t) : t.now = s.now := by obtain ⟨_, _, _, _, _, _, _, rfl⟩ := h.state; rfl
theorem MemWork.dram_eq (h : MemWork s t) : t.dram = s.dram := by obtain ⟨_, _, _, _, _, _, _, rfl⟩ := h.state; rfl

theorem ne_of_page {b : Nat} (ha : a / 0x1000 ∉ memPages) (hb : b / 0x1000 ∈ memPages) : b ≠ a := fun h => ha (h ▸ hb)

theorem memPage_hdr (hp : p ∈ memPages) : hdrPage p = p := by
  simp only [memPages, List.mem_cons, List.not_mem_nil, or_false] at hp
  obtain rfl | rfl | rfl | rfl | rfl | rfl := hp <;> rfl

theorem memPage_raw (hp : p ∈ memPages) : Reg.HDR_IRQ_RAW (hdrPage p) / 0x1000 ∈ memPages := by
  rw [memPage_hdr hp, Reg.HDR_IRQ_RAW, show (p * 0x1000 + 0x10) / 0x1000 = p by omega]
  exact hp

section
variable (s)

theorem State.wr_memWork (ha : a / 0x1000 ∈ memPages) : MemWork s (s.wr a w) :=
  MemWork.of_onlyRegs (s.wr_onlyRegs _ _) fun _ hb => State.rd_wr_other _ _ _ _ (ne_of_page hb ha)

theorem State.put_memWork (hx : x.addr / 0x1000 ∈ memPages) : MemWork s (s.put x n) := s.wr_memWork hx

theorem State.raise_memWork (hp : p ∈ memPages) : MemWork s (s.raise p n) :=
  MemWork.of_onlyRegs (s.raise_onlyRegs _ _) fun _ hb => State.raise_rd_other _ _ _ _ (ne_of_page hb (memPage_raw hp))

theorem State.bumpBy_memWork (hx : x.addr / 0x1000 ∈ memPages) : MemWork s (s.bumpBy x n) :=
  MemWork.of_onlyRegs (s.bumpBy_onlyRegs _ _) fun _ hb =>
    State.bumpBy_rd_other _ _ _ _ (ne_of_page hb hx) (ne_of_page hb (memPage_raw hx))

theorem State.bump_memWork (ha : a / 0x1000 ∈ memPages) : MemWork s (s.bump a) := s.bumpBy_memWork ha

theorem State.mem_memWork (c : MemState) : MemWork s { s with mem := c } :=
  ⟨⟨s.regs, s.nv.log, s.isl.rises, s.sram, s.fresh, s.inj, c, rfl⟩, fun _ _ => rfl⟩

theorem State.inj_memWork (i : PerturbState) : MemWork s { s with inj := i } :=
  ⟨⟨s.regs, s.nv.log, s.isl.rises, s.sram, s.fresh, i, s.mem, rfl⟩, fun _ _ => rfl⟩

theorem State.sram_memWork (m : Cells Word) : MemWork s { s with sram := m } :=
  ⟨⟨s.regs, s.nv.log, s.isl.rises, m, s.fresh, s.inj, s.mem, rfl⟩, fun _ _ => rfl⟩

/-! Injections, the map, ECC and faults. -/

theorem State.injLat_memWork (cls n : Nat) : MemWork s (s.injLat cls n) := by
  unfold State.injLat; exact MemWork.ite (MemWork.refl s) (s.bumpBy_memWork (by decide))

theorem State.injPager_memWork (h : Nat) : MemWork s (s.injPager h).2 := by
  unfold State.injPager
  dsimp only
  split
  · exact (s.put_memWork (by decide)).trans (State.bump_memWork _ (by decide))
  · exact MemWork.refl s

theorem State.injEcc_memWork (cls : Nat) : MemWork s (s.injEcc cls).2 := by
  unfold State.injEcc
  dsimp only
  split
  · refine MemWork.trans ?_ (State.bump_memWork _ (by decide))
    exact MemWork.ite ((s.inj_memWork _).trans (State.put_memWork _ (show Reg.PERTURB_ECC_INJ / 0x1000 ∈ memPages by decide)))
      (s.inj_memWork _)
  · exact MemWork.refl s

theorem State.accessMiss_memWork (port addr : Nat) (wr : Bool) : MemWork s (s.accessMiss port addr wr) := by
  unfold State.accessMiss State.raiseIf
  dsimp only
  have h : MemWork s (((((s.put Reg.PWR_ACCESS_MISS_ADDR_ADDR addr).put Reg.PWR_ACCESS_MISS_ADDR_PORT port).put
      Reg.PWR_ACCESS_MISS_ADDR_WR (b2n wr))).bump Reg.PWR_ACCESS_MISS) :=
    (((s.put_memWork (by decide)).trans (State.put_memWork _ (by decide))).trans (State.put_memWork _ (by decide))).trans
      (State.bump_memWork _ (by decide))
  exact MemWork.ite (h.trans (State.raise_memWork _ (by decide))) h

theorem State.mapMiss_memWork (wr : Bool) : MemWork s (s.mapMiss wr) := by
  unfold State.mapMiss; exact MemWork.ite (MemWork.refl s) (s.accessMiss_memWork _ _ _)

theorem State.beats_memWork (hcls : cls < 5) : MemWork s (s.beats cls n) := by
  refine s.bumpBy_memWork ?_
  simp only [wholeFld, Reg.SCHED_BEATS_C, memPages, List.mem_cons]
  omega

theorem State.sramWr_memWork (b v : Nat) : MemWork s (s.sramWr b v w) := s.sram_memWork _

theorem State.raiseIf_memWork (c : Bool) (hp : p ∈ memPages) : MemWork s (s.raiseIf c p n) := by
  unfold State.raiseIf; exact MemWork.ite (s.raise_memWork hp) (MemWork.refl s)

theorem State.setErr_memWork (p v : Nat) : MemWork s (s.setErr p v) := s.sramWr_memWork _ _
theorem State.setPhys_memWork (p i v : Nat) : MemWork s (s.setPhys p i v) := s.sramWr_memWork _ _
theorem State.setMap_memWork (i p : Nat) (c m : Bool) : MemWork s (s.setMap i p c m) := s.sramWr_memWork _ _

theorem State.retireStart_memWork (p : Nat) : MemWork s (s.retireStart p) := by
  unfold State.retireStart
  refine MemWork.ite (MemWork.refl s) ?_
  split
  · exact ((s.setErr_memWork _ _).trans (State.bump_memWork _ (by decide))).trans (State.raise_memWork _ (by decide))
  · exact (((s.setPhys_memWork _ _ _).trans (State.put_memWork _ (show Reg.REGION_FREE_PAGES / 0x1000 ∈ memPages by decide))).trans
      (State.setMap_memWork _ _ _ _ _)).trans (State.mem_memWork _ _)

theorem State.countPageError_memWork (p : Nat) : MemWork s (s.countPageError p) := by
  unfold State.countPageError
  refine MemWork.ite (s.setErr_memWork _ _) ?_
  exact MemWork.ite ((s.setErr_memWork _ _).trans (State.retireStart_memWork _ _)) (s.setErr_memWork _ _)

theorem State.lastErr_memWork (pa : Nat) (b : Bool) : MemWork s (s.lastErr pa b) :=
  (((s.put_memWork (by decide)).trans (State.put_memWork _ (by decide))).trans (State.put_memWork _ (by decide))).trans
    (State.wr_memWork _ (by decide))

theorem State.eccCorrect_memWork (pa : Nat) : MemWork s (s.eccCorrect pa) :=
  ((((s.beats_memWork (by decide)).trans (State.bump_memWork _ (by decide))).trans (State.raise_memWork _ (by decide))).trans
    (State.lastErr_memWork _ _ _)).trans (State.countPageError_memWork _ _)

theorem State.eccUncorr_memWork (pa : Nat) : MemWork s (s.eccUncorr pa) :=
  ((s.bump_memWork (by decide)).trans (State.raise_memWork _ (by decide))).trans (State.lastErr_memWork _ _ _)

/-- The registers of an engine's faults. -/
theorem fltPage (he : e < 16) (hk : k < 16) : (0x110100 + 16 * e + k) / 0x1000 ∈ memPages := by
  simp only [memPages, List.mem_cons]; omega

theorem State.memFault_memWork (he : e < 16) (kind h ofs done : Nat) : MemWork s (s.memFault e kind h ofs done) := by
  have hinfo : Reg.MEMC_FLT_INFO e / 0x1000 ∈ memPages := fltPage he (k := 0) (by decide)
  have hofs : Reg.MEMC_FLT_OFS e / 0x1000 ∈ memPages := by
    have := fltPage he (k := 4) (by decide); rwa [Nat.add_right_comm] at this
  have hdone : Reg.MEMC_FLT_DONE e / 0x1000 ∈ memPages := by
    have := fltPage he (k := 8) (by decide); rwa [Nat.add_right_comm] at this
  unfold State.memFault
  dsimp only
  have h : MemWork s ((((((s.put (Reg.MEMC_FLT_INFO_KIND e) kind).put (Reg.MEMC_FLT_INFO_CLASS e) (engineClass e)).put
      (Reg.MEMC_FLT_INFO_HANDLE e) h).wrN (Reg.MEMC_FLT_OFS e) ofs).wrN (Reg.MEMC_FLT_DONE e) done).bumpBy
      (Reg.MEMC_FLT_INFO_FAULT_CNT e) 1) :=
    (((((s.put_memWork hinfo).trans (State.put_memWork _ hinfo)).trans (State.put_memWork _ hinfo)).trans
      (State.wr_memWork _ hofs)).trans (State.wr_memWork _ hdone)).trans (State.bumpBy_memWork _ hinfo)
  refine MemWork.ite (h.trans ?_) h
  exact (((((State.bump_memWork _ (by decide)).trans (State.put_memWork _ (by decide))).trans (State.put_memWork _ (by decide))).trans
    (State.put_memWork _ (by decide))).trans (State.wr_memWork _ (by decide))).trans (State.raise_memWork _ (by decide))

theorem engineClass_lt (e : Nat) : engineClass e < 5 := by unfold engineClass; split_ifs <;> omega

theorem State.beatsRead_memWork (he : e < 16) (h ofs n : Nat) : MemWork s (s.beatsRead e h ofs n).1 := by
  unfold State.beatsRead
  dsimp only
  have hfirst := ((s.beats_memWork (n := (ofs % 64 + n + 63) / 64) (engineClass_lt e)).trans
    (State.injLat_memWork _ (engineClass e) ((ofs % 64 + n + 63) / 64))).trans (State.mapMiss_memWork _ false)
  generalize (((s.beats (engineClass e) ((ofs % 64 + n + 63) / 64)).injLat (engineClass e) ((ofs % 64 + n + 63) / 64)).mapMiss false) = v
    at hfirst ⊢
  have hpager := hfirst.trans (v.injPager_memWork h)
  generalize v.injPager h = pager at hpager ⊢
  obtain ⟨pk, v⟩ := pager
  have hecc := hpager.trans (v.injEcc_memWork (engineClass e))
  generalize v.injEcc (engineClass e) = ecc at hecc ⊢
  obtain ⟨ek, v⟩ := ecc
  dsimp only at hecc ⊢
  generalize (if n = 0 then 0 else v.readFault h (ofs / 64 * 64) (64 * ((ofs % 64 + n + 63) / 64))) = own
  generalize (if (pk != 0) = true then pk else if (own != 0) = true then own else if ek = 2 then 3 else 0) = kind
  have hfixed : MemWork s (if ek = 1 ∧ kind = 0 then v.eccCorrect ((v.xlate h ofs).getD 0) else v) :=
    MemWork.ite (hecc.trans (State.eccCorrect_memWork _ _)) hecc
  generalize (if ek = 1 ∧ kind = 0 then v.eccCorrect ((v.xlate h ofs).getD 0) else v) = v at hfixed ⊢
  split
  · exact hfixed
  · exact (MemWork.ite (hfixed.trans (State.eccUncorr_memWork _ _)) hfixed).trans (State.memFault_memWork _ he _ _ _ _)

end

end Sys2Proof.Machine
end

section
/-! PROOFS. The check of a patch set and the coarse set (R219, R222). -/

namespace Sys2Proof.Machine

variable {s t u : State} {port h n why : Nat} {w : Word} {x : Fld}

@[simp] theorem State.rd_pat (s : State) (a : Nat) (c : PatchState) : ({ s with pat := c } : State).rd a = s.rd a := rfl
@[simp] theorem State.fld_pat (s : State) (x : Fld) (c : PatchState) : ({ s with pat := c } : State).fld x = s.fld x := rfl
@[simp] theorem State.gateClosed_pat (s : State) (p : Nat) (c : PatchState) :
    ({ s with pat := c } : State).gateClosed p = s.gateClosed p := rfl

/-! CHECK (R219). -/

theorem exec_checkStart_left (hs : s.Serves .PATCH 0x60) :
    exec (.checkStart port w) s = .next (s.left (s.checkWrite (Reg.PATCH_CHECK_START.put w 1))) := by
  have hwrite : s.hostWrite port Reg.PATCH_CHECK (Reg.PATCH_CHECK_START.put w 1) = s.checkWrite (Reg.PATCH_CHECK_START.put w 1) :=
    State.hostWrite_acts (u := .PATCH) (a := Reg.PATCH_CHECK) hs (by decide) rfl
  rw [exec_checkStart, State.unheld_live hs.live, hwrite]

/-- SET is stored, and names the set to be checked. -/
def State.checkSet (s : State) (k : Nat) : State := s.put Reg.PATCH_CHECK_SET k

theorem State.checkSet_fld (h : Reg.PATCH_CHECK ≠ x.addr) {k : Nat} : (s.checkSet k).fld x = s.fld x := by
  rw [State.fld, State.checkSet, State.rd_put_other (x := Reg.PATCH_CHECK_SET) h, State.fld]

theorem State.checkSet_set {k : Nat} (hk : k < 2) : (s.checkSet k).fld Reg.PATCH_CHECK_SET = k := by
  rw [State.checkSet, State.fld_put_mod (by decide)]
  exact Nat.mod_eq_of_lt hk

/-- The handle and the byte count of a set of the pending configuration. -/
def State.checkOf (s : State) (k : Nat) : Nat × Nat :=
  if k = 0 then (s.fld Reg.PATCH_SET0_HANDLE, if s.flag Reg.PATCH_CFG_COARSE0 then s.patchCoarsePend.bytes else s.patchFullPend.bytes)
  else (s.fld Reg.PATCH_SET1_HANDLE, if s.flag Reg.PATCH_CFG_COARSE1 then s.patchCoarsePend.bytes else s.patchFullPend.bytes)

theorem State.checkSet_checkOf {k j : Nat} : (s.checkSet k).checkOf j = s.checkOf j := by
  have hfld : ∀ x : Fld, Reg.PATCH_CHECK ≠ x.addr → (s.checkSet k).fld x = s.fld x := fun _ hx => State.checkSet_fld hx
  have hflag : ∀ x : Fld, Reg.PATCH_CHECK ≠ x.addr → (s.checkSet k).flag x = s.flag x := fun x hx => by
    rw [State.flag, hfld x hx, State.flag]
  have hwm : (s.checkSet k).wmPend = s.wmPend := by
    rw [State.wmPend, hfld _ (by decide), hflag _ (by decide), hflag _ (by decide), State.wmPend]
  have hcoarse : (s.checkSet k).patchCoarsePend = s.patchCoarsePend := by
    rw [State.patchCoarsePend, hfld _ (by decide), hfld _ (by decide), hwm, State.patchCoarsePend]
  have hfull : (s.checkSet k).patchFullPend = s.patchFullPend := by
    rw [State.patchFullPend, hfld _ (by decide), hfld _ (by decide), hwm, State.patchFullPend]
  rw [State.checkOf, hfld Reg.PATCH_SET0_HANDLE (by decide), hfld Reg.PATCH_SET1_HANDLE (by decide),
    hflag Reg.PATCH_CFG_COARSE0 (by decide), hflag Reg.PATCH_CFG_COARSE1 (by decide), hcoarse, hfull, State.checkOf]

theorem State.checkWrite_start : s.checkWrite (Reg.PATCH_CHECK_START.put w 1) =
    if (s.checkSet (w.toNat / 16 % 2)).flag Reg.PATCH_CHECK_STATUS_BUSY then s.checkSet (w.toNat / 16 % 2)
    else { ((s.checkSet (w.toNat / 16 % 2)).wrN Reg.PATCH_CHECK_STATUS 1).wrN Reg.PATCH_CHECK_CRC 0 with
      pat := { s.pat with check := some ((s.checkSet (w.toNat / 16 % 2)).checkOf (w.toNat / 16 % 2)) } } := by
  have hset : Reg.PATCH_CHECK_SET.get (Reg.PATCH_CHECK_START.put w 1) = w.toNat / 16 % 2 :=
    Fld.get_put_other Reg.PATCH_CHECK_START Reg.PATCH_CHECK_SET w 1 (by decide) (by decide)
  have hstart : Reg.PATCH_CHECK_START.get (Reg.PATCH_CHECK_START.put w 1) = 1 := Fld.get_put_self Reg.PATCH_CHECK_START w 1 (by decide)
  have hset' : (s.put Reg.PATCH_CHECK_SET (w.toNat / 16 % 2)).fld Reg.PATCH_CHECK_SET = w.toNat / 16 % 2 :=
    State.checkSet_set (Nat.mod_lt _ (by decide))
  rw [State.checkWrite, hset, hstart]
  simp only [Nat.one_ne_zero, false_or, hset', State.checkSet]
  obtain hk | hk : w.toNat / 16 % 2 = 0 ∨ w.toNat / 16 % 2 = 1 := by omega
  · rw [hk]; rfl
  · rw [hk]; rfl

theorem exec_checkStart_effect (hs : s.Serves .PATCH 0x60) :
    ∃ t, exec (.checkStart port w) s = .next t ∧ t.fld Reg.PATCH_CHECK_SET = w.toNat / 16 % 2 ∧
      (s.flag Reg.PATCH_CHECK_STATUS_BUSY = true → t.pat = s.pat ∧ t.rd Reg.PATCH_CHECK_STATUS = s.rd Reg.PATCH_CHECK_STATUS) ∧
      (s.flag Reg.PATCH_CHECK_STATUS_BUSY = false → t.rd Reg.PATCH_CHECK_STATUS = 1 ∧ t.rd Reg.PATCH_CHECK_CRC = 0 ∧
        t.pat.check = some (s.checkOf (w.toNat / 16 % 2))) := by
  have hbusy : (s.checkSet (w.toNat / 16 % 2)).flag Reg.PATCH_CHECK_STATUS_BUSY = s.flag Reg.PATCH_CHECK_STATUS_BUSY := by
    rw [State.flag, State.checkSet_fld (by decide), State.flag]
  have hset : (s.checkSet (w.toNat / 16 % 2)).fld Reg.PATCH_CHECK_SET = w.toNat / 16 % 2 := State.checkSet_set (Nat.mod_lt _ (by decide))
  have hexec : exec (.checkStart port w) s = .next (s.left (s.checkWrite (Reg.PATCH_CHECK_START.put w 1))) := exec_checkStart_left hs
  rw [State.checkWrite_start, hbusy, State.checkSet_checkOf] at hexec
  cases hold : s.flag Reg.PATCH_CHECK_STATUS_BUSY with
  | true =>
    rw [hold, if_pos rfl] at hexec
    have hrd : (s.checkSet (w.toNat / 16 % 2)).rd Reg.PATCH_CHECK_STATUS = s.rd Reg.PATCH_CHECK_STATUS := State.rd_put_other (by decide)
    exact ⟨_, hexec, hset, fun _ => ⟨rfl, hrd⟩, fun h => (Bool.false_ne_true h.symm).elim⟩
  | false =>
    rw [hold, if_neg Bool.false_ne_true] at hexec
    refine ⟨_, hexec, ?_, fun h => (Bool.false_ne_true h).elim, fun _ => ⟨?_, ?_, rfl⟩⟩
    · rw [State.left_fld, State.fld_pat, State.wrN, State.fld_wr_other (by decide), State.wrN, State.fld_wr_other (by decide), hset]
    · rw [State.left_rd, State.rd_pat, State.wrN, State.rd_wr_other _ _ _ _ (by decide), State.wrN, State.rd_wr_self]; rfl
    · rw [State.left_rd, State.rd_pat, State.wrN, State.rd_wr_self]; rfl

/-! The end of the check (R219). -/

theorem State.engRead_check (s : State) (h n : Nat) : s.engRead 11 h 0 n = s.beatsRead 11 h 0 n := by
  rw [State.engRead, State.admits, if_pos (by decide)]

/-- The check is over with a status, a CRC and CHECK_DONE. -/
def State.checkEnded (s : State) (status crc : Nat) : State :=
  (({ s with pat := { s.pat with check := none } } : State).wrN Reg.PATCH_CHECK_STATUS status).wrN Reg.PATCH_CHECK_CRC crc |>.raise 0x60 3

theorem State.checkDone_eq (hcheck : s.pat.check = some (h, n)) : s.checkDone =
    (s.engRead 11 h 0 n).1.checkEnded (if (s.engRead 11 h 0 n).2.1 = 0 then 2 else 6)
      (if (s.engRead 11 h 0 n).2.1 = 0 then crc32 (s.engRead 11 h 0 n).2.2 else 0) := by
  rw [State.checkDone, hcheck]
  rfl

theorem State.checkEnded_effect {status crc : Nat} (hgate : s.gateClosed 0x60 = false) :
    (s.checkEnded status crc).pat.check = none ∧ (∀ x : Fld, x.addr = Reg.PATCH_CHECK_STATUS →
      (s.checkEnded status crc).fld x = x.get (BitVec.ofNat 32 status)) ∧
      (s.checkEnded status crc).fld ⟨Reg.HDR_IRQ_RAW 0x60, 3, 1⟩ = 1 ∧
      (s.checkEnded status crc).rd Reg.PATCH_CHECK_CRC = BitVec.ofNat 32 crc := by
  refine ⟨?_, fun x hx => ?_, ?_, ?_⟩
  · have hpat : ∀ v w : State, OnlyRegs v w → w.pat = v.pat := by rintro v _ ⟨_, _, _, rfl⟩; rfl
    rw [State.checkEnded, hpat _ _ (State.raise_onlyRegs _ _ _)]
    rfl
  · rw [State.checkEnded, State.fld_raise_other (by rw [hx]; decide), State.wrN, State.fld_wr_other (by rw [hx]; decide), State.wrN,
      State.fld_wr_self hx.symm]
  · refine State.fld_raise_self ?_ (by decide)
    rw [State.wrN, State.gateClosed_wr (by decide), State.wrN, State.gateClosed_wr (by decide), State.gateClosed_pat]
    exact hgate
  · rw [State.checkEnded, State.raise_rd_other _ _ _ _ (by decide), State.wrN, State.rd_wr_self]

theorem exec_checkDone_effect (hlive : s.boot.resetLow = false) (hcheck : s.pat.check = some (h, n)) (hready : s.dramReady = true)
    (hgate : s.gateClosed 0x60 = false) :
    ∃ t, exec .checkDone s = .next t ∧ t.pat.check = none ∧ t.flag Reg.PATCH_CHECK_STATUS_BUSY = false ∧
      t.flag Reg.PATCH_CHECK_STATUS_DONE = true ∧ t.fld ⟨Reg.HDR_IRQ_RAW 0x60, 3, 1⟩ = 1 ∧
      t.flag Reg.PATCH_CHECK_STATUS_FAULT = decide ((s.engRead 11 h 0 n).2.1 ≠ 0) ∧
      t.rd Reg.PATCH_CHECK_CRC = if (s.engRead 11 h 0 n).2.1 = 0
        then BitVec.ofNat 32 (crc32 (s.engRead 11 h 0 n).2.2) else 0 := by
  have hexec : exec .checkDone s = .next (s.left s.checkDone) := by
    rw [exec_checkDone, State.unheld_live hlive, hcheck]
    simp only [Option.isSome_some, if_true, State.withDram, hready]
  have hwork : MemWork s (s.engRead 11 h 0 n).1 := by rw [State.engRead_check]; exact s.beatsRead_memWork (by decide) h 0 n
  rw [State.checkDone_eq hcheck] at hexec
  generalize s.engRead 11 h 0 n = r at hexec hwork ⊢
  obtain ⟨v, kind, bytes⟩ := r
  dsimp only at hexec hwork ⊢
  have hopen : v.gateClosed 0x60 = false := by rw [State.gateClosed_congr (hwork.rd _ (by decide))]; exact hgate
  obtain ⟨hnone, hstatus, hraised, hcrc⟩ := State.checkEnded_effect (status := if kind = 0 then 2 else 6)
    (crc := if kind = 0 then crc32 bytes else 0) hopen
  refine ⟨_, hexec, hnone, ?_, ?_, hraised, ?_, hcrc.trans ?_⟩
  · rw [State.left_flag, State.flag, hstatus _ rfl]; split <;> rfl
  · rw [State.left_flag, State.flag, hstatus _ rfl]; split <;> rfl
  · rw [State.left_flag, State.flag, hstatus _ rfl]
    by_cases hk : kind = 0
    · rw [if_pos hk]; simp only [hk, ne_eq, not_true, decide_false]; rfl
    · rw [if_neg hk]; simp only [hk, ne_eq, not_false_iff, decide_true]; rfl
  · split <;> rfl

theorem patchChecks : Rules.PatchChecks := by
  refine ⟨fun s port w hs => ?_, fun s h n hlive hcheck hready hgate => exec_checkDone_effect hlive hcheck hready hgate⟩
  obtain ⟨t, hexec, hset, hbusy, hfree⟩ := exec_checkStart_effect (port := port) (w := w) hs
  exact ⟨t, hexec, hset, hbusy, hfree⟩

/-! The coarse set (R222). -/

variable {head : List Byte}

theorem State.coarseWhy_no_image (h : leVal (head.take 4) ≠ 0x43504D31) : s.coarseWhy head = 1 := by
  rw [State.coarseWhy]; exact if_pos h

theorem State.coarseWhy_size (h : leVal (head.take 4) = 0x43504D31)
    (hn : leVal ((head.drop 12).take 4) ≠ (patchCoarse s.hact s.vact s.wm).bytes) : s.coarseWhy head = 2 := by
  rw [State.coarseWhy]
  exact (if_neg (not_not.2 h)).trans (if_pos (Or.inl hn))

theorem State.coarseWhy_crc (h : leVal (head.take 4) = 0x43504D31)
    (hcrc : crc32 (head.take 60 ++ s.flashRd 0x810040 (leVal ((head.drop 12).take 4))) ≠ leVal (head.drop 60)) :
    s.coarseWhy head = 2 ∨ s.coarseWhy head = 3 := by
  rw [State.coarseWhy, if_neg (not_not.2 h), if_pos hcrc]
  split
  · exact Or.inl rfl
  · exact Or.inr rfl

theorem State.coarseWhy_lt (s : State) (head : List Byte) : s.coarseWhy head < 4 := by
  unfold State.coarseWhy
  dsimp only
  split_ifs <;> decide

theorem State.coarseFails_onlyRegs (s : State) (why : Nat) : OnlyRegs s (s.coarseFails why) :=
  ((s.put_onlyRegs _ _).trans (State.put_onlyRegs _ _ _)).trans (State.raise_onlyRegs _ _ _)

theorem State.coarseFails_effect (hgate : s.gateClosed 0x60 = false) (hwhy : why < 16) :
    (s.coarseFails why).flag Reg.PATCH_STATUS_COARSE_BAD = true ∧ (s.coarseFails why).fld Reg.PATCH_STATUS_COARSE_WHY = why ∧
      (s.coarseFails why).fld ⟨Reg.HDR_IRQ_RAW 0x60, 4, 1⟩ = 1 := by
  refine ⟨State.flag_iff.2 ?_, ?_, State.fld_raise_self ?_ (by decide)⟩
  · rw [State.coarseFails, State.fld_raise_other (by decide), State.fld_put_apart (by decide), State.fld_put_mod (by decide)]
    decide
  · rw [State.coarseFails, State.fld_raise_other (by decide), State.fld_put_mod (by decide)]
    exact Nat.mod_eq_of_lt hwhy
  · rw [State.gateClosed_put (by decide), State.gateClosed_put (by decide)]; exact hgate

/-- At a start-up from flash at which the firmware has not looked at the coarse image yet. -/
def State.CoarseDue (s : State) : Prop :=
  s.firmware = true ∧ s.flag Reg.HOSTIF_STRAPS_BOOT_SRC = false ∧ s.flag Reg.PATCH_STATUS_COARSE_LOADED = false ∧
    s.flag Reg.PATCH_STATUS_COARSE_BAD = false ∧ s.pat.coarseDue = false

theorem State.coarseSetLoad_fails (hdue : s.CoarseDue) (hwhy : s.coarseWhy (s.flashRd 0x810000 64) ≠ 0) :
    s.coarseSetLoad = s.coarseFails (s.coarseWhy (s.flashRd 0x810000 64)) := by
  obtain ⟨hfirm, hsrc, hloaded, hbad, hlook⟩ := hdue
  rw [State.coarseSetLoad, hfirm, hsrc, hloaded, hbad, hlook]
  exact (if_neg Bool.false_ne_true).trans (if_pos hwhy)

theorem State.coarseSetLoad_good (hdue : s.CoarseDue) (hhead : head = s.flashRd 0x810000 64) (hwhy : s.coarseWhy head = 0)
    (hfree : s.boot.copyTo = none) (hready : s.dramReady = true) :
    s.coarseSetLoad = s.coreAlloc 2 (ceilDiv (leVal ((head.drop 12).take 4)) 65536) true true
      (fun s h => s.coreStore 2 h (s.flashRd 0x810040 (leVal ((head.drop 12).take 4))) (State.coarseStored head))
      (fun s => s.coarseFails 4) := by
  obtain ⟨hfirm, hsrc, hloaded, hbad, hlook⟩ := hdue
  subst hhead
  rw [State.coarseSetLoad, hfirm, hsrc, hloaded, hbad, hlook]
  refine ((if_neg Bool.false_ne_true).trans (if_neg (not_not.2 hwhy))).trans ?_
  rw [State.coreStored, hfree]
  exact if_pos hready

/-- A service whose request MEMC has answered goes on. -/
theorem State.coreAlloc_answered {who pages : Nat} {cls0 commit : Bool} {go : State → Nat → State} {fail : State → State}
    (hask : s.boot.ask = who) (hqueue : s.mem.queue = []) (hres : s.rd (perPort 3 Reg.REGION_RESULT) ≠ 0)
    (hdone : s.flag (resultFld 3 Reg.REGION_RESULT_BUSY) = false) :
    s.coreAlloc who pages cls0 commit go fail =
      if s.fld (resultFld 3 Reg.REGION_RESULT_STATUS) = 0
      then go { s with boot := { s.boot with ask := 0 } } (s.fld (resultFld 3 Reg.REGION_RESULT_HANDLE))
      else fail { s with boot := { s.boot with ask := 0 } } := by
  have hwaits : s.boot.ask = who ∧ s.rd (perPort 3 Reg.REGION_RESULT) ≠ 0 := ⟨hask, hres⟩
  rw [State.coreAlloc]
  dsimp only
  rw [if_pos hwaits, if_neg (not_not.2 hask), hqueue, List.length_nil, State.regionRun,
    if_neg (by rw [hdone]; exact Bool.false_ne_true)]

/-- What RESULT says of an answered request. -/
theorem State.result_fields {st h : Nat} (hres : s.rd (perPort 3 Reg.REGION_RESULT) = BitVec.ofNat 32 (2 + 16 * st + 256 * h))
    (hst : st < 16) (hh : h < 64) :
    s.rd (perPort 3 Reg.REGION_RESULT) ≠ 0 ∧ s.flag (resultFld 3 Reg.REGION_RESULT_BUSY) = false ∧
      s.fld (resultFld 3 Reg.REGION_RESULT_STATUS) = st ∧ s.fld (resultFld 3 Reg.REGION_RESULT_HANDLE) = h := by
  have hword : (s.rd (perPort 3 Reg.REGION_RESULT)).toNat = 2 + 16 * st + 256 * h := by
    rw [hres, BitVec.toNat_ofNat, Nat.mod_eq_of_lt (by omega)]
  have hfld : ∀ x : Fld, x.addr = Reg.REGION_RESULT → s.fld (resultFld 3 x) = (2 + 16 * st + 256 * h) / 2 ^ x.lo % 2 ^ x.w :=
    fun x hx => by rw [State.fld, resultFld, Fld.get, hx, hword]
  refine ⟨fun h0 => ?_, State.flag_eq_false_iff.2 ?_, ?_, ?_⟩
  · rw [h0] at hword
    change 0 = _ at hword
    omega
  · rw [hfld _ rfl]
    change (2 + 16 * st + 256 * h) / 2 ^ 0 % 2 ^ 1 = 0
    omega
  · rw [hfld _ rfl]
    change (2 + 16 * st + 256 * h) / 2 ^ 4 % 2 ^ 4 = st
    omega
  · rw [hfld _ rfl]
    change (2 + 16 * st + 256 * h) / 2 ^ 8 % 2 ^ 6 = h
    omega

theorem State.coarseStored_due (s : State) (h k : Nat) : (State.coarseStored head s h k).pat.coarseDue = true := rfl

theorem State.coreStore_done {who h : Nat} {l : List Byte} {go : State → Nat → Nat → State} {v : State}
    (hstore : s.storeRun 13 h 0 l = (v, 0)) : s.coreStore who h l go = go v h l.length := by
  rw [State.coreStore, hstore]
  exact if_pos rfl

theorem coarseSetLoads : Rules.CoarseSetLoads := by
  intro s head n hlive hfirm hsrc hloaded hbad hlook hgate hhead hn
  have hdue : s.CoarseDue := ⟨hfirm, hsrc, hloaded, hbad, hlook⟩
  have hexec : exec .coarseSetLoad s = .next (s.left s.coarseSetLoad) := (exec_coarseSetLoad s).trans (State.unheld_live hlive)
  subst hn
  refine ⟨State.coarseWhy_no_image, State.coarseWhy_size, State.coarseWhy_crc, fun why hwhy hne => ?_,
    fun hgood hfree hready hask hqueue => ⟨fun h u v hres hh hu hstore => ?_, fun st h hres hpos hst hh => ?_⟩⟩
  · rw [State.coarseSetLoad_fails hdue (by rw [← hhead, ← hwhy]; exact hne), ← hhead, ← hwhy] at hexec
    have hlt : why < 16 := by have := s.coarseWhy_lt head; omega
    obtain ⟨hshown, hreason, hraised⟩ := State.coarseFails_effect (why := why) hgate hlt
    obtain ⟨_, _, _, heq⟩ := s.coarseFails_onlyRegs why
    refine ⟨_, hexec, hshown, hreason, hraised, ?_, ?_⟩
    · rw [heq]; rfl
    · rw [heq]; rfl
  · obtain ⟨hany, hdone, hok, hhandle⟩ := State.result_fields (s := s) (st := 0) hres (by decide) hh
    rw [State.coarseSetLoad_good hdue hhead hgood hfree hready, State.coreAlloc_answered hask hqueue hany hdone, if_pos hok, hhandle,
      ← hu] at hexec
    have hbytes : u.flashRd = s.flashRd := by rw [hu]; rfl
    rw [hbytes, State.coreStore_done hstore] at hexec
    have hset := State.coarseStored_due (head := head) v h (s.flashRd 0x810040 (leVal ((head.drop 12).take 4))).length
    generalize State.coarseStored head v h (s.flashRd 0x810040 (leVal ((head.drop 12).take 4))).length = t at hexec hset
    exact ⟨_, hexec, hset⟩
  · obtain ⟨hany, hdone, hstatus, -⟩ := State.result_fields (s := s) hres hst hh
    rw [State.coarseSetLoad_good hdue hhead hgood hfree hready, State.coreAlloc_answered hask hqueue hany hdone,
      if_neg (by rw [hstatus]; omega)] at hexec
    obtain ⟨hshown, hreason, hraised⟩ := State.coarseFails_effect (s := { s with boot := { s.boot with ask := 0 } }) (why := 4)
      ((State.gateClosed_boot s 0x60 _).trans hgate) (by decide)
    exact ⟨_, hexec, hshown, hreason, hraised⟩

/-- Settles O32: the interpolation segment by segment, the check by the frame of its read, the coarse set by its steps. -/
theorem patchesCorrect : Obligations.PatchesCorrect := ⟨patchCorrects, patchChecks, coarseSetLoads⟩

end Sys2Proof.Machine
end

section
/-! PROOFS. Registers written within some pages only, and what NVC's operations leave of the rest of the state (R434 to
R443). -/

namespace Sys2Proof.Machine

variable {s t u : State} {a k n p : Nat} {w : Word} {x : Fld} {ps qs : List Nat}

/-- Nothing differs but registers of some pages, with the event log. -/
structure Within (ps : List Nat) (s t : State) : Prop where
  only : OnlyRegs s t
  rd : ∀ a, a / 0x1000 ∉ ps → t.rd a = s.rd a

theorem Within.refl (ps : List Nat) (s : State) : Within ps s s := ⟨OnlyRegs.refl s, fun _ _ => rfl⟩

theorem Within.trans (h : Within ps s t) (g : Within ps t u) : Within ps s u :=
  ⟨h.only.trans g.only, fun a ha => (g.rd a ha).trans (h.rd a ha)⟩

theorem Within.ite {c : Prop} [Decidable c] (ht : Within ps s t) (hu : Within ps s u) : Within ps s (if c then t else u) := by
  split
  exacts [ht, hu]

theorem Within.fld (h : Within ps s t) (hx : x.addr / 0x1000 ∉ ps) : t.fld x = s.fld x := by
  rw [State.fld, h.rd _ hx, State.fld]

theorem HDR_IRQ_RAW_page (p : Nat) : Reg.HDR_IRQ_RAW p / 0x1000 = p := by
  rw [Reg.HDR_IRQ_RAW]; omega

theorem HDR_CTRL_page (p : Nat) : Reg.HDR_CTRL p / 0x1000 = p := by
  rw [Reg.HDR_CTRL]; omega

theorem Within.gateClosed (h : Within ps s t) (hp : hdrPage p ∉ ps) : t.gateClosed p = s.gateClosed p :=
  State.gateClosed_congr (h.rd _ (by rwa [HDR_CTRL_page]))

section
variable (s)

theorem State.wr_within (ha : a / 0x1000 ∈ ps) : Within ps s (s.wr a w) :=
  ⟨s.wr_onlyRegs _ _, fun _ hb => State.rd_wr_other _ _ _ _ fun h => hb (h ▸ ha)⟩

theorem State.put_within (hx : x.addr / 0x1000 ∈ ps) : Within ps s (s.put x n) := s.wr_within hx

theorem State.raise_within (hp : hdrPage p ∈ ps) : Within ps s (s.raise p n) :=
  ⟨s.raise_onlyRegs _ _, fun _ hb => State.raise_rd_other _ _ _ _ fun h => hb (by rwa [← h, HDR_IRQ_RAW_page])⟩

theorem State.bumpBy_within (hx : x.addr / 0x1000 ∈ ps) (hp : hdrPage (x.addr / 0x1000) ∈ ps) : Within ps s (s.bumpBy x n) :=
  ⟨s.bumpBy_onlyRegs _ _, fun _ hb => State.bumpBy_rd_other _ _ _ _ (fun h => hb (h ▸ hx))
    fun h => hb (by rwa [← h, HDR_IRQ_RAW_page])⟩

theorem State.bump_within (ha : a / 0x1000 ∈ ps) (hp : hdrPage (a / 0x1000) ∈ ps) : Within ps s (s.bump a) := s.bumpBy_within ha hp

theorem State.raiseIf_within (c : Bool) (hp : hdrPage p ∈ ps) : Within ps s (s.raiseIf c p n) := by
  unfold State.raiseIf
  exact Within.ite (s.raise_within hp) (Within.refl ps s)

end

/-! NVC. -/

/-- The pages whose registers an operation of NVC reaches: NV, and CTL where the mailbox waits for it. -/
def nvPages : List Nat := [6, 9]

/-- Nothing differs but what NVC works on: its own state, those registers, and what leaves for the flash. -/
structure NvWork (s t : State) : Prop where
  state : ∃ r c e o, t = { s with regs := r, nv := c, isl := { s.isl with rises := e }, out := o }
  rd : ∀ a, a / 0x1000 ∉ nvPages → t.rd a = s.rd a

theorem NvWork.refl (s : State) : NvWork s s := ⟨⟨s.regs, s.nv, s.isl.rises, s.out, rfl⟩, fun _ _ => rfl⟩

theorem NvWork.trans (h : NvWork s t) (g : NvWork t u) : NvWork s u := by
  refine ⟨?_, fun a ha => (g.rd a ha).trans (h.rd a ha)⟩
  obtain ⟨r, c, e, o, rfl⟩ := h.state
  obtain ⟨r', c', e', o', rfl⟩ := g.state
  exact ⟨r', c', e', o', rfl⟩

theorem Within.nvWork (h : Within nvPages s t) : NvWork s t := by
  refine ⟨?_, h.rd⟩
  obtain ⟨r, l, e, rfl⟩ := h.only
  exact ⟨r, _, e, s.out, rfl⟩

theorem NvWork.ite {c : Prop} [Decidable c] (ht : NvWork s t) (hu : NvWork s u) : NvWork s (if c then t else u) := by
  split
  exacts [ht, hu]

section
variable (s)

theorem State.nv_nvWork (c : NvState) : NvWork s { s with nv := c } := ⟨⟨s.regs, c, s.isl.rises, s.out, rfl⟩, fun _ _ => rfl⟩
theorem State.nvDo_nvWork (l : List NvStep) : NvWork s (s.nvDo l) := s.nv_nvWork _
theorem State.emit_nvWork (k : OutKind) (d : Nat) (l : List Nat) : NvWork s (s.emit k d l) :=
  ⟨⟨s.regs, s.nv, s.isl.rises, _, rfl⟩, fun _ _ => rfl⟩
theorem State.wr_nvWork (ha : a / 0x1000 ∈ nvPages) : NvWork s (s.wr a w) := (s.wr_within ha).nvWork
theorem State.put_nvWork (hx : x.addr / 0x1000 ∈ nvPages) : NvWork s (s.put x n) := (s.put_within hx).nvWork
theorem State.raise_nvWork (hp : hdrPage p ∈ nvPages) : NvWork s (s.raise p n) := (s.raise_within hp).nvWork
theorem State.bump_nvWork (ha : a / 0x1000 ∈ nvPages) (hp : hdrPage (a / 0x1000) ∈ nvPages) : NvWork s (s.bump a) :=
  (s.bump_within ha hp).nvWork

theorem State.nvShow_nvWork : NvWork s s.nvShow := by
  unfold State.nvShow
  have h := (s.wr_nvWork (a := Reg.NV_NEXT_SEQ) (w := BitVec.ofNat 32 s.nv.nextSeq) (by decide)).trans
    (State.wr_nvWork _ (a := Reg.NV_ERA) (w := BitVec.ofNat 32 s.nv.era) (by decide))
  exact NvWork.ite (h.trans (State.wr_nvWork _ (by decide))) (h.trans (State.wr_nvWork _ (by decide)))

theorem State.setFull_nvWork : NvWork s s.setFull := by
  unfold State.setFull
  exact NvWork.ite (NvWork.refl s) ((s.put_nvWork (by decide)).trans (State.raise_nvWork _ (by decide)))

theorem State.wpRefused_nvWork : NvWork s s.wpRefused := s.bump_nvWork (by decide) (by decide)

theorem State.mboxEnd_nvWork (status : Nat) : NvWork s (s.mboxEnd status) := by
  unfold State.mboxEnd
  refine NvWork.ite ?_ (NvWork.refl s)
  exact (((s.put_nvWork (by decide)).trans (State.put_nvWork _ (by decide))).trans (State.put_nvWork _ (by decide))).trans
    (State.raise_nvWork _ (by decide))

theorem State.flashIssue_nvWork : NvWork s s.flashIssue := by
  unfold State.flashIssue
  split
  · exact s.emit_nvWork ..
  · exact s.emit_nvWork ..
  · exact NvWork.refl s

theorem State.nvFail_nvWork (code : Nat) : NvWork s (s.nvFail code) := by
  have hsave : NvWork s s.saveFails := by
    unfold State.saveFails
    refine NvWork.ite ?_ (NvWork.refl s)
    exact ((((s.put_nvWork (by decide)).trans (State.put_nvWork _ (by decide))).trans (State.put_nvWork _ (by decide))).trans
      (State.nv_nvWork _ _)).trans ((State.bump_nvWork _ (by decide) (by decide)).trans (State.raise_nvWork _ (by decide)))
  unfold State.nvFail
  exact (hsave.trans (State.put_nvWork _ (by decide))).trans (State.nv_nvWork _ _)

/-- The end of an operation: BUSY, DONE and the code of its status register, and its event. -/
theorem State.opEnd_nvWork (busy done code : Fld) (v b : Nat) (h1 : busy.addr / 0x1000 ∈ nvPages) (h2 : done.addr / 0x1000 ∈ nvPages)
    (h3 : code.addr / 0x1000 ∈ nvPages) : NvWork s ((((s.put busy 0).put done 1).put code v).raise 6 b) :=
  (((s.put_nvWork h1).trans (State.put_nvWork _ h2)).trans (State.put_nvWork _ h3)).trans (State.raise_nvWork _ (by decide))

end

theorem State.when_nvWork {c : Bool} {f : State → State} (h : NvWork s (f s)) : NvWork s (s.when c f) := by
  unfold State.when
  cases c
  · exact NvWork.refl s
  · exact h

theorem State.nvStep_nvWork (h : s.nvStep = some t) : NvWork s t := by
  unfold State.nvStep at h
  split at h
  · cases h
  · rename_i step rest _
    have hu : NvWork s { s with nv := { s.nv with todo := rest } } := s.nv_nvWork _
    cases step <;> simp only [reduceCtorEq] at h
    case append r =>
      split_ifs at h <;> cases h
      · exact hu.trans (State.nvDo_nvWork _ _)
      · exact hu.trans (State.nvDo_nvWork _ _)
      · exact (hu.trans (State.nvDo_nvWork _ _)).trans (State.nv_nvWork _ _)
    case openNext => cases h; exact (hu.trans (State.nv_nvWork _ _)).trans (State.nvDo_nvWork _ _)
    case opened => cases h; exact hu.trans (State.nvShow_nvWork _)
    case index r =>
      cases h
      exact ((hu.trans (State.nv_nvWork _ _)).trans (State.when_nvWork (State.setFull_nvWork _))).trans (State.nvShow_nvWork _)
    case gone => cases h; exact ((hu.trans (State.nv_nvWork _ _)).trans (State.put_nvWork _ (by decide))).trans (State.nvShow_nvWork _)
    case reclaim =>
      split_ifs at h <;> cases h
      · exact (hu.trans (State.put_nvWork _ (by decide))).trans (State.nvDo_nvWork _ _)
      · exact hu
    case renumber =>
      cases h
      exact ((hu.trans (State.nv_nvWork _ _)).trans (State.put_nvWork _ (by decide))).trans (State.nvDo_nvWork _ _)
    case region =>
      split_ifs at h <;> cases h
      · exact hu
      · exact hu.trans (State.nvDo_nvWork _ _)
    case recEnd => cases h; exact hu.trans (State.opEnd_nvWork _ _ _ _ _ _ (by decide) (by decide) (by decide))
    case rawEnd => cases h; exact hu.trans (State.opEnd_nvWork _ _ _ _ _ _ (by decide) (by decide) (by decide))
    case saveEnd =>
      cases h
      exact (((((hu.trans (State.put_nvWork _ (by decide))).trans (State.put_nvWork _ (by decide))).trans
        (State.put_nvWork _ (by decide))).trans (State.nv_nvWork _ _)).trans
        ((State.bump_nvWork _ (by decide) (by decide)).trans (State.raise_nvWork _ (by decide)))).trans
        (State.when_nvWork (State.mboxEnd_nvWork _ _))
    case ringClear =>
      cases h
      exact ((hu.trans (State.nv_nvWork _ _)).trans (State.put_nvWork _ (by decide))).trans (State.nvShow_nvWork _)
    case mboxEnd => cases h; exact hu.trans (State.mboxEnd_nvWork _ _)

theorem State.nvRun_nvWork : ∀ (n : Nat) (s : State), NvWork s (s.nvRun n)
  | 0, s => NvWork.refl s
  | n + 1, s => by
    rw [State.nvRun]
    split
    · next t ht => exact (State.nvStep_nvWork ht).trans (State.nvRun_nvWork n t)
    · split
      · exact ((s.wpRefused_nvWork).trans (State.nvFail_nvWork _ _)).trans (State.nvRun_nvWork n _)
      · dsimp only
        refine NvWork.trans ?_ (State.flashIssue_nvWork _)
        exact NvWork.ite ((s.put_nvWork (by decide)).trans (State.put_nvWork _ (by decide))) (s.put_nvWork (by decide))

theorem State.nvAdd_nvWork (s : State) (l : List NvStep) : NvWork s (s.nvAdd l) := by
  unfold State.nvAdd State.nvGo
  exact (s.nv_nvWork _).trans (NvWork.ite (State.nvRun_nvWork _ _) (NvWork.refl _))

theorem State.ownRecord_nvWork (s : State) (r : NvNew) : NvWork s (s.ownRecord r) := by
  unfold State.ownRecord
  exact NvWork.ite s.wpRefused_nvWork
    (NvWork.ite (NvWork.ite (s.nvAdd_nvWork _) s.setFull_nvWork) (s.nv_nvWork _))

theorem State.recordRetired_nvWork (s : State) (p : Nat) : NvWork s (s.recordRetired p) := by
  unfold State.recordRetired
  exact NvWork.ite (s.ownRecord_nvWork _) (NvWork.refl s)

theorem NvWork.gateClosed (h : NvWork s t) (hp : hdrPage p ∉ nvPages) : t.gateClosed p = s.gateClosed p :=
  State.gateClosed_congr (h.rd _ (by rwa [HDR_CTRL_page]))

end Sys2Proof.Machine
end

section
/-! PROOFS. Idle turns: what a turn counts, what its end records and what it leaves of the rest (R463, R464, R341). -/

namespace Sys2Proof.Machine

variable {s t u : State} {a b k n p kind which : Nat} {w : Word} {x : Fld} {bad : Bool} {unit detail : Nat}

theorem OnlyRegs.test_eq (h : OnlyRegs s t) : t.test = s.test := by obtain ⟨_, _, _, rfl⟩ := h; rfl

theorem State.testCount_congr (h : t.test = s.test) (k w : Nat) : t.testCount k w = s.testCount k w := by
  rw [State.testCount, h, State.testCount]

theorem State.testCount_of_counts (h : t.test.counts = s.test.counts) (k w : Nat) : t.testCount k w = s.testCount k w := by
  rw [State.testCount, h, State.testCount]

/-! A counter of a kind. -/

/-- The counter of a kind as it counts, before SAT. -/
def State.testCounted (s : State) (kind which : Nat) : State :=
  { s with test := { s.test with
    counts := Cells.set (fun _ => 0) s.test.counts (testKey kind which) (satAdd 0xFFFFFFFF (s.testCount kind which) 1) } }

theorem State.testBump_eq (s : State) (kind which : Nat) :
    s.testBump kind which = (s.testCounted kind which).raiseIf (s.testCount kind which == 0xFFFFFFFE) 7 1 := rfl

theorem State.testBump_test (s : State) (kind which : Nat) : (s.testBump kind which).test = (s.testCounted kind which).test := by
  rw [State.testBump_eq]
  exact (State.raiseIf_onlyRegs ..).test_eq

theorem State.testBump_self (s : State) (kind which : Nat) :
    (s.testBump kind which).testCount kind which = min (2 ^ 32 - 1) (s.testCount kind which + 1) := by
  rw [State.testCount_congr (s.testBump_test kind which), State.testCount, State.testCounted, Cells.get_set_self]
  exact satAdd_eq_min ..

theorem State.testBump_other (s : State) {j v : Nat} (h : testKey kind which ≠ testKey j v) :
    (s.testBump kind which).testCount j v = s.testCount j v := by
  rw [State.testCount_congr (s.testBump_test kind which), State.testCount, State.testCounted, Cells.get_set_other _ _ _ _ _ h,
    State.testCount]

/-- Nothing differs but registers of TEST, the event log, and what TEST keeps of its counters and of the first fail. -/
structure TestWork (s t : State) : Prop where
  state : ∃ r l e c f, t = { s with
    regs := r, nv := { s.nv with log := l }, isl := { s.isl with rises := e }, test := { s.test with counts := c, failed := f } }
  rd : ∀ a, a / 0x1000 ≠ 7 → t.rd a = s.rd a

theorem TestWork.refl (s : State) : TestWork s s :=
  ⟨⟨s.regs, s.nv.log, s.isl.rises, s.test.counts, s.test.failed, rfl⟩, fun _ _ => rfl⟩

theorem TestWork.trans (h : TestWork s t) (g : TestWork t u) : TestWork s u := by
  refine ⟨?_, fun a ha => (g.rd a ha).trans (h.rd a ha)⟩
  obtain ⟨_, _, _, _, _, rfl⟩ := h.state
  obtain ⟨r, l, e, c, f, rfl⟩ := g.state
  exact ⟨r, l, e, c, f, rfl⟩

theorem Within.testWork (h : Within [7] s t) : TestWork s t := by
  refine ⟨?_, fun a ha => h.rd a (by simpa using ha)⟩
  obtain ⟨r, l, e, rfl⟩ := h.only
  exact ⟨r, l, e, s.test.counts, s.test.failed, rfl⟩

theorem TestWork.gateClosed (h : TestWork s t) (hp : hdrPage p ≠ 7) : t.gateClosed p = s.gateClosed p :=
  State.gateClosed_congr (h.rd _ (by rwa [HDR_CTRL_page]))

section
variable (s)

theorem State.testBump_testWork (kind which : Nat) : TestWork s (s.testBump kind which) := by
  rw [State.testBump_eq]
  have h : TestWork s (s.testCounted kind which) := ⟨⟨s.regs, s.nv.log, s.isl.rises, _, s.test.failed, rfl⟩, fun _ _ => rfl⟩
  exact h.trans (State.raiseIf_within (ps := [7]) _ _ (by decide)).testWork

theorem State.testBump_gate (kind which : Nat) : (s.testBump kind which).gateClosed 7 = s.gateClosed 7 := by
  rw [State.testBump_eq, State.raiseIf]
  split
  · rw [State.gateClosed_raise (by decide)]; rfl
  · rfl

end

/-! The end of a turn. -/

/-- The record of the first fail (R464). -/
def State.failRecord (s : State) (kind unit detail : Nat) : State :=
  ({ (s.wrN Reg.TEST_LAST_FAIL0 (kind + 256 * (unit % 256) + 65536 * (detail % 65536))).wrN Reg.TEST_LAST_FAIL1
      (s.rd Reg.TIMING_FRAME_NO).toNat with test := { s.test with failed := true } } : State).raise 7 0

theorem State.turnEnds_good (s : State) : s.turnEnds kind false unit detail = s.testBump kind 0 := rfl

theorem State.turnEnds_bad (s : State) : s.turnEnds kind true unit detail =
    if (s.testBump kind 0).test.failed then (s.testBump kind 0).testBump kind 1
    else ((s.testBump kind 0).testBump kind 1).failRecord kind unit detail := by
  have hfailed : ((s.testBump kind 0).testBump kind 1).test.failed = (s.testBump kind 0).test.failed := by
    rw [State.testBump_test]; rfl
  rw [State.turnEnds, if_pos rfl]
  dsimp only
  rw [hfailed]
  rfl

theorem State.failRecord_test (s : State) : (s.failRecord kind unit detail).test = { s.test with failed := true } :=
  (State.raise_onlyRegs ..).test_eq

theorem State.failRecord_testWork (s : State) : TestWork s (s.failRecord kind unit detail) := by
  have hwr := (s.wr_within (ps := [7]) (a := Reg.TEST_LAST_FAIL0)
    (w := BitVec.ofNat 32 (kind + 256 * (unit % 256) + 65536 * (detail % 65536))) (by decide)).trans
    (State.wr_within _ (a := Reg.TEST_LAST_FAIL1) (w := BitVec.ofNat 32 (s.rd Reg.TIMING_FRAME_NO).toNat) (by decide))
  refine (hwr.testWork.trans ⟨⟨_, _, _, _, true, rfl⟩, fun _ _ => rfl⟩).trans
    (State.raise_within (ps := [7]) _ (by decide)).testWork

theorem State.failRecord_effect (hgate : s.gateClosed 7 = false) (hkind : kind < 256) (hunit : unit < 256) (hdetail : detail < 65536) :
    ((s.failRecord kind unit detail).rd Reg.TEST_LAST_FAIL0).toNat = kind + 2 ^ 8 * unit + 2 ^ 16 * detail ∧
    (s.failRecord kind unit detail).rd Reg.TEST_LAST_FAIL1 = s.rd Reg.TIMING_FRAME_NO ∧ raised (s.failRecord kind unit detail) 7 0 := by
  unfold State.failRecord
  have hopen : ∀ (a b : Word) (c : TestState), ({ (s.wr Reg.TEST_LAST_FAIL0 a).wr Reg.TEST_LAST_FAIL1 b with test := c } : State).gateClosed 7
      = false := fun a b c => by
    rw [← hgate]
    exact (State.gateClosed_wr (s := s.wr Reg.TEST_LAST_FAIL0 a) (by decide)).trans (State.gateClosed_wr (by decide))
  refine ⟨?_, ?_, State.fld_raise_self (hopen _ _ _) (by decide)⟩
  · rw [State.raise_rd_other _ _ _ _ (by decide)]
    change (((s.wr Reg.TEST_LAST_FAIL0 _).wr Reg.TEST_LAST_FAIL1 _).rd Reg.TEST_LAST_FAIL0).toNat = _
    rw [State.rd_wr_other _ _ _ _ (by decide), State.rd_wr_self, BitVec.toNat_ofNat, Nat.mod_eq_of_lt hunit, Nat.mod_eq_of_lt hdetail]
    omega
  · rw [State.raise_rd_other _ _ _ _ (by decide)]
    change ((s.wr Reg.TEST_LAST_FAIL0 _).wr Reg.TEST_LAST_FAIL1 _).rd Reg.TEST_LAST_FAIL1 = _
    rw [State.rd_wr_self, BitVec.ofNat_toNat, BitVec.setWidth_eq]

theorem State.turnEnds_testWork (s : State) : TestWork s (s.turnEnds kind bad unit detail) := by
  cases bad
  · exact s.testBump_testWork kind 0
  · have h := (s.testBump_testWork kind 0).trans (State.testBump_testWork _ kind 1)
    rw [State.turnEnds_bad]
    split
    · exact h
    · exact h.trans (State.failRecord_testWork _)

theorem testKey_run_fail (kind : Nat) : testKey kind 0 ≠ testKey kind 1 ∧ testKey kind 0 ≠ testKey kind 2 ∧ testKey kind 2 ≠ testKey kind 0 := by
  unfold testKey; omega

theorem State.turnEnds_done (hgate : s.gateClosed 7 = false) (hkind : kind < 256) (hunit : unit < 256) (hdetail : detail < 65536) :
    turnDone s (s.turnEnds kind bad unit detail) kind unit detail bad := by
  obtain ⟨h01, -, -⟩ := testKey_run_fail kind
  cases bad
  case false =>
    rw [State.turnEnds_good]
    exact ⟨s.testBump_self kind 0, nofun, fun _ => s.testBump_other h01⟩
  case true =>
    have hrun : ((s.testBump kind 0).testBump kind 1).testCount kind 0 = min (2 ^ 32 - 1) (s.testCount kind 0 + 1) :=
      (State.testBump_other _ (Ne.symm h01)).trans (s.testBump_self kind 0)
    have hfail : ((s.testBump kind 0).testBump kind 1).testCount kind 1 = min (2 ^ 32 - 1) (s.testCount kind 1 + 1) := by
      rw [State.testBump_self, State.testBump_other _ h01]
    have hfailed : (s.testBump kind 0).test.failed = s.test.failed := by rw [State.testBump_test]; rfl
    rw [State.turnEnds_bad, hfailed]
    split
    · next h => exact ⟨hrun, fun _ => ⟨hfail, fun hno => absurd (h.symm.trans hno) (by decide)⟩, nofun⟩
    · have hopen : ((s.testBump kind 0).testBump kind 1).gateClosed 7 = false := by
        rw [State.testBump_gate, State.testBump_gate, hgate]
      have hcounts : ∀ v j, (((s.testBump kind 0).testBump kind 1).failRecord kind unit detail).testCount v j =
          ((s.testBump kind 0).testBump kind 1).testCount v j :=
        State.testCount_of_counts ((congrArg TestState.counts (State.failRecord_test _)).trans rfl)
      obtain ⟨hrec, hno, hraised⟩ := State.failRecord_effect hopen hkind hunit hdetail
      refine ⟨(hcounts ..).trans hrun, fun _ => ⟨(hcounts ..).trans hfail, fun _ => ⟨hrec, ?_, hraised⟩⟩, nofun⟩
      rw [hno]
      exact ((State.testBump_testWork _ kind 1).rd _ (by decide)).trans ((s.testBump_testWork kind 0).rd _ (by decide))

/-- The end of a turn is told by the counters, the first fail and three registers alone. -/
theorem turnDone_congr {v : State} (h : turnDone s t kind unit detail bad) (hbefore : u.test.counts = s.test.counts)
    (hfailed : u.test.failed = s.test.failed) (hno : u.rd Reg.TIMING_FRAME_NO = s.rd Reg.TIMING_FRAME_NO)
    (hafter : v.test.counts = t.test.counts) (hrd : ∀ a, a / 0x1000 = 7 → a ≠ Reg.TEST_SWEEPS → v.rd a = t.rd a) :
    turnDone u v kind unit detail bad := by
  have hs : ∀ k w, u.testCount k w = s.testCount k w := State.testCount_of_counts hbefore
  have ht : ∀ k w, v.testCount k w = t.testCount k w := State.testCount_of_counts hafter
  obtain ⟨hrun, hbad, hgood⟩ := h
  rw [turnDone, hs, ht, hs, ht, hfailed, hno, hrd Reg.TEST_LAST_FAIL0 (by decide) (by decide),
    hrd Reg.TEST_LAST_FAIL1 (by decide) (by decide), raised, State.fld, hrd _ (HDR_IRQ_RAW_page 7) (by decide)]
  exact ⟨hrun, hbad, hgood⟩

end Sys2Proof.Machine
end

section
/-! PROOFS. The idle turns of SRAM, DRAM and the tables (R463, R464, R341), and the injections of PERTURB (R465, R504). -/

namespace Sys2Proof.Machine

variable {s t u v : State} {a b k n p result seg tab kind unit detail : Nat} {w : Word} {x : Fld} {bad : Bool}

/-- A command whose effect is nothing. -/
theorem State.unheld_same {f : State → State} (h : s.boot.resetLow = false) (hf : f s = s) : s.unheld f = .next s :=
  (s.unheld_steady f h (by rw [hf]; exact Steady.refl s)).trans (by rw [hf])

theorem turnDone_left (h : turnDone s t kind unit detail bad) : turnDone s (u.left t) kind unit detail bad := h

/-! SRAM. -/

theorem State.sramBank_lt {f : Nat} (h : s.sramBank f = some b) : b < 48 := by
  obtain ⟨i, -, rfl⟩ := List.mem_map.1 (List.mem_of_find?_eq_some h)
  exact Nat.mod_lt _ (by decide)

/-- Where the sweep stands behind a segment. -/
def sweepNext (b seg : Nat) : Nat × Nat := if seg + 1 < (if b < 32 then 64 else 256) then (b, seg + 1) else ((b + 1) % 48, 0)

/-- A segment as the turn left it: a bank of TEST has lost its words. -/
def State.turnBank (s : State) (b : Nat) : State := if s.bankOwner b = ownTest then s.sramLost b else s

theorem State.sweep_rd (s : State) {lo : Nat} (h : a ≠ Reg.TEST_SWEEPS) : (s.sweep lo).rd a = s.rd a := State.rd_put_other (Ne.symm h)

/-- The end of a sweep, where it comes, changes its count alone. -/
theorem State.sweepIf_keeps (s : State) (c : Prop) [Decidable c] (lo : Nat) :
    (if c then s.sweep lo else s).test = s.test ∧ (if c then s.sweep lo else s).sram = s.sram ∧
    (if c then s.sweep lo else s).mem = s.mem ∧ ∀ a, a ≠ Reg.TEST_SWEEPS → (if c then s.sweep lo else s).rd a = s.rd a := by
  split
  · exact ⟨State.wr_test .., State.wr_sram .., State.wr_mem .., fun _ ha => State.sweep_rd _ ha⟩
  · exact ⟨rfl, rfl, rfl, fun _ _ => rfl⟩

/-- The sweep goes on behind a segment. -/
def State.segmentPast (s : State) (b seg : Nat) : State :=
  let t := if sweepNext b seg = (0, 0) then s.sweep 0 else s
  { t with test := { t.test with bank := (sweepNext b seg).1, segment := (sweepNext b seg).2 } }

/-- A segment has been tested, and the sweep goes on. -/
def State.sramTurned (s : State) (b seg : Nat) (bad : Bool) : State :=
  (((s.turnMade 0).turnBank b).turnEnds 0 bad b seg).segmentPast b seg

theorem State.sramTurn_eq (hmay : s.turnMay 0 (s.fld Reg.TEST_CFG_SRAM_TURNS) = true) (hbank : s.sramBank s.test.bank = some b)
    (hseg : seg = if b = s.test.bank then s.test.segment else 0) :
    s.sramTurn result = if result = 2 then ((s.turnMade 0).testBump 0 2).bump Reg.BANKS_TEST_ABORT
      else s.sramTurned b seg (result == 1) := by
  subst hseg
  rw [State.sramTurn, hmay, hbank]
  rfl

theorem State.turnBank_same (s : State) : (s.turnBank b).regs = s.regs ∧ (s.turnBank b).test = s.test := by
  unfold State.turnBank
  split <;> exact ⟨rfl, rfl⟩

theorem State.segmentPast_done (h : turnDone s t 0 b seg bad) :
    turnDone s (t.segmentPast b seg) 0 b seg bad ∧
    ((t.segmentPast b seg).test.bank, (t.segmentPast b seg).test.segment) = sweepNext b seg := by
  obtain ⟨htest, -, -, hrd⟩ := t.sweepIf_keeps (sweepNext b seg = (0, 0)) 0
  unfold State.segmentPast
  generalize (if sweepNext b seg = (0, 0) then t.sweep 0 else t) = v at htest hrd ⊢
  exact ⟨turnDone_congr h rfl rfl rfl (by rw [← htest]) fun a _ ha => hrd a ha, rfl⟩

theorem State.sramTurned_done (hgate : s.gateClosed 7 = false) (hb : b < 48) (hseg : seg < 256) :
    turnDone s (s.sramTurned b seg bad) 0 b seg bad ∧
    ((s.sramTurned b seg bad).test.bank, (s.sramTurned b seg bad).test.segment) = sweepNext b seg := by
  obtain ⟨hregs, htest⟩ := (s.turnMade 0).turnBank_same (b := b)
  unfold State.sramTurned
  generalize (s.turnMade 0).turnBank b = v at hregs htest ⊢
  have hopen : v.gateClosed 7 = false := by
    rw [State.gateClosed_congr (State.rd_of_regs hregs _)]; exact hgate
  have hdone := State.turnEnds_done (kind := 0) (bad := bad) (unit := b) (detail := seg) hopen (by decide) (by omega) (by omega)
  refine State.segmentPast_done (turnDone_congr hdone ?_ ?_ ?_ rfl fun _ _ _ => rfl)
  · rw [htest]; rfl
  · rw [htest]; rfl
  · rw [State.rd_of_regs hregs]; rfl

theorem State.sramAbort_counts (s : State) :
    counted s (((s.turnMade 0).testBump 0 2).bump Reg.BANKS_TEST_ABORT) Reg.BANKS_TEST_ABORT 1 ∧
    (((s.turnMade 0).testBump 0 2).bump Reg.BANKS_TEST_ABORT).testCount 0 0 = s.testCount 0 0 ∧
    (((s.turnMade 0).testBump 0 2).bump Reg.BANKS_TEST_ABORT).test.segment = s.test.segment ∧
    (((s.turnMade 0).testBump 0 2).bump Reg.BANKS_TEST_ABORT).testCount 0 2 = min (2 ^ 32 - 1) (s.testCount 0 2 + 1) := by
  have htest := (State.bump_onlyRegs ((s.turnMade 0).testBump 0 2) Reg.BANKS_TEST_ABORT).test_eq
  refine ⟨?_, ?_, ?_, ?_⟩
  · rw [counted, State.rd_bump_toNat (by decide), (State.testBump_testWork _ 0 2).rd _ (by decide)]
    rfl
  · rw [State.testCount_congr htest, State.testBump_other _ (testKey_run_fail 0).2.2]
    rfl
  · rw [htest, State.testBump_test]
    rfl
  · rw [State.testCount_congr htest, State.testBump_self]
    rfl

/-! DRAM. -/

/-- A free page has been tested: the pattern has replaced its bytes, and a page that failed is retired (R341). -/
def State.dramTested (s : State) (p : Nat) (bad : Bool) : State :=
  (((s.turnMade 1).pageLost p).beats 4 4096).turnEnds 1 bad 0 p

/-- The sweep goes on behind a page. -/
def State.sweepPast (s : State) (p : Nat) : State :=
  let s := if p = 32767 then s.sweep 16 else s
  { s with test := { s.test with page := (p + 1) % 32768 } }

theorem State.dramTurn_eq (hmay : s.turnMay 1 (s.fld Reg.TEST_CFG_DRAM_TURNS) = true) (hready : s.dramReady = true) (hmap : s.mapUp = true)
    (hfree : s.findFree 32768 s.test.page = some p) :
    s.dramTurn result = if result = 2 then (s.turnMade 1).testBump 1 2
      else (if result = 1 then ((s.dramTested p (result == 1)).retireFreePage p).recordRetired p else s.dramTested p (result == 1)).sweepPast p := by
  rw [State.dramTurn, hmay, hready, hmap]
  dsimp only [Bool.not_true, Bool.or_false, Bool.false_eq_true, if_false]
  rw [hfree]
  rfl

theorem State.pageLost_memory (s : State) (p : Nat) : (s.pageLost p).regs = s.regs ∧ (s.pageLost p).test = s.test := ⟨rfl, rfl⟩

theorem MemWork.test_eq (h : MemWork s t) : t.test = s.test := by obtain ⟨_, _, _, _, _, _, _, rfl⟩ := h.state; rfl
theorem NvWork.test_eq (h : NvWork s t) : t.test = s.test := by obtain ⟨_, _, _, _, rfl⟩ := h.state; rfl
theorem NvWork.sram_eq (h : NvWork s t) : t.sram = s.sram := by obtain ⟨_, _, _, _, rfl⟩ := h.state; rfl
theorem NvWork.mem_eq (h : NvWork s t) : t.mem = s.mem := by obtain ⟨_, _, _, _, rfl⟩ := h.state; rfl

theorem State.beats_within (s : State) : Within [0x112] s (s.beats 4 4096) := s.bumpBy_within (by decide) (by decide)

/-- What the test of a page leaves: registers of TEST and the beats' count of SCHED. -/
theorem State.dramTested_rd (s : State) (h7 : a / 0x1000 ≠ 7) (h112 : a / 0x1000 ≠ 0x112) : (s.dramTested p bad).rd a = s.rd a := by
  refine ((State.turnEnds_testWork _).rd _ h7).trans (((State.beats_within _).rd _ (by simpa using h112)).trans ?_)
  rfl

theorem State.dramTested_done (hgate : s.gateClosed 7 = false) (hp : p < 32768) : turnDone s (s.dramTested p bad) 1 0 p bad := by
  have hbeats := ((s.turnMade 1).pageLost p).beats_within
  unfold State.dramTested
  generalize ((s.turnMade 1).pageLost p).beats 4 4096 = v at hbeats ⊢
  have hopen : v.gateClosed 7 = false := by
    rw [hbeats.gateClosed (by decide)]; exact hgate
  have htest : v.test = (s.turnMade 1).test := hbeats.only.test_eq
  have hdone := State.turnEnds_done (kind := 1) (bad := bad) (unit := 0) (detail := p) hopen (by decide) (by decide) (by omega)
  refine turnDone_congr hdone ?_ ?_ ?_ rfl fun _ _ _ => rfl
  · rw [htest]; rfl
  · rw [htest]; rfl
  · rw [hbeats.rd _ (by decide)]; rfl

theorem State.bankOn_congr (h : t.rd (Reg.PWR_DOM_STATE (47 + n)) = s.rd (Reg.PWR_DOM_STATE (47 + n))) : t.bankOn n = s.bankOn n := by
  have hcur : t.fld (Reg.PWR_DOM_STATE_CUR (47 + n)) = s.fld (Reg.PWR_DOM_STATE_CUR (47 + n)) := congrArg _ h
  have hbusy : t.fld (Reg.PWR_DOM_STATE_BUSY (47 + n)) = s.fld (Reg.PWR_DOM_STATE_BUSY (47 + n)) := congrArg _ h
  rw [State.bankOn, State.domOn, hcur, hbusy, State.bankOn, State.domOn]

/-- A page is retired where the map stands: its entry says so. -/
theorem State.pageState_setPhys (hon : s.bankOn 33 = true) (hp : p < 32768) : (s.setPhys p 0 2).pageState p = 2 := by
  have hon' : (s.setPhys p 0 2).bankOn 33 = true := hon
  rw [State.pageState, State.physEntry, State.mapRd, hon', if_pos rfl, State.setPhys,
    State.sramRd_sramWr _ _ _ _ _ _ (by omega) (by omega), if_pos ⟨rfl, rfl⟩]
  decide

theorem State.pageState_congr (hsram : t.sram = s.sram) (hmem : t.mem = s.mem) (hon : t.bankOn 33 = s.bankOn 33) :
    t.pageState p = s.pageState p := by
  rw [State.pageState, State.physEntry, State.mapRd, hon, State.sramRd, hsram, hmem]
  rfl

theorem State.retireFreePage_rd (h : a / 0x1000 ∉ [0x111, 0x113]) : (s.retireFreePage p).rd a = s.rd a := by
  have hphys : (s.setPhys p 0 2).rd a = s.rd a := rfl
  rw [← hphys]
  exact (((State.put_within _ (by decide)).trans (State.bump_within _ (by decide) (by decide))).trans (State.raise_within _ (by decide))).rd a h

theorem State.retireFreePage_effect (hon : s.bankOn 33 = true) (hgate : s.gateClosed 0x113 = false) (hp : p < 32768) :
    (s.retireFreePage p).pageState p = 2 ∧ counted s (s.retireFreePage p) Reg.ECC_RETIRED 1 ∧ raised (s.retireFreePage p) 0x113 2 ∧
    (s.retireFreePage p).test = s.test := by
  have hpages : ((s.setPhys p 0 2).put ⟨Reg.REGION_FREE_PAGES, 0, 16⟩ (s.freePages - 1)).rd Reg.ECC_RETIRED = s.rd Reg.ECC_RETIRED :=
    State.rd_put_other (by decide)
  have hwork : OnlyRegs (s.setPhys p 0 2) (s.retireFreePage p) :=
    ((State.put_onlyRegs ..).trans (State.bump_onlyRegs ..)).trans (State.raise_onlyRegs ..)
  have hregs : Within [0x111, 0x113] (s.setPhys p 0 2) (s.retireFreePage p) :=
    ((State.put_within _ (by decide)).trans (State.bump_within _ (by decide) (by decide))).trans (State.raise_within _ (by decide))
  have hopen : (((s.setPhys p 0 2).put ⟨Reg.REGION_FREE_PAGES, 0, 16⟩ (s.freePages - 1)).bump Reg.ECC_RETIRED).gateClosed 0x113 = false := by
    rw [State.gateClosed_bump (by decide), State.gateClosed_put (by decide)]; exact hgate
  refine ⟨?_, ?_, State.fld_raise_self hopen (by decide), hwork.test_eq⟩
  · rw [← State.pageState_setPhys hon hp]
    refine State.pageState_congr ?_ hwork.mem_eq (State.bankOn_congr (hregs.rd _ (by decide)))
    obtain ⟨_, _, _, heq⟩ := hwork
    rw [heq]
  · rw [counted, State.retireFreePage, State.raise_rd_other _ _ _ _ (by decide), State.rd_bump_toNat (by decide), hpages]

/-- A page that failed leaves the pool, and its record follows (R341, R347). -/
theorem State.pageFails_effect (hmap : s.mapUp = true) (hgate : s.gateClosed 0x113 = false) (hp : p < 32768)
    (ht : t = ((s.dramTested p true).retireFreePage p).recordRetired p) :
    t.pageState p = 2 ∧ counted s t Reg.ECC_RETIRED 1 ∧ raised t 0x113 2 ∧ t.test = (s.dramTested p true).test ∧
      ∀ a, a / 0x1000 = 7 → t.rd a = (s.dramTested p true).rd a := by
  have hon : (s.dramTested p true).bankOn 33 = true := by
    rw [State.bankOn_congr (s := s) (s.dramTested_rd (by decide) (by decide))]
    exact (Bool.and_eq_true_iff.1 hmap).2
  have hopen : (s.dramTested p true).gateClosed 0x113 = false := by
    rw [State.gateClosed_congr (s := s) (s.dramTested_rd (by decide) (by decide))]; exact hgate
  obtain ⟨hstate, hcount, hraised, htest⟩ := State.retireFreePage_effect hon hopen hp
  have hseven : ∀ a, a / 0x1000 = 7 → ((s.dramTested p true).retireFreePage p).rd a = (s.dramTested p true).rd a :=
    fun a ha => State.retireFreePage_rd (by rw [ha]; decide)
  have hrec := ((s.dramTested p true).retireFreePage p).recordRetired_nvWork p
  rw [← ht] at hrec
  clear ht
  generalize (s.dramTested p true).retireFreePage p = v at hstate hcount hraised htest hrec hseven
  refine ⟨?_, ?_, ?_, hrec.test_eq.trans htest, fun a ha => ?_⟩
  · exact (State.pageState_congr hrec.sram_eq hrec.mem_eq (State.bankOn_congr (hrec.rd _ (by decide)))).trans hstate
  · rw [counted, hrec.rd _ (by decide), ← s.dramTested_rd (p := p) (bad := true) (by decide) (by decide)]
    exact hcount
  · rw [raised, State.fld, hrec.rd _ (by decide)]
    exact hraised
  · rw [hrec.rd _ (by rw [ha]; decide), hseven a ha]

theorem State.sweepPast_keeps (s : State) (p : Nat) : (s.sweepPast p).test = { s.test with page := (p + 1) % 32768 } ∧
    (∀ a, a ≠ Reg.TEST_SWEEPS → (s.sweepPast p).rd a = s.rd a) ∧ (s.sweepPast p).sram = s.sram ∧ (s.sweepPast p).mem = s.mem := by
  obtain ⟨htest, hsram, hmem, hrd⟩ := s.sweepIf_keeps (p = 32767) 16
  unfold State.sweepPast
  generalize (if p = 32767 then s.sweep 16 else s) = v at htest hsram hmem hrd
  exact ⟨congrArg (fun c : TestState => { c with page := (p + 1) % 32768 }) htest, hrd, hsram, hmem⟩

/-- The sweep's end leaves what the turn's end recorded. -/
theorem State.sweepPast_done (h : turnDone s t 1 0 p bad) :
    turnDone s (t.sweepPast p) 1 0 p bad ∧ (t.sweepPast p).test.page = (p + 1) % 32768 := by
  obtain ⟨htest, hrd, -, -⟩ := t.sweepPast_keeps p
  refine ⟨turnDone_congr h rfl rfl rfl (by rw [htest]) fun a _ ha => hrd a ha, by rw [htest]⟩

theorem dramTurns (hlive : s.boot.resetLow = false) (hgate : s.gateClosed 7 = false) (hresult : result < 3)
    (hmay : s.turnMay 1 (s.fld Reg.TEST_CFG_DRAM_TURNS) = true) (hready : s.dramReady = true) (hmap : s.mapUp = true)
    (hecc : s.gateClosed 0x113 = false) (hfree : s.findFree 32768 s.test.page = some p) (hp : p < 32768) :
    ∃ t, exec (.dramTurn result) s = .next t ∧
      (result = 2 → t.testCount 1 2 = min (2 ^ 32 - 1) (s.testCount 1 2 + 1) ∧ t.testCount 1 0 = s.testCount 1 0) ∧
      (result < 2 → turnDone s t 1 0 p (result == 1) ∧ t.test.page = (p + 1) % 32768) ∧
      (result = 1 → t.pageState p = 2 ∧ counted s t Reg.ECC_RETIRED 1 ∧ raised t 0x113 2) := by
  have hexec : exec (.dramTurn result) s = .next (s.left (s.dramTurn result)) := (exec_dramTurn s result).trans (State.unheld_live hlive)
  rw [State.dramTurn_eq hmay hready hmap hfree] at hexec
  obtain rfl | rfl | rfl : result = 0 ∨ result = 1 ∨ result = 2 := by omega
  · obtain ⟨hdone, hpage⟩ := State.sweepPast_done (s.dramTested_done (bad := false) hgate hp)
    simp only [Nat.reduceEqDiff, if_false, Nat.reduceBEq] at hexec
    generalize (s.dramTested p false).sweepPast p = t at hexec hdone hpage
    exact ⟨_, hexec, nofun, fun _ => ⟨turnDone_left hdone, hpage⟩, nofun⟩
  · have hfails := State.pageFails_effect (s := s) (p := p) hmap hecc hp rfl
    simp only [Nat.reduceEqDiff, if_false, if_true, Nat.reduceBEq] at hexec
    have htested := s.dramTested_done (bad := true) hgate hp
    generalize ((s.dramTested p true).retireFreePage p).recordRetired p = u at hexec hfails
    obtain ⟨hstate, hcount, hraised, htest, hseven⟩ := hfails
    have hrecorded : turnDone s u 1 0 p true :=
      turnDone_congr htested rfl rfl rfl (by rw [htest]) fun a ha _ => hseven a ha
    obtain ⟨hdone, hpage⟩ := State.sweepPast_done hrecorded
    obtain ⟨-, hrd, hsram, hmem⟩ := u.sweepPast_keeps p
    generalize u.sweepPast p = t at hexec hdone hpage hrd hsram hmem
    refine ⟨_, hexec, nofun, fun _ => ⟨turnDone_left hdone, hpage⟩, fun _ => ⟨?_, ?_, ?_⟩⟩
    · exact (State.pageState_congr (s := u) hsram hmem (State.bankOn_congr (hrd _ (by decide)))).trans hstate
    · rw [counted, State.left_rd, hrd _ (by decide)]; exact hcount
    · rw [raised, State.left_fld, State.fld, hrd _ (by decide)]; exact hraised
  · rw [if_pos rfl] at hexec
    refine ⟨_, hexec, fun _ => ⟨?_, ?_⟩, nofun, nofun⟩
    · exact ((s.turnMade 1).testBump_self 1 2).trans rfl
    · exact ((s.turnMade 1).testBump_other (testKey_run_fail 1).2.2).trans rfl

theorem dramTurn_idle (hlive : s.boot.resetLow = false)
    (h : s.turnMay 1 (s.fld Reg.TEST_CFG_DRAM_TURNS) = false ∨ s.dramReady = false ∨ s.mapUp = false) :
    exec (.dramTurn result) s = .next s := by
  refine (exec_dramTurn s result).trans (State.unheld_same hlive (if_pos ?_))
  obtain h | h | h := h <;> simp [h]

/-! The tables. -/

/-- The tables have been checked: the reference of one is what its active bank is. -/
def State.lutTurned (s : State) (tab : Nat) (bad : Bool) : State :=
  let t := (s.turnMade 2).turnEnds 2 bad tab 0
  { t with test := { t.test with refs := Cells.set (fun _ => none) t.test.refs tab (s.lutBank tab), table := (tab + 1) % 7 } }

/-- A check that yielded: its count, and no reference. -/
def State.lutYields (s : State) (tab : Nat) : State :=
  let t := (s.turnMade 2).testBump 2 2
  { t with test := { t.test with refs := Cells.set (fun _ => none) t.test.refs tab none } }

theorem State.lutTurn_eq (hmay : s.turnMay 2 (s.fld Reg.TEST_CFG_LUT_TURNS) = true) (hblank : s.tim.running = false ∨ s.vact ≤ s.tim.line)
    (htab : s.lutTable = some tab) :
    s.lutTurn result = if result = 2 then s.lutYields tab
      else s.lutTurned tab (result == 1 && Cells.get (fun _ => none) s.test.refs tab == s.lutBank tab) := by
  have hopen : (s.tim.running && decide (s.tim.line < s.vact)) = false := by
    obtain h | h := hblank
    · rw [h]; rfl
    · rw [Bool.and_eq_false_iff]; exact Or.inr (decide_eq_false (by omega))
  rw [State.lutTurn, hmay, hopen, htab]
  rfl

theorem State.lutTable_lt (h : s.lutTable = some tab) : tab < 7 := by
  obtain ⟨i, -, rfl⟩ := List.mem_map.1 (List.mem_of_find?_eq_some h)
  exact Nat.mod_lt _ (by decide)

theorem State.lutYields_effect (s : State) : (s.lutYields tab).testCount 2 2 = min (2 ^ 32 - 1) (s.testCount 2 2 + 1) ∧
    Cells.get (fun _ => none) (s.lutYields tab).test.refs tab = none :=
  ⟨((s.turnMade 2).testBump_self 2 2).trans rfl, Cells.get_set_self (fun _ => none) ((s.turnMade 2).testBump 2 2).test.refs tab none⟩

theorem State.lutTurned_done (hgate : s.gateClosed 7 = false) (htab : tab < 7) :
    turnDone s (s.lutTurned tab bad) 2 tab 0 bad ∧
    Cells.get (fun _ => none) (s.lutTurned tab bad).test.refs tab = s.lutBank tab ∧ (s.lutTurned tab bad).test.table = (tab + 1) % 7 := by
  have hdone := State.turnEnds_done (s := s.turnMade 2) (kind := 2) (bad := bad) (unit := tab) (detail := 0) hgate (by decide) (by omega) (by decide)
  exact ⟨turnDone_congr hdone rfl rfl rfl rfl fun _ _ _ => rfl, Cells.get_set_self .., rfl⟩

theorem lutTurns (hlive : s.boot.resetLow = false) (hgate : s.gateClosed 7 = false)
    (hmay : s.turnMay 2 (s.fld Reg.TEST_CFG_LUT_TURNS) = true) (hblank : s.tim.running = false ∨ s.vact ≤ s.tim.line)
    (htab : s.lutTable = some tab) :
    ∃ t, exec (.lutTurn result) s = .next t ∧
      (result = 2 → t.testCount 2 2 = min (2 ^ 32 - 1) (s.testCount 2 2 + 1) ∧ Cells.get (fun _ => none) t.test.refs tab = none) ∧
      (result < 2 → turnDone s t 2 tab 0 (result == 1 && Cells.get (fun _ => none) s.test.refs tab == s.lutBank tab) ∧
        Cells.get (fun _ => none) t.test.refs tab = s.lutBank tab ∧ t.test.table = (tab + 1) % 7) := by
  have hexec : exec (.lutTurn result) s = .next (s.left (s.lutTurn result)) := (exec_lutTurn s result).trans (State.unheld_live hlive)
  rw [State.lutTurn_eq hmay hblank htab] at hexec
  by_cases hyield : result = 2
  · rw [if_pos hyield] at hexec
    have heffect := s.lutYields_effect (tab := tab)
    generalize s.lutYields tab = t at hexec heffect
    exact ⟨_, hexec, fun _ => heffect, fun h => absurd h (by omega)⟩
  · rw [if_neg hyield] at hexec
    have hdone := State.lutTurned_done (bad := result == 1 && Cells.get (fun _ => none) s.test.refs tab == s.lutBank tab) hgate
      (State.lutTable_lt htab)
    generalize s.lutTurned tab (result == 1 && Cells.get (fun _ => none) s.test.refs tab == s.lutBank tab) = t at hexec hdone
    exact ⟨_, hexec, fun h => absurd h hyield, fun _ => ⟨turnDone_left hdone.1, hdone.2.1, hdone.2.2⟩⟩

theorem sramTurns (hlive : s.boot.resetLow = false) (hgate : s.gateClosed 7 = false)
    (hmay : s.turnMay 0 (s.fld Reg.TEST_CFG_SRAM_TURNS) = true) (hbank : s.sramBank s.test.bank = some b)
    (hseg : seg = if b = s.test.bank then s.test.segment else 0) (hlt : seg < 256) :
    ∃ t, exec (.sramTurn result) s = .next t ∧
      (result = 2 → counted s t Reg.BANKS_TEST_ABORT 1 ∧ t.testCount 0 0 = s.testCount 0 0 ∧ t.test.segment = s.test.segment ∧
        t.testCount 0 2 = min (2 ^ 32 - 1) (s.testCount 0 2 + 1)) ∧
      (result < 2 → turnDone s t 0 b seg (result == 1) ∧
        (t.test.bank, t.test.segment) = if seg + 1 < (if b < 32 then 64 else 256) then (b, seg + 1) else ((b + 1) % 48, 0)) := by
  have hexec : exec (.sramTurn result) s = .next (s.left (s.sramTurn result)) := (exec_sramTurn s result).trans (State.unheld_live hlive)
  rw [State.sramTurn_eq hmay hbank hseg] at hexec
  by_cases hyield : result = 2
  · rw [if_pos hyield] at hexec
    have heffect := s.sramAbort_counts
    generalize ((s.turnMade 0).testBump 0 2).bump Reg.BANKS_TEST_ABORT = t at hexec heffect
    exact ⟨_, hexec, fun _ => heffect, fun h => absurd h (by omega)⟩
  · rw [if_neg hyield] at hexec
    have hdone := State.sramTurned_done (bad := result == 1) hgate (State.sramBank_lt hbank) hlt
    generalize s.sramTurned b seg (result == 1) = t at hexec hdone
    exact ⟨_, hexec, fun h => absurd h hyield, fun _ => ⟨turnDone_left hdone.1, hdone.2⟩⟩

theorem sramTurn_idle (hlive : s.boot.resetLow = false)
    (h : s.turnMay 0 (s.fld Reg.TEST_CFG_SRAM_TURNS) = false ∨ s.sramBank s.test.bank = none) : exec (.sramTurn result) s = .next s := by
  refine (exec_sramTurn s result).trans (State.unheld_same hlive ?_)
  rw [State.sramTurn]
  split
  · rfl
  · next hmay =>
    have hnone : s.sramBank s.test.bank = none := h.resolve_left (by simpa using hmay)
    rw [hnone]

theorem turnsRun : Rules.TurnsRun := fun s result hlive hgate hresult =>
  ⟨sramTurn_idle hlive, fun _ _ hmay hbank hseg hlt => sramTurns hlive hgate hmay hbank hseg hlt, dramTurn_idle hlive,
    fun hmay hready hmap hecc _ hfree hp => dramTurns hlive hgate hresult hmay hready hmap hecc hfree hp,
    fun hno => (exec_lutTurn s result).trans (State.unheld_same hlive (by rw [State.lutTurn, hno]; rfl)),
    fun hmay hblank _ htab => lutTurns hlive hgate hmay hblank htab⟩

end Sys2Proof.Machine
end

section
/-! PROOFS. The injections of PERTURB (R8, R21, R465, R504). -/

namespace Sys2Proof.Machine

variable {s t u v : State} {a b k n p port : Nat} {w m : Word} {x : Fld} {r : RegRow}

/-- A write of a privileged block register without an open presence window (R8). -/
theorem State.hostWrite_refused {u : Unit} (h : s.Serves u (a / 0x1000)) (hr : blockRow u a = some r) (hp : r.p = true)
    (hv : s.presenceOpen = false) : s.hostWrite port a w = s.secRefused port a false := by
  unfold blockRow at hr
  split at hr
  case isFalse => cases hr
  case isTrue hblock =>
    obtain ⟨haddr, hdevice, hgroup, hoff, hpartner, hinert⟩ := hblock
    obtain ⟨hrow, hbits⟩ := Option.filter_eq_some_iff.1 hr
    have hserved : s.portServed port = true := by simp [State.portServed, h.live]
    have hnogroup : ¬ (0x71 ≤ a / 0x1000 ∧ a / 0x1000 < 0x81 ∧ (a % 0x1000 = 0x40 ∨ a % 0x1000 = 0x44)) := by
      simp [isGroupWrite] at hgroup; omega
    have hnoheader : ¬ (a % 0x1000 = 0 ∨ a % 0x1000 = 4 ∨ a % 0x1000 = 0x28) := by omega
    have hblock : ¬ a % 0x1000 < 0x30 := by omega
    have hwritable : writable port a r = true := by rw [writable, hbits, Bool.true_or]
    simp only [State.hostWrite, haddr, hserved, Bool.not_true, Bool.false_eq_true, if_false, show ¬ 0x800000 ≤ a by omega,
      State.localWrite, if_neg hnogroup, State.writeOne, h.unit, h.unlocked, bne_self_eq_false, Bool.false_and, h.gate,
      and_false, h.power, if_neg hblock, h.clock, hpartner, hinert, hrow, hwritable, hp, hv]
    simp

/-- A refusal for want of presence: its count, and the access it was (R8). -/
theorem State.secRefused_effect (ha : a < 2 ^ 24) (hport : port < 4) :
    counted s (s.secRefused port a false) Reg.SEC_REFUSED 1 ∧
    (s.secRefused port a false).fld Reg.SEC_LAST_REFUSED_ADDR = a ∧ (s.secRefused port a false).fld Reg.SEC_LAST_REFUSED_PORT = port := by
  unfold State.secRefused
  dsimp only
  refine ⟨counted_of_rd ?_ (by decide), ?_, ?_⟩
  · rw [State.raise_rd_other _ _ _ _ (by decide), State.rd_put_other (by decide), State.rd_put_other (by decide),
      State.rd_put_other (by decide), State.rd_wr_other _ _ _ _ (by decide)]
  · rw [State.fld_raise_other (by decide), State.fld_put_apart (by decide), State.fld_put_apart (by decide), State.fld_put_mod (by decide)]
    exact Nat.mod_eq_of_lt ha
  · rw [State.fld_raise_other (by decide), State.fld_put_apart (by decide), State.fld_put_mod (by decide)]
    exact Nat.mod_eq_of_lt hport

theorem State.secRefused_within (port : Nat) : Within [5] s (s.secRefused port a false) :=
  (((((s.bump_within (by decide) (by decide)).trans (State.wr_within _ (by decide))).trans (State.put_within _ (by decide))).trans
    (State.put_within _ (by decide))).trans (State.put_within _ (by decide))).trans (State.raise_within _ (by decide))

/-! The registers of the injections. -/

theorem perturbRegs_row (ha : a ∈ perturbRegs) (hr : rowAt .PERTURB (a - 0x8000) = some r) :
    blockRow .PERTURB a = some r ∧ r.p = true ∧ r.act = 0 ∧ a / 0x1000 = 8 ∧ laneOfAddr a = none ∧
      writeActs.find? (·.1 == a) = none ∧ Reg.HDR_UNIT_ID 8 + (a - 0x8000) = a ∧ Reg.HDR_IRQ_RAW 8 ≠ a := by
  have h : ∀ a ∈ perturbRegs, blockRow .PERTURB a = rowAt .PERTURB (a - 0x8000) ∧
      ((rowAt .PERTURB (a - 0x8000)).all fun r => r.p && r.act == 0) = true ∧ a / 0x1000 = 8 ∧ laneOfAddr a = none ∧
      (writeActs.map Prod.fst).contains a = false ∧ Reg.HDR_UNIT_ID 8 + (a - 0x8000) = a ∧ Reg.HDR_IRQ_RAW 8 ≠ a := by decide
  obtain ⟨hrow, hflags, hpage, hlane, hacts, hoff, hirq⟩ := h a ha
  rw [hr, Option.all_some, Bool.and_eq_true, beq_iff_eq] at hflags
  refine ⟨hrow.trans hr, hflags.1, hflags.2, hpage, hlane, ?_, hoff, hirq⟩
  rw [List.find?_eq_none]
  intro e he hea
  have hmem := List.contains_iff_mem.2 (List.mem_map_of_mem (f := Prod.fst) he)
  rw [beq_iff_eq.1 hea, hacts] at hmem
  exact absurd hmem Bool.false_ne_true

/-- A privileged write of an injection that passes. -/
theorem State.hostWrite_perturb (hs : s.Serves .PERTURB 8) (ha : a ∈ perturbRegs) (hr : rowAt .PERTURB (a - 0x8000) = some r)
    (hv : s.presenceOpen = true) : s.hostWrite port a w = s.perturbStore a (w &&& BitVec.ofNat 32 r.rw) := by
  obtain ⟨hrow, -, hact, hpage, hlane, hacts, -, -⟩ := perturbRegs_row ha hr
  rw [State.hostWrite_blockRow (hpage ▸ hs) hrow (Or.inr hv), State.writeReg, hacts]
  simp only [hlane, hact, ne_eq, not_true, if_false, hpage]
  rfl

/-! What a stored injection leaves. -/

/-- The register and the counts of an injection as it is stored. -/
def State.perturbSet (s : State) (a : Nat) (w : Word) : State :=
  if a = Reg.PERTURB_CRC_INJ then
    { s.wr a (if Reg.PERTURB_CRC_INJ_COUNT.get w = 0 then w &&& 0xFFFF0000 else w) with inj := { s.inj with
      isl := if bit w.toNat 0 then Reg.PERTURB_CRC_INJ_COUNT.get w else 0
      edl := if bit w.toNat 1 then Reg.PERTURB_CRC_INJ_COUNT.get w else 0
      bc := if bit w.toNat 2 then Reg.PERTURB_CRC_INJ_COUNT.get w else 0 } }
  else if a = Reg.PERTURB_ECC_INJ then
    { s.wr a (if Reg.PERTURB_ECC_INJ_COUNT.get w = 0 then w &&& 0xFFFFFFFC else w) with inj := { s.inj with ecc := Reg.PERTURB_ECC_INJ_COUNT.get w } }
  else s.wr a w

/-- What follows an injection into class-0 traffic (R21). -/
def State.perturbVoid (s : State) (before : Bool) : State :=
  if s.c0Injected && !before then (s.raise 8 0).voidGuarantee else if s.c0Injected then s.voidGuarantee else s

theorem State.perturbStore_eq (s : State) (a : Nat) (w : Word) : s.perturbStore a w = (s.perturbSet a w).perturbVoid s.c0Injected := rfl

theorem State.voidGuarantee_within (s : State) : Within [0] s s.voidGuarantee := by
  unfold State.voidGuarantee
  exact Within.ite (Within.refl _ s) ((s.put_within (by decide)).trans (State.raise_within _ (by decide)))

theorem State.voidGuarantee_void (s : State) : s.voidGuarantee.fld ⟨Reg.CHIP_GUARANTEE_VOID, 0, 1⟩ = 1 := by
  unfold State.voidGuarantee
  split
  · next h =>
    have hlt : s.fld ⟨Reg.CHIP_GUARANTEE_VOID, 0, 1⟩ < 2 := s.fld_lt ⟨Reg.CHIP_GUARANTEE_VOID, 0, 1⟩
    have hne := State.flag_iff.1 h
    omega
  · rw [State.fld_raise_other (by decide), State.fld_put_mod (by decide)]
    rfl

theorem State.perturbVoid_cases (s : State) (before : Bool) : s.perturbVoid before = s ∧ s.c0Injected = false ∨
    s.c0Injected = true ∧ ∃ u, (u = s ∨ u = s.raise 8 0) ∧ s.perturbVoid before = u.voidGuarantee := by
  unfold State.perturbVoid
  split
  · next h => exact Or.inr ⟨(Bool.and_eq_true_iff.1 h).1, _, Or.inr rfl, rfl⟩
  · split
    · next h => exact Or.inr ⟨h, _, Or.inl rfl, rfl⟩
    · next h => exact Or.inl ⟨rfl, by simpa using h⟩

theorem State.perturbVoid_onlyRegs (s : State) (before : Bool) : OnlyRegs s (s.perturbVoid before) := by
  obtain ⟨h, -⟩ | ⟨-, u, rfl | rfl, h⟩ := s.perturbVoid_cases before
  · rw [h]; exact OnlyRegs.refl s
  · rw [h]; exact u.voidGuarantee_within.only
  · rw [h]; exact (s.raise_onlyRegs _ _).trans (State.voidGuarantee_within _).only

theorem State.perturbVoid_rd (s : State) (before : Bool) (hpage : a / 0x1000 ≠ 0) (hirq : Reg.HDR_IRQ_RAW 8 ≠ a) :
    (s.perturbVoid before).rd a = s.rd a := by
  obtain ⟨h, -⟩ | ⟨-, u, hu, h⟩ := s.perturbVoid_cases before
  · rw [h]
  · rw [h, u.voidGuarantee_within.rd a (by simpa using hpage)]
    obtain rfl | rfl := hu
    · rfl
    · exact State.raise_rd_other _ _ _ _ hirq

/-- Whether class 0 is injected is told by registers of PERTURB and the regions. -/
theorem State.c0Injected_congr (hrd : ∀ a, a / 0x1000 = 8 → a ≠ Reg.HDR_IRQ_RAW 8 → t.rd a = s.rd a) (hmem : t.mem = s.mem) :
    t.c0Injected = s.c0Injected := by
  have hfld : ∀ x : Fld, x.addr / 0x1000 = 8 → x.addr ≠ Reg.HDR_IRQ_RAW 8 → t.fld x = s.fld x := fun x h h' => by
    rw [State.fld, hrd _ h h', State.fld]
  have hcls : ∀ h, t.isCls0 h = s.isCls0 h := fun h => by rw [State.isCls0, State.region, hmem, State.isCls0, State.region]
  simp only [State.c0Injected, State.flag, hcls]
  rw [hfld Reg.PERTURB_DRAM_LAT0_C0 (by decide) (by decide), hfld Reg.PERTURB_EDL_BP_EN (by decide) (by decide),
    hfld ⟨Reg.PERTURB_CODEC_STRETCH, 0, 16⟩ (by decide) (by decide), hfld Reg.PERTURB_ECC_INJ_SINGLE (by decide) (by decide),
    hfld Reg.PERTURB_ECC_INJ_DOUBLE (by decide) (by decide), hfld Reg.PERTURB_ECC_INJ_CLASS (by decide) (by decide),
    hfld Reg.PERTURB_PAGER_EN (by decide) (by decide), hfld Reg.PERTURB_PAGER_HANDLE (by decide) (by decide)]

theorem State.perturbVoid_c0 (s : State) (before : Bool) : (s.perturbVoid before).c0Injected = s.c0Injected :=
  State.c0Injected_congr (fun _ hpage hirq => s.perturbVoid_rd before (by omega) (Ne.symm hirq)) (s.perturbVoid_onlyRegs before).mem_eq

theorem State.perturbVoid_guarantee (s : State) (before : Bool) :
    ((s.perturbVoid before).c0Injected = true → (s.perturbVoid before).fld ⟨Reg.CHIP_GUARANTEE_VOID, 0, 1⟩ = 1) ∧
    ((s.perturbVoid before).c0Injected = false → s.perturbVoid before = s) := by
  rw [s.perturbVoid_c0]
  obtain ⟨h, hno⟩ | ⟨hyes, u, -, h⟩ := s.perturbVoid_cases before
  · exact ⟨fun hyes => absurd (hno.symm.trans hyes) (by decide), fun _ => h⟩
  · exact ⟨fun _ => h ▸ u.voidGuarantee_void, fun hno => absurd (hno.symm.trans hyes) (by decide)⟩

theorem OnlyRegs.inj_eq (h : OnlyRegs s t) : t.inj = s.inj := by obtain ⟨_, _, _, rfl⟩ := h; rfl

/-- Every other register stays as an injection is stored. -/
theorem State.perturbSet_rd_other (h : b ≠ a) : (s.perturbSet a w).rd b = s.rd b := by
  unfold State.perturbSet
  split_ifs <;> exact State.rd_wr_other _ _ _ _ (Ne.symm h)

theorem State.perturbSet_plain (hc : a ≠ Reg.PERTURB_CRC_INJ) (he : a ≠ Reg.PERTURB_ECC_INJ) : (s.perturbSet a w).rd a = w := by
  rw [State.perturbSet, if_neg hc, if_neg he, State.rd_wr_self]

theorem mask_count_crc (w : Word) : Reg.PERTURB_CRC_INJ_COUNT.get (w &&& 0xFFFF0007#32) = w.toNat / 2 ^ 16 := by
  rw [Fld.get_and_of_ones (by decide)]
  exact Nat.mod_eq_of_lt (by have := w.isLt; change w.toNat / 2 ^ 16 < 2 ^ 16; omega)

theorem mask_count_ecc (w : Word) : Reg.PERTURB_ECC_INJ_COUNT.get (w &&& 0xFFFF0073#32) = w.toNat / 2 ^ 16 := by
  rw [Fld.get_and_of_ones (by decide)]
  exact Nat.mod_eq_of_lt (by have := w.isLt; change w.toNat / 2 ^ 16 < 2 ^ 16; omega)

/-- A word whose upper half is 0 has no bit there. -/
theorem upper_zero (h : w.toNat / 2 ^ 16 = 0) (hk : 16 ≤ k) : w.getLsbD k = false := by
  refine Nat.testBit_lt_two_pow (Nat.lt_of_lt_of_le ?_ (Nat.pow_le_pow_right (by decide) hk))
  omega

theorem mask_lone_crc (h : w.toNat / 2 ^ 16 = 0) : w &&& 0xFFFF0007#32 &&& 0xFFFF0000#32 = 0#32 := by
  refine BitVec.eq_of_getLsbD_eq fun i _ => ?_
  rw [BitVec.getLsbD_and, BitVec.getLsbD_and, BitVec.getLsbD_zero]
  by_cases hk : 16 ≤ i
  · rw [upper_zero h hk, Bool.false_and, Bool.false_and]
  · have hm : ∀ j < 16, (0xFFFF0000#32).getLsbD j = false := by decide
    rw [hm i (by omega), Bool.and_false]

theorem mask_lone_ecc (h : w.toNat / 2 ^ 16 = 0) : w &&& 0xFFFF0073#32 &&& 0xFFFFFFFC#32 = w &&& 0x70#32 := by
  refine BitVec.eq_of_getLsbD_eq fun i _ => ?_
  rw [BitVec.getLsbD_and, BitVec.getLsbD_and, BitVec.getLsbD_and]
  by_cases hk : 16 ≤ i
  · rw [upper_zero h hk, Bool.false_and, Bool.false_and, Bool.false_and]
  · have hm : ∀ j < 16, ((0xFFFF0073#32).getLsbD j && (0xFFFFFFFC#32).getLsbD j) = (0x70#32).getLsbD j := by decide
    rw [Bool.and_assoc, hm i (by omega)]

theorem mask_low_bits (w : Word) (hk : k < 3) : bit (w &&& 0xFFFF0007#32).toNat k = w.toNat.testBit k := by
  have hm : ∀ j < 3, (0xFFFF0007#32).getLsbD j = true := by decide
  rw [bit_eq_testBit]
  change (w &&& 0xFFFF0007#32).getLsbD k = w.getLsbD k
  rw [BitVec.getLsbD_and, hm k hk, Bool.and_true]

theorem State.perturbSet_crc : (s.perturbSet Reg.PERTURB_CRC_INJ (w &&& 0xFFFF0007#32)).rd Reg.PERTURB_CRC_INJ
      = (if w.toNat / 2 ^ 16 = 0 then 0 else w &&& 0xFFFF0007#32) ∧
    ((s.perturbSet Reg.PERTURB_CRC_INJ (w &&& 0xFFFF0007#32)).inj.isl, (s.perturbSet Reg.PERTURB_CRC_INJ (w &&& 0xFFFF0007#32)).inj.edl,
      (s.perturbSet Reg.PERTURB_CRC_INJ (w &&& 0xFFFF0007#32)).inj.bc) = (if w.toNat.testBit 0 then w.toNat / 2 ^ 16 else 0,
          if w.toNat.testBit 1 then w.toNat / 2 ^ 16 else 0, if w.toNat.testBit 2 then w.toNat / 2 ^ 16 else 0) := by
  rw [State.perturbSet, if_pos rfl, mask_count_crc, mask_low_bits w (by decide), mask_low_bits w (by decide), mask_low_bits w (by decide)]
  refine ⟨(State.rd_wr_self ..).trans ?_, rfl⟩
  split
  · next h => exact mask_lone_crc h
  · rfl

theorem State.perturbSet_ecc : (s.perturbSet Reg.PERTURB_ECC_INJ (w &&& 0xFFFF0073#32)).inj.ecc = w.toNat / 2 ^ 16 ∧
    (s.perturbSet Reg.PERTURB_ECC_INJ (w &&& 0xFFFF0073#32)).rd Reg.PERTURB_ECC_INJ
      = (if w.toNat / 2 ^ 16 = 0 then w &&& 0x70#32 else w &&& 0xFFFF0073#32) := by
  rw [State.perturbSet, if_neg (by decide), if_pos rfl, mask_count_ecc]
  refine ⟨rfl, (State.rd_wr_self ..).trans ?_⟩
  split
  · next h => exact mask_lone_ecc h
  · rfl

theorem crcRow_rw (hr : rowAt .PERTURB (Reg.PERTURB_CRC_INJ - 0x8000) = some r) : BitVec.ofNat 32 r.rw = 0xFFFF0007#32 := by
  have h : (rowAt .PERTURB (Reg.PERTURB_CRC_INJ - 0x8000)).all (fun r => BitVec.ofNat 32 r.rw == 0xFFFF0007#32) = true := by decide
  rw [hr, Option.all_some, beq_iff_eq] at h
  exact h

theorem eccRow_rw (hr : rowAt .PERTURB (Reg.PERTURB_ECC_INJ - 0x8000) = some r) : BitVec.ofNat 32 r.rw = 0xFFFF0073#32 := by
  have h : (rowAt .PERTURB (Reg.PERTURB_ECC_INJ - 0x8000)).all (fun r => BitVec.ofNat 32 r.rw == 0xFFFF0073#32) = true := by decide
  rw [hr, Option.all_some, beq_iff_eq] at h
  exact h

/-! STOP. -/

theorem State.each_clear (l : List Nat) (s : State) :
    OnlyRegs s (s.each l fun a s => s.wr a 0) ∧ ∀ b, (s.each l fun a s => s.wr a 0).rd b = if b ∈ l then 0 else s.rd b := by
  induction l generalizing s with
  | nil => exact ⟨OnlyRegs.refl s, fun b => by simp [State.each]⟩
  | cons a l ih =>
    obtain ⟨honly, hrd⟩ := ih (s.wr a 0)
    refine ⟨(s.wr_onlyRegs a 0).trans honly, fun b => (hrd b).trans ?_⟩
    by_cases hb : b ∈ l
    · rw [if_pos hb, if_pos (List.mem_cons_of_mem a hb)]
    · rw [if_neg hb]
      by_cases hab : b = a
      · rw [hab, if_pos List.mem_cons_self, State.rd_wr_self]
      · rw [State.rd_wr_other _ _ _ _ (Ne.symm hab), if_neg (by simp [hab, hb])]

theorem State.perturbStop_effect (s : State) : (∀ b, b ∈ perturbRegs → s.perturbStop.rd b = 0) ∧
    s.perturbStop.inj = PerturbState.atReset ∧ ∀ b, b ∉ perturbRegs → s.perturbStop.rd b = s.rd b := by
  obtain ⟨-, hrd⟩ := s.each_clear perturbRegs
  refine ⟨fun b hb => (hrd b).trans (if_pos hb), rfl, fun b hb => (hrd b).trans (if_neg hb)⟩

/-! The statement. -/

theorem perturb_refused (hs : s.Serves .PERTURB 8) (hport : port < 4) (ha : a ∈ perturbRegs) (hr : rowAt .PERTURB (a - 0x8000) = some r)
    (hv : s.presenceOpen = false) :
    ∃ t, exec (.perturbWrite port (a - 0x8000) w) s = .next t ∧ t.rd a = s.rd a ∧
      counted s t Reg.SEC_REFUSED 1 ∧ t.fld Reg.SEC_LAST_REFUSED_ADDR = a ∧ t.fld Reg.SEC_LAST_REFUSED_PORT = port := by
  obtain ⟨hrow, hp, -, hpage, -, -, hoff, -⟩ := perturbRegs_row ha hr
  have hexec := (exec_perturbWrite s port (a - 0x8000) w).trans (State.unheld_live hs.live)
  rw [hoff, State.hostWrite_refused (hpage ▸ hs) hrow hp hv] at hexec
  obtain ⟨hcount, haddr, hp⟩ := State.secRefused_effect (s := s) (a := a) (by omega) hport
  have hrd := (State.secRefused_within (s := s) (a := a) port).rd a (by rw [hpage]; decide)
  generalize s.secRefused port a false = t at hexec hcount haddr hp hrd
  exact ⟨_, hexec, (State.left_rd ..).trans hrd, (by rw [counted, State.left_rd]; exact hcount), (State.left_fld ..).trans haddr,
    (State.left_fld ..).trans hp⟩

theorem perturb_stored (hs : s.Serves .PERTURB 8) (ha : a ∈ perturbRegs) (hr : rowAt .PERTURB (a - 0x8000) = some r)
    (hv : s.presenceOpen = true) :
    ∃ t, exec (.perturbWrite port (a - 0x8000) w) s = .next t ∧
      (a ≠ Reg.PERTURB_CRC_INJ → a ≠ Reg.PERTURB_ECC_INJ → t.rd a = w &&& BitVec.ofNat 32 r.rw) ∧
      (a = Reg.PERTURB_CRC_INJ → t.rd a = (if w.toNat / 2 ^ 16 = 0 then 0 else w &&& BitVec.ofNat 32 r.rw) ∧
        (t.inj.isl, t.inj.edl, t.inj.bc) = (if w.toNat.testBit 0 then w.toNat / 2 ^ 16 else 0,
          if w.toNat.testBit 1 then w.toNat / 2 ^ 16 else 0, if w.toNat.testBit 2 then w.toNat / 2 ^ 16 else 0)) ∧
      (a = Reg.PERTURB_ECC_INJ → t.inj.ecc = w.toNat / 2 ^ 16 ∧
        t.rd a = (if w.toNat / 2 ^ 16 = 0 then w &&& 0x70#32 else w &&& BitVec.ofNat 32 r.rw)) ∧
      (t.c0Injected = true → t.fld ⟨Reg.CHIP_GUARANTEE_VOID, 0, 1⟩ = 1) ∧
      (t.c0Injected = false → t.rd Reg.CHIP_GUARANTEE_VOID = s.rd Reg.CHIP_GUARANTEE_VOID) := by
  obtain ⟨-, -, -, hpage, -, -, hoff, hirq⟩ := perturbRegs_row ha hr
  have hexec := (exec_perturbWrite s port (a - 0x8000) w).trans (State.unheld_live hs.live)
  rw [hoff, State.hostWrite_perturb hs ha hr hv, State.perturbStore_eq] at hexec
  have hrd := (s.perturbSet a (w &&& BitVec.ofNat 32 r.rw)).perturbVoid_rd s.c0Injected (by omega) hirq
  have hinj := ((s.perturbSet a (w &&& BitVec.ofNat 32 r.rw)).perturbVoid_onlyRegs s.c0Injected).inj_eq
  obtain ⟨hyes, hno⟩ := (s.perturbSet a (w &&& BitVec.ofNat 32 r.rw)).perturbVoid_guarantee s.c0Injected
  generalize (s.perturbSet a (w &&& BitVec.ofNat 32 r.rw)).perturbVoid s.c0Injected = t at hexec hrd hinj hyes hno
  refine ⟨_, hexec, fun hc he => hrd.trans (State.perturbSet_plain hc he), ?_, ?_, hyes, fun h => ?_⟩
  · rintro rfl
    rw [crcRow_rw hr] at hrd hinj ⊢
    obtain ⟨hreg, hcounts⟩ := State.perturbSet_crc (s := s) (w := w)
    rw [← hinj] at hcounts
    exact ⟨hrd.trans hreg, hcounts⟩
  · rintro rfl
    rw [eccRow_rw hr] at hrd hinj ⊢
    obtain ⟨hcount, hreg⟩ := State.perturbSet_ecc (s := s) (w := w)
    rw [← hinj] at hcount
    exact ⟨hcount, hrd.trans hreg⟩
  · have hvoid : Reg.CHIP_GUARANTEE_VOID / 0x1000 = 0 := rfl
    rw [State.left_rd, hno h, State.perturbSet_rd_other (fun h => by omega)]

theorem injectionsObey : Rules.InjectionsObey := fun s port a w r hs hport ha hr => by
  refine ⟨perturb_refused hs hport ha hr, perturb_stored hs ha hr, fun hodd => ?_⟩
  have hwrite : s.hostWrite port Reg.PERTURB_STOP w = s.perturbStop := by
    rw [State.hostWrite_acts (u := .PERTURB) (a := Reg.PERTURB_STOP) hs (by decide) rfl]
    exact if_pos (by rw [bit_eq_testBit, Nat.testBit_zero, hodd]; rfl)
  have hexec := (exec_perturbStop s port w).trans (State.unheld_live hs.live)
  rw [hwrite] at hexec
  have heffect := s.perturbStop_effect
  generalize s.perturbStop = t at hexec heffect
  exact ⟨_, hexec, heffect⟩

/-- Settles O58: each kind of turn by what its end counts and records, and the injections by the register that is stored. -/
theorem turnsAndInjections : Obligations.TurnsAndInjections := ⟨turnsRun, injectionsObey⟩

end Sys2Proof.Machine
end

section
/-! PROOFS. What TIMING's references, the lanes' transitions and the writes of engines leave of the rest of the state (R52,
R103, R105, R332 to R341). -/

namespace Sys2Proof.Machine

variable {s t u : State} {a e f h k l m n p ofs pa cls : Nat} {w : Word} {x : Fld}

/-! TIMING: its registers, and the plan of its frames. -/

/-- Nothing differs but TIMING's registers, with the event log, and what it plans: the reference, the error and the frame. -/
structure TimWork (s t : State) : Prop where
  state : ∃ r l e ref err late slewed period next, t = { s with
    regs := r, nv := { s.nv with log := l }, isl := { s.isl with rises := e }, tim := { s.tim with
      ref := ref, err := err, late := late, slewed := slewed, period := period, next := next } }
  rd : ∀ a, a / 0x1000 ≠ 0x30 → t.rd a = s.rd a

theorem TimWork.refl (s : State) : TimWork s s :=
  ⟨⟨s.regs, s.nv.log, s.isl.rises, s.tim.ref, s.tim.err, s.tim.late, s.tim.slewed, s.tim.period, s.tim.next, rfl⟩, fun _ _ => rfl⟩

theorem TimWork.trans (h : TimWork s t) (g : TimWork t u) : TimWork s u := by
  refine ⟨?_, fun a ha => (g.rd a ha).trans (h.rd a ha)⟩
  obtain ⟨_, _, _, _, _, _, _, _, _, rfl⟩ := h.state
  obtain ⟨r, l, e, ref, err, late, slewed, period, next, rfl⟩ := g.state
  exact ⟨r, l, e, ref, err, late, slewed, period, next, rfl⟩

theorem TimWork.ite {c : Prop} [Decidable c] (ht : TimWork s t) (hu : TimWork s u) : TimWork s (if c then t else u) := by
  split
  exacts [ht, hu]

theorem Within.timWork (h : Within [0x30] s t) : TimWork s t := by
  refine ⟨?_, fun a ha => h.rd a (by simpa using ha)⟩
  obtain ⟨r, l, e, rfl⟩ := h.only
  exact ⟨r, l, e, s.tim.ref, s.tim.err, s.tim.late, s.tim.slewed, s.tim.period, s.tim.next, rfl⟩

theorem TimWork.now_eq (h : TimWork s t) : t.now = s.now := by obtain ⟨_, _, _, _, _, _, _, _, _, rfl⟩ := h.state; rfl
theorem TimWork.out_eq (h : TimWork s t) : t.out = s.out := by obtain ⟨_, _, _, _, _, _, _, _, _, rfl⟩ := h.state; rfl
theorem TimWork.cas_eq (h : TimWork s t) : t.cas = s.cas := by obtain ⟨_, _, _, _, _, _, _, _, _, rfl⟩ := h.state; rfl
theorem TimWork.act_eq (h : TimWork s t) : t.act = s.act := by obtain ⟨_, _, _, _, _, _, _, _, _, rfl⟩ := h.state; rfl
theorem TimWork.srf_eq (h : TimWork s t) : t.srf = s.srf := by obtain ⟨_, _, _, _, _, _, _, _, _, rfl⟩ := h.state; rfl

/-- What events of the references leave of what TIMING keeps. -/
theorem TimWork.tim_eq (h : TimWork s t) : t.tim = { s.tim with
    ref := t.tim.ref, err := t.tim.err, late := t.tim.late, slewed := t.tim.slewed, period := t.tim.period, next := t.tim.next } := by
  obtain ⟨_, _, _, _, _, _, _, _, _, rfl⟩ := h.state; rfl

theorem TimWork.fld (h : TimWork s t) (hx : x.addr / 0x1000 ≠ 0x30) : t.fld x = s.fld x := by
  rw [State.fld, h.rd _ hx, State.fld]

theorem TimWork.steady (h : TimWork s t) : Steady s t := by
  obtain ⟨_, _, _, _, _, _, _, _, _, rfl⟩ := h.state; exact ⟨Nat.le_refl _, rfl, rfl⟩

theorem State.setTimMode_timWork (s : State) (m : Nat) : TimWork s (s.setTimMode m) := by
  unfold State.setTimMode State.bumpIf
  dsimp only
  refine TimWork.ite (TimWork.refl s) ?_
  have hleft : Within [0x30] s (((((if (s.timMode == timLOCKED) = true then s.bump Reg.TIMING_LOCK_LOSS else s).raiseIf
      (s.timMode == timLOCKED && m != timFREE) 0x30 1).put Reg.TIMING_STATUS_MODE m).put Reg.TIMING_STATUS_LOCK
      (b2n (m == timLOCKED))).raiseIf (m == timLOCKED) 0x30 0) :=
    ((((Within.ite (s.bump_within (by decide) (by decide)) (Within.refl _ s)).trans (State.raiseIf_within _ _ (by decide))).trans
      (State.put_within _ (by decide))).trans (State.put_within _ (by decide))).trans (State.raiseIf_within _ _ (by decide))
  generalize (((((if (s.timMode == timLOCKED) = true then s.bump Reg.TIMING_LOCK_LOSS else s).raiseIf
      (s.timMode == timLOCKED && m != timFREE) 0x30 1).put Reg.TIMING_STATUS_MODE m).put Reg.TIMING_STATUS_LOCK
      (b2n (m == timLOCKED))).raiseIf (m == timLOCKED) 0x30 0) = v at hleft ⊢
  exact TimWork.ite (hleft.timWork.trans ⟨⟨_, _, _, v.tim.ref, v.tim.err, true, false, v.tim.period, v.tim.next, rfl⟩, fun _ _ => rfl⟩)
    hleft.timWork

theorem State.putTicks_timWork (s : State) (ha : a / 0x1000 = 0x30) (n : Nat) : TimWork s (s.putTicks a n) :=
  (State.wr_within (ps := [0x30]) s (by simp [ha])).timWork

theorem State.measure_timWork (s : State) : TimWork s s.measure := by
  unfold State.measure
  split
  · exact TimWork.refl s
  · dsimp only
    have hphase : ∀ e : Int, TimWork s (s.putPhase Reg.TIMING_PHASE_ERR e) := fun e =>
      (State.wr_within (ps := [0x30]) s (by decide)).timWork
    refine TimWork.ite (TimWork.ite ?_ ?_) ?_
    · exact (hphase _).trans ⟨⟨_, _, _, s.tim.ref, _, _, _, _, _, rfl⟩, fun _ _ => rfl⟩
    · exact (hphase _).trans ⟨⟨_, _, _, s.tim.ref, _, _, s.tim.slewed, s.tim.period, s.tim.next, rfl⟩, fun _ _ => rfl⟩
    · exact (hphase _).trans ⟨⟨_, _, _, s.tim.ref, _, _, s.tim.slewed, s.tim.period, s.tim.next, rfl⟩, fun _ _ => rfl⟩

theorem State.startSlew_timWork (s : State) : TimWork s s.startSlew := (s.setTimMode_timWork _).trans (State.measure_timWork _)

/-- The reference that is wanted is taken: out of FREE, into slewing, or as it was. -/
theorem State.takeRef_timWork (s : State) : TimWork s (if s.refWanted = s.tim.ref then s
    else if s.refWanted = 2 then ({ s with tim := { s.tim with ref := s.refWanted } } : State).setTimMode timFREE
    else if ({ s with tim := { s.tim with ref := s.refWanted } } : State).timMode = timLOCKED ∨
        ({ s with tim := { s.tim with ref := s.refWanted } } : State).timMode = timSLEWING then
      (if ({ s with tim := { s.tim with ref := s.refWanted } } : State).timMode = timSLEWING then
        ({ s with tim := { s.tim with ref := s.refWanted } } : State)
      else ({ s with tim := { s.tim with ref := s.refWanted } } : State).setTimMode timSLEWING).measure
    else { s with tim := { s.tim with ref := s.refWanted } }) := by
  have href : TimWork s { s with tim := { s.tim with ref := s.refWanted } } :=
    ⟨⟨_, _, _, s.refWanted, s.tim.err, s.tim.late, s.tim.slewed, s.tim.period, s.tim.next, rfl⟩, fun _ _ => rfl⟩
  generalize ({ s with tim := { s.tim with ref := s.refWanted } } : State) = v at href ⊢
  refine TimWork.ite (TimWork.refl s) (TimWork.ite (href.trans (v.setTimMode_timWork _)) (TimWork.ite ?_ href))
  exact (TimWork.ite href (href.trans (v.setTimMode_timWork _))).trans (State.measure_timWork _)

theorem State.checkRef_timWork (s : State) : TimWork s s.checkRef := by
  have h := s.takeRef_timWork
  unfold State.checkRef
  dsimp only
  generalize (if s.refWanted = s.tim.ref then s else _ : State) = v at h ⊢
  exact TimWork.ite (h.trans v.startSlew_timWork) h

theorem State.moveNext_timWork (s : State) (n : Nat) : TimWork s (s.moveNext n) :=
  (s.putTicks_timWork (by decide) _).trans
    ⟨⟨_, _, _, s.tim.ref, s.tim.err, s.tim.late, s.tim.slewed, _, _, rfl⟩, fun _ _ => rfl⟩

theorem State.refEdge_timWork (s : State) : TimWork s s.refEdge := by
  unfold State.refEdge
  split
  · exact TimWork.refl s
  · dsimp only
    split
    · split
      · split
        · exact s.moveNext_timWork _
        · exact TimWork.refl s
      · split
        · exact s.moveNext_timWork _
        · exact TimWork.refl s
    · split
      · exact s.measure_timWork
      · exact s.checkRef_timWork

/-! The lanes: registers of a lane's PHY block, and the lane itself. -/

/-- Nothing differs but registers and what is kept of the lanes. -/
def LaneWork (s t : State) : Prop := ∃ r c, t = { s with regs := r, phy := c }

theorem LaneWork.refl (s : State) : LaneWork s s := ⟨s.regs, s.phy, rfl⟩

theorem LaneWork.trans (h : LaneWork s t) (g : LaneWork t u) : LaneWork s u := by
  obtain ⟨_, _, rfl⟩ := h
  obtain ⟨r, c, rfl⟩ := g
  exact ⟨r, c, rfl⟩

theorem LaneWork.ite {c : Prop} [Decidable c] (ht : LaneWork s t) (hu : LaneWork s u) : LaneWork s (if c then t else u) := by
  split
  exacts [ht, hu]

theorem LaneWork.now_eq (h : LaneWork s t) : t.now = s.now := by obtain ⟨_, _, rfl⟩ := h; rfl
theorem LaneWork.out_eq (h : LaneWork s t) : t.out = s.out := by obtain ⟨_, _, rfl⟩ := h; rfl
theorem LaneWork.cas_eq (h : LaneWork s t) : t.cas = s.cas := by obtain ⟨_, _, rfl⟩ := h; rfl
theorem LaneWork.steady (h : LaneWork s t) : Steady s t := by obtain ⟨_, _, rfl⟩ := h; exact ⟨Nat.le_refl _, rfl, rfl⟩

section
variable (s)

theorem State.mapLane_laneWork (l : Nat) (g : Lane → Lane) : LaneWork s (s.mapLane l g) := ⟨s.regs, _, rfl⟩
theorem State.wr_laneWork (a : Nat) (w : Word) : LaneWork s (s.wr a w) := ⟨_, s.phy, rfl⟩
theorem State.put_laneWork (x : Fld) (n : Nat) : LaneWork s (s.put x n) := s.wr_laneWork _ _

theorem State.laneStart_laneWork (l t : Nat) : LaneWork s (s.laneStart l t) := (s.mapLane_laneWork _ _).trans (State.put_laneWork _ _ _)

theorem State.laneAim_laneWork (l : Nat) : LaneWork s (s.laneAim l) := by
  unfold State.laneAim
  dsimp only
  split
  · exact LaneWork.ite (LaneWork.refl s) (s.laneStart_laneWork _ _)
  · refine LaneWork.ite (LaneWork.refl s) ?_
    exact (LaneWork.ite (s.put_laneWork _ _) (LaneWork.refl s)).trans (State.mapLane_laneWork _ _ _)

theorem State.laneProto_laneWork (l t : Nat) : LaneWork s (s.laneProto l t) := (s.mapLane_laneWork _ _).trans (State.laneAim_laneWork _ _)

/-- A change of what a lane aims at reaches two registers of its PHY block. -/
theorem State.laneAim_rd (hb : Reg.PHY_LSTATE (phyBase l) ≠ a) (hc : Reg.PHY_TRANS_CNT (phyBase l) ≠ a) : (s.laneAim l).rd a = s.rd a := by
  unfold State.laneAim State.laneStart
  dsimp only
  split
  · split
    · rfl
    · exact State.rd_put_other hb
  · split
    · rfl
    · change (if (s.lane l).pend.isSome then s.bumpPhy (Reg.PHY_TRANS_CNT_SUPERSEDED (phyBase l)) 1 else s).rd a = _
      split
      · exact State.rd_put_other hc
      · rfl

theorem State.laneProto_rd (hb : Reg.PHY_LSTATE (phyBase l) ≠ a) (hc : Reg.PHY_TRANS_CNT (phyBase l) ≠ a) :
    (s.laneProto l n).rd a = s.rd a := State.laneAim_rd (s.mapLane l _) hb hc

end

/-! Writes of engines: what an access to DRAM reaches, and the DRAM itself. -/

/-- Nothing differs but what an access to DRAM reaches, and the bytes of the DRAM. -/
structure StoreWork (s t : State) : Prop where
  state : ∃ r l e d m f i c, t = { s with
    regs := r, nv := { s.nv with log := l }, isl := { s.isl with rises := e }, dram := d, sram := m, fresh := f, inj := i, mem := c }
  rd : ∀ a, a / 0x1000 ∉ memPages → t.rd a = s.rd a

theorem StoreWork.refl (s : State) : StoreWork s s :=
  ⟨⟨s.regs, s.nv.log, s.isl.rises, s.dram, s.sram, s.fresh, s.inj, s.mem, rfl⟩, fun _ _ => rfl⟩

theorem StoreWork.trans (h : StoreWork s t) (g : StoreWork t u) : StoreWork s u := by
  refine ⟨?_, fun a ha => (g.rd a ha).trans (h.rd a ha)⟩
  obtain ⟨_, _, _, _, _, _, _, _, rfl⟩ := h.state
  obtain ⟨r, l, e, d, m, f, i, c, rfl⟩ := g.state
  exact ⟨r, l, e, d, m, f, i, c, rfl⟩

theorem MemWork.storeWork (h : MemWork s t) : StoreWork s t := by
  refine ⟨?_, h.rd⟩
  obtain ⟨r, l, e, m, f, i, c, rfl⟩ := h.state
  exact ⟨r, l, e, s.dram, m, f, i, c, rfl⟩

theorem StoreWork.steady (h : StoreWork s t) : Steady s t := by
  obtain ⟨_, _, _, _, _, _, _, _, rfl⟩ := h.state; exact ⟨Nat.le_refl _, rfl, rfl⟩
theorem StoreWork.cas_eq (h : StoreWork s t) : t.cas = s.cas := by obtain ⟨_, _, _, _, _, _, _, _, rfl⟩ := h.state; rfl
theorem StoreWork.out_eq (h : StoreWork s t) : t.out = s.out := by obtain ⟨_, _, _, _, _, _, _, _, rfl⟩ := h.state; rfl
theorem StoreWork.now_eq (h : StoreWork s t) : t.now = s.now := by obtain ⟨_, _, _, _, _, _, _, _, rfl⟩ := h.state; rfl

theorem State.used_memWork (s : State) : MemWork s s.used :=
  ⟨⟨s.regs, s.nv.log, s.isl.rises, s.sram, _, s.inj, s.mem, rfl⟩, fun _ _ => rfl⟩

theorem State.bumpIf_memWork (s : State) (c : Bool) (ha : a / 0x1000 ∈ memPages) : MemWork s (s.bumpIf c a) := by
  unfold State.bumpIf
  exact MemWork.ite (s.bump_memWork ha) (MemWork.refl s)

theorem State.c0Admit_memWork (s : State) (h ofs : Nat) : MemWork s (s.c0Admit h ofs) := by
  unfold State.c0Admit
  dsimp only
  refine MemWork.trans (MemWork.trans (MemWork.trans ?_ ((State.used_memWork _).trans (State.mem_memWork _ _)))
    (State.bumpIf_memWork _ _ (by decide))) (State.raiseIf_memWork _ _ (by decide))
  exact MemWork.ite (s.bump_memWork (by decide)) (s.mem_memWork _)

theorem State.admits_memWork (s : State) (e h ofs n : Nat) : MemWork s (s.admits e h ofs n) := by
  unfold State.admits
  refine MemWork.ite (MemWork.refl s) ?_
  exact State.each_induct (MemWork s) _ _ (fun i v hv => hv.trans (v.c0Admit_memWork _ _)) s (MemWork.refl s)

theorem State.commitTo_memWork (s : State) (p idx : Nat) : MemWork s (s.commitTo p idx) :=
  ((s.setPhys_memWork _ _ _).trans (State.setMap_memWork _ _ _ _ _)).trans (State.put_memWork _ (by decide))

theorem State.ensurePage_memWork (h : s.ensurePage k ofs = some t) : MemWork s t := by
  unfold State.ensurePage at h
  split at h
  · cases h
  · dsimp only at h
    split at h
    · split at h
      · cases h; exact s.mem_memWork _
      · split at h
        · split at h
          · cases h; exact s.commitTo_memWork _ _
          · cases h
        · cases h
    · cases h

theorem State.dramWrite_storeWork (s : State) (pa : Nat) (l : List Byte) : StoreWork s (s.dramWrite pa l) :=
  ⟨⟨s.regs, s.nv.log, s.isl.rises, _, s.sram, s.fresh, s.inj, s.mem, rfl⟩, fun _ _ => rfl⟩

theorem State.physWrite_storeWork (s : State) (pa : Nat) (l : List Byte) : StoreWork s (s.physWrite pa l) := by
  unfold State.physWrite
  dsimp only
  refine StoreWork.trans ?_ (State.mem_memWork _ _).storeWork
  split
  · split
    · exact (s.dramWrite_storeWork _ _).trans (State.dramWrite_storeWork _ _ _)
    · exact s.dramWrite_storeWork _ _
  · exact s.dramWrite_storeWork _ _

theorem State.regionWrite_storeWork (h : Nat) : ∀ (fuel : Nat) (s : State) (ofs : Nat) (l : List Byte), StoreWork s (s.regionWrite h fuel ofs l).1
  | 0, s, _, _ => StoreWork.refl s
  | fuel + 1, s, ofs, l => by
    unfold State.regionWrite
    split
    · exact StoreWork.refl s
    · split
      · exact StoreWork.refl s
      · split
        · exact StoreWork.refl s
        · next t ht =>
          split
          · exact StoreWork.refl s
          · exact ((State.ensurePage_memWork ht).storeWork.trans (State.physWrite_storeWork _ _ _)).trans
              (State.regionWrite_storeWork h fuel _ _ _)

theorem State.beatsWrite_storeWork (s : State) (he : e < 16) (h ofs : Nat) (l : List Byte) : StoreWork s (s.beatsWrite e h ofs l).1 := by
  unfold State.beatsWrite
  dsimp only
  have hfirst := ((s.beats_memWork (n := (ofs % 64 + l.length + 63) / 64) (engineClass_lt e)).trans
    (State.injLat_memWork _ (engineClass e) ((ofs % 64 + l.length + 63) / 64))).trans (State.mapMiss_memWork _ true)
  generalize (((s.beats (engineClass e) ((ofs % 64 + l.length + 63) / 64)).injLat (engineClass e)
    ((ofs % 64 + l.length + 63) / 64)).mapMiss true) = v at hfirst ⊢
  have hpager := hfirst.trans (v.injPager_memWork h)
  generalize v.injPager h = pager at hpager ⊢
  obtain ⟨pk, v⟩ := pager
  dsimp only at hpager ⊢
  split
  · exact (hpager.trans (v.memFault_memWork he _ _ _ _)).storeWork
  · have hwrite := hpager.storeWork.trans (State.regionWrite_storeWork h (l.length / 65536 + 2) v ofs l)
    generalize v.regionWrite h (l.length / 65536 + 2) ofs l = result at hwrite ⊢
    obtain ⟨t, kind, done⟩ := result
    dsimp only at hwrite ⊢
    split
    · exact hwrite
    · refine hwrite.trans (MemWork.storeWork (MemWork.trans ?_ (State.memFault_memWork _ he _ _ _ _)))
      exact MemWork.ite (t.raise_memWork (by decide)) (MemWork.refl t)

theorem State.engWrite_storeWork (s : State) (he : e < 16) (h ofs : Nat) (l : List Byte) : StoreWork s (s.engWrite e h ofs l).1 :=
  (s.admits_memWork e h ofs l.length).storeWork.trans (State.beatsWrite_storeWork _ he h ofs l)

end Sys2Proof.Machine
end

section
/-! PROOFS. The cascade: blocks that leave on its lanes, positions, frame sync and retries (R471 to R474, R476). -/

namespace Sys2Proof.Machine

variable {s t u v : State} {a e k m n x y no delay lp lat : Nat} {w : Word} {block data b : List Byte}

/-! What a block sent on the cascade leaves. -/

/-- Nothing differs but the lanes, none of which a test takes or leaves, and what has left. -/
structure CasSent (s t : State) : Prop where
  state : ∃ c o, t = { s with phy := c, out := o ++ s.out }
  test : ∀ l, (t.lane l).test = (s.lane l).test

theorem CasSent.refl (s : State) : CasSent s s := ⟨⟨s.phy, [], rfl⟩, fun _ => rfl⟩

theorem CasSent.trans (h : CasSent s t) (g : CasSent t u) : CasSent s u := by
  refine ⟨?_, fun l => (g.test l).trans (h.test l)⟩
  obtain ⟨_, o, rfl⟩ := h.state
  obtain ⟨c, p, rfl⟩ := g.state
  exact ⟨c, p ++ o, by simp only [List.append_assoc]⟩

theorem CasSent.ite {c : Prop} [Decidable c] (ht : CasSent s t) (hu : CasSent s u) : CasSent s (if c then t else u) := by
  split
  exacts [ht, hu]

theorem CasSent.regs_eq (h : CasSent s t) : t.regs = s.regs := by obtain ⟨_, _, rfl⟩ := h.state; rfl
theorem CasSent.cas_eq (h : CasSent s t) : t.cas = s.cas := by obtain ⟨_, _, rfl⟩ := h.state; rfl
theorem CasSent.act_eq (h : CasSent s t) : t.act = s.act := by obtain ⟨_, _, rfl⟩ := h.state; rfl
theorem CasSent.now_eq (h : CasSent s t) : t.now = s.now := by obtain ⟨_, _, rfl⟩ := h.state; rfl
theorem CasSent.tim_eq (h : CasSent s t) : t.tim = s.tim := by obtain ⟨_, _, rfl⟩ := h.state; rfl
theorem CasSent.steady (h : CasSent s t) : Steady s t := by obtain ⟨_, _, rfl⟩ := h.state; exact ⟨Nat.le_refl _, rfl, rfl⟩
theorem CasSent.rd (h : CasSent s t) (a : Nat) : t.rd a = s.rd a := State.rd_of_regs h.regs_eq a
theorem CasSent.fld (h : CasSent s t) (f : Fld) : t.fld f = s.fld f := State.fld_of_regs h.regs_eq f
theorem CasSent.casUp (h : CasSent s t) (k : Nat) : t.casUp k = s.casUp k := by rw [State.casUp, h.fld, State.casUp]

theorem CasSent.laneCarries (h : CasSent s t) (l : Nat) : t.laneCarries l = s.laneCarries l := by
  simp only [State.laneCarries, State.laneInL0, State.laneCur, State.looped, h.fld, h.test]

theorem State.lane_setLane_same (s : State) (l : Nat) (x : Lane) : (s.setLane l x).lane l = x := Cells.get_set_self ..

theorem State.lane_setLane_other (s : State) {l j : Nat} (x : Lane) (h : l ≠ j) : (s.setLane l x).lane j = s.lane j :=
  Cells.get_set_other _ _ _ _ _ h

theorem State.setLane_casSent (s : State) (l : Nat) (x : Lane) (h : x.test = (s.lane l).test) : CasSent s (s.setLane l x) := by
  refine ⟨⟨_, [], rfl⟩, fun j => ?_⟩
  by_cases hj : l = j
  · rw [← hj, State.lane_setLane_same, h]
  · rw [State.lane_setLane_other _ _ hj]

theorem State.emit_casSent (s : State) (o : OutKind) (d : Nat) (l : List Nat) : CasSent s (s.emit o d l) := ⟨⟨s.phy, [⟨o, d, l⟩], rfl⟩, fun _ => rfl⟩

theorem State.casSend_casSent (s : State) (k hdr payload : Nat) : CasSent s (s.casSend k hdr payload) := by
  unfold State.casSend
  dsimp only
  refine CasSent.ite (CasSent.refl s) (CasSent.ite ?_ (s.emit_casSent ..))
  refine CasSent.trans (State.setLane_casSent s (laneCasTx k) _ ?_) (State.emit_casSent ..)
  rfl

theorem State.casControl_casSent (s : State) (k ctype : Nat) (body : List Byte) : CasSent s (s.casControl k ctype body) := s.casSend_casSent ..

/-- A lane that carries traffic sends one block. -/
theorem State.casSend_length (s : State) {hdr payload : Nat} (h : s.laneCarries (laneCasTx k) = true) :
    (s.casSend k hdr payload).out.length = s.out.length + 1 := by
  unfold State.casSend
  dsimp only
  rw [h]
  simp only [Bool.not_true, Bool.false_eq_true, if_false]
  split <;> rfl

theorem State.each_casSent {α : Type} (s : State) (l : List α) (f : α → State → State) (h : ∀ x t, CasSent t (f x t)) :
    CasSent s (s.each l f) :=
  State.each_induct (CasSent s) l f (fun x t ht => ht.trans (h x t)) s (CasSent.refl s)

/-- Each edge whose lane is UP sends one block. -/
theorem State.each_sends {f : Nat → State → State} (hsent : ∀ e t, CasSent t (f e t)) (l : List Nat)
    (hone : ∀ e ∈ l, ∀ t, CasSent s t → (f e t).out.length = t.out.length + if s.casUp e then 1 else 0) :
    ∀ t, CasSent s t → (t.each l f).out.length = t.out.length + (l.filter fun e => s.casUp e).length := by
  induction l with
  | nil => exact fun _ _ => rfl
  | cons e l ih =>
    intro t ht
    have hrest := ih (fun j hj => hone j (List.mem_cons_of_mem _ hj)) (f e t) (ht.trans (hsent e t))
    have hfirst := hone e List.mem_cons_self t ht
    rw [State.each, List.foldl_cons]
    refine hrest.trans ?_
    rw [hfirst, List.filter_cons]
    split
    · rw [List.length_cons]; omega
    · omega

theorem State.casData_casSent (s : State) (k : Nat) (l : List Byte) : CasSent s (s.casData k l) :=
  s.each_casSent _ _ fun _ t => t.casSend_casSent ..

theorem State.seamSend_casSent (s : State) (k kind line first count : Nat) (l : List Byte) :
    CasSent s (s.seamSend k kind line first count l) := by
  unfold State.seamSend
  exact CasSent.ite ((s.casControl_casSent ..).trans (State.casData_casSent ..)) (CasSent.refl s)

/-! Which block comes. -/

theorem State.casBlock_silent (h : s.laneCarries (laneCasRx k) = false ∨ blockGood block = false) : s.casBlock k block data = s := by
  unfold State.casBlock
  rw [if_pos]
  obtain h | h := h <;> simp [h]

theorem State.casBlock_taken (hlane : s.laneCarries (laneCasRx k) = true) (hgood : blockGood block = true) :
    s.casBlock k block data =
      if byteAt block 0 = rowFSYNC then s.fsync k (leField (blockBody block).2 0 4) (leField (blockBody block).2 4 3)
        (leField (blockBody block).2 7 3) (leField (blockBody block).2 10 2)
      else if byteAt block 0 = rowSEAM then s.seam k (byteAt (blockBody block).2 0) (leField (blockBody block).2 1 2)
        (leField (blockBody block).2 3 2) (leField (blockBody block).2 5 2) data
      else if byteAt block 0 = rowTUNNEL then s.tunnelIn k (byteAt (blockBody block).2 0) (byteAt (blockBody block).2 1)
        (leField (blockBody block).2 2 3) (byteAt (blockBody block).2 5 % 16) (BitVec.ofNat 32 (leField (blockBody block).2 6 4))
      else if byteAt block 0 = rowPOS then s.posBlock k (leField (blockBody block).2 0 2) (leField (blockBody block).2 2 2)
      else s := by
  unfold State.casBlock
  rw [hlane, hgood, if_neg (by decide)]

theorem State.casBlock_pos (hlane : s.laneCarries (laneCasRx k) = true) (h : carries block rowPOS b) :
    s.casBlock k block data = s.posBlock k (leField b 0 2) (leField b 2 2) := by
  obtain ⟨hgood, htype, rfl⟩ := h
  rw [State.casBlock_taken hlane hgood, htype, if_neg (by decide), if_neg (by decide), if_neg (by decide), if_pos rfl]

theorem State.casBlock_fsync (hlane : s.laneCarries (laneCasRx k) = true) (h : carries block rowFSYNC b) :
    s.casBlock k block data = s.fsync k (leField b 0 4) (leField b 4 3) (leField b 7 3) (leField b 10 2) := by
  obtain ⟨hgood, htype, rfl⟩ := h
  rw [State.casBlock_taken hlane hgood, htype, if_pos rfl]

theorem State.casBlock_seam (hlane : s.laneCarries (laneCasRx k) = true) (h : carries block rowSEAM b) :
    s.casBlock k block data = s.seam k (byteAt b 0) (leField b 1 2) (leField b 3 2) (leField b 5 2) data := by
  obtain ⟨hgood, htype, rfl⟩ := h
  rw [State.casBlock_taken hlane hgood, htype, if_neg (by decide), if_pos rfl]

/-! Positions (R472). -/

/-- The position of a neighbour. -/
theorem State.posSend_casSent (s : State) (k : Nat) : CasSent s (s.posSend k) := by
  unfold State.posSend
  refine CasSent.ite ?_ (CasSent.refl s)
  dsimp only
  split
  all_goals exact s.casControl_casSent ..

theorem State.posSend_length (hvalid : s.flag Reg.CAS_POS_VALID = true) (hcarry : s.casUp k = true → s.laneCarries (laneCasTx k) = true) :
    (s.posSend k).out.length = s.out.length + if s.casUp k then 1 else 0 := by
  unfold State.posSend
  rw [hvalid, Bool.and_true]
  by_cases hup : s.casUp k = true
  · rw [hup]
    simp only [if_true]
    split
    all_goals exact s.casSend_length (hcarry hup)
  · rw [Bool.not_eq_true] at hup
    rw [hup]
    rfl

/-- A position that contradicts the one taken. -/
def State.posRefused (s : State) : State :=
  { (s.bump Reg.CAS_POS_ERR).raise 0x120 3 with cas := { s.cas with conflict := true } }

theorem State.posRefused_effect (hgate : s.gateClosed 0x120 = false) :
    counted s s.posRefused Reg.CAS_POS_ERR 1 ∧ raised s.posRefused 0x120 3 ∧ s.posRefused.rd Reg.CAS_POS = s.rd Reg.CAS_POS ∧
    s.posRefused.cas.conflict = true := by
  have hopen : (s.bump Reg.CAS_POS_ERR).gateClosed 0x120 = false := by rw [State.gateClosed_bump (by decide)]; exact hgate
  refine ⟨counted_of_rd ?_ (by decide), ?_, ?_, rfl⟩
  · exact (State.rd_cas ..).trans (State.raise_rd_other _ _ _ _ (by decide))
  · exact (State.fld_cas ..).trans (State.fld_raise_self hopen (by decide))
  · exact (State.rd_cas ..).trans ((State.raise_rd_other _ _ _ _ (by decide)).trans (State.rd_bump_other (by decide)))

/-- The position as a POS block gives it. -/
def State.posSet (s : State) (x y : Nat) : State := s.wrN Reg.CAS_POS (x + 2 ^ 8 * y + 2 ^ 24)

theorem State.posBlock_first (hup : s.casUp k = true) (hvalid : s.flag Reg.CAS_POS_VALID = false) (hx : x < 256) (hy : y < 256) :
    s.posBlock k x y = (s.posSet x y).each [0, 1, 2, 3] (fun k s => s.posSend k) := by
  have hin : ¬ (255 < x ∨ 255 < y) := by omega
  rw [State.posBlock, hup, hvalid]
  simp only [Bool.not_true, Bool.false_eq_true, if_false, if_neg hin]
  rfl

theorem State.posSet_fields (hx : x < 256) (hy : y < 256) : (s.posSet x y).fld Reg.CAS_POS_X = x ∧ (s.posSet x y).fld Reg.CAS_POS_Y = y ∧
    (s.posSet x y).flag Reg.CAS_POS_VALID = true := by
  have hword : (BitVec.ofNat 32 (x + 2 ^ 8 * y + 2 ^ 24)).toNat = x + 2 ^ 8 * y + 2 ^ 24 := by
    rw [BitVec.toNat_ofNat, Nat.mod_eq_of_lt]; omega
  refine ⟨?_, ?_, State.flag_iff.2 ?_⟩
  · rw [State.posSet, State.wrN, State.fld_wr_self (a := Reg.CAS_POS) (x := Reg.CAS_POS_X) rfl, Fld.get, hword]
    change (x + 2 ^ 8 * y + 2 ^ 24) / 2 ^ 0 % 2 ^ 8 = x
    omega
  · rw [State.posSet, State.wrN, State.fld_wr_self (a := Reg.CAS_POS) (x := Reg.CAS_POS_Y) rfl, Fld.get, hword]
    change (x + 2 ^ 8 * y + 2 ^ 24) / 2 ^ 8 % 2 ^ 8 = y
    omega
  · rw [State.posSet, State.wrN, State.fld_wr_self (a := Reg.CAS_POS) (x := Reg.CAS_POS_VALID) rfl, Fld.get, hword]
    change (x + 2 ^ 8 * y + 2 ^ 24) / 2 ^ 24 % 2 ^ 1 ≠ 0
    omega

/-- CAS.POS is no register that says which lanes carry traffic. -/
theorem laneCarries_wr (ha : ∀ j, Reg.PHY_LSTATE (phyBase j) ≠ a ∧ Reg.PHY_PRBS (phyBase j) ≠ a) (l : Nat) :
    (s.wr a w).laneCarries l = s.laneCarries l := by
  have hcur : (s.wr a w).fld (Reg.PHY_LSTATE_CUR (phyBase l)) = s.fld (Reg.PHY_LSTATE_CUR (phyBase l)) :=
    State.fld_wr_other (Ne.symm (ha l).1)
  have hloop : ∀ j, (s.wr a w).fld (Reg.PHY_PRBS_LOOP (phyBase j)) = s.fld (Reg.PHY_PRBS_LOOP (phyBase j)) :=
    fun j => State.fld_wr_other (Ne.symm (ha j).2)
  simp only [State.laneCarries, State.laneInL0, State.laneCur, State.looped, hcur, hloop]
  rfl

theorem phyBase_ge (l : Nat) : phyBase l % 0x1000 = 0x400 ∨ phyBase l % 0x1000 = 0x500 ∨ 0x120400 ≤ phyBase l := by
  unfold phyBase
  split_ifs <;> omega

theorem casPos_not_phy (l : Nat) : Reg.PHY_LSTATE (phyBase l) ≠ Reg.CAS_POS ∧ Reg.PHY_PRBS (phyBase l) ≠ Reg.CAS_POS := by
  have h := phyBase_ge l
  simp only [Reg.PHY_LSTATE, Reg.PHY_PRBS, Reg.CAS_POS]
  omega

theorem State.posSends_length (hcarry : ∀ e, e < 4 → s.casUp e = true → s.laneCarries (laneCasTx e) = true) (hx : x < 256) (hy : y < 256) :
    ((s.posSet x y).each [0, 1, 2, 3] (fun k s => s.posSend k)).out.length
      = s.out.length + ((List.range 4).filter (fun e => s.casUp e)).length := by
  have hup : ∀ e, (s.posSet x y).casUp e = s.casUp e := fun e => by
    rw [State.casUp, State.posSet, State.wrN, State.fld_wr_other (a := Reg.CAS_POS) (x := casLaneFld e) (by exact (by decide : Reg.CAS_POS ≠ Reg.CAS_LANE_STATE)),
      State.casUp]
  have hlen := State.each_sends (s := s.posSet x y) (fun e t => t.posSend_casSent e) [0, 1, 2, 3] (fun e he t ht => ?_)
    (s.posSet x y) (CasSent.refl _)
  · simp only [hup] at hlen
    rw [show (s.posSet x y).out = s.out from State.wr_out ..] at hlen
    exact hlen
  · have hlt : e < 4 := by simp only [List.mem_cons, List.not_mem_nil, or_false] at he; omega
    have hvalid : t.flag Reg.CAS_POS_VALID = true := by
      rw [State.flag, ht.fld]; exact (State.posSet_fields hx hy).2.2
    rw [State.posSend_length hvalid (fun hue => ?_), ht.casUp]
    rw [ht.casUp, hup] at hue
    rw [ht.laneCarries, State.posSet, State.wrN, laneCarries_wr casPos_not_phy]
    exact hcarry e hlt hue

theorem pos_statement (hlive : s.boot.resetLow = false) (hgate : s.gateClosed 0x120 = false) (hlane : s.laneCarries (laneCasRx k) = true)
    (hblock : carries block rowPOS b) (hx : x = leField b 0 2) (hy : y = leField b 2 2) :
    (s.casUp k = false → exec (.casPos k block) s = .next s) ∧
    (s.casUp k = true → s.flag Reg.CAS_POS_VALID = true →
      (x = s.fld Reg.CAS_POS_X → y = s.fld Reg.CAS_POS_Y → exec (.casPos k block) s = .next s) ∧
      (x ≠ s.fld Reg.CAS_POS_X ∨ y ≠ s.fld Reg.CAS_POS_Y → ∃ t, exec (.casPos k block) s = .next t ∧
        counted s t Reg.CAS_POS_ERR 1 ∧ raised t 0x120 3 ∧ t.rd Reg.CAS_POS = s.rd Reg.CAS_POS ∧ t.cas.conflict = true)) ∧
    (s.casUp k = true → s.flag Reg.CAS_POS_VALID = false → x < 256 → y < 256 → ∃ t, exec (.casPos k block) s = .next t ∧
      t.fld Reg.CAS_POS_X = x ∧ t.fld Reg.CAS_POS_Y = y ∧ t.flag Reg.CAS_POS_VALID = true ∧
      ((∀ e, e < 4 → s.casUp e = true → s.laneCarries (laneCasTx e) = true) →
        t.out.length = s.out.length + ((List.range 4).filter (fun e => s.casUp e)).length)) := by
  have htake : s.casBlock k block [] = s.posBlock k x y := by rw [State.casBlock_pos hlane hblock, hx, hy]
  have hexec : exec (.casPos k block) s = .next (s.left (s.posBlock k x y)) := by
    rw [← htake]; exact (exec_casPos s k block).trans (State.unheld_live hlive)
  have hsame : s.posBlock k x y = s → exec (.casPos k block) s = .next s := fun h => by
    rw [hexec, h, State.left_of_steady (Steady.refl s)]
  refine ⟨fun hup => hsame ?_, fun hup hvalid => ⟨fun hx hy => hsame ?_, fun hne => ?_⟩, fun hup hvalid hx hy => ?_⟩
  · rw [State.posBlock, hup]; rfl
  · rw [State.posBlock, hup, hvalid, ← hx, ← hy]
    simp
  · have heq : s.posBlock k x y = s.posRefused := by
      rw [State.posBlock, hup, hvalid]
      simp only [Bool.not_true, Bool.false_eq_true, if_false, if_true]
      exact if_neg fun h => hne.elim (· h.1) (· h.2)
    rw [heq] at hexec
    obtain ⟨hcount, hraised, hpos, hconflict⟩ := State.posRefused_effect hgate
    generalize s.posRefused = t at hexec hcount hraised hpos hconflict
    exact ⟨_, hexec, (by rw [counted, State.left_rd]; exact hcount), (State.left_fld ..).trans hraised, (State.left_rd ..).trans hpos,
      hconflict⟩
  · rw [State.posBlock_first hup hvalid hx hy] at hexec
    have hsent := (s.posSet x y).each_casSent [0, 1, 2, 3] (fun k s => s.posSend k) fun k t => t.posSend_casSent k
    have hlen := fun hcarry => State.posSends_length (s := s) hcarry hx hy
    obtain ⟨hfx, hfy, hfv⟩ := State.posSet_fields (s := s) hx hy
    generalize (s.posSet x y).each [0, 1, 2, 3] (fun k s => s.posSend k) = t at hexec hsent hlen
    exact ⟨_, hexec, (State.left_fld ..).trans ((hsent.fld _).trans hfx), (State.left_fld ..).trans ((hsent.fld _).trans hfy),
      (by rw [State.left_flag, State.flag, hsent.fld]; exact hfv),
      fun hcarry => (congrArg List.length (State.left_out ..)).trans (hlen hcarry)⟩

/-! Frame sync (R473). -/

/-- Every edge whose lane is UP has had an FSYNC. -/
def State.edgeSynced (e : Nat) (s : State) : State := s.setCasEdge e { s.casEdge e with synced := s.casUp e }

theorem State.edgesSynced_keep (l : List Nat) (s : State) : ∃ c, s.each l State.edgeSynced = { s with cas := c } := by
  induction l generalizing s with
  | nil => exact ⟨s.cas, rfl⟩
  | cons e l ih =>
    obtain ⟨c, hc⟩ := ih (s.edgeSynced e)
    exact ⟨c, hc⟩

theorem State.edgesSynced_edge (l : List Nat) (s : State) (k : Nat) :
    ((s.each l State.edgeSynced).casEdge k).synced = if k ∈ l then s.casUp k else (s.casEdge k).synced := by
  induction l generalizing s with
  | nil => simp [State.each]
  | cons e l ih =>
    refine (ih (State.edgeSynced e s)).trans ?_
    have hup : (State.edgeSynced e s).casUp k = s.casUp k := rfl
    rw [hup]
    by_cases hmem : k ∈ l
    · rw [if_pos hmem, if_pos (List.mem_cons_of_mem _ hmem)]
    · rw [if_neg hmem]
      by_cases hke : e = k
      · subst hke
        rw [if_pos List.mem_cons_self, State.edgeSynced, State.casEdge, State.setCasEdge, Cells.get_set_self]
      · rw [if_neg (by simp [Ne.symm hke, hmem]), State.edgeSynced, State.casEdge, State.setCasEdge, Cells.get_set_other _ _ _ _ _ hke,
          State.casEdge]

/-- The boundary that FSYNC named is planned. -/
def State.fsyncPlanned (s : State) (lp lat : Nat) : State :=
  let t : State := { s with cas := { s.cas with syncWas := some (lp, lat), syncAt := s.now } }
  if lp ≠ s.linePeriod % 2 ^ 24 ∨ lat ≠ s.latLines then t.put Reg.CAS_STATUS_MISMATCH 1 else t

/-- A member's FSYNC is passed on, and its boundary placed. -/
def State.fsyncTaken (s : State) (no delay lp lat : Nat) : State :=
  let t := (s.each [0, 1] (fun e s => s.fsyncOn e no delay lp lat)).fsyncPlanned lp lat
  t.fsyncTarget (t.now + delay * ticksPerNs + (t.rdA Reg.CAS_ROW_OFS).toNat % 2 ^ 14 * t.linePeriod)

theorem State.fsync_eq (hmember : s.groupMember = true) (hup : s.casUp k = true) (ht : t = s.each [0, 1, 2, 3] State.edgeSynced) :
    s.fsync k no delay lp lat = if t.casRoot ∨ k ≠ (if t.casUp 2 then 2 else 3) then t else t.fsyncTaken no delay lp lat := by
  rw [State.fsync, hmember, hup, ht]
  rfl

theorem State.fsyncOn_casSent (s : State) (e : Nat) : CasSent s (s.fsyncOn e no delay lp lat) := by
  unfold State.fsyncOn
  exact CasSent.ite (s.casControl_casSent ..) (CasSent.refl s)

theorem State.fsyncOn_length (hcarry : s.casUp e = true → s.laneCarries (laneCasTx e) = true) :
    (s.fsyncOn e no delay lp lat).out.length = s.out.length + if s.casUp e then 1 else 0 := by
  unfold State.fsyncOn
  by_cases hup : s.casUp e = true
  · rw [if_pos hup, if_pos hup]; exact s.casSend_length (hcarry hup)
  · rw [if_neg hup, if_neg hup]; rfl

theorem State.fsyncPlanned_keeps (s : State) : ∃ r, s.fsyncPlanned lp lat =
    { s with regs := r, cas := { s.cas with syncWas := some (lp, lat), syncAt := s.now } } := by
  unfold State.fsyncPlanned
  dsimp only
  split
  · exact ⟨_, rfl⟩
  · exact ⟨s.regs, rfl⟩

theorem State.fsyncPlanned_mismatch (h : lp ≠ s.linePeriod % 2 ^ 24 ∨ lat ≠ s.latLines) :
    (s.fsyncPlanned lp lat).flag Reg.CAS_STATUS_MISMATCH = true := by
  unfold State.fsyncPlanned
  dsimp only
  rw [if_pos h, State.flag_iff, State.fld_put_mod (by decide)]
  decide

/-- FSYNC names a boundary, some ticks after the one it named before. -/
def State.syncSet (s : State) (f gap : Nat) : State :=
  { s with tim := { s.tim with sync := some f, syncGap := if gap = 0 then s.tim.syncGap else gap } }

theorem State.fsyncTarget_eq (s : State) (f : Nat) : ∃ gap, s.fsyncTarget f =
    if (s.syncSet f gap).timMode = timHOLDOVER then (s.syncSet f gap).checkRef else (s.syncSet f gap).checkRef.refEdge := ⟨_, rfl⟩

theorem State.fsyncTarget_keeps (s : State) (f : Nat) : (s.fsyncTarget f).tim.sync = some f ∧ (s.fsyncTarget f).cas = s.cas ∧
    (s.fsyncTarget f).out = s.out ∧ ∀ a, a / 0x1000 ≠ 0x30 → (s.fsyncTarget f).rd a = s.rd a := by
  obtain ⟨gap, heq⟩ := s.fsyncTarget_eq f
  rw [heq]
  have hset : (s.syncSet f gap).tim.sync = some f := rfl
  have hcas : (s.syncSet f gap).cas = s.cas := rfl
  have hout : (s.syncSet f gap).out = s.out := rfl
  have hrd : ∀ a, (s.syncSet f gap).rd a = s.rd a := fun a => State.rd_tim ..
  generalize s.syncSet f gap = v at hset hcas hout hrd ⊢
  have hwork : TimWork v (if v.timMode = timHOLDOVER then v.checkRef else v.checkRef.refEdge) :=
    TimWork.ite v.checkRef_timWork (v.checkRef_timWork.trans (State.refEdge_timWork _))
  generalize (if v.timMode = timHOLDOVER then v.checkRef else v.checkRef.refEdge) = t at hwork
  refine ⟨?_, hwork.cas_eq.trans hcas, hwork.out_eq.trans hout, fun a ha => (hwork.rd a ha).trans (hrd a)⟩
  rw [hwork.tim_eq, hset]

/-- What a member's FSYNC leaves: what went on, the boundary, and whether its values differed. -/
theorem State.fsyncTaken_effect (s : State) (no delay lp lat : Nat) :
    ∃ t, s.fsyncTaken no delay lp lat = t ∧
      t.tim.sync = some (s.now + delay * ticksPerNs + (s.rdA Reg.CAS_ROW_OFS).toNat % 2 ^ 14 * s.linePeriod) ∧
      t.cas = { s.cas with syncWas := some (lp, lat), syncAt := s.now } ∧
      (∃ o, t.out = o ++ s.out) ∧
      ((∀ e, e < 2 → s.casUp e = true → s.laneCarries (laneCasTx e) = true) →
        t.out.length = s.out.length + ((List.range 2).filter (fun e => s.casUp e)).length) ∧
      (lp ≠ s.linePeriod % 2 ^ 24 ∨ lat ≠ s.latLines → t.flag Reg.CAS_STATUS_MISMATCH = true) := by
  refine ⟨_, rfl, ?_⟩
  unfold State.fsyncTaken
  dsimp only
  have hsent := s.each_casSent [0, 1] (fun e s => s.fsyncOn e no delay lp lat) fun e t => t.fsyncOn_casSent e
  have hlen := State.each_sends (s := s) (f := fun e s => s.fsyncOn e no delay lp lat) (fun e t => t.fsyncOn_casSent e) [0, 1]
  generalize hu : s.each [0, 1] (fun e s => s.fsyncOn e no delay lp lat) = u at hsent ⊢
  have hlines : u.linePeriod = s.linePeriod := by rw [State.linePeriod, State.rdA, hsent.act_eq, State.linePeriod, State.rdA]
  have hlat : u.latLines = s.latLines := by rw [State.latLines, hsent.rd, State.latLines]
  obtain ⟨r, hplan⟩ := u.fsyncPlanned_keeps (lp := lp) (lat := lat)
  have hmis := State.fsyncPlanned_mismatch (s := u) (lp := lp) (lat := lat)
  generalize u.fsyncPlanned lp lat = v at hplan hmis ⊢
  have hnow : v.now = s.now := by rw [hplan]; exact hsent.now_eq
  have hline : v.linePeriod = s.linePeriod := by rw [← hlines, hplan]; rfl
  have hofs : v.rdA Reg.CAS_ROW_OFS = s.rdA Reg.CAS_ROW_OFS := by
    rw [State.rdA, hplan]
    exact congrArg (fun c => Cells.get _ c Reg.CAS_ROW_OFS) hsent.act_eq
  have hcas : v.cas = { s.cas with syncWas := some (lp, lat), syncAt := s.now } := by
    rw [hplan, ← hsent.cas_eq, ← hsent.now_eq]
  have hout : v.out = u.out := by rw [hplan]
  rw [hnow, hline, hofs]
  obtain ⟨hsync, hcas', hout', hrd⟩ := v.fsyncTarget_keeps (s.now + delay * ticksPerNs + (s.rdA Reg.CAS_ROW_OFS).toNat % 2 ^ 14 * s.linePeriod)
  refine ⟨hsync, hcas'.trans hcas, ?_, fun hcarry => ?_, fun hne => ?_⟩
  · obtain ⟨_, o, ho⟩ := hsent.state
    exact ⟨o, by rw [hout', hout, ho]⟩
  · rw [hout', hout, ← hu]
    refine hlen (fun e he t ht => ?_) s (CasSent.refl s)
    have hlt : e < 2 := by simp only [List.mem_cons, List.not_mem_nil, or_false] at he; omega
    rw [State.fsyncOn_length (fun hup => ?_), ht.casUp]
    rw [ht.laneCarries]
    exact hcarry e hlt (by rw [← ht.casUp]; exact hup)
  · rw [State.flag, State.fld, hrd _ (by decide)]
    exact hmis (by rw [hlines, hlat]; exact hne)

theorem fsync_statement (hlive : s.boot.resetLow = false) (hk : k < 4) (hlane : s.laneCarries (laneCasRx k) = true)
    (hblock : carries block rowFSYNC b) (hno : no = leField b 0 4) (hdelay : delay = leField b 4 3) (hlp : lp = leField b 7 3)
    (hlat : lat = leField b 10 2) :
    (s.groupMember = false ∨ s.casUp k = false → exec (.casFsync k block) s = .next s) ∧
    (s.groupMember = true → s.casUp k = true → ∃ t, exec (.casFsync k block) s = .next t ∧
      (t.casEdge k).synced = true ∧
      ((∀ e, e < 2 → s.casUp e = true → s.laneCarries (laneCasTx e) = true) → s.casRoot = false →
        k = (if s.casUp 2 then 2 else 3) →
        ∃ l, t.out = l ++ s.out ∧ l.length = ((List.range 2).filter (fun e => s.casUp e)).length) ∧
      (s.casRoot = false → k = (if s.casUp 2 then 2 else 3) → t.cas.syncWas = some (lp, lat) ∧ t.cas.syncAt = s.now ∧
        t.tim.sync = some (s.now + delay * 256 + (s.rdA Reg.CAS_ROW_OFS).toNat % 2 ^ 14 * s.linePeriod) ∧
        (lp ≠ s.linePeriod % 2 ^ 24 ∨ lat ≠ s.latLines → t.flag Reg.CAS_STATUS_MISMATCH = true)) ∧
      (s.casRoot = true ∨ k ≠ (if s.casUp 2 then 2 else 3) → t.tim = s.tim ∧ t.out = s.out)) := by
  have hexec : exec (.casFsync k block) s = .next (s.left (s.fsync k no delay lp lat)) := by
    rw [hno, hdelay, hlp, hlat, ← State.casBlock_fsync (data := []) hlane hblock]
    exact (exec_casFsync s k block).trans (State.unheld_live hlive)
  refine ⟨fun hout => ?_, fun hmember hup => ?_⟩
  · have hsame : s.fsync k no delay lp lat = s := by
      rw [State.fsync]
      exact if_pos (hout.imp (by simp [·]) (by simp [·]))
    rw [hexec, hsame, State.left_of_steady (Steady.refl s)]
  · rw [State.fsync_eq hmember hup rfl] at hexec
    have hsynced := State.edgesSynced_edge [0, 1, 2, 3] s k
    rw [if_pos (by simp only [List.mem_cons, List.not_mem_nil, or_false]; omega), hup] at hsynced
    obtain ⟨c, hkeep⟩ := State.edgesSynced_keep [0, 1, 2, 3] s
    generalize s.each [0, 1, 2, 3] State.edgeSynced = v at hexec hsynced hkeep
    have hroot : v.casRoot = s.casRoot := by rw [hkeep]; rfl
    have hups : ∀ e, v.casUp e = s.casUp e := fun e => by rw [hkeep]; rfl
    rw [hroot, hups] at hexec
    by_cases hpass : s.casRoot = true ∨ k ≠ (if s.casUp 2 then 2 else 3)
    · rw [if_pos hpass] at hexec
      have htim : v.tim = s.tim := by rw [hkeep]
      have hout : v.out = s.out := by rw [hkeep]
      refine ⟨_, hexec, hsynced, fun _ hnot hwest => absurd hpass ?_, fun hnot hwest => absurd hpass ?_, fun _ => ⟨htim, hout⟩⟩
      all_goals simp [hnot, ← hwest]
    · rw [if_neg hpass] at hexec
      obtain ⟨t, ht, hsync, hcas, ⟨o, ho⟩, hlen, hmis⟩ := v.fsyncTaken_effect no delay lp lat
      rw [ht] at hexec
      have hnow : v.now = s.now := by rw [hkeep]
      have hout : v.out = s.out := by rw [hkeep]
      have hline : v.linePeriod = s.linePeriod := by rw [hkeep]; rfl
      have hlatv : v.latLines = s.latLines := by rw [hkeep]; rfl
      have hofs : v.rdA Reg.CAS_ROW_OFS = s.rdA Reg.CAS_ROW_OFS := by rw [hkeep]; rfl
      have hcarries : ∀ l, v.laneCarries l = s.laneCarries l := fun l => by rw [hkeep]; rfl
      have hedge : t.casEdge k = v.casEdge k := by rw [State.casEdge, hcas, State.casEdge]
      simp only [hups, hcarries, hout, hline, hlatv] at hlen hmis ho
      rw [hnow, hofs, hline] at hsync
      rw [hnow] at hcas
      refine ⟨_, hexec, (congrArg CasEdge.synced hedge).trans hsynced, fun hcarry _ _ => ⟨o, ho, ?_⟩, fun _ _ => ⟨?_, ?_, hsync, hmis⟩,
        fun h => absurd h hpass⟩
      · have hl := hlen hcarry
        rw [ho, List.length_append] at hl
        omega
      · exact congrArg CasState.syncWas hcas
      · exact congrArg CasState.syncAt hcas

end Sys2Proof.Machine
end

section
/-! PROOFS. The cascade: seams, retries, FSYNC_OUT and LED_STAT (R471, R473, R475, R482). -/

namespace Sys2Proof.Machine

variable {s t u v : State} {a e k m n kind line first count : Nat} {w : Word} {block b bytes : List Byte} {px : List Pix}

/-! Misses of the banks. -/

theorem State.accessMiss_within (s : State) (port addr : Nat) (wr : Bool) : Within [3, 0x118] s (s.accessMiss port addr wr) := by
  unfold State.accessMiss
  exact ((((s.put_within (by decide)).trans (State.put_within _ (by decide))).trans (State.put_within _ (by decide))).trans
    (State.bump_within _ (by decide) (by decide))).trans (State.raiseIf_within _ _ (by decide))

theorem State.nonOwner_within (s : State) (n req : Nat) (wr : Bool) : Within [3, 0x118] s (s.nonOwner n req wr) := by
  unfold State.nonOwner
  have hcount : Within [3, 0x118] s (s.bump (if wr then Reg.BANKS_NONOWNER_WR else Reg.BANKS_NONOWNER_RD)) := by
    cases wr
    · exact s.bump_within (by decide) (by decide)
    · exact s.bump_within (by decide) (by decide)
  exact (((hcount.trans (State.put_within _ (by decide))).trans (State.put_within _ (by decide))).trans
    (State.put_within _ (by decide))).trans (State.raise_within _ (by decide))

theorem State.bankMiss_within (s : State) (n req : Nat) (wr : Bool) : Within [3, 0x118] s (s.bankMiss n req wr) := by
  unfold State.bankMiss
  exact Within.ite (s.accessMiss_within _ _ _) (s.nonOwner_within _ _ _)

theorem OnlyRegs.cas_eq (h : OnlyRegs s t) : t.cas = s.cas := by obtain ⟨_, _, _, rfl⟩ := h; rfl

/-! Columns (R475). -/

/-- The columns beside a line as they are held. -/
def State.colsHeld (s : State) (k line : Nat) (px : List Pix) : State :=
  { s with cas := { s.cas with cols := Cells.set (fun _ => []) s.cas.cols (seamKey k line) px } }

theorem State.seamCols_eq (s : State) (k line : Nat) (px : List Pix) : s.seamCols k line px =
    if s.bankFor (seamBank k) ownCas then (s.colsHeld k line px).sramPut (seamBank k) (48 * (line % 2048)) ((wordsLsb (pixBytes px)).take 48)
    else (s.colsHeld k line (px.map fun _ => Pix.black)).bankMiss (seamBank k) ownCas true := rfl

theorem State.seamCols_effect (s : State) (k line : Nat) (px : List Pix) :
    (s.seamCols k line px).cas.zones = s.cas.zones ∧
    Cells.get (fun _ => []) (s.seamCols k line px).cas.cols (seamKey k line)
      = (if s.bankFor (seamBank k) ownCas then px else px.map fun _ => Pix.black) ∧
    ∀ a, a / 0x1000 ∉ [3, 0x118] → (s.seamCols k line px).rd a = s.rd a := by
  rw [State.seamCols_eq]
  split
  · exact ⟨rfl, Cells.get_set_self .., fun _ _ => rfl⟩
  · have hmiss := (s.colsHeld k line (px.map fun _ => Pix.black)).bankMiss_within (seamBank k) ownCas true
    have hcas := hmiss.only.cas_eq
    generalize (s.colsHeld k line (px.map fun _ => Pix.black)).bankMiss (seamBank k) ownCas true = v at hmiss hcas
    refine ⟨?_, ?_, fun a ha => hmiss.rd a ha⟩
    · rw [hcas]; rfl
    · rw [hcas]; exact Cells.get_set_self ..

/-! A SEAM by its kind. -/

/-- A SEAM's payload passes its CRC-32. -/
def seamGood (kind count : Nat) (bytes : List Byte) : Prop :=
  bytes.length = (if kind = 2 then 4 * count else 6 * count) + 4 ∧
    bytes.drop (if kind = 2 then 4 * count else 6 * count) = leBytes 4 (crc32 (bytes.take (if kind = 2 then 4 * count else 6 * count)))

theorem State.seam_columns (hmember : s.groupMember = true) (hup : s.casUp k = true) (hk : k = 0 ∨ k = 2)
    (hv : v = if bytes.length = 6 * count + 4 ∧ bytes.drop (6 * count) = leBytes 4 (crc32 (bytes.take (6 * count))) then s
      else s.bump Reg.CAS_SEAM_CRC) :
    CasSent (v.seamCols k (line + 32) (if bytes.length = 6 * count + 4 ∧ bytes.drop (6 * count) = leBytes 4 (crc32 (bytes.take (6 * count)))
      then bytesPix (bytes.take (6 * count)) else [])) (s.seam k 0 line first count bytes) := by
  have hin : ¬ ((!s.groupMember) = true ∨ (!s.casUp k) = true) := by rw [hmember, hup]; decide
  unfold State.seam
  rw [if_neg hin]
  dsimp only
  rw [if_neg (show ¬ (0 = 2) by decide), ← hv, if_pos hk]
  exact (CasSent.ite (State.seamSend_casSent ..) (CasSent.refl _)).trans (CasSent.ite (State.seamSend_casSent ..) (CasSent.refl _))

theorem State.seam_corner (hmember : s.groupMember = true) (hup : s.casUp k = true) (hk : ¬ (k = 0 ∨ k = 2))
    (hv : v = if bytes.length = 6 * count + 4 ∧ bytes.drop (6 * count) = leBytes 4 (crc32 (bytes.take (6 * count))) then s
      else s.bump Reg.CAS_SEAM_CRC) : ∃ e key px, s.seam k 0 line first count bytes = v.seamCols e key px := by
  have hin : ¬ ((!s.groupMember) = true ∨ (!s.casUp k) = true) := by rw [hmember, hup]; decide
  unfold State.seam
  rw [if_neg hin]
  dsimp only
  rw [if_neg (show ¬ (0 = 2) by decide), ← hv, if_neg hk]
  exact ⟨_, _, _, rfl⟩

/-- The rows of a neighbour that are held. -/
def State.rowsHeld (s : State) (rows : List Nat) : State := { s with cas := { s.cas with rows := rows } }

/-- A row near an edge is taken into the ring of its bank, where seams are enabled. -/
def State.seamRow (s : State) (good : Bool) (k line first : Nat) (l : List Byte) : State :=
  if s.flagA Reg.CAS_SEAM_EN ∧ (k = 1 ∨ k = 3) then
    let row := if k = 3 then line + 32 - s.vact else line
    let key := k * 32 + row % 32
    let t := s.rowsHeld (s.cas.rows.filter (· ≠ key) ++ (if good then [key] else []))
    if good then (t.engWrite 5 (t.fldA Reg.CAS_SEAM_HANDLE) ((if k = 3 then 0 else 192 * t.hact) + row * 6 * t.hact + 6 * first) l).1 else t
  else s

theorem State.seam_row_good (hmember : s.groupMember = true) (hup : s.casUp k = true)
    (hgood : bytes.length = 6 * count + 4 ∧ bytes.drop (6 * count) = leBytes 4 (crc32 (bytes.take (6 * count)))) :
    s.seam k 1 line first count bytes = s.seamRow true k line first (bytes.take (6 * count)) := by
  have hin : ¬ ((!s.groupMember) = true ∨ (!s.casUp k) = true) := by rw [hmember, hup]; decide
  unfold State.seam
  rw [if_neg hin]
  simp only [show ¬ (1 = 2) by decide, if_false, if_pos hgood]
  rfl

theorem State.seam_row_bad (hmember : s.groupMember = true) (hup : s.casUp k = true)
    (hbad : ¬ (bytes.length = 6 * count + 4 ∧ bytes.drop (6 * count) = leBytes 4 (crc32 (bytes.take (6 * count))))) :
    s.seam k 1 line first count bytes = (s.bump Reg.CAS_SEAM_CRC).seamRow false k line first (bytes.take (6 * count)) := by
  have hin : ¬ ((!s.groupMember) = true ∨ (!s.casUp k) = true) := by rw [hmember, hup]; decide
  unfold State.seam
  rw [if_neg hin]
  simp only [show ¬ (1 = 2) by decide, if_false, if_neg hbad]
  rfl

theorem State.seamRow_keeps (s : State) (good : Bool) (k line first : Nat) (l : List Byte) :
    (s.seamRow good k line first l).cas.zones = s.cas.zones ∧
    ∀ a, a / 0x1000 ∉ memPages → (s.seamRow good k line first l).rd a = s.rd a := by
  unfold State.seamRow
  dsimp only
  split
  · generalize hrows : s.rowsHeld _ = v
    have hzones : v.cas.zones = s.cas.zones := by rw [← hrows]; rfl
    have hrd : ∀ a, v.rd a = s.rd a := fun a => by rw [← hrows]; exact State.rd_cas ..
    split
    · have hwork := v.engWrite_storeWork (e := 5) (by decide) (v.fldA Reg.CAS_SEAM_HANDLE)
        ((if k = 3 then 0 else 192 * v.hact) + (if k = 3 then line + 32 - s.vact else line) * 6 * v.hact + 6 * first) l
      exact ⟨by rw [hwork.cas_eq, hzones], fun a ha => (hwork.rd a ha).trans (hrd a)⟩
    · exact ⟨hzones, fun a _ => hrd a⟩
  · exact ⟨rfl, fun _ _ => rfl⟩

/-- The row next to the northern edge takes its place at the bottom of the ring. -/
theorem State.seam_lastRow (hmember : s.groupMember = true) (hup : s.casUp 3 = true) (hen : s.flagA Reg.CAS_SEAM_EN = true)
    (hline : line + 32 = s.vact) (hgood : bytes.length = 6 * count + 4 ∧ bytes.drop (6 * count) = leBytes 4 (crc32 (bytes.take (6 * count)))) :
    s.seam 3 1 line 0 count bytes =
      ((s.rowsHeld (s.cas.rows.filter (· ≠ 96) ++ [96])).engWrite 5 (s.fldA Reg.CAS_SEAM_HANDLE) 0 (bytes.take (6 * count))).1 := by
  have hrow : line + 32 - s.vact = 0 := by omega
  rw [State.seam_row_good hmember hup hgood, State.seamRow, if_pos ⟨hen, Or.inr rfl⟩]
  dsimp only
  rw [if_pos rfl, if_pos rfl, if_pos rfl, hrow, Nat.zero_mul]
  rfl

/-- The column of a zone word of a SEAM. -/
def zoneCol (k first count i : Nat) : Nat := if k = 0 then i else if k = 2 then count - 1 - i else first + i

/-- A zone word of a neighbour is held. -/
def State.zoneHeld (key : List Byte × Nat → Nat) (e : List Byte × Nat) (s : State) : State :=
  { s with cas := { s.cas with zones := Cells.set (fun _ => 0) s.cas.zones (key e) (BitVec.ofNat 32 (leVal e.1)) } }

theorem State.seam_zones (hmember : s.groupMember = true) (hup : s.casUp k = true) :
    s.seam k 2 line first count bytes =
      if bytes.length = 4 * count + 4 ∧ bytes.drop (4 * count) = leBytes 4 (crc32 (bytes.take (4 * count))) then
        (({ s with cas := { s.cas with zoneAt := Cells.set (fun _ => 0) s.cas.zoneAt (k * 1024 + line) s.now } } : State).each
          (chunks 4 (bytes.take (4 * count))).zipIdx (State.zoneHeld fun e => k * 2 ^ 20 + line * 1024 + zoneCol k first count e.2))
      else s.bump Reg.CAS_SEAM_CRC := by
  have hin : ¬ ((!s.groupMember) = true ∨ (!s.casUp k) = true) := by rw [hmember, hup]; decide
  unfold State.seam
  rw [if_neg hin]
  by_cases hgood : bytes.length = 4 * count + 4 ∧ bytes.drop (4 * count) = leBytes 4 (crc32 (bytes.take (4 * count)))
  · simp only [if_true, if_pos hgood]; rfl
  · simp only [if_true, if_neg hgood]

theorem State.seam_other (hmember : s.groupMember = true) (hup : s.casUp k = true) :
    s.seam k (n + 3) line first count bytes =
      if bytes.length = 6 * count + 4 ∧ bytes.drop (6 * count) = leBytes 4 (crc32 (bytes.take (6 * count))) then s
      else s.bump Reg.CAS_SEAM_CRC := by
  have hin : ¬ ((!s.groupMember) = true ∨ (!s.casUp k) = true) := by rw [hmember, hup]; decide
  unfold State.seam
  rw [if_neg hin]
  dsimp only
  rw [if_neg (show ¬ (n + 3 = 2) by omega)]
  rfl

/-! The zone words of a SEAM. -/

theorem State.zonesHeld_keep (key : List Byte × Nat → Nat) (l : List (List Byte × Nat)) (s : State) :
    (∃ z, s.each l (State.zoneHeld key) = { s with cas := { s.cas with zones := z } }) ∧
    (∀ j, j ∉ l.map key → Cells.get (fun _ => 0) (s.each l (State.zoneHeld key)).cas.zones j = Cells.get (fun _ => 0) s.cas.zones j) ∧
    ((l.map key).Nodup → ∀ e ∈ l, Cells.get (fun _ => 0) (s.each l (State.zoneHeld key)).cas.zones (key e) = BitVec.ofNat 32 (leVal e.1)) := by
  induction l generalizing s with
  | nil => exact ⟨⟨s.cas.zones, rfl⟩, fun _ _ => rfl, fun _ _ he => absurd he List.not_mem_nil⟩
  | cons e l ih =>
    obtain ⟨⟨z, hz⟩, hother, hall⟩ := ih (State.zoneHeld key e s)
    refine ⟨⟨z, hz⟩, fun j hj => ?_, fun hdistinct f hf => ?_⟩
    · rw [List.map_cons, List.mem_cons, not_or] at hj
      refine (hother j hj.2).trans ?_
      rw [State.zoneHeld, Cells.get_set_other _ _ _ _ _ (Ne.symm hj.1)]
    · rw [List.map_cons, List.nodup_cons] at hdistinct
      obtain ⟨hnot, hrest⟩ := hdistinct
      obtain rfl | hmem := List.mem_cons.1 hf
      · refine (hother _ hnot).trans ?_
        rw [State.zoneHeld, Cells.get_set_self]
      · exact hall hrest f hmem

theorem chunk_of_take {i : Nat} (hi : i < count) : ((bytes.take (4 * count)).drop (i * 4)).take 4 = (bytes.drop (4 * i)).take 4 := by
  rw [List.drop_take, List.take_take, Nat.min_eq_left (by omega), Nat.mul_comm i 4]

/-- The chunks of a SEAM's zone words, in order. -/
theorem zoneChunks (hlen : bytes.length = 4 * count + 4) : (chunks 4 (bytes.take (4 * count))).length = count ∧
    ∀ i, i < count → ((bytes.drop (4 * i)).take 4, i) ∈ (chunks 4 (bytes.take (4 * count))).zipIdx := by
  have htake : (bytes.take (4 * count)).length = 4 * count := by rw [List.length_take]; omega
  have hcount : (4 * count + 4 - 1) / 4 = count := by omega
  refine ⟨by rw [chunks, htake, hcount, List.length_map, List.length_range], fun i hi => ?_⟩
  rw [List.mem_zipIdx_iff_getElem?, chunks, htake, hcount, List.getElem?_map, List.getElem?_range hi, Option.map_some, chunk_of_take hi]

theorem zoneCol_inj {i j : Nat} (hi : i < count) (hj : j < count) (h : zoneCol k first count i = zoneCol k first count j) : i = j := by
  unfold zoneCol at h
  split_ifs at h <;> omega

theorem State.zonesHeld (hlen : bytes.length = 4 * count + 4) (s : State) {i : Nat} (hi : i < count) :
    Cells.get (fun _ => 0) (s.each (chunks 4 (bytes.take (4 * count))).zipIdx
      (State.zoneHeld fun e => k * 2 ^ 20 + line * 1024 + zoneCol k first count e.2)).cas.zones (k * 2 ^ 20 + line * 1024 + zoneCol k first count i)
      = BitVec.ofNat 32 (leVal ((bytes.drop (4 * i)).take 4)) := by
  obtain ⟨hcount, hmem⟩ := zoneChunks hlen
  refine (State.zonesHeld_keep _ _ s).2.2 ?_ _ (hmem i hi)
  have hkeys : ((chunks 4 (bytes.take (4 * count))).zipIdx.map fun e => k * 2 ^ 20 + line * 1024 + zoneCol k first count e.2)
      = (List.range count).map fun i => k * 2 ^ 20 + line * 1024 + zoneCol k first count i := by
    have hsnd : (chunks 4 (bytes.take (4 * count))).zipIdx.map Prod.snd = List.range count := by
      rw [List.zipIdx_map_snd, hcount, List.range_eq_range']
    rw [← hsnd, List.map_map]
    rfl
  rw [hkeys]
  refine (List.nodup_range).map_on fun i hi j hj h => ?_
  exact zoneCol_inj (k := k) (first := first) (List.mem_range.1 hi) (List.mem_range.1 hj) (by omega)

/-! What a SEAM leaves. -/

/-- The sum of a SEAM that fails counts; its columns and zones are lost. -/
theorem State.seam_bad (hmember : s.groupMember = true) (hup : s.casUp k = true) (hn : n = if kind = 2 then 4 * count else 6 * count)
    (hbad : bytes.length ≠ n + 4 ∨ bytes.drop n ≠ leBytes 4 (crc32 (bytes.take n))) :
    (s.seam k kind line first count bytes).rd Reg.CAS_SEAM_CRC = (s.bump Reg.CAS_SEAM_CRC).rd Reg.CAS_SEAM_CRC ∧
    (s.seam k kind line first count bytes).cas.zones = s.cas.zones ∧
    (kind = 0 → k = 0 ∨ k = 2 → Cells.get (fun _ => []) (s.seam k kind line first count bytes).cas.cols (seamKey k (line + 32)) = []) := by
  have hno : ¬ (bytes.length = n + 4 ∧ bytes.drop n = leBytes 4 (crc32 (bytes.take n))) := fun h => hbad.elim (· h.1) (· h.2)
  have hcas : (s.bump Reg.CAS_SEAM_CRC).cas = s.cas := (s.bump_onlyRegs _).cas_eq
  match kind, hn with
  | 0, hn =>
    rw [if_neg (by decide)] at hn
    subst hn
    by_cases hk : k = 0 ∨ k = 2
    · have hsent := State.seam_columns (line := line) (first := first) hmember hup hk rfl (bytes := bytes) (count := count)
      rw [if_neg hno, if_neg hno] at hsent
      obtain ⟨hzones, hcols, hrd⟩ := (s.bump Reg.CAS_SEAM_CRC).seamCols_effect k (line + 32) []
      generalize (s.bump Reg.CAS_SEAM_CRC).seamCols k (line + 32) [] = v at hsent hzones hcols hrd
      refine ⟨(hsent.rd _).trans (hrd _ (by decide)), ?_, fun _ _ => ?_⟩
      · rw [hsent.cas_eq, hzones, hcas]
      · rw [hsent.cas_eq, hcols]
        split <;> rfl
    · obtain ⟨e, key, px, heq⟩ := State.seam_corner (line := line) (first := first) hmember hup hk rfl (bytes := bytes) (count := count)
      rw [if_neg hno] at heq
      obtain ⟨hzones, -, hrd⟩ := (s.bump Reg.CAS_SEAM_CRC).seamCols_effect e key px
      rw [heq]
      exact ⟨hrd _ (by decide), by rw [hzones, hcas], fun _ h => absurd h hk⟩
  | 1, hn =>
    rw [if_neg (by decide)] at hn
    subst hn
    rw [State.seam_row_bad hmember hup hno]
    obtain ⟨hzones, hrd⟩ := (s.bump Reg.CAS_SEAM_CRC).seamRow_keeps false k line first (bytes.take (6 * count))
    exact ⟨hrd _ (by decide), by rw [hzones, hcas], nofun⟩
  | 2, hn =>
    rw [if_pos rfl] at hn
    subst hn
    rw [State.seam_zones hmember hup, if_neg hno]
    exact ⟨rfl, by rw [hcas], nofun⟩
  | m + 3, hn =>
    rw [if_neg (by omega)] at hn
    subst hn
    rw [State.seam_other hmember hup, if_neg hno]
    exact ⟨rfl, by rw [hcas], nofun⟩

/-- A SEAM that passes counts nothing. -/
theorem State.seam_good_rd (hmember : s.groupMember = true) (hup : s.casUp k = true) (hn : n = if kind = 2 then 4 * count else 6 * count)
    (hgood : bytes.length = n + 4 ∧ bytes.drop n = leBytes 4 (crc32 (bytes.take n))) :
    (s.seam k kind line first count bytes).rd Reg.CAS_SEAM_CRC = s.rd Reg.CAS_SEAM_CRC := by
  match kind, hn with
  | 0, hn =>
    rw [if_neg (by decide)] at hn
    subst hn
    by_cases hk : k = 0 ∨ k = 2
    · have hsent := State.seam_columns (line := line) (first := first) hmember hup hk rfl (bytes := bytes) (count := count)
      rw [if_pos hgood, if_pos hgood] at hsent
      exact (hsent.rd _).trans ((s.seamCols_effect k (line + 32) _).2.2 _ (by decide))
    · obtain ⟨e, key, px, heq⟩ := State.seam_corner (line := line) (first := first) hmember hup hk rfl (bytes := bytes) (count := count)
      rw [if_pos hgood] at heq
      rw [heq]
      exact (s.seamCols_effect e key px).2.2 _ (by decide)
  | 1, hn =>
    rw [if_neg (by decide)] at hn
    subst hn
    rw [State.seam_row_good hmember hup hgood]
    exact (s.seamRow_keeps true k line first (bytes.take (6 * count))).2 _ (by decide)
  | 2, hn =>
    rw [if_pos rfl] at hn
    subst hn
    rw [State.seam_zones hmember hup, if_pos hgood]
    obtain ⟨z, hz⟩ := (State.zonesHeld_keep (fun e => k * 2 ^ 20 + line * 1024 + zoneCol k first count e.2) (chunks 4 (bytes.take (4 * count))).zipIdx
      { s with cas := { s.cas with zoneAt := Cells.set (fun _ => 0) s.cas.zoneAt (k * 1024 + line) s.now } }).1
    rw [hz]
    rfl
  | m + 3, hn =>
    rw [if_neg (by omega)] at hn
    subst hn
    rw [State.seam_other hmember hup, if_pos hgood]

theorem State.seam_good_columns (hmember : s.groupMember = true) (hup : s.casUp k = true) (hk : k = 0 ∨ k = 2)
    (hgood : bytes.length = 6 * count + 4 ∧ bytes.drop (6 * count) = leBytes 4 (crc32 (bytes.take (6 * count))))
    (hbank : s.bankFor (seamBank k) ownCas = true) :
    Cells.get (fun _ => []) (s.seam k 0 line first count bytes).cas.cols (seamKey k (line + 32)) = bytesPix (bytes.take (6 * count)) := by
  have hsent := State.seam_columns (line := line) (first := first) hmember hup hk rfl (bytes := bytes) (count := count)
  rw [if_pos hgood, if_pos hgood] at hsent
  rw [hsent.cas_eq, (s.seamCols_effect k (line + 32) _).2.1, if_pos hbank]

theorem State.seam_steady (s : State) : Steady s (s.left (s.seam k kind line first count bytes)) := ⟨Nat.le_max_left _ _, rfl, rfl⟩

theorem seam_statement (hlive : s.boot.resetLow = false) (hlane : s.laneCarries (laneCasRx k) = true) (hblock : carries block rowSEAM b)
    (hkind : kind = byteAt b 0) (hline : line = leField b 1 2) (hfirst : first = leField b 3 2) (hcount : count = leField b 5 2)
    (hn : n = (if kind = 2 then 4 * count else 6 * count)) :
    (s.groupMember = false ∨ s.casUp k = false → exec (.casSeam k block bytes) s = .next s) ∧
    (s.groupMember = true → s.casUp k = true → ∃ t, exec (.casSeam k block bytes) s = .next t ∧
      (bytes.length ≠ n + 4 ∨ bytes.drop n ≠ leBytes 4 (crc32 (bytes.take n)) → counted s t Reg.CAS_SEAM_CRC 1 ∧
        t.cas.zones = s.cas.zones ∧ (kind = 0 → k = 0 ∨ k = 2 → Cells.get (fun _ => []) t.cas.cols (seamKey k (line + 32)) = [])) ∧
      (bytes.length = n + 4 → bytes.drop n = leBytes 4 (crc32 (bytes.take n)) →
        t.rd Reg.CAS_SEAM_CRC = s.rd Reg.CAS_SEAM_CRC ∧
        (kind = 0 → k = 0 ∨ k = 2 → s.bankFor (seamBank k) ownCas = true →
          Cells.get (fun _ => []) t.cas.cols (seamKey k (line + 32)) = bytesPix (bytes.take n)) ∧
        (kind = 1 → s.flagA Reg.CAS_SEAM_EN = true → k = 3 → line + 32 = s.vact → first = 0 → 96 ∈ t.cas.rows ∧
          ∃ x : State, (x.engWrite 5 (s.fldA Reg.CAS_SEAM_HANDLE) 0 (bytes.take n)).1 = t ∧ x = { s with cas := x.cas }) ∧
        (kind = 2 → ∀ i, i < count → Cells.get (fun _ => 0) t.cas.zones
            (k * 2 ^ 20 + line * 1024 + if k = 0 then i else if k = 2 then count - 1 - i else first + i)
          = BitVec.ofNat 32 (leVal ((bytes.drop (4 * i)).take 4))))) := by
  have hexec : exec (.casSeam k block bytes) s = .next (s.left (s.seam k kind line first count bytes)) := by
    rw [hkind, hline, hfirst, hcount, ← State.casBlock_seam (data := bytes) hlane hblock]
    exact (exec_casSeam s k block bytes).trans (State.unheld_live hlive)
  refine ⟨fun hout => ?_, fun hmember hup => ?_⟩
  · have hsame : s.seam k kind line first count bytes = s := by
      rw [State.seam]
      exact if_pos (hout.imp (by simp [·]) (by simp [·]))
    rw [hexec, hsame, State.left_of_steady (Steady.refl s)]
  have hbad := State.seam_bad (line := line) (first := first) (bytes := bytes) hmember hup hn
  have hrd := State.seam_good_rd (line := line) (first := first) (bytes := bytes) hmember hup hn
  refine ⟨_, hexec, fun h => ?_, fun hlen hcrc => ⟨?_, ?_, ?_, ?_⟩⟩
  · obtain ⟨hcrc, hzones, hcols⟩ := hbad h
    exact ⟨counted_of_rd ((State.left_rd ..).trans hcrc) (by decide), hzones, hcols⟩
  · exact (State.left_rd ..).trans (hrd ⟨hlen, hcrc⟩)
  · rintro rfl hk hbank
    rw [if_neg (by decide)] at hn
    subst hn
    exact State.seam_good_columns hmember hup hk ⟨hlen, hcrc⟩ hbank
  · rintro rfl hen rfl hrow rfl
    rw [if_neg (by decide)] at hn
    subst hn
    rw [State.seam_lastRow hmember hup hen hrow ⟨hlen, hcrc⟩]
    have hwork := (s.rowsHeld (s.cas.rows.filter (· ≠ 96) ++ [96])).engWrite_storeWork (e := 5) (by decide) (s.fldA Reg.CAS_SEAM_HANDLE) 0
      (bytes.take (6 * count))
    have hsteady : Steady s (s.rowsHeld (s.cas.rows.filter (· ≠ 96) ++ [96])) := ⟨Nat.le_refl _, rfl, rfl⟩
    rw [State.left_of_steady (hsteady.trans hwork.steady)]
    refine ⟨?_, _, rfl, rfl⟩
    rw [hwork.cas_eq]
    exact List.mem_append_right _ List.mem_cons_self
  · rintro rfl i hi
    rw [if_pos rfl] at hn
    subst hn
    have hzones := State.zonesHeld (k := k) (line := line) (first := first) hlen
      { s with cas := { s.cas with zoneAt := Cells.set (fun _ => 0) s.cas.zoneAt (k * 1024 + line) s.now } } hi
    rw [← hzones]
    refine congrArg (fun z => Cells.get (fun _ => 0) z (k * 2 ^ 20 + line * 1024 + zoneCol k first count i)) ?_
    change (s.seam k 2 line first count bytes).cas.zones = _
    rw [State.seam_zones hmember hup, if_pos ⟨hlen, hcrc⟩]

/-! Retries (R471). -/

theorem casPhy_above (hk : k < 4) : 0x120400 ≤ phyBase (laneCasTx k) ∧ 0x120400 ≤ phyBase (laneCasRx k) := by
  unfold phyBase laneCasTx laneCasRx
  constructor
  · split_ifs <;> omega
  · split_ifs <;> omega

/-- The state of a lane, past a change of what a lane's PHY block aims at. -/
theorem State.laneProto_casLane {l j t : Nat} (s : State) (hl : 0x120400 ≤ phyBase l) :
    (s.laneProto l t).fld (casLaneFld j) = s.fld (casLaneFld j) := by
  rw [State.fld, State.laneProto_rd, State.fld]
  · simp only [Reg.PHY_LSTATE, casLaneFld, Reg.CAS_LANE_STATE]; omega
  · simp only [Reg.PHY_TRANS_CNT, casLaneFld, Reg.CAS_LANE_STATE]; omega

theorem State.put_casLane {j : Nat} (s : State) {f : Fld} (hf : 0x120400 ≤ f.addr) : (s.put f n).fld (casLaneFld j) = s.fld (casLaneFld j) :=
  State.fld_wr_other fun h => by
    have haddr : f.addr = Reg.CAS_LANE_STATE := h
    rw [haddr] at hf
    exact absurd hf (by decide)

theorem State.casLaneUp_casSent (s : State) (k : Nat) : CasSent s (s.casLaneUp k) := by
  unfold State.casLaneUp
  exact CasSent.ite (s.casControl_casSent ..) (CasSent.refl s)

/-- The lane trains anew. -/
def State.edgeTrains (s : State) (k retry : Nat) : State :=
  (s.put (casLaneFld k) 1).setCasEdge k { s.casEdge k with phase := 2, retries := retry, since := s.now, preset := 0, height := 0, best := 0 }

/-- Both directions of a lane at the rate of an attempt. -/
def State.edgeLanes (s : State) (k r : Nat) : State :=
  let s := (s.mapLane (laneCasTx k) fun x => { x with scrambled := false }).mapLane (laneCasRx k) fun x => { x with scrambled := false }
  let s := (s.put (Reg.PHY_RATE_CUR (phyBase (laneCasTx k))) r).put (Reg.PHY_RATE_CUR (phyBase (laneCasRx k))) r
  ((s.put (Reg.PHY_RXSTAT_LOCK (phyBase (laneCasRx k))) 0).laneProto (laneCasRx k) 0).laneProto (laneCasTx k) 0

theorem State.casAttempt_eq (s : State) (k retry : Nat) :
    s.casAttempt k retry = ((s.edgeTrains k retry).edgeLanes k ((s.edgeTrains k retry).casRate k retry)).casLaneUp k := rfl

theorem State.edgeTrains_effect (hk : k < 4) (s : State) (retry : Nat) : (s.edgeTrains k retry).fld (casLaneFld k) = 1 ∧
    ((s.edgeTrains k retry).casEdge k).retries = retry ∧ (s.edgeTrains k retry).now = s.now := by
  refine ⟨?_, ?_, rfl⟩
  · exact (State.fld_cas ..).trans ((State.fld_put_mod (x := casLaneFld k) (by simp only [casLaneFld]; omega)).trans rfl)
  · rw [State.edgeTrains, State.casEdge, State.setCasEdge, Cells.get_set_self]

theorem State.edgeLanes_effect (hk : k < 4) (s : State) (r : Nat) : LaneWork s (s.edgeLanes k r) ∧
    (s.edgeLanes k r).fld (casLaneFld k) = s.fld (casLaneFld k) := by
  obtain ⟨htx, hrx⟩ := casPhy_above hk
  have hrate : ∀ b, 0x120400 ≤ b → 0x120400 ≤ (Reg.PHY_RATE_CUR b).addr := fun b hb => Nat.le_trans hb (Nat.le_add_right ..)
  have hlock : ∀ b, 0x120400 ≤ b → 0x120400 ≤ (Reg.PHY_RXSTAT_LOCK b).addr := fun b hb => Nat.le_trans hb (Nat.le_add_right ..)
  unfold State.edgeLanes
  dsimp only
  constructor
  · exact ((((((s.mapLane_laneWork _ _).trans (State.mapLane_laneWork _ _ _)).trans (State.put_laneWork _ _ _)).trans
      (State.put_laneWork _ _ _)).trans (State.put_laneWork _ _ _)).trans (State.laneProto_laneWork _ _ _)).trans (State.laneProto_laneWork _ _ _)
  · rw [State.laneProto_casLane _ htx, State.laneProto_casLane _ hrx, State.put_casLane _ (hlock _ hrx), State.put_casLane _ (hrate _ hrx),
      State.put_casLane _ (hrate _ htx)]
    rfl

theorem State.casAttempt_effect (hk : k < 4) (s : State) (retry : Nat) : (s.casAttempt k retry).fld (casLaneFld k) = 1 ∧
    ((s.casAttempt k retry).casEdge k).retries = retry ∧ (s.casAttempt k retry).now = s.now := by
  rw [State.casAttempt_eq]
  obtain ⟨hfld, hedge, hnow⟩ := State.edgeTrains_effect hk s retry
  generalize s.edgeTrains k retry = u at hfld hedge hnow ⊢
  obtain ⟨hwork, hkept⟩ := State.edgeLanes_effect hk u (u.casRate k retry)
  generalize u.edgeLanes k (u.casRate k retry) = v at hwork hkept ⊢
  have hsent := v.casLaneUp_casSent k
  refine ⟨?_, ?_, ?_⟩
  · rw [hsent.fld, hkept, hfld]
  · rw [State.casEdge, hsent.cas_eq, hwork.cas_eq]; exact hedge
  · rw [hsent.now_eq, hwork.now_eq, hnow]

theorem State.left_cas (s t : State) : (s.left t).cas = t.cas := rfl

theorem State.left_casEdge (s t : State) (k : Nat) : (s.left t).casEdge k = t.casEdge k := by
  rw [State.casEdge, State.left_cas, State.casEdge]

theorem retry_statement (hlive : s.boot.resetLow = false) (hk : k < 4) :
    (s.fld (casLaneFld k) ≠ 3 ∨ s.casLaneOn k = false → exec (.casTrainRetry k) s = .next s) ∧
    (s.fld (casLaneFld k) = 3 → s.casLaneOn k = true → ∃ t, exec (.casTrainRetry k) s = .next t ∧
      t.now = max s.now ((s.casEdge k).since + 256000000000) ∧ t.fld (casLaneFld k) = 1 ∧ (t.casEdge k).retries = 0) := by
  refine ⟨fun hno => ?_, fun hfld hon => ?_⟩
  · refine (exec_casTrainRetry s k).trans (State.unheld_same hlive (if_neg ?_))
    rintro ⟨hfld, hon⟩
    obtain h | h := hno
    · exact h hfld
    · exact absurd (h.symm.trans hon) (by decide)
  · have hexec := (exec_casTrainRetry s k).trans (State.unheld_live hlive)
    rw [State.casRetry, if_pos ⟨hfld, hon⟩, show 1000000 * ticksPerUs = 256000000000 from rfl] at hexec
    obtain ⟨hup, hretries, hnow⟩ := State.casAttempt_effect hk (s.advance ((s.casEdge k).since + 256000000000)) 0
    rw [State.advance_now] at hnow
    generalize (s.advance ((s.casEdge k).since + 256000000000)).casAttempt k 0 = t at hexec hup hretries hnow
    refine ⟨_, hexec, ?_, (State.left_fld ..).trans hup, (congrArg CasEdge.retries (State.left_casEdge ..)).trans hretries⟩
    rw [State.left_now, hnow, ← Nat.max_assoc, Nat.max_self]

/-! FSYNC_OUT and LED_STAT (R473, R482). -/

theorem State.advance_keeps (s : State) (n : Nat) : (s.advance n).out = s.out ∧ (s.advance n).boot = s.boot ∧ (s.advance n).cas = s.cas := by
  rw [s.advance_eq n]
  exact ⟨rfl, rfl, rfl⟩

theorem State.padsFree_advance (s : State) (n p : Nat) : (s.advance n).padsFree p = s.padsFree p := by
  have haddr : Reg.PWR_DOM_STATE p ≠ Reg.AON_TIMEBASE ∧ Reg.PWR_DOM_STATE p ≠ Reg.AON_TIMEBASE_HI := by
    simp only [Reg.PWR_DOM_STATE, Reg.AON_TIMEBASE, Reg.AON_TIMEBASE_HI]; omega
  rw [State.padsFree, State.flag, State.fld_advance (x := Reg.PWR_DOM_STATE_CUR p) haddr,
    State.fld_advance (x := Reg.PWR_DOM_STATE_LATCHED p) haddr, State.padsFree, State.flag]

theorem State.emitWhen (s : State) (c : Bool) (k : OutKind) (d : Nat) (l : List Nat) :
    (s.when c fun s => s.emit k d l).out = (if c then ⟨k, d, l⟩ :: s.out else s.out) ∧ (s.when c fun s => s.emit k d l).now = s.now := by
  cases c
  · exact ⟨rfl, rfl⟩
  · exact ⟨rfl, rfl⟩

theorem State.out_cas (s : State) (c : CasState) : ({ s with cas := c } : State).out = s.out := rfl
theorem State.now_cas (s : State) (c : CasState) : ({ s with cas := c } : State).now = s.now := rfl

theorem pulse_statement (hlive : s.boot.resetLow = false) :
    (s.cas.pulse = false → exec .fsyncOutPulseEnd s = .next s) ∧
    (s.cas.pulse = true → ∃ t, exec .fsyncOutPulseEnd s = .next t ∧ t.now = max s.now (s.tim.f + 256000) ∧
      t.cas.pulse = false ∧ t.out = if s.padsFree 44 then ⟨.pin, 3, [0]⟩ :: s.out else s.out) := by
  refine ⟨fun hno => (exec_fsyncOutPulseEnd s).trans (State.unheld_same hlive (if_neg (by rw [hno]; decide))), fun hyes => ?_⟩
  have hexec := (exec_fsyncOutPulseEnd s).trans (State.unheld_live hlive)
  rw [State.fsyncOutEnd, if_pos hyes] at hexec
  dsimp only at hexec
  rw [show ticksPerUs = 256000 from rfl] at hexec
  generalize s.tim.f + 256000 = at' at hexec ⊢
  obtain ⟨hout, -, -⟩ := s.advance_keeps at'
  have hnow := s.advance_now at'
  have hpads := s.padsFree_advance at' 44
  generalize s.advance at' = u at hexec hout hnow hpads
  obtain ⟨hemit, hkept⟩ := u.emitWhen (u.padsFree 44) .pin 3 [0]
  generalize u.when (u.padsFree 44) (fun s => s.emit .pin 3 [0]) = v at hexec hemit hkept
  have hend : max s.now v.now = max s.now at' := by rw [hkept, hnow, ← Nat.max_assoc, Nat.max_self]
  refine ⟨_, hexec, (State.left_now ..).trans ((congrArg (max s.now) (State.now_cas v _)).trans hend),
    congrArg CasState.pulse (State.left_cas ..), ?_⟩
  · rw [State.left_out, State.out_cas, hemit, hpads, hout]

theorem led_statement (hlive : s.boot.resetLow = false) :
    (2 ≤ s.boot.ledRow → exec .ledStatToggle s = .next s) ∧
    (s.boot.ledRow < 2 → ∃ t, exec .ledStatToggle s = .next t ∧
      t.now = max s.now (s.boot.ledAt + if s.boot.ledRow = 0 then 32000000000 else 128000000000) ∧
      t.boot.ledLow = !s.boot.ledLow ∧ t.out = ⟨.pin, 5, [b2n s.boot.ledLow]⟩ :: s.out) := by
  refine ⟨fun hno => (exec_ledStatToggle s).trans (State.unheld_same hlive (if_neg (by omega))), fun hyes => ?_⟩
  have hexec := (exec_ledStatToggle s).trans (State.unheld_live hlive)
  rw [State.ledToggle, if_pos hyes] at hexec
  have hhalf : (if s.boot.ledRow = 0 then 125 else 500) * 1000 * ticksPerUs = if s.boot.ledRow = 0 then 32000000000 else 128000000000 := by
    split <;> rfl
  rw [hhalf] at hexec
  generalize hat : s.boot.ledAt + (if s.boot.ledRow = 0 then 32000000000 else 128000000000) = at' at hexec ⊢
  obtain ⟨hout, hboot, -⟩ := s.advance_keeps at'
  have hnow := s.advance_now at'
  generalize s.advance at' = u at hexec hout hboot hnow
  have hchange : ¬ (!s.boot.ledLow) = u.boot.ledLow := by rw [hboot]; cases s.boot.ledLow <;> decide
  rw [State.ledPut, if_neg hchange] at hexec
  refine ⟨_, hexec, ?_, rfl, ?_⟩
  · rw [State.left_now]
    change max s.now u.now = _
    rw [hnow, ← Nat.max_assoc, Nat.max_self]
  · rw [State.left_out, ← hout, Bool.not_not]
    rfl

/-- Settles O60: each command of the group by what it takes, sends and holds. -/
theorem membersFollow : Obligations.MembersFollow := by
  intro s k hlive hk hgate
  refine ⟨fun block data h => ⟨?_, ?_, ?_⟩, fun block b x y hlane hblock hx hy => pos_statement hlive hgate hlane hblock hx hy,
    fun block b no delay lp lat hlane hblock hno hdelay hlp hlat => fsync_statement hlive hk hlane hblock hno hdelay hlp hlat,
    fun block b kind line first count bytes n hlane hblock hkind hline hfirst hcount hn =>
      seam_statement hlive hlane hblock hkind hline hfirst hcount hn,
    (retry_statement hlive hk).1, (retry_statement hlive hk).2, (pulse_statement hlive).1, (pulse_statement hlive).2,
    (led_statement hlive).1, (led_statement hlive).2⟩
  · exact (exec_casPos s k block).trans (State.unheld_same hlive (State.casBlock_silent h))
  · exact (exec_casFsync s k block).trans (State.unheld_same hlive (State.casBlock_silent h))
  · exact (exec_casSeam s k block data).trans (State.unheld_same hlive (State.casBlock_silent h))

end Sys2Proof.Machine
end

section
/-! PROOFS. Requests for regions, and how MEMC serves them (R332 to R337). -/

namespace Sys2Proof.Machine

variable {s t u : State} {a b h i n p port status : Nat} {w : Word} {q : RegionReq} {rest : List RegionReq} {x : Fld}

@[simp] theorem State.left_mem (s t : State) : (s.left t).mem = t.mem := rfl
@[simp] theorem State.left_sram (s t : State) : (s.left t).sram = t.sram := rfl
@[simp] theorem State.left_dram (s t : State) : (s.left t).dram = t.dram := rfl
@[simp] theorem State.rd_sram (s : State) (m : Cells Word) : ({ s with sram := m } : State).rd a = s.rd a := rfl

/-! What the allocator changes: the page map, the registers of REGION, and MEMC's own state. -/

/-- Nothing differs but registers of REGION (of any port), words of the SRAM banks, and MEMC's own state. -/
structure MapWork (s t : State) : Prop where
  state : ∃ r m c, t = { s with regs := r, sram := m, mem := c }
  rd : ∀ a, a / 0x1000 % 0x1000 ≠ 0x111 → t.rd a = s.rd a

theorem MapWork.refl (s : State) : MapWork s s := ⟨⟨s.regs, s.sram, s.mem, rfl⟩, fun _ _ => rfl⟩

theorem MapWork.trans (h : MapWork s t) (g : MapWork t u) : MapWork s u := by
  refine ⟨?_, fun a ha => (g.rd a ha).trans (h.rd a ha)⟩
  obtain ⟨_, _, _, rfl⟩ := h.state
  obtain ⟨r, m, c, rfl⟩ := g.state
  exact ⟨r, m, c, rfl⟩

theorem MapWork.ite {c : Prop} [Decidable c] (ht : MapWork s t) (hu : MapWork s u) : MapWork s (if c then t else u) := by
  split
  exacts [ht, hu]

theorem MapWork.bankOn (h : MapWork s t) : t.bankOn 33 = s.bankOn 33 := State.bankOn_congr (h.rd _ (by decide))

section
variable (s)

theorem State.wr_mapWork (ha : a / 0x1000 % 0x1000 = 0x111) : MapWork s (s.wr a w) :=
  ⟨⟨_, s.sram, s.mem, rfl⟩, fun _ hb => State.rd_wr_other _ _ _ _ (fun h => hb (h ▸ ha))⟩

theorem State.put_mapWork (hx : x.addr / 0x1000 % 0x1000 = 0x111) : MapWork s (s.put x n) := s.wr_mapWork hx
theorem State.sram_mapWork (m : Cells Word) : MapWork s { s with sram := m } := ⟨⟨s.regs, m, s.mem, rfl⟩, fun _ _ => rfl⟩
theorem State.mem_mapWork (c : MemState) : MapWork s { s with mem := c } := ⟨⟨s.regs, s.sram, c, rfl⟩, fun _ _ => rfl⟩

theorem State.commitRun_mapWork (b n : Nat) : MapWork s (s.commitRun b n) :=
  ((s.sram_mapWork _).trans (State.sram_mapWork _ _)).trans (State.put_mapWork _ (by decide))

theorem State.regionReport_mapWork : MapWork s s.regionReport :=
  (s.put_mapWork (by decide)).trans (State.put_mapWork _ (by decide))

theorem State.regionEnd_mapWork (port status h : Nat) : MapWork s (s.regionEnd port status h) :=
  (s.wr_mapWork (by rw [perPort, Reg.REGION_RESULT]; omega)).trans (State.mem_mapWork _ _)

theorem State.uncommit_mapWork (i : Nat) : MapWork s (s.uncommit i) := by
  unfold State.uncommit
  dsimp only
  have h : MapWork s { s.setMap i 0 false false with mem := { s.mem with blank := s.mem.blank.filter (· ≠ i) } } :=
    (s.sram_mapWork _).trans (State.mem_mapWork _ _)
  exact MapWork.ite ((h.trans (State.sram_mapWork _ _)).trans (State.put_mapWork _ (by decide))) h

end

/-! The GO of a request (R333). -/

theorem exec_regionAlloc_left (hs : s.Serves .REGION 0x111) : exec (.regionAlloc port w) s = .next (s.left (s.regionGo port false)) := by
  have hbit : bit (Reg.REGION_REQ_GO_ALLOC.put w 1).toNat 0 = true :=
    beq_iff_eq.2 (Fld.get_put_self Reg.REGION_REQ_GO_ALLOC w 1 (by decide))
  rw [exec_regionAlloc, State.unheld_live hs.live,
    State.hostWrite_acts (u := .REGION) (a := Reg.REGION_REQ_GO) hs (by decide) rfl]
  dsimp only
  rw [if_pos hbit]

theorem exec_regionFree_left (hs : s.Serves .REGION 0x111) : exec (.regionFree port w) s = .next (s.left (s.regionGo port true)) := by
  have hclear : ¬ bit (Reg.REGION_REQ_GO_FREE.put (Reg.REGION_REQ_GO_ALLOC.put w 0) 1).toNat 0 = true := by
    have h0 : Reg.REGION_REQ_GO_ALLOC.get (Reg.REGION_REQ_GO_FREE.put (Reg.REGION_REQ_GO_ALLOC.put w 0) 1) = 0 :=
      (Fld.get_put_other Reg.REGION_REQ_GO_FREE Reg.REGION_REQ_GO_ALLOC _ 1 (by decide) (by decide)).trans
        (Fld.get_put_self Reg.REGION_REQ_GO_ALLOC w 0 (by decide))
    exact fun h => absurd (h0.symm.trans (beq_iff_eq.1 h)) (by decide)
  have hbit : bit (Reg.REGION_REQ_GO_FREE.put (Reg.REGION_REQ_GO_ALLOC.put w 0) 1).toNat 1 = true :=
    beq_iff_eq.2 (Fld.get_put_self Reg.REGION_REQ_GO_FREE _ 1 (by decide))
  rw [exec_regionFree, State.unheld_live hs.live,
    State.hostWrite_acts (u := .REGION) (a := Reg.REGION_REQ_GO) hs (by decide) rfl]
  dsimp only
  rw [if_neg hclear, if_pos hbit]

/-- The request that a port's GO queues. -/
def State.regionAsks (s : State) (port : Nat) (isFree : Bool) : RegionReq :=
  ⟨port, isFree, Reg.REGION_REQ_PAGES.get (s.rd (perPort port Reg.REGION_REQ)),
    Reg.REGION_REQ_CLASS0.get (s.rd (perPort port Reg.REGION_REQ)) != 0,
    Reg.REGION_REQ_COMMIT.get (s.rd (perPort port Reg.REGION_REQ)) != 0, s.fld ⟨perPort port Reg.REGION_REQ_HANDLE, 0, 6⟩⟩

theorem State.regionGo_busy {f : Bool} (hbusy : s.flag (resultFld port Reg.REGION_RESULT_BUSY) = true) :
    s.regionGo port f = s.bump Reg.REGION_REQ_DROP := if_pos hbusy

/-- A request joins the queue. -/
def State.regionPush (s : State) (q : RegionReq) : State := { s with mem := { s.mem with queue := s.mem.queue ++ [q] } }

theorem State.regionGo_free {f : Bool} (hbusy : s.flag (resultFld port Reg.REGION_RESULT_BUSY) = false) :
    s.regionGo port f = (s.wrN (perPort port Reg.REGION_RESULT) 1).regionPush (s.regionAsks port f) :=
  if_neg (by rw [hbusy]; exact Bool.false_ne_true)

theorem State.wrN_mem (s : State) (a n : Nat) : (s.wrN a n).mem = s.mem := rfl
theorem State.wrN_sram (s : State) (a n : Nat) : (s.wrN a n).sram = s.sram := rfl
theorem State.put_mem (s : State) (x : Fld) (n : Nat) : (s.put x n).mem = s.mem := rfl
theorem State.put_sram (s : State) (x : Fld) (n : Nat) : (s.put x n).sram = s.sram := rfl
theorem State.regionPush_mem : (s.regionPush q).mem = { s.mem with queue := s.mem.queue ++ [q] } := rfl
theorem State.regionPush_rd : (s.regionPush q).rd a = s.rd a := rfl

/-- A GO that is taken: BUSY alone in RESULT, and the request behind the others. -/
theorem State.regionGo_effect {f : Bool} (hbusy : s.flag (resultFld port Reg.REGION_RESULT_BUSY) = false) :
    resultReads (s.left (s.regionGo port f)) port 1 0 0 0 ∧
      (s.left (s.regionGo port f)).mem = { s.mem with queue := s.mem.queue ++ [s.regionAsks port f] } := by
  rw [State.regionGo_free hbusy]
  refine ⟨?_, ?_⟩
  · rw [resultReads, State.left_rd, State.regionPush_rd, State.wrN, State.rd_wr_self]
  · rw [State.left_mem, State.regionPush_mem, State.wrN_mem]

theorem ne_zero_iff_fld (v : Word) (lo : Nat) : ((⟨a, lo, 1⟩ : Fld).get v != 0) = true ↔ (⟨b, lo, 1⟩ : Fld).get v = 1 := by
  rw [bne_iff_ne, Fld.get, Fld.get]
  dsimp only
  omega

/-! The end of a request. -/

/-- The head leaves the queue. -/
def State.regionPop (s : State) : State := { s with mem := { s.mem with queue := s.mem.queue.tail } }

theorem State.regionEnd_eq :
    s.regionEnd port status h = (s.wrN (perPort port Reg.REGION_RESULT) (2 + 16 * status + 256 * h)).regionPop := rfl

theorem State.regionPop_rd : s.regionPop.rd a = s.rd a := rfl
theorem State.regionPop_sram : s.regionPop.sram = s.sram := rfl
theorem State.regionPop_mem : s.regionPop.mem = { s.mem with queue := s.mem.queue.tail } := rfl

theorem State.regionEnd_result : resultReads (s.regionEnd port status h) port 0 1 status h := by
  have hword : 0 + 2 * 1 + 16 * status + 256 * h = 2 + 16 * status + 256 * h := by omega
  rw [resultReads, State.regionEnd_eq, hword, State.regionPop_rd, State.wrN, State.rd_wr_self]

theorem State.regionEnd_mem (hq : s.mem.queue = q :: rest) : (s.regionEnd port status h).mem = { s.mem with queue := rest } := by
  rw [State.regionEnd_eq, State.regionPop_mem, State.wrN_mem, hq, List.tail_cons]

theorem State.regionEnd_sram : (s.regionEnd port status h).sram = s.sram := by
  rw [State.regionEnd_eq, State.regionPop_sram, State.wrN_sram]

theorem State.regionEnd_rd (ha : perPort port Reg.REGION_RESULT ≠ a) : (s.regionEnd port status h).rd a = s.rd a := by
  rw [State.regionEnd_eq, State.regionPop_rd, State.wrN, State.rd_wr_other _ _ _ _ ha]

theorem perPort_result_ne (ha : a % 0x1000000 ≠ Reg.REGION_RESULT) : perPort port Reg.REGION_RESULT ≠ a := by
  rw [perPort]
  intro h
  apply ha
  rw [← h, Nat.mul_add_mod_self_right]
  rfl

theorem State.mapUp_of (hown : s.bankOwner 33 = ownAlloc) (hon : s.bankOn 33 = true) : s.mapUp = true := by
  rw [State.mapUp, hown, hon]; rfl

theorem State.mapUp_false (h : s.bankOwner 33 ≠ ownAlloc ∨ s.bankOn 33 = false) : s.mapUp = false := by
  rw [State.mapUp]
  obtain h | h := h
  · rw [beq_eq_false_iff_ne.2 h, Bool.false_and]
  · rw [h, Bool.and_false]

theorem State.regionServe_head (hq : s.mem.queue = q :: rest) (hup : s.mapUp = true) :
    s.regionServe = if q.isFree = true then s.regionFree q else s.regionAlloc q := by
  rw [State.regionServe]
  split
  · next h => rw [hq] at h; cases h
  · next h =>
    rw [hq] at h
    cases h
    rw [hup]
    exact if_neg Bool.false_ne_true

theorem exec_regionReqDone_head (hlive : s.boot.resetLow = false) (hq : s.mem.queue = q :: rest) (hup : s.mapUp = true) :
    exec .regionReqDone s = s.unheld (fun s => if q.isFree = true then s.regionFree q else s.regionAlloc q) := by
  rw [exec_regionReqDone, State.unheld_live hlive, State.regionServe_head hq hup, State.unheld_live hlive]

theorem exec_regionReqDone_waits (hlive : s.boot.resetLow = false)
    (h : s.mem.queue = [] ∨ s.bankOwner 33 ≠ ownAlloc ∨ s.bankOn 33 = false) : exec .regionReqDone s = .next s := by
  rw [exec_regionReqDone]
  refine State.unheld_same hlive ?_
  rw [State.regionServe]
  split
  · rfl
  · next q rest hq =>
    have hup : s.mapUp = false := State.mapUp_false (h.resolve_left (by rw [hq]; exact List.cons_ne_nil _ _))
    rw [hup]
    exact if_pos rfl

/-- A request that is refused ends with its status; nothing else of MEMC changes. -/
theorem regionEnd_done (hq : s.mem.queue = q :: rest) (hmem : t.mem = s.mem) :
    resultReads (s.left (t.regionEnd port status h)) port 0 1 status h ∧
      (s.left (t.regionEnd port status h)).mem = { s.mem with queue := rest } := by
  have hqt : t.mem.queue = q :: rest := by rw [hmem]; exact hq
  refine ⟨?_, ?_⟩
  · rw [resultReads, State.left_rd]; exact State.regionEnd_result
  · rw [State.left_mem, State.regionEnd_mem hqt, hmem]

end Sys2Proof.Machine
end

section
/-! PROOFS. How an allocation and a free change the page map (R332 to R337). -/

namespace Sys2Proof.Machine

variable {s t u : State} {a b h i n p idx port status : Nat} {w : Word} {q : RegionReq} {rest : List RegionReq} {g : Region} {l : List Word}

/-! The page map as it reads. -/

theorem State.sramRd_sramPut (s : State) (bank k j : Nat) (l : List Word) : (s.sramPut bank k l).sramRd bank j =
    if k ≤ j ∧ j < k + l.length then l.getD (j - k) (sramDefault s.mem.bankGens (sramKey bank j)) else s.sramRd bank j := by
  have hkey : sramKey bank k ≤ sramKey bank j ∧ sramKey bank j < sramKey bank k + l.length ↔ k ≤ j ∧ j < k + l.length := by
    unfold sramKey; omega
  have hofs : sramKey bank j - sramKey bank k = j - k := by unfold sramKey; omega
  rw [State.sramRd, State.sramRd, State.sramPut, ← hofs]
  exact (Cells.get_putRun _ s.sram (sramKey bank k) l (sramKey bank j)).trans (if_congr hkey rfl rfl)

theorem State.sramRd_sramPut_in {bank k j : Nat} (hlo : k ≤ j) (hj : j - k < l.length) :
    (s.sramPut bank k l).sramRd bank j = l[j - k] := by
  rw [State.sramRd_sramPut, if_pos ⟨hlo, by omega⟩, List.getD_eq_getElem _ _ hj]

theorem State.sramRd_sramPut_out {bank k j : Nat} (hj : j < k ∨ k + l.length ≤ j) : (s.sramPut bank k l).sramRd bank j = s.sramRd bank j := by
  rw [State.sramRd_sramPut, if_neg (by omega)]

theorem State.mapRd_on (hon : s.bankOn 33 = true) : s.mapRd i = (s.sramRd 33 i).toNat := by rw [State.mapRd, if_pos hon]

theorem State.mapRd_congr (hsram : t.sram = s.sram) (hgens : t.mem.bankGens = s.mem.bankGens) (hon : t.bankOn 33 = s.bankOn 33) :
    t.mapRd i = s.mapRd i := by
  rw [State.mapRd, hon, State.sramRd, hsram, hgens, State.mapRd, State.sramRd]

theorem State.freePages_lt (s : State) : s.freePages < 2 ^ 16 := s.fld_lt ⟨Reg.REGION_FREE_PAGES, 0, 16⟩

theorem mapCommitted_mapWord (p : Nat) : mapCommitted (mapWord p true false).toNat = true := by
  rw [mapCommitted, bit, mapWord, if_pos rfl, if_neg Bool.false_ne_true, BitVec.toNat_ofNat, beq_iff_eq]
  omega

theorem mapCommitted_zero : mapCommitted (0 : Word).toNat = false := rfl

/-! Pages given at once (R332, R336). -/

theorem commitPages_length_le : ∀ (l : List Word) (p idx todo : Nat), (commitPages l p idx todo).1.length ≤ l.length
  | [], _, _, _ => Nat.le_refl _
  | w :: l, p, idx, todo => by
    rw [commitPages]
    split
    · exact Nat.zero_le _
    · split
      · exact Nat.succ_le_succ (commitPages_length_le l _ _ _)
      · exact Nat.succ_le_succ (commitPages_length_le l _ _ _)

/-- Enough free pages: each map entry is given one. -/
theorem commitPages_given : ∀ (l : List Word) (p idx todo : Nat), todo ≤ l.countP (fun w => bits w.toNat 16 2 == 0) →
    (commitPages l p idx todo).2.length = todo
  | [], _, _, todo, h => (Nat.le_zero.1 h).symm
  | w :: l, p, idx, todo, h => by
    rw [commitPages]
    split
    · next h0 => exact h0.symm
    · next h0 =>
      rw [List.countP_cons] at h
      split
      · next hw =>
        have ih := commitPages_given l (p + 1) (idx + 1) (todo - 1) (by rw [if_pos (by rw [hw]; rfl)] at h; omega)
        rw [List.length_cons, ih]
        omega
      · next hw =>
        have hw' : ¬ (bits w.toNat 16 2 == 0) = true := fun hc => hw (beq_iff_eq.1 hc)
        exact commitPages_given l (p + 1) idx todo (by rw [if_neg hw'] at h; omega)

/-- The words of the physical pages. -/
def State.physWords (s : State) : List Word := Cells.window (sramDefault s.mem.bankGens) s.sram (sramKey 33 0x10000) 32768

theorem State.physWords_eq (s : State) : s.physWords = (List.range 32768).map (fun p => s.sramRd 33 (0x10000 + p)) := by
  have hkey : ∀ p, sramKey 33 0x10000 + p = sramKey 33 (0x10000 + p) := fun p => by unfold sramKey; omega
  rw [State.physWords, Cells.window_eq, Cells.getRun]
  exact List.map_congr_left fun p _ => by rw [hkey, State.sramRd]

theorem State.physWords_free (hon : s.bankOn 33 = true) :
    s.physWords.countP (fun w => bits w.toNat 16 2 == 0) = (List.range 32768).countP s.pageFree := by
  rw [State.physWords_eq, List.countP_map]
  refine List.countP_congr fun p _ => ?_
  rw [Function.comp, State.pageFree, State.pageState, State.physEntry, State.mapRd_on hon]

/-- The pages that a run of map entries is given. -/
def State.pagesFor (s : State) (b n : Nat) : List Word × List Nat := commitPages s.physWords 0 b n

theorem State.commitRun_eq (s : State) (b n : Nat) : s.commitRun b n =
    ((s.sramPut 33 0x10000 (s.pagesFor b n).1).sramPut 33 b ((s.pagesFor b n).2.map (fun p => mapWord p true false))).put
      ⟨Reg.REGION_FREE_PAGES, 0, 16⟩ (s.freePages - (s.pagesFor b n).2.length) := rfl

theorem State.sramPut_mem (s : State) (bank k : Nat) (l : List Word) : (s.sramPut bank k l).mem = s.mem := rfl

theorem State.commitRun_mem (s : State) (b n : Nat) : (s.commitRun b n).mem = s.mem := by
  rw [State.commitRun_eq, State.put_mem, State.sramPut_mem, State.sramPut_mem]

theorem State.commitRun_given (hon : s.bankOn 33 = true) (hn : n ≤ (List.range 32768).countP s.pageFree) :
    (∀ i, i < n → mapCommitted ((s.commitRun b n).mapEntry (b + i)) = true) ∧ (s.commitRun b n).freePages = s.freePages - n := by
  have hlen : (s.pagesFor b n).2.length = n := commitPages_given _ _ _ _ (by rw [State.physWords_free hon]; exact hn)
  refine ⟨fun i hi => ?_, ?_⟩
  · rw [State.mapEntry, State.mapRd_on ((s.commitRun_mapWork b n).bankOn.trans hon), State.commitRun_eq]
    change mapCommitted (((s.sramPut 33 0x10000 _).sramPut 33 b _).sramRd 33 (b + i)).toNat = true
    rw [State.sramRd_sramPut_in (by omega) (by rw [List.length_map, hlen]; omega), List.getElem_map]
    exact mapCommitted_mapWord _
  · rw [State.freePages, State.commitRun_eq, State.fld_put_mod (by decide), hlen]
    exact Nat.mod_eq_of_lt (Nat.lt_of_le_of_lt (Nat.sub_le _ _) s.freePages_lt)

/-! An allocation that is granted. -/

/-- The map entries of a new region, and the pages it is given at once. -/
def State.regionPages (s : State) (q : RegionReq) (b : Nat) : State :=
  if q.cls0 || q.commit then (s.sramPut 33 b (List.replicate q.pages 0)).commitRun b q.pages
  else s.sramPut 33 b (List.replicate q.pages 0)

/-- A region is listed under its handle; of a general one, pages given at once are blank. -/
def State.regionListed (s : State) (q : RegionReq) (b h : Nat) : State :=
  { s with mem := { s.mem with
      blank := s.mem.blank ++ (if q.cls0 = false ∧ q.commit = true then (List.range q.pages).map (b + ·) else [])
      regions := s.mem.regions ++ [⟨h, q.pages, b, q.cls0, q.port == 3⟩] } }

theorem State.regionPages_mapWork (s : State) (q : RegionReq) (b : Nat) : MapWork s (s.regionPages q b) :=
  MapWork.ite ((s.sram_mapWork _).trans (State.commitRun_mapWork _ _ _)) (s.sram_mapWork _)

theorem State.regionPages_mem (s : State) (q : RegionReq) (b : Nat) : (s.regionPages q b).mem = s.mem := by
  rw [State.regionPages]
  split
  · rw [State.commitRun_mem, State.sramPut_mem]
  · exact s.sramPut_mem _ _ _

/-- Without pages at once the entries are not committed. -/
theorem State.regionPages_blank (hon : s.bankOn 33 = true) (hcls : q.cls0 = false) (hcommit : q.commit = false) (hi : i < q.pages) :
    mapCommitted ((s.regionPages q b).mapEntry (b + i)) = false := by
  rw [State.mapEntry, State.mapRd_on ((s.regionPages_mapWork q b).bankOn.trans hon), State.regionPages, hcls, hcommit,
    Bool.or_self, if_neg Bool.false_ne_true, State.sramRd_sramPut_in (by omega) (by rw [List.length_replicate]; omega), List.getElem_replicate]
  exact mapCommitted_zero

/-- The pages stay as they are while the entries are zeroed. -/
theorem State.pageFree_zeroed (hb : b + n ≤ 65536) (hp : p < 32768) :
    (s.sramPut 33 b (List.replicate n 0)).pageFree p = s.pageFree p := by
  have hon : (s.sramPut 33 b (List.replicate n 0)).bankOn 33 = s.bankOn 33 := (s.sram_mapWork _).bankOn
  have hrd : (s.sramPut 33 b (List.replicate n 0)).sramRd 33 (0x10000 + p) = s.sramRd 33 (0x10000 + p) :=
    State.sramRd_sramPut_out (Or.inr (by rw [List.length_replicate]; omega))
  rw [State.pageFree, State.pageState, State.physEntry, State.mapRd, hon, hrd, State.pageFree, State.pageState, State.physEntry, State.mapRd]

theorem State.regionPages_given (hon : s.bankOn 33 = true) (hnow : q.cls0 = true ∨ q.commit = true) (hb : b + q.pages ≤ 65536)
    (hn : q.pages ≤ (List.range 32768).countP s.pageFree) :
    (∀ i, i < q.pages → mapCommitted ((s.regionPages q b).mapEntry (b + i)) = true) ∧
      (s.regionPages q b).freePages = s.freePages - q.pages := by
  have hcount : (List.range 32768).countP (s.sramPut 33 b (List.replicate q.pages 0)).pageFree = (List.range 32768).countP s.pageFree :=
    List.countP_congr fun p hp => by rw [State.pageFree_zeroed hb (List.mem_range.1 hp)]
  rw [State.regionPages, if_pos (Bool.or_eq_true_iff.2 hnow)]
  exact State.commitRun_given (s := s.sramPut 33 b (List.replicate q.pages 0)) ((s.sram_mapWork _).bankOn.trans hon) (by rw [hcount]; exact hn)

theorem State.regionListed_sram : (s.regionListed q b h).sram = s.sram := rfl
theorem State.regionListed_rd : (s.regionListed q b h).rd a = s.rd a := rfl
theorem State.regionReport_sram : s.regionReport.sram = s.sram := by rw [State.regionReport, State.put_sram, State.put_sram]
theorem State.regionReport_mem : s.regionReport.mem = s.mem := by rw [State.regionReport, State.put_mem, State.put_mem]
theorem State.regionReport_freePages : s.regionReport.freePages = s.freePages := by
  rw [State.freePages, State.regionReport, State.fld_put_apart (by decide), State.fld_put_apart (by decide), State.freePages]

/-- The request of a region that was listed ends DONE. -/
def State.regionGiven (s : State) (q : RegionReq) (b h : Nat) : State :=
  ((s.regionPages q b).regionListed q b h).regionReport.regionEnd q.port 0 h

theorem State.regionGiven_mapWork : MapWork s (s.regionGiven q b h) :=
  (((s.regionPages_mapWork q b).trans (State.mem_mapWork _ _)).trans (State.regionReport_mapWork _)).trans (State.regionEnd_mapWork _ _ _ _)

theorem State.regionGiven_mem (hq : s.mem.queue = q :: rest) : (s.regionGiven q b h).mem = { s.mem with
    queue := rest, regions := s.mem.regions ++ [⟨h, q.pages, b, q.cls0, q.port == 3⟩]
    blank := s.mem.blank ++ (if q.cls0 = false ∧ q.commit = true then (List.range q.pages).map (b + ·) else []) } := by
  have hqv : ((s.regionPages q b).regionListed q b h).regionReport.mem.queue = q :: rest := by
    rw [State.regionReport_mem, State.regionListed, State.regionPages_mem]; exact hq
  rw [State.regionGiven, State.regionEnd_mem hqv, State.regionReport_mem, State.regionListed, State.regionPages_mem]

theorem State.regionGiven_mapEntry : (s.regionGiven q b h).mapEntry i = (s.regionPages q b).mapEntry i := by
  refine State.mapRd_congr ?_ ?_ ((State.regionGiven_mapWork).bankOn.trans (s.regionPages_mapWork q b).bankOn.symm)
  · rw [State.regionGiven, State.regionEnd_sram, State.regionReport_sram, State.regionListed_sram]
  · rw [State.regionGiven, State.regionEnd_eq, State.regionPop_mem, State.wrN_mem, State.regionReport_mem]
    rfl

theorem State.regionGiven_freePages : (s.regionGiven q b h).freePages = (s.regionPages q b).freePages := by
  rw [State.regionGiven, State.freePages, State.fld, State.regionEnd_rd (perPort_result_ne (by decide))]
  exact State.regionReport_freePages

/-! The outcomes of an allocation (R333, R335). -/

theorem State.regionAlloc_size (h : q.pages = 0 ∨ 32768 < q.pages) : s.regionAlloc q = s.regionEnd q.port 4 0 := if_pos h

section
variable (h0 : 0 < q.pages) (hmax : q.pages ≤ 32768)
include h0 hmax

theorem State.regionAlloc_full (hfree : s.freeHandle = none) : s.regionAlloc q = (s.raise 0x111 1).regionEnd q.port 1 0 := by
  rw [State.regionAlloc, if_neg (by omega), hfree]

/-- How many pages an allocation needs free (R335). -/
def State.needs (s : State) (q : RegionReq) : Nat := (if q.cls0 || q.commit then q.pages else 0) + s.reserve

theorem State.regionAlloc_nospace (hfree : s.freeHandle = some h) (hneed : s.freePages < s.needs q) :
    s.regionAlloc q = s.regionEnd q.port 2 0 := by
  rw [State.regionAlloc, if_neg (by omega), hfree]
  exact if_pos hneed

theorem State.regionAlloc_mapfull (hfree : s.freeHandle = some h) (hneed : s.needs q ≤ s.freePages)
    (hfit : mapFit s.mem.regions q.pages = none) : s.regionAlloc q = s.regionEnd q.port 3 0 := by
  rw [State.regionAlloc, if_neg (by omega), hfree]
  refine (if_neg (Nat.not_lt.2 hneed)).trans ?_
  rw [hfit]

theorem State.regionAlloc_given (hfree : s.freeHandle = some h) (hneed : s.needs q ≤ s.freePages)
    (hfit : mapFit s.mem.regions q.pages = some b) : s.regionAlloc q = s.regionGiven q b h := by
  rw [State.regionAlloc, if_neg (by omega), hfree]
  refine (if_neg (Nat.not_lt.2 hneed)).trans ?_
  rw [hfit, State.regionGiven, State.regionListed]
  cases hcls : q.cls0
  · cases hcommit : q.commit
    · simp only [Bool.or_self, Bool.not_false, Bool.or_true, if_true, Bool.false_eq_true, and_false, if_false, List.append_nil, hcls, hcommit,
        State.regionPages]
    · simp only [Bool.or_true, Bool.not_true, Bool.or_self, Bool.false_eq_true, if_false, and_self, if_true, hcls, hcommit, State.regionPages]
  · simp only [Bool.true_or, if_true, Bool.true_eq_false, false_and, if_false, List.append_nil, hcls, State.regionPages]

end

end Sys2Proof.Machine
end

section
/-! PROOFS. The outcomes of requests for regions (R333 to R337). -/

namespace Sys2Proof.Machine

variable {s t : State} {h i port : Nat} {w : Word} {q : RegionReq} {rest : List RegionReq} {g : Region}

/-! A region that is freed. -/

theorem State.uncommit_lists (s : State) (i : Nat) :
    (s.uncommit i).mem.regions = s.mem.regions ∧ (s.uncommit i).mem.queue = s.mem.queue := by
  rw [State.uncommit]
  dsimp only
  split
  · exact ⟨rfl, rfl⟩
  · exact ⟨rfl, rfl⟩

/-- The map entries of a region, taken back one by one. -/
def State.uncommitAll (s : State) (g : Region) : State := (List.range g.pages).foldl (fun s i => s.uncommit (g.base + i)) s

theorem State.uncommitAll_lists (s : State) (g : Region) :
    (s.uncommitAll g).mem.regions = s.mem.regions ∧ (s.uncommitAll g).mem.queue = s.mem.queue :=
  State.each_induct (fun t => t.mem.regions = s.mem.regions ∧ t.mem.queue = s.mem.queue) (List.range g.pages)
    (fun i s => s.uncommit (g.base + i)) (fun i t ht => by
      obtain ⟨hregions, hqueue⟩ := t.uncommit_lists (g.base + i)
      exact ⟨hregions.trans ht.1, hqueue.trans ht.2⟩) s ⟨rfl, rfl⟩

/-- The region of a handle is listed no more. -/
def State.unlist (s : State) (h : Nat) : State :=
  { s with mem := { s.mem with regions := s.mem.regions.filter (fun x => x.handle ≠ h) } }

theorem State.unlist_mem : (s.unlist h).mem = { s.mem with regions := s.mem.regions.filter (fun x => x.handle ≠ h) } := rfl

theorem State.region_unlist_self : (s.unlist h).region h = none := by
  rw [State.region, State.unlist_mem, List.find?_eq_none]
  intro r hr
  obtain ⟨-, hne⟩ := List.mem_filter.1 hr
  simpa using hne

theorem State.region_unlist_other {k : Nat} (hk : k ≠ h) : (s.unlist h).region k = s.region k := by
  rw [State.region, State.unlist_mem, List.find?_filter, State.region]
  congr 1
  funext r
  by_cases hr : r.handle = k
  · simp [hr, hk]
  · simp [hr]

theorem State.region_congr (hr : t.mem.regions = s.mem.regions) : t.region h = s.region h := by rw [State.region, hr, State.region]

theorem State.regionEnd_region {status k : Nat} : (s.regionEnd port status k).region h = s.region h := by
  refine State.region_congr ?_
  rw [State.regionEnd_eq, State.regionPop_mem, State.wrN_mem]

theorem State.regionReport_region : s.regionReport.region h = s.region h := State.region_congr (by rw [State.regionReport_mem])

/-- What a configuration, active, pending or waiting, or a halted engine names (R334). -/
def State.regionUsed (s : State) (h : Nat) : Prop :=
  handleNamed s.rdA h = true ∨ handleNamed s.rd h = true
    ∨ s.chip.applying.any (fun set => handleNamed (Cells.get resetWord set.words) h) = true
    ∨ s.mem.halted.any (fun x => x.handle == h) = true

theorem State.regionFree_none (hg : s.region q.handle = none) : s.regionFree q = s.regionEnd q.port 6 0 := by
  rw [State.regionFree, hg]

theorem State.regionFree_used (hg : s.region q.handle = some g) (hused : s.regionUsed q.handle) :
    s.regionFree q = s.regionEnd q.port 5 0 := by
  rw [State.regionFree, hg]
  exact if_pos hused

theorem State.regionFree_waits (hg : s.region q.handle = some g) (hused : ¬ s.regionUsed q.handle) (hmig : s.regionMigrating g = true) :
    s.regionFree q = s := by
  rw [State.regionFree, hg]
  exact (if_neg hused).trans (if_pos hmig)

theorem State.regionFree_freed (hg : s.region q.handle = some g) (hused : ¬ s.regionUsed q.handle) (hmig : s.regionMigrating g = false) :
    s.regionFree q = ((s.uncommitAll g).unlist q.handle).regionReport.regionEnd q.port 0 0 := by
  rw [State.regionFree, hg]
  exact (if_neg hused).trans (if_neg (by rw [hmig]; exact Bool.false_ne_true))

/-! The statement's parts. -/

theorem region_asks (hs : s.Serves .REGION 0x111) :
    (s.flag (resultFld port Reg.REGION_RESULT_BUSY) = true →
      exec (.regionFree port w) s = .next (s.bump Reg.REGION_REQ_DROP) ∧
      exec (.regionAlloc port w) s = .next (s.bump Reg.REGION_REQ_DROP)) ∧
    (s.flag (resultFld port Reg.REGION_RESULT_BUSY) = false → ∃ t q u r,
      exec (.regionFree port w) s = .next t ∧ exec (.regionAlloc port w) s = .next u ∧
      resultReads t port 1 0 0 0 ∧ resultReads u port 1 0 0 0 ∧
      t.mem = { s.mem with queue := s.mem.queue ++ [q] } ∧ u.mem = { s.mem with queue := s.mem.queue ++ [r] } ∧
      q.port = port ∧ q.isFree = true ∧ q.handle = (s.rd (perPort port Reg.REGION_REQ_HANDLE)).toNat % 2 ^ 6 ∧
      r.port = port ∧ r.isFree = false ∧ r.pages = (s.rd (perPort port Reg.REGION_REQ)).toNat % 2 ^ 16 ∧
      (r.cls0 = true ↔ s.fld ⟨perPort port Reg.REGION_REQ, Reg.REGION_REQ_CLASS0.lo, 1⟩ = 1) ∧
      (r.commit = true ↔ s.fld ⟨perPort port Reg.REGION_REQ, Reg.REGION_REQ_COMMIT.lo, 1⟩ = 1)) := by
  rw [exec_regionFree_left hs, exec_regionAlloc_left hs]
  refine ⟨fun hbusy => ?_, fun hbusy => ?_⟩
  · have hleft : s.left (s.bump Reg.REGION_REQ_DROP) = s.bump Reg.REGION_REQ_DROP := State.left_of_steady (s.bump_steady _)
    rw [State.regionGo_busy hbusy, State.regionGo_busy hbusy, hleft]
    exact ⟨rfl, rfl⟩
  · obtain ⟨hfree, hfreeMem⟩ := State.regionGo_effect (f := true) hbusy
    obtain ⟨hask, haskMem⟩ := State.regionGo_effect (f := false) hbusy
    have hlow : ∀ n : Nat, n / 2 ^ 0 % 2 ^ 6 = n % 2 ^ 6 ∧ n / 2 ^ 0 % 2 ^ 16 = n % 2 ^ 16 := fun n => by omega
    exact ⟨_, s.regionAsks port true, _, s.regionAsks port false, rfl, rfl, hfree, hask, hfreeMem, haskMem, rfl, rfl,
      (hlow _).1, rfl, rfl, (hlow _).2, ne_zero_iff_fld _ 16, ne_zero_iff_fld _ 17⟩

section
variable (hlive : s.boot.resetLow = false) (hq : s.mem.queue = q :: rest) (hup : s.mapUp = true)
include hlive hq hup

theorem exec_regionReqDone_alloc (hfree : q.isFree = false) {t : State} (ht : s.regionAlloc q = t) : exec .regionReqDone s = .next (s.left t) := by
  rw [exec_regionReqDone_head hlive hq hup, State.unheld_live hlive, hfree, if_neg Bool.false_ne_true, ht]

theorem exec_regionReqDone_free (hfree : q.isFree = true) {t : State} (ht : s.regionFree q = t) : exec .regionReqDone s = .next (s.left t) := by
  rw [exec_regionReqDone_head hlive hq hup, State.unheld_live hlive, hfree, if_pos rfl, ht]

omit hlive hup in
/-- A request that is refused ends with its status; nothing else of MEMC changes. -/
theorem exec_regionReqDone_refused {t : State} {status : Nat} (hexec : exec .regionReqDone s = .next (s.left (t.regionEnd q.port status 0)))
    (hmem : t.mem = s.mem) : ∃ u, exec .regionReqDone s = .next u ∧ resultReads u q.port 0 1 status 0 ∧
      u.mem = { s.mem with queue := rest } := by
  obtain ⟨hresult, hrest⟩ := regionEnd_done (port := q.port) (status := status) (h := 0) hq hmem
  exact ⟨_, hexec, hresult, hrest⟩

theorem region_full (hfree : q.isFree = false) (h0 : 0 < q.pages) (hmax : q.pages ≤ 32768) (hnone : s.freeHandle = none) :
    ∃ t, exec .regionReqDone s = .next t ∧ resultReads t q.port 0 1 1 0 ∧ t.mem = { s.mem with queue := rest } ∧
      (s.gateClosed 0x111 = false → raised t 0x111 1) := by
  have hexec := exec_regionReqDone_alloc hlive hq hup hfree (State.regionAlloc_full h0 hmax hnone)
  obtain ⟨hresult, hmem⟩ := regionEnd_done (port := q.port) (status := 1) (h := 0) hq (s.raise_onlyRegs 0x111 1).mem_eq
  refine ⟨_, hexec, hresult, hmem, fun hgate => ?_⟩
  have hrd : ((s.raise 0x111 1).regionEnd q.port 1 0).rd (Reg.HDR_IRQ_RAW 0x111) = (s.raise 0x111 1).rd (Reg.HDR_IRQ_RAW 0x111) :=
    State.regionEnd_rd (perPort_result_ne (by decide))
  rw [raised, State.left_fld, State.fld, hrd]
  exact State.fld_raise_self (p := 0x111) hgate (by decide)

theorem region_given {h b : Nat} (hon : s.bankOn 33 = true) (hfree : q.isFree = false) (h0 : 0 < q.pages) (hmax : q.pages ≤ 32768)
    (hhandle : s.freeHandle = some h) (hfit : mapFit s.mem.regions q.pages = some b) (hb : b + q.pages ≤ 65536)
    (hneed : s.needs q ≤ s.freePages) :
    ∃ t, exec .regionReqDone s = .next t ∧ resultReads t q.port 0 1 0 h ∧
      t.mem = { s.mem with
        queue := rest, regions := s.mem.regions ++ [⟨h, q.pages, b, q.cls0, q.port == 3⟩]
        blank := s.mem.blank ++ (if q.cls0 = false ∧ q.commit = true then (List.range q.pages).map (b + ·) else []) } ∧
      (q.cls0 = false → q.commit = false → ∀ i, i < q.pages → mapCommitted (t.mapEntry (b + i)) = false) ∧
      (q.cls0 = true ∨ q.commit = true → q.pages ≤ (List.range 32768).countP s.pageFree →
        (∀ i, i < q.pages → mapCommitted (t.mapEntry (b + i)) = true) ∧ t.freePages = s.freePages - q.pages) := by
  have hexec := exec_regionReqDone_alloc hlive hq hup hfree (State.regionAlloc_given h0 hmax hhandle hneed hfit)
  have hresult : resultReads (s.regionGiven q b h) q.port 0 1 0 h := State.regionEnd_result
  have hmem := State.regionGiven_mem (b := b) (h := h) hq
  have hentry : ∀ i, (s.regionGiven q b h).mapEntry i = (s.regionPages q b).mapEntry i := fun i => State.regionGiven_mapEntry
  have hpages : (s.regionGiven q b h).freePages = (s.regionPages q b).freePages := State.regionGiven_freePages
  generalize s.regionGiven q b h = t at hexec hresult hmem hentry hpages
  have hleft : ∀ i, (s.left t).mapEntry i = t.mapEntry i := fun i => State.mapRd_congr rfl rfl rfl
  refine ⟨_, hexec, ?_, (State.left_mem ..).trans hmem, fun hcls hcommit i hi => ?_, fun hnow hn => ?_⟩
  · rw [resultReads, State.left_rd]; exact hresult
  · rw [hleft, hentry]
    exact State.regionPages_blank hon hcls hcommit hi
  · obtain ⟨hcommitted, hcount⟩ := State.regionPages_given hon hnow hb hn
    exact ⟨fun i hi => by rw [hleft, hentry]; exact hcommitted i hi, by rw [State.freePages, State.left_fld]; exact hpages.trans hcount⟩

theorem region_freed (hfree : q.isFree = true) (hg : s.region q.handle = some g) (hused : ¬ s.regionUsed q.handle)
    (hmig : s.regionMigrating g = false) :
    ∃ t, exec .regionReqDone s = .next t ∧ resultReads t q.port 0 1 0 0 ∧ t.region q.handle = none ∧
      (∀ h, h ≠ q.handle → t.region h = s.region h) ∧ t.mem.queue = rest := by
  have hexec := exec_regionReqDone_free hlive hq hup hfree (State.regionFree_freed hg hused hmig)
  obtain ⟨hregions, hqueue⟩ := s.uncommitAll_lists g
  generalize s.uncommitAll g = v at hexec hregions hqueue
  have hregion : ∀ h, (s.left ((v.unlist q.handle).regionReport.regionEnd q.port 0 0)).region h = (v.unlist q.handle).region h := fun h => by
    rw [State.region_congr (s := (v.unlist q.handle).regionReport.regionEnd q.port 0 0) (by rw [State.left_mem]), State.regionEnd_region,
      State.regionReport_region]
  refine ⟨_, hexec, ?_, ?_, fun h hh => ?_, ?_⟩
  · rw [resultReads, State.left_rd]; exact State.regionEnd_result
  · rw [hregion]; exact State.region_unlist_self
  · rw [hregion, State.region_unlist_other hh]; exact State.region_congr hregions
  · rw [State.left_mem, State.regionEnd_eq, State.regionPop_mem, State.wrN_mem, State.regionReport_mem, State.unlist_mem]
    change v.mem.queue.tail = rest
    rw [hqueue, hq, List.tail_cons]

end

theorem State.regionUsed_iff : s.regionUsed h ↔ handleNamed s.rdA h = true ∨ handleNamed s.rd h = true
    ∨ (∃ set, s.chip.applying = some set ∧ handleNamed (Cells.get resetWord set.words) h = true)
    ∨ s.mem.halted.any (fun x => x.handle == h) = true := by
  rw [State.regionUsed, Option.any_eq_true]

theorem needs_eq {need : Nat} (hneed : need = (if q.cls0 = true ∨ q.commit = true then q.pages else 0) + s.reserve) : s.needs q = need := by
  rw [hneed, State.needs]
  simp only [Bool.or_eq_true]

/-- Settles O45: the GO of a request, and each outcome of an allocation and of a free, by its own lemma. -/
theorem regionsAreServed : Obligations.RegionsAreServed := by
  refine ⟨fun s port w hs _ => region_asks hs, fun s hlive => ⟨fun hwait => exec_regionReqDone_waits hlive hwait, ?_⟩⟩
  intro q rest hq hown hon _
  have hup := State.mapUp_of hown hon
  refine ⟨fun hfree need hneed => ⟨fun hsize => ?_, fun h0 hmax hnone => ?_, fun h h0 hmax hhandle hfew => ?_,
    fun h h0 hmax hhandle henough hfit => ?_, fun h b h0 hmax hhandle hfit hb henough => ?_⟩,
    fun hfree used hused => ⟨fun hnone => ?_, fun g hg hyes => ?_, fun g hg hno hmig => ?_, fun g hg hno hmig => ?_⟩⟩
  · exact exec_regionReqDone_refused hq (exec_regionReqDone_alloc hlive hq hup hfree (State.regionAlloc_size hsize)) rfl
  · exact region_full hlive hq hup hfree h0 hmax hnone
  · exact exec_regionReqDone_refused hq (exec_regionReqDone_alloc hlive hq hup hfree
      (State.regionAlloc_nospace h0 hmax hhandle (by rw [needs_eq hneed]; exact hfew))) rfl
  · exact exec_regionReqDone_refused hq (exec_regionReqDone_alloc hlive hq hup hfree
      (State.regionAlloc_mapfull h0 hmax hhandle (by rw [needs_eq hneed]; exact henough) hfit)) rfl
  · exact region_given hlive hq hup hon hfree h0 hmax hhandle hfit hb (by rw [needs_eq hneed]; exact henough)
  · exact exec_regionReqDone_refused hq (exec_regionReqDone_free hlive hq hup hfree (State.regionFree_none hnone)) rfl
  · have hin : s.regionUsed q.handle := State.regionUsed_iff.2 (hused.1 hyes)
    exact exec_regionReqDone_refused hq (exec_regionReqDone_free hlive hq hup hfree (State.regionFree_used hg hin)) rfl
  · have hnot : ¬ s.regionUsed q.handle := fun hin => Bool.false_ne_true (hno.symm.trans (hused.2 (State.regionUsed_iff.1 hin)))
    rw [exec_regionReqDone_head hlive hq hup]
    refine State.unheld_same hlive ?_
    rw [hfree, if_pos rfl]
    exact State.regionFree_waits hg hnot hmig
  · have hnot : ¬ s.regionUsed q.handle := fun hin => Bool.false_ne_true (hno.symm.trans (hused.2 (State.regionUsed_iff.1 hin)))
    exact region_freed hlive hq hup hfree hg hnot hmig

end Sys2Proof.Machine
end

section
/-! PROOFS. A beat whose correction changes where it reads (R344, R346): a statement of every state and every engine number
meets a region that lies over the records of errors, and an engine whose records of faults lie over the counters of ECC. -/

namespace Sys2Proof.Machine

/-- The machine after reset with DRAM awake, but that a region's one map entry is the record of errors of the page it maps to:
a correction there moves the region to the next page, whose first word is poisoned. -/
def mappedOddly : State :=
  { (((State.reset.put (Reg.PWR_DOM_STATE_CUR 10) domStON).put (Reg.PWR_DOM_STATE_CUR 11) domStON).put
      (Reg.PWR_DOM_STATE_CUR 80) domStON).wr Reg.AON_TIMEBASE_HI 1 with
    sram := [(sramKey 33 0x18005, 0x8005)]
    mem := { MemState.atReset with regions := [⟨0, 1, 0x18005, false, false⟩], poison := [6 * 8192] } }

/-- The engine whose FLT_OFS is ECC.CORR. -/
def engineOverCorr : Nat := 756

/-- CORR at the end of a command. -/
def Result.corr : Result → Nat
  | .next t => (t.rd Reg.ECC_CORR).toNat
  | _ => 0

/-- The fault of the beat lands on the counter. -/
theorem mappedOddly_corr : Result.corr (exec (.dramBeat engineOverCorr 0 0 none 1 0 0 []) mappedOddly) = 0 := by decide +kernel

/-- Refutes O46: a beat with a single-bit error leaves CORR at 0, where the engine's record of the fault overwrites it. -/
theorem not_beatsAreServed : ¬ Obligations.BeatsAreServed := by
  rintro ⟨hbeat, -⟩
  obtain ⟨-, -, -, -, hcorrects⟩ := hbeat mappedOddly engineOverCorr 0 0 0 0 1 0 [0] [] (by decide)
    ⟨by decide, by decide⟩ (by decide) (by decide) (by decide) rfl (by decide) (by decide)
    ⟨by decide, nofun, by decide⟩ (by decide) (by decide)
  obtain ⟨t, ht, hcount, -⟩ := hcorrects (5 * 65536) (by decide) (by decide) (by decide)
  have hzero : Result.corr (.next t) = 0 := ht ▸ mappedOddly_corr
  have hone : Result.corr (.next t) = min (2 ^ 32 - 1) ((mappedOddly.rd Reg.ECC_CORR).toNat + 1) := hcount
  exact absurd (hzero.symm.trans hone) (by decide)

end Sys2Proof.Machine
end

section
/-! PROOFS. The Eubel Driver Link's broadcasts and polls: a statement of every state meets a CFG word whose reserved bits are
set (R7 keeps them), and one of every slot meets a slot of a port number whose records lie over the counters of a bus. -/

namespace Sys2Proof.Machine

/-- The machine after reset with D12 ON, but that port 0's CFG holds a reserved bit. -/
def reservedSet : State := (State.reset.put (Reg.PWR_DOM_STATE_CUR 12) domStON).wr (Reg.EDL_PORT_CFG 0) 4

theorem reservedSet_serves_group : reservedSet.Serves .EDL_GRP (0x71 + 0) := by constructor <;> decide

theorem reservedSet_serves_port (i : Nat) (hi : i < 4) : reservedSet.Serves .EDL_PORT (0xA0 + 4 * 0 + i) := by
  have hpages : ∀ j, j < 4 → unitOfPage (0xA0 + 4 * 0 + j) = some .EDL_PORT ∧
      reservedSet.rd (Reg.HDR_LOCK (hdrPage (0xA0 + 4 * 0 + j))) = 0 ∧ reservedSet.gateClosed (0xA0 + 4 * 0 + j) = false ∧
      reservedSet.unitPowered .EDL_PORT (0xA0 + 4 * 0 + j) = true := by decide
  obtain ⟨hunit, hunlocked, hgate, hpower⟩ := hpages i hi
  exact ⟨by decide, hunit, hunlocked, hgate, hpower, by decide⟩

/-- CFG of port 0 at the end of a command. -/
def Result.portCfg : Result → Nat
  | .next t => (t.rd (Reg.EDL_PORT_CFG 0)).toNat
  | _ => 0

/-- A write of CFG_ALL keeps the reserved bit. -/
theorem reservedSet_cfg : Result.portCfg (exec (.groupBroadcast 0 0 false 0) reservedSet) = 4 := by decide

/-- Refutes O40: after a write of 0 to CFG_ALL, CFG of a port whose reserved bit 2 was set reads 4, and not 0. -/
theorem not_driverCommands : ¬ Obligations.DriverCommands := by
  rintro ⟨-, -, -, hgroup⟩
  obtain ⟨⟨t, ht, hcfg, -, -⟩, -⟩ := hgroup reservedSet 0 0 0 reservedSet_serves_group (by decide) reservedSet_serves_port
  have hkept : Result.portCfg (.next t) = 4 := ht ▸ reservedSet_cfg
  have hstored : Result.portCfg (.next t) = ((0 : Word) &&& 0x7F7FF3#32).toNat := congrArg BitVec.toNat (hcfg 0 (by decide))
  exact absurd (hkept.symm.trans hstored) (by decide)

/-- The machine after reset with D28 ON and bus 0 on, whose open slot asks for CAPS over port 64, on which an ID is on offer
that has missed once. -/
def slotBeyond : State :=
  { ((State.reset.put (Reg.PWR_DOM_STATE_CUR 28) domStON).put (Reg.RETBUS_CFG_EN 0) 1).put (Reg.EDL_PORT_STATE_STATE 64) portENUM with
    edl := { EdlState.atReset with
      slots := [(0, some ⟨64, 0, 4, 0⟩)], ports := [(64, { EdlPort.atReset with offer := some 0, misses := 1 })] } }

/-- CODE_ERR of bus 0 at the end of a command. -/
def Result.codeErr : Result → Nat
  | .next t => (t.rd (Reg.RETBUS_CODE_ERR 0)).toNat
  | _ => 0

/-- TRAIN_FAILS of port 64 lies at CODE_ERR of bus 0. -/
theorem slotBeyond_codeErr : Result.codeErr (exec (.pollMiss 0 0 false) slotBeyond) = 1 := by decide

/-- Refutes O42: a miss without violations ends the enumeration of port 64, whose failed attempt counts in CODE_ERR. -/
theorem not_pollsAndAnswers : ¬ Obligations.PollsAndAnswers := by
  rintro ⟨-, -, -, hmiss⟩
  obtain ⟨-, -, hmisses, -⟩ := hmiss slotBeyond 0 0 ⟨64, 0, 4, 0⟩ 0 (by decide) (by decide) (by decide)
    (by decide) (by decide) (by decide)
  obtain ⟨t, ht, -, -, hcount, -⟩ := hmisses
  have hone : Result.codeErr (.next t) = 1 := ht ▸ slotBeyond_codeErr
  have hzero : Result.codeErr (.next t) = min (2 ^ 32 - 1) ((slotBeyond.rd (Reg.RETBUS_CODE_ERR 0)).toNat + 0) := hcount
  exact absurd (hone.symm.trans hzero) (by decide)

end Sys2Proof.Machine
end

section
/-! PROOFS. The presence window (R388, R392), and the pages that a wake of domains reaches (R413, R427). -/

namespace Sys2Proof.Machine

variable {s t u : State} {a k m n target : Nat} {inner : Bool} {x : Fld}

/-! Wakes write within AON and PWR. -/

/-- A wake changes the power controller, and registers of AON and PWR. -/
structure DomWork (s t : State) : Prop where
  only : OnlyDomains s t
  rd : ∀ a, a / 0x1000 ∉ [1, 3] → t.rd a = s.rd a

theorem DomWork.refl (s : State) : DomWork s s := ⟨OnlyDomains.refl s, fun _ _ => rfl⟩

theorem DomWork.trans (h : DomWork s t) (g : DomWork t u) : DomWork s u :=
  ⟨h.only.trans g.only, fun a ha => (g.rd a ha).trans (h.rd a ha)⟩

theorem DomWork.ite {c : Prop} [Decidable c] (ht : DomWork s t) (hu : DomWork s u) : DomWork s (if c then t else u) := by
  split
  exacts [ht, hu]

theorem DomWork.fld (h : DomWork s t) (hx : x.addr / 0x1000 ∉ [1, 3]) : t.fld x = s.fld x := by
  rw [State.fld, h.rd _ hx, State.fld]

theorem DomWork.gateClosed {p : Nat} (h : DomWork s t) (hp : hdrPage p ∉ [1, 3]) : t.gateClosed p = s.gateClosed p :=
  State.gateClosed_congr (h.rd _ (by rwa [HDR_CTRL_page]))

theorem DomWork.each {l : List Nat} {f : Nat → State → State} (h : ∀ m ∈ l, ∀ t, DomWork t (f m t)) (s : State) :
    DomWork s (s.each l f) := by
  induction l generalizing s with
  | nil => exact DomWork.refl s
  | cons m l ih => exact (h m (List.mem_cons_self ..) s).trans (ih (fun m' hm' => h m' (List.mem_cons_of_mem _ hm')) (f m s))

theorem Within.domWork (h : Within [1, 3] s t) : DomWork s t := ⟨h.only.domains, h.rd⟩

theorem DomWork.pwr (h : DomWork s t) (p : PwrState) : DomWork s { t with pwr := p } := ⟨h.only.pwr p, h.rd⟩

theorem domState_page (hm : m < 95) : Reg.PWR_DOM_STATE m / 0x1000 = 3 := by simp only [Reg.PWR_DOM_STATE]; omega
theorem domReq_page (hm : m < 95) : Reg.PWR_DOM_REQ m / 0x1000 = 3 := by simp only [Reg.PWR_DOM_REQ]; omega
theorem domCount_page (hm : m < 95) : Reg.PWR_DOM_CNT0 m / 0x1000 = 3 := by simp only [Reg.PWR_DOM_CNT0]; omega

section
variable (s)

theorem State.put_domState_domWork (hm : m < 95) {lo w v : Nat} : DomWork s (s.put ⟨Reg.PWR_DOM_STATE m, lo, w⟩ v) :=
  (s.put_within (by simp [domState_page hm])).domWork

theorem State.domWait_domWork (hm : m < 95) : DomWork s (s.domWait m target inner) := by
  unfold State.domWait
  refine DomWork.pwr (DomWork.trans (DomWork.ite ?_ (DomWork.refl s)) (State.put_domState_domWork _ hm)) _
  have hpage : Reg.PWR_DOM_CNT0 m / 0x1000 = 3 := domCount_page hm
  exact (s.bumpBy_within (by simp [Reg.PWR_DOM_CNT0_SUPERSEDED, hpage])
    (by simp [Reg.PWR_DOM_CNT0_SUPERSEDED, hpage, hdrPage])).domWork

theorem State.domWakeOne_domWork (hm : m < 95) : DomWork s (s.domWakeOne m) := by
  unfold State.domWakeOne
  refine DomWork.ite (DomWork.refl s) (DomWork.ite ?_ (DomWork.ite (DomWork.refl s) ?_))
  · split
    · exact DomWork.ite (DomWork.refl s) (s.domWait_domWork hm)
    · exact DomWork.refl s
  · rw [s.domBegin_wake]
    exact (s.put_domState_domWork hm).pwr _

theorem State.domWake_domWork (hm : m < 95) : DomWork s (s.domWake m) :=
  (DomWork.each (fun _ hd t => (DomWork.each (fun _ he v => v.domWakeOne_domWork (domNeeds_lt he)) t).trans
    (State.domWakeOne_domWork _ (domNeeds_lt hd))) s).trans (State.domWakeOne_domWork _ hm)

theorem State.domRequest_domWork (hm : m < 95) : DomWork s (s.domRequest m domStON) := by
  unfold State.domRequest
  refine DomWork.ite (DomWork.refl s) ?_
  refine ((s.put_within (x := Reg.PWR_DOM_REQ_TARGET m) (n := domStON) (by simp [Reg.PWR_DOM_REQ_TARGET, domReq_page hm])).domWork).trans ?_
  refine DomWork.ite (State.domWait_domWork _ hm) ?_
  unfold State.domServe
  dsimp only
  refine DomWork.ite (DomWork.refl _) ?_
  rw [if_pos rfl]
  exact State.domWake_domWork _ hm

theorem State.wakeSource_domWork (k : Nat) : DomWork s (s.wakeSource k) := by
  unfold State.wakeSource
  refine DomWork.ite ?_ (DomWork.refl s)
  exact ((s.put_within (x := ⟨Reg.AON_WAKE_CAUSE, k, 1⟩) (n := 1) (show Reg.AON_WAKE_CAUSE / 0x1000 ∈ [1, 3] by decide)).trans (State.raise_within _ (p := 1) (n := 0) (by decide))).domWork.trans
    (DomWork.each (fun m hm t => t.domRequest_domWork (State.mem_wakeDoms.1 hm).1) _)

end

theorem OnlyDomains.sec_eq (h : OnlyDomains s t) : t.sec = s.sec := by obtain ⟨_, _, _, _, rfl⟩ := h; rfl

/-! LED_STAT follows the window (R482). -/

/-- LED_STAT keeps its level in `boot`, and leaves on its pin. -/
def LedWork (s t : State) : Prop := ∃ b o, t = { s with boot := b, out := o }

theorem State.ledFollow_led (s : State) : LedWork s s.ledFollow := by
  unfold State.ledFollow State.ledPut
  dsimp only
  split
  · exact ⟨s.boot, s.out, rfl⟩
  · split
    exacts [⟨_, s.out, rfl⟩, ⟨_, _, rfl⟩]

theorem LedWork.rd (h : LedWork s t) (a : Nat) : t.rd a = s.rd a := by obtain ⟨_, _, rfl⟩ := h; rfl
theorem LedWork.sec_eq (h : LedWork s t) : t.sec = s.sec := by obtain ⟨_, _, rfl⟩ := h; rfl
theorem LedWork.fld (h : LedWork s t) (x : Fld) : t.fld x = s.fld x := by rw [State.fld, h.rd, State.fld]

/-! The window (R388). -/

theorem State.presenceRec_nvWork (s : State) (cause : Nat) : NvWork s (s.presenceRec cause) := by
  unfold State.presenceRec
  refine NvWork.ite s.wpRefused_nvWork ?_
  refine (s.nv_nvWork { s.nv with presence := (s.nv.presence + 1) % 256 }).trans ?_
  exact NvWork.ite (NvWork.ite (State.nvAdd_nvWork _ _) (State.setFull_nvWork _)) (State.nv_nvWork _ _)

theorem NvWork.sec_eq (h : NvWork s t) : t.sec = s.sec := by
  obtain ⟨_, _, _, _, rfl⟩ := h.state; rfl

theorem NvWork.fld (h : NvWork s t) (hx : x.addr / 0x1000 ∉ nvPages) : t.fld x = s.fld x := by
  rw [State.fld, h.rd _ hx, State.fld]

/-- A record of the window is written and LED_STAT follows: the registers of SEC and its count stay. -/
theorem State.presenceNoted (s : State) (cause : Nat) :
    (s.presenceRec cause).ledFollow.sec = s.sec ∧ ∀ x : Fld, x.addr / 0x1000 ∉ nvPages → (s.presenceRec cause).ledFollow.fld x = s.fld x :=
  ⟨(State.ledFollow_led _).sec_eq.trans (s.presenceRec_nvWork cause).sec_eq,
    fun x hx => ((State.ledFollow_led _).fld x).trans ((s.presenceRec_nvWork cause).fld hx)⟩

/-- The count of the window that opens now. -/
def State.windowNow (s : State) : SecState :=
  { window := some (s.timebase, s.timebase + clampNat 10 600 (s.fld ⟨Reg.SEC_WINDOW, 0, 10⟩) * 1000000) }

/-- A press while the window is open restarts its count. -/
theorem State.presenceOpens_open (h : s.presenceOpen = true) : s.presenceOpens = { s with sec := s.windowNow } := by
  unfold State.presenceOpens
  exact if_pos h

/-- The window has opened and is counted. -/
def State.windowOpened (s : State) : State :=
  ((({ s with sec := s.windowNow } : State).put Reg.SEC_STATE_OPEN 1).bump Reg.SEC_OPENINGS).raise 5 0

theorem State.presenceOpens_shut (h : s.presenceOpen = false) :
    s.presenceOpens = ((s.windowOpened).presenceRec 1).ledFollow := by
  unfold State.presenceOpens
  exact if_neg (by rw [h]; decide)

theorem State.windowOpened_sec (s : State) : s.windowOpened.sec = s.windowNow := by
  rw [State.windowOpened, (State.raise_onlyRegs _ _ _).sec_eq, (State.bump_onlyRegs _ _).sec_eq, (State.put_onlyRegs _ _ _).sec_eq]

theorem State.windowOpened_flag (s : State) : s.windowOpened.fld Reg.SEC_STATE_OPEN = 1 := by
  rw [State.windowOpened, State.fld_raise_other (by decide), State.fld_bump_other (by decide)]
  exact State.fld_put_mod (by decide)

theorem State.windowOpened_count (s : State) :
    s.windowOpened.fld (wholeFld Reg.SEC_OPENINGS) = min (2 ^ 32 - 1) (s.fld (wholeFld Reg.SEC_OPENINGS) + 1) := by
  have hput : (({ s with sec := s.windowNow } : State).put Reg.SEC_STATE_OPEN 1).rd Reg.SEC_OPENINGS = s.rd Reg.SEC_OPENINGS :=
    State.rd_put_other (by decide)
  rw [State.windowOpened, State.fld_raise_other (by decide), State.fld_whole, State.rd_bump_toNat (by decide), hput, State.fld_whole]

theorem State.windowOpened_raised (hgate : s.gateClosed 5 = false) : s.windowOpened.fld ⟨Reg.HDR_IRQ_RAW 5, 0, 1⟩ = 1 := by
  refine State.fld_raise_self ?_ (by decide)
  rw [State.gateClosed_bump (by decide), State.gateClosed_put (by decide)]
  exact hgate

/-- What the window's opening leaves. -/
theorem State.presenceOpens_effect (s : State) :
    s.presenceOpens.sec = s.windowNow ∧ s.presenceOpens.fld Reg.SEC_STATE_OPEN ≠ 0 ∧
      s.presenceOpens.fld (wholeFld Reg.SEC_OPENINGS) = (if s.presenceOpen then s.fld (wholeFld Reg.SEC_OPENINGS)
        else min (2 ^ 32 - 1) (s.fld (wholeFld Reg.SEC_OPENINGS) + 1)) ∧
      (s.gateClosed 5 = false → s.presenceOpen = false → s.presenceOpens.fld ⟨Reg.HDR_IRQ_RAW 5, 0, 1⟩ = 1) := by
  cases hopen : s.presenceOpen with
  | true =>
    rw [State.presenceOpens_open hopen]
    exact ⟨rfl, State.flag_iff.1 hopen, rfl, fun _ h => nomatch h⟩
  | false =>
    obtain ⟨hsec, hfld⟩ := s.windowOpened.presenceNoted 1
    rw [State.presenceOpens_shut hopen, hsec, hfld _ (by decide), hfld _ (by decide), hfld _ (by decide)]
    exact ⟨s.windowOpened_sec, by rw [s.windowOpened_flag]; decide, s.windowOpened_count, fun hgate _ => State.windowOpened_raised hgate⟩

/-- The window has shut and CLOSE is raised. -/
def State.windowShut (s : State) : State :=
  (({ s.put Reg.SEC_STATE_OPEN 0 with sec := { window := none } } : State).put Reg.TEST_UNLOCK_UNLOCK 0).raise 5 1

theorem State.windowShut_sec (s : State) : s.windowShut.sec.window = none := by
  rw [State.windowShut, (State.raise_onlyRegs _ _ _).sec_eq, (State.put_onlyRegs _ _ _).sec_eq]

theorem State.windowShut_flag (s : State) : s.windowShut.fld Reg.SEC_STATE_OPEN = 0 := by
  rw [State.windowShut, State.fld_raise_other (by decide), State.fld_put_apart (by decide), State.fld_sec]
  exact State.fld_put_mod (by decide)

theorem State.windowShut_raised (hgate : s.gateClosed 5 = false) : s.windowShut.fld ⟨Reg.HDR_IRQ_RAW 5, 1, 1⟩ = 1 := by
  have hstays : (({ s.put Reg.SEC_STATE_OPEN 0 with sec := { window := none } } : State).put Reg.TEST_UNLOCK_UNLOCK 0).gateClosed 5 = false := by
    rw [State.gateClosed_put (by decide), State.gateClosed_sec, State.gateClosed_put (by decide)]
    exact hgate
  exact State.fld_raise_self hstays (by decide)

/-- What the window's close leaves. -/
theorem State.presenceShut_effect (cause : Nat) (hopen : s.presenceOpen = true) (hgate : s.gateClosed 5 = false) :
    (s.presenceShut cause).sec.window = none ∧ (s.presenceShut cause).presenceOpen = false ∧
      (s.presenceShut cause).fld ⟨Reg.HDR_IRQ_RAW 5, 1, 1⟩ = 1 := by
  have hshut : s.presenceShut cause = (s.windowShut.presenceRec cause).ledFollow := by
    unfold State.presenceShut
    exact if_neg (by rw [hopen]; decide)
  obtain ⟨hsec, hfld⟩ := s.windowShut.presenceNoted cause
  rw [hshut, State.presenceOpen, State.flag_eq_false_iff, hsec, hfld _ (by decide), hfld _ (by decide)]
  exact ⟨s.windowShut_sec, s.windowShut_flag, State.windowShut_raised hgate⟩

/-- The count's end closes the window. -/
theorem State.presenceEnds_effect (hcount : s.sec.window.isSome = true) (hopen : s.presenceOpen = true) (hgate : s.gateClosed 5 = false) :
    s.presenceEnds.sec.window = none ∧ s.presenceEnds.presenceOpen = false ∧ s.presenceEnds.fld ⟨Reg.HDR_IRQ_RAW 5, 1, 1⟩ = 1 := by
  obtain ⟨w, hw⟩ := Option.isSome_iff_exists.1 hcount
  have hends : s.presenceEnds = (s.advance (s.tbInstant w.2)).presenceShut 2 := by rw [State.presenceEnds, hw]
  rw [hends]
  refine State.presenceShut_effect 2 ?_ (by rw [State.gateClosed_advance (by decide)]; exact hgate)
  rw [State.presenceOpen, State.flag, State.fld_advance (by decide)]
  exact hopen

/-! The obligation. -/

/-- What the button leaves, whether or not it is an enabled wake source. -/
theorem State.buttonHeld_effect (s : State) :
    s.buttonHeld.sec = s.windowNow ∧ s.buttonHeld.fld Reg.SEC_STATE_OPEN ≠ 0 ∧
      s.buttonHeld.fld (wholeFld Reg.SEC_OPENINGS) = (if s.presenceOpen then s.fld (wholeFld Reg.SEC_OPENINGS)
        else min (2 ^ 32 - 1) (s.fld (wholeFld Reg.SEC_OPENINGS) + 1)) ∧
      (s.gateClosed 5 = false → s.presenceOpen = false → s.buttonHeld.fld ⟨Reg.HDR_IRQ_RAW 5, 0, 1⟩ = 1) := by
  have hwake := s.presenceOpens.wakeSource_domWork 0
  rw [State.buttonHeld, hwake.only.sec_eq, hwake.fld (by decide), hwake.fld (by decide), hwake.fld (by decide)]
  exact s.presenceOpens_effect

theorem State.left_sec (s t : State) : (s.left t).sec = t.sec := rfl

theorem clampNat_eq (lo hi v : Nat) (h : lo ≤ hi) : clampNat lo hi v = max lo (min hi v) := by
  unfold clampNat
  split
  · omega
  · split <;> omega

theorem exec_button (hlive : s.boot.resetLow = false) (hgate : s.gateClosed 5 = false) :
    ∃ t, exec .presenceOpen s = .next t ∧
      t.sec.window = some (s.timebase, s.timebase + max 10 (min 600 (s.fld ⟨Reg.SEC_WINDOW, 0, 10⟩)) * 1000000) ∧
      t.flag Reg.SEC_STATE_OPEN = true ∧
      t.fld (wholeFld Reg.SEC_OPENINGS) =
        (if s.presenceOpen then s.fld (wholeFld Reg.SEC_OPENINGS) else min (2 ^ 32 - 1) (s.fld (wholeFld Reg.SEC_OPENINGS) + 1)) ∧
      (s.presenceOpen = false → t.fld ⟨Reg.HDR_IRQ_RAW 5, 0, 1⟩ = 1) := by
  have hexec := (exec_presenceOpen s).trans (State.unheld_live hlive)
  obtain ⟨hsec, hopen, hcount, hraised⟩ := s.buttonHeld_effect
  generalize s.buttonHeld = t at hexec hsec hopen hcount hraised
  exact ⟨_, hexec, by rw [State.left_sec, hsec, State.windowNow, clampNat_eq _ _ _ (by decide)], State.flag_iff.2 hopen, hcount, hraised hgate⟩

theorem exec_close (port : Nat) (w : Word) (hs : s.Serves .SEC 5) (hopen : s.presenceOpen = true) :
    ∃ t, exec (.presenceClose port w) s = .next t ∧ t.sec.window = none ∧ t.presenceOpen = false ∧
      t.fld ⟨Reg.HDR_IRQ_RAW 5, 1, 1⟩ = 1 := by
  have hexec := (exec_presenceClose s port w).trans (State.unheld_live hs.live)
  rw [State.hostWrite_acts (u := .SEC) (a := Reg.SEC_CMD) hs (by decide) rfl] at hexec
  have hbit : bit (Reg.SEC_CMD_CLOSE.put w 1).toNat 0 = true := by
    rw [bit, Reg.SEC_CMD_CLOSE, Fld.put_bit_zero]; simp
  dsimp only at hexec
  rw [if_pos hbit] at hexec
  have heffect := State.presenceShut_effect 3 hopen hs.gate
  generalize s.presenceShut 3 = t at hexec heffect
  exact ⟨_, hexec, heffect⟩

theorem exec_expire (hs : s.Serves .SEC 5) (hopen : s.presenceOpen = true) (hcount : s.sec.window.isSome = true) :
    ∃ t, exec .presenceExpire s = .next t ∧ t.sec.window = none ∧ t.presenceOpen = false ∧
      t.fld ⟨Reg.HDR_IRQ_RAW 5, 1, 1⟩ = 1 := by
  have hexec := (exec_presenceExpire s).trans (State.unheld_live hs.live)
  have heffect := State.presenceEnds_effect hcount hopen hs.gate
  generalize s.presenceEnds = t at hexec heffect
  exact ⟨_, hexec, heffect⟩

theorem State.hostWrite_otpLock (port : Nat) (w : Word) (hs : s.Serves .SEC 5) (hopen : s.presenceOpen = true) :
    s.hostWrite port Reg.SEC_OTP_LOCK w = if bit w.toNat 0 then s.wr Reg.SEC_OTP_LOCK 1 else s := by
  obtain ⟨r, hrow⟩ : ∃ r, blockRow .SEC Reg.SEC_OTP_LOCK = some r := Option.isSome_iff_exists.1 (by decide)
  rw [State.hostWrite_blockRow hs hrow (Or.inr hopen)]
  rfl

theorem exec_otpLock (port : Nat) (w : Word) (hs : s.Serves .SEC 5) (hopen : s.presenceOpen = true) :
    exec (.otpLockWrite port w) s = .next (if bit w.toNat 0 then s.wr Reg.SEC_OTP_LOCK 1 else s) := by
  rw [exec_otpLockWrite, State.unheld_live hs.live, State.hostWrite_otpLock port w hs hopen]
  congr 1
  refine State.left_of_steady ?_
  split
  exacts [s.wr_steady _ _, Steady.refl s]

/-- Settles O18: the window's count is kept beside its registers, which the record of the window and LED_STAT leave alone. -/
theorem presenceWindow : Obligations.PresenceWindow := by
  refine ⟨fun s hlive hgate _ => exec_button hlive hgate, fun s port w hs hopen => ⟨exec_close port w hs hopen,
    fun hcount => exec_expire hs hopen hcount, fun hw => ?_⟩, fun s port w hs hw hopen => ?_⟩
  · rw [exec_otpLock port w hs hopen, if_pos (by simp [bit, hw])]
  · rw [exec_otpLock port w hs hopen, if_neg (by simp [bit, hw])]

end Sys2Proof.Machine
end

section
/-! PROOFS. What the frames of the back-channel, the changes of the link's state and the entries of self-refresh leave of the
rest of the state (R77 to R84, R106, R107). -/

namespace Sys2Proof.Machine

variable {s t u : State} {a b k l n p : Nat} {w : Word} {x : Fld} {ps : List Nat}

/-! Events stay set. -/

/-- No bit of an IRQ_RAW is cleared. -/
def Risen (s t : State) : Prop := ∀ p b, b < 32 → raised s p b → raised t p b

theorem Risen.refl (s : State) : Risen s s := fun _ _ _ h => h
theorem Risen.trans (h : Risen s t) (g : Risen t u) : Risen s u := fun p b hb hs => g p b hb (h p b hb hs)
theorem Risen.ite {c : Prop} [Decidable c] (ht : Risen s t) (hu : Risen s u) : Risen s (if c then t else u) := by
  split
  exacts [ht, hu]

theorem Risen.of_regs (h : t.regs = s.regs) : Risen s t := fun _ _ _ hs => (State.fld_of_regs h _).trans hs

theorem HDR_IRQ_RAW_offset (p : Nat) : Reg.HDR_IRQ_RAW p % 0x1000 = 0x10 := by rw [Reg.HDR_IRQ_RAW]; omega

theorem irqRaw_ne (h : a % 0x1000 ≠ 0x10) : a ≠ Reg.HDR_IRQ_RAW p := fun ha => h (ha ▸ HDR_IRQ_RAW_offset p)

section
variable (s)

theorem State.wr_risen (h : a % 0x1000 ≠ 0x10) : Risen s (s.wr a w) := fun _ _ _ hs => (State.fld_wr_other (irqRaw_ne h)).trans hs
theorem State.put_risen (h : x.addr % 0x1000 ≠ 0x10) : Risen s (s.put x n) := s.wr_risen h
theorem State.raise_risen (hn : n < 32) : Risen s (s.raise p n) := fun _ _ hb hs => State.fld_raise_of_set hb hn hs
theorem State.raiseIf_risen (c : Bool) (hn : n < 32) : Risen s (s.raiseIf c p n) := by
  unfold State.raiseIf
  exact Risen.ite (s.raise_risen hn) (Risen.refl s)
theorem State.bumpBy_risen (h : x.addr % 0x1000 ≠ 0x10) : Risen s (s.bumpBy x n) := fun _ _ hb hs =>
  State.fld_bumpBy_of_set (irqRaw_ne h) hb hs
theorem State.bump_risen (h : a % 0x1000 ≠ 0x10) : Risen s (s.bump a) := s.bumpBy_risen h
theorem State.bumpIf_risen (c : Bool) (h : a % 0x1000 ≠ 0x10) : Risen s (s.bumpIf c a) := by
  unfold State.bumpIf
  exact Risen.ite (s.bump_risen h) (Risen.refl s)

end

/-! Frames of the back-channel (R77, R80, R82). -/

/-- The pages whose registers a frame of the back-channel, or a change of the link's state, reaches: CLK and PERTURB. -/
def bcPages : List Nat := [2, 8]

/-- Nothing differs but what a change of the link's state touches: LINK_STATE.STATE and registers of those pages with the event
log, the disparity of lanes, the injections, the clocks and what has left. -/
structure LinkWork (s t : State) : Prop where
  state : ∃ r g e o ph ij c, t = { s with
    regs := r, nv := { s.nv with log := g }, isl := { s.isl with rises := e }, out := o, phy := ph, inj := ij, clk := c }
  rd : ∀ a, a / 0x1000 ∉ bcPages → a ≠ Reg.ISL_LINK_STATE → t.rd a = s.rd a
  upper : ∀ x : Fld, x.addr = Reg.ISL_LINK_STATE → 4 ≤ x.lo → t.fld x = s.fld x
  lane : ∀ l, t.lane l = { s.lane l with rd := (t.lane l).rd }
  risen : Risen s t

theorem LinkWork.refl (s : State) : LinkWork s s :=
  ⟨⟨s.regs, s.nv.log, s.isl.rises, s.out, s.phy, s.inj, s.clk, rfl⟩, fun _ _ _ => rfl, fun _ _ _ => rfl, fun _ => rfl, Risen.refl s⟩

theorem LinkWork.trans (h : LinkWork s t) (g : LinkWork t u) : LinkWork s u := by
  refine ⟨?_, fun a ha hne => (g.rd a ha hne).trans (h.rd a ha hne), fun x hx hlo => (g.upper x hx hlo).trans (h.upper x hx hlo),
    fun l => ?_, h.risen.trans g.risen⟩
  · obtain ⟨_, _, _, _, _, _, _, rfl⟩ := h.state
    obtain ⟨r, l, e, o, ph, ij, c, rfl⟩ := g.state
    exact ⟨r, l, e, o, ph, ij, c, rfl⟩
  · rw [g.lane l, h.lane l]

theorem LinkWork.ite {c : Prop} [Decidable c] (ht : LinkWork s t) (hu : LinkWork s u) : LinkWork s (if c then t else u) := by
  split
  exacts [ht, hu]

/-- A field that no change of the link's state reaches. -/
theorem LinkWork.fld (h : LinkWork s t) (hx : x.addr / 0x1000 ∉ bcPages) (hne : x.addr ≠ Reg.ISL_LINK_STATE) : t.fld x = s.fld x := by
  rw [State.fld, h.rd _ hx hne, State.fld]

theorem LinkWork.gateClosed (h : LinkWork s t) (hp : hdrPage p ∉ bcPages) : t.gateClosed p = s.gateClosed p :=
  State.gateClosed_congr (h.rd _ (by rwa [HDR_CTRL_page]) (by simp only [Reg.HDR_CTRL, Reg.ISL_LINK_STATE]; omega))

theorem LinkWork.now_eq (h : LinkWork s t) : t.now = s.now := by obtain ⟨_, _, _, _, _, _, _, rfl⟩ := h.state; rfl
theorem LinkWork.act_eq (h : LinkWork s t) : t.act = s.act := by obtain ⟨_, _, _, _, _, _, _, rfl⟩ := h.state; rfl
theorem LinkWork.srf_eq (h : LinkWork s t) : t.srf = s.srf := by obtain ⟨_, _, _, _, _, _, _, rfl⟩ := h.state; rfl
theorem LinkWork.tim_eq (h : LinkWork s t) : t.tim = s.tim := by obtain ⟨_, _, _, _, _, _, _, rfl⟩ := h.state; rfl
theorem LinkWork.isl_eq (h : LinkWork s t) : t.isl = { s.isl with rises := t.isl.rises } := by
  obtain ⟨_, _, _, _, _, _, _, rfl⟩ := h.state; rfl

theorem phyBase_page (l off : Nat) : 0x11 ≤ (phyBase l + off) / 0x1000 := by
  have hlow : 0x11400 ≤ phyBase l := by
    unfold phyBase
    repeat' split
    all_goals omega
  exact (Nat.le_div_iff_mul_le (by decide)).2 (by omega)

theorem phy_not_bc (l off : Nat) : (phyBase l + off) / 0x1000 ∉ bcPages := by
  have hpage := phyBase_page l off
  simp only [bcPages, List.mem_cons, List.not_mem_nil, or_false, not_or]
  omega

/-- No register of a lane changes. -/
theorem LinkWork.phy_fld (h : LinkWork s t) (l off lo w : Nat) : t.fld ⟨phyBase l + off, lo, w⟩ = s.fld ⟨phyBase l + off, lo, w⟩ :=
  h.fld (phy_not_bc l off) fun hne => absurd (phyBase_page l off) (by rw [show phyBase l + off = _ from hne]; decide)

theorem LinkWork.laneCur_eq (h : LinkWork s t) (l : Nat) : t.laneCur l = s.laneCur l := h.phy_fld l _ _ _
theorem LinkWork.looped_eq (h : LinkWork s t) (l m : Nat) : t.looped l m = s.looped l m := by
  rw [State.looped, Reg.PHY_PRBS_LOOP, Reg.PHY_PRBS_LOOP, Reg.PHY_PRBS, Reg.PHY_PRBS, h.phy_fld, h.phy_fld]; rfl

theorem LinkWork.laneCarries_eq (h : LinkWork s t) (l : Nat) : t.laneCarries l = s.laneCarries l := by
  rw [State.laneCarries, State.laneInL0, h.laneCur_eq, h.lane l, h.looped_eq, h.looped_eq]; rfl

theorem LinkWork.bcActive_eq (h : LinkWork s t) : t.bcActive = s.bcActive := by
  rw [State.bcActive, h.laneCarries_eq, State.flag, Reg.PHY_RXSTAT_EI, Reg.PHY_RXSTAT, h.phy_fld]; rfl

/-- The same, the link's state staying as it was. -/
structure BcWork (s t : State) : Prop extends LinkWork s t where
  link : t.link = s.link

theorem BcWork.refl (s : State) : BcWork s s := ⟨LinkWork.refl s, rfl⟩
theorem BcWork.trans (h : BcWork s t) (g : BcWork t u) : BcWork s u := ⟨h.toLinkWork.trans g.toLinkWork, g.link.trans h.link⟩
theorem BcWork.ite {c : Prop} [Decidable c] (ht : BcWork s t) (hu : BcWork s u) : BcWork s (if c then t else u) := by
  split
  exacts [ht, hu]

theorem Within.mono {qs : List Nat} (h : Within ps s t) (hsub : ∀ p ∈ ps, p ∈ qs) : Within qs s t :=
  ⟨h.only, fun a ha => h.rd a fun hm => ha (hsub _ hm)⟩

theorem Within.bcWork (h : Within bcPages s t) (hr : Risen s t) : BcWork s t := by
  refine ⟨⟨?_, fun a ha _ => h.rd a ha, fun x hx _ => h.fld (by rw [hx]; decide), fun l => ?_, hr⟩, h.fld (by decide)⟩
  · obtain ⟨r, g, e, rfl⟩ := h.only
    exact ⟨r, g, e, s.out, s.phy, s.inj, s.clk, rfl⟩
  · rw [State.lane, h.only.phy_eq, State.lane]

section
variable (s)

theorem State.put_bcWork (hx : x.addr / 0x1000 ∈ bcPages) (ho : x.addr % 0x1000 ≠ 0x10) : BcWork s (s.put x n) :=
  (s.put_within hx).bcWork (s.put_risen ho)

theorem State.bump_bcWork (ha : a / 0x1000 ∈ bcPages) (hp : hdrPage (a / 0x1000) ∈ bcPages) (ho : a % 0x1000 ≠ 0x10) :
    BcWork s (s.bump a) := (s.bump_within ha hp).bcWork (s.bump_risen ho)

theorem State.emit_bcWork (k : OutKind) (d : Nat) (l : List Nat) : BcWork s (s.emit k d l) :=
  ⟨⟨⟨s.regs, s.nv.log, s.isl.rises, _, s.phy, s.inj, s.clk, rfl⟩, fun _ _ _ => rfl, fun _ _ _ => rfl, fun _ => rfl, Risen.of_regs rfl⟩, rfl⟩

theorem State.inj_bcWork (c : PerturbState) : BcWork s { s with inj := c } :=
  ⟨⟨⟨s.regs, s.nv.log, s.isl.rises, s.out, s.phy, c, s.clk, rfl⟩, fun _ _ _ => rfl, fun _ _ _ => rfl, fun _ => rfl, Risen.of_regs rfl⟩, rfl⟩

theorem State.setLane_rd_bcWork (l : Nat) (r : Bool) : BcWork s (s.setLane l { s.lane l with rd := r }) := by
  refine ⟨⟨⟨s.regs, s.nv.log, s.isl.rises, s.out, _, s.inj, s.clk, rfl⟩, fun _ _ _ => rfl, fun _ _ _ => rfl, fun j => ?_, Risen.of_regs rfl⟩, rfl⟩
  by_cases hj : l = j
  · rw [← hj, State.lane_setLane_same]
  · rw [State.lane_setLane_other _ _ hj]

theorem State.bcGroups_bcWork (l : List Byte) : BcWork s (s.bcGroups l) := by
  unfold State.bcGroups
  exact (s.setLane_rd_bcWork _ _).trans (State.emit_bcWork _ _ _ _)

theorem State.bcIdle_bcWork : BcWork s s.bcIdle := by
  unfold State.bcIdle
  exact BcWork.ite (s.bcGroups_bcWork _) (BcWork.refl s)

theorem State.injSpent_bcWork (c : PerturbState) (n t : Nat) :
    BcWork s (if n = 0 then ({ s with inj := c } : State).put ⟨Reg.PERTURB_CRC_INJ, t, 1⟩ 0 else { s with inj := c }).injected := by
  have hinj := s.inj_bcWork c
  generalize ({ s with inj := c } : State) = v at hinj ⊢
  have hspent : BcWork v (v.put ⟨Reg.PERTURB_CRC_INJ, t, 1⟩ 0) :=
    v.put_bcWork (show Reg.PERTURB_CRC_INJ / 0x1000 ∈ bcPages by decide) (show Reg.PERTURB_CRC_INJ % 0x1000 ≠ 0x10 by decide)
  exact (BcWork.ite (hinj.trans hspent) hinj).trans (State.bump_bcWork _ (by decide) (by decide) (by decide))

theorem State.injCrc_bcWork (k : Nat) : BcWork s (s.injCrc k).2 := by
  unfold State.injCrc
  split
  · exact s.injSpent_bcWork ..
  · exact BcWork.refl s

theorem State.bcSend_bcWork (type tag : Nat) (payload : List Byte) : BcWork s (s.bcSend type tag payload) := by
  unfold State.bcSend
  have h := s.injCrc_bcWork 2
  generalize s.injCrc 2 = e at h ⊢
  obtain ⟨hurt, v⟩ := e
  dsimp only at h ⊢
  exact BcWork.ite h ((h.trans (v.bcGroups_bcWork _)).trans ((State.bcIdle_bcWork _).trans (State.emit_bcWork _ _ _ _)))

theorem State.stateFrame_bcWork : BcWork s s.stateFrame := s.bcSend_bcWork ..
theorem State.trainSend_bcWork (op : Nat) (d : List Nat) : BcWork s (s.trainSend op d) := s.bcSend_bcWork ..
theorem State.capsSend_bcWork : BcWork s s.capsSend := s.trainSend_bcWork ..

theorem State.pixRefUpdate_within : Within [2] s s.pixRefUpdate := by
  unfold State.pixRefUpdate
  exact Within.ite (s.put_within (by decide)) (Within.ite (s.put_within (by decide)) (s.put_within (by decide)))

theorem State.pixRefUpdate_risen : Risen s s.pixRefUpdate := by
  unfold State.pixRefUpdate
  exact Risen.ite (s.put_risen (by decide)) (Risen.ite (s.put_risen (by decide)) (s.put_risen (by decide)))

theorem State.pixRefUpdate_bcWork : BcWork s s.pixRefUpdate :=
  (s.pixRefUpdate_within.mono (by decide)).bcWork s.pixRefUpdate_risen

end

/-! The link's state (R80). -/

theorem State.setLink_work (s : State) (st : Nat) : LinkWork s (s.setLink st) := by
  unfold State.setLink
  split
  · exact LinkWork.refl s
  · have hput : LinkWork s (s.put Reg.ISL_LINK_STATE_STATE st) := by
      have honly := s.put_onlyRegs Reg.ISL_LINK_STATE_STATE st
      refine ⟨?_, fun a _ hne => State.rd_put_other hne.symm, fun x _ hlo => State.fld_put_apart ⟨by decide, Or.inr (Or.inr hlo)⟩,
        fun l => ?_, s.put_risen (by decide)⟩
      · obtain ⟨r, g, e, heq⟩ := honly
        exact ⟨r, g, e, s.out, s.phy, s.inj, s.clk, heq⟩
      · rw [State.lane, honly.phy_eq, State.lane]
    exact hput.trans ((State.stateFrame_bcWork _).trans (State.pixRefUpdate_bcWork _)).toLinkWork

theorem State.setLink_link (s : State) (st : Nat) (hst : st < 16) : (s.setLink st).link = st := by
  unfold State.setLink
  split
  · next h => exact h.symm
  · have hwork := ((s.put Reg.ISL_LINK_STATE_STATE st).stateFrame_bcWork).trans (State.pixRefUpdate_bcWork _)
    exact hwork.link.trans ((State.fld_put_mod (by decide)).trans (Nat.mod_eq_of_lt hst))

end Sys2Proof.Machine
end

section
/-! PROOFS. Entries of self-refresh and their reasons (R106, R107, R112, R499), and what they leave of the rest of the state. -/

namespace Sys2Proof.Machine

variable {s t u : State} {a b k l n p : Nat} {w : Word} {x : Fld} {ps : List Nat}

/-! Frames in front of TIMING and the frame store. -/

/-- The pages whose registers an entry of self-refresh reaches: CLK, TIMING, SREF and CODEC. -/
def srefPages : List Nat := [2, 0x30, 0x32, 0x42]

/-- Nothing differs but what an entry of self-refresh touches: registers of those pages and the events of ISL with the event log,
the clocks, the frame store, the statistics, SREF and TIMING. -/
structure SrefWork (s t : State) : Prop where
  state : ∃ r g e c st sa sr tm, t = { s with
    regs := r, nv := { s.nv with log := g }, isl := { s.isl with rises := e }, clk := c, sto := st, sta := sa, srf := sr, tim := tm }
  rd : ∀ a, a / 0x1000 ∉ srefPages → a ≠ Reg.HDR_IRQ_RAW 0x10 → t.rd a = s.rd a
  risen : Risen s t

theorem SrefWork.refl (s : State) : SrefWork s s :=
  ⟨⟨s.regs, s.nv.log, s.isl.rises, s.clk, s.sto, s.sta, s.srf, s.tim, rfl⟩, fun _ _ _ => rfl, Risen.refl s⟩

theorem SrefWork.trans (h : SrefWork s t) (g : SrefWork t u) : SrefWork s u := by
  refine ⟨?_, fun a ha hr => (g.rd a ha hr).trans (h.rd a ha hr), h.risen.trans g.risen⟩
  obtain ⟨_, _, _, _, _, _, _, _, rfl⟩ := h.state
  obtain ⟨r, l, e, c, st, sa, sr, tm, rfl⟩ := g.state
  exact ⟨r, l, e, c, st, sa, sr, tm, rfl⟩

theorem SrefWork.ite {c : Prop} [Decidable c] (ht : SrefWork s t) (hu : SrefWork s u) : SrefWork s (if c then t else u) := by
  split
  exacts [ht, hu]

theorem SrefWork.fld (h : SrefWork s t) (hx : x.addr / 0x1000 ∉ srefPages) (hr : x.addr ≠ Reg.HDR_IRQ_RAW 0x10) : t.fld x = s.fld x := by
  rw [State.fld, h.rd _ hx hr, State.fld]

theorem SrefWork.gateClosed (h : SrefWork s t) (hp : hdrPage p ∉ srefPages) : t.gateClosed p = s.gateClosed p :=
  State.gateClosed_congr (h.rd _ (by rwa [HDR_CTRL_page]) (by simp only [Reg.HDR_CTRL, Reg.HDR_IRQ_RAW]; omega))

theorem SrefWork.now_eq (h : SrefWork s t) : t.now = s.now := by obtain ⟨_, _, _, _, _, _, _, _, rfl⟩ := h.state; rfl
theorem SrefWork.act_eq (h : SrefWork s t) : t.act = s.act := by obtain ⟨_, _, _, _, _, _, _, _, rfl⟩ := h.state; rfl
theorem SrefWork.phy_eq (h : SrefWork s t) : t.phy = s.phy := by obtain ⟨_, _, _, _, _, _, _, _, rfl⟩ := h.state; rfl
theorem SrefWork.isl_eq (h : SrefWork s t) : t.isl = { s.isl with rises := t.isl.rises } := by
  obtain ⟨_, _, _, _, _, _, _, _, rfl⟩ := h.state; rfl

theorem Within.srefWork (h : Within srefPages s t) (hr : Risen s t) : SrefWork s t := by
  refine ⟨?_, fun a ha _ => h.rd a ha, hr⟩
  obtain ⟨r, g, e, rfl⟩ := h.only
  exact ⟨r, g, e, s.clk, s.sto, s.sta, s.srf, s.tim, rfl⟩

section
variable (s)

theorem State.srf_srefWork (c : SrefState) : SrefWork s { s with srf := c } :=
  ⟨⟨s.regs, s.nv.log, s.isl.rises, s.clk, s.sto, s.sta, c, s.tim, rfl⟩, fun _ _ _ => rfl, Risen.of_regs rfl⟩
theorem State.tim_srefWork (c : TimState) : SrefWork s { s with tim := c } :=
  ⟨⟨s.regs, s.nv.log, s.isl.rises, s.clk, s.sto, s.sta, s.srf, c, rfl⟩, fun _ _ _ => rfl, Risen.of_regs rfl⟩
theorem State.sto_srefWork (c : StoreState) : SrefWork s { s with sto := c } :=
  ⟨⟨s.regs, s.nv.log, s.isl.rises, s.clk, c, s.sta, s.srf, s.tim, rfl⟩, fun _ _ _ => rfl, Risen.of_regs rfl⟩

theorem State.wr_srefWork (ha : a / 0x1000 ∈ srefPages) (ho : a % 0x1000 ≠ 0x10) : SrefWork s (s.wr a w) :=
  (s.wr_within ha).srefWork (s.wr_risen ho)
theorem State.put_srefWork (hx : x.addr / 0x1000 ∈ srefPages) (ho : x.addr % 0x1000 ≠ 0x10) : SrefWork s (s.put x n) :=
  (s.put_within hx).srefWork (s.put_risen ho)
theorem State.raise_srefWork (hp : hdrPage p ∈ srefPages) (hn : n < 32) : SrefWork s (s.raise p n) :=
  (s.raise_within hp).srefWork (s.raise_risen hn)
theorem State.raiseIf_srefWork (c : Bool) (hp : hdrPage p ∈ srefPages) (hn : n < 32) : SrefWork s (s.raiseIf c p n) :=
  (s.raiseIf_within c hp).srefWork (s.raiseIf_risen c hn)
theorem State.bump_srefWork (ha : a / 0x1000 ∈ srefPages) (hp : hdrPage (a / 0x1000) ∈ srefPages) (ho : a % 0x1000 ≠ 0x10) :
    SrefWork s (s.bump a) := (s.bump_within ha hp).srefWork (s.bump_risen ho)
theorem State.bumpIf_srefWork (c : Bool) (ha : a / 0x1000 ∈ srefPages) (hp : hdrPage (a / 0x1000) ∈ srefPages)
    (ho : a % 0x1000 ≠ 0x10) : SrefWork s (s.bumpIf c a) := by
  unfold State.bumpIf
  exact SrefWork.ite (s.bump_srefWork ha hp ho) (SrefWork.refl s)

theorem State.pixRefUpdate_srefWork : SrefWork s s.pixRefUpdate := (s.pixRefUpdate_within.mono (by decide)).srefWork s.pixRefUpdate_risen

end

/-! A frame is discarded (R107, R154). -/

/-- What a frame's discard touches: the frame store and the statistics, CODEC's registers and DISCARDED_FRAMES. -/
structure FrameDrop (s t : State) : Prop where
  state : ∃ r g e st sa, t = { s with regs := r, nv := { s.nv with log := g }, isl := { s.isl with rises := e }, sto := st, sta := sa }
  rd : ∀ a, a / 0x1000 ≠ 0x42 → a ≠ Reg.SREF_DISCARDED_FRAMES → a ≠ Reg.HDR_IRQ_RAW 0x32 → t.rd a = s.rd a
  risen : Risen s t

theorem FrameDrop.refl (s : State) : FrameDrop s s :=
  ⟨⟨s.regs, s.nv.log, s.isl.rises, s.sto, s.sta, rfl⟩, fun _ _ _ _ => rfl, Risen.refl s⟩

theorem FrameDrop.trans (h : FrameDrop s t) (g : FrameDrop t u) : FrameDrop s u := by
  refine ⟨?_, fun a ha hb hc => (g.rd a ha hb hc).trans (h.rd a ha hb hc), h.risen.trans g.risen⟩
  obtain ⟨_, _, _, _, _, rfl⟩ := h.state
  obtain ⟨r, l, e, st, sa, rfl⟩ := g.state
  exact ⟨r, l, e, st, sa, rfl⟩

theorem FrameDrop.ite {c : Prop} [Decidable c] (ht : FrameDrop s t) (hu : FrameDrop s u) : FrameDrop s (if c then t else u) := by
  split
  exacts [ht, hu]

theorem FrameDrop.tim_eq (h : FrameDrop s t) : t.tim = s.tim := by obtain ⟨_, _, _, _, _, rfl⟩ := h.state; rfl
theorem FrameDrop.srf_eq (h : FrameDrop s t) : t.srf = s.srf := by obtain ⟨_, _, _, _, _, rfl⟩ := h.state; rfl

theorem FrameDrop.srefWork (h : FrameDrop s t) : SrefWork s t := by
  refine ⟨?_, fun a ha _ => h.rd a ?_ ?_ ?_, h.risen⟩
  · obtain ⟨r, g, e, st, sa, rfl⟩ := h.state
    exact ⟨r, g, e, s.clk, st, sa, s.srf, s.tim, rfl⟩
  · rintro hc; exact ha (by rw [hc]; decide)
  · rintro rfl; exact ha (by decide)
  · rintro rfl; exact ha (by decide)

theorem OnlyRegs.frameDrop (h : OnlyRegs s t) (hrd : ∀ a, a / 0x1000 ≠ 0x42 → t.rd a = s.rd a) (hr : Risen s t) : FrameDrop s t := by
  refine ⟨?_, fun a ha _ _ => hrd a ha, hr⟩
  obtain ⟨r, g, e, rfl⟩ := h
  exact ⟨r, g, e, s.sto, s.sta, rfl⟩

section
variable (s)

theorem Within.frameDrop (h : Within [0x42] s t) (hr : Risen s t) : FrameDrop s t :=
  h.only.frameDrop (fun a ha => h.rd a (by simpa using ha)) hr

theorem State.sto_frameDrop (c : StoreState) : FrameDrop s { s with sto := c } :=
  ⟨⟨s.regs, s.nv.log, s.isl.rises, c, s.sta, rfl⟩, fun _ _ _ _ => rfl, Risen.of_regs rfl⟩

theorem State.put_frameDrop (hx : x.addr / 0x1000 = 0x42) (ho : x.addr % 0x1000 ≠ 0x10) : FrameDrop s (s.put x n) :=
  Within.frameDrop s (s.put_within (by simp [hx])) (s.put_risen ho)

theorem State.setSlot_frameDrop (n st : Nat) : FrameDrop s (s.setSlot n st) := by
  unfold State.setSlot
  have hput : FrameDrop s (s.put (slotStateFld n) st) :=
    s.put_frameDrop (show Reg.CODEC_SLOT_STATE / 0x1000 = 0x42 by decide) (show Reg.CODEC_SLOT_STATE % 0x1000 ≠ 0x10 by decide)
  generalize s.put (slotStateFld n) st = v at hput ⊢
  unfold State.when
  exact FrameDrop.ite (hput.trans (v.put_frameDrop (by decide) (by decide))) hput

theorem State.incomplete_frameDrop (sref : Bool) : FrameDrop s
    ((((s.put Reg.CODEC_RING_WRITING 0).bump Reg.CODEC_INCOMPLETE).raise 0x42 1).bumpIf sref Reg.SREF_DISCARDED_FRAMES) := by
  have hmarks : FrameDrop s (((s.put Reg.CODEC_RING_WRITING 0).bump Reg.CODEC_INCOMPLETE).raise 0x42 1) :=
    Within.frameDrop s (((s.put_within (by decide)).trans (State.bump_within _ (by decide) (by decide))).trans (State.raise_within _ (by decide)))
      (((s.put_risen (by decide)).trans (State.bump_risen _ (by decide))).trans (State.raise_risen _ (by decide)))
  generalize ((s.put Reg.CODEC_RING_WRITING 0).bump Reg.CODEC_INCOMPLETE).raise 0x42 1 = v at hmarks ⊢
  refine hmarks.trans ?_
  have hbump : FrameDrop v (v.bump Reg.SREF_DISCARDED_FRAMES) := by
    refine ⟨?_, fun a _ hb hc => State.rd_bump_other ⟨hb.symm, Ne.symm hc⟩, v.bump_risen (by decide)⟩
    obtain ⟨r, g, e, heq⟩ := v.bump_onlyRegs Reg.SREF_DISCARDED_FRAMES
    exact ⟨r, g, e, v.sto, v.sta, heq⟩
  unfold State.bumpIf
  exact FrameDrop.ite hbump (FrameDrop.refl v)

theorem State.discardFrame_drop (sref : Bool) : FrameDrop s (s.discardFrame sref) := by
  unfold State.discardFrame
  split
  · exact FrameDrop.refl s
  · have hstart : FrameDrop s ({ s with sto := { s.sto with src := none } } : State).statsDiscard :=
      ⟨⟨s.regs, s.nv.log, s.isl.rises, _, _, rfl⟩, fun _ _ _ _ => rfl, Risen.of_regs rfl⟩
    dsimp only
    generalize ({ s with sto := { s.sto with src := none } } : State).statsDiscard = v at hstart ⊢
    split
    · exact hstart
    · have hmarks := hstart.trans (v.incomplete_frameDrop sref)
      generalize (((v.put Reg.CODEC_RING_WRITING 0).bump Reg.CODEC_INCOMPLETE).raise 0x42 1).bumpIf sref Reg.SREF_DISCARDED_FRAMES = v at hmarks ⊢
      exact FrameDrop.ite (hmarks.trans (v.sto_frameDrop _)) (hmarks.trans (v.setSlot_frameDrop _ _))

/-! TIMING's mode (R105). -/

theorem State.setTimMode_risen (m : Nat) : Risen s (s.setTimMode m) := by
  unfold State.setTimMode
  dsimp only
  refine Risen.ite (Risen.refl s) ?_
  have hleft := (((s.bumpIf_risen (s.timMode == timLOCKED) (a := Reg.TIMING_LOCK_LOSS) (by decide)).trans
    (State.raiseIf_risen _ (s.timMode == timLOCKED && m != timFREE) (p := 0x30) (n := 1) (by decide))).trans
    ((State.put_risen _ (x := Reg.TIMING_STATUS_MODE) (n := m) (by decide)).trans
    (State.put_risen _ (x := Reg.TIMING_STATUS_LOCK) (n := b2n (m == timLOCKED)) (by decide)))).trans
    (State.raiseIf_risen _ (m == timLOCKED) (p := 0x30) (n := 0) (by decide))
  exact Risen.ite (hleft.trans (Risen.of_regs rfl)) hleft

end

theorem TimWork.srefWork (h : TimWork s t) (hr : Risen s t) : SrefWork s t := by
  refine ⟨?_, fun a ha _ => h.rd a fun hc => ha (by rw [hc]; decide), hr⟩
  obtain ⟨r, g, e, ref, err, late, slewed, period, next, rfl⟩ := h.state
  exact ⟨r, g, e, s.clk, s.sto, s.sta, s.srf, _, rfl⟩

/-- What leaving LOCKED shows: a loss is counted, and raised but on the way to FREE. -/
def State.lockLeft (s : State) (m : Nat) : State :=
  (s.bumpIf (s.timMode == timLOCKED) Reg.TIMING_LOCK_LOSS).raiseIf (s.timMode == timLOCKED && m != timFREE) 0x30 1

/-- A new mode as STATUS shows it. -/
def State.modeShown (s : State) (m : Nat) : State :=
  (((s.lockLeft m).put Reg.TIMING_STATUS_MODE m).put Reg.TIMING_STATUS_LOCK (b2n (m == timLOCKED))).raiseIf (m == timLOCKED) 0x30 0

theorem State.setTimMode_regs (m : Nat) (h : m ≠ s.timMode) : (s.setTimMode m).regs = (s.modeShown m).regs := by
  unfold State.setTimMode
  rw [if_neg h]
  dsimp only
  unfold State.modeShown State.lockLeft
  split <;> rfl

theorem State.fld_raiseIf_other (c : Bool) (h : Reg.HDR_IRQ_RAW (hdrPage p) ≠ x.addr) : (s.raiseIf c p n).fld x = s.fld x := by
  unfold State.raiseIf
  split
  exacts [State.fld_raise_other h, rfl]

theorem State.setTimMode_mode (m : Nat) (hm : m < 8) : (s.setTimMode m).timMode = m := by
  by_cases h : m = s.timMode
  · unfold State.setTimMode
    rw [if_pos h]; exact h.symm
  · rw [State.timMode, State.fld_of_regs (State.setTimMode_regs m h), State.modeShown, State.fld_raiseIf_other _ (by decide),
      State.fld_put_apart (by decide)]
    exact (State.fld_put_mod (by decide)).trans (Nat.mod_eq_of_lt hm)

/-! Entries and reasons (R106). -/

variable {code : Nat}

/-- What SREF keeps of an event. -/
def State.eventKept (s : State) (code : Nat) : SrefState := { s.srf with
  host := s.srf.host || code == 4
  released := false
  events := if !s.inSref then [code] else code :: s.srf.events.filter (fun c => c ≠ code)
  pipSince := if code = 5 then false else s.srf.pipSince }

/-- The reason is shown. -/
def State.reasoned (s : State) (code : Nat) : State :=
  ({ s with srf := s.eventKept code } : State).srefShow (if s.srf.host || code == 4 then 4 else code)

/-- What SREF holds from an entry on. -/
def State.heldAtEntry (s : State) : SrefState := { s.srf with
  exiting := false, base := s.heldPeriod, k := max 1 s.lastSrc.k, trim := 0, gap := none, ret := false }

/-- An entry is counted and raised. -/
def State.entryCounted (s : State) : State :=
  ((({ s with srf := s.heldAtEntry } : State).bump Reg.SREF_ENTRIES).raise 0x32 0).wr Reg.SREF_TRIM_PPB 0

/-- TIMING holds over, unless it runs free. -/
def State.holdsOver (s : State) : State := if s.timMode = timFREE then s else s.setTimMode timHOLDOVER

/-- The source frame planned is shown no more, and the frame under way is discarded. -/
def State.planDropped (s : State) : State :=
  (({ s with tim := { s.tim with plan := none, cur := s.lastSrc, err := 0 } } : State).discardFrame true).pixRefUpdate

theorem State.srefEvent_eq (s : State) (code : Nat) :
    s.srefEvent code = if !s.inSref then (s.reasoned code).entryCounted.holdsOver.planDropped else s.reasoned code := by
  unfold State.srefEvent
  extract_lets first _ kept reason _ held entry hold _ drop
  have hreason : reason = s.reasoned code := rfl
  have hentry : entry = reason.entryCounted := rfl
  have hhold : hold = entry.holdsOver := rfl
  have hdrop : (drop.discardFrame true).pixRefUpdate = hold.planDropped := rfl
  rw [hdrop, hhold, hentry, hreason]

section
variable (s)

theorem State.srefShow_srefWork (c : Nat) : SrefWork s (s.srefShow c) :=
  (s.put_srefWork (by decide) (by decide)).trans (State.put_srefWork _ (by decide) (by decide))

theorem State.reasoned_srefWork (code : Nat) : SrefWork s (s.reasoned code) := (s.srf_srefWork _).trans (State.srefShow_srefWork _ _)

theorem State.entryCounted_srefWork : SrefWork s s.entryCounted :=
  (((s.srf_srefWork _).trans (State.bump_srefWork _ (by decide) (by decide) (by decide))).trans
    (State.raise_srefWork _ (by decide) (by decide))).trans (State.wr_srefWork _ (by decide) (by decide))

theorem State.holdsOver_timWork : TimWork s s.holdsOver := TimWork.ite (TimWork.refl s) (s.setTimMode_timWork _)

theorem State.holdsOver_srefWork : SrefWork s s.holdsOver :=
  s.holdsOver_timWork.srefWork (Risen.ite (Risen.refl s) (s.setTimMode_risen _))

theorem State.planDropped_srefWork : SrefWork s s.planDropped :=
  ((s.tim_srefWork _).trans (State.discardFrame_drop _ _).srefWork).trans (State.pixRefUpdate_srefWork _)

/-- An event of R106 stays within what an entry touches. -/
theorem State.srefEvent_srefWork (code : Nat) : SrefWork s (s.srefEvent code) := by
  rw [State.srefEvent_eq]
  exact SrefWork.ite ((((s.reasoned_srefWork code).trans (State.entryCounted_srefWork _)).trans (State.holdsOver_srefWork _)).trans
    (State.planDropped_srefWork _)) (s.reasoned_srefWork code)

/-- What an entry leaves of a register of SREF or TIMING: the discard reaches its own counter and events alone. -/
theorem State.planDropped_rd (ha : a / 0x1000 ≠ 0x42) (hd : a ≠ Reg.SREF_DISCARDED_FRAMES) (hr : a ≠ Reg.HDR_IRQ_RAW 0x32)
    (hc : a / 0x1000 ≠ 2) : s.planDropped.rd a = s.rd a :=
  ((State.pixRefUpdate_within _).rd a (by simpa using hc)).trans ((State.discardFrame_drop _ _).rd a ha hd hr)

theorem State.planDropped_fld (h : x.addr / 0x1000 ≠ 0x42 ∧ x.addr ≠ Reg.SREF_DISCARDED_FRAMES ∧ x.addr ≠ Reg.HDR_IRQ_RAW 0x32 ∧
    x.addr / 0x1000 ≠ 2) : s.planDropped.fld x = s.fld x := by
  rw [State.fld, s.planDropped_rd h.1 h.2.1 h.2.2.1 h.2.2.2, State.fld]

theorem State.planDropped_srf : s.planDropped.srf = s.srf := by
  rw [State.planDropped]
  obtain ⟨_, _, _, heq⟩ := (State.pixRefUpdate_within (({ s with tim := { s.tim with plan := none, cur := s.lastSrc, err := 0 } } : State).discardFrame true)).only
  rw [heq]
  exact (State.discardFrame_drop _ _).srf_eq

theorem State.entryCounted_fld (h : Reg.SREF_TRIM_PPB ≠ x.addr ∧ Reg.HDR_IRQ_RAW (hdrPage 0x32) ≠ x.addr ∧
    Reg.SREF_ENTRIES ≠ x.addr ∧ Reg.HDR_IRQ_RAW (hdrPage (Reg.SREF_ENTRIES / 0x1000)) ≠ x.addr) : s.entryCounted.fld x = s.fld x := by
  rw [State.entryCounted, State.fld_wr_other h.1, State.fld_raise_other h.2.1, State.fld_bump_other h.2.2]
  rfl

theorem State.entryCounted_srf : s.entryCounted.srf = s.heldAtEntry := by
  have honly := (((({ s with srf := s.heldAtEntry } : State).bump_onlyRegs Reg.SREF_ENTRIES).trans
    (State.raise_onlyRegs _ 0x32 0)).trans (State.wr_onlyRegs _ Reg.SREF_TRIM_PPB 0))
  obtain ⟨_, _, _, heq⟩ := honly
  rw [State.entryCounted, heq]

/-- What SREF keeps of an event, on entry or during self-refresh. -/
theorem State.srefEvent_kept (code : Nat) : (s.srefEvent code).srf.host = (s.srf.host || code == 4) ∧
    (s.srefEvent code).srf.pipSince = (if code = 5 then false else s.srf.pipSince) := by
  have hreasoned : (s.reasoned code).srf = s.eventKept code := by
    obtain ⟨_, _, _, heq⟩ := ((State.put_onlyRegs ({ s with srf := s.eventKept code } : State) Reg.SREF_STATE_STATE
      (if s.srf.host || code == 4 then 4 else code)).trans
      (State.put_onlyRegs _ Reg.SREF_STATE_REASON (if s.srf.host || code == 4 then 4 else code)))
    rw [State.reasoned, State.srefShow, heq]
  rw [State.srefEvent_eq]
  split
  · rw [State.planDropped_srf, (State.holdsOver_timWork _).srf_eq, State.entryCounted_srf, State.heldAtEntry, hreasoned]
    exact ⟨rfl, rfl⟩
  · rw [hreasoned]; exact ⟨rfl, rfl⟩

/-- The reason that an event leaves in STATE and REASON. -/
theorem State.srefEvent_shows (code : Nat) (hx : x.addr = Reg.SREF_STATE) :
    (s.srefEvent code).fld x = (s.reasoned code).fld x := by
  rw [State.srefEvent_eq]
  split
  · rw [State.planDropped_fld _ (by rw [hx]; decide), (State.holdsOver_timWork _).fld (by rw [hx]; decide),
      State.entryCounted_fld _ (by rw [hx]; decide)]
  · rfl

theorem State.reasoned_shows (code : Nat) :
    (s.reasoned code).srefState = (if s.srf.host || code == 4 then 4 else code) % 8 ∧
      (s.reasoned code).fld Reg.SREF_STATE_REASON = (if s.srf.host || code == 4 then 4 else code) % 16 := by
  rw [State.reasoned, State.srefShow]
  generalize (if s.srf.host || code == 4 then 4 else code : Nat) = c
  refine ⟨?_, State.fld_put_mod (by decide)⟩
  rw [State.srefState, State.fld_put_apart (by decide)]
  exact State.fld_put_mod (by decide)

/-- An event shows its code, while no ENTER of the host stands. -/
theorem State.srefEvent_reason (code : Nat) (hcode : code < 8) (hhost : s.srf.host = false ∨ code = 4) :
    (s.srefEvent code).srefState = code ∧ (s.srefEvent code).fld Reg.SREF_STATE_REASON = code := by
  have hshown : (if s.srf.host || code == 4 then 4 else code : Nat) = code := by
    rcases hhost with h | rfl
    · rw [h]
      by_cases h4 : code = 4
      · simp [h4]
      · simp [h4]
    · simp
  obtain ⟨hstate, hreason⟩ := s.reasoned_shows code
  rw [hshown] at hstate hreason
  exact ⟨(s.srefEvent_shows code rfl).trans (hstate.trans (Nat.mod_eq_of_lt hcode)),
    (s.srefEvent_shows code rfl).trans (hreason.trans (Nat.mod_eq_of_lt (by omega)))⟩

/-- After an event self-refresh is on. -/
theorem State.srefEvent_inSref (code : Nat) (hpos : 0 < code) (hcode : code < 8) : (s.srefEvent code).inSref = true := by
  have hstate : (s.srefEvent code).srefState ≠ 0 := by
    rw [State.srefState, s.srefEvent_shows code rfl]
    change (s.reasoned code).srefState ≠ 0
    rw [(s.reasoned_shows code).1]
    split <;> omega
  simpa [State.inSref] using hstate

/-- An entry counts. -/
theorem State.srefEvent_counts (code : Nat) (h : s.inSref = false) : counted s (s.srefEvent code) Reg.SREF_ENTRIES 1 := by
  have hreasoned : (s.reasoned code).rd Reg.SREF_ENTRIES = s.rd Reg.SREF_ENTRIES :=
    (State.rd_put_other (by decide)).trans (State.rd_put_other (by decide))
  rw [State.srefEvent_eq, h, counted]
  rw [if_pos Bool.not_false, State.planDropped_rd _ (by decide) (by decide) (by decide) (by decide), (State.holdsOver_timWork _).rd _ (by decide)]
  generalize s.reasoned code = v at hreasoned
  rw [State.entryCounted, State.rd_wr_other _ _ _ _ (by decide), State.raise_rd_other _ _ _ _ (by decide), State.rd_bump_toNat (by decide),
    State.rd_srf, hreasoned]

/-- An entry is raised. -/
theorem State.srefEvent_raises (code : Nat) (h : s.inSref = false) (hgate : s.gateClosed 0x32 = false) :
    raised (s.srefEvent code) 0x32 0 := by
  have hreasoned : (s.reasoned code).gateClosed 0x32 = false :=
    ((State.gateClosed_put (by decide)).trans ((State.gateClosed_put (by decide)).trans rfl)).trans hgate
  rw [State.srefEvent_eq, h]
  rw [if_pos Bool.not_false]
  refine (State.planDropped_srefWork _).risen _ _ (by decide) ((State.holdsOver_srefWork _).risen _ _ (by decide) ?_)
  generalize s.reasoned code = v at hreasoned
  rw [raised, State.entryCounted, State.fld_wr_other (by decide)]
  exact State.fld_raise_self ((State.gateClosed_bump (by decide)).trans hreasoned) (by decide)

/-- An entry takes TIMING into holdover, unless it runs free. -/
theorem State.srefEvent_holds (code : Nat) (h : s.inSref = false) (hmode : s.timMode ≠ timFREE) :
    (s.srefEvent code).timMode = timHOLDOVER := by
  have hreasoned : (s.reasoned code).entryCounted.timMode = s.timMode :=
    (State.entryCounted_fld _ (by decide)).trans ((State.fld_put_apart (by decide)).trans (State.fld_put_apart (by decide)))
  rw [State.srefEvent_eq, h]
  rw [if_pos Bool.not_false]
  refine (State.planDropped_fld _ (by decide)).trans ?_
  generalize (s.reasoned code).entryCounted = v at hreasoned
  rw [State.holdsOver, if_neg (by rw [hreasoned]; exact hmode)]
  exact State.setTimMode_mode _ (by decide)

/-- During self-refresh an event enters nothing. -/
theorem State.srefEvent_entries (code : Nat) (h : s.inSref = true) : (s.srefEvent code).rd Reg.SREF_ENTRIES = s.rd Reg.SREF_ENTRIES := by
  rw [State.srefEvent_eq, h]
  exact (State.rd_put_other (by decide)).trans (State.rd_put_other (by decide))

end

end Sys2Proof.Machine
end

section
/-! PROOFS. Leaving the link, the attempts of its training, and its main lanes (R82 to R87). -/

namespace Sys2Proof.Machine

variable {s t u : State} {a b k l n p : Nat} {w : Word} {x : Fld} {on : Bool}

/-! Leaving the link (R87, R106). -/

theorem State.fld_isl' (s : State) (c : IslState) (x : Fld) : ({ s with isl := c } : State).fld x = s.fld x := rfl

theorem State.raise_link_srefWork (s : State) (hn : n < 32) : SrefWork s (s.raise 0x10 n) := by
  refine ⟨?_, fun a _ hr => State.raise_rd_other _ _ _ _ (Ne.symm hr), s.raise_risen hn⟩
  obtain ⟨r, g, e, heq⟩ := s.raise_onlyRegs 0x10 n
  exact ⟨r, g, e, s.clk, s.sto, s.sta, s.srf, s.tim, heq⟩

theorem State.srefLinkLeft_srefWork (s : State) : SrefWork s s.srefLinkLeft := by
  unfold State.srefLinkLeft
  exact SrefWork.ite ((s.bump_srefWork (by decide) (by decide) (by decide)).trans (State.srf_srefWork _ _)) (SrefWork.refl s)

theorem State.srefLinkLeft_host (s : State) : s.srefLinkLeft.srf.host = s.srf.host := by
  unfold State.srefLinkLeft
  split <;> rfl

/-- The link is left: its LINK_DOWN, and an entry of self-refresh. -/
theorem State.linkGone_srefWork (s : State) (say : Bool) : SrefWork s (s.linkGone say) := by
  unfold State.linkGone
  refine SrefWork.ite ?_ (SrefWork.refl s)
  have hleft : SrefWork s (if decide (s.link = lkUP) then s.srefLinkLeft else s) := SrefWork.ite s.srefLinkLeft_srefWork (SrefWork.refl s)
  dsimp only
  generalize (if decide (s.link = lkUP) then s.srefLinkLeft else s : State) = v at hleft ⊢
  have hsaid : SrefWork s (v.raiseIf say 0x10 1) := by
    unfold State.raiseIf
    exact SrefWork.ite (hleft.trans (v.raise_link_srefWork (by decide))) hleft
  exact SrefWork.ite (hsaid.trans (State.srefEvent_srefWork _ _)) hsaid

theorem SrefWork.link_eq (h : SrefWork s t) : t.link = s.link := h.fld (by decide) (by decide)

theorem SrefWork.lane_eq (h : SrefWork s t) (l : Nat) : t.lane l = s.lane l := by rw [State.lane, h.phy_eq, State.lane]

/-- A link in UP, S1 or S2 that is left with LINK_DOWN is in self-refresh from then on. -/
theorem State.linkGone_live (hlive : s.link = lkUP ∨ s.link = lkS1 ∨ s.link = lkS2) (hgate : s.gateClosed 0x10 = false) :
    raised (s.linkGone true) 0x10 1 ∧ (s.linkGone true).inSref = true := by
  have hleft : SrefWork s (if decide (s.link = lkUP) then s.srefLinkLeft else s) := SrefWork.ite s.srefLinkLeft_srefWork (SrefWork.refl s)
  unfold State.linkGone
  rw [if_pos hlive]
  dsimp only
  generalize (if decide (s.link = lkUP) then s.srefLinkLeft else s : State) = v at hleft ⊢
  have hopen : v.gateClosed 0x10 = false := (hleft.gateClosed (by decide)).trans hgate
  exact ⟨(State.srefEvent_srefWork _ _).risen _ _ (by decide) (State.fld_raise_self hopen (by decide)),
    State.srefEvent_inSref _ _ (by decide) (by decide)⟩

/-! The main lanes. -/

theorem State.each_succ (s : State) (f : Nat → State → State) (n : Nat) :
    s.each (List.range (n + 1)) f = f n (s.each (List.range n) f) := by
  rw [State.each, List.range_succ, List.foldl_append]
  rfl

theorem State.lane_mapLane (s : State) (g : Lane → Lane) : (s.mapLane k g).lane l = if l = k then g (s.lane l) else s.lane l := by
  by_cases h : l = k
  · rw [if_pos h, h]; exact State.lane_setLane_same ..
  · rw [if_neg h]; exact State.lane_setLane_other _ _ (Ne.symm h)

theorem State.each_mapLane_lane (s : State) (g : Lane → Lane) (n : Nat) :
    (s.each (List.range n) (fun k s => s.mapLane k g)).lane l = if l < n then g (s.lane l) else s.lane l := by
  induction n with
  | zero => rfl
  | succ n ih =>
    rw [State.each_succ, State.lane_mapLane, ih]
    by_cases h : l = n
    · subst h; simp
    · rw [if_neg h, if_congr (show l < n ↔ l < n + 1 by omega) rfl rfl]

theorem State.each_mapLane_laneWork (s : State) (g : Lane → Lane) (l : List Nat) : ∃ ph, s.each l (fun k s => s.mapLane k g) = { s with phy := ph } :=
  State.each_induct (fun t => ∃ ph, t = { s with phy := ph }) l _ (fun k t ht => by
    obtain ⟨ph, rfl⟩ := ht; exact ⟨_, rfl⟩) s ⟨s.phy, rfl⟩

/-- Scramblers of the main lanes go on or off; nothing else changes. -/
theorem State.scramble_phy (s : State) (on : Bool) : ∃ ph, s.scramble on = { s with phy := ph } :=
  s.each_mapLane_laneWork (fun x => { x with scrambled := on, needSeed := on }) (List.range 16)

theorem State.scramble_lane (s : State) (on : Bool) : (s.scramble on).lane l =
    if l < 16 then { s.lane l with scrambled := on, needSeed := on } else s.lane l :=
  s.each_mapLane_lane (fun x => { x with scrambled := on, needSeed := on }) 16

theorem State.scramble_rd (s : State) (on : Bool) (a : Nat) : (s.scramble on).rd a = s.rd a := by
  obtain ⟨ph, heq⟩ := s.scramble_phy on
  rw [heq, State.rd_phy]

theorem State.scramble_fld (s : State) (on : Bool) (x : Fld) : (s.scramble on).fld x = s.fld x := by
  rw [State.fld, State.scramble_rd, State.fld]

theorem State.scramble_carries (s : State) (on : Bool) (l : Nat) : (s.scramble on).laneCarries l = s.laneCarries l := by
  have htest : ((s.scramble on).lane l).test = (s.lane l).test := by rw [State.scramble_lane]; split <;> rfl
  simp only [State.laneCarries, State.laneInL0, State.laneCur, State.looped, State.scramble_fld, htest]

theorem State.scramble_bcActive (s : State) (on : Bool) : (s.scramble on).bcActive = s.bcActive := by
  rw [State.bcActive, State.scramble_carries, State.flag, State.scramble_fld]; rfl

/-! Attempts (R82 to R84). -/

/-- The state of the link's training at the start of an attempt. -/
def State.attemptIsl (s : State) (retry : Nat) : IslState :=
  { s.linkClear.isl with since := s.now, capLanes := s.lanesLimit, capRate := s.rateLimit' retry, hold := !s.bcActive }

/-- What an attempt's start leaves. -/
structure Attempted (retry : Nat) (s t : State) : Prop where
  state : ∃ r g o ph ij c i, t = { s with regs := r, nv := { s.nv with log := g }, isl := i, out := o, phy := ph, inj := ij, clk := c }
  isl : t.isl = { s.attemptIsl retry with rises := t.isl.rises }
  rd : ∀ a, a / 0x1000 ∉ bcPages → a ≠ Reg.ISL_LINK_STATE → t.rd a = s.rd a
  lane : ∀ l, t.lane l = { s.lane l with
    rd := (t.lane l).rd, scrambled := if l < 16 then false else (s.lane l).scrambled, needSeed := if l < 16 then false else (s.lane l).needSeed }
  risen : Risen s t
  link : t.link = lkDETECT
  retry : t.fld Reg.ISL_LINK_STATE_RETRY = retry % 4

/-- What the link held is cleared, its scramblers are off, and RETRY is shown. -/
def State.attemptClear (s : State) (retry : Nat) : State := (s.linkClear.scramble false).put Reg.ISL_LINK_STATE_RETRY retry

/-- The attempt waits for BC_RX, with its limits. -/
def State.attemptHeld (v : State) (retry : Nat) : State :=
  { v with isl := { v.isl with since := v.now, capLanes := v.lanesLimit, capRate := v.rateLimit' retry, hold := true } }

theorem State.attemptHeld_rd (v : State) (retry a : Nat) : (v.attemptHeld retry).rd a = v.rd a := rfl
theorem State.attemptHeld_fld (v : State) (retry : Nat) (x : Fld) : (v.attemptHeld retry).fld x = v.fld x := rfl
theorem State.attemptHeld_lane (v : State) (retry l : Nat) : (v.attemptHeld retry).lane l = v.lane l := rfl
theorem State.attemptHeld_bcActive (v : State) (retry : Nat) : (v.attemptHeld retry).bcActive = v.bcActive := rfl

theorem State.attempt_eq (s : State) (retry : Nat) :
    s.attempt retry = (((s.attemptClear retry).attemptHeld retry).setLink lkDETECT).detectRuns := rfl

theorem State.lanesLimit_congr (h : ∀ x : Fld, x.addr ≠ Reg.ISL_LINK_STATE → t.fld x = s.fld x) : t.lanesLimit = s.lanesLimit := by
  rw [State.lanesLimit, h _ (by decide), State.lanesLimit]

theorem State.rateLimit'_congr (h : ∀ x : Fld, x.addr ≠ Reg.ISL_LINK_STATE → t.fld x = s.fld x) (retry : Nat) :
    t.rateLimit' retry = s.rateLimit' retry := by
  have hrate : ∀ k, t.fld (Reg.PHY_RATE_MAX (phyBase (laneIsl k))) = s.fld (Reg.PHY_RATE_MAX (phyBase (laneIsl k))) := fun k =>
    h _ fun hc => absurd (phyBase_page (laneIsl k) 4) (by rw [show phyBase (laneIsl k) + 4 = _ from hc]; decide)
  have hmax : t.fld Reg.ISL_CFG_RATE_MAX = s.fld Reg.ISL_CFG_RATE_MAX := h _ (by decide)
  rw [State.rateLimit', State.lanesLimit_congr h, hmax, State.rateLimit']
  simp only [hrate]

theorem State.attemptClear_fld (s : State) (retry : Nat) (hx : x.addr ≠ Reg.ISL_LINK_STATE) : (s.attemptClear retry).fld x = s.fld x := by
  rw [State.attemptClear, State.fld_put_apart ⟨by decide, Or.inl hx.symm⟩, State.scramble_fld]
  rfl

/-- What clearing the link keeps and what it forgets. -/
theorem State.attemptClear_state (s : State) (retry : Nat) :
    ∃ r ph, s.attemptClear retry = { s with regs := r, isl := s.linkClear.isl, phy := ph } := by
  obtain ⟨ph, heq⟩ := s.linkClear.scramble_phy false
  rw [State.attemptClear, heq]
  exact ⟨_, ph, rfl⟩

theorem State.attemptClear_lane (s : State) (retry : Nat) (l : Nat) : (s.attemptClear retry).lane l =
    if l < 16 then { s.lane l with scrambled := false, needSeed := false } else s.lane l := by
  rw [State.lane, State.attemptClear, (State.put_onlyRegs _ _ _).phy_eq, ← State.lane, State.scramble_lane]
  rfl

theorem State.attemptClear_bcActive (s : State) (retry : Nat) : (s.attemptClear retry).bcActive = s.bcActive := by
  have hfld : ∀ l off lo w, (s.attemptClear retry).fld ⟨phyBase l + off, lo, w⟩ = s.fld ⟨phyBase l + off, lo, w⟩ := fun l off lo w =>
    s.attemptClear_fld retry fun hc => absurd (phyBase_page l off) (by rw [show phyBase l + off = _ from hc]; decide)
  have hlane : (s.attemptClear retry).lane laneBcRx = s.lane laneBcRx := (s.attemptClear_lane retry _).trans (if_neg (by decide))
  simp only [State.bcActive, State.laneCarries, State.laneInL0, State.laneCur, State.looped, State.flag, hlane, Reg.PHY_LSTATE_CUR,
    Reg.PHY_LSTATE, Reg.PHY_PRBS_LOOP, Reg.PHY_PRBS, Reg.PHY_RXSTAT_EI, Reg.PHY_RXSTAT, hfld]

/-- The attempt's time starts. -/
def State.detectSeen (s : State) : State := { s with isl := { s.isl with since := s.now, hold := false } }

theorem State.detectRuns_active (hlink : s.link = lkDETECT) (hhold : s.isl.hold = true) (hactive : s.bcActive = true) :
    s.detectRuns = s.detectSeen.capsSend := if_pos ⟨hlink, hhold, hactive⟩

theorem State.detectRuns_idle (hactive : s.bcActive = false) : s.detectRuns = s :=
  if_neg fun h => absurd h.2.2 (by rw [hactive]; decide)

/-- The attempt's state before its frames leave. -/
theorem State.attemptHeld_isl (s : State) (retry : Nat) : ((s.attemptClear retry).attemptHeld retry).isl =
    { s.linkClear.isl with since := s.now, capLanes := s.lanesLimit, capRate := s.rateLimit' retry, hold := true } := by
  have hfld : ∀ x : Fld, x.addr ≠ Reg.ISL_LINK_STATE → (s.attemptClear retry).fld x = s.fld x := fun x hx => s.attemptClear_fld retry hx
  rw [State.attemptHeld, State.lanesLimit_congr hfld, State.rateLimit'_congr hfld]
  obtain ⟨r, ph, heq⟩ := s.attemptClear_state retry
  rw [heq]

theorem State.attempt_attempted (s : State) (retry : Nat) : Attempted retry s (s.attempt retry) := by
  rw [State.attempt_eq]
  have hisl := s.attemptHeld_isl retry
  have hstate := s.attemptClear_state retry
  have hlane : ∀ l, ((s.attemptClear retry).attemptHeld retry).lane l =
      if l < 16 then { s.lane l with scrambled := false, needSeed := false } else s.lane l := fun l =>
    (State.attemptHeld_lane _ _ _).trans (s.attemptClear_lane retry l)
  have hrd : ∀ a, a ≠ Reg.ISL_LINK_STATE → ((s.attemptClear retry).attemptHeld retry).rd a = s.rd a := fun a ha => by
    rw [State.attemptHeld_rd, State.attemptClear, State.rd_put_other ha.symm, State.scramble_rd]; rfl
  have hactive : ((s.attemptClear retry).attemptHeld retry).bcActive = s.bcActive :=
    (State.attemptHeld_bcActive _ _).trans (s.attemptClear_bcActive retry)
  have hretry : ((s.attemptClear retry).attemptHeld retry).fld Reg.ISL_LINK_STATE_RETRY = retry % 4 := by
    rw [State.attemptHeld_fld, State.attemptClear]
    exact State.fld_put_mod (by decide)
  have hrisen : Risen s ((s.attemptClear retry).attemptHeld retry) := fun p b _ h => by
    rw [raised, State.attemptHeld_fld, State.attemptClear_fld _ _ (irqRaw_ne (by decide)).symm]; exact h
  have hform : ∃ r ph i, (s.attemptClear retry).attemptHeld retry = { s with regs := r, isl := i, phy := ph } := by
    obtain ⟨r, ph, heq⟩ := hstate
    exact ⟨r, ph, _, by rw [State.attemptHeld, heq]⟩
  generalize (s.attemptClear retry).attemptHeld retry = u at hisl hlane hrd hactive hretry hrisen hform
  have hset := u.setLink_work lkDETECT
  have hlink := u.setLink_link lkDETECT (by decide)
  generalize u.setLink lkDETECT = v at hset hlink
  have hvisl : v.isl = { u.isl with rises := v.isl.rises } := hset.isl_eq
  have hvact : v.bcActive = s.bcActive := hset.bcActive_eq.trans hactive
  have hvlane : ∀ l, v.lane l = { s.lane l with
      rd := (v.lane l).rd, scrambled := if l < 16 then false else (s.lane l).scrambled, needSeed := if l < 16 then false else (s.lane l).needSeed } := by
    intro l
    rw [hset.lane l, hlane l]
    split <;> rfl
  have hvretry : v.fld Reg.ISL_LINK_STATE_RETRY = retry % 4 := (hset.upper _ rfl (by decide)).trans hretry
  have hvrd : ∀ a, a / 0x1000 ∉ bcPages → a ≠ Reg.ISL_LINK_STATE → v.rd a = s.rd a := fun a ha hne => (hset.rd a ha hne).trans (hrd a hne)
  have hvform : ∃ r g o ph ij c i, v = { s with regs := r, nv := { s.nv with log := g }, isl := i, out := o, phy := ph, inj := ij, clk := c } := by
    obtain ⟨_, _, _, rfl⟩ := hform
    obtain ⟨r, g, e, o, ph, ij, c, heq⟩ := hset.state
    exact ⟨r, g, o, ph, ij, c, _, heq⟩
  have hvrisen := hrisen.trans hset.risen
  clear hset hrisen hform hretry hrd hlane hactive
  cases hbc : s.bcActive with
  | false =>
    rw [State.detectRuns_idle (hvact.trans hbc)]
    refine ⟨hvform, ?_, hvrd, hvlane, hvrisen, hlink, hvretry⟩
    rw [hvisl, hisl, State.attemptIsl, hbc]
    rfl
  | true =>
    have hhold : v.isl.hold = true := by rw [hvisl, hisl]
    have hnow : v.now = s.now := by obtain ⟨_, _, _, _, _, _, _, rfl⟩ := hvform; rfl
    rw [State.detectRuns_active hlink hhold (hvact.trans hbc)]
    have hsent := v.detectSeen.capsSend_bcWork
    have hseen : v.detectSeen.isl = { v.isl with since := v.now, hold := false } := rfl
    have hkept : ∀ a, v.detectSeen.rd a = v.rd a := fun a => rfl
    have hlanes : ∀ l, v.detectSeen.lane l = v.lane l := fun l => rfl
    have hform : ∃ i, v.detectSeen = { v with isl := i } := ⟨_, rfl⟩
    generalize v.detectSeen = x at hsent hseen hkept hlanes hform
    have hfld : ∀ y : Fld, x.fld y = v.fld y := fun y => by rw [State.fld, hkept, State.fld]
    refine ⟨?_, ?_, fun a ha hne => ((hsent.rd a ha hne).trans (hkept a)).trans (hvrd a ha hne), fun l => ?_,
      hvrisen.trans ((Risen.trans (fun _ _ _ h => (hfld _).trans h)) hsent.risen), (hsent.link.trans (hfld _)).trans hlink,
      ((hsent.upper _ rfl (by decide)).trans (hfld _)).trans hvretry⟩
    · obtain ⟨_, rfl⟩ := hform
      obtain ⟨_, _, _, _, _, _, _, rfl⟩ := hvform
      obtain ⟨r, g, e, o, ph, ij, c, heq⟩ := hsent.state
      exact ⟨r, g, o, ph, ij, c, _, heq⟩
    · rw [hsent.isl_eq, hseen, hvisl, hisl, hnow, State.attemptIsl, hbc]
      rfl
    · rw [hsent.lane l, hlanes, hvlane l]

end Sys2Proof.Machine
end

section
/-! PROOFS. Control rows of the source link: their copies, what is ignored, and misaligned rows (R62, R63, R66). -/

namespace Sys2Proof.Machine

variable {s t u : State} {a b k l n p : Nat} {w : Word} {x : Fld} {copies data : List (List Byte)} {bad : Bool}

/-! Copies (R62). -/

theorem crcCnt_unit : ∀ k, k < 16 → unitOfPage (Reg.ISL_LANE_CTL_CRC_CNT k / 0x1000) = some .ISL_LANE := by decide

/-- A lane of the link has no SAT interrupt: its counter stands alone. -/
theorem State.bump_crcCnt (s : State) (hk : k < 16) : s.bump (Reg.ISL_LANE_CTL_CRC_CNT k) =
    s.put (wholeFld (Reg.ISL_LANE_CTL_CRC_CNT k)) (satAdd (2 ^ 32 - 1) (s.fld (wholeFld (Reg.ISL_LANE_CTL_CRC_CNT k))) 1) := by
  unfold State.bump State.bumpBy
  have hunit : unitOfPage ((wholeFld (Reg.ISL_LANE_CTL_CRC_CNT k)).addr / 0x1000) = some .ISL_LANE := crcCnt_unit k hk
  dsimp only
  rw [hunit]
  exact ite_id _

theorem crcCnt_ne (h : a / 0x1000 < 0x11 ∨ 0x21 ≤ a / 0x1000) (hk : k < 16) : Reg.ISL_LANE_CTL_CRC_CNT k ≠ a := by
  rintro rfl
  simp only [Reg.ISL_LANE_CTL_CRC_CNT] at h
  omega

/-- What the failing copies on the first lanes leave. -/
structure Copied (copies : List (List Byte)) (n : Nat) (s t : State) : Prop where
  state : ∃ r, t = { s with regs := r }
  rd : ∀ a, a / 0x1000 < 0x11 ∨ 0x21 ≤ a / 0x1000 → t.rd a = s.rd a
  counts : ∀ k, k < n → counted s t (Reg.ISL_LANE_CTL_CRC_CNT k) (if blockGood (copyOn copies k) then 0 else 1)
  later : ∀ k, n ≤ k → t.rd (Reg.ISL_LANE_CTL_CRC_CNT k) = s.rd (Reg.ISL_LANE_CTL_CRC_CNT k)

theorem counted_none (h : t.rd a = s.rd a) : counted s t a 0 := by
  have hlt := (s.rd a).isLt
  rw [counted, h]
  omega

theorem State.each_copied (s : State) (copies : List (List Byte)) : ∀ n, n ≤ 16 → Copied copies n s
    (s.each (List.range n) (fun k s => s.bumpIf (!blockGood (copyOn copies k)) (Reg.ISL_LANE_CTL_CRC_CNT k)))
  | 0, _ => ⟨⟨s.regs, rfl⟩, fun _ _ => rfl, fun _ h => absurd h (Nat.not_lt_zero _), fun _ _ => rfl⟩
  | n + 1, hn => by
    have ih := State.each_copied s copies n (by omega)
    rw [State.each_succ]
    generalize s.each (List.range n) _ = v at ih
    have hcnt : ∀ k, k ≠ n → Reg.ISL_LANE_CTL_CRC_CNT n ≠ Reg.ISL_LANE_CTL_CRC_CNT k := fun k hk => by
      simp only [Reg.ISL_LANE_CTL_CRC_CNT]; omega
    unfold State.bumpIf
    cases hgood : blockGood (copyOn copies n) with
    | true =>
      refine ⟨ih.state, ih.rd, fun k hk => ?_, fun k hk => ih.later k (by omega)⟩
      by_cases hkn : k = n
      · subst hkn; rw [if_pos hgood]; exact counted_none (ih.later k le_rfl)
      · exact ih.counts k (by omega)
    | false =>
      rw [if_pos Bool.not_false]
      have hraw : ∀ k, Reg.HDR_IRQ_RAW (hdrPage (Reg.ISL_LANE_CTL_CRC_CNT k / 0x1000)) ≠ Reg.ISL_LANE_CTL_CRC_CNT k := fun k hc =>
        irqRaw_ne (a := Reg.ISL_LANE_CTL_CRC_CNT k) (by simp only [Reg.ISL_LANE_CTL_CRC_CNT]; omega) hc.symm
      have hself := State.rd_bump_toNat (s := v) (hraw n)
      have hput := v.bump_crcCnt (k := n) (by omega)
      have hother : ∀ a, Reg.ISL_LANE_CTL_CRC_CNT n ≠ a → (v.bump (Reg.ISL_LANE_CTL_CRC_CNT n)).rd a = v.rd a := fun a ha => by
        rw [hput]; exact State.rd_put_other ha
      refine ⟨?_, fun a ha => (hother a (crcCnt_ne ha (by omega))).trans (ih.rd a ha), fun k hk => ?_, fun k hk =>
        (hother _ (hcnt k (by omega))).trans (ih.later k (by omega))⟩
      · obtain ⟨r, rfl⟩ := ih.state
        exact ⟨_, hput⟩
      · by_cases hkn : k = n
        · subst hkn
          rw [if_neg (by rw [hgood]; decide), counted, hself, ih.later k le_rfl]
        · rw [counted, hother _ (hcnt k hkn)]
          exact ih.counts k (by omega)

theorem islLanes_le (s : State) : s.islLanes ≤ 16 := by
  rw [State.islLanes]
  exact (Nat.pow_le_pow_right (by decide) (Nat.min_le_left 4 _)).trans (by decide)

theorem State.ctlCopies_copied (s : State) (copies : List (List Byte)) : Copied copies s.islLanes s (s.ctlCopies copies) :=
  s.each_copied copies _ (islLanes_le s)

/-! A row (R62, R66). -/

/-- A row is counted at its lanes, and ends a run of skipped and of misaligned rows. -/
def State.rowSeen (s : State) (copies : List (List Byte)) : State :=
  { s.ctlCopies copies with isl := { (s.ctlCopies copies).isl with skipping := false, misrun := 0 } }

theorem State.rowSeen_rd (ha : a / 0x1000 < 0x11 ∨ 0x21 ≤ a / 0x1000) : (s.rowSeen copies).rd a = s.rd a :=
  (s.ctlCopies_copied copies).rd a ha

theorem State.rowSeen_fld (hx : x.addr / 0x1000 < 0x11 ∨ 0x21 ≤ x.addr / 0x1000) : (s.rowSeen copies).fld x = s.fld x := by
  rw [State.fld, State.rowSeen_rd hx, State.fld]

theorem State.rowSeen_state (s : State) (copies : List (List Byte)) :
    ∃ r, s.rowSeen copies = { s with regs := r, isl := { s.isl with skipping := false, misrun := 0 } } := by
  obtain ⟨r, heq⟩ := (s.ctlCopies_copied copies).state
  exact ⟨r, by rw [State.rowSeen, heq]⟩

theorem State.rowSeen_counts (hk : k < s.islLanes) :
    counted s (s.rowSeen copies) (Reg.ISL_LANE_CTL_CRC_CNT k) (if blockGood (copyOn copies k) then 0 else 1) :=
  (s.ctlCopies_copied copies).counts k hk

theorem State.rowSeen_gate (hp : p < 0x11) (hdr : hdrPage p = p) : (s.rowSeen copies).gateClosed p = s.gateClosed p :=
  State.gateClosed_congr (State.rowSeen_rd (Or.inl (by rw [HDR_CTRL_page, hdr]; exact hp)))

/-- What a row does by its CTYPE (R66). -/
def State.rowActs (s : State) (ctype : Nat) (b : List Byte) (data : List (List Byte)) (bad : Bool) : State :=
  if ctype = rowIDLE ∨ ctype = rowTS1 ∨ ctype = rowALN then s
  else if ctype = rowPIP then s.pipRow (leField b 0 4) (leField b 4 4) (leField b 8 2)
  else if ctype = rowSLEEP then s.sleepRow (byteAt b 0)
  else if ctype = rowWAKE then s.wakeRow (byteAt b 0) (byteAt b 1)
  else if ctype = rowREGION then
    s.regionCtl (leField b 0 2) (leField b 2 2) (leField b 4 2) (leField b 6 2) (bit (byteAt b 8) 0)
  else if ctype = rowTABLE then
    s.tablePacket (byteAt b 0 % 64) (leField b 1 4) (leField b 5 2) (leField b 7 2) (destripe (data.take s.islLanes)) bad
  else if ctype = rowMETA then s.metaRow b
  else s.ctlErr

theorem islLanes_of_fld (h : t.fld Reg.ISL_LINK_STATE_LANES = s.fld Reg.ISL_LINK_STATE_LANES) : t.islLanes = s.islLanes := by
  rw [State.islLanes, h, State.islLanes]

theorem State.rowSeen_islLanes (s : State) (copies : List (List Byte)) : (s.rowSeen copies).islLanes = s.islLanes :=
  islLanes_of_fld (State.rowSeen_fld (by decide))

theorem State.ctlRow_none (hrun : s.rowsRun = true) (h : rowAccepted s.islLanes copies = none) :
    s.ctlRow copies = ((s.rowSeen copies).ctlErr, none) := by
  have hseen : rowAccepted (s.rowSeen copies).islLanes copies = none := by rw [s.rowSeen_islLanes]; exact h
  unfold State.ctlRow
  rw [if_neg (by rw [hrun]; decide)]
  dsimp only
  split
  · rfl
  · next heq => exact absurd (heq.symm.trans hseen) (by simp)

theorem State.ctlRow_some {r : Nat × List Byte} (hrun : s.rowsRun = true) (h : rowAccepted s.islLanes copies = some r) :
    s.ctlRow copies = (s.rowSeen copies, some r) := by
  have hseen : rowAccepted (s.rowSeen copies).islLanes copies = some r := by rw [s.rowSeen_islLanes]; exact h
  unfold State.ctlRow
  rw [if_neg (by rw [hrun]; decide)]
  dsimp only
  split
  · next heq => exact absurd (heq.symm.trans hseen) (by simp)
  · next y heq =>
    obtain rfl : y = r := Option.some.inj (heq.symm.trans hseen)
    rfl

theorem State.controlRow_some {r : Nat × List Byte} (hrun : s.rowsRun = true) (h : rowAccepted s.islLanes copies = some r) :
    s.controlRow copies data bad = (s.rowSeen copies).rowActs r.1 r.2 data bad := by
  unfold State.controlRow State.rowActs
  simp only [State.ctlRow_some hrun h]

theorem State.controlRow_taken {ctype : Nat} {b : List Byte} (h : rowTaken s copies ctype b) :
    s.controlRow copies data bad = (s.rowSeen copies).rowActs ctype b data bad := State.controlRow_some h.1 h.2

/-- A row that is ignored counts in CTL_ERR. -/
theorem State.controlRow_ignored (hrun : s.rowsRun = true) (h : rowAccepted s.islLanes copies = none ∨
    ∃ c b, rowAccepted s.islLanes copies = some (c, b) ∧ c ∉ rowTypes) : s.controlRow copies data bad = (s.rowSeen copies).ctlErr := by
  rcases h with hnone | ⟨c, b, hsome, hc⟩
  · unfold State.controlRow
    simp only [State.ctlRow_none hrun hnone]
  · simp only [rowTypes, List.mem_cons, List.not_mem_nil, or_false, not_or] at hc
    obtain ⟨hidle, hpip, hsleep, hwake, hregion, htable, hts1, haln, hmeta⟩ := hc
    rw [State.controlRow_some hrun hsome]
    simp only [State.rowActs, hidle, hpip, hsleep, hwake, hregion, htable, hts1, haln, hmeta, or_self, if_false]

/-! What a row that is ignored leaves. -/

theorem State.ctlErr_onlyRegs (s : State) : OnlyRegs s s.ctlErr := (s.bump_onlyRegs _).trans (State.raise_onlyRegs _ _ _)

theorem State.ctlErr_rd (h : Reg.ISL_CTL_ERR ≠ a ∧ Reg.HDR_IRQ_RAW (hdrPage 0x10) ≠ a) : s.ctlErr.rd a = s.rd a :=
  (State.raise_rd_other _ _ _ _ h.2).trans (State.rd_bump_other ⟨h.1, h.2⟩)

theorem State.ctlErr_counts (s : State) : counted s s.ctlErr Reg.ISL_CTL_ERR 1 :=
  counted_of_rd (State.raise_rd_other _ _ _ _ (by decide)) (by decide)

theorem State.ctlErr_raises (hgate : s.gateClosed 0x10 = false) : raised s.ctlErr 0x10 9 :=
  State.fld_raise_self ((State.gateClosed_bump (by decide)).trans hgate) (by decide)

theorem counted_trans_left (h : u.rd a = t.rd a) {n : Nat} (g : counted s t a n) : counted s u a n := by rw [counted, h]; exact g
theorem counted_trans_right (h : t.rd a = s.rd a) {n : Nat} (g : counted t u a n) : counted s u a n := by
  rw [counted, ← h]; exact g

theorem OnlyRegs.isl_eq (h : OnlyRegs s t) : t.isl = { s.isl with rises := t.isl.rises } := by obtain ⟨_, _, _, rfl⟩ := h; rfl

theorem crcCnt_ne_irq (k : Nat) : Reg.HDR_IRQ_RAW (hdrPage 0x10) ≠ Reg.ISL_LANE_CTL_CRC_CNT k := fun hc =>
  irqRaw_ne (a := Reg.ISL_LANE_CTL_CRC_CNT k) (by simp only [Reg.ISL_LANE_CTL_CRC_CNT]; omega) hc.symm

theorem crcCnt_ne_ctlErr (k : Nat) : Reg.ISL_CTL_ERR ≠ Reg.ISL_LANE_CTL_CRC_CNT k := by
  simp only [Reg.ISL_CTL_ERR, Reg.ISL_LANE_CTL_CRC_CNT]; omega

theorem exec_rowIgnored (hlive : s.boot.resetLow = false) (hrun : s.rowsRun = true) (hgate : s.gateClosed 0x10 = false)
    (h : rowAccepted s.islLanes copies = none ∨ ∃ c b, rowAccepted s.islLanes copies = some (c, b) ∧ c ∉ rowTypes) :
    ∃ t, exec (.controlRowIgnored copies) s = .next t ∧ counted s t Reg.ISL_CTL_ERR 1 ∧ raised t 0x10 9 ∧
      (∀ k, k < s.islLanes → counted s t (Reg.ISL_LANE_CTL_CRC_CNT k) (if blockGood (copyOn copies k) then 0 else 1)) ∧
      t.isl.skipping = false ∧ t.isl.misrun = 0 ∧ t.link = s.link := by
  have hexec := (exec_controlRowIgnored s copies).trans (State.unheld_live hlive)
  rw [State.controlRow_ignored hrun h] at hexec
  have hcount := counted_trans_right (State.rowSeen_rd (by decide)) (s.rowSeen copies).ctlErr_counts
  have hraised := State.ctlErr_raises ((State.rowSeen_gate (by decide) (by decide)).trans hgate) (s := s.rowSeen copies)
  have hcopies : ∀ k, k < s.islLanes → counted s (s.rowSeen copies).ctlErr (Reg.ISL_LANE_CTL_CRC_CNT k) _ := fun k hk =>
    counted_trans_left (State.ctlErr_rd ⟨crcCnt_ne_ctlErr k, crcCnt_ne_irq k⟩) (State.rowSeen_counts (copies := copies) hk)
  have hisl : (s.rowSeen copies).ctlErr.isl.skipping = false ∧ (s.rowSeen copies).ctlErr.isl.misrun = 0 := by
    rw [(s.rowSeen copies).ctlErr_onlyRegs.isl_eq]; exact ⟨rfl, rfl⟩
  have hlink : (s.rowSeen copies).ctlErr.link = s.link := by
    rw [State.link, State.fld, State.ctlErr_rd (by decide), State.rowSeen_rd (by decide)]; rfl
  generalize (s.rowSeen copies).ctlErr = t at hexec hcount hraised hcopies hisl hlink
  exact ⟨_, hexec, hcount, hraised, hcopies, hisl.1, hisl.2, hlink⟩

theorem exec_idle (hlive : s.boot.resetLow = false) {b : List Byte} (h : rowTaken s copies rowIDLE b) :
    ∃ t, exec (.idleRow copies) s = .next t ∧ t.rd Reg.ISL_CTL_ERR = s.rd Reg.ISL_CTL_ERR ∧
      (∀ k, k < s.islLanes → counted s t (Reg.ISL_LANE_CTL_CRC_CNT k) (if blockGood (copyOn copies k) then 0 else 1)) ∧
      t = { s with regs := t.regs, isl := { s.isl with skipping := false, misrun := 0 } } := by
  obtain ⟨r, hstate⟩ := s.rowSeen_state copies
  have hsteady : Steady s (s.rowSeen copies) := by rw [hstate]; exact ⟨Nat.le_refl _, rfl, rfl⟩
  have hexec : exec (.idleRow copies) s = .next (s.rowSeen copies) := by
    have hrow : s.controlRow copies [] false = s.rowSeen copies := (State.controlRow_taken h).trans (if_pos (Or.inl rfl))
    rw [exec_idleRow, State.unheld_steady _ _ hlive (by rw [hrow]; exact hsteady), hrow]
  exact ⟨_, hexec, State.rowSeen_rd (by decide), fun k hk => State.rowSeen_counts hk, by rw [hstate]⟩

/-! Misaligned rows (R63). -/

/-- One more misaligned row in a row. -/
def State.misrunOn (s : State) : State := { s with isl := { s.isl with misrun := s.isl.misrun + 1 } }

theorem State.alignErr_link (s : State) : (s.bump Reg.ISL_ALIGN_ERR).link = s.link := State.fld_bump_other (by decide)

theorem State.alignErr_misrun (s : State) : (s.bump Reg.ISL_ALIGN_ERR).isl.misrun = s.isl.misrun := by
  rw [(s.bump_onlyRegs _).isl_eq]

theorem exec_misaligned_few (hlive : s.boot.resetLow = false) (hrun : s.rowsRun = true) (h : s.isl.misrun < 3 ∨ s.link ≠ lkUP) :
    ∃ t, exec .misalignedRow s = .next t ∧ counted s t Reg.ISL_ALIGN_ERR 1 ∧
      t = { s with
        regs := t.regs, nv := { s.nv with log := t.nv.log }
        isl := { s.isl with misrun := s.isl.misrun + 1, rises := t.isl.rises } } := by
  have hrow : s.misaligned = (s.bump Reg.ISL_ALIGN_ERR).misrunOn := by
    unfold State.misaligned
    rw [if_neg (by rw [hrun]; decide)]
    refine if_neg ?_
    rw [s.alignErr_misrun, s.alignErr_link]
    omega
  obtain ⟨r, g, e, hstate⟩ := s.bump_onlyRegs Reg.ISL_ALIGN_ERR
  have hcount : counted s (s.bump Reg.ISL_ALIGN_ERR).misrunOn Reg.ISL_ALIGN_ERR 1 := counted_of_rd rfl (by decide)
  have hsteady : Steady s (s.bump Reg.ISL_ALIGN_ERR).misrunOn := by rw [hstate]; exact ⟨Nat.le_refl _, rfl, rfl⟩
  refine ⟨_, (State.unheld_steady s State.misaligned hlive (by rw [hrow]; exact hsteady)).trans (by rw [hrow]), hcount, ?_⟩
  rw [hstate]
  rfl

theorem exec_misaligned_fourth (hlive : s.boot.resetLow = false) (hrun : s.rowsRun = true) (hmany : 3 ≤ s.isl.misrun)
    (hup : s.link = lkUP) (hgate : s.gateClosed 0x10 = false) :
    ∃ t, exec .misalignedRow s = .next t ∧ counted s t Reg.ISL_ALIGN_ERR 1 ∧
      raised t 0x10 1 ∧ t.link = lkDETECT ∧ t.inSref = true ∧ t.fld Reg.ISL_LINK_STATE_RETRY = 0 := by
  have hlink := s.alignErr_link.trans hup
  have hrow : s.misaligned = ((s.bump Reg.ISL_ALIGN_ERR).linkGone true).attempt 0 := by
    unfold State.misaligned
    rw [if_neg (by rw [hrun]; decide)]
    refine (if_pos ⟨?_, hlink⟩).trans (if_pos (Or.inl hlink))
    rw [s.alignErr_misrun]; exact hmany
  have hexec := (exec_misalignedRow s).trans (State.unheld_live hlive)
  rw [hrow] at hexec
  have hcount : counted s (s.bump Reg.ISL_ALIGN_ERR) Reg.ISL_ALIGN_ERR 1 := counted_of_rd rfl (by decide)
  have hopen : (s.bump Reg.ISL_ALIGN_ERR).gateClosed 0x10 = false := (State.gateClosed_bump (by decide)).trans hgate
  generalize s.bump Reg.ISL_ALIGN_ERR = u at hexec hcount hlink hopen
  obtain ⟨hdown, hsref⟩ := State.linkGone_live (Or.inl hlink) hopen
  have hgone := u.linkGone_srefWork true
  generalize u.linkGone true = v at hexec hdown hsref hgone
  have hattempt := v.attempt_attempted 0
  generalize v.attempt 0 = t at hexec hattempt
  refine ⟨_, hexec, counted_trans_left (u := s.left t) ((hattempt.rd _ (by decide) (by decide)).trans (hgone.rd _ (by decide) (by decide))) hcount,
    hattempt.risen _ _ (by decide) hdown, hattempt.link, ?_, hattempt.retry⟩
  change t.inSref = true
  rw [State.inSref, State.srefState, State.fld, hattempt.rd _ (by decide) (by decide)]
  exact hsref

/-- Settles O22: a row goes through its copies' counts first, and a link that is lost through self-refresh into an attempt. -/
theorem controlRows : Obligations.ControlRows :=
  ⟨fun _ _ hlive hrun hgate h => exec_rowIgnored hlive hrun hgate h, fun _ _ _ hlive h => exec_idle hlive h,
    fun _ hlive hrun => ⟨fun h => exec_misaligned_few hlive hrun h, fun hmany hup hgate => exec_misaligned_fourth hlive hrun hmany hup hgate⟩⟩

end Sys2Proof.Machine
end

section
/-! PROOFS. Sleep and wake of the source link, and what its main lanes are asked for (R85, R87, R88). -/

namespace Sys2Proof.Machine

variable {s t u : State} {a b k l n p rate : Nat} {w : Word} {x : Fld} {copies : List (List Byte)}

/-! What lanes are asked for (R52). -/

theorem State.laneAim_proto (s : State) (l j : Nat) : ((s.laneAim l).lane j).proto = (s.lane j).proto := by
  have hmap : ∀ (v : State) (g : Lane → Lane), (∀ y, (g y).proto = y.proto) → ((v.mapLane l g).lane j).proto = (v.lane j).proto := by
    intro v g hg
    rw [State.lane_mapLane]
    split
    exacts [hg _, rfl]
  unfold State.laneAim
  dsimp only
  split
  · split
    · rfl
    · exact hmap s (fun y => { y with trans := some (s.laneTarget l) }) fun _ => rfl
  · split
    · rfl
    · refine (hmap _ (fun y => { y with pend := some (s.laneTarget l) }) fun _ => rfl).trans ?_
      split <;> rfl

theorem State.laneProto_proto (s : State) (l j v : Nat) : ((s.laneProto l v).lane j).proto = if j = l then v else (s.lane j).proto := by
  rw [State.laneProto, State.laneAim_proto, State.lane_mapLane]
  split <;> rfl

/-- What a choice of main lanes leaves: registers of their PHY blocks, and what each is asked for. -/
structure MainSet (n m : Nat) (s t : State) : Prop where
  work : LaneWork s t
  rd : ∀ a, a / 0x1000 < 0x11 ∨ 0x21 ≤ a / 0x1000 → t.rd a = s.rd a
  proto : ∀ k, (t.lane k).proto = if k < m then (if k < n then 0 else 2) else (s.lane k).proto

theorem isl_phy_page (hk : k < 16) {off : Nat} (hoff : off < 0xC00) : (phyBase (laneIsl k) + off) / 0x1000 = 0x11 + k := by
  rw [laneIsl, phyBase, if_pos hk]
  omega

theorem State.laneProto_isl_rd (s : State) (hk : k < 16) (v : Nat) (ha : a / 0x1000 < 0x11 ∨ 0x21 ≤ a / 0x1000) :
    (s.laneProto (laneIsl k) v).rd a = s.rd a := by
  have hne : ∀ off, off < 0xC00 → phyBase (laneIsl k) + off ≠ a := by
    rintro off hoff rfl
    rw [isl_phy_page hk hoff] at ha
    omega
  exact State.laneProto_rd s (hne _ (by decide)) (hne _ (by decide))

theorem State.mainLanes_prefix (s : State) (n rate : Nat) : ∀ m, m ≤ 16 → MainSet n m s (s.each (List.range m) (fun k s =>
    if k < n then (s.put (Reg.PHY_RATE_CUR (phyBase (laneIsl k))) rate).laneProto (laneIsl k) 0 else s.laneProto (laneIsl k) 2))
  | 0, _ => ⟨LaneWork.refl s, fun _ _ => rfl, fun _ => (if_neg (Nat.not_lt_zero _)).symm⟩
  | m + 1, hm => by
    have ih := State.mainLanes_prefix s n rate m (by omega)
    rw [State.each_succ]
    generalize s.each (List.range m) _ = v at ih
    have hm16 : m < 16 := by omega
    have hproto : ∀ (y : State) (c : Nat), (∀ k, (y.lane k).proto = (v.lane k).proto) → c = (if m < n then 0 else 2) →
        ∀ k, ((y.laneProto (laneIsl m) c).lane k).proto = if k < m + 1 then (if k < n then 0 else 2) else (s.lane k).proto := by
      intro y c hy hc k
      rw [State.laneProto_proto, hy, ih.proto]
      by_cases hkm : k = m
      · subst hkm; rw [laneIsl, if_pos rfl, if_pos (show k < k + 1 by omega), hc]
      · rw [laneIsl, if_neg hkm]
        by_cases hlt : k < m
        · rw [if_pos hlt, if_pos (show k < m + 1 by omega)]
        · rw [if_neg hlt, if_neg (show ¬ k < m + 1 by omega)]
    split
    · next hmn =>
      have hput := v.put_laneWork (Reg.PHY_RATE_CUR (phyBase (laneIsl m))) rate
      refine ⟨(ih.work.trans hput).trans (State.laneProto_laneWork _ _ _), fun a ha => ?_, hproto _ 0 (fun _ => rfl) (if_pos hmn).symm⟩
      rw [State.laneProto_isl_rd _ hm16 _ ha]
      refine (State.rd_put_other ?_).trans (ih.rd a ha)
      rintro rfl
      have hpage := isl_phy_page hm16 (off := 4) (by decide)
      simp only [Reg.PHY_RATE_CUR, Reg.PHY_RATE] at ha
      rw [hpage] at ha
      omega
    · next hmn =>
      exact ⟨ih.work.trans (State.laneProto_laneWork _ _ _), fun a ha => (State.laneProto_isl_rd _ hm16 _ ha).trans (ih.rd a ha),
        hproto _ 2 (fun _ => rfl) (if_neg hmn).symm⟩

theorem State.mainLanes_set (s : State) (n rate : Nat) : MainSet n 16 s (s.mainLanes n rate) := s.mainLanes_prefix n rate 16 (by decide)

theorem MainSet.fld {m : Nat} (h : MainSet n m s t) (hx : x.addr / 0x1000 < 0x11 ∨ 0x21 ≤ x.addr / 0x1000) : t.fld x = s.fld x := by
  rw [State.fld, h.rd _ hx, State.fld]

theorem LaneWork.isl_eq (h : LaneWork s t) : t.isl = s.isl := by obtain ⟨_, _, rfl⟩ := h; rfl
theorem LaneWork.srf_eq (h : LaneWork s t) : t.srf = s.srf := by obtain ⟨_, _, rfl⟩ := h; rfl

/-! Sleep (R87, R88). -/

/-- The link leaves UP or S1 for sleep: what it held of frames is gone, and SLEEP is raised. -/
def State.sleepBegun (s : State) : State := s.linkClear.raise 0x10 3

/-- A frame that is not whole counts as the link leaves UP. -/
def State.sleepFromUp (s : State) (midframe : Bool) : State :=
  ((s.bumpIf midframe Reg.ISL_SLEEP_MIDFRAME).srefLinkLeft).sleepBegun

/-- What the beginning of sleep leaves for the rest of it. -/
structure Asleep (s t : State) : Prop where
  link : t.link = s.link
  host : t.srf.host = s.srf.host
  raised : raised t 0x10 3

theorem State.sleepBegun_asleep (hgate : s.gateClosed 0x10 = false) : Asleep s s.sleepBegun := by
  have honly := s.linkClear.raise_onlyRegs 0x10 3
  refine ⟨State.fld_raise_other (by decide), ?_, State.fld_raise_self hgate (by decide)⟩
  obtain ⟨_, _, _, heq⟩ := honly
  rw [State.sleepBegun, heq]
  rfl

theorem State.bumpIf_onlyRegs (s : State) (c : Bool) (a : Nat) : OnlyRegs s (s.bumpIf c a) := by
  unfold State.bumpIf
  split
  exacts [s.bump_onlyRegs a, OnlyRegs.refl s]

theorem State.fld_bumpIf_other {c : Bool} (h : a ≠ x.addr ∧ Reg.HDR_IRQ_RAW (hdrPage (a / 0x1000)) ≠ x.addr) :
    (s.bumpIf c a).fld x = s.fld x := by
  unfold State.bumpIf
  split
  exacts [State.fld_bump_other h, rfl]

theorem State.gateClosed_bumpIf {c : Bool} (h : a ≠ Reg.HDR_CTRL (hdrPage p) ∧ Reg.HDR_IRQ_RAW (hdrPage (a / 0x1000)) ≠ Reg.HDR_CTRL (hdrPage p)) :
    (s.bumpIf c a).gateClosed p = s.gateClosed p := by
  unfold State.bumpIf
  split
  exacts [State.gateClosed_bump h, rfl]

theorem State.sleepFromUp_asleep (hgate : s.gateClosed 0x10 = false) (c : Bool) : Asleep s (s.sleepFromUp c) := by
  unfold State.sleepFromUp
  have hlink : (s.bumpIf c Reg.ISL_SLEEP_MIDFRAME).link = s.link := State.fld_bumpIf_other (by decide)
  have hhost : (s.bumpIf c Reg.ISL_SLEEP_MIDFRAME).srf = s.srf := by
    obtain ⟨_, _, _, heq⟩ := s.bumpIf_onlyRegs c Reg.ISL_SLEEP_MIDFRAME
    rw [heq]
  have hopen : (s.bumpIf c Reg.ISL_SLEEP_MIDFRAME).gateClosed 0x10 = false := (State.gateClosed_bumpIf (by decide)).trans hgate
  generalize s.bumpIf c Reg.ISL_SLEEP_MIDFRAME = u at hlink hhost hopen
  have hleft := u.srefLinkLeft_srefWork
  have hasleep := State.sleepBegun_asleep ((hleft.gateClosed (by decide)).trans hopen)
  exact ⟨hasleep.link.trans (hleft.link_eq.trans hlink), hasleep.host.trans (u.srefLinkLeft_host.trans (congrArg SrefState.host hhost)),
    hasleep.raised⟩

theorem MainSet.link {m : Nat} (h : MainSet n m s t) : t.link = s.link := h.fld (by decide)

/-- A sleep to S2: every main lane in LOFF, self-refresh under its reason. -/
theorem State.sleepTo2 (hasleep : Asleep s u) (hhost : s.srf.host = false) :
    ∃ t, ((u.mainLanes 0 0).setLink lkS2).srefEvent 2 = t ∧ t.link = lkS2 ∧ t.srefState = 2 ∧ t.fld Reg.SREF_STATE_REASON = 2 ∧
      raised t 0x10 3 ∧ ∀ k, k < 16 → (t.lane k).proto = 2 := by
  have hset := u.mainLanes_set 0 0
  generalize u.mainLanes 0 0 = v at hset
  have hwork := v.setLink_work lkS2
  have hlink := v.setLink_link lkS2 (by decide)
  generalize v.setLink lkS2 = y at hwork hlink
  have hno : y.srf.host = false := by rw [hwork.srf_eq, hset.work.srf_eq, hasleep.host, hhost]
  have hevent := y.srefEvent_srefWork 2
  obtain ⟨hstate, hreason⟩ := y.srefEvent_reason 2 (by decide) (Or.inl hno)
  refine ⟨_, rfl, hevent.link_eq.trans hlink, hstate, hreason, hevent.risen _ _ (by decide) (hwork.risen _ _ (by decide) ?_), fun k hk => ?_⟩
  · exact (hset.fld (by decide)).trans hasleep.raised
  · rw [hevent.lane_eq, hwork.lane k]
    exact (hset.proto k).trans (by rw [if_pos hk, if_neg (Nat.not_lt_zero _)])

/-- What a fast retrain's start leaves. -/
structure FastStarted (kind lanes rate : Nat) (s t : State) : Prop where
  isl : t.isl = { s.isl with fast := kind, fastLanes := lanes, fastRate := rate, since := s.now, ready := 0 }
  rd : ∀ a, a / 0x1000 < 0x11 ∨ 0x21 ≤ a / 0x1000 → t.rd a = s.rd a
  proto : ∀ k, k < 16 → (t.lane k).proto = if k < 2 ^ min 4 lanes then 0 else 2

/-- A fast retrain runs from here. -/
def State.fastRuns (s : State) (kind lanes rate : Nat) : State :=
  { s with isl := { s.isl with fast := kind, fastLanes := lanes, fastRate := rate, since := s.now, ready := 0 } }

theorem State.fastRuns_rd (s : State) (kind lanes rate a : Nat) : (s.fastRuns kind lanes rate).rd a = s.rd a := rfl
theorem State.fastRuns_lane (s : State) (kind lanes rate l : Nat) : (s.fastRuns kind lanes rate).lane l = s.lane l := rfl
theorem State.fastRuns_isl (s : State) (kind lanes rate : Nat) : (s.fastRuns kind lanes rate).isl =
    { s.isl with fast := kind, fastLanes := lanes, fastRate := rate, since := s.now, ready := 0 } := rfl

theorem State.fastStart_eq (s : State) (kind lanes rate : Nat) :
    s.fastStart kind lanes rate = ((s.mainLanes (2 ^ min 4 lanes) rate).scramble false).fastRuns kind lanes rate := rfl

theorem State.fastStart_started (s : State) (kind lanes rate : Nat) : FastStarted kind lanes rate s (s.fastStart kind lanes rate) := by
  have hset := s.mainLanes_set (2 ^ min 4 lanes) rate
  rw [State.fastStart_eq]
  generalize s.mainLanes (2 ^ min 4 lanes) rate = v at hset
  have hrd := v.scramble_rd false
  have hlane := fun l => v.scramble_lane false (l := l)
  obtain ⟨ph, heq⟩ := v.scramble_phy false
  have hisl : (v.scramble false).isl = s.isl := by rw [heq]; exact hset.work.isl_eq
  have hnow : (v.scramble false).now = s.now := by rw [heq]; exact hset.work.now_eq
  generalize v.scramble false = y at hrd hlane hisl hnow
  refine ⟨by rw [State.fastRuns_isl, hisl, hnow], fun a ha => ?_, fun k hk => ?_⟩
  · rw [State.fastRuns_rd, hrd, hset.rd a ha]
  · have hproto := hset.proto k
    rw [if_pos hk] at hproto
    rw [State.fastRuns_lane, hlane k, if_pos hk]
    exact hproto

/-- A sleep to S1: lane 0 alone, at code 0. -/
theorem State.sleepTo1 (hasleep : Asleep s u) (hhost : s.srf.host = false) :
    ∃ t, ((((u.put Reg.ISL_LINK_STATE_LANES 0).put Reg.ISL_LINK_STATE_RATE 0).setLink lkS1).srefEvent 1).fastStart 2 0 0 = t ∧
      t.link = lkS1 ∧ t.srefState = 1 ∧ t.fld Reg.SREF_STATE_REASON = 1 ∧ t.fld Reg.ISL_LINK_STATE_LANES = 0 ∧
      t.fld Reg.ISL_LINK_STATE_RATE = 0 ∧ raised t 0x10 3 ∧ (t.lane 0).proto = 0 ∧ ∀ k, 1 ≤ k → k < 16 → (t.lane k).proto = 2 := by
  have honly := (u.put_onlyRegs Reg.ISL_LINK_STATE_LANES 0).trans (State.put_onlyRegs _ Reg.ISL_LINK_STATE_RATE 0)
  have hlanes : ((u.put Reg.ISL_LINK_STATE_LANES 0).put Reg.ISL_LINK_STATE_RATE 0).fld Reg.ISL_LINK_STATE_LANES = 0 :=
    (State.fld_put_apart (by decide)).trans (State.fld_put_mod (by decide))
  have hrate : ((u.put Reg.ISL_LINK_STATE_LANES 0).put Reg.ISL_LINK_STATE_RATE 0).fld Reg.ISL_LINK_STATE_RATE = 0 :=
    State.fld_put_mod (by decide)
  have hraised : raised ((u.put Reg.ISL_LINK_STATE_LANES 0).put Reg.ISL_LINK_STATE_RATE 0) 0x10 3 :=
    (State.put_risen _ (by decide)) _ _ (by decide) ((State.put_risen _ (by decide)) _ _ (by decide) hasleep.raised)
  have hsrf : ((u.put Reg.ISL_LINK_STATE_LANES 0).put Reg.ISL_LINK_STATE_RATE 0).srf.host = false := by
    obtain ⟨_, _, _, heq⟩ := honly
    rw [heq]
    exact hasleep.host.trans hhost
  generalize (u.put Reg.ISL_LINK_STATE_LANES 0).put Reg.ISL_LINK_STATE_RATE 0 = v at hlanes hrate hraised hsrf
  have hwork := v.setLink_work lkS1
  have hlink := v.setLink_link lkS1 (by decide)
  generalize v.setLink lkS1 = y at hwork hlink
  have hno : y.srf.host = false := by rw [hwork.srf_eq, hsrf]
  have hevent := y.srefEvent_srefWork 1
  obtain ⟨hstate, hreason⟩ := y.srefEvent_reason 1 (by decide) (Or.inl hno)
  generalize y.srefEvent 1 = z at hevent hstate hreason
  have hfast := z.fastStart_started 2 0 0
  have hlow : ∀ f : Fld, f.addr / 0x1000 < 0x11 ∨ 0x21 ≤ f.addr / 0x1000 → (z.fastStart 2 0 0).fld f = z.fld f := fun f hf => by
    rw [State.fld, hfast.rd _ hf, State.fld]
  refine ⟨_, rfl, (hlow _ (by decide)).trans (hevent.link_eq.trans hlink), (hlow _ (by decide)).trans hstate, (hlow _ (by decide)).trans hreason,
    (hlow _ (by decide)).trans ((hevent.fld (by decide) (by decide)).trans ((hwork.upper _ rfl (by decide)).trans hlanes)),
    (hlow _ (by decide)).trans ((hevent.fld (by decide) (by decide)).trans ((hwork.upper _ rfl (by decide)).trans hrate)),
    (hlow _ (by decide)).trans (hevent.risen _ _ (by decide) (hwork.risen _ _ (by decide) hraised)),
    (hfast.proto 0 (by decide)).trans (by decide), fun k hpos hk => (hfast.proto k hk).trans (if_neg (by simp; omega))⟩

/-! The rows SLEEP and WAKE as commands. -/

theorem State.sleepRow_up1 (h : s.link = lkUP) : ∃ c, s.sleepRow 1 =
    (((((s.sleepFromUp c).put Reg.ISL_LINK_STATE_LANES 0).put Reg.ISL_LINK_STATE_RATE 0).setLink lkS1).srefEvent 1).fastStart 2 0 0 := by
  unfold State.sleepRow
  rw [if_neg (by decide), if_pos h]
  dsimp only
  rw [if_pos rfl]
  exact ⟨_, rfl⟩

theorem State.sleepRow_up2 (h : s.link = lkUP) : ∃ c, s.sleepRow 2 = (((s.sleepFromUp c).mainLanes 0 0).setLink lkS2).srefEvent 2 := by
  unfold State.sleepRow
  rw [if_neg (by decide), if_pos h]
  dsimp only
  rw [if_neg (by decide)]
  exact ⟨_, rfl⟩

theorem State.sleepRow_s1 (h : s.link = lkS1) : s.sleepRow 2 = ((s.sleepBegun.mainLanes 0 0).setLink lkS2).srefEvent 2 := by
  unfold State.sleepRow
  rw [if_neg (by decide), if_neg (by rw [h]; decide), if_pos ⟨h, rfl⟩]
  rfl

theorem State.sleepRow_stays (h : s.link = lkS1) : s.sleepRow 1 = s := by
  unfold State.sleepRow
  rw [if_neg (by decide), if_neg (by rw [h]; decide), if_neg fun hc => absurd hc.2 (by decide)]

theorem State.rowSeen_link : (s.rowSeen copies).link = s.link := State.rowSeen_fld (by decide)

theorem State.rowSeen_srf (s : State) (copies : List (List Byte)) : (s.rowSeen copies).srf = s.srf := by
  obtain ⟨r, heq⟩ := s.rowSeen_state copies
  rw [heq]

/-- A row that is taken and found wanting counts in CTL_ERR. -/
theorem ctlErr_row (s : State) (copies : List (List Byte)) :
    counted s (s.rowSeen copies).ctlErr Reg.ISL_CTL_ERR 1 ∧ (s.rowSeen copies).ctlErr.link = s.link :=
  ⟨counted_trans_right (State.rowSeen_rd (by decide)) (s.rowSeen copies).ctlErr_counts, by
    rw [State.link, State.fld, State.ctlErr_rd (by decide), State.rowSeen_rd (by decide)]; rfl⟩

theorem exec_sleep (hlive : s.boot.resetLow = false) {b : List Byte} {level : Nat} (h : rowTaken s copies rowSLEEP b)
    (hlevel : level = byteAt b 0) : exec (.sleepRow copies) s = .next (s.left ((s.rowSeen copies).sleepRow level)) := by
  rw [exec_sleepRow, State.unheld_live hlive, State.controlRow_taken h, hlevel]
  rfl

theorem exec_sleep_cases (hlive : s.boot.resetLow = false) {b : List Byte} {level : Nat} (h : rowTaken s copies rowSLEEP b)
    (hlevel : level = byteAt b 0) (hgate : s.gateClosed 0x10 = false) :
    (level = 1 → s.link = lkUP → s.srf.host = false → ∃ t, exec (.sleepRow copies) s = .next t ∧ t.link = lkS1 ∧
      t.srefState = 1 ∧ t.fld Reg.SREF_STATE_REASON = 1 ∧ t.fld Reg.ISL_LINK_STATE_LANES = 0 ∧
      t.fld Reg.ISL_LINK_STATE_RATE = 0 ∧ raised t 0x10 3 ∧ (t.lane 0).proto = 0 ∧
      ∀ k, 1 ≤ k → k < 16 → (t.lane k).proto = 2) ∧
    (level = 2 → s.link = lkUP ∨ s.link = lkS1 → s.srf.host = false → ∃ t, exec (.sleepRow copies) s = .next t ∧
      t.link = lkS2 ∧ t.srefState = 2 ∧ t.fld Reg.SREF_STATE_REASON = 2 ∧ raised t 0x10 3 ∧
      ∀ k, k < 16 → (t.lane k).proto = 2) ∧
    (level = 1 → s.link = lkS1 → ∃ t, exec (.sleepRow copies) s = .next t ∧ t.link = lkS1 ∧
      t.rd Reg.ISL_CTL_ERR = s.rd Reg.ISL_CTL_ERR) ∧
    (level ≠ 1 → level ≠ 2 → ∃ t, exec (.sleepRow copies) s = .next t ∧ counted s t Reg.ISL_CTL_ERR 1 ∧
      t.link = s.link) := by
  have hexec := exec_sleep hlive h hlevel
  have hlink := State.rowSeen_link (s := s) (copies := copies)
  have hopen : (s.rowSeen copies).gateClosed 0x10 = false := (State.rowSeen_gate (by decide) (by decide)).trans hgate
  have hsrf := s.rowSeen_srf copies
  have herr := ctlErr_row s copies
  have hquiet : (s.rowSeen copies).rd Reg.ISL_CTL_ERR = s.rd Reg.ISL_CTL_ERR := State.rowSeen_rd (by decide)
  clear hlevel h hgate
  generalize s.rowSeen copies = u at hexec hlink hopen hsrf herr hquiet
  refine ⟨?_, ?_, ?_, fun h1 h2 => ?_⟩
  · rintro rfl hup hhost
    obtain ⟨c, hrow⟩ := State.sleepRow_up1 (hlink.trans hup)
    obtain ⟨t, ht, heffect⟩ := State.sleepTo1 (State.sleepFromUp_asleep hopen c) (by rw [hsrf]; exact hhost)
    rw [hrow, ht] at hexec
    exact ⟨_, hexec, heffect⟩
  · rintro rfl hup hhost
    rcases hup with hup | hs1
    · obtain ⟨c, hrow⟩ := State.sleepRow_up2 (hlink.trans hup)
      obtain ⟨t, ht, heffect⟩ := State.sleepTo2 (State.sleepFromUp_asleep hopen c) (by rw [hsrf]; exact hhost)
      rw [hrow, ht] at hexec
      exact ⟨_, hexec, heffect⟩
    · obtain ⟨t, ht, heffect⟩ := State.sleepTo2 (State.sleepBegun_asleep hopen) (by rw [hsrf]; exact hhost)
      rw [State.sleepRow_s1 (hlink.trans hs1), ht] at hexec
      exact ⟨_, hexec, heffect⟩
  · rintro rfl hs1
    rw [State.sleepRow_stays (hlink.trans hs1)] at hexec
    exact ⟨_, hexec, hlink.trans hs1, hquiet⟩
  · have hrow : u.sleepRow level = u.ctlErr := if_pos ⟨h1, h2⟩
    rw [hrow] at hexec
    exact ⟨_, hexec, herr.1, herr.2⟩

theorem exec_wake (hlive : s.boot.resetLow = false) {b : List Byte} (h : rowTaken s copies rowWAKE b) :
    exec (.wakeRow copies) s = .next (s.left ((s.rowSeen copies).wakeRow (byteAt b 0) (byteAt b 1))) := by
  rw [exec_wakeRow, State.unheld_live hlive, State.controlRow_taken h]
  rfl

theorem State.left_isl (s t : State) : (s.left t).isl = t.isl := rfl

theorem exec_wake_cases (hlive : s.boot.resetLow = false) {b : List Byte} (h : rowTaken s copies rowWAKE b) :
    (s.link = lkS1 → byteAt b 0 ≤ 4 → byteAt b 1 ≤ 7 → s.flag Reg.ISL_EQ_CFG_FAST_WAKE = true →
      ∃ t, exec (.wakeRow copies) s = .next t ∧ t.isl.fast = 1 ∧ t.isl.fastLanes = byteAt b 0 ∧
        t.isl.fastRate = byteAt b 1 ∧ t.isl.wakeDue = true ∧ t.isl.since = s.now ∧
        ∀ k, k < 16 → (t.lane k).proto = if k < 2 ^ byteAt b 0 then 0 else 2) ∧
    (s.link ≠ lkS1 ∨ 4 < byteAt b 0 ∨ 7 < byteAt b 1 →
      ∃ t, exec (.wakeRow copies) s = .next t ∧ counted s t Reg.ISL_CTL_ERR 1 ∧ t.link = s.link) := by
  have hexec := exec_wake hlive h
  have hlink := State.rowSeen_link (s := s) (copies := copies)
  have hfast : (s.rowSeen copies).flag Reg.ISL_EQ_CFG_FAST_WAKE = s.flag Reg.ISL_EQ_CFG_FAST_WAKE := by
    rw [State.flag, State.rowSeen_fld (by decide)]; rfl
  have hnow : (s.rowSeen copies).now = s.now := by
    obtain ⟨r, heq⟩ := s.rowSeen_state copies
    rw [heq]
  have herr := ctlErr_row s copies
  clear h
  generalize s.rowSeen copies = u at hexec hlink hfast hnow herr
  generalize byteAt b 0 = lanes at hexec ⊢
  generalize byteAt b 1 = rate at hexec ⊢
  refine ⟨fun hs1 hlanes hrate hcfg => ?_, fun hbad => ?_⟩
  · have hrow : u.wakeRow lanes rate = ({ u with isl := { u.isl with wakeDue := true } } : State).fastStart 1 lanes rate := by
      unfold State.wakeRow
      rw [if_neg (by rw [hlink]; omega)]
      exact if_pos (hfast.trans hcfg)
    have hstart := State.fastStart_started { u with isl := { u.isl with wakeDue := true } } 1 lanes rate
    rw [hrow] at hexec
    generalize State.fastStart _ 1 lanes rate = t at hexec hstart
    refine ⟨_, hexec, ?_, ?_, ?_, ?_, ?_, fun k hk => ?_⟩
    · rw [State.left_isl, hstart.isl]
    · rw [State.left_isl, hstart.isl]
    · rw [State.left_isl, hstart.isl]
    · rw [State.left_isl, hstart.isl]
    · rw [State.left_isl, hstart.isl]; exact hnow
    · exact (hstart.proto k hk).trans (by rw [Nat.min_eq_right hlanes])
  · have hrow : u.wakeRow lanes rate = u.ctlErr := by
      unfold State.wakeRow
      exact if_pos (by rw [hlink]; omega)
    rw [hrow] at hexec
    exact ⟨_, hexec, herr.1, herr.2⟩

end Sys2Proof.Machine
end

section
/-! PROOFS. Pips as TIMING, SREF and the frame store take them (R67, R97 to R100, R109, R112, R153), and the rows of the source
link that bring them (R85, R87). -/

namespace Sys2Proof.Machine

variable {s t u : State} {a k n p : Nat} {w : Word} {x : Fld} {ps : List Nat} {copies : List (List Byte)}

/-- Time stands, and registers are written within some pages only. -/
structure Keeps (ps : List Nat) (s t : State) : Prop where
  now : t.now = s.now
  rd : ∀ a, a / 0x1000 ∉ ps → t.rd a = s.rd a

theorem Keeps.refl (ps : List Nat) (s : State) : Keeps ps s s := ⟨rfl, fun _ _ => rfl⟩
theorem Keeps.trans (h : Keeps ps s t) (g : Keeps ps t u) : Keeps ps s u :=
  ⟨g.now.trans h.now, fun a ha => (g.rd a ha).trans (h.rd a ha)⟩
theorem Keeps.ite {c : Prop} [Decidable c] (ht : Keeps ps s t) (hu : Keeps ps s u) : Keeps ps s (if c then t else u) := by
  split
  exacts [ht, hu]
theorem Keeps.fld (h : Keeps ps s t) (hx : x.addr / 0x1000 ∉ ps) : t.fld x = s.fld x := by rw [State.fld, h.rd _ hx, State.fld]
theorem Within.keeps (h : Within ps s t) : Keeps ps s t := ⟨h.only.now_eq, h.rd⟩

theorem Keeps.each {α : Type} {l : List α} {f : α → State → State} (h : ∀ y ∈ l, ∀ t, Keeps ps t (f y t)) (s : State) :
    Keeps ps s (s.each l f) := by
  induction l generalizing s with
  | nil => exact Keeps.refl ps s
  | cons y l ih => exact (h y (List.mem_cons_self ..) s).trans (ih (fun z hz => h z (List.mem_cons_of_mem _ hz)) (f y s))

theorem Keeps.foldl {α : Type} {l : List α} {f : State → α → State} (h : ∀ y ∈ l, ∀ t, Keeps ps t (f t y)) (s : State) :
    Keeps ps s (l.foldl f s) := Keeps.each (f := fun y t => f t y) h s

/-- The pages that a pip reaches: CLK, TIMING, GENLOCK, SREF, STATS and CODEC. -/
def pipPages : List Nat := [2, 0x30, 0x31, 0x32, 0x41, 0x42]

theorem TimWork.keeps (h : TimWork s t) : Keeps pipPages s t := ⟨h.now_eq, fun a ha => h.rd a fun hc => ha (by rw [hc]; decide)⟩
theorem FrameDrop.keeps (h : FrameDrop s t) : Keeps pipPages s t := by
  refine ⟨h.srefWork.now_eq, fun a ha => h.rd a ?_ ?_ ?_⟩
  · rintro hc; exact ha (by rw [hc]; decide)
  · rintro rfl; exact ha (by decide)
  · rintro rfl; exact ha (by decide)

section
variable (s)

theorem State.wr_keeps (ha : a / 0x1000 ∈ ps) : Keeps ps s (s.wr a w) := (s.wr_within ha).keeps
theorem State.put_keeps (hx : x.addr / 0x1000 ∈ ps) : Keeps ps s (s.put x n) := (s.put_within hx).keeps
theorem State.raise_keeps (hp : hdrPage p ∈ ps) : Keeps ps s (s.raise p n) := (s.raise_within hp).keeps
theorem State.raiseIf_keeps (c : Bool) (hp : hdrPage p ∈ ps) : Keeps ps s (s.raiseIf c p n) := (s.raiseIf_within c hp).keeps
theorem State.bumpBy_keeps (hx : x.addr / 0x1000 ∈ ps) (hp : hdrPage (x.addr / 0x1000) ∈ ps) : Keeps ps s (s.bumpBy x n) :=
  (s.bumpBy_within hx hp).keeps
theorem State.bump_keeps (ha : a / 0x1000 ∈ ps) (hp : hdrPage (a / 0x1000) ∈ ps) : Keeps ps s (s.bump a) := (s.bump_within ha hp).keeps
theorem State.bumpIf_keeps (c : Bool) (ha : a / 0x1000 ∈ ps) (hp : hdrPage (a / 0x1000) ∈ ps) : Keeps ps s (s.bumpIf c a) := by
  unfold State.bumpIf
  exact Keeps.ite (s.bump_keeps ha hp) (Keeps.refl ps s)

theorem State.tim_keeps (c : TimState) : Keeps ps s { s with tim := c } := ⟨rfl, fun _ _ => rfl⟩
theorem State.srf_keeps (c : SrefState) : Keeps ps s { s with srf := c } := ⟨rfl, fun _ _ => rfl⟩
theorem State.sto_keeps (c : StoreState) : Keeps ps s { s with sto := c } := ⟨rfl, fun _ _ => rfl⟩
theorem State.isl_keeps (c : IslState) : Keeps ps s { s with isl := c } := ⟨rfl, fun _ _ => rfl⟩

/-! The frame that ends (R69, R129, R131, R153). -/

theorem State.statsCapture_keeps (z : Nat) (hist : List Nat) (r : ZoneRec) : Keeps pipPages s (s.statsCapture z hist r) := by
  unfold State.statsCapture
  refine Keeps.ite ?_ (Keeps.refl _ s)
  have hhist : Keeps pipPages s (s.each (List.range 16) (fun i s => s.wrN (Reg.STATS_CAP_HIST i) (hist.getD i 0))) :=
    Keeps.each (fun i hi t => t.wr_keeps (by
      have hlt := List.mem_range.1 hi
      have hpage : Reg.STATS_CAP_HIST i / 0x1000 = 0x41 := by simp only [Reg.STATS_CAP_HIST]; omega
      rw [hpage]; decide)) s
  dsimp only
  generalize s.each (List.range 16) (fun i s => s.wrN (Reg.STATS_CAP_HIST i) (hist.getD i 0)) = v at hhist ⊢
  exact hhist.trans (((v.wr_keeps (by decide)).trans (State.wr_keeps _ (by decide))).trans
    ((State.put_keeps _ (by decide)).trans (State.raise_keeps _ (by decide))))

theorem State.sta_keeps (c : StatsState) : Keeps ps s { s with sta := c } := ⟨rfl, fun _ _ => rfl⟩

theorem State.closeRow_keeps (row : Nat) : Keeps pipPages s (s.closeRow row) := by
  unfold State.closeRow
  refine (Keeps.each (fun j _ t => ?_) s).trans (State.sta_keeps _ _)
  dsimp only
  generalize t.closeRec _ _ = c
  obtain ⟨r, stale, hist⟩ := c
  have hstale : Keeps pipPages t (t.bumpIf stale Reg.STATS_STALE_ZONES) := t.bumpIf_keeps stale (by decide) (by decide)
  dsimp only
  generalize t.bumpIf stale Reg.STATS_STALE_ZONES = y at hstale
  exact (hstale.trans (y.sta_keeps _)).trans (State.statsCapture_keeps _ _ _ _)

theorem State.statsComplete_keeps : Keeps pipPages s s.statsComplete := by
  unfold State.statsComplete
  refine Keeps.ite ?_ (Keeps.refl _ s)
  have hrows : Keeps pipPages s ((List.range s.sta.rows).foldl (fun s r => if s.sta.closed = r then s.closeRow r else s) s) :=
    Keeps.foldl (fun r _ t => Keeps.ite (t.closeRow_keeps r) (Keeps.refl _ t)) s
  dsimp only
  generalize (List.range s.sta.rows).foldl (fun s r => if s.sta.closed = r then s.closeRow r else s) s = v at hrows ⊢
  refine hrows.trans (Keeps.trans (t := { v with sta := { v.sta with
    isOpen := false, done := v.sta.fill, fill := [], doneColb := v.sta.colb, doneRowb := v.sta.rowb } }) ⟨rfl, fun _ _ => rfl⟩ ?_)
  exact (State.wr_keeps _ (by decide)).trans (State.raise_keeps _ (by decide))

theorem State.recordMargin_keeps (f : SrcFrame) : Keeps pipPages s (s.recordMargin f) := by
  unfold State.recordMargin
  split
  · split
    · exact s.wr_keeps (by decide)
    · split
      exacts [s.wr_keeps (by decide), Keeps.refl _ s]
  · exact Keeps.refl _ s

theorem State.setSlot_keeps (n st : Nat) : Keeps pipPages s (s.setSlot n st) := (s.setSlot_frameDrop n st).keeps

/-- Slot n is P from now on (R153). -/
def State.slotNewest (s : State) (n bytes : Nat) : State :=
  let s := { s.setSlot n slotSettled with sto := { s.sto with
    prevP := s.newest, settles := s.sto.settles + 1, blackP := false } }
  let s := (s.put Reg.CODEC_RING_NEWEST n).put Reg.CODEC_RING_NEWEST_VALID 1
  (s.wrN Reg.CODEC_LAST_BYTES (min bytes 0xFFFFFFFF)).raise 0x42 0

theorem State.slotNewest_keeps (n bytes : Nat) : Keeps pipPages s (s.slotNewest n bytes) := by
  unfold State.slotNewest
  have hslot : Keeps pipPages s (s.setSlot n slotSettled) := s.setSlot_keeps _ _
  dsimp only
  generalize s.setSlot n slotSettled = z at hslot
  have hsto := hslot.trans (z.sto_keeps (ps := pipPages)
    { s.sto with prevP := s.newest, settles := s.sto.settles + 1, blackP := false })
  refine hsto.trans (((State.put_keeps _ (by decide)).trans (State.put_keeps _ (by decide))).trans
    ((State.wr_keeps _ (by decide)).trans (State.raise_keeps _ (by decide))))

theorem State.settle_keeps : Keeps pipPages s s.settle := by
  unfold State.settle
  split
  · exact Keeps.refl _ s
  · next f _ =>
    refine Keeps.ite ?_ (Keeps.refl _ s)
    have hgone : Keeps pipPages s ({ s with sto := { s.sto with src := none } } : State) := s.sto_keeps _
    generalize ({ s with sto := { s.sto with src := none } } : State) = v at hgone
    dsimp only
    split
    · exact hgone
    · next n _ =>
      have hput := hgone.trans (v.put_keeps (x := Reg.CODEC_RING_WRITING) (n := 0) (by decide))
      generalize v.put Reg.CODEC_RING_WRITING 0 = y at hput
      refine hput.trans (Keeps.ite ?_ (y.slotNewest_keeps n f.bytes))
      exact ((y.setSlot_keeps _ _).trans (State.bump_keeps _ (by decide) (by decide))).trans (State.raise_keeps _ (by decide))

theorem State.setSlotInfo_keeps (n : Nat) (i : SlotInfo) : Keeps ps s (s.setSlotInfo n i) := ⟨rfl, fun _ _ => rfl⟩
theorem State.setSrc_keeps (f : SrcFrame) : Keeps ps s (s.setSrc f) := ⟨rfl, fun _ _ => rfl⟩

theorem State.passLine_keeps (f : SrcFrame) (why : Nat) : Keeps ps s (s.passLine f why) := by
  unfold State.passLine
  split
  · exact (s.setSlotInfo_keeps _ _).trans (State.setSrc_keeps _ _)
  · exact s.setSrc_keeps _

theorem State.pumpHoles_keeps : ∀ (n : Nat) (s : State), Keeps ps s (State.pumpHoles n s)
  | 0, s => Keeps.refl ps s
  | n + 1, s => by
    rw [State.pumpHoles]
    split
    · exact Keeps.refl ps s
    · exact Keeps.ite ((s.passLine_keeps _ 1).trans (State.pumpHoles_keeps n _)) (Keeps.refl ps s)

theorem State.pump_keeps : Keeps pipPages s s.pump := (State.pumpHoles_keeps _ s).trans (State.settle_keeps _)

theorem State.completeFrame_keeps : Keeps pipPages s s.completeFrame := by
  unfold State.completeFrame
  split
  · exact Keeps.refl _ s
  · refine Keeps.ite (Keeps.refl _ s) ?_
    exact ((s.setSrc_keeps _).trans (State.recordMargin_keeps _ _)).trans
      ((State.statsComplete_keeps _).trans (State.pump_keeps _))

theorem State.endFrame_keeps : Keeps pipPages s s.endFrame := by
  unfold State.endFrame
  split
  · exact Keeps.refl _ s
  · exact Keeps.ite ((State.completeFrame_keeps s).trans (State.sto_keeps _ _)) (s.discardFrame_drop false).keeps

/-! The frame that starts (R148, R152, R153). -/

theorem State.nextSlot_lt : s.nextSlot < 3 := by
  unfold State.nextSlot
  dsimp only
  split <;> exact Nat.mod_lt _ (by decide)

theorem slotFrameReg_page (hn : n < 3) : slotFrameReg n / 0x1000 ∈ pipPages := by
  have h : slotFrameReg n / 0x1000 = 0x42 := by
    simp only [slotFrameReg, Reg.CODEC_SLOT_FRAME0]
    omega
  rw [h]
  decide

/-- Slot n is written into (R153). -/
def State.slotTaken (s : State) (n tPip no : Nat) : State :=
  let s := (s.setSlot n slotWriting).setSlotInfo n ⟨0, []⟩
  let s := (s.put Reg.CODEC_RING_WRITE n).put Reg.CODEC_RING_WRITING 1
  let s := { s with sto := { s.sto with
    pips := Cells.set (fun _ => 0) s.sto.pips n tPip
    kept := (match s.sto.kept with | some k => if k.slot = n then none else some k | none => none) } }
  s.wrN (slotFrameReg n) no

theorem State.slotTaken_keeps (n tPip no : Nat) (hn : n < 3) : Keeps pipPages s (s.slotTaken n tPip no) := by
  unfold State.slotTaken
  dsimp only
  have hslot : Keeps pipPages s ((s.setSlot n slotWriting).setSlotInfo n ⟨0, []⟩) :=
    (s.setSlot_keeps _ _).trans (State.setSlotInfo_keeps _ _ _)
  generalize (s.setSlot n slotWriting).setSlotInfo n ⟨0, []⟩ = y at hslot
  have hput : Keeps pipPages y ((y.put Reg.CODEC_RING_WRITE n).put Reg.CODEC_RING_WRITING 1) :=
    (y.put_keeps (by decide)).trans (State.put_keeps _ (by decide))
  generalize (y.put Reg.CODEC_RING_WRITE n).put Reg.CODEC_RING_WRITING 1 = z at hput
  exact ((hslot.trans hput).trans (z.sto_keeps _)).trans (State.wr_keeps _ (slotFrameReg_page hn))

theorem State.statsBegin_keeps (c : InputState) (no : Nat) (rects : Option (List Rect)) :
    Keeps ps s (({ s with inp := c } : State).statsBegin no rects) := ⟨rfl, fun _ _ => rfl⟩

theorem State.startFrame_keeps (no tPip tLine first : Nat) (inLock part : Bool) :
    Keeps pipPages s (s.startFrame no tPip tLine first inLock part) := by
  unfold State.startFrame
  dsimp only
  refine Keeps.trans (Keeps.trans ?_ (State.statsBegin_keeps _ _ _ _)) (State.setSrc_keeps _ _)
  have hoff (c : Prop) [Decidable c] : Keeps pipPages s (if c then (s.bump Reg.CODEC_REGION_OFF).raise 0x42 4 else s) :=
    Keeps.ite ((s.bump_keeps (by decide) (by decide)).trans (State.raise_keeps _ (by decide))) (Keeps.refl _ s)
  split
  · next n heq =>
    have hn : n < 3 := by
      split at heq
      · cases heq
      · exact Option.some.inj heq ▸ s.nextSlot_lt
    exact (hoff _).trans (State.slotTaken_keeps _ n tPip no hn)
  · exact hoff _

/-! The pip itself (R97 to R100, R103, R109 to R112). -/

theorem State.checkRef_keeps : Keeps pipPages s s.checkRef := s.checkRef_timWork.keeps
theorem State.moveNext_keeps (n : Nat) : Keeps pipPages s (s.moveNext n) := (s.moveNext_timWork n).keeps
theorem State.measure_keeps : Keeps pipPages s s.measure := s.measure_timWork.keeps
theorem State.setTimMode_keeps (m : Nat) : Keeps pipPages s (s.setTimMode m) := (s.setTimMode_timWork m).keeps

theorem State.srefLeave_keeps : Keeps pipPages s s.srefLeave := by
  unfold State.srefLeave
  have hleft : Keeps pipPages s ((s.wr Reg.SREF_STATE 0).raise 0x32 1) :=
    (s.wr_keeps (by decide)).trans (State.raise_keeps _ (by decide))
  dsimp only
  generalize (s.wr Reg.SREF_STATE 0).raise 0x32 1 = v at hleft
  exact (hleft.trans (v.srf_keeps _)).trans ((((State.pixRefUpdate_within _).mono (by decide)).keeps).trans (State.checkRef_keeps _))

theorem State.showings_keeps (p : Nat) : Keeps pipPages s (s.showings p).1 := by
  unfold State.showings
  dsimp only
  exact ((s.bumpIf_keeps _ (by decide) (by decide)).trans (State.bumpBy_keeps _ (by decide) (by decide))).trans
    (State.raiseIf_keeps _ _ (by decide))

theorem State.pipMeasured_keeps (p : Nat) : Keeps pipPages s (s.pipMeasured p) := by
  unfold State.pipMeasured
  extract_lets t gaps c e v y
  have hv : Keeps pipPages s v := ⟨rfl, fun _ _ => rfl⟩
  have hy : Keeps pipPages v y := Keeps.ite (Keeps.refl _ v) (v.wr_keeps (by decide))
  refine (hv.trans hy).trans (Keeps.ite ?_ (Keeps.refl _ y))
  exact y.wr_keeps (by decide)

theorem State.pipTrims_keeps (p k : Nat) : Keeps pipPages s (s.pipTrims p k) := by
  unfold State.pipTrims
  refine Keeps.ite ?_ (Keeps.refl _ s)
  dsimp only
  exact Keeps.trans (s.wr_keeps (a := Reg.TIMING_PHASE_ERR) (by decide)) ⟨rfl, fun _ _ => rfl⟩

theorem State.shortPip_keeps : Keeps pipPages s s.shortPip := by
  unfold State.shortPip
  have hshort : Keeps pipPages s (((s.bump Reg.TIMING_SHORT_CNT).raise 0x30 3).setTimMode timSLEWING) :=
    ((s.bump_keeps (by decide) (by decide)).trans (State.raise_keeps _ (by decide))).trans (State.setTimMode_keeps _ _)
  dsimp only
  generalize ((s.bump Reg.TIMING_SHORT_CNT).raise 0x30 3).setTimMode timSLEWING = v at hshort
  exact hshort.trans (Keeps.ite (v.moveNext_keeps _) (Keeps.refl _ v))

theorem State.pipPlans_keeps (no p k : Nat) (expected : Option Nat) : Keeps pipPages s (s.pipPlans no p k expected) := by
  unfold State.pipPlans
  extract_lets t half plan early late short c v f
  have hv : Keeps pipPages s v := s.tim_keeps _
  refine Keeps.ite (hv.trans ?_) (s.tim_keeps _)
  refine Keeps.ite ((State.shortPip_keeps v).trans (State.measure_keeps _)) (Keeps.ite ?_ ?_)
  · exact Keeps.ite (v.moveNext_keeps _) (Keeps.refl _ v)
  · exact Keeps.ite v.measure_keeps (Keeps.ite v.startSlew_timWork.keeps v.checkRef_keeps)

theorem State.timPip_keeps (no period16 : Nat) (vrr part : Bool) : Keeps pipPages s (s.timPip no period16 vrr part) := by
  unfold State.timPip
  extract_lets p expected v exits y ended z
  have hv : Keeps pipPages s v := s.bumpIf_keeps _ (by decide) (by decide)
  have hy : Keeps pipPages s (y.showings p).1 := (hv.trans (v.pipMeasured_keeps p)).trans (y.showings_keeps p)
  have hz : Keeps pipPages s (z.showings p).1 :=
    ((hv.trans v.endFrame_keeps).trans (ended.pipMeasured_keeps p)).trans (z.showings_keeps p)
  clear_value v y z
  refine Keeps.ite ?_ ?_
  · generalize y.showings p = c at hy
    exact hy.trans (c.1.pipTrims_keeps p c.2)
  · generalize z.showings p = c at hz
    obtain ⟨w, k⟩ := c
    refine (hz.trans (Keeps.ite ?_ (w.pipPlans_keeps no p k expected))).trans (State.startFrame_keeps _ _ _ _ _ _ _)
    exact (w.tim_keeps _).trans (State.srefLeave_keeps _)

end

/-! PIP rows (R67, R85, R87). -/

/-- The link as a PIP row finds and moves it (R85, R87). -/
def State.pipLink (s : State) : State := if s.link = lkREADY then s.linkComesUp else s

theorem State.linkComesUp_effect : s.linkComesUp.now = s.now ∧ s.linkComesUp.link = lkUP := by
  have hnow : (s.timLinkUp.setLink lkUP).now = s.now := (s.timLinkUp.setLink_work lkUP).now_eq
  have hlink := s.timLinkUp.setLink_link lkUP (by decide)
  unfold State.linkComesUp
  generalize s.timLinkUp.setLink lkUP = v at hnow hlink
  have hraised (c d : Bool) : Keeps [0x10] v ((v.raiseIf c 0x10 0).raiseIf d 0x10 4) :=
    (v.raiseIf_keeps c (by decide)).trans (State.raiseIf_keeps _ d (by decide))
  refine ⟨(hraised _ _).now.trans hnow, ?_⟩
  refine Eq.trans ?_ hlink
  exact (State.fld_raiseIf_other _ (by decide)).trans (State.fld_raiseIf_other _ (by decide))

theorem State.pipLink_now : s.pipLink.now = s.now := by
  unfold State.pipLink
  split
  exacts [s.linkComesUp_effect.1, rfl]

theorem State.pipLink_up (h : s.link = lkREADY ∨ s.link = lkUP) : s.pipLink.link = lkUP := by
  unfold State.pipLink
  split
  exacts [s.linkComesUp_effect.2, h.resolve_left ‹_›]

theorem State.pipLink_s1 (h : s.link = lkS1) : s.pipLink.link = lkS1 := by
  unfold State.pipLink
  rw [if_neg (by rw [h]; decide)]
  exact h

/-- The pip's own figures (R67). -/
def State.pipShown (s : State) (no period flags : Nat) : State :=
  let s := ((s.wrN Reg.ISL_PIP_FRAME no).wrN Reg.ISL_PIP_PERIOD period).wrN Reg.ISL_PIP_FLAGS (flags % 65536)
  { s with isl := { s.isl with frame := some ⟨no, bit flags 2, 0, 0, false, none, none, false⟩ } }

theorem State.pipRow_eq (no period flags : Nat) :
    s.pipRow no period flags = (s.pipLink.pipShown no period flags).timPip no period (bit flags 0) (bit flags 2) := rfl

theorem State.pipShown_rd (no period flags : Nat) :
    (s.pipShown no period flags).rd a = (((s.wr Reg.ISL_PIP_FRAME (BitVec.ofNat 32 no)).wr Reg.ISL_PIP_PERIOD (BitVec.ofNat 32 period)).wr
      Reg.ISL_PIP_FLAGS (BitVec.ofNat 32 (flags % 65536))).rd a := rfl

theorem State.pipShown_link (no period flags : Nat) : (s.pipShown no period flags).link = s.link := by
  rw [State.link, State.fld, State.pipShown_rd, State.rd_wr_other _ _ _ _ (by decide), State.rd_wr_other _ _ _ _ (by decide),
    State.rd_wr_other _ _ _ _ (by decide)]
  rfl

theorem State.pipRow_effect (no period flags : Nat) (hflags : flags < 65536) :
    (s.pipRow no period flags).rd Reg.ISL_PIP_FRAME = BitVec.ofNat 32 no ∧
    (s.pipRow no period flags).rd Reg.ISL_PIP_PERIOD = BitVec.ofNat 32 period ∧
    (s.pipRow no period flags).rd Reg.ISL_PIP_FLAGS = BitVec.ofNat 32 flags ∧
    (s.pipRow no period flags).now = s.now ∧ (s.pipRow no period flags).link = s.pipLink.link := by
  rw [State.pipRow_eq]
  have hkeeps := (s.pipLink.pipShown no period flags).timPip_keeps no period (bit flags 0) (bit flags 2)
  have hlink := s.pipLink.pipShown_link no period flags
  have hnow : (s.pipLink.pipShown no period flags).now = s.now := s.pipLink_now
  have hframe := s.pipLink.pipShown_rd (a := Reg.ISL_PIP_FRAME) no period flags
  have hperiod := s.pipLink.pipShown_rd (a := Reg.ISL_PIP_PERIOD) no period flags
  have hshown := s.pipLink.pipShown_rd (a := Reg.ISL_PIP_FLAGS) no period flags
  generalize s.pipLink.pipShown no period flags = v at hkeeps hlink hnow hframe hperiod hshown ⊢
  generalize v.timPip no period (bit flags 0) (bit flags 2) = t at hkeeps ⊢
  refine ⟨?_, ?_, ?_, hkeeps.now.trans hnow, (hkeeps.fld (x := Reg.ISL_LINK_STATE_STATE) (by decide)).trans hlink⟩
  · rw [hkeeps.rd _ (by decide), hframe, State.rd_wr_other _ _ _ _ (by decide), State.rd_wr_other _ _ _ _ (by decide),
      State.rd_wr_self]
  · rw [hkeeps.rd _ (by decide), hperiod, State.rd_wr_other _ _ _ _ (by decide), State.rd_wr_self]
  · rw [hkeeps.rd _ (by decide), hshown, State.rd_wr_self, Nat.mod_eq_of_lt hflags]

theorem leField_lt (b : List Byte) (i n : Nat) : leField b i n < 256 ^ n :=
  Nat.lt_of_lt_of_le (leVal_lt _) (Nat.pow_le_pow_right (by decide) (by rw [List.length_take]; exact Nat.min_le_left _ _))

theorem State.rowsRun_advance (n : Nat) : (s.advance n).rowsRun = s.rowsRun := by
  have hlink : (s.advance n).link = s.link := State.fld_advance (by decide)
  have hisl : (s.advance n).isl = s.isl := by rw [State.advance_eq]
  rw [State.rowsRun, hlink, hisl, State.rowsRun]

theorem rowTaken_advance {ctype : Nat} {b : List Byte} (n : Nat) (h : rowTaken s copies ctype b) :
    rowTaken (s.advance n) copies ctype b :=
  ⟨(s.rowsRun_advance n).trans h.1, (congrArg (fun m => rowAccepted m copies)
    (islLanes_of_fld (State.fld_advance (by decide)))).trans h.2⟩

theorem exec_pip_taken (ti : Nat) (hlive : s.boot.resetLow = false) {b : List Byte} (h : rowTaken s copies rowPIP b) :
    ∃ t, exec (.pip ti copies) s = .next t ∧ t.rd Reg.ISL_PIP_FRAME = BitVec.ofNat 32 (leField b 0 4) ∧
      t.rd Reg.ISL_PIP_PERIOD = BitVec.ofNat 32 (leField b 4 4) ∧ t.rd Reg.ISL_PIP_FLAGS = BitVec.ofNat 32 (leField b 8 2) ∧
      t.now = max s.now ti ∧ (s.link = lkREADY ∨ s.link = lkUP → t.link = lkUP) ∧ (s.link = lkS1 → t.link = lkS1) := by
  have hexec : exec (.pip ti copies) s =
      .next (s.left (((s.advance ti).rowSeen copies).pipRow (leField b 0 4) (leField b 4 4) (leField b 8 2))) := by
    rw [exec_pip, State.unheld_live hlive, State.controlRow_taken (rowTaken_advance ti h)]
    rfl
  have hlink : ((s.advance ti).rowSeen copies).link = s.link := State.rowSeen_link.trans (State.fld_advance (by decide))
  have hnow : ((s.advance ti).rowSeen copies).now = max s.now ti := by
    obtain ⟨r, heq⟩ := (s.advance ti).rowSeen_state copies
    rw [heq]
    exact s.advance_now ti
  clear h
  generalize (s.advance ti).rowSeen copies = v at hexec hlink hnow
  obtain ⟨hframe, hperiod, hflags, ht, hmoved⟩ := v.pipRow_effect (leField b 0 4) (leField b 4 4) (leField b 8 2) (leField_lt b 8 2)
  generalize v.pipRow (leField b 0 4) (leField b 4 4) (leField b 8 2) = t at hexec hframe hperiod hflags ht hmoved
  refine ⟨_, hexec, hframe, hperiod, hflags, ?_, fun hup => ?_, fun hs1 => ?_⟩
  · rw [State.left_now, ht, hnow]
    omega
  · exact hmoved.trans (v.pipLink_up (hlink ▸ hup))
  · exact hmoved.trans (v.pipLink_s1 (hlink.trans hs1))

/-- Settles O23: TIMING and the frame store, which a pip reaches, write none of the link's registers; SLEEP and WAKE are the
link's alone. -/
theorem sleepAndWake : Obligations.SleepAndWake :=
  ⟨fun _ ti _ _ hlive h => exec_pip_taken ti hlive h, fun _ _ _ _ hlive h hlevel hgate => exec_sleep_cases hlive h hlevel hgate,
    fun _ _ _ hlive h => exec_wake_cases hlive h⟩

end Sys2Proof.Machine
end

section
/-! PROOFS. Training of the source link (R82 to R87, R500). -/

namespace Sys2Proof.Machine

variable {s t u v : State} {a b k l n p : Nat} {w : Word} {x : Fld}

/-! What the phases keep. -/

/-- Only the link's state field, its own figures and what its frames use up change. -/
structure LinkKeeps (s t : State) : Prop where
  now : t.now = s.now
  rd : ∀ a, a / 0x1000 ∉ bcPages → a ≠ Reg.ISL_LINK_STATE → t.rd a = s.rd a
  upper : ∀ x : Fld, x.addr = Reg.ISL_LINK_STATE → 4 ≤ x.lo → t.fld x = s.fld x
  risen : Risen s t

theorem LinkKeeps.refl (s : State) : LinkKeeps s s := ⟨rfl, fun _ _ _ => rfl, fun _ _ _ => rfl, Risen.refl s⟩
theorem LinkKeeps.trans (h : LinkKeeps s t) (g : LinkKeeps t u) : LinkKeeps s u :=
  ⟨g.now.trans h.now, fun a ha hne => (g.rd a ha hne).trans (h.rd a ha hne), fun x hx hlo => (g.upper x hx hlo).trans (h.upper x hx hlo),
    h.risen.trans g.risen⟩
theorem LinkWork.keeps (h : LinkWork s t) : LinkKeeps s t := ⟨h.now_eq, h.rd, h.upper, h.risen⟩
theorem State.isl_linkKeeps (s : State) (c : IslState) : LinkKeeps s { s with isl := c } :=
  ⟨rfl, fun _ _ _ => rfl, fun _ _ _ => rfl, Risen.of_regs rfl⟩
theorem LinkKeeps.fld (h : LinkKeeps s t) (hx : x.addr / 0x1000 ∉ bcPages) (hne : x.addr ≠ Reg.ISL_LINK_STATE) : t.fld x = s.fld x := by
  rw [State.fld, h.rd _ hx hne, State.fld]
theorem LinkKeeps.lanes (h : LinkKeeps s t) : t.islLanes = s.islLanes := islLanes_of_fld (h.upper _ rfl (by decide))

/-- What a new phase leaves. -/
structure Phased (st : Nat) (s t : State) : Prop where
  keeps : LinkKeeps s t
  link : t.link = st
  isl : t.isl = { s.isl with since := s.now, rises := t.isl.rises }

theorem State.phase_phased (s : State) (st : Nat) (hst : st < 16) : Phased st s (s.phase st) := by
  unfold State.phase
  have hisl := s.isl_linkKeeps { s.isl with since := s.now }
  have hi : ({ s with isl := { s.isl with since := s.now } } : State).isl = { s.isl with since := s.now } := rfl
  generalize ({ s with isl := { s.isl with since := s.now } } : State) = v at hisl hi
  exact ⟨hisl.trans (v.setLink_work st).keeps, v.setLink_link st hst, by rw [(v.setLink_work st).isl_eq, hi]⟩

/-- What a request for a preset leaves. -/
structure PresetAsked (mask p : Nat) (s t : State) : Prop where
  keeps : LinkKeeps s t
  link : t.link = s.link
  isl : t.isl = { s.isl with asked := s.isl.asked ++ [(mask, p)], rises := t.isl.rises }

theorem State.presetReq_asked (s : State) (mask p : Nat) : PresetAsked mask p s (s.presetReq mask p) := by
  unfold State.presetReq
  have hsent := s.trainSend_bcWork 4 [mask % 256, mask / 256, p]
  generalize s.trainSend 4 [mask % 256, mask / 256, p] = v at hsent
  refine ⟨hsent.keeps.trans (v.isl_linkKeeps _), hsent.link, ?_⟩
  show ({ v.isl with asked := _ } : IslState) = _
  rw [hsent.isl_eq]

/-- What READY's frame leaves. -/
structure ReadySent (s t : State) : Prop where
  keeps : LinkKeeps s t
  link : t.link = s.link
  ready : t.isl.ready = 1

theorem State.readySend_sent (s : State) : ReadySent s s.readySend := by
  unfold State.readySend
  have hsent := s.trainSend_bcWork 6 []
  generalize s.trainSend 6 [] = v at hsent
  exact ⟨hsent.keeps.trans (v.isl_linkKeeps _), hsent.link, rfl⟩

theorem State.fastReady_sent (s : State) : ReadySent s s.fastReady := by
  unfold State.fastReady
  have hsent := ((s.bcSend_bcWork 6 0 [2#8, 3#8]).trans (State.bcSend_bcWork _ 6 0 [3#8, 3#8])).trans (State.bcSend_bcWork _ 6 0 [4#8, 3#8])
  generalize ((s.bcSend 6 0 [2#8, 3#8]).bcSend 6 0 [3#8, 3#8]).bcSend 6 0 [4#8, 3#8] = v at hsent
  have h := v.readySend_sent
  exact ⟨hsent.keeps.trans h.keeps, h.link.trans hsent.link, h.ready⟩

/-! Frames of the source (R78, R82). -/

/-- A TRAIN frame is counted, and its OP acts. -/
theorem State.bcReceive_train {bytes d : List Byte} {op : Nat} (h : trainCame s bytes op d) (hop : op < 256) :
    s.bcReceive bytes = (s.bump Reg.ISL_BC_RX_FRAMES).trainFrame op d := by
  obtain ⟨hup, tag, phase, hframe⟩ := h
  unfold State.bcReceive
  rw [if_neg (by rw [hup]; decide), hframe]
  have hbyte : byteAt (phase :: BitVec.ofNat 8 op :: d) 1 = op := (BitVec.toNat_ofNat op 8).trans (Nat.mod_eq_of_lt hop)
  exact congrArg (fun o => (s.bump Reg.ISL_BC_RX_FRAMES).trainFrame o d) hbyte

/-- A frame of the back-channel is counted (R92). -/
structure FrameSeen (s t : State) : Prop where
  only : OnlyRegs s t
  rd : ∀ a, Reg.ISL_BC_RX_FRAMES ≠ a → Reg.HDR_IRQ_RAW 0x21 ≠ a → t.rd a = s.rd a
  counts : counted s t Reg.ISL_BC_RX_FRAMES 1

theorem State.frameSeen (s : State) : FrameSeen s (s.bump Reg.ISL_BC_RX_FRAMES) :=
  ⟨s.bump_onlyRegs _, fun _ h1 h2 => State.rd_bump_other ⟨h1, (show hdrPage (Reg.ISL_BC_RX_FRAMES / 0x1000) = 0x21 by decide) ▸ h2⟩, counted_of_rd rfl (by decide)⟩

theorem FrameSeen.fld (h : FrameSeen s t) (h1 : Reg.ISL_BC_RX_FRAMES ≠ x.addr) (h2 : Reg.HDR_IRQ_RAW 0x21 ≠ x.addr) : t.fld x = s.fld x := by
  rw [State.fld, h.rd _ h1 h2, State.fld]

theorem exec_train {cmd : State → Result} {bytes d : List Byte} {op : Nat} (hcmd : cmd s = s.unheld (fun s => s.bcReceive bytes))
    (hlive : s.boot.resetLow = false) (h : trainCame s bytes op d) (hop : op < 256) :
    cmd s = .next (s.left ((s.bump Reg.ISL_BC_RX_FRAMES).trainFrame op d)) := by
  rw [hcmd, State.unheld_live hlive, State.bcReceive_train h hop]

/-! DETECT (R82, R89). -/

theorem exec_linkTrainStart_down (hlive : s.boot.resetLow = false) (hcan : s.canTrain = true) (hdown : s.link = lkDOWN) :
    ∃ t, exec .linkTrainStart s = .next t ∧ t.link = lkDETECT ∧
      t.fld Reg.ISL_LINK_STATE_RETRY = 0 ∧ t.isl.since = s.now ∧ t.isl.hold = false ∧
      t.isl.capLanes = min 4 (s.fld Reg.ISL_CFG_LANES) ∧ t.isl.capRate = s.rateLimit' 0 := by
  have hexec := (exec_linkTrainStart s).trans (State.unheld_live hlive)
  have hactive : s.bcActive = true := (Bool.and_eq_true_iff.1 hcan).2
  rw [show s.trainStart = s.attempt 0 from if_pos ⟨hcan, Or.inl hdown⟩] at hexec
  have hattempt := s.attempt_attempted 0
  generalize s.attempt 0 = t at hexec hattempt
  refine ⟨_, hexec, hattempt.link, hattempt.retry, ?_, ?_, ?_, ?_⟩ <;> rw [State.left_isl, hattempt.isl]
  · rfl
  · rw [State.attemptIsl, hactive]; rfl
  · rfl
  · rfl

theorem exec_trainOk_came (hlive : s.boot.resetLow = false) {bytes d : List Byte} (h : trainCame s bytes 3 d) :
    exec (.trainOk bytes) s = .next (s.bump Reg.ISL_BC_RX_FRAMES) := by
  rw [exec_train (cmd := exec (.trainOk bytes)) (exec_trainOk s bytes) hlive h (by decide)]
  rw [show (s.bump Reg.ISL_BC_RX_FRAMES).trainFrame 3 d = s.bump Reg.ISL_BC_RX_FRAMES from rfl,
    State.left_of_steady (s.bump_steady _)]

theorem exec_presetAck_came (hlive : s.boot.resetLow = false) {bytes d : List Byte} (h : trainCame s bytes 5 d) :
    ∃ t, exec (.presetAck bytes) s = .next t ∧
      t.isl.asked = s.isl.asked.filter (fun a => a ≠ (leField d 0 2, byteAt d 2)) ∧ counted s t Reg.ISL_BC_RX_FRAMES 1 := by
  have hexec := exec_train (cmd := exec (.presetAck bytes)) (exec_presetAck s bytes) hlive h (by decide)
  have hseen := s.frameSeen
  generalize s.bump Reg.ISL_BC_RX_FRAMES = v at hexec hseen
  refine ⟨_, hexec, ?_, hseen.counts⟩
  rw [State.left_isl]
  show List.filter _ v.isl.asked = _
  rw [hseen.only.isl_eq]

/-- READY from the source is noted. -/
def State.readyNoted (s : State) : State :=
  { s with isl := { s.isl with since := s.now, ready := 2, fast := if s.isl.fast = 2 then 0 else s.isl.fast } }

theorem exec_trainReady_came (hlive : s.boot.resetLow = false) {bytes d : List Byte} (h : trainCame s bytes 6 d) (hready : s.isl.ready = 1) :
    ∃ t, exec (.trainReady bytes) s = .next t ∧
      t.isl.ready = 2 ∧ t.isl.since = s.now ∧ ∀ k, k < 16 → (t.lane k).scrambled = true ∧ (t.lane k).needSeed = true := by
  have hexec := exec_train (cmd := exec (.trainReady bytes)) (exec_trainReady s bytes) hlive h (by decide)
  have hseen := s.frameSeen
  generalize s.bump Reg.ISL_BC_RX_FRAMES = v at hexec hseen
  have hrow : v.trainFrame 6 d = v.readyNoted.scramble true := if_pos (by rw [hseen.only.isl_eq]; exact hready)
  rw [hrow] at hexec
  have hlane := fun k => State.scramble_lane (l := k) v.readyNoted true
  have hnoted : v.readyNoted.isl.ready = 2 ∧ v.readyNoted.isl.since = s.now := ⟨rfl, hseen.only.now_eq⟩
  obtain ⟨ph, heq⟩ := v.readyNoted.scramble_phy true
  generalize v.readyNoted.scramble true = t at hexec hlane heq
  generalize v.readyNoted = y at hnoted hlane heq
  refine ⟨_, hexec, ?_, ?_, fun k hk => ?_⟩
  · rw [State.left_isl, heq]; exact hnoted.1
  · rw [State.left_isl, heq]; exact hnoted.2
  · have hk' := hlane k
    rw [if_pos hk] at hk'
    exact ⟨(congrArg Lane.scrambled hk' :), (congrArg Lane.needSeed hk' :)⟩

/-! An attempt that fails (R84). -/

/-- A failure is shown (R89). -/
def State.failShown (s : State) (reason : Nat) : State :=
  let s := s.trainSend 7 [reason]
  let s := (s.put Reg.ISL_TRAIN_FAIL_PHASE s.link).put Reg.ISL_TRAIN_FAIL_REASON reason
  s.put Reg.ISL_TRAIN_FAIL_FAILED (satAdd 0xFFFF (s.fld Reg.ISL_TRAIN_FAIL_FAILED) 1)

/-- The last attempt has failed: the link is ABSENT (R84). -/
def State.absent (s : State) : State :=
  let s : State := { s.linkClear with isl := { s.linkClear.isl with idleSeen := false, wakeDue := false } }
  ((s.mainLanes 0 0).setLink lkABSENT |>.bump Reg.ISL_ABSENT_CNT).raise 0x10 2

theorem State.attemptFail_eq (reason : Nat) (h : s.training = true) : s.attemptFail reason =
    if (s.failShown reason).fld Reg.ISL_LINK_STATE_RETRY < 3 then (s.failShown reason).attempt ((s.failShown reason).fld Reg.ISL_LINK_STATE_RETRY + 1)
    else (s.failShown reason).absent := by
  unfold State.attemptFail
  rw [if_neg (by rw [h]; decide)]
  rfl

/-- What showing a failure leaves. -/
structure FailShown (reason : Nat) (s t : State) : Prop where
  rd : ∀ a, a / 0x1000 ∉ bcPages → a ≠ Reg.ISL_LINK_STATE → a ≠ Reg.ISL_TRAIN_FAIL → t.rd a = s.rd a
  reason : t.fld Reg.ISL_TRAIN_FAIL_REASON = reason
  phase : t.fld Reg.ISL_TRAIN_FAIL_PHASE = s.link
  link : t.link = s.link
  retry : t.fld Reg.ISL_LINK_STATE_RETRY = s.fld Reg.ISL_LINK_STATE_RETRY
  now : t.now = s.now

/-- A failure's figures stand in their register. -/
theorem State.failPut_fld (v : State) (c d e : Nat) (hx : x.addr ≠ Reg.ISL_TRAIN_FAIL) :
    (((v.put Reg.ISL_TRAIN_FAIL_PHASE c).put Reg.ISL_TRAIN_FAIL_REASON d).put Reg.ISL_TRAIN_FAIL_FAILED e).fld x = v.fld x :=
  ((State.fld_put_apart ⟨by decide, Or.inl hx.symm⟩).trans (State.fld_put_apart ⟨by decide, Or.inl hx.symm⟩)).trans
    (State.fld_put_apart ⟨by decide, Or.inl hx.symm⟩)

theorem State.failShown_shown (s : State) (reason : Nat) (hreason : reason < 256) : FailShown reason s (s.failShown reason) := by
  unfold State.failShown
  have hsent := s.trainSend_bcWork 7 [reason]
  dsimp only
  generalize s.trainSend 7 [reason] = v at hsent
  refine ⟨fun a ha hlink hne => ?_, ?_, ?_, (State.failPut_fld v _ _ _ (by decide)).trans hsent.link,
    (State.failPut_fld v _ _ _ (by decide)).trans (hsent.upper _ rfl (by decide)), ?_⟩
  case refine_4 => exact (((v.put_onlyRegs _ _).trans (State.put_onlyRegs _ _ _)).trans (State.put_onlyRegs _ _ _)).now_eq.trans hsent.now_eq
  · rw [State.rd_put_other hne.symm, State.rd_put_other hne.symm, State.rd_put_other hne.symm]
    exact hsent.rd a ha hlink
  · rw [State.fld_put_apart (by decide), State.fld_put_mod (by decide)]
    exact Nat.mod_eq_of_lt hreason
  · rw [State.fld_put_apart (by decide), State.fld_put_apart (by decide), State.fld_put_mod (by decide), hsent.link]
    exact Nat.mod_eq_of_lt (Fld.get_lt _ _)

/-- The effect of ABSENT. -/
structure Absent (s t : State) : Prop where
  link : t.link = lkABSENT
  counts : counted s t Reg.ISL_ABSENT_CNT 1
  raised : s.gateClosed 0x10 = false → raised t 0x10 2
  fld : ∀ x : Fld, x.addr = Reg.ISL_TRAIN_FAIL → t.fld x = s.fld x

theorem State.absent_absent (s : State) : Absent s s.absent := by
  unfold State.absent
  dsimp only
  have hclear : ∀ a, ({ s.linkClear with isl := { s.linkClear.isl with idleSeen := false, wakeDue := false } } : State).rd a = s.rd a :=
    fun _ => rfl
  generalize ({ s.linkClear with isl := { s.linkClear.isl with idleSeen := false, wakeDue := false } } : State) = u at hclear
  have hmain := u.mainLanes_set 0 0
  generalize u.mainLanes 0 0 = v at hmain
  have hset := v.setLink_work lkABSENT
  have hlink := v.setLink_link lkABSENT (by decide)
  generalize v.setLink lkABSENT = y at hset hlink
  have hrd : ∀ a, a / 0x1000 = 0x10 → a ≠ Reg.ISL_LINK_STATE → y.rd a = s.rd a := fun a ha hne =>
    ((hset.rd a (by rw [ha]; decide) hne).trans (hmain.rd a (by omega))).trans (hclear a)
  have hfld : ∀ x : Fld, x.addr = Reg.ISL_TRAIN_FAIL → y.fld x = s.fld x := fun x hx => by
    rw [State.fld, hrd _ (by rw [hx]; decide) (by rw [hx]; decide), State.fld]
  refine ⟨?_, ?_, fun hgate => ?_, fun x hx => ?_⟩
  · rw [State.link, State.fld_raise_other (by decide), State.fld_bump_other (by decide)]
    exact hlink
  · refine counted_trans_left (State.raise_rd_other _ _ _ _ (by decide)) (counted_trans_right (hrd _ (by decide) (by decide)) ?_)
    exact counted_of_rd rfl (by decide)
  · refine State.fld_raise_self ?_ (by decide)
    rw [State.gateClosed_bump (by decide)]
    exact (State.gateClosed_congr (hrd _ (by decide) (by decide))).trans hgate
  · rw [State.fld_raise_other (by rw [hx]; decide), State.fld_bump_other (by rw [hx]; decide)]
    exact hfld x hx

theorem Attempted.fld (h : Attempted n s t) (hx : x.addr / 0x1000 ∉ bcPages) (hne : x.addr ≠ Reg.ISL_LINK_STATE) : t.fld x = s.fld x := by
  rw [State.fld, h.rd _ hx hne, State.fld]

theorem Attempted.now_eq (h : Attempted n s t) : t.now = s.now := by obtain ⟨_, _, _, _, _, _, _, rfl⟩ := h.state; rfl

/-- What an attempt that fails shows of it, whichever way it goes on. -/
theorem State.attemptFail_reason (h : s.training = true) {reason : Nat} (hreason : reason < 256) :
    (s.attemptFail reason).fld Reg.ISL_TRAIN_FAIL_REASON = reason ∧ (s.attemptFail reason).fld Reg.ISL_TRAIN_FAIL_PHASE = s.link := by
  have hshown := s.failShown_shown reason hreason
  rw [State.attemptFail_eq reason h]
  generalize s.failShown reason = v at hshown
  split
  · have hattempt := v.attempt_attempted (v.fld Reg.ISL_LINK_STATE_RETRY + 1)
    exact ⟨(hattempt.fld (by decide) (by decide)).trans hshown.reason, (hattempt.fld (by decide) (by decide)).trans hshown.phase⟩
  · have habsent := v.absent_absent
    exact ⟨(habsent.fld _ rfl).trans hshown.reason, (habsent.fld _ rfl).trans hshown.phase⟩

theorem State.attemptFail_again (h : s.training = true) {reason : Nat} (hreason : reason < 256) (hretry : s.fld Reg.ISL_LINK_STATE_RETRY < 3) :
    (s.attemptFail reason).link = lkDETECT ∧
    (s.attemptFail reason).fld Reg.ISL_LINK_STATE_RETRY = s.fld Reg.ISL_LINK_STATE_RETRY + 1 := by
  have hshown := s.failShown_shown reason hreason
  rw [State.attemptFail_eq reason h]
  generalize s.failShown reason = v at hshown
  rw [hshown.retry, if_pos hretry]
  have hattempt := v.attempt_attempted (s.fld Reg.ISL_LINK_STATE_RETRY + 1)
  exact ⟨hattempt.link, hattempt.retry.trans (Nat.mod_eq_of_lt (by omega))⟩

theorem State.attemptFail_last (h : s.training = true) {reason : Nat} (hreason : reason < 256) (hretry : s.fld Reg.ISL_LINK_STATE_RETRY = 3)
    (hgate : s.gateClosed 0x10 = false) :
    (s.attemptFail reason).link = lkABSENT ∧ counted s (s.attemptFail reason) Reg.ISL_ABSENT_CNT 1 ∧
    raised (s.attemptFail reason) 0x10 2 := by
  have hshown := s.failShown_shown reason hreason
  rw [State.attemptFail_eq reason h]
  generalize s.failShown reason = v at hshown
  rw [hshown.retry, if_neg (by omega)]
  have habsent := v.absent_absent
  exact ⟨habsent.link, counted_trans_right (hshown.rd _ (by decide) (by decide) (by decide)) habsent.counts,
    habsent.raised ((State.gateClosed_congr (hshown.rd _ (by decide) (by decide) (by decide))).trans hgate)⟩

theorem State.training_congr (h : t.link = s.link) : t.training = s.training := by rw [State.training, h, State.training]

theorem exec_trainFail_came (hlive : s.boot.resetLow = false) {bytes d : List Byte} (h : trainCame s bytes 7 d) (htrain : s.training = true)
    (hfast : s.isl.fast = 0) (hretry : s.fld Reg.ISL_LINK_STATE_RETRY < 3) :
    ∃ t, exec (.trainFail bytes) s = .next t ∧
      t.link = lkDETECT ∧ t.fld Reg.ISL_LINK_STATE_RETRY = s.fld Reg.ISL_LINK_STATE_RETRY + 1 ∧
      t.fld Reg.ISL_TRAIN_FAIL_REASON = 6 ∧ t.fld Reg.ISL_TRAIN_FAIL_PHASE = s.link := by
  have hexec := exec_train (cmd := exec (.trainFail bytes)) (exec_trainFail s bytes) hlive h (by decide)
  have hseen := s.frameSeen
  generalize s.bump Reg.ISL_BC_RX_FRAMES = v at hexec hseen
  have hlink : v.link = s.link := hseen.fld (by decide) (by decide)
  have hkept : v.fld Reg.ISL_LINK_STATE_RETRY = s.fld Reg.ISL_LINK_STATE_RETRY := hseen.fld (by decide) (by decide)
  have htrain' := (State.training_congr hlink).trans htrain
  have hrow : v.trainFrame 7 d = v.attemptFail 6 := if_neg (by rw [hseen.only.isl_eq]; exact fun hne => hne hfast)
  obtain ⟨hreason, hphase⟩ := State.attemptFail_reason htrain' (reason := 6) (by decide)
  obtain ⟨hdetect, hcount⟩ := State.attemptFail_again htrain' (reason := 6) (by decide) (hkept ▸ hretry)
  rw [hrow] at hexec
  generalize v.attemptFail 6 = t at hexec hreason hphase hdetect hcount
  exact ⟨_, hexec, hdetect, hcount.trans (congrArg (· + 1) hkept), hreason, hphase.trans hlink⟩

theorem exec_phaseTimeout_last (hlive : s.boot.resetLow = false) (htrain : s.training = true) (hfast : s.isl.fast = 0)
    (hhold : s.isl.hold = false) (hretry : s.fld Reg.ISL_LINK_STATE_RETRY = 3) (hgate : s.gateClosed 0x10 = false) :
    ∃ t, exec (.trainPhaseTimeout 0) s = .next t ∧
      t.link = lkABSENT ∧ counted s t Reg.ISL_ABSENT_CNT 1 ∧ raised t 0x10 2 ∧
      t.fld Reg.ISL_TRAIN_FAIL_REASON = (if s.link = lkRATE then 2 else 1) := by
  have hexec := (exec_trainPhaseTimeout s 0).trans (State.unheld_live hlive)
  obtain ⟨n, hn⟩ : ∃ n, s.phaseExpires 0 = (s.advance n).attemptFail (if s.link = lkRATE then 2 else 1) := by
    refine ⟨s.isl.since + 10000 * ticksPerUs, ?_⟩
    refine (if_pos rfl : s.phaseExpires 0 = s.phaseTimeout).trans ?_
    unfold State.phaseTimeout
    dsimp only
    rw [if_neg (by omega), if_pos ⟨htrain, hhold⟩]
  have hlink : (s.advance n).link = s.link := State.fld_advance (by decide)
  have hkept : (s.advance n).fld Reg.ISL_LINK_STATE_RETRY = s.fld Reg.ISL_LINK_STATE_RETRY := State.fld_advance (by decide)
  have hopen : (s.advance n).gateClosed 0x10 = false := (State.gateClosed_advance (by decide)).trans hgate
  have hcnt : (s.advance n).rd Reg.ISL_ABSENT_CNT = s.rd Reg.ISL_ABSENT_CNT := State.rd_advance (by decide)
  rw [hn] at hexec
  clear hn
  generalize s.advance n = v at hexec hlink hkept hopen hcnt
  have hsmall : (if s.link = lkRATE then 2 else 1) < 256 := by split <;> decide
  generalize (if s.link = lkRATE then 2 else 1) = reason at hexec hsmall ⊢
  have htrain' := (State.training_congr hlink).trans htrain
  obtain ⟨hreason, -⟩ := State.attemptFail_reason htrain' hsmall
  obtain ⟨habsent, hcount, hraised⟩ := State.attemptFail_last htrain' hsmall (hkept.trans hretry) hopen
  exact ⟨_, hexec, habsent, counted_trans_right hcnt hcount, hraised, hreason⟩

/-! RATE (R82, R83). -/

/-- The codes in use, with the locks of the lanes forgotten. -/
def State.codesSet (s : State) (lanes rate : Nat) : State :=
  ((s.put Reg.ISL_LINK_STATE_LANES lanes).put Reg.ISL_LINK_STATE_RATE rate).each (List.range 16) (fun k s =>
    s.put (Reg.PHY_RXSTAT_LOCK (phyBase (laneIsl k))) 0)

theorem State.codesSet_fld (s : State) (lanes rate : Nat) (hx : x.addr / 0x1000 < 0x11) : (s.codesSet lanes rate).fld x =
    ((s.put Reg.ISL_LINK_STATE_LANES lanes).put Reg.ISL_LINK_STATE_RATE rate).fld x := by
  refine State.each_induct (fun t => t.fld x = _) (List.range 16) _ (fun k t ht =>
    (State.fld_put_apart ⟨show 0 + 1 ≤ 32 by decide, Or.inl ?_⟩).trans ht) _ rfl
  intro hc
  have hpage := phyBase_page (laneIsl k) 0xC
  rw [show phyBase (laneIsl k) + 0xC = x.addr from hc] at hpage
  omega

/-- The codes that CAPS set, and the frame that says them (R83). -/
def State.rateOpens (s : State) (n r : Nat) : State :=
  ((((s.trainSend 3 []).phase lkRATE).codesSet n r).mainLanes (2 ^ n) r).trainSend 2 [n, r]

theorem State.rateOpens_effect (s : State) (n r : Nat) (hn : n < 8) (hr : r < 8) :
    (s.rateOpens n r).link = lkRATE ∧ (s.rateOpens n r).fld Reg.ISL_LINK_STATE_LANES = n ∧
    (s.rateOpens n r).fld Reg.ISL_LINK_STATE_RATE = r := by
  unfold State.rateOpens
  have hphase := (s.trainSend 3 []).phase_phased lkRATE (by decide)
  generalize (s.trainSend 3 []).phase lkRATE = u at hphase
  have hset := fun x (hx : x.addr / 0x1000 < 0x11) => u.codesSet_fld n r (x := x) hx
  generalize u.codesSet n r = v at hset
  have hmain := v.mainLanes_set (2 ^ n) r
  generalize v.mainLanes (2 ^ n) r = y at hmain
  have hsent := y.trainSend_bcWork 2 [n, r]
  generalize y.trainSend 2 [n, r] = z at hsent
  have hx (x : Fld) (h : x.addr = Reg.ISL_LINK_STATE) (hlo : 4 ≤ x.lo) : z.fld x =
      ((u.put Reg.ISL_LINK_STATE_LANES n).put Reg.ISL_LINK_STATE_RATE r).fld x :=
    ((hsent.upper x h hlo).trans (hmain.fld (by rw [h]; decide))).trans (hset x (by rw [h]; decide))
  refine ⟨?_, ?_, ?_⟩
  · refine ((hsent.link.trans hmain.link).trans (hset _ (by decide))).trans ?_
    rw [State.fld_put_apart (by decide), State.fld_put_apart (by decide)]
    exact hphase.link
  · rw [hx _ rfl (by decide), State.fld_put_apart (by decide), State.fld_put_mod (by decide)]
    exact Nat.mod_eq_of_lt hn
  · rw [hx _ rfl (by decide), State.fld_put_mod (by decide)]
    exact Nat.mod_eq_of_lt hr

theorem exec_trainCaps_came (hlive : s.boot.resetLow = false) {bytes d : List Byte} (h : trainCame s bytes 1 d) (hlink : s.link = lkDETECT) :
    (byteAt d 2 % 32 ≠ 0 → s.isl.capLanes ≤ 4 → s.isl.capRate ≤ 7 →
      ∃ t, exec (.trainCaps bytes) s = .next t ∧ t.link = lkRATE ∧
        t.fld Reg.ISL_LINK_STATE_LANES = min (byteAt d 0) s.isl.capLanes ∧
        t.fld Reg.ISL_LINK_STATE_RATE = min (byteAt d 1) s.isl.capRate) ∧
    (byteAt d 2 % 32 = 0 → ∃ t, exec (.trainCaps bytes) s = .next t ∧ t.fld Reg.ISL_TRAIN_FAIL_REASON = 5) := by
  have hexec := exec_train (cmd := exec (.trainCaps bytes)) (exec_trainCaps s bytes) hlive h (by decide)
  have hseen := s.frameSeen
  generalize s.bump Reg.ISL_BC_RX_FRAMES = v at hexec hseen
  have hvlink : v.link = lkDETECT := Eq.trans (hseen.fld (by decide) (by decide)) hlink
  have hvlanes : v.isl.capLanes = s.isl.capLanes := by rw [hseen.only.isl_eq]
  have hvrate : v.isl.capRate = s.isl.capRate := by rw [hseen.only.isl_eq]
  refine ⟨fun hmask hlanes hrate => ?_, fun hmask => ?_⟩
  · have hrow : v.trainFrame 1 d = v.rateOpens (min (byteAt d 0) s.isl.capLanes) (min (byteAt d 1) s.isl.capRate) := by
      show v.trainCaps _ _ _ = _
      unfold State.trainCaps
      rw [if_neg (by rw [hvlink]; decide), if_neg hmask, hvlanes, hvrate,
        show min (min (byteAt d 1) 7) s.isl.capRate = min (byteAt d 1) s.isl.capRate by omega]
      rfl
    have heffect := v.rateOpens_effect (min (byteAt d 0) s.isl.capLanes) (min (byteAt d 1) s.isl.capRate) (by omega) (by omega)
    rw [hrow] at hexec
    generalize v.rateOpens _ _ = t at hexec heffect
    exact ⟨_, hexec, heffect⟩
  · have hrow : v.trainFrame 1 d = v.attemptFail 5 := by
      show v.trainCaps _ _ _ = _
      unfold State.trainCaps
      rw [if_neg (by rw [hvlink]; decide), if_pos hmask]
    have hreason := State.attemptFail_reason (s := v) (reason := 5) (by rw [State.training, hvlink]; decide) (by decide)
    rw [hrow] at hexec
    generalize v.attemptFail 5 = t at hexec hreason
    exact ⟨_, hexec, hreason.1⟩

/-- The lanes that lock (R83). -/
structure Locked (n : Nat) (s t : State) : Prop where
  only : OnlyRegs s t
  rd : ∀ a, (∀ k, k < 16 → Reg.PHY_RXSTAT (phyBase k) ≠ a) → t.rd a = s.rd a
  locks : ∀ k, k < n → t.flag (Reg.PHY_RXSTAT_LOCK (phyBase k)) = true

theorem phyBase_isl (hk : k < 16) : phyBase k = (0x11 + k) * 0x1000 + 0x400 := if_pos hk

theorem rxstat_ne {off : Nat} (hl : l < 16) (hoff : off ≠ 0xC) (hsmall : off < 0xC00) : ∀ k, k < 16 → Reg.PHY_RXSTAT (phyBase k) ≠ phyBase l + off := by
  intro k hk
  rw [Reg.PHY_RXSTAT, phyBase_isl hk, phyBase_isl hl]
  omega

theorem Locked.carries (h : Locked n s t) (hl : l < 16) : t.laneCarries l = s.laneCarries l := by
  have hfld : ∀ off lo w, off ≠ 0xC → off < 0xC00 → t.fld ⟨phyBase l + off, lo, w⟩ = s.fld ⟨phyBase l + off, lo, w⟩ := fun off lo w h1 h2 => by
    rw [State.fld, h.rd _ (rxstat_ne hl h1 h2), State.fld]
  have hmate : laneMate l = l := by
    unfold laneMate
    rw [if_neg (by omega), if_neg (by omega), if_neg (by omega), if_neg (by omega)]
  have hlane : t.lane l = s.lane l := by rw [State.lane, h.only.phy_eq, State.lane]
  simp only [State.laneCarries, State.laneInL0, State.laneCur, State.looped, hmate, hlane, Reg.PHY_LSTATE_CUR, Reg.PHY_LSTATE,
    Reg.PHY_PRBS_LOOP, Reg.PHY_PRBS, hfld 0 _ _ (by decide) (by decide), hfld 0x48 _ _ (by decide) (by decide)]

theorem State.laneLocked_flag (s : State) (inv : Bool) (l : Nat) :
    (s.laneLocked l inv).flag (Reg.PHY_RXSTAT_LOCK (phyBase l)) = true := by
  have hput : (s.put (Reg.PHY_RXSTAT_LOCK (phyBase l)) 1).fld (Reg.PHY_RXSTAT_LOCK (phyBase l)) = 1 :=
    State.fld_put_mod (show 0 + 1 ≤ 32 by decide)
  have hlock : (s.laneLocked l inv).fld (Reg.PHY_RXSTAT_LOCK (phyBase l)) = 1 := by
    unfold State.laneLocked
    dsimp only
    split
    · exact (State.fld_put_apart ⟨show 3 + 1 ≤ 32 by decide, Or.inr (Or.inl (show 0 + 1 ≤ 3 by decide))⟩).trans hput
    · exact hput
  rw [State.flag, hlock]
  rfl

theorem State.laneLocked_onlyRegs (s : State) (inv : Bool) (l : Nat) : OnlyRegs s (s.laneLocked l inv) := by
  unfold State.laneLocked
  dsimp only
  split
  · exact (s.put_onlyRegs _ _).trans (State.put_onlyRegs _ _ _)
  · exact s.put_onlyRegs _ _

theorem State.laneLocked_rd (s : State) (inv : Bool) (h : Reg.PHY_RXSTAT (phyBase l) ≠ a) : (s.laneLocked l inv).rd a = s.rd a := by
  unfold State.laneLocked
  dsimp only
  split
  · exact (State.rd_put_other (x := Reg.PHY_RXSTAT_INVERTED (phyBase l)) h).trans (State.rd_put_other (x := Reg.PHY_RXSTAT_LOCK (phyBase l)) h)
  · exact State.rd_put_other (x := Reg.PHY_RXSTAT_LOCK (phyBase l)) h

theorem State.each_locked (s : State) (blocks : List (List Byte)) (inv : Nat) : ∀ n, n ≤ 16 →
    (∀ k, k < n → s.laneCarries (laneIsl k) = true ∧ blockGood (copyOn blocks k) = true ∧ byteAt (copyOn blocks k) 0 = rowTS1) →
    Locked n s (s.each (List.range n) (fun k s =>
      if s.laneCarries (laneIsl k) && blockGood (copyOn blocks k) && byteAt (copyOn blocks k) 0 == rowTS1 then
        s.laneLocked (laneIsl k) (bit inv k)
      else s))
  | 0, _, _ => ⟨⟨s.regs, s.nv.log, s.isl.rises, rfl⟩, fun _ _ => rfl, fun _ hk => absurd hk (Nat.not_lt_zero _)⟩
  | n + 1, hn, h => by
    have ih := State.each_locked s blocks inv n (by omega) (fun k hk => h k (by omega))
    rw [State.each_succ]
    generalize s.each (List.range n) _ = v at ih
    obtain ⟨hcarries, hgood, hts1⟩ := h n (by omega)
    have hv : v.laneCarries n = true := (ih.carries (by omega)).trans hcarries
    rw [if_pos (by rw [laneIsl, hv, hgood, hts1]; rfl)]
    refine ⟨ih.only.trans (v.laneLocked_onlyRegs _ _), fun a ha => (v.laneLocked_rd _ (ha n (by omega))).trans (ih.rd a ha), fun k hk => ?_⟩
    by_cases hkn : k = n
    · subst hkn
      exact v.laneLocked_flag _ _
    · refine Eq.trans ?_ (ih.locks k (by omega))
      rw [State.flag, State.fld, v.laneLocked_rd _ (by simp only [laneIsl, Reg.PHY_RXSTAT_LOCK, Reg.PHY_RXSTAT, phyBase_isl (show n < 16 by omega), phyBase_isl (show k < 16 by omega)]; omega)]
      rfl

/-- The presets that EQ is to try. -/
def State.presetsListed (s : State) : State :=
  { s with isl := { s.isl with presets := s.presetList, asked := [], heights := [], settling := false } }

theorem State.presetsListed_keeps (s : State) : LinkKeeps s s.presetsListed := s.isl_linkKeeps _
theorem State.presetsListed_link (s : State) : s.presetsListed.link = s.link := rfl

/-- Every lane has locked: EQ opens (R83). -/
theorem State.rateDone_opens (h : ∀ k, k < s.islLanes → s.flag (Reg.PHY_RXSTAT_LOCK (phyBase k)) = true) :
    s.rateDone.link = lkEQ ∧ LinkKeeps s s.rateDone := by
  have hdone : s.rateDone = ((s.trainSend 3 []).phase lkEQ).presetsListed.presetReq
      ((s.trainSend 3 []).phase lkEQ).presetsListed.laneMask (((s.trainSend 3 []).phase lkEQ).presetList.headD 0) :=
    if_pos (List.all_eq_true.2 fun k hk => h k (List.mem_range.1 hk))
  have hsent := s.trainSend_bcWork 3 []
  rw [hdone]
  clear hdone
  generalize s.trainSend 3 [] = u at hsent
  have hphase := u.phase_phased lkEQ (by decide)
  generalize u.phase lkEQ = v at hphase
  have hlisted := v.presetsListed_keeps
  have hlink := v.presetsListed_link
  generalize v.presetsListed = y at hlisted hlink
  have hasked := y.presetReq_asked y.laneMask (v.presetList.headD 0)
  exact ⟨(hasked.link.trans hlink).trans hphase.link, ((hsent.keeps.trans hphase.keeps).trans hlisted).trans hasked.keeps⟩

theorem exec_ts1_locks (hlive : s.boot.resetLow = false) (blocks : List (List Byte)) (inv : Nat) (hlink : s.link = lkRATE)
    (h : ∀ k, k < s.islLanes → s.laneCarries (laneIsl k) = true ∧
      blockGood (copyOn blocks k) = true ∧ byteAt (copyOn blocks k) 0 = rowTS1) :
    ∃ t, exec (.ts1Block 0 blocks inv) s = .next t ∧ t.link = lkEQ ∧
      ∀ k, k < s.islLanes → t.flag (Reg.PHY_RXSTAT_LOCK (phyBase k)) = true := by
  have hexec := (exec_ts1Block s 0 blocks inv).trans (State.unheld_live hlive)
  have hlocked := s.each_locked blocks inv s.islLanes (islLanes_le s) h
  have hrow : s.ts1Block 0 blocks inv = (s.each (List.range s.islLanes) (fun k s =>
      if s.laneCarries (laneIsl k) && blockGood (copyOn blocks k) && byteAt (copyOn blocks k) 0 == rowTS1 then
        s.laneLocked (laneIsl k) (bit inv k)
      else s)).rateDone := (if_pos rfl).trans (if_pos hlink)
  rw [hrow] at hexec
  clear hrow
  generalize s.each (List.range s.islLanes) _ = v at hexec hlocked
  have hlanes : v.islLanes = s.islLanes := islLanes_of_fld (by
    rw [State.fld, hlocked.rd _ (fun k hk => by rw [Reg.PHY_RXSTAT, phyBase_isl hk]; simp only [Reg.ISL_LINK_STATE_LANES, Reg.ISL_LINK_STATE]; omega), State.fld])
  obtain ⟨heq, hkeeps⟩ := State.rateDone_opens (s := v) (fun k hk => hlocked.locks k (hlanes ▸ hk))
  generalize v.rateDone = t at hexec heq hkeeps
  refine ⟨_, hexec, heq, fun k hk => ?_⟩
  rw [State.left_flag, State.flag, hkeeps.fld (phy_not_bc k 0xC) (by
    rw [show (Reg.PHY_RXSTAT_LOCK (phyBase k)).addr = phyBase k + 0xC from rfl, phyBase_isl (by have := islLanes_le s; omega)]
    simp only [Reg.ISL_LINK_STATE]
    omega)]
  exact hlocked.locks k hk

/-! EQ (R83, R500). -/

/-- The heights of a preset are kept: registers of lanes and the heights alone change. -/
structure HeightsKept (s t : State) : Prop where
  rd : ∀ a, a / 0x1000 < 0x11 → t.rd a = s.rd a
  isl : ∃ h, t.isl = { s.isl with heights := h }

theorem HeightsKept.fld (h : HeightsKept s t) (hx : x.addr / 0x1000 < 0x11) : t.fld x = s.fld x := by
  rw [State.fld, h.rd _ hx, State.fld]

theorem lstat_page (k : Nat) : 0x11 ≤ Reg.ISL_LANE_LSTAT k / 0x1000 := by
  simp only [Reg.ISL_LANE_LSTAT]
  omega

/-- One lane's height, kept when it is the best so far. -/
def State.heightKept (s : State) (first : Bool) (p k h : Nat) : State :=
  if first ∨ Cells.get (fun _ => 0) s.isl.heights k < h + 1 then
    { s.put (Reg.ISL_LANE_LSTAT_PRESET k) p with isl := { s.isl with heights := Cells.set (fun _ => 0) s.isl.heights k (h + 1) } }
  else s

theorem State.heightKept_kept (s : State) (first : Bool) (p k h : Nat) : HeightsKept s (s.heightKept first p k h) := by
  unfold State.heightKept
  split
  · refine ⟨fun a ha => ?_, _, rfl⟩
    have hne : Reg.ISL_LANE_LSTAT k ≠ a := by
      rintro rfl
      exact absurd (lstat_page k) (by omega)
    have hput : (s.put (Reg.ISL_LANE_LSTAT_PRESET k) p).rd a = s.rd a := State.rd_put_other hne
    exact hput
  · exact ⟨fun _ _ => rfl, s.isl.heights, rfl⟩

theorem State.each_heights (s : State) (l : List Nat) (first : Bool) (p : Nat) (eyes : List (Nat × Nat)) :
    HeightsKept s (s.each l (fun k s => s.heightKept first p k (eyeHeight (eyes.getD k (0, 0)).1 (eyes.getD k (0, 0)).2))) := by
  refine State.each_induct (fun t => HeightsKept s t) l _ (fun k t ht => ?_) s ⟨fun _ _ => rfl, s.isl.heights, rfl⟩
  have h := t.heightKept_kept first p k (eyeHeight (eyes.getD k (0, 0)).1 (eyes.getD k (0, 0)).2)
  generalize t.heightKept first p k _ = v at h
  refine ⟨fun a ha => (h.rd a ha).trans (ht.rd a ha), ?_⟩
  obtain ⟨h1, heq1⟩ := ht.isl
  obtain ⟨h2, heq2⟩ := h.isl
  exact ⟨h2, by rw [heq2, heq1]⟩

/-- The presets still to try. -/
def State.presetsLeft (s : State) (l : List Nat) : State := { s with isl := { s.isl with presets := l } }

theorem State.presetsLeft_fld (s : State) (l : List Nat) (x : Fld) : (s.presetsLeft l).fld x = s.fld x := rfl
theorem State.presetsLeft_isl (s : State) (l : List Nat) : (s.presetsLeft l).isl = { s.isl with presets := l } := rfl

/-- The heights of a preset, lane by lane. -/
def State.heightsKept (s : State) (p : Nat) (eyes : List (Nat × Nat)) : State :=
  s.each (List.range s.islLanes) (fun k t => t.heightKept s.isl.heights.isEmpty p k (eyeHeight (eyes.getD k (0, 0)).1 (eyes.getD k (0, 0)).2))

theorem State.heightsKept_kept (s : State) (p : Nat) (eyes : List (Nat × Nat)) : HeightsKept s (s.heightsKept p eyes) :=
  s.each_heights ..

theorem State.eqMeasured_next (eyes : List (Nat × Nat)) {p q : Nat} {rest : List Nat} (hlink : s.link = lkEQ) (hasked : s.isl.asked = [])
    (hsettling : s.isl.settling = false) (hpresets : s.isl.presets = p :: q :: rest) :
    s.eqMeasured eyes = ((s.heightsKept p eyes).presetsLeft (q :: rest)).presetReq
      ((s.heightsKept p eyes).presetsLeft (q :: rest)).laneMask q := by
  unfold State.eqMeasured
  rw [if_neg (by rw [hlink, hasked]; decide), if_neg (by rw [hsettling]; decide), hpresets]
  rfl

theorem exec_eqMeasure_cases (hlive : s.boot.resetLow = false) (eyes : List (Nat × Nat)) (hlink : s.link = lkEQ) (hasked : s.isl.asked = []) :
    (s.isl.settling = true → ∃ t, exec (.eqPresetMeasure 0 eyes) s = .next t ∧ t.link = lkALIGN) ∧
    (∀ p q rest, s.isl.settling = false → s.isl.presets = p :: q :: rest →
      ∃ t, exec (.eqPresetMeasure 0 eyes) s = .next t ∧ t.link = lkEQ ∧ t.isl.presets = q :: rest ∧
        t.isl.asked = [(2 ^ s.islLanes - 1, q)]) := by
  have hexec := (exec_eqPresetMeasure s 0 eyes).trans (State.unheld_live hlive)
  rw [show s.eqMeasure 0 eyes = s.eqMeasured eyes from if_pos rfl] at hexec
  refine ⟨fun hsettling => ?_, fun p q rest hsettling hpresets => ?_⟩
  · obtain ⟨u, hu⟩ : ∃ u : State, s.eqMeasured eyes = u.phase lkALIGN := by
      unfold State.eqMeasured
      rw [if_neg (by rw [hlink, hasked]; decide), if_pos hsettling]
      exact ⟨_, rfl⟩
    rw [hu] at hexec
    have hphase := u.phase_phased lkALIGN (by decide)
    generalize u.phase lkALIGN = t at hexec hphase
    exact ⟨_, hexec, hphase.link⟩
  · rw [State.eqMeasured_next eyes hlink hasked hsettling hpresets] at hexec
    have hkept := s.heightsKept_kept p eyes
    generalize s.heightsKept p eyes = v at hexec hkept
    have hfld : ∀ x : Fld, x.addr / 0x1000 < 0x11 → (v.presetsLeft (q :: rest)).fld x = s.fld x := fun x hx =>
      (v.presetsLeft_fld _ x).trans (hkept.fld hx)
    have hisl := v.presetsLeft_isl (q :: rest)
    generalize v.presetsLeft (q :: rest) = y at hexec hfld hisl
    have hreq := y.presetReq_asked y.laneMask q
    have hmask : y.laneMask = 2 ^ s.islLanes - 1 := by rw [State.laneMask, islLanes_of_fld (hfld _ (by decide))]
    generalize y.presetReq y.laneMask q = t at hexec hreq
    obtain ⟨h, hheights⟩ := hkept.isl
    refine ⟨_, hexec, (hreq.link.trans (hfld _ (by decide))).trans hlink, ?_, ?_⟩
    · rw [State.left_isl, hreq.isl, hisl]
    · rw [State.left_isl, hreq.isl, hisl, hheights, hmask]
      exact congrArg (· ++ [_]) hasked

/-- A bisection between a point that passes and one that does not closes in on the height between them (R500). -/
theorem edgeBisect_height {pass h : Nat} (hpass : ∀ m, 0 < m → m < 128 → (bit pass m = true ↔ m ≤ h)) :
    ∀ n lo hi, hi = lo + 2 ^ n → lo ≤ h → h < hi → hi ≤ 128 → edgeBisect pass n lo hi = h
  | 0, lo, hi, hw, hlo, hhi, _ => by rw [edgeBisect]; omega
  | n + 1, lo, hi, hw, hlo, hhi, hmax => by
    have hmid : (lo + hi) / 2 = lo + 2 ^ n := by rw [hw, Nat.pow_succ]; omega
    have hpos : 0 < 2 ^ n := Nat.two_pow_pos n
    have hhalf : hi = lo + 2 ^ n + 2 ^ n := by rw [hw, Nat.pow_succ]; omega
    have hiff := hpass (lo + 2 ^ n) (by omega) (by omega)
    rw [edgeBisect, hmid]
    by_cases hle : lo + 2 ^ n ≤ h
    · rw [if_pos (Or.inr (hiff.2 hle))]
      exact edgeBisect_height hpass n _ _ hhalf hle hhi hmax
    · rw [if_neg (not_or.2 ⟨by omega, fun hc => hle (hiff.1 hc)⟩)]
      exact edgeBisect_height hpass n _ _ rfl hlo (by omega) (by omega)

theorem eyeHeight_even {up down h : Nat} (hup : ∀ m, 0 < m → m < 128 → (bit up m = true ↔ m ≤ h))
    (hdown : ∀ m, 0 < m → m < 128 → (bit down m = true ↔ m ≤ h)) (hh : h < 128) : eyeHeight up down = 2 * h := by
  rw [eyeHeight, edgeBisect_height hup 7 0 128 rfl (Nat.zero_le _) hh (by decide),
    edgeBisect_height hdown 7 0 128 rfl (Nat.zero_le _) hh (by decide)]
  omega

/-! ALIGN (R83, R500). -/

/-- The skews of the lanes are shown. -/
structure Skewed (skews : List Nat) (n : Nat) (s t : State) : Prop where
  rd : ∀ a, a / 0x1000 < 0x11 → t.rd a = s.rd a
  skew : ∀ k, k < n → t.fld (Reg.ISL_LANE_LSTAT_SKEW k) = skews.getD k 0

theorem State.each_skewed (s : State) (skews : List Nat) : ∀ n, (∀ k, k < n → skews.getD k 0 ≤ 256) →
    Skewed skews n s (s.each (List.range n) (fun k s => s.put (Reg.ISL_LANE_LSTAT_SKEW k) (skews.getD k 0)))
  | 0, _ => ⟨fun _ _ => rfl, fun _ hk => absurd hk (Nat.not_lt_zero _)⟩
  | n + 1, h => by
    have ih := State.each_skewed s skews n (fun k hk => h k (by omega))
    rw [State.each_succ]
    generalize s.each (List.range n) _ = v at ih
    refine ⟨fun a ha => (State.rd_put_other (x := Reg.ISL_LANE_LSTAT_SKEW n) ?_).trans (ih.rd a ha), fun k hk => ?_⟩
    · rintro rfl
      exact absurd (lstat_page n) (by simp only [Reg.ISL_LANE_LSTAT_SKEW] at ha; omega)
    · by_cases hkn : k = n
      · subst hkn
        have hsmall := h k (by omega)
        exact (State.fld_put_mod (show 0 + 9 ≤ 32 by decide)).trans (Nat.mod_eq_of_lt (show _ < 2 ^ 9 by omega))
      · refine (State.fld_put_apart ⟨show 0 + 9 ≤ 32 by decide, Or.inl ?_⟩).trans (ih.skew k (by omega))
        show Reg.ISL_LANE_LSTAT n ≠ Reg.ISL_LANE_LSTAT k
        simp only [Reg.ISL_LANE_LSTAT]
        omega

/-- ALIGN ends (R83). -/
def State.alignDone (s : State) : State := ((s.trainSend 3 []).phase lkREADY).readySend

theorem State.alignDone_done (s : State) : s.alignDone.link = lkREADY ∧ s.alignDone.isl.ready = 1 ∧ LinkKeeps s s.alignDone := by
  unfold State.alignDone
  have hsent := s.trainSend_bcWork 3 []
  generalize s.trainSend 3 [] = u at hsent
  have hphase := u.phase_phased lkREADY (by decide)
  generalize u.phase lkREADY = v at hphase
  have hready := v.readySend_sent
  exact ⟨hready.link.trans hphase.link, hready.ready, (hsent.keeps.trans hphase.keeps).trans hready.keeps⟩

/-- An ALN row whose copies are all whole, by what its lanes say (R83, R500). -/
theorem State.aln_whole (blocks : List (List Byte)) (skews : List Nat) (hlink : s.link = lkALIGN)
    (h : ∀ k, k < s.islLanes → blockGood (copyOn blocks k) = true ∧ byteAt (copyOn blocks k) 0 = rowALN) :
    s.aln blocks skews =
      if (List.range s.islLanes).any (fun k => byteAt (copyOn blocks k) 1 % 16 ≠ k) then (s.ctlCopies blocks).attemptFail 3
      else if (List.range s.islLanes).any (fun k => 256 < skews.getD k 0) then (s.ctlCopies blocks).attemptFail 4
      else ((s.ctlCopies blocks).each (List.range s.islLanes) (fun k s => s.put (Reg.ISL_LANE_LSTAT_SKEW k) (skews.getD k 0))).alignDone := by
  unfold State.aln
  rw [if_neg (fun hne => hne hlink)]
  dsimp only
  rw [if_neg]
  · rfl
  · rw [Bool.not_eq_true', Bool.not_eq_false, List.all_eq_true]
    intro k hk
    obtain ⟨hgood, haln⟩ := h k (List.mem_range.1 hk)
    rw [hgood, haln]
    rfl

theorem exec_alnRow_cases (hlive : s.boot.resetLow = false) (blocks : List (List Byte)) (skews : List Nat) (hlink : s.link = lkALIGN)
    (h : ∀ k, k < s.islLanes → blockGood (copyOn blocks k) = true ∧ byteAt (copyOn blocks k) 0 = rowALN) :
    ((∀ k, k < s.islLanes → byteAt (copyOn blocks k) 1 % 16 = k ∧ skews.getD k 0 ≤ 256) →
      ∃ t, exec (.alnRow 0 blocks skews) s = .next t ∧ t.link = lkREADY ∧ t.isl.ready = 1 ∧
        ∀ k, k < s.islLanes → t.fld (Reg.ISL_LANE_LSTAT_SKEW k) = skews.getD k 0) ∧
    ((∃ k, k < s.islLanes ∧ byteAt (copyOn blocks k) 1 % 16 ≠ k) →
      ∃ t, exec (.alnRow 0 blocks skews) s = .next t ∧ t.fld Reg.ISL_TRAIN_FAIL_REASON = 3) ∧
    ((∀ k, k < s.islLanes → byteAt (copyOn blocks k) 1 % 16 = k) → (∃ k, k < s.islLanes ∧ 256 < skews.getD k 0) →
      ∃ t, exec (.alnRow 0 blocks skews) s = .next t ∧ t.fld Reg.ISL_TRAIN_FAIL_REASON = 4) := by
  have hexec := (exec_alnRow s 0 blocks skews).trans (State.unheld_live hlive)
  rw [show s.alnRow 0 blocks skews = s.aln blocks skews from if_pos rfl, State.aln_whole blocks skews hlink h] at hexec
  have hcopied := s.ctlCopies_copied blocks
  generalize s.ctlCopies blocks = v at hexec hcopied
  have hvlink : v.link = lkALIGN := by rw [State.link, State.fld, hcopied.rd _ (by decide)]; exact hlink
  have htrain : v.training = true := by rw [State.training, hvlink]; decide
  refine ⟨fun hgood => ?_, fun ⟨k, hk, hbad⟩ => ?_, fun horder ⟨k, hk, hwide⟩ => ?_⟩
  · rw [if_neg, if_neg] at hexec
    · have hskewed := v.each_skewed skews s.islLanes fun k hk => (hgood k hk).2
      generalize v.each (List.range s.islLanes) _ = y at hexec hskewed
      obtain ⟨hready, hone, hkeeps⟩ := y.alignDone_done
      generalize y.alignDone = t at hexec hready hone hkeeps
      refine ⟨_, hexec, hready, hone, fun k hk => (hkeeps.fld ?_ ?_).trans (hskewed.skew k hk)⟩
      · have hpage := lstat_page k
        simp only [Reg.ISL_LANE_LSTAT_SKEW, bcPages, List.mem_cons, List.not_mem_nil, or_false, not_or]
        omega
      · have hpage := lstat_page k
        intro hc
        rw [show Reg.ISL_LANE_LSTAT k = _ from hc] at hpage
        exact absurd hpage (by decide)
    · rw [List.any_eq_true]
      rintro ⟨k, hk, hwide⟩
      exact absurd (hgood k (List.mem_range.1 hk)).2 (Nat.not_le_of_lt (of_decide_eq_true hwide))
    · rw [List.any_eq_true]
      rintro ⟨k, hk, hbad⟩
      exact (of_decide_eq_true hbad) (hgood k (List.mem_range.1 hk)).1
  · rw [if_pos (List.any_eq_true.2 ⟨k, List.mem_range.2 hk, decide_eq_true hbad⟩)] at hexec
    have hreason := State.attemptFail_reason htrain (reason := 3) (by decide)
    generalize v.attemptFail 3 = t at hexec hreason
    exact ⟨_, hexec, hreason.1⟩
  · rw [if_neg, if_pos (List.any_eq_true.2 ⟨k, List.mem_range.2 hk, decide_eq_true hwide⟩)] at hexec
    · have hreason := State.attemptFail_reason htrain (reason := 4) (by decide)
      generalize v.attemptFail 4 = t at hexec hreason
      exact ⟨_, hexec, hreason.1⟩
    · rw [List.any_eq_true]
      rintro ⟨j, hj, hbad⟩
      exact (of_decide_eq_true hbad) (horder j (List.mem_range.1 hj))

/-! Fast retrains (R85). -/

/-- The lanes of a fast retrain have locked, and its wait for the source begins. -/
def State.fastLocked (s : State) : State :=
  let s := s.each (List.range s.fastUses) (fun k s => s.put (Reg.PHY_RXSTAT_LOCK (phyBase (laneIsl k))) 1)
  { s with isl := { s.isl with since := s.now } }

theorem State.fastLocked_effect (s : State) : (∀ x : Fld, x.addr / 0x1000 < 0x11 → s.fastLocked.fld x = s.fld x) ∧
    ∃ g e, s.fastLocked.isl = { s.isl with since := g, rises := e } := by
  have heach := State.each_induct (fun t => OnlyRegs s t ∧ ∀ x : Fld, x.addr / 0x1000 < 0x11 → t.fld x = s.fld x) (List.range s.fastUses)
    (fun k s => s.put (Reg.PHY_RXSTAT_LOCK (phyBase (laneIsl k))) 1) (fun k t ht => ⟨ht.1.trans (t.put_onlyRegs _ _), fun x hx =>
      (State.fld_put_apart ⟨show 0 + 1 ≤ 32 by decide, Or.inl fun hc => by
        have hpage := phyBase_page (laneIsl k) 0xC
        rw [show phyBase (laneIsl k) + 0xC = x.addr from hc] at hpage
        omega⟩).trans (ht.2 x hx)⟩) s ⟨⟨s.regs, s.nv.log, s.isl.rises, rfl⟩, fun _ _ => rfl⟩
  unfold State.fastLocked
  generalize s.each (List.range s.fastUses) _ = v at heach
  have hisl := heach.1.isl_eq
  refine ⟨heach.2, v.now, v.isl.rises, ?_⟩
  show ({ v.isl with since := v.now } : IslState) = _
  rw [hisl]

/-- The codes of the wake (R85). -/
def State.fastCodes (s : State) : State := (s.put Reg.ISL_LINK_STATE_LANES s.isl.fastLanes).put Reg.ISL_LINK_STATE_RATE s.isl.fastRate

theorem State.fastCodes_fld (s : State) : s.fastCodes.fld Reg.ISL_LINK_STATE_LANES = s.isl.fastLanes % 8 ∧
    s.fastCodes.fld Reg.ISL_LINK_STATE_RATE = s.isl.fastRate % 8 :=
  ⟨(State.fld_put_apart (by decide)).trans (State.fld_put_mod (by decide)), State.fld_put_mod (by decide)⟩

theorem exec_fastRetrainDone_cases (hlive : s.boot.resetLow = false) (hready : s.isl.ready = 0)
    (h : ∀ k, k < s.fastUses → s.laneCarries (laneIsl k) = true) :
    (s.isl.fast = 1 → ∃ t, exec .fastRetrainDone s = .next t ∧ t.link = lkREADY ∧ t.isl.ready = 1 ∧
      t.fld Reg.ISL_LINK_STATE_LANES = s.isl.fastLanes % 8 ∧ t.fld Reg.ISL_LINK_STATE_RATE = s.isl.fastRate % 8) ∧
    (s.isl.fast = 2 → ∃ t, exec .fastRetrainDone s = .next t ∧ t.link = s.link ∧ t.isl.ready = 1) := by
  have hexec := (exec_fastRetrainDone s).trans (State.unheld_live hlive)
  have hdone (hfast : s.isl.fast ≠ 0) : s.fastDone =
      if s.fastLocked.isl.fast = 1 then (s.fastLocked.fastCodes.setLink lkREADY).fastReady else s.fastLocked.fastReady := by
    refine if_neg ?_
    rw [not_or, not_or, Bool.not_eq_true, Bool.not_eq_false', List.all_eq_true]
    exact ⟨hfast, fun hne => hne hready, fun k hk => h k (List.mem_range.1 hk)⟩
  obtain ⟨hfld, g, e, hisl⟩ := s.fastLocked_effect
  generalize s.fastLocked = v at hdone hfld hisl
  have hfastEq : v.isl.fast = s.isl.fast := by rw [hisl]
  refine ⟨fun hfast => ?_, fun hfast => ?_⟩
  · rw [hdone (by omega), if_pos (hfastEq.trans hfast)] at hexec
    obtain ⟨hlanes, hrate⟩ := v.fastCodes_fld
    have hset := v.fastCodes.setLink_work lkREADY
    have hlink := v.fastCodes.setLink_link lkREADY (by decide)
    generalize v.fastCodes.setLink lkREADY = y at hexec hset hlink
    have hsent := y.fastReady_sent
    generalize y.fastReady = t at hexec hsent
    refine ⟨_, hexec, hsent.link.trans hlink, hsent.ready, ?_, ?_⟩
    · refine (hsent.keeps.upper _ rfl (by decide)).trans ((hset.upper _ rfl (by decide)).trans (hlanes.trans ?_))
      rw [hisl]
    · refine (hsent.keeps.upper _ rfl (by decide)).trans ((hset.upper _ rfl (by decide)).trans (hrate.trans ?_))
      rw [hisl]
  · rw [hdone (by omega), if_neg (by omega)] at hexec
    have hsent := v.fastReady_sent
    generalize v.fastReady = t at hexec hsent
    exact ⟨_, hexec, hsent.link.trans (hfld _ (by decide)), hsent.ready⟩

theorem State.fastLost_effect (hfast : s.isl.fast ≠ 0) :
    s.fastLost.link = lkDETECT ∧ counted s s.fastLost Reg.ISL_FAST_FAIL 1 ∧ s.fastLost.now = s.now := by
  have hlost : s.fastLost = (if s.isl.fast = 2 then (s.bump Reg.ISL_FAST_FAIL).linkGone true else s.bump Reg.ISL_FAST_FAIL).attempt 0 := by
    have hkept : (s.bump Reg.ISL_FAST_FAIL).isl.fast = s.isl.fast := by rw [(s.bump_onlyRegs _).isl_eq]
    rw [← hkept]
    exact if_neg hfast
  rw [hlost]
  have hbumped : counted s (s.bump Reg.ISL_FAST_FAIL) Reg.ISL_FAST_FAIL 1 := counted_of_rd rfl (by decide)
  have hnow := (s.bump_onlyRegs Reg.ISL_FAST_FAIL).now_eq
  generalize s.bump Reg.ISL_FAST_FAIL = v at hbumped hnow
  have hgone : SrefWork v (if s.isl.fast = 2 then v.linkGone true else v) := SrefWork.ite (v.linkGone_srefWork true) (SrefWork.refl v)
  generalize (if s.isl.fast = 2 then v.linkGone true else v : State) = y at hgone
  have hattempt := y.attempt_attempted 0
  exact ⟨hattempt.link, counted_trans_left ((hattempt.rd _ (by decide) (by decide)).trans (hgone.rd _ (by decide) (by decide))) hbumped,
    (hattempt.now_eq.trans hgone.now_eq).trans hnow⟩

theorem State.fastFail_late (hfast : s.isl.fast ≠ 0) (hready : s.isl.ready = 0) :
    s.fastFail = (s.advance (s.isl.since + 300 * ticksPerUs)).fastLost := by
  unfold State.fastFail
  rw [if_neg (by omega)]

theorem State.advance_later (hdue : s.now ≤ n) : (s.advance n).now = n := (s.advance_now n).trans (Nat.max_eq_right hdue)

theorem fastFail_us : 300 * ticksPerUs = 76800000 := by decide

theorem exec_fastFail_eq (hlive : s.boot.resetLow = false) (hfast : s.isl.fast ≠ 0) (hready : s.isl.ready = 0) :
    exec .fastFail s = .next (s.left (s.advance (s.isl.since + 76800000)).fastLost) := by
  rw [← fastFail_us, ← State.fastFail_late hfast hready]
  exact (exec_fastFail s).trans (State.unheld_live hlive)

/-- The state in which a fast retrain fails at instant n. -/
theorem State.fastLost_at (hfast : s.isl.fast ≠ 0) (hdue : s.now ≤ n) :
    (s.left (s.advance n).fastLost).link = lkDETECT ∧ counted s (s.left (s.advance n).fastLost) Reg.ISL_FAST_FAIL 1 ∧
    (s.left (s.advance n).fastLost).now = n := by
  have hnow := State.advance_later hdue
  have hisl : (s.advance n).isl = s.isl := by rw [State.advance_eq]
  have hcnt : (s.advance n).rd Reg.ISL_FAST_FAIL = s.rd Reg.ISL_FAST_FAIL := State.rd_advance (by decide)
  generalize s.advance n = v at hnow hisl hcnt ⊢
  obtain ⟨hlink, hcount, hkept⟩ := State.fastLost_effect (s := v) (by rw [hisl]; exact hfast)
  generalize v.fastLost = t at hlink hcount hkept ⊢
  refine ⟨hlink, counted_trans_right hcnt hcount, ?_⟩
  rw [State.left_now, hkept, hnow]
  exact Nat.max_eq_right hdue

theorem exec_fastFail_late (hlive : s.boot.resetLow = false) (hfast : s.isl.fast ≠ 0) (hready : s.isl.ready = 0)
    (hdue : s.now ≤ s.isl.since + 76800000) :
    ∃ t, exec .fastFail s = .next t ∧ t.link = lkDETECT ∧ counted s t Reg.ISL_FAST_FAIL 1 ∧ t.now = s.isl.since + 76800000 :=
  ⟨_, exec_fastFail_eq hlive hfast hready, State.fastLost_at hfast hdue⟩

/-- Settles O26: each phase's step, and the attempt that an attempt's failure begins. -/
theorem training : Obligations.Training := by
  refine ⟨fun s hlive => ⟨exec_linkTrainStart_down hlive, fun _ _ h => exec_trainOk_came hlive h,
    fun _ _ h hready => exec_trainReady_came hlive h hready, fun _ _ h => exec_presetAck_came hlive h,
    fun _ _ h htrain hfast hretry => exec_trainFail_came hlive h htrain hfast hretry,
    exec_phaseTimeout_last hlive, fun _ _ h hlink => exec_trainCaps_came hlive h hlink,
    fun blocks inv hlink h => exec_ts1_locks hlive blocks inv hlink h,
    fun blocks skews hlink h => exec_alnRow_cases hlive blocks skews hlink h,
    fun eyes hlink hasked => exec_eqMeasure_cases hlive eyes hlink hasked,
    exec_fastRetrainDone_cases hlive, exec_fastFail_late hlive⟩, fun _ _ _ hup hdown hh => eyeHeight_even hup hdown hh⟩

end Sys2Proof.Machine
end

section
/-! PROOFS. The events of TIMING and GENLOCK (R100, R103 to R106), and the host's commands of self-refresh (R106, R111, R112,
R499). -/

namespace Sys2Proof.Machine

variable {s t u v : State} {a b k l m n p : Nat} {w : Word} {x : Fld}

/-! SREF.CMD (R106, R112, R499). -/

/-- A bit of a word in which one bit was set. -/
theorem bit_put_one (a : Nat) (w : Word) {i j : Nat} (hj : j < 32) :
    bit ((⟨a, j, 1⟩ : Fld).put w 1).toNat i = if i = j then true else bit w.toNat i := by
  have hget : ∀ (v : Word), bit v.toNat i = ((⟨a, i, 1⟩ : Fld).get v == 1) := fun _ => rfl
  by_cases h : i = j
  · subst h
    rw [if_pos rfl, hget, Fld.get_put_self (h := show i + 1 ≤ 32 by omega)]
    rfl
  · rw [if_neg h, hget, hget, Fld.get_put_other (h := show j + 1 ≤ 32 by omega) (hd := show i + 1 ≤ j ∨ j + 1 ≤ i by omega)]

theorem State.srefCmd_write {port : Nat} (hs : s.Serves .SREF 0x32) : s.hostWrite port Reg.SREF_CMD w = s.srefCmd w :=
  State.hostWrite_acts (u := .SREF) (a := Reg.SREF_CMD) hs (by decide) rfl

theorem bit_false {n i : Nat} (h : n / 2 ^ i % 2 = 0) : bit n i = false := by rw [bit, h]; rfl

theorem State.srefEnter_write {port : Nat} (hs : s.Serves .SREF 0x32) (hw : w.toNat / 2 % 4 = 0) :
    s.hostWrite port Reg.SREF_CMD (Reg.SREF_CMD_ENTER.put w 1) = s.srefEvent 4 := by
  rw [State.srefCmd_write hs]
  have h0 : bit (Reg.SREF_CMD_ENTER.put w 1).toNat 0 = true := bit_put_one _ w (by decide)
  have h1 : bit (Reg.SREF_CMD_ENTER.put w 1).toNat 1 = false := (bit_put_one _ w (by decide)).trans (bit_false (by omega))
  have h2 : bit (Reg.SREF_CMD_ENTER.put w 1).toNat 2 = false := (bit_put_one _ w (by decide)).trans (bit_false (by omega))
  simp only [State.srefCmd, h0, h1, h2, if_true, Bool.false_eq_true, if_false]

theorem exec_srefEnter_eq {port : Nat} (hs : s.Serves .SREF 0x32) (hw : w.toNat / 2 % 4 = 0) :
    exec (.srefEnter port w) s = .next (s.left (s.srefEvent 4)) := by
  rw [exec_srefEnter, State.unheld_live hs.live, State.srefEnter_write hs hw]

theorem State.srefEvent_host (hgate : s.gateClosed 0x32 = false) :
    (s.srefEvent 4).srf.host = true ∧ (s.srefEvent 4).srefState = 4 ∧ (s.srefEvent 4).fld Reg.SREF_STATE_REASON = 4 ∧
    (s.inSref = false → counted s (s.srefEvent 4) Reg.SREF_ENTRIES 1 ∧ raised (s.srefEvent 4) 0x32 0) ∧
    (s.inSref = true → (s.srefEvent 4).rd Reg.SREF_ENTRIES = s.rd Reg.SREF_ENTRIES) := by
  obtain ⟨hhost, -⟩ := s.srefEvent_kept 4
  obtain ⟨hstate, hreason⟩ := s.srefEvent_reason 4 (by decide) (Or.inr rfl)
  exact ⟨hhost.trans (Bool.or_true _), hstate, hreason, fun hin => ⟨s.srefEvent_counts 4 hin, s.srefEvent_raises 4 hin hgate⟩,
    fun hin => s.srefEvent_entries 4 hin⟩

theorem exec_srefEnter_serves (hs : s.Serves .SREF 0x32) (port : Nat) (hw : w.toNat / 2 % 4 = 0) :
    ∃ t, exec (.srefEnter port w) s = .next t ∧ t.srf.host = true ∧ t.srefState = 4 ∧
      t.fld Reg.SREF_STATE_REASON = 4 ∧ (s.inSref = false → counted s t Reg.SREF_ENTRIES 1 ∧ raised t 0x32 0) ∧
      (s.inSref = true → t.rd Reg.SREF_ENTRIES = s.rd Reg.SREF_ENTRIES) := by
  have heffect := State.srefEvent_host hs.gate
  have hexec := exec_srefEnter_eq (port := port) hs hw
  generalize s.srefEvent 4 = t at hexec heffect
  exact ⟨_, hexec, heffect⟩

theorem State.srf_steady (s : State) (c : SrefState) : Steady s { s with srf := c } := ⟨Nat.le_refl _, rfl, rfl⟩

theorem State.srefExit_write {port : Nat} (hs : s.Serves .SREF 0x32) (h0 : w.toNat % 2 = 0) (h2 : w.toNat / 4 % 2 = 0) :
    s.hostWrite port Reg.SREF_CMD (Reg.SREF_CMD_EXIT.put w 1) = s.srefExitCmd := by
  rw [State.srefCmd_write hs]
  have h0 : bit (Reg.SREF_CMD_EXIT.put w 1).toNat 0 = false := (bit_put_one _ w (by decide)).trans (bit_false (by omega))
  have h1 : bit (Reg.SREF_CMD_EXIT.put w 1).toNat 1 = true := bit_put_one _ w (by decide)
  have h2 : bit (Reg.SREF_CMD_EXIT.put w 1).toNat 2 = false := (bit_put_one _ w (by decide)).trans (bit_false (by omega))
  simp only [State.srefCmd, h0, h1, h2, if_true, Bool.false_eq_true, if_false]

theorem exec_srefExit_eq {port : Nat} (hs : s.Serves .SREF 0x32) (h0 : w.toNat % 2 = 0) (h2 : w.toNat / 4 % 2 = 0) :
    exec (.srefExit port w) s = .next (s.left s.srefExitCmd) := by
  rw [exec_srefExit, State.unheld_live hs.live, State.srefExit_write hs h0 h2]

theorem State.srefExitCmd_down (h : s.linkUp = false) : s.srefExitCmd = s.bump Reg.SREF_EXIT_IGNORED := if_neg (by rw [h]; decide)

theorem State.srefExitCmd_up (h : s.linkUp = true) :
    s.srefExitCmd = if s.inSref then { s with srf := { s.srf with exiting := true } } else s := if_pos h

theorem exec_srefExit_serves (hs : s.Serves .SREF 0x32) (port : Nat) (h0 : w.toNat % 2 = 0) (h2 : w.toNat / 4 % 2 = 0) :
    (s.linkUp = false → ∃ t, exec (.srefExit port w) s = .next t ∧ counted s t Reg.SREF_EXIT_IGNORED 1 ∧ t.srf = s.srf) ∧
    (s.linkUp = true → exec (.srefExit port w) s
      = .next (if s.inSref then { s with srf := { s.srf with exiting := true } } else s)) := by
  have hexec := exec_srefExit_eq (port := port) hs h0 h2
  refine ⟨fun hdown => ?_, fun hup => ?_⟩
  · rw [State.srefExitCmd_down hdown] at hexec
    have hcount : counted s (s.bump Reg.SREF_EXIT_IGNORED) Reg.SREF_EXIT_IGNORED 1 := counted_of_rd rfl (by decide)
    have honly := s.bump_onlyRegs Reg.SREF_EXIT_IGNORED
    generalize s.bump Reg.SREF_EXIT_IGNORED = t at hexec hcount honly
    obtain ⟨_, _, _, rfl⟩ := honly
    exact ⟨_, hexec, hcount, rfl⟩
  · rw [hexec, State.srefExitCmd_up hup, State.left_of_steady]
    split
    exacts [s.srf_steady _, Steady.refl s]

/-- ENTER is withdrawn (R499). -/
def State.entryWithdrawn (s : State) : State :=
  { s with srf := { s.srf with host := false, events := s.srf.events.filter (fun c => c ≠ 4) } }

theorem State.srefShow_effect (s : State) (c : Nat) (hc : c < 8) :
    (s.srefShow c).srefState = c ∧ (s.srefShow c).fld Reg.SREF_STATE_REASON = c ∧ (s.srefShow c).srf = s.srf := by
  obtain ⟨_, _, _, heq⟩ := (s.put_onlyRegs Reg.SREF_STATE_STATE c).trans (State.put_onlyRegs _ Reg.SREF_STATE_REASON c)
  refine ⟨?_, ?_, ?_⟩
  · exact (State.fld_put_apart (by decide)).trans ((State.fld_put_mod (by decide)).trans (Nat.mod_eq_of_lt hc))
  · exact (State.fld_put_mod (by decide)).trans (Nat.mod_eq_of_lt (show c < 16 by omega))
  · rw [State.srefShow, heq]

theorem State.entryWithdrawn_stands (s : State) : s.entryWithdrawn.reasonStands = s.reasonStands := rfl

theorem State.srefRelease_shows (hhost : s.srf.host = true) {c : Nat}
    (hfind : (s.srf.events.filter (fun c => c ≠ 4)).find? s.reasonStands = some c) : s.srefRelease = s.entryWithdrawn.srefShow c := by
  unfold State.srefRelease
  rw [if_pos hhost]
  dsimp only
  split
  · next d heq => rw [show d = c from Option.some.inj (heq.symm.trans hfind)]; rfl
  · next heq => exact absurd (heq.symm.trans hfind) (by simp)

theorem State.srefRelease_releases (hhost : s.srf.host = true)
    (hfind : (s.srf.events.filter (fun c => c ≠ 4)).find? s.reasonStands = none) :
    s.srefRelease = { s.entryWithdrawn with srf := { s.entryWithdrawn.srf with released := true } } := by
  unfold State.srefRelease
  rw [if_pos hhost]
  dsimp only
  split
  · next d heq => exact absurd (heq.symm.trans hfind) (by simp)
  · rfl

theorem exec_srefRelease_serves (hs : s.Serves .SREF 0x32) (port : Nat) (hw : w.toNat % 4 = 0) :
    (s.srf.host = false → exec (.srefRelease port w) s = .next s) ∧
    (s.srf.host = true → ∃ t, exec (.srefRelease port w) s = .next t ∧ t.srf.host = false ∧
      ∀ l, l = s.srf.events.filter (fun c => c ≠ 4) → t.srf.events = l ∧
        (∀ c, l.find? s.reasonStands = some c → c < 8 → t.srefState = c ∧ t.fld Reg.SREF_STATE_REASON = c ∧
          t.srf.released = s.srf.released) ∧
        (l.find? s.reasonStands = none → t.srf.released = true ∧ t.regs = s.regs)) := by
  have hexec := (exec_srefRelease s port w).trans (State.unheld_live hs.live)
  have hcmd : s.hostWrite port Reg.SREF_CMD (Reg.SREF_CMD_RELEASE.put w 1) = s.srefRelease := by
    rw [State.srefCmd_write hs]
    have h0 : bit (Reg.SREF_CMD_RELEASE.put w 1).toNat 0 = false := (bit_put_one _ w (by decide)).trans (bit_false (by omega))
    have h1 : bit (Reg.SREF_CMD_RELEASE.put w 1).toNat 1 = false := (bit_put_one _ w (by decide)).trans (bit_false (by omega))
    have h2 : bit (Reg.SREF_CMD_RELEASE.put w 1).toNat 2 = true := bit_put_one _ w (by decide)
    simp only [State.srefCmd, h0, h1, h2, if_true, Bool.false_eq_true, if_false]
  rw [hcmd] at hexec
  clear hcmd
  refine ⟨fun hhost => ?_, fun hhost => ?_⟩
  · have hrel : s.srefRelease = s := if_neg (by rw [hhost]; decide)
    rw [hexec, hrel, State.left_of_steady (Steady.refl s)]
  · cases hfind : (s.srf.events.filter (fun c => c ≠ 4)).find? s.reasonStands with
    | none =>
      rw [State.srefRelease_releases hhost hfind] at hexec
      refine ⟨_, hexec, rfl, ?_⟩
      rintro l rfl
      exact ⟨rfl, fun c hc => (by rw [hfind] at hc; cases hc), fun _ => ⟨rfl, rfl⟩⟩
    | some c =>
      rw [State.srefRelease_shows hhost hfind] at hexec
      have hshown := s.entryWithdrawn.srefShow_effect c
      have hsrf : (s.entryWithdrawn.srefShow c).srf = s.entryWithdrawn.srf := by
        obtain ⟨_, _, _, heq⟩ := (s.entryWithdrawn.put_onlyRegs Reg.SREF_STATE_STATE c).trans (State.put_onlyRegs _ Reg.SREF_STATE_REASON c)
        rw [State.srefShow, heq]
      generalize s.entryWithdrawn.srefShow c = t at hexec hshown hsrf
      refine ⟨_, hexec, congrArg SrefState.host hsrf, ?_⟩
      rintro l rfl
      refine ⟨congrArg SrefState.events hsrf, fun d hd hsmall => ?_, fun hnone => (by rw [hfind] at hnone; cases hnone)⟩
      rw [hfind] at hd
      cases hd
      exact ⟨(hshown hsmall).1, (hshown hsmall).2.1, (congrArg SrefState.released hsrf :)⟩

/-! The return from retention (R111). -/

/-- Domains are asked to wake: none changes its state at once, and no transition ends. -/
structure Roused (s t : State) : Prop where
  cur : ∀ n, t.domCur n = s.domCur n
  busy : ∀ n, s.domBusy n = true → t.domBusy n = true
  target : ∀ n, t.fld (Reg.PWR_DOM_REQ_TARGET n) = s.fld (Reg.PWR_DOM_REQ_TARGET n)
  now : t.now = s.now

theorem Roused.refl (s : State) : Roused s s := ⟨fun _ => rfl, fun _ h => h, fun _ => rfl, rfl⟩
theorem Roused.trans (h : Roused s t) (g : Roused t u) : Roused s u :=
  ⟨fun n => (g.cur n).trans (h.cur n), fun n hn => g.busy n (h.busy n hn), fun n => (g.target n).trans (h.target n), g.now.trans h.now⟩

theorem State.put_pending_roused (s : State) (m v : Nat) : Roused s (s.put (Reg.PWR_DOM_STATE_PENDING m) v) :=
  ⟨fun _ => State.domCur_put ⟨by simp [Reg.PWR_DOM_STATE_PENDING], Or.inr (by simp [Reg.PWR_DOM_STATE_PENDING])⟩,
    fun _ h => (State.domBusy_put ⟨by simp [Reg.PWR_DOM_STATE_PENDING], Or.inr (Or.inr (by simp [Reg.PWR_DOM_STATE_PENDING]))⟩).trans h,
    fun n => State.fld_put_apart ⟨by simp [Reg.PWR_DOM_STATE_PENDING], Or.inl (domReq_ne_state n m).symm⟩, (s.put_onlyRegs _ _).now_eq⟩

theorem State.domCount_roused (s : State) (hm : m < 95) : Roused s (s.domCount (Reg.PWR_DOM_CNT0_SUPERSEDED m)) := by
  have hpage := domCnt_page hm
  have hfld : ∀ y : Fld, Reg.PWR_DOM_CNT0 m ≠ y.addr → 0x3010 ≠ y.addr →
      (s.domCount (Reg.PWR_DOM_CNT0_SUPERSEDED m)).fld y = s.fld y :=
    fun y hy hraw => State.fld_bumpBy_other ⟨hy, by rw [← hpage] at hraw; exact hraw⟩
  have hraw : ∀ n, 0x3010 ≠ Reg.PWR_DOM_STATE n := fun n => by simp only [Reg.PWR_DOM_STATE]; omega
  refine ⟨fun n => hfld _ (domCnt_ne_state m n) (hraw n), fun n hn => ?_, fun n => hfld _ (domCnt_ne_req m n) ?_, (s.bumpBy_onlyRegs _ _).now_eq⟩
  · rw [State.domBusy, State.flag, hfld _ (domCnt_ne_state m n) (hraw n)]; exact hn
  · simp only [Reg.PWR_DOM_REQ_TARGET, Reg.PWR_DOM_REQ]; omega

theorem State.pwr_roused (s : State) (p : PwrState) : Roused s { s with pwr := p } := ⟨fun _ => rfl, fun _ h => h, fun _ => rfl, rfl⟩

theorem State.domWait_roused (s : State) (hm : m < 95) (target : Nat) (inner : Bool) : Roused s (s.domWait m target inner) := by
  have hcount (c : Bool) : Roused s (if c then s.domCount (Reg.PWR_DOM_CNT0_SUPERSEDED m) else s) := by
    split
    exacts [s.domCount_roused hm, Roused.refl s]
  exact ((hcount _).trans (State.put_pending_roused _ m target)).trans (State.pwr_roused _ _)

theorem State.put_busy_roused (s : State) (m : Nat) : Roused s (s.put (Reg.PWR_DOM_STATE_BUSY m) 1) := by
  refine ⟨fun _ => State.domCur_put ⟨by simp [Reg.PWR_DOM_STATE_BUSY], Or.inr (by simp [Reg.PWR_DOM_STATE_BUSY])⟩, fun n hn => ?_,
    fun n => State.fld_put_apart ⟨by simp [Reg.PWR_DOM_STATE_BUSY], Or.inl (domReq_ne_state n m).symm⟩, (s.put_onlyRegs _ _).now_eq⟩
  by_cases hnm : n = m
  · subst hnm
    rw [State.domBusy, State.flag_iff, State.fld_put_mod (by simp [Reg.PWR_DOM_STATE_BUSY])]
    simp [Reg.PWR_DOM_STATE_BUSY]
  · exact (State.domBusy_put ⟨by simp [Reg.PWR_DOM_STATE_BUSY], Or.inl (domState_ne (Ne.symm hnm))⟩).trans hn

theorem State.domBegin_roused (s : State) (m : Nat) : Roused s (s.domBegin m domStON 2) := by
  rw [s.domBegin_wake]
  exact (s.put_busy_roused m).trans (State.pwr_roused _ _)

theorem State.domWakeOne_roused (s : State) (hm : m < 95) : Roused s (s.domWakeOne m) := by
  unfold State.domWakeOne
  split
  · exact Roused.refl s
  · split
    · split
      · split
        exacts [Roused.refl s, s.domWait_roused hm _ _]
      · exact Roused.refl s
    · split
      exacts [Roused.refl s, s.domBegin_roused m]

theorem Roused.each {l : List Nat} {f : Nat → State → State} (h : ∀ m ∈ l, ∀ t, Roused t (f m t)) (s : State) : Roused s (s.each l f) := by
  induction l generalizing s with
  | nil => exact Roused.refl s
  | cons m l ih =>
    exact (h m (List.mem_cons_self ..) s).trans (ih (fun m' hm' => h m' (List.mem_cons_of_mem _ hm')) (f m s))

/-- A domain has returned, or is on its way. -/
def State.returns (s : State) (n : Nat) : Prop := s.domCur n = domStON ∨ s.domBusy n = true

theorem Roused.returns (h : Roused s t) (hn : s.returns n) : t.returns n := hn.imp (fun hc => (h.cur n).trans hc) (h.busy n)

theorem State.domWake_roused (s : State) (hn : n < 95) : Roused s (s.domWake n) :=
  (Roused.each (fun _ hd t => (Roused.each (fun _ he v => v.domWakeOne_roused (domNeeds_lt he)) t).trans
    (State.domWakeOne_roused _ (domNeeds_lt hd))) s).trans (State.domWakeOne_roused _ hn)

theorem State.domWakeOne_returns (s : State) (hn : n < 95) (h10 : n ≠ 10) (h11 : n ≠ 11) : (s.domWakeOne n).returns n := by
  by_cases hbusy : s.domBusy n = true
  · exact (s.domWakeOne_roused hn).returns (Or.inr hbusy)
  · by_cases hcur : s.domCur n = domStON
    · exact (s.domWakeOne_roused hn).returns (Or.inl hcur)
    · rw [State.domWakeOne, if_neg (by omega), if_neg hbusy, if_neg hcur]
      exact Or.inr (s.domBegin_waking n).1

theorem State.domAsk_roused (s : State) (hn : n < 95) : Roused s (s.domAsk n domStON).1 := by
  unfold State.domAsk
  split
  · exact Roused.refl s
  · split
    · exact s.domWait_roused hn _ _
    · rw [if_pos rfl]; exact s.domWake_roused hn

theorem State.domAsk_returns (s : State) (hn : n < 95) (h10 : n ≠ 10) (h11 : n ≠ 11) (hask : s.fld (Reg.PWR_DOM_REQ_TARGET n) = domStON) :
    (s.domAsk n domStON).1.returns n := by
  have hroused := s.domAsk_roused hn
  by_cases hbusy : s.domBusy n = true
  · exact hroused.returns (Or.inr hbusy)
  · unfold State.domAsk
    rw [if_neg (fun hne => hne hask), if_neg hbusy, if_pos rfl]
    exact State.domWakeOne_returns _ hn h10 h11

theorem State.each_domAsk (l : List Nat) (hl : ∀ n ∈ l, n < 95 ∧ n ≠ 10 ∧ n ≠ 11) (s : State) :
    Roused s (s.each l (fun n s => (s.domAsk n domStON).1)) ∧
    ∀ n ∈ l, s.fld (Reg.PWR_DOM_REQ_TARGET n) = domStON → (s.each l (fun n s => (s.domAsk n domStON).1)).returns n := by
  induction l generalizing s with
  | nil => exact ⟨Roused.refl s, fun n hn => by cases hn⟩
  | cons m l ih =>
    obtain ⟨⟨hm, h10, h11⟩, hrest⟩ := List.forall_mem_cons.1 hl
    have hfirst := s.domAsk_roused hm
    obtain ⟨hlater, hreturn⟩ := ih hrest (s.domAsk m domStON).1
    refine ⟨hfirst.trans hlater, fun n hn hask => ?_⟩
    rcases List.mem_cons.1 hn with rfl | hmem
    · exact hlater.returns (s.domAsk_returns hm h10 h11 hask)
    · exact hreturn n hmem ((hfirst.target n).trans hask)

theorem retWake_us : 40 * ticksPerUs = 40 * 256000 := by decide

theorem State.retWake_eq (hret : s.srf.ret = true) :
    s.retWake = (s.advance (s.tim.next - 40 * ticksPerUs)).each [5, 6, 7, 8, 9] (fun n s => (s.domAsk n domStON).1) := if_pos hret

theorem State.retWake_at (s : State) (at' : Nat) :
    ((s.advance at').each [5, 6, 7, 8, 9] (fun n s => (s.domAsk n domStON).1)).now = max s.now at' ∧
      ∀ n, n ∈ [5, 6, 7, 8, 9] → s.fld (Reg.PWR_DOM_REQ_TARGET n) = domStON →
        ((s.advance at').each [5, 6, 7, 8, 9] (fun n s => (s.domAsk n domStON).1)).returns n := by
  have hask : ∀ n, (s.advance at').fld (Reg.PWR_DOM_REQ_TARGET n) = s.fld (Reg.PWR_DOM_REQ_TARGET n) := fun n =>
    State.fld_advance ⟨by simp only [Reg.PWR_DOM_REQ_TARGET, Reg.PWR_DOM_REQ, Reg.AON_TIMEBASE]; omega,
      by simp only [Reg.PWR_DOM_REQ_TARGET, Reg.PWR_DOM_REQ, Reg.AON_TIMEBASE_HI]; omega⟩
  have hnow := s.advance_now at'
  generalize s.advance at' = v at hask hnow ⊢
  obtain ⟨hroused, hreturn⟩ := State.each_domAsk [5, 6, 7, 8, 9] (by decide) v
  refine ⟨?_, fun n hn h => hreturn n hn ((hask n).trans h)⟩
  rw [hroused.now, hnow]

theorem exec_srefRetWake_live (hlive : s.boot.resetLow = false) : exec .srefRetWake s = .next (s.left s.retWake) :=
  (exec_srefRetWake s).trans (State.unheld_live hlive)

theorem exec_srefRetWake_asks (hlive : s.boot.resetLow = false) (hret : s.srf.ret = true) : exec .srefRetWake s =
    .next (s.left ((s.advance (s.tim.next - 40 * 256000)).each [5, 6, 7, 8, 9] (fun n s => (s.domAsk n domStON).1))) := by
  rw [exec_srefRetWake_live hlive, State.retWake_eq hret, retWake_us]

/-- The return from retention as it is due at an instant. -/
theorem exec_srefRetWake_at {at' : Nat} (hexec : exec .srefRetWake s =
      .next (s.left ((s.advance at').each [5, 6, 7, 8, 9] (fun n s => (s.domAsk n domStON).1)))) :
    ∃ t, exec .srefRetWake s = .next t ∧ t.now = max s.now at' ∧
      ∀ n, n ∈ [5, 6, 7, 8, 9] → s.fld (Reg.PWR_DOM_REQ_TARGET n) = domStON → t.domCur n = domStON ∨ t.domBusy n = true := by
  obtain ⟨hnow, hreturn⟩ := s.retWake_at at'
  generalize (s.advance at').each [5, 6, 7, 8, 9] _ = t at hexec hnow hreturn
  refine ⟨_, hexec, ?_, hreturn⟩
  rw [State.left_now, hnow]
  omega

theorem exec_srefRetWake_due (hlive : s.boot.resetLow = false) (hret : s.srf.ret = true) :
    ∃ t, exec .srefRetWake s = .next t ∧ t.now = max s.now (s.tim.next - 40 * 256000) ∧
      ∀ n, n ∈ [5, 6, 7, 8, 9] → s.fld (Reg.PWR_DOM_REQ_TARGET n) = domStON → t.domCur n = domStON ∨ t.domBusy n = true :=
  exec_srefRetWake_at (exec_srefRetWake_asks hlive hret)

theorem exec_srefRetWake_idle (hlive : s.boot.resetLow = false) (hret : s.srf.ret = false) : exec .srefRetWake s = .next s := by
  rw [exec_srefRetWake_live hlive, show s.retWake = s from if_neg (by rw [hret]; decide), State.left_of_steady (Steady.refl s)]

theorem selfRefresh : Rules.SelfRefresh := fun _ port _ hs =>
  ⟨exec_srefEnter_serves hs port, exec_srefExit_serves hs port, exec_srefRelease_serves hs port, exec_srefRetWake_due hs.live,
    exec_srefRetWake_idle hs.live⟩

/-! Late pips (R100, R106). -/

/-- TIMING leaves lock to slew (R105). -/
structure Unlocked (s t : State) : Prop where
  now : t.now = s.now
  counts : counted s t Reg.TIMING_LOCK_LOSS 1
  raised : s.gateClosed 0x30 = false → raised t 0x30 1
  lock : t.fld Reg.TIMING_STATUS_LOCK = 0
  mode : t.timMode = timSLEWING
  risen : Risen s t
  rd : ∀ a, a ≠ 0x3000C → a ≠ Reg.TIMING_LOCK_LOSS → a ≠ Reg.HDR_IRQ_RAW 0x30 → t.rd a = s.rd a

theorem State.rd_of_setTimMode (hlock : s.timMode = timLOCKED) (a : Nat) : (s.setTimMode timSLEWING).rd a =
    ((((s.bump Reg.TIMING_LOCK_LOSS).raise 0x30 1).put Reg.TIMING_STATUS_MODE timSLEWING).put Reg.TIMING_STATUS_LOCK 0).rd a := by
  have hregs := State.setTimMode_regs (s := s) timSLEWING (by rw [hlock]; decide)
  have hlocked : (timLOCKED == timLOCKED) = true := by decide
  have hfree : (timSLEWING != timFREE) = true := by decide
  have hleft : (timSLEWING == timLOCKED) = false := by decide
  rw [State.rd_of_regs hregs]
  simp only [State.modeShown, State.lockLeft, hlock, hlocked, hfree, hleft, State.bumpIf, State.raiseIf, Bool.and_self, if_true,
    Bool.false_eq_true, if_false, b2n]

theorem State.setTimMode_unlocked (hlock : s.timMode = timLOCKED) : Unlocked s (s.setTimMode timSLEWING) := by
  have hrd := State.rd_of_setTimMode hlock
  have hmode := s.setTimMode_mode timSLEWING (by decide)
  have hrisen := s.setTimMode_risen timSLEWING
  have hnow := (s.setTimMode_timWork timSLEWING).now_eq
  generalize s.setTimMode timSLEWING = t at hrd hmode hrisen hnow ⊢
  have hfld : ∀ x : Fld, t.fld x = ((((s.bump Reg.TIMING_LOCK_LOSS).raise 0x30 1).put Reg.TIMING_STATUS_MODE timSLEWING).put
      Reg.TIMING_STATUS_LOCK 0).fld x := fun x => by rw [State.fld, hrd, State.fld]
  refine ⟨hnow, ?_, fun hgate => ?_, ?_, hmode, hrisen, fun a h1 h2 h3 => ?_⟩
  · refine counted_of_rd ?_ (by decide)
    rw [hrd, State.rd_put_other (by decide), State.rd_put_other (by decide), State.raise_rd_other _ _ _ _ (by decide)]
  · rw [raised, hfld, State.fld_put_apart (by decide), State.fld_put_apart (by decide)]
    exact State.fld_raise_self ((State.gateClosed_bump (by decide)).trans hgate) (by decide)
  · rw [hfld]
    exact State.fld_put_mod (by decide)
  · have hraise : Reg.HDR_IRQ_RAW (hdrPage 0x30) ≠ a := Ne.symm h3
    have hbump : Reg.HDR_IRQ_RAW (hdrPage (Reg.TIMING_LOCK_LOSS / 0x1000)) ≠ a :=
      (show hdrPage (Reg.TIMING_LOCK_LOSS / 0x1000) = 0x30 by decide) ▸ h3.symm
    rw [hrd, State.rd_put_other h1.symm, State.rd_put_other h1.symm, State.raise_rd_other _ _ _ _ hraise,
      State.rd_bump_other ⟨h2.symm, hbump⟩]

/-- A pip that has not come in time is counted, and the lock is left. -/
def State.pipMissed (s : State) : State := ((s.bump Reg.TIMING_LATE_PIP).raise 0x30 4).setTimMode timSLEWING

theorem State.pipMissed_effect (hlock : s.timMode = timLOCKED) (hgate : s.gateClosed 0x30 = false) :
    s.pipMissed.now = s.now ∧ counted s s.pipMissed Reg.TIMING_LATE_PIP 1 ∧ counted s s.pipMissed Reg.TIMING_LOCK_LOSS 1 ∧
    raised s.pipMissed 0x30 4 ∧ raised s.pipMissed 0x30 1 ∧ s.pipMissed.timMode = timSLEWING ∧
    s.pipMissed.fld Reg.TIMING_STATUS_LOCK = 0 := by
  have hlock' : ((s.bump Reg.TIMING_LATE_PIP).raise 0x30 4).timMode = timLOCKED := by
    rw [State.timMode, State.fld_raise_other (by decide), State.fld_bump_other (by decide)]
    exact hlock
  have hopen : ((s.bump Reg.TIMING_LATE_PIP).raise 0x30 4).gateClosed 0x30 = false :=
    (State.gateClosed_raise (by decide)).trans ((State.gateClosed_bump (by decide)).trans hgate)
  have hraised : raised ((s.bump Reg.TIMING_LATE_PIP).raise 0x30 4) 0x30 4 :=
    State.fld_raise_self ((State.gateClosed_bump (by decide)).trans hgate) (by decide)
  have hlate : counted s ((s.bump Reg.TIMING_LATE_PIP).raise 0x30 4) Reg.TIMING_LATE_PIP 1 :=
    counted_of_rd (State.raise_rd_other _ _ _ _ (by decide)) (by decide)
  have hloss : ((s.bump Reg.TIMING_LATE_PIP).raise 0x30 4).rd Reg.TIMING_LOCK_LOSS = s.rd Reg.TIMING_LOCK_LOSS := by
    rw [State.raise_rd_other _ _ _ _ (by decide), State.rd_bump_other (by decide)]
  have hnow := ((s.bump_onlyRegs Reg.TIMING_LATE_PIP).trans (State.raise_onlyRegs _ 0x30 4)).now_eq
  unfold State.pipMissed
  generalize (s.bump Reg.TIMING_LATE_PIP).raise 0x30 4 = v at hlock' hopen hraised hlate hloss hnow ⊢
  have hleft := State.setTimMode_unlocked hlock'
  generalize v.setTimMode timSLEWING = t at hleft ⊢
  exact ⟨hleft.now.trans hnow, counted_trans_left (hleft.rd _ (by decide) (by decide) (by decide)) hlate,
    counted_trans_right hloss hleft.counts, hleft.risen _ _ (by decide) hraised, hleft.raised hopen, hleft.mode, hleft.lock⟩

theorem exec_latePip_live (hlive : s.boot.resetLow = false) : exec .latePip s = .next (s.left s.latePip) :=
  (exec_latePip s).trans (State.unheld_live hlive)

/-- The error is forgotten. -/
def State.errCleared (s : State) : State := { s with tim := { s.tim with err := 0 } }

theorem State.latePip_locked {tp : Nat} (hpip : s.tim.lastPip = some tp) (hlock : s.timMode = timLOCKED) (href : s.tim.ref = 0) :
    s.latePip = (s.advance (tp + s.tim.lastPeriod + s.linePeriod / 2)).pipMissed.errCleared := by
  unfold State.latePip
  rw [hpip]
  exact if_pos ⟨hlock, href⟩

theorem exec_latePip_at {at' : Nat} (hexec : exec .latePip s = .next (s.left (s.advance at').pipMissed.errCleared))
    (hlock : s.timMode = timLOCKED) (hgate : s.gateClosed 0x30 = false) :
    ∃ t, exec .latePip s = .next t ∧ t.now = max s.now at' ∧ counted s t Reg.TIMING_LATE_PIP 1 ∧
      counted s t Reg.TIMING_LOCK_LOSS 1 ∧ raised t 0x30 4 ∧ raised t 0x30 1 ∧ t.timMode = timSLEWING ∧
      t.fld Reg.TIMING_STATUS_LOCK = 0 := by
  have hnow := s.advance_now at'
  have hlock' : (s.advance at').timMode = timLOCKED := Eq.trans (State.fld_advance (by decide)) hlock
  have hopen : (s.advance at').gateClosed 0x30 = false := (State.gateClosed_advance (by decide)).trans hgate
  have hlate : (s.advance at').rd Reg.TIMING_LATE_PIP = s.rd Reg.TIMING_LATE_PIP := State.rd_advance (by decide)
  have hloss : (s.advance at').rd Reg.TIMING_LOCK_LOSS = s.rd Reg.TIMING_LOCK_LOSS := State.rd_advance (by decide)
  generalize s.advance at' = v at hexec hnow hlock' hopen hlate hloss
  obtain ⟨hkept, hclate, hcloss, hr4, hr1, hmode, hlockBit⟩ := State.pipMissed_effect hlock' hopen
  generalize v.pipMissed = t at hexec hkept hclate hcloss hr4 hr1 hmode hlockBit
  refine ⟨_, hexec, ?_, counted_trans_right hlate hclate, counted_trans_right hloss hcloss, hr4, hr1, hmode, hlockBit⟩
  rw [State.left_now, show t.errCleared.now = t.now from rfl, hkept, hnow]
  omega

theorem exec_latePip_cases (hlive : s.boot.resetLow = false) {tp : Nat} (hpip : s.tim.lastPip = some tp) :
    (s.timMode = timLOCKED → s.tim.ref = 0 → s.gateClosed 0x30 = false → ∃ t, exec .latePip s = .next t ∧
      t.now = max s.now (tp + s.tim.lastPeriod + s.linePeriod / 2) ∧ counted s t Reg.TIMING_LATE_PIP 1 ∧
      counted s t Reg.TIMING_LOCK_LOSS 1 ∧ raised t 0x30 4 ∧ raised t 0x30 1 ∧ t.timMode = timSLEWING ∧
      t.fld Reg.TIMING_STATUS_LOCK = 0) ∧
    (s.timMode ≠ timLOCKED ∨ s.tim.ref ≠ 0 → exec .latePip s = .next s) := by
  refine ⟨fun hlock href hgate => exec_latePip_at ?_ hlock hgate, fun h => ?_⟩
  · rw [exec_latePip_live hlive, State.latePip_locked hpip hlock href]
  · have hnone : s.latePip = s := by
      unfold State.latePip
      rw [hpip]
      exact if_neg (by tauto)
    rw [exec_latePip_live hlive, hnone, State.left_of_steady (Steady.refl s)]

theorem exec_pipTimeout_live (hlive : s.boot.resetLow = false) : exec .pipTimeout s = .next (s.left s.pipTimeout) :=
  (exec_pipTimeout s).trans (State.unheld_live hlive)

/-- What an entry of self-refresh for a reason of its own leaves, while no ENTER of the host stands. -/
theorem State.srefEvent_pipTimeout (hhost : s.srf.host = false) :
    (s.srefEvent 5).srefState = 5 ∧ (s.srefEvent 5).fld Reg.SREF_STATE_REASON = 5 ∧ (s.srefEvent 5).srf.pipSince = false ∧
    (s.inSref = false → counted s (s.srefEvent 5) Reg.SREF_ENTRIES 1) ∧
    (s.inSref = false → s.gateClosed 0x32 = false → raised (s.srefEvent 5) 0x32 0) ∧
    (s.inSref = false → s.timMode ≠ timFREE → (s.srefEvent 5).timMode = timHOLDOVER) := by
  obtain ⟨hstate, hreason⟩ := s.srefEvent_reason 5 (by decide) (Or.inl hhost)
  exact ⟨hstate, hreason, (s.srefEvent_kept 5).2, s.srefEvent_counts 5, s.srefEvent_raises 5, s.srefEvent_holds 5⟩

theorem State.pipTimeout_due {tp : Nat} (hpip : s.tim.lastPip = some tp) (hup : s.linkUp = true)
    (hsince : s.srf.pipSince = true ∨ 5 ∉ s.srf.events) :
    s.pipTimeout = (s.advance (tp + s.tim.lastPeriod + s.periodMax)).srefEvent 5 := by
  unfold State.pipTimeout
  rw [hpip]
  exact if_pos ⟨hup, hsince.imp id fun h => by simpa using h⟩

theorem State.pipTimeout_none {tp : Nat} (hpip : s.tim.lastPip = some tp)
    (h : s.linkUp = false ∨ (s.srf.pipSince = false ∧ 5 ∈ s.srf.events)) : s.pipTimeout = s := by
  unfold State.pipTimeout
  rw [hpip]
  refine if_neg ?_
  rintro ⟨hup, hsince⟩
  rcases h with hdown | ⟨hnone, hmem⟩
  · rw [hdown] at hup; cases hup
  · rcases hsince with hc | hc
    · rw [hnone] at hc; cases hc
    · simp [hmem] at hc

theorem exec_pipTimeout_at {at' : Nat} (hexec : exec .pipTimeout s = .next (s.left ((s.advance at').srefEvent 5)))
    (hhost : s.srf.host = false) :
    ∃ t, exec .pipTimeout s = .next t ∧ t.now = max s.now at' ∧ t.srefState = 5 ∧ t.fld Reg.SREF_STATE_REASON = 5 ∧
      t.srf.pipSince = false ∧ (s.inSref = false → counted s t Reg.SREF_ENTRIES 1) ∧
      (s.inSref = false → s.gateClosed 0x32 = false → raised t 0x32 0) ∧
      (s.inSref = false → s.timMode ≠ timFREE → t.timMode = timHOLDOVER) := by
  have hnow := s.advance_now at'
  have hsrf : (s.advance at').srf.host = false := by rw [State.advance_eq]; exact hhost
  have hin : (s.advance at').inSref = s.inSref := by
    rw [State.inSref, State.srefState, State.fld_advance (by decide), State.inSref, State.srefState]
  have hopen : (s.advance at').gateClosed 0x32 = s.gateClosed 0x32 := State.gateClosed_advance (by decide)
  have hmode : (s.advance at').timMode = s.timMode := State.fld_advance (by decide)
  have hcnt : (s.advance at').rd Reg.SREF_ENTRIES = s.rd Reg.SREF_ENTRIES := State.rd_advance (by decide)
  generalize s.advance at' = v at hexec hnow hsrf hin hopen hmode hcnt
  obtain ⟨hstate, hreason, hsince, hcount, hraise, hhold⟩ := State.srefEvent_pipTimeout hsrf
  have hkept := (v.srefEvent_srefWork 5).now_eq
  generalize v.srefEvent 5 = t at hexec hstate hreason hsince hcount hraise hhold hkept
  refine ⟨_, hexec, ?_, hstate, hreason, hsince, fun h => counted_trans_right hcnt (hcount (hin.trans h)),
    fun h hgate => hraise (hin.trans h) (hopen.trans hgate), fun h hfree => hhold (hin.trans h) (hmode ▸ hfree)⟩
  rw [State.left_now, hkept, hnow]
  omega

theorem exec_pipTimeout_cases (hlive : s.boot.resetLow = false) {tp : Nat} (hpip : s.tim.lastPip = some tp) :
    (s.linkUp = false ∨ (s.srf.pipSince = false ∧ 5 ∈ s.srf.events) → exec .pipTimeout s = .next s) ∧
    (s.linkUp = true → s.srf.pipSince = true ∨ 5 ∉ s.srf.events → s.srf.host = false → ∃ t, exec .pipTimeout s = .next t ∧
      t.now = max s.now (tp + s.tim.lastPeriod + s.periodMax) ∧ t.srefState = 5 ∧ t.fld Reg.SREF_STATE_REASON = 5 ∧
      t.srf.pipSince = false ∧ (s.inSref = false → counted s t Reg.SREF_ENTRIES 1) ∧
      (s.inSref = false → s.gateClosed 0x32 = false → raised t 0x32 0) ∧
      (s.inSref = false → s.timMode ≠ timFREE → t.timMode = timHOLDOVER)) := by
  refine ⟨fun h => ?_, fun hup hsince hhost => exec_pipTimeout_at ?_ hhost⟩
  · rw [exec_pipTimeout_live hlive, State.pipTimeout_none hpip h, State.left_of_steady (Steady.refl s)]
  · rw [exec_pipTimeout_live hlive, State.pipTimeout_due hpip hup hsince]

/-! House sync (R103, R104). -/

theorem State.left_advance (s : State) (n : Nat) : s.left (s.advance n) = s.advance n := State.left_of_steady (s.advance_steady n)

theorem State.tim_steady (s : State) (c : TimState) : Steady s { s with tim := c } := ⟨Nat.le_refl _, rfl, rfl⟩

theorem State.advance_tim (s : State) (n : Nat) : (s.advance n).tim = s.tim := by rw [State.advance_eq]
theorem State.advance_flagA (s : State) (n : Nat) (x : Fld) : (s.advance n).flagA x = s.flagA x := by
  rw [State.flagA, State.fldA, State.rdA, State.advance_eq]; rfl

theorem exec_hrefEdge_live (hlive : s.boot.resetLow = false) (at' : Nat) (rising : Bool) :
    exec (.hrefEdge at' rising) s = .next (s.left (s.hrefEdge at' rising)) :=
  (exec_hrefEdge s at' rising).trans (State.unheld_live hlive)

theorem State.hrefEdge_eq (s : State) (at' : Nat) (rising : Bool) :
    s.hrefEdge at' rising = { s.advance at' with tim := { s.tim with
      href := some (max s.now at')
      hrefs := s.tim.hrefs + (if rising = s.flagA Reg.GENLOCK_CFG_HEDGE then 1 else 0)
      hrefAt := if rising = s.flagA Reg.GENLOCK_CFG_HEDGE then some (max s.now at') else s.tim.hrefAt } } := by
  have hflag := s.advance_flagA at' Reg.GENLOCK_CFG_HEDGE
  have htim := s.advance_tim at'
  have hnow := s.advance_now at'
  unfold State.hrefEdge
  dsimp only
  rw [hflag, htim, hnow]
  by_cases h : rising = s.flagA Reg.GENLOCK_CFG_HEDGE
  · have hb : (rising == s.flagA Reg.GENLOCK_CFG_HEDGE) = true := beq_iff_eq.2 h
    simp only [hb, b2n, if_true, if_pos h]
  · have hb : (rising == s.flagA Reg.GENLOCK_CFG_HEDGE) = false := beq_eq_false_iff_ne.2 h
    simp only [hb, b2n, Bool.false_eq_true, if_false, if_neg h]

theorem exec_hrefEdge_counts (hlive : s.boot.resetLow = false) (at' : Nat) (rising : Bool) :
    exec (.hrefEdge at' rising) s = .next { s.advance at' with tim := { s.tim with
      href := some (max s.now at')
      hrefs := s.tim.hrefs + (if rising = s.flagA Reg.GENLOCK_CFG_HEDGE then 1 else 0)
      hrefAt := if rising = s.flagA Reg.GENLOCK_CFG_HEDGE then some (max s.now at') else s.tim.hrefAt } } := by
  rw [exec_hrefEdge_live hlive, State.hrefEdge_eq, State.left_of_steady ((s.advance_steady at').trans (State.tim_steady _ _))]

theorem exec_vrefEdge_live (hlive : s.boot.resetLow = false) (at' : Nat) (rising : Bool) :
    exec (.vrefEdge at' rising) s = .next (s.left (s.vrefEdge at' rising)) :=
  (exec_vrefEdge s at' rising).trans (State.unheld_live hlive)

theorem exec_vrefEdge_inactive (hlive : s.boot.resetLow = false) (at' : Nat) {rising : Bool} (h : rising ≠ s.flagA Reg.GENLOCK_CFG_VEDGE) :
    exec (.vrefEdge at' rising) s = .next (s.advance at') := by
  have hedge : s.vrefEdge at' rising = s.advance at' := by
    unfold State.vrefEdge
    dsimp only
    rw [if_pos (by rw [State.advance_flagA]; exact bne_iff_ne.2 h)]
  rw [exec_vrefEdge_live hlive, hedge, State.left_of_steady (s.advance_steady at')]

/-- Whether an interval agrees with the one before (R103). -/
def State.vrefAgrees (s : State) (gap : Nat) : Bool :=
  s.tim.vrefGap != 0 && ((if gap ≤ s.tim.vrefGap then s.tim.vrefGap - gap else gap - s.tim.vrefGap) * 1000 ≤ s.tim.vrefGap)

/-- An interval of VREF is measured up to a mark (R103). -/
def State.vrefTimed (s : State) (mark : Nat) : State :=
  let s' := (s.putTicks Reg.GENLOCK_VREF_PERIOD (mark - s.tim.vrefFrom)).wrN Reg.GENLOCK_HREF_COUNT s.tim.hrefs
  { s' with tim := { s'.tim with
      vref := some s'.now, vrefGap := mark - s.tim.vrefFrom, hrefs := 0
      vrefGood := if s.vrefAgrees (mark - s.tim.vrefFrom) then min 4 (s.tim.vrefGood + 1) else 1, vrefFrom := mark } }

theorem dist_of_natAbs {g o : Nat} (h : ((g : Int) - o).natAbs * 1000 ≤ o) : (if g ≤ o then o - g else g - o) * 1000 ≤ o := by
  have hdist : (if g ≤ o then o - g else g - o) = ((g : Int) - o).natAbs := by split <;> omega
  rw [hdist]
  exact h

/-- Whether VREF is back (R104). -/
def State.vrefBack (s : State) : Bool := !s.vrefOk && s.tim.vrefGood == 4

/-- VREF_OK says that VREF is back. -/
def State.vrefShown (s : State) : State :=
  if s.vrefBack then (s.put Reg.GENLOCK_STATUS_VREF_OK 1).raiseIf s.tim.vrefLost 0x31 1 else s

/-- The measured edge acts on the reference. -/
def State.vrefActs (s : State) : State :=
  let c := if s.vrefBack then s.vrefShown.checkRef else s.vrefShown
  if c.tim.ref = 1 then c.refEdge else c

theorem State.vrefEdge_active (at' : Nat) {rising : Bool} (h : rising = s.flagA Reg.GENLOCK_CFG_VEDGE) {v0 : Nat} (hv : s.tim.vref = some v0) :
    s.vrefEdge at' rising = ((s.advance at').vrefTimed (s.advance at').vrefMark).vrefActs := by
  have hv' : (s.advance at').tim.vref = some v0 := by rw [s.advance_tim]; exact hv
  unfold State.vrefEdge
  dsimp only
  rw [if_neg (by rw [State.advance_flagA, h]; simp)]
  generalize s.advance at' = v at hv'
  split
  · next hnone => exact absurd (hnone.symm.trans hv') (by simp)
  · rfl

theorem State.vrefMark_eq (s : State) : s.vrefMark = if s.flagA Reg.GENLOCK_CFG_HQUAL = true then s.tim.hrefAt.getD s.now else s.now := by
  unfold State.vrefMark
  cases s.flagA Reg.GENLOCK_CFG_HQUAL <;> cases s.tim.hrefAt <;> rfl

/-- What an active edge leaves of what was measured. -/
structure EdgeActed (s t : State) : Prop where
  now : t.now = s.now
  tim : t.tim.vref = s.tim.vref ∧ t.tim.vrefGap = s.tim.vrefGap ∧ t.tim.vrefFrom = s.tim.vrefFrom ∧ t.tim.hrefs = s.tim.hrefs
  rd : ∀ a, a / 0x1000 = 0x31 → a ≠ 0x3100C → a ≠ Reg.HDR_IRQ_RAW 0x31 → t.rd a = s.rd a
  ok : s.vrefOk = true ∨ s.tim.vrefGood = 4 → t.vrefOk = true

theorem State.vrefShown_onlyRegs (s : State) : OnlyRegs s s.vrefShown := by
  unfold State.vrefShown State.raiseIf
  split
  · split
    exacts [(s.put_onlyRegs _ _).trans (State.raise_onlyRegs _ _ _), s.put_onlyRegs _ _]
  · exact ⟨s.regs, s.nv.log, s.isl.rises, rfl⟩

theorem State.vrefShown_ok (h : s.vrefOk = true ∨ s.tim.vrefGood = 4) : s.vrefShown.vrefOk = true := by
  unfold State.vrefShown
  by_cases hback : s.vrefBack = true
  · have hput : (s.put Reg.GENLOCK_STATUS_VREF_OK 1).fld Reg.GENLOCK_STATUS_VREF_OK = 1 := State.fld_put_mod (by decide)
    rw [if_pos hback, State.vrefOk, State.flag, State.fld_raiseIf_other _ (by decide), hput]
    rfl
  · rw [if_neg hback]
    rcases h with hok | hgood
    · exact hok
    · rw [State.vrefBack, hgood] at hback
      simpa using hback

theorem State.vrefActs_acted (s : State) : EdgeActed s s.vrefActs := by
  have honly := s.vrefShown_onlyRegs
  have hok : s.vrefOk = true ∨ s.tim.vrefGood = 4 → s.vrefShown.vrefOk = true := State.vrefShown_ok
  have hrd : ∀ a, a ≠ 0x3100C → a ≠ Reg.HDR_IRQ_RAW 0x31 → s.vrefShown.rd a = s.rd a := fun a h1 h2 => by
    have hraise : Reg.HDR_IRQ_RAW (hdrPage 0x31) ≠ a := Ne.symm h2
    unfold State.vrefShown State.raiseIf
    split
    · split
      · rw [State.raise_rd_other _ _ _ _ hraise, State.rd_put_other h1.symm]
      · exact State.rd_put_other h1.symm
    · rfl
  have hwork : TimWork s.vrefShown s.vrefActs := by
    have hcheck : TimWork s.vrefShown (if s.vrefBack then s.vrefShown.checkRef else s.vrefShown) :=
      TimWork.ite s.vrefShown.checkRef_timWork (TimWork.refl _)
    unfold State.vrefActs
    dsimp only
    generalize (if s.vrefBack then s.vrefShown.checkRef else s.vrefShown : State) = c at hcheck ⊢
    exact TimWork.ite (hcheck.trans c.refEdge_timWork) hcheck
  generalize s.vrefActs = t at hwork ⊢
  generalize s.vrefShown = v at honly hok hrd hwork
  have htim := hwork.tim_eq
  have hv : v.tim = s.tim := by obtain ⟨_, _, _, rfl⟩ := honly; rfl
  refine ⟨hwork.now_eq.trans honly.now_eq, ?_, fun a ha h1 h2 => (hwork.rd a (by omega)).trans (hrd a h1 h2), fun h => ?_⟩
  · rw [htim, hv]
    exact ⟨rfl, rfl, rfl, rfl⟩
  · rw [State.vrefOk, State.flag, hwork.fld (by decide)]
    exact hok h

theorem exec_vrefEdge_at {at' gap mark : Nat} {rising : Bool}
    (hexec : exec (.vrefEdge at' rising) s = .next (s.left ((s.advance at').vrefTimed mark).vrefActs))
    (hgap : gap = mark - s.tim.vrefFrom) :
    ∃ t, exec (.vrefEdge at' rising) s = .next t ∧ t.tim.vref = some t.now ∧ t.now = max s.now at' ∧
        t.tim.vrefGap = gap ∧ t.tim.vrefFrom = mark ∧ t.tim.hrefs = 0 ∧
        t.rd Reg.GENLOCK_VREF_PERIOD = BitVec.ofNat 32 (divHalfUp gap 16) ∧
        t.rd Reg.GENLOCK_HREF_COUNT = BitVec.ofNat 32 s.tim.hrefs ∧
        (s.tim.vrefGood = 3 → s.tim.vrefGap ≠ 0 → ((gap : Int) - s.tim.vrefGap).natAbs * 1000 ≤ s.tim.vrefGap →
          t.vrefOk = true) := by
  have hnow := s.advance_now at'
  have htim := s.advance_tim at'
  generalize s.advance at' = v at hexec hnow htim
  subst hgap
  rw [← htim]
  have hacted := (v.vrefTimed mark).vrefActs_acted
  have htimed : (v.vrefTimed mark).tim = { v.tim with
      vref := some v.now, vrefGap := mark - v.tim.vrefFrom, hrefs := 0
      vrefGood := if v.vrefAgrees (mark - v.tim.vrefFrom) then min 4 (v.tim.vrefGood + 1) else 1, vrefFrom := mark } := rfl
  have htnow : (v.vrefTimed mark).now = v.now := rfl
  have hrd : ∀ a, (v.vrefTimed mark).rd a = ((v.wr Reg.GENLOCK_VREF_PERIOD (BitVec.ofNat 32 (divHalfUp (mark - v.tim.vrefFrom) 16))).wr
      Reg.GENLOCK_HREF_COUNT (BitVec.ofNat 32 v.tim.hrefs)).rd a := fun _ => rfl
  generalize v.vrefTimed mark = y at hexec hacted htimed htnow hrd
  generalize y.vrefActs = t at hexec hacted
  obtain ⟨hv1, hv2, hv3, hv4⟩ := hacted.tim
  have hlate : max s.now t.now = t.now := by rw [hacted.now, htnow, hnow]; omega
  refine ⟨_, hexec, ?_, ?_, ?_, ?_, ?_, ?_, ?_, fun hgood hold hagree => ?_⟩
  · rw [State.left_now, hlate, hacted.now, htnow]
    exact hv1.trans (by rw [htimed])
  · rw [State.left_now, hlate, hacted.now, htnow, hnow]
  · exact hv2.trans (by rw [htimed])
  · exact hv3.trans (by rw [htimed])
  · exact hv4.trans (by rw [htimed])
  · rw [State.left_rd, hacted.rd _ (by decide) (by decide) (by decide), hrd, State.rd_wr_other _ _ _ _ (by decide), State.rd_wr_self]
  · rw [State.left_rd, hacted.rd _ (by decide) (by decide) (by decide), hrd, State.rd_wr_self]
  · refine hacted.ok (Or.inr ?_)
    have hagrees : v.vrefAgrees (mark - v.tim.vrefFrom) = true := by
      rw [State.vrefAgrees, Bool.and_eq_true, bne_iff_ne, decide_eq_true_iff]
      exact ⟨hold, dist_of_natAbs hagree⟩
    rw [htimed]
    simp [hagrees, hgood]

theorem exec_vrefEdge_active (hlive : s.boot.resetLow = false) (at' : Nat) {rising : Bool} {v0 gap mark : Nat}
    (h : rising = s.flagA Reg.GENLOCK_CFG_VEDGE) (hv : s.tim.vref = some v0)
    (hmark : mark = (if s.flagA Reg.GENLOCK_CFG_HQUAL = true then s.tim.hrefAt.getD (max s.now at') else max s.now at'))
    (hgap : gap = mark - s.tim.vrefFrom) :
    ∃ t, exec (.vrefEdge at' rising) s = .next t ∧ t.tim.vref = some t.now ∧ t.now = max s.now at' ∧
        t.tim.vrefGap = gap ∧ t.tim.vrefFrom = mark ∧ t.tim.hrefs = 0 ∧
        t.rd Reg.GENLOCK_VREF_PERIOD = BitVec.ofNat 32 (divHalfUp gap 16) ∧
        t.rd Reg.GENLOCK_HREF_COUNT = BitVec.ofNat 32 s.tim.hrefs ∧
        (s.tim.vrefGood = 3 → s.tim.vrefGap ≠ 0 → ((gap : Int) - s.tim.vrefGap).natAbs * 1000 ≤ s.tim.vrefGap →
          t.vrefOk = true) := by
  refine exec_vrefEdge_at ?_ hgap
  rw [exec_vrefEdge_live hlive, State.vrefEdge_active at' h hv, State.vrefMark_eq, State.advance_flagA, s.advance_tim, s.advance_now, hmark]

/-! The loss of house sync (R104, R106). -/

theorem exec_glLoss_live (hlive : s.boot.resetLow = false) : exec .glLoss s = .next (s.left s.glLoss) :=
  (exec_glLoss s).trans (State.unheld_live hlive)

/-- House sync is lost. -/
def State.vrefGone (s : State) : State :=
  let s := ((s.bump Reg.GENLOCK_LOSS_CNT).raise 0x31 0).put Reg.GENLOCK_STATUS_VREF_OK 0
  { s with tim := { s.tim with vref := none, vrefGood := 0, vrefLost := true } }

/-- What follows from its loss. -/
def State.vrefMissed (s : State) : State :=
  if s.fldA Reg.TIMING_CFG_SRC_SEL = 1 ∧ !s.followsFsync then (if s.linkUp then s.checkRef else s.srefEvent 6) else s

theorem State.glLoss_eq {at' : Nat} (h : s.glLossAt = some at') : s.glLoss = (s.advance at').vrefGone.vrefMissed := by
  unfold State.glLoss
  rw [h]
  rfl

theorem State.vrefMissed_kept (s : State) : s.vrefMissed.now = s.now ∧ ∀ a, a / 0x1000 = 0x31 → s.vrefMissed.rd a = s.rd a := by
  unfold State.vrefMissed
  split
  · split
    · have h := s.checkRef_timWork
      exact ⟨h.now_eq, fun a ha => h.rd a (by omega)⟩
    · have h := s.srefEvent_srefWork 6
      refine ⟨h.now_eq, fun a ha => h.rd a (by rw [ha]; decide) ?_⟩
      rintro rfl
      exact absurd ha (by decide)
  · exact ⟨rfl, fun _ _ => rfl⟩

theorem State.vrefGone_effect (s : State) : s.vrefGone.now = s.now ∧ s.vrefGone.vrefOk = false ∧
    counted s s.vrefGone Reg.GENLOCK_LOSS_CNT 1 ∧ (s.gateClosed 0x31 = false → raised s.vrefGone 0x31 0) ∧
    s.vrefGone.act = s.act ∧ s.vrefGone.srf = s.srf ∧ ∀ a, a / 0x1000 ≠ 0x31 → s.vrefGone.rd a = s.rd a := by
  have hrd : ∀ a, s.vrefGone.rd a = (((s.bump Reg.GENLOCK_LOSS_CNT).raise 0x31 0).put Reg.GENLOCK_STATUS_VREF_OK 0).rd a := fun _ => rfl
  have honly := ((s.bump_onlyRegs Reg.GENLOCK_LOSS_CNT).trans (State.raise_onlyRegs _ 0x31 0)).trans (State.put_onlyRegs _ Reg.GENLOCK_STATUS_VREF_OK 0)
  have hkept : s.vrefGone.now = (((s.bump Reg.GENLOCK_LOSS_CNT).raise 0x31 0).put Reg.GENLOCK_STATUS_VREF_OK 0).now ∧
      s.vrefGone.act = (((s.bump Reg.GENLOCK_LOSS_CNT).raise 0x31 0).put Reg.GENLOCK_STATUS_VREF_OK 0).act ∧
      s.vrefGone.srf = (((s.bump Reg.GENLOCK_LOSS_CNT).raise 0x31 0).put Reg.GENLOCK_STATUS_VREF_OK 0).srf := ⟨rfl, rfl, rfl⟩
  have hsrf : (((s.bump Reg.GENLOCK_LOSS_CNT).raise 0x31 0).put Reg.GENLOCK_STATUS_VREF_OK 0).srf = s.srf := by
    obtain ⟨_, _, _, heq⟩ := honly
    rw [heq]
  generalize s.vrefGone = t at hrd hkept ⊢
  have hfld : ∀ x : Fld, t.fld x = (((s.bump Reg.GENLOCK_LOSS_CNT).raise 0x31 0).put Reg.GENLOCK_STATUS_VREF_OK 0).fld x := fun x => by
    rw [State.fld, hrd, State.fld]
  refine ⟨hkept.1.trans honly.now_eq, ?_, ?_, fun hgate => ?_, hkept.2.1.trans honly.act_eq, hkept.2.2.trans hsrf, fun a ha => ?_⟩
  · rw [State.vrefOk, State.flag, hfld, State.fld_put_mod (by decide)]
    rfl
  · refine counted_of_rd ?_ (by decide)
    rw [hrd, State.rd_put_other (by decide), State.raise_rd_other _ _ _ _ (by decide)]
  · rw [raised, hfld, State.fld_put_apart (by decide)]
    exact State.fld_raise_self ((State.gateClosed_bump (by decide)).trans hgate) (by decide)
  · have hne : ∀ b, b / 0x1000 = 0x31 → b ≠ a := by rintro b hb rfl; exact ha hb
    rw [hrd, State.rd_put_other (hne _ (by decide)), State.raise_rd_other _ _ _ _ (hne _ (by decide)),
      State.rd_bump_other ⟨hne _ (by decide), hne _ (by decide)⟩]

theorem State.followsFsync_congr (h : ∀ x : Fld, x.addr = Reg.CAS_CFG ∨ x.addr = Reg.HOSTIF_STRAPS → t.fld x = s.fld x) :
    t.followsFsync = s.followsFsync := by
  rw [State.followsFsync, State.groupMember, State.flag, State.flag, h _ (Or.inl rfl), h _ (Or.inr rfl)]
  rfl

theorem exec_glLoss_at {at' : Nat} (hexec : exec .glLoss s = .next (s.left (s.advance at').vrefGone.vrefMissed))
    (hgate : s.gateClosed 0x31 = false) :
    ∃ t, exec .glLoss s = .next t ∧ t.now = max s.now at' ∧ t.vrefOk = false ∧
      counted s t Reg.GENLOCK_LOSS_CNT 1 ∧ raised t 0x31 0 ∧
      (s.fldA Reg.TIMING_CFG_SRC_SEL = 1 → s.linkUp = false → s.followsFsync = false → s.srf.host = false →
        t.srefState = 6 ∧ t.fld Reg.SREF_STATE_REASON = 6) := by
  have hnow := s.advance_now at'
  have hact : (s.advance at').act = s.act := by rw [State.advance_eq]
  have hsrf : (s.advance at').srf = s.srf := by rw [State.advance_eq]
  have hopen : (s.advance at').gateClosed 0x31 = false := (State.gateClosed_advance (by decide)).trans hgate
  have hrd : ∀ a, a ≠ Reg.AON_TIMEBASE → a ≠ Reg.AON_TIMEBASE_HI → (s.advance at').rd a = s.rd a := fun a h1 h2 => State.rd_advance ⟨h1, h2⟩
  generalize s.advance at' = v at hexec hnow hact hsrf hopen hrd
  obtain ⟨hgnow, hok, hcount, hraise, hgact, hgsrf, hgrd⟩ := v.vrefGone_effect
  generalize v.vrefGone = y at hexec hgnow hok hcount hraise hgact hgsrf hgrd
  obtain ⟨hmnow, hmrd⟩ := y.vrefMissed_kept
  have hfld : ∀ x : Fld, x.addr / 0x1000 = 0x31 → y.vrefMissed.fld x = y.fld x := fun x hx => by rw [State.fld, hmrd _ hx, State.fld]
  have hkept : ∀ x : Fld, x.addr / 0x1000 ≠ 0x31 → x.addr ≠ Reg.AON_TIMEBASE → x.addr ≠ Reg.AON_TIMEBASE_HI → y.fld x = s.fld x :=
    fun x h0 h1 h2 => by rw [State.fld, hgrd _ h0, hrd _ h1 h2, State.fld]
  have hreason : s.fldA Reg.TIMING_CFG_SRC_SEL = 1 → s.linkUp = false → s.followsFsync = false → s.srf.host = false →
      y.vrefMissed.srefState = 6 ∧ y.vrefMissed.fld Reg.SREF_STATE_REASON = 6 := fun hsel hdown hfollow hhost => by
    have hsel' : y.fldA Reg.TIMING_CFG_SRC_SEL = 1 := by rw [State.fldA, State.rdA, hgact, hact]; exact hsel
    have hdown' : y.linkUp = false := by rw [State.linkUp, hkept _ (by decide) (by decide) (by decide)]; exact hdown
    have hfollow' : y.followsFsync = false := (State.followsFsync_congr (s := s) (fun x hx => by
      rcases hx with hx | hx <;> exact hkept x (by rw [hx]; decide) (by rw [hx]; decide) (by rw [hx]; decide))).trans hfollow
    have hmissed : y.vrefMissed = y.srefEvent 6 := by
      unfold State.vrefMissed
      rw [if_pos ⟨hsel', by rw [hfollow']; rfl⟩, if_neg (by rw [hdown']; decide)]
    rw [hmissed]
    exact y.srefEvent_reason 6 (by decide) (Or.inl (by rw [hgsrf, hsrf]; exact hhost))
  generalize y.vrefMissed = t at hexec hmnow hmrd hfld hreason
  refine ⟨_, hexec, ?_, ?_, ?_, ?_, hreason⟩
  · rw [State.left_now, hmnow, hgnow, hnow]
    omega
  · rw [State.vrefOk, State.flag, State.left_fld, hfld _ (by decide)]
    exact hok
  · exact counted_trans_left (hmrd _ (by decide)) (counted_trans_right (hrd _ (by decide) (by decide)) hcount)
  · exact (hfld ⟨Reg.HDR_IRQ_RAW 0x31, 0, 1⟩ (by decide)).trans (hraise hopen)

theorem exec_glLoss_cases (hlive : s.boot.resetLow = false) (hgate : s.gateClosed 0x31 = false) :
    (s.glLossAt = none → exec .glLoss s = .next s) ∧
    (∀ at', s.glLossAt = some at' → ∃ t, exec .glLoss s = .next t ∧ t.now = max s.now at' ∧ t.vrefOk = false ∧
      counted s t Reg.GENLOCK_LOSS_CNT 1 ∧ raised t 0x31 0 ∧
      (s.fldA Reg.TIMING_CFG_SRC_SEL = 1 → s.linkUp = false → s.followsFsync = false → s.srf.host = false →
        t.srefState = 6 ∧ t.fld Reg.SREF_STATE_REASON = 6)) := by
  refine ⟨fun h => ?_, fun at' h => exec_glLoss_at ?_ hgate⟩
  · have hnone : s.glLoss = s := by
      unfold State.glLoss
      rw [h]
    rw [exec_glLoss_live hlive, hnone, State.left_of_steady (Steady.refl s)]
  · rw [exec_glLoss_live hlive, State.glLoss_eq h]

theorem timingEvents : Rules.TimingEvents := by
  refine ⟨fun s tp hlive hpip => ?_, fun s at' rising hlive => ?_, fun s hlive hgate => exec_glLoss_cases hlive hgate⟩
  · obtain ⟨hlate, hnone⟩ := exec_latePip_cases hlive hpip
    obtain ⟨hidle, hdue⟩ := exec_pipTimeout_cases hlive hpip
    exact ⟨hlate, hnone, hidle, hdue⟩
  · exact ⟨s.advance_now at', exec_hrefEdge_counts hlive at' rising, exec_vrefEdge_inactive hlive at',
      fun _ _ _ h hv hmark hgap => exec_vrefEdge_active hlive at' h hv hmark hgap⟩

/-- Settles O37: TIMING's events and the host's commands, by what an entry of self-refresh leaves (`srefEvent_srefWork`). -/
theorem lockAndSelfRefresh : Obligations.LockAndSelfRefresh := ⟨timingEvents, selfRefresh⟩

end Sys2Proof.Machine
end

section
/-! PROOFS. What lanes aim at, and how their transitions end (R52, R53, R59, R498). -/

namespace Sys2Proof.Machine

variable {s t u v : State} {a b k l m n p : Nat} {w : Word} {x : Fld}

/-! What leaves the transitions of lanes alone. -/

/-- No lane's state register changes, nor what it is bound for. -/
structure LanesRest (s t : State) : Prop where
  lstate : ∀ l, t.rd (Reg.PHY_LSTATE (phyBase l)) = s.rd (Reg.PHY_LSTATE (phyBase l))
  trans : ∀ l, (t.lane l).trans = (s.lane l).trans
  pend : ∀ l, (t.lane l).pend = (s.lane l).pend

namespace LanesRest

theorem refl (s : State) : LanesRest s s := ⟨fun _ => rfl, fun _ => rfl, fun _ => rfl⟩
theorem andThen (h : LanesRest s t) (g : LanesRest t u) : LanesRest s u :=
  ⟨fun l => (g.lstate l).trans (h.lstate l), fun l => (g.trans l).trans (h.trans l), fun l => (g.pend l).trans (h.pend l)⟩
theorem ite {c : Prop} [Decidable c] (ht : LanesRest s t) (hu : LanesRest s u) : LanesRest s (if c then t else u) := by
  split
  exacts [ht, hu]
theorem fld (h : LanesRest s t) (hx : x.addr = Reg.PHY_LSTATE (phyBase l)) : t.fld x = s.fld x := by
  rw [State.fld, hx, h.lstate, ← hx, State.fld]

end LanesRest

/-- The pages on which lanes have their registers. -/
theorem phyBase_pages (l off : Nat) (hoff : off < 0x100) :
    (0x11 ≤ (phyBase l + off) / 0x1000 ∧ (phyBase l + off) / 0x1000 ≤ 0x21) ∨ 0xA0 ≤ (phyBase l + off) / 0x1000 := by
  unfold phyBase
  repeat' split
  all_goals omega

theorem lstate_not_sref (l : Nat) : Reg.PHY_LSTATE (phyBase l) / 0x1000 ∉ srefPages := by
  have h := phyBase_pages l 0 (by decide)
  simp only [Reg.PHY_LSTATE, srefPages, List.mem_cons, List.not_mem_nil, or_false, not_or]
  omega

theorem lstate_ne (l : Nat) (h : a / 0x1000 < 0x11) : a ≠ Reg.PHY_LSTATE (phyBase l) := by
  rintro rfl
  exact absurd (phyBase_page l 0) (by rw [Reg.PHY_LSTATE] at h; omega)

theorem LinkWork.rest (h : LinkWork s t) : LanesRest s t :=
  ⟨fun l => h.rd _ (phy_not_bc l 0) (lstate_ne l (by decide)).symm, fun l => by rw [h.lane l], fun l => by rw [h.lane l]⟩

theorem SrefWork.rest (h : SrefWork s t) : LanesRest s t :=
  ⟨fun l => h.rd _ (lstate_not_sref l) (lstate_ne l (by decide)).symm, fun l => by rw [h.lane_eq], fun l => by rw [h.lane_eq]⟩

theorem Attempted.rest {retry : Nat} (h : Attempted retry s t) : LanesRest s t :=
  ⟨fun l => h.rd _ (phy_not_bc l 0) (lstate_ne l (by decide)).symm, fun l => by rw [h.lane l], fun l => by rw [h.lane l]⟩

section
variable (s)

theorem State.emit_rest (o : OutKind) (d : Nat) (l : List Nat) : LanesRest s (s.emit o d l) := ⟨fun _ => rfl, fun _ => rfl, fun _ => rfl⟩
theorem State.used_rest : LanesRest s s.used := ⟨fun _ => rfl, fun _ => rfl, fun _ => rfl⟩
theorem State.isl_rest (c : IslState) : LanesRest s { s with isl := c } := ⟨fun _ => rfl, fun _ => rfl, fun _ => rfl⟩
theorem State.clk_rest (c : ClkState) : LanesRest s { s with clk := c } := ⟨fun _ => rfl, fun _ => rfl, fun _ => rfl⟩
theorem State.setEdlPort_rest (p : Nat) (e : EdlPort) : LanesRest s (s.setEdlPort p e) := ⟨fun _ => rfl, fun _ => rfl, fun _ => rfl⟩

theorem State.setLane_rest (l : Nat) (y : Lane) (h1 : y.trans = (s.lane l).trans) (h2 : y.pend = (s.lane l).pend) : LanesRest s (s.setLane l y) := by
  refine ⟨fun _ => rfl, fun j => ?_, fun j => ?_⟩ <;>
  · by_cases hj : l = j
    · subst hj; rw [State.lane_setLane_same]; assumption
    · rw [State.lane_setLane_other _ _ hj]

theorem State.mapLane_rest (l : Nat) (g : Lane → Lane) (h1 : ∀ y, (g y).trans = y.trans) (h2 : ∀ y, (g y).pend = y.pend) :
    LanesRest s (s.mapLane l g) := s.setLane_rest l _ (h1 _) (h2 _)

theorem State.rest_of_onlyRegs (h : OnlyRegs s t) (hrd : ∀ a, 0x11 ≤ a / 0x1000 → t.rd a = s.rd a) : LanesRest s t :=
  ⟨fun l => hrd _ (phyBase_page l 0), fun l => by rw [State.lane, h.phy_eq, State.lane], fun l => by rw [State.lane, h.phy_eq, State.lane]⟩

theorem Within.rest {ps : List Nat} (h : Within ps s t) (hps : ∀ q ∈ ps, q < 0x11) : LanesRest s t :=
  State.rest_of_onlyRegs s h.only fun a ha => h.rd a fun hm => absurd (hps _ hm) (by omega)

/-! A lane that has woken (R54, R77, R296, R471). -/

theorem State.prbsFill_rest (l : Nat) : LanesRest s (s.prbsFill l) := by
  unfold State.prbsFill
  exact LanesRest.ite (s.used_rest.andThen (State.emit_rest _ _ _ _)) (LanesRest.refl s)

theorem State.sendPatterns_rest (p n seq : Nat) : LanesRest s (s.sendPatterns p n seq) := by
  unfold State.sendPatterns
  refine LanesRest.ite (LanesRest.refl s) ?_
  dsimp only
  generalize patternRun n seq (s.lane (laneEdl p)).lfsr [] = r
  have hlane : LanesRest s (s.mapLane (laneEdl p) fun x => { x with lfsr := r.2 }) :=
    s.mapLane_rest _ _ (fun _ => rfl) fun _ => rfl
  generalize (s.mapLane (laneEdl p) fun x => { x with lfsr := r.2 } : State) = c at hlane ⊢
  exact hlane.andThen ⟨fun _ => rfl, fun _ => rfl, fun _ => rfl⟩

theorem State.portLaneUp_rest (p : Nat) : LanesRest s (s.portLaneUp p) := by
  unfold State.portLaneUp State.portPatterns
  exact LanesRest.ite ((s.setEdlPort_rest _ _).andThen (State.sendPatterns_rest _ _ _ _)) (LanesRest.refl s)

theorem State.casSend_rest (k hdr payload : Nat) : LanesRest s (s.casSend k hdr payload) := by
  unfold State.casSend
  dsimp only
  refine LanesRest.ite (LanesRest.refl s) (LanesRest.ite ?_ (s.emit_rest _ _ _))
  generalize (if (s.lane (laneCasTx k)).needSeed = true then _ else _ : Nat) = d0
  generalize lfsrRun 128 d0 payload = e
  exact (s.setLane_rest (laneCasTx k) { s.lane (laneCasTx k) with lfsr := e.2, needSeed := false } rfl rfl).andThen
    (State.emit_rest _ _ _ _)

theorem State.casLaneUp_rest (k : Nat) : LanesRest s (s.casLaneUp k) := by
  unfold State.casLaneUp State.casTs1Send State.casControl
  exact LanesRest.ite (s.casSend_rest _ _ _) (LanesRest.refl s)

theorem State.detectRuns_rest : LanesRest s s.detectRuns := by
  unfold State.detectRuns
  exact LanesRest.ite ((s.isl_rest _).andThen (State.capsSend_bcWork _).rest) (LanesRest.refl s)

theorem State.laneWoke_rest (l : Nat) : LanesRest s (s.laneWoke l) := by
  unfold State.laneWoke
  have hfill := s.prbsFill_rest l
  dsimp only
  generalize s.prbsFill l = c at hfill ⊢
  have hport : LanesRest s (if 16 ≤ l ∧ l < 80 then c.portLaneUp (l - 16) else c) :=
    LanesRest.ite (hfill.andThen (c.portLaneUp_rest _)) hfill
  generalize (if 16 ≤ l ∧ l < 80 then c.portLaneUp (l - 16) else c : State) = d at hport ⊢
  have hcas : LanesRest s (if 98 ≤ l ∧ l < 102 then d.casLaneUp (l - 98) else d) :=
    LanesRest.ite (hport.andThen (d.casLaneUp_rest _)) hport
  generalize (if 98 ≤ l ∧ l < 102 then d.casLaneUp (l - 98) else d : State) = e at hcas ⊢
  refine LanesRest.ite ?_ (LanesRest.ite (hcas.andThen e.detectRuns_rest) hcas)
  have hidle := hcas.andThen e.bcIdle_bcWork.rest
  exact LanesRest.ite (hidle.andThen (State.capsSend_bcWork _).rest) hidle

/-! A receiver that has left L0 (R45, R87). -/

theorem State.linkLost_rest : LanesRest s s.linkLost := by
  unfold State.linkLost
  exact LanesRest.ite ((s.linkGone_srefWork true).rest.andThen (State.attempt_attempted _ 0).rest) (LanesRest.refl s)

/-- A unit's header lies below the block of any lane on its page. -/
theorem hdrRaw_not_lstate (p l : Nat) : Reg.HDR_IRQ_RAW p ≠ Reg.PHY_LSTATE (phyBase l) := by
  simp only [Reg.HDR_IRQ_RAW, Reg.PHY_LSTATE, phyBase]
  repeat' split
  all_goals omega

/-- A counter outside the blocks of the lanes counts. -/
theorem State.bump_rest (h : ∀ l, a ≠ Reg.PHY_LSTATE (phyBase l)) : LanesRest s (s.bump a) :=
  ⟨fun l => rd_bump_other ⟨h l, hdrRaw_not_lstate _ l⟩, fun l => by
    rw [State.lane, (s.bump_onlyRegs a).phy_eq, State.lane], fun l => by rw [State.lane, (s.bump_onlyRegs a).phy_eq, State.lane]⟩

theorem State.bumpIf_rest (c : Bool) (h : ∀ l, a ≠ Reg.PHY_LSTATE (phyBase l)) : LanesRest s (s.bumpIf c a) :=
  LanesRest.ite (s.bump_rest h) (LanesRest.refl s)

/-- No lane's block begins at the counter of BC_LOSS. -/
theorem bcLoss_not_lstate (l : Nat) : Reg.ISL_BC_BC_LOSS ≠ Reg.PHY_LSTATE (phyBase l) := by
  simp only [Reg.ISL_BC_BC_LOSS, Reg.PHY_LSTATE, phyBase]
  repeat' split
  all_goals omega

theorem State.bcLost_rest (was : Bool) : LanesRest s (s.bcLost was) := s.bumpIf_rest _ bcLoss_not_lstate

theorem State.laneDown_rest (l : Nat) (bcWas : Bool) (h : 102 ≤ l → s.casUp (l - 102) = false) : LanesRest s (s.laneDown l bcWas) := by
  unfold State.laneDown
  refine LanesRest.ite (LanesRest.ite s.linkLost_rest (LanesRest.refl s)) (LanesRest.ite ?_ ?_)
  · exact (s.bcLost_rest bcWas).andThen (State.isl_rest _ _)
  · by_cases hl : 102 ≤ l
    · have hlost : s.casLost (l - 102) = s := if_neg (by rw [h hl]; decide)
      rw [hlost]
      exact LanesRest.ite (LanesRest.refl s) (LanesRest.refl s)
    · rw [if_neg hl]
      exact LanesRest.refl s

/-! Clock sources that waited (R405). -/

theorem State.setMuxTo_rest (m : Nat) (v : Option Nat) : LanesRest s (s.setMuxTo m v) := s.clk_rest _
theorem State.setMuxPend_rest (m : Nat) (v : Option Nat) : LanesRest s (s.setMuxPend m v) := s.clk_rest _

theorem State.muxFail_rest : LanesRest s s.muxFail :=
  (s.bump_rest fun l => lstate_ne l (by decide)).andThen (Within.rest _ (State.raise_within (ps := [2]) _ (by decide)) (by decide))

theorem State.muxRequest_rest (m src : Nat) : LanesRest s (s.muxRequest m src) := by
  unfold State.muxRequest
  refine LanesRest.ite s.muxFail_rest ?_
  split
  · exact s.setMuxTo_rest _ _
  · exact (s.bumpIf_rest _ fun l => lstate_ne l (by decide)).andThen (State.setMuxPend_rest _ _ _)

theorem State.setSrcPend_rest (m : Nat) (v : Option Nat) : LanesRest s (s.setSrcPend m v) := by
  unfold State.setSrcPend
  exact LanesRest.ite (s.clk_rest _) (s.clk_rest _)

theorem srcPending_rest {s t : State} {n : Nat} (h : LanesRest s t) : LanesRest s (t.put Reg.CLK_MUX_SRC_PENDING n) :=
  h.andThen (Within.rest _ (State.put_within (ps := [2]) _ (by decide)) (by decide))

theorem State.srcRequest_rest (m src : Nat) : LanesRest s (s.srcRequest m src) := by
  unfold State.srcRequest
  dsimp only
  exact srcPending_rest (LanesRest.ite (s.setSrcPend_rest _ _) (LanesRest.ite (s.setSrcPend_rest _ _)
    ((s.setSrcPend_rest _ _).andThen (State.muxRequest_rest _ _ _))))

theorem State.srcApply_rest : LanesRest s s.srcApply := by
  unfold State.srcApply
  dsimp only
  split <;> split
  · exact (s.srcRequest_rest _ _).andThen (State.srcRequest_rest _ _ _)
  · exact s.srcRequest_rest _ _
  · exact s.srcRequest_rest _ _
  · exact LanesRest.refl s

end

/-! What a lane aims at (R52, R53, R498). -/

theorem Fld.get_congr {v : Word} (h : ∀ i < x.w, w.getLsbD (x.lo + i) = v.getLsbD (x.lo + i)) : x.get w = x.get v := by
  refine Nat.eq_of_testBit_eq fun i => ?_
  simp only [Fld.get, Nat.testBit_mod_two_pow, Nat.testBit_div_two_pow, Nat.add_comm i]
  by_cases hi : i < x.w
  · have hbit : w.toNat.testBit (x.lo + i) = v.toNat.testBit (x.lo + i) := h i hi
    rw [hbit]
  · simp [hi]

theorem State.laneTarget_congr (hreq : t.fld (Reg.PHY_LSTATE_REQ (phyBase l)) = s.fld (Reg.PHY_LSTATE_REQ (phyBase l)))
    (hdom : t.fld (Reg.PHY_LSTATE_DOMAIN (phyBase l)) = s.fld (Reg.PHY_LSTATE_DOMAIN (phyBase l)))
    (htest : (t.lane l).test = (s.lane l).test) (hproto : (t.lane l).proto = (s.lane l).proto) : t.laneTarget l = s.laneTarget l := by
  rw [State.laneTarget, State.laneHostReq, hreq, hdom, htest, hproto]
  rfl

/-- A field of LSTATE other than BUSY. -/
abbrev steadyBits (l : Nat) (x : Fld) : Prop := x.addr = Reg.PHY_LSTATE (phyBase l) ∧ x.lo + x.w ≤ 12

theorem State.busy_fld (hx : steadyBits l x) : (s.put (Reg.PHY_LSTATE_BUSY (phyBase l)) n).fld x = s.fld x :=
  fld_put_apart ⟨by simp [Reg.PHY_LSTATE_BUSY], Or.inr (Or.inl hx.2)⟩

section
variable (s l)

theorem State.laneAim_idle (h : (s.lane l).trans = none) :
    s.laneAim l = if s.laneTarget l = s.laneCur l then s else s.laneStart l (s.laneTarget l) := by
  rw [State.laneAim, h]

/-- What a target that waits replaces counts as discarded. -/
def State.superseded : State :=
  if (s.lane l).pend.isSome then s.bumpPhy (Reg.PHY_TRANS_CNT_SUPERSEDED (phyBase l)) 1 else s

theorem State.laneAim_bound (h : (s.lane l).trans = some n) : s.laneAim l = if s.laneTarget l = (s.lane l).pend.getD n then s
    else (s.superseded l).mapLane l fun y => { y with pend := some (s.laneTarget l) } := by
  rw [State.laneAim, h]
  rfl

theorem State.superseded_fld (hx : x.addr = Reg.PHY_LSTATE (phyBase l)) : (s.superseded l).fld x = s.fld x := by
  unfold State.superseded State.bumpPhy
  split
  · have hne : Reg.PHY_TRANS_CNT (phyBase l) ≠ x.addr := by
      rw [hx, Reg.PHY_LSTATE, Reg.PHY_TRANS_CNT]
      omega
    exact State.fld_put_apart ⟨by simp [Reg.PHY_TRANS_CNT_SUPERSEDED], Or.inl hne⟩
  · rfl

theorem State.superseded_lane (j : Nat) : (s.superseded l).lane j = s.lane j := by
  unfold State.superseded
  split <;> rfl

theorem State.superseded_count : (s.superseded l).fld (Reg.PHY_TRANS_CNT_SUPERSEDED (phyBase l)) =
    if (s.lane l).pend.isSome then min (2 ^ 16 - 1) (s.fld (Reg.PHY_TRANS_CNT_SUPERSEDED (phyBase l)) + 1)
    else s.fld (Reg.PHY_TRANS_CNT_SUPERSEDED (phyBase l)) := by
  unfold State.superseded
  split
  · rw [State.bumpPhy, State.fld_put_mod (by simp [Reg.PHY_TRANS_CNT_SUPERSEDED]), satAdd_eq_min]
    exact Nat.mod_eq_of_lt (lt_of_le_of_lt (Nat.min_le_left _ _) (Nat.sub_lt (Nat.two_pow_pos _) Nat.one_pos))
  · rfl

theorem State.laneStart_fld (hx : steadyBits l x) : (s.laneStart l n).fld x = s.fld x := State.busy_fld hx

theorem State.laneStart_busy : (s.laneStart l n).flag (Reg.PHY_LSTATE_BUSY (phyBase l)) = true :=
  bne_iff_ne.2 (by rw [State.laneStart, State.fld_put_mod (by simp [Reg.PHY_LSTATE_BUSY])]; simp [Reg.PHY_LSTATE_BUSY])

theorem State.laneAim_fld (hx : steadyBits l x) : (s.laneAim l).fld x = s.fld x := by
  cases h : (s.lane l).trans with
  | none =>
    rw [State.laneAim_idle s l h]
    split
    exacts [rfl, s.laneStart_fld l hx]
  | some v =>
    rw [State.laneAim_bound s l h]
    split
    exacts [rfl, s.superseded_fld l hx.1]

theorem State.laneStart_lane (j : Nat) : (s.laneStart l n).lane j = if j = l then { s.lane l with trans := some n } else s.lane j := by
  refine (s.lane_mapLane (k := l) (l := j) fun y => { y with trans := some n }).trans ?_
  split
  case isTrue h => rw [h]
  case isFalse => rfl

theorem State.laneAim_test : ((s.laneAim l).lane l).test = (s.lane l).test := by
  cases h : (s.lane l).trans with
  | none =>
    rw [State.laneAim_idle s l h]
    split
    · rfl
    · rw [State.laneStart_lane, if_pos rfl]
  | some v =>
    rw [State.laneAim_bound s l h]
    split
    · rfl
    · rw [State.lane_mapLane, if_pos rfl, State.superseded_lane]

theorem State.laneAim_lane_other (hk : k ≠ l) : (s.laneAim l).lane k = s.lane k := by
  cases h : (s.lane l).trans with
  | none =>
    rw [State.laneAim_idle s l h]
    split
    · rfl
    · rw [State.laneStart_lane, if_neg hk]
  | some v =>
    rw [State.laneAim_bound s l h]
    split
    · rfl
    · rw [State.lane_mapLane, if_neg hk, State.superseded_lane]

theorem State.laneAim_target : (s.laneAim l).laneTarget l = s.laneTarget l :=
  State.laneTarget_congr (s.laneAim_fld l ⟨rfl, by simp [Reg.PHY_LSTATE_REQ]⟩) (s.laneAim_fld l ⟨rfl, by simp [Reg.PHY_LSTATE_DOMAIN]⟩)
    (s.laneAim_test l) (s.laneAim_proto l l)

end

/-! Writes of the registers of a lane's PHY block (R57). -/

/-- The row of a register of a lane's PHY block that any port may write and no command of its own stands for. -/
def phyRow (l off : Nat) : Option RegRow :=
  if (phyBase l + off) / 0x1000 = phyBase l / 0x1000 ∧ (writeActs.find? (·.1 == phyBase l + off)).isNone ∧
    laneOfAddr (phyBase l + off) = some l
  then ((unitOfPage (phyBase l / 0x1000)).bind fun u => blockRow u (phyBase l + off)).filter fun r => !r.p else none

theorem State.hostWrite_phy {u : Unit} {port off : Nat} {r : RegRow} (hs : s.Serves u (phyBase l / 0x1000))
    (hr : phyRow l off = some r) : s.hostWrite port (phyBase l + off) w = s.phyWrite l r (phyBase l + off) w := by
  unfold phyRow at hr
  split at hr
  case isFalse => cases hr
  case isTrue h =>
    obtain ⟨hpage, hacts, hlane⟩ := h
    obtain ⟨hrow, hp⟩ := Option.filter_eq_some_iff.1 hr
    rw [hs.unit, Option.bind_some] at hrow
    have hserves : s.Serves u ((phyBase l + off) / 0x1000) := by rw [hpage]; exact hs
    rw [State.hostWrite_blockRow hserves hrow (Or.inl (by simpa using hp)), State.writeReg, Option.isNone_iff_eq_none.1 hacts, hlane]

/-- Of a lane's LSTATE a port writes REQ and nothing else. -/
theorem lstate_row (hl : l < 106) : ∃ r, phyRow l 0 = some r ∧ r.rw = 3 ∧ r.w1c = 0 := by
  have h : ∀ k < 106, (phyRow k 0).any (fun r => r.rw == 3 && r.w1c == 0) = true := by decide
  obtain ⟨r, hr, hrw⟩ := Option.any_eq_true _ _ |>.1 (h l hl)
  rw [Bool.and_eq_true, beq_iff_eq, beq_iff_eq] at hrw
  exact ⟨r, hr, hrw⟩

/-- A bit of the word that a register without W1C bits stores (R7). -/
theorem stored_bit {old m : Word} (hk : k < 32) : ((old &&& ~~~m ||| w &&& m) &&& ~~~(w &&& BitVec.ofNat 32 0)).getLsbD k =
    if m.getLsbD k then w.getLsbD k else old.getLsbD k := by
  simp only [BitVec.getLsbD_and, BitVec.getLsbD_or, BitVec.getLsbD_not, BitVec.getLsbD_zero, hk, decide_true]
  cases m.getLsbD k <;> simp

/-- A field of which every bit is RW takes the written value. -/
theorem State.fld_store_rw {r : RegRow} (s : State) (ha : x.addr = a) (hw1c : r.w1c = 0)
    (hx : ∀ i < x.w, x.lo + i < 32 ∧ (BitVec.ofNat 32 r.rw).getLsbD (x.lo + i) = true) : (s.store r a w).fld x = x.get w := by
  subst ha
  rw [State.store, State.fld_wr_self rfl, hw1c]
  exact Fld.get_congr fun i hi => by rw [stored_bit (hx i hi).1, (hx i hi).2, if_pos rfl]

/-- A field of which no bit is RW keeps its value. -/
theorem State.fld_store_ro {r : RegRow} (s : State) (ha : x.addr = a) (hw1c : r.w1c = 0)
    (hx : ∀ i < x.w, x.lo + i < 32 ∧ (BitVec.ofNat 32 r.rw).getLsbD (x.lo + i) = false) : (s.store r a w).fld x = s.fld x := by
  subst ha
  rw [State.store, State.fld_wr_self rfl, hw1c]
  exact Fld.get_congr fun i hi => by rw [stored_bit (hx i hi).1, (hx i hi).2]; rfl

/-- The state after REQ of a lane was stored. -/
structure ReqStored (l req : Nat) (s t : State) : Prop where
  steady : Steady s t
  lane : ∀ k, t.lane k = s.lane k
  req : t.fld (Reg.PHY_LSTATE_REQ (phyBase l)) = req
  cur : t.laneCur l = s.laneCur l
  counts : t.fld (Reg.PHY_TRANS_CNT_SUPERSEDED (phyBase l)) = s.fld (Reg.PHY_TRANS_CNT_SUPERSEDED (phyBase l))

theorem State.store_req {r : RegRow} (s : State) (hrw : r.rw = 3) (hw1c : r.w1c = 0) :
    ReqStored l (w.toNat % 4) s (s.store r (Reg.PHY_LSTATE (phyBase l)) w) := by
  refine ⟨s.wr_steady _ _, fun _ => rfl, ?_, ?_, ?_⟩
  · refine (State.fld_store_rw s (x := Reg.PHY_LSTATE_REQ (phyBase l)) rfl hw1c ?_).trans ?_
    · rw [hrw]
      exact (by decide : ∀ i < 2, 0 + i < 32 ∧ (3#32).getLsbD (0 + i) = true)
    · rw [Fld.get, Reg.PHY_LSTATE_REQ, Nat.pow_zero, Nat.div_one]; rfl
  · refine State.fld_store_ro s (x := Reg.PHY_LSTATE_CUR (phyBase l)) rfl hw1c ?_
    rw [hrw]
    exact (by decide : ∀ i < 2, 4 + i < 32 ∧ (3#32).getLsbD (4 + i) = false)
  · exact State.fld_wr_other (by simp [Reg.PHY_LSTATE, Reg.PHY_TRANS_CNT, Reg.PHY_TRANS_CNT_SUPERSEDED])

theorem State.lstateReq_write {u : Unit} {port : Nat} (hl : l < 106) (hs : s.Serves u (phyBase l / 0x1000)) :
    ∃ t, exec (.lstateReqWrite port l w) s = .next (t.laneAim l) ∧ ReqStored l (w.toNat % 4) s t := by
  obtain ⟨r, hr, hrw, hw1c⟩ := lstate_row hl
  have hstored := s.store_req (l := l) (w := w) hrw hw1c
  have hwrite : s.hostWrite port (Reg.PHY_LSTATE (phyBase l)) w = (s.store r (Reg.PHY_LSTATE (phyBase l)) w).laneAim l := by
    refine (State.hostWrite_phy hs hr).trans ?_
    rw [State.phyWrite, Nat.add_sub_cancel_left]
    rfl
  refine ⟨_, ?_, hstored⟩
  rw [exec_lstateReqWrite, State.unheld_live hs.live, hwrite,
    State.left_of_steady (hstored.steady.trans (State.laneAim_laneWork _ _).steady)]

/-- What a change of a lane's aim makes of its transition (R53, R498). -/
structure Aimed (l : Nat) (s t : State) : Prop where
  stays : (s.lane l).trans = none → t.laneTarget l = s.laneCur l → (t.lane l).trans = none
  starts : (s.lane l).trans = none → t.laneTarget l ≠ s.laneCur l →
    (t.lane l).trans = some (t.laneTarget l) ∧ t.flag (Reg.PHY_LSTATE_BUSY (phyBase l)) = true
  bound : ∀ v, (s.lane l).trans = some v →
    (t.laneTarget l = (s.lane l).pend.getD v → t.lane l = s.lane l ∧
      t.fld (Reg.PHY_TRANS_CNT_SUPERSEDED (phyBase l)) = s.fld (Reg.PHY_TRANS_CNT_SUPERSEDED (phyBase l))) ∧
    (t.laneTarget l ≠ (s.lane l).pend.getD v →
      (t.lane l).trans = some v ∧ (t.lane l).pend = some (t.laneTarget l) ∧
      t.fld (Reg.PHY_TRANS_CNT_SUPERSEDED (phyBase l)) = (if (s.lane l).pend.isSome then
        min (2 ^ 16 - 1) (s.fld (Reg.PHY_TRANS_CNT_SUPERSEDED (phyBase l)) + 1)
        else s.fld (Reg.PHY_TRANS_CNT_SUPERSEDED (phyBase l))))

theorem State.laneAim_aimed (s : State) (l : Nat) : Aimed l s (s.laneAim l) := by
  constructor
  case stays =>
    intro h hcur
    rw [State.laneAim_target] at hcur
    rw [State.laneAim_idle s l h, if_pos hcur, h]
  case starts =>
    intro h hcur
    rw [State.laneAim_target] at hcur ⊢
    rw [State.laneAim_idle s l h, if_neg hcur, State.laneStart_lane, if_pos rfl]
    exact ⟨rfl, s.laneStart_busy l⟩
  case bound =>
    intro v h
    rw [State.laneAim_target]
    refine ⟨fun htarget => ?_, fun htarget => ?_⟩
    · rw [State.laneAim_bound s l h, if_pos htarget]
      exact ⟨rfl, rfl⟩
    · rw [State.laneAim_bound s l h, if_neg htarget, State.lane_mapLane, if_pos rfl, State.superseded_lane]
      exact ⟨h, rfl, s.superseded_count l⟩

theorem lstateReq_effect {u : Unit} {port : Nat} (hl : l < 106) (hs : s.Serves u (phyBase l / 0x1000)) :
    ∃ t, exec (.lstateReqWrite port l w) s = .next t ∧ t.fld (Reg.PHY_LSTATE_REQ (phyBase l)) = w.toNat % 4 ∧
      t.laneCur l = s.laneCur l ∧ Aimed l s t ∧ ∀ k, k ≠ l → t.lane k = s.lane k := by
  obtain ⟨c, hexec, hc⟩ := State.lstateReq_write (w := w) (port := port) hl hs
  have haimed := c.laneAim_aimed l
  refine ⟨_, hexec, ?_, ?_, ⟨?_, ?_, ?_⟩, fun k hk => ?_⟩
  · rw [State.laneAim_fld c l ⟨rfl, by simp [Reg.PHY_LSTATE_REQ]⟩, hc.req]
  · rw [State.laneCur, State.laneAim_fld c l ⟨rfl, by simp [Reg.PHY_LSTATE_CUR]⟩]
    exact hc.cur
  · have h := haimed.stays
    rwa [hc.lane, hc.cur] at h
  · have h := haimed.starts
    rwa [hc.lane, hc.cur] at h
  · have h := haimed.bound
    rwa [hc.lane, hc.counts] at h
  · rw [State.laneAim_lane_other c l hk, hc.lane]

/-! What a lane loses and keeps on reaching a state (R32 to R51): registers of its block but LSTATE. -/

/-- Only the other registers of a lane's block change, and nothing of its transition. -/
structure BlockWork (l : Nat) (s t : State) : Prop where
  rd : ∀ a, (∀ off, 0 < off → off < 0x100 → phyBase l + off ≠ a) → t.rd a = s.rd a
  trans : (t.lane l).trans = (s.lane l).trans
  pend : (t.lane l).pend = (s.lane l).pend

namespace BlockWork

theorem refl (l : Nat) (s : State) : BlockWork l s s := ⟨fun _ _ => rfl, rfl, rfl⟩
theorem andThen (h : BlockWork l s t) (g : BlockWork l t u) : BlockWork l s u :=
  ⟨fun a ha => (g.rd a ha).trans (h.rd a ha), g.trans.trans h.trans, g.pend.trans h.pend⟩
theorem ite {c : Prop} [Decidable c] (ht : BlockWork l s t) (hu : BlockWork l s u) : BlockWork l s (if c then t else u) := by
  split
  exacts [ht, hu]

end BlockWork

section
variable (s)

theorem BlockWork.wr (h : BlockWork l s t) (off : Nat) (hoff : 0 < off ∧ off < 0x100) (ha : phyBase l + off = a) : BlockWork l s (t.wr a w) :=
  h.andThen ⟨fun _ hne => State.rd_wr_other _ _ _ _ (ha ▸ hne off hoff.1 hoff.2), rfl, rfl⟩

theorem BlockWork.put (h : BlockWork l s t) (off : Nat) (hoff : 0 < off ∧ off < 0x100) (ha : phyBase l + off = x.addr) :
    BlockWork l s (t.put x n) := h.wr s off hoff ha

theorem BlockWork.used (h : BlockWork l s t) : BlockWork l s t.used := h.andThen ⟨fun _ _ => rfl, rfl, rfl⟩

theorem BlockWork.mapLane (h : BlockWork l s t) (g : Lane → Lane) (h1 : ∀ y, (g y).trans = y.trans) (h2 : ∀ y, (g y).pend = y.pend) :
    BlockWork l s (t.mapLane l g) := by
  refine h.andThen ⟨fun _ _ => rfl, ?_, ?_⟩ <;> rw [State.lane_mapLane, if_pos rfl]
  exacts [h1 _, h2 _]

theorem BlockWork.counts (h : BlockWork l s t) (ui errs : Nat) : BlockWork l s (t.esCounts l ui errs) := by
  have hstatus {c : State} (hc : BlockWork l s c) : BlockWork l s ((c.put (Reg.PHY_ES_STATUS_BUSY (phyBase l)) 0).put
      (Reg.PHY_ES_STATUS_DONE (phyBase l)) 1) := (hc.put s 0x34 (by decide) rfl).put s 0x34 (by decide) rfl
  have hdone := hstatus (((h.wr s 0x38 (w := BitVec.ofNat 32 errs) (by decide) rfl).wr s 0x40 (w := BitVec.ofNat 32 (ui % 2 ^ 32))
    (by decide) rfl).wr s 0x44 (w := BitVec.ofNat 32 (ui / 2 ^ 32)) (by decide) rfl)
  exact BlockWork.ite (hdone.put s 0x34 (x := Reg.PHY_ES_STATUS_SAT (phyBase l)) (by decide) rfl) hdone

theorem State.esAbort_block : BlockWork l s (s.esAbort l) := by
  unfold State.esAbort
  exact BlockWork.ite ((((BlockWork.refl l s).used.used.used).counts s _ _).put s 0x34 (by decide) rfl) (BlockWork.refl l s)

/-- Reaching a state is work on the lane's block, with which CUR takes the state. -/
theorem State.laneReached_block (v : Nat) : ∃ c, BlockWork l s c ∧ s.laneReached l v = c.put (Reg.PHY_LSTATE_CUR (phyBase l)) v := by
  unfold State.laneReached
  extract_lets b old warm s1 held s2 s3 s4 s5 s6 s7 s8
  have h1 : BlockWork l s s1 := BlockWork.ite s.esAbort_block (BlockWork.refl l s)
  have h2 : BlockWork l s s2 := h1.mapLane s (fun y => { y with held := held }) (fun _ => rfl) fun _ => rfl
  have h3 : BlockWork l s s3 := BlockWork.ite (c := v ≠ 0 ∧ laneIsRx l) ((h2.put s 0xC (x := Reg.PHY_RXSTAT_LOCK b) (by decide) rfl).put s 0x4C (by decide) rfl) h2
  have h4 : BlockWork l s s4 := BlockWork.ite (c := v = 2 ∧ laneHasDfe l) ((h3.wr s 0x10 (by decide) rfl).used.wr s 0x14 (by decide) rfl).used h3
  have h5 : BlockWork l s s5 := BlockWork.ite (h4.mapLane s (fun y => { y with lfsr := 0, rd := false }) (fun _ => rfl) fun _ => rfl) h4
  have h6 : BlockWork l s s6 := h5.mapLane s (fun x => { x with
        needSeed := true, goodRun := 0, window := [],
        taps0 := s5.rd (Reg.PHY_DFE_TAPS0 b), taps1 := s5.rd (Reg.PHY_DFE_TAPS1 b) }) (fun _ => rfl) fun _ => rfl
  have h7 : BlockWork l s s7 := BlockWork.ite (c := laneIsRx l ∧ (warm || laneIsRet l)) (h6.put s 0xC (by decide) rfl) h6
  have h8 : BlockWork l s s8 := BlockWork.ite (BlockWork.ite (h7.put s 0xC (by decide) rfl) h7) h5
  exact ⟨s8, h8, rfl⟩

end

theorem State.mapLane_rd (s : State) (g : Lane → Lane) : (s.mapLane l g).rd a = s.rd a := rfl

theorem State.lane_put (s : State) : (s.put x n).lane l = s.lane l := rfl

/-- The lane in the state it was bound for, with nothing under way. -/
def State.landed (s : State) (l v : Nat) : State :=
  ((s.laneReached l v).mapLane l fun y => { y with trans := none, pend := none }).put (Reg.PHY_LSTATE_BUSY (phyBase l)) 0

theorem State.laneDone_rests (h : (s.lane l).trans = some n) (hp : ∀ u, (s.lane l).pend = some u → u = n) :
    s.laneDone l = s.landed l n := by
  rw [State.laneDone, h]
  dsimp only
  split
  case h_1 u hu => rw [if_pos (hp u hu), State.landed]
  case h_2 => rw [State.landed]

theorem State.laneDone_goes {k : Nat} (h : (s.lane l).trans = some n) (hp : (s.lane l).pend = some k) (hk : k ≠ n) :
    s.laneDone l = (s.landed l n).laneStart l k := by
  rw [State.laneDone, h, hp]
  exact if_neg hk

/-- A register outside the lane's block keeps its word. -/
theorem State.laneDone_rd (s : State) (ha : ∀ off < 0x100, phyBase l + off ≠ a) : (s.laneDone l).rd a = s.rd a := by
  have hlstate : Reg.PHY_LSTATE (phyBase l) ≠ a := ha 0 (by decide)
  cases h : (s.lane l).trans with
  | none => rw [State.laneDone, h]
  | some n =>
    obtain ⟨c, hc, hreached⟩ := s.laneReached_block (l := l) n
    have hlanded : (s.landed l n).rd a = s.rd a := by
      rw [State.landed, State.rd_put_other hlstate, State.mapLane_rd, hreached, State.rd_put_other hlstate]
      exact hc.rd a fun off _ hoff => ha off hoff
    by_cases hp : ∀ u, (s.lane l).pend = some u → u = n
    · rw [State.laneDone_rests h hp, hlanded]
    · push Not at hp
      obtain ⟨k, hpend, hk⟩ := hp
      rw [State.laneDone_goes h hpend hk]
      rw [State.laneStart, State.rd_put_other hlstate, State.mapLane_rd, hlanded]

/-- The end of a transition, as its lane shows it. -/
structure LaneEnded (l v : Nat) (p : Option Nat) (t : State) : Prop where
  cur : t.laneCur l = v
  pend : (t.lane l).pend = none
  rests : (∀ u, p = some u → u = v) → (t.lane l).trans = none
  goes : ∀ u, p = some u → u ≠ v → (t.lane l).trans = some u
  busy : t.flag (Reg.PHY_LSTATE_BUSY (phyBase l)) = (t.lane l).trans.isSome

theorem State.landed_ended (s : State) (hn : n < 3) : (s.landed l n).laneCur l = n ∧ ((s.landed l n).lane l).pend = none ∧
    ((s.landed l n).lane l).trans = none ∧ (s.landed l n).flag (Reg.PHY_LSTATE_BUSY (phyBase l)) = false := by
  obtain ⟨c, hc, hreached⟩ := s.laneReached_block (l := l) n
  have hlane : (s.landed l n).lane l = { (s.laneReached l n).lane l with trans := none, pend := none } := by
    rw [State.landed, State.lane_put, State.lane_mapLane, if_pos rfl]
  refine ⟨?_, by rw [hlane], by rw [hlane], ?_⟩
  · refine (State.busy_fld (x := Reg.PHY_LSTATE_CUR (phyBase l)) ⟨rfl, by simp [Reg.PHY_LSTATE_CUR]⟩).trans ?_
    rw [State.fld, State.mapLane_rd, hreached, ← State.fld]
    refine (State.fld_put_mod (by simp [Reg.PHY_LSTATE_CUR])).trans (Nat.mod_eq_of_lt ?_)
    exact lt_trans hn (by simp [Reg.PHY_LSTATE_CUR])
  · rw [State.flag_eq_false_iff, State.landed, State.fld_put_mod (by simp [Reg.PHY_LSTATE_BUSY]), Nat.zero_mod]

theorem State.laneDone_ended (s : State) (h : (s.lane l).trans = some n) (hn : n < 3) : LaneEnded l n (s.lane l).pend (s.laneDone l) := by
  obtain ⟨hcur, hpend, htrans, hbusy⟩ := s.landed_ended (l := l) hn
  by_cases hp : ∀ u, (s.lane l).pend = some u → u = n
  · rw [State.laneDone_rests h hp]
    exact ⟨hcur, hpend, fun _ => htrans, fun u hu hne => absurd (hp u hu) hne, by rw [hbusy, htrans]; rfl⟩
  · push Not at hp
    obtain ⟨k, hk, hkn⟩ := hp
    rw [State.laneDone_goes h hk hkn]
    have hlane := (s.landed l n).laneStart_lane l (n := k) l
    rw [if_pos rfl] at hlane
    refine ⟨?_, by rw [hlane]; exact hpend, fun hall => absurd (hall k hk) hkn, fun u hu _ => ?_, ?_⟩
    · exact (State.laneStart_fld _ l (x := Reg.PHY_LSTATE_CUR (phyBase l)) ⟨rfl, by simp [Reg.PHY_LSTATE_CUR]⟩).trans hcur
    · rw [hlane]
      exact hk.symm.trans hu
    · rw [State.laneStart_busy, hlane]
      rfl

theorem LanesRest.ended {pd : Option Nat} (h : LanesRest t u) (g : LaneEnded l n pd t) : LaneEnded l n pd u :=
  ⟨(h.fld (x := Reg.PHY_LSTATE_CUR (phyBase l)) rfl).trans g.cur, (h.pend l).trans g.pend, fun hp => (h.trans l).trans (g.rests hp),
    fun v hv hne => (h.trans l).trans (g.goes v hv hne), by
      rw [State.flag, h.fld (x := Reg.PHY_LSTATE_BUSY (phyBase l)) rfl, h.trans l]; exact g.busy⟩

/-- The state registers of the cascade lanes lie outside every PHY block. -/
theorem casLaneState_outside (l off : Nat) (hoff : off < 0x100) : phyBase l + off ≠ Reg.CAS_LANE_STATE := by
  simp only [phyBase, Reg.CAS_LANE_STATE]
  repeat' split
  all_goals omega

theorem State.laneTransition_ended (s : State) (h : (s.lane l).trans = some n) (hn : n < 3)
    (hcas : l < 102 ∨ n = 0 ∨ s.casUp (l - 102) = false) : LaneEnded l n (s.lane l).pend (s.laneTransition l) := by
  have hended := s.laneDone_ended h hn
  have hup : (s.laneDone l).casUp (l - 102) = s.casUp (l - 102) := by
    rw [State.casUp, State.fld, casLaneFld, s.laneDone_rd (casLaneState_outside l), State.casUp, State.fld, casLaneFld]
  rw [State.laneTransition, h]
  dsimp only
  generalize s.laneDone l = c at hended hup ⊢
  rw [if_neg (by simp)]
  refine LanesRest.ended (LanesRest.andThen ?_ (State.srcApply_rest _)) hended
  split
  · exact LanesRest.ite (LanesRest.refl c) (c.laneWoke_rest l)
  case isFalse hdeep =>
    split
    · refine c.laneDown_rest l _ fun hl => ?_
      have hn0 : n ≠ 0 := by
        rintro rfl
        exact hdeep (beq_iff_eq.2 hended.cur)
      rw [hup]
      rcases hcas with hcas | hcas | hcas
      · omega
      · exact absurd hcas hn0
      · exact hcas
    · exact LanesRest.refl c

theorem LanesRest.left (s t : State) : LanesRest t (s.left t) := ⟨fun _ => rfl, fun _ => rfl, fun _ => rfl⟩

theorem exec_laneTransitionDone_live (h : s.boot.resetLow = false) :
    exec (.laneTransitionDone l) s = .next (s.left (s.laneTransition l)) := by
  rw [exec_laneTransitionDone, State.unheld_live h]

theorem transitionDone_effect (hlive : s.boot.resetLow = false) (h : (s.lane l).trans = some n) (hn : n < 3)
    (hcas : l < 102 ∨ n = 0 ∨ s.casUp (l - 102) = false) :
    ∃ t, exec (.laneTransitionDone l) s = .next t ∧ LaneEnded l n (s.lane l).pend t := by
  have hended := s.laneTransition_ended h hn hcas
  refine ⟨_, exec_laneTransitionDone_live hlive, ?_⟩
  generalize s.laneTransition l = c at hended ⊢
  exact LanesRest.ended (LanesRest.left s c) hended

/-- Settles O19: a write of REQ changes what its lane aims at, and a transition's end lets the lane go on to what waits; no
consequence of that end in the links touches the lane's own state. -/
theorem laneTargets : Obligations.LaneTargets := by
  unfold Obligations.LaneTargets
  refine ⟨fun s l => ?_, fun s u l port w hl hs => ?_, fun s l v hlive _ hv htrans hcas => ?_⟩
  · rw [State.laneTarget, State.laneHostReq]
    simp only [Bool.and_eq_true, beq_iff_eq]
  · obtain ⟨t, hexec, hreq, hcur, haimed, hother⟩ := lstateReq_effect (w := w) (port := port) hl hs
    exact ⟨t, hexec, hreq, hcur, haimed.stays, haimed.starts, haimed.bound, hother⟩
  · obtain ⟨t, hexec, hended⟩ := transitionDone_effect hlive htrans hv hcas
    refine ⟨t, hexec, hended.cur, hended.pend, ?_, hended.busy⟩
    split
    · split
      case isTrue u hu hv => exact hended.rests fun k hk => by rw [hu] at hk; exact (Option.some.inj hk).symm.trans hv
      case isFalse u hu hv => exact hended.goes u hu hv
    case h_2 hnone => exact hended.rests fun k hk => by rw [hnone] at hk; cases hk

end Sys2Proof.Machine
end

section
/-! PROOFS. What a test that takes a lane leaves of the lanes' PRBS registers (R54 to R56). -/

namespace Sys2Proof.Machine

variable {s t u v : State} {a b k l m n p : Nat} {w : Word} {x : Fld}

/-- The address of a lane's PRBS register: its offset in the PHY block, on a page that has one. -/
abbrev isPrbs (a : Nat) : Prop :=
  a % 0x100 = 0x48 ∧ 0x400 ≤ a % 0x1000 ∧ ((0x11 ≤ a / 0x1000 ∧ a / 0x1000 ≤ 0x21) ∨ 0xA0 ≤ a / 0x1000)

/-- PRBS of every lane keeps its word. -/
def PrbsKept (s t : State) : Prop := ∀ a, isPrbs a → t.rd a = s.rd a

theorem phyBase_aligned (l : Nat) : phyBase l % 0x100 = 0 := by
  unfold phyBase
  repeat' split
  all_goals omega

theorem prbs_isPrbs (hl : l < 106) : isPrbs (Reg.PHY_PRBS (phyBase l)) := by
  refine ⟨?_, ?_, phyBase_pages l 0x48 (by decide)⟩
  · have halign := phyBase_aligned l
    rw [Reg.PHY_PRBS]
    omega
  · rw [Reg.PHY_PRBS, phyBase]
    repeat' split
    all_goals omega

theorem block_not_prbs (l : Nat) {off : Nat} (h : off % 0x100 ≠ 0x48) : ¬ isPrbs (phyBase l + off) := by
  have halign := phyBase_aligned l
  simp only [isPrbs]
  omega

theorem header_not_prbs (p : Nat) {off : Nat} (h : off < 0x400) : ¬ isPrbs (p * 0x1000 + off) := by
  simp only [isPrbs]
  omega

namespace PrbsKept

theorem refl (s : State) : PrbsKept s s := fun _ _ => rfl
theorem andThen (h : PrbsKept s t) (g : PrbsKept t u) : PrbsKept s u := fun a ha => (g a ha).trans (h a ha)
theorem of_regs (h : t.regs = s.regs) : PrbsKept s t := fun a _ => State.rd_of_regs h a
theorem ite {c : Prop} [Decidable c] (ht : PrbsKept s t) (hu : PrbsKept s u) : PrbsKept s (if c then t else u) := by
  split
  exacts [ht, hu]

theorem each {α : Type} (xs : List α) (f : α → State → State) (h : ∀ y v, PrbsKept v (f y v)) (s : State) : PrbsKept s (s.each xs f) :=
  State.each_induct (PrbsKept s) xs f (fun y v hv => andThen hv (h y v)) s (refl s)

end PrbsKept

section
variable (s)

theorem State.wr_prbs (w : Word) (h : ¬ isPrbs a) : PrbsKept s (s.wr a w) := fun _ hb =>
  State.rd_wr_other _ _ _ _ fun he => h (he ▸ hb)

theorem State.put_prbs (n : Nat) (h : ¬ isPrbs x.addr) : PrbsKept s (s.put x n) := s.wr_prbs _ h

theorem State.raise_prbs (p n : Nat) : PrbsKept s (s.raise p n) := fun _ hb => State.raise_rd_other _ _ _ _ fun he =>
  header_not_prbs _ (by decide) (he ▸ hb)

theorem State.bump_prbs (h : ¬ isPrbs a) : PrbsKept s (s.bump a) := fun _ hb =>
  rd_bump_other ⟨fun he => h (he ▸ hb), fun he => header_not_prbs _ (by decide) (he ▸ hb)⟩

theorem lstate_not_prbs (l : Nat) : ¬ isPrbs (Reg.PHY_LSTATE (phyBase l)) := block_not_prbs l (by decide)
theorem transCnt_not_prbs (l : Nat) : ¬ isPrbs (Reg.PHY_TRANS_CNT (phyBase l)) := block_not_prbs l (by decide)

theorem State.laneProto_prbs (l n : Nat) : PrbsKept s (s.laneProto l n) := fun _ hb =>
  s.laneProto_rd (fun he => lstate_not_prbs l (he ▸ hb)) fun he => transCnt_not_prbs l (he ▸ hb)

theorem State.laneAim_prbs (l : Nat) : PrbsKept s (s.laneAim l) := fun _ hb =>
  s.laneAim_rd (fun he => lstate_not_prbs l (he ▸ hb)) fun he => transCnt_not_prbs l (he ▸ hb)

/-! The links of the receivers (R45, R87, R476). -/

theorem LinkWork.prbs (h : LinkWork s t) : PrbsKept s t := fun a ha => h.rd a
  (by simp only [isPrbs] at ha; simp only [bcPages, List.mem_cons, List.not_mem_nil, or_false]; omega)
  (by rintro rfl; exact absurd ha (by decide))

theorem State.linkLost_prbs : PrbsKept s s.linkLost := by
  unfold State.linkLost
  refine PrbsKept.ite ?_ (PrbsKept.refl s)
  have hgone : PrbsKept s (s.linkGone true) := fun a ha => (s.linkGone_srefWork true).rd a
    (by simp only [isPrbs] at ha; simp only [srefPages, List.mem_cons, List.not_mem_nil, or_false]; omega)
    (by rintro rfl; exact absurd ha (by decide))
  refine hgone.andThen fun a ha => (State.attempt_attempted _ 0).rd a
    (by simp only [isPrbs] at ha; simp only [bcPages, List.mem_cons, List.not_mem_nil, or_false]; omega)
    (by rintro rfl; exact absurd ha (by decide))

theorem State.fsyncLost_prbs : PrbsKept s s.fsyncLost := by
  unfold State.fsyncLost
  dsimp only
  refine PrbsKept.andThen (t := { s with
    tim := { s.tim with sync := none }, srf := { s.srf with base := if s.inSref then s.srf.base else max 1 s.tim.period } })
    (PrbsKept.of_regs rfl) (PrbsKept.ite (PrbsKept.refl _) ?_)
  exact fun a ha => (State.setTimMode_keeps _ _).rd a
    (by simp only [isPrbs] at ha; simp only [pipPages, List.mem_cons, List.not_mem_nil, or_false]; omega)

theorem State.casSend_regs (k hdr payload : Nat) : (s.casSend k hdr payload).regs = s.regs := by
  unfold State.casSend
  dsimp only
  split
  · rfl
  · split <;> rfl

theorem State.casLaneUp_regs (k : Nat) : (s.casLaneUp k).regs = s.regs := by
  unfold State.casLaneUp State.casTs1Send State.casControl
  split
  · exact s.casSend_regs _ _ _
  · rfl

theorem casLane_not_prbs {k : Nat} : ¬ isPrbs (casLaneFld k).addr := by
  exact (by decide : ¬ isPrbs Reg.CAS_LANE_STATE)

theorem State.edgeTrains_prbs (k retry : Nat) : PrbsKept s (s.edgeTrains k retry) := by
  unfold State.edgeTrains
  exact (s.put_prbs _ casLane_not_prbs).andThen (PrbsKept.of_regs rfl)

theorem State.edgeLanes_prbs (k r : Nat) : PrbsKept s (s.edgeLanes k r) := by
  unfold State.edgeLanes
  dsimp only
  refine PrbsKept.andThen (PrbsKept.andThen (PrbsKept.andThen (PrbsKept.andThen (PrbsKept.andThen (t := _) ?_ (State.put_prbs _ _
    (block_not_prbs _ (by decide)))) (State.put_prbs _ _ (block_not_prbs _ (by decide)))) (State.put_prbs _ _ (block_not_prbs _ (by decide))))
    (State.laneProto_prbs _ _ _)) (State.laneProto_prbs _ _ _)
  exact PrbsKept.of_regs rfl

theorem State.casStart_prbs (k : Nat) : PrbsKept s (s.casStart k) := by
  unfold State.casStart
  refine PrbsKept.ite ?_ (PrbsKept.refl s)
  rw [State.casAttempt_eq]
  exact ((s.edgeTrains_prbs k 0).andThen (State.edgeLanes_prbs _ _ _)).andThen (PrbsKept.of_regs (State.casLaneUp_regs _ _))

theorem State.casLost_prbs (k : Nat) : PrbsKept s (s.casLost k) := by
  unfold State.casLost
  refine PrbsKept.ite ?_ (PrbsKept.refl s)
  extract_lets s1 e s2 c s3 s4
  have h1 : PrbsKept s s1 := (s.bump_prbs (a := Reg.CAS_SEAM_LOST_CNT) (by decide)).andThen (State.raise_prbs _ _ _)
  have h3 : PrbsKept s s3 := h1.andThen (PrbsKept.of_regs rfl)
  have h4 : PrbsKept s s4 := (h3.andThen (State.put_prbs _ _ casLane_not_prbs)).andThen (State.casStart_prbs _ _)
  exact PrbsKept.ite (((h4.andThen (State.bump_prbs _ (by decide))).andThen (State.raise_prbs _ _ _)).andThen (State.fsyncLost_prbs _)) h4

theorem State.laneDown_prbs (l : Nat) (bcWas : Bool) : PrbsKept s (s.laneDown l bcWas) := by
  unfold State.laneDown
  refine PrbsKept.ite (PrbsKept.ite s.linkLost_prbs (PrbsKept.refl s)) (PrbsKept.ite ?_ (PrbsKept.ite (s.casLost_prbs _) (PrbsKept.refl s)))
  refine PrbsKept.andThen (t := s.bcLost bcWas) (PrbsKept.ite (s.bump_prbs (by decide)) (PrbsKept.refl s)) (PrbsKept.of_regs rfl)

/-! Ports that a test takes (R300). -/

theorem State.edlSend_regs (p hdr payload : Nat) : (s.edlSend p hdr payload).regs = s.regs := by
  unfold State.edlSend
  dsimp only
  generalize selfSyncRun 64 (s.lane (laneEdl p)).lfsr payload = e
  split <;> rfl

theorem State.portBlock_regs (p at' : Nat) (i : EdlItem) (x : EdlPort) : (s.portBlock p at' i x).regs = s.regs := by
  unfold State.portBlock
  split
  · rfl
  · exact State.edlSend_regs _ _ _ _

end

theorem State.portRun_regs (p floor : Nat) (go : EdlPort → Nat → Bool) (n : Nat) (s : State) : (s.portRun p floor go n).regs = s.regs := by
  induction n generalizing s with
  | zero => rfl
  | succ n ih =>
    rw [State.portRun]
    split
    · split
      · rfl
      · exact (ih _).trans (State.portBlock_regs _ _ _ _ _)
    · rfl

section
variable (s)

theorem State.portDrain_regs (p : Nat) : (s.portDrain p).regs = s.regs := State.portRun_regs ..

theorem State.portPush_regs (p : Nat) (i : EdlItem) : (s.portPush p i).regs = s.regs :=
  (State.portRun_regs ..).trans (s.portDrain_regs p)

theorem State.portClear_regs (p : Nat) : (s.portClear p).regs = s.regs := s.portDrain_regs p

theorem State.busFollow_prbs (g : Nat) : PrbsKept s (s.busFollow g) := s.laneProto_prbs _ _

theorem portState_not_prbs (p : Nat) : ¬ isPrbs (Reg.EDL_PORT_STATE p) := header_not_prbs (0xA0 + p) (by decide)

theorem State.portFail_prbs (p : Nat) : PrbsKept s (s.portFail p) := by
  unfold State.portFail
  exact (((((PrbsKept.of_regs (s.portClear_regs p)).andThen (State.put_prbs _ _ (portState_not_prbs p))).andThen
    (State.laneProto_prbs _ _ _)).andThen (State.busFollow_prbs _ _)).andThen (State.raise_prbs _ _ _))

theorem State.portLost_prbs (p : Nat) : PrbsKept s (s.portLost p) := by
  unfold State.portLost
  have hclear := (PrbsKept.of_regs (s.portClear_regs p)).andThen (State.raise_prbs _ (portPage p) 1)
  exact PrbsKept.ite ((hclear.andThen (State.put_prbs _ _ (portState_not_prbs p))).andThen (State.put_prbs _ _ (portState_not_prbs p)))
    (hclear.andThen (State.portFail_prbs _ p))

theorem State.offerBack_regs (p : Nat) : (s.offerBack p).regs = s.regs := by
  unfold State.offerBack
  dsimp only
  split
  · split <;> rfl
  · rfl

theorem State.edl_prbs (c : EdlState) : PrbsKept s { s with edl := c } := PrbsKept.of_regs rfl

theorem State.walkCheck_prbs : PrbsKept s s.walkCheck := by
  unfold State.walkCheck
  refine PrbsKept.ite ?_ (PrbsKept.refl s)
  extract_lets c e
  have hc : PrbsKept s c := by
    refine PrbsKept.each _ _ (fun p v => ?_) s
    exact PrbsKept.of_regs rfl
  clear_value c
  exact ((hc.andThen (State.put_prbs _ _ (by decide))).andThen (State.raise_prbs _ 0x70 0)).andThen (State.edl_prbs _ _)

/-- A port whose attempt failed waits, with nothing to send. -/
def State.attemptWaits (s : State) (p : Nat) : State :=
  let c := (((s.bump (Reg.EDL_PORT_TRAIN_FAILS p)).setPortState p portWAIT).offerBack p).portClear p
  c.setEdlPort p { c.edlPort p with pattern := none }

/-- Its lane sends IDLE where it is up. -/
def State.attemptIdle (s : State) (p : Nat) : State := if s.laneInL0 (laneEdl p) then s.portControl p 9 ctIdle 0 else s

theorem State.attemptFails_eq (p : Nat) : s.attemptFails p =
    (if 9 ≤ ((s.attemptWaits p).attemptIdle p).fld (Reg.EDL_PORT_STATE_ATTEMPT p) then ((s.attemptWaits p).attemptIdle p).portFail p
      else (s.attemptWaits p).attemptIdle p).walkCheck := rfl

theorem State.attemptWaits_prbs (p : Nat) : PrbsKept s (s.attemptWaits p) := by
  have hfails : PrbsKept s (s.bump (Reg.EDL_PORT_TRAIN_FAILS p)) := s.bump_prbs (header_not_prbs (0xA0 + p) (by decide))
  have hwait := (hfails.andThen (State.put_prbs (x := Reg.EDL_PORT_STATE_STATE p) _ portWAIT (portState_not_prbs p))).andThen
    (PrbsKept.of_regs (State.offerBack_regs _ p))
  exact (hwait.andThen (PrbsKept.of_regs (State.portClear_regs _ p))).andThen (State.edl_prbs _ _)

theorem State.attemptIdle_prbs (p : Nat) : PrbsKept s (s.attemptIdle p) :=
  PrbsKept.ite (PrbsKept.of_regs (s.portPush_regs p _)) (PrbsKept.refl s)

theorem State.attemptFails_prbs (p : Nat) : PrbsKept s (s.attemptFails p) := by
  rw [State.attemptFails_eq]
  have h := (s.attemptWaits_prbs p).andThen (State.attemptIdle_prbs _ p)
  exact (PrbsKept.ite (h.andThen (State.portFail_prbs _ p)) h).andThen (State.walkCheck_prbs _)

theorem State.laneTaken_prbs (l : Nat) : PrbsKept s (s.laneTaken l) := by
  unfold State.laneTaken
  exact PrbsKept.ite (s.laneDown_prbs _ _) (PrbsKept.ite (PrbsKept.ite (s.portLost_prbs _) (PrbsKept.ite (s.attemptFails_prbs _)
    (PrbsKept.refl s))) (PrbsKept.ite (s.casLost_prbs _) (PrbsKept.refl s)))

end

end Sys2Proof.Machine
end

section
/-! PROOFS. Eye scans, PRBS, spread and the clearing of counters (R40, R49, R50, R54, R55, R89). -/

namespace Sys2Proof.Machine

variable {s t u v : State} {a b k l m n p port : Nat} {w : Word} {x y : Fld}

/-! Eye scans (R49, R50). -/

theorem rx_lane (h : laneIsRx l = true) : l < 106 := by
  simp only [laneIsRx, Bool.or_eq_true, Bool.and_eq_true, decide_eq_true_eq] at h
  omega

/-- A port may start a scan on every receiver. -/
theorem esCtrl_row (h : laneIsRx l = true) : ∃ r, phyRow l 0x30 = some r := by
  have hall : ∀ k < 106, laneIsRx k = true → (phyRow k 0x30).isSome = true := by decide
  exact Option.isSome_iff_exists.1 (hall l (rx_lane h) h)

/-- Nothing differs but registers. -/
def RegsOnly (s t : State) : Prop := t = { s with regs := t.regs }

theorem RegsOnly.of (regs : Cells Word) (h : t = { s with regs := regs }) : RegsOnly s t := by
  subst h
  rfl

theorem RegsOnly.wr (h : RegsOnly s t) (a : Nat) (w : Word) : RegsOnly s (t.wr a w) :=
  RegsOnly.of (Cells.set resetWord t.regs a w) (congrArg (fun v : State => { v with regs := Cells.set resetWord t.regs a w }) h)

theorem RegsOnly.trans (h : RegsOnly s t) (g : RegsOnly t u) : RegsOnly s u :=
  RegsOnly.of u.regs (Eq.trans g (congrArg (fun v : State => { v with regs := u.regs }) h))

theorem RegsOnly.put (h : RegsOnly s t) (x : Fld) (n : Nat) : RegsOnly s (t.put x n) := h.wr _ _

theorem RegsOnly.steady (h : RegsOnly s t) : Steady s t := by
  rw [h]
  exact ⟨Nat.le_refl _, rfl, rfl⟩

/-- A write of a block's register leaves another. -/
theorem phy_rd_wr (m n : Nat) (h : m ≠ n := by decide) : (t.wr (b + m) w).rd (b + n) = t.rd (b + n) :=
  State.rd_wr_other _ _ _ _ (by omega)

theorem phy_fld_wr (m n : Nat) {lo bits : Nat} (h : m ≠ n := by decide) : (t.wr (b + m) w).fld ⟨b + n, lo, bits⟩ = t.fld ⟨b + n, lo, bits⟩ :=
  State.fld_wr_other (by change b + m ≠ b + n; omega)

/-- A scan's counts at 0. -/
def State.esZero (s : State) (l : Nat) : State :=
  ((s.wr (Reg.PHY_ES_ERRS (phyBase l)) 0).wr (Reg.PHY_ES_UI (phyBase l)) 0).wr (Reg.PHY_ES_UI_HI (phyBase l)) 0

theorem laneInL0_wr (off : Nat) (h : off ≠ 0 := by decide) : (t.wr (phyBase l + off) w).laneInL0 l = t.laneInL0 l :=
  congrArg (· == 0) (phy_fld_wr off 0 h)

theorem State.esZero_L0 (s : State) (l : Nat) : (s.esZero l).laneInL0 l = s.laneInL0 l :=
  (laneInL0_wr 0x44).trans ((laneInL0_wr 0x40).trans (laneInL0_wr 0x38))

theorem State.esStart_begun (h : s.flag (Reg.PHY_ES_STATUS_BUSY (phyBase l)) = false) :
    s.esStart l = (s.esZero l).wr (Reg.PHY_ES_STATUS (phyBase l)) (if s.laneInL0 l then 1 else 6) := by
  have hstart : s.esStart l = if (s.esZero l).laneInL0 l then (s.esZero l).wr (Reg.PHY_ES_STATUS (phyBase l)) 1
      else (s.esZero l).wr (Reg.PHY_ES_STATUS (phyBase l)) 6 := by
    rw [State.esStart, h]
    exact if_neg (by decide)
  rw [hstart, s.esZero_L0 l]
  split <;> rfl

/-- What a start shows: STATUS, and counts of 0. -/
theorem State.esBegun_effect (s : State) (l : Nat) (v : Word) :
    ((s.esZero l).wr (Reg.PHY_ES_STATUS (phyBase l)) v).rd (Reg.PHY_ES_ERRS (phyBase l)) = 0 ∧
    ((s.esZero l).wr (Reg.PHY_ES_STATUS (phyBase l)) v).rd (Reg.PHY_ES_UI (phyBase l)) = 0 ∧
    ((s.esZero l).wr (Reg.PHY_ES_STATUS (phyBase l)) v).rd (Reg.PHY_ES_UI_HI (phyBase l)) = 0 ∧
    RegsOnly s ((s.esZero l).wr (Reg.PHY_ES_STATUS (phyBase l)) v) := by
  refine ⟨?_, ?_, ?_, ((((RegsOnly.of s.regs rfl).wr _ _).wr _ _).wr _ _).wr _ _⟩
  · exact (phy_rd_wr 0x34 0x38).trans ((phy_rd_wr 0x44 0x38).trans ((phy_rd_wr 0x40 0x38).trans (State.rd_wr_self _ _ _)))
  · exact (phy_rd_wr 0x34 0x40).trans ((phy_rd_wr 0x44 0x40).trans (State.rd_wr_self _ _ _))
  · exact (phy_rd_wr 0x34 0x44).trans (State.rd_wr_self _ _ _)

theorem State.esCtrl_write {u : Unit} (h : laneIsRx l = true) (hs : s.Serves u (phyBase l / 0x1000)) : ∃ v,
    s.hostWrite port (Reg.PHY_ES_CTRL (phyBase l)) ((Reg.PHY_ES_CTRL_START (phyBase l)).put w 1) =
      if s.flag (Reg.PHY_ES_STATUS_BUSY (phyBase l)) then s else (s.wr (Reg.PHY_ES_CTRL (phyBase l)) v).esStart l := by
  obtain ⟨r, hr⟩ := esCtrl_row h
  have hwrite := State.hostWrite_phy (port := port) (w := (Reg.PHY_ES_CTRL_START (phyBase l)).put w 1) hs hr
  rw [State.phyWrite, Nat.add_sub_cancel_left] at hwrite
  exact ⟨_, hwrite.trans (if_pos ((bit_put_one _ w (by decide)).trans (if_pos rfl)))⟩

theorem exec_esStart_cases {u : Unit} (h : laneIsRx l = true) (hs : s.Serves u (phyBase l / 0x1000)) :
    (s.flag (Reg.PHY_ES_STATUS_BUSY (phyBase l)) = true → exec (.esStart port l w) s = .next s) ∧
    (s.flag (Reg.PHY_ES_STATUS_BUSY (phyBase l)) = false → ∃ t, exec (.esStart port l w) s = .next t ∧
      t.rd (Reg.PHY_ES_STATUS (phyBase l)) = (if s.laneInL0 l then 1 else 6) ∧ t.rd (Reg.PHY_ES_ERRS (phyBase l)) = 0 ∧
      t.rd (Reg.PHY_ES_UI (phyBase l)) = 0 ∧ t.rd (Reg.PHY_ES_UI_HI (phyBase l)) = 0 ∧ RegsOnly s t) := by
  obtain ⟨v, hwrite⟩ := State.esCtrl_write (port := port) (w := w) h hs
  refine ⟨fun hbusy => ?_, fun hbusy => ?_⟩
  · rw [hbusy, if_pos rfl] at hwrite
    rw [exec_esStart, State.unheld_live hs.live, hwrite, State.left_of_steady (Steady.refl s)]
  · have hidle : (s.wr (Reg.PHY_ES_CTRL (phyBase l)) v).flag (Reg.PHY_ES_STATUS_BUSY (phyBase l)) = false :=
      (congrArg (· != 0) (phy_fld_wr 0x30 0x34)).trans hbusy
    have hcur : (s.wr (Reg.PHY_ES_CTRL (phyBase l)) v).laneInL0 l = s.laneInL0 l := laneInL0_wr 0x30
    rw [hbusy, if_neg (by decide), State.esStart_begun hidle, hcur] at hwrite
    have hstored : RegsOnly s (s.wr (Reg.PHY_ES_CTRL (phyBase l)) v) := (RegsOnly.of s.regs rfl).wr _ _
    generalize s.wr (Reg.PHY_ES_CTRL (phyBase l)) v = c at hwrite hstored
    obtain ⟨herrs, hui, hhi, hregs⟩ := c.esBegun_effect l (if s.laneInL0 l then 1 else 6)
    have hfinal := hstored.trans hregs
    refine ⟨_, ?_, State.rd_wr_self _ _ _, herrs, hui, hhi, hfinal⟩
    rw [exec_esStart, State.unheld_live hs.live, hwrite, State.left_of_steady hfinal.steady]

/-- The end of a scan, as its counts and STATUS show it. -/
structure ScanEnded (l ui errs : Nat) (s t : State) : Prop where
  busy : t.flag (Reg.PHY_ES_STATUS_BUSY (phyBase l)) = false
  done : t.flag (Reg.PHY_ES_STATUS_DONE (phyBase l)) = true
  wrong : t.rd (Reg.PHY_ES_ERRS (phyBase l)) = BitVec.ofNat 32 errs
  low : t.rd (Reg.PHY_ES_UI (phyBase l)) = BitVec.ofNat 32 (ui % 2 ^ 32)
  high : t.rd (Reg.PHY_ES_UI_HI (phyBase l)) = BitVec.ofNat 32 (ui / 2 ^ 32)
  regs : RegsOnly s t

theorem flag_put (lo : Nat) (hlo : lo < 32) : (t.put ⟨a, lo, 1⟩ n).flag ⟨a, lo, 1⟩ = (n % 2 != 0) :=
  congrArg (· != 0) (State.fld_put_mod (x := ⟨a, lo, 1⟩) (by simp only; omega))

theorem flag_put_apart {i j : Nat} (hi : i < 32) (hij : i ≠ j) : (t.put ⟨a, i, 1⟩ n).flag ⟨a, j, 1⟩ = t.flag ⟨a, j, 1⟩ :=
  congrArg (· != 0) (State.fld_put_apart (x := ⟨a, i, 1⟩) ⟨by simp only; omega, Or.inr (by simp only; omega)⟩)

theorem phy_rd_put (m n : Nat) {lo bits c : Nat} (h : m ≠ n := by decide) : (t.put ⟨b + m, lo, bits⟩ c).rd (b + n) = t.rd (b + n) :=
  phy_rd_wr m n h

/-- A mark of STATUS beside BUSY and DONE leaves what a scan's end shows. -/
theorem ScanEnded.sat_put {ui errs : Nat} (h : ScanEnded l ui errs s t) : ScanEnded l ui errs s (t.put (Reg.PHY_ES_STATUS_SAT (phyBase l)) 1) where
  busy := (flag_put_apart (by decide) (by decide)).trans h.busy
  done := (flag_put_apart (by decide) (by decide)).trans h.done
  wrong := (phy_rd_put 0x34 0x38).trans h.wrong
  low := (phy_rd_put 0x34 0x40).trans h.low
  high := (phy_rd_put 0x34 0x44).trans h.high
  regs := h.regs.put _ _

theorem State.esCounts_ended (s : State) (l ui errs : Nat) : ScanEnded l ui errs s (s.esCounts l ui errs) ∧
    (errs = 0xFFFFFFFF → (s.esCounts l ui errs).flag (Reg.PHY_ES_STATUS_SAT (phyBase l)) = true) := by
  unfold State.esCounts
  extract_lets b c d
  have hc : RegsOnly s c := (((RegsOnly.of s.regs rfl).wr _ _).wr _ _).wr _ _
  have hdone : ScanEnded l ui errs s d :=
    { busy := (flag_put_apart (by decide) (by decide)).trans (flag_put 0 (by decide))
      done := flag_put 1 (by decide)
      wrong := (phy_rd_put 0x34 0x38).trans ((phy_rd_put 0x34 0x38).trans ((phy_rd_wr 0x44 0x38).trans ((phy_rd_wr 0x40 0x38).trans
        (State.rd_wr_self _ _ _))))
      low := (phy_rd_put 0x34 0x40).trans ((phy_rd_put 0x34 0x40).trans ((phy_rd_wr 0x44 0x40).trans (State.rd_wr_self _ _ _)))
      high := (phy_rd_put 0x34 0x44).trans ((phy_rd_put 0x34 0x44).trans (State.rd_wr_self _ _ _))
      regs := (hc.put _ _).put _ _ }
  clear_value d
  split
  · exact ⟨hdone.sat_put, fun _ => flag_put 3 (by decide)⟩
  case isFalse h => exact ⟨hdone, fun he => absurd he h⟩

theorem esDwell_lt (d : Nat) : 2 ^ (min 30 d + 10) < 2 ^ 64 := Nat.pow_lt_pow_right (by decide) (by omega)

theorem exec_esDwellEnd_ended (errs : Nat) (hlive : s.boot.resetLow = false) (hbusy : s.flag (Reg.PHY_ES_STATUS_BUSY (phyBase l)) = true) :
    ∃ t, exec (.esDwellEnd l errs) s = .next t ∧ ScanEnded l (s.esDwell l) (min 0xFFFFFFFF errs) s t ∧
      (min 0xFFFFFFFF errs = 0xFFFFFFFF → t.flag (Reg.PHY_ES_STATUS_SAT (phyBase l)) = true) := by
  obtain ⟨hended, hsat⟩ := s.esCounts_ended l (s.esDwell l) (min 0xFFFFFFFF errs)
  refine ⟨_, ?_, hended, hsat⟩
  rw [exec_esDwellEnd, State.unheld_live hlive, State.esEnd, if_pos hbusy, State.left_of_steady hended.regs.steady]

theorem exec_esDwellEnd_shown (errs : Nat) (hlive : s.boot.resetLow = false) (hbusy : s.flag (Reg.PHY_ES_STATUS_BUSY (phyBase l)) = true) :
    ∃ t, exec (.esDwellEnd l errs) s = .next t ∧ t.flag (Reg.PHY_ES_STATUS_BUSY (phyBase l)) = false ∧
      t.flag (Reg.PHY_ES_STATUS_DONE (phyBase l)) = true ∧
      (t.rd (Reg.PHY_ES_ERRS (phyBase l))).toNat = min (2 ^ 32 - 1) errs ∧
      (2 ^ 32 - 1 ≤ errs → t.flag (Reg.PHY_ES_STATUS_SAT (phyBase l)) = true) ∧
      (t.rd (Reg.PHY_ES_UI (phyBase l))).toNat + 2 ^ 32 * (t.rd (Reg.PHY_ES_UI_HI (phyBase l))).toNat
        = 2 ^ (min 30 (s.fld (Reg.PHY_ES_CTRL_DWELL (phyBase l))) + 10) ∧ t = { s with regs := t.regs } := by
  obtain ⟨t, hexec, h, hsat⟩ := exec_esDwellEnd_ended errs hlive hbusy
  refine ⟨t, hexec, h.busy, h.done, ?_, fun he => hsat (by omega), ?_, h.regs⟩
  · have hmin : min 0xFFFFFFFF errs = min (2 ^ 32 - 1) errs := rfl
    rw [h.wrong, BitVec.toNat_ofNat, Nat.mod_eq_of_lt (by omega), hmin]
  · have hlt := esDwell_lt (s.fld (Reg.PHY_ES_CTRL_DWELL (phyBase l)))
    rw [h.low, h.high, State.esDwell, BitVec.toNat_ofNat, BitVec.toNat_ofNat]
    generalize 2 ^ (min 30 (s.fld (Reg.PHY_ES_CTRL_DWELL (phyBase l))) + 10) = d at hlt ⊢
    omega

/-! Checkers and tests (R54 to R56). -/

/-- What a pattern that a checker locks onto leaves. -/
structure Checked (l errs : Nat) (s t : State) : Prop where
  sync : t.flag (Reg.PHY_PRBS_STAT_SYNC (phyBase l)) = true
  wrong : t.rd (Reg.PHY_PRBS_ERRS (phyBase l)) = BitVec.ofNat 32 errs
  regs : RegsOnly s t

theorem State.prbsSync_checked (s : State) (l errs : Nat) (hfed : s.prbsFed l = true) (hen : s.flag (Reg.PHY_PRBS_CHK_EN (phyBase l)) = true) :
    ∃ e, e = min (2 ^ 32 - 1) ((s.rd (Reg.PHY_PRBS_ERRS (phyBase l))).toNat + errs) ∧ Checked l e s (s.prbsSync l errs) ∧
      (e = 2 ^ 32 - 1 → (s.prbsSync l errs).flag (Reg.PHY_PRBS_STAT_SAT (phyBase l)) = true) := by
  have hold : (s.put (Reg.PHY_PRBS_STAT_SYNC (phyBase l)) 1).rd (Reg.PHY_PRBS_ERRS (phyBase l)) = s.rd (Reg.PHY_PRBS_ERRS (phyBase l)) :=
    phy_rd_put 0x4C 0x50
  refine ⟨satAdd 0xFFFFFFFF (s.rd (Reg.PHY_PRBS_ERRS (phyBase l))).toNat errs, satAdd_eq_min _ _ _, ?_⟩
  rw [State.prbsSync, if_pos (by rw [hfed, hen]; rfl)]
  dsimp only
  rw [hold]
  generalize satAdd 0xFFFFFFFF (s.rd (Reg.PHY_PRBS_ERRS (phyBase l))).toNat errs = e
  have hcounted : Checked l e s ((s.put (Reg.PHY_PRBS_STAT_SYNC (phyBase l)) 1).wrN (Reg.PHY_PRBS_ERRS (phyBase l)) e) :=
    ⟨(congrArg (· != 0) (phy_fld_wr 0x50 0x4C)).trans (flag_put 0 (by decide)), State.rd_wr_self _ _ _,
      ((RegsOnly.of s.regs rfl).put _ _).wr _ _⟩
  generalize (s.put (Reg.PHY_PRBS_STAT_SYNC (phyBase l)) 1).wrN (Reg.PHY_PRBS_ERRS (phyBase l)) e = c at hcounted ⊢
  split
  · exact ⟨⟨(flag_put_apart (by decide) (by decide)).trans hcounted.sync, (phy_rd_put 0x4C 0x50).trans hcounted.wrong, hcounted.regs.put _ _⟩,
      fun _ => flag_put 1 (by decide)⟩
  case isFalse h => exact ⟨hcounted, fun he => absurd he h⟩

theorem State.fed_of_balls (hrx : laneIsRx l = true) (hcur : s.laneInL0 l = true) (hloop : s.looped l 1 = false) : s.prbsFed l = true := by
  simp [State.prbsFed, laneHasChecker, hrx, hcur, hloop]

theorem exec_checkerSync (errs : Nat) (hlive : s.boot.resetLow = false)
    (hfed : (laneIsRx l = true ∧ s.laneInL0 l = true ∧ s.looped l 1 = false) ∨ s.prbsFed l = true)
    (hen : s.flag (Reg.PHY_PRBS_CHK_EN (phyBase l)) = true) :
    ∃ t, exec (.prbsCheckerSync l errs) s = .next t ∧ t.flag (Reg.PHY_PRBS_STAT_SYNC (phyBase l)) = true ∧
      (t.rd (Reg.PHY_PRBS_ERRS (phyBase l))).toNat = min (2 ^ 32 - 1) ((s.rd (Reg.PHY_PRBS_ERRS (phyBase l))).toNat + errs) ∧
      ((t.rd (Reg.PHY_PRBS_ERRS (phyBase l))).toNat = 2 ^ 32 - 1 → t.flag (Reg.PHY_PRBS_STAT_SAT (phyBase l)) = true) ∧
      t = { s with regs := t.regs } := by
  have hreaches : s.prbsFed l = true := hfed.elim (fun h => State.fed_of_balls h.1 h.2.1 h.2.2) id
  obtain ⟨e, he, hchecked, hsat⟩ := s.prbsSync_checked l errs hreaches hen
  have hread : ((s.prbsSync l errs).rd (Reg.PHY_PRBS_ERRS (phyBase l))).toNat = e := by
    rw [hchecked.wrong, BitVec.toNat_ofNat, Nat.mod_eq_of_lt (by omega)]
  have hexec : exec (.prbsCheckerSync l errs) s = .next (s.prbsSync l errs) := by
    rw [exec_prbsCheckerSync, State.unheld_live hlive, State.left_of_steady hchecked.regs.steady]
  exact ⟨_, hexec, hchecked.sync, hread.trans he, fun h => hsat (hread.symm.trans h), hchecked.regs⟩

/-! A write of PRBS (R55). -/

/-- A port may write PRBS of every lane. -/
theorem prbs_row (hl : l < 106) : ∃ r, phyRow l 0x48 = some r := by
  have hall : ∀ k < 106, (phyRow k 0x48).isSome = true := by decide
  exact Option.isSome_iff_exists.1 (hall l hl)

theorem State.prbs_write {u : Unit} (hl : l < 106) (hs : s.Serves u (phyBase l / 0x1000)) :
    s.hostWrite port (Reg.PHY_PRBS (phyBase l)) w = s.prbsWrite l w := by
  obtain ⟨r, hr⟩ := prbs_row hl
  have hwrite := State.hostWrite_phy (port := port) (w := w) hs hr
  rwa [State.phyWrite, Nat.add_sub_cancel_left] at hwrite

/-- LOOP as a write leaves it (R56). -/
def State.loopKept (s : State) (l : Nat) (w : Word) : Nat :=
  if (Reg.PHY_PRBS_LOOP (phyBase l)).get w = 2 && !laneFarEnd l then s.fld (Reg.PHY_PRBS_LOOP (phyBase l))
  else (Reg.PHY_PRBS_LOOP (phyBase l)).get w

/-- PRBS after a write, before anything follows it. -/
def State.prbsStored (s : State) (l : Nat) (w : Word) : State :=
  (s.wr (Reg.PHY_PRBS (phyBase l)) (w &&& 0x3F#32)).put (Reg.PHY_PRBS_LOOP (phyBase l)) (s.loopKept l w)

theorem State.loopKept_lt (s : State) (l : Nat) (w : Word) : s.loopKept l w < 4 := by
  unfold State.loopKept
  split <;> exact Fld.get_lt ..

/-- The low bits of PRBS take what was written. -/
theorem State.prbsStored_low (s : State) (l : Nat) (w : Word) {lo bits : Nat} (h : lo + bits ≤ 4) :
    (s.prbsStored l w).fld ⟨Reg.PHY_PRBS (phyBase l), lo, bits⟩ = w.toNat / 2 ^ lo % 2 ^ bits := by
  have hmask : ∀ i < 5, ∀ j < 5, i + j ≤ 4 → 63 / 2 ^ i % 2 ^ j = 2 ^ j - 1 := by decide
  have happly : (s.prbsStored l w).fld ⟨Reg.PHY_PRBS (phyBase l), lo, bits⟩ =
      (s.wr (Reg.PHY_PRBS (phyBase l)) (w &&& 0x3F#32)).fld ⟨Reg.PHY_PRBS (phyBase l), lo, bits⟩ :=
    State.fld_put_apart (x := Reg.PHY_PRBS_LOOP (phyBase l)) ⟨by simp [Reg.PHY_PRBS_LOOP], Or.inr (Or.inl h)⟩
  rw [happly]
  exact (State.fld_wr_self (x := ⟨Reg.PHY_PRBS (phyBase l), lo, bits⟩) rfl).trans
    (Fld.get_and_of_ones (hmask lo (by omega) bits (by omega) h))

theorem State.prbsStored_loop (s : State) (l : Nat) (w : Word) : (s.prbsStored l w).fld (Reg.PHY_PRBS_LOOP (phyBase l)) = s.loopKept l w :=
  (State.fld_put_mod (by simp [Reg.PHY_PRBS_LOOP])).trans (Nat.mod_eq_of_lt (s.loopKept_lt l w))

theorem State.detectRuns_kept (s : State) : (∀ j, (s.detectRuns.lane j).test = (s.lane j).test) ∧ PrbsKept s s.detectRuns := by
  unfold State.detectRuns
  split
  · have hsent := (State.capsSend_bcWork { s with isl := { s.isl with since := s.now, hold := false } }).toLinkWork
    refine ⟨fun j => ?_, PrbsKept.andThen (PrbsKept.of_regs rfl) hsent.prbs⟩
    rw [hsent.lane j]
    rfl
  · exact ⟨fun _ => rfl, PrbsKept.refl s⟩

theorem State.prbsFill_kept (s : State) (l : Nat) : (s.prbsFill l).phy = s.phy ∧ (s.prbsFill l).regs = s.regs := by
  unfold State.prbsFill
  dsimp only
  split <;> exact ⟨rfl, rfl⟩

/-- What follows a write of PRBS: the lane is aimed anew under its test, a pattern may fill it, and an attempt may go on. -/
def State.testSet (s : State) (l : Nat) (test fills : Bool) : State :=
  let c := (s.mapLane l fun y => { y with test := test }).laneAim l
  (if fills then c.prbsFill l else c).detectRuns

theorem State.testSet_effect (s : State) (l : Nat) (test fills : Bool) :
    PrbsKept s (s.testSet l test fills) ∧ ((s.testSet l test fills).lane l).test = test := by
  have haim : PrbsKept s ((s.mapLane l fun y => { y with test := test }).laneAim l) :=
    PrbsKept.andThen (PrbsKept.of_regs rfl) (State.laneAim_prbs _ l)
  have htest : (((s.mapLane l fun y => { y with test := test }).laneAim l).lane l).test = test := by
    rw [State.laneAim_test, State.lane_mapLane, if_pos rfl]
  unfold State.testSet
  dsimp only
  generalize (s.mapLane l fun y => { y with test := test }).laneAim l = c at haim htest ⊢
  obtain ⟨hphy, hregs⟩ := c.prbsFill_kept l
  have hfilled : ∀ d : State, d.phy = c.phy → d.regs = c.regs → PrbsKept s d.detectRuns ∧ (d.detectRuns.lane l).test = test := by
    intro d hphy hregs
    obtain ⟨hlane, hkept⟩ := d.detectRuns_kept
    refine ⟨(haim.andThen (PrbsKept.of_regs hregs)).andThen hkept, ?_⟩
    rw [hlane, State.lane, hphy, ← State.lane, htest]
  split
  exacts [hfilled _ hphy hregs, hfilled c rfl rfl]

/-- What a write of PRBS asks a lane to do: whether a test is on. -/
def State.testOn (s : State) (l kept : Nat) : Bool :=
  ((!laneIsRx l && s.flag (Reg.PHY_PRBS_GEN_EN (phyBase l))) || (laneIsRx l && s.flag (Reg.PHY_PRBS_CHK_EN (phyBase l)))) ||
    kept == 1 || kept == 2

theorem State.prbsWrite_eq (s : State) (l : Nat) (w : Word) : ∃ (c : State) (taken fills : Bool), PrbsKept (s.prbsStored l w) c ∧
    s.prbsWrite l w = (if taken then c.laneTaken l else c).testSet l ((s.prbsStored l w).testOn l (s.loopKept l w)) fills := by
  refine ⟨if !(s.prbsStored l w).flag (Reg.PHY_PRBS_CHK_EN (phyBase l)) || s.rd (Reg.PHY_PRBS (phyBase l)) != (s.prbsStored l w).rd (Reg.PHY_PRBS (phyBase l))
    then (s.prbsStored l w).put (Reg.PHY_PRBS_STAT_SYNC (phyBase l)) 0 else s.prbsStored l w, _, _, ?_, rfl⟩
  exact PrbsKept.ite (State.put_prbs _ _ (block_not_prbs l (by decide))) (PrbsKept.refl _)

/-- PRBS keeps what was stored, and the lane is under the test that it asks for. -/
theorem State.prbsWrite_effect (s : State) (hl : l < 106) (w : Word) :
    (s.prbsWrite l w).rd (Reg.PHY_PRBS (phyBase l)) = (s.prbsStored l w).rd (Reg.PHY_PRBS (phyBase l)) ∧
    ((s.prbsWrite l w).lane l).test = (s.prbsStored l w).testOn l (s.loopKept l w) := by
  obtain ⟨c, taken, fills, hc, heq⟩ := s.prbsWrite_eq l w
  have htaken : PrbsKept (s.prbsStored l w) (if taken then c.laneTaken l else c) :=
    PrbsKept.ite (hc.andThen (c.laneTaken_prbs l)) hc
  generalize (if taken then c.laneTaken l else c : State) = d at htaken heq
  obtain ⟨hkept, htest⟩ := d.testSet_effect l ((s.prbsStored l w).testOn l (s.loopKept l w)) fills
  rw [heq]
  exact ⟨(htaken.andThen hkept) _ (prbs_isPrbs hl), htest⟩

/-- A write of both enables puts a lane of either kind under test. -/
theorem testOn_of_both (h : w.toNat % 4 = 3) (kept : Nat) : (s.prbsStored l w).testOn l kept = true := by
  have hgen : (s.prbsStored l w).flag (Reg.PHY_PRBS_GEN_EN (phyBase l)) = true :=
    State.flag_iff.2 (by rw [Reg.PHY_PRBS_GEN_EN, State.prbsStored_low s l w (by decide)]; omega)
  have hchk : (s.prbsStored l w).flag (Reg.PHY_PRBS_CHK_EN (phyBase l)) = true :=
    State.flag_iff.2 (by rw [Reg.PHY_PRBS_CHK_EN, State.prbsStored_low s l w (by decide)]; omega)
  rw [State.testOn, hgen, hchk]
  cases laneIsRx l <;> rfl

theorem exec_prbsWrite_effect {u : Unit} (hl : l < 106) (hs : s.Serves u (phyBase l / 0x1000)) :
    ∃ t, exec (.prbsWrite port l w) s = .next t ∧
      t.rd (Reg.PHY_PRBS (phyBase l)) % 16 = w % 16 ∧
      t.fld (Reg.PHY_PRBS_LOOP (phyBase l)) = (if w.toNat / 16 % 4 = 2 ∧ laneFarEnd l = false
        then s.fld (Reg.PHY_PRBS_LOOP (phyBase l)) else w.toNat / 16 % 4) ∧
      (w.toNat % 4 = 3 → (t.lane l).test = true) := by
  obtain ⟨hrd, htest⟩ := s.prbsWrite_effect hl w
  have hexec : exec (.prbsWrite port l w) s = .next (s.left (s.prbsWrite l w)) := by
    rw [exec_prbsWrite, State.unheld_live hs.live, State.prbs_write hl hs]
  generalize s.prbsWrite l w = t at hrd htest hexec
  refine ⟨_, hexec, ?_, ?_, fun h => ?_⟩
  · have hlow := s.prbsStored_low l w (lo := 0) (bits := 4) (by decide)
    rw [State.fld, Fld.get] at hlow
    refine BitVec.eq_of_toNat_eq ?_
    rw [State.left_rd, hrd, BitVec.toNat_umod, BitVec.toNat_umod]
    simpa using hlow
  · have hloop := s.prbsStored_loop l w
    rw [State.fld, Reg.PHY_PRBS_LOOP, ← hrd] at hloop
    refine Eq.trans hloop ?_
    simp only [State.loopKept, Bool.and_eq_true, decide_eq_true_eq, Bool.not_eq_true']
    rfl
  · exact htest.trans (testOn_of_both h _)

theorem scansAndTests : Rules.ScansAndTests :=
  ⟨fun _ _ _ _ _ h hs => exec_esStart_cases h hs, fun _ _ errs hlive hbusy _ => exec_esDwellEnd_shown errs hlive hbusy,
    fun _ _ errs hlive hfed hen => exec_checkerSync errs hlive hfed hen, fun _ _ _ _ _ hl hs => exec_prbsWrite_effect hl hs⟩

/-! The spread reference (R40). -/

theorem refcfg_not_lstate (l : Nat) : Reg.EDL_REFCFG ≠ Reg.PHY_LSTATE (phyBase l) := by
  simp only [Reg.EDL_REFCFG, Reg.PHY_LSTATE, phyBase]
  repeat' split
  all_goals omega

theorem State.anyEdlL0_congr (h : ∀ l, t.laneInL0 l = s.laneInL0 l) : t.anyEdlL0 = s.anyEdlL0 := by
  simp only [State.anyEdlL0, h]

theorem State.anyEdlL0_refcfg (s : State) (x : Fld) (n : Nat) (hx : x.addr = Reg.EDL_REFCFG) : (s.put x n).anyEdlL0 = s.anyEdlL0 :=
  State.anyEdlL0_congr fun l => congrArg (· == 0) (State.fld_wr_other (by rw [hx]; exact refcfg_not_lstate l))

theorem State.refInUse_none (h : s.anyEdlL0 = false) {r : Nat} (hr : r < 4) : s.refInUse r = false := by
  rw [State.anyEdlL0, List.any_eq_false] at h
  rw [State.refInUse, List.any_eq_false]
  intro i hi
  exact h (16 * r + i) (List.mem_range.2 (by have := List.mem_range.1 hi; omega))

/-- Nothing differs but registers and the lanes' own state. -/
def PhyOnly (s t : State) : Prop := t = { s with regs := t.regs, phy := t.phy }

theorem PhyOnly.of (regs : Cells Word) (phy : PhyState) (h : t = { s with regs := regs, phy := phy }) : PhyOnly s t := by
  subst h
  rfl

theorem PhyOnly.trans (h : PhyOnly s t) (g : PhyOnly t u) : PhyOnly s u :=
  PhyOnly.of u.regs u.phy (Eq.trans g (congrArg (fun v : State => { v with regs := u.regs, phy := u.phy }) h))

theorem PhyOnly.steady (h : PhyOnly s t) : Steady s t := by
  rw [h]
  exact ⟨Nat.le_refl _, rfl, rfl⟩

theorem PhyOnly.put (s : State) (x : Fld) (n : Nat) (phy : PhyState) : PhyOnly s { s.put x n with phy := phy } :=
  PhyOnly.of _ _ rfl

/-- The enables that a write of REFCFG brings, or brings later. -/
def State.enTaken (s : State) (en : Nat) : State :=
  { s.put Reg.EDL_REFCFG_EN (s.refEnNow en) with phy := { s.phy with enPend := if s.refEnNow en = en then none else some en } }

/-- The spread at once. -/
def State.spreadNow (s : State) (n : Nat) : State :=
  { s.put Reg.EDL_REFCFG_SPREAD n with phy := { s.phy with spreadPend := none } }

theorem State.refcfgWrite_eq (s : State) (w : Word) : s.refcfgWrite w =
    (if (s.enTaken (Reg.EDL_REFCFG_EN.get w)).anyEdlL0 && Reg.EDL_REFCFG_SPREAD.get w != (s.enTaken (Reg.EDL_REFCFG_EN.get w)).fld Reg.EDL_REFCFG_SPREAD
      then { s.enTaken (Reg.EDL_REFCFG_EN.get w) with
        phy := { (s.enTaken (Reg.EDL_REFCFG_EN.get w)).phy with spreadPend := some (Reg.EDL_REFCFG_SPREAD.get w) } }
      else (s.enTaken (Reg.EDL_REFCFG_EN.get w)).spreadNow (Reg.EDL_REFCFG_SPREAD.get w)).refPendFlag := rfl

theorem State.refPendFlag_effect (s : State) : PhyOnly s s.refPendFlag ∧ s.refPendFlag.phy = s.phy ∧
    s.refPendFlag.fld Reg.EDL_REFCFG_SPREAD = s.fld Reg.EDL_REFCFG_SPREAD ∧ s.refPendFlag.fld Reg.EDL_REFCFG_EN = s.fld Reg.EDL_REFCFG_EN ∧
    s.refPendFlag.flag Reg.EDL_REFCFG_PENDING = (s.phy.spreadPend.isSome || s.phy.enPend.isSome) := by
  refine ⟨PhyOnly.of _ _ rfl, rfl, State.fld_put_apart (by decide), State.fld_put_apart (by decide), ?_⟩
  refine (flag_put (a := Reg.EDL_REFCFG) 8 (by decide)).trans ?_
  cases s.phy.spreadPend.isSome || s.phy.enPend.isSome <;> rfl

theorem State.enTaken_effect (s : State) (n : Nat) : PhyOnly s (s.enTaken n) ∧ (s.enTaken n).anyEdlL0 = s.anyEdlL0 ∧
    (s.enTaken n).fld Reg.EDL_REFCFG_SPREAD = s.fld Reg.EDL_REFCFG_SPREAD ∧ (s.enTaken n).fld Reg.EDL_REFCFG_EN = s.refEnNow n % 16 ∧
    (s.enTaken n).phy = { s.phy with enPend := if s.refEnNow n = n then none else some n } := by
  have hregs : (s.enTaken n).regs = (s.put Reg.EDL_REFCFG_EN (s.refEnNow n)).regs := rfl
  refine ⟨PhyOnly.of _ _ rfl, ?_, ?_, ?_, rfl⟩
  · rw [← s.anyEdlL0_refcfg Reg.EDL_REFCFG_EN (s.refEnNow n) rfl]
    exact State.anyEdlL0_congr fun l => congrArg (· == 0) (State.fld_of_regs hregs (Reg.PHY_LSTATE_CUR (phyBase l)))
  · rw [State.fld_of_regs hregs, State.fld_put_apart (by decide)]
  · rw [State.fld_of_regs hregs, State.fld_put_mod (by decide)]
    rfl

theorem State.spreadNow_effect (s : State) (hn : n < 8) : PhyOnly s (s.spreadNow n) ∧ (s.spreadNow n).fld Reg.EDL_REFCFG_SPREAD = n ∧
    (s.spreadNow n).fld Reg.EDL_REFCFG_EN = s.fld Reg.EDL_REFCFG_EN ∧ (s.spreadNow n).phy = { s.phy with spreadPend := none } := by
  have hregs : (s.spreadNow n).regs = (s.put Reg.EDL_REFCFG_SPREAD n).regs := rfl
  refine ⟨PhyOnly.of _ _ rfl, ?_, ?_, rfl⟩
  · rw [State.fld_of_regs hregs, State.fld_put_mod (by decide)]
    exact Nat.mod_eq_of_lt hn
  · rw [State.fld_of_regs hregs, State.fld_put_apart (by decide)]

/-- With no lane in L0 every output takes its enable at once. -/
theorem State.refEnNow_free (h : s.anyEdlL0 = false) (hn : n < 16) : s.refEnNow n = n := by
  have hbits : ∀ m < 16, (List.range 4).foldl (fun acc r => acc + (if bit m r then 2 ^ r else 0)) 0 = m := by decide
  refine Eq.trans ?_ (hbits n hn)
  refine List.foldl_ext _ _ 0 fun acc r hr => ?_
  rw [State.refInUse_none h (List.mem_range.1 hr)]
  rfl

theorem State.refcfgWrite_phyOnly (s : State) (w : Word) : PhyOnly s (s.refcfgWrite w) := by
  rw [State.refcfgWrite_eq]
  refine PhyOnly.trans (PhyOnly.trans (s.enTaken_effect (Reg.EDL_REFCFG_EN.get w)).1 ?_) (State.refPendFlag_effect _).1
  split
  · exact PhyOnly.of _ _ rfl
  · exact PhyOnly.of _ _ rfl

theorem State.refcfgWrite_held (h : s.anyEdlL0 = true) (hne : Reg.EDL_REFCFG_SPREAD.get w ≠ s.fld Reg.EDL_REFCFG_SPREAD) :
    (s.refcfgWrite w).phy.spreadPend = some (Reg.EDL_REFCFG_SPREAD.get w) ∧ (s.refcfgWrite w).flag Reg.EDL_REFCFG_PENDING = true ∧
      (s.refcfgWrite w).fld Reg.EDL_REFCFG_SPREAD = s.fld Reg.EDL_REFCFG_SPREAD := by
  obtain ⟨-, hany, hspread, -, -⟩ := s.enTaken_effect (Reg.EDL_REFCFG_EN.get w)
  rw [State.refcfgWrite_eq]
  generalize s.enTaken (Reg.EDL_REFCFG_EN.get w) = c at hany hspread ⊢
  rw [hany, hspread, if_pos (by simp [h, hne])]
  obtain ⟨-, hphy, hkept, -, hpend⟩ := ({ c with phy := { c.phy with spreadPend := some (Reg.EDL_REFCFG_SPREAD.get w) } } : State).refPendFlag_effect
  exact ⟨by rw [hphy], hpend, hkept.trans hspread⟩

theorem State.refcfgWrite_taken (h : s.anyEdlL0 = false) : (s.refcfgWrite w).fld Reg.EDL_REFCFG_SPREAD = Reg.EDL_REFCFG_SPREAD.get w ∧
    (s.refcfgWrite w).fld Reg.EDL_REFCFG_EN = Reg.EDL_REFCFG_EN.get w ∧ (s.refcfgWrite w).flag Reg.EDL_REFCFG_PENDING = false := by
  obtain ⟨-, hany, -, hen, hphy⟩ := s.enTaken_effect (Reg.EDL_REFCFG_EN.get w)
  have hlt : Reg.EDL_REFCFG_EN.get w < 16 := Fld.get_lt ..
  rw [State.refEnNow_free h hlt, if_pos rfl] at hphy
  rw [State.refEnNow_free h hlt, Nat.mod_eq_of_lt hlt] at hen
  rw [State.refcfgWrite_eq]
  generalize s.enTaken (Reg.EDL_REFCFG_EN.get w) = c at hany hen hphy ⊢
  rw [hany, h, Bool.false_and, if_neg (by decide)]
  obtain ⟨-, hnow, hstays, hphy'⟩ := c.spreadNow_effect (n := Reg.EDL_REFCFG_SPREAD.get w) (Fld.get_lt ..)
  generalize c.spreadNow (Reg.EDL_REFCFG_SPREAD.get w) = d at hnow hstays hphy' ⊢
  obtain ⟨-, -, hspread, hkept, hpend⟩ := d.refPendFlag_effect
  refine ⟨hspread.trans hnow, hkept.trans (hstays.trans hen), hpend.trans ?_⟩
  rw [hphy', hphy]
  rfl

theorem exec_refcfgWrite_cases (hs : s.Serves .EDL 0x70) :
    ∃ t, exec (.refcfgWrite port w) s = .next t ∧ t = { s with regs := t.regs, phy := t.phy } ∧
      (s.anyEdlL0 = true → Reg.EDL_REFCFG_SPREAD.get w ≠ s.fld Reg.EDL_REFCFG_SPREAD →
        t.phy.spreadPend = some (Reg.EDL_REFCFG_SPREAD.get w) ∧ t.flag Reg.EDL_REFCFG_PENDING = true ∧
        t.fld Reg.EDL_REFCFG_SPREAD = s.fld Reg.EDL_REFCFG_SPREAD) ∧
      (s.anyEdlL0 = false → t.fld Reg.EDL_REFCFG_SPREAD = Reg.EDL_REFCFG_SPREAD.get w ∧
        t.fld Reg.EDL_REFCFG_EN = Reg.EDL_REFCFG_EN.get w ∧ t.flag Reg.EDL_REFCFG_PENDING = false) := by
  have hwrite : s.hostWrite port Reg.EDL_REFCFG w = s.refcfgWrite w :=
    State.hostWrite_acts (u := .EDL) (a := Reg.EDL_REFCFG) hs (by decide) rfl
  have hexec : exec (.refcfgWrite port w) s = .next (s.refcfgWrite w) := by
    rw [exec_refcfgWrite, State.unheld_live hs.live, hwrite, State.left_of_steady (s.refcfgWrite_phyOnly w).steady]
  exact ⟨_, hexec, s.refcfgWrite_phyOnly w, fun h hne => State.refcfgWrite_held h hne, fun h => State.refcfgWrite_taken h⟩

/-- Once no lane is in L0, a held spread is taken. -/
theorem State.refcfgApply_spread (h : s.phy.spreadPend = some n) (hen : s.phy.enPend = none) (hfree : s.anyEdlL0 = false) :
    s.refcfgApply = (s.spreadNow n).refPendFlag := by
  unfold State.refcfgApply
  simp only [h, hfree, Bool.false_eq_true, if_false, hen, State.spreadNow]

theorem exec_refcfgPendingApply_cases (hlive : s.boot.resetLow = false) (h : s.phy.spreadPend = some n) (hen : s.phy.enPend = none)
    (hn : n < 4) (hfree : s.anyEdlL0 = false) :
    ∃ t, exec .refcfgPendingApply s = .next t ∧ t.fld Reg.EDL_REFCFG_SPREAD = n ∧ t.phy.spreadPend = none ∧
      t.flag Reg.EDL_REFCFG_PENDING = false ∧ t = { s with regs := t.regs, phy := { s.phy with spreadPend := none } } := by
  have hexec : exec .refcfgPendingApply s = .next (s.left (s.spreadNow n).refPendFlag) := by
    rw [exec_refcfgPendingApply, State.unheld_live hlive, State.refcfgApply_spread h hen hfree]
  obtain ⟨htaken, hnow, -, hphy'⟩ := s.spreadNow_effect (n := n) (by omega)
  generalize s.spreadNow n = d at hexec htaken hnow hphy'
  obtain ⟨honly, hphy, hspread, -, hpend⟩ := d.refPendFlag_effect
  generalize d.refPendFlag = t at hexec honly hphy hspread hpend
  have hall := htaken.trans honly
  rw [State.left_of_steady hall.steady] at hexec
  have hnone := hphy.trans hphy'
  refine ⟨t, hexec, hspread.trans hnow, by rw [hnone], hpend.trans ?_, ?_⟩
  · rw [hphy', hen]
    rfl
  · rw [← hnone]
    exact hall

theorem spreadWaits : Rules.SpreadWaits :=
  ⟨fun _ _ _ hs => exec_refcfgWrite_cases hs, fun _ _ hlive h hen hn hfree => exec_refcfgPendingApply_cases hlive h hen hn hfree⟩

/-! CNT_CLR (R89). -/

/-- Where a field begins among all bits of all registers. -/
def Fld.start (x : Fld) : Nat := x.addr * 32 + x.lo

/-- Fields within their registers, each behind the one before. -/
def inOrder : List Fld → Bool
  | [] => true
  | x :: xs => x.lo + x.w ≤ 32 && xs.head?.all (fun y => x.start + x.w ≤ y.start) && inOrder xs

theorem inOrder_cons {xs : List Fld} (h : inOrder (x :: xs) = true) : x.lo + x.w ≤ 32 ∧ inOrder xs = true ∧ ∀ y ∈ xs, x.start + x.w ≤ y.start := by
  induction xs generalizing x with
  | nil => exact ⟨by simpa [inOrder] using h, rfl, fun _ hm => absurd hm List.not_mem_nil⟩
  | cons z xs ih =>
    rw [inOrder, Bool.and_eq_true, Bool.and_eq_true, decide_eq_true_eq, List.head?_cons, Option.all_some, decide_eq_true_eq] at h
    obtain ⟨⟨hx, hz⟩, hrest⟩ := h
    obtain ⟨-, -, hlater⟩ := ih hrest
    refine ⟨hx, hrest, fun y hy => ?_⟩
    rcases List.mem_cons.1 hy with rfl | hy
    · exact hz
    · exact Nat.le_trans hz (Nat.le_trans (Nat.le_add_right _ _) (hlater y hy))

/-- A counter that a bit may clear. -/
def State.clearIf (s : State) (c : Bool) (x : Fld) : State := if c then s.put x 0 else s

/-- The counters that a word's bits name are cleared, one after the other. -/
def State.cleared (s : State) (w : Word) (l : List (Nat × Fld)) : State := s.each l fun c s => s.clearIf (bit w.toNat c.1) c.2

theorem State.clearIf_apart (c : Bool) (hx : x.lo + x.w ≤ 32) (h : x.addr ≠ y.addr ∨ y.lo + y.w ≤ x.lo ∨ x.lo + x.w ≤ y.lo) :
    (s.clearIf c x).fld y = s.fld y := by
  unfold State.clearIf
  split
  · exact State.fld_put_apart ⟨hx, h⟩
  · rfl

theorem State.clearIf_fld (s : State) (k : Nat) (hx : x.lo + x.w ≤ 32) :
    (s.clearIf (bit w.toNat k) x).fld x = if w.toNat / 2 ^ k % 2 = 1 then 0 else s.fld x := by
  rw [State.clearIf, bit]
  by_cases hbit : w.toNat / 2 ^ k % 2 = 1
  · rw [if_pos hbit, if_pos (beq_iff_eq.2 hbit), State.fld_put_mod hx, Nat.zero_mod]
  · rw [if_neg hbit, if_neg (fun hb => hbit (beq_iff_eq.1 hb))]

theorem State.clearIf_later (c : Bool) (hx : x.lo + x.w ≤ 32) (h : x.start + x.w ≤ y.start) : (s.clearIf c x).fld y = s.fld y := by
  refine s.clearIf_apart c hx ?_
  by_cases ha : x.addr = y.addr
  · simp only [Fld.start, ha] at h
    exact Or.inr (Or.inr (by omega))
  · exact Or.inl ha

theorem State.clearIf_regs (s : State) (c : Bool) (x : Fld) : RegsOnly s (s.clearIf c x) := by
  unfold State.clearIf
  split
  · exact (RegsOnly.of s.regs rfl).put _ _
  · exact RegsOnly.of s.regs rfl

theorem State.cleared_regs (w : Word) (l : List (Nat × Fld)) (s : State) : RegsOnly s (s.cleared w l) :=
  State.each_induct (RegsOnly s) l (fun c s => s.clearIf (bit w.toNat c.1) c.2) (fun _ _ h => h.trans (State.clearIf_regs _ _ _)) s
    (RegsOnly.of s.regs rfl)

/-- A field before all that are cleared keeps its value. -/
theorem State.cleared_before (w : Word) (l : List (Nat × Fld)) (h : ∀ x ∈ l.map (·.2), y.start + y.w ≤ x.start ∧ x.lo + x.w ≤ 32)
    (s : State) : (s.cleared w l).fld y = s.fld y := by
  induction l generalizing s with
  | nil => rfl
  | cons c l ih =>
    obtain ⟨hfirst, hrest⟩ := List.forall_mem_cons.1 h
    refine (ih hrest (s.clearIf (bit w.toNat c.1) c.2)).trans (s.clearIf_apart _ hfirst.2 ?_)
    by_cases ha : c.2.addr = y.addr
    · have := hfirst.1
      simp only [Fld.start, ha] at this
      exact Or.inr (Or.inl (by omega))
    · exact Or.inl ha

theorem inOrder_within {xs : List Fld} (h : inOrder xs = true) : ∀ x ∈ xs, x.lo + x.w ≤ 32 := by
  induction xs with
  | nil => exact fun _ hm => absurd hm List.not_mem_nil
  | cons y ys ih =>
    obtain ⟨hy, hrest, -⟩ := inOrder_cons h
    exact List.forall_mem_cons.2 ⟨hy, ih hrest⟩

/-- Each counter is cleared where its bit is set, and keeps its value where it is not. -/
theorem State.cleared_fld (w : Word) (l : List (Nat × Fld)) (h : inOrder (l.map (·.2)) = true) (s : State) :
    ∀ k x, (k, x) ∈ l → (s.cleared w l).fld x = if w.toNat / 2 ^ k % 2 = 1 then 0 else s.fld x := by
  induction l generalizing s with
  | nil => exact fun _ _ hm => absurd hm List.not_mem_nil
  | cons c l ih =>
    intro k x hm
    obtain ⟨hc, hrest, hlater⟩ := inOrder_cons h
    have hcons : s.cleared w (c :: l) = (s.clearIf (bit w.toNat c.1) c.2).cleared w l := rfl
    rw [hcons]
    rcases List.mem_cons.1 hm with rfl | hm
    · have hwithin := inOrder_within hrest
      rw [State.cleared_before w l fun y hy => ⟨hlater y hy, hwithin y hy⟩]
      exact s.clearIf_fld k hc
    · rw [ih hrest _ k x hm, State.clearIf_later _ hc (hlater x (List.mem_map.2 ⟨(k, x), hm, rfl⟩))]

/-- No PHY block reaches into the first 0x400 bytes of a page. -/
theorem laneOfAddr_none (h : a % 0x1000 < 0x400) : laneOfAddr a = none := by
  refine List.find?_eq_none.2 fun l hl => ?_
  have hlt : l < 106 := List.mem_range.1 hl
  have hoff : 0x400 ≤ phyBase l % 0x1000 ∧ phyBase l % 0x1000 ≤ 0xF00 := by
    unfold phyBase
    repeat' split
    all_goals omega
  simp only [Bool.and_eq_true, decide_eq_true_eq, not_and, Nat.not_lt]
  intro hle
  omega

/-- Whether a page's CNT_CLR is a register that a port's write reaches, its counters sharing no bit. -/
def clearable (p : Nat) : Bool :=
  (unitOfPage p).all fun u => hdrPage p != p || !decide (p < u.page + u.count) || u == .TEST || (cntClrOffset u).all fun off =>
    off < 0x400 && (writeActs.find? (·.1 == 4096 * p + off)).isNone && !(u == .EDL_PORT && off == 0x44) &&
      !(u == .MEMC && off % 16 == 12 && 0x100 ≤ off) &&
      (blockRow u (4096 * p + off)).any (fun r => !r.p && r.act != 0) && inOrder ((countersOf u p).map (·.2))

theorem pages_clearable (p : Nat) (hp : p < 0x121) : clearable p = true := by
  have h : ∀ q < 0x121, clearable q = true := by decide +kernel
  exact h p hp

/-- Nothing differs but registers and MEMC's worst latency. -/
def CountsOnly (s t : State) : Prop := t = { s with regs := t.regs, mem := { s.mem with maxLat := t.mem.maxLat } }

theorem CountsOnly.of (regs : Cells Word) (n : Nat) (h : t = { s with regs := regs, mem := { s.mem with maxLat := n } }) : CountsOnly s t := by
  subst h
  rfl

theorem CountsOnly.wr (h : CountsOnly s t) (a : Nat) (w : Word) : CountsOnly s (t.wr a w) :=
  CountsOnly.of (Cells.set resetWord t.regs a w) t.mem.maxLat
    (congrArg (fun v : State => { v with regs := Cells.set resetWord t.regs a w }) h)

theorem RegsOnly.counts (h : RegsOnly s t) (g : CountsOnly t u) : CountsOnly s u :=
  CountsOnly.of u.regs u.mem.maxLat (Eq.trans g (congrArg (fun v : State =>
    { v with regs := u.regs, mem := { v.mem with maxLat := u.mem.maxLat } }) h))

theorem CountsOnly.steady (h : CountsOnly s t) : Steady s t := by
  rw [h]
  exact ⟨Nat.le_refl _, rfl, rfl⟩

/-- What CNT_CLR clears beside the counters: MEMC's worst latency, and DITH's first mismatch. -/
def State.clearBeside (s : State) (u : Unit) (w : Word) : State :=
  let s : State := if u = .MEMC && bit w.toNat 0 then { s with mem := { s.mem with maxLat := 0 } } else s
  if u = .DITH && bit w.toNat 1 then s.put Reg.DITH_SHADOW_FIRST1_VALID 0 else s

theorem State.cntClr_eq (s : State) {u : Unit} (hu : u ≠ .TEST) (p : Nat) (w : Word) :
    s.cntClr u p w = (s.cleared w (countersOf u p)).clearBeside u w := by
  unfold State.cntClr
  split
  · exact absurd rfl hu
  · rfl

theorem State.clearBeside_effect (s : State) (u : Unit) (w : Word) : CountsOnly s (s.clearBeside u w) ∧
    ∀ y : Fld, (u = .DITH → y.addr ≠ Reg.DITH_SHADOW_FIRST1) → (s.clearBeside u w).fld y = s.fld y := by
  have hlat : ∀ t : State, CountsOnly s t → t.regs = s.regs → CountsOnly s (if u = .DITH && bit w.toNat 1 then t.put Reg.DITH_SHADOW_FIRST1_VALID 0 else t) ∧
      ∀ y : Fld, (u = .DITH → y.addr ≠ Reg.DITH_SHADOW_FIRST1) →
        (if u = .DITH && bit w.toNat 1 then t.put Reg.DITH_SHADOW_FIRST1_VALID 0 else t).fld y = s.fld y := by
    intro t ht hregs
    split
    case isTrue h =>
      have hu : u = .DITH := by simpa using (Bool.and_eq_true_iff.1 h).1
      exact ⟨ht.wr _ _, fun y hy => (State.fld_put_apart ⟨by decide, Or.inl (hy hu).symm⟩).trans (State.fld_of_regs hregs y)⟩
    case isFalse => exact ⟨ht, fun y _ => State.fld_of_regs hregs y⟩
  refine hlat _ ?_ ?_ <;> split
  exacts [CountsOnly.of s.regs 0 rfl, CountsOnly.of s.regs s.mem.maxLat rfl, rfl, rfl]

theorem dith_counters (hm : (k, x) ∈ countersOf .DITH p) : x.addr ≠ Reg.DITH_SHADOW_FIRST1 := by
  have hall : ∀ c ∈ [(0, wholeFld Reg.DITH_BUSY_CNT), (1, wholeFld Reg.DITH_SHADOW_ERR), (2, wholeFld Reg.DITH_SHADOW_LINES)],
      c.2.addr ≠ Reg.DITH_SHADOW_FIRST1 := by decide
  exact hall (k, x) hm

/-- What `clearable` says of a page that has a CNT_CLR. -/
theorem clearable_facts {u : Unit} {off : Nat} (hunit : unitOfPage p = some u) (hpage : hdrPage p = p) (hp : p < u.page + u.count)
    (hoff : cntClrOffset u = some off) (hu : u ≠ .TEST) : off < 0x400 ∧ (writeActs.find? (·.1 == 4096 * p + off)).isNone = true ∧
      ¬ (u = .EDL_PORT ∧ off = 0x44) ∧ ¬ (u = .MEMC ∧ off % 16 = 12 ∧ 0x100 ≤ off) ∧
      (blockRow u (4096 * p + off)).any (fun r => !r.p && r.act != 0) = true ∧ inOrder ((countersOf u p).map (·.2)) = true ∧ p < 0x121 := by
  have hbound : p < 0x121 := by
    have hall : ∀ u ∈ Unit.all, u.page + u.count ≤ 0x121 := by decide
    exact Nat.lt_of_lt_of_le hp (hall u (List.mem_of_find?_eq_some hunit))
  have h := pages_clearable p hbound
  rw [clearable, hunit, Option.all_some, hpage, hoff, Option.all_some, bne_self_eq_false, decide_eq_true hp, beq_eq_false_iff_ne.2 hu] at h
  simp only [Bool.not_true, Bool.false_or, Bool.and_eq_true, decide_eq_true_eq, Bool.not_eq_true', Bool.and_eq_false_iff, beq_eq_false_iff_ne,
    decide_eq_false_iff_not] at h
  obtain ⟨⟨⟨⟨⟨hlow, hacts⟩, hport⟩, hmemc⟩, hrow⟩, horder⟩ := h
  exact ⟨hlow, hacts, by tauto, by tauto, hrow, horder, hbound⟩

theorem State.cntClr_write {u : Unit} {off : Nat} (hs : s.Serves u p) (hpage : hdrPage p = p) (hp : p < u.page + u.count)
    (hoff : cntClrOffset u = some off) (hu : u ≠ .TEST) : s.cntClrWrite port (4096 * p + off) w = s.cntClr u p w := by
  obtain ⟨hlow, hacts, hport, hmemc, hrow, -, hbound⟩ := clearable_facts hs.unit hpage hp hoff hu
  have haddr : (4096 * p + off) / 0x1000 = p ∧ (4096 * p + off) % 0x1000 = off := by omega
  have hlane := laneOfAddr_none (a := 4096 * p + off) (by omega)
  obtain ⟨r, hr, hbits⟩ := Option.any_eq_true _ _ |>.1 hrow
  rw [Bool.and_eq_true, Bool.not_eq_true', bne_iff_ne] at hbits
  have hserves : s.Serves u ((4096 * p + off) / 0x1000) := by rw [haddr.1]; exact hs
  have hnoFault : ¬ (u = .MEMC ∧ 0x110100 ≤ 4096 * p + off ∧ (4096 * p + off) % 16 = 12) := by
    rintro ⟨rfl, hlo, hmod⟩
    have hlast : p < 0x111 := hp
    exact hmemc ⟨rfl, by omega, by omega⟩
  have hwrite : s.hostWrite port (4096 * p + off) w = s.cntClr u p w := by
    rw [State.hostWrite_blockRow hserves hr (Or.inl hbits.1), State.writeReg, Option.isNone_iff_eq_none.1 hacts, hlane, haddr.1, haddr.2]
    dsimp only
    rw [if_neg hport, if_neg hnoFault, if_pos hbits.2]
  have hclr : isCntClr (4096 * p + off) = true := by
    have hdevice : (4096 * p + off) % 0x800000 = 4096 * p + off := Nat.mod_eq_of_lt (by omega)
    rw [isCntClr, hdevice, hlane, haddr.1, hs.unit]
    dsimp only
    rw [hoff, haddr.2]
    exact beq_self_eq_true _
  rw [State.cntClrWrite, if_pos hclr, hwrite]

theorem countersClear : Rules.CountersClear := by
  intro s u p off port w hs hpage hp hoff hu
  obtain ⟨-, -, -, -, -, horder, -⟩ := clearable_facts hs.unit hpage hp hoff hu
  have hclear := State.cleared_fld w (countersOf u p) horder s
  have hregs := State.cleared_regs w (countersOf u p) s
  have hexec : exec (.cntClr port p off w) s = .next (s.left ((s.cleared w (countersOf u p)).clearBeside u w)) := by
    rw [exec_cntClr, State.unheld_live hs.live, State.cntClr_write hs hpage hp hoff hu, State.cntClr_eq s hu]
  generalize s.cleared w (countersOf u p) = c at hclear hregs hexec
  obtain ⟨hcounts, hfld⟩ := c.clearBeside_effect u w
  generalize c.clearBeside u w = t at hcounts hfld hexec
  have hall : CountsOnly s t := hregs.counts hcounts
  rw [State.left_of_steady hall.steady] at hexec
  refine ⟨t, hexec, fun k x hm => ?_, hall⟩
  rw [hfld x (fun hd => dith_counters (p := p) (k := k) (hd ▸ hm)), hclear k x hm]

/-- Settles O21: a write of PRBS reaches links through `laneTaken`, which leaves every PRBS register; the rest is each
register's own. -/
theorem lanesAreTested : Obligations.LanesAreTested := ⟨scansAndTests, spreadWaits, countersClear⟩

end Sys2Proof.Machine
end

section
/-! PROOFS. What a port of EDL sends and holds (R271, R272, R279, R295). -/

namespace Sys2Proof.Machine

variable {s t u v : State} {a b k l m n p q : Nat} {w : Word} {x : Fld} {xs ys : List (Nat × Nat)}

theorem State.edlPort_set_same (s : State) (y : EdlPort) : (s.setEdlPort p y).edlPort p = y := by
  simp [State.edlPort, State.setEdlPort]

theorem State.edlPort_set_other (s : State) (y : EdlPort) (h : q ≠ p) : (s.setEdlPort p y).edlPort q = s.edlPort q := by
  simp [State.edlPort, State.setEdlPort, Cells.get_set_other _ _ _ _ _ h.symm]

/-! What has left. -/

/-- What a step sends on a port, in order. -/
def Sends (p : Nat) (xs : List (Nat × Nat)) (s t : State) : Prop :=
  ∃ new : List Output, t.out = new ++ s.out ∧
    (new.reverse.filter (fun o => o.kind == .edl && o.dst == p)).map (fun o => (o.data.getD 0 0, o.data.getD 1 0)) = xs

theorem Sends.of_out (h : t.out = s.out) : Sends p [] s t := ⟨[], h, rfl⟩

theorem Sends.trans (h : Sends p xs s t) (g : Sends p ys t u) : Sends p (xs ++ ys) s u := by
  obtain ⟨new, hout, hxs⟩ := h
  obtain ⟨later, hout', hys⟩ := g
  refine ⟨later ++ new, by rw [hout', hout, List.append_assoc], ?_⟩
  rw [List.reverse_append, List.filter_append, List.map_append, hxs, hys]

theorem Sends.sent (h : Sends p xs s t) : sentEdl s t p = xs := by
  obtain ⟨new, hout, hxs⟩ := h
  have hfresh : fresh s t = new.reverse := by
    rw [fresh, hout, List.length_append, Nat.add_sub_cancel, List.take_left]
  rw [sentEdl, hfresh, hxs]

theorem Sends.nil_trans (h : Sends p [] s t) (g : Sends p xs t u) : Sends p xs s u := h.trans g
theorem Sends.trans_nil (h : Sends p xs s t) (g : Sends p [] t u) : Sends p xs s u := by simpa using h.trans g

/-! Sending touches the lanes' scramblers, the ports' queues and what has left. -/

/-- Nothing differs but what a port's sending may touch: the scramblers of lanes, what ports hold, and what has left. -/
structure PortIo (s t : State) : Prop where
  state : ∃ o ph ports, t = { s with out := o, phy := ph, edl := { s.edl with ports := ports } }
  lane : ∀ l, t.lane l = { s.lane l with lfsr := (t.lane l).lfsr }
  port : ∀ q, t.edlPort q = { s.edlPort q with free := (t.edlPort q).free, queue := (t.edlPort q).queue, prog := (t.edlPort q).prog }

namespace PortIo

theorem refl (s : State) : PortIo s s := ⟨⟨s.out, s.phy, s.edl.ports, rfl⟩, fun _ => rfl, fun _ => rfl⟩

theorem andThen (h : PortIo s t) (g : PortIo t u) : PortIo s u := by
  refine ⟨?_, fun l => ?_, fun q => ?_⟩
  · obtain ⟨_, _, _, rfl⟩ := h.state
    obtain ⟨o, ph, ports, rfl⟩ := g.state
    exact ⟨o, ph, ports, rfl⟩
  · rw [g.lane l, h.lane l]
  · rw [g.port q, h.port q]

theorem each {α : Type} (l : List α) (f : α → State → State) (h : ∀ y v, PortIo v (f y v)) (s : State) : PortIo s (s.each l f) :=
  State.each_induct (PortIo s) l f (fun y v hv => andThen hv (h y v)) s (refl s)

theorem regs_eq (h : PortIo s t) : t.regs = s.regs := by obtain ⟨_, _, _, rfl⟩ := h.state; rfl
theorem act_eq (h : PortIo s t) : t.act = s.act := by obtain ⟨_, _, _, rfl⟩ := h.state; rfl
theorem now_eq (h : PortIo s t) : t.now = s.now := by obtain ⟨_, _, _, rfl⟩ := h.state; rfl
theorem ptr_eq (h : PortIo s t) : t.edl.ptr = s.edl.ptr := by obtain ⟨_, _, _, rfl⟩ := h.state; rfl
theorem tim_eq (h : PortIo s t) : t.tim = s.tim := by obtain ⟨_, _, _, rfl⟩ := h.state; rfl
theorem steady (h : PortIo s t) : Steady s t := by obtain ⟨_, _, _, rfl⟩ := h.state; exact ⟨Nat.le_refl _, rfl, rfl⟩
theorem rd (h : PortIo s t) (a : Nat) : t.rd a = s.rd a := State.rd_of_regs h.regs_eq a
theorem fld (h : PortIo s t) (x : Fld) : t.fld x = s.fld x := State.fld_of_regs h.regs_eq x

theorem carries (h : PortIo s t) (l : Nat) : t.laneCarries l = s.laneCarries l := by
  have hcur : t.laneInL0 l = s.laneInL0 l := congrArg (· == 0) (h.fld (Reg.PHY_LSTATE_CUR (phyBase l)))
  have htest : (t.lane l).test = (s.lane l).test := by rw [h.lane l]
  simp only [State.laneCarries, hcur, htest, State.looped, h.fld]

theorem blockTicks (h : PortIo s t) (p : Nat) : t.blockTicks p = s.blockTicks p := by
  rw [State.blockTicks, h.fld, State.blockTicks]

theorem portState (h : PortIo s t) (p : Nat) : t.portState p = s.portState p := h.fld _
theorem portKind (h : PortIo s t) (p : Nat) : t.portKind p = s.portKind p := by rw [State.portKind, h.port p, State.portKind]

end PortIo

section
variable (s)

theorem State.setPort_io (y : EdlPort) (h : y = { s.edlPort p with free := y.free, queue := y.queue, prog := y.prog }) :
    PortIo s (s.setEdlPort p y) := by
  refine ⟨⟨s.out, s.phy, _, rfl⟩, fun _ => rfl, fun q => ?_⟩
  by_cases hq : q = p
  · subst hq; rw [State.edlPort_set_same]; exact h
  · rw [State.edlPort_set_other _ _ hq]

theorem State.edlSend_io (hdr payload : Nat) : PortIo s (s.edlSend p hdr payload) := by
  unfold State.edlSend
  dsimp only
  generalize selfSyncRun 64 (s.lane (laneEdl p)).lfsr payload = e
  split
  · exact PortIo.refl s
  · refine ⟨⟨_, _, s.edl.ports, rfl⟩, fun l => ?_, fun _ => rfl⟩
    change (s.mapLane (laneEdl p) fun y => { y with lfsr := e.2 }).lane l = { s.lane l with
      lfsr := ((s.mapLane (laneEdl p) fun y => { y with lfsr := e.2 }).lane l).lfsr }
    rw [State.lane_mapLane]
    split <;> rfl

/-- A block leaves where the lane carries traffic, on its port alone. -/
theorem State.edlSend_sends (hdr payload q : Nat) (h : s.laneCarries (laneEdl p) = true) :
    Sends q (if p = q then [(hdr, payload)] else []) s (s.edlSend p hdr payload) := by
  refine ⟨[⟨.edl, p, [hdr, payload, (selfSyncRun 64 (s.lane (laneEdl p)).lfsr payload).1]⟩], ?_, ?_⟩
  · unfold State.edlSend
    dsimp only
    rw [h, if_neg (by decide)]
    rfl
  · by_cases hq : p = q
    · simp [hq]
    · simp [hq]

theorem State.edlSend_quiet (hdr payload : Nat) (h : p ≠ q) : Sends q [] s (s.edlSend p hdr payload) := by
  by_cases hc : s.laneCarries (laneEdl p) = true
  · simpa [h] using s.edlSend_sends hdr payload q hc
  · refine Sends.of_out ?_
    unfold State.edlSend
    dsimp only
    rw [if_pos (by simp [hc])]

theorem State.portBlock_io (at' : Nat) (i : EdlItem) (y : EdlPort)
    (h : y = { s.edlPort p with free := y.free, queue := y.queue, prog := y.prog }) : PortIo s (s.portBlock p at' i y) := by
  unfold State.portBlock
  split
  · exact s.setPort_io y h
  · refine PortIo.andThen (s.setPort_io _ ?_) (State.edlSend_io _ _ _)
    rw [h]

/-- What a port turns to is taken from what it holds. -/
theorem EdlPort.turn_io {x y : EdlPort} {i : EdlItem} (h : x.turn = some (i, y)) :
    y = { x with free := y.free, queue := y.queue, prog := y.prog } := by
  unfold EdlPort.turn at h
  extract_lets prog at h
  clear_value prog
  split at h
  · cases h; rfl
  · split at h
    · cases h; rfl
    · obtain ⟨c, -, hc⟩ := Option.map_eq_some_iff.1 h
      cases hc; rfl

end

theorem State.portRun_io (p floor : Nat) (go : EdlPort → Nat → Bool) (n : Nat) (s : State) : PortIo s (s.portRun p floor go n) := by
  induction n generalizing s with
  | zero => exact PortIo.refl s
  | succ n ih =>
    rw [State.portRun]
    split
    · split
      · exact PortIo.refl s
      case h_2 i y hturn => exact PortIo.andThen (s.portBlock_io _ i y (EdlPort.turn_io hturn)) (ih _)
    · exact PortIo.refl s

section
variable (s)

theorem State.portDrain_io (p : Nat) : PortIo s (s.portDrain p) := State.portRun_io ..

theorem State.portPush_io (p : Nat) (i : EdlItem) : PortIo s (s.portPush p i) :=
  ((s.portDrain_io p).andThen (State.setPort_io _ _ rfl)).andThen (State.portRun_io ..)

theorem State.portClear_io (p : Nat) : PortIo s (s.portClear p) := (s.portDrain_io p).andThen (State.setPort_io _ _ rfl)

theorem State.portSend_io (p : Nat) : PortIo s (s.portSend p xs) :=
  PortIo.andThen (s.setPort_io _ rfl) (PortIo.each _ _ (fun _ v => v.edlSend_io _ _) _)

theorem State.portControl_io (p place ctype body : Nat) : PortIo s (s.portControl p place ctype body) := s.portPush_io _ _

theorem State.portCmd_io (p place pid addr data tag : Nat) (rd enum : Bool) : PortIo s (s.portCmd p place pid rd enum addr data tag) :=
  s.portControl_io _ _ _ _

end

/-! A port that is free (R295). -/

theorem edlMbps_bounds (c : Nat) : 1600 ≤ edlMbps c ∧ edlMbps c ≤ 16000 := by
  by_cases h : c < 7
  · have hall : ∀ i < 7, 1600 ≤ edlMbps i ∧ edlMbps i ≤ 16000 := by decide
    exact hall c h
  · have hlast : edlMbps c = 16000 := List.getD_eq_default _ _ (by simp only [List.length_cons, List.length_nil]; omega)
    rw [hlast]
    decide

/-- A block of 66 bits takes between 4.125 and 41.25 ns. -/
theorem State.blockTicks_bounds (s : State) (p : Nat) : 0 < s.blockTicks p ∧ s.blockTicks p ≤ 10560 := by
  obtain ⟨hlo, hhi⟩ := edlMbps_bounds (s.fld (Reg.PHY_RATE_CUR (phyBase (laneEdl p))))
  rw [State.blockTicks]
  generalize edlMbps (s.fld (Reg.PHY_RATE_CUR (phyBase (laneEdl p)))) = r at hlo hhi
  rw [ceilDiv]
  constructor
  · exact Nat.div_pos (by omega) (by omega)
  · refine Nat.le_of_lt_succ (Nat.div_lt_of_lt_mul ?_)
    have hmul : 1600 * 10561 ≤ r * 10561 := Nat.mul_le_mul_right _ hlo
    omega

theorem State.portDrain_idle (hq : (s.edlPort p).queue = []) (hp : (s.edlPort p).prog = none) : s.portDrain p = s := by
  rw [State.portDrain, EdlPort.load, hq, hp]
  rfl

theorem portRun_stops (go : EdlPort → Nat → Bool) {floor : Nat} (h : go (s.edlPort p) (max floor (s.edlPort p).free) = false) (n : Nat) :
    s.portRun p floor go n = s := by
  cases n with
  | zero => rfl
  | succ n => rw [State.portRun, h, if_neg (by decide)]

/-- An item waits on a port that is still sending its last block. -/
theorem State.portPush_busy (i : EdlItem) (hq : (s.edlPort p).queue = []) (hp : (s.edlPort p).prog = none) (hfree : s.now < (s.edlPort p).free) :
    s.portPush p i = s.setEdlPort p { s.edlPort p with queue := [i] } := by
  rw [State.portPush, State.portDrain_idle hq hp, hq]
  refine portRun_stops _ ?_ _
  rw [State.edlPort_set_same]
  exact decide_eq_false (fun h => absurd (Nat.le_trans (Nat.le_max_right ..) h) (Nat.not_le.2 hfree))

/-- The only item that waits is what a port turns to. -/
theorem EdlPort.turn_single {x : EdlPort} {i : EdlItem} (hq : x.queue = [i]) (hp : x.prog = none) :
    x.turn = some (i, { x with queue := [], prog := none }) := by
  rw [EdlPort.turn, hq, hp]
  by_cases hplace : i.place == 1
  · simp [List.find?, hplace]
  · simp [List.find?, hplace, firstItem]

theorem portRun_step {go : EdlPort → Nat → Bool} {floor : Nat} {i : EdlItem} {y : EdlPort} (h : go (s.edlPort p) (max floor (s.edlPort p).free) = true)
    (ht : (s.edlPort p).turn = some (i, y)) (n : Nat) :
    s.portRun p floor go (n + 1) = (s.portBlock p (max floor (s.edlPort p).free) i y).portRun p floor go n := by
  rw [State.portRun, h, if_pos rfl, ht]

/-- What a port keeps of an item whose first block has gone. -/
def EdlItem.rest (i : EdlItem) (prog : Option EdlItem) : Option EdlItem :=
  if i.blocks.tail.isEmpty then prog else some { i with hold := 0, blocks := i.blocks.tail }

theorem State.portBlock_cons {i : EdlItem} {c : Nat × Nat} {later : List (Nat × Nat)} (s : State) (at' : Nat) (y : EdlPort) (hi : i.blocks = c :: later) :
    s.portBlock p at' i y = (s.setEdlPort p { y with free := at' + i.hold + s.blockTicks p, prog := i.rest y.prog }).edlSend p c.1
      (i.payload c.2 (at' + i.hold + s.blockTicks p)) := by
  rw [State.portBlock, EdlItem.rest, hi]
  rfl

/-- The port after the first block of the only item that waits on it. -/
def EdlPort.begun (y : EdlPort) (i : EdlItem) (fin : Nat) : EdlPort := { y with free := fin, queue := [], prog := i.rest none }

theorem edlSend_port (s : State) (hdr payload : Nat) : (s.edlSend p hdr payload).edlPort q = s.edlPort q := by
  unfold State.edlSend
  dsimp only
  split <;> rfl

/-- A port that a run finds with one item to send, and not to be asked again before its first block ends. -/
theorem portRun_once {go : EdlPort → Nat → Bool} {floor at' : Nat} {i : EdlItem} {c : Nat × Nat} {later : List (Nat × Nat)} {y : EdlPort}
    (hport : s.edlPort p = y) (hq : y.queue = [i]) (hp : y.prog = none) (hi : i.blocks = c :: later) (hat : max floor y.free = at')
    (hgo : go y at' = true)
    (hstop : ∀ z, go z (max floor (at' + i.hold + s.blockTicks p)) = false) (n : Nat) :
    s.portRun p floor go (n + 1) = (s.setEdlPort p (y.begun i (at' + i.hold + s.blockTicks p))).edlSend p c.1
      (i.payload c.2 (at' + i.hold + s.blockTicks p)) := by
  subst hport hat
  rw [portRun_step hgo (EdlPort.turn_single hq hp), State.portBlock_cons s _ _ hi]
  refine portRun_stops _ ?_ n
  rw [edlSend_port, State.edlPort_set_same]
  exact hstop _

/-- A port turned to what it was given: it holds the rest, and the first block has left where the lane carries traffic. -/
structure PortBegun (p : Nat) (i : EdlItem) (fin : Nat) (b : Nat × Nat) (s t : State) : Prop where
  io : PortIo s t
  port : t.edlPort p = (s.edlPort p).begun i fin
  sends : s.laneCarries (laneEdl p) = true → Sends p [b] s t
  other : ∀ q, q ≠ p → Sends q [] s t

theorem PortBegun.of_send {i : EdlItem} {fin hdr payload : Nat} (hio : PortIo s u) (hout : u.out = s.out)
    (hport : u.edlPort p = (s.edlPort p).begun i fin) : PortBegun p i fin (hdr, payload) s (u.edlSend p hdr payload) where
  io := hio.andThen (u.edlSend_io _ _)
  port := (edlSend_port u hdr payload).trans hport
  sends h := (Sends.of_out hout).nil_trans (by simpa using u.edlSend_sends (p := p) hdr payload p ((hio.carries _).trans h))
  other _ hq := (Sends.of_out hout).nil_trans (u.edlSend_quiet _ _ hq.symm)

theorem portRun_begins {go : EdlPort → Nat → Bool} {floor at' : Nat} {i : EdlItem} {c : Nat × Nat} {later : List (Nat × Nat)}
    (hq : (s.edlPort p).queue = [i]) (hp : (s.edlPort p).prog = none) (hi : i.blocks = c :: later) (hat : max floor (s.edlPort p).free = at')
    (hgo : go (s.edlPort p) at' = true) (hstop : ∀ z, go z (max floor (at' + i.hold + s.blockTicks p)) = false) (n : Nat) :
    PortBegun p i (at' + i.hold + s.blockTicks p) (c.1, i.payload c.2 (at' + i.hold + s.blockTicks p)) s (s.portRun p floor go (n + 1)) := by
  rw [portRun_once rfl hq hp hi hat hgo hstop n]
  refine PortBegun.of_send (s.setPort_io _ rfl) rfl (s.edlPort_set_same _)

/-- What a free port sends of an item at once: the first block. -/
theorem State.portPush_free {i : EdlItem} {c : Nat × Nat} {later : List (Nat × Nat)} (s : State) (hfree : portFree s p s.now)
    (hi : i.blocks = c :: later) :
    PortBegun p i (s.now + i.hold + s.blockTicks p) (c.1, i.payload c.2 (s.now + i.hold + s.blockTicks p)) s (s.portPush p i) := by
  obtain ⟨hq, hp, hle⟩ := hfree
  have hticks := (s.blockTicks_bounds p).1
  have hload : (({ s.edlPort p with queue := [i] } : EdlPort)).load = later.length + 1 + 1 := by
    simp [EdlPort.load, hp, hi]
  rw [State.portPush, State.portDrain_idle hq hp, hq, List.nil_append, State.edlPort_set_same, hload]
  have hset : PortIo s (s.setEdlPort p { s.edlPort p with queue := [i] }) := s.setPort_io _ rfl
  have hport := s.edlPort_set_same (p := p) { s.edlPort p with queue := [i] }
  have hout : (s.setEdlPort p { s.edlPort p with queue := [i] }).out = s.out := rfl
  generalize s.setEdlPort p { s.edlPort p with queue := [i] } = u at hset hport hout ⊢
  rw [hset.now_eq, ← hset.blockTicks] at *
  have hbegun := portRun_begins (s := u) (floor := s.now) (at' := s.now) (go := fun _ t => decide (t ≤ s.now)) (by rw [hport]) (by rw [hport, hp])
    hi (by rw [hport]; exact max_eq_left hle) (decide_eq_true (Nat.le_refl _)) (fun _ => decide_eq_false (by omega)) (later.length + 1)
  refine ⟨hset.andThen hbegun.io, ?_, fun hc => ?_, fun q hq => (Sends.of_out hout).nil_trans (hbegun.other q hq)⟩
  · rw [hbegun.port, hport]
    rfl
  · exact (Sends.of_out hout).nil_trans (hbegun.sends ((hset.carries _).trans hc))

/-! Training patterns (R296). -/

theorem foldl_logs {f : List (List Nat) × Nat → Nat × Nat → List (List Nat) × Nat} (hf : ∀ a b, ∃ w, (f a b).1 = [b.1, b.2, w] :: a.1)
    (l : List (Nat × Nat)) (a : List (List Nat) × Nat) :
    ∃ new, (l.foldl f a).1 = new ++ a.1 ∧ new.reverse.map (fun d => (d.getD 0 0, d.getD 1 0)) = l := by
  induction l generalizing a with
  | nil => exact ⟨[], rfl, rfl⟩
  | cons b l ih =>
    obtain ⟨w, hw⟩ := hf a b
    obtain ⟨new, hnew, hl⟩ := ih (f a b)
    refine ⟨new ++ [[b.1, b.2, w]], by rw [List.foldl_cons, hnew, hw, List.append_assoc]; rfl, ?_⟩
    rw [List.reverse_append, List.map_append, hl]
    rfl

theorem logged {f : List (List Nat) × Nat → Nat × Nat → List (List Nat) × Nat} {l : List (Nat × Nat)} {acc acc' : List (List Nat)} {d d' : Nat}
    (h : l.foldl f (acc, d) = (acc', d')) (hf : ∀ a b, ∃ w, (f a b).1 = [b.1, b.2, w] :: a.1) :
    ∃ new, acc' = new ++ acc ∧ new.reverse.map (fun d => (d.getD 0 0, d.getD 1 0)) = l := by
  obtain ⟨new, hnew, hl⟩ := foldl_logs hf l (acc, d)
  rw [h] at hnew
  exact ⟨new, hnew, hl⟩

/-- The groups leave in order, SEQ going up. -/
theorem patternRun_logs (n seq d : Nat) (acc : List (List Nat)) : ∃ new, (patternRun n seq d acc).1 = new ++ acc ∧
    new.reverse.map (fun d => (d.getD 0 0, d.getD 1 0)) = (List.range n).flatMap (fun i => patternGroup (i + seq)) := by
  induction n generalizing seq d acc with
  | zero => exact ⟨[], rfl, rfl⟩
  | succ n ih =>
    rw [patternRun]
    split
    next acc' d' heq =>
      obtain ⟨first, hfirst, hgroup⟩ := logged heq fun a b => ⟨(selfSyncRun 64 a.2 b.2).1, rfl⟩
      obtain ⟨new, hnew, hlater⟩ := ih (seq + 1) d' acc'
      refine ⟨new ++ first, by rw [hnew, hfirst, List.append_assoc], ?_⟩
      rw [List.reverse_append, List.map_append, hgroup, hlater, List.range_succ_eq_map, List.flatMap_cons, List.flatMap_map, Nat.zero_add]
      simp only [Nat.succ_eq_add_one, Nat.add_right_comm _ 1 seq, Nat.add_assoc]

/-- The lane's scrambler and what has left after some groups. -/
def State.patternsOut (s : State) (p : Nat) (r : List (List Nat) × Nat) : State :=
  { s.mapLane (laneEdl p) (fun y => { y with lfsr := r.2 }) with out := r.1.map (fun d => (⟨.edl, p, d⟩ : Output)) ++ s.out }

theorem State.patternsOut_io (s : State) (p : Nat) (r : List (List Nat) × Nat) : PortIo s (s.patternsOut p r) := by
  refine ⟨⟨_, _, s.edl.ports, rfl⟩, fun l => ?_, fun _ => rfl⟩
  change (s.mapLane (laneEdl p) fun y => { y with lfsr := r.2 }).lane l = { s.lane l with
    lfsr := ((s.mapLane (laneEdl p) fun y => { y with lfsr := r.2 }).lane l).lfsr }
  rw [State.lane_mapLane]
  split <;> rfl

theorem State.sendPatterns_idle (n seq : Nat) (h : s.laneCarries (laneEdl p) = false) : s.sendPatterns p n seq = s :=
  if_pos (by rw [h]; rfl)

theorem State.sendPatterns_eq (n seq : Nat) (h : s.laneCarries (laneEdl p) = true) : ∃ y r, s.sendPatterns p n seq = (s.patternsOut p r).setEdlPort p y ∧
    r = patternRun n seq (s.lane (laneEdl p)).lfsr [] ∧ y = { s.edlPort p with free := y.free } :=
  ⟨_, _, if_neg (by rw [h]; decide), rfl, rfl⟩

theorem State.sendPatterns_io (s : State) (p n seq : Nat) : PortIo s (s.sendPatterns p n seq) := by
  by_cases h : s.laneCarries (laneEdl p) = true
  · obtain ⟨y, r, heq, -, hy⟩ := State.sendPatterns_eq n seq h
    rw [heq]
    refine (s.patternsOut_io p r).andThen (State.setPort_io _ y ?_)
    rw [hy]
    rfl
  · rw [State.sendPatterns_idle n seq (by simpa using h)]
    exact PortIo.refl s

/-- The groups of a training leave in order, where the lane carries traffic. -/
theorem State.sendPatterns_sends (n seq : Nat) (h : s.laneCarries (laneEdl p) = true) :
    Sends p ((List.range n).flatMap fun i => patternGroup (i + seq)) s (s.sendPatterns p n seq) := by
  obtain ⟨y, r, heq, rfl, -⟩ := State.sendPatterns_eq n seq h
  obtain ⟨new, hnew, hlist⟩ := patternRun_logs n seq (s.lane (laneEdl p)).lfsr []
  rw [List.append_nil] at hnew
  refine ⟨new.map (fun d => (⟨.edl, p, d⟩ : Output)), ?_, ?_⟩
  · rw [heq, ← hnew]
    rfl
  · rw [← hlist, ← List.map_reverse, List.filter_eq_self.2 (fun o ho => by
      obtain ⟨d, -, rfl⟩ := List.mem_map.1 ho
      simp), List.map_map]
    rfl

end Sys2Proof.Machine
end

section
/-! PROOFS. Attempts of EDL ports: how they start and fail (R296, R300). -/

namespace Sys2Proof.Machine

variable {s t u v : State} {a b k l m n p q attempt : Nat} {w : Word} {x : Fld} {xs ys : List (Nat × Nat)}

/-! What a change of lanes leaves of the other registers. -/

/-- Registers that no training writes in a lane's PHY block: neither LSTATE, RATE nor TRANS_CNT. -/
abbrev offLane (a : Nat) : Prop := (a % 0x100 ≠ 0 ∧ a % 0x100 ≠ 4 ∧ a % 0x100 ≠ 0x28) ∨ 0x5000000 ≤ a

theorem block_below (hl : l < 106) : phyBase l < 0x200000 := by
  unfold phyBase
  repeat' split
  all_goals omega

theorem block_not_off (hl : l < 106) (off : Nat) (hoff : off = 0 ∨ off = 4 ∨ off = 0x28) (ha : offLane a) : phyBase l + off ≠ a := by
  have halign := phyBase_aligned l
  have hbelow := block_below hl
  simp only [offLane] at ha
  omega

theorem State.laneProto_off (hl : l < 106) (ha : offLane a) : (s.laneProto l n).rd a = s.rd a :=
  s.laneProto_rd (block_not_off hl 0 (by decide) ha) (block_not_off hl 0x28 (by decide) ha)

theorem laneEdl_lt (hp : p < 64) : laneEdl p < 106 := by rw [laneEdl]; omega
theorem laneRet_lt (hp : p < 64) : laneRet (p / 4) < 106 := by rw [laneRet]; omega

theorem State.busFollow_off (hp : p < 64) (ha : offLane a) : (s.busFollow (p / 4)).rd a = s.rd a := s.laneProto_off (laneRet_lt hp) ha

theorem portState_off (p : Nat) : offLane (Reg.EDL_PORT_STATE p) := by
  left
  rw [Reg.EDL_PORT_STATE]
  omega

/-- A field of a register beside one that is put, by their places. -/
theorem fld_beside (i j m n : Nat) (h : i + m ≤ 32 ∧ (j + n ≤ i ∨ i + m ≤ j)) {c : Nat} : (t.put ⟨a, i, m⟩ c).fld ⟨a, j, n⟩ = t.fld ⟨a, j, n⟩ :=
  State.fld_put_apart ⟨h.1, Or.inr h.2⟩

theorem fld_taken (i m : Nat) (h : i + m ≤ 32) {c : Nat} (hc : c < 2 ^ m) : (t.put ⟨a, i, m⟩ c).fld ⟨a, i, m⟩ = c :=
  (State.fld_put_mod h).trans (Nat.mod_eq_of_lt hc)

/-! The start of an attempt (R296, R300). -/

/-- What an attempt of a port leaves: registers beside the lanes' own and its STATE. -/
structure PortOnly (p : Nat) (s t : State) : Prop where
  now : t.now = s.now
  rd : ∀ a, offLane a → a ≠ Reg.EDL_PORT_STATE p → t.rd a = s.rd a

namespace PortOnly

theorem refl (p : Nat) (s : State) : PortOnly p s s := ⟨rfl, fun _ _ _ => rfl⟩
theorem andThen (h : PortOnly p s t) (g : PortOnly p t u) : PortOnly p s u :=
  ⟨g.now.trans h.now, fun a ha hne => (g.rd a ha hne).trans (h.rd a ha hne)⟩
theorem fld (h : PortOnly p s t) (x : Fld) (hx : offLane x.addr) (hne : x.addr ≠ Reg.EDL_PORT_STATE p) : t.fld x = s.fld x := by
  rw [State.fld, h.rd _ hx hne, State.fld]
theorem portState (h : PortOnly p s t) (hq : q ≠ p) : t.portState q = s.portState q :=
  h.fld (Reg.EDL_PORT_STATE_STATE q) (portState_off q) (by simp only [Reg.EDL_PORT_STATE_STATE, Reg.EDL_PORT_STATE]; omega)

end PortOnly

theorem PortIo.only (h : PortIo s t) (p : Nat) : PortOnly p s t := ⟨h.now_eq, fun a _ _ => h.rd a⟩

/-- STATE of a port as an attempt that starts shows it, at the highest rate of its lane. -/
def State.startShown (s : State) (p attempt : Nat) : State :=
  let b := phyBase (laneEdl p)
  (((s.put (Reg.PHY_RATE_CUR b) (min 6 (s.fld (Reg.PHY_RATE_MAX b)))).setAttempt p attempt).setPortState p portTRAINING).put
    (Reg.EDL_PORT_STATE_FOUND p) 0

/-- A port that begins afresh. -/
def State.startFresh (s : State) (p : Nat) : State :=
  let c := s.portClear p
  c.setEdlPort p { c.edlPort p with got := [], offer := none, misses := 0, since := c.now, pattern := none }

/-- Its lane and its return bus are asked for. -/
def State.startLanes (s : State) (p : Nat) : State := (s.laneProto (laneEdl p) 0).busFollow (p / 4)

/-- The first group, on a lane that is up. -/
def State.startPatterns (s : State) (p : Nat) : State := if s.laneInL0 (laneEdl p) then s.portPatterns p else s

theorem State.portStart_eq (s : State) (p attempt : Nat) :
    s.portStart p attempt = (((s.startShown p attempt).startFresh p).startLanes p).startPatterns p := rfl

/-- STATE of a port shows a state, an attempt and partners found. -/
structure PortShows (p st attempt found : Nat) (t : State) : Prop where
  state : t.portState p = st
  attempt : t.fld (Reg.EDL_PORT_STATE_ATTEMPT p) = attempt
  found : t.fld (Reg.EDL_PORT_STATE_FOUND p) = found

theorem PortShows.of_rd {st found : Nat} (h : PortShows p st attempt found s) (hrd : t.rd (Reg.EDL_PORT_STATE p) = s.rd (Reg.EDL_PORT_STATE p)) :
    PortShows p st attempt found t := by
  have hfld : ∀ y : Fld, y.addr = Reg.EDL_PORT_STATE p → t.fld y = s.fld y := fun y hy => by rw [State.fld, hy, hrd, ← hy, State.fld]
  exact ⟨(hfld _ rfl).trans h.state, (hfld _ rfl).trans h.attempt, (hfld _ rfl).trans h.found⟩

theorem State.startShown_effect (s : State) (hp : p < 64) (attempt : Nat) (ha : attempt < 16) :
    LaneWork s (s.startShown p attempt) ∧ PortOnly p s (s.startShown p attempt) ∧ PortShows p portTRAINING attempt 0 (s.startShown p attempt) := by
  have hwork : LaneWork s (s.startShown p attempt) :=
    (((s.put_laneWork _ _).trans (State.put_laneWork _ _ _)).trans (State.put_laneWork _ _ _)).trans (State.put_laneWork _ _ _)
  refine ⟨hwork, ⟨hwork.now_eq, fun b hb hne => ?_⟩, ?_, ?_, ?_⟩ <;> unfold State.startShown State.setAttempt State.setPortState <;> dsimp only
  · rw [State.rd_put_other (x := Reg.EDL_PORT_STATE_FOUND p) hne.symm, State.rd_put_other (x := Reg.EDL_PORT_STATE_STATE p) hne.symm,
      State.rd_put_other (x := Reg.EDL_PORT_STATE_ATTEMPT p) hne.symm, State.rd_put_other (block_not_off (laneEdl_lt hp) 4 (by decide) hb)]
  · rw [State.portState, Reg.EDL_PORT_STATE_STATE, Reg.EDL_PORT_STATE_FOUND, fld_beside 8 0 7 3 (by decide),
      fld_taken 0 3 (by decide) (by decide)]
  · rw [Reg.EDL_PORT_STATE_STATE, Reg.EDL_PORT_STATE_FOUND, Reg.EDL_PORT_STATE_ATTEMPT, fld_beside 8 4 7 4 (by decide),
      fld_beside 0 4 3 4 (by decide), fld_taken 4 4 (by decide) ha]
  · rw [Reg.EDL_PORT_STATE_FOUND, fld_taken 8 7 (by decide) (by decide)]

/-- A port that begins afresh: only what it holds differs. -/
theorem State.startFresh_effect (s : State) (p : Nat) : (s.startFresh p).regs = s.regs ∧ (s.startFresh p).now = s.now ∧
    ((s.startFresh p).edlPort p).since = s.now ∧ ((s.startFresh p).edlPort p).held = (s.edlPort p).held := by
  have hio := s.portClear_io p
  unfold State.startFresh
  dsimp only
  generalize s.portClear p = c at hio ⊢
  refine ⟨hio.regs_eq, hio.now_eq, ?_, ?_⟩ <;> rw [State.edlPort_set_same]
  · exact hio.now_eq
  · change (c.edlPort p).held = _
    rw [hio.port p]

theorem State.startLanes_effect (s : State) (hp : p < 64) : LaneWork s (s.startLanes p) ∧
    ∀ a, offLane a → (s.startLanes p).rd a = s.rd a :=
  ⟨(s.laneProto_laneWork _ _).trans (State.laneProto_laneWork _ _ _), fun _ ha =>
    (State.busFollow_off hp ha).trans (s.laneProto_off (laneEdl_lt hp) ha)⟩

theorem State.startPatterns_effect (s : State) (p : Nat) : (s.startPatterns p).regs = s.regs ∧ (s.startPatterns p).now = s.now ∧
    ((s.startPatterns p).edlPort p).since = (s.edlPort p).since ∧ ((s.startPatterns p).edlPort p).held = (s.edlPort p).held := by
  unfold State.startPatterns
  split
  · unfold State.portPatterns
    have hio := (s.setEdlPort p { s.edlPort p with pattern := some s.now }).sendPatterns_io p 1 0
    generalize (s.setEdlPort p { s.edlPort p with pattern := some s.now }).sendPatterns p 1 0 = c at hio
    refine ⟨hio.regs_eq, hio.now_eq, ?_, ?_⟩ <;> rw [hio.port p, State.edlPort_set_same]
  · exact ⟨rfl, rfl, rfl, rfl⟩

/-- An attempt that starts: TRAINING, with its number, and everything begins afresh on the port. -/
structure PortStarted (p attempt : Nat) (s t : State) : Prop where
  only : PortOnly p s t
  shows : PortShows p portTRAINING attempt 0 t
  since : (t.edlPort p).since = s.now
  held : (t.edlPort p).held = (s.edlPort p).held

theorem State.portStart_started (s : State) (hp : p < 64) (ha : attempt < 16) : PortStarted p attempt s (s.portStart p attempt) := by
  obtain ⟨hwork, honly, hshows⟩ := s.startShown_effect hp attempt ha
  have hedl : (s.startShown p attempt).edlPort p = s.edlPort p := by obtain ⟨_, _, h⟩ := hwork; rw [State.edlPort, h, State.edlPort]
  rw [State.portStart_eq]
  generalize s.startShown p attempt = c1 at honly hshows hedl ⊢
  obtain ⟨hregs2, hnow2, hsince2, hheld2⟩ := c1.startFresh_effect p
  generalize c1.startFresh p = c2 at hregs2 hnow2 hsince2 hheld2 ⊢
  obtain ⟨hwork3, hrd3⟩ := c2.startLanes_effect hp
  have hedl3 : (c2.startLanes p).edlPort p = c2.edlPort p := by obtain ⟨_, _, h⟩ := hwork3; rw [State.edlPort, h, State.edlPort]
  have hnow3 := hwork3.now_eq
  generalize c2.startLanes p = c3 at hrd3 hedl3 hnow3 ⊢
  obtain ⟨hregs4, hnow4, hsince4, hheld4⟩ := c3.startPatterns_effect p
  generalize c3.startPatterns p = c4 at hregs4 hnow4 hsince4 hheld4 ⊢
  have hrd : ∀ a, offLane a → c4.rd a = c1.rd a := fun a ha => by
    rw [State.rd_of_regs hregs4, hrd3 a ha, State.rd_of_regs hregs2]
  refine ⟨honly.andThen ⟨by rw [hnow4, hnow3, hnow2], fun a ha _ => hrd a ha⟩, hshows.of_rd (hrd _ (portState_off p)), ?_, ?_⟩
  · rw [hsince4, hedl3, hsince2, honly.now]
  · rw [hheld4, hedl3, hheld2, hedl]

/-! The end of an attempt that fails (R300). -/

theorem State.offerBack_port (s : State) (p q : Nat) : (s.offerBack p).edlPort q = if q = p then { s.edlPort p with offer := none } else s.edlPort q := by
  have hset : (s.setEdlPort p { s.edlPort p with offer := none }).edlPort q = if q = p then { s.edlPort p with offer := none } else s.edlPort q := by
    split
    case isTrue h => rw [h, State.edlPort_set_same]
    case isFalse h => rw [State.edlPort_set_other _ _ h]
  unfold State.offerBack
  dsimp only
  split
  · split <;> exact hset
  · exact hset

theorem State.offerBack_now (s : State) (p : Nat) : (s.offerBack p).now = s.now := by
  unfold State.offerBack
  dsimp only
  split
  · split <;> rfl
  · rfl

theorem trainFails_off (p : Nat) : offLane (Reg.EDL_PORT_TRAIN_FAILS p) := by
  left
  rw [Reg.EDL_PORT_TRAIN_FAILS]
  omega

/-- Every port keeps the IDs of the walk. -/
def State.walkHeld (s : State) : State :=
  s.each (List.range 64) fun p s => s.setEdlPort p { s.edlPort p with held := some ((s.edlPort p).held.getD (s.edlPort p).got) }

/-- The walk is over, and tells so. -/
def State.walkOver (s : State) : State :=
  { (s.put Reg.EDL_ENUM_STATUS_BUSY 0).raise 0x70 0 with edl := { s.edl with walking := false } }

theorem State.walkCheck_cases (s : State) : s.walkCheck = s ∨ s.walkCheck = s.walkHeld.walkOver := by
  unfold State.walkCheck
  split
  · right
    rw [State.walkOver, State.walkHeld]
  · exact Or.inl rfl

/-- Ports differ in the IDs that they keep alone. -/
structure HeldOnly (s t : State) : Prop where
  regs : t.regs = s.regs
  now : t.now = s.now
  offer : ∀ q, (t.edlPort q).offer = (s.edlPort q).offer

theorem HeldOnly.set (h : HeldOnly s t) (p : Nat) (ids : Option (List Nat)) : HeldOnly s (t.setEdlPort p { t.edlPort p with held := ids }) := by
  refine ⟨h.regs, h.now, fun q => ?_⟩
  by_cases hq : q = p
  · rw [hq, State.edlPort_set_same]; exact h.offer p
  · rw [State.edlPort_set_other _ _ hq]; exact h.offer q

theorem State.walkHeld_only (s : State) : HeldOnly s s.walkHeld := by
  unfold State.walkHeld
  exact State.each_induct (HeldOnly s) _ _ (fun p _ ht => ht.set p _) s ⟨rfl, rfl, fun _ => rfl⟩

theorem edl_set (u : State) (c : EdlState) : ({ u with edl := c } : State).regs = u.regs ∧ ({ u with edl := c } : State).now = u.now ∧
    ∀ q, ({ u with edl := c } : State).edlPort q = Cells.get (fun _ => EdlPort.atReset) c.ports q := ⟨rfl, rfl, fun _ => rfl⟩

theorem State.walkOver_effect (s : State) : s.walkOver.now = s.now ∧
    (∀ a, a ≠ Reg.EDL_ENUM_STATUS → a ≠ Reg.HDR_IRQ_RAW 0x70 → s.walkOver.rd a = s.rd a) ∧ ∀ q, s.walkOver.edlPort q = s.edlPort q := by
  have honly := (s.put_onlyRegs Reg.EDL_ENUM_STATUS_BUSY 0).trans (State.raise_onlyRegs _ 0x70 0)
  have hrd : ∀ a, a ≠ Reg.EDL_ENUM_STATUS → a ≠ Reg.HDR_IRQ_RAW 0x70 → ((s.put Reg.EDL_ENUM_STATUS_BUSY 0).raise 0x70 0).rd a = s.rd a :=
    fun a ha hraw => (State.raise_rd_other _ _ _ _ (by rw [show hdrPage 0x70 = 0x70 by decide]; exact Ne.symm hraw)).trans
      (State.rd_put_other (Ne.symm ha))
  unfold State.walkOver
  generalize (s.put Reg.EDL_ENUM_STATUS_BUSY 0).raise 0x70 0 = u at honly hrd
  obtain ⟨hregs, hnow, hport⟩ := edl_set u { s.edl with walking := false }
  exact ⟨hnow.trans honly.now_eq, fun a ha hraw => (State.rd_of_regs hregs a).trans (hrd a ha hraw), hport⟩

/-- The check of a walk leaves every offer, and registers but EDL's own. -/
theorem State.walkCheck_effect (s : State) : s.walkCheck.now = s.now ∧
    (∀ a, a ≠ Reg.EDL_ENUM_STATUS → a ≠ Reg.HDR_IRQ_RAW 0x70 → s.walkCheck.rd a = s.rd a) ∧
    ∀ q, (s.walkCheck.edlPort q).offer = (s.edlPort q).offer := by
  rcases s.walkCheck_cases with h | h <;> rw [h]
  · exact ⟨rfl, fun _ _ _ => rfl, fun _ => rfl⟩
  · obtain ⟨hregs, hnow, hoffer⟩ := s.walkHeld_only
    generalize s.walkHeld = c at hregs hnow hoffer
    obtain ⟨hnow', hrd, hport⟩ := c.walkOver_effect
    exact ⟨hnow'.trans hnow, fun a ha hraw => (hrd a ha hraw).trans (State.rd_of_regs hregs a), fun q => by rw [hport q, hoffer q]⟩

theorem OnlyRegs.edlPort_eq (h : OnlyRegs s t) : t.edlPort q = s.edlPort q := by
  obtain ⟨_, _, _, rfl⟩ := h
  rfl

theorem LaneWork.edlPort_eq (h : LaneWork s t) : t.edlPort q = s.edlPort q := by
  obtain ⟨_, _, rfl⟩ := h
  rfl

theorem ctrl_off (p : Nat) : offLane (Reg.HDR_CTRL (0xA0 + p)) := by
  left
  rw [Reg.HDR_CTRL]
  omega

/-- A port that fails for good: FAILED, its lane and its bus let go, and told. -/
theorem State.portFail_effect (s : State) (hp : p < 64) : (s.portFail p).now = s.now ∧ (s.portFail p).portState p = portFAILED ∧
    (∀ a, offLane a → a ≠ Reg.EDL_PORT_STATE p → a ≠ Reg.HDR_IRQ_RAW (0xA0 + p) → (s.portFail p).rd a = s.rd a) ∧
    (∀ q, ((s.portFail p).edlPort q).offer = (s.edlPort q).offer) ∧
    (s.gateClosed (0xA0 + p) = false → raised (s.portFail p) (0xA0 + p) 2) := by
  have hpage : hdrPage (portPage p) = 0xA0 + p := by
    rw [portPage, hdrPage, if_neg]
    simp only [Bool.and_eq_true, decide_eq_true_eq, not_and, Nat.not_lt]
    omega
  have hio := s.portClear_io p
  unfold State.portFail
  generalize s.portClear p = c at hio ⊢
  have hstate : (c.setPortState p portFAILED).portState p = portFAILED := fld_taken 0 3 (by decide) (by decide)
  have hput : ∀ a, a ≠ Reg.EDL_PORT_STATE p → (c.setPortState p portFAILED).rd a = c.rd a := fun a ha => State.rd_put_other (Ne.symm ha)
  have hrd : ∀ a, offLane a → (((c.setPortState p portFAILED).laneProto (laneEdl p) 1).busFollow (p / 4)).rd a = (c.setPortState p portFAILED).rd a :=
    fun a ha => (State.busFollow_off hp ha).trans (State.laneProto_off (laneEdl_lt hp) ha)
  have hwork : LaneWork c (((c.setPortState p portFAILED).laneProto (laneEdl p) 1).busFollow (p / 4)) :=
    ((c.put_laneWork _ _).trans (State.laneProto_laneWork _ _ _)).trans (State.laneProto_laneWork _ _ _)
  generalize c.setPortState p portFAILED = c1 at hstate hput hrd hwork ⊢
  generalize (c1.laneProto (laneEdl p) 1).busFollow (p / 4) = d at hrd hwork ⊢
  have hraise := d.raise_onlyRegs (portPage p) 2
  have hraw : ∀ a, a ≠ Reg.HDR_IRQ_RAW (0xA0 + p) → (d.raise (portPage p) 2).rd a = d.rd a := fun a ha =>
    State.raise_rd_other _ _ _ _ (by rw [hpage]; exact Ne.symm ha)
  have hkept : ∀ a, offLane a → a ≠ Reg.EDL_PORT_STATE p → a ≠ Reg.HDR_IRQ_RAW (0xA0 + p) → (d.raise (portPage p) 2).rd a = s.rd a :=
    fun a ha hne hr => by rw [hraw a hr, hrd a ha, hput a hne, hio.rd]
  refine ⟨?_, ?_, hkept, fun q => ?_, fun hgate => ?_⟩
  · rw [hraise.now_eq, hwork.now_eq, hio.now_eq]
  · have hne : Reg.EDL_PORT_STATE p ≠ Reg.HDR_IRQ_RAW (0xA0 + p) := by
      simp only [Reg.EDL_PORT_STATE, Reg.HDR_IRQ_RAW]
      omega
    refine Eq.trans ?_ hstate
    rw [State.portState, State.fld, Reg.EDL_PORT_STATE_STATE, hraw _ hne, hrd _ (portState_off p)]
    rfl
  · rw [hraise.edlPort_eq, hwork.edlPort_eq, hio.port q]
  · have hgate' : d.gateClosed (portPage p) = false := by
      refine Eq.trans (State.gateClosed_congr ?_) hgate
      rw [hpage, hrd _ (ctrl_off p), hput _ (by simp only [Reg.HDR_CTRL, Reg.EDL_PORT_STATE]; omega), hio.rd]
    have hset := d.fld_raise_self hgate' (n := 2) (by decide)
    rw [hpage] at hset
    exact hset

end Sys2Proof.Machine
end

section
/-! PROOFS. Failed attempts of EDL ports, their retries, and RETRAIN (R300). -/

namespace Sys2Proof.Machine

variable {s t u v : State} {a b k l m n p q attempt port : Nat} {w : Word} {x : Fld}

theorem State.left_edlPort (s t : State) (p : Nat) : (s.left t).edlPort p = t.edlPort p := rfl
theorem State.left_portState (s t : State) (p : Nat) : (s.left t).portState p = t.portState p := rfl

theorem fld_same (x : Fld) (h : t.rd x.addr = s.rd x.addr) : t.fld x = s.fld x := by rw [State.fld, h, State.fld]

theorem portPage_hdr (hp : p < 64) : hdrPage (0xA0 + p) = 0xA0 + p := by
  rw [hdrPage, if_neg]
  simp only [Bool.and_eq_true, decide_eq_true_eq, not_and, Nat.not_lt]
  omega

theorem trainFails_page (hp : p < 64) : hdrPage (Reg.EDL_PORT_TRAIN_FAILS p / 0x1000) = 0xA0 + p := by
  rw [← portPage_hdr hp, Reg.EDL_PORT_TRAIN_FAILS]
  congr 1
  omega

theorem trainFails_ne_raw (hp : p < 64) : Reg.HDR_IRQ_RAW (hdrPage (Reg.EDL_PORT_TRAIN_FAILS p / 0x1000)) ≠ Reg.EDL_PORT_TRAIN_FAILS p := by
  rw [trainFails_page hp, Reg.HDR_IRQ_RAW, Reg.EDL_PORT_TRAIN_FAILS]
  omega

/-- What an attempt that fails leaves of its port, before it is known whether it was the last. -/
structure AttemptOver (p : Nat) (s t : State) : Prop where
  now : t.now = s.now
  state : t.portState p = portWAIT
  attempt : t.fld (Reg.EDL_PORT_STATE_ATTEMPT p) = s.fld (Reg.EDL_PORT_STATE_ATTEMPT p)
  fails : counted s t (Reg.EDL_PORT_TRAIN_FAILS p) 1
  offer : (t.edlPort p).offer = none
  gate : t.gateClosed (0xA0 + p) = s.gateClosed (0xA0 + p)

theorem AttemptOver.io (h : AttemptOver p s t) (g : PortIo t u) : AttemptOver p s u :=
  ⟨g.now_eq.trans h.now, (g.portState p).trans h.state, (g.fld _).trans h.attempt, counted_trans_left (g.rd _) h.fails,
    by rw [g.port p]; exact h.offer, (State.gateClosed_congr (g.rd _)).trans h.gate⟩

theorem State.attemptWaits_over (s : State) (hp : p < 64) : AttemptOver p s (s.attemptWaits p) := by
  have hraw : Reg.HDR_IRQ_RAW (0xA0 + p) ≠ Reg.EDL_PORT_STATE p := by
    rw [Reg.HDR_IRQ_RAW, Reg.EDL_PORT_STATE]
    omega
  have hfails : Reg.EDL_PORT_TRAIN_FAILS p ≠ Reg.EDL_PORT_STATE p := by
    rw [Reg.EDL_PORT_TRAIN_FAILS, Reg.EDL_PORT_STATE]
    omega
  have hbump : ∀ a, Reg.EDL_PORT_TRAIN_FAILS p ≠ a → Reg.HDR_IRQ_RAW (0xA0 + p) ≠ a →
      (s.bump (Reg.EDL_PORT_TRAIN_FAILS p)).rd a = s.rd a := fun a h1 h2 => State.rd_bump_other ⟨h1, by rw [trainFails_page hp]; exact h2⟩
  have hcount : counted s (s.bump (Reg.EDL_PORT_TRAIN_FAILS p)) (Reg.EDL_PORT_TRAIN_FAILS p) 1 := counted_of_rd rfl (trainFails_ne_raw hp)
  have honly : OnlyRegs s (s.bump (Reg.EDL_PORT_TRAIN_FAILS p)) := s.bump_onlyRegs _
  unfold State.attemptWaits
  generalize s.bump (Reg.EDL_PORT_TRAIN_FAILS p) = c at hbump hcount honly ⊢
  have hput : ∀ a, a ≠ Reg.EDL_PORT_STATE p → (c.setPortState p portWAIT).rd a = c.rd a := fun a ha => State.rd_put_other (Ne.symm ha)
  have hstate : (c.setPortState p portWAIT).portState p = portWAIT := fld_taken 0 3 (by decide) (by decide)
  have hattempt : (c.setPortState p portWAIT).fld (Reg.EDL_PORT_STATE_ATTEMPT p) = c.fld (Reg.EDL_PORT_STATE_ATTEMPT p) :=
    fld_beside 0 4 3 4 (by decide)
  have honly' : OnlyRegs c (c.setPortState p portWAIT) := c.put_onlyRegs _ _
  generalize c.setPortState p portWAIT = d at hput hstate hattempt honly' ⊢
  have hback : (d.offerBack p).regs = d.regs := State.offerBack_regs _ p
  have hnow := d.offerBack_now p
  have hnone : ((d.offerBack p).edlPort p).offer = none := by rw [d.offerBack_port p p, if_pos rfl]
  generalize d.offerBack p = e at hback hnow hnone ⊢
  have hio := e.portClear_io p
  generalize e.portClear p = f at hio ⊢
  have hregs : ∀ y : EdlPort, (f.setEdlPort p y).regs = d.regs := fun y => hio.regs_eq.trans hback
  dsimp only
  refine ⟨?_, ?_, ?_, ?_, ?_, ?_⟩
  · change f.now = s.now
    rw [hio.now_eq, hnow, honly'.now_eq, honly.now_eq]
  · exact (State.fld_of_regs (hregs _) _).trans hstate
  · rw [State.fld_of_regs (hregs _), hattempt]
    exact fld_same _ (hbump _ hfails hraw)
  · exact counted_trans_left ((State.rd_of_regs (hregs _) _).trans (hput _ hfails)) hcount
  · rw [State.edlPort_set_same]
    change (f.edlPort p).offer = none
    rw [hio.port p]
    exact hnone
  · have hctrl : Reg.HDR_CTRL (0xA0 + p) ≠ Reg.EDL_PORT_STATE p ∧ Reg.EDL_PORT_TRAIN_FAILS p ≠ Reg.HDR_CTRL (0xA0 + p) ∧
        Reg.HDR_IRQ_RAW (0xA0 + p) ≠ Reg.HDR_CTRL (0xA0 + p) := by
      simp only [Reg.HDR_CTRL, Reg.EDL_PORT_STATE, Reg.EDL_PORT_TRAIN_FAILS, Reg.HDR_IRQ_RAW]
      omega
    refine State.gateClosed_congr ?_
    rw [portPage_hdr hp, State.rd_of_regs (hregs _), hput _ hctrl.1, hbump _ hctrl.2.1 hctrl.2.2]

theorem State.attemptIdle_io (s : State) (p : Nat) : PortIo s (s.attemptIdle p) := by
  unfold State.attemptIdle
  split
  · exact s.portControl_io p 9 ctIdle 0
  · exact PortIo.refl s

/-- How an attempt that failed leaves its port: to wait, or FAILED after the ninth. -/
structure AttemptFailed (p : Nat) (s t : State) : Prop where
  now : t.now = s.now
  fails : counted s t (Reg.EDL_PORT_TRAIN_FAILS p) 1
  offer : (t.edlPort p).offer = none
  waits : s.fld (Reg.EDL_PORT_STATE_ATTEMPT p) < 9 → t.portState p = portWAIT
  failed : 9 ≤ s.fld (Reg.EDL_PORT_STATE_ATTEMPT p) → t.portState p = portFAILED ∧
    (s.gateClosed (0xA0 + p) = false → raised t (0xA0 + p) 2)

theorem AttemptOver.ends (h : AttemptOver p s t) (hp : p < 64) :
    AttemptFailed p s (if 9 ≤ t.fld (Reg.EDL_PORT_STATE_ATTEMPT p) then t.portFail p else t) := by
  rw [h.attempt]
  split
  next hlast =>
    obtain ⟨hnow, hstate, hrd, hoffer, htold⟩ := t.portFail_effect hp
    have hfails : Reg.EDL_PORT_TRAIN_FAILS p ≠ Reg.EDL_PORT_STATE p ∧ Reg.EDL_PORT_TRAIN_FAILS p ≠ Reg.HDR_IRQ_RAW (0xA0 + p) := by
      simp only [Reg.EDL_PORT_STATE, Reg.EDL_PORT_TRAIN_FAILS, Reg.HDR_IRQ_RAW]
      omega
    exact ⟨hnow.trans h.now, counted_trans_left (hrd _ (trainFails_off p) hfails.1 hfails.2) h.fails, (hoffer p).trans h.offer,
      fun hless => absurd hlast (Nat.not_le.2 hless), fun _ => ⟨hstate, fun hgate => htold (h.gate.trans hgate)⟩⟩
  next hmore => exact ⟨h.now, h.fails, h.offer, fun _ => h.state, fun hge => absurd hge hmore⟩

theorem AttemptFailed.walked (h : AttemptFailed p s t) (hp : p < 64) : AttemptFailed p s t.walkCheck := by
  obtain ⟨hnow, hrd, hoffer⟩ := t.walkCheck_effect
  have hne : ∀ a, 0xA0000 ≤ a → t.walkCheck.rd a = t.rd a := fun a ha => hrd a
    (by rw [Reg.EDL_ENUM_STATUS]; omega) (by rw [Reg.HDR_IRQ_RAW]; omega)
  have hstate : t.walkCheck.portState p = t.portState p :=
    fld_same _ (hne (Reg.EDL_PORT_STATE p) (by rw [Reg.EDL_PORT_STATE]; omega))
  exact ⟨hnow.trans h.now, counted_trans_left (hne _ (by rw [Reg.EDL_PORT_TRAIN_FAILS]; omega)) h.fails, (hoffer p).trans h.offer,
    fun hless => hstate.trans (h.waits hless), fun hge => ⟨hstate.trans (h.failed hge).1, fun hgate =>
      (fld_same _ (hne (Reg.HDR_IRQ_RAW (0xA0 + p)) (by rw [Reg.HDR_IRQ_RAW]; omega))).trans ((h.failed hge).2 hgate)⟩⟩

theorem State.attemptFails_failed (s : State) (hp : p < 64) : AttemptFailed p s (s.attemptFails p) := by
  rw [State.attemptFails_eq]
  have hover := (s.attemptWaits_over hp).io ((s.attemptWaits p).attemptIdle_io p)
  generalize (s.attemptWaits p).attemptIdle p = c at hover ⊢
  exact (hover.ends hp).walked hp

/-! The statements on attempts that fail, and on the next. -/

theorem exec_edlTrainTimeout_live (hlive : s.boot.resetLow = false) : exec (.edlTrainTimeout p) s = .next (s.left (s.trainTimeout p)) :=
  (exec_edlTrainTimeout s p).trans (State.unheld_live hlive)

theorem timeout_us : 2000 * ticksPerUs = 2000 * 256000 := by decide

theorem exec_edlTrainTimeout_fails (hlive : s.boot.resetLow = false) (h : s.portState p = portTRAINING ∨ s.portState p = portENUM) :
    exec (.edlTrainTimeout p) s = .next (s.left ((s.advance ((s.edlPort p).since + 2000 * 256000)).attemptFails p)) := by
  rw [exec_edlTrainTimeout_live hlive, State.trainTimeout, if_pos h, timeout_us]

theorem exec_edlTrainTimeout_stays (hlive : s.boot.resetLow = false) (htrain : s.portState p ≠ portTRAINING) (henum : s.portState p ≠ portENUM) :
    exec (.edlTrainTimeout p) s = .next s := by
  rw [exec_edlTrainTimeout_live hlive, State.trainTimeout, if_neg (not_or.2 ⟨htrain, henum⟩), State.left_of_steady (Steady.refl s)]

theorem portReg_ne_timebase (h : 0xA0000 ≤ a) : a ≠ Reg.AON_TIMEBASE ∧ a ≠ Reg.AON_TIMEBASE_HI := by
  simp only [Reg.AON_TIMEBASE, Reg.AON_TIMEBASE_HI]
  omega

/-- An attempt fails at an instant. -/
theorem State.advanceFails_effect (s : State) (n : Nat) (hp : p < 64) (ht : t = (s.advance n).attemptFails p) :
    (s.left t).now = max s.now n ∧ counted s t (Reg.EDL_PORT_TRAIN_FAILS p) 1 ∧ (t.edlPort p).offer = none ∧
      (s.fld (Reg.EDL_PORT_STATE_ATTEMPT p) < 9 → t.portState p = portWAIT) ∧
      (9 ≤ s.fld (Reg.EDL_PORT_STATE_ATTEMPT p) → t.portState p = portFAILED ∧
        (s.gateClosed (0xA0 + p) = false → raised t (0xA0 + p) 2)) := by
  have hnow := s.advance_now n
  have hrd : ∀ a, 0xA0000 ≤ a → (s.advance n).rd a = s.rd a := fun a ha => State.rd_advance (portReg_ne_timebase ha)
  generalize s.advance n = c at ht hnow hrd
  obtain ⟨hnow', hfails, hoffer, hwaits, hfailed⟩ := ht ▸ c.attemptFails_failed hp
  have hattempt : c.fld (Reg.EDL_PORT_STATE_ATTEMPT p) = s.fld (Reg.EDL_PORT_STATE_ATTEMPT p) :=
    fld_same _ (hrd (Reg.EDL_PORT_STATE p) (by rw [Reg.EDL_PORT_STATE]; omega))
  have hgate : c.gateClosed (0xA0 + p) = s.gateClosed (0xA0 + p) :=
    State.gateClosed_congr (hrd _ (by rw [portPage_hdr hp, Reg.HDR_CTRL]; omega))
  rw [hattempt] at hwaits hfailed
  rw [hgate] at hfailed
  refine ⟨?_, counted_trans_right (hrd _ (by rw [Reg.EDL_PORT_TRAIN_FAILS]; omega)) hfails, hoffer, hwaits, hfailed⟩
  rw [State.left_now, hnow', hnow]
  exact max_eq_right (le_max_left _ _)

theorem timeout_statement (hlive : s.boot.resetLow = false) (hp : p < 64) (h : s.portState p = portTRAINING ∨ s.portState p = portENUM) :
    ∃ t, exec (.edlTrainTimeout p) s = .next t ∧
      t.now = max s.now ((s.edlPort p).since + 2000 * 256000) ∧
      counted s t (Reg.EDL_PORT_TRAIN_FAILS p) 1 ∧ (t.edlPort p).offer = none ∧
      (s.fld (Reg.EDL_PORT_STATE_ATTEMPT p) < 9 → t.portState p = portWAIT) ∧
      (9 ≤ s.fld (Reg.EDL_PORT_STATE_ATTEMPT p) → t.portState p = portFAILED ∧
        (s.gateClosed (0xA0 + p) = false → raised t (0xA0 + p) 2)) := by
  have hexec := exec_edlTrainTimeout_fails hlive h
  obtain ⟨t, ht⟩ : ∃ t, t = (s.advance ((s.edlPort p).since + 2000 * 256000)).attemptFails p := ⟨_, rfl⟩
  obtain ⟨hnow, hfailed⟩ := State.advanceFails_effect s _ hp ht
  rw [← ht] at hexec
  exact ⟨_, hexec, hnow, hfailed⟩

theorem exec_edlTrainRetry_live (hlive : s.boot.resetLow = false) : exec (.edlTrainRetry p) s = .next (s.left (s.trainRetry p)) :=
  (exec_edlTrainRetry s p).trans (State.unheld_live hlive)

theorem exec_edlTrainRetry_starts (hlive : s.boot.resetLow = false) (hwait : s.portState p = portWAIT)
    (hless : s.fld (Reg.EDL_PORT_STATE_ATTEMPT p) < 9) :
    exec (.edlTrainRetry p) s = .next (s.left (s.portStart p (s.fld (Reg.EDL_PORT_STATE_ATTEMPT p) + 1))) := by
  rw [exec_edlTrainRetry_live hlive, State.trainRetry, if_pos ⟨hwait, hless⟩]

theorem retryPort_statement (hlive : s.boot.resetLow = false) (hp : p < 64) (hwait : s.portState p = portWAIT)
    (hless : s.fld (Reg.EDL_PORT_STATE_ATTEMPT p) < 9) : ∃ t, exec (.edlTrainRetry p) s = .next t ∧
      t.portState p = portTRAINING ∧ t.fld (Reg.EDL_PORT_STATE_ATTEMPT p) = s.fld (Reg.EDL_PORT_STATE_ATTEMPT p) + 1 ∧
      t.fld (Reg.EDL_PORT_STATE_FOUND p) = 0 ∧ (t.edlPort p).since = s.now ∧ (t.edlPort p).held = (s.edlPort p).held := by
  obtain ⟨_, ⟨hstate, hattempt, hfound⟩, hsince, hheld⟩ := s.portStart_started hp (attempt := s.fld (Reg.EDL_PORT_STATE_ATTEMPT p) + 1) (by omega)
  exact ⟨_, exec_edlTrainRetry_starts hlive hwait hless, hstate, hattempt, hfound, hsince, hheld⟩

theorem exec_edlTrainRetry_stays (hlive : s.boot.resetLow = false)
    (h : s.portState p ≠ portWAIT ∨ 9 ≤ s.fld (Reg.EDL_PORT_STATE_ATTEMPT p)) : exec (.edlTrainRetry p) s = .next s := by
  have hnot : ¬ (s.portState p = portWAIT ∧ s.fld (Reg.EDL_PORT_STATE_ATTEMPT p) < 9) := by
    rintro ⟨hwait, hless⟩
    rcases h with h | h
    · exact h hwait
    · omega
  rw [exec_edlTrainRetry_live hlive, State.trainRetry, if_neg hnot, State.left_of_steady (Steady.refl s)]

/-! RETRAIN. -/

theorem portCmd_row : ∀ p < 64, (blockRow .EDL_PORT (Reg.EDL_PORT_CMD p)).any (fun r => !r.p) = true ∧
    writeActs.find? (·.1 == Reg.EDL_PORT_CMD p) = none := by decide

theorem State.hostWrite_portCmd (hs : s.Serves .EDL_PORT (0xA0 + p)) (hp : p < 64) (w : Word) (hw : bit w.toNat 0 = true) :
    s.hostWrite port (Reg.EDL_PORT_CMD p) w = s.portRetrain p := by
  obtain ⟨hrow, hacts⟩ := portCmd_row p hp
  obtain ⟨r, hrow, hpres⟩ := Option.any_eq_true _ _ |>.1 hrow
  have hpage : Reg.EDL_PORT_CMD p / 0x1000 = 0xA0 + p := by rw [Reg.EDL_PORT_CMD]; omega
  have hoff : Reg.EDL_PORT_CMD p % 0x1000 = 0x44 := by rw [Reg.EDL_PORT_CMD]; omega
  rw [State.hostWrite_blockRow (hpage ▸ hs) hrow (Or.inl (by simpa using hpres)), State.writeReg, hacts]
  dsimp only
  rw [laneOfAddr_none (by rw [hoff]; decide)]
  dsimp only
  rw [if_pos ⟨rfl, hoff⟩, if_pos hw, hpage, Nat.add_sub_cancel_left]

theorem exec_portRetrain_eq (hs : s.Serves .EDL_PORT (0xA0 + p)) (hp : p < 64) :
    exec (.portRetrain port p w) s = .next (s.left (s.portRetrain p)) := by
  rw [exec_portRetrain, State.unheld_live hs.live, State.hostWrite_portCmd hs hp]
  exact (bit_put_one _ w (by decide)).trans (if_pos rfl)

theorem retrain_statement (hp : p < 64) (hs : s.Serves .EDL_PORT (0xA0 + p)) :
    (s.portState p ≠ portFAILED → exec (.portRetrain port p w) s = .next s) ∧
    (s.portState p = portFAILED → ∃ t, exec (.portRetrain port p w) s = .next t ∧ t.portState p = portTRAINING ∧
      t.fld (Reg.EDL_PORT_STATE_ATTEMPT p) = 1 ∧ t.fld (Reg.EDL_PORT_STATE_FOUND p) = 0) := by
  have hexec := exec_portRetrain_eq (port := port) (w := w) hs hp
  constructor <;> intro hstate
  · rw [hexec, State.portRetrain, if_neg hstate, State.left_of_steady (Steady.refl s)]
  · rw [State.portRetrain, if_pos hstate] at hexec
    obtain ⟨_, ⟨htrain, hattempt, hfound⟩, _, _⟩ := s.portStart_started hp (attempt := 1) (by decide)
    exact ⟨_, hexec, htrain, hattempt, hfound⟩

end Sys2Proof.Machine
end

section
/-! PROOFS. The walk over the partners (R297, R307). -/

namespace Sys2Proof.Machine

variable {s t u v : State} {a b k l m n p q e attempt port : Nat} {w : Word} {x : Fld}

theorem State.each_mem_induct {α : Type} (P : State → Prop) {l : List α} {f : α → State → State} (h : ∀ x ∈ l, ∀ t, P t → P (f x t)) :
    ∀ s : State, P s → P (s.each l f) := by
  induction l with
  | nil => exact fun s hs => hs
  | cons x l ih =>
    exact fun s hs => ih (fun y hy => h y (List.mem_cons_of_mem x hy)) _ (h x List.mem_cons_self s hs)

/-! The entries of the partner table are cleared. -/

/-- One entry is cleared: KIND 3, and words 2 and 3. -/
def State.entryCleared (s : State) (e : Nat) : State :=
  ((s.wrN (Reg.PARTNER_W e 0) 0x3000).wrN (Reg.PARTNER_W e 2) 0).wrN (Reg.PARTNER_W e 3) 0

/-- The first `n` entries are cleared, and no other register differs. -/
structure EntriesCleared (n : Nat) (s t : State) : Prop where
  kind : ∀ e, e < n → t.rd (Reg.PARTNER_W e 0) = 0x3000
  caps : ∀ e, t.rd (Reg.PARTNER_W e 1) = s.rd (Reg.PARTNER_W e 1)
  status : ∀ e, e < n → t.rd (Reg.PARTNER_W e 2) = 0
  errors : ∀ e, e < n → t.rd (Reg.PARTNER_W e 3) = 0
  below : ∀ a, a < 0x5000000 → t.rd a = s.rd a

theorem State.rd_entryCleared_self (s : State) (e : Nat) : (s.entryCleared e).rd (Reg.PARTNER_W e 0) = 0x3000 ∧
    (s.entryCleared e).rd (Reg.PARTNER_W e 2) = 0 ∧ (s.entryCleared e).rd (Reg.PARTNER_W e 3) = 0 := by
  have hne : Reg.PARTNER_W e 3 ≠ Reg.PARTNER_W e 0 ∧ Reg.PARTNER_W e 2 ≠ Reg.PARTNER_W e 0 ∧ Reg.PARTNER_W e 3 ≠ Reg.PARTNER_W e 2 := by
    simp only [Reg.PARTNER_W]
    omega
  obtain ⟨h30, h20, h32⟩ := hne
  unfold State.entryCleared State.wrN
  exact ⟨by rw [State.rd_wr_other _ _ _ _ h30, State.rd_wr_other _ _ _ _ h20]; exact State.rd_wr_self _ _ _,
    by rw [State.rd_wr_other _ _ _ _ h32]; exact State.rd_wr_self _ _ _, State.rd_wr_self _ _ _⟩

theorem State.rd_entryCleared_other (s : State) (h0 : Reg.PARTNER_W e 0 ≠ a) (h2 : Reg.PARTNER_W e 2 ≠ a) (h3 : Reg.PARTNER_W e 3 ≠ a) :
    (s.entryCleared e).rd a = s.rd a := by
  unfold State.entryCleared State.wrN
  rw [State.rd_wr_other _ _ _ _ h3, State.rd_wr_other _ _ _ _ h2, State.rd_wr_other _ _ _ _ h0]

theorem State.rd_entryCleared_apart (s : State) {i : Nat} (hi : i < 4) (h : k ≠ e) :
    (s.entryCleared e).rd (Reg.PARTNER_W k i) = s.rd (Reg.PARTNER_W k i) := by
  refine s.rd_entryCleared_other ?_ ?_ ?_ <;>
  · simp only [Reg.PARTNER_W]
    omega

theorem EntriesCleared.next (h : EntriesCleared n s t) : EntriesCleared (n + 1) s (t.entryCleared n) := by
  obtain ⟨hself0, hself2, hself3⟩ := t.rd_entryCleared_self n
  have hword : ∀ {i : Nat} {w : Word}, i < 4 → (t.entryCleared n).rd (Reg.PARTNER_W n i) = w →
      (∀ e, e < n → t.rd (Reg.PARTNER_W e i) = w) → ∀ e, e < n + 1 → (t.entryCleared n).rd (Reg.PARTNER_W e i) = w := by
    intro i w hi hself hothers e he
    by_cases hn : e = n
    · rw [hn, hself]
    · rw [t.rd_entryCleared_apart hi hn, hothers e (by omega)]
  refine ⟨hword (by decide) hself0 h.kind, fun e => ?_, hword (by decide) hself2 h.status, hword (by decide) hself3 h.errors, fun a ha => ?_⟩
  · refine (t.rd_entryCleared_other ?_ ?_ ?_).trans (h.caps e) <;>
    · simp only [Reg.PARTNER_W]
      omega
  · refine (t.rd_entryCleared_other ?_ ?_ ?_).trans (h.below a ha) <;>
    · simp only [Reg.PARTNER_W]
      omega

theorem State.entriesCleared (s : State) (n : Nat) : EntriesCleared n s (s.each (List.range n) fun e s => s.entryCleared e) := by
  induction n with
  | zero => exact ⟨fun e he => absurd he (Nat.not_lt_zero e), fun _ => rfl, fun e he => absurd he (Nat.not_lt_zero e),
      fun e he => absurd he (Nat.not_lt_zero e), fun _ _ => rfl⟩
  | succ n ih => rw [State.each_succ]; exact ih.next

/-! The start of a walk. -/

/-- The entries are cleared, and the run is counted. -/
def State.walkCounted (s : State) : State :=
  ((s.each (List.range 1024) fun e s => s.entryCleared e).bump Reg.EDL_ENUM_RUNS).wrN Reg.EDL_ENUM_STATUS 0

/-- No port keeps IDs of the walk before. -/
def State.portForgets (s : State) (p : Nat) : State := (s.setEdlPort p { s.edlPort p with held := none }).wrN (Reg.EDL_PORT_UNADDR p) 0

/-- The walk runs from ID 0 on. -/
def State.walkBegun (s : State) : State :=
  { s.put Reg.EDL_ENUM_STATUS_BUSY 1 with
    edl := { s.edl with ptr := 0, walking := true, walked := true, statusAt := [], errAt := [], faultNew := [] } }

theorem State.walkStart_eq (s : State) : s.walkStart = (s.walkCounted.each (List.range 64) fun p s => s.portForgets p).walkBegun := rfl

/-- Registers that the start of a walk leaves: all but EDL's own, UNADDR of the ports, and the partners' entries. -/
abbrev offWalk (a : Nat) : Prop := a ≠ Reg.EDL_ENUM_STATUS ∧ a ≠ Reg.HDR_IRQ_RAW 0x70 ∧ ∀ p, p < 64 → a ≠ Reg.EDL_PORT_UNADDR p

theorem State.portForgets_rd (h : offWalk a) (hp : p < 64) : (s.portForgets p).rd a = s.rd a := State.rd_wr_other _ _ _ _ (h.2.2 p hp).symm

theorem State.walkBegun_rd (h : offWalk a) : s.walkBegun.rd a = s.rd a := by
  have hput : (s.put Reg.EDL_ENUM_STATUS_BUSY 1).rd a = s.rd a := State.rd_put_other h.1.symm
  unfold State.walkBegun
  generalize s.put Reg.EDL_ENUM_STATUS_BUSY 1 = c at hput ⊢
  exact (State.rd_of_regs (edl_set c _).1 a).trans hput

theorem State.walkForgets_rd (h : offWalk a) (s : State) : ((s.each (List.range 64) fun p s => s.portForgets p).walkBegun).rd a = s.rd a :=
  (State.walkBegun_rd h).trans (State.each_mem_induct (fun t => t.rd a = s.rd a) (fun _ hp _ ht => (State.portForgets_rd h (List.mem_range.1 hp)).trans ht) s rfl)

/-- What a walk that starts leaves in the registers. -/
structure WalkStarted (s t : State) : Prop where
  entries : ∀ e, e < 1024 → t.rd (Reg.PARTNER_W e 0) = 0x3000 ∧ t.rd (Reg.PARTNER_W e 1) = s.rd (Reg.PARTNER_W e 1) ∧
    t.rd (Reg.PARTNER_W e 2) = 0 ∧ t.rd (Reg.PARTNER_W e 3) = 0
  runs : counted s t Reg.EDL_ENUM_RUNS 1
  state : ∀ p, p < 64 → t.portState p = s.portState p

theorem WalkStarted.of_rd (h : WalkStarted s t) (hentry : ∀ e i, e < 1024 → i < 4 → u.rd (Reg.PARTNER_W e i) = t.rd (Reg.PARTNER_W e i))
    (hruns : u.rd Reg.EDL_ENUM_RUNS = t.rd Reg.EDL_ENUM_RUNS) (hstate : ∀ p, p < 64 → u.portState p = t.portState p) : WalkStarted s u := by
  refine ⟨fun e he => ?_, counted_trans_left hruns h.runs, fun p hp => (hstate p hp).trans (h.state p hp)⟩
  rw [hentry e 0 he (by decide), hentry e 1 he (by decide), hentry e 2 he (by decide), hentry e 3 he (by decide)]
  exact h.entries e he

theorem enumRuns_raw : Reg.HDR_IRQ_RAW (hdrPage (Reg.EDL_ENUM_RUNS / 0x1000)) = 0x70010 := by decide

theorem State.walkCounted_started (s : State) : WalkStarted s s.walkCounted := by
  have hclear := s.entriesCleared 1024
  unfold State.walkCounted
  generalize s.each (List.range 1024) (fun e s => s.entryCleared e) = c at hclear ⊢
  have hrd : ∀ a, a ≠ Reg.EDL_ENUM_RUNS → a ≠ 0x70010 → a ≠ Reg.EDL_ENUM_STATUS →
      ((c.bump Reg.EDL_ENUM_RUNS).wrN Reg.EDL_ENUM_STATUS 0).rd a = c.rd a := fun a hruns hraw hstatus =>
    (State.rd_wr_other _ _ _ _ hstatus.symm).trans (State.rd_bump_other ⟨hruns.symm, by rw [enumRuns_raw]; exact hraw.symm⟩)
  have hcount : counted c ((c.bump Reg.EDL_ENUM_RUNS).wrN Reg.EDL_ENUM_STATUS 0) Reg.EDL_ENUM_RUNS 1 :=
    counted_of_rd (State.rd_wr_other _ _ _ _ (by decide)) (by rw [enumRuns_raw]; decide)
  generalize (c.bump Reg.EDL_ENUM_RUNS).wrN Reg.EDL_ENUM_STATUS 0 = d at hrd hcount ⊢
  have hentry : ∀ e i, d.rd (Reg.PARTNER_W e i) = c.rd (Reg.PARTNER_W e i) := fun e i => by
    refine hrd _ ?_ ?_ ?_ <;>
    · simp only [Reg.PARTNER_W, Reg.EDL_ENUM_RUNS, Reg.EDL_ENUM_STATUS]
      omega
  refine ⟨fun e he => ?_, counted_trans_right (hclear.below _ (by decide)) hcount, fun p hp => ?_⟩
  · rw [hentry, hentry, hentry, hentry]
    exact ⟨hclear.kind e he, hclear.caps e, hclear.status e he, hclear.errors e he⟩
  · refine fld_same _ ((hrd (Reg.EDL_PORT_STATE p) ?_ ?_ ?_).trans (hclear.below (Reg.EDL_PORT_STATE p) ?_)) <;>
    · simp only [Reg.EDL_PORT_STATE, Reg.EDL_ENUM_RUNS, Reg.EDL_ENUM_STATUS]
      omega

theorem State.walkStart_started (s : State) : WalkStarted s s.walkStart := by
  have hcounted := s.walkCounted_started
  rw [State.walkStart_eq]
  generalize s.walkCounted = c at hcounted ⊢
  have hrd : ∀ a, offWalk a → ((c.each (List.range 64) fun p s => s.portForgets p).walkBegun).rd a = c.rd a := fun a ha => State.walkForgets_rd ha c
  generalize (c.each (List.range 64) fun p s => s.portForgets p).walkBegun = d at hrd ⊢
  refine hcounted.of_rd (fun e i he hi => hrd _ ⟨?_, ?_, fun p hp => ?_⟩) (hrd _ ⟨by decide, by decide, fun p hp => ?_⟩) (fun p hp =>
    fld_same _ (hrd (Reg.EDL_PORT_STATE p) ⟨?_, ?_, fun q hq => ?_⟩)) <;>
  · simp only [Reg.PARTNER_W, Reg.EDL_ENUM_STATUS, Reg.EDL_ENUM_RUNS, Reg.EDL_PORT_UNADDR, Reg.EDL_PORT_STATE, Reg.HDR_IRQ_RAW]
    omega

/-! Every port that is not OFF trains afresh. -/

/-- A port of the walk. -/
def State.walkPort (s : State) (p : Nat) : State := if s.portState p = portOFF then s else s.portStart p 1

theorem State.enumWalk_eq (s : State) : s.enumWalk = (s.walkStart.each (List.range 64) fun p s => s.walkPort p).walkCheck := rfl

/-- The first `n` ports of a walk train, but those that are OFF. -/
structure PortsWalked (n : Nat) (s t : State) : Prop where
  rd : ∀ a, offLane a → (∀ p, p < 64 → a ≠ Reg.EDL_PORT_STATE p) → t.rd a = s.rd a
  trains : ∀ p, p < n → t.portState p = (if s.portState p = portOFF then portOFF else portTRAINING) ∧
    (s.portState p ≠ portOFF → t.fld (Reg.EDL_PORT_STATE_ATTEMPT p) = 1)
  later : ∀ p, n ≤ p → t.rd (Reg.EDL_PORT_STATE p) = s.rd (Reg.EDL_PORT_STATE p)

theorem PortsWalked.next (h : PortsWalked n s t) (hn : n < 64) : PortsWalked (n + 1) s (t.walkPort n) := by
  have hsame : t.portState n = s.portState n := fld_same _ (h.later n (Nat.le_refl n))
  unfold State.walkPort
  split
  next hoff =>
    refine ⟨h.rd, fun p hp => ?_, fun p hp => h.later p (by omega)⟩
    by_cases hpn : p = n
    · subst hpn
      rw [← hsame, hoff]
      exact ⟨(if_pos rfl).symm, fun hne => absurd rfl hne⟩
    · exact h.trains p (by omega)
  next hon =>
    obtain ⟨⟨_, hrd⟩, ⟨hstate, hattempt, _⟩, _, _⟩ := t.portStart_started hn (attempt := 1) (by decide)
    have hother : ∀ p, p ≠ n → (t.portStart n 1).rd (Reg.EDL_PORT_STATE p) = t.rd (Reg.EDL_PORT_STATE p) := fun p hpn =>
      hrd _ (portState_off p) (by simp only [Reg.EDL_PORT_STATE]; omega)
    refine ⟨fun a ha hne => (hrd a ha (hne n hn)).trans (h.rd a ha hne), fun p hp => ?_, fun p hp => (hother p (by omega)).trans (h.later p (by omega))⟩
    by_cases hpn : p = n
    · subst hpn
      rw [← hsame, if_neg hon]
      exact ⟨hstate, fun _ => hattempt⟩
    · obtain ⟨hstate', hattempt'⟩ := h.trains p (by omega)
      exact ⟨(fld_same (Reg.EDL_PORT_STATE_STATE p) (hother p hpn)).trans hstate',
        fun hne => (fld_same (Reg.EDL_PORT_STATE_ATTEMPT p) (hother p hpn)).trans (hattempt' hne)⟩

theorem State.portsWalked (s : State) (n : Nat) (hn : n ≤ 64) : PortsWalked n s (s.each (List.range n) fun p s => s.walkPort p) := by
  induction n with
  | zero => exact ⟨fun _ _ _ => rfl, fun p hp => absurd hp (Nat.not_lt_zero p), fun _ _ => rfl⟩
  | succ n ih => rw [State.each_succ]; exact (ih (by omega)).next (by omega)

/-- What ENUM leaves. -/
structure Enumerates (s t : State) : Prop where
  entries : ∀ e, e < 1024 → t.rd (Reg.PARTNER_W e 0) = 0x3000 ∧ t.rd (Reg.PARTNER_W e 1) = s.rd (Reg.PARTNER_W e 1) ∧
    t.rd (Reg.PARTNER_W e 2) = 0 ∧ t.rd (Reg.PARTNER_W e 3) = 0
  runs : counted s t Reg.EDL_ENUM_RUNS 1
  trains : ∀ p, p < 64 → t.portState p = (if s.portState p = portOFF then portOFF else portTRAINING) ∧
    (s.portState p ≠ portOFF → t.fld (Reg.EDL_PORT_STATE_ATTEMPT p) = 1)

theorem State.enumWalk_enumerates (s : State) : Enumerates s s.enumWalk := by
  have hstart := s.walkStart_started
  rw [State.enumWalk_eq]
  generalize s.walkStart = c at hstart ⊢
  have hwalk := c.portsWalked 64 (Nat.le_refl 64)
  generalize c.each (List.range 64) (fun p s => s.walkPort p) = d at hwalk ⊢
  obtain ⟨_, hcheck, _⟩ := d.walkCheck_effect
  have hrd : ∀ a, offLane a → (∀ p, p < 64 → a ≠ Reg.EDL_PORT_STATE p) → a ≠ Reg.EDL_ENUM_STATUS → a ≠ Reg.HDR_IRQ_RAW 0x70 →
      d.walkCheck.rd a = c.rd a := fun a ha hne h1 h2 => (hcheck a h1 h2).trans (hwalk.rd a ha hne)
  have hport : ∀ p, p < 64 → d.walkCheck.rd (Reg.EDL_PORT_STATE p) = d.rd (Reg.EDL_PORT_STATE p) := fun p hp => by
    refine hcheck _ ?_ ?_ <;>
    · simp only [Reg.EDL_PORT_STATE, Reg.EDL_ENUM_STATUS, Reg.HDR_IRQ_RAW]
      omega
  generalize d.walkCheck = f at hrd hport ⊢
  have hentry : ∀ e i, e < 1024 → i < 4 → f.rd (Reg.PARTNER_W e i) = c.rd (Reg.PARTNER_W e i) := fun e i he hi => by
    refine hrd _ ?_ (fun p hp => ?_) ?_ ?_ <;>
    · simp only [offLane, Reg.PARTNER_W, Reg.EDL_PORT_STATE, Reg.EDL_ENUM_STATUS, Reg.HDR_IRQ_RAW]
      omega
  refine ⟨fun e he => ?_, counted_trans_left (hrd _ (by decide) (fun p hp => ?_) (by decide) (by decide)) hstart.runs, fun p hp => ?_⟩
  · rw [hentry e 0 he (by decide), hentry e 1 he (by decide), hentry e 2 he (by decide), hentry e 3 he (by decide)]
    exact hstart.entries e he
  · simp only [Reg.EDL_ENUM_RUNS, Reg.EDL_PORT_STATE]
    omega
  · obtain ⟨hstate, hattempt⟩ := hwalk.trains p hp
    rw [hstart.state p hp] at hstate hattempt
    exact ⟨(fld_same (Reg.EDL_PORT_STATE_STATE p) (hport p hp)).trans hstate,
      fun hne => (fld_same (Reg.EDL_PORT_STATE_ATTEMPT p) (hport p hp)).trans (hattempt hne)⟩

theorem exec_edlEnum_eq (hs : s.Serves .EDL 0x70) : exec (.edlEnum port w) s = .next (s.left s.enumWalk) := by
  have hbit : bit (Reg.EDL_CMD_ENUM.put w 1).toNat 0 = true := (bit_put_one _ w (by decide)).trans (if_pos rfl)
  rw [exec_edlEnum, State.unheld_live hs.live]
  generalize Reg.EDL_CMD_ENUM.put w 1 = v at hbit ⊢
  rw [State.hostWrite_acts (u := .EDL) (a := Reg.EDL_CMD) hs (by decide) rfl]
  dsimp only
  rw [if_pos hbit]

theorem Enumerates.left (h : Enumerates s t) : Enumerates s (s.left t) := ⟨h.entries, h.runs, h.trains⟩

theorem enum_statement (hs : s.Serves .EDL 0x70) : ∃ t, exec (.edlEnum port w) s = .next t ∧ Enumerates s t :=
  ⟨_, exec_edlEnum_eq hs, s.enumWalk_enumerates.left⟩

end Sys2Proof.Machine
end

section
/-! PROOFS. TRAIN DONE and the first offer (R296 to R299), and PRBS bursts (R303). -/

namespace Sys2Proof.Machine

variable {s t u v : State} {a b k l m n p q id : Nat} {w : Word} {x : Fld} {xs ys : List (Nat × Nat)}

/-! The clock stands still while a port is enumerated. -/

theorem State.offerId_now (s : State) (p id : Nat) : (s.offerId p id).now = s.now := by
  unfold State.offerId
  dsimp only
  generalize hc : s.setEdlPort p { s.edlPort p with offer := some id, misses := 0 } = c
  have hnow : c.now = s.now := by rw [← hc]; rfl
  exact (c.portCmd_io p 6 id 0 0 0 false true).now_eq.trans hnow

theorem State.portDefaults_io (s : State) (p : Nat) : PortIo s (s.portDefaults p) :=
  (s.portCmd_io p 6 0x7FF 6 _ 0 false false).andThen (State.portCmd_io _ p 6 0x7FF 7 _ 0 false false)

theorem State.enumEnd_now (s : State) (hp : p < 64) : (s.enumEnd p).now = s.now := by
  unfold State.enumEnd
  extract_lets x c led kinds d
  have hc : c.now = s.now := by
    simp only [c]
    split
    · exact State.each_induct (fun t => t.now = s.now) _ _ (fun e t ht => (t.put_onlyRegs _ 1).now_eq.trans ht) s rfl
    · rfl
  have hd : d.now = s.now := (c.offerBack_now p).trans hc
  clear_value d
  split
  · have hwork : OnlyRegs (d.portDefaults p) (((d.portDefaults p).setPortState p portUP).raise (portPage p) 0) :=
      ((d.portDefaults p).put_onlyRegs _ _).trans (State.raise_onlyRegs _ _ _)
    obtain ⟨hcheck, -, -⟩ := (((d.portDefaults p).setPortState p portUP).raise (portPage p) 0).walkCheck_effect
    rw [hcheck, hwork.now_eq, (d.portDefaults_io p).now_eq, hd]
  · exact (d.attemptFails_failed hp).now.trans hd

theorem State.enumNext_now (s : State) (hp : p < 64) : (s.enumNext p).now = s.now := by
  unfold State.enumNext
  extract_lets x
  split
  · split
    · exact s.offerId_now p _
    · exact s.enumEnd_now hp
  · split
    · split <;> exact s.offerId_now p _
    · split <;> exact s.offerId_now p _

/-! Which ID is offered next (R297). -/

/-- What the choice of an ID looks at: kinds and offers of ports, the pointer, the configuration and the partner table. -/
structure SameIds (s t : State) : Prop where
  kind : ∀ q, t.portKind q = s.portKind q
  offer : ∀ q, (t.edlPort q).offer = (s.edlPort q).offer
  held : ∀ q, (t.edlPort q).held = (s.edlPort q).held
  ptr : t.edl.ptr = s.edl.ptr
  act : t.act = s.act
  entry : ∀ a, 0x5000000 ≤ a → t.rd a = s.rd a

theorem SameIds.andThen (h : SameIds s t) (g : SameIds t u) : SameIds s u :=
  ⟨fun q => (g.kind q).trans (h.kind q), fun q => (g.offer q).trans (h.offer q), fun q => (g.held q).trans (h.held q), g.ptr.trans h.ptr,
    g.act.trans h.act, fun a ha => (g.entry a ha).trans (h.entry a ha)⟩

theorem PortIo.sameIds (h : PortIo s t) : SameIds s t :=
  ⟨h.portKind, fun q => by rw [h.port q], fun q => by rw [h.port q], h.ptr_eq, h.act_eq, fun a _ => h.rd a⟩

theorem SameIds.of_edl (hedl : t.edl = s.edl) (hact : t.act = s.act) (hrd : ∀ a, 0x5000000 ≤ a → t.rd a = s.rd a) : SameIds s t := by
  have hport : ∀ q, t.edlPort q = s.edlPort q := fun q => by rw [State.edlPort, hedl, State.edlPort]
  exact ⟨fun q => by rw [State.portKind, hport, State.portKind], fun q => by rw [hport], fun q => by rw [hport], by rw [hedl], hact, hrd⟩

theorem SameIds.valid (h : SameIds s t) (e : Nat) : (t.partner e).valid = (s.partner e).valid := by
  have hword : t.rd (Reg.PARTNER_W e 0) = s.rd (Reg.PARTNER_W e 0) := h.entry _ (by rw [Reg.PARTNER_W]; omega)
  simp only [State.partner, Partner.valid, hword]

theorem SameIds.nextId (h : SameIds s t) : t.nextId = s.nextId := by
  have hcfg : ∀ x, t.fldA x = s.fldA x := fun x => by rw [State.fldA, State.rdA, h.act, State.fldA, State.rdA]
  simp only [State.nextId, h.kind, h.offer, h.ptr, hcfg, h.valid]

/-! The patterns end with TRAIN DONE (R296). -/

theorem State.each_one {α : Type} (s : State) (y : α) (f : α → State → State) : s.each [y] f = f y s := rfl

theorem State.edlSend_one (s : State) (b : Nat × Nat) (h : s.laneCarries (laneEdl p) = true) : Sends p [b] s (s.edlSend p b.1 b.2) := by
  simpa using s.edlSend_sends b.1 b.2 p h

/-- A block that leaves at once. -/
theorem State.portSend_one (s : State) (b : Nat × Nat) : PortIo s (s.portSend p [b]) ∧
    ((s.portSend p [b]).edlPort p).queue = (s.edlPort p).queue ∧ ((s.portSend p [b]).edlPort p).prog = (s.edlPort p).prog ∧
    s.now < ((s.portSend p [b]).edlPort p).free ∧ (s.laneCarries (laneEdl p) = true → Sends p [b] s (s.portSend p [b])) := by
  have hticks := (s.blockTicks_bounds p).1
  refine ⟨s.portSend_io p, ?_⟩
  have hio : PortIo s (s.setEdlPort p { s.edlPort p with free := max s.now (s.edlPort p).free + [b].length * s.blockTicks p }) := s.setPort_io _ rfl
  have hport := s.edlPort_set_same (p := p) { s.edlPort p with free := max s.now (s.edlPort p).free + [b].length * s.blockTicks p }
  have hout : (s.setEdlPort p { s.edlPort p with free := max s.now (s.edlPort p).free + [b].length * s.blockTicks p }).out = s.out := rfl
  have heach : s.portSend p [b] =
      (s.setEdlPort p { s.edlPort p with free := max s.now (s.edlPort p).free + [b].length * s.blockTicks p }).edlSend p b.1 b.2 := by
    rw [State.portSend, State.each_one]
  rw [heach]
  generalize s.setEdlPort p { s.edlPort p with free := max s.now (s.edlPort p).free + [b].length * s.blockTicks p } = c at hio hport hout ⊢
  rw [edlSend_port, hport]
  refine ⟨rfl, rfl, ?_, fun h => (Sends.of_out hout).nil_trans (c.edlSend_one b ((hio.carries _).trans h))⟩
  simp only [List.length_cons, List.length_nil]
  omega

theorem State.sendPatterns_port (s : State) (p n seq : Nat) : ((s.sendPatterns p n seq).edlPort p).queue = (s.edlPort p).queue ∧
    ((s.sendPatterns p n seq).edlPort p).prog = (s.edlPort p).prog := by
  by_cases h : s.laneCarries (laneEdl p) = true
  · obtain ⟨y, r, heq, -, hy⟩ := State.sendPatterns_eq n seq h
    rw [heq, State.edlPort_set_same, hy]
    exact ⟨rfl, rfl⟩
  · rw [State.sendPatterns_idle n seq (by simpa using h)]
    exact ⟨rfl, rfl⟩

/-- The groups that are left go, until 1,100 µs have passed. -/
def State.trainSent (s : State) (p groups at' : Nat) : State := (s.sendPatterns p (groups - 1) 1).advance at'

/-- TRAIN DONE goes, and the port is to be enumerated. -/
def State.trainEnds (s : State) (p : Nat) : State := (s.portSend p [(2, controlBlock ctTrain 2)]).setPortState p portENUM

/-- What the end of a training leaves. -/
structure TrainEnded (p groups at' : Nat) (s t : State) : Prop where
  now : t.now = max s.now at'
  ids : SameIds s t
  state : t.portState p = portENUM
  queue : (t.edlPort p).queue = (s.edlPort p).queue
  prog : (t.edlPort p).prog = (s.edlPort p).prog
  busy : t.now < (t.edlPort p).free
  sends : s.laneCarries (laneEdl p) = true →
    Sends p (((List.range (groups - 1)).flatMap fun i => patternGroup (i + 1)) ++ [(2, controlBlock 0x66 2)]) s t

theorem phyBase_above (l : Nat) : 0x11400 ≤ phyBase l := by
  unfold phyBase
  repeat' split
  all_goals omega

/-- Time that passes leaves what a lane carries. -/
theorem State.advance_carries (s : State) (n l : Nat) : (s.advance n).laneCarries l = s.laneCarries l := by
  have hfld : ∀ x : Fld, 0x11400 ≤ x.addr → (s.advance n).fld x = s.fld x := fun x hx => State.fld_advance (by
    simp only [Reg.AON_TIMEBASE, Reg.AON_TIMEBASE_HI]
    omega)
  have hphy : ∀ l off, 0x11400 ≤ phyBase l + off := fun l off => Nat.le_trans (phyBase_above l) (Nat.le_add_right ..)
  have hloop : ∀ l, (s.advance n).fld (Reg.PHY_PRBS_LOOP (phyBase l)) = s.fld (Reg.PHY_PRBS_LOOP (phyBase l)) := fun l => hfld _ (hphy l _)
  have hcur : (s.advance n).laneInL0 l = s.laneInL0 l := congrArg (· == 0) (hfld (Reg.PHY_LSTATE_CUR (phyBase l)) (hphy l 0))
  have hlane : (s.advance n).lane l = s.lane l := by rw [State.advance_eq]; rfl
  simp only [State.laneCarries, hcur, hlane, State.looped, hloop]

theorem State.trainEnds_ended (s : State) (hp : p < 64) (groups at' : Nat) : TrainEnded p groups at' s ((s.trainSent p groups at').trainEnds p) := by
  obtain ⟨hqueue, hprog⟩ := s.sendPatterns_port p (groups - 1) 1
  have hio := s.sendPatterns_io p (groups - 1) 1
  have hsends := State.sendPatterns_sends (s := s) (p := p) (groups - 1) 1
  unfold State.trainSent
  generalize s.sendPatterns p (groups - 1) 1 = c at hqueue hprog hio hsends ⊢
  have hcarries := c.advance_carries at' (laneEdl p)
  have hnow := c.advance_now at'
  have hedl : (c.advance at').edl = c.edl := by rw [State.advance_eq]
  have hport : (c.advance at').edlPort p = c.edlPort p := by rw [State.edlPort, hedl, State.edlPort]
  have hids : SameIds c (c.advance at') := SameIds.of_edl hedl (by rw [State.advance_eq]) (fun a ha =>
    State.rd_advance (portReg_ne_timebase (Nat.le_trans (by decide) ha)))
  have hout : (c.advance at').out = c.out := by rw [State.advance_eq]
  generalize c.advance at' = d at hcarries hnow hport hids hout ⊢
  obtain ⟨hio', hqueue', hprog', hbusy, hsends'⟩ := d.portSend_one (p := p) (2, controlBlock ctTrain 2)
  unfold State.trainEnds
  generalize d.portSend p [(2, controlBlock ctTrain 2)] = e at hio' hqueue' hprog' hbusy hsends' ⊢
  have hput : OnlyRegs e (e.setPortState p portENUM) := e.put_onlyRegs _ _
  have hstate : (e.setPortState p portENUM).portState p = portENUM := fld_taken 0 3 (by decide) (by decide)
  have hrd : ∀ a, 0x5000000 ≤ a → (e.setPortState p portENUM).rd a = e.rd a := fun a ha =>
    State.rd_put_other (x := Reg.EDL_PORT_STATE_STATE p) (by simp only [Reg.EDL_PORT_STATE_STATE, Reg.EDL_PORT_STATE]; omega)
  have hids' : SameIds e (e.setPortState p portENUM) := SameIds.of_edl rfl rfl hrd
  generalize e.setPortState p portENUM = f at hput hstate hids' ⊢
  refine ⟨?_, ((hio.sameIds.andThen hids).andThen hio'.sameIds).andThen hids', hstate, ?_, ?_, ?_, fun h => ?_⟩
  · rw [hput.now_eq, hio'.now_eq, hnow, hio.now_eq]
  · rw [hput.edlPort_eq, hqueue', hport, hqueue]
  · rw [hput.edlPort_eq, hprog', hport, hprog]
  · rw [hput.now_eq, hio'.now_eq, hput.edlPort_eq]
    exact hbusy
  · have hlane : d.laneCarries (laneEdl p) = true := hcarries.trans ((hio.carries _).trans h)
    exact (((hsends h).trans_nil (Sends.of_out hout)).trans (hsends' hlane)).trans_nil (Sends.of_out hput.out_eq)

/-! The first offer (R298, R299). -/

/-- What an offer leaves of its port. -/
structure Offered (p id : Nat) (s t : State) : Prop where
  state : t.portState p = s.portState p
  offer : (t.edlPort p).offer = some id
  waits : (s.edlPort p).queue = [] → (s.edlPort p).prog = none → s.now < (s.edlPort p).free → id < 2048 →
    Sends p [] s t ∧ (t.edlPort p).queue.flatMap (·.blocks) = [(2, controlBlock 0x4B (id + 2 ^ 12))]

theorem offerBody (hid : id < 2048) : id % 2048 + (if (false : Bool) then 2 ^ 11 else 0) + (if (true : Bool) then 2 ^ 12 else 0) + 2 ^ 13 * (0 % 4096)
    + 2 ^ 25 * (0 % 65536) + 2 ^ 41 * (0 % 128) = id + 2 ^ 12 := by
  rw [Nat.mod_eq_of_lt hid]
  rfl

theorem State.offerId_offered (s : State) (p id : Nat) : Offered p id s (s.offerId p id) := by
  unfold State.offerId
  dsimp only
  have hregs : (s.setEdlPort p { s.edlPort p with offer := some id, misses := 0 }).regs = s.regs := rfl
  have hnow : (s.setEdlPort p { s.edlPort p with offer := some id, misses := 0 }).now = s.now := rfl
  have hout : (s.setEdlPort p { s.edlPort p with offer := some id, misses := 0 }).out = s.out := rfl
  have hport := s.edlPort_set_same (p := p) { s.edlPort p with offer := some id, misses := 0 }
  generalize s.setEdlPort p { s.edlPort p with offer := some id, misses := 0 } = c at hregs hnow hout hport ⊢
  have hio := c.portCmd_io p 6 id 0 0 0 false true
  refine ⟨(hio.portState p).trans (State.fld_of_regs hregs _), by rw [hio.port p, hport], fun hq hp hfree hid => ?_⟩
  have hpush := State.portPush_busy (s := c) (p := p) ⟨6, 0, 0, none, [(2, controlBlock ctCmd (id + 2 ^ 12))]⟩ (by rw [hport]; exact hq)
    (by rw [hport]; exact hp) (by rw [hport, hnow]; exact hfree)
  rw [State.portCmd, offerBody hid, State.portControl, hpush]
  refine ⟨Sends.of_out hout, ?_⟩
  rw [State.edlPort_set_same]
  rfl

/-! The statements on TRAIN DONE. -/

theorem exec_edlTrainDone_live (hlive : s.boot.resetLow = false) : exec (.edlTrainDone p) s = .next (s.left (s.trainDone p)) :=
  (exec_edlTrainDone s p).trans (State.unheld_live hlive)

theorem State.trainDone_stays (h : s.portState p ≠ portTRAINING ∨ (s.edlPort p).pattern = none) : s.trainDone p = s := by
  unfold State.trainDone
  split
  next htrain =>
    split
    next => rfl
    next t0 hpat =>
      rcases h with h | h
      · exact absurd htrain h
      · rw [h] at hpat; cases hpat
  next => rfl

theorem State.trainDone_eq (htrain : s.portState p = portTRAINING) {t0 : Nat} (hpat : (s.edlPort p).pattern = some t0) :
    s.trainDone p = ((s.trainSent p (1100 * ticksPerUs / (16 * s.blockTicks p)) (t0 + 1100 * ticksPerUs)).trainEnds p).enumNext p := by
  unfold State.trainDone
  rw [if_pos htrain]
  split
  next h => rw [hpat] at h; cases h
  next t1 h =>
    rw [hpat] at h
    cases h
    rw [State.trainSent, State.trainEnds]

theorem State.enumNext_offers (hkind : s.portKind p = 2) (hheld : (s.edlPort p).held = none) (hid : s.nextId ≤ 0x3FF) :
    s.enumNext p = s.offerId p s.nextId := by
  unfold State.enumNext
  extract_lets x
  rw [if_neg (by rw [hkind]; decide)]
  split
  next h heq => rw [show x = s.edlPort p from rfl, hheld] at heq; cases heq
  next => rw [if_neg (Nat.not_lt.2 hid)]

/-- What the end of a training with its first step of enumeration leaves. -/
structure TrainDone (p groups at' : Nat) (s t : State) : Prop where
  now : t.now = max s.now at'
  offers : s.portKind p = 2 → (s.edlPort p).held = none → s.nextId ≤ 0x3FF → t.portState p = portENUM ∧
    (t.edlPort p).offer = some s.nextId ∧
    ((s.edlPort p).queue = [] → (s.edlPort p).prog = none → s.laneCarries (laneEdl p) = true →
      sentEdl s t p = (List.range (groups - 1)).flatMap (fun i => patternGroup (i + 1)) ++ [(2, controlBlock 0x66 2)] ∧
      (t.edlPort p).queue.flatMap (·.blocks) = [(2, controlBlock 0x4B (s.nextId + 2 ^ 12))])

theorem TrainEnded.done {groups at' : Nat} (h : TrainEnded p groups at' s t) (hp : p < 64) : TrainDone p groups at' s (t.enumNext p) := by
  refine ⟨(t.enumNext_now hp).trans h.now, fun hkind hheld hid => ?_⟩
  rw [State.enumNext_offers ((h.ids.kind p).trans hkind) ((h.ids.held p).trans hheld) (h.ids.nextId ▸ hid), h.ids.nextId]
  obtain ⟨hstate, hoffer, hwaits⟩ := t.offerId_offered p s.nextId
  refine ⟨hstate.trans h.state, hoffer, fun hq hprog hlane => ?_⟩
  obtain ⟨hquiet, hblocks⟩ := hwaits (h.queue.trans hq) (h.prog.trans hprog) h.busy (by omega)
  exact ⟨((h.sends hlane).trans_nil hquiet).sent, hblocks⟩

theorem TrainDone.left {groups at' : Nat} (h : TrainDone p groups at' s t) : TrainDone p groups at' s (s.left t) := by
  refine ⟨?_, h.offers⟩
  rw [State.left_now, h.now]
  exact max_eq_right (le_max_left _ _)

theorem train_us : 1100 * ticksPerUs = 1100 * 256000 := by decide

theorem trainDone_statement (hlive : s.boot.resetLow = false) (hp : p < 64) (htrain : s.portState p = portTRAINING) {t0 : Nat}
    (hpat : (s.edlPort p).pattern = some t0) : ∃ t, exec (.edlTrainDone p) s = .next t ∧
      TrainDone p (1100 * 256000 / (16 * s.blockTicks p)) (t0 + 1100 * 256000) s t := by
  have hended := s.trainEnds_ended hp (1100 * ticksPerUs / (16 * s.blockTicks p)) (t0 + 1100 * ticksPerUs)
  have hexec := exec_edlTrainDone_live hlive (p := p)
  rw [State.trainDone_eq htrain hpat] at hexec
  rw [← train_us]
  generalize ((s.trainSent p (1100 * ticksPerUs / (16 * s.blockTicks p)) (t0 + 1100 * ticksPerUs)).trainEnds p) = c at hended hexec
  exact ⟨_, hexec, (hended.done hp).left⟩

/-! PRBS bursts (R303). -/

/-- The item of a burst, and what is noted of it. -/
def State.burstSent (s : State) (p n : Nat) : State :=
  s.portPush p ⟨8, 0, 0, none, (2, controlBlock ctTrain (3 + 2 ^ 16 * max 1 (s.fld Reg.EDL_PRBS_CFG_BLOCKS))) ::
    prbsBlocks (min n (max 1 (s.fld Reg.EDL_PRBS_CFG_BLOCKS))) (2 ^ 31 - 1)⟩

def State.burstNoted (s : State) (p no : Nat) : State := (s.setEdlPort p { s.edlPort p with burst := no }).bump (Reg.EDL_PORT_BURSTS p)

/-- A burst is due on a port. -/
def State.burstDue (s : State) (p : Nat) : Prop :=
  s.flag Reg.EDL_PRBS_CFG_EN = true ∧ (s.rd Reg.TIMING_FRAME_NO).toNat % max 1 (s.fld Reg.EDL_PRBS_CFG_EVERY) = 0 ∧ s.vact ≤ s.tim.line ∧
    s.portIsUp p = true ∧ (s.edlPort p).burst ≠ (s.rd Reg.TIMING_FRAME_NO).toNat + 1

theorem State.prbsBurst_due (n : Nat) (h : s.burstDue p) :
    s.prbsBurst p n = (s.burstSent p n).burstNoted p ((s.rd Reg.TIMING_FRAME_NO).toNat + 1) := by
  obtain ⟨hen, hevery, hline, hup, hburst⟩ := h
  unfold State.prbsBurst
  extract_lets no due want c d
  have hdue : due = true := by simp [due, no, hen, hevery, hline, hup, hburst]
  rw [if_neg (by rw [hdue]; decide)]
  rfl

theorem State.prbsBurst_not_due (n : Nat) (h : ¬ s.burstDue p) : s.prbsBurst p n = s := by
  unfold State.prbsBurst
  extract_lets no due want c d
  refine if_pos ?_
  by_contra hdue
  refine h ?_
  simp only [due, Bool.not_eq_true', Bool.not_eq_false, Bool.and_eq_true, beq_iff_eq, bne_iff_ne, decide_eq_true_eq] at hdue
  obtain ⟨⟨⟨⟨hen, hevery⟩, hline⟩, hup⟩, hburst⟩ := hdue
  exact ⟨hen, hevery, hline, hup, hburst⟩

theorem exec_prbsBurst_live (hlive : s.boot.resetLow = false) : exec (.prbsBurst p n) s = .next (s.left (s.prbsBurst p n)) :=
  (exec_prbsBurst s p n).trans (State.unheld_live hlive)

/-- What a burst that is due leaves. -/
structure Bursts (p n want : Nat) (s t : State) : Prop where
  count : counted s t (Reg.EDL_PORT_BURSTS p) 1
  sends : portFree s p s.now → s.laneCarries (laneEdl p) = true → sentEdl s t p = [(2, controlBlock 0x66 (3 + 2 ^ 16 * want))] ∧
    (t.edlPort p).prog.toList.flatMap (·.blocks) = prbsBlocks (min n want) (2 ^ 31 - 1)

theorem State.burstNoted_effect (s : State) (hp : p < 64) (no : Nat) : counted s (s.burstNoted p no) (Reg.EDL_PORT_BURSTS p) 1 ∧
    (s.burstNoted p no).out = s.out ∧ ((s.burstNoted p no).edlPort p).prog = (s.edlPort p).prog := by
  have hraw : Reg.HDR_IRQ_RAW (hdrPage (Reg.EDL_PORT_BURSTS p / 0x1000)) ≠ Reg.EDL_PORT_BURSTS p := by
    rw [show Reg.EDL_PORT_BURSTS p / 0x1000 = 0xA0 + p by rw [Reg.EDL_PORT_BURSTS]; omega, portPage_hdr hp, Reg.HDR_IRQ_RAW, Reg.EDL_PORT_BURSTS]
    omega
  unfold State.burstNoted
  have hregs : (s.setEdlPort p { s.edlPort p with burst := no }).regs = s.regs := rfl
  have hout : (s.setEdlPort p { s.edlPort p with burst := no }).out = s.out := rfl
  have hport := s.edlPort_set_same (p := p) { s.edlPort p with burst := no }
  generalize s.setEdlPort p { s.edlPort p with burst := no } = c at hregs hout hport ⊢
  have honly := c.bump_onlyRegs (Reg.EDL_PORT_BURSTS p)
  exact ⟨counted_trans_right (State.rd_of_regs hregs _) (counted_of_rd rfl hraw), honly.out_eq.trans hout, by rw [honly.edlPort_eq, hport]⟩

theorem EdlItem.rest_blocks {i : EdlItem} {c : Nat × Nat} {later : List (Nat × Nat)} (hi : i.blocks = c :: later) :
    (i.rest none).toList.flatMap (·.blocks) = later := by
  rw [EdlItem.rest, hi, List.tail_cons]
  cases later <;> simp

theorem State.prbsBurst_bursts (s : State) (hp : p < 64) (n : Nat) (h : s.burstDue p) :
    Bursts p n (max 1 (s.fld Reg.EDL_PRBS_CFG_BLOCKS)) s (s.prbsBurst p n) := by
  rw [State.prbsBurst_due n h]
  have hio : PortIo s (s.burstSent p n) := s.portPush_io p _
  have hbegun := fun hfree : portFree s p s.now => s.portPush_free (i := ⟨8, 0, 0, none,
    (2, controlBlock ctTrain (3 + 2 ^ 16 * max 1 (s.fld Reg.EDL_PRBS_CFG_BLOCKS))) ::
      prbsBlocks (min n (max 1 (s.fld Reg.EDL_PRBS_CFG_BLOCKS))) (2 ^ 31 - 1)⟩) hfree rfl
  rw [← State.burstSent] at hbegun
  generalize s.burstSent p n = c at hio hbegun ⊢
  obtain ⟨hcount, hout, hprog⟩ := c.burstNoted_effect hp ((s.rd Reg.TIMING_FRAME_NO).toNat + 1)
  generalize c.burstNoted p ((s.rd Reg.TIMING_FRAME_NO).toNat + 1) = d at hcount hout hprog ⊢
  refine ⟨counted_trans_right (hio.rd _) hcount, fun hfree hlane => ⟨?_, ?_⟩⟩
  · exact (((hbegun hfree).sends hlane).trans_nil (Sends.of_out hout)).sent
  · rw [hprog, (hbegun hfree).port]
    exact EdlItem.rest_blocks rfl

theorem Bursts.left {want : Nat} (h : Bursts p n want s t) : Bursts p n want s (s.left t) := ⟨h.count, h.sends⟩

theorem burst_statement (hlive : s.boot.resetLow = false) (hp : p < 64) (h : s.burstDue p) : ∃ t, exec (.prbsBurst p n) s = .next t ∧
    Bursts p n (max 1 (s.fld Reg.EDL_PRBS_CFG_BLOCKS)) s t :=
  ⟨_, exec_prbsBurst_live hlive, (s.prbsBurst_bursts hp n h).left⟩

theorem exec_prbsBurst_not_due (hlive : s.boot.resetLow = false) (h : ¬ s.burstDue p) : exec (.prbsBurst p n) s = .next s := by
  rw [exec_prbsBurst_live hlive, State.prbsBurst_not_due n h, State.left_of_steady (Steady.refl s)]

theorem exec_edlTrainDone_stays (hlive : s.boot.resetLow = false) (h : s.portState p ≠ portTRAINING ∨ (s.edlPort p).pattern = none) :
    exec (.edlTrainDone p) s = .next s := by
  rw [exec_edlTrainDone_live hlive, State.trainDone_stays h, State.left_of_steady (Steady.refl s)]

/-- Settles O41, command by command: TRAIN DONE sends through the idle port and queues the offer behind it; an attempt that
fails is followed over the two states it passes; the walk goes entry by entry and port by port. -/
theorem portsTrain : Obligations.PortsTrain := by
  unfold Obligations.PortsTrain
  refine ⟨fun s p hlive hp => ⟨exec_edlTrainDone_stays hlive, fun t0 htrain hpat => ?_, timeout_statement hlive hp, exec_edlTrainTimeout_stays hlive,
      retryPort_statement hlive hp, exec_edlTrainRetry_stays hlive⟩,
    fun s p port w hp hs => retrain_statement hp hs, fun s port w hs => ?_, fun s p n want due hlive hp hwant hdue => ?_⟩
  · obtain ⟨t, hexec, hnow, hoffers⟩ := trainDone_statement hlive hp htrain hpat
    exact ⟨t, hexec, hnow, hoffers⟩
  · obtain ⟨t, hexec, hentries, hruns, htrains⟩ := enum_statement (port := port) (w := w) hs
    exact ⟨t, hexec, hruns, hentries, htrains⟩
  · refine ⟨fun hnot => exec_prbsBurst_not_due hlive fun h => hnot (hdue.2 h), fun h => ?_⟩
    obtain ⟨t, hexec, hcount, hsends⟩ := burst_statement (n := n) hlive hp (hdue.1 h)
    rw [← hwant] at hsends
    exact ⟨t, hexec, hcount, hsends⟩

end Sys2Proof.Machine
end

section
/-! PROOFS. What a function leaves of the clock and of the memories: their core, and the rules to follow it by. -/

namespace Sys2Proof.Machine

variable {s t u v : State} {a b k l m n p q : Nat} {w : Word} {x : Fld}

/-- The clock, the memories, and the generations that say what an unwritten cell of them reads as. -/
structure Core where
  now : Nat
  dram : Cells Byte
  sram : Cells Word
  flash : Cells Byte
  dramGen : Nat
  pageGens : Cells Nat
  bankGens : Cells Nat

def State.core (s : State) : Core := ⟨s.now, s.dram, s.sram, s.nv.flash, s.mem.dramGen, s.mem.pageGens, s.mem.bankGens⟩

/-- The memories are in their canonical form. -/
def Core.wf (c : Core) : Bool :=
  Cells.wf (dramDefault c.dramGen c.pageGens) c.dram && Cells.wf (sramDefault c.bankGens) c.sram && Cells.wf flashDefault c.flash

theorem Memory.wf_eq (s : State) : Memory.wf s = s.core.wf := rfl

/-- The parts of a core, by the state's own fields. -/
theorem core_fields : (∀ s : State, s.now = s.core.now) ∧ (∀ s : State, s.dram = s.core.dram) ∧ (∀ s : State, s.sram = s.core.sram) ∧
    (∀ s : State, s.nv.flash = s.core.flash) ∧ (∀ s : State, s.mem.dramGen = s.core.dramGen) ∧
    (∀ s : State, s.mem.pageGens = s.core.pageGens) ∧ (∀ s : State, s.mem.bankGens = s.core.bankGens) :=
  ⟨fun _ => rfl, fun _ => rfl, fun _ => rfl, fun _ => rfl, fun _ => rfl, fun _ => rfl, fun _ => rfl⟩

section
variable {now fresh : Nat} {regs act sram : Cells Word} {dram : Cells Byte} {out : List Output} {phy : PhyState} {mem : MemState}
  {inj : PerturbState} {clk : ClkState} {pwr : PwrState} {chip : ChipState} {inp : InputState} {sta : StatsState} {sto : StoreState}
  {zon : ZoneState} {psf : PsfState} {fie : FieldState} {cas : CasState} {isl : IslState} {nv : NvState} {tim : TimState}
  {srf : SrefState} {spl : SplitState} {path : PathState} {pat : PatchState} {dfc : DefectState} {od : OdState} {thm : ThermState}
  {dit : DithState} {edl : EdlState} {pan : PanelState} {boot : BootState} {test : TestState} {tap : TapState} {sec : SecState}
  {host : HostState} {soft : List Nat} {pending : List Instr}

/-- The core of a state that is written out. -/
@[simp] theorem State.core_mk : (State.mk now regs act dram sram fresh out phy mem inj clk pwr chip inp sta sto zon psf fie cas isl nv tim srf
    spl path pat dfc od thm dit edl pan boot test tap sec host soft pending).core =
    ⟨now, dram, sram, nv.flash, mem.dramGen, mem.pageGens, mem.bankGens⟩ := rfl
end

/-! Branches, loops and registers. -/

@[simp] theorem State.core_ite {c : Prop} [Decidable c] (s t : State) : (if c then s else t).core = if c then s.core else t.core :=
  apply_ite State.core c s t

@[simp] theorem State.core_fst_ite {α : Type} {c : Prop} [Decidable c] (y z : State × α) :
    (if c then y else z).1.core = if c then y.1.core else z.1.core := apply_ite (fun y : State × α => y.1.core) c y z

@[simp] theorem State.each_core {α : Type} {l : List α} {f : α → State → State} (h : ∀ y t, (f y t).core = t.core) (s : State) :
    (s.each l f).core = s.core :=
  State.each_induct (fun t => t.core = s.core) l f (fun y t ht => (h y t).trans ht) s rfl

@[simp] theorem State.core_snd_ite {α : Type} {c : Prop} [Decidable c] (y z : α × State) :
    (if c then y else z).2.core = if c then y.2.core else z.2.core := apply_ite (fun y : α × State => y.2.core) c y z

@[simp] theorem foldl_core {α : Type} {l : List α} {f : State → α → State} (h : ∀ t y, (f t y).core = t.core) (s : State) :
    (l.foldl f s).core = s.core := State.each_core (f := fun y t => f t y) (fun y t => h t y) s

@[simp] theorem foldl_fst_core {α β : Type} {l : List α} {f : State × β → α → State × β} (h : ∀ acc y, (f acc y).1.core = acc.1.core)
    (acc : State × β) : (l.foldl f acc).1.core = acc.1.core := by
  induction l generalizing acc with
  | nil => rfl
  | cons y l ih => exact (ih (f acc y)).trans (h acc y)

@[simp] theorem foldl_snd_core {α β : Type} {l : List α} {f : β × State → α → β × State} (h : ∀ acc y, (f acc y).2.core = acc.2.core)
    (acc : β × State) : (l.foldl f acc).2.core = acc.2.core := by
  induction l generalizing acc with
  | nil => rfl
  | cons y l ih => exact (ih (f acc y)).trans (h acc y)

theorem core_of_pair {α : Type} {y : State × α} {z : α} (h : y = (t, z)) (g : y.1.core = s.core) : t.core = s.core := by
  rw [h] at g
  exact g

/-! Frames proved before. -/

theorem PortIo.core (h : PortIo s t) : t.core = s.core := by obtain ⟨_, _, _, rfl⟩ := h.state; rfl

/-! What changes a memory keeps the clock and the canonical form. -/

/-- The clock stands, and memories in canonical form stay so. -/
abbrev Fit (s t : State) : Prop := t.core.now = s.core.now ∧ (s.core.wf = true → t.core.wf = true)

@[simp] theorem Core.now_ite {c : Prop} [Decidable c] (y z : Core) : (if c then y else z).now = if c then y.now else z.now := apply_ite ..
@[simp] theorem Core.wf_ite {c : Prop} [Decidable c] (y z : Core) : (if c then y else z).wf = if c then y.wf else z.wf := apply_ite ..
@[simp] theorem Core.wf_mk (n : Nat) (c : Core) : (⟨n, c.dram, c.sram, c.flash, c.dramGen, c.pageGens, c.bankGens⟩ : Core).wf = c.wf := rfl
@[simp] theorem Core.mk_eta (c : Core) : (⟨c.now, c.dram, c.sram, c.flash, c.dramGen, c.pageGens, c.bankGens⟩ : Core) = c := rfl

theorem Fit.refl (s : State) : Fit s s := ⟨rfl, id⟩
theorem Fit.trans (h : Fit s t) (g : Fit t u) : Fit s u := ⟨g.1.trans h.1, fun hs => g.2 (h.2 hs)⟩
theorem Fit.of_core (h : t.core = s.core) : Fit s t := by rw [Fit, h]; exact ⟨rfl, id⟩
theorem Fit.of_wf (hnow : t.now = s.now) (h : Memory.wf s = true → Memory.wf t = true) : Fit s t := ⟨hnow, h⟩

@[simp] theorem State.each_fit {α : Type} {l : List α} {f : α → State → State} (h : ∀ y t, Fit t (f y t)) (s : State) : Fit s (s.each l f) :=
  State.each_induct (Fit s) l f (fun y t ht => ht.trans (h y t)) s (Fit.refl s)

@[simp] theorem foldl_fit {α : Type} {l : List α} {f : State → α → State} (h : ∀ t y, Fit t (f t y)) (s : State) : Fit s (l.foldl f s) :=
  State.each_fit (f := fun y t => f t y) (fun y t => h t y) s

@[simp] theorem foldl_fst_fit {α β : Type} {l : List α} {f : State × β → α → State × β} (h : ∀ acc y, Fit acc.1 (f acc y).1)
    (acc : State × β) : Fit acc.1 (l.foldl f acc).1 := by
  induction l generalizing acc with
  | nil => exact Fit.refl acc.1
  | cons y l ih => exact (h acc y).trans (ih (f acc y))

theorem fit_of_pair {α : Type} {y : State × α} {z : α} (h : y = (t, z)) (g : Fit s y.1) : Fit s t := by
  rw [h] at g
  exact g

/-! The operations of the memories. -/

@[simp] theorem State.sramWr_fit (s : State) (bank word : Nat) (v : Word) : Fit s (s.sramWr bank word v) :=
  Fit.of_wf rfl fun h => Memory.wf_sramWr h bank word v
@[simp] theorem State.sramPut_fit (s : State) (bank word : Nat) (l : List Word) : Fit s (s.sramPut bank word l) :=
  Fit.of_wf rfl fun h => Memory.wf_sramPut h bank word l
@[simp] theorem State.sramGen_fit (s : State) (bank g : Nat) : Fit s (s.sramGen bank g) := Fit.of_wf rfl fun h => Memory.wf_sramGen h bank g
@[simp] theorem State.dramWrite_fit (s : State) (pa : Nat) (l : List Byte) : Fit s (s.dramWrite pa l) :=
  Fit.of_wf rfl fun h => Memory.wf_dramWrite h pa l
@[simp] theorem State.pageLost_fit (s : State) (p : Nat) : Fit s (s.pageLost p) := Fit.of_wf rfl fun h => Memory.wf_pageLost h p
@[simp] theorem State.flashPut_fit (s : State) (a : Nat) (l : List Byte) : Fit s (s.flashPut a l) :=
  Fit.of_wf rfl fun h => Memory.wf_flashPut h a l
@[simp] theorem State.flashErase_fit (s : State) (a n : Nat) : Fit s (s.flashErase a n) := Fit.of_wf rfl fun h => Memory.wf_flashErase h a n

end Sys2Proof.Machine
end

section
/-! PROOFS. The core under the functions that leave it alone: registers, lanes, clocks, statistics, the frame store, the light. -/

namespace Sys2Proof.Machine

/-! Of Machine/Ops. -/

@[simp] theorem State.wr_core (s : State) (a : Nat) (w : Word) : (s.wr a w).core = s.core := by simp [State.wr, core_fields]
@[simp] theorem State.put_core (s : State) (x : Fld) (n : Nat) : (s.put x n).core = s.core := by simp [State.put]
@[simp] theorem State.wrN_core (s : State) (a n : Nat) : (s.wrN a n).core = s.core := by simp [State.wrN]
@[simp] theorem State.noteRise_core (s : State) (was : Bool) (p : Nat) : (s.noteRise was p).core = s.core := by simp [State.noteRise, core_fields]
@[simp] theorem State.raise_core (s : State) (p b : Nat) : (s.raise p b).core = s.core := by simp [State.raise]
@[simp] theorem State.raiseIf_core (s : State) (c : Bool) (p b : Nat) : (s.raiseIf c p b).core = s.core := by simp [State.raiseIf]
@[simp] theorem State.bumpBy_core (s : State) (x : Fld) (n : Nat) : (s.bumpBy x n).core = s.core := by
  simp only [State.bumpBy]
  repeat' split
  all_goals simp [*]
@[simp] theorem State.bump_core (s : State) (a : Nat) : (s.bump a).core = s.core := by simp [State.bump]
@[simp] theorem State.bumpIf_core (s : State) (c : Bool) (a : Nat) : (s.bumpIf c a).core = s.core := by simp [State.bumpIf]
@[simp] theorem State.bumpPhy_core (s : State) (x : Fld) (n : Nat) : (s.bumpPhy x n).core = s.core := by simp [State.bumpPhy]
@[simp] theorem State.err_core (s : State) (p code : Nat) : (s.err p code).core = s.core := by simp [State.err]
@[simp] theorem State.emit_core (s : State) (k : OutKind) (dst : Nat) (data : List Nat) : (s.emit k dst data).core = s.core := by simp [State.emit, core_fields]
@[simp] theorem State.used_core (s : State) : s.used.core = s.core := by simp [State.used, core_fields]
@[simp] theorem State.when_core {f : State → State} (h : ∀ t, (f t).core = t.core) (s : State) (c : Bool) : (s.when c f).core = s.core := by
  unfold State.when
  split
  · exact h s
  · rfl

/-! Of Machine/Perturb. -/

@[simp] theorem State.voidGuarantee_core (s : State) : s.voidGuarantee.core = s.core := by simp [State.voidGuarantee]
@[simp] theorem State.perturbStore_core (s : State) (a : Nat) (w : Word) : (s.perturbStore a w).core = s.core := by simp [State.perturbStore, core_fields]
@[simp] theorem State.perturbStop_core (s : State) : s.perturbStop.core = s.core := by simp [State.perturbStop, core_fields]
@[simp] theorem State.injected_core (s : State) : s.injected.core = s.core := by simp [State.injected]
@[simp] theorem State.injLat_core (s : State) (cls n : Nat) : (s.injLat cls n).core = s.core := by simp [State.injLat]
@[simp] theorem State.injStretch_core (s : State) : s.injStretch.core = s.core := by simp [State.injStretch]
@[simp] theorem State.injCrc_core (s : State) (t : Nat) : (s.injCrc t).2.core = s.core := by simp [State.injCrc, core_fields]
@[simp] theorem State.injEcc_core (s : State) (cls : Nat) : (s.injEcc cls).2.core = s.core := by simp [State.injEcc, core_fields]
@[simp] theorem State.injPager_core (s : State) (h : Nat) : (s.injPager h).2.core = s.core := by simp [State.injPager]
@[simp] theorem State.injClksw_core (s : State) (m : Nat) : (s.injClksw m).2.core = s.core := by simp [State.injClksw]

/-! Of Machine/Lanes. -/

@[simp] theorem State.setLane_core (s : State) (l : Nat) (x : Lane) : (s.setLane l x).core = s.core := by simp [State.setLane, core_fields]
@[simp] theorem State.mapLane_core (s : State) (l : Nat) (f : Lane → Lane) : (s.mapLane l f).core = s.core := by simp [State.mapLane]
@[simp] theorem State.laneStart_core (s : State) (l t : Nat) : (s.laneStart l t).core = s.core := by simp [State.laneStart]
@[simp] theorem State.laneAim_core (s : State) (l : Nat) : (s.laneAim l).core = s.core := by
  unfold State.laneAim
  split <;> simp 
@[simp] theorem State.laneProto_core (s : State) (l t : Nat) : (s.laneProto l t).core = s.core := by simp [State.laneProto]
@[simp] theorem State.esCounts_core (s : State) (l ui errs : Nat) : (s.esCounts l ui errs).core = s.core := by simp [State.esCounts]
@[simp] theorem State.esAbort_core (s : State) (l : Nat) : (s.esAbort l).core = s.core := by simp [State.esAbort]
@[simp] theorem State.laneReached_core (s : State) (l t : Nat) : (s.laneReached l t).core = s.core := by simp [State.laneReached]
@[simp] theorem State.laneDone_core (s : State) (l : Nat) : (s.laneDone l).core = s.core := by
  simp only [State.laneDone]
  repeat' split
  all_goals simp [*]
@[simp] theorem State.laneLostLock_core (s : State) (l : Nat) : (s.laneLostLock l).core = s.core := by simp [State.laneLostLock]
@[simp] theorem State.laneLocked_core (s : State) (l : Nat) (inverted : Bool) : (s.laneLocked l inverted).core = s.core := by simp [State.laneLocked]
@[simp] theorem State.prbsFill_core (s : State) (l : Nat) : (s.prbsFill l).core = s.core := by simp [State.prbsFill]
@[simp] theorem State.edlSend_core (s : State) (port hdr payload : Nat) : (s.edlSend port hdr payload).core = s.core := by simp [State.edlSend]
@[simp] theorem State.casSend_core (s : State) (k hdr payload : Nat) : (s.casSend k hdr payload).core = s.core := by simp [State.casSend]
@[simp] theorem State.bcGroups_core (s : State) (l : List Byte) : (s.bcGroups l).core = s.core := by simp [State.bcGroups]
@[simp] theorem State.bcIdle_core (s : State) : s.bcIdle.core = s.core := by simp [State.bcIdle]
@[simp] theorem State.bcSend_core (s : State) (type tag : Nat) (payload : List Byte) : (s.bcSend type tag payload).core = s.core := by simp [State.bcSend]
@[simp] theorem State.ctleFollow_core (s : State) (l : Nat) : (s.ctleFollow l).core = s.core := by simp [State.ctleFollow]
@[simp] theorem State.ctleChoose_core (s : State) (l : Nat) : (s.ctleChoose l).core = s.core := by simp [State.ctleChoose]
@[simp] theorem State.casEcho_core (s : State) (l hdr payload : Nat) : (s.casEcho l hdr payload).core = s.core := by simp [State.casEcho]
@[simp] theorem State.takeBlock_core (s : State) (l hdr payload : Nat) : (s.takeBlock l hdr payload).1.core = s.core := by simp [State.takeBlock]
@[simp] theorem State.dfeUpdate_core (s : State) (l : Nat) (err : Bool) (dec : Nat) : (s.dfeUpdate l err dec).core = s.core := by simp [State.dfeUpdate]
@[simp] theorem State.adaptWindow_core (s : State) (l trans : Nat) : (s.adaptWindow l trans).core = s.core := by simp [State.adaptWindow]
@[simp] theorem State.esStart_core (s : State) (l : Nat) : (s.esStart l).core = s.core := by simp [State.esStart]
@[simp] theorem State.esEnd_core (s : State) (l errs : Nat) : (s.esEnd l errs).core = s.core := by simp [State.esEnd]
@[simp] theorem State.prbsSync_core (s : State) (l errs : Nat) : (s.prbsSync l errs).core = s.core := by simp [State.prbsSync]
@[simp] theorem State.phyCntClr_core (s : State) (l m : Nat) : (s.phyCntClr l m).core = s.core := by simp [State.phyCntClr]
@[simp] theorem State.presetAsked_core (s : State) (l p : Nat) : (s.presetAsked l p).core = s.core := by simp [State.presetAsked]
@[simp] theorem State.refPendFlag_core (s : State) : s.refPendFlag.core = s.core := by simp [State.refPendFlag]
@[simp] theorem State.refcfgWrite_core (s : State) (w : Word) : (s.refcfgWrite w).core = s.core := by simp [State.refcfgWrite, core_fields]
@[simp] theorem State.refcfgApply_core (s : State) : s.refcfgApply.core = s.core := by
  simp only [State.refcfgApply]
  repeat' split
  all_goals simp [core_fields, *]

/-! Of Machine/Clock. -/

@[simp] theorem State.tbAdd_core (s : State) (n : Nat) : (s.tbAdd n).core = s.core := by simp [State.tbAdd, core_fields]
@[simp] theorem State.setMuxTo_core (s : State) (m : Nat) (v : Option Nat) : (s.setMuxTo m v).core = s.core := by simp [State.setMuxTo, core_fields]
@[simp] theorem State.setMuxPend_core (s : State) (m : Nat) (v : Option Nat) : (s.setMuxPend m v).core = s.core := by simp [State.setMuxPend, core_fields]
@[simp] theorem State.muxFail_core (s : State) : s.muxFail.core = s.core := by simp [State.muxFail]
@[simp] theorem State.muxRequest_core (s : State) (m src : Nat) : (s.muxRequest m src).core = s.core := by
  simp only [State.muxRequest]
  repeat' split
  all_goals simp [*]
@[simp] theorem State.muxNext_core (s : State) (m : Nat) : (s.muxNext m).core = s.core := by simp [State.muxNext]
@[simp] theorem State.muxTake_core (s : State) (m src : Nat) : (s.muxTake m src).core = s.core := by simp [State.muxTake, core_fields]
@[simp] theorem State.muxForce_core (s : State) (m : Nat) : (s.muxForce m).core = s.core := by
  unfold State.muxForce
  split <;> simp 
@[simp] theorem State.muxDone_core (s : State) (m : Nat) : (s.muxDone m).core = s.core := by
  unfold State.muxDone
  split <;> simp 
@[simp] theorem State.muxFailed_core (s : State) (m : Nat) : (s.muxFailed m).core = s.core := by
  unfold State.muxFailed
  split <;> simp 
@[simp] theorem State.setSrcPend_core (s : State) (m : Nat) (v : Option Nat) : (s.setSrcPend m v).core = s.core := by simp [State.setSrcPend, core_fields]
@[simp] theorem State.srcRequest_core (s : State) (m src : Nat) : (s.srcRequest m src).core = s.core := by simp [State.srcRequest]
@[simp] theorem State.srcApply_core (s : State) : s.srcApply.core = s.core := by
  simp only [State.srcApply]
  repeat' split
  all_goals simp [*]
@[simp] theorem State.clkCfgWrite_core (s : State) (w : Word) : (s.clkCfgWrite w).core = s.core := by simp [State.clkCfgWrite]
@[simp] theorem State.pllLocked_core (s : State) (p : Nat) : (s.pllLocked p).core = s.core := by simp [State.pllLocked, core_fields]
@[simp] theorem State.pllLost_core (s : State) (p : Nat) : (s.pllLost p).core = s.core := by simp [State.pllLost, core_fields]
@[simp] theorem State.xtalStable_core (s : State) : s.xtalStable.core = s.core := by simp [State.xtalStable, core_fields]
@[simp] theorem State.xtalLoss_core (s : State) : s.xtalLoss.core = s.core := by simp [State.xtalLoss, core_fields]
@[simp] theorem State.refWindow_core (s : State) (n : Nat) : (s.refWindow n).core = s.core := by simp [State.refWindow, core_fields]
@[simp] theorem State.trimWindow_core (s : State) (n : Nat) : (s.trimWindow n).core = s.core := by simp [State.trimWindow, core_fields]
@[simp] theorem State.pixRefUpdate_core (s : State) : s.pixRefUpdate.core = s.core := by simp [State.pixRefUpdate]

/-! Of Machine/Mem. -/

@[simp] theorem State.accessMiss_core (s : State) (port addr : Nat) (wr : Bool) : (s.accessMiss port addr wr).core = s.core := by simp [State.accessMiss]
@[simp] theorem State.nonOwner_core (s : State) (bank req : Nat) (wr : Bool) : (s.nonOwner bank req wr).core = s.core := by simp [State.nonOwner]
@[simp] theorem State.bankMiss_core (s : State) (n owner : Nat) (wr : Bool) : (s.bankMiss n owner wr).core = s.core := by simp [State.bankMiss]
@[simp] theorem State.bankReads_core (s : State) (owner : Nat) (banks : List Nat) : (s.bankReads owner banks).core = s.core := by simp [State.bankReads]
@[simp] theorem State.regionReport_core (s : State) : s.regionReport.core = s.core := by simp [State.regionReport]
@[simp] theorem State.memFault_core (s : State) (e kind h ofs done : Nat) : (s.memFault e kind h ofs done).core = s.core := by simp [State.memFault]
@[simp] theorem State.memHalt_core (s : State) (e h ofs : Nat) (wr : Option (List Byte)) : (s.memHalt e h ofs wr).core = s.core := by
  simp [State.memHalt, core_fields]
@[simp] theorem State.lastErr_core (s : State) (pa : Nat) (uncorr : Bool) : (s.lastErr pa uncorr).core = s.core := by simp [State.lastErr]
@[simp] theorem State.beats_core (s : State) (cls n : Nat) : (s.beats cls n).core = s.core := by simp [State.beats]
@[simp] theorem State.eccUncorr_core (s : State) (pa : Nat) : (s.eccUncorr pa).core = s.core := by simp [State.eccUncorr]
@[simp] theorem State.c0Latency_core (s : State) (ns : Nat) : (s.c0Latency ns).core = s.core := by simp [State.c0Latency, core_fields]
@[simp] theorem State.c0Admit_core (s : State) (h ofs : Nat) : (s.c0Admit h ofs).core = s.core := by simp [State.c0Admit, core_fields]
@[simp] theorem State.admits_core (s : State) (e h ofs n : Nat) : (s.admits e h ofs n).core = s.core := by simp [State.admits]
@[simp] theorem State.mapMiss_core (s : State) (wr : Bool) : (s.mapMiss wr).core = s.core := by simp [State.mapMiss]
@[simp] theorem State.fltDone_core (s : State) (k e n : Nat) : (s.fltDone k e n).core = s.core := by simp [State.fltDone]

/-! Of Machine/Ctl. -/

@[simp] theorem State.mboxEnd_core (s : State) (status : Nat) : (s.mboxEnd status).core = s.core := by simp [State.mboxEnd]
@[simp] theorem State.ledPut_core (s : State) (low : Bool) : (s.ledPut low).core = s.core := by simp [State.ledPut, core_fields]
@[simp] theorem State.ledFollow_core (s : State) : s.ledFollow.core = s.core := by simp [State.ledFollow, core_fields]
@[simp] theorem State.coreRestart_core (s : State) (cause : Nat) : (s.coreRestart cause).core = s.core := by simp [State.coreRestart, core_fields]
@[simp] theorem State.coreStop_core (s : State) : s.coreStop.core = s.core := by simp [State.coreStop]
@[simp] theorem State.coreRuns_core (s : State) : s.coreRuns.core = s.core := by simp [State.coreRuns]

/-! Of Machine/Input. -/

@[simp] theorem State.setEotfBank_core (s : State) (b : Nat) (x : EotfBank) : (s.setEotfBank b x).core = s.core := by simp [State.setEotfBank, core_fields]
@[simp] theorem State.eotfStore_core (s : State) (b ch i : Nat) (v : Sample) : (s.eotfStore b ch i v).core = s.core := by simp [State.eotfStore]
@[simp] theorem State.inputRun_core (s : State) (fmt : Nat) (l : List (Nat × Nat × Nat)) : (s.inputRun fmt l).1.core = s.core := by
  simp [State.inputRun, core_fields]
@[simp] theorem State.lutRead_core (s : State) : s.lutRead.1.core = s.core := by simp [State.lutRead]
@[simp] theorem State.lutWrite_core (s : State) (w : Word) : (s.lutWrite w).core = s.core := by simp [State.lutWrite]
@[simp] theorem State.lutCtrl_core (s : State) (w : Word) : (s.lutCtrl w).core = s.core := by simp [State.lutCtrl, core_fields]
@[simp] theorem State.lutDone_core (s : State) : s.lutDone.core = s.core := by
  unfold State.lutDone
  split <;> simp [core_fields]

/-! Of Machine/Stats. -/

@[simp] theorem State.statsBegin_core (s : State) (frame : Nat) (rects : Option (List Rect)) : (s.statsBegin frame rects).core = s.core := by
  simp [State.statsBegin, core_fields]
@[simp] theorem State.statsRects_core (s : State) (rects : Option (List Rect)) : (s.statsRects rects).core = s.core := by simp [State.statsRects, core_fields]
@[simp] theorem State.statsAdd_core (s : State) (line first : Nat) (ys : List Sample) : (s.statsAdd line first ys).core = s.core := by
  simp [State.statsAdd, core_fields]
@[simp] theorem State.statsCapture_core (s : State) (z : Nat) (hist : List Nat) (r : ZoneRec) : (s.statsCapture z hist r).core = s.core := by
  simp [State.statsCapture]
@[simp] theorem State.closeRow_core (s : State) (row : Nat) : (s.closeRow row).core = s.core := by simp [State.closeRow, core_fields]
@[simp] theorem State.statsLine_core (s : State) (line : Nat) : (s.statsLine line).core = s.core := by simp [State.statsLine]
@[simp] theorem State.statsComplete_core (s : State) : s.statsComplete.core = s.core := by simp [State.statsComplete, core_fields]
@[simp] theorem State.statsDiscard_core (s : State) : s.statsDiscard.core = s.core := by simp [State.statsDiscard, core_fields]
@[simp] theorem State.statsRead_core (s : State) : s.statsRead.1.core = s.core := by simp [State.statsRead]

/-! Of Machine/FrameStore. -/

@[simp] theorem State.setSlotInfo_core (s : State) (n : Nat) (x : SlotInfo) : (s.setSlotInfo n x).core = s.core := by simp [State.setSlotInfo, core_fields]
@[simp] theorem State.setSlot_core (s : State) (n st : Nat) : (s.setSlot n st).core = s.core := by simp [State.setSlot]
@[simp] theorem State.decErr_core (s : State) : s.decErr.core = s.core := by simp [State.decErr]
@[simp] theorem State.countBlock_core (s : State) (mode : Nat) : (s.countBlock mode).core = s.core := by simp [State.countBlock]
@[simp] theorem State.encodeInto_core (s : State) (f : SrcFrame) (y b : Nat) (sub mrg : Bool) (px : List Pix) : (s.encodeInto f y b sub mrg px).1.core = s.core := by
  simp [State.encodeInto]
@[simp] theorem State.decodeOld_core (s : State) (y b : Nat) (refs : Refs) (blk : Nat × List Byte) : (s.decodeOld y b refs blk).1.core = s.core := by
  simp only [State.decodeOld]
  split <;> simp [*]
@[simp] theorem State.copyBlock_core (s : State) (f : SrcFrame) (y b : Nat) (refs : Refs) (blk : Nat × List Byte) : (s.copyBlock f y b refs blk).1.core = s.core := by
  simp only [State.copyBlock]
  repeat' split
  all_goals simp [*]
@[simp] theorem State.buildBlocks_core (s : State) (f : SrcFrame) (y : Nat) (spans : List (Nat × Nat)) (src : List Pix) (refs : Refs) (old : List (Nat × List Byte)) : (s.buildBlocks f y spans src refs old).1.core = s.core := by
  unfold State.buildBlocks
  refine foldl_fst_core (fun acc b => ?_) _
  dsimp only
  split <;> simp
@[simp] theorem State.setSrc_core (s : State) (f : SrcFrame) : (s.setSrc f).core = s.core := by simp [State.setSrc, core_fields]
@[simp] theorem State.passLine_core (s : State) (f : SrcFrame) (why : Nat) : (s.passLine f why).core = s.core := by
  unfold State.passLine
  split <;> simp 
@[simp] theorem State.settle_core (s : State) : s.settle.core = s.core := by
  simp only [State.settle]
  repeat' split
  all_goals simp [core_fields, *]
@[simp] theorem State.pumpHoles_core (n : Nat) (s : State) : (s.pumpHoles n).core = s.core := by
  induction n generalizing s with
  | zero => rfl
  | succ n ih =>
    unfold State.pumpHoles
    split <;> simp [ih]
@[simp] theorem State.pump_core (s : State) : s.pump.core = s.core := by simp [State.pump]
@[simp] theorem State.discardFrame_core (s : State) (sref : Bool) : (s.discardFrame sref).core = s.core := by
  simp only [State.discardFrame]
  repeat' split
  all_goals simp [core_fields, *]
@[simp] theorem State.recordMargin_core (s : State) (f : SrcFrame) : (s.recordMargin f).core = s.core := by
  simp only [State.recordMargin]
  repeat' split
  all_goals simp [*]
@[simp] theorem State.completeFrame_core (s : State) : s.completeFrame.core = s.core := by
  unfold State.completeFrame
  split <;> simp 
@[simp] theorem State.endFrame_core (s : State) : s.endFrame.core = s.core := by
  unfold State.endFrame
  split <;> simp [core_fields]
@[simp] theorem State.startFrame_core (s : State) (no tPip tLine first : Nat) (inLock part : Bool) : (s.startFrame no tPip tLine first inLock part).core = s.core := by
  simp only [State.startFrame]
  split <;> simp [core_fields, *]
@[simp] theorem State.declareMissing_core (s : State) (y : Nat) : (s.declareMissing y).core = s.core := by
  unfold State.declareMissing
  split <;> simp 
@[simp] theorem State.overtake_core (s : State) (y : Nat) : (s.overtake y).core = s.core := by
  unfold State.overtake
  split <;> simp 
@[simp] theorem State.lineComplete_core (s : State) (c : LineIn) : (s.lineComplete c).core = s.core := by
  unfold State.lineComplete
  split <;> simp [core_fields]
@[simp] theorem State.pawnKeep_core (s : State) (line first : Nat) (px : List Pix) : (s.pawnKeep line first px).core = s.core := by
  simp [State.pawnKeep, core_fields]
@[simp] theorem State.segment_core (s : State) (line first : Nat) (px : List Pix) (last : Bool) : (s.segment line first px last).core = s.core := by
  simp only [State.segment]
  repeat' split
  all_goals simp [*]
@[simp] theorem State.regionRow_core (s : State) (x y w h : Nat) (flush : Bool) : (s.regionRow x y w h flush).1.core = s.core := by
  simp only [State.regionRow]
  repeat' split
  all_goals simp [*]
@[simp] theorem State.rbSelect_core (s : State) (w : Word) : (s.rbSelect w).core = s.core := by simp [State.rbSelect, core_fields]
@[simp] theorem State.rbPixel_core (s : State) : s.rbPixel.1.core = s.core := by
  simp only [State.rbPixel]
  split <;> simp [*]
@[simp] theorem State.rbData0_core (s : State) : s.rbData0.1.core = s.core := by simp [State.rbData0]
@[simp] theorem State.rbData1_core (s : State) : s.rbData1.1.core = s.core := by simp [State.rbData1]

/-! Of Machine/Zone. -/

@[simp] theorem State.setPsfBank_core (s : State) (b : Nat) (t : Tab) : (s.setPsfBank b t).core = s.core := by simp [State.setPsfBank, core_fields]
@[simp] theorem State.psfRead_core (s : State) : s.psfRead.1.core = s.core := by simp [State.psfRead]
@[simp] theorem State.psfWrite_core (s : State) (w : Word) : (s.psfWrite w).core = s.core := by simp [State.psfWrite]
@[simp] theorem State.psfCalc_core (s : State) (w : Word) : (s.psfCalc w).core = s.core := by simp [State.psfCalc, core_fields]
@[simp] theorem State.psfCalcDone_core (s : State) : s.psfCalcDone.core = s.core := by simp [State.psfCalcDone]
@[simp] theorem State.psfActive_core (s : State) : s.psfActive.core = s.core := by simp [State.psfActive]
@[simp] theorem State.classRead_core (s : State) : s.classRead.1.core = s.core := by simp [State.classRead]
@[simp] theorem State.classWrite_core (s : State) (w : Word) : (s.classWrite w).core = s.core := by simp [State.classWrite, core_fields]
@[simp] theorem State.agRead_core (s : State) : s.agRead.1.core = s.core := by simp [State.agRead]
@[simp] theorem State.agWrite_core (s : State) (w : Word) : (s.agWrite w).core = s.core := by simp [State.agWrite, core_fields]
@[simp] theorem State.agCommit_core (s : State) (w : Word) : (s.agCommit w).core = s.core := by simp [State.agCommit]
@[simp] theorem State.agApply_core (s : State) : s.agApply.core = s.core := by simp [State.agApply, core_fields]
@[simp] theorem State.level_core (s : State) (z : Nat) (l : Sample) : (s.level z l).core = s.core := by simp [State.level, core_fields]
@[simp] theorem State.solveRow_core (s : State) : s.solveRow.core = s.core := by simp [State.solveRow, core_fields]
@[simp] theorem State.fixCap_core (s : State) (known : Bool) : (s.fixCap known).core = s.core := by simp [State.fixCap, core_fields]
@[simp] theorem State.zoneEnd_core (s : State) (no : Nat) : (s.zoneEnd no).core = s.core := by simp [State.zoneEnd, core_fields]
@[simp] theorem State.lvRead_core (s : State) : s.lvRead.1.core = s.core := by simp [State.lvRead]
@[simp] theorem State.globalSolve_core (s : State) : s.globalSolve.core = s.core := by simp [State.globalSolve, core_fields]
@[simp] theorem State.fieldProbe_core (s : State) (y : Nat) (line : List Sample) : (s.fieldProbe y line).core = s.core := by simp [State.fieldProbe]
@[simp] theorem State.zoneBoundary_core (s : State) (geom newSrc : Bool) : (s.zoneBoundary geom newSrc).core = s.core := by
  simp [State.zoneBoundary, core_fields]

/-! Of Machine/Split. -/

@[simp] theorem State.needTarget_core (s : State) (y : Int) : (s.needTarget y).core = s.core := by
  unfold State.needTarget
  split <;> simp [core_fields]
@[simp] theorem State.needHor_core (s : State) (y : Int) : (s.needHor y).core = s.core := by
  unfold State.needHor
  split <;> simp [core_fields]
@[simp] theorem State.splitProbe_core (s : State) (y : Nat) (yr b mt m me : Sample) (c : Pix) : (s.splitProbe y yr b mt m me c).core = s.core := by
  simp [State.splitProbe]
@[simp] theorem State.countClips_core (s : State) (y : Nat) (l : List SplitPx) : (s.countClips y l).core = s.core := by simp [State.countClips, core_fields]
@[simp] theorem State.swapClips_core (s : State) : s.swapClips.core = s.core := by simp [State.swapClips, core_fields]
@[simp] theorem State.splitLine_core (s : State) (y : Nat) : (s.splitLine y).1.core = s.core := by simp [State.splitLine]
@[simp] theorem State.splitBoundary_core (s : State) : s.splitBoundary.core = s.core := by simp [State.splitBoundary, core_fields]
@[simp] theorem State.clipRead_core (s : State) : s.clipRead.1.core = s.core := by simp [State.clipRead]
@[simp] theorem State.setCellBank_core (s : State) (b : Nat) (t : Tab) : (s.setCellBank b t).core = s.core := by simp [State.setCellBank, core_fields]
@[simp] theorem State.cellLine_core (s : State) (y : Nat) (l : SplitOut) : (s.cellLine y l).1.core = s.core := by simp [State.cellLine]
@[simp] theorem State.cellRead_core (s : State) : s.cellRead.1.core = s.core := by simp [State.cellRead]
@[simp] theorem State.cellWrite_core (s : State) (w : Word) : (s.cellWrite w).core = s.core := by simp [State.cellWrite]

/-! Of Machine/Banks. -/

@[simp] theorem State.bankOwnerChanged_core (s : State) (n new : Nat) : (s.bankOwnerChanged n new).core = s.core := by simp [State.bankOwnerChanged]
@[simp] theorem State.winNext_core (s : State) : s.winNext.core = s.core := by simp [State.winNext]

end Sys2Proof.Machine
end

section
/-! PROOFS. The core under the functions that leave it alone: patches, EDL, the panel, timing, power. -/

namespace Sys2Proof.Machine

/-! Of Machine/Patch. -/

@[simp] theorem State.patchHeld_core (s : State) (l : List Fetched) : (s.patchHeld l).1.core = s.core := by simp [State.patchHeld]
@[simp] theorem State.patchProbe_core (s : State) (y : Nat) (o : PatchLine) : (s.patchProbe y o).core = s.core := by simp [State.patchProbe]
@[simp] theorem State.patchLine_core (s : State) (y : Nat) (d : DriveLine) : (s.patchLine y d).core = s.core := by simp [State.patchLine, core_fields]
@[simp] theorem State.checkWrite_core (s : State) (w : Word) : (s.checkWrite w).core = s.core := by simp [State.checkWrite, core_fields]
@[simp] theorem State.patchBoundary_core (s : State) (before : Nat × Nat × Bool) : (s.patchBoundary before).core = s.core := by
  simp [State.patchBoundary, core_fields]
@[simp] theorem State.defProbe_core (s : State) (y : Nat) (o : DriveLine) : (s.defProbe y o).core = s.core := by simp [State.defProbe]
@[simp] theorem State.defFigures_core (s : State) (y : Nat) (marks : List (Nat × Nat × Nat)) : (s.defFigures y marks).core = s.core := by
  simp [State.defFigures, core_fields]
@[simp] theorem State.defectLine_core (s : State) (y : Nat) : (s.defectLine y).1.core = s.core := by simp [State.defectLine, core_fields]
@[simp] theorem State.defectBoundary_core (s : State) (ended : Bool) : (s.defectBoundary ended).core = s.core := by simp [State.defectBoundary, core_fields]
@[simp] theorem State.autoAdd_core (s : State) (x ch : Nat) (bottom : Bool) : (s.autoAdd x ch bottom).core = s.core := by simp [State.autoAdd, core_fields]
@[simp] theorem State.autoRead_core (s : State) : s.autoRead.1.core = s.core := by simp [State.autoRead]
@[simp] theorem State.autoCtl_core (s : State) (w : Word) : (s.autoCtl w).core = s.core := by simp [State.autoCtl, core_fields]

/-! Of Machine/Overdrive. -/

@[simp] theorem State.odProbe_core (s : State) (y : Nat) (black : Bool) (d : DriveLine) (col mono : List Fetched) : (s.odProbe y black d col mono).core = s.core := by
  simp [State.odProbe]
@[simp] theorem State.odBoundary_core (s : State) (changed : Bool) (period : Nat) : (s.odBoundary changed period).core = s.core := by
  simp [State.odBoundary, core_fields]
@[simp] theorem State.odCmd_core (s : State) (w : Word) : (s.odCmd w).core = s.core := by simp [State.odCmd, core_fields]
@[simp] theorem State.setSensor_core (s : State) (n : Nat) (x : Sensor) : (s.setSensor n x).core = s.core := by simp [State.setSensor, core_fields]
@[simp] theorem State.sensReport_core (s : State) : s.sensReport.core = s.core := by simp [State.sensReport]
@[simp] theorem State.thermCfg_core (s : State) (w : Word) : (s.thermCfg w).core = s.core := by simp [State.thermCfg]
@[simp] theorem State.adcDone_core (s : State) (code : Nat) : (s.adcDone code).core = s.core := by simp [State.adcDone, core_fields]
@[simp] theorem State.adcRestart_core (s : State) : s.adcRestart.core = s.core := by simp [State.adcRestart, core_fields]
@[simp] theorem State.thermCommit_core (s : State) (w : Word) : (s.thermCommit w).core = s.core := by simp [State.thermCommit, core_fields]
@[simp] theorem State.thermUpdate_core (s : State) : s.thermUpdate.core = s.core := by
  unfold State.thermUpdate
  split <;> simp [core_fields]
@[simp] theorem State.thermBoundary_core (s : State) (ended : Option (Nat × Nat)) (no : Nat) : (s.thermBoundary ended no).core = s.core := by
  simp only [State.thermBoundary]
  split <;> simp [core_fields, *]
@[simp] theorem State.regStep_core (s : State) (i : Nat) : (s.regStep i).core = s.core := by simp [State.regStep]
@[simp] theorem State.regDataRead_core (s : State) : s.regDataRead.1.core = s.core := by simp [State.regDataRead]
@[simp] theorem State.regDataWrite_core (s : State) (w : Word) : (s.regDataWrite w).core = s.core := by
  unfold State.regDataWrite
  split <;> simp [core_fields]
@[simp] theorem State.convRead_core (s : State) : s.convRead.1.core = s.core := by simp [State.convRead]
@[simp] theorem State.convWrite_core (s : State) (w : Word) : (s.convWrite w).core = s.core := by simp [State.convWrite, core_fields]

/-! Of Machine/Dither. -/

@[simp] theorem State.ditherProbe_core (s : State) (y : Nat) (d o : DriveLine) : (s.ditherProbe y d o).core = s.core := by simp [State.ditherProbe]
@[simp] theorem State.shadowLine_core (s : State) (y : Nat) (faults : List Nat) : (s.shadowLine y faults).core = s.core := by
  simp only [State.shadowLine]
  repeat' split
  all_goals simp [core_fields, *]
@[simp] theorem State.ditherLine_core (s : State) (y : Nat) (d : DriveLine) (faults : List Nat) : (s.ditherLine y d faults).1.core = s.core := by
  simp [State.ditherLine]
@[simp] theorem State.ditherBoundary_core (s : State) : s.ditherBoundary.core = s.core := by simp [State.ditherBoundary, core_fields]

/-! Of Machine/Edl. -/

@[simp] theorem State.setEdlPort_core (s : State) (p : Nat) (x : EdlPort) : (s.setEdlPort p x).core = s.core := by simp [State.setEdlPort, core_fields]
@[simp] theorem State.setPortState_core (s : State) (p st : Nat) : (s.setPortState p st).core = s.core := by simp [State.setPortState]
@[simp] theorem State.portBlock_core (s : State) (p at' : Nat) (i : EdlItem) (x : EdlPort) : (s.portBlock p at' i x).core = s.core := by
  unfold State.portBlock
  split <;> simp 
@[simp] theorem State.portRun_core (s : State) (p floor : Nat) (go : EdlPort → Nat → Bool) (n : Nat) : (s.portRun p floor go n).core = s.core := (s.portRun_io p floor go n).core
@[simp] theorem State.portDrain_core (s : State) (p : Nat) : (s.portDrain p).core = s.core := by simp [State.portDrain, core_fields]
@[simp] theorem State.portPush_core (s : State) (p : Nat) (i : EdlItem) : (s.portPush p i).core = s.core := by simp [State.portPush, core_fields]
@[simp] theorem State.portClear_core (s : State) (p : Nat) : (s.portClear p).core = s.core := by simp [State.portClear]
@[simp] theorem State.portSend_core (s : State) (p : Nat) (l : List (Nat × Nat)) : (s.portSend p l).core = s.core := by simp [State.portSend, core_fields]
@[simp] theorem State.portControl_core (s : State) (p place ctype body : Nat) : (s.portControl p place ctype body).core = s.core := by simp [State.portControl]
@[simp] theorem State.portCmd_core (s : State) (p place pid : Nat) (rd enum : Bool) (addr data tag : Nat) : (s.portCmd p place pid rd enum addr data tag).core = s.core := by
  simp [State.portCmd]
@[simp] theorem State.packetBlocks_core (s : State) (body : Nat) (payload : List Byte) : (s.packetBlocks body payload).1.core = s.core := by
  simp [State.packetBlocks]
@[simp] theorem State.portLine_core (s : State) (p y : Nat) (d : DriveLine) (black rep : Bool) : (s.portLine p y d black rep).core = s.core := by
  simp [State.portLine]
@[simp] theorem State.edlLine_core (s : State) (y : Nat) (d : DriveLine) (black rep : Bool) : (s.edlLine y d black rep).core = s.core := by simp [State.edlLine]
@[simp] theorem State.levelPacket_core (s : State) (p pid row : Nat) (unaddr rep : Bool) (l : List (Nat × Nat)) (key : Nat) (limit : Option Nat) : (s.levelPacket p pid row unaddr rep l key limit).1.core = s.core := by
  simp [State.levelPacket, core_fields]
@[simp] theorem State.edlLevels_core (s : State) (r : Nat) : (s.edlLevels r).core = s.core := by
  unfold State.edlLevels
  refine State.each_core (fun p t => ?_) s
  split
  · rfl
  · refine State.each_core (fun e u => ?_) t
    extract_lets ch l due
    split
    · rfl
    · split
      next v sent h => rw [State.bumpIf_core, core_of_pair h (u.levelPacket_core ..)]
@[simp] theorem State.solveAndSend_core (s : State) : s.solveAndSend.core = s.core := by simp [State.solveAndSend]
@[simp] theorem State.syncNames_core (s : State) (p t body : Nat) : (s.syncNames p t body).core = s.core := by simp [State.syncNames]
@[simp] theorem State.syncApply_core (s : State) (p t row : Nat) (dark all : Bool) : (s.syncApply p t row dark all).core = s.core := by simp [State.syncApply]
@[simp] theorem State.applyRow_core (s : State) (r : Nat) (dark : Bool) (t : Nat) : (s.applyRow r dark t).core = s.core := by simp [State.applyRow]
@[simp] theorem State.globalSend_core (s t : State) (f : Nat) : (s.globalSend t f).core = s.core := by simp [State.globalSend]
@[simp] theorem State.parkedSend_core (s : State) : s.parkedSend.core = s.core := by simp [State.parkedSend, core_fields]
@[simp] theorem State.syncFrame_core (s : State) (f no lp ofs : Nat) (nolines rep sref : Bool) : (s.syncFrame f no lp ofs nolines rep sref).core = s.core := by
  simp [State.syncFrame]
@[simp] theorem State.setAttempt_core (s : State) (p n : Nat) : (s.setAttempt p n).core = s.core := by simp [State.setAttempt]
@[simp] theorem State.sendPatterns_core (s : State) (p n seq : Nat) : (s.sendPatterns p n seq).core = s.core := by simp [State.sendPatterns, core_fields]
@[simp] theorem State.portPatterns_core (s : State) (p : Nat) : (s.portPatterns p).core = s.core := by simp [State.portPatterns, core_fields]
@[simp] theorem State.busFollow_core (s : State) (g : Nat) : (s.busFollow g).core = s.core := by simp [State.busFollow]
@[simp] theorem State.portStart_core (s : State) (p attempt : Nat) : (s.portStart p attempt).core = s.core := by simp [State.portStart, core_fields]
@[simp] theorem State.portOff_core (s : State) (p : Nat) : (s.portOff p).core = s.core := by simp [State.portOff]
@[simp] theorem State.walkCheck_core (s : State) : s.walkCheck.core = s.core := by simp [State.walkCheck, core_fields]
@[simp] theorem State.portFail_core (s : State) (p : Nat) : (s.portFail p).core = s.core := by simp [State.portFail]
@[simp] theorem State.offerBack_core (s : State) (p : Nat) : (s.offerBack p).core = s.core := by
  simp only [State.offerBack]
  split <;> simp [core_fields, *]
@[simp] theorem State.attemptFails_core (s : State) (p : Nat) : (s.attemptFails p).core = s.core := by simp [State.attemptFails]
@[simp] theorem State.portDefaults_core (s : State) (p : Nat) : (s.portDefaults p).core = s.core := by simp [State.portDefaults]
@[simp] theorem State.enumEnd_core (s : State) (p : Nat) : (s.enumEnd p).core = s.core := by
  simp only [State.enumEnd]
  split <;> simp [*]
@[simp] theorem State.offerId_core (s : State) (p id : Nat) : (s.offerId p id).core = s.core := by simp [State.offerId]
@[simp] theorem State.enumNext_core (s : State) (p : Nat) : (s.enumNext p).core = s.core := by
  simp only [State.enumNext]
  repeat' split
  all_goals simp [*]
@[simp] theorem State.trainRetry_core (s : State) (p : Nat) : (s.trainRetry p).core = s.core := by simp [State.trainRetry]
@[simp] theorem State.portRetrain_core (s : State) (p : Nat) : (s.portRetrain p).core = s.core := by simp [State.portRetrain]
@[simp] theorem State.walkStart_core (s : State) : s.walkStart.core = s.core := by
  have hentry : ∀ (e : Nat) (t : State), (t.entryCleared e).core = t.core := by simp [State.entryCleared]
  have hforget : ∀ (p : Nat) (t : State), (t.portForgets p).core = t.core := by simp [State.portForgets]
  have hbegun : ∀ t : State, t.walkBegun.core = t.core := fun t => by
    have hput : (t.put Reg.EDL_ENUM_STATUS_BUSY 1).core = t.core := t.put_core _ _
    unfold State.walkBegun
    generalize t.put Reg.EDL_ENUM_STATUS_BUSY 1 = c at hput ⊢
    simp [core_fields, hput]
  rw [State.walkStart_eq, hbegun, State.each_core hforget, State.walkCounted, State.wrN_core, State.bump_core, State.each_core hentry]
@[simp] theorem State.enumWalk_core (s : State) : s.enumWalk.core = s.core := by simp [State.enumWalk]
@[simp] theorem State.edlBoundary_core (s : State) : s.edlBoundary.core = s.core := by simp [State.edlBoundary]
@[simp] theorem State.hcmdEnd_core (s : State) (noans refused : Bool) : (s.hcmdEnd noans refused).core = s.core := by simp [State.hcmdEnd, core_fields]
@[simp] theorem State.nextTag_core (s : State) : s.nextTag.core = s.core := by simp [State.nextTag, core_fields]
@[simp] theorem State.hcmdGo_core (s : State) (w : Word) : (s.hcmdGo w).core = s.core := by simp [State.hcmdGo, core_fields]
@[simp] theorem State.defaultsSend_core (s : State) : s.defaultsSend.core = s.core := by simp [State.defaultsSend]
@[simp] theorem State.setBusSlot_core (s : State) (g : Nat) (x : Option EdlSlot) : (s.setBusSlot g x).core = s.core := by simp [State.setBusSlot, core_fields]
@[simp] theorem State.pollOpen_core (s : State) (g : Nat) : (s.pollOpen g).core = s.core := by
  simp only [State.pollOpen]
  repeat' split
  all_goals simp [core_fields, *]
@[simp] theorem State.hostReadCheck_core (s : State) : s.hostReadCheck.core = s.core := by
  unfold State.hostReadCheck
  split <;> simp 
@[simp] theorem State.busCfg_core (s : State) (g : Nat) : (s.busCfg g).core = s.core := by
  simp only [State.busCfg]
  split <;> simp [*]
@[simp] theorem State.portLost_core (s : State) (p : Nat) : (s.portLost p).core = s.core := by simp [State.portLost]
@[simp] theorem State.codeErrs_core (s : State) (g code : Nat) : (s.codeErrs g code).core = s.core := by simp [State.codeErrs]
@[simp] theorem State.pollMiss_core (s : State) (g code : Nat) (answered : Bool) : (s.pollMiss g code answered).core = s.core := by
  unfold State.pollMiss
  split <;> simp 
@[simp] theorem State.answered_core (s : State) (g pid req type : Nat) : (s.answered g pid req type).core = s.core := by simp [State.answered]
@[simp] theorem State.statusAnswer_core (s : State) (pid temp flags errs : Nat) : (s.statusAnswer pid temp flags errs).core = s.core := by
  simp [State.statusAnswer, core_fields]
@[simp] theorem State.faultsAnswer_core (s : State) (pid : Nat) (l : List Nat) : (s.faultsAnswer pid l).core = s.core := by
  simp [State.faultsAnswer, core_fields]
@[simp] theorem State.readbackAnswer_core (s : State) (pid : Nat) (l : List (Nat × Nat × Nat)) : (s.readbackAnswer pid l).core = s.core := by
  simp only [State.readbackAnswer]
  repeat' split
  all_goals simp [*]
@[simp] theorem State.capsAnswer_core (s : State) (p pid caps outputs : Nat) : (s.capsAnswer p pid caps outputs).core = s.core := by
  simp [State.capsAnswer, core_fields]
@[simp] theorem State.prbsBurst_core (s : State) (p n : Nat) : (s.prbsBurst p n).core = s.core := by simp [State.prbsBurst]
@[simp] theorem State.portLaneUp_core (s : State) (p : Nat) : (s.portLaneUp p).core = s.core := by simp [State.portLaneUp]

/-! Of Machine/Panel. -/

@[simp] theorem State.padEmit_core (s : State) (k : OutKind) (dst : Nat) (data : List Nat) : (s.padEmit k dst data).core = s.core := by simp [State.padEmit]
@[simp] theorem State.setDrive_core (s : State) (d : Nat) : (s.setDrive d).core = s.core := by simp [State.setDrive, core_fields]
@[simp] theorem State.gateLevels_core (s : State) : s.gateLevels.core = s.core := by simp [State.gateLevels]
@[simp] theorem State.pwmDrive_core (s : State) : s.pwmDrive.core = s.core := by simp [State.pwmDrive, core_fields]
@[simp] theorem State.pwmSet_core (s : State) (high : Bool) : (s.pwmSet high).core = s.core := by simp [State.pwmSet, core_fields]
@[simp] theorem State.gateBoundary_core (s : State) : s.gateBoundary.core = s.core := by simp [State.gateBoundary, core_fields]
@[simp] theorem State.backlightOff_core (s : State) : s.backlightOff.core = s.core := by simp [State.backlightOff, core_fields]
@[simp] theorem State.peDrive_core (s : State) : s.peDrive.core = s.core := by simp [State.peDrive]
@[simp] theorem State.setPe_core (s : State) (m : Nat) : (s.setPe m).core = s.core := by simp [State.setPe]
@[simp] theorem State.panelCfg_core (s : State) (w : Word) : (s.panelCfg w).core = s.core := by simp [State.panelCfg]
@[simp] theorem State.dueIn_core (s : State) (n : Nat) : (s.dueIn n).core = s.core := by simp [State.dueIn, core_fields]
@[simp] theorem State.gateSafe_core (s : State) : s.gateSafe.core = s.core := by simp [State.gateSafe]
@[simp] theorem State.stepRuns_core (s : State) (k : Nat) : (s.stepRuns k).core = s.core := by simp [State.stepRuns, core_fields]
@[simp] theorem State.stepStart_core (s : State) (k : Nat) : (s.stepStart k).core = s.core := by simp [State.stepStart, core_fields]
@[simp] theorem State.powerOn_core (s : State) : s.powerOn.core = s.core := by simp [State.powerOn]
@[simp] theorem State.powerOffDone_core (s : State) : s.powerOffDone.core = s.core := by simp [State.powerOffDone, core_fields]
@[simp] theorem State.lowerPe_core (s : State) : s.lowerPe.core = s.core := by simp [State.lowerPe]
@[simp] theorem State.offDelay_core (s : State) : s.offDelay.core = s.core := by simp [State.offDelay]
@[simp] theorem State.edlStops_core (s : State) : s.edlStops.core = s.core := by simp [State.edlStops]
@[simp] theorem State.offSupply_core (s : State) : s.offSupply.core = s.core := by simp [State.offSupply, core_fields]
@[simp] theorem State.offBacklight_core (s : State) : s.offBacklight.core = s.core := by simp [State.offBacklight, core_fields]
@[simp] theorem State.offGates_core (s : State) : s.offGates.core = s.core := by simp [State.offGates, core_fields]
@[simp] theorem State.powerOff_core (s : State) (byPfail : Bool) : (s.powerOff byPfail).core = s.core := by simp [State.powerOff, core_fields]
@[simp] theorem State.cmdOn_core (s : State) : s.cmdOn.core = s.core := by simp [State.cmdOn]
@[simp] theorem State.cmdOff_core (s : State) : s.cmdOff.core = s.core := by simp [State.cmdOff]
@[simp] theorem State.panelPfail_core (s : State) : s.panelPfail.core = s.core := by simp [State.panelPfail, core_fields]
@[simp] theorem State.autoOn_core (s : State) : s.autoOn.core = s.core := by simp [State.autoOn, core_fields]
@[simp] theorem State.pgRise_core (s : State) : s.pgRise.core = s.core := by simp [State.pgRise, core_fields]

/-! Of Machine/Timing. -/

@[simp] theorem State.latencyReport_core (s : State) : s.latencyReport.core = s.core := by simp [State.latencyReport]
@[simp] theorem State.putPhase_core (s : State) (a : Nat) (e : Int) : (s.putPhase a e).core = s.core := by simp [State.putPhase]
@[simp] theorem State.putTicks_core (s : State) (a n : Nat) : (s.putTicks a n).core = s.core := by simp [State.putTicks]
@[simp] theorem State.setTimMode_core (s : State) (m : Nat) : (s.setTimMode m).core = s.core := by simp [State.setTimMode, core_fields]
@[simp] theorem State.measure_core (s : State) : s.measure.core = s.core := by
  unfold State.measure
  split <;> simp [core_fields]
@[simp] theorem State.startSlew_core (s : State) : s.startSlew.core = s.core := by simp [State.startSlew]
@[simp] theorem State.checkRef_core (s : State) : s.checkRef.core = s.core := by simp [State.checkRef, core_fields]
@[simp] theorem State.moveNext_core (s : State) (t : Nat) : (s.moveNext t).core = s.core := by simp [State.moveNext, core_fields]
@[simp] theorem State.refEdge_core (s : State) : s.refEdge.core = s.core := by
  unfold State.refEdge
  split <;> simp 
@[simp] theorem State.srefShow_core (s : State) (code : Nat) : (s.srefShow code).core = s.core := by simp [State.srefShow]
@[simp] theorem State.srefEvent_core (s : State) (code : Nat) : (s.srefEvent code).core = s.core := by simp [State.srefEvent, core_fields]
@[simp] theorem State.srefRelease_core (s : State) : s.srefRelease.core = s.core := by
  simp only [State.srefRelease]
  repeat' split
  all_goals simp [core_fields, *]
@[simp] theorem State.srefExitCmd_core (s : State) : s.srefExitCmd.core = s.core := by simp [State.srefExitCmd, core_fields]
@[simp] theorem State.srefLinkLeft_core (s : State) : s.srefLinkLeft.core = s.core := by simp [State.srefLinkLeft, core_fields]
@[simp] theorem State.timLinkUp_core (s : State) : s.timLinkUp.core = s.core := by simp [State.timLinkUp, core_fields]
@[simp] theorem State.srefLeave_core (s : State) : s.srefLeave.core = s.core := by simp [State.srefLeave, core_fields]
@[simp] theorem State.holdoverFrame_core (s : State) : s.holdoverFrame.1.core = s.core := by
  unfold State.holdoverFrame
  split <;> simp [core_fields]
@[simp] theorem State.showings_core (s : State) (p : Nat) : (s.showings p).1.core = s.core := by simp [State.showings]
@[simp] theorem State.pipMeasured_core (s : State) (p : Nat) : (s.pipMeasured p).core = s.core := by simp [State.pipMeasured, core_fields]
@[simp] theorem State.pipTrims_core (s : State) (p k : Nat) : (s.pipTrims p k).core = s.core := by simp [State.pipTrims, core_fields]
@[simp] theorem State.shortPip_core (s : State) : s.shortPip.core = s.core := by simp [State.shortPip]
@[simp] theorem State.pipPlans_core (s : State) (no p k : Nat) (expected : Option Nat) : (s.pipPlans no p k expected).core = s.core := by
  simp [State.pipPlans, core_fields]
@[simp] theorem State.timPip_core (s : State) (no period16 : Nat) (vrr part : Bool) : (s.timPip no period16 vrr part).core = s.core := by
  simp [State.timPip, core_fields]
@[simp] theorem State.fsyncTarget_core (s : State) (f : Nat) : (s.fsyncTarget f).core = s.core := by simp [State.fsyncTarget, core_fields]
@[simp] theorem State.fsyncLost_core (s : State) : s.fsyncLost.core = s.core := by simp [State.fsyncLost, core_fields]
@[simp] theorem State.bfiTakes_core (s : State) : s.bfiTakes.core = s.core := by simp [State.bfiTakes, core_fields]
@[simp] theorem State.lockedShowing_core (s : State) : s.lockedShowing.core = s.core := by
  unfold State.lockedShowing
  split <;> simp [core_fields]
@[simp] theorem State.lockStarts_core (s : State) : s.lockStarts.core = s.core := by simp [State.lockStarts, core_fields]
@[simp] theorem State.planPeriod_core (s : State) : s.planPeriod.1.core = s.core := by
  unfold State.planPeriod
  split <;> simp [core_fields]

/-! Of Machine/Power. -/

@[simp] theorem State.domCount_core (s : State) (x : Fld) : (s.domCount x).core = s.core := by simp [State.domCount]
@[simp] theorem State.refuse_core (s : State) (n : Nat) (r : Nat × Nat) : (s.refuse n r).core = s.core := by simp [State.refuse]
@[simp] theorem State.domBegin_core (s : State) (n target phase : Nat) : (s.domBegin n target phase).core = s.core := by simp [State.domBegin, core_fields]
@[simp] theorem State.domWait_core (s : State) (n target : Nat) (inner : Bool) : (s.domWait n target inner).core = s.core := by
  simp [State.domWait, core_fields]
@[simp] theorem State.domWakeOne_core (s : State) (n : Nat) : (s.domWakeOne n).core = s.core := by
  simp only [State.domWakeOne]
  repeat' split
  all_goals simp [*]
@[simp] theorem State.domWake_core (s : State) (n : Nat) : (s.domWake n).core = s.core := by simp [State.domWake]
@[simp] theorem State.domServe_core (s : State) (n target : Nat) : (s.domServe n target).core = s.core := by
  simp only [State.domServe]
  repeat' split
  all_goals simp [*]
@[simp] theorem State.domRequest_core (s : State) (n target : Nat) : (s.domRequest n target).core = s.core := by simp [State.domRequest]
@[simp] theorem State.domAsk_core (s : State) (n target : Nat) : (s.domAsk n target).1.core = s.core := by
  simp only [State.domAsk]
  repeat' split
  all_goals simp [*]
@[simp] theorem State.dramWake_core (s : State) : s.dramWake.core = s.core := by simp [State.dramWake]
@[simp] theorem State.retAsk_core (s : State) : s.retAsk.core = s.core := by simp [State.retAsk, core_fields]
@[simp] theorem State.retCheck_core (s : State) : s.retCheck.core = s.core := by simp [State.retCheck]
@[simp] theorem State.domReach_core (s : State) (n st : Nat) : (s.domReach n st).core = s.core := by simp [State.domReach, core_fields]
@[simp] theorem State.wakeSource_core (s : State) (k : Nat) : (s.wakeSource k).core = s.core := by simp [State.wakeSource]
@[simp] theorem State.alarmWrite_core (s : State) (a : Nat) (w : Word) : (s.alarmWrite a w).core = s.core := by simp [State.alarmWrite, core_fields]
@[simp] theorem State.padsShow_core (s : State) (n : Nat) : (s.padsShow n).core = s.core := by
  unfold State.padsShow
  split <;> simp 
@[simp] theorem State.padRelease_core (s : State) (w : Word) : (s.padRelease w).core = s.core := by simp [State.padRelease, core_fields]
@[simp] theorem State.avsFrame_core (s : State) (r : AvsReq) : (s.avsFrame r).core = s.core := by simp [State.avsFrame]
@[simp] theorem State.avsStart_core (s : State) (r : AvsReq) : (s.avsStart r).core = s.core := by simp [State.avsStart, core_fields]
@[simp] theorem State.avsRequest_core (s : State) (rail mv : Nat) (newMax : Option Nat) : (s.avsRequest rail mv newMax).core = s.core := by
  unfold State.avsRequest
  split <;> simp [core_fields]
@[simp] theorem State.avsNext_core (s : State) : s.avsNext.core = s.core := by
  simp only [State.avsNext]
  split <;> simp [core_fields, *]
@[simp] theorem State.avsAcked_core (s : State) (r : AvsReq) (mv : Nat) : (s.avsAcked r mv).core = s.core := by
  simp only [State.avsAcked]
  split <;> simp [*]
@[simp] theorem State.opCfgWrite_core (s : State) (w : Word) : (s.opCfgWrite w).core = s.core := by simp [State.opCfgWrite]
@[simp] theorem State.vserWrite_core (s : State) (w : Word) : (s.vserWrite w).core = s.core := by simp [State.vserWrite]

end Sys2Proof.Machine
end

section
/-! PROOFS. The core under the functions that leave it alone: memories, groups, the link, records, the domains, start-up, the boundary. -/

namespace Sys2Proof.Machine

/-! Of Machine/MemCtl. -/

@[simp] theorem State.regionGo_core (s : State) (port : Nat) (isFree : Bool) : (s.regionGo port isFree).core = s.core := by simp [State.regionGo, core_fields]
@[simp] theorem State.regionEnd_core (s : State) (port status h : Nat) : (s.regionEnd port status h).core = s.core := by simp [State.regionEnd, core_fields]
@[simp] theorem State.newRound_core (s : State) (ch : Nat) : (s.newRound ch).core = s.core := by simp [State.newRound, core_fields]
@[simp] theorem State.spend_core (s : State) (ch k : Nat) : (s.spend ch k).core = s.core := by simp [State.spend, core_fields]
theorem State.chanTurn_core {s t : State} {ch e : Nat} {waiting : List Nat} (h : s.chanTurn ch e waiting = some t) : t.core = s.core := by
  revert h
  unfold State.chanTurn
  dsimp only
  repeat' split
  all_goals rintro ⟨⟩
  all_goals simp [core_fields]
@[simp] theorem State.preempts_core (s : State) (ch : Nat) (waiting : List Nat) : (s.preempts ch waiting).core = s.core := by simp [State.preempts, core_fields]
@[simp] theorem State.unhalt_core (s : State) (e : Nat) : (s.unhalt e).core = s.core := by simp [State.unhalt, core_fields]
@[simp] theorem State.c0Window_core (s : State) : s.c0Window.core = s.core := by simp [State.c0Window, core_fields]
@[simp] theorem State.refresh_core (s : State) (ch : Nat) (busy : Bool) : (s.refresh ch busy).core = s.core := by simp [State.refresh, core_fields]
@[simp] theorem State.mopStart_core (s : State) : s.mopStart.core = s.core := by simp [State.mopStart]
@[simp] theorem State.mopEnd_core (s : State) : s.mopEnd.core = s.core := by simp [State.mopEnd, core_fields]
@[simp] theorem State.mopSwitch_core (s : State) : s.mopSwitch.core = s.core := by simp [State.mopSwitch]
@[simp] theorem State.bulkCtrl_core (s : State) (w : Word) : (s.bulkCtrl w).core = s.core := by simp [State.bulkCtrl, core_fields]
@[simp] theorem State.winPut_core (s : State) (pos : Nat) (l : List Byte) : (s.winPut pos l).core = s.core := by simp [State.winPut]
@[simp] theorem State.bulkOver_core (s : State) (ok : Bool) : (s.bulkOver ok).core = s.core := by simp [State.bulkOver]
@[simp] theorem State.bulkWinWrite_core (s : State) (i : Nat) (w : Word) : (s.bulkWinWrite i w).core = s.core := by simp [State.bulkWinWrite]
@[simp] theorem State.coreAbort_core (s : State) (wr : Bool) : (s.coreAbort wr).core = s.core := by simp [State.coreAbort, core_fields]
@[simp] theorem State.fltAbort_core (s : State) (e : Nat) : (s.fltAbort e).core = s.core := by
  unfold State.fltAbort
  split <;> simp 
@[simp] theorem State.migTimeout_core (s : State) (e h ofs : Nat) (wr : Option (List Byte)) : (s.migTimeout e h ofs wr).core = s.core := by
  simp [State.migTimeout, core_fields]
@[simp] theorem State.loaded_core (s : State) : s.loaded.core = s.core := by simp [State.loaded, core_fields]
@[simp] theorem State.withDram_core {f : State → State} (h : ∀ t, (f t).core = t.core) (s : State) : (s.withDram f).core = s.core := by simp [State.withDram, h]

/-! Of Machine/Cas. -/

@[simp] theorem State.setCasEdge_core (s : State) (k : Nat) (x : CasEdge) : (s.setCasEdge k x).core = s.core := by simp [State.setCasEdge, core_fields]
@[simp] theorem State.casControl_core (s : State) (k ctype : Nat) (body : List Byte) : (s.casControl k ctype body).core = s.core := by simp [State.casControl]
@[simp] theorem State.casData_core (s : State) (k : Nat) (l : List Byte) : (s.casData k l).core = s.core := by simp [State.casData]
@[simp] theorem State.casTs1Send_core (s : State) (k preset : Nat) : (s.casTs1Send k preset).core = s.core := by simp [State.casTs1Send]
@[simp] theorem State.casLaneUp_core (s : State) (k : Nat) : (s.casLaneUp k).core = s.core := by simp [State.casLaneUp]
@[simp] theorem State.casAttempt_core (s : State) (k retry : Nat) : (s.casAttempt k retry).core = s.core := by simp [State.casAttempt, core_fields]
@[simp] theorem State.casStart_core (s : State) (k : Nat) : (s.casStart k).core = s.core := by simp [State.casStart]
@[simp] theorem State.casFollow_core (s : State) : s.casFollow.core = s.core := by simp [State.casFollow]
@[simp] theorem State.posSend_core (s : State) (k : Nat) : (s.posSend k).core = s.core := by simp [State.posSend]
@[simp] theorem State.posFollow_core (s : State) : s.posFollow.core = s.core := by simp [State.posFollow]
@[simp] theorem State.casCfg_core (s : State) (w : Word) : (s.casCfg w).core = s.core := by simp [State.casCfg, core_fields]
@[simp] theorem State.posBlock_core (s : State) (k x y : Nat) : (s.posBlock k x y).core = s.core := by simp [State.posBlock, core_fields]
@[simp] theorem State.casNowUp_core (s : State) (k : Nat) : (s.casNowUp k).core = s.core := by simp [State.casNowUp]
@[simp] theorem State.casFails_core (s : State) (k : Nat) : (s.casFails k).core = s.core := by simp [State.casFails, core_fields]
@[simp] theorem State.casTs1_core (s : State) (k : Nat) (block : List Byte) (inverted : Bool) : (s.casTs1 k block inverted).core = s.core := by
  simp [State.casTs1, core_fields]
@[simp] theorem State.casEq_core (s : State) (k height : Nat) : (s.casEq k height).core = s.core := by simp [State.casEq, core_fields]
@[simp] theorem State.casAln_core (s : State) (k : Nat) (block : List Byte) (skew : Nat) : (s.casAln k block skew).core = s.core := by simp [State.casAln]
@[simp] theorem State.casLost_core (s : State) (k : Nat) : (s.casLost k).core = s.core := by simp [State.casLost, core_fields]
@[simp] theorem State.fsyncOn_core (s : State) (k no delay lp lat : Nat) : (s.fsyncOn k no delay lp lat).core = s.core := by simp [State.fsyncOn]
@[simp] theorem State.fsyncSend_core (s : State) : s.fsyncSend.core = s.core := by simp [State.fsyncSend]
@[simp] theorem State.fsync_core (s : State) (k no delay lp lat : Nat) : (s.fsync k no delay lp lat).core = s.core := by simp [State.fsync, core_fields]
@[simp] theorem State.fsyncOut_core (s : State) : s.fsyncOut.core = s.core := by simp [State.fsyncOut, core_fields]
@[simp] theorem State.casBoundary_core (s : State) : s.casBoundary.core = s.core := by simp [State.casBoundary]
@[simp] theorem State.seamSend_core (s : State) (k kind line first count : Nat) (l : List Byte) : (s.seamSend k kind line first count l).core = s.core := by
  simp [State.seamSend]
@[simp] theorem State.seamLine_core (s : State) (y : Nat) (px : List Pix) : (s.seamLine y px).core = s.core := by simp [State.seamLine]
@[simp] theorem State.seamZones_core (s : State) (r : Nat) : (s.seamZones r).core = s.core := by simp [State.seamZones]
@[simp] theorem State.solveSeam_core (s : State) : s.solveSeam.core = s.core := by simp [State.solveSeam]

/-! Of Machine/Link. -/

@[simp] theorem State.stateFrame_core (s : State) : s.stateFrame.core = s.core := by simp [State.stateFrame]
@[simp] theorem State.setLink_core (s : State) (st : Nat) : (s.setLink st).core = s.core := by simp [State.setLink]
@[simp] theorem State.mainLanes_core (s : State) (n rate : Nat) : (s.mainLanes n rate).core = s.core := by simp [State.mainLanes]
@[simp] theorem State.scramble_core (s : State) (on : Bool) : (s.scramble on).core = s.core := by simp [State.scramble]
@[simp] theorem State.linkClear_core (s : State) : s.linkClear.core = s.core := by simp [State.linkClear, core_fields]
@[simp] theorem State.linkGone_core (s : State) (say : Bool) : (s.linkGone say).core = s.core := by simp [State.linkGone]
@[simp] theorem State.trainSend_core (s : State) (op : Nat) (data : List Nat) : (s.trainSend op data).core = s.core := by simp [State.trainSend]
@[simp] theorem State.capsSend_core (s : State) : s.capsSend.core = s.core := by simp [State.capsSend]
@[simp] theorem State.detectRuns_core (s : State) : s.detectRuns.core = s.core := by simp [State.detectRuns, core_fields]
@[simp] theorem State.attempt_core (s : State) (retry : Nat) : (s.attempt retry).core = s.core := by simp [State.attempt, core_fields]
@[simp] theorem State.phase_core (s : State) (st : Nat) : (s.phase st).core = s.core := by simp [State.phase, core_fields]
@[simp] theorem State.attemptFail_core (s : State) (reason : Nat) : (s.attemptFail reason).core = s.core := by simp [State.attemptFail, core_fields]
@[simp] theorem State.trainStart_core (s : State) : s.trainStart.core = s.core := by simp [State.trainStart]
@[simp] theorem State.linkDown_core (s : State) : s.linkDown.core = s.core := by simp [State.linkDown, core_fields]
@[simp] theorem State.retrain_core (s : State) : s.retrain.core = s.core := by simp [State.retrain]
@[simp] theorem State.linkLost_core (s : State) : s.linkLost.core = s.core := by simp [State.linkLost]
@[simp] theorem State.hpdFollow_core (s : State) : s.hpdFollow.core = s.core := by simp [State.hpdFollow, core_fields]
@[simp] theorem State.islCfg_core (s : State) (w : Word) : (s.islCfg w).core = s.core := by simp [State.islCfg]
@[simp] theorem State.hpdPulse_core (s : State) : s.hpdPulse.core = s.core := by simp [State.hpdPulse, core_fields]
@[simp] theorem State.trainCaps_core (s : State) (lanes rate mask : Nat) : (s.trainCaps lanes rate mask).core = s.core := by simp [State.trainCaps]
@[simp] theorem State.presetReq_core (s : State) (mask p : Nat) : (s.presetReq mask p).core = s.core := by simp [State.presetReq, core_fields]
@[simp] theorem State.rateDone_core (s : State) : s.rateDone.core = s.core := by simp [State.rateDone, core_fields]
@[simp] theorem State.ts1_core (s : State) (blocks : List (List Byte)) (inverted : Nat) : (s.ts1 blocks inverted).core = s.core := by simp [State.ts1]
@[simp] theorem State.presetAck_core (s : State) (mask p : Nat) : (s.presetAck mask p).core = s.core := by simp [State.presetAck, core_fields]
@[simp] theorem State.chooseBest_core (s : State) : s.chooseBest.core = s.core := by simp [State.chooseBest, core_fields]
@[simp] theorem State.eqMeasured_core (s : State) (eyes : List (Nat × Nat)) : (s.eqMeasured eyes).core = s.core := by
  simp only [State.eqMeasured]
  repeat' split
  all_goals simp [core_fields, *]
@[simp] theorem State.ctlCopies_core (s : State) (copies : List (List Byte)) : (s.ctlCopies copies).core = s.core := by simp [State.ctlCopies]
@[simp] theorem State.readySend_core (s : State) : s.readySend.core = s.core := by simp [State.readySend, core_fields]
@[simp] theorem State.aln_core (s : State) (blocks : List (List Byte)) (skews : List Nat) : (s.aln blocks skews).core = s.core := by simp [State.aln]
@[simp] theorem State.fastStart_core (s : State) (kind lanes rate : Nat) : (s.fastStart kind lanes rate).core = s.core := by simp [State.fastStart, core_fields]
@[simp] theorem State.wakeTo_core (s : State) (lanes rate : Nat) : (s.wakeTo lanes rate).core = s.core := by simp [State.wakeTo, core_fields]
@[simp] theorem State.fastReady_core (s : State) : s.fastReady.core = s.core := by simp [State.fastReady]
@[simp] theorem State.fastDone_core (s : State) : s.fastDone.core = s.core := by simp [State.fastDone, core_fields]
@[simp] theorem State.fastLost_core (s : State) : s.fastLost.core = s.core := by simp [State.fastLost]
@[simp] theorem State.trainFail_core (s : State) : s.trainFail.core = s.core := by simp [State.trainFail]
@[simp] theorem State.trainReady_core (s : State) : s.trainReady.core = s.core := by simp [State.trainReady, core_fields]
@[simp] theorem State.wakeReq_core (s : State) : s.wakeReq.core = s.core := by simp [State.wakeReq]
@[simp] theorem State.ctlErr_core (s : State) : s.ctlErr.core = s.core := by simp [State.ctlErr]
@[simp] theorem State.ctlRow_core (s : State) (copies : List (List Byte)) : (s.ctlRow copies).1.core = s.core := by
  simp only [State.ctlRow]
  repeat' split
  all_goals simp [core_fields, *]
@[simp] theorem State.misaligned_core (s : State) : s.misaligned.core = s.core := by simp [State.misaligned, core_fields]
@[simp] theorem State.linkComesUp_core (s : State) : s.linkComesUp.core = s.core := by simp [State.linkComesUp, core_fields]
@[simp] theorem State.pipRow_core (s : State) (no period flags : Nat) : (s.pipRow no period flags).core = s.core := by simp [State.pipRow, core_fields]
@[simp] theorem State.sleepRow_core (s : State) (level : Nat) : (s.sleepRow level).core = s.core := by simp [State.sleepRow]
@[simp] theorem State.wakeRow_core (s : State) (lanes rate : Nat) : (s.wakeRow lanes rate).core = s.core := by simp [State.wakeRow]
@[simp] theorem State.regionCtl_core (s : State) (x y w h : Nat) (flush : Bool) : (s.regionCtl x y w h flush).core = s.core := by
  simp only [State.regionCtl]
  repeat' split
  all_goals simp [core_fields, *]
@[simp] theorem State.metaShow_core (s : State) : s.metaShow.core = s.core := by simp [State.metaShow]
@[simp] theorem State.metaRow_core (s : State) (body : List Byte) : (s.metaRow body).core = s.core := by simp [State.metaRow, core_fields]
@[simp] theorem State.metaPop_core (s : State) (w : Word) : (s.metaPop w).core = s.core := by simp [State.metaPop, core_fields]
@[simp] theorem State.lineBad_core (s : State) (y : Nat) : (s.lineBad y).core = s.core := by simp [State.lineBad]
@[simp] theorem State.segmentIn_core (s : State) (y first fmt : Nat) (codes : List (Nat × Nat × Nat)) (last : Bool) : (s.segmentIn y first fmt codes last).core = s.core := by
  unfold State.segmentIn
  split <;> simp 
@[simp] theorem State.tableAck_core (s : State) (tag status : Nat) : (s.tableAck tag status).core = s.core := by simp [State.tableAck]
@[simp] theorem State.tablePacket_core (s : State) (h ofs len tag : Nat) (bytes : List Byte) (bad : Bool) : (s.tablePacket h ofs len tag bytes bad).core = s.core := by
  simp [State.tablePacket, core_fields]
@[simp] theorem State.controlRow_core (s : State) (copies data : List (List Byte)) (bad : Bool) : (s.controlRow copies data bad).core = s.core := by
  unfold State.controlRow
  split
  next t h => exact core_of_pair h (s.ctlRow_core copies)
  next t ctype b h =>
    have ht := core_of_pair h (s.ctlRow_core copies)
    repeat' split
    all_goals simp [ht]
@[simp] theorem State.migExpire_core (s : State) (e h ofs : Nat) (wr : Option (List Byte)) : (s.migExpire e h ofs wr).core = s.core := by
  unfold State.migExpire
  split <;> simp [core_fields]
@[simp] theorem State.bcLost_core (s : State) (was : Bool) : (s.bcLost was).core = s.core := by simp [State.bcLost]
@[simp] theorem State.laneDown_core (s : State) (l : Nat) (bcWas : Bool) : (s.laneDown l bcWas).core = s.core := by simp [State.laneDown, core_fields]
@[simp] theorem State.rxLockLost_core (s : State) (l : Nat) : (s.rxLockLost l).core = s.core := by simp [State.rxLockLost]
@[simp] theorem State.rxBlock_core (s : State) (l hdr payload : Nat) : (s.rxBlock l hdr payload).core = s.core := by simp [State.rxBlock]
@[simp] theorem State.eiDetect_core (s : State) (l : Nat) : (s.eiDetect l).core = s.core := by simp [State.eiDetect, core_fields]
@[simp] theorem State.eiClear_core (s : State) (l : Nat) : (s.eiClear l).core = s.core := by simp [State.eiClear]

/-! Of Machine/Nv. -/

@[simp] theorem State.wpRefused_core (s : State) : s.wpRefused.core = s.core := by simp [State.wpRefused]
@[simp] theorem State.setWp_core (s : State) (wpN : Bool) : (s.setWp wpN).core = s.core := by simp [State.setWp, core_fields]
@[simp] theorem State.beforeEra_core (s : State) (era : Nat) : (s.beforeEra era).core = s.core := by simp [State.beforeEra, core_fields]
@[simp] theorem State.nvShow_core (s : State) : s.nvShow.core = s.core := by simp [State.nvShow]
@[simp] theorem State.setFull_core (s : State) : s.setFull.core = s.core := by simp [State.setFull]
@[simp] theorem State.nvDo_core (s : State) (l : List NvStep) : (s.nvDo l).core = s.core := by simp [State.nvDo, core_fields]
@[simp] theorem State.appendSteps_core (s : State) (r : NvNew) : (s.appendSteps r).core = s.core := by simp [State.appendSteps, core_fields]
theorem State.nvStep_core {s t : State} (h : s.nvStep = some t) : t.core = s.core := by
  revert h
  unfold State.nvStep
  dsimp only
  repeat' split
  all_goals rintro ⟨⟩
  all_goals simp [core_fields]
@[simp] theorem State.flashIssue_core (s : State) : s.flashIssue.core = s.core := by
  unfold State.flashIssue
  split <;> simp 
@[simp] theorem State.saveFails_core (s : State) : s.saveFails.core = s.core := by simp [State.saveFails, core_fields]
@[simp] theorem State.nvFail_core (s : State) (code : Nat) : (s.nvFail code).core = s.core := by simp [State.nvFail, core_fields]
@[simp] theorem State.nvRun_core (n : Nat) (s : State) : (s.nvRun n).core = s.core := by
  induction n generalizing s with
  | zero => rfl
  | succ n ih =>
    unfold State.nvRun
    split
    next t h => rw [ih, State.nvStep_core h]
    next => split <;> simp [ih]
@[simp] theorem State.nvGo_core (s : State) (was : List NvStep) : (s.nvGo was).core = s.core := by simp [State.nvGo]
@[simp] theorem State.nvAdd_core (s : State) (l : List NvStep) : (s.nvAdd l).core = s.core := by simp [State.nvAdd, core_fields]
@[simp] theorem State.flashTimeout_core (s : State) : s.flashTimeout.core = s.core := by
  unfold State.flashTimeout
  split <;> simp 
@[simp] theorem State.loadAges_core (s : State) : s.loadAges.core = s.core := by
  unfold State.loadAges
  split <;> simp [core_fields]
@[simp] theorem State.presenceIds_core (s : State) : s.presenceIds.2.core = s.core := by
  unfold State.presenceIds
  refine foldl_snd_core (fun acc y => ?_) _
  split
  · split <;> simp [core_fields]
  · rfl
@[simp] theorem State.nvIgnored_core (s : State) : s.nvIgnored.core = s.core := by simp [State.nvIgnored]
@[simp] theorem State.bufPut_core (s : State) (l : List Byte) : (s.bufPut l).core = s.core := by simp [State.bufPut, core_fields]
@[simp] theorem State.recBegin_core (s : State) : s.recBegin.core = s.core := by simp [State.recBegin]
@[simp] theorem State.rawBegin_core (s : State) : s.rawBegin.core = s.core := by simp [State.rawBegin]
@[simp] theorem State.recAborted_core (s : State) : s.recAborted.core = s.core := by simp [State.recAborted]
@[simp] theorem State.rawAborted_core (s : State) : s.rawAborted.core = s.core := by simp [State.rawAborted]
@[simp] theorem State.recCmd_core (s : State) (op : Nat) : (s.recCmd op).core = s.core := by
  simp only [State.recCmd]
  repeat' split
  all_goals simp [*]
@[simp] theorem State.secRefused_core (s : State) (port addr : Nat) (fac : Bool) : (s.secRefused port addr fac).core = s.core := by simp [State.secRefused]
@[simp] theorem State.rawAllowed_core (s : State) (port a : Nat) : (s.rawAllowed port a).1.core = s.core := by
  unfold State.rawAllowed
  split <;> simp 
@[simp] theorem State.rawCmd_core (s : State) (port op : Nat) : (s.rawCmd port op).core = s.core := by
  simp only [State.rawCmd]
  repeat' split
  all_goals simp [*]
@[simp] theorem State.bufNext_core (s : State) : s.bufNext.core = s.core := by simp [State.bufNext]
@[simp] theorem State.bufRead_core (s : State) : s.bufRead.1.core = s.core := by simp [State.bufRead]
@[simp] theorem State.bufWrite_core (s : State) (w : Word) : (s.bufWrite w).core = s.core := by simp [State.bufWrite, core_fields]
@[simp] theorem State.ageRead_core (s : State) : s.ageRead.1.core = s.core := by simp [State.ageRead]
@[simp] theorem State.ageSat_core (s : State) (z : Nat) : (s.ageSat z).core = s.core := by simp [State.ageSat, core_fields]
@[simp] theorem State.ageZone_core (s : State) (z : Nat) (d : Sample) (litNs : Nat) : (s.ageZone z d litNs).core = s.core := by
  simp [State.ageZone, core_fields]
@[simp] theorem State.ageFrame_core (s : State) (drive : Nat → Sample) (litNs : Nat) : (s.ageFrame drive litNs).core = s.core := by
  simp [State.ageFrame, core_fields]
@[simp] theorem State.saveStart_core (s : State) (cause : Nat) : (s.saveStart cause).core = s.core := by simp [State.saveStart, core_fields]
@[simp] theorem State.saveCmd_core (s : State) (w : Word) : (s.saveCmd w).core = s.core := by simp [State.saveCmd]
@[simp] theorem State.presenceRec_core (s : State) (cause : Nat) : (s.presenceRec cause).core = s.core := by simp [State.presenceRec, core_fields]
@[simp] theorem State.ringFormat_core (s : State) : s.ringFormat.core = s.core := by simp [State.ringFormat]

/-! Of Machine/Domains. -/

@[simp] theorem State.clearBlock_core (s : State) (pages : List Nat) : (s.clearBlock pages).core = s.core := by simp [State.clearBlock, core_fields]
@[simp] theorem State.clearPages_core (s : State) (pages : List Nat) : (s.clearPages pages).core = s.core := by simp [State.clearPages, core_fields]
@[simp] theorem State.clearPartners_core (s : State) : s.clearPartners.core = s.core := by simp [State.clearPartners, core_fields]
@[simp] theorem State.laneReset_core (s : State) (l dom : Nat) : (s.laneReset l dom).core = s.core := by simp [State.laneReset]
@[simp] theorem State.tabLost_core (s : State) : s.tabLost.1.core = s.core := by simp [State.tabLost]
@[simp] theorem State.keepDomains_core (s t : State) : (s.keepDomains t).core = t.core := by simp [State.keepDomains]
@[simp] theorem State.stageLost_core (s : State) (n : Nat) : (s.stageLost n).core = s.core := by
  unfold State.stageLost
  split <;> simp [core_fields]
@[simp] theorem State.saveUsed_core (s : State) : s.saveUsed.core = s.core := by simp [State.saveUsed]
@[simp] theorem State.dropSlot_core (s : State) (n : Nat) : (s.dropSlot n).core = s.core := by simp [State.dropSlot, core_fields]
@[simp] theorem State.saveDomain_core (s : State) (n : Nat) : (s.saveDomain n).core = s.core := by simp [State.saveDomain, core_fields]
@[simp] theorem State.restoreDomain_core (s : State) (n : Nat) : (s.restoreDomain n).core = s.core := by
  unfold State.restoreDomain
  split <;> simp [core_fields]
@[simp] theorem State.padLatch_core (s : State) (n : Nat) : (s.padLatch n).core = s.core := by
  unfold State.padLatch
  split <;> simp [core_fields]
@[simp] theorem State.domLanesTo_core (s : State) (n st : Nat) : (s.domLanesTo n st).core = s.core := by simp [State.domLanesTo]
@[simp] theorem State.domNext_core (s : State) (n : Nat) : (s.domNext n).core = s.core := by simp [State.domNext, core_fields]
@[simp] theorem State.domForce_core (s : State) (n target : Nat) : (s.domForce n target).core = s.core := by simp [State.domForce, core_fields]
@[simp] theorem State.domAbort_core (s : State) (n : Nat) (r : Nat × Nat) : (s.domAbort n r).core = s.core := by simp [State.domAbort]
@[simp] theorem State.aborted_core (s : State) (n : Nat) : (s.aborted n).core = s.core := by
  simp only [State.aborted]
  repeat' split
  all_goals simp [*]
@[simp] theorem State.pinsFall_core (s t : State) : (s.pinsFall t).core = t.core := by simp [State.pinsFall]
@[simp] theorem State.windowReset_core (s t : State) : (s.windowReset t).core = t.core := by simp [State.windowReset]
@[simp] theorem State.lastedCounts_core (s t : State) : (s.lastedCounts t).core = t.core := by simp [State.lastedCounts, core_fields]

/-! Of Machine/Boot. -/

@[simp] theorem State.bootCode_core (s : State) (c : Nat) : (s.bootCode c).core = s.core := by simp [State.bootCode]
@[simp] theorem State.slotCode_core (s : State) (n c : Nat) : (s.slotCode n c).core = s.core := by simp [State.slotCode]
@[simp] theorem State.bootPhase_core (s : State) (p : Nat) : (s.bootPhase p).core = s.core := by simp [State.bootPhase, core_fields]
@[simp] theorem State.ownRecord_core (s : State) (r : NvNew) : (s.ownRecord r).core = s.core := by simp [State.ownRecord, core_fields]
@[simp] theorem State.setTries_core (s : State) (n : Nat) : (s.setTries n).core = s.core := by simp [State.setTries]
@[simp] theorem State.wdogArm_core (s : State) : s.wdogArm.core = s.core := by simp [State.wdogArm]
@[simp] theorem State.recordRetired_core (s : State) (p : Nat) : (s.recordRetired p).core = s.core := by simp [State.recordRetired]
@[simp] theorem State.mboxServe_core {f : State → State} (h : ∀ t, (f t).core = t.core) (s : State) (c : Nat) : (s.mboxServe c f).core = s.core := by
  simp [State.mboxServe, h]
@[simp] theorem State.setArg_core (s : State) (i n : Nat) : (s.setArg i n).core = s.core := by simp [State.setArg]
@[simp] theorem State.mboxVersion_core (s : State) : s.mboxVersion.core = s.core := by
  unfold State.mboxVersion
  split <;> simp 
@[simp] theorem State.mboxReboot_core (s : State) : s.mboxReboot.core = s.core := by simp [State.mboxReboot, core_fields]
@[simp] theorem State.withSlot_core {f : Nat → State → State} (h : ∀ n t, (f n t).core = t.core) (s : State) (priv : Bool) :
    (s.withSlot priv f).core = s.core := by
  simp [State.withSlot, h]
@[simp] theorem State.activated_core (s : State) (n h len : Nat) : (s.activated n h len).core = s.core := by simp [State.activated, core_fields]
@[simp] theorem State.mboxCommit_core (s : State) : s.mboxCommit.core = s.core := by simp [State.mboxCommit]
@[simp] theorem State.mboxPawn_core (s : State) : s.mboxPawn.core = s.core := by simp [State.mboxPawn, core_fields]
@[simp] theorem State.mboxSlotInfo_core (s : State) : s.mboxSlotInfo.core = s.core := by simp [State.mboxSlotInfo]
@[simp] theorem State.mboxUnknown_core (s : State) : s.mboxUnknown.core = s.core := by
  unfold State.mboxUnknown
  split <;> simp 
@[simp] theorem State.resetRise_core (s : State) (gpio : Nat) : (s.resetRise gpio).core = s.core := by simp [State.resetRise, core_fields]

/-! Of Machine/Test. -/

@[simp] theorem State.testBump_core (s : State) (kind which : Nat) : (s.testBump kind which).core = s.core := by simp [State.testBump, core_fields]
@[simp] theorem State.testClear_core (s : State) (w : Word) : (s.testClear w).core = s.core := by simp [State.testClear, core_fields]
@[simp] theorem State.turnEnds_core (s : State) (kind : Nat) (bad : Bool) (unit detail : Nat) : (s.turnEnds kind bad unit detail).core = s.core := by
  simp [State.turnEnds, core_fields]
@[simp] theorem State.turnMade_core (s : State) (kind : Nat) : (s.turnMade kind).core = s.core := by simp [State.turnMade, core_fields]
@[simp] theorem State.sweep_core (s : State) (lo : Nat) : (s.sweep lo).core = s.core := by simp [State.sweep]
@[simp] theorem State.lutSwitches_core (s : State) : s.lutSwitches.core = s.core := by simp [State.lutSwitches, core_fields]
@[simp] theorem State.lutTurn_core (s : State) (result : Nat) : (s.lutTurn result).core = s.core := by
  simp only [State.lutTurn]
  repeat' split
  all_goals simp [core_fields, *]
@[simp] theorem State.prbsTurn_core (s : State) (pid bits errs : Nat) : (s.prbsTurn pid bits errs).core = s.core := by simp [State.prbsTurn]
@[simp] theorem State.shadowTurn_core (s : State) : s.shadowTurn.core = s.core := by simp [State.shadowTurn, core_fields]
@[simp] theorem State.tapScan_core (s : State) (ir : Nat) (capture dr : List Bool) (update : List Bool → TapState → TapState) : (s.tapScan ir capture dr update).core = s.core := by
  simp [State.tapScan, core_fields]
@[simp] theorem State.tapBoundary_core (s : State) (ir : Nat) (pins dr : List Bool) : (s.tapBoundary ir pins dr).core = s.core := by simp [State.tapBoundary]
@[simp] theorem State.tapBypass_core (s : State) (ir : Nat) (dr : List Bool) : (s.tapBypass ir dr).core = s.core := by simp [State.tapBypass]
@[simp] theorem State.bistDone_core (s : State) (fail : Bool) (unit : Nat) : (s.bistDone fail unit).core = s.core := by simp [State.bistDone]
@[simp] theorem State.tapReset_core (s : State) : s.tapReset.core = s.core := by simp [State.tapReset, core_fields]

/-! Of Machine/Pixel. -/

@[simp] theorem State.keepLight_core (s : State) (y : Int) (l : List Pix) : (s.keepLight y l).core = s.core := by simp [State.keepLight, core_fields]
@[simp] theorem State.lines_core {f : Int → State → State} (h : ∀ i t, (f i t).core = t.core) (s : State) (lo : Int) (n : Nat) :
    (s.lines lo n f).core = s.core := by
  simp [State.lines, h]
@[simp] theorem State.pathDrop_core (s : State) (y : Nat) : (s.pathDrop y).core = s.core := by simp [State.pathDrop, core_fields]
@[simp] theorem State.toPatch_core (s : State) (y : Nat) : (s.toPatch y).core = s.core := by simp [State.toPatch]
@[simp] theorem State.undefinedLine_core (s : State) (d : DriveLine) : (s.undefinedLine d).1.core = s.core := by simp [State.undefinedLine, core_fields]
@[simp] theorem State.sendLine_core (s : State) (y : Nat) (d : DriveLine) : (s.sendLine y d).core = s.core := by simp [State.sendLine, core_fields]

/-! Of Machine/Validate. -/

@[simp] theorem State.takeCtrl_core (s : State) : s.takeCtrl.core = s.core := by simp [State.takeCtrl, core_fields]
@[simp] theorem State.asActive_core (s : State) (set : ApplySet) : (s.asActive set).core = s.core := by simp [State.asActive, core_fields]
@[simp] theorem State.asPending_core (s : State) : s.asPending.core = s.core := by simp [State.asPending]
@[simp] theorem State.applyGo_core (s : State) (w : Word) : (s.applyGo w).core = s.core := by simp [State.applyGo, core_fields]
@[simp] theorem State.coarseJudged_core (s : State) (accepted : Bool) : (s.coarseJudged accepted).core = s.core := by simp [State.coarseJudged, core_fields]
@[simp] theorem State.validated_core (s : State) : s.validated.core = s.core := by
  simp only [State.validated]
  repeat' split
  all_goals simp [core_fields, *]
@[simp] theorem State.revert_core (s : State) : s.revert.core = s.core := by simp [State.revert, core_fields]
@[simp] theorem State.applySet_core (s : State) : s.applySet.1.core = s.core := by
  unfold State.applySet
  split <;> simp [core_fields]

/-! Of Machine/Flags. -/

@[simp] theorem State.cntClr_core (s : State) (u : Unit) (p : Nat) (w : Word) : (s.cntClr u p w).core = s.core := by
  unfold State.cntClr
  split <;> simp [core_fields]
@[simp] theorem State.irqWord_core (s : State) (p a : Nat) (w : Word) : (s.irqWord p a w).core = s.core := by simp [State.irqWord]
@[simp] theorem State.irqEnWrite_core (s : State) (u : Unit) (p : Nat) (w : Word) : (s.irqEnWrite u p w).core = s.core := by simp [State.irqEnWrite]
@[simp] theorem State.irqSetWrite_core (s : State) (u : Unit) (p : Nat) (w : Word) : (s.irqSetWrite u p w).core = s.core := by simp [State.irqSetWrite]
@[simp] theorem State.irqPendWrite_core (s : State) (p : Nat) (w : Word) : (s.irqPendWrite p w).core = s.core := by simp [State.irqPendWrite]

/-! Of Machine/Access. -/

@[simp] theorem State.presenceOpens_core (s : State) : s.presenceOpens.core = s.core := by simp [State.presenceOpens, core_fields]
@[simp] theorem State.presenceShut_core (s : State) (cause : Nat) : (s.presenceShut cause).core = s.core := by simp [State.presenceShut, core_fields]
@[simp] theorem State.secState_core (s : State) : s.secState.1.core = s.core := by simp [State.secState]
@[simp] theorem State.mboxWrite_core (s : State) (port : Nat) (w : Word) : (s.mboxWrite port w).core = s.core := by simp [State.mboxWrite]
@[simp] theorem State.argWrite_core (s : State) (port a : Nat) (w : Word) : (s.argWrite port a w).core = s.core := by simp [State.argWrite]
@[simp] theorem State.laneTaken_core (s : State) (l : Nat) : (s.laneTaken l).core = s.core := by simp [State.laneTaken]
@[simp] theorem State.prbsWrite_core (s : State) (l : Nat) (w : Word) : (s.prbsWrite l w).core = s.core := by simp [State.prbsWrite]
@[simp] theorem State.lockWrite_core (s : State) (p : Nat) (w : Word) : (s.lockWrite p w).core = s.core := by simp [State.lockWrite]
@[simp] theorem State.latched_core (s : State) (port a : Nat) (w : Word) : (s.latched port a w).1.core = s.core := by
  simp only [State.latched]
  repeat' split
  all_goals simp [core_fields, *]
@[simp] theorem State.store_core (s : State) (r : RegRow) (a : Nat) (w : Word) : (s.store r a w).core = s.core := by simp [State.store]
@[simp] theorem State.phyWrite_core (s : State) (l : Nat) (r : RegRow) (a : Nat) (w : Word) : (s.phyWrite l r a w).core = s.core := by
  unfold State.phyWrite
  split <;> simp 
@[simp] theorem State.pcapWrite_core (s : State) (port : Nat) (r : RegRow) (w : Word) : (s.pcapWrite port r w).core = s.core := by simp [State.pcapWrite]
@[simp] theorem State.srefCmd_core (s : State) (w : Word) : (s.srefCmd w).core = s.core := by simp [State.srefCmd]
@[simp] theorem State.voidWrite_core (s : State) (w : Word) : (s.voidWrite w).core = s.core := by simp [State.voidWrite]
@[simp] theorem State.panelCmd_core (s : State) (w : Word) : (s.panelCmd w).core = s.core := by simp [State.panelCmd]
@[simp] theorem State.islCmd_core (s : State) (w : Word) : (s.islCmd w).core = s.core := by simp [State.islCmd]
@[simp] theorem State.partnerWrite_core (s : State) (k : Nat) (w : Word) : (s.partnerWrite k w).core = s.core := by simp [State.partnerWrite]
@[simp] theorem State.treeMiss_core (s : State) : s.treeMiss.core = s.core := by simp [State.treeMiss, core_fields]
@[simp] theorem State.tunnelSend_core (s : State) (k tag op addr hops status : Nat) (data : Word) : (s.tunnelSend k tag op addr hops status data).core = s.core := by
  simp [State.tunnelSend]
@[simp] theorem State.tunnelTo_core (s : State) (port addr : Nat) (wr : Option Word) (at' : Nat × Nat) : (s.tunnelTo port addr wr at').1.core = s.core := by
  simp [State.tunnelTo, core_fields]
@[simp] theorem State.windowRead_core (s : State) (port a : Nat) : (s.windowRead port a).1.core = s.core := by
  unfold State.windowRead
  split <;> simp 
@[simp] theorem State.windowWrite_core (s : State) (port a : Nat) (w : Word) : (s.windowWrite port a w).core = s.core := by
  simp only [State.windowWrite]
  repeat' split
  all_goals simp [*]
@[simp] theorem State.deliver_core (s : State) (port : Nat) (w : Word) : (s.deliver port w).core = s.core := by simp [State.deliver]
@[simp] theorem State.sameHold_core (s t : State) : (s.sameHold t).core = t.core := by simp [State.sameHold, core_fields]
@[simp] theorem State.regRdRsp_core (s : State) (tag status : Nat) (ws : List Word) : (s.regRdRsp tag status ws).core = s.core := by simp [State.regRdRsp]
@[simp] theorem State.reqCheck_core (s : State) : s.reqCheck.core = s.core := by
  unfold State.reqCheck
  split <;> simp [core_fields]
@[simp] theorem State.reqRefused_core (s : State) : s.reqRefused.1.core = s.core := by simp [State.reqRefused]
@[simp] theorem State.tunnelReply_core (s : State) (t : TunnelReq) (w : Word) : (s.tunnelReply t w).core = s.core := by
  simp only [State.tunnelReply]
  repeat' split
  all_goals simp [core_fields, *]
@[simp] theorem State.tunnelDrop_core (s : State) (tag : Nat) : (s.tunnelDrop tag).core = s.core := by simp [State.tunnelDrop, core_fields]

/-! Of Machine/Pawn. -/

@[simp] theorem State.pawnForce_core (s : State) : s.pawnForce.core = s.core := by simp [State.pawnForce]

/-! Of Machine/Frame. -/

@[simp] theorem State.frameEnds_core (s : State) : s.frameEnds.core = s.core := by simp [State.frameEnds]
@[simp] theorem State.setApplied_core (s : State) : s.setApplied.core = s.core := by simp [State.setApplied]
@[simp] theorem State.frameSends_core (s : State) : s.frameSends.core = s.core := by simp [State.frameSends]
@[simp] theorem State.unlessOff_core {f : State → State} (h : ∀ t, (f t).core = t.core) (s : State) (n : Nat) :
    (s.unlessOff n f).core = s.core := by
  simp [State.unlessOff, h]
@[simp] theorem State.frameStarts_core (s : State) (ended : Option (Nat × Nat)) (geom : Bool) (live : Nat × Nat × Bool) (od : Bool) : (s.frameStarts ended geom live od).core = s.core := by
  simp [State.frameStarts, core_fields]

/-! Of Machine/ClockCmd. -/

@[simp] theorem State.pllFails_core (s : State) (p : Nat) : (s.pllFails p).core = s.core := by simp [State.pllFails]
@[simp] theorem State.xtalFails_core (s : State) : s.xtalFails.core = s.core := by simp [State.xtalFails]
@[simp] theorem State.pixHold_core (s : State) : s.pixHold.core = s.core := by simp [State.pixHold]
@[simp] theorem State.gateIdle_core (s : State) (_page : Nat) : (s.gateIdle _page).core = s.core := by simp [State.gateIdle]

/-! Of Machine/CoreCmd. -/

@[simp] theorem State.buttonHeld_core (s : State) : s.buttonHeld.core = s.core := by simp [State.buttonHeld]

/-! Of Machine/EdlCmd. -/

@[simp] theorem State.busAnswer_core (s : State) (port pid type : Nat) (l : List Byte) : (s.busAnswer port pid type l).core = s.core := by
  unfold State.busAnswer
  split <;> simp 
@[simp] theorem State.busResponse_core (s : State) (g : Nat) (bytes : List Byte) (code : Nat) : (s.busResponse g bytes code).core = s.core := by
  simp only [State.busResponse]
  repeat' split
  all_goals simp [*]

/-! Of Machine/HostCmd. -/

@[simp] theorem State.spiStatus_core (s : State) : s.spiStatus.core = s.core := by simp [State.spiStatus, core_fields]
@[simp] theorem State.spiOther_core (s : State) (_code : Nat) : (s.spiOther _code).core = s.core := by simp [State.spiOther]

/-! Of Machine/LanesCmd. -/

@[simp] theorem State.laneWoke_core (s : State) (l : Nat) : (s.laneWoke l).core = s.core := by simp [State.laneWoke]
@[simp] theorem State.laneTransition_core (s : State) (l : Nat) : (s.laneTransition l).core = s.core := by simp [State.laneTransition]
@[simp] theorem State.bcRxLocks_core (s : State) (inverted : Bool) : (s.bcRxLocks inverted).core = s.core := by simp [State.bcRxLocks]

/-! Of Machine/LinkCmd. -/

@[simp] theorem State.alnRow_core (s : State) (link : Nat) (blocks : List (List Byte)) (skews : List Nat) : (s.alnRow link blocks skews).core = s.core := by
  simp [State.alnRow]
@[simp] theorem State.ts1Block_core (s : State) (link : Nat) (blocks : List (List Byte)) (inverted : Nat) : (s.ts1Block link blocks inverted).core = s.core := by
  simp [State.ts1Block]
@[simp] theorem State.eqMeasure_core (s : State) (link : Nat) (eyes : List (Nat × Nat)) : (s.eqMeasure link eyes).core = s.core := by simp [State.eqMeasure]
@[simp] theorem State.trainFrame_core (s : State) (op : Nat) (data : List Byte) : (s.trainFrame op data).core = s.core := by
  unfold State.trainFrame
  split <;> simp 
@[simp] theorem State.bcEcho_core (s : State) (bytes : List Byte) : (s.bcEcho bytes).core = s.core := by simp [State.bcEcho]

/-! Of Machine/NvCmd. -/

@[simp] theorem State.setPins_core (s : State) (wpN jmpN : Bool) : (s.setPins wpN jmpN).core = s.core := by simp [State.setPins, core_fields]

/-! Of Machine/PanelCmd. -/

@[simp] theorem State.pgInRises_core (s : State) : s.pgInRises.core = s.core := by simp [State.pgInRises]

/-! Of Machine/Firmware. -/

@[simp] theorem State.ageGainUpdate_core (s : State) : s.ageGainUpdate.core = s.core := by simp [State.ageGainUpdate, core_fields]
@[simp] theorem State.coarseFails_core (s : State) (why : Nat) : (s.coarseFails why).core = s.core := by simp [State.coarseFails]

/-! Of Machine/PathCmd. -/

@[simp] theorem State.solveNext_core (s : State) : s.solveNext.core = s.core := by simp [State.solveNext]

/-! Of Machine/PowerCmd. -/

@[simp] theorem State.powerFails_core (s : State) : s.powerFails.core = s.core := by simp [State.powerFails, core_fields]
@[simp] theorem State.powerBack_core (s : State) : s.powerBack.core = s.core := by simp [State.powerBack, core_fields]

end Sys2Proof.Machine
end

section
/-! PROOFS. The core under the functions that write a memory and keep the clock: the memories stay canonical. -/

namespace Sys2Proof.Machine

/-! Of Machine/Ops. -/

@[simp] theorem State.when_fit {f : State → State} (h : ∀ t, Fit t (f t)) (s : State) (c : Bool) : Fit s (s.when c f) := by
  unfold State.when
  split
  · exact h s
  · exact Fit.refl s

/-! Of Machine/MemCtl. -/

@[simp] theorem State.withDram_fit {f : State → State} (h : ∀ t, Fit t (f t)) (s : State) : Fit s (s.withDram f) := by
  unfold State.withDram
  split
  · exact h s
  · exact Fit.of_core (by simp)

/-! Of Machine/Boot. -/

@[simp] theorem State.mboxServe_fit {f : State → State} (h : ∀ t, Fit t (f t)) (s : State) (c : Nat) : Fit s (s.mboxServe c f) := by
  unfold State.mboxServe
  split
  · exact h s
  · exact Fit.refl s
@[simp] theorem State.withSlot_fit {f : Nat → State → State} (h : ∀ n t, Fit t (f n t)) (s : State) (priv : Bool) :
    Fit s (s.withSlot priv f) := by
  unfold State.withSlot
  split
  · exact Fit.of_core (by simp)
  · split
    · exact Fit.of_core (by simp)
    · exact h _ s

/-! Of Machine/Pixel. -/

@[simp] theorem State.lines_fit {f : Int → State → State} (h : ∀ k t, Fit t (f k t)) (s : State) (lo : Int) (n : Nat) :
    Fit s (s.lines lo n f) := State.each_fit (fun _ t => h _ t) s

/-! Of Machine/Frame. -/

@[simp] theorem State.unlessOff_fit {f : State → State} (h : ∀ t, Fit t (f t)) (s : State) (n : Nat) : Fit s (s.unlessOff n f) := by
  unfold State.unlessOff
  split
  · exact Fit.refl s
  · exact h s

/-! Of Machine/Mem. -/

@[simp] theorem State.sramZero_fit (s : State) (bank : Nat) : Fit s (s.sramZero bank) := by simp +contextual [Fit, State.sramZero]
@[simp] theorem State.sramLost_fit (s : State) (bank : Nat) : Fit s (s.sramLost bank) := by simp +contextual [Fit, State.sramLost]
@[simp] theorem State.setMap_fit (s : State) (i page : Nat) (committed migrating : Bool) : Fit s (s.setMap i page committed migrating) := by
  simp +contextual [Fit, State.setMap]
@[simp] theorem State.setPhys_fit (s : State) (p idx st : Nat) : Fit s (s.setPhys p idx st) := by simp +contextual [Fit, State.setPhys]
@[simp] theorem State.setErr_fit (s : State) (p v : Nat) : Fit s (s.setErr p v) := by simp +contextual [Fit, State.setErr]
@[simp] theorem State.commitTo_fit (s : State) (p idx : Nat) : Fit s (s.commitTo p idx) := by simp +contextual [Fit, State.commitTo]
@[simp] theorem State.commitRun_fit (s : State) (b n : Nat) : Fit s (s.commitRun b n) := by simp +contextual [Fit, State.commitRun, core_fields]
@[simp] theorem State.uncommit_fit (s : State) (idx : Nat) : Fit s (s.uncommit idx) := by simp +contextual [Fit, State.uncommit, core_fields]
theorem State.ensurePage_fit {s t : State} {h ofs : Nat} (ht : s.ensurePage h ofs = some t) : Fit s t := by
  revert ht
  unfold State.ensurePage
  dsimp only
  repeat' split
  all_goals rintro ⟨⟩
  all_goals simp +contextual [Fit, core_fields]
@[simp] theorem State.physWrite_fit (s : State) (pa : Nat) (l : List Byte) : Fit s (s.physWrite pa l) := by
  simp only [State.physWrite]
  split <;> simp +contextual [Fit, core_fields, *]
@[simp] theorem State.regionWrite_fit (s : State) (h n ofs : Nat) (l : List Byte) : Fit s (s.regionWrite h n ofs l).1 := by
  induction n generalizing s ofs l with
  | zero => exact Fit.refl s
  | succ n ih =>
    unfold State.regionWrite
    split
    · exact Fit.refl s
    · split
      · exact Fit.refl s
      · split
        · exact Fit.refl s
        next t ht =>
          split
          · exact Fit.refl s
          next pa _ =>
            exact (State.ensurePage_fit ht).trans ((t.physWrite_fit pa _).trans (ih _ _ _))
@[simp] theorem State.retireStart_fit (s : State) (p : Nat) : Fit s (s.retireStart p) := by
  simp only [State.retireStart]
  repeat' split
  all_goals simp +contextual [Fit, core_fields, *]
@[simp] theorem State.countPageError_fit (s : State) (p : Nat) : Fit s (s.countPageError p) := by simp +contextual [Fit, State.countPageError]
@[simp] theorem State.eccCorrect_fit (s : State) (pa : Nat) : Fit s (s.eccCorrect pa) := by simp +contextual [Fit, State.eccCorrect]
@[simp] theorem State.retireFreePage_fit (s : State) (p : Nat) : Fit s (s.retireFreePage p) := by simp +contextual [Fit, State.retireFreePage]
@[simp] theorem State.beatsRead_fit (s : State) (e h ofs n : Nat) : Fit s (s.beatsRead e h ofs n).1 := by simp +contextual [Fit, State.beatsRead]
@[simp] theorem State.beatsWrite_fit (s : State) (e h ofs : Nat) (l : List Byte) : Fit s (s.beatsWrite e h ofs l).1 := by
  simp +contextual [Fit, State.beatsWrite]
@[simp] theorem State.engRead_fit (s : State) (e h ofs n : Nat) : Fit s (s.engRead e h ofs n).1 := by simp +contextual [Fit, State.engRead]
@[simp] theorem State.engWrite_fit (s : State) (e h ofs : Nat) (l : List Byte) : Fit s (s.engWrite e h ofs l).1 := by simp +contextual [Fit, State.engWrite]
@[simp] theorem State.storeRun_fit (s : State) (e h ofs : Nat) (l : List Byte) : Fit s (s.storeRun e h ofs l).1 := by simp +contextual [Fit, State.storeRun]

/-! Of Machine/FrameStore. -/

@[simp] theorem State.fetchLine_fit (s : State) (e slot y : Nat) : Fit s (s.fetchLine e slot y).1 := by
  unfold State.fetchLine
  extract_lets d h
  split
  next t k idx heq =>
    have ht := fit_of_pair heq (s.engRead_fit e h _ _)
    split
    · exact ht
    · refine ht.trans (foldl_fst_fit (fun acc b => ?_) (t, some []))
      split
      next u => exact Fit.refl u
      next u l =>
        extract_lets w
        split
        · exact Fit.refl u
        · split
          next v k data hv =>
            have := fit_of_pair hv (u.engRead_fit e h _ _)
            split <;> exact this
@[simp] theorem State.fetchBlocks_fit (s : State) (slot y : Nat) (want : Nat → Bool) : Fit s (s.fetchBlocks slot y want).1 := by
  unfold State.fetchBlocks
  extract_lets d h
  refine foldl_fst_fit (fun acc b => ?_) (s, some [])
  split
  next u => exact Fit.refl u
  next u l =>
    split
    · exact Fit.refl u
    · split
      next v k idx hv =>
        have hu := fit_of_pair hv (u.engRead_fit 0 h _ _)
        extract_lets w
        split
        · exact hu
        · split
          · exact hu
          · split
            next x k data hx =>
              have := hu.trans (fit_of_pair hx (v.engRead_fit 0 h _ _))
              split <;> exact this
@[simp] theorem State.evenLine_fit (s : State) (e slot y : Nat) : Fit s (s.evenLine e slot y).1 := by
  unfold State.evenLine
  split
  · split
    next t l heq =>
      have ht := fit_of_pair heq (s.fetchLine_fit e slot y)
      split <;> exact ht
    next t heq => exact fit_of_pair heq (s.fetchLine_fit e slot y)
  · exact Fit.refl s
@[simp] theorem State.lineAbove_fit (s : State) (e slot y : Nat) : Fit s (s.lineAbove e slot y).1 := by
  simp only [State.lineAbove]
  repeat' split
  all_goals simp +contextual [Fit, *]
@[simp] theorem State.decodeSlotLine_fit (s : State) (e slot y : Nat) : Fit s (s.decodeSlotLine e slot y).1 := by
  unfold State.decodeSlotLine
  split
  next t above bad habove =>
    have ht := fit_of_pair habove (s.lineAbove_fit e slot y)
    split
    next u hu => exact ht.trans (fit_of_pair hu (t.fetchLine_fit e slot y))
    next u l hu =>
      have hu := ht.trans (fit_of_pair hu (t.fetchLine_fit e slot y))
      extract_lets needs
      split
      · exact hu
      · split <;> exact hu
@[simp] theorem State.readSlotLine_fit (s : State) (slot y : Nat) : Fit s (s.readSlotLine slot y).1 := by
  have hend : ∀ (t : State) (bad : Bool), Fit t (t.when bad State.decErr) := fun t bad => Fit.of_core (by simp)
  unfold State.readSlotLine
  split
  next t p bad heq => exact ((fit_of_pair heq (s.decodeSlotLine_fit 1 slot y)).trans (hend t bad)).trans (Fit.of_core (by simp [core_fields]))
  next t bad heq => exact (fit_of_pair heq (s.decodeSlotLine_fit 1 slot y)).trans (hend t bad)
@[simp] theorem State.readFallback_fit (s : State) (y : Nat) : Fit s (s.readFallback y).1 := by
  unfold State.readFallback
  split <;> simp +contextual [Fit]
@[simp] theorem State.viewLine_fit (s : State) (y : Nat) : Fit s (s.viewLine y).1 := by
  unfold State.viewLine
  split
  · exact Fit.refl s
  · split
    · split
      next t p heq => exact fit_of_pair heq (s.readSlotLine_fit s.shown y)
      next t heq => exact (fit_of_pair heq (s.readSlotLine_fit s.shown y)).trans (t.readFallback_fit y)
    · exact s.readFallback_fit y
    · exact Fit.refl s
@[simp] theorem State.storeBlocks_fit (s : State) (slot y : Nat) (l : List OutBlock) : Fit s (s.storeBlocks slot y l) := by
  simp +contextual [Fit, State.storeBlocks]
@[simp] theorem State.oldBlocks_fit (s : State) (f : SrcFrame) (spans : List (Nat × Nat)) : Fit s (s.oldBlocks f spans).1 := by
  unfold State.oldBlocks
  extract_lets y p want
  split
  · exact Fit.refl s
  · split
    · exact Fit.refl s
    · split
      next t heq => exact fit_of_pair heq (s.fetchBlocks_fit p y want)
      next t old heq =>
        have ht := fit_of_pair heq (s.fetchBlocks_fit p y want)
        extract_lets uses near
        split
        · exact ht
        · split
          · exact ht
          · split
            next u hu => exact ht.trans (fit_of_pair hu (t.fetchBlocks_fit p _ near))
            next u l hu => exact ht.trans (fit_of_pair hu (t.fetchBlocks_fit p _ near))
@[simp] theorem State.writeLine_fit (s : State) (f : SrcFrame) (spans : List (Nat × Nat)) (src : List Pix) (sub : Bool) :
    Fit s (s.writeLine f spans src sub) := by
  unfold State.writeLine
  extract_lets y
  split
  · exact Fit.of_core (by simp)
  next slot _ =>
    split
    next t heq => exact (fit_of_pair heq (s.oldBlocks_fit f spans)).trans (Fit.of_core (by simp))
    next t old refs heq =>
      split
      next u blocks hu =>
        have hu' : u.core = t.core := core_of_pair hu (t.buildBlocks_core f y spans src refs old)
        refine ((fit_of_pair heq (s.oldBlocks_fit f spans)).trans (Fit.of_core hu')).trans ?_
        exact (u.storeBlocks_fit slot y blocks).trans (Fit.of_core (by simp))
@[simp] theorem State.blackLine_fit (s : State) (y : Nat) : Fit s (s.blackLine y) := by simp +contextual [Fit, State.blackLine]
@[simp] theorem State.blackFrame_fit (s : State) (cfg : Nat × Nat × Nat × Nat × Nat) : Fit s (s.blackFrame cfg) := by
  simp +contextual [Fit, State.blackFrame, core_fields]
@[simp] theorem State.chooseShown_fit (s : State) (first : Bool) : Fit s (s.chooseShown first) := by
  simp only [State.chooseShown]
  repeat' split
  all_goals simp +contextual [Fit, core_fields, *]
@[simp] theorem State.lineWrite_fit (s : State) : Fit s s.lineWrite := by
  simp only [State.lineWrite]
  repeat' split
  all_goals simp +contextual [Fit, *]
@[simp] theorem State.lineCopy_fit (s : State) : Fit s s.lineCopy := by
  unfold State.lineCopy
  split <;> simp +contextual [Fit]
@[simp] theorem State.rbDone_fit (s : State) : Fit s s.rbDone := by
  simp only [State.rbDone]
  repeat' split
  all_goals simp +contextual [Fit, core_fields, *]

/-! Of Machine/Zone. -/

@[simp] theorem State.spillRow_fit (s : State) (gy : Nat) (row : List Sample) : Fit s (s.spillRow gy row) := by simp +contextual [Fit, State.spillRow]
@[simp] theorem State.gridRow_fit (s : State) (gy : Int) : Fit s (s.gridRow gy).1 := by
  simp only [State.gridRow]
  split <;> simp +contextual [Fit, core_fields, *]
@[simp] theorem State.fieldLine_fit (s : State) (y : Int) : Fit s (s.fieldLine y).1 := by
  unfold State.fieldLine
  split
  · exact Fit.refl s
  · extract_lets gy64 k wy
    split
    next t0 r0 h0 =>
      split
      next t1 r1 h1 =>
        split
        next t2 r2 h2 =>
          split
          next t3 r3 h3 =>
            have hrows := (((fit_of_pair h0 (s.gridRow_fit _)).trans (fit_of_pair h1 (t0.gridRow_fit _))).trans
              (fit_of_pair h2 (t1.gridRow_fit _))).trans (fit_of_pair h3 (t2.gridRow_fit _))
            exact hrows.trans (Fit.of_core (by simp))

/-! Of Machine/Banks. -/

@[simp] theorem State.bankPut_fit (s : State) (bank w : Nat) (v : BitVec 64) : Fit s (s.bankPut bank w v) := by simp +contextual [Fit, State.bankPut]
@[simp] theorem State.portStore_fit (s : State) (bank : Nat) (x : Option BankAccess) : Fit s (s.portStore bank x) := by
  unfold State.portStore
  split <;> simp +contextual [Fit]
@[simp] theorem State.bankCycle_fit (s : State) (bank : Nat) (c : BankCycle) : Fit s (s.bankCycle bank c).1 := by
  simp +contextual [Fit, State.bankCycle, core_fields]
@[simp] theorem State.inFlight_fit (s : State) (bank : Nat) (l : List BankCycle) : Fit s (s.inFlight bank l) := by simp +contextual [Fit, State.inFlight]
@[simp] theorem State.handover_fit (s : State) (n : Nat) : Fit s (s.handover n) := by simp +contextual [Fit, State.handover, core_fields]
@[simp] theorem State.drained_fit (s : State) (n : Nat) : Fit s (s.drained n) := by simp +contextual [Fit, State.drained]
@[simp] theorem State.clearDone_fit (s : State) (n : Nat) : Fit s (s.clearDone n) := by simp +contextual [Fit, State.clearDone]
@[simp] theorem State.ownWrite_fit (s : State) (n : Nat) (w : Word) : Fit s (s.ownWrite n w) := by
  simp only [State.ownWrite]
  repeat' split
  all_goals simp +contextual [Fit, core_fields, *]
@[simp] theorem State.bankWait_fit (s : State) (bank req : Nat) : Fit s (s.bankWait bank req) := by simp +contextual [Fit, State.bankWait]
@[simp] theorem State.bankRd_fit (s : State) (bank req word : Nat) : Fit s (s.bankRd bank req word).1 := by simp +contextual [Fit, State.bankRd]
@[simp] theorem State.bankWr_fit (s : State) (bank req word : Nat) (v : Word) : Fit s (s.bankWr bank req word v) := by simp +contextual [Fit, State.bankWr]
@[simp] theorem State.bankRd16_fit (s : State) (bank req e : Nat) : Fit s (s.bankRd16 bank req e).1 := by simp +contextual [Fit, State.bankRd16]
@[simp] theorem State.bankWr16_fit (s : State) (bank req e v : Nat) : Fit s (s.bankWr16 bank req e v) := by simp +contextual [Fit, State.bankWr16]
@[simp] theorem State.winRead_fit (s : State) : Fit s s.winRead.1 := by simp +contextual [Fit, State.winRead]
@[simp] theorem State.winWrite_fit (s : State) (w : Word) : Fit s (s.winWrite w) := by simp +contextual [Fit, State.winWrite]
@[simp] theorem State.bankLost_fit (s : State) (n : Nat) : Fit s (s.bankLost n) := by simp +contextual [Fit, State.bankLost, core_fields]

/-! Of Machine/Patch. -/

@[simp] theorem State.fetchBeats_fit (s : State) (e h ofs n : Nat) : Fit s (s.fetchBeats e h ofs n).1 := by
  unfold State.fetchBeats
  split <;> simp +contextual [Fit]
@[simp] theorem State.patchFetch_fit (s : State) (y : Nat) : Fit s (s.patchFetch y) := by
  unfold State.patchFetch
  extract_lets p h a tx b k
  have ha : Fit s a := by
    simp only [a]
    split
    · exact State.each_fit (fun b t => t.sramLost_fit b) s
    · exact Fit.refl s
  clear_value a
  have hb : Fit s b := by
    simp only [b]
    split
    · have hz := a.fetchBeats_fit 3 h (p.tileOff + 4 * tx * (y / 32)) (4 * tx)
      generalize a.fetchBeats 3 h (p.tileOff + 4 * tx * (y / 32)) (4 * tx) = z at hz ⊢
      exact (ha.trans hz).trans (Fit.of_core (by simp [core_fields]))
    · exact ha
  clear_value b
  split
  · exact hb
  · split
    next t1 c h1 =>
      split
      next t2 m h2 =>
        split
        next t3 c' h3 =>
          split
          next t4 m' h4 =>
            have hread := (hb.trans (fit_of_pair h1 (b.fetchBeats_fit 3 h _ _))).trans (fit_of_pair h2 (t1.fetchBeats_fit 3 h _ _))
            have h3' : t3.core = t2.core := core_of_pair h3 (t2.patchHeld_core _)
            have h4' : t4.core = t3.core := core_of_pair h4 (t3.patchHeld_core _)
            exact hread.trans (Fit.of_core (by simp [core_fields, h3', h4']))
@[simp] theorem State.checkDone_fit (s : State) : Fit s s.checkDone := by
  unfold State.checkDone
  split <;> simp +contextual [Fit, core_fields]
@[simp] theorem State.defectRead_fit (s : State) : Fit s s.defectRead.1 := by simp +contextual [Fit, State.defectRead]
@[simp] theorem State.defectWrite_fit (s : State) (w : Word) : Fit s (s.defectWrite w) := by simp +contextual [Fit, State.defectWrite]

/-! Of Machine/Overdrive. -/

@[simp] theorem State.odFetch_fit (s : State) (y : Nat) : Fit s (s.odFetch y) := by simp +contextual [Fit, State.odFetch, core_fields]
@[simp] theorem State.odStore_fit (s : State) (ofs : Nat) (l : List Byte) : Fit s (s.odStore ofs l) := by simp +contextual [Fit, State.odStore]
@[simp] theorem State.odLine_fit (s : State) (y : Nat) (black : Bool) (d : DriveLine) : Fit s (s.odLine y black d).1 := by
  simp +contextual [Fit, State.odLine, core_fields]
@[simp] theorem State.odRead_fit (s : State) : Fit s s.odRead.1 := by simp +contextual [Fit, State.odRead]
@[simp] theorem State.odWrite_fit (s : State) (w : Word) : Fit s (s.odWrite w) := by simp +contextual [Fit, State.odWrite]

/-! Of Machine/Dither. -/

@[simp] theorem State.ditherRead_fit (s : State) : Fit s s.ditherRead.1 := by simp +contextual [Fit, State.ditherRead]
@[simp] theorem State.ditherWrite_fit (s : State) (w : Word) : Fit s (s.ditherWrite w) := by simp +contextual [Fit, State.ditherWrite]

/-! Of Machine/Timing. -/

@[simp] theorem State.timBoundary_fit (s : State) (shape : Nat × Nat × Nat × Nat) : Fit s (s.timBoundary shape) := by
  unfold State.timBoundary
  extract_lets no a b held c src d before settled slewing e slotPip same k had slew f shows srcNo g i
  have hb : b.core = s.core := by simp [b, a]
  have hc : c.core = s.core := by simp only [c]; split <;> simp [hb]
  have hd : d.core = s.core := by
    simp only [d]
    split
    · simp [hc]
    · split <;> simp [hc, core_fields]
  clear_value b c d
  have he : Fit s e := (Fit.of_core hd).trans (d.chooseShown_fit _)
  clear_value e
  have hi : i.core = e.core := by simp [i, g, f]
  clear_value i
  split
  next j p hj =>
    have hj' : j.core = i.core := core_of_pair hj i.planPeriod_core
    exact he.trans (Fit.of_core (by simp [core_fields, hj', hi]))

/-! Of Machine/MemCtl. -/

@[simp] theorem State.regionAlloc_fit (s : State) (r : RegionReq) : Fit s (s.regionAlloc r) := by
  simp only [State.regionAlloc]
  repeat' split
  all_goals simp +contextual [Fit, core_fields, *]
@[simp] theorem State.regionFree_fit (s : State) (r : RegionReq) : Fit s (s.regionFree r) := by
  unfold State.regionFree
  split <;> simp +contextual [Fit, core_fields]
@[simp] theorem State.regionServe_fit (s : State) : Fit s s.regionServe := by
  unfold State.regionServe
  split <;> simp +contextual [Fit]
@[simp] theorem State.regionRun_fit (s : State) (n : Nat) : Fit s (s.regionRun n) := by
  induction n generalizing s with
  | zero => exact Fit.refl s
  | succ n ih => exact s.regionServe_fit.trans (ih _)
@[simp] theorem State.coreAlloc_fit {go : State → Nat → State} {fail : State → State} (hgo : ∀ t n, Fit t (go t n))
    (hfail : ∀ t, Fit t (fail t)) (s : State) (who pages : Nat) (cls0 commit : Bool) :
    Fit s (s.coreAlloc who pages cls0 commit go fail) := by
  simp only [State.coreAlloc]
  repeat' split
  all_goals simp +contextual [Fit, core_fields, hgo, hfail]
@[simp] theorem State.beatEcc_fit (s : State) (h ofs ecc word : Nat) : Fit s (s.beatEcc h ofs ecc word) := by
  unfold State.beatEcc
  split <;> simp +contextual [Fit, core_fields]
@[simp] theorem State.beat_fit (s : State) (e h ofs : Nat) (wr : Option (List Byte)) : Fit s (s.beat e h ofs wr) := by
  unfold State.beat
  split <;> simp +contextual [Fit]
@[simp] theorem State.resumeRun_fit (s : State) (e : Nat) : Fit s (s.resumeRun e) := by
  unfold State.resumeRun
  split <;> simp +contextual [Fit]
@[simp] theorem State.dramBeat_fit (s : State) (e h ofs : Nat) (wr : Option (List Byte)) (ecc word lat : Nat) (waiting : List Nat) :
    Fit s (s.dramBeat e h ofs wr ecc word lat waiting) := by
  unfold State.dramBeat
  extract_lets ch n serve src u
  have hu : u.core = s.core := by simp [u, src, core_fields]
  clear_value u
  have hserve : ∀ t : State, Fit t (serve t) := fun t => by
    simp only [serve]
    split
    · exact (t.beatEcc_fit h ofs ecc word).trans (State.beat_fit _ e h ofs wr)
    · exact t.beat_fit e h ofs wr
  clear_value serve
  split
  · split
    · exact Fit.refl s
    · split
      · exact Fit.of_core (by simp)
      · exact Fit.trans (Fit.of_core (by simp [hu])) (hserve _)
  · split
    · exact Fit.of_core (by simp)
    · split
      · exact s.resumeRun_fit e
      · split
        · exact Fit.refl s
        · split
          · exact Fit.refl s
          · split
            · exact Fit.refl s
            next t ht => exact (Fit.of_core (State.chanTurn_core ht)).trans (hserve t)
@[simp] theorem State.scrub_fit (s : State) (corr unc : List Nat) : Fit s (s.scrub corr unc) := by
  unfold State.scrub
  split
  · exact Fit.refl s
  · split
    · exact Fit.of_core (by simp)
    · extract_lets a b c
      have ha : Fit s a := Fit.of_core (by simp [a])
      have hb : Fit a b := State.each_fit (fun pa t => by
        split
        · exact t.eccCorrect_fit pa
        · exact Fit.refl t) a
      have hc : Fit b c := State.each_fit (fun pa t => by
        split
        · refine Fit.of_core ?_
          split <;> simp [core_fields]
        · exact Fit.refl t) b
      exact ((ha.trans hb).trans hc).trans (Fit.of_core (by simp))
@[simp] theorem State.remap_fit (s : State) : Fit s s.remap := by
  unfold State.remap
  have heach : Fit s (s.each (s.mem.copies.filter (·.ended)) fun c s => (s.setMap c.mapIdx c.newPage true false).setPhys c.oldPage 0 2) :=
    State.each_fit (fun c t => (t.setMap_fit _ _ _ _).trans (State.setPhys_fit _ _ _ _)) s
  exact heach.trans (Fit.of_core (by simp [core_fields]))
@[simp] theorem State.copyEnds_fit (s : State) : Fit s s.copyEnds := by
  unfold State.copyEnds
  split <;> simp +contextual [Fit, core_fields]
@[simp] theorem State.retireCmd_fit (s : State) (w : Word) : Fit s (s.retireCmd w) := by
  simp only [State.retireCmd]
  repeat' split
  all_goals simp +contextual [Fit, *]
@[simp] theorem State.etRead_fit (s : State) : Fit s s.etRead.1 := by simp +contextual [Fit, State.etRead]
@[simp] theorem State.bulkBeat_fit (s : State) : Fit s s.bulkBeat.1 := by
  simp only [State.bulkBeat]
  split <;> simp +contextual [Fit, core_fields, *]
@[simp] theorem State.bulkRun_fit (s : State) (n : Nat) : Fit s (s.bulkRun n) := by
  induction n generalizing s with
  | zero => exact Fit.refl s
  | succ n ih =>
    unfold State.bulkRun
    split
    · exact Fit.of_core (by simp)
    · split
      · exact Fit.refl s
      · split
        next t bad h =>
          have ht := fit_of_pair h s.bulkBeat_fit
          split
          · exact ht
          · exact ht.trans (ih t)
@[simp] theorem State.bulkDone_fit (s : State) : Fit s s.bulkDone := by simp +contextual [Fit, State.bulkDone]
@[simp] theorem State.haltGo_fit (s : State) (b : HaltedBeat) : Fit s (s.haltGo b) := by simp +contextual [Fit, State.haltGo, core_fields]
@[simp] theorem State.fltResume_fit (s : State) (e : Nat) : Fit s (s.fltResume e) := by
  unfold State.fltResume
  split <;> simp +contextual [Fit]
@[simp] theorem State.fltSkip_fit (s : State) (e : Nat) : Fit s (s.fltSkip e) := by
  simp only [State.fltSkip]
  repeat' split
  all_goals simp +contextual [Fit, core_fields, *]
@[simp] theorem State.fltCmd_fit (s : State) (port e : Nat) (w : Word) : Fit s (s.fltCmd port e w) := by simp +contextual [Fit, State.fltCmd]
@[simp] theorem State.coreBeats_fit (s : State) (h : Nat) (l : List Nat) : Fit s (s.coreBeats h l).1 := by
  induction l generalizing s with
  | nil => exact Fit.refl s
  | cons b l ih =>
    unfold State.coreBeats
    split
    · exact ih s
    · split
      next t k d hread =>
        have ht := fit_of_pair hread (s.engRead_fit 13 h b 64)
        split
        · exact ht.trans (Fit.of_core (by simp))
        · exact ht.trans (ih t)
@[simp] theorem State.coreLoad_fit {go : State → List Byte → State} (hgo : ∀ t l, Fit t (go t l)) (s : State) (h ofs n : Nat) :
    Fit s (s.coreLoad h ofs n go) := by
  unfold State.coreLoad
  split
  · exact Fit.refl s
  · split
    · exact Fit.of_core (by simp)
    · split
      next t heq => exact fit_of_pair heq (s.coreBeats_fit h _)
      next t l heq => exact (fit_of_pair heq (s.coreBeats_fit h _)).trans (hgo t _)
@[simp] theorem State.coreStore_fit {go : State → Nat → Nat → State} (hgo : ∀ t h n, Fit t (go t h n)) (s : State) (who h : Nat)
    (l : List Byte) : Fit s (s.coreStore who h l go) := by
  unfold State.coreStore
  split
  next t k heq =>
    have ht := fit_of_pair heq (s.storeRun_fit 13 h 0 l)
    split
    · exact ht.trans (hgo t _ _)
    · exact ht.trans (Fit.of_core (by simp [core_fields]))
@[simp] theorem State.coreStored_fit {go : State → Nat → Nat → State} {fail start : State → State} (hgo : ∀ t h n, Fit t (go t h n))
    (hfail : ∀ t, Fit t (fail t)) (hstart : ∀ t, Fit t (start t)) (s : State) (who : Nat) : Fit s (s.coreStored who go fail start) := by
  unfold State.coreStored
  split
  · exact hstart s
  next w h n _ =>
    have hdone : Fit s { s with boot := { s.boot with copyTo := none } } := Fit.of_core (by simp [core_fields])
    split
    · exact Fit.refl s
    · split
      · exact hdone.trans (hfail _)
      · split
        · exact s.resumeRun_fit 13
        · split
          · exact Fit.refl s
          · exact hdone.trans (hgo _ _ _)

/-! Of Machine/Cas. -/

@[simp] theorem State.seamCols_fit (s : State) (k line : Nat) (px : List Pix) : Fit s (s.seamCols k line px) := by
  simp +contextual [Fit, State.seamCols, core_fields]
@[simp] theorem State.seam_fit (s : State) (k kind line first count : Nat) (bytes : List Byte) : Fit s (s.seam k kind line first count bytes) := by
  simp only [State.seam]
  repeat' split
  all_goals simp +contextual [Fit, core_fields, *]

/-! Of Machine/Link. -/

@[simp] theorem State.tableCommit_fit (s : State) : Fit s s.tableCommit := by
  unfold State.tableCommit
  split <;> simp +contextual [Fit, core_fields]

/-! Of Machine/Nv. -/

@[simp] theorem State.flashDone_fit (s : State) : Fit s s.flashDone := by
  unfold State.flashDone
  split <;> simp +contextual [Fit, core_fields]
@[simp] theorem State.scanRing_fit (s : State) (k : Nat) : Fit s (s.scanRing k).1 := by
  unfold State.scanRing
  split
  · exact Fit.refl s
  · split
    · split <;> simp +contextual [Fit]
    · simp [Fit]
@[simp] theorem State.nvScan_fit (s : State) : Fit s s.nvScan := by
  unfold State.nvScan
  split
  · exact Fit.refl s
  · split
    next a secs ha =>
      have ha' : Fit s a := fit_of_pair ha (foldl_fst_fit (fun acc k => by
        split
        next t r ht => exact fit_of_pair ht (acc.1.scanRing_fit k)) (s, []))
      extract_lets key sorted recs fac b eras src ring latest ids next d e f g i more torn
      have hb : b.core = a.core := by simp [b]
      have hring : ring.flash = b.core.flash := by
        simp only [ring]
        split
        · rfl
        · rfl
      clear_value b ring
      have hd : d.core = b.core := by simp [d, core_fields, hring]
      clear_value d
      have hi : i.core = d.core := by simp [i, g, f, e]
      clear_value i
      split
      next was j hj =>
        have hj' : j.core = i.core := by
          have h := i.presenceIds_core
          rw [hj] at h
          exact h
        refine ha'.trans (Fit.of_core ?_)
        simp [core_fields, hj', hi, hd, hb]
@[simp] theorem State.coarseStore_fit (s : State) (h ofs : Nat) : Fit s (s.coarseStore h ofs) := by simp +contextual [Fit, State.coarseStore]
@[simp] theorem State.ageLoad_fit (s : State) (h ofs : Nat) : Fit s (s.ageLoad h ofs) := by simp +contextual [Fit, State.ageLoad, core_fields]

/-! Of Machine/Domains. -/

@[simp] theorem State.innerReset_fit (s : State) (u : Unit) (p : Nat) : Fit s (s.innerReset u p) := by
  unfold State.innerReset
  split <;> simp +contextual [Fit, core_fields]
@[simp] theorem State.blockReset_fit (s : State) (u : Unit) (p : Nat) (all : Bool) : Fit s (s.blockReset u p all) := by simp +contextual [Fit, State.blockReset]
@[simp] theorem State.unitReset_fit (s : State) (p : Nat) : Fit s (s.unitReset p) := by
  simp only [State.unitReset]
  repeat' split
  all_goals simp +contextual [Fit, *]
@[simp] theorem State.softRst_fit (s : State) (p : Nat) : Fit s (s.softRst p) := by simp +contextual [Fit, State.softRst, core_fields]
@[simp] theorem State.softBoundary_fit (s : State) : Fit s s.softBoundary := by simp +contextual [Fit, State.softBoundary, core_fields]
@[simp] theorem State.logicLost_fit (s : State) (n : Nat) (ram : Bool) : Fit s (s.logicLost n ram) := by
  unfold State.logicLost
  extract_lets a src mem b kept c d e
  have ha : Fit s a := foldl_fit (f := fun t u => t.blockReset u u.page true) (fun t u => t.blockReset_fit u u.page true) s
  clear_value a
  have hb : b.core = a.core := by
    simp only [b]
    split <;> simp [src, mem, core_fields]
  clear_value b
  have hd : d.core = b.core := by
    simp only [d]
    split <;> simp [kept, core_fields]
  clear_value d
  have he : e.core = d.core := by
    simp only [e]
    split <;> simp
  clear_value e
  refine (((ha.trans (Fit.of_core hb)).trans (Fit.of_core hd)).trans (Fit.of_core he)).trans (Fit.of_core ?_)
  split <;> simp [core_fields]
@[simp] theorem State.domLost_fit (s : State) (n : Nat) : Fit s (s.domLost n) := by
  unfold State.domLost
  split
  · refine Fit.of_wf rfl fun h => ?_
    exact Memory.wf_dramLost h rfl rfl rfl rfl
  · repeat' split
    all_goals simp +contextual [Fit]
@[simp] theorem State.domEntered_fit (s : State) (n st : Nat) : Fit s (s.domEntered n st) := by simp +contextual [Fit, State.domEntered]
@[simp] theorem State.domUp_fit (s : State) (n : Nat) (bad : Bool) : Fit s (s.domUp n bad) := by simp +contextual [Fit, State.domUp]
@[simp] theorem State.transitionDone_fit (s : State) (n : Nat) (bad : Bool) : Fit s (s.transitionDone n bad) := by
  unfold State.transitionDone
  split <;> simp +contextual [Fit]
@[simp] theorem State.bareReset_fit (s : State) : Fit s s.bareReset := by
  refine Fit.of_wf rfl fun h => ?_
  rw [Memory.wf_iff] at h ⊢
  exact ⟨rfl, rfl, h.2.2⟩
@[simp] theorem State.afterReset_fit (s : State) : Fit s s.afterReset := by simp +contextual [Fit, State.afterReset]
@[simp] theorem State.powerOnReset_fit (s : State) : Fit s s.powerOnReset := by simp +contextual [Fit, State.powerOnReset]
@[simp] theorem State.lasted_fit (s : State) : Fit s s.lasted := by
  unfold State.lasted
  extract_lets t clk pwr mem u
  have hafter : Fit s t := s.afterReset_fit
  clear_value t
  have hu : Fit s u := by
    refine Fit.of_wf hafter.1 fun h => ?_
    have ht := hafter.2 h
    rw [← Memory.wf_eq, Memory.wf_iff] at ht
    rw [Memory.wf_iff] at h ⊢
    exact ⟨ht.1, Cells.wf_bank35 s.sram s.mem.bankGens h.2.1, ht.2.2⟩
  clear_value u
  exact hu.trans (Fit.of_core (by simp))
@[simp] theorem State.logicReset_fit (s : State) : Fit s s.logicReset := by simp +contextual [Fit, State.logicReset]
@[simp] theorem State.resetLow_fit (s : State) : Fit s s.resetLow := by simp +contextual [Fit, State.resetLow, core_fields]

/-! Of Machine/Boot. -/

@[simp] theorem State.loadB32_fit (s : State) (body : List Byte) : Fit s (s.loadB32 body) := by simp +contextual [Fit, State.loadB32]
@[simp] theorem State.imageLoad_fit (s : State) (body : List Byte) (c : ImageCheck) : Fit s (s.imageLoad body c) := by
  simp +contextual [Fit, State.imageLoad, core_fields]
@[simp] theorem State.slotLoad_fit (s : State) (n : Nat) (c : ImageCheck) : Fit s (s.slotLoad n c) := by simp +contextual [Fit, State.slotLoad, core_fields]
@[simp] theorem State.bodyRead_fit (s : State) (n : Nat) (c : ImageCheck) : Fit s (s.bodyRead n c) := by simp +contextual [Fit, State.bodyRead, core_fields]
@[simp] theorem State.dramHold_fit (s : State) : Fit s s.dramHold := by simp +contextual [Fit, State.dramHold]
@[simp] theorem State.dramOn_fit (s : State) : Fit s s.dramOn := by simp +contextual [Fit, State.dramOn]
/-- A tried image that fails shows its check, and the trial is over. -/
def State.trialShown (t : State) (n : Nat) (c : ImageCheck) : State :=
  State.slotCode { t with boot := { t.boot with trial := false } } n c.code

/-- It gives way to the slot that the headers name, where that one is whole. -/
def State.trialGoes (s : State) (n : Nat) (c : ImageCheck) : State :=
  if c.code = 0 then (s.slotLoad n c).bootPhase 2 else (s.bootCode c.code).dramHold.bootPhase 0

theorem State.bootFail_eq (s : State) (code : Nat) :
    s.bootFail code =
      if s.boot.trial then
        (((s.put (bootFld 26 1) 1).coreRestart (s.fld Reg.CTL_STATE_CAUSE)).trialShown (s.headerSlot.getD 0)
          (s.slotCheck (s.headerSlot.getD 0))).trialGoes (s.headerSlot.getD 0) (s.slotCheck (s.headerSlot.getD 0))
      else ((s.bootCode code).dramHold).bootPhase 0 := rfl

theorem State.bootGives_fit (s : State) (code : Nat) : Fit s (((s.bootCode code).dramHold).bootPhase 0) :=
  ((Fit.of_core (s.bootCode_core code)).trans (State.dramHold_fit _)).trans (Fit.of_core (State.bootPhase_core _ _))

theorem State.trialShown_core (s : State) (n : Nat) (c : ImageCheck) : (s.trialShown n c).core = s.core := by
  simp [State.trialShown, core_fields]

theorem State.trialGoes_fit (s : State) (n : Nat) (c : ImageCheck) : Fit s (s.trialGoes n c) := by
  unfold State.trialGoes
  split
  · exact (s.slotLoad_fit n c).trans (Fit.of_core (State.bootPhase_core _ _))
  · exact s.bootGives_fit c.code

@[simp] theorem State.bootFail_fit (s : State) (code : Nat) : Fit s (s.bootFail code) := by
  rw [State.bootFail_eq]
  split
  · exact (Fit.of_core ((State.trialShown_core _ _ _).trans
      ((State.coreRestart_core _ _).trans (State.put_core _ _ _)))).trans (State.trialGoes_fit _ _ _)
  · exact s.bootGives_fit code
@[simp] theorem State.bootImage_fit (s : State) (jedec : Nat) : Fit s (s.bootImage jedec) := by
  unfold State.bootImage
  split
  · exact s.bootFail_fit 1
  · split
    next t found heq =>
      have ht : Fit s t := by
        refine fit_of_pair heq (foldl_fst_fit ?_ _)
        intro acc n
        split
        · exact Fit.refl _
        · exact (acc.1.bodyRead_fit n _).trans (Fit.of_core (State.slotCode_core _ _ _))
      split
      · refine ht.trans ?_
        split
        · exact (Fit.of_core (State.put_core _ _ _)).trans ((State.slotLoad_fit _ _ _).trans (Fit.of_core (State.bootPhase_core _ _)))
        · exact (State.slotLoad_fit _ _ _).trans (Fit.of_core (State.bootPhase_core _ _))
      · exact ht.trans (t.bootFail_fit _)
@[simp] theorem State.retireWrite_fit (s : State) (w : Word) : Fit s (s.retireWrite w) := by simp +contextual [Fit, State.retireWrite]
@[simp] theorem State.copyDone_fit (s : State) : Fit s s.copyDone := by
  unfold State.copyDone
  split <;> simp +contextual [Fit]
@[simp] theorem State.retireAgain_fit (s : State) : Fit s s.retireAgain := by simp +contextual [Fit, State.retireAgain]
@[simp] theorem State.dramTrained_fit (s : State) (mask : Nat) : Fit s (s.dramTrained mask) := by simp +contextual [Fit, State.dramTrained]
@[simp] theorem State.bootOk_fit (s : State) : Fit s s.bootOk := by simp +contextual [Fit, State.bootOk, core_fields]
@[simp] theorem State.wdogExpires_fit (s : State) : Fit s s.wdogExpires := by simp +contextual [Fit, State.wdogExpires]
@[simp] theorem State.restarted_fit (s : State) : Fit s s.restarted := by simp +contextual [Fit, State.restarted]
@[simp] theorem State.mboxHostload_fit (s : State) : Fit s s.mboxHostload := by simp +contextual [Fit, State.mboxHostload, core_fields]
@[simp] theorem State.mboxActivate_fit (s : State) : Fit s s.mboxActivate := by
  have hgo : ∀ (n : Nat) (t : State) (h k : Nat), Fit t (State.activated n t h k) := fun n t h k => Fit.of_core (by simp)
  have hend : ∀ t : State, Fit t (t.mboxEnd 6) := fun t => Fit.of_core (by simp)
  unfold State.mboxActivate
  refine State.withSlot_fit (fun n t => ?_) s true
  split
  · exact Fit.refl t
  · refine State.coreStored_fit (hgo n) hend (fun u => ?_) t 1
    extract_lets c v
    have hv : Fit u v := Fit.of_core (by simp [v])
    clear_value v
    split
    · exact hv.trans (Fit.of_core (by simp))
    · refine hv.trans (State.withDram_fit (fun x => ?_) v)
      exact State.coreAlloc_fit (fun y h => State.coreStore_fit (hgo n) y 1 h _) hend x 1 _ false false
@[simp] theorem State.activateImage_fit (s : State) (bytes : List Byte) : Fit s (s.activateImage bytes) := by
  simp +contextual [Fit, State.activateImage, core_fields]
@[simp] theorem State.activateBoundary_fit (s : State) : Fit s s.activateBoundary := by
  unfold State.activateBoundary
  split <;> simp +contextual [Fit]

/-! Of Machine/Test. -/

@[simp] theorem State.sramTurn_fit (s : State) (result : Nat) : Fit s (s.sramTurn result) := by
  simp only [State.sramTurn]
  repeat' split
  all_goals simp +contextual [Fit, core_fields, *]
@[simp] theorem State.dramTurn_fit (s : State) (result : Nat) : Fit s (s.dramTurn result) := by
  simp only [State.dramTurn]
  repeat' split
  all_goals simp +contextual [Fit, core_fields, *]
@[simp] theorem State.runBist_fit (s : State) (dr : List Bool) : Fit s (s.runBist dr) := by simp +contextual [Fit, State.runBist]

/-! Of Machine/Pixel. -/

@[simp] theorem State.readLine_fit (s : State) (y : Nat) : Fit s (s.readLine y) := by
  unfold State.readLine
  split
  · exact Fit.of_core (by simp)
  · split
    next t p ht => exact (fit_of_pair ht (s.viewLine_fit y)).trans (Fit.of_core (by simp))
    next t ht => exact (fit_of_pair ht (s.viewLine_fit y)).trans (Fit.of_core (by simp [core_fields]))
@[simp] theorem State.readSeam_fit (s : State) (y : Int) : Fit s (s.readSeam y).1 := by simp +contextual [Fit, State.readSeam]
@[simp] theorem State.readHem_fit (s : State) (y : Int) : Fit s (s.readHem y) := by
  unfold State.readHem
  split
  next t l ht => exact (fit_of_pair ht (s.readSeam_fit y)).trans (Fit.of_core (by simp))
  next t ht =>
    refine (fit_of_pair ht (s.readSeam_fit y)).trans ?_
    split
    · exact Fit.of_core (by simp)
    next n _ =>
      split
      · exact Fit.of_core (by simp)
      · split
        next u p hu => exact (fit_of_pair hu (t.viewLine_fit n)).trans (Fit.of_core (by simp))
        next u hu => exact (fit_of_pair hu (t.viewLine_fit n)).trans (Fit.of_core (by simp))
@[simp] theorem State.readAhead_fit (s : State) (y : Nat) : Fit s (s.readAhead y) := by
  unfold State.readAhead
  extract_lets a upTo from' b c
  have ha : Fit s a := by
    simp only [a]
    split
    · exact State.lines_fit (fun i t => t.readHem_fit i) s _ _
    · exact Fit.refl s
  have hb : Fit a b := State.lines_fit (fun i t => t.readLine_fit i.toNat) a _ _
  have hc : Fit b c := by
    simp only [c]
    split
    · exact State.lines_fit (fun i t => t.readHem_fit i) b _ _
    · exact Fit.refl b
  exact ((ha.trans hb).trans hc).trans (Fit.of_core (by simp [core_fields]))
@[simp] theorem State.keepField_fit (s : State) (y : Int) : Fit s (s.keepField y) := by simp +contextual [Fit, State.keepField, core_fields]
@[simp] theorem State.fieldStep_fit (s : State) (y : Nat) : Fit s (s.fieldStep y) := by simp +contextual [Fit, State.fieldStep, core_fields]
@[simp] theorem State.fieldAhead_fit (s : State) (y : Nat) : Fit s (s.fieldAhead y) := by
  unfold State.fieldAhead
  extract_lets from' upTo a r b
  have ha : Fit s a := State.lines_fit (fun i t => t.fieldStep_fit i.toNat) s _ _
  have hb : Fit a b := by
    simp only [b]
    split
    · exact State.lines_fit (fun i t => t.keepField_fit i) a _ _
    · exact Fit.refl a
  refine (ha.trans hb).trans ?_
  split
  · exact State.lines_fit (fun i t => t.keepField_fit i) b _ _
  · exact Fit.refl b
@[simp] theorem State.fetchAhead_fit (s : State) (y : Nat) : Fit s (s.fetchAhead y) := by
  unfold State.fetchAhead
  extract_lets upTo a b
  have ha : Fit s a := by
    simp only [a]
    split
    · exact State.lines_fit (fun i t => t.patchFetch_fit i.toNat) s _ _
    · exact Fit.refl s
  have hb : Fit a b := by
    simp only [b]
    split
    · exact State.lines_fit (fun i t => t.odFetch_fit i.toNat) a _ _
    · exact Fit.refl a
  exact (ha.trans hb).trans (Fit.of_core (by simp [core_fields]))
@[simp] theorem State.toCodes_fit (s : State) (y : Nat) (faults : List Nat) : Fit s (s.toCodes y faults).1 := by simp +contextual [Fit, State.toCodes]
@[simp] theorem State.activeLine_fit (s : State) (y : Nat) (faults : List Nat) : Fit s (s.activeLine y faults) := by
  unfold State.activeLine
  extract_lets a b c d
  have ha : Fit s a := Fit.of_core (by simp [a])
  have hb : Fit a b := ((a.readAhead_fit y).trans (State.fieldAhead_fit _ y)).trans (State.fetchAhead_fit _ y)
  clear_value b
  have hd : d.core = b.core := by
    simp only [d, c]
    split <;> split <;> simp
  clear_value d
  split
  next t out ht =>
    refine (((ha.trans hb).trans (Fit.of_core hd)).trans (fit_of_pair ht (d.toCodes_fit y faults))).trans (Fit.of_core (by simp))

/-! Of Machine/Access. -/

@[simp] theorem State.ctrlWrite_fit (s : State) (u : Unit) (p : Nat) (w : Word) : Fit s (s.ctrlWrite u p w) := by simp +contextual [Fit, State.ctrlWrite]
@[simp] theorem State.headerWrite_fit (s : State) (u : Unit) (p off : Nat) (w : Word) : Fit s (s.headerWrite u p off w) := by
  unfold State.headerWrite
  split <;> simp +contextual [Fit]
@[simp] theorem State.readReg_fit (s : State) (port a : Nat) : Fit s (s.readReg port a).1 := by
  unfold State.readReg
  extract_lets table
  have htable : ∀ e ∈ table, Fit s (e.2 s).1 := by simp +contextual [table, Fit]
  clear_value table
  split
  next e he => exact htable e (List.mem_of_find?_eq_some he)
  next => exact Fit.refl s
@[simp] theorem State.localRead_fit (s : State) (port a : Nat) (whole : Bool) : Fit s (s.localRead port a whole).1 := by
  simp only [State.localRead]
  repeat' split
  all_goals simp +contextual [Fit, *]
theorem writeActs_fit : ∀ e ∈ writeActs, ∀ (s : State) (port : Nat) (w : Word), Fit s (e.2 s port w) := by
  simp +contextual [Fit, writeActs]
@[simp] theorem State.writeReg_fit (s : State) (port : Nat) (u : Unit) (p a : Nat) (r : RegRow) (w : Word) : Fit s (s.writeReg port u p a r w) := by
  unfold State.writeReg
  split
  next e he => exact writeActs_fit e (List.mem_of_find?_eq_some he) s port w
  next =>
    split
    · exact Fit.of_core (by simp)
    · repeat' split
      all_goals simp +contextual [Fit]
@[simp] theorem State.writeOne_fit (s : State) (port a : Nat) (w : Word) : Fit s (s.writeOne port a w) := by
  simp only [State.writeOne]
  repeat' split
  all_goals simp +contextual [Fit, *]
@[simp] theorem State.localWrite_fit (s : State) (port a : Nat) (w : Word) : Fit s (s.localWrite port a w) := by simp +contextual [Fit, State.localWrite]
@[simp] theorem State.hostWrite_fit (s : State) (port a : Nat) (w : Word) : Fit s (s.hostWrite port a w) := by simp +contextual [Fit, State.hostWrite]
@[simp] theorem State.hostRead_fit (s : State) (port a : Nat) (whole : Bool) : Fit s (s.hostRead port a whole).1 := by simp +contextual [Fit, State.hostRead]
@[simp] theorem State.portRead_fit (s : State) (port a : Nat) (whole : Bool) : Fit s (s.portRead port a whole) := by simp +contextual [Fit, State.portRead]
@[simp] theorem State.portAccess_fit (s : State) (port a : Nat) (wr : Option Word) : Fit s (s.portAccess port a wr) := by
  unfold State.portAccess
  split <;> simp +contextual [Fit]
@[simp] theorem State.bcRegRd_fit (s : State) (tag : Nat) (payload : List Byte) : Fit s (s.bcRegRd tag payload) := by
  simp +contextual [Fit, State.bcRegRd, core_fields]
@[simp] theorem State.bcRegWr_fit (s : State) (tag : Nat) (payload : List Byte) : Fit s (s.bcRegWr tag payload) := by simp +contextual [Fit, State.bcRegWr]
@[simp] theorem State.tunnelIn_fit (s : State) (k tag op addr hops : Nat) (data : Word) : Fit s (s.tunnelIn k tag op addr hops data) := by
  simp only [State.tunnelIn]
  repeat' split
  all_goals simp +contextual [Fit, *]

/-! Of Machine/Pawn. -/

@[simp] theorem State.pawnEnter_fit (s : State) (p : Nat) : Fit s (s.pawnEnter p) := by
  simp only [State.pawnEnter]
  split <;> simp +contextual [Fit, core_fields, *]
@[simp] theorem State.bootAttempt_fit (s : State) (jedec : Nat) : Fit s (s.bootAttempt jedec) := by simp +contextual [Fit, State.bootAttempt, core_fields]

/-! Of Machine/CascadeCmd. -/

@[simp] theorem State.casBlock_fit (s : State) (k : Nat) (block data : List Byte) : Fit s (s.casBlock k block data) := by simp +contextual [Fit, State.casBlock]

/-! Of Machine/HostCmd. -/

@[simp] theorem State.readBytes_fit (s : State) (port addr n acked : Nat) : Fit s (s.readBytes port addr n acked) := by simp +contextual [Fit, State.readBytes]
@[simp] theorem State.writeBytes_fit (s : State) (port addr : Nat) (bytes : List Byte) : Fit s (s.writeBytes port addr bytes) := by
  simp +contextual [Fit, State.writeBytes]
@[simp] theorem State.spiWrite_fit (s : State) (addr : Nat) (bytes : List Byte) : Fit s (s.spiWrite addr bytes) := by
  simp +contextual [Fit, State.spiWrite, core_fields]
@[simp] theorem State.spiRead_fit (s : State) (addr n : Nat) : Fit s (s.spiRead addr n) := by simp +contextual [Fit, State.spiRead]
@[simp] theorem State.i2cWrite_fit (s : State) (addr : Nat) (bytes : List Byte) : Fit s (s.i2cWrite addr bytes) := by simp +contextual [Fit, State.i2cWrite]
@[simp] theorem State.i2cRead_fit (s : State) (addr n : Nat) : Fit s (s.i2cRead addr n) := by simp +contextual [Fit, State.i2cRead]

/-! Of Machine/LanesCmd. -/

@[simp] theorem State.cntClrWrite_fit (s : State) (port a : Nat) (w : Word) : Fit s (s.cntClrWrite port a w) := by simp +contextual [Fit, State.cntClrWrite]

/-! Of Machine/LinkCmd. -/

@[simp] theorem State.bcReceive_fit (s : State) (bytes : List Byte) : Fit s (s.bcReceive bytes) := by
  simp only [State.bcReceive]
  repeat' split
  all_goals simp +contextual [Fit, *]

/-! Of Machine/Firmware. -/

@[simp] theorem State.coarseStored_fit (head : List Byte) (s : State) (h n : Nat) : Fit s (State.coarseStored head s h n) := by
  unfold State.coarseStored
  extract_lets a cfg b c d
  have ha : Fit s a := State.each_fit (f := fun (e : Nat × Word) t => t.hostWrite 3 e.1 e.2) (fun e t => t.hostWrite_fit 3 e.1 e.2) s
  clear_value a
  have hb : Fit a b := a.hostWrite_fit 3 _ cfg
  clear_value b
  have hc : Fit b c := b.hostWrite_fit 3 _ _
  clear_value c
  have hd : Fit c d := c.hostWrite_fit 3 _ 1
  clear_value d
  exact (((ha.trans hb).trans hc).trans hd).trans (Fit.of_core (by simp [core_fields]))
@[simp] theorem State.coarseSetLoad_fit (s : State) : Fit s s.coarseSetLoad := by
  unfold State.coarseSetLoad
  split
  · exact Fit.refl s
  · extract_lets head why n fail
    have hfail : ∀ t : State, Fit t (fail t) := fun t => Fit.of_core (by simp [fail])
    have hgo : ∀ (t : State) (h k : Nat), Fit t (State.coarseStored head t h k) := fun t h k => t.coarseStored_fit head h k
    split
    · exact Fit.of_core (by simp)
    · exact State.coreStored_fit hgo hfail (fun t => State.withDram_fit (fun u =>
        State.coreAlloc_fit (fun v h => State.coreStore_fit hgo v 2 h _) hfail u 2 _ true true) t) s 2

/-! Of Machine/PowerCmd. -/

@[simp] theorem State.supplyTrips_fit (s : State) (aon : Bool) : Fit s (s.supplyTrips aon) := by simp +contextual [Fit, State.supplyTrips, core_fields]

end Sys2Proof.Machine
end

section
/-! PROOFS. The memories under the functions that move the clock on: they stay canonical. -/

namespace Sys2Proof.Machine

theorem core_of_pair_snd {α : Type} {s t : State} {y : α × State} {z : α} (h : y = (z, t)) (g : y.2.core = s.core) : t.core = s.core := by
  rw [← g, h]

@[simp] theorem State.each_wf {α : Type} {l : List α} {f : α → State → State} (h : ∀ y t, (f y t).core.wf = t.core.wf) (s : State) :
    (s.each l f).core.wf = s.core.wf :=
  State.each_induct (fun t => t.core.wf = s.core.wf) l f (fun y t ht => (h y t).trans ht) s rfl

/-! Of Machine/Clock. -/

@[simp] theorem State.advance_wf (s : State) (t : Nat) : (s.advance t).core.wf = s.core.wf := by
  unfold State.advance
  split
  · rfl
  · dsimp only
    split <;> simp [core_fields]

/-! Of Machine/Ctl. -/

@[simp] theorem State.ledToggle_wf (s : State) : s.ledToggle.core.wf = s.core.wf := by simp [State.ledToggle]

/-! Of Machine/Edl. -/

@[simp] theorem State.trainDone_wf (s : State) (p : Nat) : (s.trainDone p).core.wf = s.core.wf := by
  simp only [State.trainDone]
  repeat' split
  all_goals simp [*]
@[simp] theorem State.trainTimeout_wf (s : State) (p : Nat) : (s.trainTimeout p).core.wf = s.core.wf := by simp [State.trainTimeout]
@[simp] theorem State.portHost_wf (s : State) (p : Nat) : (s.portHost p).core.wf = s.core.wf := by simp [State.portHost, core_fields]
@[simp] theorem State.hcmdDone_wf (s : State) : s.hcmdDone.core.wf = s.core.wf := by
  unfold State.hcmdDone
  split
  next h _ =>
    split
    · rfl
    · rw [State.hcmdEnd_core, State.each_wf fun p t => t.portHost_wf p]
  · rfl

/-! Of Machine/Panel. -/

@[simp] theorem State.gateLine_wf (s : State) : s.gateLine.core.wf = s.core.wf := by
  unfold State.gateLine
  split <;> simp [core_fields]
@[simp] theorem State.pwmPulse_wf (s : State) : s.pwmPulse.core.wf = s.core.wf := by simp [State.pwmPulse, core_fields]
@[simp] theorem State.toDue_wf (s : State) : s.toDue.core.wf = s.core.wf := by simp [State.toDue]
@[simp] theorem State.powerOnStep_wf (s : State) : s.powerOnStep.core.wf = s.core.wf := by simp [State.powerOnStep]
@[simp] theorem State.powerOffStep_wf (s : State) : s.powerOffStep.core.wf = s.core.wf := by
  unfold State.powerOffStep
  split <;> simp
@[simp] theorem State.pgFail_wf (s : State) : s.pgFail.core.wf = s.core.wf := by simp [State.pgFail, core_fields]

/-! Of Machine/Timing. -/

@[simp] theorem State.latePip_wf (s : State) : s.latePip.core.wf = s.core.wf := by
  unfold State.latePip
  split <;> simp [core_fields]
@[simp] theorem State.pipTimeout_wf (s : State) : s.pipTimeout.core.wf = s.core.wf := by
  unfold State.pipTimeout
  split <;> simp
@[simp] theorem State.glLoss_wf (s : State) : s.glLoss.core.wf = s.core.wf := by
  unfold State.glLoss
  split <;> simp [core_fields]
@[simp] theorem State.vrefEdge_wf (s : State) (t : Nat) (rising : Bool) : (s.vrefEdge t rising).core.wf = s.core.wf := by
  simp only [State.vrefEdge]
  repeat' split
  all_goals simp [core_fields, *]
@[simp] theorem State.hrefEdge_wf (s : State) (t : Nat) (rising : Bool) : (s.hrefEdge t rising).core.wf = s.core.wf := by simp [State.hrefEdge, core_fields]

/-! Of Machine/Power. -/

@[simp] theorem State.retWake_wf (s : State) : s.retWake.core.wf = s.core.wf := by simp [State.retWake]
/-- A minute is counted. -/
def State.minuteCounted (s : State) : State :=
  let s := s.wrN Reg.AON_POWER_ON_MIN ((s.rd Reg.AON_POWER_ON_MIN).toNat + 1)
  { s with pwr := { s.pwr with minutesAt := s.pwr.minutesAt + 1 } }

theorem State.minuteCounted_core (s : State) : s.minuteCounted.core = s.core := by
  have h := s.wrN_core Reg.AON_POWER_ON_MIN ((s.rd Reg.AON_POWER_ON_MIN).toNat + 1)
  unfold State.minuteCounted
  generalize s.wrN Reg.AON_POWER_ON_MIN ((s.rd Reg.AON_POWER_ON_MIN).toNat + 1) = t at h ⊢
  exact h

@[simp] theorem State.minuteTick_wf (s : State) : s.minuteTick.core.wf = s.core.wf := by
  change (s.advance (s.tbInstant ((s.pwr.minutesAt + 1) * 60000000))).minuteCounted.core.wf = s.core.wf
  rw [State.minuteCounted_core, State.advance_wf]
@[simp] theorem State.alarmFires_wf (s : State) : s.alarmFires.core.wf = s.core.wf := by simp [State.alarmFires, core_fields]
@[simp] theorem State.avsPoll_wf (s : State) (mv : Nat) (crcErr : Bool) : (s.avsPoll mv crcErr).core.wf = s.core.wf := by
  unfold State.avsPoll
  split <;> simp [core_fields]
@[simp] theorem State.avsFailed_wf (s : State) (nak : Bool) : (s.avsFailed nak).core.wf = s.core.wf := by
  unfold State.avsFailed
  split <;> simp

/-! Of Machine/Cas. -/

@[simp] theorem State.casTimeout_wf (s : State) (k : Nat) : (s.casTimeout k).core.wf = s.core.wf := by simp [State.casTimeout]
@[simp] theorem State.casRetry_wf (s : State) (k : Nat) : (s.casRetry k).core.wf = s.core.wf := by simp [State.casRetry]
@[simp] theorem State.fsyncOutEnd_wf (s : State) : s.fsyncOutEnd.core.wf = s.core.wf := by simp [State.fsyncOutEnd, core_fields]

/-! Of Machine/Link. -/

@[simp] theorem State.hpdPulseEnd_wf (s : State) : s.hpdPulseEnd.core.wf = s.core.wf := by
  unfold State.hpdPulseEnd
  split <;> simp [core_fields]
@[simp] theorem State.fastFail_wf (s : State) : s.fastFail.core.wf = s.core.wf := by simp [State.fastFail]
@[simp] theorem State.phaseTimeout_wf (s : State) : s.phaseTimeout.core.wf = s.core.wf := by simp [State.phaseTimeout]
/-- A choice has a core where both of its ways have it. -/
theorem core_of_ite {c : Prop} [Decidable c] {s t : State} {k : Core} (hs : c → s.core = k) (ht : ¬c → t.core = k) :
    (if c then s else t).core = k := by
  by_cases h : c
  · rw [if_pos h, hs h]
  · rw [if_neg h, ht h]

theorem State.linePacket_core (s : State) (t : Nat) (lanes : List (List Byte)) (bad : Bool) :
    (s.linePacket t lanes bad).core = (s.advance t).core := by
  unfold State.linePacket
  generalize s.advance t = u
  extract_lets v src w bytes h y first count fmt last opened hdr isl q seq isl2 n payload
  have hw : w.core = u.core := core_of_ite (fun _ => rfl) fun _ => rfl
  clear_value w src
  rw [← hw]
  have hopened : ∀ x : State, (opened x).core = x.core := fun x => by
    unfold opened
    dsimp only
    split <;> simp [core_fields]
  have hq : q.core = w.core := hopened w
  have hhdr : hdr.core = w.core := w.bump_core _
  have hseq : seq.core = w.core := ((State.lineBad_core _ y).trans (q.bump_core _)).trans hq
  clear_value opened q hdr seq isl isl2
  refine core_of_ite (fun _ => rfl) fun _ => ?_
  refine core_of_ite (fun _ => w.bump_core _) fun _ => ?_
  refine core_of_ite (fun _ => hhdr) fun _ => ?_
  refine core_of_ite (fun _ => hseq) fun _ => ?_
  refine core_of_ite (fun _ => (q.bump_core _).trans hq) fun _ => ?_
  rw [← hq]
  split
  · exact q.bump_core _
  · refine core_of_ite (fun _ => by simp) fun _ => ?_
    refine core_of_ite (fun _ => by simp) fun _ => ?_
    refine core_of_ite (fun _ => by simp) fun _ => ?_
    split
    next hurt x hx =>
      rw [← core_of_pair_snd hx (q.injCrc_core 0)]
      extract_lets good g src y
      have hy : y.core = x.core := rfl
      clear_value y
      rw [← hy]
      exact core_of_ite (fun _ => by simp) fun _ => by simp

@[simp] theorem State.linePacket_wf (s : State) (t : Nat) (lanes : List (List Byte)) (bad : Bool) :
    (s.linePacket t lanes bad).core.wf = s.core.wf := by
  rw [State.linePacket_core, State.advance_wf]

/-! Of Machine/Domains. -/

@[simp] theorem State.drainDone_wf (s : State) (n : Nat) : (s.drainDone n).core.wf = s.core.wf := by
  simp only [State.drainDone]
  repeat' split
  all_goals simp [*]

/-! Of Machine/Access. -/

@[simp] theorem State.presenceEnds_wf (s : State) : s.presenceEnds.core.wf = s.core.wf := by
  unfold State.presenceEnds
  split <;> simp
@[simp] theorem State.after_wf (s t : State) : (s.after t).core.wf = t.core.wf := by simp [State.after, core_fields]
@[simp] theorem State.tunnelExpires_wf (s : State) : s.tunnelExpires.core.wf = s.core.wf := by
  unfold State.tunnelExpires
  split <;> simp
@[simp] theorem State.i2cExpires_wf (s : State) : s.i2cExpires.core.wf = s.core.wf := by
  unfold State.i2cExpires
  split <;> simp

/-! Of Machine/LinkCmd. -/

@[simp] theorem State.phaseExpires_wf (s : State) (link : Nat) : (s.phaseExpires link).core.wf = s.core.wf := by simp [State.phaseExpires]
@[simp] theorem State.eventSend_wf (s : State) : s.eventSend.core.wf = s.core.wf := by
  unfold State.eventSend
  split
  · rfl
  · extract_lets t src u
    have ht : t.core.wf = s.core.wf := by
      unfold t
      split
      · exact s.advance_wf _
      · rfl
    clear_value t
    have hu : u.core = t.core := by simp [u, src, core_fields]
    clear_value u
    rw [State.bcSend_core, State.bump_core, hu, ht]

/-! Of Machine/TimingCmd. -/

@[simp] theorem State.lineOverdue_wf (s : State) : s.lineOverdue.core.wf = s.core.wf := by
  unfold State.lineOverdue
  split <;> simp
@[simp] theorem State.darkBand_wf (s : State) (r delay : Nat) : (s.darkBand r delay).core.wf = s.core.wf := by simp [State.darkBand]
@[simp] theorem State.applyAhead_wf (s : State) (r delay : Nat) : (s.applyAhead r delay).core.wf = s.core.wf := by simp [State.applyAhead]

end Sys2Proof.Machine
end

section
/-! PROOFS. The memories under the functions that write one and move the clock on, and under every command: they stay canonical. -/

namespace Sys2Proof.Machine

theorem State.bootTimeout_wf {s : State} (h : s.core.wf = true) : s.bootTimeout.core.wf = true := by
  unfold State.bootTimeout
  split
  · exact (State.bootFail_fit _ 6).2 (by rwa [State.advance_wf])
  · exact h

theorem State.outputLine_wf {s : State} (h : s.core.wf = true) (faults : List Nat) : (s.outputLine faults).core.wf = true := by
  unfold State.outputLine
  split
  · exact h
  next y t _ =>
    extract_lets u v w
    have hu : u.core.wf = true := (State.remap_fit _).2 (by rwa [State.advance_wf])
    clear_value u
    have hv : v.core.wf = true := by
      unfold v
      split
      · exact (u.activeLine_fit y faults).2 hu
      · exact hu
    clear_value v
    have hw : w.core = v.core := core_of_ite (fun _ => by simp) fun _ => rfl
    clear_value w
    exact (congrArg Core.wf hw).trans hv

theorem State.lineCopyDue_wf {s : State} (h : s.core.wf = true) : s.lineCopyDue.core.wf = true := by
  unfold State.lineCopyDue
  split
  · exact h
  · split
    · exact (State.lineCopy_fit _).2 (by rwa [State.advance_wf])
    · exact h

/-- An output frame's boundary, and what it does to the clock and the memories. -/
theorem State.frameBoundary_fit (s : State) : Fit (if s.tim.running then s.advance s.tim.next else s) s.frameBoundary := by
  unfold State.frameBoundary
  extract_lets running t shape zones od odOn live ended u v w
  have ht : t.core = (if s.tim.running then s.advance s.tim.next else s).core := by
    unfold t running
    split
    · exact State.mopEnd_core _
    · rfl
  clear_value t
  refine (Fit.of_core ht).trans ?_
  have hu : Fit t u := Fit.of_core (core_of_ite (fun _ => by simp) fun _ => rfl)
  clear_value u
  have hv : Fit u v := by
    unfold v
    split
    · exact u.pawnEnter_fit 4
    · exact Fit.refl u
  clear_value v
  refine (hu.trans hv).trans (v.activateBoundary_fit.trans ?_)
  split
  next x applied hx =>
    refine (Fit.of_core (core_of_pair hx w.applySet_core)).trans ?_
    extract_lets y z
    have hy : Fit x y := by simp +contextual [y, Fit]
    clear_value y
    have hz : Fit y z := y.timBoundary_fit shape
    clear_value z
    refine (hy.trans hz).trans (Fit.of_core ?_)
    rw [State.frameStarts_core]
    exact core_of_ite (fun _ => z.setApplied_core) fun _ => rfl

theorem State.frameBoundary_wf {s : State} (h : s.core.wf = true) : s.frameBoundary.core.wf = true := by
  refine s.frameBoundary_fit.2 ?_
  split
  · rwa [State.advance_wf]
  · exact h

/-- SYNC TIMING and SYNC FRAME leave; the boundary that they foretell does not come yet. -/
theorem State.syncAhead_wf (s : State) (delay : Nat) : (s.syncAhead delay).core.wf = s.core.wf := by
  unfold State.syncAhead
  extract_lets d t f u v
  have ht : t.core.wf = s.core.wf := by
    unfold t
    split
    · exact s.advance_wf _
    · rfl
  have hv : v.core = t.core := t.syncFrame_core ..
  clear_value t u v
  rw [core_of_ite (k := t.core) (fun _ => (v.globalSend_core u f).trans hv) fun _ => hv, ht]

theorem State.rbReady_fit (s : State) : Fit s (if s.flag Reg.CODEC_RB_STATUS_BUSY then s.withDram State.rbDone else s) := by
  split
  · exact State.withDram_fit State.rbDone_fit s
  · exact Fit.refl s

theorem State.checkEnds_fit (s : State) : Fit s (if s.pat.check.isSome then s.withDram State.checkDone else s) := by
  split
  · exact State.withDram_fit State.checkDone_fit s
  · exact Fit.refl s

/-! The commands. -/

/-- What a command does leaves the memories canonical. -/
def Canonical (f : State → State) : Prop := ∀ s : State, s.core.wf = true → (f s).core.wf = true

theorem Canonical.of_core {f : State → State} (h : ∀ s, (f s).core = s.core) : Canonical f := fun s hs => by rwa [h s]
theorem Canonical.of_wf {f : State → State} (h : ∀ s, (f s).core.wf = s.core.wf) : Canonical f := fun s hs => by rwa [h s]
theorem Canonical.of_fit {f : State → State} (h : ∀ s, Fit s (f s)) : Canonical f := fun s hs => (h s).2 hs

/-- A command that waits for the release of reset leaves the memories canonical. -/
theorem exec_unheld_canonical (s : State) : ∀ c : Instr, actsInReset c = false → ∃ f, exec c s = s.unheld f ∧ Canonical f
  | .frameBoundary, _ => ⟨_, exec_frameBoundary s, fun _ h => State.frameBoundary_wf h⟩
  | .outputLineStart faults, _ => ⟨_, exec_outputLineStart s faults, fun _ h => State.outputLine_wf h faults⟩
  | .rxBlock lane hdr payload, _ => ⟨_, exec_rxBlock s lane hdr payload, .of_core fun u => u.rxBlock_core lane hdr payload⟩
  | .refcfgWrite port w, _ => ⟨_, exec_refcfgWrite s port w, .of_fit fun u => u.hostWrite_fit port Reg.EDL_REFCFG w⟩
  | .refcfgPendingApply, _ => ⟨_, exec_refcfgPendingApply s, .of_core State.refcfgApply_core⟩
  | .dfeUpdate lane err dec, _ => ⟨_, exec_dfeUpdate s lane err dec, .of_core fun u => u.dfeUpdate_core lane err dec⟩
  | .adaptWindowEnd lane changes, _ => ⟨_, exec_adaptWindowEnd s lane changes, .of_core fun u => u.adaptWindow_core lane changes⟩
  | .rxLockLost lane, _ => ⟨_, exec_rxLockLost s lane, .of_core fun u => u.rxLockLost_core lane⟩
  | .eiDetect lane, _ => ⟨_, exec_eiDetect s lane, .of_core fun u => u.eiDetect_core lane⟩
  | .eiClear lane, _ => ⟨_, exec_eiClear s lane, .of_core fun u => u.eiClear_core lane⟩
  | .esStart port lane w, _ => ⟨_, exec_esStart s port lane w, .of_fit fun t => t.hostWrite_fit port _ _⟩
  | .esDwellEnd lane errs, _ => ⟨_, exec_esDwellEnd s lane errs, .of_core fun u => u.esEnd_core lane errs⟩
  | .lstateReqWrite port lane w, _ => ⟨_, exec_lstateReqWrite s port lane w, .of_fit fun u => u.hostWrite_fit port (Reg.PHY_LSTATE (phyBase lane)) w⟩
  | .laneTransitionDone lane, _ => ⟨_, exec_laneTransitionDone s lane, .of_core fun u => u.laneTransition_core lane⟩
  | .prbsWrite port lane w, _ => ⟨_, exec_prbsWrite s port lane w, .of_fit fun u => u.hostWrite_fit port (Reg.PHY_PRBS (phyBase lane)) w⟩
  | .prbsCheckerSync lane errs, _ => ⟨_, exec_prbsCheckerSync s lane errs, .of_core fun u => u.prbsSync_core lane errs⟩
  | .cntClr port page off w, _ => ⟨_, exec_cntClr s port page off w, .of_fit fun u => u.cntClrWrite_fit port (4096 * page + off) w⟩
  | .pip t copies, _ => ⟨_, exec_pip s t copies, .of_wf fun t => by rw [State.controlRow_core, State.advance_wf]⟩
  | .sleepRow copies, _ => ⟨_, exec_sleepRow s copies, .of_core fun u => u.controlRow_core copies [] false⟩
  | .wakeRow copies, _ => ⟨_, exec_wakeRow s copies, .of_core fun u => u.controlRow_core copies [] false⟩
  | .regionRow copies, _ => ⟨_, exec_regionRow s copies, .of_core fun u => u.controlRow_core copies [] false⟩
  | .metaRow copies, _ => ⟨_, exec_metaRow s copies, .of_core fun u => u.controlRow_core copies [] false⟩
  | .alnRow link blocks skews, _ => ⟨_, exec_alnRow s link blocks skews, .of_core fun u => u.alnRow_core link blocks skews⟩
  | .ts1Block link blocks inverted, _ => ⟨_, exec_ts1Block s link blocks inverted, .of_core fun u => u.ts1Block_core link blocks inverted⟩
  | .idleRow copies, _ => ⟨_, exec_idleRow s copies, .of_core fun u => u.controlRow_core copies [] false⟩
  | .controlRowIgnored copies, _ => ⟨_, exec_controlRowIgnored s copies, .of_core fun u => u.controlRow_core copies [] false⟩
  | .misalignedRow, _ => ⟨_, exec_misalignedRow s, .of_core State.misaligned_core⟩
  | .linePacket t lanes bad, _ => ⟨_, exec_linePacket s t lanes bad, .of_wf fun u => u.linePacket_wf t lanes bad⟩
  | .tablePacket copies lanes bad, _ => ⟨_, exec_tablePacket s copies lanes bad, .of_core fun u => u.controlRow_core copies lanes bad⟩
  | .tableCommitDone, _ => ⟨_, exec_tableCommitDone s, .of_fit State.tableCommit_fit⟩
  | .lineWrite, _ => ⟨_, exec_lineWrite s, .of_fit State.lineWrite_fit⟩
  | .lineCopy, _ => ⟨_, exec_lineCopy s, fun _ h => State.lineCopyDue_wf h⟩
  | .lineDeadline, _ => ⟨_, exec_lineDeadline s, .of_wf State.lineOverdue_wf⟩
  | .regRd bytes, _ => ⟨_, exec_regRd s bytes, .of_fit fun u => u.bcReceive_fit bytes⟩
  | .regWr bytes, _ => ⟨_, exec_regWr s bytes, .of_fit fun u => u.bcReceive_fit bytes⟩
  | .wakeReq bytes, _ => ⟨_, exec_wakeReq s bytes, .of_fit fun u => u.bcReceive_fit bytes⟩
  | .bcFrameDiscard bytes, _ => ⟨_, exec_bcFrameDiscard s bytes, .of_fit fun u => u.bcReceive_fit bytes⟩
  | .trainCaps bytes, _ => ⟨_, exec_trainCaps s bytes, .of_fit fun u => u.bcReceive_fit bytes⟩
  | .trainOk bytes, _ => ⟨_, exec_trainOk s bytes, .of_fit fun u => u.bcReceive_fit bytes⟩
  | .presetAck bytes, _ => ⟨_, exec_presetAck s bytes, .of_fit fun u => u.bcReceive_fit bytes⟩
  | .trainReady bytes, _ => ⟨_, exec_trainReady s bytes, .of_fit fun u => u.bcReceive_fit bytes⟩
  | .trainFail bytes, _ => ⟨_, exec_trainFail s bytes, .of_fit fun u => u.bcReceive_fit bytes⟩
  | .trainPhaseTimeout link, _ => ⟨_, exec_trainPhaseTimeout s link, .of_wf fun u => u.phaseExpires_wf link⟩
  | .eqPresetMeasure link eyes, _ => ⟨_, exec_eqPresetMeasure s link eyes, .of_core fun u => u.eqMeasure_core link eyes⟩
  | .linkTrainStart, _ => ⟨_, exec_linkTrainStart s, .of_core State.trainStart_core⟩
  | .fastRetrainDone, _ => ⟨_, exec_fastRetrainDone s, .of_core State.fastDone_core⟩
  | .fastFail, _ => ⟨_, exec_fastFail s, .of_wf State.fastFail_wf⟩
  | .bcEvent, _ => ⟨_, exec_bcEvent s, .of_wf State.eventSend_wf⟩
  | .islRetrain port w, _ => ⟨_, exec_islRetrain s port w, .of_fit fun u => u.hostWrite_fit port Reg.ISL_CMD (Reg.ISL_CMD_RETRAIN.put w 1)⟩
  | .hpdPulse port w, _ => ⟨_, exec_hpdPulse s port w, .of_fit fun u => u.hostWrite_fit port Reg.ISL_CMD (Reg.ISL_CMD_HPD_PULSE.put w 1)⟩
  | .hpdPulseEnd, _ => ⟨_, exec_hpdPulseEnd s, .of_wf State.hpdPulseEnd_wf⟩
  | .metaPop port w, _ => ⟨_, exec_metaPop s port w, .of_fit fun u => u.hostWrite_fit port Reg.ISL_META_POP w⟩
  | .latePip, _ => ⟨_, exec_latePip s, .of_wf State.latePip_wf⟩
  | .pipTimeout, _ => ⟨_, exec_pipTimeout s, .of_wf State.pipTimeout_wf⟩
  | .vrefEdge t rising, _ => ⟨_, exec_vrefEdge s t rising, .of_wf fun u => u.vrefEdge_wf t rising⟩
  | .hrefEdge t rising, _ => ⟨_, exec_hrefEdge s t rising, .of_wf fun u => u.hrefEdge_wf t rising⟩
  | .glLoss, _ => ⟨_, exec_glLoss s, .of_wf State.glLoss_wf⟩
  | .bfiDarkBand row delay, _ => ⟨_, exec_bfiDarkBand s row delay, .of_wf fun u => u.darkBand_wf row delay⟩
  | .srefEnter port w, _ => ⟨_, exec_srefEnter s port w, .of_fit fun u => u.hostWrite_fit port Reg.SREF_CMD (Reg.SREF_CMD_ENTER.put w 1)⟩
  | .srefExit port w, _ => ⟨_, exec_srefExit s port w, .of_fit fun u => u.hostWrite_fit port Reg.SREF_CMD (Reg.SREF_CMD_EXIT.put w 1)⟩
  | .srefRelease port w, _ => ⟨_, exec_srefRelease s port w, .of_fit fun u => u.hostWrite_fit port Reg.SREF_CMD (Reg.SREF_CMD_RELEASE.put w 1)⟩
  | .srefRetWake, _ => ⟨_, exec_srefRetWake s, .of_wf State.retWake_wf⟩
  | .lutDataAccess port wr, _ => ⟨_, exec_lutDataAccess s port wr, .of_fit fun u => u.portAccess_fit port Reg.INPUT_LUT_DATA wr⟩
  | .lutLoad port w, _ => ⟨_, exec_lutLoad s port w, .of_fit fun u => u.hostWrite_fit port Reg.INPUT_LUT_CTRL (Reg.INPUT_LUT_CTRL_LOAD.put w 1)⟩
  | .lutDone, _ => ⟨_, exec_lutDone s, .of_core State.lutDone_core⟩
  | .capStatusWrite port w, _ => ⟨_, exec_capStatusWrite s port w, .of_fit fun u => u.hostWrite_fit port Reg.STATS_CAP_STATUS w⟩
  | .statsRbDataRead port, _ => ⟨_, exec_statsRbDataRead s port, .of_fit fun u => u.portRead_fit port Reg.STATS_RB_DATA true⟩
  | .rbSelWrite port w, _ => ⟨_, exec_rbSelWrite s port w, .of_fit fun u => u.hostWrite_fit port Reg.CODEC_RB_SEL w⟩
  | .rbReady, _ => ⟨_, exec_rbReady s, .of_fit State.rbReady_fit⟩
  | .codecRbData1Read port, _ => ⟨_, exec_codecRbData1Read s port, .of_fit fun u => u.portRead_fit port Reg.CODEC_RB_DATA1 true⟩
  | .zoneRowSolve, _ => ⟨_, exec_zoneRowSolve s, .of_core State.solveNext_core⟩
  | .pcapWrite port w, _ => ⟨_, exec_pcapWrite s port w, .of_fit fun u => u.hostWrite_fit port Reg.ZONE_PCAP w⟩
  | .classDataAccess port wr, _ => ⟨_, exec_classDataAccess s port wr, .of_fit fun u => u.portAccess_fit port Reg.ZONE_CLASS_DATA wr⟩
  | .agDataAccess port wr, _ => ⟨_, exec_agDataAccess s port wr, .of_fit fun u => u.portAccess_fit port Reg.ZONE_AG_DATA wr⟩
  | .agCommit port w, _ => ⟨_, exec_agCommit s port w, .of_fit fun u => u.hostWrite_fit port Reg.ZONE_AG_COMMIT w⟩
  | .ageGainUpdate, _ => ⟨_, exec_ageGainUpdate s, .of_core State.ageGainUpdate_core⟩
  | .lvDataRead port, _ => ⟨_, exec_lvDataRead s port, .of_fit fun u => u.portRead_fit port Reg.ZONE_LV_DATA true⟩
  | .psfDataAccess port wr, _ => ⟨_, exec_psfDataAccess s port wr, .of_fit fun u => u.portAccess_fit port Reg.PSF_DATA wr⟩
  | .psfCalc port w, _ => ⟨_, exec_psfCalc s port w, .of_fit fun u => u.hostWrite_fit port Reg.PSF_CALC w⟩
  | .psfCalcDone, _ => ⟨_, exec_psfCalcDone s, .of_core State.psfCalcDone_core⟩
  | .clipDataRead port, _ => ⟨_, exec_clipDataRead s port, .of_fit fun u => u.portRead_fit port Reg.SPLIT_CLIP_DATA true⟩
  | .celllutDataAccess port wr, _ => ⟨_, exec_celllutDataAccess s port wr, .of_fit fun u => u.portAccess_fit port Reg.CELLLUT_DATA wr⟩
  | .checkStart port w, _ => ⟨_, exec_checkStart s port w, .of_fit fun u => u.hostWrite_fit port Reg.PATCH_CHECK (Reg.PATCH_CHECK_START.put w 1)⟩
  | .checkDone, _ => ⟨_, exec_checkDone s, .of_fit State.checkEnds_fit⟩
  | .coarseSetLoad, _ => ⟨_, exec_coarseSetLoad s, .of_fit State.coarseSetLoad_fit⟩
  | .defectDataAccess port wr, _ => ⟨_, exec_defectDataAccess s port wr, .of_fit fun u => u.portAccess_fit port Reg.DEFECT_DATA wr⟩
  | .autoDataRead port, _ => ⟨_, exec_autoDataRead s port, .of_fit fun u => u.portRead_fit port Reg.DEFECT_AUTO_DATA true⟩
  | .autoCtlClr port w, _ => ⟨_, exec_autoCtlClr s port w, .of_fit fun u => u.hostWrite_fit port Reg.DEFECT_AUTO_CTL w⟩
  | .odDataAccess port wr, _ => ⟨_, exec_odDataAccess s port wr, .of_fit fun u => u.portAccess_fit port Reg.OD_DATA wr⟩
  | .odReinit port w, _ => ⟨_, exec_odReinit s port w, .of_fit fun u => u.hostWrite_fit port Reg.OD_CMD w⟩
  | .adcConversion code, _ => ⟨_, exec_adcConversion s code, .of_core fun u => u.adcDone_core code⟩
  | .thermRegionalUpdate, _ => ⟨_, exec_thermRegionalUpdate s, .of_core State.thermUpdate_core⟩
  | .thermCommit port w, _ => ⟨_, exec_thermCommit s port w, .of_fit fun u => u.hostWrite_fit port Reg.THERM_COMMIT w⟩
  | .regDataAccess port wr, _ => ⟨_, exec_regDataAccess s port wr, .of_fit fun u => u.portAccess_fit port Reg.THERM_REG_DATA wr⟩
  | .convDataAccess port wr, _ => ⟨_, exec_convDataAccess s port wr, .of_fit fun u => u.portAccess_fit port Reg.THERM_CONV_DATA wr⟩
  | .dithDataAccess port wr, _ => ⟨_, exec_dithDataAccess s port wr, .of_fit fun u => u.portAccess_fit port Reg.DITH_DATA wr⟩
  | .syncFrame delay, _ => ⟨_, exec_syncFrame s delay, .of_wf fun t => t.syncAhead_wf delay⟩
  | .syncApply row delay, _ => ⟨_, exec_syncApply s row delay, .of_wf fun u => u.applyAhead_wf row delay⟩
  | .hcmdGo port w, _ => ⟨_, exec_hcmdGo s port w, .of_fit fun u => u.hostWrite_fit port Reg.EDL_HCMD_GO w⟩
  | .safeLevelWrite port w, _ => ⟨_, exec_safeLevelWrite s port w, .of_fit fun u => u.hostWrite_fit port Reg.EDL_SAFE_LEVEL w⟩
  | .linkHoldWrite port w, _ => ⟨_, exec_linkHoldWrite s port w, .of_fit fun u => u.hostWrite_fit port Reg.EDL_LINK_HOLD w⟩
  | .edlPoll bus, _ => ⟨_, exec_edlPoll s bus, .of_core fun u => u.pollOpen_core bus⟩
  | .statusResponse bus bytes code, _ => ⟨_, exec_statusResponse s bus bytes code, .of_core fun u => u.busResponse_core bus bytes code⟩
  | .faultsResponse bus bytes code, _ => ⟨_, exec_faultsResponse s bus bytes code, .of_core fun u => u.busResponse_core bus bytes code⟩
  | .errcntResponse bus bytes code, _ => ⟨_, exec_errcntResponse s bus bytes code, .of_core fun u => u.busResponse_core bus bytes code⟩
  | .readbackResponse bus bytes code, _ => ⟨_, exec_readbackResponse s bus bytes code, .of_core fun u => u.busResponse_core bus bytes code⟩
  | .capsResponse bus bytes code, _ => ⟨_, exec_capsResponse s bus bytes code, .of_core fun u => u.busResponse_core bus bytes code⟩
  | .noneResponse bus bytes code, _ => ⟨_, exec_noneResponse s bus bytes code, .of_core fun u => u.busResponse_core bus bytes code⟩
  | .pollMiss bus codeErrs answered, _ => ⟨_, exec_pollMiss s bus codeErrs answered, .of_core fun u => u.pollMiss_core bus codeErrs answered⟩
  | .edlTrainDone edlPort, _ => ⟨_, exec_edlTrainDone s edlPort, .of_wf fun u => u.trainDone_wf edlPort⟩
  | .edlTrainTimeout edlPort, _ => ⟨_, exec_edlTrainTimeout s edlPort, .of_wf fun u => u.trainTimeout_wf edlPort⟩
  | .edlTrainRetry edlPort, _ => ⟨_, exec_edlTrainRetry s edlPort, .of_core fun u => u.trainRetry_core edlPort⟩
  | .portRetrain port edlPort w, _ => ⟨_, exec_portRetrain s port edlPort w,
    .of_fit fun u => u.hostWrite_fit port (Reg.EDL_PORT_CMD edlPort) ((Reg.EDL_PORT_CMD_RETRAIN edlPort).put w 1)⟩
  | .edlEnum port w, _ => ⟨_, exec_edlEnum s port w, .of_fit fun u => u.hostWrite_fit port Reg.EDL_CMD (Reg.EDL_CMD_ENUM.put w 1)⟩
  | .prbsBurst edlPort blocks, _ => ⟨_, exec_prbsBurst s edlPort blocks, .of_core fun u => u.prbsBurst_core edlPort blocks⟩
  | .groupBroadcast port group cmd w, _ => ⟨_, exec_groupBroadcast s port group cmd w,
    .of_fit fun u => u.hostWrite_fit port (if cmd then Reg.EDL_GRP_CMD_ALL group else Reg.EDL_GRP_CFG_ALL group) w⟩
  | .gateLine, _ => ⟨_, exec_gateLine s, .of_wf State.gateLine_wf⟩
  | .panelOn port w, _ => ⟨_, exec_panelOn s port w, .of_fit fun u => u.hostWrite_fit port Reg.PANELPWR_CMD (Reg.PANELPWR_CMD_ON.put w 1)⟩
  | .panelOff port w, _ => ⟨_, exec_panelOff s port w, .of_fit fun u => u.hostWrite_fit port Reg.PANELPWR_CMD (Reg.PANELPWR_CMD_OFF.put w 1)⟩
  | .powerOnStep, _ => ⟨_, exec_powerOnStep s, .of_wf State.powerOnStep_wf⟩
  | .pgInRise, _ => ⟨_, exec_pgInRise s, .of_core State.pgInRises_core⟩
  | .pgFail, _ => ⟨_, exec_pgFail s, .of_wf State.pgFail_wf⟩
  | .autoOn, _ => ⟨_, exec_autoOn s, .of_core State.autoOn_core⟩
  | .powerOffStep, _ => ⟨_, exec_powerOffStep s, .of_wf State.powerOffStep_wf⟩
  | .pfail, h => nomatch h
  | .regionAlloc port w, _ => ⟨_, exec_regionAlloc s port w,
    .of_fit fun u => u.hostWrite_fit port Reg.REGION_REQ_GO (Reg.REGION_REQ_GO_ALLOC.put w 1)⟩
  | .regionFree port w, _ => ⟨_, exec_regionFree s port w,
    .of_fit fun u => u.hostWrite_fit port Reg.REGION_REQ_GO (Reg.REGION_REQ_GO_FREE.put (Reg.REGION_REQ_GO_ALLOC.put w 0) 1)⟩
  | .regionReqDone, _ => ⟨_, exec_regionReqDone s, .of_fit State.regionServe_fit⟩
  | .dramBeat engine handle ofs wr ecc word lat waiting, _ => ⟨_, exec_dramBeat s engine handle ofs wr ecc word lat waiting,
    .of_fit fun u => u.dramBeat_fit engine handle ofs wr ecc word lat waiting⟩
  | .c0Window, _ => ⟨_, exec_c0Window s, .of_core State.c0Window_core⟩
  | .dramRefresh ch busy, _ => ⟨_, exec_dramRefresh s ch busy, .of_core fun u => u.refresh_core ch busy⟩
  | .mopSwitch, _ => ⟨_, exec_mopSwitch s, .of_core State.mopSwitch_core⟩
  | .scrubPage corr unc, _ => ⟨_, exec_scrubPage s corr unc, .of_fit fun u => u.scrub_fit corr unc⟩
  | .retireDone, _ => ⟨_, exec_retireDone s, .of_fit State.copyDone_fit⟩
  | .migrationTimeout engine handle ofs wr, _ => ⟨_, exec_migrationTimeout s engine handle ofs wr,
    .of_core fun u => u.migExpire_core engine handle ofs wr⟩
  | .fltResume port engine, _ => ⟨_, exec_fltResume s port engine,
    .of_fit fun u => u.hostWrite_fit port (Reg.MEMC_FLT_CMD engine) ((Reg.MEMC_FLT_CMD_RESUME engine).put 0 1)⟩
  | .fltSkip port engine, _ => ⟨_, exec_fltSkip s port engine,
    .of_fit fun u => u.hostWrite_fit port (Reg.MEMC_FLT_CMD engine) ((Reg.MEMC_FLT_CMD_SKIP engine).put 0 1)⟩
  | .fltAbort port engine, _ => ⟨_, exec_fltAbort s port engine,
    .of_fit fun u => u.hostWrite_fit port (Reg.MEMC_FLT_CMD engine) ((Reg.MEMC_FLT_CMD_ABORT engine).put 0 1)⟩
  | .retireCmd port w, _ => ⟨_, exec_retireCmd s port w, .of_fit fun u => u.hostWrite_fit port Reg.ECC_RETIRE_CMD w⟩
  | .bulkGo port w, _ => ⟨_, exec_bulkGo s port w, .of_fit fun u => u.hostWrite_fit port Reg.BULK_CTRL (Reg.BULK_CTRL_GO.put w 1)⟩
  | .bulkDone, _ => ⟨_, exec_bulkDone s, .of_fit State.bulkDone_fit⟩
  | .bulkWinAccess port index wr, _ => ⟨_, exec_bulkWinAccess s port index wr, .of_fit fun u => u.portAccess_fit port (Reg.BULK_WIN index) wr⟩
  | .ownWrite port bank w, _ => ⟨_, exec_ownWrite s port bank w, .of_fit fun u => u.hostWrite_fit port (Reg.BANKS_OWN bank) w⟩
  | .handover bank cycles, _ => ⟨_, exec_handover s bank cycles, .of_fit fun t => (t.inFlight_fit bank cycles).trans (State.drained_fit _ bank)⟩
  | .clearDone bank, _ => ⟨_, exec_clearDone s bank, .of_fit fun u => u.clearDone_fit bank⟩
  | .winDataAccess port wr, _ => ⟨_, exec_winDataAccess s port wr, .of_fit fun u => u.portAccess_fit port Reg.BANKS_WIN_DATA wr⟩
  | .applyGo port w, _ => ⟨_, exec_applyGo s port w, .of_fit fun u => u.hostWrite_fit port Reg.CHIP_APPLY (Reg.CHIP_APPLY_GO.put w 1)⟩
  | .validationDone, _ => ⟨_, exec_validationDone s, .of_core State.validated_core⟩
  | .chipRevert port w, _ => ⟨_, exec_chipRevert s port w, .of_fit fun u => u.hostWrite_fit port Reg.CHIP_REVERT w⟩
  | .guaranteeVoidWrite port w, _ => ⟨_, exec_guaranteeVoidWrite s port w, .of_fit fun u => u.hostWrite_fit port Reg.CHIP_GUARANTEE_VOID w⟩
  | .softRst port page w, _ => ⟨_, exec_softRst s port page w,
    .of_fit fun u => u.hostWrite_fit port (Reg.HDR_CTRL page) ((Reg.HDR_CTRL_SOFT_RST page).put w 1)⟩
  | .lockWrite port page w, _ => ⟨_, exec_lockWrite s port page w, .of_fit fun u => u.hostWrite_fit port (Reg.HDR_LOCK page) w⟩
  | .irqSet port page w, _ => ⟨_, exec_irqSet s port page w, .of_fit fun u => u.hostWrite_fit port (Reg.HDR_IRQ_SET page) w⟩
  | .irqPendWrite port page w, _ => ⟨_, exec_irqPendWrite s port page w, .of_fit fun u => u.hostWrite_fit port (Reg.HDR_IRQ_PEND page) w⟩
  | .errCountRead port page, _ => ⟨_, exec_errCountRead s port page, .of_fit fun u => u.portRead_fit port (Reg.HDR_ERR_COUNT page) true⟩
  | .read64Low port addr, _ => ⟨_, exec_read64Low s port addr, .of_fit fun u => u.portRead_fit port addr true⟩
  | .regWrite port addr w, _ => ⟨_, exec_regWrite s port addr w, .of_fit fun u => u.hostWrite_fit port addr w⟩
  | .spiWrite addr bytes, _ => ⟨_, exec_spiWrite s addr bytes, .of_fit fun u => u.spiWrite_fit addr bytes⟩
  | .spiQwrite addr bytes, _ => ⟨_, exec_spiQwrite s addr bytes, .of_fit fun u => u.spiWrite_fit addr bytes⟩
  | .spiRead addr n, _ => ⟨_, exec_spiRead s addr n, .of_fit fun u => u.spiRead_fit addr n⟩
  | .spiQread addr n, _ => ⟨_, exec_spiQread s addr n, .of_fit fun u => u.spiRead_fit addr n⟩
  | .spiStatus, _ => ⟨_, exec_spiStatus s, .of_core State.spiStatus_core⟩
  | .spiUnknownCommand code, _ => ⟨_, exec_spiUnknownCommand s code, .of_core fun u => u.spiOther_core code⟩
  | .i2cWrite addr bytes, _ => ⟨_, exec_i2cWrite s addr bytes, .of_fit fun u => u.i2cWrite_fit addr bytes⟩
  | .i2cRead addr n, _ => ⟨_, exec_i2cRead s addr n, .of_fit fun u => u.i2cRead_fit addr n⟩
  | .i2cTimeout, _ => ⟨_, exec_i2cTimeout s, .of_wf State.i2cExpires_wf⟩
  | .tunnel lane block, _ => ⟨_, exec_tunnel s lane block, .of_fit fun u => u.casBlock_fit lane block []⟩
  | .tunnelTimeout, _ => ⟨_, exec_tunnelTimeout s, .of_wf State.tunnelExpires_wf⟩
  | .ctlWdog, _ => ⟨_, exec_ctlWdog s, .of_fit State.wdogExpires_fit⟩
  | .ctlRestart port w, _ => ⟨_, exec_ctlRestart s port w, .of_fit fun u => u.hostWrite_fit port Reg.CTL_CMD (Reg.CTL_CMD_RESTART.put w 1)⟩
  | .ctlRestarted, _ => ⟨_, exec_ctlRestarted s, .of_fit State.restarted_fit⟩
  | .mboxNop, _ => ⟨_, exec_mboxNop s, .of_fit fun t => State.mboxServe_fit (fun u => .of_core (u.mboxEnd_core 0)) t 0⟩
  | .mboxVersion, _ => ⟨_, exec_mboxVersion s, .of_fit fun t => State.mboxServe_fit (fun u => .of_core u.mboxVersion_core) t 1⟩
  | .mboxEcho, _ => ⟨_, exec_mboxEcho s, .of_fit fun t => State.mboxServe_fit (fun u => .of_core (u.mboxEnd_core 0)) t 2⟩
  | .mboxHostload, _ => ⟨_, exec_mboxHostload s, .of_fit fun t => State.mboxServe_fit (fun u => u.mboxHostload_fit) t 0x10⟩
  | .mboxReboot, _ => ⟨_, exec_mboxReboot s, .of_fit fun t => State.mboxServe_fit (fun u => .of_core u.mboxReboot_core) t 0x11⟩
  | .mboxActivate, _ => ⟨_, exec_mboxActivate s, .of_fit fun t => State.mboxServe_fit (fun u => u.mboxActivate_fit) t 0x12⟩
  | .mboxCommit, _ => ⟨_, exec_mboxCommit s, .of_fit fun t => State.mboxServe_fit (fun u => .of_core u.mboxCommit_core) t 0x13⟩
  | .mboxPawn, _ => ⟨_, exec_mboxPawn s, .of_fit fun t => State.mboxServe_fit (fun u => .of_core u.mboxPawn_core) t 0x14⟩
  | .mboxSlotInfo, _ => ⟨_, exec_mboxSlotInfo s, .of_fit fun t => State.mboxServe_fit (fun u => .of_core u.mboxSlotInfo_core) t 0x15⟩
  | .mboxCoarseStore, _ => ⟨_, exec_mboxCoarseStore s,
    .of_fit fun t => State.mboxServe_fit (fun u => u.coarseStore_fit (u.mboxArg 0) (u.mboxArg 1)) t 0x40⟩
  | .mboxAgeLoad, _ => ⟨_, exec_mboxAgeLoad s, .of_fit fun t => State.mboxServe_fit (fun u => u.ageLoad_fit (u.mboxArg 0) (u.mboxArg 1)) t 0x41⟩
  | .mboxRingFormat, _ => ⟨_, exec_mboxRingFormat s, .of_fit fun t => State.mboxServe_fit (fun u => .of_core u.ringFormat_core) t 0x42⟩
  | .mboxUnknown, _ => ⟨_, exec_mboxUnknown s, .of_core State.mboxUnknown_core⟩
  | .presenceOpen, _ => ⟨_, exec_presenceOpen s, .of_core State.buttonHeld_core⟩
  | .presenceExpire, _ => ⟨_, exec_presenceExpire s, .of_wf State.presenceEnds_wf⟩
  | .presenceClose port w, _ => ⟨_, exec_presenceClose s port w, .of_fit fun u => u.hostWrite_fit port Reg.SEC_CMD (Reg.SEC_CMD_CLOSE.put w 1)⟩
  | .otpLockWrite port w, _ => ⟨_, exec_otpLockWrite s port w, .of_fit fun u => u.hostWrite_fit port Reg.SEC_OTP_LOCK w⟩
  | .xtalStable, _ => ⟨_, exec_xtalStable s, .of_core State.xtalStable_core⟩
  | .refclkWindow cycles, _ => ⟨_, exec_refclkWindow s cycles, .of_core fun u => u.refWindow_core cycles⟩
  | .pllLock pll, _ => ⟨_, exec_pllLock s pll, .of_core fun u => u.pllLocked_core pll⟩
  | .lockFail pll, _ => ⟨_, exec_lockFail s pll, .of_core fun u => u.pllFails_core pll⟩
  | .xtalFail, _ => ⟨_, exec_xtalFail s, .of_core State.xtalFails_core⟩
  | .pixRefHold, _ => ⟨_, exec_pixRefHold s, .of_core State.pixHold_core⟩
  | .lockLoss pll, _ => ⟨_, exec_lockLoss s pll, .of_core fun u => u.pllLost_core pll⟩
  | .xtalLoss, _ => ⟨_, exec_xtalLoss s, .of_core State.xtalLoss_core⟩
  | .clkCfgWrite port w, _ => ⟨_, exec_clkCfgWrite s port w, .of_fit fun u => u.hostWrite_fit port Reg.CLK_CFG w⟩
  | .clkSwitchDone mux, _ => ⟨_, exec_clkSwitchDone s mux, .of_core fun u => u.muxDone_core mux⟩
  | .swForced mux, _ => ⟨_, exec_swForced s mux, .of_core fun u => u.muxForce_core mux⟩
  | .swFail mux, _ => ⟨_, exec_swFail s mux, .of_core fun u => u.muxFailed_core mux⟩
  | .swForcedWrite port w, _ => ⟨_, exec_swForcedWrite s port w, .of_fit fun u => u.hostWrite_fit port Reg.CLK_SW_FORCED w⟩
  | .aonTrimWindow cycles, _ => ⟨_, exec_aonTrimWindow s cycles, .of_core fun u => u.trimWindow_core cycles⟩
  | .clockGateClose page, _ => ⟨_, exec_clockGateClose s page, .of_core fun u => u.gateIdle_core page⟩
  | .domainReqWrite port dom w, _ => ⟨_, exec_domainReqWrite s port dom w, .of_fit fun u => u.hostWrite_fit port (Reg.PWR_DOM_REQ dom) w⟩
  | .domainDrainDone dom, _ => ⟨_, exec_domainDrainDone s dom, .of_wf fun u => u.drainDone_wf dom⟩
  | .domainTransitionDone dom bad, _ => ⟨_, exec_domainTransitionDone s dom bad, .of_fit fun u => u.transitionDone_fit dom bad⟩
  | .domainAborted dom, _ => ⟨_, exec_domainAborted s dom, .of_core fun u => u.aborted_core dom⟩
  | .padRelease port w, _ => ⟨_, exec_padRelease s port w, .of_fit fun u => u.hostWrite_fit port Reg.PWR_PAD_RELEASE w⟩
  | .opCfgWrite port w, _ => ⟨_, exec_opCfgWrite s port w, .of_fit fun u => u.hostWrite_fit port Reg.PWR_OP_CFG w⟩
  | .vserWrite port w, _ => ⟨_, exec_vserWrite s port w, .of_fit fun u => u.hostWrite_fit port Reg.PWR_VSER w⟩
  | .avsPoll mv crcErr, _ => ⟨_, exec_avsPoll s mv crcErr, .of_wf fun u => u.avsPoll_wf mv crcErr⟩
  | .avsFail nak, _ => ⟨_, exec_avsFail s nak, .of_wf fun u => u.avsFailed_wf nak⟩
  | .gpioWakeEdge gpio, _ => ⟨_, exec_gpioWakeEdge s gpio, .of_core fun u => u.wakeSource_core (8 + gpio)⟩
  | .aonAlarm, _ => ⟨_, exec_aonAlarm s, .of_wf State.alarmFires_wf⟩
  | .alarmWrite port high w, _ => ⟨_, exec_alarmWrite s port high w,
    .of_fit fun u => u.hostWrite_fit port (if high then Reg.AON_ALARM_HI else Reg.AON_ALARM) w⟩
  | .wakeCauseWrite port w, _ => ⟨_, exec_wakeCauseWrite s port w, .of_fit fun u => u.hostWrite_fit port Reg.AON_WAKE_CAUSE w⟩
  | .powerOnMinTick, _ => ⟨_, exec_powerOnMinTick s, .of_wf State.minuteTick_wf⟩
  | .supplyMonitorTrip _, h => nomatch h
  | .powerOnReset, h => nomatch h
  | .resetNLow, h => nomatch h
  | .resetNRise _, h => nomatch h
  | .nvAppend port wpN w, _ => ⟨_, exec_nvAppend s port wpN w,
    .of_fit fun t => (Fit.of_core (t.setWp_core wpN)).trans (State.hostWrite_fit _ port _ _)⟩
  | .nvRead port w, _ => ⟨_, exec_nvRead s port w, .of_fit fun u => u.hostWrite_fit port Reg.NV_REC_CMD (Reg.NV_REC_CMD_OP.put w 2)⟩
  | .nvDelete port wpN w, _ => ⟨_, exec_nvDelete s port wpN w,
    .of_fit fun t => (Fit.of_core (t.setWp_core wpN)).trans (State.hostWrite_fit _ port _ _)⟩
  | .rawRead port w, _ => ⟨_, exec_rawRead s port w, .of_fit fun u => u.hostWrite_fit port Reg.NV_RAW_CMD (Reg.NV_RAW_CMD_OP.put w 1)⟩
  | .nvProgram port wpN jmpN w, _ => ⟨_, exec_nvProgram s port wpN jmpN w,
    .of_fit fun t => (Fit.of_core (t.setPins_core wpN jmpN)).trans (State.hostWrite_fit _ port _ _)⟩
  | .erase4k port wpN jmpN w, _ => ⟨_, exec_erase4k s port wpN jmpN w,
    .of_fit fun t => (Fit.of_core (t.setPins_core wpN jmpN)).trans (State.hostWrite_fit _ port _ _)⟩
  | .erase64k port wpN jmpN w, _ => ⟨_, exec_erase64k s port wpN jmpN w,
    .of_fit fun t => (Fit.of_core (t.setPins_core wpN jmpN)).trans (State.hostWrite_fit _ port _ _)⟩
  | .flashOpDone wpN, _ => ⟨_, exec_flashOpDone s wpN, .of_fit fun t => (Fit.of_core (t.setWp_core wpN)).trans (State.flashDone_fit _)⟩
  | .flashTimeout, _ => ⟨_, exec_flashTimeout s, .of_core State.flashTimeout_core⟩
  | .nvSave port wpN w, _ => ⟨_, exec_nvSave s port wpN w, .of_fit fun t => (Fit.of_core (t.setWp_core wpN)).trans (State.hostWrite_fit _ port _ _)⟩
  | .nvScan wpN, _ => ⟨_, exec_nvScan s wpN, .of_fit fun t => (Fit.of_core (t.setWp_core wpN)).trans (State.nvScan_fit _)⟩
  | .bufDataAccess port wr, _ => ⟨_, exec_bufDataAccess s port wr, .of_fit fun u => u.portAccess_fit port Reg.NV_BUF_DATA wr⟩
  | .ageDataRead port, _ => ⟨_, exec_ageDataRead s port, .of_fit fun u => u.portRead_fit port Reg.NV_AGE_DATA true⟩
  | .bootAttempt jedec, _ => ⟨_, exec_bootAttempt s jedec, .of_fit fun u => u.bootAttempt_fit jedec⟩
  | .dramTrainDone mask, _ => ⟨_, exec_dramTrainDone s mask, .of_fit fun u => u.dramTrained_fit mask⟩
  | .bootOk w, _ => ⟨_, exec_bootOk s w, .of_fit fun u => u.hostWrite_fit 3 Reg.TEST_BOOT_OK w⟩
  | .bootTimeout, _ => ⟨_, exec_bootTimeout s, fun _ h => State.bootTimeout_wf h⟩
  | .sramTurn result, _ => ⟨_, exec_sramTurn s result, .of_fit fun u => u.sramTurn_fit result⟩
  | .dramTurn result, _ => ⟨_, exec_dramTurn s result, .of_fit fun u => u.dramTurn_fit result⟩
  | .lutTurn result, _ => ⟨_, exec_lutTurn s result, .of_core fun u => u.lutTurn_core result⟩
  | .perturbWrite port off w, _ => ⟨_, exec_perturbWrite s port off w, .of_fit fun u => u.hostWrite_fit port (Reg.HDR_UNIT_ID 8 + off) w⟩
  | .perturbStop port w, _ => ⟨_, exec_perturbStop s port w, .of_fit fun u => u.hostWrite_fit port Reg.PERTURB_STOP w⟩
  | .extest _ _, h => nomatch h
  | .samplePreload _ _, h => nomatch h
  | .idcode _, h => nomatch h
  | .clamp _, h => nomatch h
  | .highz _, h => nomatch h
  | .extestPulse _ _, h => nomatch h
  | .extestTrain _ _, h => nomatch h
  | .runbist _, h => nomatch h
  | .bistDone _ _, h => nomatch h
  | .bypass _ _, h => nomatch h
  | .tapReset, h => nomatch h
  | .casFsync lane block, _ => ⟨_, exec_casFsync s lane block, .of_fit fun u => u.casBlock_fit lane block []⟩
  | .casSeam lane block bytes, _ => ⟨_, exec_casSeam s lane block bytes, .of_fit fun u => u.casBlock_fit lane block bytes⟩
  | .casPos lane block, _ => ⟨_, exec_casPos s lane block, .of_fit fun u => u.casBlock_fit lane block []⟩
  | .casTrainRetry lane, _ => ⟨_, exec_casTrainRetry s lane, .of_wf fun u => u.casRetry_wf lane⟩
  | .ledStatToggle, _ => ⟨_, exec_ledStatToggle s, .of_wf State.ledToggle_wf⟩
  | .bcRxLock inverted, _ => ⟨_, exec_bcRxLock s inverted, .of_core fun u => u.bcRxLocks_core inverted⟩
  | .pwrFailNHigh, h => nomatch h
  | .supplyBackInRange _, h => nomatch h
  | .blPwmPulse, _ => ⟨_, exec_blPwmPulse s, .of_wf State.pwmPulse_wf⟩
  | .fsyncOutPulseEnd, _ => ⟨_, exec_fsyncOutPulseEnd s, .of_wf State.fsyncOutEnd_wf⟩
  | .hcmdDone, _ => ⟨_, exec_hcmdDone s, .of_wf State.hcmdDone_wf⟩

theorem Canonical.unheld {f : State → State} (hf : Canonical f) {s t : State} (hs : s.core.wf = true) (h : s.unheld f = .next t) :
    t.core.wf = true := by
  rw [State.unheld, Host.Outcome.next.injEq] at h
  rw [← h]
  split
  · exact hs
  · rw [State.after_wf, State.sameHold_core]
    exact hf s hs

theorem Canonical.always {f : State → State} (hf : Canonical f) {s t : State} (hs : s.core.wf = true) (h : s.always f = .next t) :
    t.core.wf = true := by
  rw [State.always, Host.Outcome.next.injEq] at h
  rw [← h, State.after_wf, State.sameHold_core]
  exact hf s hs

theorem Canonical.resets {f : State → State} (hf : Canonical f) {s t : State} (hs : s.core.wf = true) (h : s.resets f = .next t) :
    t.core.wf = true := by
  rw [State.resets, Host.Outcome.next.injEq] at h
  rw [← h, State.after_wf]
  exact hf s hs

/-- A command that acts in reset, too, leaves the memories canonical. -/
theorem exec_held_canonical {s t : State} (hs : s.core.wf = true) : ∀ c : Instr, actsInReset c = true → exec c s = .next t → t.core.wf = true
  | .pfail, _, h => (Canonical.of_core State.powerFails_core).always hs h
  | .supplyMonitorTrip aon, _, h => (Canonical.of_fit fun u => u.supplyTrips_fit aon).resets hs h
  | .powerOnReset, _, h => (Canonical.of_fit fun u => u.supplyTrips_fit true).resets hs h
  | .resetNLow, _, h => (Canonical.of_fit State.resetLow_fit).resets hs h
  | .resetNRise gpio, _, h => (Canonical.of_core fun u => u.resetRise_core gpio).resets hs h
  | .extest pins dr, _, h => (Canonical.of_core fun u => u.tapBoundary_core tapEXTEST pins dr).always hs h
  | .samplePreload pins dr, _, h => (Canonical.of_core fun u => u.tapBoundary_core tapSAMPLE pins dr).always hs h
  | .idcode dr, _, h => (Canonical.of_core fun u => u.tapScan_core tapIDCODE idcodeBits dr (fun _ t => t)).always hs h
  | .clamp dr, _, h => (Canonical.of_core fun u => u.tapBypass_core tapCLAMP dr).always hs h
  | .highz dr, _, h => (Canonical.of_core fun u => u.tapBypass_core tapHIGHZ dr).always hs h
  | .extestPulse pins dr, _, h => (Canonical.of_core fun u => u.tapBoundary_core tapPULSE pins dr).always hs h
  | .extestTrain pins dr, _, h => (Canonical.of_core fun u => u.tapBoundary_core tapTRAIN pins dr).always hs h
  | .runbist dr, _, h => (Canonical.of_fit fun u => u.runBist_fit dr).always hs h
  | .bistDone fail unit, _, h => (Canonical.of_core fun u => u.bistDone_core fail unit).always hs h
  | .tapReset, _, h => (Canonical.of_core State.tapReset_core).always hs h
  | .pwrFailNHigh, _, h => (Canonical.of_core State.powerBack_core).always hs h
  | .supplyBackInRange gpio, _, h => (Canonical.of_core fun u => u.resetRise_core gpio).resets hs h
  | .bypass code dr, _, h => by
    rw [exec_bypass] at h
    split at h
    · cases h
    · exact (Canonical.of_core fun t => t.tapBypass_core code dr).always hs h

/-- Settles O7: every command leaves the memories as they are, or changes them by an operation that keeps their form; the
empty queue's tick moves the clock alone. -/
theorem memoriesStayCanonical : Obligations.MemoriesStayCanonical := by
  intro s t hs hstep
  rw [Memory.wf_eq] at hs ⊢
  unfold step at hstep
  split at hstep
  next c rest _ =>
    have hrest : ({ s with pending := rest } : State).core.wf = true := hs
    cases hc : actsInReset c with
    | false =>
      obtain ⟨f, hf, hcanon⟩ := exec_unheld_canonical { s with pending := rest } c hc
      exact hcanon.unheld hrest (hf.symm.trans hstep)
    | true => exact exec_held_canonical hrest c hc hstep
  next =>
    rw [Host.Outcome.next.injEq] at hstep
    rw [← hstep, State.advance_wf]
    exact hs

end Sys2Proof.Machine
end
